-- ==== Sys2Proof/Word.lean ====
section
/-! DEFINITION. The bit-vector types of the CLZ9100 and the type of sparse maps. -/

namespace Sys2Proof

/-- A byte of any memory of the node. -/
abbrev Byte := BitVec 8

/-- A 32-bit register or a QW32 (R40, R173). -/
abbrev Word := BitVec 32

/-- A 24-bit point ID: class in [23:20], index in [19:0] (R17). -/
abbrev PointId := BitVec 24

/-- Data by number, for the node's register files and for what it keeps of each point, channel or
leg: the numbers rise strictly and no listed entry equals what an unlisted number holds. -/
abbrev SMap (α : Type) := List (Nat × α)

/-- The nine PCIe functions: 0 physical, k the virtual function of partition P(k-1) (R226). -/
abbrev Fn := Fin 9

/-- A written 4-byte value with its byte enables: `none` is a byte that is not enabled (R177). -/
abbrev WriteBytes := List (Option Byte)

end Sys2Proof
end

