-- ==== Sys2Proof/Syntax.lean ====
section
/-! DEFINITION. The commands of the node: one constructor per row of the opcode table. A measured
quantity that the plant, a clock or another device supplies stands as an operand of the command
that takes it. -/

namespace Sys2Proof

/-- One 64-byte command-ring entry less its OPCODE (R253). -/
structure Entry where
  flags : Byte
  reserved : BitVec 16
  tag : Word
  operands : List Byte
  deriving DecidableEq, Repr

/-- A supply rail and how it leaves its window (R88). -/
inductive Rail where
  | vaux | vddCore
  /-- the level VDD_IO stands at, and the one that STRAP_IO selects: 3.3 V, or 1.8 V (R1122) -/
  | vddIo (high strap : Bool)
  | vdda
  | vfield (c : Fin 3) (high : Bool)
  | vdrv | vlcd
  deriving DecidableEq, Repr

/-- An exact number from the plant: `num / den`; a zero `den` stands for 1. -/
structure Exact where
  num : Int
  den : Nat
  deriving DecidableEq, Repr

/-- An alternating quantity as its two components: in phase with the bank's phase counter, and lagging it by a quarter
period (R402). A quantity that does not alternate is its first component. -/
structure Wave where
  along : Exact
  lag : Exact
  deriving DecidableEq, Repr

/-- What a pulse input's pair does: at `time`, in units of 2.5 ns, its differential voltage becomes `mv`, in mV, and it
stays so far that the comparator keeps its level for `width` such units (R557, R558). -/
structure PulseStep where
  time : Nat
  mv : Int
  width : Nat
  deriving DecidableEq, Repr

/-- What the short detectors of a leg see (R598): V(ISPn) − V(ISNn) in 20 µV, V(SWn) in mV, and whether GH is on, else GL. -/
structure LegSense where
  isense : Int
  sw : Int
  high : Bool
  deriving DecidableEq, Repr

/-- A short detector that fires: what it sees, and whether its leg is in blanking (R598, R599). -/
structure ShortSeen where
  sense : LegSense
  blanking : Bool
  deriving DecidableEq, Repr

/-- A slot that begins: 0 the node slot, k the slot of partition P(k-1); and the T_CMD that each command begun in it needs
beyond its first (R335, R337). -/
structure SlotRun where
  slot : Fin 9
  work : List Nat
  deriving DecidableEq, Repr

/-- The voltages of a channel's four balls to AGND, in µV. -/
structure BallVolts where
  exa : Int
  sna : Int
  snb : Int
  exb : Int
  deriving DecidableEq, Repr

/-- The insulation resistances of the two sense balls to AGND, in Ω (R481). -/
structure Insulation where
  sna : Nat
  snb : Nat
  deriving DecidableEq, Repr

/-- What a sentry scan of an entry sees: the signals of an analog channel as ACQ has them, or a contact's resistance in
ohm, none when the compliance is reached (R369, R549). -/
structure SentrySeen where
  sense : Wave
  drive : Wave
  ohm : Option Nat
  deriving DecidableEq, Repr

/-- What a burst of the DMA engine meets: the limit the host has negotiated for a request of it (R902), 0 for 128; and
the fabric cycles since the engine's last burst (R875). -/
structure BurstAt where
  limit : Fin 4097
  cycles : Nat
  deriving DecidableEq, Repr

/-- Where a lease request arrives: on one port; or on port 0 in the cycle in which `other` arrives on port 1 (R981). -/
inductive LeaseAt where
  | port (p : Fin 2)
  | both (other : List Byte)
  deriving DecidableEq, Repr

/-- A received Saddle frame less its type, length and payload (R953): SFLAGS, SEQ, ACK, SET, and whether
its CRC is correct. -/
structure SaddleHdr where
  sflags : Byte
  seq : Word
  ack : Word
  set : Word
  crcOk : Bool
  deriving DecidableEq, Repr

/-- What an NVMe completion of a member reports: its writes of the oldest step of a chunk that waits for them are done (the
header of a new unit, the body blocks, the mark block); a write
failed with an unrecovered media error; a read of a member block failed; a block rewritten under R853 is written. -/
inductive NvmeEnd where
  | done
  | failed
  | unread (block : Nat)
  | rewritten (block : Nat)
  deriving DecidableEq, Repr

/-- A drive that answers on a root port, in the terms of R817: whether namespace 1 exists, the data size of its formatted
LBA and its metadata in bytes, the I/O queue pairs that it accepts and their depth, its capacity in 4 KiB blocks, and the
blocks of 4,096 bytes that it holds; a block that is not listed reads as zeros. -/
structure Drive where
  ns1 : Bool
  lba : Nat
  metadata : Nat
  queues : Nat
  depth : Nat
  blocks : Nat
  data : SMap (List Byte)
  deriving DecidableEq, Repr

inductive Instr where
  /-- R265 -/
  | nop (fn : Fn) (e : Entry)
  /-- R1189 -/
  | substitute (fn : Fn) (e : Entry)
  /-- R1190 -/
  | unsubstitute (fn : Fn) (e : Entry)
  /-- R643 -/
  | setSetpoint (fn : Fn) (e : Entry)
  /-- R634 -/
  | setLoopMode (fn : Fn) (e : Entry)
  /-- R635 -/
  | setManualOutput (fn : Fn) (e : Entry)
  /-- R699 -/
  | alarmAck (fn : Fn) (e : Entry)
  /-- R706 -/
  | alarmShelve (fn : Fn) (e : Entry)
  /-- R699 -/
  | alarmUnshelve (fn : Fn) (e : Entry)
  /-- R699 -/
  | alarmService (fn : Fn) (e : Entry)
  /-- R742 -/
  | callAck (fn : Fn) (e : Entry)
  /-- R1194 -/
  | subscribe (fn : Fn) (e : Entry)
  /-- R1194 -/
  | readPoints (fn : Fn) (e : Entry)
  /-- R214 -/
  | tableSwap (fn : Fn) (e : Entry)
  /-- R572 -/
  | tripClear (fn : Fn) (e : Entry)
  /-- R541 -/
  | fskSend (fn : Fn) (e : Entry)
  /-- R924 -/
  | canSend (fn : Fn) (e : Entry)
  /-- R1192 -/
  | dataCont (fn : Fn) (e : Entry)
  /-- R809 -/
  | recClearArm (fn : Fn) (e : Entry)
  /-- R811 -/
  | recClearConfirm (fn : Fn) (e : Entry)
  /-- R662 -/
  | tuneStart (fn : Fn) (e : Entry)
  /-- R674 -/
  | tuneStop (fn : Fn) (e : Entry)
  /-- R1001 -/
  | sdlResync (fn : Fn) (e : Entry)
  /-- R1003 -/
  | sdlSwitchback (fn : Fn) (e : Entry)
  /-- R140: value written to NODE_MODE_REQ, with its byte enables -/
  | modeRequest (fn : Fn) (v : Word) (be : BitVec 4)
  /-- R142 -/
  | nodeReset (fn : Fn) (v : Word) (be : BitVec 4)
  /-- R163: value written to NODE_IMG_CMD -/
  | eraseBank (fn : Fn) (v : Word) (be : BitVec 4)
  /-- R164 -/
  | commitBank (fn : Fn) (v : Word) (be : BitVec 4)
  /-- R1097 -/
  | imageApply (fn : Fn) (v : Word) (be : BitVec 4)
  /-- R1104: value written to NODE_UC_CTL -/
  | ucodeOpen (fn : Fn) (v : Word) (be : BitVec 4)
  /-- R1104 -/
  | ucodeData (fn : Fn) (v : Word) (be : BitVec 4)
  /-- R1105 -/
  | ucodeApply (fn : Fn) (v : Word) (be : BitVec 4)
  /-- R1109 -/
  | ucodeStore (fn : Fn) (v : Word) (be : BitVec 4)
  /-- R1109 -/
  | ucodeErase (fn : Fn) (v : Word) (be : BitVec 4)
  /-- R91 -/
  | domainEnable (fn : Fn) (v : Word) (be : BitVec 4)
  /-- R116 -/
  | budgetWrite (fn : Fn) (v : Word) (be : BitVec 4)
  /-- R234: write to HOST_RING_CFG of ring `r` in the page of function `page` -/
  | ringEnable (fn : Fn) (page : Fn) (r : Fin 4) (v : Word) (be : BitVec 4)
  /-- R282 -/
  | ringDisable (fn : Fn) (page : Fn) (r : Fin 4) (v : Word) (be : BitVec 4)
  /-- R238: the host's own memory writes before the doorbell, then the doorbell -/
  | doorbell (fn : Fn) (mem : List (Nat × Byte)) (r : Fin 4) (v : Word) (be : BitVec 4)
  /-- R279 -/
  | functionLevelReset (fn : Fn)
  /-- R143: SPEED and WIDTH after the link trains again (0 down) -/
  | hostReset (speed : Fin 5) (width : Fin 5)
  /-- R878 -/
  | linkRetrain (speed : Fin 5) (width : Fin 5)
  /-- R177: 1 to 8 bytes from `off`, each with its enable -/
  | regWrite (fn : Fn) (off : BitVec 21) (data : WriteBytes)
  /-- R175 -/
  | malformedBar0Read (fn : Fn) (off : BitVec 21) (len : Nat)
  /-- R181 -/
  | upperLatch (fn : Fn) (off : BitVec 21)
  /-- R1014 -/
  | calendarLatch (fn : Fn)
  /-- R211 -/
  | tableMemoryWrite (fn : Fn) (off : BitVec 26) (data : List Byte)
  /-- R215 -/
  | nvmWindowWrite (fn : Fn) (off : BitVec 26) (data : List Byte)
  /-- R223 -/
  | frameMemoryWrite (fn : Fn) (off : BitVec 26) (data : List Byte)
  /-- R1054 -/
  | lcdFrameMemoryWrite (fn : Fn) (off : BitVec 26) (data : List Byte)
  /-- R1064 -/
  | statusPortRead (addr : BitVec 12)
  /-- R88; `reached` bytes of a page being programmed were done, or 257: the page is whole and the erase that follows it is
  under way (R168 to R172) -/
  | railLoss (rail : Rail) (reached : Fin 258)
  /-- R519, R177 -/
  | railReturn (rail : Rail)
  /-- R142 -/
  | pinReset
  /-- R140 -/
  | wakeN
  /-- R149: clocks good, no SRAM pattern failure, no lease-gate failure, the straps -/
  | startUp (refOk : Bool) (pllOk : Bool) (sramOk : Bool) (gateOk : Bool) (ioLevel : Bool) (strapTest : Bool)
  /-- R112 -/
  | leaveGrant
  /-- R117: the request of this kind and domain has waited TMO -/
  | leaveTimeout (dom : Fin 30)
  /-- R113 -/
  | surgeRelease (dom : Fin 30)
  /-- R93 -/
  | domainOn (dom : Fin 30)
  /-- R95 -/
  | domainOff (dom : Fin 30)
  /-- R101 -/
  | xtalLoss
  /-- R102 -/
  | xtalReturn
  /-- R103 -/
  | pllmLoss
  /-- R103 -/
  | pllmRelock
  /-- R104 -/
  | pllcLoss
  /-- R1178 -/
  | refLoss
  /-- R132 -/
  | safeHoldOpen
  /-- R1096: cause code 1 to 6 -/
  | nodeFatal (cause : Fin 7)
  /-- R28 -/
  | frameBoundary
  /-- R337 -/
  | slotBegin (slot : SlotRun)
  /-- R342 -/
  | baseTick
  /-- R349 -/
  | scanNop (entry : Nat)
  /-- R469: a filter output of channel `ch`: the serving cell's raw result in codes, and the raw result of the cell that
  converts beside it. In the sine modes `sense` is the sense signal, in codes times 1 V, and `drive` is V(EXA) − V(EXB)
  as measured at the balls, in V (R402) -/
  | acq (ch : Fin 128) (sense drive : Wave) (beside : Exact)
  /-- R553 -/
  | contact (entry : Nat)
  /-- R561 -/
  | pulse (entry : Nat)
  /-- R611 -/
  | position (entry : Nat)
  /-- R1173: the monitor reading in its unit -/
  | internal (entry : Nat) (reading : Exact)
  /-- R651 -/
  | loop (entry : Nat)
  /-- R503 -/
  | out (entry : Nat)
  /-- R892 -/
  | dmaSignal (entry : Nat)
  /-- R626: engine cycles from its dispatch to its output write -/
  | loopEvaluation (l : Fin 128) (cycles : Nat)
  /-- R656 -/
  | deadlineMiss (l : Fin 128)
  /-- R673 -/
  | captureTimeout (b : Fin 4)
  /-- R676 -/
  | release (fn : Fn) (b : Fin 4) (v : Word) (be : BitVec 4)
  /-- R659: lane and its next lane without a failure -/
  | macLaneSelftest (lane : Fin 4) (ok : Bool)
  /-- R360 -/
  | blankActive (b : Fin 8)
  /-- R360 -/
  | blankPostEnd (b : Fin 8)
  /-- R364 -/
  | blankStuck (b : Fin 8)
  /-- R368 -/
  | sentryScan (e : Fin 16) (seen : SentrySeen)
  /-- R379: write of a channel set-up register: 0 MODE, 1 EXC, 2 TSRC, 3 LEAD, 4 FILT -/
  | acqSetupWrite (fn : Fn) (ch : Fin 128) (reg : Fin 5) (v : Word) (be : BitVec 4)
  /-- R393: the lead measured, in mΩ -/
  | rtd3PhaseChange (ch : Fin 128) (lead : Nat)
  /-- R415 -/
  | protectionOpen (ch : Fin 128)
  /-- R415 -/
  | protectionEnd (ch : Fin 128)
  /-- R415 -/
  | shuntOpen (ch : Fin 128)
  /-- R416 -/
  | shuntReconnectTest (ch : Fin 128) (ok : Bool)
  /-- R410: bias in mV -/
  | iepeBiasCheck (ch : Fin 128) (bias : Nat)
  /-- R438 -/
  | rotationPhaseEnd (b : Fin 8)
  /-- R446: offset in codes, gain error in ppm, and the excitation measured in a mode with one: a current in nA, or the
  amplitude of a sine in µV -/
  | calibrationEnd (b : Fin 8) (ofs : Int) (gain : Int) (exc : Nat)
  /-- R452 -/
  | cellMonitorFail (ch : Fin 128) (reference : Bool)
  /-- R460 -/
  | calAged (b : Fin 8)
  /-- R478: one measurement of the balls -/
  | cmCheck (ch : Fin 128) (v : BallVolts)
  /-- R481 -/
  | testToneStart (ch : Fin 128)
  /-- R484: loop resistance in Ω, insulation resistances -/
  | testToneEnd (ch : Fin 128) (loopR : Nat) (ins : Insulation)
  /-- R495 -/
  | loopModeWrite (fn : Fn) (ch : Fin 48) (v : Word) (be : BitVec 4)
  /-- R493 -/
  | cellModeEnter (ch : Fin 48)
  /-- R509: 100 ms averages of READBACK and DRIVE in µA, V(LP) − V(LN) in 10 mV, the reservoir in 100 mV, and whether V(LP) lies more than 2 V above the drive voltage -/
  | readbackUpdate (ch : Fin 48) (readback : BitVec 16) (drive : BitVec 16) (vloop : BitVec 16) (vres : BitVec 8) (short : Bool)
  /-- R512: 0 to 5 COMPLIANCE, OPEN_LOOP, LEAK, PARALLEL_DRIVE, FIELD_SHORT, REVERSE -/
  | loopFaultSet (ch : Fin 48) (fault : Fin 11)
  /-- R517 -/
  | lnSwitchOpen (ch : Fin 48)
  /-- R517 -/
  | lnReconnectTest (ch : Fin 48) (ok : Bool)
  /-- R512: above 150 °C, or below 130 °C again -/
  | overtemp (ch : Fin 48) (hot : Bool)
  /-- R522 -/
  | wdHold (ch : Fin 48)
  /-- R523 -/
  | wdOpen (ch : Fin 48)
  /-- R527 -/
  | force (fn : Fn) (ch : Fin 48) (v : Word) (be : BitVec 4)
  /-- R533 -/
  | store (fn : Fn) (ch : Fin 48) (v : Word) (be : BitVec 4)
  /-- R533 -/
  | storeDone
  /-- R531: 0 BTN_Z, 1 BTN_S, 2 BTN_UP, 3 BTN_DN -/
  | buttonPress (b : Fin 4)
  /-- R531: `late` from 3 s on -/
  | buttonRepeat (b : Fin 4) (late : Bool)
  /-- R531 -/
  | buttonStoreHold
  /-- R541 -/
  | fskTxStart (ch : Fin 48)
  /-- R541 -/
  | fskCarrierTimeout (ch : Fin 48)
  /-- R542 -/
  | fskTxEnd (ch : Fin 48)
  /-- R545 -/
  | fskRxEnd (ch : Fin 48) (data : List Byte) (status : Byte)
  /-- R549: resistance in ohm; none when the compliance is reached -/
  | contactSample (n : Fin 64) (ohm : Option Nat)
  /-- R558 -/
  | pulseEdge (m : Fin 16) (e : PulseStep)
  /-- R559 -/
  | gateEnd (m : Fin 16) (time : Nat)
  /-- R560 -/
  | pulseTimeout (m : Fin 16)
  /-- R572: trip input levels after the change -/
  | tripCauseRise (inputs : Word)
  /-- R572 -/
  | tripCauseFall (inputs : Word)
  /-- R589 -/
  | armRequest (fn : Fn) (n : Fin 12) (v : Word) (be : BitVec 4)
  /-- R590 -/
  | legDisarm (fn : Fn) (n : Fin 12) (v : Word) (be : BitVec 4)
  /-- R590 -/
  | prechargeEnd (n : Fin 12)
  /-- R593: V(ISPn) − V(ISNn) of each leg of the group at the centre of GL, in 20 µV, in ascending order -/
  | carrierZero (n : Fin 12) (isense : List (BitVec 16))
  /-- R598 -/
  | shortDetectorFire (n : Fin 12) (seen : ShortSeen)
  /-- R599 -/
  | blankingEnd (n : Fin 12) (seen : LegSense)
  /-- R605 -/
  | legWatchdogExpiry (n : Fin 12)
  /-- R607 -/
  | quadratureEdge (n : Fin 4) (a : Bool) (b : Bool)
  /-- R609 -/
  | indexEdge (n : Fin 4)
  /-- R766 -/
  | accept (panel : Fin 16) (data : List Byte)
  /-- R764 -/
  | ack (panel : Fin 16) (data : List Byte)
  /-- R763 -/
  | callFrameRepeat
  /-- R797: trigger 0 to 255, 256 the FAULT stream -/
  | recordClose (t : Fin 257)
  /-- R798: trigger 0 to 255, 256 the FAULT stream -/
  | tailPage (t : Fin 257)
  /-- R770 -/
  | otPage
  /-- R809 -/
  | clearArmExpiry
  /-- R811 -/
  | clearDone
  /-- R276 -/
  | recordDelivery (fn : Fn)
  /-- R271 -/
  | holdQueueDrain (fn : Fn)
  /-- R245 -/
  | msixMessage (fn : Fn) (vec : Fin 4)
  /-- R322: guarantee code 1 to 7 -/
  | guaranteeBreachStart (p : Fin 8) (code : Fin 8)
  /-- R323: duration in µs -/
  | guaranteeBreachEnd (p : Fin 8) (code : Fin 8) (us : Nat)
  /-- R819: value written to BSN_CTL -/
  | create (fn : Fn) (v : Word) (be : BitVec 4)
  /-- R828 -/
  | basinAdmit (fn : Fn) (v : Word) (be : BitVec 4)
  /-- R864 -/
  | detach (fn : Fn) (v : Word) (be : BitVec 4)
  /-- R856 -/
  | replace (fn : Fn) (v : Word) (be : BitVec 4)
  /-- R866 -/
  | retire (fn : Fn) (v : Word) (be : BitVec 4)
  /-- R847 -/
  | eraseKey (fn : Fn) (v : Word) (be : BitVec 4)
  /-- R832 -/
  | chunkWrite (log : Nat)
  /-- R826 -/
  | nvmeCompletion (m : Fin 4) (what : NvmeEnd)
  /-- R851: cause 0 to 3 -/
  | memberLost (m : Fin 4) (cause : Fin 4)
  /-- R855: critical-warning byte -/
  | healthLogRead (m : Fin 4) (warning : Byte)
  /-- R857 -/
  | rebuildStrip
  /-- R835 -/
  | waveformCaptureEnd (s : Fin 16)
  /-- R886 -/
  | dpGo (fn : Fn) (n : Fin 8) (v : Word) (be : BitVec 4)
  /-- R912 -/
  | dpStop (fn : Fn) (n : Fin 8) (v : Word) (be : BitVec 4)
  /-- R888 -/
  | move (n : Fin 8)
  /-- R890 -/
  | dmaLoop (n : Fin 8)
  /-- R891 -/
  | wait (n : Fin 8)
  /-- R895 -/
  | signal (n : Fin 8)
  /-- R873: 0 to 7 DP, 8 to 15 DL; what the burst meets -/
  | dmaBurst (n : Fin 16) (at_ : BurstAt)
  /-- R889: bank -/
  | portRequest (b : Fin 8)
  /-- R913: bank; whether a burst of it has begun -/
  | portWithdraw (b : Fin 8) (begun : Bool)
  /-- R900 -/
  | dlGo (fn : Fn) (n : Fin 8) (mem : List (Nat × Byte)) (v : Word) (be : BitVec 4)
  /-- R912 -/
  | dlStop (fn : Fn) (n : Fin 8) (v : Word) (be : BitVec 4)
  /-- R898 -/
  | descriptor (n : Fin 8)
  /-- R903: 0 UR, 1 CA, 2 poisoned, 3 timeout -/
  | dmaHostError (n : Fin 16) (kind : Fin 4)
  /-- R907: whether the read-back, where there is one, succeeds (R908) -/
  | completionPulse (n : Fin 16) (ok : Bool)
  /-- R905 -/
  | ownerChange (fn : Fn) (n : Fin 8) (v : Word) (be : BitVec 4)
  /-- R926 -/
  | startOfFrame (c : Fin 8)
  /-- R925: 0 acknowledged, 1 arbitration lost, 2 an error -/
  | txOutcome (c : Fin 8) (outcome : Fin 3) (timestamp : BitVec 64)
  /-- R928 -/
  | txTmo (c : Fin 8) (b : Fin 3)
  /-- R933 -/
  | frameReceived (c : Fin 8) (format : BitVec 5) (ident : BitVec 29) (dlc : BitVec 4) (data : List Byte) (timestamp : BitVec 64)
  /-- R942 -/
  | protocolException (c : Fin 8)
  /-- R940 -/
  | busOff (c : Fin 8)
  /-- R941 -/
  | recover (fn : Fn) (c : Fin 8) (v : Word) (be : BitVec 4)
  /-- R941 -/
  | recoveryEnd (c : Fin 8)
  /-- R945 -/
  | canModeWrite (fn : Fn) (c : Fin 8) (v : Word) (be : BitVec 4)
  /-- R945 -/
  | canModeEffect (c : Fin 8)
  /-- R955 -/
  | heartbeatTimer
  /-- R957 -/
  | heartbeat (h : SaddleHdr) (data : List Byte)
  /-- R962 -/
  | sync (h : SaddleHdr) (data : List Byte)
  /-- R965 -/
  | mirror (h : SaddleHdr) (data : List Byte)
  /-- R965 -/
  | commit (h : SaddleHdr) (data : List Byte)
  /-- R970 -/
  | record (h : SaddleHdr) (data : List Byte)
  /-- R997 -/
  | resync (h : SaddleHdr) (data : List Byte)
  /-- R984 -/
  | failed (h : SaddleHdr) (data : List Byte)
  /-- R984 -/
  | handover (h : SaddleHdr) (data : List Byte)
  /-- R995 -/
  | taken (h : SaddleHdr) (data : List Byte)
  /-- R960 -/
  | saddleRetransmit
  /-- R961 -/
  | contactLoss
  /-- R975 -/
  | leaseRequestTimer
  /-- R978 -/
  | leaseRequest (at_ : LeaseAt) (data : List Byte)
  /-- R977 -/
  | leaseGrant (data : List Byte)
  /-- R976 -/
  | leaseDeny (data : List Byte)
  /-- R979 -/
  | leaseRelease (port : Fin 2) (data : List Byte)
  /-- R985 -/
  | leaseExpiry
  /-- R979 -/
  | arbiterLeaseEnd
  /-- R982 -/
  | arbiterHoldoffEnd
  /-- R993 -/
  | takeoverLegArm
  /-- R1004 -/
  | switchbackTimeout
  /-- R997 -/
  | resyncStepEnd
  /-- R1117 -/
  | allow (fn : Fn) (v : Word) (be : BitVec 4)
  /-- R1015 -/
  | set (fn : Fn) (v : Word) (be : BitVec 4)
  /-- R1025 -/
  | shift (fn : Fn) (v : Word) (be : BitVec 4)
  /-- R1027 -/
  | shiftStep
  /-- R1008 -/
  | calendarSecond
  /-- R1022: the interpolated count of crystal periods; whether no reference edge or period was bad -/
  | trimWindowEnd (n : Exact) (ok : Bool)
  /-- R1059 -/
  | panelStart
  /-- R1059 -/
  | biasReady
  /-- R1060 -/
  | panelStop
  /-- R1060 -/
  | biasDischarged
  /-- R1046 -/
  | refreshFrame
  /-- R1040 -/
  | pumpFault
  /-- R1041 -/
  | pumpRestart (ok : Bool)
  /-- R1089 -/
  | pop (fn : Fn) (v : Word) (be : BitVec 4)
  /-- R1087 -/
  | purge (fn : Fn) (v : Word) (be : BitVec 4)
  /-- R1087 -/
  | next (fn : Fn) (v : Word) (be : BitVec 4)
  /-- R1093 -/
  | scrub (region : Fin 7) (addr : BitVec 24) (err : Fin 3)
  /-- R1129 -/
  | testLogicReset
  /-- R1126 -/
  | samplePreload
  /-- R1126 -/
  | bypass
  /-- R56 -/
  | staleTimeout (point : PointId)
  /-- R1008 -/
  | crystalEdge
  /-- R364 -/
  | blankInactive (b : Fin 8)
  /-- R415 -/
  | excitationLimit (ch : Fin 128) (limited : Bool)
  /-- R541 -/
  | fskCarrierDetect (ch : Fin 48) (on : Bool)
  /-- R939 -/
  | canBusError (c : Fin 8) (lec : BitVec 3) (dataPhase : Bool) (tec : BitVec 9) (rec : BitVec 8)
  /-- R1121: link speed and width, and the drive -/
  | nvPortLinkUp (m : Fin 4) (speed : Fin 5) (width : Fin 5) (drive : Drive)
  /-- R1126 -/
  | tckEdge (rising : Bool) (tms : Bool) (tdi : Bool)
  /-- R165 -/
  | imageOpDone
  /-- R1109 -/
  | ucodeStoreDone
  deriving DecidableEq, Repr

end Sys2Proof
end

