-- ==== Sys2Proof/Decode.lean ====
section
/-! DEFINITION. Reading a command from the bits of the opcode table. The table gives no row any bits: a
command of this block is an access or an event, not a word. -/

namespace Sys2Proof

/-- The command that a word spells by the table's bits: none, as no row of it has bits. -/
def decodeTableWord (_nbits _w : Nat) : Option Instr := none

end Sys2Proof
end

