-- ==== Sys2Proof/Machine/Store.lean ====
section
/-! DEFINITION. Named operations over sparse maps, over byte memories and over bit fields. -/

namespace Sys2Proof.Machine

/-- What number `k` holds: the listed entry, else the default `d k`. -/
def smGet {α : Type} (d : Nat → α) : SMap α → Nat → α
  | [], k => d k
  | (j, a) :: t, k => if j = k then a else smGet d t k

/-- Remove the entry of number `k`. -/
def smDel {α : Type} : SMap α → Nat → SMap α
  | [], _ => []
  | (j, a) :: t, k => if j = k then smDel t k else (j, a) :: smDel t k

/-- Put an entry in its place in the rising order, after any entry of that number was removed. -/
def smInsert {α : Type} : SMap α → Nat → α → SMap α
  | [], k, v => [(k, v)]
  | (j, a) :: t, k, v => if k < j then (k, v) :: (j, a) :: t else (j, a) :: smInsert t k v

/-- Make number `k` hold `v`; writing the default removes the entry. -/
def smPut {α : Type} [DecidableEq α] (d : Nat → α) (m : SMap α) (k : Nat) (v : α) : SMap α :=
  if v = d k then smDel m k else smInsert (smDel m k) k v

/-- Change what number `k` holds by `f`. -/
def smMod {α : Type} [DecidableEq α] (d : Nat → α) (m : SMap α) (k : Nat) (f : α → α) : SMap α :=
  smPut d m k (f (smGet d m k))

/-- Keep only the entries whose number satisfies `p`; the others hold their default again. -/
def smKeep {α : Type} (p : Nat → Bool) (m : SMap α) : SMap α := m.filter fun e => p e.1

/-- Change every listed entry; one that then equals its default is no longer listed. -/
def smMap {α : Type} [DecidableEq α] (d : Nat → α) (f : α → α) (m : SMap α) : SMap α :=
  (m.map fun e => (e.1, f e.2)).filter fun e => decide (e.2 ≠ d e.1)

/-- The numbers rise strictly. -/
def smSorted {α : Type} : SMap α → Bool
  | [] => true
  | (_, _) :: [] => true
  | (j, _) :: (k, b) :: t => decide (j < k) && smSorted ((k, b) :: t)

/-- The canonical form: rising numbers and no entry equal to its default. -/
def smWf {α : Type} [DecidableEq α] (d : Nat → α) (m : SMap α) : Bool :=
  smSorted m && m.all fun e => decide (e.2 ≠ d e.1)

/-! ## Byte memories -/

/-- A byte memory: a sparse list of cells, canonical for its reset byte. -/
abbrev Mem := SMap Byte

/-- What an unlisted address reads as: a zero byte, and an erased NVM byte. -/
def zeroByte (_ : Nat) : Byte := 0
def erasedByte (_ : Nat) : Byte := 0xFF

/-- Read `n` bytes from address `a`, ascending; `d` is what an unlisted address reads as. -/
def memRead (d : Nat → Byte) (m : Mem) (a n : Nat) : List Byte :=
  (List.range n).map fun i => smGet d m (a + i)

/-- Write bytes from address `a`, ascending. -/
def memWrite (d : Nat → Byte) : Mem → Nat → List Byte → Mem
  | m, _, [] => m
  | m, a, b :: bs => memWrite d (smPut d m a b) (a + 1) bs

/-- Make `n` bytes from address `a` read the default again. -/
def memClear (m : Mem) (a n : Nat) : Mem := smKeep (fun k => !(decide (a ≤ k) && decide (k < a + n))) m

/-- Load bytes over a region of `size` addresses from `base`; past their end the region reads 0. -/
def memLoad (d : Nat → Byte) (m : Mem) (base size : Nat) (bs : List Byte) : Mem :=
  let cell (a : Nat) (b : Byte) : Option (Nat × Byte) := if b = d a then none else some (a, b)
  let n := bs.length
  (m.filter fun e => decide (e.1 < base))
    ++ ((bs.take size).zipIdx.filterMap fun (b, i) => cell (base + i) b)
    ++ ((List.range (size - n)).filterMap fun i => cell (base + n + i) 0)
    ++ m.filter fun e => decide (base + size ≤ e.1)

/-- Little-endian number spelled by bytes. -/
def leNat : List Byte → Nat
  | [] => 0
  | b :: bs => b.toNat + 256 * leNat bs

/-- The `n` little-endian bytes of a number. -/
def natLe : Nat → Nat → List Byte
  | 0, _ => []
  | n + 1, x => BitVec.ofNat 8 x :: natLe n (x / 256)

/-- Read a little-endian number of `n` bytes. -/
def memNat (d : Nat → Byte) (m : Mem) (a n : Nat) : Nat := leNat (memRead d m a n)

/-! ## Bit fields -/

/-- Field of `w` bits from bit `lo` of a register. -/
def bits (v : Word) (lo w : Nat) : Nat := v.toNat / 2 ^ lo % 2 ^ w

/-- Replace the field of `w` bits from bit `lo`. -/
def setBits (v : Word) (lo w x : Nat) : Word :=
  BitVec.ofNat 32 (v.toNat - bits v lo w * 2 ^ lo + x % 2 ^ w * 2 ^ lo)

/-- Field of a number. -/
def natBits (v lo w : Nat) : Nat := v / 2 ^ lo % 2 ^ w

/-- Bit `i` of a number. -/
def natBit (v i : Nat) : Bool := v / 2 ^ i % 2 == 1

/-- Replace the field of `w` bits from bit `lo` of a number. -/
def setNatBits (v lo w x : Nat) : Nat := v - natBits v lo w * 2 ^ lo + x % 2 ^ w * 2 ^ lo

/-- A `w`-bit number read as two's complement. -/
def signed (w x : Nat) : Int :=
  if x % 2 ^ w < 2 ^ (w - 1) then (x % 2 ^ w : Nat) else (x % 2 ^ w : Nat) - (2 ^ w : Nat)

/-- The `w`-bit two's complement code of an integer, wrapping. -/
def unsigned (w : Nat) (x : Int) : Nat := (x % (2 ^ w : Nat)).toNat

/-- `b` as a 0 or 1 field. -/
def b2n (b : Bool) : Nat := if b then 1 else 0

/-- Add 1, saturating at the largest value of `w` bits. -/
def satInc (w x : Nat) : Nat := if x + 1 < 2 ^ w then x + 1 else 2 ^ w - 1

/-- Add `k`, saturating at the largest value of `w` bits. -/
def satAdd (w x k : Nat) : Nat := if x + k < 2 ^ w then x + k else 2 ^ w - 1

/-- Clamp an integer to the range of intN: the `sat` of the pseudocode. -/
def satInt (n : Nat) (x : Int) : Int :=
  if x < -(2 ^ (n - 1) : Int) then -(2 ^ (n - 1) : Int)
  else if x > (2 ^ (n - 1) : Int) - 1 then (2 ^ (n - 1) : Int) - 1 else x

/-- Round an exact value to an integer, half to even. -/
def roundHE (x : Rat) : Int :=
  let f := x.floor
  let d := x - (f : Rat)
  if d < 1 / 2 then f else if 1 / 2 < d then f + 1 else if f % 2 = 0 then f else f + 1

/-- Clamp between two integers. -/
def clampInt (lo hi x : Int) : Int := if x < lo then lo else if hi < x then hi else x

/-- Ceiling of a division of numbers. -/
def ceilDiv (a b : Nat) : Nat := (a + b - 1) / b

/-- CRC-32 of IEEE 802.3: one byte taken into the running register, eight shifts. -/
def crc32Bits : Nat → Nat → Nat
  | 0, c => c
  | n + 1, c => crc32Bits n (if c % 2 = 1 then (c / 2) ^^^ 0xEDB88320 else c / 2)

def crc32Step (c : Nat) (b : Byte) : Nat := crc32Bits 8 (c ^^^ b.toNat)

/-- CRC-32: reflected polynomial 0x04C1_1DB7, initial value and final XOR 0xFFFF_FFFF. -/
def crc32 (bs : List Byte) : Nat := (bs.foldl crc32Step 0xFFFFFFFF) ^^^ 0xFFFFFFFF

end Sys2Proof.Machine
end

