-- ==== Sys2Proof/Machine/Aes.lean ====
section
/-! DEFINITION. AES-256-XTS, with which Basin encrypts body blocks at rest (R844). PRESUMED: the cipher is that of FIPS 197
and the mode that of IEEE 1619, which the rule names and the manual does not repeat (log 157). -/

namespace Sys2Proof.Machine

/-- Multiplication by x in the field of AES. -/
def gfDouble (a : Nat) : Nat := if 128 ≤ a then ((2 * a) ^^^ 0x11B) % 256 else 2 * a

/-- Product in the field of AES, over the low `n` bits of `b`. -/
def gfMulBits : Nat → Nat → Nat → Nat
  | 0, _, _ => 0
  | n + 1, a, b => (if b % 2 = 1 then a else 0) ^^^ gfMulBits n (gfDouble a) (b / 2)

def gfMul (a b : Nat) : Nat := gfMulBits 8 a b

/-- The inverse in the field, 0 for 0: the power 254. -/
def gfInv (a : Nat) : Nat :=
  let p2 := gfMul a a
  let p3 := gfMul p2 a
  let p6 := gfMul p3 p3
  let p12 := gfMul p6 p6
  let p14 := gfMul p12 p2
  let p15 := gfMul p12 p3
  let p30 := gfMul p15 p15
  let p60 := gfMul p30 p30
  let p120 := gfMul p60 p60
  gfMul (gfMul p120 p120) p14

/-- Rotation of a byte to the left. -/
def rotl8 (a n : Nat) : Nat := (a * 2 ^ n) % 256 + a / 2 ^ (8 - n)

def sboxOf (a : Nat) : Nat :=
  let b := gfInv a
  b ^^^ rotl8 b 1 ^^^ rotl8 b 2 ^^^ rotl8 b 3 ^^^ rotl8 b 4 ^^^ 0x63

def sboxTable : Array Nat := ((List.range 256).map sboxOf).toArray
def invTable : Array Nat := ((List.range 256).map fun v => ((List.range 256).find? fun a => sboxOf a == v).getD 0).toArray

def subByte (a : Nat) : Nat := sboxTable.getD a 0
def invByte (a : Nat) : Nat := invTable.getD a 0

def xorList (a b : List Nat) : List Nat := List.zipWith (· ^^^ ·) a b

/-- The words of the key schedule after the first eight, the newest first: `n` more. -/
def keyWords : Nat → Nat → Nat → List (List Nat) → List (List Nat)
  | 0, _, _, ws => ws
  | n + 1, i, rc, ws =>
    let t := ws.headD []
    let old := ws.getD 7 []
    if i % 8 = 0 then
      let s := (t.drop 1 ++ t.take 1).map subByte
      keyWords n (i + 1) (gfDouble rc) (xorList old (xorList s [rc, 0, 0, 0]) :: ws)
    else if i % 8 = 4 then keyWords n (i + 1) rc (xorList old (t.map subByte) :: ws)
    else keyWords n (i + 1) rc (xorList old t :: ws)

/-- Lists of `n` from a list, `k` of them. -/
def chop {α : Type} (n : Nat) : Nat → List α → List (List α)
  | 0, _ => []
  | k + 1, xs => xs.take n :: chop n k (xs.drop n)

/-- The fifteen round keys of a 32-byte key. -/
def roundKeys (key : List Nat) : List (List Nat) :=
  let ws := (keyWords 52 8 1 (chop 4 8 key).reverse).reverse
  (chop 4 15 ws).map List.flatten

/-- Row r of the state moves to the left by r places, and back. -/
def shiftRows (s : List Nat) : List Nat := (List.range 16).map fun i => s.getD ((i + 4 * (i % 4)) % 16) 0
def unshiftRows (s : List Nat) : List Nat := (List.range 16).map fun i => s.getD ((i + 12 * (i % 4)) % 16) 0

/-- Each column times a circulant column of coefficients. -/
def mixWith (k : List Nat) (s : List Nat) : List Nat :=
  (List.range 16).map fun i =>
    ((List.range 4).map fun j => gfMul (k.getD ((j + 4 - i % 4) % 4) 0) (s.getD (i / 4 * 4 + j) 0)).foldl (· ^^^ ·) 0

def aesRounds : List (List Nat) → List Nat → List Nat
  | [], s => s
  | [k], s => xorList (shiftRows (s.map subByte)) k
  | k :: ks, s => aesRounds ks (xorList (mixWith [2, 3, 1, 1] (shiftRows (s.map subByte))) k)

/-- One block of 16 bytes, encrypted. -/
def aesEnc (ks : List (List Nat)) (b : List Nat) : List Nat := aesRounds (ks.drop 1) (xorList b (ks.headD []))

def aesUnrounds : List (List Nat) → List Nat → List Nat
  | [], s => s
  | [k], s => xorList ((unshiftRows s).map invByte) k
  | k :: ks, s => aesUnrounds ks (mixWith [14, 11, 13, 9] (xorList ((unshiftRows s).map invByte) k))

/-- One block of 16 bytes, decrypted. -/
def aesDec (ks : List (List Nat)) (b : List Nat) : List Nat :=
  let rs := ks.reverse
  aesUnrounds (rs.drop 1) (xorList b (rs.headD []))

/-- The tweak of the next block of a data unit: times x, the bytes in little-endian order. -/
def tweakNext (t : Nat) : Nat := if 2 ^ 127 ≤ t then ((2 * t) % 2 ^ 128) ^^^ 0x87 else 2 * t

/-- The little-endian bytes of a number, as numbers. -/
def leBytes (n x : Nat) : List Nat := (natLe n x).map BitVec.toNat

/-- XTS over blocks of 16 bytes with a block cipher. -/
def xtsBlocks (f : List Nat → List Nat) : Nat → List (List Nat) → List Nat
  | _, [] => []
  | t, b :: bs =>
    let tb := leBytes 16 t
    xorList (f (xorList b tb)) tb ++ xtsBlocks f (tweakNext t) bs

/-- The data unit of number `l` under a key pair of 64 bytes: the first 32 encrypt data, the others the tweak. -/
def xtsUnit (f : List (List Nat) → List Nat → List Nat) (key : BitVec 512) (l : Nat) (bs : List Byte) : List Byte :=
  let k := leBytes 64 key.toNat
  let t := (aesEnc (roundKeys (k.drop 32)) (leBytes 16 l)).foldr (fun b a => b + 256 * a) 0
  ((xtsBlocks (f (roundKeys (k.take 32))) t (chop 16 (bs.length / 16) (bs.map BitVec.toNat))).map (BitVec.ofNat 8))

/-- A 4 KiB block encrypted and decrypted; the tweak is its logical block number (R844). -/
def xtsEncrypt (key : BitVec 512) (l : Nat) (bs : List Byte) : List Byte := xtsUnit aesEnc key l bs
def xtsDecrypt (key : BitVec 512) (l : Nat) (bs : List Byte) : List Byte := xtsUnit aesDec key l bs

end Sys2Proof.Machine
end

