-- ==== Sys2Proof/Config.lean ====
section
/-! DEFINITION. The values the manual leaves open. Each is an opaque constant: nothing in Lean can
evaluate it, so a claim holds whatever it is. -/

namespace Sys2Proof.Config

/-- An indeterminate or random byte; the argument is a counter of the state (R170, R172, R821, R845). -/
opaque freeByte : Nat → BitVec 8

/-- A value the manual does not state; the argument is a counter of the state. -/
opaque freeValue : Nat → Nat

/-- An XTS key pair drawn from the random source (R845): 32 bytes for the data, then 32 for the tweak. -/
opaque xtsKey : Nat → BitVec 512

/-- Which of several watch slots whose most recent starts coincide gives the duty engineer: an index into
their list (R737 names none). -/
opaque watchTie : List Nat → Nat

/-- Whether the signature of a microcode package is correct under the key held in ROM (R1103), of the
package's bytes. -/
opaque sigOk : List (BitVec 8) → Bool

/-- What an SRAM or buffer word holds: the manual gives no layout (R1092). Of the memory region and the word
address; the model reads a kind and an index from it. -/
opaque memoryUse : Nat → Nat → Nat

/-- The correction of a cell measured at manufacture (R1207): OFS in codes, by the cell's number over all banks. -/
opaque factoryOfs : Nat → Int

/-- The correction of a cell measured at manufacture (R1207): GAIN in ppm. -/
opaque factoryGain : Nat → Int

end Sys2Proof.Config
end

