-- ==== Sys2Proof/Machine/Qw.lean ====
section
/-! DEFINITION. Quantity words (02_quantity_words): layout, value, flags, encoding and comparison. -/

namespace Sys2Proof.Machine

/-- A decoded quantity word: mantissa, decimal exponent, unit code and quality. A QW32 and a QW64
have the same fields in different widths (R40, R44). -/
structure Qw where
  mant : Int
  exp : Int
  unit : Nat
  qual : Nat
  deriving DecidableEq, Repr

/-- Decode a QW32 (R40). -/
def qw32Of (w : Nat) : Qw :=
  { mant := signed 20 (natBits w 12 20), exp := signed 4 (natBits w 8 4),
    unit := natBits w 2 6, qual := natBits w 0 2 }

/-- Encode a QW32 (R40). -/
def qw32To (q : Qw) : Nat :=
  unsigned 20 q.mant * 2 ^ 12 + unsigned 4 q.exp * 2 ^ 8 + q.unit % 64 * 4 + q.qual % 4

/-- Decode a QW64 (R44). -/
def qw64Of (w : Nat) : Qw :=
  { mant := signed 48 (natBits w 16 48), exp := signed 8 (natBits w 8 8),
    unit := natBits w 2 6, qual := natBits w 0 2 }

/-- Encode a QW64 (R44). -/
def qw64To (q : Qw) : Nat :=
  unsigned 48 q.mant * 2 ^ 16 + unsigned 8 q.exp * 2 ^ 8 + q.unit % 64 * 4 + q.qual % 4

/-- Decode a word of either width. -/
def qwOf (wide : Bool) (w : Nat) : Qw := if wide then qw64Of w else qw32Of w

/-- Encode a word of either width. -/
def qwTo (wide : Bool) (q : Qw) : Nat := if wide then qw64To q else qw32To q

/-- Ten to an integer power, exactly. -/
def pow10 (e : Int) : Rat :=
  if 0 ≤ e then ((10 ^ e.toNat : Nat) : Rat) else 1 / ((10 ^ (-e).toNat : Nat) : Rat)

/-- The exact value of a word: MANT × 10^EXP (R41). -/
def qwValue (q : Qw) : Rat := (q.mant : Rat) * pow10 q.exp

/-- Unit codes 52 to 59 are reserved (R49). -/
def unitReserved (u : Nat) : Bool := decide (52 ≤ u) && decide (u ≤ 59)

/-- Largest mantissa the node produces (R42, R45). -/
def mantLim (wide : Bool) : Int := if wide then 2 ^ 47 - 1 else 524287

/-! ## Flags (R56) -/

def flSettling : Nat := 0x01
def flOver : Nat := 0x02
def flSubst : Nat := 0x04
def flSpare : Nat := 0x08
def flBlanked : Nat := 0x10
def flFault : Nat := 0x20
def flStale : Nat := 0x40

/-- Set a flag in a flags byte. -/
def flagOn (f : Nat) (fl : Nat) : Nat := fl ||| f

/-- Minimum quality forced by a flags byte (R56 to R58). -/
def flagsQual (fl : Nat) : Nat :=
  if natBit fl 5 then 3
  else if natBit fl 4 || natBit fl 6 then 2
  else if natBit fl 0 || natBit fl 1 then 1
  else 0

/-- Worst of two qualities (R55). -/
def worst (a b : Nat) : Nat := if a < b then b else a

/-- Apply the minimum quality of a flags byte to a word (R57, R58). -/
def qwFlagged (q : Qw) (fl : Nat) : Qw := { q with qual := worst q.qual (flagsQual fl) }

/-- Encode an exact value into a destination of exponent `e` and unit `u` (R63 to R65): the word,
and whether it saturated. -/
def encodeValue (wide : Bool) (x : Rat) (e : Int) (u qual : Nat) : Qw × Bool :=
  let m := roundHE (x / pow10 e)
  let lim := mantLim wide
  if lim < m then ({ mant := lim, exp := e, unit := u, qual := qual }, true)
  else if m < -lim then ({ mant := -lim, exp := e, unit := u, qual := qual }, true)
  else ({ mant := m, exp := e, unit := u, qual := qual }, false)

/-- Encode a value with the flags `fl`: OVER set when it saturates, quality no better than the
flags allow. Answers the word's number and the flags byte. -/
def encodeWord (wide : Bool) (x : Rat) (e : Int) (u qual fl : Nat) : Nat × Nat :=
  let r := encodeValue wide x e u qual
  let fl' := if r.2 then flagOn flOver fl else fl
  (qwTo wide (qwFlagged r.1 fl'), fl')

/-- Comparison by exact value (R67 to R70). -/
def qwLt (a b : Qw) : Bool := decide (qwValue a < qwValue b)
def qwEq (a b : Qw) : Bool := decide (qwValue a = qwValue b)

/-- `QW(0 e0, bad)`, the word of the null point (R20). -/
def qwNull : Nat := 3

/-- R75: a value on an input span, as Q1.15; the second is whether it saturated (R76). -/
def toQ15 (v lo hi : Rat) : Int × Bool :=
  let r := roundHE ((v - lo) * 32767 / (hi - lo))
  (satInt 16 r, decide (satInt 16 r ≠ r))

/-- R77: exact value of a Q1.15 result on an output span. -/
def ofQ15 (q : Int) (lo hi : Rat) : Rat := lo + (q : Rat) * (hi - lo) / 32767

end Sys2Proof.Machine
end

