-- ==== Sys2Proof/Machine/RegMap.lean ====
section
/-! DEFINITION. The BAR0 register map: every register of the chapters with its offset, its fields,
their access codes and their defaults (R11 to R13, R207 and each chapter's field tables). -/

namespace Sys2Proof.Machine

/-- Access code of a field (R11). -/
inductive Acc where
  | ro | rw | rwk | w1c | w1s | rc | wo
  deriving DecidableEq, Repr

/-- What a write to a plain RW or RWK field stores. -/
inductive Rule where
  /-- any value is stored -/
  | any
  /-- a value above the limit stores the limit -/
  | sat (limit : Nat)
  /-- 0 stores 1 -/
  | one
  /-- the low `n` bits read 0 -/
  | align (n : Nat)
  /-- a value outside `lo` to `hi` stores the nearer limit -/
  | clamp (lo hi : Nat)
  /-- codes above `last` are reserved (R195) -/
  | enum (last : Nat)
  deriving DecidableEq, Repr

/-- A field of a register. -/
structure Fld where
  lo : Nat
  width : Nat
  acc : Acc
  dflt : Nat
  /-- the default has the form "U v" (R13) -/
  user : Bool
  rule : Rule
  deriving DecidableEq, Repr

/-- A field with a constant default. -/
def fd (lo w : Nat) (a : Acc) (d : Nat) (r : Rule := .any) : Fld := ⟨lo, w, a, d, false, r⟩

/-- A field whose default is "U d". -/
def fu (lo w : Nat) (a : Acc) (d : Nat) (r : Rule := .any) : Fld := ⟨lo, w, a, d, true, r⟩

/-- A register or an array of registers: base offset, then (count, stride) of up to two indexes. -/
structure RegDesc where
  name : String
  base : Nat
  n1 : Nat
  s1 : Nat
  n2 : Nat
  s2 : Nat
  fields : List Fld
  deriving DecidableEq, Repr

def reg1 (name : String) (base : Nat) (fs : List Fld) : RegDesc := ⟨name, base, 1, 4, 1, 4, fs⟩
def regN (name : String) (base n s : Nat) (fs : List Fld) : RegDesc := ⟨name, base, n, s, 1, 4, fs⟩
def regNN (name : String) (base n1 s1 n2 s2 : Nat) (fs : List Fld) : RegDesc := ⟨name, base, n1, s1, n2, s2, fs⟩

/-- Does the row hold the register at `off`? -/
def RegDesc.holds (d : RegDesc) (off : Nat) : Bool :=
  decide (d.base ≤ off) &&
    (let r := off - d.base
     let i := r / d.s1
     let q := r % d.s1
     if d.n2 = 1 then decide (i < d.n1) && q == 0
     else decide (i < d.n1) && q % d.s2 == 0 && decide (q / d.s2 < d.n2))

/-- ACTIVE, PENDING and GEN of a table status register. -/
def tblStatFields : List Fld := [fd 0 1 .ro 0, fd 1 1 .ro 0, fd 16 16 .ro 0]

/-- A whole RO register. -/
def roWord (d : Nat := 0) : List Fld := [fd 0 32 .ro d]

/-- NODE block (05, 04, 27). -/
def nodeRegs : List RegDesc := [
  reg1 "NODE_ID" 0x000 [fd 0 16 .ro 0x9100, fd 16 8 .ro 0xC1, fd 24 8 .ro 0x47],
  reg1 "NODE_STEPPING" 0x004 [fd 0 8 .ro 0, fd 8 8 .ro 1],
  reg1 "NODE_CAP" 0x008 [fd 0 4 .ro 8, fd 4 4 .ro 3, fd 8 4 .ro 8, fd 12 4 .ro 4, fd 16 4 .ro 8],
  reg1 "NODE_SERIAL_LO" 0x010 (roWord),
  reg1 "NODE_SERIAL_HI" 0x014 (roWord),
  reg1 "NODE_MFG_DATE" 0x018 [fd 0 16 .ro 0, fd 16 8 .ro 0],
  reg1 "NODE_ROM_VER" 0x01C [fd 0 16 .ro 0],
  reg1 "NODE_UCODE_VER" 0x020 [fd 0 16 .ro 0, fd 16 16 .ro 0],
  reg1 "NODE_SCRATCH" 0x030 [fd 0 32 .rwk 0],
  reg1 "NODE_MODE" 0x100 [fd 0 4 .ro 3, fd 4 4 .ro 3, fd 8 8 .ro 0, fd 16 1 .ro 0],
  reg1 "NODE_MODE_REQ" 0x104 [fd 0 4 .rwk 0 (.enum 11), fd 8 3 .ro 0, fd 31 1 .rwk 0],
  reg1 "NODE_START" 0x108 [fu 0 4 .ro 3, fu 16 16 .rwk 0],
  reg1 "NODE_RESET" 0x10C [fd 0 16 .wo 0],
  reg1 "NODE_RESET_CAUSE" 0x110 [fd 0 1 .w1c 0, fd 1 1 .w1c 0, fd 2 1 .w1c 0, fd 3 1 .w1c 0, fd 4 1 .w1c 0, fd 5 1 .w1c 0],
  reg1 "NODE_PCC" 0x114 [fd 0 24 .ro 0],
  reg1 "NODE_IMG_STAT" 0x120 [fd 0 2 .ro 0, fd 2 4 .ro 1, fd 6 4 .ro 1, fd 16 16 .ro 0xFFFF],
  reg1 "NODE_IMG_CMD" 0x124 [fd 0 3 .rwk 0 (.enum 4), fd 3 1 .rwk 0, fd 4 4 .ro 0],
  reg1 "NODE_IMG_GEN_A" 0x128 (roWord),
  reg1 "NODE_IMG_GEN_B" 0x12C (roWord)]

/-- PWR/CLK block (03). -/
def pwrRegs : List RegDesc := [
  reg1 "PWR_RAIL_STAT" 0x10000 [fd 0 1 .ro 1, fd 1 1 .ro 1, fd 2 1 .ro 1, fd 3 1 .ro 1, fd 4 3 .ro 7, fd 7 1 .ro 1, fd 8 1 .ro 1, fd 12 1 .ro 0],
  reg1 "PWR_RAIL_EVT" 0x10004 [fd 0 1 .w1c 0, fd 1 1 .w1c 0, fd 2 1 .w1c 0, fd 3 1 .w1c 0, fd 4 3 .w1c 0, fd 7 1 .w1c 0, fd 8 1 .w1c 0],
  reg1 "PWR_DOM_EN" 0x10010 [fu 0 30 .rwk 0x3C000003],
  reg1 "PWR_DOM_ON" 0x10014 [fd 0 30 .ro 0],
  reg1 "PWR_DOM_WAIT" 0x10018 [fd 0 30 .ro 0],
  reg1 "PWR_DOM_FAIL" 0x1001C [fd 0 30 .w1c 0],
  reg1 "PWR_BUDGET" 0x10020 [fu 0 11 .rwk 1600 (.sat 1600)],
  reg1 "PWR_COMMITTED" 0x10024 [fd 0 11 .ro 0],
  reg1 "PWR_SAFETY_RSV" 0x10028 [fu 0 11 .rwk 100],
  reg1 "PWR_LEAVE_TMO" 0x1002C [fu 0 16 .rwk 20 .one],
  reg1 "PWR_LEAVE_STAT" 0x10030 [fd 0 1 .ro 0, fd 1 4 .ro 0, fd 5 3 .ro 0, fd 16 16 .w1c 0],
  reg1 "CLK_STAT" 0x18000 [fd 0 1 .ro 1, fd 1 1 .ro 0, fd 2 1 .ro 1, fd 3 1 .ro 1, fd 4 1 .ro 0, fd 5 1 .ro 0, fd 6 1 .ro 1],
  reg1 "CLK_EVT" 0x18004 [fd 0 1 .w1c 0, fd 3 1 .w1c 0, fd 4 1 .w1c 0, fd 5 1 .w1c 0]]

/-- HOST block (06): two node-wide registers, then nine function pages. -/
def hostRegs : List RegDesc := [
  reg1 "HOST_LINK_STAT" 0x20000 [fd 0 3 .ro 0, fd 3 3 .ro 0],
  reg1 "HOST_FLR_EVT" 0x20004 [fd 0 9 .w1c 0],
  regN "HOST_FN_ID" 0x21000 9 0x1000 [fd 0 4 .ro 0, fd 4 4 .ro 0],
  regNN "HOST_RING_BASE_LO" 0x21100 9 0x1000 4 0x40 [fd 12 20 .rw 0],
  regNN "HOST_RING_BASE_HI" 0x21104 9 0x1000 4 0x40 [fd 0 32 .rw 0],
  regNN "HOST_RING_CFG" 0x21108 9 0x1000 4 0x40 [fd 0 4 .rw 4, fd 8 1 .rw 0, fd 9 1 .rw 0, fd 16 16 .rw 0],
  regNN "HOST_RING_IDX" 0x2110C 9 0x1000 4 0x40 [fd 0 16 .ro 0, fd 16 16 .ro 0],
  regNN "HOST_RING_WM" 0x21110 9 0x1000 4 0x40 [fd 0 16 .rw 0xFFFF, fd 16 16 .rw 0],
  regNN "HOST_RING_WMSTAT" 0x21114 9 0x1000 4 0x40 [fd 0 1 .ro 0, fd 1 1 .w1c 0, fd 16 16 .w1c 0],
  regNN "HOST_RING_DBERR" 0x21118 9 0x1000 4 0x40 [fd 0 16 .w1c 0, fd 16 16 .w1c 0],
  regNN "HOST_RING_LOST" 0x2111C 9 0x1000 4 0x40 [fd 0 32 .w1c 0],
  regNN "HOST_MSIX_TABLE" 0x21800 9 0x1000 16 4 [fd 0 32 .rw 0],
  regN "HOST_MSIX_PBA" 0x21C00 9 0x1000 [fd 0 4 .ro 0]]

/-- PART block (07). -/
def partRegs : List RegDesc := [
  reg1 "PART_TBL_STAT" 0x30000 tblStatFields,
  regN "PART_Pn_DENY" 0x30100 8 0x20 [fd 0 16 .w1c 0],
  regN "PART_Pn_BREACH" 0x30104 8 0x20 [fd 0 16 .w1c 0, fd 16 8 .ro 0],
  regN "PART_Pn_POWER" 0x30108 8 0x20 [fd 0 11 .ro 0]]

/-- SEQ block (08). -/
def seqRegs : List RegDesc := [
  reg1 "SEQ_TBL_STAT" 0x40000 tblStatFields,
  reg1 "SEQ_FRAME" 0x40004 [fd 0 9 .ro 40],
  reg1 "SEQ_FRAME_NUM_LO" 0x40008 (roWord),
  reg1 "SEQ_FRAME_NUM_HI" 0x4000C (roWord),
  reg1 "SEQ_LOAD_ERR" 0x40010 [fd 0 4 .ro 0, fd 4 4 .ro 0, fd 8 16 .ro 0xFFFF],
  reg1 "SEQ_SKIP" 0x40014 [fd 0 16 .w1c 0],
  reg1 "SEQ_BLANK_CFG" 0x40020 [fu 0 8 .rwk 0, fu 8 8 .rwk 0, fu 16 8 .rwk 10],
  reg1 "SEQ_BLANK_MAX" 0x40024 [fu 0 16 .rwk 100 .one],
  reg1 "SEQ_BLANK_STAT" 0x40028 [fd 0 8 .ro 0, fd 8 8 .ro 0, fd 16 16 .w1c 0],
  reg1 "SEQ_SENTRY_WAKE" 0x40030 [fd 0 4 .ro 0, fd 4 1 .ro 0, fd 8 24 .ro 0]]

/-- REC block (18). -/
def recRegs : List RegDesc := [
  reg1 "REC_TBL_STAT" 0x180000 tblStatFields,
  reg1 "REC_CFG" 0x180004 [fu 0 8 .rwk 10 .one, fu 16 16 .rwk 100],
  reg1 "REC_STAT" 0x180008 [fd 0 1 .ro 0, fd 1 1 .ro 0, fd 2 1 .ro 0, fd 8 8 .w1c 0, fd 16 16 .ro 0],
  reg1 "REC_SEQ" 0x18000C (roWord),
  reg1 "REC_OLDEST" 0x180010 (roWord),
  reg1 "REC_OPEN" 0x180014 [fd 0 9 .ro 0],
  reg1 "REC_OT_LO" 0x180018 (roWord),
  reg1 "REC_OT_HI" 0x18001C [fd 0 8 .ro 0],
  regN "REC_Tt_CNT" 0x180400 256 4 [fd 0 16 .w1c 0, fd 16 16 .w1c 0]]

/-- DIAG block (26). -/
def diagRegs : List RegDesc := [
  reg1 "DIAG_FIFO_STAT" 0x1F0000 [fd 0 9 .ro 0, fd 9 1 .ro 0],
  reg1 "DIAG_FIFO_CTL" 0x1F0004 [fd 0 1 .wo 0, fd 1 1 .wo 0],
  regN "DIAG_FIFO_Ww" 0x1F0010 4 4 (roWord),
  reg1 "DIAG_ERR_LOST" 0x1F0020 [fd 0 32 .w1c 0],
  reg1 "DIAG_CFG" 0x1F0024 [fu 0 8 .rwk 10 .one, fu 8 8 .rwk 10 .one],
  reg1 "DIAG_SRC_SEL" 0x1F0030 [fd 0 24 .rwk 0, fd 24 8 .rwk 0],
  reg1 "DIAG_SRC_CNT" 0x1F0034 [fd 0 16 .w1c 0, fd 16 1 .ro 0, fd 17 1 .ro 0, fd 18 1 .w1s 0],
  reg1 "DIAG_SRC_FIRST_LO" 0x1F0038 (roWord),
  reg1 "DIAG_SRC_FIRST_HI" 0x1F003C [fd 0 8 .ro 0],
  reg1 "DIAG_SRC_LAST_LO" 0x1F0040 (roWord),
  reg1 "DIAG_SRC_LAST_HI" 0x1F0044 [fd 0 8 .ro 0],
  reg1 "DIAG_SRC_STAT" 0x1F0048 [fd 0 13 .ro 0, fd 16 16 .w1c 0],
  reg1 "DIAG_ECC" 0x1F0050 [fd 0 16 .w1c 0, fd 16 16 .w1c 0]]

/-- ACQ bank blocks (09, 10): bank registers, then sixteen channel pages. -/
def acqRegs : List RegDesc := [
  regN "ACQ_ROT_CFG" 0x80000 8 0x10000 [fu 0 1 .rwk 1, fu 16 16 .rwk 100 (.clamp 25 2500)],
  regN "ACQ_ROT_STAT" 0x80004 8 0x10000 [fd 0 5 .ro 0, fd 5 3 .ro 0, fd 8 4 .ro 0, fd 12 1 .ro 0, fd 13 1 .ro 0, fd 16 8 .w1c 0, fd 24 8 .w1c 0],
  regN "ACQ_CAL_LIM" 0x80008 8 0x10000 [fu 0 16 .rwk 8000, fu 16 8 .rwk 20, fu 24 8 .rwk 20],
  regN "ACQ_CAL_AGE" 0x8000C 8 0x10000 [fu 0 16 .rwk 168 .one, fd 16 16 .ro 0],
  regN "ACQ_GUARD" 0x80010 8 0x10000 [fu 0 2 .rwk 0, fu 4 4 .rwk 0],
  regN "ACQ_IEPE_LOAD" 0x80014 8 0x10000 [fd 0 6 .ro 0],
  regN "ACQ_COEF_STAT" 0x80020 8 0x10000 tblStatFields,
  regNN "ACQ_CHc_MODE" 0x80100 8 0x10000 16 0x40 [fu 0 4 .rw 0, fu 4 2 .rw 0, fu 8 2 .rw 0, fu 10 1 .rw 0, fu 11 1 .rw 0],
  regNN "ACQ_CHc_EXC" 0x80104 8 0x10000 16 0x40 [fu 0 6 .rw 0, fu 8 5 .rw 0, fu 16 10 .rw 0],
  regNN "ACQ_CHc_TSRC" 0x80108 8 0x10000 16 0x40 [fu 0 24 .rw 0],
  regNN "ACQ_CHc_LEAD" 0x8010C 8 0x10000 16 0x40 [fu 0 16 .rw 0, fu 16 10 .rw 100],
  regNN "ACQ_CHc_STAT" 0x80110 8 0x10000 16 0x40 [fd 0 1 .w1c 0, fd 1 1 .ro 0, fd 2 1 .ro 0, fd 3 1 .ro 0, fd 4 1 .ro 0, fd 5 1 .ro 0, fd 6 1 .ro 0, fd 16 16 .w1c 0],
  regNN "ACQ_CHc_LEADVAL" 0x80114 8 0x10000 16 0x40 [fd 0 16 .ro 0, fd 16 16 .ro 0],
  regNN "ACQ_CHc_QUAD" 0x80118 8 0x10000 16 0x40 [fd 0 24 .ro 0],
  regNN "ACQ_CHc_FILT" 0x8011C 8 0x10000 16 0x40 [fu 0 2 .rw 0, fu 4 5 .rw 6, fu 16 8 .rw 0],
  regNN "ACQ_CHc_CMWIN" 0x80120 8 0x10000 16 0x40 [fu 0 16 .rw 0xFC18, fu 16 16 .rw 0x03E8],
  regNN "ACQ_CHc_FCHK" 0x80124 8 0x10000 16 0x40 [fu 0 1 .rw 0, fu 1 1 .rw 0, fu 8 8 .rw 10 .one, fu 16 8 .rw 3 .one],
  regNN "ACQ_CHc_FCHK_LIM" 0x80128 8 0x10000 16 0x40 [fu 0 8 .rw 50, fu 8 8 .rw 10, fu 16 8 .rw 10],
  regNN "ACQ_CHc_FCHK_RES" 0x8012C 8 0x10000 16 0x40 [fd 0 16 .ro 0, fd 16 16 .ro 0],
  regNN "ACQ_CHc_CONV_STAT" 0x80130 8 0x10000 16 0x40 [fd 0 9 .ro 0, fd 9 1 .ro 0, fd 10 1 .ro 0, fd 11 1 .ro 0, fd 12 1 .ro 0, fd 13 1 .ro 0, fd 14 1 .ro 0, fd 15 1 .ro 0, fd 16 16 .w1c 0],
  regNN "ACQ_CHc_HO" 0x80134 8 0x10000 16 0x40 [fd 0 24 .ro 0],
  regNN "ACQ_CHc_CAL" 0x80138 8 0x10000 16 0x40 [fd 0 16 .ro 0, fd 16 16 .ro 0]]

/-- LOOP bank blocks (11): bank registers, then sixteen cell pages. -/
def loopRegs : List RegDesc := [
  regN "LOOP_BANK_STAT" 0x100000 3 0x10000 [fd 0 1 .ro 0, fd 1 1 .ro 0],
  regN "LOOP_WDOG" 0x100004 3 0x10000 [fu 0 16 .rwk 30 (.clamp 2 65535), fu 16 16 .rwk 0],
  reg1 "LOOP_BTN" 0x100008 [fu 0 6 .rwk 63, fu 8 1 .rwk 0],
  reg1 "LOOP_TSTORE" 0x10000C [fd 0 1 .ro 0, fd 1 1 .ro 0, fd 16 16 .ro 0],
  regNN "LOOP_CHc_CFG" 0x100100 3 0x10000 16 0x40 [fu 0 2 .rw 0, fu 4 1 .rw 0],
  regNN "LOOP_CHc_CLAMP" 0x100104 3 0x10000 16 0x40 [fu 0 16 .rw 3800, fu 16 16 .rw 20500],
  regNN "LOOP_CHc_TRIM" 0x100108 3 0x10000 16 0x40 [fd 0 16 .rw 0, fd 16 16 .rw 0],
  regNN "LOOP_CHc_INIT" 0x10010C 3 0x10000 16 0x40 [fu 0 16 .rw 0],
  regNN "LOOP_CHc_CHK" 0x100110 3 0x10000 16 0x40 [fu 0 12 .rw 200 (.clamp 20 4095), fu 16 8 .rw 100 (.clamp 2 255)],
  regNN "LOOP_CHc_STAT" 0x100114 3 0x10000 16 0x40 [fd 0 1 .ro 0, fd 1 1 .ro 0, fd 2 11 .ro 0, fd 13 1 .ro 0, fd 14 1 .w1c 0, fd 16 16 .w1c 0],
  regNN "LOOP_CHc_RB" 0x100118 3 0x10000 16 0x40 [fd 0 16 .ro 0, fd 16 16 .ro 0],
  regNN "LOOP_CHc_VOUT" 0x10011C 3 0x10000 16 0x40 [fd 0 16 .ro 0, fd 16 8 .ro 0],
  regNN "LOOP_CHc_FSK" 0x100120 3 0x10000 16 0x40 [fd 0 1 .ro 0, fd 1 1 .ro 0, fd 16 16 .w1c 0],
  regNN "LOOP_CHc_TRIMCMD" 0x100124 3 0x10000 16 0x40 [fd 0 2 .rw 0 (.enum 2), fd 16 16 .wo 0]]

/-- DIO/TRIP block (12). -/
def dioRegs : List RegDesc := [
  regN "DIO_THRg" 0x130000 4 4 [fu 0 10 .rwk 20, fu 10 10 .rwk 90, fu 20 10 .rwk 250],
  regN "DIO_DIn_CFG" 0x130100 64 4 [fu 0 2 .rw 0 (.enum 2), fu 2 1 .rw 0, fu 8 8 .rw 50 .one],
  regN "DIO_DIn_STAT" 0x130200 64 4 [fd 0 2 .ro 0, fd 2 1 .w1c 0, fd 8 8 .w1c 0, fd 16 12 .ro 0],
  regN "DIO_DIn_CNT" 0x130300 64 4 [fd 0 16 .w1c 0, fd 16 16 .w1c 0],
  regN "DIO_PIm_CFG" 0x130400 16 0x20 [fu 0 1 .rw 0, fu 1 1 .rw 0, fu 4 4 .rw 0, fu 8 8 .rw 0, fu 16 10 .rw 100 (.clamp 1 1000)],
  regN "DIO_PIm_THR" 0x130404 16 0x20 [fu 0 8 .rw 20, fu 8 8 .rw 10, fu 16 16 .rw 2000 .one],
  regN "DIO_PIm_SCALE_LO" 0x130408 16 0x20 [fu 0 32 .rw 0x100],
  regN "DIO_PIm_SCALE_HI" 0x13040C 16 0x20 [fu 0 32 .rw 0],
  regN "DIO_PIm_STAT" 0x130410 16 0x20 [fd 0 1 .ro 0, fd 1 1 .ro 1, fd 2 1 .w1c 0],
  regN "DIO_PIm_COUNT_LO" 0x130414 16 0x20 (roWord),
  regN "DIO_PIm_COUNT_HI" 0x130418 16 0x20 [fd 0 16 .ro 0],
  reg1 "TRIP_TBL_STAT" 0x130800 tblStatFields,
  reg1 "TRIP_IN" 0x130804 (roWord),
  reg1 "TRIP_CAUSE" 0x130808 (roWord),
  reg1 "TRIP_ASSERTED" 0x13080C (roWord),
  reg1 "TRIP_STATE_LO" 0x130810 (roWord),
  reg1 "TRIP_STATE_HI" 0x130814 (roWord),
  reg1 "TRIP_FIRST" 0x130818 [fd 0 5 .ro 0, fd 5 1 .ro 0, fd 7 1 .w1c 0],
  reg1 "TRIP_FIRST_IN" 0x13081C (roWord),
  regN "TRIP_j_CNT" 0x130900 32 4 [fd 0 16 .w1c 0]]

/-- ACT block (13). -/
def actRegs : List RegDesc := [
  reg1 "ACT_STAT" 0x140000 [fd 0 1 .ro 0, fd 16 12 .ro 0],
  reg1 "ACT_WDOG" 0x140004 [fu 0 16 .rwk 30 (.clamp 2 65535)],
  regN "ACT_LEGn_CFG" 0x140100 12 0x40 [fu 0 15 .rw 20000, fu 16 3 .rw 7, fu 19 1 .rw 0],
  regN "ACT_LEGn_TIME" 0x140104 12 0x40 [fu 0 10 .rw 80, fu 16 6 .rw 10, fu 24 8 .rw 100],
  regN "ACT_LEGn_SC" 0x140108 12 0x40 [fu 0 9 .rw 200, fu 16 8 .rw 20, fu 24 8 .rw 0],
  regN "ACT_LEGn_CLAMP" 0x14010C 12 0x40 [fu 0 16 .rw 0, fu 16 16 .rw 10000],
  regN "ACT_LEGn_CTRL" 0x140110 12 0x40 [fd 0 1 .rw 0],
  regN "ACT_LEGn_STAT" 0x140114 12 0x40 [fd 0 2 .ro 0, fd 2 1 .ro 0, fd 3 1 .ro 0, fd 4 1 .ro 0, fd 5 1 .ro 0, fd 6 1 .w1c 0, fd 8 4 .ro 0, fd 12 4 .ro 0, fd 16 8 .w1c 0, fd 24 8 .w1c 0],
  regN "ACT_LEGn_DUTY" 0x140118 12 0x40 [fd 0 15 .ro 0, fd 16 16 .ro 0],
  regN "ACT_POSn_CFG" 0x140800 4 0x20 [fu 0 1 .rw 0, fu 1 1 .rw 0, fu 2 2 .rw 0 (.enum 2), fu 4 8 .rw 5],
  regN "ACT_POSn_CPR" 0x140804 4 0x20 [fu 0 20 .rw 4096, fu 24 4 .rw 1],
  regN "ACT_POSn_CNT" 0x140808 4 0x20 (roWord),
  regN "ACT_POSn_IDX" 0x14080C 4 0x20 [fd 0 20 .ro 0, fd 20 10 .ro 0],
  regN "ACT_POSn_STAT" 0x140810 4 0x20 [fd 0 1 .ro 0, fd 1 1 .w1c 0, fd 16 16 .w1c 0]]

/-- CTRL block (14, 15). -/
def ctrlRegs : List RegDesc := [
  reg1 "CTRL_TBL_STAT" 0x150000 tblStatFields,
  reg1 "CTRL_LANE" 0x150004 [fd 0 4 .ro 15],
  regN "CTRL_Ln_STAT" 0x151000 128 0x40 [fd 0 1 .ro 0, fd 1 1 .ro 0, fd 2 1 .ro 0, fd 3 1 .ro 0, fd 4 1 .ro 0, fd 5 1 .ro 0, fd 6 1 .ro 0, fd 7 1 .ro 0, fd 8 1 .ro 0, fd 9 1 .ro 0, fd 10 1 .w1c 0],
  regN "CTRL_Ln_MISS" 0x151004 128 0x40 [fd 0 16 .w1c 0, fd 16 8 .ro 0],
  regN "CTRL_Ln_Q" 0x151008 128 0x40 [fd 0 16 .ro 0, fd 16 16 .ro 0],
  regN "CTRL_Ln_EU" 0x15100C 128 0x40 [fd 0 16 .ro 0, fd 16 16 .ro 0],
  regN "CTRL_Ln_INT_LO" 0x151010 128 0x40 (roWord),
  regN "CTRL_Ln_INT_HI" 0x151014 128 0x40 (roWord),
  regN "CTRL_Ln_SPW" 0x151018 128 0x40 (roWord),
  regN "CTRL_Ln_MAN" 0x15101C 128 0x40 (roWord),
  regN "CTRL_Ln_DL" 0x151020 128 0x40 [fd 0 16 .ro 0, fd 16 16 .ro 0],
  regN "CTRL_TUNEb_STAT" 0x154000 4 0x20 [fd 0 2 .ro 0, fd 2 3 .ro 0, fd 5 1 .ro 0, fd 6 1 .ro 0, fd 8 7 .ro 0, fd 16 16 .w1c 0],
  regN "CTRL_TUNEb_IDX" 0x154004 4 0x20 [fd 0 16 .ro 0, fd 16 16 .ro 0],
  regN "CTRL_TUNEb_CNT" 0x154008 4 0x20 [fd 0 17 .ro 0],
  regN "CTRL_TUNEb_CTL" 0x15400C 4 0x20 [fd 0 1 .w1s 0]]

/-- ALM block (16). -/
def almRegs : List RegDesc := [
  reg1 "ALM_TBL_STAT" 0x160000 tblStatFields,
  regN "ALM_On_FLOOD_CFG" 0x160100 9 0x20 [fu 0 8 .rwk 10 .one, fu 8 8 .rwk 20 .one],
  regN "ALM_On_FLOOD_LIM" 0x160104 9 0x20 [fu 0 16 .rwk 50, fu 16 16 .rwk 10],
  regN "ALM_On_FLOOD_STAT" 0x160108 9 0x20 [fd 0 1 .ro 0, fd 8 8 .w1c 0, fd 16 16 .ro 0],
  regN "ALM_On_COUNT" 0x16010C 9 0x20 [fd 0 16 .ro 0, fd 16 16 .ro 0],
  regN "ALM_Gg_FO" 0x164000 1024 4 [fd 0 14 .ro 0, fd 14 1 .ro 0, fd 15 1 .ro 0],
  regN "ALM_INSf_SEL" 0x168000 9 0x20 [fd 0 14 .rw 0],
  regN "ALM_INSf_STAT" 0x168004 9 0x20 [fd 0 4 .ro 0, fd 4 1 .ro 0, fd 5 1 .ro 0, fd 6 1 .ro 0, fd 7 1 .ro 0, fd 8 2 .ro 0],
  regN "ALM_INSf_SHELVE" 0x168008 9 0x20 [fd 0 17 .ro 0],
  regN "ALM_INSf_CROSS" 0x16800C 9 0x20 [fd 0 16 .ro 0]]

/-- CALL block (17). -/
def callRegs : List RegDesc := [
  reg1 "CALL_TBL_STAT" 0x170000 tblStatFields,
  reg1 "CALL_STAT" 0x170004 [fd 0 3 .ro 0, fd 3 1 .ro 0, fd 4 4 .ro 0, fd 8 4 .ro 0, fd 16 16 .ro 0],
  reg1 "CALL_DUTY" 0x170008 [fu 0 1 .rw 0, fu 4 4 .rw 0],
  reg1 "CALL_TIMER" 0x17000C [fd 0 16 .ro 0],
  reg1 "CALL_SEQ" 0x170010 [fd 0 16 .ro 0, fd 16 16 .ro 0],
  reg1 "CALL_CNT" 0x170014 [fd 0 16 .w1c 0, fd 16 16 .w1c 0],
  reg1 "CALL_NOACK" 0x170018 [fd 0 16 .w1c 0]]

/-- BSN block (19). -/
def bsnRegs : List RegDesc := [
  reg1 "BSN_CTL" 0x190000 [fd 0 4 .rwk 0 (.enum 6), fd 4 4 .rwk 0, fd 8 1 .rwk 0, fd 12 4 .ro 0],
  reg1 "BSN_CFG" 0x190004 [fu 0 2 .rwk 0 (.enum 2), fu 4 1 .rwk 0, fu 8 8 .rwk 10],
  reg1 "BSN_STAT" 0x190008 [fd 0 3 .ro 0, fd 3 1 .w1c 0, fd 4 4 .ro 0, fd 16 16 .ro 0],
  reg1 "BSN_WBW" 0x19000C [fu 0 13 .rwk 1000],
  reg1 "BSN_CAP" 0x190010 [fd 0 20 .ro 0],
  reg1 "BSN_REBUILD" 0x190014 [fd 0 17 .ro 0],
  regN "BSN_DRVn_STAT" 0x190100 4 0x20 [fd 0 3 .ro 0, fd 3 1 .ro 0, fd 4 3 .ro 0, fd 7 3 .ro 0],
  regN "BSN_DRVn_BLOCKS_LO" 0x190104 4 0x20 (roWord),
  regN "BSN_DRVn_BLOCKS_HI" 0x190108 4 0x20 [fd 0 4 .ro 0],
  regN "BSN_DRVn_ERR" 0x19010C 4 0x20 [fd 0 16 .w1c 0, fd 16 16 .w1c 0],
  regN "BSN_Oo_UNITS" 0x190200 9 0x20 (roWord),
  regN "BSN_Oo_WAVE_LOST" 0x190204 9 0x20 [fd 0 32 .w1c 0],
  regN "BSN_Oo_TREND_LOST" 0x190208 9 0x20 [fd 0 32 .w1c 0],
  regN "BSN_Oo_REC_LOST" 0x19020C 9 0x20 [fd 0 32 .w1c 0],
  regN "BSN_Oo_RECYCLED" 0x190210 9 0x20 [fd 0 32 .w1c 0],
  regN "BSN_STRs_CFG" 0x190400 16 0x20 [fu 0 2 .rwk 0 (.enum 2), fu 2 3 .rwk 0, fu 16 16 .rwk 0],
  regN "BSN_STRs_TIME" 0x190404 16 0x20 [fu 0 16 .rwk 0xFFFF, fu 16 8 .rwk 0, fu 24 8 .rwk 0],
  regN "BSN_STRs_TREND" 0x190408 16 0x20 [fu 0 16 .rwk 1, fu 16 5 .rwk 0],
  regNN "BSN_STRs_PTi" 0x190800 16 0x40 16 4 [fu 0 24 .rwk 0]]

/-- DMA block (20). -/
def dmaRegs : List RegDesc := [
  reg1 "DMA_STAT" 0x1A0000 [fd 0 8 .ro 0, fd 8 8 .ro 0, fd 16 9 .ro 0],
  reg1 "DMA_HBW" 0x1A0004 [fu 0 13 .rwk 6000 (.clamp 100 7000)],
  regN "DMA_DPn_CFG" 0x1A0100 8 0x20 [fu 0 9 .rwk 0],
  regN "DMA_DPn_PROG" 0x1A0104 8 0x20 [fu 0 11 .rwk 0, fu 16 12 .rwk 0],
  regN "DMA_DPn_CTL" 0x1A0108 8 0x20 [fd 0 1 .rwk 0, fd 1 1 .rwk 0],
  regN "DMA_DPn_STAT" 0x1A010C 8 0x20 [fd 0 2 .ro 0, fd 4 4 .ro 0, fd 8 11 .ro 0, fd 19 1 .w1c 0, fd 20 1 .w1c 0, fd 24 8 .w1c 0],
  regN "DMA_DPn_LAST" 0x1A0110 8 0x20 (roWord),
  regN "DMA_DLn_OWN" 0x1A0400 8 0x40 [fu 0 4 .rwk 0xF, fu 8 9 .rwk 16],
  regN "DMA_DLn_CTL" 0x1A0404 8 0x40 [fd 0 1 .rw 0, fd 1 1 .rw 0],
  regN "DMA_DLn_HEAD_LO" 0x1A0408 8 0x40 [fd 5 27 .rw 0],
  regN "DMA_DLn_HEAD_HI" 0x1A040C 8 0x40 [fd 0 32 .rw 0],
  regN "DMA_DLn_CW_LO" 0x1A0410 8 0x40 [fd 3 29 .rw 0],
  regN "DMA_DLn_CW_HI" 0x1A0414 8 0x40 [fd 0 32 .rw 0],
  regN "DMA_DLn_STAT" 0x1A0418 8 0x40 [fd 0 2 .ro 0, fd 4 4 .ro 0, fd 8 1 .w1c 0, fd 16 16 .w1c 0],
  regN "DMA_DLn_DONE" 0x1A041C 8 0x40 (roWord),
  regN "DMA_DLn_CUR_LO" 0x1A0420 8 0x40 (roWord),
  regN "DMA_DLn_CUR_HI" 0x1A0424 8 0x40 (roWord),
  regNN "DMA_PROGi_Ww" 0x1A8000 2048 0x10 4 4 [fu 0 32 .rwk 0]]

/-- CAN blocks (21). -/
def canRegs : List RegDesc := [
  regN "CAN_CTL" 0x1B0000 8 0x2000 [fu 0 2 .rw 0, fu 2 1 .rw 0, fu 3 1 .rw 1, fu 4 1 .rw 0, fd 8 1 .w1s 0, fd 9 1 .w1c 0],
  regN "CAN_NBT" 0x1B0004 8 0x2000 [fu 0 5 .rw 1, fu 5 8 .rw 62, fu 13 7 .rw 15, fu 20 7 .rw 15],
  regN "CAN_DBT" 0x1B0008 8 0x2000 [fu 0 5 .rw 0, fu 5 5 .rw 28, fu 10 4 .rw 9, fu 14 4 .rw 9],
  regN "CAN_TDC" 0x1B000C 8 0x2000 [fu 0 1 .rw 1, fu 8 7 .rw 30, fd 16 8 .ro 0],
  regN "CAN_TXCFG" 0x1B0010 8 0x2000 [fu 0 1 .rw 0, fu 1 3 .rw 0, fu 16 16 .rw 100 .one],
  regN "CAN_STAT" 0x1B0014 8 0x2000 [fd 0 2 .ro 0, fd 2 6 .ro 0, fd 8 8 .ro 0, fd 16 1 .ro 0, fd 17 1 .ro 0],
  regN "CAN_ERR" 0x1B0018 8 0x2000 [fd 0 8 .ro 0, fd 8 8 .ro 0, fd 16 3 .ro 0, fd 19 3 .ro 0],
  regN "CAN_CNT" 0x1B001C 8 0x2000 [fd 0 8 .w1c 0, fd 8 8 .w1c 0, fd 16 16 .w1c 0],
  regNN "CAN_TXTSb" 0x1B0020 8 0x2000 6 4 (roWord),
  regNN "CAN_FLTf_CFG" 0x1B0100 8 0x2000 32 0x10 [fu 0 1 .rw 0, fu 1 1 .rw 0, fu 2 2 .rw 0],
  regNN "CAN_FLTf_ID" 0x1B0104 8 0x2000 32 0x10 [fu 0 29 .rw 0],
  regNN "CAN_FLTf_MASK" 0x1B0108 8 0x2000 32 0x10 [fu 0 29 .rw 0],
  regNN "CAN_HPBh_STAT" 0x1B0400 8 0x2000 4 0x60 [fd 0 1 .w1c 0, fd 1 5 .ro 0, fd 6 4 .ro 0, fd 10 5 .ro 0, fd 16 8 .ro 0, fd 24 8 .w1c 0],
  regNN "CAN_HPBh_ID" 0x1B0404 8 0x2000 4 0x60 [fd 0 29 .ro 0],
  regNN "CAN_HPBh_TS_LO" 0x1B0408 8 0x2000 4 0x60 (roWord),
  regNN "CAN_HPBh_TS_HI" 0x1B040C 8 0x2000 4 0x60 (roWord),
  regNN "CAN_HPB0_Dw" 0x1B0410 8 0x2000 16 4 (roWord),
  regNN "CAN_HPB1_Dw" 0x1B0470 8 0x2000 16 4 (roWord),
  regNN "CAN_HPB2_Dw" 0x1B04D0 8 0x2000 16 4 (roWord),
  regNN "CAN_HPB3_Dw" 0x1B0530 8 0x2000 16 4 (roWord)]

/-- SDL block (22, 27). -/
def sdlRegs : List RegDesc := [
  reg1 "SDL_CFG" 0x1C0000 [fu 0 1 .rwk 0, fu 1 1 .rwk 0, fu 2 1 .rwk 1, fu 8 8 .rwk 64 .one],
  reg1 "SDL_STAT" 0x1C0004 [fd 0 3 .ro 0, fd 3 1 .ro 0, fd 4 1 .ro 0, fd 5 1 .ro 0, fd 6 3 .ro 0, fd 9 3 .ro 0, fd 12 1 .w1c 0, fd 16 16 .ro 0],
  reg1 "SDL_EVT" 0x1C0008 [fd 0 1 .w1c 0, fd 1 1 .w1c 0, fd 2 1 .w1c 0, fd 3 1 .w1c 0, fd 4 1 .w1c 0, fd 5 1 .w1c 0, fd 6 1 .w1c 0, fd 7 1 .w1c 0, fd 8 1 .w1c 0, fd 9 1 .w1c 0],
  reg1 "SDL_LINK" 0x1C000C [fd 0 16 .w1c 0, fd 16 16 .w1c 0],
  reg1 "SDL_RETX" 0x1C0010 [fd 0 16 .w1c 0, fd 16 16 .w1c 0],
  reg1 "SDL_LEASE" 0x1C0014 [fd 0 11 .ro 0, fd 16 16 .ro 0],
  reg1 "SDL_GAP" 0x1C0018 [fd 0 16 .ro 0, fd 16 16 .w1c 0],
  reg1 "SDL_RESYNC" 0x1C001C [fd 0 4 .ro 0, fd 4 4 .ro 0, fd 8 8 .ro 0],
  reg1 "SDL_ARB" 0x1C0020 [fd 0 2 .ro 3, fd 2 1 .ro 0, fd 8 24 .ro 0],
  reg1 "SDL_ARB_CNT" 0x1C0024 [fd 0 16 .w1c 0, fd 16 16 .w1c 0],
  reg1 "SDL_UPD" 0x1C0028 [fd 0 1 .rwk 0, fd 1 1 .ro 0]]

/-- RTC block (23). -/
def rtcRegs : List RegDesc := [
  reg1 "RTC_CTL" 0x1D0000 [fd 0 1 .rwk 0, fu 2 2 .rwk 0 (.enum 2), fu 4 1 .rwk 0, fu 5 1 .rwk 0, fu 6 1 .rwk 0, fu 16 12 .rwk 64],
  reg1 "RTC_STAT" 0x1D0004 [fd 0 1 .ro 0, fd 1 1 .ro 0, fd 2 1 .w1c 0, fd 3 1 .w1c 0, fd 4 1 .w1c 0, fd 5 1 .ro 0, fd 6 1 .ro 0, fd 8 1 .w1c 0, fd 9 1 .w1c 0],
  reg1 "RTC_SS" 0x1D0008 [fd 0 15 .ro 0],
  reg1 "RTC_TIME" 0x1D000C [fd 0 6 .ro 0, fd 8 6 .ro 0, fd 16 5 .ro 0, fd 24 3 .ro 0],
  reg1 "RTC_DATE" 0x1D0010 [fd 0 5 .ro 0, fd 8 4 .ro 0, fd 16 12 .ro 0],
  reg1 "RTC_OT_LO" 0x1D0014 (roWord),
  reg1 "RTC_OT_HI" 0x1D0018 [fd 0 8 .ro 0],
  reg1 "RTC_SET_SS" 0x1D0020 [fd 0 15 .rwk 0],
  reg1 "RTC_SET_TIME" 0x1D0024 [fd 0 6 .rwk 0, fd 8 6 .rwk 0, fd 16 5 .rwk 0, fd 24 3 .ro 0],
  reg1 "RTC_SET_DATE" 0x1D0028 [fd 0 5 .rwk 0, fd 8 4 .rwk 0, fd 16 12 .rwk 0],
  reg1 "RTC_TRIM" 0x1D0030 [fu 0 12 .rwk 0],
  reg1 "RTC_MEAS" 0x1D0034 [fd 0 12 .ro 0, fd 16 8 .w1c 0, fd 24 8 .w1c 0],
  reg1 "RTC_SHIFT" 0x1D0038 [fd 0 16 .rwk 0, fd 31 1 .rwk 0],
  reg1 "RTC_SHIFT_LEFT" 0x1D003C [fd 0 16 .ro 0],
  regN "RTC_ALMn_TIME" 0x1D0040 2 0x10 [fu 0 6 .rwk 0, fu 8 6 .rwk 0, fu 16 5 .rwk 0, fu 24 3 .rwk 0],
  regN "RTC_ALMn_DATE" 0x1D0044 2 0x10 [fu 0 5 .rwk 0, fu 8 4 .rwk 0, fu 16 12 .rwk 0],
  regN "RTC_ALMn_CFG" 0x1D0048 2 0x10 [fu 0 7 .rwk 0, fu 8 1 .rwk 0, fu 9 1 .rwk 0]]

/-- LCD block (24). -/
def lcdRegs : List RegDesc := [
  reg1 "LCD_CTL" 0x1D8000 [fu 0 1 .rwk 0, fu 1 2 .rwk 0 (.enum 1), fu 3 2 .rwk 0 (.enum 2), fu 5 1 .rwk 0, fu 6 1 .rwk 0, fu 8 4 .rwk 0, fu 16 8 .rwk 100],
  reg1 "LCD_BIAS" 0x1D8004 [fu 0 11 .rwk 900],
  reg1 "LCD_STAT" 0x1D8008 [fd 0 3 .ro 0, fd 3 1 .ro 0, fd 4 1 .ro 0, fd 5 1 .ro 0],
  reg1 "LCD_TBL_STAT" 0x1D800C tblStatFields,
  reg1 "LCD_EVT" 0x1D8010 [fd 0 1 .w1c 0, fd 1 1 .w1c 0, fd 16 16 .w1c 0],
  reg1 "LCD_TILE_LVL" 0x1D8014 [fu 0 4 .rwk 0, fu 4 4 .rwk 15, fu 8 4 .rwk 5],
  regN "LCD_TILEt_PT" 0x1D8100 64 8 [fu 0 24 .rwk 0, fu 24 1 .rwk 0],
  regN "LCD_TILEt_POS" 0x1D8104 64 8 [fu 0 7 .rwk 0, fu 8 6 .rwk 0, fu 16 5 .rwk 0, fu 24 6 .rwk 0]]

/-- SPT block (25). -/
def sptRegs : List RegDesc := [
  reg1 "SPT_TBL_STAT" 0x1E0000 tblStatFields,
  reg1 "SPT_CTL" 0x1E0004 [fu 0 1 .rwk 0],
  reg1 "SPT_STAT" 0x1E0008 [fd 0 8 .ro 0],
  reg1 "SPT_PUB" 0x1E000C (roWord)]

/-- The NODE registers of the chapter Updating in Service (27). -/
def updRegs : List RegDesc := [
  reg1 "NODE_IMG_APPLY" 0x130 [fd 0 4 .ro 0, fd 8 8 .ro 0, fd 16 2 .ro 0, fd 18 1 .ro 0, fd 31 1 .rwk 0],
  reg1 "NODE_UC_CTL" 0x140 [fd 0 3 .rwk 0 (.enum 4), fd 4 2 .rwk 0 (.enum 2), fd 8 4 .ro 0, fd 31 1 .rwk 0],
  reg1 "NODE_UC_DATA" 0x144 [fd 0 32 .wo 0],
  reg1 "NODE_UC_STAT" 0x148 [fd 0 19 .ro 0, fd 19 1 .ro 0, fd 20 2 .ro 0, fd 22 2 .ro 0, fd 24 1 .w1c 0]]

end Sys2Proof.Machine
end

