-- ==== Sys2Proof/Machine/State.lean ====
section
/-! DEFINITION. The state of the node: plain data, every register, memory, queue, counter, mode and
pin of the chapters, and the queue of commands that wait. -/

namespace Sys2Proof.Machine

/-- No command of this node ends in a fault: the manual reports every error through its registers,
rings and records. The one constructor is never raised; it stands here because the interface wants
a named reason. -/
inductive Fault where
  /-- Raised by nobody; safe. -/
  | neverRaised
  deriving DecidableEq, Repr

/-- Why a command has no meaning. -/
inductive Refusal where
  /-- The command has no meaning in this model yet (named by its mnemonic). Raised by exec alone; safe. -/
  | notModelled (mnemonic : String)
  deriving DecidableEq, Repr

/-! ## Points -/

/-- A frame-memory entry of a point (R220) and what its producer keeps (R54, R1189). -/
structure PtEnt where
  live : Nat
  flags : Nat
  snap : Nat
  snapFlags : Nat
  /-- substituted under R1189 -/
  subst : Bool
  /-- substituted while nothing gave the point an exponent and a unit (R1191) -/
  raw : Bool
  /-- last word of quality good or uncertain (held repeats it, R54) -/
  lastOk : Nat
  /-- last word the producer computed (bad keeps its value, R54) -/
  lastCalc : Nat
  deriving DecidableEq, Repr

/-! ## Power, clocks and modes -/

/-- State of a switched domain. A domain in sentry state (R123, R128) may wait for leave to return to ON, and may be
turning off from that state. -/
inductive DomSt where
  | off | waiting | waking | on | sentry | sentryWaiting | sentryOff | turningOff
  deriving DecidableEq, Repr

/-- The operation a leave request is for. -/
inductive LeaveOp where
  | domain (n : Nat)
  | bankStep (c : Nat)
  | pump
  | pll
  deriving DecidableEq, Repr

/-- A leave request that waits, in order of arrival (R110). -/
structure LeaveReq where
  op : LeaveOp
  dom : Nat
  cls : Nat
  steady : Nat
  surge : Nat
  /-- it has waited more than 2 µs, as a row reported (R321) -/
  late : Bool
  deriving DecidableEq, Repr

/-- A surge in progress (R106, R113). -/
structure Surge where
  op : LeaveOp
  dom : Nat
  amount : Nat
  deriving DecidableEq, Repr

/-- Governor, domains and clocks (03). -/
structure PwrSt where
  dom : SMap DomSt
  reqs : List LeaveReq
  surges : List Surge
  /-- domains refused leave that stay OFF until their target changes (R117) -/
  refused : Nat
  /-- the 32.768 kHz crystal is the AON source (R101, R102) -/
  onCrystal : Bool
  /-- ΣΔ modulators run (R103) -/
  modulators : Bool
  /-- VDD_IO stands at the 3.3 V level (R1122, R1124) -/
  ioHigh : Bool
  /-- R84 has been met since VAUX last returned: AON and RTC have left their reset (R88) -/
  aon : Bool
  deriving DecidableEq, Repr

/-- Operating mode machinery (04). -/
structure ModeSt where
  /-- the node has completed start-up since its last reset -/
  up : Bool
  /-- reset causes waiting for the next start (NODE_RESET_CAUSE bit numbers) -/
  cause : List Nat
  /-- that start increments PCC (R142) -/
  pccInc : Bool
  /-- frames run -/
  frames : Bool
  /-- the next boundary makes the first frame since start-up, or since frames resumed (R327, R341); while frames run
  with it, start-up has not reached its first frame (R149) -/
  firstFrame : Bool
  resumed : Bool
  /-- the keeper request that waits (R134, R138) -/
  req : Option Nat
  /-- automatic transition due at the next frame: mode and CAUSE -/
  auto : Option (Nat × Nat)
  /-- domains ON at entry of TAKEOVER or SAFE_HOLD (R123) -/
  entryOn : Nat
  /-- no loop-output cell is held live in SAFE_HOLD: none was live at entry, or they have been opened (R131, R132) -/
  heldOpen : Bool
  /-- cause of a node-fatal fault that has come while start-up is to run; 0 none (R1182) -/
  startFault : Nat
  /-- a table-memory word is unusable: table codes (R39) -/
  badTables : List Nat
  /-- their unusable 64-bit words, by BAR1 offset -/
  badWords : List Nat
  deriving DecidableEq, Repr

/-- Image bank operations and the loaded image (04, 27). -/
structure ImgSt where
  /-- operation in progress: OP code of NODE_IMG_CMD -/
  op : Option Nat
  /-- bytes written into a page whose byte 255 has not arrived (R215) -/
  stage : SMap Byte
  /-- pages programmed since their last erase -/
  prog : SMap Bool
  /-- pages flagged by page ECC (R171) -/
  flagged : SMap Bool
  /-- page of the NVM window whose programming may still be under way (R168) -/
  writing : Option Nat
  /-- REC_CLEAR_CODE of the loaded image (R808) -/
  clearCode : Nat
  /-- an image apply waits for its boundary: the bank (27) -/
  apply : Option Nat
  deriving DecidableEq, Repr

/-! ## Host interface -/

/-- An event entry that waits in a hold queue: its 64 bytes less PHASE and ESEQ, and the
subscription it belongs to (0xFF READ_POINTS, 0x100 none). -/
structure EvEnt where
  kind : Nat
  sub : Nat
  frame : Nat
  body : List Byte
  deriving DecidableEq, Repr

/-- A record delivery that waits for a record ring (R276, R807). -/
structure RecDel where
  rkind : Nat
  seq : Nat
  bytes : List Byte
  deriving DecidableEq, Repr

/-- What a function's command that has begun and not completed waits for. -/
inductive Flight where
  | tableSwap (code : Nat)
  | alarm (point : Nat)
  | callAck (point : Nat)
  | recClear
  | fsk (loop : Nat)
  | can (ctrl buf : Nat)
  | switchback
  deriving DecidableEq, Repr

/-- A begun command: its first index, its tag, and what it waits for; `silent` when a reset of its
function took its completion away (R278). -/
structure InFlight where
  sq : Nat
  tag : Nat
  what : Flight
  silent : Bool
  deriving DecidableEq, Repr

/-- A command with all its entries (R1192): `sq` and `tag` of the first entry, `bad` when a reserved byte or FLAGS
bit of an entry is not 0 or MORE stands on the last entry, `ops` the operand bytes of all entries, 56 of each; `silent`
when a reset of its function took its completion away (R278). -/
structure HostCmd where
  fn : Nat
  sq : Nat
  tag : Nat
  op : Nat
  bad : Bool
  ops : List Byte
  silent : Bool := false
  deriving DecidableEq, Repr

/-- A command that goes on in its slot of later frames, and how many T_CMD of reserved time it still takes (R335). -/
structure Carried where
  cmd : HostCmd
  left : Nat
  deriving DecidableEq, Repr

/-- A subscription (R1194). -/
structure Sub where
  period : Nat
  points : List Nat
  left : Nat
  deriving DecidableEq, Repr

/-- State of one PCIe function beside its registers. -/
structure FnSt where
  hold : List EvEnt
  /-- entries discarded and not yet reported: count, FRAME of the first and last, kinds (R275) -/
  gapN : Nat
  gapFirst : Nat
  gapLast : Nat
  gapKinds : Nat
  /-- of those, one was discarded or replaced under R272 or R273 (R321) -/
  spilt : Bool
  recQ : List RecDel
  /-- records lost and not yet reported (R277) -/
  recLost : Nat
  /-- of those, one was overwritten before its delivery (R321) -/
  recOver : Bool
  eseq : Nat
  rseq : Nat
  /-- entries written and not yet signalled, a bit for each vector (R245) -/
  unsig : Nat
  /-- entries of a multi-entry command collected so far: index, tag, opcode, operand bytes (R1192) -/
  asm : Option (Nat × Nat × Nat × List Byte)
  inflight : List InFlight
  subs : SMap (Option Sub)
  /-- READ_POINTS commands waiting for the next snapshot -/
  reads : List (List Nat)
  /-- VALUE_SET events formed from the last snapshot, written with the next publication (R1195) -/
  formed : List (Nat × List EvEnt)
  /-- reserved T_CMD of command time used in the present frame (R257, R335) -/
  used : Nat
  /-- the command that goes on in later frames (R335) -/
  carry : Option Carried
  /-- T_CMD of work that each next command begun takes beyond its first, as SLOT_BEGIN gives it; 0 past the end (log 89) -/
  work : List Nat
  /-- upper halves latched by R181: register offset and value -/
  latch : SMap (Option Word)
  /-- calendar latch of R1014: TIME, DATE, OT -/
  cal : Option (Nat × Nat × Nat)
  /-- ring indexes accepted while a doorbell page is in use are in HOST_RING_IDX; pending MSI-X messages, a bit a vector -/
  msg : Nat
  deriving DecidableEq, Repr

/-! ## Sequencer (08) -/

/-- A sentry entry in the sentry lane's own store (R367) and its run of wake scans. -/
structure SentrySt where
  point : Nat
  period : Nat
  confirm : Nat
  lo : Nat
  hi : Nat
  count : Nat
  deriving DecidableEq, Repr

structure SeqSt where
  /-- the slot that runs: 0 the node slot, p + 1 that of Pp; none between a frame boundary and the first slot (R256) -/
  slot : Option Nat
  /-- an entry of the sentry lane has woken the node since it entered SENTRY, and the OT of that scan (R372) -/
  woke : Bool
  wakeOt : Nat
  /-- bit k: slot k skipped an entry, or did not run, the last time it was due (R321) -/
  short : Nat
  /-- bit k: slot k has begun in this frame -/
  begun : Nat
  /-- base ticks performed since the frame boundary -/
  tick : Nat
  /-- base-tick counter G (R341) -/
  g : Nat
  /-- banks whose BLANK_Bn is active, whose extension runs, and which are ignored (R360, R364) -/
  blankIn : Nat
  blankPost : Nat
  sentry : List SentrySt
  /-- snapshot time of the last frame boundary, in base ticks -/
  snapTime : Nat
  /-- OT at the last frame boundary, in 1/4,000 of its count -/
  snapOt : Nat
  deriving DecidableEq, Repr

/-! ## Recorder (18) -/

/-- A record (R772). -/
structure Rec where
  items : List Nat
  seq : Nat
  ot : Nat
  pcc : Nat
  source : Nat
  type : Nat
  lastOt : Nat
  repeatN : Nat
  rgen : Nat
  aux : Nat
  deriving DecidableEq, Repr

/-- An open rec of a trigger (number 0 to 255) or of FAULT (0x103): its SEQ and window end. -/
structure OpenRec where
  source : Nat
  seq : Nat
  ends : Nat
  /-- OT of its last tail page -/
  journal : Nat
  deriving DecidableEq, Repr

/-- A tail page (R798, R799): its running count, the record state it holds, and whether it is still in use. -/
structure TailPage where
  n : Nat
  state : Rec
  used : Bool
  deriving DecidableEq, Repr

structure RecSt where
  /-- ring image by slot (R791); slots 0 to 32,767 -/
  image : SMap (Option Rec)
  /-- ring area of NVM by slot (R797) -/
  ring : SMap (Option Rec)
  /-- tail pages that are not erased, in order of their running counts; the page of count n is page n mod 2,048 -/
  tail : List TailPage
  /-- the running count of the next tail page, whose page is erased -/
  tailN : Nat
  /-- OT area: OT[39:16] by page number; flagged pages are not listed (R770) -/
  otPages : SMap (Option Nat)
  otNext : Nat
  /-- clear-intent page: next SEQ, count, lowest, highest (R811) -/
  intent : Option (Nat × Nat × Nat × Nat)
  /-- the page of the OT area that holds it -/
  intentPage : Nat
  opens : List OpenRec
  /-- records closed with a change that NVM lacks, whose pair is not closed (R798) -/
  closing : List OpenRec
  /-- OT at which the recorder disarms (R809), and the frame of the ARM (R810) -/
  armed : Option (Nat × Nat)
  /-- records formed and held during a rebuild or a clear (R802, R812), with the functions of their owners (R316) -/
  held : List (Rec × List Nat)
  /-- closed records that an admitted Basin has not yet taken into a chunk (19) -/
  toBasin : List Rec
  /-- OT at which the first record that waits for a record log came to wait (R832) -/
  basinSince : SMap Nat
  deriving DecidableEq, Repr

/-! ## Diagnostics (26) -/

/-- An error FIFO entry (R1082). -/
structure DiagEnt where
  code : Nat
  source : Nat
  occ : Nat
  sev : Nat
  owner : Nat
  ot : Nat
  detail : Nat
  deriving DecidableEq, Repr

/-- A source record (R1084). -/
structure SrcRec where
  occ : Nat
  first : Nat
  last : Nat
  deriving DecidableEq, Repr

structure DiagSt where
  fifo : List DiagEnt
  /-- source records by code × 2^24 + source -/
  src : SMap (Option SrcRec)
  /-- catch-all records by code (R1087) -/
  catchAll : SMap SrcRec
  /-- OT of the last FAULT event, by code × 2^24 + source (R1090) -/
  evLast : SMap (Option Nat)
  deriving DecidableEq, Repr

/-! ## Analog channels (09, 10) -/

/-- An analog channel beside its registers. -/
structure AnaSt where
  /-- set-up applied: MODE, EXC, TSRC, LEAD and FILT as last applied under R383 -/
  aMode : Nat
  aExc : Nat
  aTsrc : Nat
  aLead : Nat
  aFilt : Nat
  /-- an accepted change waits for the next filter output -/
  change : Bool
  /-- RTD3: phase B runs; LEAD1 and LEAD2 loaded since the set-up was applied (R393, R397) -/
  phaseB : Bool
  got1 : Bool
  got2 : Bool
  /-- OT until which R412 gives settling samples -/
  iepeUntil : Nat
  /-- consecutive common-mode measurements outside and inside the window (R479, R480) -/
  cmOut : Nat
  cmIn : Nat
  /-- a test-tone check runs (R481) -/
  tone : Bool
  /-- a test-tone check that is due waits (R363, R445) -/
  toneDue : Bool
  /-- a test-tone check ran in the RTD3 phase in progress (R490) -/
  toned : Bool
  /-- outputs to come whose input window still holds blanked bits (R361) -/
  tail : Nat
  deriving DecidableEq, Repr

/-- A correction of a cell in a set-up, and the OT of its calibration (R446, R1205). -/
structure Corr where
  ofs : Int
  gain : Int
  ot : Nat
  deriving DecidableEq, Repr

/-- The rotation of an analog bank beside ACQ_ROT_STAT. -/
structure BankSt where
  /-- filter outputs left of phase B or E -/
  left : Nat
  /-- the calibration in progress repeats one that failed (R448) -/
  retry : Bool
  /-- the step waits for the end of its channel's settling samples (R462, R463) -/
  wait : Bool
  /-- phase D has ended and phase E waits for that end (R463) -/
  calDone : Bool
  /-- phase A has ended and phase B waits for the end of a test tone (R445) -/
  toneWait : Bool
  /-- a step that fell due while outputs were discarded, and waits (R363) -/
  stepDue : Option Nat
  /-- calibration of the base check in progress, 0 to 6 (R440) -/
  base : Nat
  stepOt : Nat
  /-- channel being moved to the spare after its cell failed (R453) -/
  emerg : Option Nat
  /-- channel whose spare has failed, until its home cell's first output, and the report's detail (R1203) -/
  back : Option (Nat × Nat)
  /-- retired cells, bit 16 the spare: kept in NVM (R1204) -/
  retired : Nat
  /-- channel whose retired cell the spare covers: kept in NVM (R1204) -/
  cover : Option Nat
  deriving DecidableEq, Repr

/-! ## Loop outputs (11) -/

/-- An FSK transmission of a function that waits for silence or is being sent (R541, R542). -/
structure FskTx where
  fn : Nat
  data : List Byte
  sending : Bool
  /-- the bits on the line, in order: mark is true (R536) -/
  line : List Bool
  deriving DecidableEq, Repr

/-- A loop-output cell beside its registers. -/
structure LoopCell where
  /-- mode the cell works in (R493) -/
  mode : Nat
  /-- mode of the bank step that waits or runs (R495) -/
  tgt : Option Nat
  /-- the last demand: a word (R1209) -/
  dem : Nat
  /-- clamped demand last applied since start-up, in µA -/
  last : Option Nat
  /-- clamped value of LOOP_CHc_INIT that it drives since it entered its mode (R499, R507) -/
  init : Option Nat
  /-- current driven, in pA (R505) -/
  cur : Int
  /-- opened by its watchdog or by OVERTEMP, until its step into the mode is done (R517, R523, R524) -/
  opened : Bool
  /-- OT until which COMPLIANCE is not evaluated, after a change of the current by more than RB_TOL (R514) -/
  moved : Nat
  /-- consecutive updates above 60 mW, and below 55 mW (R1208) -/
  hot : Nat
  cool : Nat
  tx : Option FskTx
  /-- OT until which the receiver is blanked (R544) -/
  rxBlank : Nat
  /-- the reception in progress began before the point's owner changed: it is discarded (R317) -/
  rxCut : Bool
  /-- quality of the point's word but for what the status bits give (R508, R512) -/
  wordQual : Nat
  deriving DecidableEq, Repr

/-- A page of the trim store: its bytes as far as they are programmed, and whether its ECC flags it (R171, R532). -/
structure TrimPage where
  bytes : List Byte
  flagged : Bool
  deriving DecidableEq, Repr

/-- The trim store: its two pages, and the bytes that a STORE in progress programs. -/
structure TrimSt where
  a : TrimPage
  b : TrimPage
  storing : Option (List Byte)
  deriving DecidableEq, Repr

/-! ## Contacts, pulses and trips (12) -/

/-- A contact beside its registers: the state that samples count towards and how many did, and the
debounced states that followed the state its entry last wrote (R551, R554). -/
structure ContactSt where
  cand : Nat
  count : Nat
  later : List Nat
  deriving DecidableEq, Repr

/-- A pulse input beside its registers. Times are in units of 2.5 ns (R558). -/
structure PulseSt where
  /-- the comparator's output, pulses shorter than MINW left out (R557) -/
  level : Bool
  /-- last edge of the previous measurement -/
  ref : Option Nat
  last : Nat
  /-- edges since `ref` -/
  edges : Nat
  /-- f as edges over a time: the frequency is `fNum / fDen` Hz -/
  fNum : Nat
  fDen : Nat
  deriving DecidableEq, Repr

/-- Terms and flags of a trip in force: SEL, INV and KIND of each term (R568). -/
structure TripEnt where
  flags : Nat
  actMask : Nat
  terms : List (Nat × Nat × Nat)
  deriving DecidableEq, Repr

/-- The trip matrix in AON (R574, R575). -/
structure TripSt where
  inputs : Nat
  ents : SMap TripEnt
  /-- state codes: 0 CLEAR, 1 ACTIVE, 2 LATCHED, 3 ARMED -/
  code : SMap Nat
  causes : Nat
  /-- trips that entered ACTIVE since the previous snapshot (R577) -/
  fresh : Nat
  /-- OT of the last change of each trip's code, and of its first entry to ACTIVE since the last snapshot -/
  ots : SMap Nat
  entries : SMap Nat
  /-- TRIP events formed from the last snapshot, by function (R577) -/
  events : List (Nat × EvEnt)
  deriving DecidableEq, Repr

/-! ## Actuator legs and positions (13) -/

/-- A leg beside its registers. -/
structure LegSt where
  /-- the last demand: a word -/
  dem : Nat
  /-- last duty applied, in 0.01 % -/
  duty : Int
  /-- t_on that the next carrier zero latches (R593) -/
  next : Option Nat
  /-- ACT_LEGn_CLAMP and ACT_LEGn_SC as the last carrier zero took them -/
  clamp : Nat
  sc : Nat
  /-- it switches: a carrier zero has come since it became ARMED (R590) -/
  runs : Bool
  /-- it has left PRECHARGE or ARMED in this carrier period (R591, R602), and its gates went off by the soft path (R598) -/
  left : Bool
  soft : Bool
  /-- the phase-current detector fires, as last seen, and one that needs a gate on does; one fired in this carrier period; a
  gate is clamped (R598, R599, R602) -/
  firing : Bool
  vds : Bool
  fired : Bool
  clamped : Bool
  /-- OT of an application of its word since the last base tick, which an expiry of its watchdog falls in with (R606) -/
  fresh : Option Nat
  deriving DecidableEq, Repr

/-- A position interface beside its registers. -/
structure PosSt where
  qa : Bool
  qb : Bool
  /-- the next word is uncertain (R608) -/
  warn : Bool
  deriving DecidableEq, Repr

/-! ## Control engine (14, 15) -/

/-- State of a loop beside its registers (R626). -/
structure LoopSt where
  sp : Int
  xPrev : Int
  ePrev : Int
  uLast : Int
  iAcc : Int
  dAcc : Int
  /-- tsp of the previous evaluation (R645) -/
  tsp : Int
  /-- x of the last evaluation in which PV was not bad (R647) -/
  xGood : Int
  /-- measured word of that evaluation (R644) -/
  pvGood : Option Nat
  /-- last output word -/
  word : Nat
  /-- the loop starts at its next evaluation (R623) -/
  fresh : Bool
  /-- the next evaluation in AUTO is a transfer evaluation -/
  xfer : Bool
  /-- PV was bad in the last evaluation; it was held by BAD_ACT HOLD -/
  wasBad : Bool
  wasHold : Bool
  deriving DecidableEq, Repr

/-- A dispatched evaluation that waits for a MAC lane (R651). -/
structure EvalReq where
  loop : Nat
  tickLane : Bool
  chain : Bool
  deriving DecidableEq, Repr

/-- A capture buffer beside its registers: the 48 set-up bytes, evaluations since TUNE_START, samples
written, samples written from the trigger on, and the state of the injection (R663, R665). -/
structure TuneSt where
  cfg : List Byte
  evals : Nat
  taken : Nat
  post : Nat
  k : Nat
  prbs : Nat
  bit : Bool
  phi : Nat
  lastSample : Nat
  /-- the injection ends at the next evaluation: the mode or the table changed (R668) -/
  cut : Bool
  deriving DecidableEq, Repr

/-! ## Real-time clock (23) -/

/-- A calendar instant (R1007). -/
structure Cal where
  sec : Nat
  min : Nat
  hour : Nat
  day : Nat
  month : Nat
  year : Nat
  deriving DecidableEq, Repr

/-- The clock beside its registers. -/
structure RtcSt where
  ss : Nat
  cal : Cal
  /-- trim accumulator, 10⁻⁷ counts (R1019) -/
  acc : Int
  /-- SS fraction in 1/125 while the RC backup runs (R1013) -/
  frac : Nat
  /-- edges since the last shift step fell due; a step waits for a free edge (R1027) -/
  edge : Nat
  wait : Bool
  /-- OT fraction in 1/4000 (R100) -/
  otFrac : Nat
  /-- an accepted SET: SS and instant (R1015) -/
  set : Option (Nat × Cal)
  deriving DecidableEq, Repr

/-! ## CAN (21) -/

/-- A frame in a transmit buffer; `fn` 9 is the engineer call. -/
structure CanTx where
  onBus : Bool
  fmt : Nat
  ident : Nat
  dlc : Nat
  data : List Byte
  fn : Nat
  /-- TX_TMO elapsed while ON_BUS (R928) -/
  tmo : Bool
  /-- withdrawn while ON_BUS: outcome when its attempt fails (R945) -/
  drop : Bool
  deriving DecidableEq, Repr

/-- A received frame in the FIFO. -/
structure CanRx where
  fmt : Nat
  ident : Nat
  dlc : Nat
  data : List Byte
  ts : Nat
  deriving DecidableEq, Repr

/-- A controller beside its registers. -/
structure CanSt where
  buf : SMap (Option CanTx)
  fifo : List CanRx
  /-- MODE in effect (R945) -/
  mode : Nat
  deriving DecidableEq, Repr

/-! ## Alarm engine (16) -/

/-- An alarm beside its table entry. Times are snapshot times in base ticks. -/
structure AlarmEnt where
  state : Nat
  c : Bool
  cd : Bool
  s : Bool
  /-- snapshot time and OT at which C last changed (R692, R693) -/
  cAt : Int
  cOt : Nat
  /-- OT of the crossing that caused the last change of C_d -/
  crossOt : Nat
  /-- time at which the shelve timer reaches 0 -/
  shelve : Option Int
  /-- ROC reference: word and time (R687) -/
  vref : Option (Nat × Int)
  cross : Nat
  /-- the last ALARM event: time and to-state (R721, R722) -/
  ev : Option (Int × Nat)
  /-- changes not yet reported; one of them was a capture; record of the latest; crossing OT of the
  latest that a change of C_d caused (R714) -/
  pend : Nat
  pendFo : Bool
  pendRec : Option Nat
  pendOt : Option Nat
  deriving DecidableEq, Repr

/-- An alarm command that waits for its evaluation (R701): op 0 ACK, 1 SHELVE, 2 UNSHELVE, 3 SERVICE. -/
structure AlmCmd where
  fn : Nat
  sq : Nat
  tag : Nat
  op : Nat
  point : Nat
  arg : Nat
  deriving DecidableEq, Repr

/-- An ALARM event formed and not yet published. -/
structure AlmEv where
  fn : Nat
  prio : Nat
  alarm : Nat
  frame : Nat
  ot : Nat
  aux : Nat
  body : List Byte
  deriving DecidableEq, Repr

/-- An alarm as the inspect registers show it: what an evaluation left, with the PRIO it had (R732). -/
structure AlmShown where
  ent : AlarmEnt
  prio : Nat
  deriving DecidableEq, Repr

/-- An alarm that a swap disabled while it was not NORMAL (R730): owner's function, PRIO, COND, SRC,
group, state and changes pending. -/
structure AlmGone where
  fn : Nat
  alarm : Nat
  prio : Nat
  cond : Nat
  src : Nat
  group : Nat
  state : Nat
  pend : Nat
  deriving DecidableEq, Repr

structure AlmSt where
  ents : SMap (Option AlarmEnt)
  /-- as of the last publication (R732), and the snapshot time it reports; that of the last evaluation -/
  shown : SMap (Option AlmShown)
  shownAt : Int
  evalAt : Int
  /-- alarms as the last evaluation left them, for the publication to come -/
  formed : SMap (Option AlmShown)
  /-- last-active snapshot by target × 2^24 + source (R695) -/
  edges : SMap (Option Int)
  cmds : List AlmCmd
  /-- results that wait for their publication: function, index, tag, status, RESULT -/
  results : List (Nat × Nat × Nat × Nat × Nat)
  gone : List AlmGone
  events : List AlmEv
  /-- words formed by an evaluation that is not published yet -/
  words : Option (List (Nat × Nat))
  /-- entries into ACTIVE_UNACK: owner page and time (R719) -/
  entries : List (Nat × Int)
  /-- alarms do not run since the last evaluation (R727) -/
  stopped : Bool
  /-- UNACK, ACTIVE and FLOOD of the node summary word as the last evaluation left them (R1067) -/
  summary : Nat
  deriving DecidableEq, Repr

/-! ## Engineer call (17) -/

/-- A CALL or CLEAR frame in repetition. -/
structure CallFrame where
  data : List Byte
  seq : Nat
  targets : Nat
  acked : Nat
  sent : Nat
  clear : Bool
  /-- targets with PANEL set when it was formed -/
  panels : Nat
  deriving DecidableEq, Repr

/-- A CALL event: its function, call point, stage and entry (R750), with the frame and the OT it was formed in. -/
structure CallEv where
  fn : Nat
  point : Nat
  stage : Nat
  entry : Nat
  frame : Nat
  ot : Nat
  deriving DecidableEq, Repr

/-- Fields of the rota that a call in progress goes on with until its next evaluation (R735): OUT_POL of the entries as a
mask, CAN_CTRL, CAN_FMT, TX_ID and RX_BASE. -/
structure CallSet where
  pol : Nat
  ctrl : Nat
  fmt : Nat
  txId : Nat
  rxBase : Nat
  deriving DecidableEq, Repr

/-- An acceptance that waits for its evaluation: entry, and the CALL_ACK it completes (function, index, tag). -/
structure CallAcc where
  entry : Nat
  cmd : Option (Nat × Nat × Nat)
  deriving DecidableEq, Repr

structure CallSt where
  stage : Nat
  /-- snapshot time the timer has run in this stage, in base ticks -/
  timer : Nat
  targets : Nat
  accepted : Nat
  marked : List Nat
  first : Nat
  accs : List CallAcc
  /-- frame in repetition; it is sent at the next publication -/
  frame : Option CallFrame
  due : Bool
  /-- LAST_n of each panel (R766) -/
  last : SMap (Option Nat)
  /-- the outputs as the last publication left them: targets asserted, whether steady, their OUT_POL -/
  out : Nat
  steady : Bool
  pol : Nat
  /-- highest priority as of the last evaluation is EMERGENCY -/
  urgent : Bool
  /-- CALL events that wait for their publication -/
  events : List CallEv
  /-- outputs and CAN settings that the call works with (R735) -/
  set : CallSet
  /-- the last evaluation's snapshot time -/
  lastTime : Option Nat
  /-- bit n: the twin's state was mirrored and CALL_SEQ moves by 64 at the next evaluation (R758) -/
  taken : Bool
  /-- acknowledgements of panel frames sent: the last one -/
  ackSent : Option (Nat × Nat)
  deriving DecidableEq, Repr

/-! ## Basin (19) -/

/-- A superblock (R821). -/
structure SuperBlk where
  layout : Nat
  member : Nat
  basinId : Nat
  sgen : Nat
  cap : Nat
  members : Nat
  clean : Bool
  rebuild : Option Nat
  cursor : Nat
  deriving DecidableEq, Repr

/-- The header of a unit of 1 GiB (R823). -/
structure UnitHead where
  kind : Nat
  owner : Nat
  stream : Nat
  epoch : Nat
  ugen : Nat
  ot : Nat
  pcc : Nat
  deriving DecidableEq, Repr

/-- A unit that has a header, as the node knows it: the body blocks of each of its valid chunks, and whether the blocks after
them were deallocated (R824, R830). -/
structure BUnit extends UnitHead where
  chunks : List Nat
  wiped : Bool
  deriving DecidableEq, Repr

/-- The content of a chunk (R824): body bytes, OT of its first and last data. -/
structure BChunk where
  body : List Byte
  first : Nat
  last : Nat
  deriving DecidableEq, Repr

/-- A key pair of the store (R845). -/
structure BKey where
  owner : Nat
  epoch : Nat
  key : BitVec 512
  deriving DecidableEq, Repr

/-- A waveform sample set, with the channels, rate and filter it was taken under (R834), the owner of its stream, and the
stretch of the stream between two writes to its registers in which it was staged (R837). -/
structure WSet where
  ot : Nat
  codes : List Nat
  flags : Nat
  mask : Nat
  rate : Nat
  filt : Nat
  owner : Nat
  seg : Nat
  deriving DecidableEq, Repr

/-- A trend entry (R836), with its owner and stretch as a waveform set has them. -/
structure TrEnt where
  ot : Nat
  bytes : List Byte
  owner : Nat
  seg : Nat
  deriving DecidableEq, Repr

/-- What Basin holds for a log beside its units: the records log of owner o is log o, stream s is log 16 + s. -/
structure BLog where
  sets : List WSet
  /-- pre-trigger sets (R835) -/
  pre : List WSet
  /-- codes of the set under way by channel, and its flags -/
  cur : List (Nat × Nat)
  curFlags : Nat
  /-- OT at which a triggered capture ends, while one is under way -/
  ends : Option Nat
  /-- OT of the first and last set of the present or last capture -/
  win : Nat × Nat
  lost : Bool
  trend : List TrEnt
  /-- frames since the last trend entry -/
  frames : Nat
  /-- the stream's registers in force: CFG, TIME, TREND, then the trend points (R837) -/
  regs : List Nat
  /-- writes to the registers of the enabled stream: each ended its open chunk (R837) -/
  seg : Nat
  deriving DecidableEq, Repr

/-- A chunk being written: its log, unit, owner and kind, its content, the step it is at (0 the header of a new unit, 1 its
body blocks, 2 its mark) and the members whose completion of that step is awaited (R825, R826). -/
structure BFlight where
  log : Nat
  unit : Nat
  owner : Nat
  kind : Nat
  chunk : BChunk
  phase : Nat
  waits : Nat
  /-- waveform sets or trend entries of the chunk -/
  items : Nat
  /-- records of the chunk -/
  recs : List Rec
  deriving DecidableEq, Repr

structure BsnSt where
  drives : SMap (Option Drive)
  units : SMap (Option BUnit)
  id : Nat
  sgen : Nat
  cap : Nat
  layout : Nat
  /-- ports of the Basin, and those in use -/
  ports : Nat
  cursor : Nat
  rebuild : Option Nat
  ugen : Nat
  /-- keys in the store, and the greatest epoch given (R845) -/
  keys : List BKey
  epochs : Nat
  logs : SMap BLog
  flight : List BFlight
  /-- blocks that are rewritten after a read error: member and member block (R853) -/
  rewrites : List (Nat × Nat)
  /-- root ports whose NVn_PERST_N is released (R1121) -/
  perst : Nat
  /-- the automatic admission of this start-up has not been made; frame boundaries until it is tried, 0 for none in sight -/
  auto : Option Nat
  deriving DecidableEq, Repr

/-! ## DMA (20) -/

/-- A transfer in progress. -/
structure Xfer where
  src : Nat
  dst : Nat
  left : Nat
  swrap : Nat
  dwrap : Nat
  sspace : Nat
  dspace : Nat
  burst : Nat
  /-- width code of the elements in which it writes (R869, R870) -/
  dw : Nat
  deriving DecidableEq, Repr

structure DpSt where
  /-- loop counters, running addresses, pending events (R886) -/
  ctr0 : Nat
  ctr1 : Nat
  rsrc : Option Nat
  rdst : Option Nat
  scan : Bool
  chan : Bool
  xfer : Option Xfer
  /-- the pulse of a SIGNAL waits for its read-back (R907) -/
  pulse : Bool
  /-- the mode in force at the last write asks for a read-back (R907) -/
  verify : Bool
  /-- credit in eighths of a byte, and the fabric cycle at which it stood so (R875) -/
  credit : Int
  since : Nat
  deriving DecidableEq, Repr

structure DlSt where
  xfer : Option Xfer
  notify : Bool
  last : Bool
  next : Nat
  /-- the pulse of a descriptor waits for its read-back (R907) -/
  pulse : Bool
  /-- credit in eighths of a byte, and the fabric cycle at which it stood so (R875) -/
  credit : Int
  since : Nat
  deriving DecidableEq, Repr

structure DmaSt where
  handoff : SMap Byte
  dp : SMap DpSt
  dl : SMap DlSt
  /-- waveform port FIFOs by bank: stream and set -/
  port : SMap (List (Nat × WSet))
  /-- ports that request (R889) -/
  req : Nat
  /-- fabric cycles counted by the bursts -/
  now : Nat
  /-- the descriptor channel that each function was served last; 7 before the first (R880) -/
  served : SMap Nat
  /-- the port whose drained burst halted DP0, until it is enabled again (R915) -/
  drained : Option Nat
  deriving DecidableEq, Repr

/-! ## Saddle link and lease (22) -/

/-- A Saddle frame sent or waiting to be sent. -/
structure SdlFrame where
  type : Nat
  sflags : Nat
  seq : Nat
  set : Nat
  data : List Byte
  deriving DecidableEq, Repr

structure SdlSt where
  txSeq : Nat
  /-- SEQ of the last frame sent before contact was last lost -/
  mark : Nat
  last : Nat
  out : List SdlFrame
  queue : List SdlFrame
  /-- RESYNC frames that wait, and what is left of their share of the link, in 1/256 byte (R999) -/
  resync : List SdlFrame
  share : Int
  contact : Bool
  /-- the twin's SFLAGS as last received; whether any came -/
  peer : Nat
  heard : Bool
  /-- FAILED or HANDOVER came and no frame with role ACTIVE since (R984) -/
  gone : Bool
  everHot : Bool
  metActive : Bool
  sync : Nat
  /-- number of the set being received, MIRROR frames accepted, their items -/
  rxSet : Nat
  rxCount : Nat
  rxItems : List (Nat × Int)
  /-- a complete set that waits for the boundary: frame number, items -/
  ready : Option (Nat × List (Nat × Int))
  /-- the last set applied: frame number and snapshot time; its items that are used at TAKEOVER -/
  applied : Option (Nat × Nat)
  items : List (Nat × Int)
  setNum : Nat
  pulseDiff : SMap Int
  /-- lease held: number, and G when its request was sent -/
  lease : Option (Nat × Nat)
  leaseNum : Nat
  rseq : Nat
  /-- requests sent and not answered: RSEQ, TAKE and G -/
  asked : List (Nat × Bool × Nat)
  waitUs : Nat
  /-- last lease frame sent on each port -/
  leaseTx : SMap (List Byte)
  /-- FAILED and RELEASE were sent: no further REQUEST (R987) -/
  quiet : Bool
  /-- arbiter: holder, G at the end of the last lease, hold-off running -/
  holder : Option Nat
  guard : Option Nat
  holdoff : Bool
  /-- switch-back in progress: 0 none, 1 accepted, 2 HANDOVER sent; HANDOVER from this unit stands (R1005) -/
  swb : Nat
  handed : Bool
  /-- records to send to the twin (R969, R971) -/
  recs : List Rec
  /-- the twin's NODE_STEPPING.MAJOR and IMAGE_CRC, its ALLOW, and R998 of its Basin -/
  twinId : Option (Nat × Nat × Bool × Bool)
  /-- tables received by a resynchronisation: table codes -/
  tables : List Nat
  /-- swaps since the last set, which the next one tells the standby; swaps of the twin that follow the set of a frame
  number: table code and frame (R1000) -/
  told : List (Nat × Nat)
  swaps : List (Nat × Nat)
  /-- the twin has been asked for its identity -/
  idSent : Bool
  /-- legs that TAKEOVER arms once R993 allows -/
  arm : Nat
  role : Nat
  deriving DecidableEq, Repr

/-! ## LCD and status port (24, 25) -/

structure LcdSt where
  /-- number of the refresh frame in progress (R1046), its polarity and the map copy it uses -/
  k : Nat
  positive : Bool
  map : Nat
  /-- V0 to V4 lie within 2 % of nominal; the first refresh frame, with every pixel off, is driven (R1059) -/
  ready : Bool
  firstOff : Bool
  /-- LCD_TILEt_PT and LCD_TILEt_POS as of the last publication (R1055) -/
  tiles : SMap (Nat × Nat)
  deriving DecidableEq, Repr

structure SptSt where
  mirror : SMap Nat
  /-- SP_D at the last read; none is high impedance -/
  data : Option Nat
  deriving DecidableEq, Repr

/-! ## Update in service and JTAG (27, 28) -/

structure UpdSt where
  /-- engine of the last OPEN, whose store NODE_UC_DATA appends to; 0 none -/
  openEng : Nat
  /-- staged package by engine -/
  stage : SMap (List Byte)
  /-- start-up slots in NVM by engine × 2 + slot: generation and package -/
  slots : SMap (Option (Nat × List Byte))
  /-- microcode in force by engine, none for ROM -/
  force : SMap (Option (List Byte))
  wait : SMap (Option (List Byte))
  /-- STORE or ERASE in progress: engine and OP -/
  op : Option (Nat × Nat)
  deriving DecidableEq, Repr

structure JtagSt where
  /-- TAP controller state, numbered as its chapter lists them -/
  tap : Nat
  ir : Nat
  irShift : Nat
  byp : Bool
  bnd : Nat
  tdo : Option Bool
  deriving DecidableEq, Repr


/-- The node. -/
structure Chip where
  /-- BAR0 registers by offset; an unlisted offset holds its default -/
  regs : SMap Word
  /-- memory of the host -/
  hostMem : SMap Byte
  /-- BAR1 table memories, LCD frame memory and tuning buffers, by BAR1 offset; unlisted bytes are the factory's -/
  tables : SMap Byte
  /-- image banks of NVM, by offset in the 8 MiB area; unlisted bytes are erased, 0xFF -/
  nvm : SMap Byte
  points : SMap PtEnt
  ot : Nat
  pwr : PwrSt
  mode : ModeSt
  img : ImgSt
  fns : SMap FnSt
  seq : SeqSt
  rcd : RecSt
  diag : DiagSt
  /-- partition breaches in progress by 8 × partition + code: start OT (R321) -/
  breach : SMap (Option Nat)
  /-- the last BAR0 read completion: value, or none for Completer Abort -/
  readOut : Option Nat
  readAbort : Bool
  /-- MODEL'S OWN: counter of free values consumed -/
  free : Nat
  ana : SMap AnaSt
  bank : SMap BankSt
  /-- corrections by (bank × 17 + cell) × 2^64 + set-up, kept in AON (R1205) -/
  corr : SMap (Option Corr)
  cells : SMap LoopCell
  trim : TrimSt
  /-- the lease gate holds the outputs de-energised (R986) -/
  gate : Bool
  contacts : SMap ContactSt
  pulses : SMap PulseSt
  trips : TripSt
  legs : SMap LegSt
  pos : SMap PosSt
  loops : SMap LoopSt
  evq : List EvalReq
  tune : SMap TuneSt
  rtc : RtcSt
  can : SMap CanSt
  alm : AlmSt
  call : CallSt
  bsn : BsnSt
  dma : DmaSt
  sdl : SdlSt
  lcd : LcdSt
  spt : SptSt
  upd : UpdSt
  jtag : JtagSt
  /-- STRAP_TEST was latched high: only JTAG answers (R1125) -/
  strapTest : Bool
  deriving DecidableEq, Repr

/-- The node and the commands that wait for it, first in first out. -/
structure State where
  chip : Chip
  pending : List Instr
  deriving DecidableEq, Repr

/-- The node right after a cold reset: every domain is OFF, every register holds its default, no memory
lists anything. Values that the chapters do not give are named in the assumption log. -/
def Chip.reset : Chip := {
  regs := [], hostMem := [], tables := [], nvm := [], points := [], ot := 0,
  pwr := { dom := [], reqs := [], surges := [], refused := 0, onCrystal := true, modulators := false, ioHigh := true, aon := false },
  mode := { up := false, cause := [0], pccInc := true, frames := false, firstFrame := false, resumed := false, req := none,
            auto := none, entryOn := 0, heldOpen := false, startFault := 0, badTables := [], badWords := [] },
  img := { op := none, stage := [], prog := [], flagged := [], writing := none, clearCode := 0, apply := none },
  fns := [],
  seq := { slot := none, woke := false, wakeOt := 0, short := 0, begun := 0, tick := 0, g := 0, blankIn := 0, blankPost := 0, sentry := [], snapTime := 0, snapOt := 0 },
  rcd := { image := [], ring := [], tail := [], tailN := 0, otPages := [], otNext := 0, intent := none, intentPage := 0, opens := [], closing := [],
           armed := none, held := [], toBasin := [], basinSince := [] },
  diag := { fifo := [], src := [], catchAll := [], evLast := [] },
  breach := [], readOut := none, readAbort := false, free := 0, ana := [], bank := [], corr := [], cells := [],
  trim := { a := { bytes := [], flagged := false }, b := { bytes := [], flagged := false }, storing := none }, gate := false, contacts := [], pulses := [],
  trips := { inputs := 0, ents := [], code := [], causes := 0, fresh := 0, ots := [], entries := [], events := [] },
  legs := [], pos := [], loops := [], evq := [], tune := [],
  rtc := { ss := 0, cal := { sec := 0, min := 0, hour := 0, day := 1, month := 1, year := 2000 }, acc := 0, frac := 0,
           edge := 0, wait := false, otFrac := 0, set := none },
  can := [],
  alm := { ents := [], shown := [], shownAt := 0, evalAt := 0, edges := [], cmds := [], results := [], gone := [], events := [],
           words := none, entries := [], stopped := false, summary := 0, formed := [] },
  call := { stage := 0, timer := 0, targets := 0, accepted := 0xFF, marked := [], first := 0, accs := [],
            frame := none, due := false, last := [], out := 0, steady := false, pol := 0, urgent := false, events := [],
            lastTime := none, taken := false, ackSent := none,
            set := { pol := 0, ctrl := 0xFF, fmt := 0, txId := 0, rxBase := 0 } },
  bsn := { drives := [], units := [], id := 0, sgen := 0, cap := 0, layout := 0, ports := 0, cursor := 0, rebuild := none,
           ugen := 0, keys := [], epochs := 0, logs := [], flight := [], rewrites := [], perst := 0,
           auto := some 0 },
  dma := { handoff := [], dp := [], dl := [], port := [], req := 0, now := 0, served := [], drained := none },
  sdl := { txSeq := 0, mark := 0, last := 0, out := [], queue := [], resync := [], share := 0, contact := false, peer := 0, heard := false, gone := false,
           everHot := false, metActive := false, sync := 0, rxSet := 0, rxCount := 0, rxItems := [], ready := none,
           applied := none, items := [], setNum := 0, pulseDiff := [], lease := none, leaseNum := 0, rseq := 0, asked := [],
           waitUs := 0, leaseTx := [], quiet := false, holder := none, guard := none, holdoff := false, swb := 0,
           handed := false, recs := [], twinId := none, tables := [], told := [], swaps := [], idSent := false, arm := 0, role := 0 },
  lcd := { k := 14, positive := false, map := 0, ready := false, firstOff := false, tiles := [] },
  spt := { mirror := [], data := none },
  upd := { openEng := 0, stage := [], slots := [], force := [], wait := [], op := none },
  jtag := { tap := 0, ir := 15, irShift := 0, byp := false, bnd := 0, tdo := none },
  strapTest := false }

/-- The machine right after reset: the node after a cold reset, and no command waits. -/
def State.reset : State := { chip := Chip.reset, pending := [] }

end Sys2Proof.Machine
end

