-- ==== Sys2Proof/Machine/Regs.lean ====
section
/-! DEFINITION. Named operations on the register file and on the fields of registers. -/

namespace Sys2Proof.Machine

/-- The whole register map (R207). -/
def regMap : List RegDesc :=
  nodeRegs ++ pwrRegs ++ hostRegs ++ partRegs ++ seqRegs ++ recRegs ++ diagRegs
    ++ acqRegs ++ loopRegs ++ dioRegs ++ actRegs ++ ctrlRegs ++ almRegs ++ callRegs ++ bsnRegs
    ++ dmaRegs ++ canRegs ++ sdlRegs ++ rtcRegs ++ lcdRegs ++ sptRegs ++ updRegs

/-- The row of the register map that holds an offset. -/
def findReg (off : Nat) : Option RegDesc := regMap.find? fun d => d.holds off

/-- Value a list of fields has by default. -/
def fieldsDefault (fs : List Fld) : Word :=
  BitVec.ofNat 32 (fs.foldl (fun a f => a + f.dflt % 2 ^ f.width * 2 ^ f.lo) 0)

/-- Registers of an array whose default depends on the index: HOST_FN_ID (06), DMA_DPn_CFG (20), and the
vector control words of the MSI-X tables, whose mask bit is 1 after a reset as PCI Express has it (PRESUMED, unsafe, log 47). -/
def regDefaultOwn (off : Nat) : Option Nat :=
  if off = 0x1A0100 then some 4 else
  if 0x21000 ≤ off ∧ off ≤ 0x29000 ∧ off % 0x1000 = 0 then
    some (let k := (off - 0x21000) / 0x1000; if k = 0 then 0xF0 else k + (k - 1) * 16)
  else if 0x21800 ≤ off ∧ off < 0x29840 ∧ 0x800 ≤ off % 0x1000 ∧ off % 0x1000 < 0x840 ∧ off % 16 = 12 then some 1
  else none

/-- What a register holds after a reset of its block with the factory image (R12, R13). -/
def regDefault (off : Nat) : Word :=
  match regDefaultOwn off with
  | some v => BitVec.ofNat 32 v
  | none => match findReg off with
    | some d => fieldsDefault d.fields
    | none => 0

/-- A register as the register file holds it. -/
def reg (c : Chip) (off : Nat) : Word := smGet regDefault c.regs off

/-- Load a register. -/
def setReg (c : Chip) (off : Nat) (v : Word) : Chip := { c with regs := smPut regDefault c.regs off v }

/-- A field of a register. -/
def fld (c : Chip) (off lo w : Nat) : Nat := bits (reg c off) lo w

/-- A one-bit field of a register. -/
def flag (c : Chip) (off i : Nat) : Bool := fld c off i 1 == 1

/-- Load a field of a register. -/
def setFld (c : Chip) (off lo w x : Nat) : Chip := setReg c off (setBits (reg c off) lo w x)

/-- Set or clear one bit. -/
def setFlag (c : Chip) (off i : Nat) (b : Bool) : Chip := setFld c off i 1 (b2n b)

/-- Count one occurrence in a saturating field. -/
def countFld (c : Chip) (off lo w : Nat) : Chip := setFld c off lo w (satInc w (fld c off lo w))

/-- Count one change in a wrapping field. -/
def wrapFld (c : Chip) (off lo w : Nat) : Chip := setFld c off lo w (fld c off lo w + 1)

/-- Set the registers from `lo` up to but not including `hi` to their defaults. -/
def resetRegs (c : Chip) (lo hi : Nat) : Chip :=
  { c with regs := smKeep (fun k => !(decide (lo ≤ k) && decide (k < hi))) c.regs }

/-- Operating time counted (R100). -/
def frameNum (c : Chip) : Nat := (reg c 0x40008).toNat + (reg c 0x4000C).toNat * 2 ^ 32

def setFrameNum (c : Chip) (n : Nat) : Chip :=
  setReg (setReg c 0x40008 (BitVec.ofNat 32 n)) 0x4000C (BitVec.ofNat 32 (n / 2 ^ 32))

/-- A fresh free value: the counter moves on, the value is nobody's choice. -/
def takeFree (c : Chip) : Chip := { c with free := c.free + 1 }

/-! ## Node mode (R121) -/

def mOff : Nat := 0
def mHibernate : Nat := 1
def mSentry : Nat := 2
def mScan : Nat := 3
def mRun : Nat := 4
def mMirror : Nat := 5
def mTakeover : Nat := 6
def mArbiter : Nat := 7
def mDegraded : Nat := 8
def mService : Nat := 9
def mTest : Nat := 10
def mSafeHold : Nat := 11

/-- NODE_MODE.MODE. -/
def nodeMode (c : Chip) : Nat := fld c 0x100 0 4

/-- Outputs of loop cells and legs are live (R129). -/
def outputsLive (c : Chip) : Bool := [mRun, mTakeover, mDegraded, mService].contains (nodeMode c)

/-- The sequencer runs the tables (R129). -/
def tablesRun (c : Chip) : Bool :=
  [mScan, mRun, mMirror, mTakeover, mDegraded, mService].contains (nodeMode c)

/-- Alarms and calls are evaluated (R129). -/
def alarmsRun (c : Chip) : Bool := [mScan, mRun, mTakeover, mDegraded, mService].contains (nodeMode c)

/-- Start-up has not reached its first frame (R149). -/
def starting (c : Chip) : Bool := c.mode.frames && c.mode.firstFrame

/-- CAN and FSK transmit (R129), and not during start-up (R147). -/
def transmitLive (c : Chip) : Bool := !starting c && [mScan, mRun, mTakeover, mDegraded, mService].contains (nodeMode c)

/-- LOOP entries dispatch evaluations (R129, R339). -/
def loopsRun (c : Chip) : Bool := [mRun, mMirror, mTakeover, mDegraded, mService].contains (nodeMode c)

/-- SDL_CFG.EN (R947). -/
def sdlEn (c : Chip) : Bool := flag c 0x1C0000 0

/-- The role of the node (R950): 0 NONE, 1 ACTIVE, 2 STANDBY, 3 FAILED, 4 ARBITER. -/
def sdlRole (c : Chip) : Nat :=
  if !sdlEn c then 0
  else match nodeMode c with
    | 4 | 6 => 1
    | 8 => c.sdl.role
    | 5 => 2
    | 11 => 3
    | 7 => 4
    | _ => 0

/-! ## Table memories (R208, R212) -/

/-- A double-buffered table: its code, base, size of one copy, bytes its table uses, status register. -/
structure TableDesc where
  code : Nat
  base : Nat
  half : Nat
  used : Nat
  stat : Nat
  deriving DecidableEq, Repr

/-- The double-buffered tables, by table code (27 gives the code as the section type of R160). -/
def tableDescs : List TableDesc := [
  ⟨2, 0x1C20000, 0x8000, 0x5000, 0x30000⟩, ⟨3, 0x1500000, 0x80000, 0x80000, 0x40000⟩,
  ⟨4, 0x1600000, 0x80000, 0x80000, 0x80020⟩, ⟨5, 0x1700000, 0x80000, 0x28000, 0x150000⟩,
  ⟨6, 0x1800000, 0x200000, 0x1A0000, 0x160000⟩, ⟨7, 0x1C40000, 0x8000, 0x480, 0x170000⟩,
  ⟨8, 0x1C00000, 0x10000, 0x8400, 0x180000⟩, ⟨9, 0x1C30000, 0x8000, 0x1100, 0x130800⟩,
  ⟨10, 0x1C70000, 0x8000, 0x4000, 0x1D800C⟩, ⟨11, 0x1C50000, 0x8000, 0x8000, 0x1E0000⟩]

def tableDesc (code : Nat) : Option TableDesc := tableDescs.find? fun d => d.code = code

/-- The table whose region holds a BAR1 offset. -/
def tableAt (a : Nat) : Option TableDesc :=
  tableDescs.find? fun d => decide (d.base ≤ a) && decide (a < d.base + 2 * d.half)

/-- Is there an owner byte at an offset of the partition table (R283)? -/
def isOwnerByte (o : Nat) : Bool :=
  (decide (0x400 ≤ o) && decide (o < 0x52C)) || (decide (0x530 ≤ o) && decide (o < 0x5E4))
    || (decide (0x5F0 ≤ o) && decide (o < 0x610)) || (decide (0x800 ≤ o) && decide (o < 0xD0C))
    || (decide (0x1000 ≤ o) && decide (o < 0x5000))

/-- Does an owner code stand at an offset of the partition table's header (R285)? -/
def isOwnerCode (o : Nat) : Bool := (decide (8 ≤ o) && decide (o < 13)) || (decide (0x10 ≤ o) && decide (o < 0x2E))

/-- Byte of a table of the factory image (R1183, with R286 and R733). -/
def factoryByte (code o : Nat) : Byte :=
  if code = 10 then 0
  else if o = 0 then 1
  else match code with
    | 2 =>
      if isOwnerByte o || isOwnerCode o then 0x0F else if 4 ≤ o ∧ o < 7 then 64 else 0
    | 3 => if o = 2 then 40 else 0
    | 7 =>
      match o with
      | 3 | 8 | 10 | 11 => 0xFF
      | 4 | 6 => 120
      | _ => 0
    | _ => 0

/-- What an unlisted byte of the table memories, LCD frame memory and tuning buffers reads as: the factory
tables in both copies, 0 elsewhere. -/
def tblDef (a : Nat) : Byte :=
  match tableAt a with
  | some d => factoryByte d.code ((a - d.base) % d.half)
  | none => 0

/-- The copy in force of a table. -/
def activeCopy (c : Chip) (d : TableDesc) : Nat := fld c d.stat 0 1

/-- A swap of the table is pending. -/
def swapPending (c : Chip) (code : Nat) : Bool :=
  match tableDesc code with
  | some d => flag c d.stat 1
  | none => false

/-- BAR1 offset of a copy of a table. -/
def copyBase (d : TableDesc) (copy : Nat) : Nat := d.base + copy * d.half

/-- BAR1 offset of the copy in force. -/
def tblBase (c : Chip) (code : Nat) : Nat :=
  match tableDesc code with
  | some d => copyBase d (activeCopy c d)
  | none => 0

/-- BAR1 offset of the copy that will be in force at the next boundary. -/
def tblNextBase (c : Chip) (code : Nat) : Nat :=
  match tableDesc code with
  | some d => copyBase d (if flag c d.stat 1 then 1 - activeCopy c d else activeCopy c d)
  | none => 0

/-- Little-endian number of `n` bytes of the table memories, at a BAR1 offset. -/
def tmem (c : Chip) (a n : Nat) : Nat := memNat tblDef c.tables a n

/-- Is a word of the `n` bytes from a BAR1 offset unusable (R39)? -/
def wordBad (c : Chip) (a n : Nat) : Bool := c.mode.badWords.any fun w => decide (w < a + n) && decide (a < w + 8)

/-- Is an entry of the copy in force unusable? -/
def entryBad (c : Chip) (code off n : Nat) : Bool := wordBad c (tblBase c code + off) n

/-- Number at an offset of the copy in force. -/
def tbl (c : Chip) (code off n : Nat) : Nat := tmem c (tblBase c code + off) n

end Sys2Proof.Machine
end

