-- ==== Sys2Proof/Machine/Ops.lean ====
section
/-! DEFINITION. Points, owners, live words and the per-function stores: the operations every block
shares. -/

namespace Sys2Proof.Machine

/-! ## Points (R17 to R19) -/

def pClass (p : Nat) : Nat := p / 2 ^ 20 % 16
def pIndex (p : Nat) : Nat := p % 2 ^ 20

/-- The point of a class and an index. -/
def pt (cls i : Nat) : Nat := cls * 2 ^ 20 + i

/-- Number of indexes of a class (R18). -/
def classSize : Nat → Nat
  | 0 => 1 | 1 => 64 | 2 => 128 | 3 => 16 | 4 => 32 | 5 => 48 | 6 => 12 | 7 => 32
  | 8 => 128 | 9 => 16384 | 10 => 1024 | 11 => 16 | 12 => 4 | 13 => 32 | _ => 0

/-- R19: the class is not reserved and the index lies in its range. -/
def pointValid (p : Nat) : Bool := decide (pIndex p < classSize (pClass p))

/-- Offset of a point's owner byte in the partition table (R283). -/
def ownerOff (p : Nat) : Nat :=
  let i := pIndex p
  match pClass p with
  | 1 => 0x400 + i | 2 => 0x440 + i | 3 => 0x4C0 + i | 4 => 0x4D0 + i | 5 => 0x4F0 + i
  | 6 => 0x520 + i | 7 => 0x530 + i | 8 => 0x550 + i | 9 => 0x1000 + i | 10 => 0x800 + i
  | 11 => 0x5D0 + i | 12 => 0x5E0 + i | 13 => 0x5F0 + i | _ => 0

/-- Byte of the partition table in force. -/
def partByte (c : Chip) (off : Nat) : Nat := tbl c 2 off 1

/-- Owner code at an owner-byte offset (R284): 0 to 7 partitions, 0xF keeper. -/
def ownerAt (c : Chip) (off : Nat) : Nat := partByte c off % 16

/-- Owner of a point; the null point is the keeper's. -/
def ownerOf (c : Chip) (p : Nat) : Nat := if pClass p = 0 then 0xF else ownerAt c (ownerOff p)

/-- SHARED_READ of a point (R289). -/
def sharedRead (c : Chip) (p : Nat) : Bool := pClass p != 0 && natBit (partByte c (ownerOff p)) 4

/-- Owner code of a function: virtual function k is partition P(k-1) (R226). -/
def fnOwner (fn : Nat) : Nat := if fn = 0 then 0xF else fn - 1

/-- The function of an owner code; codes of nobody go to the physical function. -/
def ownerFn (o : Nat) : Nat := if o < 8 then o + 1 else 0

/-- The function owns the point, or is the keeper (R265, R288). -/
def owns (c : Chip) (fn p : Nat) : Bool := fn == 0 || ownerOf c p == fnOwner fn

/-- The function may read the point (R289). -/
def mayRead (c : Chip) (fn p : Nat) : Bool := owns c fn p || sharedRead c p

/-- R290: an entry that serves a point of owner `o` may read the point. -/
def readsOk (c : Chip) (o p : Nat) : Bool := decide (8 ≤ o) || pClass p == 0 || ownerOf c p == o || sharedRead c p

/-- R291: an entry that serves a point of owner `o` may write the point. -/
def writesOk (c : Chip) (o p : Nat) : Bool := pClass p == 0 || ownerOf c p == o

/-- TABLE_OWNER of a table code (R285): coefficient, loop, alarm, trigger and rota; else keeper. -/
def tableOwner (c : Chip) (code : Nat) : Nat :=
  match code with
  | 4 => ownerAt c 0x08 | 5 => ownerAt c 0x09 | 6 => ownerAt c 0x0A
  | 8 => ownerAt c 0x0B | 7 => ownerAt c 0x0C | _ => 0xF

/-- Field of the partition entry of Pp (R286). -/
def partEntry (c : Chip) (p off n : Nat) : Nat := tbl c 2 (0x40 + p * 0x40 + off) n

/-- ENABLED of the function's partition; the keeper is always enabled (R303). -/
def fnEnabled (c : Chip) (fn : Nat) : Bool :=
  fn == 0 || (decide (fn < 9) && natBit (partEntry c (fn - 1) 0 1) 0)

/-- Owner code to which leave for a domain is charged (R285). -/
def domainCharge (c : Chip) (n : Nat) : Nat := ownerAt c (0x10 + n)

/-! ## Frame memory entries -/

/-- Unit and exponent of an internal measurement (R1173). -/
def internalUnit (i : Nat) : Nat × Int :=
  if i < 8 then (1, -2) else if i = 8 then (1, -1) else if i = 9 then (16, -4) else if i ≤ 12 then (16, -3)
  else if i ≤ 17 then (16, -2) else (1, -1)

/-- A bad word of mantissa 0: with exponent and unit of its class where a rule fixes them, a loop output's mA, a leg's %, a
position's counts and those of an internal measurement (R501, R596, R611, R1173), else `QW(0 e0, bad)`. -/
def ptNull (p : Nat) : Nat :=
  match pClass p with
  | 5 => qw32To { mant := 0, exp := -3, unit := 20, qual := 3 }
  | 6 => qw32To { mant := 0, exp := -2, unit := 11, qual := 3 }
  | 12 => qw32To { mant := 0, exp := 0, unit := 43, qual := 3 }
  | 13 => qw32To { mant := 0, exp := (internalUnit (pIndex p)).2, unit := (internalUnit (pIndex p)).1, qual := 3 }
  | _ => qwNull

/-- An entry no producer has written: no value was computed, so the word is bad (R54; log 19). -/
def ptDef (p : Nat) : PtEnt :=
  { live := ptNull p, flags := 0, snap := ptNull p, snapFlags := 0, subst := false, raw := false,
    lastOk := ptNull p, lastCalc := ptNull p }

def point (c : Chip) (p : Nat) : PtEnt := smGet ptDef c.points p

def setPoint (c : Chip) (p : Nat) (e : PtEnt) : Chip := { c with points := smPut ptDef c.points p e }

/-- DEDUCED: the chapters give the word of every class as a QW32; none names a point that carries a
QW64. Every use of the width goes through here. -/
def pointWide (_c : Chip) (_p : Nat) : Bool := false

/-- A live word, decoded. The null point supplies `QW(0 e0, bad)` (R20). -/
def liveQw (c : Chip) (p : Nat) : Qw :=
  if pClass p = 0 then qw32Of qwNull else qwOf (pointWide c p) (point c p).live

/-- A snapshot word, decoded. -/
def snapQw (c : Chip) (p : Nat) : Qw :=
  if pClass p = 0 then qw32Of qwNull else qwOf (pointWide c p) (point c p).snap

/-- A producer's write of a live word with its flags byte (R61), withheld while the point is
substituted (R1189). It keeps the words that held and bad repeat (R54). A null destination discards
the value (R21). -/
def writeLive (c : Chip) (p word flags : Nat) : Chip :=
  if pClass p = 0 then c
  else
    let e := point c p
    let e1 := { e with
      lastCalc := word
      lastOk := if word % 4 ≤ 1 then word else e.lastOk }
    if e.subst then setPoint c p e1
    else setPoint c p { e1 with live := word, flags := flags % 128, raw := false }

/-- Encode a value and write it as the point's live word. -/
def writeValue (c : Chip) (p : Nat) (x : Rat) (e : Int) (u qual fl : Nat) : Chip :=
  let r := encodeWord (pointWide c p) x e u qual fl
  writeLive c p r.1 r.2

/-- The producer has no usable value: quality bad over the last computed word (R54). -/
def writeBad (c : Chip) (p fl : Nat) : Chip :=
  let e := point c p
  let w := e.lastCalc / 4 * 4 + 3
  if pClass p = 0 then c
  else if e.subst then c
  else setPoint c p { e with live := w, flags := fl % 128 }

/-- The producer repeats its last word of quality good or uncertain, as held, with `fl` set (R54). Flags that force
quality bad make the word bad (R57, R58).

DESIGN CHOICE: where the producer has written no word of quality good or uncertain, R54 is silent on what is
repeated; the word is 0 e0 with unit 0 (log 19). -/
def writeHeld (c : Chip) (p fl : Nat) : Chip :=
  let e := point c p
  let w := e.lastOk / 4 * 4 + 2
  if flagsQual fl = 3 then writeBad c p fl
  else if pClass p = 0 then c
  else if e.subst then c
  else setPoint c p { e with live := w, flags := fl % 128 }

/-! ## States of the power domains -/

def domDef (_ : Nat) : DomSt := .off

def dom (c : Chip) (n : Nat) : DomSt := smGet domDef c.pwr.dom n

def setDom (c : Chip) (n : Nat) (s : DomSt) : Chip :=
  { c with pwr := { c.pwr with dom := smPut domDef c.pwr.dom n s } }

/-- The domain is in its sentry state (R123). -/
def inSentry (c : Chip) (n : Nat) : Bool := dom c n == .sentry || dom c n == .sentryWaiting || dom c n == .sentryOff

/-- The domain is ON, fully powered. -/
def domOn (c : Chip) (n : Nat) : Bool := dom c n == .on

/-! ## Stores of the PCIe functions -/

def fnDef (_ : Nat) : FnSt :=
  { hold := [], gapN := 0, gapFirst := 0, gapLast := 0, gapKinds := 0, spilt := false, recQ := [], recLost := 0, recOver := false,
    eseq := 0, rseq := 0, unsig := 0, asm := none, inflight := [], subs := [], reads := [],
    formed := [], used := 0, carry := none, work := [], latch := [], cal := none, msg := 0 }

def fnSt (c : Chip) (fn : Nat) : FnSt := smGet fnDef c.fns fn

def setFn (c : Chip) (fn : Nat) (f : FnSt) : Chip := { c with fns := smPut fnDef c.fns fn f }

def modFn (c : Chip) (fn : Nat) (f : FnSt → FnSt) : Chip := setFn c fn (f (fnSt c fn))

/-- Page of a function in the HOST block. -/
def hostPage (fn : Nat) : Nat := 0x21000 + fn * 0x1000

/-- First register of ring `r` of a function. -/
def ringBase (fn r : Nat) : Nat := hostPage fn + 0x100 + r * 0x40

def ringEn (c : Chip) (fn r : Nat) : Bool := flag c (ringBase fn r + 8) 8
def ringLog2 (c : Chip) (fn r : Nat) : Nat := fld c (ringBase fn r + 8) 0 4
def ringSize (c : Chip) (fn r : Nat) : Nat := 2 ^ ringLog2 c fn r
def nodeIdx (c : Chip) (fn r : Nat) : Nat := fld c (ringBase fn r + 0xC) 0 16
def hostIdx (c : Chip) (fn r : Nat) : Nat := fld c (ringBase fn r + 0xC) 16 16
def setNodeIdx (c : Chip) (fn r x : Nat) : Chip := setFld c (ringBase fn r + 0xC) 0 16 x
def setHostIdx (c : Chip) (fn r x : Nat) : Chip := setFld c (ringBase fn r + 0xC) 16 16 x

/-- Occupancy of a ring (R232). -/
def ringOcc (c : Chip) (fn r : Nat) : Nat :=
  if r = 0 then (hostIdx c fn r + 65536 - nodeIdx c fn r) % 65536
  else (nodeIdx c fn r + 65536 - hostIdx c fn r) % 65536

/-- Host address of entry `i` of a ring. -/
def ringAddr (c : Chip) (fn r size i : Nat) : Nat :=
  (reg c (ringBase fn r)).toNat + (reg c (ringBase fn r + 4)).toNat * 2 ^ 32
    + i % ringSize c fn r * size

/-- A node-to-host ring that is enabled and not full (R233); the endpoint initiates no request during start-up
(text under R148). -/
def ringRoom (c : Chip) (fn r : Nat) : Bool := ringEn c fn r && !starting c && decide (ringOcc c fn r < ringSize c fn r)

/-- PHASE of entry `i` of a ring (R243). -/
def ringPhase (c : Chip) (fn r i : Nat) : Nat := 1 - i / ringSize c fn r % 2

/-- Write host memory. -/
def hostWrite (c : Chip) (a : Nat) (bs : List Byte) : Chip := { c with hostMem := memWrite zeroByte c.hostMem a bs }

/-- Put a bit 7 of PHASE into byte 1 of an entry. -/
def withPhase (bs : List Byte) (phase : Nat) : List Byte :=
  match bs with
  | b0 :: b1 :: t => b0 :: BitVec.ofNat 8 (b1.toNat % 128 + 128 * phase) :: t
  | _ => bs

/-! ## Exact operands -/

/-- The number an operand of the plant denotes. -/
def exactVal (x : Exact) : Rat := if x.den = 0 then (x.num : Rat) else (x.num : Rat) / ((x.den : Nat) : Rat)

/-- Written bytes of a 4-byte register write with its byte enables. -/
def writeBytes (v : Word) (be : BitVec 4) : WriteBytes :=
  (List.range 4).map fun i =>
    if be.getLsbD i then some (BitVec.ofNat 8 (v.toNat / 256 ^ i)) else none

end Sys2Proof.Machine
end

