-- ==== Sys2Proof/Machine/Rings.lean ====
section
/-! DEFINITION. Rings: writing node-to-host entries, watermarks, hold queues, events and completions
(06_host_rings_doorbells). -/

namespace Sys2Proof.Machine

/-- Little-endian bytes of a point ID. -/
def ptBytes (p : Nat) : List Byte := natLe 3 p

/-- Pad or cut a list of bytes to `n` bytes. -/
def padTo (n : Nat) (bs : List Byte) : List Byte := (bs ++ List.replicate n 0).take n

/-- Bytes of an entry: commands 64, completions 16, events 64, records 256 (R229). -/
def entryBytes (r : Nat) : Nat := if r = 1 then 16 else if r = 3 then 256 else 64

/-- Write entry PROD of a node-to-host ring and advance PROD (R233, R243). The entry goes out as two write requests:
bytes 4 to the end, then bytes 0 to 3 (R241). -/
def putRaw (c : Chip) (fn r : Nat) (bs : List Byte) : Chip :=
  let i := nodeIdx c fn r
  let a := ringAddr c fn r (entryBytes r) i
  let e := withPhase (padTo (entryBytes r) bs) (ringPhase c fn r i)
  let c1 := hostWrite (hostWrite c (a + 4) (e.drop 4)) a (e.take 4)
  let c2 := setNodeIdx c1 fn r (i + 1)
  modFn c2 fn fun f => { f with unsig := f.unsig ||| 2 ^ (r - 1) }

/-- Did the ring's occupancy rise from HI or below to above HI (R267)? -/
def risesAbove (c : Chip) (fn r before : Nat) : Bool :=
  let hi := fld c (ringBase fn r + 0x10) 0 16
  decide (before ≤ hi) && decide (hi < ringOcc c fn r)

/-- LIVE, STICKY and CROSSINGS of a rising crossing (R267). -/
def markRise (c : Chip) (fn r : Nat) : Chip :=
  countFld (setFlag (setFlag c (ringBase fn r + 0x14) 0 true) (ringBase fn r + 0x14) 1 true)
    (ringBase fn r + 0x14) 16 16

/-- The header of an event entry (R247): KIND, EFLAGS, ESEQ left 0, FRAME, OT, AUX. -/
def evHeader (kind cont frame ot aux : Nat) : List Byte :=
  natLe 1 kind ++ natLe 1 cont ++ natLe 2 0 ++ natLe 4 frame ++ natLe 5 ot ++ natLe 3 aux

/-- Body of a WATERMARK event (R249 code 0x05). -/
def watermarkBody (c : Chip) (fn r rising : Nat) : List Byte :=
  padTo 64 (evHeader 5 0 (frameNum c) c.ot 0 ++ natLe 1 r ++ natLe 1 rising
    ++ natLe 2 (ringOcc c fn r) ++ natLe 2 (fld c (ringBase fn r + 0x10) 0 16)
    ++ natLe 2 (fld c (ringBase fn r + 0x10) 16 16))

/-- R270: no watermark event when HI is not greater than LO. -/
def wmEvents (c : Chip) (fn r : Nat) : Bool :=
  decide (fld c (ringBase fn r + 0x10) 16 16 < fld c (ringBase fn r + 0x10) 0 16)

/-- A rise posts its event: not while LIVE is set already (R267, R269, R270). -/
def riseTold (c : Chip) (fn r : Nat) : Bool := wmEvents c fn r && !flag c (ringBase fn r + 0x14) 0

/-- Put ESEQ into an event entry. -/
def withEseq (bs : List Byte) (n : Nat) : List Byte := bs.take 2 ++ natLe 2 n ++ bs.drop 4

/-- Write one event entry into the ring, which has room. -/
def putEvRaw (c : Chip) (fn : Nat) (bs : List Byte) : Chip :=
  let n := (fnSt c fn).eseq
  putRaw (modFn c fn fun f => { f with eseq := (f.eseq + 1) % 65536 }) fn 2 (withEseq bs n)

/-- Count an entry withheld from an event ring and remember it for the GAP event (R274, R275, R282). -/
def gapOne (c : Chip) (fn kind frame : Nat) : Chip :=
  let c1 := setReg c (ringBase fn 2 + 0x1C)
    (BitVec.ofNat 32 (satInc 32 (reg c (ringBase fn 2 + 0x1C)).toNat))
  modFn c1 fn fun f => { f with
    gapN := f.gapN + 1
    gapFirst := if f.gapN = 0 then frame else f.gapFirst
    gapLast := frame
    gapKinds := f.gapKinds ||| 2 ^ kind }

/-- An entry discarded or replaced under R272 or R273. -/
def gapOver (c : Chip) (fn kind frame : Nat) : Chip := modFn (gapOne c fn kind frame) fn fun f => { f with spilt := true }

/-- Body of a GAP event (R249 code 0x0C). -/
def gapBody (c : Chip) (f : FnSt) : List Byte :=
  padTo 64 (evHeader 12 0 (frameNum c) c.ot 0 ++ natLe 4 (min f.gapN (2 ^ 32 - 1)) ++ natLe 4 f.gapFirst
    ++ natLe 4 f.gapLast ++ natLe 2 f.gapKinds)

/-- Write the GAP event that is due, when the ring has room (R275). -/
def putGap (c : Chip) (fn : Nat) : Chip :=
  let f := fnSt c fn
  if f.gapN = 0 then c
  else if ringRoom c fn 2 then
    let c1 := putEvRaw c fn (gapBody c f)
    modFn c1 fn fun f => { f with gapN := 0, gapFirst := 0, gapLast := 0, gapKinds := 0, spilt := false }
  else c

/-- Index of the oldest queued VALUE_SET entry. -/
def oldestValueSet (q : List EvEnt) : Nat := q.findIdx fun e => e.kind == 1

/-- An event entry for a function whose ring cannot take it enters the hold queue of 1,024 entries,
with the replacement and discarding of R272 and R273. The queue lies in the SRAM, which takes no access in its sentry state:
the entry is discarded then (R126).

DEDUCED: R126 closes the SRAM and no rule names another place for the entry (log 121). -/
def holdEntry (c : Chip) (fn : Nat) (e : EvEnt) : Chip :=
  let f := fnSt c fn
  if inSentry c 28 then gapOne c fn e.kind e.frame
  else if f.hold.length < 1024 then modFn c fn fun f => { f with hold := f.hold ++ [e] }
  else
    let i := oldestValueSet f.hold
    match f.hold[i]? with
    | some old =>
      modFn (gapOver c fn old.kind old.frame) fn fun f => { f with hold := f.hold.eraseIdx i ++ [e] }
    | none => gapOver c fn e.kind e.frame

/-- Before a VALUE_SET of a subscription enters the hold queue, the queued entries of that
subscription leave it (R272). -/
def dropSub (c : Chip) (fn sub : Nat) : Chip :=
  let gone := (fnSt c fn).hold.filter fun e => e.kind == 1 && e.sub == sub
  if 0xFF ≤ sub || inSentry c 28 then c
  else
    let c1 := gone.foldl (fun c e => gapOver c fn e.kind e.frame) c
    modFn c1 fn fun f => { f with hold := f.hold.filter fun e => !(e.kind == 1 && e.sub == sub) }

/-- Write one event entry, or hold it, without looking at the event ring's watermark. -/
def putEvEntry (c : Chip) (fn : Nat) (e : EvEnt) : Chip :=
  if !fnEnabled c fn then c
  else if !ringEn c fn 2 then gapOne c fn e.kind e.frame
  else
    let c1 := if (fnSt c fn).hold.isEmpty then putGap c fn else c
    if (fnSt c1 fn).hold.isEmpty && (fnSt c1 fn).gapN == 0 && ringRoom c1 fn 2 then putEvRaw c1 fn e.body
    else holdEntry c1 fn e

/-- An entry for a WATERMARK event of ring `r`. -/
def wmEnt (c : Chip) (fn r rising : Nat) : EvEnt :=
  { kind := 5, sub := 0x100, frame := frameNum c % 2 ^ 32, body := watermarkBody c fn r rising }

/-- After entries went into the event ring, mark a rise and place its WATERMARK event like any other (R267). -/
def eventRise (c : Chip) (fn before : Nat) : Chip :=
  if risesAbove c fn 2 before then
    let c1 := markRise c fn 2
    if riseTold c fn 2 then putEvEntry c1 fn (wmEnt c1 fn 2 1) else c1
  else c

/-- Write the entries of one event at consecutive places; a rise of the event ring above HI posts its WATERMARK event
after the last (R248, R267). -/
def putEvents (c : Chip) (fn : Nat) (es : List EvEnt) : Chip :=
  eventRise (es.foldl (fun c e => putEvEntry c fn e) c) fn (ringOcc c fn 2)

/-- Write an event of one entry. -/
def putEvent (c : Chip) (fn : Nat) (e : EvEnt) : Chip := putEvents c fn [e]

/-- After entries went into ring `r` (not the event ring), mark a rise and post its event (R267). -/
def checkRise (c : Chip) (fn r before : Nat) : Chip :=
  if risesAbove c fn r before then
    let c1 := markRise c fn r
    if riseTold c fn r then putEvent c1 fn (wmEnt c1 fn r 1) else c1
  else c

/-- After a doorbell or fetch lowered an occupancy: LIVE clears at LO or below, with its event (R268). -/
def checkFall (c : Chip) (fn r : Nat) : Chip :=
  if flag c (ringBase fn r + 0x14) 0 && decide (ringOcc c fn r ≤ fld c (ringBase fn r + 0x10) 16 16) then
    let c1 := setFlag c (ringBase fn r + 0x14) 0 false
    if wmEvents c1 fn r then putEvent c1 fn (wmEnt c1 fn r 0) else c1
  else c

/-- Write entries of one event at consecutive places, each but the last with CONT (R248). The first
carries 48 payload bytes, each continuation 48 more. -/
def eventEntries (kind frame ot aux : Nat) (first : List Byte) (more : List (List Byte)) : List EvEnt :=
  let n := more.length
  ((first :: more).zipIdx).map fun (p, i) =>
    { kind := kind, sub := 0x100, frame := frame % 2 ^ 32,
      body := padTo 64 (evHeader kind (if i < n then 1 else 0) frame ot aux ++ p) }

/-- Post an event of one entry to a function: kind, FRAME, AUX and payload bytes from 0x10. -/
def postEventAt (c : Chip) (fn kind frame aux : Nat) (payload : List Byte) : Chip :=
  putEvents c fn (eventEntries kind frame c.ot aux payload [])

/-- Post an event of the present frame. -/
def postEvent (c : Chip) (fn kind aux : Nat) (payload : List Byte) : Chip :=
  postEventAt c fn kind (frameNum c) aux payload

/-- Post an event to a function and, when that is not the physical function, to the keeper too. -/
def postEventBoth (c : Chip) (fn kind aux : Nat) (payload : List Byte) : Chip :=
  let c1 := postEvent c fn kind aux payload
  if fn = 0 then c1 else postEvent c1 0 kind aux payload

/-! ## Completions (R246, R254) -/

def stSuccess : Nat := 0
def stInvalidOpcode : Nat := 1
def stInvalidField : Nat := 2
def stInvalidPoint : Nat := 3
def stInvalidQw : Nat := 4
def stUnitMismatch : Nat := 5
def stConfigUnit : Nat := 6
def stConfigSpan : Nat := 7
def stConfigTable : Nat := 8
def stNotOwner : Nat := 9
def stAccessRevoked : Nat := 10
def stKeeperOnly : Nat := 11
def stWrongMode : Nat := 12
def stWrongState : Nat := 13
def stTableBusy : Nat := 14
def stArmedClear : Nat := 15
def stClearRejected : Nat := 16
def stReservation : Nat := 17
def stAborted : Nat := 18
def stNoResource : Nat := 19
def stClearCode : Nat := 20

/-- Write a completion entry (R246). A disabled completion ring discards and counts it (R282). -/
def complete (c : Chip) (fn sq tag status result : Nat) : Chip :=
  if ringEn c fn 1 then
    let before := ringOcc c fn 1
    let bs := natLe 2 status ++ natLe 2 0 ++ natLe 2 sq ++ natLe 2 0 ++ natLe 4 tag ++ natLe 4 result
    checkRise (putRaw c fn 1 bs) fn 1 before
  else
    setReg c (ringBase fn 1 + 0x1C) (BitVec.ofNat 32 (satInc 32 (reg c (ringBase fn 1 + 0x1C)).toNat))

/-- Complete a command in flight, unless a reset of its function took its completion away (R278), and
take it out of flight. -/
def completeFlight (c : Chip) (fn : Nat) (i : InFlight) (status result : Nat) : Chip :=
  let c1 := modFn c fn fun f => { f with inflight := f.inflight.filter fun j => j != i }
  if i.silent then c1 else complete c1 fn i.sq i.tag status result

/-- Complete every command in flight that satisfies `p`, of every function in ascending order. -/
def completeWhere (c : Chip) (p : Nat → InFlight → Bool) (status : Nat → InFlight → Nat × Nat) : Chip :=
  (List.range 9).foldl (fun c fn =>
    ((fnSt c fn).inflight.filter (p fn)).foldl (fun c i =>
      completeFlight c fn i (status fn i).1 (status fn i).2) c) c

end Sys2Proof.Machine
end

