-- ==== Sys2Proof/Machine/Domains.lean ====
section
/-! DEFINITION. Power domains: their table, the commitment and the reservations (R89, R106, R308); the registers of
an analog bank that say what its spare cell serves (10_conversion_calibration). -/

namespace Sys2Proof.Machine

/-- AON and RTC have left the reset that a loss of VAUX holds them in until R84 is met (R84, R88). -/
def aonRuns (c : Chip) : Bool := c.mode.up || c.pwr.aon

/-- A row of the domain table (R89): domains it needs ON, class (1 SAFETY, 2 CONTROL, 3 ACQUIRE,
4 RECORD, 5 SERVICE), steady units and wake surge. -/
structure DomDesc where
  needs : List Nat
  cls : Nat
  steady : Nat
  surge : Nat
  deriving DecidableEq, Repr

def domDesc (n : Nat) : DomDesc :=
  match n with
  | 0 => ⟨[], 1, 1, 0⟩
  | 1 => ⟨[26], 5, 50, 20⟩
  | 2 | 3 | 4 | 5 => ⟨[27], 4, 45, 30⟩
  | 6 => ⟨[26], 1, 35, 20⟩
  | 7 => ⟨[28], 1, 8, 0⟩
  | 8 | 9 | 10 | 11 | 12 | 13 | 14 | 15 => ⟨[26, 28], 3, 55, 40⟩
  | 16 | 17 | 18 => ⟨[26, 28], 2, 110, 30⟩
  | 19 => ⟨[28], 5, 15, 0⟩
  | 20 => ⟨[19], 5, 20, 60⟩
  | 21 => ⟨[26], 5, 12, 0⟩
  | 22 => ⟨[26], 1, 25, 10⟩
  | 23 => ⟨[26, 28], 2, 100, 0⟩
  | 24 => ⟨[26, 28], 1, 70, 0⟩
  | 25 => ⟨[29, 28], 4, 25, 0⟩
  | 26 => ⟨[], 1, 70, 20⟩
  | 27 => ⟨[26], 5, 50, 0⟩
  | 28 => ⟨[], 1, 60, 0⟩
  | 29 => ⟨[], 1, 15, 0⟩
  | _ => ⟨[], 1, 0, 0⟩

/-- The domain turns off: DOMAIN_OFF will end it. -/
def DomSt.turning (s : DomSt) : Bool := s == .turningOff || s == .sentryOff

/-- The domain waits for leave. -/
def DomSt.waits (s : DomSt) : Bool := s == .waiting || s == .sentryWaiting

/-- Units charged for a domain in its state: steady while ON or waking or turning off (R106, R113), the sentry
amounts in sentry state, also while it waits there for leave to return to ON or turns off from it (R128). -/
def domCharge (n : Nat) : DomSt → Nat
  | .on | .waking | .turningOff => (domDesc n).steady
  | .sentry | .sentryWaiting | .sentryOff => if n = 26 then 3 else if n = 28 then 2 else if 8 ≤ n ∧ n ≤ 15 then 2 else 0
  | .off | .waiting => 0

/-- The node's committed amount (R106). -/
def committed (c : Chip) : Nat :=
  2 + ((List.range 30).map fun n => domCharge n (dom c n)).sum + (c.pwr.surges.map fun s => s.amount).sum

/-- USED_p: steady amounts and surges charged to partition p. -/
def usedPower (c : Chip) (p : Nat) : Nat :=
  ((List.range 30).map fun n => if domainCharge c n = p then domCharge n (dom c n) else 0).sum
    + (c.pwr.surges.map fun s => if domainCharge c s.dom = p then s.amount else 0).sum

/-- POWER_RSV_p. -/
def powerRsv (c : Chip) (p : Nat) : Nat := partEntry c p 6 2

/-- FREE_p. -/
def freePower (c : Chip) (p : Nat) : Nat := powerRsv c p - usedPower c p

/-- A mask of the domains in a state. -/
def domMask (c : Chip) (s : DomSt) : Nat :=
  ((List.range 30).map fun n => if dom c n = s then 2 ^ n else 0).sum

def budget (c : Chip) : Nat := fld c 0x10020 0 11
def safetyRsv (c : Chip) : Nat := fld c 0x10028 0 11

/-! ## The spare cell of an analog bank -/

def bankBase (b : Nat) : Nat := 0x80000 + b * 0x10000
def chBase (ch : Nat) : Nat := bankBase (ch / 16) + 0x100 + ch % 16 * 0x40
def chStat (ch : Nat) : Nat := chBase ch + 0x10
def chConv (ch : Nat) : Nat := chBase ch + 0x30
def rotStat (b : Nat) : Nat := bankBase b + 4

/-- ACQ_ROT_STAT fields. -/
def rotStep (c : Chip) (b : Nat) : Nat := fld c (rotStat b) 0 5
def rotPhase (c : Chip) (b : Nat) : Nat := fld c (rotStat b) 5 3
def spareCh (c : Chip) (b : Nat) : Nat := fld c (rotStat b) 8 4
def covering (c : Chip) (b : Nat) : Bool := flag c (rotStat b) 12
def spareRetired (c : Chip) (b : Nat) : Bool := flag c (rotStat b) 13

def onSpare (c : Chip) (ch : Nat) : Bool := flag c (chConv ch) 9

def afeOn (c : Chip) (b : Nat) : Bool := domOn c (8 + b)

/-- The spare serves a channel and is to hand it back: phases C to F of a step (R438). Without its modulators a bank
gives no output at which the hand-back could come. -/
def spareReturning (c : Chip) (b : Nat) : Bool :=
  afeOn c b && c.pwr.modulators && !covering c b && (rotPhase c b == 3 || rotPhase c b == 4)
    && onSpare c (b * 16 + rotStep c b)

/-- Class at the head of the queue: the highest class that waits (R109). -/
def headClass (c : Chip) : Nat :=
  (c.pwr.reqs.map fun r => r.cls).foldl (fun a b => if a = 0 ∨ b < a then b else a) 0

end Sys2Proof.Machine
end

