-- ==== Sys2Proof/Machine/RegView.lean ====
section
/-! DEFINITION. What a read of a BAR0 register returns: the register file, with the registers whose
value is computed from other state. -/

namespace Sys2Proof.Machine

/-! ## Recorder views -/

def imgDef (_ : Nat) : Option Rec := none

/-- The records of the ring image, in slot order. -/
def imageRecs (c : Chip) : List Rec := c.rcd.image.filterMap fun e => e.2

/-- A sequence number counted from `next`, so that the oldest record has the least (R773 wraps). -/
def seqAge (next seq : Nat) : Nat := (next + 2 ^ 32 - seq) % 2 ^ 32

/-- REC_OLDEST: SEQ of the oldest valid record in the image; 0 when there is none. -/
def oldestSeq (c : Chip) : Nat :=
  let next := (reg c 0x18000C).toNat
  ((imageRecs c).map fun r => r.seq).foldl
    (fun a s => if a.1 = 0 ∨ a.1 < seqAge next s then (seqAge next s, s) else a) (0, 0) |>.2

/-- The state of a record that NVM holds: of its tail page in use, else of its ring page. -/
def savedRec (c : Chip) (r : Rec) : Option Rec :=
  let same (q : Rec) : Bool := q.seq == r.seq && q.pcc == r.pcc
  match c.rcd.tail.reverse.find? fun t => t.used && same t.state with
  | some t => some t.state
  | none => (smGet imgDef c.rcd.ring (r.seq % 32768)).filter same

/-- How many of a record and its coalescing changes NVM lacks; RGEN wraps. -/
def unsavedOf (c : Chip) (r : Rec) : Nat :=
  match savedRec c r with
  | none => r.rgen + 1
  | some q => if q = r then 0 else if q.rgen = r.rgen then 65536 else (r.rgen + 65536 - q.rgen) % 65536

/-- The record of the other slot of a pair is of a newer pair: the ring page that held this one was erased (R797). -/
def oldPair (c : Chip) (r : Rec) : Bool :=
  let next := (reg c 0x18000C).toNat
  let k := r.seq % 32768
  match smGet imgDef c.rcd.image (if k % 2 = 0 then k + 1 else k - 1) with
  | some q => q.seq / 2 != r.seq / 2 && decide (seqAge next q.seq < seqAge next r.seq)
  | none => false

/-- UNSAVED: records and changes in the image that are not yet in NVM (R804). -/
def unsaved (c : Chip) : Nat :=
  min 65535 (((imageRecs c).filter fun r => !oldPair c r).map (unsavedOf c)).sum

/-! ## Diagnostic views -/

def srcDef (_ : Nat) : Option SrcRec := none
def catchDef (_ : Nat) : SrcRec := { occ := 0, first := 0, last := 0 }

/-- The source record selected by DIAG_SRC_SEL: SOURCE 0 of a code selects its catch-all (R1087). -/
def selSrc (c : Chip) : Option SrcRec :=
  let sel := (reg c 0x1F0030).toNat
  match smGet srcDef c.diag.src (sel / 2 ^ 24 * 2 ^ 24 + sel % 2 ^ 24) with
  | some r => some r
  | none =>
    if sel % 2 ^ 24 = 0 then
      let r := smGet catchDef c.diag.catchAll (sel / 2 ^ 24)
      if r.occ = 0 then none else some r
    else none

/-- Word `w` of an error FIFO entry (R1082). -/
def diagWord (e : DiagEnt) (w : Nat) : Nat :=
  match w with
  | 0 => e.source + e.code * 2 ^ 24
  | 1 => e.occ + e.sev * 2 ^ 16 + e.owner * 2 ^ 24
  | 2 => e.ot % 2 ^ 32
  | _ => e.ot / 2 ^ 32 % 256 + e.detail % 2 ^ 24 * 256

/-- DIAG registers that show the FIFO and the selected source record. -/
def diagView (c : Chip) (off : Nat) : Option Nat :=
  match off with
  | 0x1F0000 => some (c.diag.fifo.length + (if c.diag.fifo.length = 256 then 512 else 0))
  | 0x1F0010 => some ((c.diag.fifo.head?.map fun e => diagWord e 0).getD 0)
  | 0x1F0014 => some ((c.diag.fifo.head?.map fun e => diagWord e 1).getD 0)
  | 0x1F0018 => some ((c.diag.fifo.head?.map fun e => diagWord e 2).getD 0)
  | 0x1F001C => some ((c.diag.fifo.head?.map fun e => diagWord e 3).getD 0)
  | 0x1F0034 =>
    let sel := (reg c 0x1F0030).toNat
    some (match selSrc c with
      | some r => r.occ + 2 ^ 16 + (if c.diag.fifo.any fun e => e.code * 2 ^ 24 + e.source == sel then 2 ^ 17 else 0)
      | none => 0)
  | 0x1F0038 => some (((selSrc c).map fun r => r.first % 2 ^ 32).getD 0)
  | 0x1F003C => some (((selSrc c).map fun r => r.first / 2 ^ 32).getD 0)
  | 0x1F0040 => some (((selSrc c).map fun r => r.last % 2 ^ 32).getD 0)
  | 0x1F0044 => some (((selSrc c).map fun r => r.last / 2 ^ 32).getD 0)
  | 0x1F0048 => some (c.diag.src.length + fld c 0x1F0048 16 16 * 2 ^ 16)
  | _ => none

/-- PWR and PART registers that show the governor. -/
def powerView (c : Chip) (off : Nat) : Option Nat :=
  match off with
  | 0x10014 => some (domMask c .on + domMask c .sentry + domMask c .sentryWaiting)
  | 0x10018 => some (domMask c .waiting + domMask c .sentryWaiting)
  | 0x10024 => some (if c.mode.up then committed c % 2048 else 0)
  | 0x10030 =>
    some (b2n (decide (budget c < committed c)) + min 15 c.pwr.reqs.length * 2 + headClass c * 32
      + fld c 0x10030 16 16 * 2 ^ 16)
  | _ =>
    if 0x30108 ≤ off ∧ off ≤ 0x301E8 ∧ (off - 0x30108) % 0x20 = 0 then
      some (usedPower c ((off - 0x30108) / 0x20) % 2048)
    else none

/-- REC registers that show the ring image and OT. -/
def recView (c : Chip) (off : Nat) : Option Nat :=
  match off with
  | 0x180008 => some ((reg c 0x180008).toNat % 2 ^ 16 + unsaved c * 2 ^ 16)
  | 0x180010 => some (oldestSeq c)
  | 0x180014 => some (c.rcd.opens.length % 512)
  | 0x180018 => some (c.ot % 2 ^ 32)
  | 0x18001C => some (c.ot / 2 ^ 32)
  | _ => none

/-- NODE_MODE.PENDING: an accepted request waits (R138). -/
def nodeView (c : Chip) (off : Nat) : Option Nat :=
  match off with
  | 0x100 => some ((reg c 0x100).toNat % 2 ^ 16 + b2n c.mode.req.isSome * 2 ^ 16)
  | _ =>
    -- ACQ_COEF_STAT reads alike in every bank block (R1197)
    if 0x90020 ≤ off ∧ off ≤ 0xF0020 ∧ off % 0x10000 = 0x20 then some (reg c 0x80020).toNat else none

end Sys2Proof.Machine
end

