-- ==== Sys2Proof/Machine/Recorder.lean ====
section
/-! DEFINITION. The event recorder: forming, coalescing, closing, keeping and delivering records
(18_event_recorder). -/

namespace Sys2Proof.Machine

/-- PCC (04). -/
def pcc (c : Chip) : Nat := fld c 0x114 0 24

/-- The 128 bytes of a record (R772). -/
def recBytes (r : Rec) : List Byte :=
  padTo 96 (r.items.flatMap fun w => natLe 4 w) ++ natLe 4 r.seq ++ natLe 5 r.ot ++ natLe 3 r.pcc
    ++ natLe 2 r.source ++ natLe 1 r.type ++ natLe 1 r.items.length ++ natLe 5 r.lastOt ++ natLe 1 0
    ++ natLe 2 r.repeatN ++ natLe 2 r.rgen ++ natLe 2 r.aux ++ natLe 4 0x5A3CC3A5

/-- A record entry of a record ring (R250), RSEQ left 0. -/
def recEntry (rkind count : Nat) (body : List Byte) : List Byte :=
  padTo 256 (natLe 1 rkind ++ natLe 1 0 ++ natLe 2 0 ++ natLe 4 count ++ natLe 8 0 ++ body)

/-- Write one entry into a record ring, which has room. -/
def putRecRaw (c : Chip) (fn : Nat) (bs : List Byte) : Chip :=
  let n := (fnSt c fn).rseq
  let before := ringOcc c fn 3
  checkRise (putRaw (modFn c fn fun f => { f with rseq := (f.rseq + 1) % 65536 }) fn 3 (withEseq bs n)) fn 3 before

/-- Count records lost to a function's record ring (R277, R282). -/
def recLoss (c : Chip) (fn n : Nat) : Chip :=
  let c1 := setReg c (ringBase fn 3 + 0x1C) (BitVec.ofNat 32 (satAdd 32 (reg c (ringBase fn 3 + 0x1C)).toNat n))
  modFn c1 fn fun f => { f with recLost := f.recLost + n }

/-- Write the RKIND 3 entry that is due, when the ring has room (R277). -/
def putRecGap (c : Chip) (fn : Nat) : Chip :=
  let n := (fnSt c fn).recLost
  if n = 0 then c
  else if ringRoom c fn 3 then
    modFn (putRecRaw c fn (recEntry 3 (min n (2 ^ 32 - 1)) [])) fn fun f => { f with recLost := 0, recOver := false }
  else c

/-- Hold back a delivery; a newer state of the same record replaces the one held back (R807). -/
def holdRec (c : Chip) (fn : Nat) (d : RecDel) : Chip :=
  modFn c fn fun f =>
    if f.recQ.any fun q => q.seq == d.seq then
      { f with recQ := f.recQ.map fun q => if q.seq == d.seq then { q with bytes := d.bytes } else q }
    else { f with recQ := f.recQ ++ [d] }

/-- Deliver a record state to a function, or hold it back (R250 to R252, R276). -/
def deliver (c : Chip) (fn rkind : Nat) (r : Rec) : Chip :=
  if !fnEnabled c fn then c
  else if !ringEn c fn 3 then recLoss c fn 1
  else
    let c1 := if (fnSt c fn).recQ.isEmpty then putRecGap c fn else c
    if (fnSt c1 fn).recQ.isEmpty && (fnSt c1 fn).recLost == 0 && ringRoom c1 fn 3 then
      putRecRaw c1 fn (recEntry rkind 0 (recBytes r))
    else holdRec c1 fn { rkind := rkind, seq := r.seq, bytes := recBytes r }

/-- The functions that receive a record (R295, R776): for a trigger its owner; for a node source the
keeper and the partition its type names. -/
def recTargets (c : Chip) (r : Rec) : List Nat :=
  if r.source < 0x100 then [ownerFn (ownerAt c (0xC00 + r.source))]
  else
    let extra := match r.type with
      | 3 => let src := (r.items.headD 0) % 2 ^ 24
             if pClass src = 0xF then [] else [ownerFn (ownerOf c src)]
      | 5 => [(r.items.getD 1 0) + 1]
      | 6 => [ownerFn (r.items.headD 0xF)]
      | _ => []
    0 :: extra.filter fun f => f != 0 && decide (f < 9)

/-- Deliver a record state to some functions. -/
def deliverAll (c : Chip) (fns : List Nat) (rkind : Nat) (r : Rec) : Chip :=
  fns.foldl (fun c fn => deliver c fn rkind r) c

def recImage (c : Chip) (slot : Nat) : Option Rec := smGet imgDef c.rcd.image slot

/-- The image still holds a record. -/
def imageHolds (c : Chip) (r : Rec) : Bool :=
  match recImage c (r.seq % 32768) with
  | some q => q.seq == r.seq && q.pcc == r.pcc
  | none => false

def setImage (c : Chip) (slot : Nat) (r : Option Rec) : Chip :=
  { c with rcd := { c.rcd with image := smPut imgDef c.rcd.image slot r } }

/-- Is the record open? -/
def recOpen (c : Chip) (seq : Nat) : Bool := c.rcd.opens.any fun o => o.seq == seq

/-- Both records of a pair are formed and closed. -/
def pairClosed (c : Chip) (seq : Nat) : Bool :=
  let slot := seq % 32768
  let k := slot / 2 * 2
  match recImage c k, recImage c (k + 1) with
  | some a, some b =>
    (b.seq == (a.seq + 1) % 2 ^ 32) && !recOpen c a.seq && !recOpen c b.seq
  | _, _ => false

/-- Program the ring page of a record's pair when both are closed; its tail pages leave use (R797, R799). -/
def programPair (c : Chip) (seq : Nat) : Chip :=
  if pairClosed c seq then
    let k := seq % 32768 / 2 * 2
    let ring1 := smPut imgDef c.rcd.ring k (recImage c k)
    let mine (s : Nat) : Bool := s % 32768 / 2 * 2 == k
    { c with rcd := { c.rcd with
        ring := smPut imgDef ring1 (k + 1) (recImage c (k + 1))
        tail := c.rcd.tail.map fun t => if mine t.state.seq then { t with used := false } else t
        closing := c.rcd.closing.filter fun o => !mine o.seq } }
  else c

/-- The ring page of a record is erased when the first record of its new pair is formed (R797). -/
def freshPage (c : Chip) (seq : Nat) : Chip :=
  let k := seq % 32768 / 2 * 2
  let other (s : Nat) : Bool :=
    match smGet imgDef c.rcd.ring s with
    | some q => q.seq / 2 != seq / 2
    | none => false
  if other k || other (k + 1) then { c with rcd := { c.rcd with ring := smDel (smDel c.rcd.ring k) (k + 1) } } else c

/-- The tail page after the next one is erased; a page still in use is copied forward first (R799).

DESIGN CHOICE: of the pages of one record the latest is in use: an older one, copied forward, would follow it in the order
of the running counts (log 154). -/
def tailRoom : Nat → RecSt → RecSt
  | 0, r => r
  | fuel + 1, r =>
    let next (t : TailPage) : Bool := t.n % 2048 == (r.tailN + 1) % 2048
    match r.tail.find? next with
    | some t =>
      let rest := r.tail.filter fun x => !next x
      if t.used then tailRoom fuel { r with tail := rest ++ [{ t with n := r.tailN }], tailN := r.tailN + 1 }
      else { r with tail := rest }
    | none => r

/-- Program a tail page with the present state of a record (R798). -/
def programTail (c : Chip) (seq : Nat) : Chip :=
  match recImage c (seq % 32768) with
  | some q =>
    let r := tailRoom 2048 c.rcd
    { c with rcd := { r with
        tail := (r.tail.map fun t => if t.state.seq = q.seq ∧ t.state.pcc = q.pcc then { t with used := false } else t)
          ++ [{ n := r.tailN, state := q, used := true }]
        tailN := r.tailN + 1
        opens := r.opens.map fun o => if o.seq = seq then { o with journal := c.ot } else o
        closing := r.closing.filter fun o => o.seq != seq } }
  | none => c

/-- Basin is admitted, or offline: records wait for it (R833, R862). -/
def basinUp (c : Chip) : Bool :=
  decide (2 ≤ fld c 0x190008 0 3) && decide (fld c 0x190008 0 3 ≤ 5)

/-- Owner page of a record's log: the trigger's owner, 8 for the keeper (R831). -/
def recLog (c : Chip) (r : Rec) : Nat :=
  if r.source < 0x100 then min 8 (ownerAt c (0xC00 + r.source)) else 8

/-- A closed record waits for its Basin log, also while no Basin is admitted: it is lost to the log once the image has lost it
(R862). -/
def toBasinAdd (c : Chip) (r : Rec) : Chip :=
  let l := recLog c r
  let since := if c.rcd.toBasin.any fun q => recLog c q == l then c.rcd.basinSince
    else smPut (fun _ => 0) c.rcd.basinSince l c.ot
  { c with rcd := { c.rcd with toBasin := c.rcd.toBasin ++ [r], basinSince := since } }

/-- Close an open record: it leaves the open set, its pair page may be programmed, Basin takes it. A change that NVM still
lacks keeps its tail page due (R798). -/
def closeRec (c : Chip) (seq : Nat) : Chip :=
  let mine := c.rcd.opens.filter fun o => o.seq == seq
  let c1 := { c with rcd := { c.rcd with opens := c.rcd.opens.filter fun o => o.seq != seq } }
  let c2 := programPair c1 seq
  match recImage c2 (seq % 32768) with
  | some r =>
    toBasinAdd (if unsavedOf c2 r = 0 then c2 else { c2 with rcd := { c2.rcd with closing := c2.rcd.closing ++ mine } }) r
  | none => c2

/-- The open record of a source: trigger number, or 0x103 for FAULT. -/
def openOf (c : Chip) (source : Nat) : Option OpenRec := c.rcd.opens.find? fun o => o.source == source

def closeSource (c : Chip) (source : Nat) : Chip :=
  match openOf c source with
  | some o => closeRec c o.seq
  | none => c

/-- A record overwritten before it reaches Basin is lost to its log (R862). -/
def missBasin (c : Chip) (old : Rec) : Chip :=
  if c.rcd.toBasin.any fun q => q.seq == old.seq && q.pcc == old.pcc then
    let o := 0x19020C + recLog c old * 0x20
    let c1 := setReg c o (BitVec.ofNat 32 (satInc 32 (reg c o).toNat))
    { c1 with rcd := { c1.rcd with toBasin := c1.rcd.toBasin.filter fun q => !(q.seq == old.seq && q.pcc == old.pcc) } }
  else c

/-- Records of a slot not yet delivered are lost when the slot is overwritten (R277). -/
def loseSlot (c : Chip) (slot : Nat) : Chip :=
  match recImage c slot with
  | some old =>
    (List.range 9).foldl (fun c fn =>
      if (fnSt c fn).recQ.any fun q => q.seq == old.seq then
        recLoss (modFn c fn fun f => { f with recQ := f.recQ.filter fun q => q.seq != old.seq, recOver := true }) fn 1
      else c) (missBasin c old)
  | none => c

/-- A record enters the slot of another: that one is lost to those that wait for it.

DESIGN CHOICE: if it is still open it closes first; the rules let it be overwritten and name no end for it (log 153). -/
def overwrite (c : Chip) (r : Rec) : Chip :=
  let slot := r.seq % 32768
  match recImage c slot with
  | some old =>
    if old.seq = r.seq ∧ old.pcc = r.pcc then c
    else
      let c1 := loseSlot (if recOpen c old.seq then closeRec c old.seq else c) slot
      { c1 with rcd := { c1.rcd with closing := c1.rcd.closing.filter fun o => o.seq != old.seq } }
  | none => c

/-- The active unit sends the record's new state to its twin (R969). -/
def toTwin (c : Chip) (r : Rec) : Chip :=
  if sdlRole c = 1 ∧ c.sdl.contact = true then { c with sdl := { c.sdl with recs := c.sdl.recs ++ [r] } } else c

/-- A standby's own record goes to the active unit; without contact it holds up to 256 (R971, R972). -/
def holdForTwin (c : Chip) (r : Rec) : Chip :=
  if c.sdl.contact || decide (c.sdl.recs.length < 256) then { c with sdl := { c.sdl with recs := c.sdl.recs ++ [r] } }
  else countFld c 0x180008 8 8

/-- Put a record into the image with the next SEQ and make it ready for delivery (R773, R792, R806).
`window` is its coalesce window in units of 1/1024 s, 0 for a record that closes as it is formed; `fns` are the
functions it is delivered to. -/
def enterRecTo (c : Chip) (fns : List Nat) (r : Rec) (window : Nat) : Chip :=
  let seq := (reg c 0x18000C).toNat
  let r1 := { r with seq := seq }
  let c2 := setReg (setImage (overwrite c r1) (seq % 32768) (some r1)) 0x18000C (BitVec.ofNat 32 (seq + 1))
  let c3 := freshPage c2 seq
  let c4 := if window = 0 then c3
    else { c3 with rcd := { c3.rcd with
            opens := c3.rcd.opens ++ [{ source := r.source, seq := seq, ends := r.ot + window, journal := c.ot }] } }
  let c5 := if pairClosed c4 seq then programPair c4 seq else programTail c4 seq
  let c6 := toTwin (deliverAll c5 fns 1 r1) r1
  if window = 0 then toBasinAdd c6 r1 else c6

/-- Enter a record formed now: it goes to the owners in force. -/
def enterRec (c : Chip) (r : Rec) (window : Nat) : Chip := enterRecTo c (recTargets c r) r window

/-- Hold a record, with the owners in force as it is formed (R316). -/
def holdFormed (c : Chip) (r : Rec) : Chip := { c with rcd := { c.rcd with held := c.rcd.held ++ [(r, recTargets c r)] } }

/-- Records are held, in order, until the rebuild ends and while a clear runs (R802, R812). -/
def recHolds (c : Chip) : Bool := !flag c 0x180008 0 || flag c 0x180008 2

/-- Coalesce window in units of 1/1024 s, rounded up, of a count of 10 ms. -/
def window10ms (n : Nat) : Nat := ceilDiv (n * 10 * 1024) 1000

/-- The REC domain is not ON after start-up: no record is formed (R805). Before the first frame records are held, since the
domain may still reach ON.

DEDUCED: R775 has a START record formed in each start-up, in which the domain is woken after the SEQ domain (log 56). -/
def recOff (c : Chip) : Bool := c.mode.up && !c.mode.firstFrame && !domOn c 25

/-- A firing without the REC domain ON: counted while the ALARM or the SEQ domain runs (R805). -/
def loseFiring (c : Chip) : Chip := if domOn c 24 || dom c 26 != .off then countFld c 0x180008 8 8 else c

/-- The first frame comes without the REC domain ON: what start-up held is lost (R805). -/
def loseHeld (c : Chip) : Chip :=
  if recOff c then c.rcd.held.foldl (fun c _ => loseFiring c) { c with rcd := { c.rcd with held := [] } } else c

/-- Take a record formed by a node source: hold it, or enter it. -/
def formRec (c : Chip) (r : Rec) (window : Nat) : Chip :=
  if recOff c then loseFiring c
  else if sdlRole c = 2 then holdForTwin c r
  else if recHolds c then holdFormed c r
  else enterRec c r window

/-- Coalesce a firing into an open record (R787, R793).

DESIGN CHOICE: the changed record goes out with RKIND 2 also to a function that its RKIND 1 delivery never reached; R252
does not say (log 132). -/
def coalesce (c : Chip) (fns : List Nat) (seq ot : Nat) : Chip :=
  match recImage c (seq % 32768) with
  | some r =>
    let r1 := { r with repeatN := satInc 16 r.repeatN, rgen := (r.rgen + 1) % 65536, lastOt := ot }
    toTwin (deliverAll (setImage c (seq % 32768) (some r1)) fns 2 r1) r1
  | none => c

def mkRec (c : Chip) (source type ot aux : Nat) (items : List Nat) : Rec :=
  { items := items, seq := 0, ot := ot, pcc := pcc c, source := source, type := type, lastOt := ot,
    repeatN := 0, rgen := 0, aux := aux }

/-- Form a record of a node source that closes as it is formed (R785, R789). -/
def nodeRec (c : Chip) (type aux : Nat) (items : List Nat) : Chip :=
  formRec c (mkRec c (0x100 + type) type c.ot aux items) 0

/-- Form or coalesce a record of a source that has a coalesce window: `key` selects the items that must
agree (R786 to R789). -/
def coalesceOrTo (c : Chip) (fns : List Nat) (r : Rec) (window : Nat) (key : Nat) : Chip :=
  let same (q : Rec) : Bool :=
    (List.range 24).all fun i => !natBit key i || q.items.getD i 0 == r.items.getD i 0
  match openOf c r.source with
  | some o =>
    match recImage c (o.seq % 32768) with
    | some q =>
      if decide (r.ot < o.ends) && q.seq == o.seq && same q then coalesce c fns o.seq r.ot
      else enterRecTo (closeRec c o.seq) fns r window
    | none => enterRecTo (closeRec c o.seq) fns r window
  | none => enterRecTo c fns r window

def coalesceOr (c : Chip) (r : Rec) (window : Nat) (key : Nat) : Chip := coalesceOrTo c (recTargets c r) r window key

/-- Coalesce window of FAULT records: REC_CFG.ICOAL × 10 ms (R789). -/
def faultWindow (c : Chip) : Nat := window10ms (fld c 0x180004 16 16)

/-- Form or coalesce a FAULT record with item 0 as its key (R789). -/
def faultRec (c : Chip) (code : Nat) (items : List Nat) : Chip :=
  let r := mkRec c 0x103 3 c.ot code items
  if recOff c then loseFiring c
  else if sdlRole c = 2 then holdForTwin c r
  else if recHolds c then holdFormed c r
  else coalesceOr c r (faultWindow c) 1

/-- Byte offset of a trigger's entry in the trigger table (R777). -/
def trigOff (t : Nat) : Nat := 0x400 + t * 0x80

/-- COAL and KEY_MASK of a trigger in force. -/
def trigWindow (c : Chip) (t : Nat) : Nat := window10ms (tbl c 8 (trigOff t + 2) 2)
def trigKey (c : Chip) (t : Nat) : Nat := tbl c 8 (trigOff t + 4) 3

/-- Count records formed by a trigger: those that enter the image anew (R790). -/
def countFormed (before c : Chip) (t : Nat) : Chip :=
  if reg before 0x18000C = reg c 0x18000C then c else countFld c (0x180400 + t * 4) 16 16

/-- The record of a trigger's firing is formed, or coalesces (R786 to R790). -/
def enterTrigger (c : Chip) (fns : List Nat) (r : Rec) : Chip :=
  countFormed c (coalesceOrTo c fns r (trigWindow c r.source) (trigKey c r.source)) r.source

/-- Enter the records held back, in order, once the recorder is READY and no clear runs. -/
def flushHeld (c : Chip) : Chip :=
  if recHolds c then c
  else c.rcd.held.foldl (fun c (x : Rec × List Nat) =>
      if x.1.source = 0x103 then coalesceOrTo c x.2 x.1 (faultWindow c) 1
      else if x.1.source < 0x100 then enterTrigger c x.2 x.1
      else enterRecTo c x.2 x.1 0)
    { c with rcd := { c.rcd with held := [] } }

/-- A firing of trigger t is one: its entry is enabled and usable. -/
def trigFires (c : Chip) (t : Nat) : Bool := natBit (tbl c 8 (trigOff t) 1) 0 && !entryBad c 8 (trigOff t) 0x80

/-- A firing of trigger t with the items it would record (R783 to R790). Without the REC domain ON it
fires into nothing (R805). -/
def fireTrigger (c : Chip) (t ot : Nat) (items : List Nat) : Chip :=
  if !trigFires c t then c
  else
    let c1 := countFld c (0x180400 + t * 4) 0 16
    if !domOn c 25 then loseFiring c1
    else
      let r := mkRec c t 1 ot 0 items
      if recHolds c then holdFormed c1 r
      else enterTrigger c1 (recTargets c1 r) r

end Sys2Proof.Machine
end

