-- ==== Sys2Proof/Machine/Diag.lean ====
section
/-! DEFINITION. Diagnostics: error codes, occurrence counting and folding, the error FIFO, FAULT events
and FAULT records (26_diagnostics_errors). -/

namespace Sys2Proof.Machine

/-- SEV of an error code (R1083): 0 REFUSAL, 1 FIELD, 2 MASKED, 3 UNMASKED. -/
def codeSev (code : Nat) : Nat :=
  match code with
  | 0x10 | 0x1E | 0x25 | 0x26 | 0x31 | 0x32 | 0x39 | 0x41 | 0x42 | 0x52 | 0x61 | 0x6B | 0x6C | 0x71
  | 0x72 | 0x8A => 1
  | 0x11 | 0x14 | 0x18 | 0x1A | 0x21 | 0x22 | 0x23 | 0x49 | 0x62 | 0x78 => 2
  | 0x13 | 0x19 | 0x1B | 0x1C | 0x1D | 0x24 | 0x48 | 0x63 | 0x79 => 3
  | _ => 0

/-- SOURCE of an occurrence that concerns no point: kind and index (R1081). -/
def srcRes (kind i : Nat) : Nat := 0xF00000 + kind * 0x10000 + i

def srcNode : Nat := srcRes 0 0

/-- SOURCE of a point. -/
def srcPt (p : Nat) : Nat := p

/-- OWNER of an entry: the owner code of a point source, else 0xF (R1082). -/
def srcOwner (c : Chip) (src : Nat) : Nat := if pClass src = 0xF then 0xF else ownerOf c src

/-- Key of a source record. -/
def srcKey (code src : Nat) : Nat := code * 2 ^ 24 + src

/-- Count an occurrence in its source record, or in the catch-all of its code when all 4,096 records
are in use (R1084, R1087). Answers the chip, the SOURCE its entry carries and its OCC. -/
def countOcc (c : Chip) (code src : Nat) : Chip × Nat × Nat :=
  match smGet srcDef c.diag.src (srcKey code src) with
  | some r =>
    let r1 := { r with occ := satInc 16 r.occ, last := c.ot }
    ({ c with diag := { c.diag with src := smPut srcDef c.diag.src (srcKey code src) (some r1) } }, src, r1.occ)
  | none =>
    if c.diag.src.length < 4096 then
      ({ c with diag := { c.diag with
          src := smPut srcDef c.diag.src (srcKey code src) (some ⟨1, c.ot, c.ot⟩) } }, src, 1)
    else
      let r := smGet catchDef c.diag.catchAll code
      let r1 : SrcRec := { occ := satInc 16 r.occ, first := if r.occ = 0 then c.ot else r.first, last := c.ot }
      let c1 := { c with diag := { c.diag with catchAll := smPut catchDef c.diag.catchAll code r1 } }
      (countFld c1 0x1F0048 16 16, 0, r1.occ)

/-- Post the entry, unless the FIFO holds one of the same source or is full (R1085, R1086). -/
def pushEntry (c : Chip) (e : DiagEnt) : Chip :=
  if c.diag.fifo.any fun q => q.code == e.code && q.source == e.source then c
  else if c.diag.fifo.length < 256 then { c with diag := { c.diag with fifo := c.diag.fifo ++ [e] } }
  else setReg c 0x1F0020 (BitVec.ofNat 32 (satInc 32 (reg c 0x1F0020).toNat))

/-- An occurrence of an error source: counted, posted or folded, and recorded when its SEV is 2 or 3 or
`record` says that a rule requires it (R1084 to R1091). -/
def postErrorSev (c : Chip) (code sev src detail : Nat) (record : Bool) : Chip :=
  let (c1, s, occ) := countOcc c code src
  let e : DiagEnt := { code := code, source := s, occ := occ, sev := sev, owner := srcOwner c1 s,
                       ot := c.ot, detail := detail % 2 ^ 24 }
  let c2 := pushEntry c1 e
  if record || decide (2 ≤ sev) then
    faultRec c2 code [diagWord e 0, diagWord e 1, diagWord e 2, diagWord e 3]
  else c2

/-- An occurrence with the SEV of its code. -/
def postError (c : Chip) (code src detail : Nat) : Chip := postErrorSev c code (codeSev code) src detail false

/-- An occurrence for which a rule requires a record. -/
def postErrorRec (c : Chip) (code src detail : Nat) : Chip := postErrorSev c code (codeSev code) src detail true

/-- OCC of a source as it stands. -/
def occOf (c : Chip) (code src : Nat) : Nat :=
  match smGet srcDef c.diag.src (srcKey code src) with
  | some r => r.occ
  | none => (smGet catchDef c.diag.catchAll code).occ

def evDef (_ : Nat) : Option Nat := none

/-- EVT_HOLD in units of 1/1024 s. -/
def evtHold (c : Chip) : Nat := ceilDiv (fld c 0x1F0024 0 8 * 1024) 10

/-- May a FAULT event of this source be sent now (R1090)? -/
def faultEventDue (c : Chip) (code src : Nat) : Bool :=
  match smGet evDef c.diag.evLast (srcKey code src) with
  | some t => decide (t + evtHold c ≤ c.ot)
  | none => true

/-- Send a FAULT event of an occurrence to the functions named, under the hold of R1090. -/
def faultEvent (c : Chip) (code src point : Nat) (fns : List Nat) : Chip :=
  if faultEventDue c code src then
    let c1 := { c with diag := { c.diag with evLast := smPut evDef c.diag.evLast (srcKey code src) (some c.ot) } }
    let payload := natLe 2 code ++ natLe 2 0 ++ ptBytes point ++ natLe 1 0 ++ natLe 2 (occOf c code src)
    fns.dedup.foldl (fun c fn => postEvent c fn 7 0 payload) c1
  else c

/-- The owner's function of a point, and the keeper (R249 code 0x07, R295). -/
def ownerAndKeeper (c : Chip) (p : Nat) : List Nat := [ownerFn (ownerOf c p), 0]

/-- A fault of a point for which its rule requires a FAULT event to the owner (and the keeper). -/
def postPointFault (c : Chip) (code p detail : Nat) (record : Bool) : Chip :=
  faultEvent (postErrorSev c code (codeSev code) p detail record) code p p (ownerAndKeeper c p)

/-! ## Breaches (R322 to R324) -/

def breachDef (_ : Nat) : Option Nat := none
def breachReg (p : Nat) : Nat := 0x30104 + p * 0x20

/-- Payload of a GUARANTEE_BREACH event. -/
def breachBody (code ot us : Nat) : List Byte := natLe 2 code ++ natLe 2 0 ++ natLe 5 ot ++ natLe 3 0 ++ natLe 4 us

/-- A breach of a partition's guarantee starts: counted, flagged, posted, recorded and told to the partition. -/
def openBreach (c : Chip) (p code : Nat) : Chip :=
  if code = 0 ∨ (smGet breachDef c.breach (8 * p + code)).isSome = true then c
  else
    let c1 := { c with breach := smPut breachDef c.breach (8 * p + code) (some c.ot) }
    let c2 := setFlag (countFld c1 (breachReg p) 0 16) (breachReg p) (16 + code) true
    let c3 := nodeRec (postError c2 0x79 (srcRes 3 p) code) 5 code [code, p]
    postEvent c3 (p + 1) 6 1 (breachBody code c.ot 0xFFFFFFFF)

/-- A breach ends, after `us` µs. -/
def closeBreach (c : Chip) (p code us : Nat) : Chip :=
  match smGet breachDef c.breach (8 * p + code) with
  | some ot =>
    let c1 := { c with breach := smPut breachDef c.breach (8 * p + code) none }
    postEvent (setFlag c1 (breachReg p) (16 + code) false) (p + 1) 6 2 (breachBody code ot (min us 0xFFFFFFFF))
  | none => c

end Sys2Proof.Machine
end

