-- ==== Sys2Proof/Machine/Legs.lean ====
section
/-! DEFINITION. Actuator legs: their state, groups and bipolar pairs, and leaving service, which power, modes and
trips share (13_actuator_drive). -/

namespace Sys2Proof.Machine

def legDef (_ : Nat) : LegSt :=
  { dem := qwNull, duty := 0, next := none, clamp := 10000 * 65536, sc := 200 + 20 * 65536, runs := false, left := false, soft := false,
    firing := false, vds := false, fired := false, clamped := false, fresh := none }

def leg (c : Chip) (n : Nat) : LegSt := smGet legDef c.legs n
def setLeg (c : Chip) (n : Nat) (x : LegSt) : Chip := { c with legs := smPut legDef c.legs n x }
def modLeg (c : Chip) (n : Nat) (f : LegSt → LegSt) : Chip := setLeg c n (f (leg c n))

def legBase (n : Nat) : Nat := 0x140100 + n * 0x40
def legStat (n : Nat) : Nat := legBase n + 0x14
def legPt (n : Nat) : Nat := pt 6 n

def legState (c : Chip) (n : Nat) : Nat := fld c (legStat n) 0 2

/-- The leg is in PRECHARGE or ARMED. -/
def legUp (c : Chip) (n : Nat) : Bool := legState c n == 1 || legState c n == 2

def vdrvOk (c : Chip) : Bool := flag c 0x10000 7

/-! ## Groups and bipolar pairs (R593 to R595) -/

def legGrp (c : Chip) (n : Nat) : Nat := fld c (legBase n) 16 3
def legBipolar (c : Chip) (n : Nat) : Bool := flag c (legBase n) 19

/-- The legs of a leg's group, itself alone with GRP 7. -/
def groupOf (c : Chip) (n : Nat) : List Nat :=
  if legGrp c n = 7 then [n] else (List.range 12).filter fun k => legGrp c k == legGrp c n

def lowestOf (c : Chip) (n : Nat) : Nat := (groupOf c n).headD n

/-- R594. -/
def wellFormedGroup (c : Chip) (n : Nat) : Bool :=
  let g := groupOf c n
  !legBipolar c (lowestOf c n) || (g.length == 2 && !legBipolar c (g.getD 1 0))

/-- A leader of a bipolar pair, or its follower. -/
def pairOf (c : Chip) (n : Nat) : Option (Nat × Nat) :=
  let g := groupOf c n
  if legBipolar c (lowestOf c n) && g.length == 2 && !legBipolar c (g.getD 1 0) then some (lowestOf c n, g.getD 1 0) else none

def isLeader (c : Chip) (n : Nat) : Bool := match pairOf c n with | some (a, _) => a == n | none => false
def isFollower (c : Chip) (n : Nat) : Bool := match pairOf c n with | some (_, b) => b == n | none => false

/-- The other leg of a bipolar pair. -/
def partner (c : Chip) (n : Nat) : Option Nat :=
  match pairOf c n with
  | some (a, b) => some (if a = n then b else a)
  | none => none

/-! ## Leaving service (R590, R602) -/

/-- One leg leaves PRECHARGE or ARMED for a state, with an OFF_CAUSE. -/
def legLeave1 (c : Chip) (n st cause : Nat) : Chip :=
  if legUp c n then
    modLeg (setFld (setFld c (legStat n) 0 2 st) (legStat n) 8 4 cause) n fun x =>
      { x with next := none, clamped := false, vds := false, runs := false, left := true, soft := false }
  else c

/-- The partner of a leg that has left follows with OFF_CAUSE 10. -/
def partnerFollows (c : Chip) (n : Nat) : Chip :=
  match partner c n with
  | some k => legLeave1 c k 0 10
  | none => c

/-- A leg leaves PRECHARGE or ARMED; its partner in a bipolar pair follows with OFF_CAUSE 10. -/
def legLeave (c : Chip) (n st cause : Nat) : Chip :=
  if legUp c n then
    partnerFollows (legLeave1 c n st cause) n
  else c

/-- Every leg of a set leaves for DISARMED with the event's cause, then the partners of those that left. -/
def legsOff (c : Chip) (mask cause : Nat) : Chip :=
  let ns := (List.range 12).filter fun n => natBit mask n && legUp c n
  ns.foldl partnerFollows (ns.foldl (fun c n => legLeave1 c n 0 cause) c)

def allLegs : Nat := 4095

end Sys2Proof.Machine
end

