-- ==== Sys2Proof/Machine/Cells.lean ====
section
/-! DEFINITION. Loop-output cells: their state and going to OPEN, which leave, modes and the watchdog share
(11_loop_outputs). -/

namespace Sys2Proof.Machine

/-! ## Registers and stores of a cell -/

def cellBase (ch : Nat) : Nat := 0x100000 + ch / 16 * 0x10000 + 0x100 + ch % 16 * 0x40
def cellStat (ch : Nat) : Nat := cellBase ch + 0x14
def cellPt (ch : Nat) : Nat := pt 5 ch
def cellDom (ch : Nat) : Nat := 16 + ch / 16

/-- A cell before any demand: in OPEN, with a bad word as its demand. -/
def cellDef (_ : Nat) : LoopCell :=
  { mode := 0, tgt := none, dem := qwNull, last := none, init := none, cur := 0, opened := false, moved := 0, hot := 0, cool := 0,
    tx := none, rxBlank := 0, rxCut := false, wordQual := 3 }

def cell (c : Chip) (ch : Nat) : LoopCell := smGet cellDef c.cells ch
def setCell (c : Chip) (ch : Nat) (x : LoopCell) : Chip := { c with cells := smPut cellDef c.cells ch x }
def modCell (c : Chip) (ch : Nat) (f : LoopCell → LoopCell) : Chip := setCell c ch (f (cell c ch))

/-- Fault bits of LOOP_CHc_STAT (R512). -/
def lfCompliance : Nat := 2
def lfOpenLoop : Nat := 3
def lfLeak : Nat := 4
def lfParallel : Nat := 5
def lfFieldShort : Nat := 6
def lfReverse : Nat := 7
def lfLnOpen : Nat := 8
def lfOvertemp : Nat := 9
def lfVfieldLow : Nat := 10
def lfSinkHeadroom : Nat := 11
def lfReservoirLow : Nat := 12

def cellFlag (c : Chip) (ch i : Nat) : Bool := flag c (cellStat ch) i

def fskReg (ch : Nat) : Nat := cellBase ch + 0x20

/-! ## Going to OPEN (R498, R529, R543) -/

/-- End a transmission and complete its command. One that was on the line leaves the receiver blanked for 1 ms, two units
of OT (R544). -/
def endFsk (c : Chip) (ch status : Nat) : Chip :=
  match (cell c ch).tx with
  | some t =>
    let c1 := setFlag (modCell c ch fun x => { x with
      tx := none, rxBlank := if t.sending then c.ot + 2 else x.rxBlank }) (fskReg ch) 1 false
    completeWhere c1 (fun _ i => i.what == .fsk ch) fun _ _ => (status, 0)
  | none => c

/-- FORCED ends, and with it the flag that it gave the point's word (R527). -/
def endForced (c : Chip) (ch : Nat) : Chip :=
  let e := point c (cellPt ch)
  let c1 := setFlag c (cellStat ch) 13 false
  if cellFlag c ch 13 && !e.subst then setPoint c1 (cellPt ch) { e with flags := e.flags - (e.flags &&& flSubst) } else c1

/-- A cell goes to OPEN: FORCE becomes 0 and a transmission ends (R529, R543). -/
def cellToOpen (c : Chip) (ch : Nat) : Chip :=
  setFlag (endFsk (endForced (setFld c (cellBase ch + 0x24) 0 2 0) ch) ch stWrongState) (fskReg ch) 0 false

end Sys2Proof.Machine
end

