-- ==== Sys2Proof/Machine/LoopState.lean ====
section
/-! DEFINITION. The state of loops and capture buffers, and its loss with the CTRL domain, which leave and the control
engine share (14_control_engine, 15_control_tuning). -/

namespace Sys2Proof.Machine

/-! ## Registers and stores of a loop -/

def loopBase (l : Nat) : Nat := 0x151000 + l * 0x40
def loopStat (l : Nat) : Nat := loopBase l
def loopPt (l : Nat) : Nat := pt 8 l

def loopDef (_ : Nat) : LoopSt :=
  { sp := 0, xPrev := 0, ePrev := 0, uLast := 0, iAcc := 0, dAcc := 0, tsp := 0, xGood := 0, pvGood := none, word := 0,
    fresh := false, xfer := false, wasBad := false, wasHold := false }

def loopSt (c : Chip) (l : Nat) : LoopSt := smGet loopDef c.loops l
def setLoop (c : Chip) (l : Nat) (x : LoopSt) : Chip := { c with loops := smPut loopDef c.loops l x }
def modLoop (c : Chip) (l : Nat) (f : LoopSt → LoopSt) : Chip := setLoop c l (f (loopSt c l))

/-! ## Registers and stores of a capture buffer -/

def tuneDef (_ : Nat) : TuneSt :=
  { cfg := [], evals := 0, taken := 0, post := 0, k := 0, prbs := 0, bit := false, phi := 0, lastSample := 0, cut := false }

def tuneSt (c : Chip) (b : Nat) : TuneSt := smGet tuneDef c.tune b
def setTune (c : Chip) (b : Nat) (x : TuneSt) : Chip := { c with tune := smPut tuneDef c.tune b x }

def tuneBase (b : Nat) : Nat := 0x154000 + b * 0x20
def tuneState (c : Chip) (b : Nat) : Nat := fld c (tuneBase b) 0 2
def tuneLoop (c : Chip) (b : Nat) : Nat := fld c (tuneBase b) 8 7

/-- The buffer's BAR1 offset. -/
def tuneMem (b : Nat) : Nat := 0x1400000 + b * 0x40000

/-- The buffer is cleared and IDLE (R317, R676). -/
def clearBuffer (c : Chip) (b : Nat) : Chip :=
  resetRegs { setTune c b (tuneDef 0) with tables := memClear c.tables (tuneMem b) 0x40000 } (tuneBase b) (tuneBase b + 0x20)

/-- CTRL_Ln_INT shows the integrator of a loop. -/
def setInt (c : Chip) (l : Nat) (i : Int) : Chip :=
  setReg (setReg c (loopBase l + 0x10) (BitVec.ofNat 32 (unsigned 64 i))) (loopBase l + 0x14) (BitVec.ofNat 32 (unsigned 64 i / 2 ^ 32))

/-! ## The CTRL domain is not ON (R638, R676) -/

/-- Registers that show the state of a loop go back; its misses and last duration are no loop state. -/
def clearLoopRegs (c : Chip) (l : Nat) : Chip :=
  let c1 := setReg c (loopStat l) (BitVec.ofNat 32 (b2n (flag c (loopStat l) 10) * 1024))
  resetRegs c1 (loopBase l + 8) (loopBase l + 0x20)

/-- Loop state is lost and every buffer is IDLE: when the domain begins to turn off, and when it is OFF. -/
def ctrlDomainOff (c : Chip) : Chip :=
  (List.range 128).foldl clearLoopRegs ((List.range 4).foldl clearBuffer { c with loops := [], evq := [] })

end Sys2Proof.Machine
end

