-- ==== Sys2Proof/Machine/Power.lean ====
section
/-! DEFINITION. The power governor: domain targets, leave requests, grants and turn-offs
(03_power_clocks_leave, with the domain table of 04 and the reservations of 07). -/

namespace Sys2Proof.Machine

/-- Both PLLs stop with SEQ's sentry state or its power: neither has lost lock (R124, R125). CCLK runs from the fast
RC, and no modulator is clocked. -/
def pllStop (c : Chip) : Chip :=
  let c1 := setFld (setFld c 0x18000 4 2 0) 0x18000 6 1 1
  { c1 with pwr := { c1.pwr with modulators := false } }

/-- A set of domains as a mask. -/
def maskOf (ns : List Nat) : Nat := (ns.map fun n => 2 ^ n).sum

/-- The sentry entries of the scan table in force, as the sentry lane takes them (R367). -/
def sentryEntries (c : Chip) : List SentrySt :=
  (List.range (min 16 (tbl c 3 6 1))).map fun i =>
    let o := 0x40 + i * 16
    { point := tbl c 3 o 3, period := tbl c 3 (o + 4) 1, confirm := tbl c 3 (o + 5) 1, lo := tbl c 3 (o + 8) 4,
      hi := tbl c 3 (o + 12) 4, count := 0 }

/-- Domains of the banks that hold a sentry point: of the lane's own store in SENTRY, of the scan table in force
before it (R123, R367). -/
def sentryBanks (c : Chip) : List Nat :=
  ((if nodeMode c = mSentry then c.seq.sentry else sentryEntries c).filterMap fun e =>
    if pClass e.point = 2 then some (8 + pIndex e.point / 16) else none).dedup

/-- Domains a mode forces on (R123). -/
def forcedOn (c : Chip) (mode : Nat) : Nat :=
  match mode with
  | 2 => maskOf ([26, 28] ++ sentryBanks c)
  | 3 | 4 | 8 => maskOf [26, 28, 29]
  | 5 | 7 => maskOf [26, 28, 29, 6]
  | 6 => maskOf [26, 28, 29, 6] ||| c.mode.entryOn
  | 9 => maskOf [26, 28, 29, 1]
  | 10 => maskOf [26, 28, 29, 1, 27]
  | 11 => c.mode.entryOn - (c.mode.entryOn &&& maskOf [21, 22, 23])
  | _ => 0

/-- Domains a mode permits through PWR_DOM_EN (R123). -/
def permitted (mode : Nat) : Nat :=
  match mode with
  | 0 | 1 | 2 => 1
  | 3 => 2 ^ 30 - 1 - maskOf [16, 17, 18, 22, 23]
  | 4 | 5 | 6 | 8 | 9 | 10 => 2 ^ 30 - 1
  | 7 => maskOf [0, 1, 27]
  | _ => 0

/-- The mode whose domains PWR_DOM_EN reaches: before the first frame of a start that is the start mode
(step 8 of R149). -/
def shownMode (c : Chip) : Nat :=
  match c.mode.auto with
  | some (m, 0) => m
  | _ => nodeMode c

/-- Target state of a domain: ON or not (R90 to R92). A pending mode request also forces the domains
of its target mode, so that its frame can begin (R135). -/
def targetOn (c : Chip) (n : Nat) : Bool :=
  natBit (forcedOn c (nodeMode c)) n
    || (natBit (permitted (shownMode c)) n && flag c 0x10010 n)
    || (match c.mode.req with
        | some m => natBit (forcedOn c m) n
        | none => false)
    || (match c.mode.auto with
        | some (m, _) => natBit (forcedOn c m) n
        | none => false)

/-- A domain in sentry state returns to ON: the mode is no longer SENTRY, or the mode that the node wakes
to forces the domain (R123, R140). -/
def leavesSentry (c : Chip) (n : Nat) : Bool :=
  nodeMode c != mSentry
    || (match c.mode.req with | some m => natBit (forcedOn c m) n | none => false)
    || (match c.mode.auto with | some (m, _) => natBit (forcedOn c m) n | none => false)

/-- The domains that need a domain, directly. -/
def dependants (n : Nat) : List Nat := (List.range 30).filter fun k => (domDesc k).needs.contains n

/-- Every domain that needs `n` is OFF or waits. -/
def dependantsOff (c : Chip) (n : Nat) : Bool :=
  (dependants n).all fun k => dom c k == .off || dom c k == .waiting

/-- Every domain that `n` needs is ON (R93). -/
def needsOn (c : Chip) (n : Nat) : Bool := (domDesc n).needs.all fun k => domOn c k

def addReq (c : Chip) (r : LeaveReq) : Chip := { c with pwr := { c.pwr with reqs := c.pwr.reqs ++ [r] } }

/-- Domains refused leave may be asked for again: their target is set anew (R117). -/
def unrefuse (c : Chip) (mask : Nat) : Chip :=
  { c with pwr := { c.pwr with refused := c.pwr.refused - (c.pwr.refused &&& mask) } }

/-- Withdraw the requests of an operation. -/
def dropReq (c : Chip) (op : LeaveOp) : Chip :=
  { c with pwr := { c.pwr with reqs := c.pwr.reqs.filter fun r => r.op != op } }

/-- A domain's request for its steady amount and wake surge together (R94). -/
def domReq (n : Nat) : LeaveReq :=
  { op := .domain n, dom := n, cls := (domDesc n).cls, steady := (domDesc n).steady, surge := (domDesc n).surge, late := false }

/-- Every DMA channel stops and is IDLE as the DMA domain leaves ON; nothing is completed or reported (R868). -/
def dmaStop (c : Chip) : Chip :=
  let c1 := (List.range 8).foldl (fun c n => setFld (setFld c (0x1A010C + n * 0x20) 0 2 0) (0x1A0418 + n * 0x40) 0 2 0) c
  { c1 with dma := { c1.dma with dp := [], dl := [], req := 0, drained := none } }

/-- Turn a domain off: every domain that needs it turns off first (R95); the turn-off ends at DOMAIN_OFF. As ACT
begins to turn off, its legs have their gates low (R86, R590); as a loop-output bank does, its cells are in OPEN (R494, R529,
R543). An analog bank whose spare serves a channel first hands the
channel back (R465).

DESIGN CHOICE: a domain whose target becomes OFF while it wakes turns off at once; R99 speaks only of the
opposite case (log 77). A domain in sentry state that waits for leave has its request withdrawn and turns off (R98). -/
def beginOff (c : Chip) (n : Nat) : Chip :=
  match dom c n with
  | .on | .waking =>
    if n = 22 then legsOff (setDom c n .turningOff) allLegs 3
    else if n = 23 then ctrlDomainOff (setDom c n .turningOff)
    else if n = 27 then dmaStop (setDom c n .turningOff)
    else if decide (16 ≤ n) && decide (n ≤ 18) then
      (List.range 16).foldl (fun c k => cellToOpen c ((n - 16) * 16 + k)) (setDom c n .turningOff)
    else if decide (8 ≤ n) && decide (n ≤ 15) && spareReturning c (n - 8) then c
    else setDom c n .turningOff
  | .sentry => setDom c n .sentryOff
  | .sentryWaiting => setDom (dropReq c (.domain n)) n .sentryOff
  | .waiting => setDom (dropReq c (.domain n)) n .off
  | _ => c

/-- The dependants of a domain, and theirs, and itself. -/
def withDependants (n : Nat) : List Nat :=
  let d1 := dependants n
  let d2 := d1.flatMap dependants
  let d3 := d2.flatMap dependants
  (d3 ++ d2 ++ d1 ++ [n]).dedup

/-- One domain moved towards its target (R90 to R94, R98, R99). Until start-up has released the node from its reset every
domain is held in it; only a cold reset holds RTC (R84, R88, R142). -/
def retargetOne (c : Chip) (n : Nat) : Chip :=
  if !(if n = 0 then aonRuns c else c.mode.up) then c
  else if targetOn c n then
    match dom c n with
    | .off =>
      if needsOn c n && !natBit c.pwr.refused n then addReq (setDom c n .waiting) (domReq n) else c
    | .sentry =>
      if leavesSentry c n && needsOn c n && !natBit c.pwr.refused n then addReq (setDom c n .sentryWaiting) (domReq n) else c
    | _ => c
  else
    match dom c n with
    | .off | .turningOff | .sentryOff => c
    | _ => (withDependants n).foldl beginOff c

/-- The request that stands first: of the highest class that waits, the earliest (R109, R110). -/
def headReq (c : Chip) : Option LeaveReq := c.pwr.reqs.find? fun r => r.cls == headClass c

/-- Owner code that an operation is charged to. -/
def chargeOf (c : Chip) (r : LeaveReq) : Nat := domainCharge c r.dom

/-- R308: the request is in its partition's reservation. -/
def inReservation (c : Chip) (r : LeaveReq) : Bool :=
  let p := chargeOf c r
  decide (p < 8) && decide (usedPower c p + r.steady + r.surge ≤ powerRsv c p)

/-- R107 to R110, R309, R310: may the request be granted now? -/
def fits (c : Chip) (r : LeaveReq) : Bool :=
  let a := r.steady + r.surge
  if r.cls = 1 then decide (committed c + a ≤ budget c)
  else
    decide (committed c + a + safetyRsv c ≤ budget c)
      && (inReservation c r
          || decide (committed c + a + ((List.range 8).map fun p => freePower c p).sum + safetyRsv c ≤ budget c))

/-- A cell's step begins: one that enters a mode is in OPEN until it does (R498, R529). -/
def stepBegins (c : Chip) (ch : Nat) : Chip :=
  match (cell c ch).tgt with
  | some m => if m = 0 then c else cellToOpen c ch
  | none => c

/-- Grant a request: its surge begins and its operation may begin (R94, R106). -/
def grant (c : Chip) (r : LeaveReq) : Chip :=
  let c1 := dropReq c r.op
  let c2 := if r.surge = 0 then c1
    else { c1 with pwr := { c1.pwr with surges := c1.pwr.surges ++ [⟨r.op, r.dom, r.surge⟩] } }
  match r.op with
  | .domain n => setDom c2 n .waking
  | .bankStep ch => stepBegins c2 ch
  | _ => c2

/-- Grant the request that stands first, when it fits. -/
def grantHead (c : Chip) : Chip :=
  match headReq c with
  | some r => if fits c r then grant c r else c
  | none => c

/-- Grant requests while the first one fits, at most `n` of them (R112). -/
def grantAll : Nat → Chip → Chip
  | 0, c => c
  | n + 1, c =>
    match headReq c with
    | some r => if fits c r then grantAll n (grant c r) else c
    | none => c

/-- Move every domain towards its target, lower bits first, and grant what fits at its arrival
(R111, R112). -/
def retarget (c : Chip) : Chip :=
  grantAll 40 ((List.range 30).foldl retargetOne c)

/-- Submit a request for an operation on a domain that is ON: it is granted at its arrival when it
may be (R112). -/
def requestOp (c : Chip) (r : LeaveReq) : Chip := grantAll 40 (addReq (dropReq c r.op) r)

/-- A bank step of a loop-output cell requests 30 units of its bank's domain (R495). -/
def bankStepReq (ch : Nat) : LeaveReq :=
  { op := .bankStep ch, dom := 16 + ch / 16, cls := 2, steady := 0, surge := 30, late := false }

def opWaits (c : Chip) (op : LeaveOp) : Bool := c.pwr.reqs.any fun r => r.op == op
def opRuns (c : Chip) (op : LeaveOp) : Bool := c.pwr.surges.any fun s => s.op == op

/-- Release every surge of an operation that has ended with its domain (R113). -/
def releaseSurge (c : Chip) (op : LeaveOp) : Chip :=
  { c with pwr := { c.pwr with surges := c.pwr.surges.filter fun s => s.op != op } }

/-- LEAVE_TIMEOUT of a waiting request that is not SAFETY (R117, R119): withdrawn, reported. A domain that
waited in OFF stays OFF.

DESIGN CHOICE: one that waited in its sentry state turns off from it, since R117 names only OFF (log 78). -/
def withdrawReq (c : Chip) (r : LeaveReq) : Chip :=
  let c1 := dropReq c r.op
  let c2 := match r.op with
    | .domain n =>
      let k := setDom c1 n (if dom c n = .sentryWaiting then .sentryOff else .off)
      { k with pwr := { k.pwr with refused := c.pwr.refused ||| 2 ^ n } }
    | _ => c1
  let c3 := countFld (setFlag c2 0x1001C r.dom true) 0x10030 16 16
  let c4 := postError c3 0x12 srcNode r.dom
  postEvent c4 0 8 0 (natLe 1 r.dom ++ natLe 1 r.cls ++ natLe 2 (r.steady + r.surge))

end Sys2Proof.Machine
end

