-- ==== Sys2Proof/Machine/RegWrite.lean ====
section
/-! DEFINITION. A host write to one BAR0 register, resolved field by field (R11, R174 to R198), with
the reach of a virtual function (R296 to R299). -/

namespace Sys2Proof.Machine

/-! ## Streams of Basin (19) -/

/-- First register of a stream's page. -/
def strBase (s : Nat) : Nat := 0x190400 + s * 0x20

/-- The registers of a stream: CFG, TIME, TREND, points. -/
def strRegs (c : Chip) (s : Nat) : List Nat :=
  [(reg c (strBase s)).toNat, (reg c (strBase s + 4)).toNat, (reg c (strBase s + 8)).toNat]
    ++ (List.range 16).map fun i => (reg c (0x190800 + s * 0x40 + i * 4)).toNat

/-- Points of a stream by its registers. -/
def strPoints (rs : List Nat) : List Nat :=
  let cfg := rs.getD 0 0
  if cfg % 4 = 1 then ((List.range 16).filter fun i => natBit cfg (16 + i)).map fun i => pt 2 (natBits cfg 2 3 * 16 + i)
  else if cfg % 4 = 2 then ((rs.drop 3).take (natBits (rs.getD 2 0) 16 5)).map fun p => p % 2 ^ 24
  else []

/-- SOURCE of a function (R1081 kind 4). -/
def srcFn (fn : Nat) : Nat := srcRes 4 fn

/-- What a virtual function may write or read (R296): the points or resources a register serves, as
owner codes; `some []` serves none and is never reached, `none` is shared by no one. -/
inductive Serves where
  /-- reached by nobody but the keeper -/
  | keeper
  /-- readable by every function -/
  | allRead
  /-- the page of a function -/
  | page (fn : Nat)
  /-- the page of a partition, readable by its own function -/
  | partPage (p : Nat)
  /-- a point -/
  | point (p : Nat)
  /-- every point of a group -/
  | group (ps : List Nat)
  /-- an owner byte of the partition table -/
  | ownerByte (off : Nat)
  /-- a table, readable by its owner (R1197) -/
  | table (code : Nat)
  /-- a descriptor channel (20) -/
  | channel (n : Nat)
  /-- the points of a Basin stream (19) -/
  | stream (s : Nat)
  deriving DecidableEq, Repr

/-- `n` points of a class from index `i`. -/
def ptGroup (cls i n : Nat) : Serves := .group ((List.range n).map fun k => pt cls (i + k))

/-- DIO/TRIP registers by point, or by the contacts, inputs or trips that a bank register serves together (12). -/
def servesDio (o : Nat) : Serves :=
  if o < 0x10 then ptGroup 1 (o / 4 * 16) 16
  else if o = 0x804 ∨ o = 0x81C then ptGroup 4 0 32
  else if o = 0x808 ∨ o = 0x80C ∨ o = 0x818 then ptGroup 7 0 32
  else if o = 0x810 ∨ o = 0x814 then ptGroup 7 ((o - 0x810) * 4) 16
  else if 0x100 ≤ o ∧ o < 0x400 then .point (pt 1 (o % 0x100 / 4))
  else if 0x400 ≤ o ∧ o < 0x600 then .point (pt 3 ((o - 0x400) / 0x20))
  else if 0x900 ≤ o ∧ o < 0x980 then .point (pt 7 ((o - 0x900) / 4))
  else .keeper

/-- ALM registers outside the pages (16). -/
def servesAlm (o : Nat) : Serves :=
  if 0x4000 ≤ o ∧ o < 0x5000 then .point (pt 10 ((o - 0x4000) / 4)) else .keeper

/-- Which points or resources the register at an offset serves (R296, R1197). -/
def serves (off : Nat) : Serves :=
  let blk := off / 0x10000
  let o := off % 0x10000
  if off ≤ 0x020 ∨ off = 0x100 then .allRead
  else if blk = 0 ∨ blk = 1 then .keeper
  else if blk = 2 then
    if off = 0x20000 then .allRead else if 0x21000 ≤ off ∧ off < 0x2A000 then .page ((off - 0x21000) / 0x1000) else .keeper
  else if blk = 3 then
    if off = 0x30000 then .allRead else if 0x30100 ≤ off ∧ off < 0x30200 then .partPage ((off - 0x30100) / 0x20) else .keeper
  else if 8 ≤ blk ∧ blk ≤ 15 then
    if o = 0x20 then .table 4
    else if o < 0x18 then ptGroup 2 ((blk - 8) * 16) 16
    else if 0x100 ≤ o ∧ o < 0x500 then .point (pt 2 ((blk - 8) * 16 + (o - 0x100) / 0x40)) else .keeper
  else if 16 ≤ blk ∧ blk ≤ 18 then
    if 0x100 ≤ o ∧ o < 0x500 then .point (pt 5 ((blk - 16) * 16 + (o - 0x100) / 0x40))
    else if o < 8 then ptGroup 5 ((blk - 16) * 16) 16 else if o < 0x10 then ptGroup 5 0 48 else .keeper
  else if blk = 19 then servesDio o
  else if blk = 20 then
    if o < 8 then ptGroup 6 0 12
    else if 0x100 ≤ o ∧ o < 0x400 then .point (pt 6 ((o - 0x100) / 0x40))
    else if 0x800 ≤ o ∧ o < 0x880 then .point (pt 12 ((o - 0x800) / 0x20)) else .keeper
  else if blk = 21 then
    if o = 0 then .table 5
    else if 0x1000 ≤ o ∧ o < 0x3000 then .point (pt 8 ((o - 0x1000) / 0x40))
    else if 0x4000 ≤ o ∧ o < 0x4080 then .ownerByte (0xD08 + (o - 0x4000) / 0x20) else .keeper
  else if blk = 22 then
    if o = 0 then .table 6
    else if 0x100 ≤ o ∧ o < 0x200 then .partPage ((o - 0x100) / 0x20)
    else if 0x8000 ≤ o ∧ o < 0x8120 then .page ((o - 0x8000) / 0x20)
    else servesAlm o
  else if blk = 23 then if o = 0 then .table 7 else .ownerByte 0x0C
  else if blk = 24 then
    if o = 0 then .table 8 else if 0x400 ≤ o ∧ o < 0x800 then .ownerByte (0xC00 + (o - 0x400) / 4) else .keeper
  else if blk = 25 then
    if 0x200 ≤ o ∧ o < 0x300 then .partPage ((o - 0x200) / 0x20)
    else if 0x400 ≤ o ∧ o < 0x600 then .stream ((o - 0x400) / 0x20)
    else if 0x800 ≤ o ∧ o < 0xC00 then .stream ((o - 0x800) / 0x40) else .keeper
  else if blk = 26 then if 0x400 ≤ o ∧ o < 0x600 then .channel ((o - 0x400) / 0x40) else .keeper
  else if blk = 27 then .ownerByte (0xD00 + o / 0x2000)
  else .keeper

/-- May the function read the register (R296)? -/
def reachRead (c : Chip) (fn off : Nat) : Bool :=
  if fn = 0 then true
  else match serves off with
    | .keeper => false
    | .allRead => true
    | .page f => f == fn
    | .partPage p => p + 1 == fn
    | .point p => mayRead c fn p
    | .group ps => ps.all (mayRead c fn)
    | .ownerByte b => ownerAt c b == fnOwner fn || natBit (partByte c b) 4
    | .table t => tableOwner c t == fnOwner fn
    | .channel n => fld c (0x1A0400 + n * 0x40) 0 4 == fnOwner fn
    | .stream s => let ps := strPoints (strRegs c s); !ps.isEmpty && ps.all (mayRead c fn)

/-- May the function write RW fields of the register (R296)? -/
def reachWrite (c : Chip) (fn off : Nat) : Bool :=
  if fn = 0 then true
  else match serves off with
    | .keeper | .allRead | .table _ => false
    | .page f => f == fn
    | .partPage p => p + 1 == fn
    | .point p => owns c fn p
    | .group ps => ps.all (owns c fn)
    | .ownerByte b => ownerAt c b == fnOwner fn
    | .channel n => fld c (0x1A0400 + n * 0x40) 0 4 == fnOwner fn
    | .stream s => let ps := strPoints (strRegs c s); !ps.isEmpty && ps.all (owns c fn)

/-- An access of a virtual function that is discarded (R299). -/
def deny (c : Chip) (fn off : Nat) : Chip :=
  if fn = 0 then c
  else postError (countFld c (0x30100 + (fn - 1) * 0x20) 0 16) 0x09 (srcRes 3 (fn - 1)) off

/-- A register write taken field by field: what the registers held, what they hold now, the written
number, the mask of its enabled bits, and whether a reserved code was written (R195). -/
structure WriteCtx where
  fn : Nat
  off : Nat
  old : Word
  now : Word
  data : Nat
  mask : Nat
  badCode : Bool
  /-- the other register of an 8-byte write, what it held and what it holds now (R180) -/
  pair : Option (Nat × Word × Word)
  deriving DecidableEq, Repr

/-- A write is discarded: its register keeps its value, and so does the other register of an 8-byte write (R180).

DEDUCED: the rules discard a write, and one of 8 bytes is one write (log 133). -/
def unwrite (c : Chip) (w : WriteCtx) : Chip :=
  let c1 := setReg c w.off w.old
  match w.pair with
  | some p => setReg c1 p.1 p.2.1
  | none => c1

/-- The chip with the registers of the write as the write leaves them, before any of them acts. -/
def rewritten (c : Chip) (w : WriteCtx) : Chip :=
  let c1 := setReg c w.off w.now
  match w.pair with
  | some p => setReg c1 p.1 p.2.2
  | none => c1

/-- The registers of a write, the lower first. -/
def WriteCtx.offs (w : WriteCtx) : List Nat :=
  match w.pair with
  | some p => if p.1 < w.off then [p.1, w.off] else [w.off, p.1]
  | none => [w.off]

/-- What a register of the write held before it. -/
def WriteCtx.was (w : WriteCtx) (off : Nat) : Word :=
  if off = w.off then w.old else match w.pair with | some p => p.2.1 | none => w.old

/-- The written number of some bytes; a byte not enabled counts as 0. -/
def dataOf (bs : WriteBytes) : Nat := leNat (bs.map fun b => b.getD 0)

/-- The mask of enabled bits. -/
def maskOfBytes (bs : WriteBytes) : Nat := leNat (bs.map fun b => if b.isSome then 255 else 0)

/-- Is bit `i` of the write enabled? -/
def WriteCtx.en (w : WriteCtx) (i : Nat) : Bool := natBit w.mask i

/-- A self-clearing or WO bit written 1 (R178, R1184). -/
def WriteCtx.hit (w : WriteCtx) (i : Nat) : Bool := natBit w.mask i && natBit w.data i

/-- Field of the written number. -/
def WriteCtx.val (w : WriteCtx) (lo n : Nat) : Nat := natBits w.data lo n

/-- The field an RW or RWK write leaves: enabled bits from the write, the others as they were (R177). -/
def mergeField (old data mask : Nat) (f : Fld) : Nat :=
  let o := natBits old f.lo f.width
  let d := natBits data f.lo f.width
  let m := natBits mask f.lo f.width
  (d &&& m) + (o - (o &&& m))

/-- Does the write touch the field? -/
def touches (mask : Nat) (f : Fld) : Bool := natBits mask f.lo f.width != 0

/-- What a plain field stores (each chapter's field tables). -/
def ruleStore (r : Rule) (old v : Nat) : Nat :=
  match r with
  | .any => v
  | .sat m => min m v
  | .one => if v = 0 then 1 else v
  | .clamp lo hi => if v < lo then lo else if hi < v then hi else v
  | .align n => v / 2 ^ n * 2 ^ n
  | .enum last => if last < v then old else v

/-- The value a field is left with by a write (R11, R194, R195). -/
def fieldAfter (fn old data mask : Nat) (f : Fld) : Nat :=
  let o := natBits old f.lo f.width
  let v := mergeField old data mask f
  match f.acc with
  | .ro | .rc | .wo => o
  | .rw => ruleStore f.rule o v
  | .rwk => if fn = 0 then ruleStore f.rule o v else o
  | .w1c => o - (o &&& (natBits data f.lo f.width &&& natBits mask f.lo f.width))
  | .w1s => o ||| (natBits data f.lo f.width &&& natBits mask f.lo f.width)

/-- A reserved code value is written to the field (R195). -/
def fieldBad (fn old data mask : Nat) (f : Fld) : Bool :=
  match f.rule with
  | .enum last =>
    (f.acc == .rw || (f.acc == .rwk && fn == 0)) && touches mask f && decide (last < mergeField old data mask f)
  | _ => false

/-- The register after the write: every field resolved by itself. -/
def regAfter (fn : Nat) (fs : List Fld) (old data mask : Nat) : Nat :=
  (fs.map fun f => fieldAfter fn old data mask f * 2 ^ f.lo).sum

/-- Fields a virtual function may not write: RWK anywhere, and WO or W1S outside its own pages, when
the write asks for something (R298). -/
def deniedField (data mask : Nat) (f : Fld) : Bool :=
  match f.acc with
  | .rwk => touches mask f
  | .wo | .w1s | .w1c => natBits data f.lo f.width &&& natBits mask f.lo f.width != 0
  | _ => false

/-- In its own pages of the HOST and PART blocks a virtual function reaches every field that is not RWK (R296). -/
def ownPage (fn off : Nat) : Bool :=
  match serves off with
  | .page f => f == fn && off / 0x10000 == 2
  | .partPage p => p + 1 == fn && off / 0x10000 == 3
  | _ => false

/-- The enabled bits of fields that the function may write: a command bit it may not write is no command. -/
def effMask (fn : Nat) (fs : List Fld) (mask : Nat) : Nat :=
  (fs.map fun f =>
    if f.acc == .ro || f.acc == .rc || (f.acc == .rwk && fn != 0) then 0
    else natBits mask f.lo f.width * 2 ^ f.lo).sum

/-- What each register does after its fields are stored; the register's chapter gives it. -/
abbrev Hook := WriteCtx → Chip → Chip

/-- No action of its own. -/
def hookNone : Hook := fun _ c => c

/-- The action of a register whose chapter discards some writes: where a register of the write is bad, the write is
discarded and reported once, at the first that is, and no register of it acts (R180; log 133). `bad` is asked of the chip
as the whole write leaves it. -/
def guarded (bad : Chip → WriteCtx → Nat → Bool) (reject : Chip → WriteCtx → Nat → Chip) (act : Hook) : Hook := fun w c =>
  match w.offs.find? (bad (rewritten c w) w) with
  | some o => if o = w.off then reject (unwrite c w) w o else c
  | none => act w c

/-- What a write does before its register acts: the chip with the fields stored and a reserved code reported, whether
a part of the write is denied, and what the register's own action is told. -/
structure Stored where
  chip : Chip
  denied : Bool
  ctx : Option WriteCtx
  deriving DecidableEq, Repr

/-- A write to a defined register that the function reaches (R177, R187, R195, R296 to R299). -/
def storeDefined (c : Chip) (fn off : Nat) (d : RegDesc) (data mask : Nat) : Stored :=
  let own := ownPage fn off
  let denied := fn != 0 && d.fields.any fun f =>
    if own then f.acc == .rwk && touches mask f else deniedField data mask f
  let fs := if fn = 0 ∨ own then d.fields
    else d.fields.map fun f => if f.acc == .rw || f.acc == .rwk then f else { f with acc := .ro }
  let old := reg c off
  let bad := fs.any fun f => fieldBad fn old.toNat data mask f
  let c1 := setReg c off (BitVec.ofNat 32 (regAfter fn fs old.toNat data mask))
  let c2 := if bad then postError c1 0x02 (srcFn fn) off else c1
  { chip := c2, denied := denied,
    ctx := some {
      fn := fn, off := off, old := old, now := BitVec.ofNat 32 (regAfter fn fs old.toNat data mask), data := data, mask := effMask fn fs mask,
      badCode := bad, pair := none } }

/-- The storing part of a write to the register at an aligned offset (R198 where none is defined). -/
def storeReg (c : Chip) (fn off data mask : Nat) : Stored :=
  if mask = 0 then { chip := c, denied := false, ctx := none }
  else if !reachWrite c fn off then { chip := c, denied := true, ctx := none }
  else match findReg off with
    | some d => storeDefined c fn off d data mask
    | none => { chip := postError c 0x03 (srcFn fn) off, denied := false, ctx := none }

/-- The register's own action, if the write reached it. -/
def runHook (hook : Hook) (w : Option WriteCtx) (c : Chip) : Chip :=
  match w with
  | some x => hook x c
  | none => c

/-- A write to one register. -/
def writeReg (hook : Hook) (c : Chip) (fn off data mask : Nat) : Chip :=
  let s := storeReg c fn off data mask
  runHook hook s.ctx (if s.denied then deny s.chip fn off else s.chip)

/-- A request of 8 bytes applies to both of its registers in one cycle (R180), and is denied once. -/
def writePair (lo hi : Hook) (c : Chip) (fn off dataLo maskLo dataHi maskHi : Nat) : Chip :=
  let s := storeReg c fn off dataLo maskLo
  let t := storeReg s.chip fn (off + 4) dataHi maskHi
  let c1 := if s.denied then deny t.chip fn off else if t.denied then deny t.chip fn (off + 4) else t.chip
  let other (x y : Option WriteCtx) : Option WriteCtx := x.map fun w => { w with pair := y.map fun v => (v.off, v.old, v.now) }
  runHook hi (other t.ctx s.ctx) (runHook lo (other s.ctx t.ctx) c1)

/-- A 4-byte write of value `v` with byte enables `be`: the form of the rows that write one register. -/
def writeWord (hook : Hook) (c : Chip) (fn : Fn) (off : Nat) (v : Word) (be : BitVec 4) : Chip :=
  let bs := writeBytes v be
  writeReg hook c fn.val off (dataOf bs) (maskOfBytes bs)

end Sys2Proof.Machine
end

