-- ==== Sys2Proof/Machine/Analog.lean ====
section
/-! DEFINITION. Universal analog channels: set-up, filter outputs, settling, protection, rotation,
calibration and linearisation (09_analog_front_end, 10_conversion_calibration). -/

namespace Sys2Proof.Machine

/-! ## Registers and stores of a channel and a bank -/

def anaPt (ch : Nat) : Nat := pt 2 ch

/-- Before a set-up is applied the channel is in OFF with the defaults of its registers. -/
def anaDef (_ : Nat) : AnaSt :=
  { aMode := 0, aExc := 0, aTsrc := 0, aLead := 100 * 2 ^ 16, aFilt := 6 * 16, change := false,
    phaseB := false, got1 := false, got2 := false, iepeUntil := 0, cmOut := 0, cmIn := 0, tone := false,
    toneDue := false, toned := false, tail := 0 }

def anaSt (c : Chip) (ch : Nat) : AnaSt := smGet anaDef c.ana ch
def setAna (c : Chip) (ch : Nat) (a : AnaSt) : Chip := { c with ana := smPut anaDef c.ana ch a }
def modAna (c : Chip) (ch : Nat) (f : AnaSt → AnaSt) : Chip := setAna c ch (f (anaSt c ch))

def bankDef (_ : Nat) : BankSt :=
  { left := 0, retry := false, wait := false, calDone := false, toneWait := false, stepDue := none, base := 0, stepOt := 0,
    emerg := none, back := none, retired := 0, cover := none }
def bankSt (c : Chip) (b : Nat) : BankSt := smGet bankDef c.bank b
def setBank (c : Chip) (b : Nat) (s : BankSt) : Chip := { c with bank := smPut bankDef c.bank b s }
def modBank (c : Chip) (b : Nat) (f : BankSt → BankSt) : Chip := setBank c b (f (bankSt c b))

def corrDef (_ : Nat) : Option Corr := none

/-- The spare covers a channel's retired cell from here on: COVERING, SPARE_CH and ON_SPARE, with the store of R1204. -/
def setCover (c : Chip) (ch : Nat) : Chip :=
  let b := ch / 16
  let c1 := setFlag (setFld (setFlag c (rotStat b) 12 true) (rotStat b) 8 4 (ch % 16)) (chConv ch) 9 true
  modBank c1 b fun s => { s with cover := some ch }

def setPhase (c : Chip) (b p : Nat) : Chip := setFld c (rotStat b) 5 3 p
def settleLeft (c : Chip) (ch : Nat) : Nat := fld c (chConv ch) 0 9

/-- The home cell of a channel is retired and the spare does not cover it (R39, R457). -/
def cellLost (c : Chip) (ch : Nat) : Bool :=
  let b := ch / 16
  natBit (bankSt c b).retired (ch % 16) && (bankSt c b).emerg != some ch
    && !(covering c b && spareCh c b == ch % 16 && !spareRetired c b)

/-- A cell in service works for the channel: the one that serves it is not retired, or the spare that is to take it over
converts it (R450, R453). -/
def cellWorks (c : Chip) (ch : Nat) : Bool :=
  let s := bankSt c (ch / 16)
  !natBit s.retired (if onSpare c ch then 16 else ch % 16) || (s.emerg == some ch && rotPhase c (ch / 16) == 2)

/-! ## Set-up words (R376, R379) -/

/-- Output rate in S/s of a RATE code (R425). -/
def rateOf (r : Nat) : Nat :=
  ([102400, 51200, 25600, 12800, 6400, 3200, 1600, 800, 400, 200, 100, 50, 25, 10, 5, 2, 1] : List Nat).getD r 0

/-- Settle count of a FILTER code (R426). -/
def settleCount (f : Nat) : Nat := ([3, 5, 2, 0] : List Nat).getD f 0

def mdMode (m : Nat) : Nat := natBits m 0 4
def mdRange (m : Nat) : Nat := natBits m 4 2
def mdIexc (m : Nat) : Nat := natBits m 8 2
def mdChop (m : Nat) : Nat := natBits m 10 1
def mdHpf (m : Nat) : Nat := natBits m 11 1

/-- IEPE current in mA of an IEXC code. -/
def iepeMa (i : Nat) : Nat := ([2, 4, 8] : List Nat).getD i 0

/-- Sum of the IEPE currents of a bank's channels in IEPE mode, channel `ch` taken with MODE `m` (R413).

DESIGN CHOICE: a channel counts by its MODE register, also before a written change applies under R383 (log 146). -/
def iepeTotal (c : Chip) (b : Nat) (skip m : Nat) : Nat :=
  ((List.range 16).map fun k =>
    let v := if b * 16 + k = skip then m else (reg c (chBase (b * 16 + k))).toNat
    if mdMode v = 9 then iepeMa (mdIexc v) else 0).sum

/-- Register words of a channel's set-up: MODE, EXC, TSRC, LEAD, FILT. -/
structure Setup where
  md : Nat
  exc : Nat
  tsrc : Nat
  lead : Nat
  filt : Nat
  deriving DecidableEq, Repr

def setupRegs (c : Chip) (ch : Nat) : Setup :=
  { md := (reg c (chBase ch)).toNat, exc := (reg c (chBase ch + 4)).toNat, tsrc := (reg c (chBase ch + 8)).toNat,
    lead := (reg c (chBase ch + 0xC)).toNat, filt := (reg c (chBase ch + 0x1C)).toNat }

/-- Register offset of set-up register `i` in a channel's page: MODE, EXC, TSRC, LEAD, FILT. -/
def setupOff (i : Nat) : Nat := ([0x00, 0x04, 0x08, 0x0C, 0x1C] : List Nat).getD i 0

/-- TSRC is the null point, a bank temperature sensor, or another analog input not in mode TC (R379). -/
def tsrcAllowed (c : Chip) (ch p : Nat) : Bool :=
  p == 0 || (pClass p == 13 && decide (pIndex p < 8))
    || (pClass p == 2 && decide (pIndex p < 128) && pIndex p != ch
        && mdMode (reg c (chBase (pIndex p))).toNat != 6)

/-- No channel whose TSRC names the channel is left outside R379 by its mode. -/
def tsrcUsersOk (c : Chip) (ch m : Nat) : Bool :=
  m != 6 || (List.range 128).all fun k => fld c (chBase k + 8) 0 24 != anaPt ch

/-- The limits of R379 and R427 on the set-up a write would leave, for the channel and for those that name it. -/
def setupOk (c : Chip) (ch : Nat) (s : Setup) : Bool :=
  let m := mdMode s.md
  let rate := rateOf (natBits s.filt 4 5)
  let freq := natBits s.exc 0 6
  let ampl := natBits s.exc 8 5
  let phase := signed 10 (natBits s.exc 16 10)
  let swap := natBits s.lead 16 10
  let sine := decide (-450 ≤ phase) && decide (phase ≤ 450) && decide (rate ≤ (freq + 1) * 250)
  decide (m ≤ 9) && tsrcAllowed c ch (s.tsrc % 2 ^ 24) && tsrcUsersOk c ch m
    && natBits s.filt 0 2 != 3 && decide (natBits s.filt 4 5 ≤ 16)
    && (match m with
        | 2 => mdRange s.md == 0
        | 3 | 5 => mdIexc s.md != 3 && (mdChop s.md == 0 || decide (rate ≤ 1600))
        | 4 => mdIexc s.md != 3 && mdChop s.md == 0 && decide (1 ≤ swap) && decide (swap ≤ 1000)
        | 6 => decide (2 ≤ mdRange s.md) && s.tsrc % 2 ^ 24 != 0
        | 7 => ([0, 1, 3, 7] : List Nat).contains freq && decide (2 ≤ ampl) && decide (ampl ≤ 18) && sine
        | 8 => decide (ampl ≤ 18) && sine
        | 9 => decide (mdRange s.md ≤ 1) && mdIexc s.md != 3
                && decide (iepeTotal c (ch / 16) ch s.md ≤ 32)
        | _ => true)

/-! ## Coefficient sets (R466 to R470) -/

/-- Number of scan entries and the offset of an entry (R348). -/
def scanEntries (c : Chip) : Nat := tbl c 3 4 2
def entOff (i : Nat) : Nat := 0x200 + 16 * i

def entOp (c : Chip) (i : Nat) : Nat := tbl c 3 (entOff i) 1
def entTrig (c : Chip) (i : Nat) : Nat := tbl c 3 (entOff i + 1) 1
def entN (c : Chip) (i : Nat) : Nat := tbl c 3 (entOff i + 2) 1
def entPhase (c : Chip) (i : Nat) : Nat := tbl c 3 (entOff i + 4) 2
def entPoint (c : Chip) (i : Nat) : Nat := tbl c 3 (entOff i + 8) 3
def entArg (c : Chip) (i : Nat) : Nat := tbl c 3 (entOff i + 12) 4

/-- Is a scan entry unusable, so that it is skipped (R39, R129)? -/
def scanBad (c : Chip) (i : Nat) : Bool := entryBad c 3 (entOff i) 16

/-- The entry of an opcode that serves a point in the scan table in force. -/
def entryOf (c : Chip) (op p : Nat) : Option Nat :=
  (List.range (scanEntries c)).find? fun i => entOp c i == op && entPoint c i == p

/-- Coefficient set of a channel's ACQ entry. -/
def acqSet (c : Chip) (ch : Nat) : Option Nat := (entryOf c 1 (anaPt ch)).map fun i => entArg c i % 65536

def setOff (n : Nat) : Nat := 0x100 + n * 0x100

/-- Coefficient c_ij of a set of the table in force (R468). -/
def coef (c : Chip) (n i j : Nat) : Rat := qwValue (qw64Of (tbl c 4 (setOff n + 0x10 + (4 * i + j) * 8) 8))

def setUnit (c : Chip) (n : Nat) : Nat := tbl c 4 (setOff n + 2) 1
def setExp (c : Chip) (n : Nat) : Int := signed 8 (tbl c 4 (setOff n + 3) 1)
def setMask (c : Chip) (n : Nat) : Nat := tbl c 4 (setOff n + 4) 2
def setTUnit (c : Chip) (n : Nat) : Nat := tbl c 4 (setOff n + 6) 1
def setJmax (c : Chip) (n : Nat) : Nat := tbl c 4 (setOff n + 1) 1

/-- Σ c_ij × s^i × t^j over i ≤ I_MAX and j ≤ J_MAX (R469). -/
def polyValue (c : Chip) (n : Nat) (s t : Rat) : Rat :=
  ((List.range (tbl c 4 (setOff n) 1 + 1)).map fun i =>
    ((List.range (setJmax c n + 1)).map fun j => coef c n i j * s ^ i * t ^ j).sum).sum

/-- Unit and exponent that the table in force gives an analog input (R470, R1175). -/
def anaUnit (c : Chip) (ch : Nat) : Option (Nat × Int) := (acqSet c ch).map fun n => (setUnit c n, setExp c n)

/-- Unit of a point that TSRC may name, when something in force gives it one. -/
def tsrcUnit (c : Chip) (p : Nat) : Option Nat :=
  if pClass p = 13 then some 1 else (anaUnit c (pIndex p)).map fun u => u.1

/-- R382 and R475: the named point is in °C or K, and agrees with T_UNIT of the channel's set. -/
def tsrcUnitOk (c : Chip) (ch p : Nat) : Bool :=
  p == 0 || (match tsrcUnit c p with
    | none => true
    | some u => (u == 1 || u == 2)
        && (match acqSet c ch with
            | some n => setJmax c n == 0 || setTUnit c n == u
            | none => true))

/-- R382, R475 and ownership: a channel's entry reads its TSRC, so R290 must let it.

DEDUCED: a write of TSRC that would break R290 is discarded as R475 has it for units (R290, R318; log 116). -/
def tsrcFits (c : Chip) (ch p : Nat) : Bool := tsrcUnitOk c ch p && readsOk c (ownerOf c (anaPt ch)) p

/-! ## Corrections (R446, R459, R1205) -/

/-- The part of a set-up that names a calibration: mode, range, current and excitation. -/
def setupKey (md exc : Nat) : Nat := natBits md 0 10 * 2 ^ 32 + (if mdMode md = 7 ∨ mdMode md = 8 then natBits exc 0 13 else 0)

def corrKey (b cell key : Nat) : Nat := (b * 17 + cell) * 2 ^ 64 + key

/-- The cell that serves a channel: its home cell, or cell 16, the spare. -/
def servingCell (c : Chip) (ch : Nat) : Nat := if onSpare c ch then 16 else ch % 16

/-- Correction of a cell for a channel's applied set-up. -/
def corrOf (c : Chip) (ch cell : Nat) : Option Corr :=
  let a := anaSt c ch
  smGet corrDef c.corr (corrKey (ch / 16) cell (setupKey a.aMode a.aExc))

/-- The correction that a cell works with: its last one for the set-up, or the one measured at manufacture, which the
chapter does not give: it is free (R1205, R1207; log 119). -/
def corrNow (c : Chip) (ch cell : Nat) : Corr :=
  let k := ch / 16 * 17 + cell
  (corrOf c ch cell).getD { ofs := Config.factoryOfs k, gain := Config.factoryGain k, ot := 0 }

/-- (r − OFS) / (1 + GAIN × 10⁻⁶), rounded half to even (R429, R446). -/
def codeWide (k : Corr) (r : Rat) : Int := roundHE ((r - (k.ofs : Rat)) / (1 + (k.gain : Rat) / 1000000))

/-- The filter code F: the corrected result, saturated (R429). -/
def codeF (k : Corr) (r : Rat) : Int := clampInt (-(2 ^ 23 - 1)) (2 ^ 23 - 1) (codeWide k r)

/-- ACQ_CHc_CAL of a correction. -/
def calWord (k : Corr) : Nat := unsigned 16 (satInt 16 k.ofs) + unsigned 16 (satInt 16 k.gain) * 2 ^ 16

/-- ACQ_CHc_CAL, ACQ_IEPE_LOAD: computed on reading. A cell in service that keeps no correction has that of its
manufacture (R1207). -/
def acqView (c : Chip) (off : Nat) : Option Nat :=
  if 0x80000 ≤ off ∧ off < 0x100000 then
    let b := (off - 0x80000) / 0x10000
    let o := off % 0x10000
    if o = 0x14 then some (iepeTotal c b 128 0)
    else if 0x100 ≤ o ∧ o < 0x500 ∧ o % 0x40 = 0x38 then
      let ch := b * 16 + (o - 0x100) / 0x40
      some (match corrOf c ch (servingCell c ch) with
        | some k => calWord k
        | none => if afeOn c b then calWord (corrNow c ch (servingCell c ch)) else 0)
    else none
  else none

/-! ## Applying a set-up (R383, R384, R432 to R436) -/

/-- Start the settling count of R432 with the filter in force. -/
def startSettle (c : Chip) (ch : Nat) : Chip :=
  let f := (anaSt c ch).aFilt
  setFld c (chConv ch) 0 9 (min 511 (settleCount (natBits f 0 2) + natBits f 16 8))

/-- OT units of the IEPE settling of R412, rounded up. -/
def iepeSettle (md : Nat) : Nat := if mdHpf md = 0 then 1639 else 164

/-- Restart the IEPE settling period (R412). -/
def startIepe (c : Chip) (ch : Nat) : Chip :=
  let a := anaSt c ch
  if mdMode a.aMode = 9 then setAna c ch { a with iepeUntil := c.ot + iepeSettle a.aMode } else c

/-- A change other than of TSRC, LEAD_R or PHASE alone (R384). -/
def settlingChange (a : AnaSt) (s : Setup) : Bool :=
  a.aMode != s.md || natBits a.aExc 0 16 != natBits s.exc 0 16 || natBits a.aLead 16 16 != natBits s.lead 16 16
    || a.aFilt != s.filt

/-- P, the outputs of phases B and E (R439). -/
def phaseP (c : Chip) (ch : Nat) : Nat :=
  let f := (anaSt c ch).aFilt
  settleCount (natBits f 0 2) + natBits f 16 8 + 1

/-- The protection switches of a channel are open (R415). -/
def protOpen (c : Chip) (ch : Nat) : Bool := flag c (chStat ch) 1

/-- The channel delivers filter outputs: not OFF, its bank powered, the modulators running (R383). -/
def delivers (c : Chip) (ch : Nat) : Bool :=
  mdMode (anaSt c ch).aMode != 0 && afeOn c (ch / 16) && c.pwr.modulators

/-- The channel's front end works: not OFF, its bank powered, and a cell in service for it (R377, R378, R450). -/
def powered (c : Chip) (ch : Nat) : Bool := mdMode (anaSt c ch).aMode != 0 && afeOn c (ch / 16) && cellWorks c ch

/-- The node measures the channel's balls: its front end works, and no protection switch is open (R417). -/
def measures (c : Chip) (ch : Nat) : Bool := powered c ch && !protOpen c ch

/-- The output is a settling sample under R432, R397 or R412 (R436). -/
def settling (c : Chip) (ch : Nat) : Bool :=
  let a := anaSt c ch
  decide (0 < settleLeft c ch) || (mdMode a.aMode == 4 && !(a.got1 && a.got2))
    || (mdMode a.aMode == 9 && decide (c.ot < a.iepeUntil))

/-- CAL_AGED of one channel (R460). -/
def chAged (c : Chip) (ch : Nat) : Bool :=
  match corrOf c ch (servingCell c ch) with
  | some k => decide (fld c (bankBase (ch / 16) + 0xC) 0 16 * (1024 * 3600) < c.ot - k.ot)
  | none => false

/-- Does rotation run in the bank (R458)? -/
def rotationRuns (c : Chip) (b : Nat) : Bool :=
  afeOn c b && flag c (bankBase b) 0 && !covering c b && !spareRetired c b
    && nodeMode c != mSentry && nodeMode c != mTest

/-- HO_DIFF: incoming code less outgoing code, 24 bits (R444). -/
def loadHo (c : Chip) (ch : Nat) (d : Int) : Chip :=
  setFld c (chBase ch + 0x34) 0 24 (unsigned 24 (satInt 24 d))

/-- The channel that a bank's step works on: the channel being moved in an emergency, else step k. -/
def stepCh (c : Chip) (b : Nat) : Nat :=
  match (bankSt c b).emerg with
  | some ch => if rotPhase c b = 1 ∨ rotPhase c b = 2 then ch else b * 16 + rotStep c b
  | none => b * 16 + rotStep c b

/-- Step k has lasted longer than PERIOD × 10 ms (R441). -/
def stepLong (c : Chip) (b : Nat) : Bool :=
  decide ((bankSt c b).stepOt + window10ms (fld c (bankBase b) 16 16) < c.ot)

/-- Begin a step: phase A, phase D of a channel in OFF (R442), or the base check (R440). -/
def beginStep (c : Chip) (b k : Nat) : Chip :=
  let c1 := setFld c (rotStat b) 0 5 k
  let c2 := modBank c1 b fun s => { s with
    stepOt := c.ot, retry := false, left := 0, base := 0, wait := false, calDone := false, toneWait := false, stepDue := none }
  if k = 16 then setPhase c2 b 5
  else if mdMode (anaSt c (b * 16 + k)).aMode = 0 then setPhase c2 b 3
  else setPhase c2 b 1

/-- The bank's blanking interval runs (R360). -/
def blanked (c : Chip) (b : Nat) : Bool := flag c 0x40028 b

/-- The next output of the channel is discarded: its input window holds a blanked bit (R361). -/
def discards (c : Chip) (ch : Nat) : Bool := blanked c (ch / 16) || decide (0 < (anaSt c ch).tail)

/-- Outputs of the bank are being discarded (R363). -/
def discarding (c : Chip) (b : Nat) : Bool := (List.range 16).any fun k => delivers c (b * 16 + k) && discards c (b * 16 + k)

/-- SEQ_BLANK_STAT: ACTIVE while outputs of the bank are discarded, after the interval too (R361). -/
def blankView (c : Chip) (off : Nat) : Option Nat :=
  if off = 0x40028 then
    some ((reg c off).toNat ||| ((List.range 8).map fun b => if discarding c b then 2 ^ b else 0).sum)
  else none

/-- A step falls due: it begins, or waits for the first output that is not discarded (R363). -/
def stepFallsDue (c : Chip) (b k : Nat) : Chip :=
  if discarding c b then modBank (setPhase c b 0) b fun s => { s with stepDue := some k } else beginStep c b k

/-- The step after the one in progress. -/
def nextStep (c : Chip) (b : Nat) : Nat := if rotStep c b = 16 then 0 else rotStep c b + 1

/-- End of phases A to F or of the base check: phase G, or the next step when it is already long (R441). -/
def endWork (c0 : Chip) (b : Nat) : Chip :=
  let c := modBank c0 b fun s => { s with wait := false, calDone := false }
  if stepLong c b then stepFallsDue (countFld c (rotStat b) 16 8) b (nextStep c b) else setPhase c b 0

/-- Rotation stops (R449, R456, R458). -/
def stopRotation (c : Chip) (b : Nat) : Chip :=
  setPhase (modBank c b fun s => { s with wait := false, calDone := false, toneWait := false, stepDue := none }) b 6

/-- Begin to move a channel to the spare after its cell failed (R453). -/
def beginEmergency (c : Chip) (b ch : Nat) : Chip :=
  modBank (setPhase c b 1) b fun s => { s with
    emerg := some ch, retry := false, left := 0, wait := false, calDone := false, toneWait := false, stepDue := none }

/-- CAL_AGED ends for a channel whose serving cell has a correction of less than AGE_MAX (R460). -/
def freshCal (c : Chip) (ch : Nat) : Chip := if chAged c ch then c else setFlag c (chConv ch) 15 false

/-- The channel's words no longer carry SPARE_CELL (R1202). -/
def dropSpareFlag (c : Chip) (ch : Nat) : Chip :=
  let e := point c (anaPt ch)
  if e.subst then c else setPoint c (anaPt ch) { e with flags := e.flags - (e.flags &&& flSpare) }

/-- The channel is on its home cell again (R443). -/
def toHome (c : Chip) (ch : Nat) : Chip := freshCal (setFlag c (chConv ch) 9 false) ch

/-- A failure that no spare can mask (R39, R457). -/
def cellLostReport (c : Chip) (ch : Nat) : Chip := postPointFault c 0x24 (anaPt ch) 0 true

/-- The channel whose spare has failed is on its home cell, with settling samples; the spare is retired and rotation
stops. A channel that waited for the spare is lost (R457, R1203). -/
def spareGone (c : Chip) (b : Nat) : Chip :=
  match (bankSt c b).back with
  | none => c
  | some (ch, detail) =>
    let c1 := startSettle (toHome (modBank c b fun s => { s with back := none, emerg := none }) ch) ch
    let c2 := postErrorRec (stopRotation (setFlag c1 (rotStat b) 13 true) b) 0x22 (anaPt ch) detail
    match (bankSt c b).emerg with
    | some e => cellLostReport c2 e
    | none => c2

/-- The step in progress meets a set-up change of its channel (R462, R463, R1201, R1202). -/
def rotationMeetsChange (c0 : Chip) (ch : Nat) (toOff : Bool) : Chip :=
  let b := ch / 16
  let c := if toOff && (bankSt c0 b).back.map Prod.fst == some ch then spareGone c0 b else c0
  let ph := rotPhase c b
  let later := settling c ch && !toOff
  let again := fun (s : BankSt) => { s with retry := false, left := 0, wait := later, calDone := false, toneWait := false }
  if stepCh c b ≠ ch ∨ (bankSt c b).back.isSome = true then c
  else if (bankSt c b).emerg = some ch then
    -- R1201: phase A of the move begins again
    if ph = 1 ∨ ph = 2 then beginEmergency c b ch else c
  else if ph = 1 ∨ ph = 2 ∨ (ph = 0 ∧ (bankSt c b).wait = true) then
    -- R462: the step begins again once the settling samples have ended; a channel in OFF has none
    if !rotationRuns c b then stopRotation c b
    else if later then modBank (setPhase c b 0) b again
    else stepFallsDue (modBank c b again) b (rotStep c b)
  else if ph = 3 ∨ ph = 4 then
    if toOff && !covering c b then
      -- R1202: the hand-back takes place; the step continues as R442, or the move that waits for it begins
      let c1 := dropSpareFlag (toHome c ch) ch
      match (bankSt c b).emerg with
      | some e => beginEmergency c1 b e
      | none => modBank (setPhase c1 b 3) b again
    else modBank (setPhase c b 3) b again
  else c

/-- Flags that a mode has no use for are 0: the bias flags outside IEPE (R410), EXC_LIMIT without an excitation (R415),
QUAD outside the sine modes (R405). -/
def clearUnused (c : Chip) (ch m : Nat) : Chip :=
  let c1 := if m = 9 then c else setFlag (setFlag c (chStat ch) 5 false) (chStat ch) 6 false
  let c2 := if m = 3 ∨ m = 4 ∨ m = 5 ∨ 7 ≤ m then c1 else setFlag c1 (chStat ch) 3 false
  if m = 7 ∨ m = 8 then c2 else setFld c2 (chBase ch + 0x18) 0 24 0

/-- The set-up applied is the one that the registers hold. -/
def setupSame (a : AnaSt) (s : Setup) : Bool :=
  a.aMode == s.md && a.aExc == s.exc && a.aTsrc == s.tsrc && a.aLead == s.lead && a.aFilt == s.filt

/-- The checks a mode gives the test tone: loop and insulation (R481). -/
def toneChecks (md : Nat) : Bool × Bool :=
  match mdMode md with
  | 1 => (mdRange md != 0, true)
  | 2 | 3 | 4 => (false, true)
  | 5 | 6 => (true, true)
  | _ => (false, false)

/-- A test tone ends. Phase B of its channel's step, if it waited for that, begins (R445). -/
def endTone (c : Chip) (ch : Nat) : Chip :=
  let b := ch / 16
  let c1 := modAna c ch fun a => { a with tone := false, toneDue := false }
  if (bankSt c1 b).toneWait && stepCh c1 b == ch then
    modBank (setPhase c1 b 2) b fun s => { s with toneWait := false, left := phaseP c1 ch }
  else c1

/-- A cell that is retired under a channel drives nothing: the channel's source is at no limit, its test tone ends (R450). -/
def cellOut (c : Chip) (ch : Nat) : Chip := endTone (setFlag c (chStat ch) 3 false) ch

/-- Apply the set-up that the registers of a channel hold. A change to a mode without test-tone checks ends one
(R377, R481). -/
def applySetup (c0 : Chip) (ch : Nat) : Chip :=
  let a := anaSt c0 ch
  let s := setupRegs c0 ch
  let c := clearUnused c0 ch (mdMode s.md)
  let off := mdMode s.md == 0
  let a1 := { a with aMode := s.md, aExc := s.exc, aTsrc := s.tsrc, aLead := s.lead, aFilt := s.filt, change := false }
  let c1 :=
    if settlingChange a s then
      startIepe (startSettle (setAna c ch { a1 with phaseB := false, got1 := false, got2 := false, toned := a.tone }) ch) ch
    else setAna c ch a1
  let c2 := if setupSame a s then c1 else rotationMeetsChange (freshCal c1 ch) ch off
  if (toneChecks s.md).2 then c2 else endTone c2 ch

/-- Reject a set-up write, the whole of it (R380): its registers keep their values, CFG_REJ and ACQ_CONFIG. -/
def acqReject (c : Chip) (w : WriteCtx) (ch : Nat) : Chip :=
  postError (setFlag (unwrite c w) (chStat ch) 0 true) 0x20 (anaPt ch) (w.off % 0x10000)

/-- Channel of a register in an ACQ channel page. -/
def chOfOff (off : Nat) : Nat := (off / 0x10000 - 8) * 16 + (off % 0x10000 - 0x100) / 0x40

/-- A set-up register names a reserved code: MODE, FILTER or RATE, or IEXC (R195). -/
def reservedCode (off v : Nat) : Bool :=
  match off % 0x40 with
  | 0x00 => decide (9 < mdMode v) || mdIexc v == 3
  | 0x1C => natBits v 0 2 == 3 || decide (16 < natBits v 4 5)
  | _ => false

/-- A reserved IEXC in a mode without IEXC leaves the field as it was (R195); R379 judges it in the others. -/
def keepIexc (c : Chip) (w : WriteCtx) : Chip :=
  let v := (reg c w.off).toNat
  if w.off % 0x40 = 0 ∧ mdIexc v = 3 ∧ [3, 4, 5, 9].contains (mdMode v) = false then
    setFld c w.off 8 2 (natBits w.old.toNat 8 2)
  else c

/-- After a write of a set-up register: checked under R379, R382 and R475, then scheduled (R383). A reserved code is
reported as one (R195).

DEDUCED: R379 and R427 name the reserved codes of MODE, FILTER and RATE among their limits, so a write with one is
discarded whole under R380, which R195 alone would not do (log 94). -/
def hookSetup : Hook := fun w c0 =>
  let ch := chOfOff w.off
  let rsv := reservedCode w.off (reg c0 w.off).toNat
  let c := keepIexc c0 w
  let s := setupRegs c ch
  let tsrcWrite := w.off % 0x40 == 0x08
  let c1 :=
    if !setupOk c ch s || (tsrcWrite && !tsrcFits c ch (s.tsrc % 2 ^ 24)) then acqReject c w ch
    else if delivers c ch then modAna c ch fun a => { a with change := true }
    else applySetup c ch
  if rsv then postError c1 0x02 (srcFn w.fn) w.off else c1

/-- R492: CM_LO must not exceed CM_HI. -/
def hookCmwin : Hook := fun w c =>
  let v := (reg c w.off).toNat
  if signed 16 (natBits v 16 16) < signed 16 (natBits v 0 16) then acqReject c w (chOfOff w.off) else c

/-- ACQ_SETUP_WRITE (R379). -/
def acqSetupWrite (c : Chip) (fn : Fn) (ch : Nat) (i : Nat) (v : Word) (be : BitVec 4) : Chip :=
  writeWord hookSetup c fn (chBase ch + setupOff i) v be

/-! ## A filter output (ACQ) -/

/-- Step of s for one code (R430). -/
def stepS (md : Nat) : Rat :=
  match mdMode md with
  | 1 | 9 => ([2 / 1000000, 2 / 10000000, 2 / 100000000, 4 / 1000000000] : List Rat).getD (mdRange md) 0
  | 6 => if mdRange md = 2 then 2 / 100000 else 4 / 1000000
  | 2 => 4 / 1000000
  | 3 | 4 | 5 => ([2 / 1000, 1 / 1000, 1 / 2000] : List Rat).getD (mdIexc md) 0
  | 7 => 2 / 1000000
  | 8 => 2 / 10000000
  | _ => 0

/-- Span of s before OVER (R386, R388, R389); none in the sine modes. -/
def spanS (md : Nat) : Option (Rat × Rat) :=
  match mdMode md with
  | 1 | 9 =>
    let v : Rat := ([105 / 10, 105 / 100, 105 / 1000, 21 / 1000] : List Rat).getD (mdRange md) 0
    some (-v, v)
  | 6 => let v : Rat := if mdRange md = 2 then 105 else 21
         some (-v, v)
  | 2 => some (-1, 25)
  | 3 | 4 | 5 => some (0, ([10000, 5000, 2500] : List Rat).getD (mdIexc md) 0)
  | _ => none

/-- Clamp s to its span (R387): the value and whether it lay beyond. -/
def clampSpan (md : Nat) (s : Rat) : Rat × Bool :=
  match spanS md with
  | some (lo, hi) => if s < lo then (lo, true) else if hi < s then (hi, true) else (s, false)
  | none => (s, false)

/-- s after lead compensation: RTD2 subtracts LEAD_R (R391), RTD3 the mean of the leads (R396). -/
def leadComp (c : Chip) (ch : Nat) (s : Rat) : Rat :=
  let a := anaSt c ch
  match mdMode a.aMode with
  | 3 => s - ((natBits a.aLead 0 16 : Nat) : Rat) / 1000
  | 4 => s - ((fld c (chBase ch + 0x14) 0 16 + fld c (chBase ch + 0x14) 16 16 : Nat) : Rat) / 2000
  | _ => s

/-- s as it is delivered, and whether it lay beyond its span (R387). RTD2 clamps the resistance measured before LEAD_R
is subtracted (R391); RTD3 takes the leads off first, as its s is the resistance without them (R376, R396). -/
def deliveredS (c : Chip) (ch : Nat) (s : Rat) : Rat × Bool :=
  let md := (anaSt c ch).aMode
  if mdMode md = 4 then clampSpan md (leadComp c ch s)
  else
    let (x, beyond) := clampSpan md s
    (leadComp c ch x, beyond)

/-- A fault flag of the channel is set: protection, shunt, IEPE bias or a sensor check (R411, R415, R488). -/
def chFault (c : Chip) (ch : Nat) : Bool :=
  let st := (reg c (chStat ch)).toNat
  let cv := (reg c (chConv ch)).toNat
  natBit st 1 || natBit st 2 || natBit st 5 || natBit st 6 || natBit cv 10 || natBit cv 11 || natBit cv 12

/-- Companion flags of s. -/
def flagsS (c : Chip) (ch : Nat) (beyond : Bool) : Nat :=
  let md := mdMode (anaSt c ch).aMode
  let rtdLimit := (md == 3 || md == 4 || md == 5) && flag c (chStat ch) 3
  (if settling c ch then flSettling else 0) ||| (if beyond || rtdLimit then flOver else 0)
    ||| (if onSpare c ch then flSpare else 0) ||| (if chFault c ch then flFault else 0)

/-- Quality that conditions without a flag force: lead mismatch, falling insulation, an aged or absent
correction, a limited sine drive (R398, R406, R460, R489, R1207). -/
def condQual (c : Chip) (ch : Nat) : Nat :=
  let md := mdMode (anaSt c ch).aMode
  let cv := (reg c (chConv ch)).toNat
  if (md == 4 && flag c (chStat ch) 4) || (natBit cv 13 && !natBit cv 12) || natBit cv 15
      || ((md == 7 || md == 8) && flag c (chStat ch) 3) || (corrOf c ch (servingCell c ch)).isNone then 1 else 0

/-- The temperature t of a channel and the quality it brings (R385, R471). -/
def tempOf (c : Chip) (ch : Nat) : Rat × Nat :=
  let p := (anaSt c ch).aTsrc % 2 ^ 24
  if p = 0 then (0, 0) else (qwValue (liveQw c p), (liveQw c p).qual)

/-- QUAD in µV/V (BRIDGE) or 10⁻⁶ (CARRIER) (R405, R1199). -/
def loadQuad (c : Chip) (ch : Nat) (q : Rat) : Chip :=
  let md := (anaSt c ch).aMode
  let x : Rat := if mdMode md = 7 then q * stepS md * 1000 else if mdMode md = 8 then q * stepS md * 1000000 else 0
  setFld c (chBase ch + 0x18) 0 24 (unsigned 24 (satInt 24 (roundHE x)))

/-- The lineariser writes the live word (R469 to R472). -/
def linearise (c : Chip) (ch set : Nat) (raw : Rat) : Chip :=
  let a := anaSt c ch
  let k := corrNow c ch (servingCell c ch)
  let f := codeF k raw
  let (s, beyond) := deliveredS c ch ((f : Rat) * stepS a.aMode)
  -- R65, with R429: a code that is saturated is a value beyond its range
  let fl := flagsS c ch (beyond || codeWide k raw != f)
  if cellLost c ch then writeBad c (anaPt ch) fl
  else if entryBad c 4 (setOff set) 0x100 then writeHeld c (anaPt ch) fl
  else if !natBit (setMask c set) (mdMode a.aMode) then writeBad (setFlag c (chConv ch) 14 true) (anaPt ch) fl
  else
    let (t, tq) := tempOf c ch
    let c1 := setFlag c (chConv ch) 14 false
    writeValue c1 (anaPt ch) (polyValue c1 set s t) (setExp c1 set) (setUnit c1 set) (worst (condQual c1 ch) tq) fl

/-- Phase E begins, or waits for the end of its channel's settling samples (R438, R463). -/
def phaseE (c : Chip) (ch : Nat) : Chip :=
  let b := ch / 16
  if (bankSt c b).wait then modBank c b fun s => { s with calDone := true }
  else modBank (setPhase c b 4) b fun s => { s with left := phaseP c ch, calDone := false }

/-- One settling sample less (R432). With the last one the step that waited for it goes on: it begins again, or its
phase E begins (R462, R463). -/
def countSettle (c : Chip) (ch : Nat) : Chip :=
  let b := ch / 16
  let c1 := setFld c (chConv ch) 0 9 (settleLeft c ch - 1)
  if (bankSt c1 b).wait && stepCh c1 b == ch && !settling c1 ch then
    if rotPhase c1 b = 0 then (if rotationRuns c1 b then stepFallsDue c1 b (rotStep c1 b) else stopRotation c1 b)
    else
      let c2 := modBank c1 b fun s => { s with wait := false }
      if (bankSt c b).calDone then phaseE c2 ch else c2
  else c1

/-- The spare takes a channel over at a filter output (R438 phase C, R443, R444). -/
def takeOver (c : Chip) (ch : Nat) (diff : Int) : Chip :=
  let b := ch / 16
  let c1 := freshCal (loadHo (setFld (setFlag c (chConv ch) 9 true) (rotStat b) 8 4 (ch % 16)) ch diff) ch
  if (bankSt c b).emerg = some ch then
    let c2 := countFld (setCover c1 ch) (rotStat b) 24 8
    stopRotation (modBank c2 b fun s => { s with emerg := none }) b
  else setPhase c1 b 3

/-- The home cell takes its channel back at a filter output (R438 phase F). -/
def handBack (c : Chip) (ch : Nat) : Chip :=
  let b := ch / 16
  let c1 := toHome c ch
  match (bankSt c b).emerg with
  | some e => beginEmergency c1 b e
  | none => if rotationRuns c1 b then endWork c1 b else stopRotation c1 b

/-- Count an output of phases B and E of the step's channel; at the last one the channel changes cell. -/
def countPhase (c : Chip) (ch : Nat) (raw beside : Rat) : Chip :=
  let b := ch / 16
  let ph := rotPhase c b
  if stepCh c b ≠ ch ∨ (ph ≠ 2 ∧ ph ≠ 4) ∨ (bankSt c b).wait = true then c
  else
    let n := (bankSt c b).left - 1
    if 0 < n then modBank c b fun s => { s with left := n }
    else
      if ph = 2 then takeOver c ch (codeF (corrNow c ch 16) beside - codeF (corrNow c ch (ch % 16)) raw) else handBack c ch

/-- Apply an accepted change after this output (R383). -/
def applyIfChanged (c : Chip) (ch : Nat) : Chip := if (anaSt c ch).change then applySetup c ch else c

/-- The cell that serves the channel has failed, and neither the take-over nor the return to its home cell has come
(R455, R1203). -/
def heldByFailure (c : Chip) (ch : Nat) : Bool :=
  let s := bankSt c (ch / 16)
  natBit s.retired (servingCell c ch) && (s.emerg == some ch || s.back.map Prod.fst == some ch)

/-- Flags that a channel's words carry whatever they repeat: its fault and its spare cell (R38, R411, R415, R488). -/
def flagsKept (c : Chip) (ch : Nat) : Nat :=
  (if onSpare c ch then flSpare else 0) ||| (if chFault c ch then flFault else 0)

/-- What the channel's ACQ entry does with an output: an entry that cannot be used leaves its point held (R39, R359, R362,
R455, R469). -/
def acqWrite (c : Chip) (ch : Nat) (raw : Rat) : Chip :=
  match entryOf c 1 (anaPt ch) with
  | none => c
  | some i =>
    if discards c ch then
      (if cellLost c ch then writeBad c (anaPt ch) (flBlanked ||| flagsKept c ch)
       else writeHeld c (anaPt ch) (flBlanked ||| flagsKept c ch))
    else if heldByFailure c ch || (scanBad c i && !cellLost c ch) then writeHeld c (anaPt ch) (flagsKept c ch)
    else linearise c ch (entArg c i % 65536) raw

/-- π to 30 places. -/
def piRat : Rat := 3141592653589793238462643383280 / 10 ^ 30

/-- 1 − x² / ((i+1)(i+2)) × (1 − x² / ((i+3)(i+4)) × …), to `n` factors, of x². -/
def cosineSeries (x2 : Rat) : Nat → Nat → Rat
  | 0, _ => 1
  | n + 1, i => 1 - x2 / (((i + 1) * (i + 2) : Nat) : Rat) * cosineSeries x2 n (i + 2)

/-- An angle of tenths of a degree, in radians. -/
def radians (p : Int) : Rat := (p : Rat) * piRat / 1800

/-- Sine and cosine of an angle in 0.1° within ±45°.

DESIGN CHOICE: they are the first thirteen terms of their series, which differ from the true values by less than 10⁻²⁵
(log 95). -/
def cosTenth (p : Int) : Rat := cosineSeries (radians p * radians p) 12 0
def sinTenth (p : Int) : Rat := radians p * cosineSeries (radians p * radians p) 12 1

/-- A signal of one frequency: its components in phase with the bank's phase counter and lagging it by a quarter
period (R400). -/
structure Phasor where
  re : Rat
  lag : Rat
  deriving DecidableEq, Repr

def phasor (w : Wave) : Phasor := ⟨exactVal w.along, exactVal w.lag⟩

/-- Synchronous demodulation (R402 to R404, R1199): the sense signal over the amplitude of the excitation measured at the
balls, in phase with the reference and in quadrature to it; the reference is the measured excitation delayed by
PHASE × 0.1°. -/
def demod (exc : Nat) (sense drive : Phasor) : Rat × Rat :=
  let n := drive.re * drive.re + drive.lag * drive.lag
  let x := (sense.re * drive.re + sense.lag * drive.lag) / n
  let y := (sense.lag * drive.re - sense.re * drive.lag) / n
  let p := signed 10 (natBits exc 16 10)
  (x * cosTenth p + y * sinTenth p, y * cosTenth p - x * sinTenth p)

/-- Does the channel work in a sine mode? -/
def sineMode (c : Chip) (ch : Nat) : Bool := mdMode (anaSt c ch).aMode == 7 || mdMode (anaSt c ch).aMode == 8

/-- The ratio of a sense signal to an excitation of no amplitude is not stated: it is free, and so is its
quadrature (log 96). -/
def ratioFree (c : Chip) (ch : Nat) (drive : Phasor) : Bool := sineMode c ch && drive.re == 0 && drive.lag == 0

/-- The filter's result in codes, and QUAD's: of the signal itself, or demodulated in a sine mode. -/
def filterResult (c : Chip) (ch : Nat) (sense drive : Phasor) : Rat × Rat :=
  if ratioFree c ch drive then ((Config.freeValue c.free : Rat), (Config.freeValue (c.free + 1) : Rat))
  else if sineMode c ch then demod (anaSt c ch).aExc sense drive
  else (sense.re, 0)

/-- One output less of those whose window holds blanked bits. -/
def lessTail (c : Chip) (ch : Nat) : Chip :=
  if blanked c (ch / 16) then c else modAna c ch fun a => { a with tail := a.tail - 1 }

/-- Phases B to F of a step of the channel are in progress (R445). -/
def stepBusy (c : Chip) (ch : Nat) : Bool :=
  let b := ch / 16
  stepCh c b == ch && decide (2 ≤ rotPhase c b) && decide (rotPhase c b ≤ 4)

/-- A test-tone check may run: TONE_EN is 1, the channel works, and its mode has one (R481). -/
def toneRuns (c : Chip) (ch : Nat) : Bool :=
  flag c (chBase ch + 0x24) 1 && delivers c ch && measures c ch && (toneChecks (anaSt c ch).aMode).2

/-- A test-tone check begins. -/
def beginTone (c : Chip) (ch : Nat) : Chip := modAna c ch fun a => { a with tone := true, toneDue := false, toned := true }

/-- What fell due while outputs were discarded, or while the other of tone and step ran, begins with an output that is not
discarded (R363, R445). -/
def startDue (c : Chip) (ch : Nat) : Chip :=
  let b := ch / 16
  let c1 := match (bankSt c b).stepDue with
    | some k => if rotationRuns c b then beginStep c b k else stopRotation c b
    | none => c
  if (anaSt c1 ch).toneDue && !stepBusy c1 ch then
    (if toneRuns c1 ch then beginTone c1 ch else modAna c1 ch fun a => { a with toneDue := false })
  else c1

/-- The counts of an output: settling, rotation, discarding; then what waited for it. -/
def countOutput (c0 : Chip) (ch : Nat) (raw beside : Rat) : Chip :=
  let c := if (bankSt c0 (ch / 16)).back.map Prod.fst = some ch then spareGone c0 (ch / 16) else c0
  let c1 := if onSpare c ch != onSpare c0 ch then c else countSettle (countPhase c ch raw beside) ch
  if discards c ch then lessTail c1 ch else startDue c1 ch

/-- A filter output of a channel: QUAD, its entry while the tables run, the counts, then an accepted change (R346, R383,
R405). -/
def acqOutput (c : Chip) (ch : Nat) (sense drive : Phasor) (beside : Rat) : Chip :=
  if delivers c ch then
    let r := filterResult c ch sense drive
    let c0 := if ratioFree c ch drive then takeFree (takeFree c) else c
    let c1 := loadQuad c0 ch r.2
    let c2 := if tablesRun c then acqWrite c1 ch r.1 else c1
    applyIfChanged (countOutput c2 ch r.1 beside) ch
  else c

/-- A blanking interval of a bank ends: the outputs whose input window still holds its bits are discarded too (R361).

DEDUCED: the window of a filter is as long as its settle count of output periods (R426; log 97). -/
def endBlank (c : Chip) (b : Nat) : Chip :=
  (List.range 16).foldl (fun c k =>
    let ch := b * 16 + k
    if delivers c ch then modAna c ch fun a => { a with tail := settleCount (natBits a.aFilt 0 2) } else c)
    (setFlag c 0x40028 b false)

/-! ## Excitation, leads and bias -/

/-- RTD3_PHASE_CHANGE: the lead measured in the phase is loaded (R393 to R398, R490). While the protection switches are open
there is no excitation to swap and no lead to measure (R415, R417). -/
def rtd3PhaseChange (c : Chip) (ch lead : Nat) : Chip :=
  let a := anaSt c ch
  if mdMode a.aMode ≠ 4 ∨ !delivers c ch ∨ !measures c ch then c
  else
    let lo := if a.phaseB then 16 else 0
    let c1 := if a.toned then c else setFld c (chBase ch + 0x14) lo 16 (min 65535 lead)
    let c2 := setAna c1 ch { a with
      phaseB := !a.phaseB
      toned := a.tone
      got1 := a.got1 || (!a.phaseB && !a.toned)
      got2 := a.got2 || (a.phaseB && !a.toned) }
    let l1 := fld c2 (chBase ch + 0x14) 0 16
    let l2 := fld c2 (chBase ch + 0x14) 16 16
    setFlag c2 (chStat ch) 4 (decide (8000 + (l1 + l2) < 40 * (max l1 l2 - min l1 l2)))

/-- IEPE_BIAS_CHECK (R410 to R412): the 100 ms average in mV. -/
def iepeBiasCheck (c : Chip) (ch bias : Nat) : Chip :=
  if mdMode (anaSt c ch).aMode ≠ 9 ∨ !measures c ch then c
  else
    let open_ := decide (23000 < bias)
    let short := decide (bias < 1000)
    let clears := (flag c (chStat ch) 5 && !open_) || (flag c (chStat ch) 6 && !short)
    let c1 := setFlag (setFlag c (chStat ch) 5 open_) (chStat ch) 6 short
    if clears then startIepe c1 ch else c1

/-- The mode has an excitation source (R389, R407). -/
def hasSource (md : Nat) : Bool := ([3, 4, 5, 7, 8, 9] : List Nat).contains (mdMode md)

/-- EXCITATION_LIMIT (R390, R406, R415): the source that a channel drives reaches its limit, or the forcing ends. -/
def excitationLimit (c : Chip) (ch : Nat) (limited : Bool) : Chip :=
  if limited && !(measures c ch && hasSource (anaSt c ch).aMode) then c else setFlag c (chStat ch) 3 limited

/-- Report of a protection event (R415): ACQ_PROT, FAULT event to the owner, PROT_COUNT. -/
def protReport (c : Chip) (ch detail : Nat) : Chip :=
  postPointFault (countFld c (chStat ch) 16 16) 0x25 (anaPt ch) detail false

/-- PROTECTION_OPEN (R415): the excitation stops, so no source is at its limit, and a test tone ends without a result (R417). -/
def protectionOpen (c : Chip) (ch : Nat) : Chip :=
  let md := mdMode (anaSt c ch).aMode
  if powered c ch && md != 2 && !flag c (chStat ch) 1 then
    protReport (setFlag (cellOut c ch) (chStat ch) 1 true) ch 0
  else c

/-- PROTECTION_END: the channel restarts with settling samples (R415, R433). -/
def protectionEnd (c : Chip) (ch : Nat) : Chip :=
  if flag c (chStat ch) 1 then startIepe (startSettle (setFlag c (chStat ch) 1 false) ch) ch else c

/-- SHUNT_OPEN (R415). -/
def shuntOpen (c : Chip) (ch : Nat) : Chip :=
  if powered c ch && mdMode (anaSt c ch).aMode == 2 && !flag c (chStat ch) 2 then
    protReport (setFlag c (chStat ch) 2 true) ch 1
  else c

/-- SHUNT_RECONNECT_TEST (R416): a failing test is another occurrence of the fault. Without its bank's power the cell
tests nothing (R127, R378), nor does a retired one (R450). -/
def shuntReconnectTest (c : Chip) (ch : Nat) (ok : Bool) : Chip :=
  if flag c (chStat ch) 2 && afeOn c (ch / 16) && cellWorks c ch then
    if ok then setFlag c (chStat ch) 2 false else protReport c ch 1
  else c

/-! ## Sensor fault checks (R478 to R491) -/

/-- A check flag sets: FAULT_COUNT, error FIFO entry and FAULT event to the owner (R491). -/
def sensorFault (c : Chip) (ch : Nat) : Chip :=
  let cv := (reg c (chConv ch)).toNat
  postPointFault (countFld c (chConv ch) 16 16) 0x26 (anaPt ch) (natBits cv 10 3) false

/-- Load a check flag; when it sets, report it. -/
def setCheck (c : Chip) (ch i : Nat) (b : Bool) : Chip :=
  let was := flag c (chConv ch) i
  let c1 := setFlag c (chConv ch) i b
  if b && !was then sensorFault c1 ch else c1

/-- Twice the common-mode voltage in µV: the sum of the two balls that the mode measures (R478). -/
def cmTwice (md : Nat) (v : BallVolts) : Int :=
  match mdMode md with
  | 3 | 4 | 9 => v.exa + v.exb
  | _ => v.sna + v.snb

/-- CM_CHECK: one common-mode measurement against CM_LO × 10 mV to CM_HI × 10 mV (R478 to R480). A cell that does not
work for its channel measures no ball (R450), nor one whose protection switches are open (R417). -/
def cmCheck (c : Chip) (ch : Nat) (v : BallVolts) : Chip :=
  if !flag c (chBase ch + 0x24) 0 || !delivers c ch || !measures c ch then c
  else
    let w := (reg c (chBase ch + 0x20)).toNat
    let n := fld c (chBase ch + 0x24) 16 8
    let both := cmTwice (anaSt c ch).aMode v
    let outside := decide (both < signed 16 (natBits w 0 16) * 20000) || decide (signed 16 (natBits w 16 16) * 20000 < both)
    let a := anaSt c ch
    if outside then
      let c1 := setAna c ch { a with cmOut := min 255 (a.cmOut + 1), cmIn := 0 }
      if n ≤ a.cmOut + 1 then setCheck c1 ch 10 true else c1
    else
      let c1 := setAna c ch { a with cmOut := 0, cmIn := min 255 (a.cmIn + 1) }
      if n ≤ a.cmIn + 1 then setCheck c1 ch 10 false else c1

/-- TEST_TONE_START: the check begins, or waits for blanking or the channel's step to end (R363, R445, R481).

DESIGN CHOICE: a tone waits while outputs of its own channel are discarded, a rotation step while outputs of any channel of
its bank are; R363 says only "outputs" (log 143). -/
def testToneStart (c : Chip) (ch : Nat) : Chip :=
  if toneRuns c ch then
    if discards c ch || stepBusy c ch then modAna c ch fun a => { a with toneDue := true } else beginTone c ch
  else c

/-- TEST_TONE_END: results in Ω, of the insulation the lower; OPEN, INS_FAULT and INS_WARN are judged. A check that measures no loop resistance finds
none above OPEN_LIM (R484 to R487). -/
def testToneEnd (c : Chip) (ch loopR : Nat) (both : Insulation) : Chip :=
  if !(anaSt c ch).tone || !measures c ch then c
  else
    let ins := min both.sna both.snb
    let (lp, is) := toneChecks (anaSt c ch).aMode
    let c1 := endTone c ch
    let c2 := if lp then setFld c1 (chBase ch + 0x2C) 0 16 (min 65535 loopR) else c1
    let c3 := if is then setFld c2 (chBase ch + 0x2C) 16 16 (min 65535 (ins / 10000)) else c2
    let lim := (reg c (chBase ch + 0x28)).toNat
    let c4 := setCheck c3 ch 11 (lp && decide (natBits lim 0 8 * 200 < loopR))
    if is then
      let c5 := setCheck c4 ch 12 (decide (ins < natBits lim 8 8 * 100000))
      setFlag c5 (chConv ch) 13 (decide (ins < natBits lim 16 8 * 1000000))
    else c4

/-! ## Rotation, calibration and cell failures (R437 to R461) -/

/-- ROTATION_PHASE_END: phase G ends and the next step falls due (R363, R438). Neither a step that waits for its channel
to settle nor one that waits for blanking to end has a phase G. -/
def rotationPhaseEnd (c : Chip) (b : Nat) : Chip :=
  if rotPhase c b = 0 ∧ rotationRuns c b = true ∧ (bankSt c b).wait = false
      ∧ ((bankSt c b).stepDue = none ∨ discarding c b = false) then
    stepFallsDue c b ((bankSt c b).stepDue.getD (nextStep c b))
  else c

/-- The cell a calibration in progress measures, and the MODE and EXC of the set-up (R438, R440, R442). None is in progress while
phase D's end waits for settling samples (R463), or once the spare has failed (R1203). -/
def calSetup (c : Chip) (b : Nat) : Option (Nat × Nat × Nat) :=
  let ch := stepCh c b
  let a := anaSt c ch
  if (bankSt c b).calDone || (bankSt c b).back.isSome then none else
  match rotPhase c b with
  | 1 => if (bankSt c b).toneWait then none else some (16, a.aMode, a.aExc)
  | 3 => if mdMode a.aMode = 0 then some (ch % 16, 1 + 16, 0) else some (ch % 16, a.aMode, a.aExc)
  | 5 => let i := (bankSt c b).base
         if i < 4 then some (16, 1 + 16 * i, 0) else some (16, 5 + 256 * (i - 4), 0)
  | _ => none

/-- The cell and the part of the set-up that names the correction. -/
def calTarget (c : Chip) (b : Nat) : Option (Nat × Nat) := (calSetup c b).map fun x => (x.1, setupKey x.2.1 x.2.2)

/-- The nominal excitation of a set-up: a current in nA, or the peak amplitude of a sine in µV; none without a source (R389,
R407). -/
def nominalExc (md exc : Nat) : Option Nat :=
  match mdMode md with
  | 3 | 4 | 5 => some (([250, 500, 1000] : List Nat).getD (mdIexc md) 0 * 1000)
  | 7 | 8 => some ((500 + 250 * natBits exc 8 5) * 1000)
  | 9 => some (iepeMa (mdIexc md) * 1000000)
  | _ => none

/-- The measured excitation lies within ±1 % of nominal, in a set-up with a source (R447). -/
def excWithin (md exc measured : Nat) : Bool :=
  match nominalExc md exc with
  | some n => decide (n * 99 ≤ measured * 100) && decide (measured * 100 ≤ n * 101)
  | none => true

/-- The reference check of R447: limits in codes and ppm, drift against the previous calibration, excitation. -/
def calPasses (c : Chip) (b : Nat) (prev : Option Corr) (ofs gain : Int) (excOk : Bool) : Bool :=
  let lim := (reg c (bankBase b + 8)).toNat
  let drift := natBits lim 24 8
  excOk && decide (ofs.natAbs ≤ natBits lim 0 16) && decide (gain.natAbs ≤ natBits lim 16 8 * 100)
    && (match prev with
        | some p => decide ((ofs - p.ofs).natAbs * 100000 ≤ drift * 2 ^ 23) && decide ((gain - p.gain).natAbs ≤ drift * 10)
        | none => true)

/-- Retire a cell of a bank (R450, R1204). -/
def retireCell (c : Chip) (b cell : Nat) : Chip :=
  modBank c b fun s => { s with retired := s.retired ||| 2 ^ cell }

/-- A calibration that passed: the correction is kept and the step goes on (R438, R446). -/
def calPassed (c : Chip) (b cell key : Nat) (ofs gain : Int) : Chip :=
  let c1 := { c with corr := smPut corrDef c.corr (corrKey b cell key) (some ⟨ofs, gain, c.ot⟩) }
  let c2 := modBank c1 b fun s => { s with retry := false }
  let ch := stepCh c b
  match rotPhase c b with
  | 1 =>
    -- R445: phase B waits for a test tone of the channel
    if (anaSt c ch).tone then modBank c2 b fun s => { s with toneWait := true }
    else modBank (setPhase c2 b 2) b fun s => { s with left := phaseP c ch }
  | 3 =>
    if onSpare c ch then phaseE c2 ch
    else if rotationRuns c2 b then endWork (freshCal c2 ch) b else stopRotation (freshCal c2 ch) b
  | 5 =>
    let i := (bankSt c b).base
    if i < 6 then modBank c2 b fun s => { s with base := i + 1 } else endWork c2 b
  | _ => c2

/-- The channel that waits to be moved to the spare is lost with it (R39, R457). -/
def loseWaiting (c : Chip) (b : Nat) : Chip :=
  match (bankSt c b).emerg with
  | some e => cellLostReport (cellOut (modBank c b fun s => { s with emerg := none }) e) e
  | none => c

/-- A cell that failed its repeated calibration is retired; rotation stops. The spare covers a home cell from then on, also
that of a channel in OFF (R442, R449, R451). A channel that waited for the spare is lost (R457). -/
def calFailed (c : Chip) (b cell : Nat) : Chip :=
  let ch := stepCh c b
  let c1 := modBank (retireCell c b cell) b fun s => { s with retry := false }
  if cell = 16 then
    let src := if rotPhase c b = 5 then srcRes 1 b else anaPt ch
    loseWaiting (postErrorRec (stopRotation (setFlag c1 (rotStat b) 13 true) b) 0x21 src 1) b
  else loseWaiting (postErrorRec (stopRotation (setCover c1 ch) b) 0x21 (anaPt ch) 0) b

/-- CALIBRATION_END: the check is judged; a failure is repeated once, then retires the cell (R446 to R451). -/
def calibrationEnd (c : Chip) (b : Nat) (ofs gain : Int) (exc : Nat) : Chip :=
  if !afeOn c b || !c.pwr.modulators then c
  else match calSetup c b with
    | none => c
    | some (cell, md, ex) =>
      let key := setupKey md ex
      let excOk := excWithin md ex exc
      if calPasses c b (smGet corrDef c.corr (corrKey b cell key)) ofs gain excOk then calPassed c b cell key ofs gain
      else if (bankSt c b).retry then calFailed c b cell
      else modBank c b fun s => { s with retry := true }

/-- The spare fails while it serves a channel that it does not cover: the channel goes back to its home cell, which
delivers from its next output on where it converts beside the spare already (R1203).

DEDUCED: a home cell whose calibration is abandoned delivers first after the output under way, which is held (log 120). -/
def spareFails (c : Chip) (ch detail : Nat) : Chip :=
  let b := ch / 16
  let c1 := cellOut (modBank (retireCell c b 16) b fun s => { s with back := some (ch, detail) }) ch
  if rotPhase c b = 4 then spareGone c1 b else c1

/-- A home cell fails and the spare is free to take its channel: any step in progress is abandoned; a channel that the
spare serves is handed back first, at once into phase E with its home cell's previous correction (R453 to R456). -/
def homeFails (c : Chip) (ch detail : Nat) : Chip :=
  let b := ch / 16
  let busy := stepCh c b
  let c1 := postErrorRec (cellOut (retireCell c b (ch % 16)) ch) 0x22 (anaPt ch) detail
  if (rotPhase c b = 3 ∨ rotPhase c b = 4) ∧ onSpare c busy = true then
    let c2 := modBank c1 b fun s => { s with emerg := some ch, retry := false }
    if rotPhase c b = 4 then c2 else phaseE c2 busy
  else beginEmergency c1 b ch

/-- CELL_MONITOR_FAIL: the cell that delivers the channel's outputs fails (R452 to R457, R1203). Where no spare is left for
the channel, it is lost (R39).

DESIGN CHOICE: while the spare is being moved to the channel of one failed cell it is left for no second one, whose channel is
lost (log 147). -/
def cellMonitorFail (c : Chip) (ch : Nat) (reference : Bool) : Chip :=
  let b := ch / 16
  if !delivers c ch || cellLost c ch || heldByFailure c ch then c
  else if onSpare c ch then
    if covering c b then cellLostReport (cellOut (setFlag (retireCell c b 16) (rotStat b) 13 true) ch) ch
    else spareFails c ch (b2n reference)
  else if covering c b || natBit (bankSt c b).retired 16 || (bankSt c b).emerg.isSome then
    cellLostReport (cellOut (retireCell c b (ch % 16)) ch) ch
  else homeFails c ch (b2n reference)

/-- Age in hours of a correction. -/
def corrAge (c : Chip) (k : Corr) : Nat := (c.ot - k.ot) / (1024 * 3600)

/-- CAL_AGED: the ages of a bank's corrections are judged; the first sets reports (R460, R461). -/
def calAged (c : Chip) (b : Nat) : Chip :=
  let chs := (List.range 16).map fun k => b * 16 + k
  let was := chs.any fun ch => flag c (chConv ch) 15
  let c1 := chs.foldl (fun c ch => setFlag c (chConv ch) 15 (chAged c ch)) c
  let ages := chs.filterMap fun ch => (corrOf c ch (servingCell c ch)).map (corrAge c)
  let age := min 65535 (ages.foldl max 0)
  let c2 := setFld c1 (bankBase b + 0xC) 16 16 age
  if !was && chs.any fun ch => flag c2 (chConv ch) 15 then postErrorRec c2 0x23 (srcRes 1 b) age else c2

/-- Rotation is started or stopped as R458 now says: a spare that serves a channel first completes
phases E and F (R465). A move under R453 is no rotation: it goes on. -/
def rotationCheck (c : Chip) (b : Nat) : Chip :=
  if (bankSt c b).emerg.isSome && afeOn c b then c
  else if rotationRuns c b then
    if rotPhase c b = 6 then stepFallsDue c b 0 else c
  else if rotPhase c b = 6 then c
  else if rotPhase c b = 3 ∨ rotPhase c b = 4 then
    if afeOn c b && onSpare c (stepCh c b) then c else stopRotation c b
  else stopRotation c b

/-- Rotation of every bank, as a new mode lets it run (R458). -/
def rotationChecks (c : Chip) : Chip := (List.range 8).foldl (fun c b => if afeOn c b then rotationCheck c b else c) c

/-- The bank's AFE domain reaches ON: each channel has the set-up of its registers, which an image may have
loaded, with settling samples; rotation begins at step 0, or the move of a failed cell's channel again (R152, R383, R433,
R453, R1206). -/
def afeDomainOn (c : Chip) (b : Nat) : Chip :=
  let c1 := (List.range 16).foldl (fun c k => startSettle (startIepe (applySetup c (b * 16 + k)) (b * 16 + k)) (b * 16 + k)) c
  match (bankSt c1 b).emerg with
  | some e => beginEmergency c1 b e
  | none => if rotationRuns c1 b then stepFallsDue c1 b 0 else stopRotation c1 b

/-- A channel's front end loses its bank's power: its tone ends, its excitation is at no limit, an accepted change applies,
and the spare serves it no more unless it covers a retired cell (R378, R383, R1206). -/
def afeChannelOff (c : Chip) (ch : Nat) : Chip :=
  let c1 := modAna (setFlag c (chStat ch) 3 false) ch fun a => { a with tone := false, toneDue := false, tail := 0 }
  let c2 := applyIfChanged c1 ch
  if covering c2 (ch / 16) then c2 else setFlag c2 (chConv ch) 9 false

/-- The bank's AFE domain goes OFF. What a failed spare has left is finished (R1203). -/
def afeDomainOff (c : Chip) (b : Nat) : Chip :=
  stopRotation ((List.range 16).foldl (fun c k => afeChannelOff c (b * 16 + k)) (spareGone c b)) b

/-- The modulators stop: a change that waits for an output applies (R383). -/
def modulatorsStop (c : Chip) : Chip :=
  (List.range 128).foldl applyIfChanged { c with pwr := { c.pwr with modulators := false } }

/-- PLL-M relocks: in each powered bank every channel settles, and the step restarts at phase A where the home cell serves
its channel, at phase D where the spare does; the step of a channel in OFF has phase D alone. A move under R453 restarts at
phase A (R433, R442, R464). -/
def modulatorsRestart (c : Chip) : Chip :=
  ((List.range 8).filter (afeOn c)).foldl (fun c b =>
    let c1 := (List.range 16).foldl (fun c k => startIepe (startSettle c (b * 16 + k)) (b * 16 + k)) c
    let again := fun (s : BankSt) => { s with retry := false, left := 0, base := 0, calDone := false, toneWait := false }
    let ph := rotPhase c1 b
    let ch := stepCh c1 b
    if ph = 5 then modBank c1 b again
    else if ph = 0 ∨ 5 < ph ∨ (bankSt c1 b).back.isSome = true then c1
    -- R454: the hand-back of a bank whose move waits has no phase D
    else if ph = 4 ∧ (bankSt c1 b).emerg.isSome = true then phaseE c1 ch
    else if ph ≤ 2 ∧ (bankSt c1 b).emerg.isSome = true then modBank (setPhase c1 b 1) b again
    else modBank (setPhase c1 b (if onSpare c1 ch || mdMode (anaSt c1 ch).aMode == 0 then 3 else 1)) b again) c

end Sys2Proof.Machine
end

