-- ==== Sys2Proof/Machine/LoopOut.lean ====
section
/-! DEFINITION. Loop-output cells: modes, demands, readback, reflexes, watchdog, trim, buttons and the
FSK modem (11_loop_outputs). -/

namespace Sys2Proof.Machine

/-- A change between two modes other than OPEN passes through OPEN while its step runs (R498). -/
def passesOpen (c : Chip) (ch : Nat) : Bool :=
  match (cell c ch).tgt with
  | some m => m != 0 && (cell c ch).mode != 0 && !opWaits c (.bankStep ch)
  | none => false

/-- The node lets the cell drive: its domain is ON, the mode drives or holds outputs, and the lease gate
is not open (R86, R129, R132, R986). -/
def cellAllowed (c : Chip) (ch : Nat) : Bool :=
  domOn c (cellDom ch) && !c.gate && (outputsLive c || (nodeMode c == mSafeHold && !c.mode.heldOpen))

/-- The cell drives its loop: it is not in OPEN for any reason. -/
def cellLive (c : Chip) (ch : Nat) : Bool :=
  cellAllowed c ch && (cell c ch).mode != 0 && !(cell c ch).opened && !cellFlag c ch lfOvertemp && !passesOpen c ch

/-- VFIELD_OK of a bank. -/
def vfieldOk (c : Chip) (n : Nat) : Bool := flag c 0x10000 (4 + n)

/-- LOOP_BANK_STAT is computed on reading (R496). -/
def loopView (c : Chip) (off : Nat) : Option Nat :=
  if off = 0x100000 ∨ off = 0x110000 ∨ off = 0x120000 then
    let n := (off - 0x100000) / 0x10000
    some (b2n (vfieldOk c n) + 2 * b2n ((List.range 16).any fun k => opWaits c (.bankStep (n * 16 + k))))
  else none

/-! ## Demands (R501 to R508) -/

/-- A demand in µA: a QW32 of exponent −3 in mA carries it in its mantissa (R501). -/
def demandUa (w : Nat) : Int := roundHE (qwValue (qw32Of w) * 1000)

/-- Limits of LOOP_CHc_CLAMP; in LOOP_POWERED the lower one is at least 3,500 µA (R504). -/
def clampLo (c : Chip) (ch : Nat) : Nat :=
  let lo := fld c (cellBase ch + 4) 0 16
  if (cell c ch).mode = 3 then max lo 3500 else lo

def clampHi (c : Chip) (ch : Nat) : Nat := fld c (cellBase ch + 4) 16 16

/-- The clamped demand, in µA. -/
def clampDemand (c : Chip) (ch : Nat) (d : Int) : Nat :=
  (clampInt (clampLo c ch) (max (clampLo c ch) (clampHi c ch)) d).toNat

/-- I in pA: d_c + ZERO × 0.1 µA + (d_c − 4,000 µA) × SPAN × 10⁻⁶ (R505). -/
def driveCurrent (c : Chip) (ch d : Nat) : Int :=
  (d : Int) * 1000000 + signed 16 (fld c (cellBase ch + 8) 0 16) * 100000
    + ((d : Int) - 4000) * signed 16 (fld c (cellBase ch + 8) 16 16)

/-- The DAC code of a current (R506). -/
def dacCode (i : Int) : Nat := (clampInt 0 65535 (roundHE ((i : Rat) / 375000))).toNat

/-- The current a cell drives, in pA. -/
def cellCurrent (c : Chip) (ch : Nat) : Int := if cellLive c ch then (cell c ch).cur else 0

/-- LOOP_CHc_INIT as it stands, clamped. -/
def initDemand (c : Chip) (ch : Nat) : Nat := clampDemand c ch (fld c (cellBase ch + 0xC) 0 16 : Nat)

/-- The clamped demand whose current a cell keeps: the last one applied, or the LOOP_CHc_INIT value that it drives since it
entered its mode (R499, R507). -/
def entryDemand (c : Chip) (ch : Nat) : Nat := ((cell c ch).last.or (cell c ch).init).getD (initDemand c ch)

/-- RB_TOL, in pA. -/
def rbTol (c : Chip) (ch : Nat) : Nat := fld c (cellBase ch + 0x10) 0 12 * 1000000

/-- Drive a clamped demand. A change of the current by more than RB_TOL suspends COMPLIANCE for 2 ms (R514).

DESIGN CHOICE: 2 ms are counted as three units of OT (log 100). -/
def drive (c : Chip) (ch d : Nat) : Chip :=
  let i := driveCurrent c ch d
  modCell c ch fun x =>
    { x with cur := i, moved := if rbTol c ch < (i - x.cur).natAbs then c.ot + 3 else x.moved }

/-- A cell that enters a mode drives its last applied current, whatever its trim is now, or the value of LOOP_CHc_INIT
(R499, R526). -/
def enterDrive (c : Chip) (ch : Nat) : Chip :=
  if (cell c ch).last.isSome then c
  else drive (modCell c ch fun x => { x with init := some (initDemand c ch) }) ch (initDemand c ch)

/-- COMPLIANCE of a cell is evaluated (R514). -/
def complianceJudged (c : Chip) (ch : Nat) : Bool := decide ((cell c ch).moved ≤ c.ot)

/-- A loop that is not evaluated because its entry, a feed-forward table of it or its scan entry is
unusable (R39, R129). -/
def loopBad (c : Chip) (l : Nat) : Bool :=
  let o := 0x1000 + l * 0x100
  let f := tbl c 5 (o + 0x41) 1
  let g := tbl c 5 (o + 0x42) 1
  !c.mode.badWords.isEmpty &&
   (entryBad c 5 o 0x100 || (f != 255 && entryBad c 5 (0x10000 + f * 0x200) 0x200)
    || (g != 255 && entryBad c 5 (0x20000 + g * 0x800) 0x800)
    || (match entryOf c 6 (pt 8 l) with
        | some i => scanBad c i
        | none => false))

/-- The enabled loop that writes an output point. -/
def loopOfOut (c : Chip) (p : Nat) : Option Nat :=
  (List.range 128).find? fun l => natBit (tbl c 5 (0x1000 + l * 0x100) 1) 0 && tbl c 5 (0x1000 + l * 0x100 + 0xC) 3 == p

/-- An output point depends on an unusable entry: its OUT entry or the loop that writes it. -/
def outBad (c : Chip) (p : Nat) : Bool :=
  !c.mode.badWords.isEmpty
    && ((match entryOf c 7 p with
        | some i => scanBad c i
        | none => false)
      || (match loopOfOut c p with
        | some l => loopBad c l
        | none => false))

/-- Worst quality that the status bits give, and whether they set FAULT (R512); a point that depends on an unusable entry is
held until its table is reloaded (R39). -/
def cellQual (c : Chip) (ch : Nat) : Nat × Nat :=
  let st := (reg c (cellStat ch)).toNat
  if natBits st 2 9 ≠ 0 then (3, flFault)
  else if natBit st 0 || outBad c (cellPt ch) then (2, 0)
  else if natBit st lfSinkHeadroom || natBit st lfReservoirLow then (1, 0)
  else (0, 0)

/-- The point's word is a substituted one: its substitution stands, or has ended and the producer has not written since
(R1189, R1190). A word that FORCED marks is none. -/
def substStands (c : Chip) (ch : Nat) : Bool :=
  let e := point c (cellPt ch)
  e.subst || (natBit e.flags 2 && !cellFlag c ch 13)

/-- The standing word of the point takes the quality and the FAULT flag that the status bits give (R512), and the flag of a
force (R527). -/
def refreshWord (c : Chip) (ch : Nat) : Chip :=
  if substStands c ch then c
  else
    let e := point c (cellPt ch)
    let (q, f) := cellQual c ch
    let fl := (e.flags - (e.flags &&& flFault)) ||| f ||| (if cellFlag c ch 13 then flSubst else 0)
    setPoint c (cellPt ch) { e with
      live := e.live - e.live % 4 + worst (worst (natBits (cell c ch).wordQual 0 2) q) (flagsQual fl), flags := fl }

/-- The word written back after an application (R508). It is not a demand (R1209): STALE stays until the
producer writes, and a substituted word stands (R1189, R1190) but for FORCE. -/
def writeBack (c : Chip) (ch d qual fl : Nat) : Chip :=
  let p := cellPt ch
  let e := point c p
  if substStands c ch then c
  else
    let fl' := fl ||| (e.flags &&& flStale)
    let w := qw32To (qwFlagged { mant := d, exp := -3, unit := 20, qual := qual } fl')
    refreshWord (setPoint (modCell c ch fun x => { x with wordQual := worst qual (flagsQual fl) }) p { e with live := w, flags := fl' }) ch

/-- FORCE of a cell, in SERVICE (R527). -/
def forceOf (c : Chip) (ch : Nat) : Nat := if nodeMode c = mService then fld c (cellBase ch + 0x24) 0 2 else 0

/-- Ask for the step by which a cell opened by its watchdog or by OVERTEMP re-enters its mode. -/
def reenter (c : Chip) (ch : Nat) : Chip :=
  let x := cell c ch
  if x.mode = 0 ∨ x.tgt.isSome ∨ !domOn c (cellDom ch) then c
  else requestOp (setCell c ch { x with tgt := some x.mode }) (bankStepReq ch)

/-- Every application restarts the watchdog and ends WD_HOLD; a cell that its watchdog opened re-enters its mode. One that
OVERTEMP holds in OPEN waits for its end (R517, R520, R524). -/
def restartWatchdog (c : Chip) (ch : Nat) : Chip :=
  let c1 := setFlag c (cellStat ch) 1 false
  if (cell c1 ch).opened && !cellFlag c1 ch lfOvertemp then reenter c1 ch else c1

/-- Apply the demand of a cell (R503 to R508, R527, R1209). -/
def applyCell (c : Chip) (ch : Nat) : Chip :=
  if !(domOn c (cellDom ch) && outputsLive c && !c.gate) then c
  else
    let c1 := restartWatchdog c ch
    let f := forceOf c1 ch
    if f ≠ 0 then
      let d := if f = 1 then 4000 else 20000
      let c2 := setFlag (setFlag c1 (cellStat ch) 13 true) (cellStat ch) 0 false
      writeBack (drive (modCell c2 ch fun x => { x with last := some d }) ch d) ch d 0 flSubst
    else
      let w := (cell c ch).dem
      if w % 4 = 3 then
        -- R507
        writeBack (setFlag c1 (cellStat ch) 0 true) ch (entryDemand c1 ch) 2 0
      else
        let v := demandUa w
        let d := clampDemand c1 ch v
        let clamped := decide ((d : Int) ≠ v)
        let c3 := setFlag (modCell c1 ch fun x => { x with last := some d }) (cellStat ch) 0 false
        writeBack (drive c3 ch d) ch d (w % 4) (if clamped then flOver else 0)

/-- A producer or SUBSTITUTE gives a cell a new demand (R1209). Its word carries what the status bits give (R512). -/
def setDemand (c : Chip) (ch w : Nat) : Chip :=
  refreshWord (modCell c ch fun x => { x with dem := w, wordQual := w % 4 }) ch

/-! ## FSK modem (R535 to R546) -/

def fskEn (c : Chip) (ch : Nat) : Bool := flag c (cellBase ch) 4

/-- FSK_SEND's checks of mode and state, then the transmission waits for silence (R538 to R541). -/
def fskStatus (c : Chip) (ch : Nat) : Nat :=
  if !transmitLive c then stWrongMode
  else if !fskEn c ch || !cellLive c ch then stWrongState
  else if (cell c ch).tx.isSome then stNoResource
  else stSuccess

def fskBegin (c : Chip) (fn ch : Nat) (data : List Byte) : Chip :=
  modCell c ch fun x => { x with tx := some { fn := fn, data := data, sending := false, line := [] } }

/-- A byte on the line: a start bit, eight data bits with the least significant first, an odd-parity bit and a stop bit
(R536). A bit is true at mark, the idle level, as the stop bit is and the start bit is not. -/
def fskChar (b : Byte) : List Bool :=
  let ds := (List.range 8).map b.getLsbD
  false :: ds ++ [ds.foldl (fun p x => p != x) true, true]

/-- The bits of a transmission: its bytes with no gap between them and no byte added (R536, R537). -/
def fskLine (data : List Byte) : List Bool := data.flatMap fskChar

/-- FSK_TX_START: carrier has been absent for 5 ms. A cell in OPEN transmits nothing (R494, R541). -/
def fskTxStart (c : Chip) (ch : Nat) : Chip :=
  match (cell c ch).tx with
  | some t =>
    if t.sending || flag c (fskReg ch) 0 || !cellLive c ch then c
    else setFlag (modCell c ch fun x => { x with tx := some { t with sending := true, line := fskLine t.data } }) (fskReg ch) 1 true
  | none => c

/-- FSK_CARRIER_TIMEOUT: carrier stayed present for 250 ms. -/
def fskCarrierTimeout (c : Chip) (ch : Nat) : Chip :=
  match (cell c ch).tx with
  | some t => if t.sending || !flag c (fskReg ch) 0 then c else endFsk c ch stNoResource
  | none => c

/-- FSK_TX_END: the stop bit of the last byte is sent; the receiver stays blanked for 1 ms. A cell in OPEN transmits nothing
(R494, R543). -/
def fskTxEnd (c : Chip) (ch : Nat) : Chip :=
  match (cell c ch).tx with
  | some t =>
    if t.sending then endFsk c ch (if cellLive c ch then stSuccess else stWrongState) else c
  | none => c

/-- The receiver hears its loop: modem enabled, cell not in OPEN, own modem silent (R544). -/
def fskHears (c : Chip) (ch : Nat) : Bool :=
  fskEn c ch && cellLive c ch && !flag c (fskReg ch) 1 && decide ((cell c ch).rxBlank ≤ c.ot)

/-- FSK_CARRIER_DETECT. A carrier that comes begins a reception of its own. -/
def fskCarrierDetect (c : Chip) (ch : Nat) (on : Bool) : Chip :=
  if on then
    (if fskHears c ch && !flag c (fskReg ch) 0 then
      setFlag (modCell c ch fun x => { x with rxCut := false }) (fskReg ch) 0 true else c)
  else setFlag c (fskReg ch) 0 false

/-- The owner of a loop-output point changes while carrier is present: what its receiver has taken is discarded (R317).

DESIGN CHOICE: a reception in progress is discarded whole (log 93). -/
def fskRxOwner (c : Chip) (ch : Nat) : Chip :=
  if flag c (fskReg ch) 0 then modCell c ch fun x => { x with rxCut := true } else c

/-- Cut a list into pieces of 48 bytes. -/
def pieces48 : Nat → List Byte → List (List Byte)
  | 0, _ => []
  | n + 1, bs => if bs.isEmpty then [] else bs.take 48 :: pieces48 n (bs.drop 48)

/-- FSK_RX_END: the received bytes go out in one FSK_RX event to the point's owner (R545, R546). -/
def fskRxEnd (c : Chip) (ch : Nat) (data : List Byte) (status : Byte) : Chip :=
  if !fskHears c ch then c
  else if (cell c ch).rxCut then modCell c ch fun x => { x with rxCut := false }
  else
    let long := decide (255 < data.length)
    let bs := data.take 255
    let st := (status.toNat % 16) ||| (if long then 4 else 0)
    let c1 := if st = 0 then c else countFld c (fskReg ch) 16 16
    let p := cellPt ch
    let first := ptBytes p ++ natLe 1 bs.length ++ natLe 1 st ++ natLe 3 0 ++ bs.take 40
    let es := eventEntries 11 (frameNum c1) c1.ot 0 first (pieces48 6 (bs.drop 40))
    putEvents c1 (ownerFn (ownerOf c p)) es

/-! ## Status (R509 to R517) -/

/-- Set a fault bit; a rise counts, marks the point's word, posts and sends (R512, R516). -/
def setCellFault (c : Chip) (ch i : Nat) : Chip :=
  if cellFlag c ch i then c
  else
    let c1 := refreshWord (countFld (setFlag c (cellStat ch) i true) (cellStat ch) 16 16) ch
    postPointFault c1 0x31 (cellPt ch) (fld c1 (cellStat ch) 2 11) false

/-- A fault bit clears; the point's word follows (R512). -/
def clearCellFault (c : Chip) (ch i : Nat) : Chip := if cellFlag c ch i then refreshWord (setFlag c (cellStat ch) i false) ch else c

def loadCellFault (c : Chip) (ch i : Nat) (b : Bool) : Chip :=
  if b then setCellFault c ch i else clearCellFault c ch i

/-- VFIELD_LOW follows VFIELD_OK for a cell in SOURCE (R512). -/
def vfieldRefresh (c : Chip) (ch : Nat) : Chip :=
  loadCellFault c ch lfVfieldLow (domOn c (cellDom ch) && (cell c ch).mode == 1 && !vfieldOk c (ch / 16))

def vfieldRefreshBank (c : Chip) (n : Nat) : Chip :=
  (List.range 16).foldl (fun c k => vfieldRefresh c (n * 16 + k)) c

/-- LOOP_FAULT_SET: a condition has held for its persistence (R512 to R515, R1210). What concerns the cell's regulator asks
for a cell that drives, what its measurements show for a powered bank. -/
def loopFaultSet (c : Chip) (ch k : Nat) : Chip :=
  let ln := cellFlag c ch lfLnOpen
  let vf := cellFlag c ch lfVfieldLow
  if !domOn c (cellDom ch) then c
  else match k with
    | 0 => if ln || vf || !complianceJudged c ch || !cellLive c ch then c else setCellFault c ch lfCompliance
    | 1 => if ln || vf || !cellLive c ch then c else setCellFault c ch lfOpenLoop
    | 2 => if ln then c else setCellFault c ch lfLeak
    | 3 => if ln || cellFlag c ch lfFieldShort then c else setCellFault c ch lfParallel
    | 4 => if (cell c ch).mode = 1 && cellLive c ch then setCellFault c ch lfFieldShort else c
    | 5 => setCellFault c ch lfReverse
    | _ => c

/-- Clear a bit where a condition holds. -/
def clearIf (c : Chip) (ch i : Nat) (b : Bool) : Chip := if b then clearCellFault c ch i else c

/-- Absolute difference of two numbers. -/
def absDiff (a b : Nat) : Nat := max a b - min a b

/-- SINK_HEADROOM is judged at each update over 1 s, 100 updates (R1208). `p` is in units of 10 nW. -/
def sinkHeadroom (c : Chip) (ch : Nat) (p : Int) : Chip :=
  let x := cell c ch
  if x.mode ≠ 2 then clearCellFault (setCell c ch { x with hot := 0, cool := 0 }) ch lfSinkHeadroom
  else
    let hot := if 6000000 < p then min 100 (x.hot + 1) else 0
    let cool := if p < 5500000 then min 100 (x.cool + 1) else 0
    let c1 := setCell c ch { x with hot := hot, cool := cool }
    if hot = 100 then setCellFault c1 ch lfSinkHeadroom
    else clearIf c1 ch lfSinkHeadroom (decide (cool = 100))

/-- READBACK_UPDATE: averages are loaded and the conditions judged (R509 to R515, R1208, R1210). -/
def readbackUpdate (c : Chip) (ch rbIn dr : Nat) (vloop : Int) (vres : Nat) (short : Bool) : Chip :=
  if !domOn c (cellDom ch) then c
  else
    let ln := cellFlag c ch lfLnOpen
    let x := cell c ch
    let rb := if ln then 0 else rbIn
    let tol := fld c (cellBase ch + 0x10) 0 12
    let i := (cell c ch).cur
    let c1 := setReg c (cellBase ch + 0x18) (BitVec.ofNat 32 (rb + dr * 65536))
    let c2 := setReg c1 (cellBase ch + 0x1C)
      (BitVec.ofNat 32 (unsigned 16 vloop + (if x.mode = 3 then vres else 0) * 65536))
    let c3 := if ln then c2 else
      let a := clearIf c2 ch lfCompliance
        (complianceJudged c ch && decide (((dr : Int) * 1000000 - i).natAbs ≤ rbTol c ch))
      let a := clearIf a ch lfOpenLoop (decide (100 ≤ rb))
      let a := clearIf a ch lfLeak (decide (absDiff rb dr ≤ tol))
      clearIf a ch lfParallel (decide (absDiff rb dr ≤ tol))
    let c4 := clearIf c3 ch lfFieldShort (x.mode != 1 || !short || decide (100 ≤ dr))
    let c5 := clearIf c4 ch lfReverse (decide (0 ≤ vloop))
    let c6 := sinkHeadroom c5 ch (vloop * rb)
    if x.mode ≠ 3 then clearCellFault c6 ch lfReservoirLow
    else if vres < 45 then setCellFault c6 ch lfReservoirLow
    else clearIf c6 ch lfReservoirLow (decide (50 ≤ vres))

/-- LN_SWITCH_OPEN: current into LN beyond ±32 mA for 50 µs (R517, R1210). -/
def lnSwitchOpen (c : Chip) (ch : Nat) : Chip :=
  if cellLive c ch && !cellFlag c ch lfLnOpen then
    setFld (setCellFault c ch lfLnOpen) (cellBase ch + 0x18) 0 16 0
  else c

/-- LN_RECONNECT_TEST (R517). -/
def lnReconnectTest (c : Chip) (ch : Nat) (ok : Bool) : Chip :=
  if ok then clearCellFault c ch lfLnOpen else c

/-- OVERTEMP: the cell goes to OPEN above 150 °C. Below 130 °C it re-enters its mode; until the step of R495 is done it stays
in OPEN (R517). -/
def overtemp (c : Chip) (ch : Nat) (hot : Bool) : Chip :=
  if !domOn c (cellDom ch) then c
  else if hot then
    if cellFlag c ch lfOvertemp then c
    else cellToOpen (modCell (setCellFault c ch lfOvertemp) ch fun x => { x with opened := true }) ch
  else if cellFlag c ch lfOvertemp then reenter (clearCellFault c ch lfOvertemp) ch
  else c

/-! ## Cell modes (R493 to R499) -/

/-- A configuration is rejected: CFG_REJ, LOOP_CONFIG. -/
def loopReject (c : Chip) (ch off : Nat) : Chip :=
  postError (setFlag c (cellStat ch) 14 true) 0x30 (cellPt ch) (off % 0x10000)

/-- Cell of a register in a LOOP cell page. -/
def cellOfOff (off : Nat) : Nat := (off / 0x10000 - 16) * 16 + (off % 0x10000 - 0x100) / 0x40

/-- LO above HI, or HI above 24,000, is out of range (R547). -/
def clampOk (c : Chip) (ch : Nat) : Bool :=
  let v := (reg c (cellBase ch + 4)).toNat
  decide (natBits v 0 16 ≤ natBits v 16 16) && decide (natBits v 16 16 ≤ 24000)

def trimOk (v : Nat) : Bool :=
  decide ((signed 16 (natBits v 0 16)).natAbs ≤ 2000) && decide ((signed 16 (natBits v 16 16)).natAbs ≤ 10000)

/-- A write of a cell's set-up that is discarded: LOOP_CHc_CLAMP (R547) or LOOP_CHc_TRIM (R525). -/
def loopRegBad (c : Chip) (_ : WriteCtx) (off : Nat) : Bool :=
  (off % 0x40 == 4 && !clampOk c (cellOfOff off)) || (off % 0x40 == 8 && !trimOk (reg c off).toNat)

/-- The action of a register of a cell's set-up. -/
def loopGuarded : Hook → Hook := guarded loopRegBad fun c _ o => loopReject c (cellOfOff o) o

/-- LOOP_CHc_CFG. An accepted change of MODE is a bank step under leave (R495, R496); while the bank's domain is not ON it
stands in the register until the domain reaches ON. -/
def hookLoopCfg : Hook := loopGuarded fun w c =>
  let ch := cellOfOff w.off
  let m := fld c w.off 0 2
  let c1 := if fskEn c ch then c else setFlag (endFsk c ch stWrongState) (fskReg ch) 0 false
  if bits w.old 0 2 = m ∨ !domOn c (cellDom ch) then c1
  else requestOp (modCell c1 ch fun x => { x with tgt := some m }) (bankStepReq ch)

/-- LOOP_MODE_WRITE (R495). -/
def loopModeWrite (c : Chip) (fn : Fn) (ch : Nat) (v : Word) (be : BitVec 4) : Chip :=
  writeWord hookLoopCfg c fn (cellBase ch) v be

/-- Leave for a step was withdrawn: the previous MODE returns, CFG_REJ and LOOP_CONFIG (R497). -/
def bankStepWithdrawn (c : Chip) (ch : Nat) : Chip :=
  let x := cell c ch
  match x.tgt with
  | some _ => loopReject (setFld (setCell c ch { x with tgt := none }) (cellBase ch) 0 2 x.mode) ch (cellBase ch)
  | none => c

/-- CELL_MODE_ENTER: the step has its leave and its time in OPEN has passed (R493, R498, R499). -/
def cellModeEnter (c : Chip) (ch : Nat) : Chip :=
  let x := cell c ch
  match x.tgt with
  | some m =>
    if opWaits c (.bankStep ch) || !domOn c (cellDom ch) then c
    else
      let c1 := if m = 0 ∨ m ≠ x.mode then cellToOpen c ch else c
      let c2 := modCell c1 ch fun x => { x with mode := m, tgt := none, opened := cellFlag c ch lfOvertemp }
      vfieldRefresh (if m = 0 then c2 else enterDrive c2 ch) ch
  | none => c

/-- The bank's domain reaches ON: each cell enters the mode its register selects (R499). -/
def loopDomainOn (c : Chip) (n : Nat) : Chip :=
  (List.range 16).foldl (fun c k =>
    let ch := n * 16 + k
    let c1 := modCell c ch fun x =>
      { x with mode := fld c (cellBase ch) 0 2, tgt := none, opened := cellFlag c ch lfOvertemp }
    vfieldRefresh (enterDrive c1 ch) ch) c

/-- The bank's domain goes OFF: its cells are in OPEN, their steps and transmissions end (R86, R96, R543). -/
def loopDomainOff (c : Chip) (n : Nat) : Chip :=
  (List.range 16).foldl (fun c k =>
    let ch := n * 16 + k
    vfieldRefresh (modCell (dropReq (releaseSurge (cellToOpen c ch) (.bankStep ch)) (.bankStep ch)) ch
      fun x => { x with tgt := none, opened := false }) ch) c

/-! ## Cell watchdog (R520 to R524) -/

/-- In DEGRADED a cell that depends on an unusable entry is held (R129). -/
def degradedHeld (c : Chip) (ch : Nat) : Bool := nodeMode c == mDegraded && outBad c (pt 5 ch)

/-- The watchdog runs (R521). -/
def watchdogRuns (c : Chip) (ch : Nat) : Bool :=
  cellLive c ch && nodeMode c != mSafeHold && !degradedHeld c ch

/-- WD_HOLD: WD_TRIP has passed without a restart (R522). -/
def wdHold (c : Chip) (ch : Nat) : Chip :=
  if watchdogRuns c ch then setFlag c (cellStat ch) 1 true else c

/-- WD_OPEN: a further WD_OPEN has passed (R523). -/
def wdOpen (c : Chip) (ch : Nat) : Chip :=
  if watchdogRuns c ch && cellFlag c ch 1 && fld c (0x100004 + ch / 16 * 0x10000) 16 16 != 0 then
    cellToOpen (modCell c ch fun x => { x with opened := true }) ch
  else c

/-! ## Trim, FORCE and STORE (R525 to R534) -/

/-- LOOP_CHc_CLAMP (R547) and LOOP_CHc_TRIM (R525). -/
def hookClamp : Hook := loopGuarded hookNone

/-- FORCE becomes `f` (R527): a force is applied at once. -/
def setForce (c : Chip) (ch f : Nat) : Chip :=
  let c1 := setFld c (cellBase ch + 0x24) 0 2 f
  if f = 0 then endForced c1 ch
  else if cellLive c1 ch then applyCell c1 ch else setFld c (cellBase ch + 0x24) 0 2 0

/-- SEQ, trim words and CRC-32 of a copy of the trim store (R532). -/
def trimBytes (seq : Nat) (ws : List Nat) : List Byte :=
  let bs := natLe 4 seq ++ ws.flatMap (natLe 4)
  bs ++ natLe 4 (crc32 bs)

def trimSeq (p : TrimPage) : Nat := leNat (p.bytes.take 4)
def trimWord (p : TrimPage) (ch : Nat) : Nat := leNat ((p.bytes.drop (4 + 4 * ch)).take 4)

/-- The page holds a valid copy: programmed whole, not flagged by its ECC, its CRC correct (R171, R532). -/
def trimValid (p : TrimPage) : Bool :=
  p.bytes.length == 200 && !p.flagged && leNat (p.bytes.drop 196) == crc32 (p.bytes.take 196)

/-- The valid copy of greater SEQ: 0 page A, 1 page B. -/
def trimPage (t : TrimSt) : Option Nat :=
  match trimValid t.a, trimValid t.b with
  | true, true => some (if trimSeq t.a < trimSeq t.b then 1 else 0)
  | true, false => some 0
  | false, true => some 1
  | false, false => none

def trimCopy (t : TrimSt) : Option TrimPage := (trimPage t).map fun k => if k = 0 then t.a else t.b

/-- A STORE leaves a page with its bytes, and the other erased (R533). -/
def trimStored (t : TrimSt) (bs : List Byte) : TrimSt :=
  let p : TrimPage := { bytes := bs, flagged := false }
  let e : TrimPage := { bytes := [], flagged := false }
  if trimPage t = some 0 then { a := e, b := p, storing := none } else { a := p, b := e, storing := none }

/-- STORE: the present trims of all cells are programmed into the page of the older copy, with SEQ one greater (R533,
R534). -/
def beginStore (c : Chip) : Chip :=
  if c.trim.storing.isSome then c
  else
    let q := match trimCopy c.trim with
      | some p => (trimSeq p + 1) % 2 ^ 32
      | none => 1
    let bs := trimBytes q ((List.range 48).map fun ch => (reg c (cellBase ch + 8)).toNat)
    setFlag { c with trim := { c.trim with storing := some bs } } 0x10000C 0 true

/-- STORE_DONE: the new copy is in force, the other page erased, a CONFIG record written. -/
def storeDone (c : Chip) : Chip :=
  match c.trim.storing with
  | some bs =>
    let q := leNat (bs.take 4)
    let c1 := setFld (setFlag { c with trim := trimStored c.trim bs } 0x10000C 0 false) 0x10000C 16 16 q
    nodeRec c1 7 0xFE [0xFE, q]
  | none => c

/-- A page of the trim store whose programming or erasure was cut: what it holds of its bytes, with the byte under way
indeterminate, flagged (R168 to R172). -/
def trimCutPage (c : Chip) (bs : List Byte) (n : Nat) : TrimPage := { bytes := bs.take n ++ [Config.freeByte c.free], flagged := true }

/-- A STORE that is cut: while its page is programmed at byte `reached`; or, from 257 on, while the other page is erased,
the new copy being whole. -/
def trimCut (c : Chip) (reached : Nat) : Chip :=
  match c.trim.storing with
  | some bs =>
    let t := c.trim
    let first := trimPage t = some 0
    let t1 : TrimSt :=
      if reached < 257 then
        (if first then { t with b := trimCutPage c bs reached } else { t with a := trimCutPage c bs reached })
      else
        let t0 := trimStored t bs
        if first then { t0 with a := trimCutPage c [] 0 } else { t0 with b := trimCutPage c [] 0 }
    { (takeFree c) with trim := { t1 with storing := none } }
  | none => c

/-- LOOP_CHc_TRIMCMD: FORCE, then STORE (R179, R196, R527, R528, R533). -/
def hookTrimCmd : Hook := fun w c =>
  let ch := cellOfOff w.off
  let stores := w.val 16 16 == 0x5453 && natBits w.mask 16 16 == 0xFFFF
  -- FORCE 3: reserved, and other than 0 (R196, R528)
  if w.badCode then (if stores || nodeMode c != mService then setFlag c (cellStat ch) 14 true else c)
  else
    let f := fld c w.off 0 2
    let c1 :=
      if natBits w.mask 0 2 = 0 then c
      else if f ≠ 0 ∧ nodeMode c ≠ mService then setFlag (setReg c w.off w.old) (cellStat ch) 14 true
      else setForce c ch f
    if stores then beginStore c1 else c1

def writeTrimCmd (c : Chip) (fn : Fn) (ch : Nat) (v : Word) (be : BitVec 4) : Chip :=
  writeWord hookTrimCmd c fn (cellBase ch + 0x24) v be

/-- The trim store is loaded at start-up: the valid copy with the greater SEQ, or 0 (R532). -/
def loadTrims (c : Chip) : Chip :=
  match trimCopy c.trim with
  | some p =>
    let c1 := (List.range 48).foldl (fun c ch => setReg c (cellBase ch + 8) (BitVec.ofNat 32 (trimWord p ch))) c
    setReg c1 0x10000C (BitVec.ofNat 32 (2 + trimSeq p % 65536 * 65536))
  | none => setReg ((List.range 48).foldl (fun c ch => setReg c (cellBase ch + 8) 0) c) 0x10000C 0

/-- The cell that the buttons trim, when they act (R530). -/
def buttonCell (c : Chip) : Option Nat :=
  let sel := fld c 0x100008 0 6
  if nodeMode c = mService ∧ flag c 0x100008 8 = true ∧ sel < 48 ∧ cellLive c sel = true then some sel else none

/-- Add to a signed field of the trim, stopping at its limit (R531). -/
def stepTrim (c : Chip) (ch lo : Nat) (d lim : Int) : Chip :=
  let v := clampInt (-lim) lim (signed 16 (fld c (cellBase ch + 8) lo 16) + d)
  setFld c (cellBase ch + 8) lo 16 (unsigned 16 v)

/-- One step of BTN_UP or BTN_DN, `k` times the single step. -/
def buttonStep (c : Chip) (ch : Nat) (up : Bool) (k : Int) : Chip :=
  let s : Int := if up then k else -k
  match forceOf c ch with
  | 1 => stepTrim c ch 0 s 2000
  | 2 => stepTrim c ch 16 (10 * s) 10000
  | _ => c

/-- BUTTON_PRESS (R531): 0 BTN_Z, 1 BTN_S, 2 BTN_UP, 3 BTN_DN. -/
def buttonPress (c : Chip) (b : Nat) : Chip :=
  match buttonCell c with
  | none => c
  | some ch =>
    match b with
    | 0 => setForce c ch (if forceOf c ch = 1 then 0 else 1)
    | 1 => setForce c ch (if forceOf c ch = 2 then 0 else 2)
    | 2 => buttonStep c ch true 1
    | _ => buttonStep c ch false 1

/-- BUTTON_REPEAT of a held BTN_UP or BTN_DN; steps are ten times larger from 3 s. -/
def buttonRepeat (c : Chip) (b : Nat) (late : Bool) : Chip :=
  match buttonCell c with
  | none => c
  | some ch => if b < 2 then c else buttonStep c ch (b == 2) (if late then 10 else 1)

/-- BUTTON_STORE_HOLD: FORCE becomes 0, then STORE (R531, R533). -/
def buttonStoreHold (c : Chip) : Chip :=
  match buttonCell c with
  | none => c
  | some ch => beginStore (setForce c ch 0)

/-- The node leaves SERVICE: FORCE of every cell becomes 0 (R529). -/
def clearForces (c : Chip) : Chip :=
  (List.range 48).foldl (fun c ch => if fld c (cellBase ch + 0x24) 0 2 = 0 then c else setForce c ch 0) c

/-- Outputs become live: each cell drives its last applied current or LOOP_CHc_INIT (R151, R499). -/
def cellsGoLive (c : Chip) : Chip :=
  (List.range 48).foldl (fun c ch => if (cell c ch).mode = 0 then c else enterDrive c ch) c

/-! ## What the balls of a cell do (R493, R494) -/

/-- What a ball of a loop-output cell serves for. -/
inductive LoopBall where
  | highZ | notDriven
  | currentOut | loopReturn
  | currentIn | supplyReturn
  | loopPlus | loopMinus
  /-- switch node of the buck converter, and the reservoir capacitor -/
  | switchNode | reservoir
  deriving DecidableEq, Repr

/-- The balls LP, LN and LX. -/
structure LoopBalls where
  lp : LoopBall
  ln : LoopBall
  lx : LoopBall
  deriving DecidableEq, Repr

/-- Use of the balls in a mode (R493). -/
def loopBallsOf (m : Nat) : LoopBalls :=
  match m with
  | 1 => { lp := .currentOut, ln := .loopReturn, lx := .switchNode }
  | 2 => { lp := .currentIn, ln := .supplyReturn, lx := .notDriven }
  | 3 => { lp := .loopPlus, ln := .loopMinus, lx := .reservoir }
  | _ => { lp := .highZ, ln := .highZ, lx := .notDriven }

/-- The balls of a cell now: those of OPEN while it does not drive; LN is open while its switch is (R494, R517). -/
def loopBalls (c : Chip) (ch : Nat) : LoopBalls :=
  let b := loopBallsOf (if cellLive c ch then (cell c ch).mode else 0)
  if cellFlag c ch lfLnOpen then { b with ln := .highZ } else b

/-- How a transmission goes out on the loop. -/
inductive FskForm where
  | nothing | voltage | current
  deriving DecidableEq, Repr

/-- The form of a transmission in progress: a current in LOOP_POWERED, a voltage in the other modes (R493, R494). -/
def fskForm (c : Chip) (ch : Nat) : FskForm :=
  if !flag c (fskReg ch) 1 || !cellLive c ch then .nothing
  else if (cell c ch).mode = 3 then .current else .voltage

end Sys2Proof.Machine
end

