-- ==== Sys2Proof/Machine/Discrete.lean ====
section
/-! DEFINITION. Contacts, pulse inputs and the Notch trip matrix (12_discrete_pulse_trip). What a trip
does to actuator legs is in Actuator. -/

namespace Sys2Proof.Machine

/-! ## Contacts (R548 to R556) -/

def contactDef (_ : Nat) : ContactSt := { cand := 0, count := 0, later := [] }
def contactSt (c : Chip) (n : Nat) : ContactSt := smGet contactDef c.contacts n
def setContact (c : Chip) (n : Nat) (x : ContactSt) : Chip := { c with contacts := smPut contactDef c.contacts n x }

def diCfg (n : Nat) : Nat := 0x130100 + n * 4
def diStat (n : Nat) : Nat := 0x130200 + n * 4
def diCnt (n : Nat) : Nat := 0x130300 + n * 4
def diMode (c : Chip) (n : Nat) : Nat := fld c (diCfg n) 0 2

/-- Thresholds of a contact's group in Ω: SHORT_MAX, CLOSED_MAX, OPEN_MAX. -/
def diThr (c : Chip) (n i : Nat) : Nat := fld c (0x130000 + n / 16 * 4) (10 * i) 10 * 10

/-- Place of a state along R: short, closed, open, wire-break. -/
def diRank (s : Nat) : Nat := ([2, 1, 3, 0] : List Nat).getD s 0

/-- The boundary below the state of a rank, as a threshold index. -/
def rankState (r : Nat) : Nat := ([3, 1, 0, 2] : List Nat).getD r 0

/-- Classification of a sample (R549); none is the compliance limit. -/
def diClass (c : Chip) (n : Nat) (ohm : Option Nat) : Nat :=
  match ohm with
  | none => if diMode c n = 2 then 2 else 0
  | some r =>
    if diMode c n = 2 then
      if r < diThr c n 0 then 3 else if r < diThr c n 1 then 1 else if r < diThr c n 2 then 0 else 2
    else if r < diThr c n 1 then 1 else 0

/-- The sample lies at least 5 % beyond the boundary it crossed (R550): the lower boundary of the new
state when R rose, the upper one when it fell. -/
def diBeyond (c : Chip) (n old new : Nat) (ohm : Option Nat) : Bool :=
  match ohm with
  | none => true
  | some r =>
    if diMode c n = 1 then
      let b := diThr c n 1
      if new = 0 then decide (105 * b ≤ 100 * r) else decide (100 * r ≤ 95 * b)
    else if diRank old < diRank new then decide (105 * diThr c n (diRank new - 1) ≤ 100 * r)
    else decide (100 * r ≤ 95 * diThr c n (diRank new))

/-- The debounced state changes (R551, R554 to R556). -/
def diChange (c : Chip) (n s : Nat) : Chip :=
  let x := contactSt c n
  let catches := flag c (diCfg n) 2
  let lost := !catches && !x.later.isEmpty
  let later := if catches then x.later ++ [s] else [s]
  let c1 := setContact c n { x with cand := s, count := 0, later := later }
  let c2 := countFld (setFld c1 (diStat n) 0 2 s) (diCnt n) 0 16
  let c3 := if lost then countFld c2 (diStat n) 8 8 else c2
  if 2 ≤ s then postPointFault (countFld c3 (diCnt n) 16 16) 0x39 (pt 1 n) s false else c3

/-- CONTACT_SAMPLE (R549 to R551). The front end is powered with SEQ. -/
def contactSample (c : Chip) (n : Nat) (ohm : Option Nat) : Chip :=
  if !domOn c 26 || diMode c n == 0 then c
  else
    let res := match ohm with
      | some r => min 4095 (r / 10)
      | none => 4095
    let c1 := setFld c (diStat n) 16 12 res
    let old := fld c1 (diStat n) 0 2
    let s := diClass c1 n ohm
    let x := contactSt c1 n
    if s ≠ old ∧ diBeyond c1 n old s ohm = true then
      let k := if x.cand = s then x.count + 1 else 1
      if fld c1 (diCfg n) 8 8 ≤ k then diChange c1 n s
      else setContact c1 n { x with cand := s, count := k }
    else setContact c1 n { x with count := 0 }

/-- What a CONTACT entry writes (R552 to R554). -/
def contactEntry (c : Chip) (n : Nat) : Chip :=
  if diMode c n = 0 then c
  else
    let x := contactSt c n
    let s := if flag c (diCfg n) 2 then x.later.headD (fld c (diStat n) 0 2) else fld c (diStat n) 0 2
    let c1 := setContact c n { x with later := if flag c (diCfg n) 2 then x.later.drop 1 else [] }
    let w := qw32To { mant := s, exp := 0, unit := 0, qual := if 2 ≤ s then 3 else 0 }
    writeLive c1 (pt 1 n) w (if 2 ≤ s then flFault else 0)

/-- R583: thresholds that are out of order are discarded.

DESIGN CHOICE: CFG_REJ sets for each contact of the group; the chapter does not say whose (log 134). -/
def hookDiThr : Hook := fun w c =>
  let v := (reg c w.off).toNat
  let s := natBits v 0 10
  let k := natBits v 10 10
  let o := natBits v 20 10
  if s < k ∧ k < o ∧ o ≤ 280 then c
  else
    let g := w.off % 0x100 / 4 * 16
    postError ((List.range 16).foldl (fun c k => setFlag c (diStat (g + k)) 2 true) (unwrite c w)) 0x38 (pt 1 g) (w.off % 0x10000)

/-- A contact's MODE of reserved code is kept (R195). With CATCH 0 the entry writes the current state alone: the changes
that waited before the last one are missed (R554, R555). -/
def hookDiCfg : Hook := fun w c =>
  let n := (w.off - 0x130100) / 4
  let later := (contactSt c n).later
  if flag c w.off 2 then c
  else
    (List.range (later.length - 1)).foldl (fun c _ => countFld c (diStat n) 8 8)
      (setContact c n { contactSt c n with later := later.reverse.take 1 })

/-! ## Pulse inputs (R557 to R564) -/

def pulseDef (_ : Nat) : PulseSt := { level := false, ref := none, last := 0, edges := 0, fNum := 0, fDen := 1 }
def pulseSt (c : Chip) (m : Nat) : PulseSt := smGet pulseDef c.pulses m
def setPulse (c : Chip) (m : Nat) (x : PulseSt) : Chip := { c with pulses := smPut pulseDef c.pulses m x }

def piBase (m : Nat) : Nat := 0x130400 + m * 0x20
def piEn (c : Chip) (m : Nat) : Bool := flag c (piBase m) 0

/-- f in Hz. -/
def pulseFreq (x : PulseSt) : Rat := if x.fDen = 0 then 0 else (x.fNum : Rat) / (x.fDen : Rat)

/-- Ticks of 2.5 ns in a second. -/
def pulseTicks : Nat := 400000000

/-- COUNT, 48 bits. -/
def pulseCount (c : Chip) (m : Nat) : Nat := (reg c (piBase m + 0x14)).toNat + (reg c (piBase m + 0x18)).toNat * 2 ^ 32

def setPulseCount (c : Chip) (m n : Nat) : Chip :=
  setReg (setReg c (piBase m + 0x14) (BitVec.ofNat 32 n)) (piBase m + 0x18) (BitVec.ofNat 32 (n / 2 ^ 32 % 65536))

/-- The comparator's output at a differential voltage in mV, with its hysteresis (R557). -/
def piLevel (c : Chip) (m : Nat) (mv : Int) : Bool :=
  let thr := (reg c (piBase m + 4)).toNat
  if signed 8 (natBits thr 0 8) * 50 < mv then true
  else if mv < signed 8 (natBits thr 8 8) * 50 then false
  else (pulseSt c m).level

/-- MINW in units of 2.5 ns. -/
def piMinw (c : Chip) (m : Nat) : Nat := fld c (piBase m) 8 8 * 40

/-- An edge is counted: rising with EDGE 0, falling with EDGE 1 (R558). -/
def piCounts (c : Chip) (m : Nat) (level : Bool) : Bool := piEn c m && level != flag c (piBase m) 1

/-- A counted edge is timestamped and added to the count (R558, R563). -/
def countEdge (c : Chip) (m time : Nat) : Chip :=
  let x := pulseSt c m
  let y : PulseSt := match x.ref with
    | none => { x with ref := some time, last := time, edges := 0 }
    | some _ => { x with last := time, edges := x.edges + 1 }
  setFlag (setPulseCount (setPulse c m y) m (pulseCount c m + 1)) (piBase m + 0x10) 1 false

/-- PULSE_EDGE: the comparator takes a new level, unless the pulse that begins here is shorter than MINW (R557, R558). -/
def pulseEdge (c : Chip) (m : Nat) (e : PulseStep) : Chip :=
  let l := piLevel c m e.mv
  if !domOn c 26 || l == (pulseSt c m).level || decide (e.width < piMinw c m) then c
  else
    let c1 := setPulse c m { pulseSt c m with level := l }
    if piCounts c m l then countEdge c1 m e.time else c1

/-- OVER follows f (R562). -/
def pulseOver (c : Chip) (m : Nat) : Chip :=
  setFlag c (piBase m + 0x10) 0 (decide (110000 < pulseFreq (pulseSt c m)))

/-- TIMEOUT ms have passed since the last edge (R560). -/
def pulseStopped (c : Chip) (m time : Nat) : Bool :=
  flag c (piBase m + 0x10) 1 || decide ((pulseSt c m).last + fld c (piBase m + 4) 16 16 * (pulseTicks / 1000) ≤ time)

/-- GATE_END: a frequency is taken (R559), or the falling bound of R560; f is 0 once TIMEOUT has passed since the last edge. -/
def gateEnd (c : Chip) (m time : Nat) : Chip :=
  if !domOn c 26 || !piEn c m then c
  else
    let x := pulseSt c m
    match x.ref with
    | none => c
    | some r =>
      let y : PulseSt :=
        if 1 ≤ x.edges ∧ r < x.last then
          { x with ref := some x.last, edges := 0, fNum := x.edges * pulseTicks, fDen := x.last - r }
        else if x.edges = 0 ∧ x.last < time ∧ pulseTicks * x.fDen < x.fNum * (time - x.last) then
          { x with fNum := pulseTicks, fDen := time - x.last }
        else x
      pulseOver (setPulse c m (if pulseStopped c m time then { y with fNum := 0, fDen := 1 } else y)) m

/-- PULSE_TIMEOUT: f becomes 0 (R560). -/
def pulseTimeout (c : Chip) (m : Nat) : Chip :=
  if !domOn c 26 || !piEn c m then c
  else
    let c1 := setPulse c m { pulseSt c m with fNum := 0, fDen := 1 }
    setFlag (pulseOver c1 m) (piBase m + 0x10) 1 true

/-- SCALE of a pulse input. -/
def pulseScale (c : Chip) (m : Nat) : Qw := qw64Of ((reg c (piBase m + 8)).toNat + (reg c (piBase m + 0xC)).toNat * 2 ^ 32)

def pulseExp (c : Chip) (m : Nat) : Int := signed 4 (fld c (piBase m) 4 4)

/-- What a PULSE entry writes (R561, R562). -/
def pulseEntry (c : Chip) (m : Nat) : Chip :=
  let f := pulseFreq (pulseSt c m)
  let s := pulseScale c m
  let fast := decide (110000 < f)
  writeValue c (pt 3 m) (f * qwValue s) (pulseExp c m) s.unit 0 (if fast then flOver else 0)

/-- THR_LO lies below THR_HI (R584). -/
def piThrOk (c : Chip) (m : Nat) : Bool :=
  let v := (reg c (piBase m + 4)).toNat
  decide (signed 8 (natBits v 8 8) < signed 8 (natBits v 0 8))

/-- A write of a pulse input's set-up is discarded: CFG_REJ and DIO_CONFIG. -/
def piReject (c : Chip) (w : WriteCtx) (m off : Nat) : Chip :=
  postError (setFlag (unwrite c w) (piBase m + 0x10) 2 true) 0x38 (pt 3 m) (off % 0x10000)

/-- DIO_PIm_THR (R584). -/
def hookPiThr : Hook := fun w c =>
  let m := (w.off - 0x130400) / 0x20
  if piThrOk c m then c else piReject c w m w.off

/-- DIO_PIm_CFG, and DIO_PIm_THR in the same write, which is discarded whole under R584. EN set: f is 0 until two edges
give the first measurement (R560), and the count starts anew (R563). -/
def hookPiCfg : Hook := fun w c =>
  let m := (w.off - 0x130400) / 0x20
  if w.pair.isSome && !piThrOk c m then piReject c w m (piBase m + 4)
  else if !natBit w.old.toNat 0 && flag c w.off 0 then
    setFlag (setPulseCount (setPulse c m { pulseDef 0 with level := (pulseSt c m).level }) m 0) (piBase m + 0x10) 0 false
  else c

/-! ## Notch (R565 to R578) -/

def tripEntDef (_ : Nat) : TripEnt := { flags := 0, actMask := 0, terms := [] }
def codeDef (_ : Nat) : Nat := 0

def tripEnt (c : Chip) (j : Nat) : TripEnt := smGet tripEntDef c.trips.ents j
def tripCode (c : Chip) (j : Nat) : Nat := smGet codeDef c.trips.code j

def tripEn (e : TripEnt) : Bool := natBit e.flags 0
def tripLatch (e : TripEnt) : Bool := natBit e.flags 1
def tripClrArm (e : TripEnt) : Bool := natBit e.flags 2
def tripPol (e : TripEnt) : Bool := natBit e.flags 3

/-- A term over the input levels: AND or OR of the inputs taken, some inverted. -/
def termTrue (inputs : Nat) (t : Nat × Nat × Nat) : Bool :=
  let x := inputs ^^^ t.2.1
  match t.2.2 with
  | 1 => (x &&& t.1) == t.1
  | 2 => (x &&& t.1) != 0
  | _ => false

/-- The cause C_j (R565). -/
def causeOf (e : TripEnt) (inputs : Nat) : Bool := tripEn e && e.terms.any (termTrue inputs)

/-- The mask of trips in a set of numbers. -/
def tripMask (p : Nat → Bool) : Nat := ((List.range 32).map fun j => if p j then 2 ^ j else 0).sum

def causesOf (c : Chip) (inputs : Nat) : Nat := tripMask fun j => causeOf (tripEnt c j) inputs

/-- A trip is asserted in every state but CLEAR (R572). -/
def assertedMask (c : Chip) : Nat := tripMask fun j => tripCode c j != 0

/-- Level of TOj (R566, R567). -/
def tripOutput (c : Chip) (j : Nat) : Bool :=
  tripEn (tripEnt c j) && (tripCode c j != 0) != tripPol (tripEnt c j)

/-- Legs whose gates asserted trips hold low (R579). -/
def tripLegs (c : Chip) : Nat :=
  (List.range 32).foldl (fun m j => if tripCode c j = 0 then m else m ||| (tripEnt c j).actMask) 0

/-- Load a trip's state code; a change keeps its OT, and an entry to ACTIVE its own until the snapshot (R577). -/
def setTripCode (c : Chip) (j s : Nat) : Chip :=
  if tripCode c j = s then c
  else { c with trips := { c.trips with
          code := smPut codeDef c.trips.code j s
          ots := smPut codeDef c.trips.ots j c.ot
          entries := if s = 1 && !natBit c.trips.fresh j then smPut codeDef c.trips.entries j c.ot else c.trips.entries
          fresh := if s = 1 then c.trips.fresh ||| 2 ^ j else c.trips.fresh } }

/-- State after the cause changed (R572). -/
def tripNext (e : TripEnt) (s : Nat) (was now : Bool) : Nat :=
  if !tripEn e then 0
  else if !was && now then (if s = 3 then 3 else 1)
  else if was && !now then
    match s with
    | 1 => if tripLatch e then 2 else 0
    | 3 => 0
    | _ => s
  else s

/-- Trips that leave CLEAR for ACTIVE in one cycle are counted, and the first of them captured (R578). -/
def tripCapture (c : Chip) (entered before : Nat) : Chip :=
  let c1 := (List.range 32).foldl (fun c j => if natBit entered j then countFld c (0x130900 + j * 4) 0 16 else c) c
  if entered = 0 ∨ before ≠ 0 ∨ flag c 0x130818 7 then c1
  else
    let js := (List.range 32).filter fun j => natBit entered j
    let v := js.headD 0 + (if 1 < js.length then 32 else 0) + 128
    setReg (setReg c1 0x130818 (BitVec.ofNat 32 v)) 0x13081C (BitVec.ofNat 32 c.trips.inputs)

/-- Every trip follows the levels and terms in force, in one cycle (R571, R572). -/
def tripFollow (c : Chip) : Chip :=
  let before := assertedMask c
  let was := c.trips.causes
  let now := causesOf c c.trips.inputs
  let c1 := (List.range 32).foldl (fun k j =>
    setTripCode k j (tripNext (tripEnt c j) (tripCode c j) (natBit was j) (natBit now j))) c
  let entered := tripMask fun j => tripCode c j == 0 && tripCode c1 j == 1
  tripCapture { c1 with trips := { c1.trips with causes := now } } entered before

/-- The entry of a trip in a copy of the table (R568). -/
def readTripEnt (c : Chip) (base j : Nat) : TripEnt :=
  let o := base + 0x100 + j * 0x80
  { flags := tmem c o 1, actMask := tmem c (o + 4) 2,
    terms := (List.range 4).map fun t => (tmem c (o + 0x10 + t * 0x10) 4, tmem c (o + 0x14 + t * 0x10) 4, tmem c (o + 0x18 + t * 0x10) 1) }

/-- New terms and flags apply in one cycle (R571, R576). -/
def tripLoad (c : Chip) : Chip :=
  let base := tblBase c 9
  let ents := (List.range 32).foldl (fun m j => smPut tripEntDef m j (readTripEnt c base j)) []
  tripFollow { c with trips := { c.trips with ents := ents } }

/-- TRIP_CLEAR of a trip: its state, and the completion's status and RESULT (R572). -/
def tripClear (c : Chip) (j : Nat) : Chip × Nat × Nat :=
  match tripCode c j with
  | 0 => (c, stSuccess, 1)
  | 1 => if tripClrArm (tripEnt c j) then (setTripCode c j 3, stArmedClear, 0) else (c, stClearRejected, 0)
  | 2 => (setTripCode c j 0, stSuccess, 0)
  | _ => (c, stArmedClear, 0)

/-- A clear held for the old owner is cancelled (R317, R572). -/
def tripOwnerChange (c : Chip) (j : Nat) : Chip :=
  if tripCode c j = 3 then setTripCode c j 1 else c

/-- A trip point's word (R577). -/
def tripWord (s : Nat) : Nat := qw32To { mant := s, exp := 0, unit := 0, qual := 0 }

/-- TRIP_INPUT_COPY: trip input levels go to their points at every base tick (R577). -/
def tripInputCopy (c : Chip) : Chip :=
  (List.range 32).foldl (fun c i => writeLive c (pt 4 i) (tripWord (b2n (natBit c.trips.inputs i))) 0) c

/-- TRIP registers computed from the matrix. -/
def tripView (c : Chip) (off : Nat) : Option Nat :=
  match off with
  | 0x130804 => some c.trips.inputs
  | 0x130808 => some c.trips.causes
  | 0x13080C => some (assertedMask c)
  | 0x130810 => some (((List.range 16).map fun j => tripCode c j * 4 ^ j).sum)
  | 0x130814 => some (((List.range 16).map fun j => tripCode c (16 + j) * 4 ^ j).sum)
  | _ => none

end Sys2Proof.Machine
end

