-- ==== Sys2Proof/Machine/Front.lean ====
section
/-! DEFINITION. What the balls of analog banks and contacts do: the four balls of each channel, the excitation and the test tone it
drives, GUARD_Bn, and the excitation of contacts (09_analog_front_end, 10_conversion_calibration,
12_discrete_pulse_trip). They follow from the state; no command reads them. -/

namespace Sys2Proof.Machine

/-- What a ball of a channel serves for (R376, R393). -/
inductive BallUse where
  | highZ
  /-- input + and input − of a voltage -/
  | inPlus | inMinus
  /-- current in to the 50 Ω shunt, and its return (R388) -/
  | shuntIn | shuntReturn
  /-- excitation source or return that is sensed too -/
  | sourceSense | returnSense
  | source | ret
  | sense | sensePlus | senseMinus
  /-- sense of the lead that carries the current (R393) -/
  | leadSense
  | sinePlus | sineMinus
  /-- constant current and signal (R407) -/
  | currentSignal
  deriving DecidableEq, Repr

/-- The balls EXA, SNA, SNB and EXB. -/
structure Balls where
  exa : BallUse
  sna : BallUse
  snb : BallUse
  exb : BallUse
  deriving DecidableEq, Repr

def openBalls : Balls := { exa := .highZ, sna := .highZ, snb := .highZ, exb := .highZ }

/-- Use of the balls in a mode; `phaseB` is the excitation phase of RTD3 (R376, R393). -/
def ballsOfMode (m : Nat) (phaseB : Bool) : Balls :=
  match m with
  | 1 | 6 => { openBalls with sna := .inPlus, snb := .inMinus }
  | 2 => { openBalls with sna := .shuntIn, snb := .shuntReturn }
  | 3 => { openBalls with exa := .sourceSense, exb := .returnSense }
  | 4 =>
    if phaseB then { openBalls with exa := .leadSense, sna := .source, exb := .returnSense }
    else { openBalls with exa := .source, sna := .sense, exb := .returnSense }
  | 5 => { exa := .source, sna := .sensePlus, snb := .senseMinus, exb := .ret }
  | 7 | 8 => { exa := .sinePlus, sna := .sensePlus, snb := .senseMinus, exb := .sineMinus }
  | 9 => { openBalls with exa := .currentSignal, exb := .returnSense }
  | _ => openBalls

/-- The channel is connected to its balls: start-up has reached its first frame, the channel works, no protection switch is
open, and a cell serves it (R146, R377, R378, R415, R450). -/
def connected (c : Chip) (ch : Nat) : Bool := !starting c && measures c ch && !cellLost c ch

/-- The balls of a channel. A shunt that is disconnected leaves SNA and SNB open (R415). -/
def chBalls (c : Chip) (ch : Nat) : Balls :=
  let a := anaSt c ch
  if !connected c ch || (mdMode a.aMode == 2 && flag c (chStat ch) 2) then openBalls else ballsOfMode (mdMode a.aMode) a.phaseB

/-- The excitation that a channel drives: none; a current in µA, with its compliance in mV; such a current that is reversed,
and the sense polarity with it, at a frequency in Hz; or a sine by its frequency in kHz and peak differential amplitude in
mV. -/
inductive Excitation where
  | none
  | current (uA compliance : Nat)
  | chopped (uA compliance hz : Nat)
  | sine (kHz mV : Nat)
  deriving DecidableEq, Repr

/-- MCLK / 1,024 in Hz (R392). -/
def chopHz : Nat := 10000

/-- The excitation of a set-up (R389, R392, R407, with the fields of ACQ_CHc_EXC). The reversal is removed inside the modulator,
so no output shows it. -/
def excitationOf (md exc : Nat) : Excitation :=
  let n := (nominalExc md exc).getD 0 / 1000
  match mdMode md with
  | 3 | 5 => if mdChop md = 1 then .chopped n 3500 chopHz else .current n 3500
  | 4 => .current n 3500
  | 7 | 8 => .sine (natBits exc 0 6 + 1) n
  | 9 => .current n 24000
  | _ => .none

/-- The excitation that a channel drives now (R377, R378, R389, R407, R415). -/
def chExcitation (c : Chip) (ch : Nat) : Excitation :=
  if connected c ch then excitationOf (anaSt c ch).aMode (anaSt c ch).aExc else .none

/-- The test tone that a channel drives: its peak current in nA, its frequency in Hz, and whether it is applied
differentially, for the loop check, and in common mode, for the insulation check (R481, R482). -/
structure TestTone where
  peak : Nat
  hz : Nat
  differential : Bool
  common : Bool
  deriving DecidableEq, Repr

/-- The smallest multiple of an output rate that is at least 2,560 Hz and at least twice the rate (R482). -/
def toneHz (rate : Nat) : Nat := rate * max 2 ((2560 + rate - 1) / rate)

/-- The test tone of a channel now: while its check runs. -/
def testTone (c : Chip) (ch : Nat) : Option TestTone :=
  let a := anaSt c ch
  if a.tone && connected c ch then
    some { peak := 1000, hz := toneHz (rateOf (natBits a.aFilt 4 5)),
           differential := (toneChecks a.aMode).1, common := (toneChecks a.aMode).2 }
  else none

/-- The excitation of a contact: none in MODE 0 or without the SEQ domain's power, else 4 mA within 12 V (R548, R552). -/
def contactExcitation (c : Chip) (n : Nat) : Excitation :=
  if diMode c n = 0 || starting c || !(domOn c 26 || inSentry c 26) then .none else .current 4000 12000

/-- A ball of a channel by its name. -/
inductive Ball where
  | exa | sna | snb | exb
  deriving DecidableEq, Repr

/-- The phase of an RTD3 channel: where the current leaves the node and returns, and the pairs that the main modulator and
the lead monitor see (R393). -/
structure LeadPhase where
  source : Ball
  ret : Ball
  main : Ball × Ball
  monitor : Ball × Ball
  deriving DecidableEq, Repr

def leadPhase (phaseB : Bool) : LeadPhase :=
  if phaseB then { source := .sna, ret := .exb, main := (.exa, .exb), monitor := (.sna, .exa) }
  else { source := .exa, ret := .exb, main := (.sna, .exb), monitor := (.exa, .sna) }

/-- What drives GUARD_Bn: nothing, AGND, the bank mid-rail of 2.500 V, or the mean of V(SNA) and V(SNB) of a channel. -/
inductive GuardDrive where
  | highZ
  | agnd
  | midRail
  | follow (ch : Nat)
  deriving DecidableEq, Repr

/-- GUARD_Bn of a bank (R146, R420 to R422). -/
def guardDrive (c : Chip) (b : Nat) : GuardDrive :=
  if !afeOn c b || starting c then .highZ
  else
    let r := bankBase b + 0x10
    match fld c r 0 2 with
    | 0 => .highZ
    | 1 => .agnd
    | 2 => .midRail
    | _ =>
      let ch := b * 16 + fld c r 4 4
      if mdMode (anaSt c ch).aMode = 0 || protOpen c ch then .agnd else .follow ch

end Sys2Proof.Machine
end

