-- ==== Sys2Proof/Machine/Actuator.lean ====
section
/-! DEFINITION. Actuator legs: arming, duty, shorts, watchdog; what trips do to legs; position interfaces
(13_actuator_drive). -/

namespace Sys2Proof.Machine

/-- ACT_STAT and ACT_POSn_IDX, computed on reading. -/
def actView (c : Chip) (off : Nat) : Option Nat :=
  if off = 0x140000 then
    some (b2n (vdrvOk c) + ((List.range 12).map fun n => if legState c n = 2 then 2 ^ (16 + n) else 0).sum)
  else if 0x140800 ≤ off ∧ off < 0x140880 ∧ off % 0x20 = 0xC then
    let b := off - 0xC
    let cpr := fld c (b + 4) 0 20
    let mech := (signed 32 (reg c (b + 8)).toNat % Int.ofNat (max cpr 1)).toNat
    some (mech + (mech * fld c (b + 4) 24 4 % max cpr 1 * 1024 / max cpr 1) * 2 ^ 20)
  else none

/-! ## Trips and legs (R579 to R582) -/

/-- Asserted trips hold the gates of their legs low (R579 to R581). Of a leg that a short has turned off in this carrier period
the trip's hard turn-off takes the place of the soft one (R591). -/
def legsFollowTrips (c : Chip) : Chip :=
  let m := tripLegs c
  (List.range 12).foldl (fun c n => if natBit m n && (leg c n).soft then modLeg c n fun x => { x with soft := false } else c)
    (legsOff c m 4)

/-- Trip input levels change (TRIP_CAUSE_RISE, TRIP_CAUSE_FALL): the matrix follows, and with it the legs. -/
def tripInputs (c : Chip) (inputs : Nat) : Chip :=
  legsFollowTrips (tripFollow { c with trips := { c.trips with inputs := inputs % 2 ^ 32 } })

/-! ## Arming (R588 to R595) -/

/-- Code of the first arm condition that fails, 0 when all hold (R589). In DEGRADED a leg that depends on an unusable entry
does not run live (R129). -/
def armRej (c : Chip) (n : Nat) : Nat :=
  let ns := match pairOf c n with
    | some (a, b) => [a, b]
    | none => [n]
  if !outputsLive c || (nodeMode c == mDegraded && ns.any fun k => outBad c (legPt k)) then 1
  else if !vdrvOk c then 2
  else if !domOn c 22 then 3
  else if ns.any fun k => natBit (tripLegs c) k then 4
  else if (liveQw c (legPt n)).qual = 3 then 7
  else if ns.any fun k => (leg c k).firing || (leg c k).vds then 8
  else if !wellFormedGroup c n then 10
  else 0

/-- A leg enters PRECHARGE. -/
def precharge (c : Chip) (n : Nat) : Chip :=
  if legUp c n then c
  else setFld (setFld c (legStat n) 0 2 1) (legStat n) 3 3 0

/-- An arm request (R588 to R590, R595). -/
def armLeg (c : Chip) (n : Nat) : Chip :=
  let r := armRej c n
  if r ≠ 0 then setFld c (legStat n) 12 4 r
  else match pairOf c n with
    | some (a, b) => precharge (precharge c a) b
    | none => precharge c n

/-- Leg of a register in a leg page. -/
def legOfOff (off : Nat) : Nat := (off % 0x10000 - 0x100) / 0x40

/-- ACT_LEGn_CTRL: EN 1 is an arm request, EN 0 disarms; EN of a follower is ignored (R588, R590, R595). -/
def hookLegCtrl : Hook := fun w c =>
  let n := legOfOff w.off
  if isFollower c n then c
  else if flag c w.off 0 then armLeg c n
  else if natBit w.mask 0 then legLeave c n 0 6
  else c

def writeLegCtrl (c : Chip) (fn : Fn) (n : Nat) (v : Word) (be : BitVec 4) : Chip :=
  writeWord hookLegCtrl c fn (legBase n + 0x10) v be

/-- PRECHARGE_END: the bootstrap is charged and the leg is ARMED (R590). -/
def prechargeEnd (c : Chip) (n : Nat) : Chip :=
  if legState c n = 1 ∧ domOn c 22 = true then setFld c (legStat n) 0 2 2 else c

/-! ## Duty (R596, R597 and the text above R598) -/

/-- PERIOD of a leg's group: that of its lowest leg (R593). -/
def legPeriod (c : Chip) (n : Nat) : Nat := fld c (legBase (lowestOf c n)) 0 15

/-- Keep t_on within its limits. -/
def limitTon (c : Chip) (n : Nat) (t : Int) : Nat :=
  let dt : Int := fld c (legBase n + 4) 0 10
  let lim : Int := legPeriod c n - 2 * dt - 400
  let t1 := if lim < t then lim else t
  if t1 < 2 * dt then 0 else t1.toNat

/-- The demand in 0.01 %: a QW32 of exponent −2 carries it in its mantissa (R596). -/
def demandDuty (w : Nat) : Int := roundHE (qwValue (qw32Of w) * 100)

/-- DMIN and DMAX taken at the last carrier zero. -/
def clampDuty (c : Chip) (n : Nat) (d : Int) : Int :=
  let k := (leg c n).clamp
  let lo := signed 16 (natBits k 0 16)
  let hi := signed 16 (natBits k 16 16)
  max lo (min hi d) |> fun x => if hi < lo then hi else x

/-- The word of a leg after an application, as the write-back of a cell: not over a substituted word, which
stands until the producer's next write (R1189, R1190), and STALE stays. -/
def legWrite (c : Chip) (n : Nat) (d : Int) (qual fl : Nat) : Chip :=
  let p := legPt n
  let e := point c p
  if e.subst || natBit e.flags 2 then c
  else
    let st := legState c n
    -- a leg that depends on an unusable entry is held (R39)
    let q := worst qual (if st = 0 ∨ flag c (legStat n) 2 = true ∨ outBad c p = true then 2 else 0)
    let fl' := fl ||| (if st = 3 then flFault else 0) ||| (e.flags &&& flStale)
    let w := qw32To (qwFlagged { mant := d, exp := -2, unit := 11, qual := q } fl')
    setPoint c p { e with live := w, flags := fl' }

/-- t_on of a duty before its limits: of the leader and the follower of a pair, or of a leg on its own (R597). -/
def tonOf (c : Chip) (n : Nat) (d : Int) : Int :=
  let per : Int := legPeriod c n
  match pairOf c n with
  | some (a, _) => roundHE (((10000 + if n = a then d else -d) * per : Int) / 20000 : Rat)
  | none => roundHE ((d * per : Int) / 10000 : Rat)

/-- The duty that the next carrier zero latches, of a leg and its partner. -/
def setDuty (c : Chip) (n : Nat) (d : Int) : Chip :=
  (n :: (partner c n).toList).foldl (fun c k =>
    modLeg c k fun x => { x with next := some (limitTon c k (tonOf c k d)), duty := d }) c

/-- The application of a duty to a leg on its own, or to a leader and its follower. -/
def applyDuty (c : Chip) (n : Nat) (d : Int) (qual : Nat) (clamped : Bool) : Chip :=
  let c1 := setDuty c n d
  let cut (k : Nat) : Nat := if clamped || (limitTon c k (tonOf c k d) : Int) != tonOf c k d then flOver else 0
  match pairOf c n with
  | some (a, b) =>
    let per : Int := legPeriod c n
    let db := if per = 0 then 0 else roundHE (((limitTon c b (tonOf c b d) : Int) * 10000 : Int) / (per : Rat))
    legWrite (legWrite c1 a d qual (cut a)) b db qual (cut b)
  | none => legWrite c1 n d qual (cut n)

/-- The legs whose watchdog an application of a leg's word restarts (R604). -/
def legsApplied (c : Chip) (n : Nat) : List Nat := n :: (partner c n).toList

/-- A base tick begins: an expiry from here on falls in no cycle of the applications before it.

DESIGN CHOICE: the cycle of R606 is the base tick in which the word is applied (log 99). -/
def legsTick (c : Chip) : Chip := (List.range 12).foldl (fun c n => modLeg c n fun x => { x with fresh := none }) c

/-- Apply the demand of a leg: a bad demand holds the last duty and sets HOLD. -/
def applyLeg (c : Chip) (n : Nat) : Chip :=
  if !(domOn c 22 && outputsLive c && !c.gate) || isFollower c n then c
  else
    let c := (legsApplied c n).foldl (fun c k => modLeg c k fun x => { x with fresh := some c.ot }) c
    let w := (leg c n).dem
    if w % 4 = 3 then
      applyDuty (setFlag c (legStat n) 2 true) n (leg c n).duty 2 false
    else
      let d := demandDuty w
      let dc := clampDuty c n d
      applyDuty (setFlag c (legStat n) 2 false) n dc (w % 4) (dc != d)

def setLegDemand (c : Chip) (n w : Nat) : Chip := modLeg c n fun x => { x with dem := w }

/-- A producer or SUBSTITUTE writes an output point: the word becomes the demand of its cell or leg. -/
def demandPoint (c : Chip) (p w : Nat) : Chip :=
  if pClass p = 5 then setDemand c (pIndex p) w
  else if pClass p = 6 then setLegDemand c (pIndex p) w else c

/-- Apply an output point to its cell or leg (R340, R350, R503). -/
def applyPoint (c : Chip) (p : Nat) : Chip :=
  if pClass p = 5 then applyCell c (pIndex p)
  else if pClass p = 6 then applyLeg c (pIndex p) else c

/-! ## Gates (R586, R587, R590 and the text above R598) -/

/-- The level of a gate; while a detector fires in blanking the gate that is on is at the clamp level (R599). -/
inductive GateLevel where
  | low | high | clamped
  deriving DecidableEq, Repr

structure Gates where
  gh : GateLevel
  gl : GateLevel
  deriving DecidableEq, Repr

/-- The gates of a switching leg, `h` half engine cycles after its carrier zero: GL is centred at the zero, GH at PERIOD / 2;
each is off for DT before the other is on. -/
def carrierGates (per ton dt h : Nat) : Gates :=
  if ton = 0 then { gh := .low, gl := .high }
  else
    { gh := if per < h + (ton - dt) ∧ h < per + (ton - dt) then .high else .low
      gl := if h < per - ton - dt ∨ 2 * per < h + (per - ton - dt) then .high else .low }

/-- The gates of a leg, `h` half engine cycles after its carrier zero: low but in PRECHARGE and ARMED; GL stays on from
PRECHARGE to the first carrier zero (R586, R590). t_on stays within the limits that PERIOD gives now, so that the gates keep
their dead time where the group's PERIOD has changed since it was applied (R587). -/
def legGates (c : Chip) (n h : Nat) : Gates :=
  let x := leg c n
  let on (l : GateLevel) : GateLevel := if l = .high ∧ x.clamped = true then .clamped else l
  match legState c n with
  | 1 => { gh := .low, gl := on .high }
  | 2 =>
    let g := if x.runs then carrierGates (legPeriod c n) (limitTon c n (fld c (legBase n + 0x18) 0 15 : Nat)) (fld c (legBase n + 4) 0 10) h
      else { gh := .low, gl := .high }
    { gh := on g.gh, gl := on g.gl }
  | _ => { gh := .low, gl := .low }

/-! ## Shorts (R598 to R603) -/

/-- FAULT_COUNT, ACT_SHORT and a FAULT event to the owner (R603). -/
def shortReport (c : Chip) (n extra : Nat) : Chip :=
  postPointFault (countFld c (legStat n) 24 8) 0x41 (legPt n) (fld c (legStat n) 3 2 + extra) false

/-- Enter FAULTED from any state, by the soft path or with the gates low at once; the partner of a pair leaves service. A
trip's hard turn-off takes the place of the soft one (R591, R598). -/
def legFault (soft : Bool) (c : Chip) (n : Nat) : Chip :=
  if legState c n = 3 then c
  else
    let c1 :=
      if legUp c n then legLeave c n 3 8
      else if (leg c n).left then setFld (setFld c (legStat n) 0 2 3) (legStat n) 8 4 8
      else setFld c (legStat n) 0 2 3
    shortReport (modLeg c1 n fun x => { x with soft := soft && !natBit (tripLegs c) n, vds := false }) n 0

/-- Legs of one group have fired in one carrier period: the whole group faults (R602). -/
def crossShort (c : Chip) (n : Nat) : Chip :=
  let g := groupOf c n
  let c1 := (g.filter fun k => (leg c k).fired).foldl (fun c k => setFlag c (legStat k) 4 true) c
  g.foldl (fun c k => modLeg (legFault false c k) k fun x => { x with soft := false }) c1

/-- The phase-current detector fires: |V(ISPn) − V(ISNn)|, in 20 µV, exceeds SC_THR (R598). -/
def phaseFires (c : Chip) (n : Nat) (s : LegSense) : Bool := decide (natBits (leg c n).sc 0 9 * 50 < s.isense.natAbs)

/-- A detector that needs a gate on fires: V(SWn), in mV, against VDS_LIM with GL on or SW_MIN with GH on (R598). -/
def gateFires (c : Chip) (n : Nat) (s : LegSense) : Bool :=
  let sc := (leg c n).sc
  (!s.high && decide ((natBits sc 16 8 : Int) * 50 < s.sw))
    || (s.high && natBits sc 24 8 != 0 && decide (s.sw < (natBits sc 24 8 : Int) * 500))

/-- What the short detectors of a leg see makes one fire. -/
def detectorFires (c : Chip) (n : Nat) (s : LegSense) : Bool := phaseFires c n s || gateFires c n s

/-- The detectors have power: ACT is ON or turns off. -/
def legsPowered (c : Chip) : Bool := domOn c 22 || (dom c 22).turning

/-- A short of the leg is a fault of it: it is in PRECHARGE or ARMED, or left service in this carrier period (R590, R591). -/
def shortLive (c : Chip) (n : Nat) : Bool := legUp c n || (leg c n).left

/-- Detectors of a leg fire, of which `gate` needs a gate on: in blanking the gate is clamped, outside it the leg faults; with
another leg of its group that fires in this carrier period, in service or not, the whole group does (R598 to R602). A leg
that has left service in this carrier period still ends in FAULTED (R591).

DESIGN CHOICE: the cycle of R591 is the carrier period (log 99). -/
def shortFires (c : Chip) (n : Nat) (phase gate blanking : Bool) : Chip :=
  let live := shortLive c n
  if !legsPowered c || !(phase || live) then c
  else
    let c1 := modLeg c n fun x =>
      { x with firing := phase, vds := gate && legUp c n, fired := true, clamped := blanking && legUp c n }
    let c2 := if blanking || !live then c1 else setFlag c1 (legStat n) 3 true
    if 2 ≤ ((groupOf c2 n).filter fun k => (leg c2 k).fired).length then crossShort c2 n
    else if blanking || !live then c2
    else legFault true c2 n

/-- SHORT_DETECTOR_FIRE: what the detectors of a leg see. Where it makes none fire, none does any more.

DESIGN CHOICE: between the rows that tell what it sees, the phase-current detector stays as the last one left it (log 150). -/
def shortDetectorFire (c : Chip) (n : Nat) (s : LegSense) (blanking : Bool) : Chip :=
  if detectorFires c n s then shortFires c n (phaseFires c n s) (gateFires c n s) blanking
  else if (leg c n).firing || (leg c n).vds then modLeg c n fun x => { x with firing := false, vds := false } else c

/-- BLANKING_END: still firing, the leg faults, also one that left service in this carrier period; otherwise the clamp is
released (R591, R600, R601). -/
def blankingEnd (c : Chip) (n : Nat) (s : LegSense) : Chip :=
  if !legsPowered c || !shortLive c n then c
  else if detectorFires c n s then shortFires c n (phaseFires c n s) (gateFires c n s) false
  else if (leg c n).clamped then
    let c1 := modLeg c n fun x => { x with clamped := false, firing := false, vds := false }
    shortReport (countFld c1 (legStat n) 16 8) n 256
  else c

/-! ## The carrier zero (R593, R612) -/

/-- A leg of the group at the carrier zero: latest duty and limits are latched, a leg that is ARMED switches from here. Its
t_on keeps the limits that PERIOD and DT give now (R587). -/
def zeroLeg (c : Chip) (k : Nat) : Chip :=
  let x := leg c k
  let armed := legState c k == 2
  let ton := x.next.getD (fld c (legBase k + 0x18) 0 15)
  let c1 := if armed then setFld c (legBase k + 0x18) 0 15 (limitTon c k (ton : Nat)) else c
  setLeg c1 k { x with
    next := if armed then none else x.next
    clamp := (reg c (legBase k + 0xC)).toNat
    sc := (reg c (legBase k + 8)).toNat
    runs := armed
    left := false
    fired := false }

/-- At the carrier zero GL has been on for less than BLANK (R599): it was turned on half its time before the zero. -/
def zeroBlanked (c : Chip) (n : Nat) : Bool :=
  let ton := fld c (legBase n + 0x18) 0 15
  (leg c n).runs && ton != 0
    && decide (legPeriod c n - ton - fld c (legBase n + 4) 0 10 < fld c (legBase n + 4) 16 6 * 80)

/-- A leg's current is sampled at the centre of GL. -/
def sampleLeg (c : Chip) (e : Nat × Nat) : Chip :=
  let firing := decide (fld c (legBase e.1 + 8) 0 9 * 50 < (signed 16 e.2).natAbs)
  setFld (modLeg c e.1 fun x => { x with firing := firing }) (legBase e.1 + 0x18) 16 16 e.2

/-- CARRIER_ZERO of the group of a leg: duties and limits are latched, and the current of each of its legs, in ascending
order, is sampled. Beyond SC_THR a phase-current detector fires (R598). -/
def carrierZero (c : Chip) (n : Nat) (isense : List Nat) : Chip :=
  if !domOn c 22 then c
  else
    let g := groupOf c n
    let blanking := g.filter (zeroBlanked c)
    let c1 := (g.zip (isense ++ List.replicate 12 0)).foldl sampleLeg (g.foldl zeroLeg c)
    (g.filter fun k => (leg c1 k).firing).foldl (fun c k => shortFires c k true (leg c k).vds (blanking.contains k)) c1

/-- LEG_WATCHDOG_EXPIRY (R605). An application in the cycle of expiry wins (R606). -/
def legWatchdogExpiry (c : Chip) (n : Nat) : Chip :=
  if legUp c n && (leg c n).fresh != some c.ot then legLeave (setFlag c (legStat n) 5 true) n 0 5 else c

/-! ## Writes of the block (R612) -/

/-- DMIN and DMAX of a leg are in range. -/
def legClampOk (c : Chip) (n : Nat) : Bool :=
  let v := (reg c (legBase n + 0xC)).toNat
  let lo := signed 16 (natBits v 0 16)
  let hi := signed 16 (natBits v 16 16)
  let least : Int := if isLeader c n then -10000 else 0
  decide (least ≤ lo) && decide (lo ≤ hi) && decide (hi ≤ 10000)

/-- Every field of a leg page is in range. -/
def legRangesOk (c : Chip) (n : Nat) : Bool :=
  let per := fld c (legBase n) 0 15
  let dt := fld c (legBase n + 4) 0 10
  let bl := fld c (legBase n + 4) 16 6
  decide (4000 ≤ per) && decide (per ≤ 20000)
    && decide (4 ≤ dt) && decide (dt ≤ 1000) && decide (1 ≤ bl) && decide (bl ≤ 40)
    && decide (10 ≤ fld c (legBase n + 4) 24 8)
    && decide (10 ≤ fld c (legBase n + 8) 0 9) && decide (fld c (legBase n + 8) 0 9 ≤ 400)
    && decide (4 ≤ fld c (legBase n + 8) 16 8)

def actReject (c : Chip) (w : WriteCtx) (stat i p : Nat) : Chip :=
  postError (setFlag (unwrite c w) stat i true) 0x40 p (w.off % 0x10000)

/-- A write of a leg's set-up registers. -/
def hookLeg : Hook := fun w c0 =>
  let n := legOfOff w.off
  let frozen := w.off % 0x40 = 0 ∨ w.off % 0x40 = 4
  -- GRP 6 is reserved (R195)
  let bad := w.off % 0x40 = 0 ∧ legGrp c0 n = 6
  let c := if bad then postError (setFld c0 w.off 16 3 (bits w.old 16 3)) 0x02 (srcFn w.fn) w.off else c0
  if !legRangesOk c n || !((List.range 12).all fun k => legClampOk c k)
      || (decide frozen && decide (reg c w.off ≠ w.old) && legState c n != 0) then
    actReject c w (legStat n) 6 (legPt n)
  else c

/-! ## Position interfaces (R607 to R611) -/

def posDef (_ : Nat) : PosSt := { qa := false, qb := false, warn := false }
def posSt (c : Chip) (n : Nat) : PosSt := smGet posDef c.pos n
def setPos (c : Chip) (n : Nat) (x : PosSt) : Chip := { c with pos := smPut posDef c.pos n x }

def posBase (n : Nat) : Nat := 0x140800 + n * 0x20

/-- QUADRATURE_EDGE: the filtered levels after the edge (R607, R608). -/
def quadratureEdge (c : Chip) (n : Nat) (a b : Bool) : Chip :=
  let x := posSt c n
  let c1 := setPos c n { x with qa := a, qb := b }
  if !domOn c 22 || !flag c (posBase n) 0 then c1
  else if a != x.qa && b != x.qb then
    countFld (setPos c n { x with qa := a, qb := b, warn := true }) (posBase n + 0x10) 16 16
  else if a == x.qa && b == x.qb then c1
  else
    let up := (a != x.qb) != flag c (posBase n) 1
    let cnt := (reg c (posBase n + 8)).toNat
    setReg c1 (posBase n + 8) (BitVec.ofNat 32 (if up then cnt + 1 else cnt + 2 ^ 32 - 1))

/-- INDEX_EDGE: a rising edge of QIn (R609). -/
def indexEdge (c : Chip) (n : Nat) : Chip :=
  let i := fld c (posBase n) 2 2
  if !domOn c 22 || !flag c (posBase n) 0 || i == 0 then c
  else if i = 2 ∧ flag c (posBase n + 0x10) 0 = true then c
  else setFlag (setReg c (posBase n + 8) 0) (posBase n + 0x10) 0 true

/-- What a POSITION entry writes (R611). -/
def positionEntry (c : Chip) (n : Nat) : Chip :=
  let x := posSt c n
  let mech : Nat := ((actView c (posBase n + 0xC)).getD 0) % 2 ^ 20
  let q :=
    if !flag c (posBase n) 0 then 3
    else if (fld c (posBase n) 2 2 != 0 && !flag c (posBase n + 0x10) 0) || x.warn then 1
    else 0
  writeLive (setPos c n { x with warn := false }) (pt 12 n) (qw32To { mant := mech, exp := 0, unit := 43, qual := q }) 0

/-- ACT_POSn_CFG and CPR: ranges (R612); ALIGNED is lost when EN is set anew (R609). -/
def hookPos : Hook := fun w c =>
  let n := (w.off - 0x140800) / 0x20
  let cpr := fld c (posBase n + 4) 0 20
  if cpr = 0 ∨ 524287 < cpr ∨ fld c (posBase n + 4) 24 4 = 0 then actReject c w (posBase n + 0x10) 1 (pt 12 n)
  else if w.off % 0x20 = 0 ∧ natBit w.old.toNat 0 = false ∧ flag c w.off 0 = true then setFlag c (posBase n + 0x10) 0 false
  else c

/-- The ACT domain goes OFF: legs are in gates low (R86, R590). -/
def actDomainOff (c : Chip) : Chip := legsOff c allLegs 3

end Sys2Proof.Machine
end

