-- ==== Sys2Proof/Machine/Control.lean ====
section
/-! DEFINITION. The control engine: dispatch, evaluation, modes, misses and lanes (14_control_engine),
with injection and capture (15_control_tuning). -/

namespace Sys2Proof.Machine

/-! ## Table fields of a loop -/

/-- Offset of loop l's entry in a copy (R615). -/
def loopOff (l : Nat) : Nat := 0x1000 + l * 0x100

/-- Field of a loop's entry in force (R616). -/
def lp (c : Chip) (l off n : Nat) : Nat := tbl c 5 (loopOff l + off) n

def loopFlag (c : Chip) (l i : Nat) : Bool := natBit (lp c l 0 1) i
def loopEn (c : Chip) (l : Nat) : Bool := loopFlag c l 0
def spSrc (c : Chip) (l : Nat) : Nat := lp c l 1 1
def badAct (c : Chip) (l : Nat) : Nat := lp c l 2 1
def loopPos (c : Chip) (l : Nat) : Nat := lp c l 3 1
def pvPoint (c : Chip) (l : Nat) : Nat := lp c l 4 3
def spPoint (c : Chip) (l : Nat) : Nat := lp c l 8 3
def outPoint (c : Chip) (l : Nat) : Nat := lp c l 0xC 3
def outExp (c : Chip) (l : Nat) : Int := signed 8 (lp c l 0xF 1)
def loopQw (c : Chip) (l off : Nat) : Qw := qw32Of (lp c l off 4)
def spConst (c : Chip) (l : Nat) : Nat := lp c l 0x20 4
def outUnit (c : Chip) (l : Nat) : Nat := (loopQw c l 0x18).unit
def ftab (c : Chip) (l : Nat) : Nat := lp c l 0x41 1
def ctab (c : Chip) (l : Nat) : Nat := lp c l 0x42 1

def loopAuto (c : Chip) (l : Nat) : Bool := flag c (loopStat l) 0

/-- R75 on the input span; the second is saturation (R76). -/
def inQ15 (c : Chip) (l : Nat) (q : Qw) : Int × Bool :=
  toQ15 (qwValue q) (qwValue (loopQw c l 0x10)) (qwValue (loopQw c l 0x14))

/-- The arithmetic of R75 with the output span. -/
def outQ15 (c : Chip) (l : Nat) (q : Qw) : Int :=
  (toQ15 (qwValue q) (qwValue (loopQw c l 0x18)) (qwValue (loopQw c l 0x1C))).1

/-- R77 on a span of a loop, encoded into an exponent: word and flags. -/
def spanWord (c : Chip) (l lo : Nat) (e : Int) (q : Int) (qual : Nat) : Nat × Nat :=
  encodeWord false (ofQ15 q (qwValue (loopQw c l lo)) (qwValue (loopQw c l (lo + 4)))) e (loopQw c l lo).unit qual 0

/-- Shift right with rounding half to even: round_he(v, n). -/
def rhe (v : Int) (n : Nat) : Int :=
  let d : Int := 2 ^ n
  let q := v / d
  let r := v % d
  if 2 * r < d then q else if d < 2 * r then q + 1 else if q % 2 = 0 then q else q + 1

/-! ## Tuning: set-up fields and registers (R660, R661) -/

/-- A field of a capture set-up. -/
def cfgField (cfg : List Byte) (off n : Nat) : Nat := leNat ((cfg.drop off).take n)

def cfgSignal (x : List Byte) : Nat := cfgField x 1 1
def cfgIpoint (x : List Byte) : Nat := cfgField x 2 1
def cfgOrder (x : List Byte) : Nat := cfgField x 3 1
def cfgAmpl (x : List Byte) : Int := signed 16 (cfgField x 4 2)
def cfgHold (x : List Byte) : Nat := cfgField x 6 2
def cfgF0 (x : List Byte) : Nat := cfgField x 8 4
def cfgF1 (x : List Byte) : Nat := cfgField x 0xC 4
def cfgPre (x : List Byte) : Nat := cfgField x 0x10 4
def cfgInjLen (x : List Byte) : Nat := cfgField x 0x14 4
def cfgSigA (x : List Byte) : Nat := cfgField x 0x18 1
def cfgSigB (x : List Byte) : Nat := cfgField x 0x19 1
def cfgDecim (x : List Byte) : Nat := cfgField x 0x1A 2
def cfgSamples (x : List Byte) : Nat := cfgField x 0x1C 4
def cfgTrig (x : List Byte) : Nat := cfgField x 0x20 1
def cfgTlevel (x : List Byte) : Int := signed 16 (cfgField x 0x22 2)
def cfgTimeout (x : List Byte) : Nat := cfgField x 0x24 2

/-- Every field in the range of R660 and R661. -/
def cfgOk (x : List Byte) : Bool :=
  let s := cfgSignal x
  let a := cfgAmpl x
  decide (cfgField x 0 1 ≤ 3) && decide (s ≤ 4)
    && (if s = 0 then cfgIpoint x == 0 else decide (cfgIpoint x ≤ 2))
    && (if s = 2 then decide (7 ≤ cfgOrder x) && decide (cfgOrder x ≤ 15) else cfgOrder x == 0)
    && (if s = 0 then a == 0 else if s = 1 then a != 0 else decide (1 ≤ a))
    && (if s = 2 then decide (1 ≤ cfgHold x) else cfgHold x == 0)
    && (if 3 ≤ s then decide (1 ≤ cfgF0 x) && decide (cfgF0 x ≤ 2 ^ 31) else cfgF0 x == 0)
    && (if s = 3 then decide (1 ≤ cfgF1 x) && decide (cfgF1 x ≤ 2 ^ 31) else cfgF1 x == 0)
    && decide (1 ≤ cfgSamples x) && decide (cfgSamples x ≤ 65536) && decide (cfgPre x < cfgSamples x)
    && (s != 3 || decide (1 ≤ cfgInjLen x))
    && decide (cfgSigA x ≤ 8) && decide (cfgSigB x ≤ 8) && decide (1 ≤ cfgDecim x)
    && decide (cfgTrig x ≤ 3) && (cfgTrig x != 0 || cfgTlevel x == 0)
    && cfgField x 0x21 1 == 0 && cfgField x 0x26 10 == 0

/-- The buffers in ARMED or RUNNING for a loop. -/
def capturing (c : Chip) (l : Nat) : List Nat :=
  (List.range 4).filter fun b => (tuneState c b == 1 || tuneState c b == 2) && tuneLoop c b == l

/-- The buffers whose injection into a loop is in progress. -/
def injecting (c : Chip) (l : Nat) : List Nat :=
  (List.range 4).filter fun b => flag c (tuneBase b) 5 && tuneLoop c b == l

/-- An injection ends early (R668). -/
def cutInj (c : Chip) (b : Nat) : Chip :=
  setTune (setFlag (setFlag c (tuneBase b) 5 false) (tuneBase b) 6 true) b { tuneSt c b with cut := false }

/-- The loop's mode or table changed: its injections end at the evaluation at which the change applies (R668). -/
def dueCut (c : Chip) (l : Nat) : Chip :=
  (injecting c l).foldl (fun c b => setTune c b { tuneSt c b with cut := true }) c

/-- Injections that end at this evaluation of a loop: those that a change ends, or all of them. -/
def cutDue (c : Chip) (l : Nat) (all : Bool) : Chip :=
  ((injecting c l).filter fun b => all || (tuneSt c b).cut).foldl cutInj c

/-- A capture ends: DONE with its END code (R673). -/
def endCapture (c : Chip) (b code : Nat) : Chip :=
  setFld (setFld c (tuneBase b) 0 2 3) (tuneBase b) 2 3 code

/-! ## Injection (R663 to R666) -/

/-- Taps of the PRBS register (R665). -/
def prbsTaps (n : Nat) : List Nat :=
  match n with
  | 7 => [7, 6] | 8 => [8, 6, 5, 4] | 9 => [9, 5] | 10 => [10, 7] | 11 => [11, 9] | 12 => [12, 6, 4, 1]
  | 13 => [13, 4, 3, 1] | 14 => [14, 5, 3, 1] | _ => [15, 14]

/-- One bit period: fb, and the register shifted (R665). -/
def prbsNext (order r : Nat) : Bool × Nat :=
  let fb := (prbsTaps order).foldl (fun b t => b != natBit r (t - 1)) false
  (fb, (r * 2 + b2n fb) % 2 ^ order)

/-- sin of φ / 2^32 turns in units of 2^-112, by 18 terms of its series in the first quadrant. -/
def sin112 (phi : Nat) : Int :=
  let r := phi % 2 ^ 30
  let q := phi / 2 ^ 30 % 4
  let t := if q % 2 = 1 then 2 ^ 30 - r else r
  let x : Int := (t * 8156040833015188200833743081374136 / 2 ^ 30 : Nat)
  let x2 := x * x / 2 ^ 112
  let s := ((List.range 18).foldl (fun (a : Int × Int) (k : Nat) =>
    (a.1 + a.2, -(a.2 * x2 / 2 ^ 112) / (((2 * k + 2) * (2 * k + 3) : Nat) : Int))) (0, x)).1
  if 2 ≤ q then -s else s

/-- The sine value (R664): a free one of the Q1.15 values within 1 unit of A × sin. At a quarter turn A × sin is an integer,
and three are; elsewhere the two beside it. -/
def sineInj (a : Int) (phi free : Nat) : Int :=
  let f := Config.freeValue free
  let v := a * sin112 phi
  let r := if phi % 2 ^ 30 = 0 then rhe v 112 + ((f % 3 : Nat) : Int) - 1 else v / 2 ^ 112 + ((f % 2 : Nat) : Int)
  min (max r (-32768)) 32767

/-- Injection begins at the evaluation that meets the trigger (R667). -/
def beginInj (c : Chip) (b : Nat) : Chip :=
  let x := tuneSt c b
  if cfgSignal x.cfg = 0 then c
  else setFlag (setTune c b { x with k := 0, prbs := 2 ^ cfgOrder x.cfg - 1, bit := false, phi := if cfgSignal x.cfg = 3 then 0 else x.phi })
        (tuneBase b) 5 true

/-- inj at the k-th evaluation of the interval, and the state after it (R663). -/
def injValue (c : Chip) (b : Nat) : Int × Chip :=
  let x := tuneSt c b
  let a := cfgAmpl x.cfg
  let c1 := setTune c b { x with k := x.k + 1 }
  match cfgSignal x.cfg with
  | 1 => (a, c1)
  | 2 =>
    let (bit, r) := if x.k % cfgHold x.cfg = 0 then prbsNext (cfgOrder x.cfg) x.prbs else (x.bit, x.prbs)
    (if bit then a else -a, setTune c b { x with k := x.k + 1, prbs := r, bit := bit })
  | 3 =>
    let d := roundHE (((cfgF1 x.cfg : Int) - (cfgF0 x.cfg : Int)) * (x.k : Int) / ((cfgInjLen x.cfg : Nat) : Rat))
    let phi := (((x.phi : Int) + (cfgF0 x.cfg : Int) + d) % 2 ^ 32).toNat
    (sineInj a x.phi c.free, takeFree (setTune c b { x with k := x.k + 1, phi := phi }))
  | _ => (sineInj a (x.k * cfgF0 x.cfg % 2 ^ 32) c.free, takeFree c1)

/-- Injection ends after INJ_LEN evaluations (R667). -/
def injDone (c : Chip) (b : Nat) : Chip :=
  let x := tuneSt c b
  if cfgInjLen x.cfg ≠ 0 ∧ cfgInjLen x.cfg ≤ x.k then setFlag c (tuneBase b) 5 false else c

/-! ## Capture (R669 to R672) -/

/-- The trigger condition at an evaluation. -/
def trigMet (x : List Byte) (xv xPrev e : Int) : Bool :=
  match cfgTrig x with
  | 0 => true
  | 1 => decide (cfgTlevel x ≤ (e.natAbs : Int))
  | 2 => decide (xPrev < cfgTlevel x) && decide (cfgTlevel x ≤ xv)
  | _ => decide (cfgTlevel x < xPrev) && decide (xv ≤ cfgTlevel x)

/-- Injection values of buffers, each with its IPOINT, at an evaluation; an injection that has had its INJ_LEN evaluations
ends (R663, R667). -/
def injValues (c : Chip) (bs : List Nat) : List (Nat × Nat × Int) × Chip :=
  bs.foldl (fun r b =>
    let (v, k) := injValue r.2 b
    (r.1 ++ [(b, cfgIpoint (tuneSt k b).cfg, v)], injDone k b)) ([], c)

/-- The sum of the injection values at a point. -/
def injAt (vs : List (Nat × Nat × Int)) (ip : Nat) : Int := ((vs.filter fun v => v.2.1 == ip).map fun v => v.2.2).sum

/-- CAPTURE_TRIGGER: the trigger is accepted at an evaluation that writes a sample (R671, R672). -/
def captureTrigger (c : Chip) (b : Nat) (xv xPrev e : Int) : Chip :=
  let t := tuneSt c b
  let n := cfgSamples t.cfg
  if tuneState c b = 1 ∧ t.evals % cfgDecim t.cfg = 0 ∧ cfgPre t.cfg ≤ t.taken ∧ trigMet t.cfg xv xPrev e = true then
    let slot := t.taken % n
    let start := (slot + n - cfgPre t.cfg) % n
    beginInj (setReg (setFld c (tuneBase b) 0 2 2) (tuneBase b + 4) (BitVec.ofNat 32 (start + slot * 65536))) b
  else c

/-- TUNE_SAMPLE: one evaluation of a buffer; `sample` is the word of a completed one (R669, R670, R673). -/
def tuneEval (c : Chip) (b : Nat) (sample : Option Nat) : Chip :=
  let t := tuneSt c b
  let c0 := setTune c b { t with evals := t.evals + 1 }
  if t.evals % cfgDecim t.cfg ≠ 0 then c0
  else
    let v := sample.getD t.lastSample
    let slot := t.taken % cfgSamples t.cfg
    let c1 := { c with tables := memWrite tblDef c.tables (tuneMem b + slot * 4) (natLe 4 v) }
    let c2 := if sample.isNone then countFld c1 (tuneBase b) 16 16 else c1
    let post := if tuneState c b = 2 then t.post + 1 else 0
    let c3 := setTune c2 b { t with evals := t.evals + 1, taken := t.taken + 1, post := post, lastSample := v }
    let c4 := setFld c3 (tuneBase b + 8) 0 17 (min 65536 (t.taken + 1))
    if tuneState c b = 2 ∧ cfgPre t.cfg + post = cfgSamples t.cfg then endCapture c4 b 1 else c4

/-! ## Loop state changes -/

/-- Every enabled loop is to start at its next evaluation (R637, R638, R989). -/
def startLoops (c : Chip) : Chip :=
  if !domOn c 23 then c
  else ((List.range 128).filter (loopEn c)).foldl (fun c l => modLoop c l fun x => { x with fresh := true }) c

/-- A loop that is to start does so at this evaluation (R623, R642); in SERVICE every loop is in manual (R129). -/
def beginLoop (c : Chip) (l : Nat) : Chip :=
  if !(loopSt c l).fresh then c
  else
    let io := lp c l 0x24 4
    let auto := loopFlag c l 3 && nodeMode c != mService
    let c1 := setFlag c (loopStat l) 0 auto
    let c2 := setReg (setReg c1 (loopBase l + 0x1C) (BitVec.ofNat 32 io)) (loopBase l + 0x18) (BitVec.ofNat 32 (spConst c l))
    setLoop c2 l { loopDef l with uLast := outQ15 c l (qw32Of io), word := io, xfer := auto }

/-- AUTO to MANUAL: the manual output word is the last output word (R634, R668). -/
def toManual (c : Chip) (l : Nat) : Chip :=
  if loopAuto c l then
    dueCut (setReg (setFlag c (loopStat l) 0 false) (loopBase l + 0x1C) (BitVec.ofNat 32 (loopSt c l).word)) l
  else c

/-- MANUAL to AUTO: the first evaluation is a transfer evaluation. -/
def toAuto (c : Chip) (l : Nat) : Chip :=
  if loopAuto c l then c
  else dueCut (modLoop (setFlag c (loopStat l) 0 true) l fun x => { x with xfer := true }) l

/-- Entry to SERVICE (R636). -/
def loopsToManual (c : Chip) : Chip := (List.range 128).foldl toManual c

/-- A loop-table swap took effect; `old` is the base of the copy before it (R620 to R624, R642, R668, R673). -/
def loopSwap (c : Chip) (old : Nat) : Chip :=
  if !domOn c 23 then c else (List.range 128).foldl (fun c l =>
    let wasEn := natBit (tmem c (old + loopOff l) 1) 0
    let c1 := dueCut c l
    if loopEn c l then
      if wasEn then
        let c2 := if tmem c (old + loopOff l + 1) 1 = spSrc c l then c1
          else setReg c1 (loopBase l + 0x18) (BitVec.ofNat 32 (spConst c l))
        modLoop c2 l fun x => { x with xfer := true, uLast := outQ15 c l (qw32Of x.word) }
      else modLoop c1 l fun x => { x with fresh := true }
    else (capturing c1 l).foldl (fun c b => endCapture c b 5) (modLoop c1 l fun x => { x with fresh := false })) c

/-- The CTRL domain reaches ON: lanes return to service, and loops start at their next evaluations (R638, R1211). -/
def ctrlDomainOn (c : Chip) : Chip := startLoops (setFld c 0x150004 0 4 15)

/-- The node leaves RUN and SERVICE: captures end (R673). -/
def capturesLeave (c : Chip) : Chip :=
  (List.range 4).foldl (fun c b =>
    if tuneState c b = 1 ∨ tuneState c b = 2 then endCapture c b 4 else c) c

/-! ## Evaluation (R625 to R650) -/

/-- Kinds of evaluation. -/
inductive Kind where
  | track | manual | transfer | auto
  deriving DecidableEq, Repr

/-- The loop's OUT_POINT is an output point that is substituted (R629). -/
def outSubst (c : Chip) (l : Nat) : Bool :=
  let p := outPoint c l
  (pClass p == 5 || pClass p == 6) && (point c p).subst

/-- The inner loop of a loop that writes a loop point. -/
def innerOf (c : Chip) (l : Nat) : Option Nat :=
  if pClass (outPoint c l) = 8 then some (pIndex (outPoint c l)) else none

def innerManual (c : Chip) (l : Nat) : Bool :=
  match innerOf c l with
  | some k => !loopAuto c k
  | none => false

/-- track_q15 (R629, R646).

DESIGN CHOICE: the inner loop's sp is converted under R77 with the outer loop's OUT_EXP as its destination exponent, saturated
there, before R75 takes it; R646 names no exponent (log 149). -/
def trackQ15 (c : Chip) (l : Nat) : Int :=
  if outSubst c l then
    let p := outPoint c l
    outQ15 c l (qw32Of (if pClass p = 5 then (cell c (pIndex p)).dem else (leg c (pIndex p)).dem))
  else match innerOf c l with
    | some k => outQ15 c l (qw32Of (spanWord c k 0x10 (outExp c l) (loopSt c k).sp 0).1)
    | none => 0

/-- The evaluation kind, tested in the order of the table. -/
def kindOf (c : Chip) (l : Nat) : Kind :=
  let x := loopSt c l
  if outSubst c l || innerManual c l then .track
  else if !loopAuto c l then .manual
  else if x.xfer || x.wasHold then .transfer
  else .auto

/-- The setpoint word (R641). -/
def spWord (c : Chip) (l : Nat) : Qw :=
  match spSrc c l with
  | 0 => qw32Of (spConst c l)
  | 1 | 4 => qw32Of (reg c (loopBase l + 0x18)).toNat
  | _ => liveQw c (spPoint c l)

/-- Gain against |e| (R626). -/
def gainOf (c : Chip) (l : Nat) (e : Int) : Int :=
  let g (i : Nat) : Int := signed 16 (lp c l (0x80 + 2 * i) 2)
  let k := e.natAbs / 1024
  let f := e.natAbs % 1024
  if !loopFlag c l 5 then g 0
  else if 32 ≤ k then g 32
  else g k + rhe ((g (k + 1) - g k) * (f : Int)) 10

/-- Friction and cogging contributions, and FF_OFF (R626, R650). -/
def feedForward (c : Chip) (l : Nat) (e : Int) : Int × Bool :=
  let p := loopPos c l
  let named := ftab c l != 255 || ctab c l != 255
  let good := p != 255 && (liveQw c (pt 12 p)).qual == 0
  if !good then (0, named)
  else
    let idx := (actView c (posBase p + 0xC)).getD 0
    let mech : Nat := idx % 2 ^ 20
    let elec : Nat := idx / 2 ^ 20 % 1024
    let cpr := max 1 (fld c (posBase p + 4) 0 20)
    let fr0 := signed 16 (tbl c 5 (0x10000 + ftab c l * 0x200 + 2 * (mech * 256 / cpr)) 2)
    let fr := if ftab c l ≠ 255 ∧ (lp c l 0x3C 2 : Int) < (e.natAbs : Int) then (if e < 0 then satInt 16 (-fr0) else fr0) else 0
    let cg := if ctab c l = 255 then 0 else signed 16 (tbl c 5 (0x20000 + ctab c l * 0x800 + 2 * elec) 2)
    (fr + cg, false)

/-- Write a loop's output word to its point and its destination (R627 to R629). -/
def loopWrite (c : Chip) (l word fl : Nat) (chain : Bool) : Chip :=
  let c1 := modLoop (writeLive c (loopPt l) word fl) l fun x => { x with word := word }
  let p := outPoint c l
  if pClass p = 8 then setReg c1 (loopBase (pIndex p) + 0x18) (BitVec.ofNat 32 word)
  else if pClass p = 5 ∨ pClass p = 6 then
    let c2 := if (point c1 p).subst then c1 else demandPoint (writeLive c1 p word fl) p word
    if chain then applyPoint c2 p else c2
  else c1

/-- PV bad under BAD_ACT HOLD: the output word is rewritten with the last output, as R613 and R627 form it, and quality
held (R647, R650). -/
def holdEval (c : Chip) (l : Nat) (chain : Bool) : Chip :=
  let c1 := setFld (cutDue c l false) (loopStat l) 1 2 2
  let c2 := modLoop c1 l fun x => { x with wasBad := true, wasHold := true }
  let (w, fl) := spanWord c l 0x18 (outExp c l) (loopSt c l).uLast 2
  loopWrite c2 l w fl chain

/-- SHED and FAIL: the loop changes to MANUAL (R647). -/
def shed (c : Chip) (l : Nat) : Chip :=
  if !loopAuto c l then c
  else
    let c1 := toManual c l
    if badAct c l = 2 then setReg c1 (loopBase l + 0x1C) (BitVec.ofNat 32 (lp c l 0x28 4)) else c1

/-- The measured value of the last evaluation in which PV was not bad; before one, that of x (R644, R647). -/
def lastMeasured (c : Chip) (l : Nat) : Rat :=
  match (loopSt c l).pvGood with
  | some w => qwValue (qw32Of w)
  | none => ofQ15 (loopSt c l).xGood (qwValue (loopQw c l 0x10)) (qwValue (loopQw c l 0x14))

/-- The computation of R626 from x on, with injection, capture and the write of the output. `shedNow`: the loop's mode
changed in this evaluation (R647, R668).

DESIGN CHOICE: the setpoint word that SPTRK writes has quality good whatever PV's is; R644 gives its value and exponent alone
(log 148). -/
def evalFrom (c : Chip) (l : Nat) (pvw : Nat) (bad shedNow chain : Bool) : Chip :=
  let pv := qw32Of pvw
  let st := loopSt c l
  let kind := kindOf c l
  -- measurement and setpoint
  let (xq, xsat) := inQ15 c l pv
  let x := if bad then st.xGood else xq
  let spw := spWord c l
  let spBad := spw.qual == 3
  let (tq, tsat) := inQ15 c l spw
  let tsp := if spBad then st.tsp else tq
  let rate : Int := lp c l 0x2E 2
  let sptrk := kind = .manual ∧ loopFlag c l 4 = true
  let sp := if sptrk then x
    else if rate = 0 then tsp
    else st.sp + min (max (tsp - st.sp) (-rate)) rate
  let direct := loopFlag c l 1
  let err (s : Int) : Int := if direct then satInt 16 (x - s) else satInt 16 (s - x)
  let formE (vs : List (Nat × Nat × Int)) : Int :=
    let e0 := err (satInt 16 (sp + injAt vs 0))
    satInt 16 (e0 + injAt vs 1)
  -- injection in progress, triggers, and injection that begins (R666 to R668, R671)
  let cut := kind == .track || shedNow
  let c1 := cutDue c l cut
  let on := injecting c1 l
  let (v0, c2) := injValues c1 on
  let caps := capturing c l
  let c3 := cutDue (caps.foldl (fun c b => captureTrigger c b x st.xPrev (formE v0)) c2) l cut
  let (v1, c4) := injValues c3 ((injecting c3 l).filter fun b => !on.contains b)
  let inj := v0 ++ v1
  let spUsed := satInt 16 (sp + injAt inj 0)
  let e := formE inj
  let xPrev := if st.wasBad then x else st.xPrev
  let ePrev := if st.wasBad then e else st.ePrev
  -- proportional, derivative, feed-forward
  let p := e * gainOf c l e * 2 ^ lp c l 0x3E 1
  let de := if !loopFlag c l 2 then e - ePrev else if direct then x - xPrev else xPrev - x
  let dRaw := de * (lp c l 0x32 2 : Int) * 2 ^ lp c l 0x40 1
  let dAcc := satInt 40 (st.dAcc + rhe ((dRaw - st.dAcc) * (lp c l 0x34 2 : Int)) 15)
  let (frcg, ffOff) := feedForward c l e
  let ff := satInt 16 (signed 16 (lp c l 0x36 2) + frcg)
  let acc0 := satInt 40 (p + dAcc + ff * 32768)
  let uMin := signed 16 (lp c l 0x38 2)
  let uMax := signed 16 (lp c l 0x3A 2)
  let outInj := injAt inj 2
  let held := pv.qual == 2
  -- integral and output
  let di0 := rhe (e * (lp c l 0x30 2 : Int)) (lp c l 0x3F 1)
  let vOld := rhe (satInt 40 (acc0 + st.iAcc)) 15 + outInj
  let frz := (decide (0 < di0) && decide (uMax ≤ vOld)) || (decide (di0 < 0) && decide (vOld ≤ uMin)) || held
  let di := if frz then 0 else di0
  let iAuto := satInt 40 (st.iAcc + di)
  let um := match kind with
    | .manual => outQ15 c l (qw32Of (reg c (loopBase l + 0x1C)).toNat)
    | .transfer => st.uLast
    | _ => trackQ15 c l
  let u := if kind = .auto then min (max (rhe (satInt 40 (acc0 + iAuto)) 15 + outInj) uMin) uMax
    else min (max (um + outInj) uMin) uMax
  let iAcc := if kind = .auto then iAuto else satInt 40 (u * 32768 - acc0)
  let inclamp := (!bad && xsat) || (!spBad && tsat)
  -- state and registers
  let c5 := setLoop c4 l { st with
    sp := sp, xPrev := x, ePrev := e, uLast := u, iAcc := iAcc, dAcc := dAcc, tsp := tsp,
    xGood := x, pvGood := if bad then st.pvGood else some pvw, xfer := false, wasBad := bad, wasHold := false }
  let c5 := setReg c5 (loopBase l + 8) (BitVec.ofNat 32 (unsigned 16 sp + unsigned 16 x * 65536))
  let c6 := setReg c5 (loopBase l + 0xC) (BitVec.ofNat 32 (unsigned 16 e + unsigned 16 u * 65536))
  let c7 := setInt c6 l iAcc
  let ifrz := if kind = .auto then frz else flag c (loopStat l) 7
  let bitsOf := 2 * b2n held + 4 * b2n bad + 8 * b2n spBad + 16 * b2n inclamp + 32 * b2n (u == uMax)
    + 64 * b2n (u == uMin) + 128 * b2n ifrz + 256 * b2n ffOff + 512 * b2n (kind == .track)
  let c8 := setFld c7 (loopStat l) 1 9 (bitsOf / 2)
  -- host setpoint tracking (R644)
  let c9 := if loopFlag c l 4 && !loopAuto c l && spSrc c l == 1 then
      setReg c8 (loopBase l + 0x18)
        (BitVec.ofNat 32 (encodeWord false (if bad then lastMeasured c l else qwValue pv) (qw32Of (spConst c l)).exp (qw32Of (spConst c l)).unit 0 0).1)
    else c8
  -- output word (R627, R650)
  let q := match kind with
    | .auto => worst (worst pv.qual (if spBad then 0 else spw.qual)) (if spBad || inclamp || ffOff then 1 else 0)
    | .manual => if bad then 1 else 0
    | _ => 0
  let (w, fl) := spanWord c l 0x18 (outExp c l) u q
  let c10 := loopWrite c9 l w fl chain
  -- samples (R661, R669)
  let sig (b k : Nat) : Int := match k with
    | 0 => x | 1 => spUsed | 2 => e | 3 => u | 4 => ((inj.filter fun v => v.1 == b).map fun v => v.2.2).sum
    | 5 => satInt 16 (rhe p 15) | 6 => satInt 16 (rhe dAcc 15) | 7 => satInt 16 (rhe iAcc 15) | _ => tsp
  caps.foldl (fun c b =>
    let g := (tuneSt c b).cfg
    tuneEval c b (some (unsigned 16 (sig b (cfgSigA g)) + unsigned 16 (sig b (cfgSigB g)) * 65536))) c10

/-- One evaluation that completes (R623, R626, R647, R657). -/
def evaluate (c : Chip) (l : Nat) (chain : Bool) (cycles : Nat) : Chip :=
  let c0 := beginLoop c l
  let pvw := (point c0 (pvPoint c0 l)).live
  let bad := (qw32Of pvw).qual == 3
  let c1 := if bad && badAct c0 l == 0 then holdEval c0 l chain
    else evalFrom (if bad then shed c0 l else c0) l pvw bad (bad && loopAuto c0 l) chain
  setFld (setFld c1 (loopBase l + 4) 16 8 0) (loopBase l + 0x20) 16 16 (min 65535 cycles)

/-- The loop runs now: its EN, the CTRL domain and the mode (R338, R624, R638). -/
def loopRuns (c : Chip) (l : Nat) : Bool :=
  loopEn c l && domOn c 23 && loopsRun c && nodeMode c != mMirror && !loopBad c l

/-- Some MAC lane is in service; with none, evaluations wait until their deadlines (R651, R656, R659). -/
def laneIn (c : Chip) : Bool := fld c 0x150004 0 4 != 0

/-- The first waiting evaluation of a loop. -/
def waiting (c : Chip) (l : Nat) : Option EvalReq := c.evq.find? fun r => r.loop == l

/-- The evaluation that a free lane takes: the earliest dispatched from the tick lane, else the earliest
from the slot lane (R651). -/
def nextEval (c : Chip) : Option EvalReq :=
  match c.evq.find? fun r => r.tickLane with
  | some r => some r
  | none => c.evq.head?

/-! ## Deadlines (R652 to R655) -/

/-- Cost of a loop (R652). -/
def loopCost (c : Chip) (l : Nat) : Nat :=
  400 + (if loopFlag c l 5 then 75 else 0) + (if ftab c l = 255 then 0 else 50) + (if ctab c l = 255 then 0 else 50)
    + (if lp c l 0x2E 2 = 0 then 0 else 25) + (if pClass (outPoint c l) = 8 then 25 else 0)

/-! The base ticks of a scan table in force: G goes on over a swap of the frame length (R341 to R343). -/

def frameLenOf (c : Chip) : Nat := tbl c 3 2 2

/-- G at the boundary at which a swap submitted now takes effect. -/
def nextBoundaryG (c : Chip) : Nat :=
  if c.mode.frames then c.seq.g + (fld c 0x40004 0 9 - c.seq.tick) else 0

/-- The first occurrence of each member of a list, in the list's order. -/
def firstOnes (xs : List Nat) : List Nat := xs.foldl (fun a x => if a.contains x then a else a ++ [x]) []

/-- G modulo 32 at the boundaries of frames of the new length: from the next boundary on, and from a
boundary at which G is 0 (R341). -/
def frameStarts (c : Chip) : List Nat :=
  let len := frameLenOf c
  firstOnes (((List.range 32).map fun k => (nextBoundaryG c + k * len) % 32)
    ++ (List.range 32).map fun k => k * len % 32)

/-- Base ticks as (G at the frame boundary, ticks after it). -/
def allTicks (c : Chip) : List (Nat × Nat) :=
  (frameStarts c).flatMap fun g => (List.range (frameLenOf c)).map fun t => (g, t)

/-- Is a tick-lane entry due (R342, R343)? -/
def dueAt (c : Chip) (i : Nat) (g t : Nat) : Bool :=
  match entTrig c i % 4 with
  | 1 => (g + t) % 2 ^ (entTrig c i / 4 % 8) == entPhase c i
  | 2 =>
    let d := frameLenOf c / max 1 (entN c i)
    decide (entPhase c i ≤ t) && (t - entPhase c i) % max 1 d == 0
  | _ => false

/-- M of R653 for a tick-lane LOOP entry, over every base tick at which it is due. -/
def loopsAhead (c : Chip) (i : Nat) : Nat :=
  let js := (List.range i).filter fun j => entOp c j == 6
  (((allTicks c).filter fun x => dueAt c i x.1 x.2).map fun x => (js.filter fun j => dueAt c j x.1 x.2).length).foldl max 0

/-- The entry of a loop in the scan table in force. -/
def loopEntry (c : Chip) (l : Nat) : Option Nat :=
  (List.range (scanEntries c)).find? fun i => entOp c i == 6 && entPoint c i == loopPt l

/-- D_MIN of a loop under the tables in force (R653, R654); 0 without an entry. -/
def dMin (c : Chip) (l : Nat) : Nat :=
  match loopEntry c l with
  | some i => if entTrig c i % 4 = 0 then loopCost c l + 20000 else loopCost c l + 625 * (loopsAhead c i / 4 + 1)
  | none => 0

/-- The deadline of an evaluation, in cycles after its dispatch (R655). DESIGN CHOICE: with DEADLINE 0 and no entry of
the loop in the scan table in force there is no D_MIN, and so none (log 106). -/
def deadlineOf (c : Chip) (l : Nat) : Option Nat :=
  let d := lp c l 0x2C 2
  if d ≠ 0 then some d
  else if (loopEntry c l).isSome then some (dMin c l)
  else none

/-- Does an evaluation that writes `cycles` after its dispatch come later than its deadline (R655)? -/
def evalLate (c : Chip) (l cycles : Nat) : Bool := (deadlineOf c l).any fun d => decide (d < cycles)

/-- A miss: the evaluation is discarded with every change it made to the loop state, counted and reported (R656, R658); it
is an evaluation of the loop's captures and injections all the same (R667, R670). -/
def missEval (c : Chip) (l : Nat) (r : EvalReq) : Chip :=
  let c1 := { c with evq := c.evq.erase r }
  let first := fld c (loopBase l + 4) 16 8 = 0
  let c2 := countFld (countFld (setFlag c1 (loopStat l) 10 true) (loopBase l + 4) 0 16) (loopBase l + 4) 16 8
  let c3 := cutDue c2 l false
  let c3 := (capturing c2 l).foldl (fun c b => tuneEval c b none) (injValues c3 (injecting c3 l)).2
  if first then postPointFault c3 0x48 (loopPt l) (fld c (loopBase l + 0x20) 16 16) true else c3

/-- DEADLINE_MISS: an evaluation's deadline comes while it waits for a lane or has not written its word. -/
def deadlineMiss (c : Chip) (l : Nat) : Chip :=
  match waiting c l with
  | some r => missEval c l r
  | none => c

/-- LOOP_EVALUATION: the loop's evaluation, when it is the one that a lane takes next, writes its word `cycles` cycles
after its dispatch; one that comes later than its deadline is a miss (R655, R656). -/
def loopEvaluation (c : Chip) (l cycles : Nat) : Chip :=
  match nextEval c with
  | some r =>
    if r.loop ≠ l || !laneIn c then c
    else
      let c1 := { c with evq := c.evq.erase r }
      if !loopRuns c l then c1
      else if evalLate c l cycles then missEval c l r
      else evaluate c1 l r.chain cycles
  | none => c

/-- A LOOP entry dispatches an evaluation (R339, R651). -/
def dispatchLoop (c : Chip) (l : Nat) (tickLane chain : Bool) : Chip :=
  if loopRuns c l then { c with evq := c.evq ++ [⟨l, tickLane, chain⟩] } else c

/-- MAC_LANE_SELFTEST: a failing lane leaves service (R659, R1095, R1211). -/
def macLaneSelftest (c : Chip) (lane : Nat) (ok : Bool) : Chip :=
  if ok || !domOn c 23 || !flag c 0x150004 lane then c
  else postErrorRec (postErrorRec (setFlag c 0x150004 lane false) 0x1A srcNode 1) 0x49 srcNode lane

/-- CTRL_Ln_DL.D_MIN is computed on reading. -/
def ctrlView (c : Chip) (off : Nat) : Option Nat :=
  if 0x151000 ≤ off ∧ off < 0x153000 ∧ off % 0x40 = 0x20 then
    let l := (off - 0x151000) / 0x40
    let d := if loopEn c l then min 65535 (dMin c l) else 0
    some (d + (reg c off).toNat / 65536 * 65536)
  else none

/-! ## Loop commands: status and RESULT, then the effect -/

/-- SET_LOOP_MODE (R630 to R634). -/
def setLoopModeStatus (c : Chip) (l m : Nat) : Nat × Nat :=
  if b2n (loopAuto c l) = m then (stSuccess, 1)
  else if m = 1 ∧ nodeMode c = mService then (stWrongMode, 0)
  else if m = 1 ∧ flag c (loopStat l) 2 = true then (stWrongState, 0)
  else (stSuccess, 0)

def setLoopMode (c : Chip) (l m : Nat) : Chip := if m = 1 then toAuto c l else toManual c l

/-- A supplied word re-encoded into an exponent (R66). -/
def reencode (w : Nat) (e : Int) : Nat := (encodeWord false (qwValue (qw32Of w)) e (qw32Of w).unit (qw32Of w).qual 0).1

/-- SET_SETPOINT (R643). -/
def setSetpoint (c : Chip) (l w : Nat) : Chip :=
  setReg c (loopBase l + 0x18) (BitVec.ofNat 32 (reencode w (qw32Of (spConst c l)).exp))

/-- SET_MANUAL_OUTPUT (R635). -/
def setManualOutput (c : Chip) (l w : Nat) : Chip :=
  setReg c (loopBase l + 0x1C) (BitVec.ofNat 32 (reencode w (outExp c l)))

/-- TUNE_START's status from WRONG_MODE on (R662), for a set-up in range and owned.

DESIGN CHOICE: while the CTRL domain is not ON, no buffer can be ARMED (R676); R662 has no row for it (log 118). -/
def tuneStatus (c : Chip) (l : Nat) (x : List Byte) : Nat × Nat :=
  let b := cfgField x 0 1
  if nodeMode c ≠ mRun ∧ nodeMode c ≠ mService then (stWrongMode, 0)
  else if !domOn c 23 || !loopEn c l || (decide (cfgIpoint x ≤ 1) && !loopAuto c l)
      || (cfgSignal x != 0 && (injecting c l).any fun k => k != b) then (stWrongState, 0)
  else if tuneState c b ≠ 0 ∧ tuneLoop c b = l ∧ (tuneSt c b).cfg = x then (stSuccess, 1)
  else if tuneState c b ≠ 0 then (stNoResource, 0)
  else (stSuccess, 0)

/-- The buffer is cleared and ARMED (R662). -/
def tuneStart (c : Chip) (l : Nat) (x : List Byte) : Chip :=
  let b := cfgField x 0 1
  let c1 := setTune (clearBuffer c b) b { tuneDef b with cfg := x }
  setFld (setFld c1 (tuneBase b) 0 2 1) (tuneBase b) 8 7 l

/-- TUNE_STOP (R673, R674): the effect, and whether some capture ended. -/
def tuneStop (c : Chip) (l : Nat) : Chip × Bool :=
  let caps := capturing c l
  let c1 := caps.foldl (fun c b => endCapture c b 2) c
  let c2 := (injecting c1 l).foldl (fun c b => setFlag c (tuneBase b) 5 false) c1
  (c2, !caps.isEmpty)

/-- CAPTURE_TIMEOUT: TIMEOUT s have passed in ARMED (R673). -/
def captureTimeout (c : Chip) (b : Nat) : Chip :=
  if tuneState c b = 1 ∧ cfgTimeout (tuneSt c b).cfg ≠ 0 then endCapture c b 3 else c

/-- RELEASE: in DONE the buffer returns to IDLE and keeps its contents; an injection goes on (R667). -/
def hookTuneCtl : Hook := fun w c =>
  let b := (w.off - 0x154000) / 0x20
  let c1 := setFlag c w.off 0 false
  if w.hit 0 && tuneState c1 b == 3 then setFld c1 (tuneBase b) 0 5 0 else c1

def releaseWrite (c : Chip) (fn : Fn) (b : Nat) (v : Word) (be : BitVec 4) : Chip :=
  writeWord hookTuneCtl c fn (tuneBase b + 0xC) v be

end Sys2Proof.Machine
end

