-- ==== Sys2Proof/Machine/Rtc.lean ====
section
/-! DEFINITION. Real-time clock: counting, setting, trimming, shifting and alarms (23_rtc). -/

namespace Sys2Proof.Machine

def rtcStat : Nat := 0x1D0004
def rtcOn (c : Chip) : Bool := domOn c 0
def modRtc (c : Chip) (f : RtcSt → RtcSt) : Chip := { c with rtc := f c.rtc }

/-- 2000-01-01 00:00:00 (R1010, R1011). -/
def calZero : Cal := { sec := 0, min := 0, hour := 0, day := 1, month := 1, year := 2000 }

def leapYear (y : Nat) : Bool := y % 4 == 0 && (y % 100 != 0 || y % 400 == 0)

def monthDays (y m : Nat) : Nat :=
  if m = 2 then (if leapYear y then 29 else 28)
  else if m = 4 ∨ m = 6 ∨ m = 9 ∨ m = 11 then 30 else 31

/-- Days from 2000-01-01 to a date. -/
def dayNumber (k : Cal) : Nat :=
  let y := k.year - 2000
  let leaps := (y + 3) / 4 - (y + 99) / 100 + (y + 399) / 400
  y * 365 + leaps + ((List.range (k.month - 1)).map fun i => monthDays k.year (i + 1)).sum + (k.day - 1)

/-- Weekday of a date: 1 Monday to 7 Sunday; 2000-01-01 is a Saturday (R1009). -/
def weekday (k : Cal) : Nat := (5 + dayNumber k) % 7 + 1

/-- One second later; the second is whether the calendar wrapped (R1008, R1010). -/
def calNext (k : Cal) : Cal × Bool :=
  if k.sec < 59 then ({ k with sec := k.sec + 1 }, false)
  else if k.min < 59 then ({ k with sec := 0, min := k.min + 1 }, false)
  else if k.hour < 23 then ({ k with sec := 0, min := 0, hour := k.hour + 1 }, false)
  else if k.day < monthDays k.year k.month then ({ k with sec := 0, min := 0, hour := 0, day := k.day + 1 }, false)
  else if k.month < 12 then ({ k with sec := 0, min := 0, hour := 0, day := 1, month := k.month + 1 }, false)
  else if k.year < 2399 then ({ calZero with year := k.year + 1 }, false)
  else (calZero, true)

/-- A time word and a date word of an instant. -/
def timeWord (k : Cal) : Nat := k.sec + k.min * 2 ^ 8 + k.hour * 2 ^ 16 + weekday k * 2 ^ 24
def dateWord (k : Cal) : Nat := k.day + k.month * 2 ^ 8 + k.year * 2 ^ 16

/-- The instant that a time word and a date word spell. -/
def calOf (t d : Nat) : Cal :=
  { sec := natBits t 0 6, min := natBits t 8 6, hour := natBits t 16 5,
    day := natBits d 0 5, month := natBits d 8 4, year := natBits d 16 12 }

/-- Every field lies in its range and the day exists (R1015). -/
def calOk (k : Cal) : Bool :=
  decide (k.sec ≤ 59) && decide (k.min ≤ 59) && decide (k.hour ≤ 23) && decide (1 ≤ k.month)
    && decide (k.month ≤ 12) && decide (2000 ≤ k.year) && decide (k.year ≤ 2399) && decide (1 ≤ k.day)
    && decide (k.day ≤ monthDays k.year k.month)

/-- Does alarm n match the instant (R1029)? -/
def alarmMatches (c : Chip) (n : Nat) (k : Cal) : Bool :=
  let t := (reg c (0x1D0040 + n * 0x10)).toNat
  let d := (reg c (0x1D0044 + n * 0x10)).toNat
  let m := fld c (0x1D0048 + n * 0x10) 0 7
  (natBit m 0 || natBits t 0 6 == k.sec) && (natBit m 1 || natBits t 8 6 == k.min)
    && (natBit m 2 || natBits t 16 5 == k.hour) && (natBit m 3 || natBits t 24 3 == weekday k)
    && (natBit m 4 || natBits d 0 5 == k.day) && (natBit m 5 || natBits d 8 4 == k.month)
    && (natBit m 6 || natBits d 16 12 == k.year)

/-- The alarms that fire as the calendar advances into its present second (R1029). -/
def alarmsFiring (c : Chip) : List Nat :=
  ([0, 1] : List Nat).filter fun n => flag c (0x1D0048 + n * 0x10) 8 && flag c rtcStat 0 && alarmMatches c n c.rtc.cal

/-- The calendar advances by one second: WRAPPED, alarms (R1008, R1010, R1029, R1030). -/
def secondPasses (c : Chip) : Chip :=
  let (k, wrapped) := calNext c.rtc.cal
  let c1 := modRtc c fun r => { r with cal := k }
  let c2 := if wrapped then setFlag c1 rtcStat 3 true else c1
  (alarmsFiring c2).foldl (fun c n => setFlag c rtcStat (8 + n) true) c2

/-- A wake event is raised by an alarm that fires with WAKE (R1030). -/
def alarmWakes (c : Chip) : Bool := (alarmsFiring c).any fun n => flag c (0x1D0048 + n * 0x10) 9

/-- The trim term of an edge and the accumulator after it (R1019). -/
def trimTerm (acc trim : Int) : Int × Int :=
  let a := acc + trim
  if 10000000 ≤ a then (1, a - 10000000) else if a ≤ -10000000 then (-1, a + 10000000) else (0, a)

def shiftLeft (c : Chip) : Int := signed 16 (fld c 0x1D003C 0 16)

/-- Shift term of an edge whose trim term is `t` (R1027, R1028). -/
def shiftTerm (c : Chip) (t : Int) : Int × Chip :=
  let left := shiftLeft c
  if left = 0 then (0, c)
  else
    let due := c.rtc.wait || c.rtc.edge + 1 == 16
    let c1 := modRtc c fun r => { r with edge := (r.edge + 1) % 16 }
    if !due then (0, c1)
    else if t ≠ 0 then (0, modRtc c1 fun r => { r with wait := true })
    else
      let d : Int := if 0 < left then 1 else -1
      let c2 := setFld (modRtc c1 fun r => { r with wait := false }) 0x1D003C 0 16 (unsigned 16 (left - d))
      (d, if left = d then setFlag c2 rtcStat 5 false else c2)

/-- SS advances by `n` counts; passing 32,767 advances the calendar (R1008). -/
def advanceSs (c : Chip) (n : Nat) : Chip :=
  let s := c.rtc.ss + n
  let c1 := modRtc c fun r => { r with ss := s % 32768 }
  if 32768 ≤ s then secondPasses c1 else c1

/-- An accepted SET is loaded in place of the edge's count (R1015, R1018). -/
def loadSet (c : Chip) (ss : Nat) (k : Cal) : Chip :=
  setFlag (setFlag (modRtc c fun r => { r with ss := ss, cal := k, set := none }) rtcStat 0 true) 0x1D0000 0 false

/-- The clock takes one edge of the active 32 kHz source (R1008, R1013, R1019, R1020). -/
def rtcEdge (c : Chip) : Chip :=
  if !rtcOn c then c
  else match c.rtc.set with
    | some (ss, k) => loadSet c ss k
    | none =>
      if c.pwr.onCrystal then
        let (t, a) := trimTerm c.rtc.acc (signed 12 (fld c 0x1D0030 0 12))
        let c1 := modRtc c fun r => { r with acc := a }
        let (s, c2) := shiftTerm c1 t
        advanceSs c2 (1 + t + s).toNat
      else
        -- the RC backup: 32,768 / 32,000 counts an edge, TRIM withheld; a shift goes on
        let f := c.rtc.frac + 128
        let c1 := modRtc c fun r => { r with frac := f % 125 }
        let (s, c2) := shiftTerm c1 0
        advanceSs c2 ((f / 125 : Nat) + s).toNat

/-- OT counts 1,024 a second of the active source, and stops at its greatest value (R100, R769). -/
def otEdge (c : Chip) : Chip :=
  let f := c.rtc.otFrac + (if c.pwr.onCrystal then 125 else 128)
  { (modRtc c fun r => { r with otFrac := f % 4000 }) with ot := min (2 ^ 40 - 1) (c.ot + f / 4000) }

/-- One edge of the active 32 kHz source: OT and the clock, which a cold reset holds (R88). -/
def crystalEdge (c : Chip) : Chip := if aonRuns c then rtcEdge (otEdge c) else c

/-- Will the next edge advance the calendar (R1008)? -/
def secondDue (c : Chip) : Bool := (crystalEdge c).rtc.cal != c.rtc.cal && c.rtc.set.isNone

/-- CALENDAR_SECOND: the edge at which SS passes 32,767; no other edge is this command. -/
def calendarSecond (c : Chip) : Chip := if rtcOn c && secondDue c then crystalEdge c else c

/-- SHIFT_STEP: the edge at which a shift step is made; no other edge is this command (R1027). -/
def shiftStep (c : Chip) : Chip :=
  let c1 := crystalEdge c
  if rtcOn c && shiftLeft c1 != shiftLeft c then c1 else c

/-- The RTC domain reaches ON, or a cold reset: 2000-01-01 00:00:00, SET_VALID 0 (R1011). -/
def rtcDomainOn (c : Chip) : Chip :=
  setFlag (modRtc c fun _ => { ss := 0, cal := calZero, acc := 0, frac := 0, edge := 0, wait := false,
                               otFrac := c.rtc.otFrac, set := none }) rtcStat 0 false

/-- ON_RC and RC_USED follow the source (R1013). -/
def rtcSource (c : Chip) : Chip :=
  if c.pwr.onCrystal then setFlag c rtcStat 1 false else setFlag (setFlag c rtcStat 1 true) rtcStat 2 true

/-! ## Trim measurement -/

/-- TRIM_WINDOW_END (R1021 to R1024). -/
def trimWindowEnd (c : Chip) (n : Rat) (ok : Bool) : Chip :=
  if fld c 0x1D0000 2 2 = 0 ∨ domOn c 26 = false ∨ rtcOn c = false then c
  else
    let win := fld c 0x1D0000 16 12
    let m := roundHE ((n / (32768 * win) - 1) * 10000000)
    if !ok || decide (m < -2000) || decide (2000 < m) || win == 0 then
      setFlag (countFld c 0x1D0034 24 8) rtcStat 6 false
    else
      let c1 := setFlag (countFld (setFld c 0x1D0034 0 12 (unsigned 12 m)) 0x1D0034 16 8) rtcStat 6 true
      if flag c1 0x1D0000 4 then setFld c1 0x1D0030 0 12 (unsigned 12 (-m)) else c1

/-! ## Reading and writing -/

/-- RTC registers: computed from the clock; 0 while the domain is not ON (R1012, R1014).

DESIGN CHOICE: to a function that has not yet read RTC_SS, RTC_TIME, RTC_DATE and RTC_OT_LO/HI give the calendar and OT of
the moment: R1014 latches them on a read of RTC_SS, and their tables give default 0 (log 130). -/
def rtcView (c : Chip) (fn off : Nat) : Option Nat :=
  if off < 0x1D0000 ∨ 0x1D8000 ≤ off then none
  else if !rtcOn c then some 0
  else
    let l := (fnSt c fn).cal.getD (timeWord c.rtc.cal, dateWord c.rtc.cal, c.ot)
    match off with
    | 0x1D0008 => some c.rtc.ss
    | 0x1D000C => some l.1
    | 0x1D0010 => some l.2.1
    | 0x1D0014 => some (l.2.2 % 2 ^ 32)
    | 0x1D0018 => some (l.2.2 / 2 ^ 32)
    | _ => none

/-- A refused write or SET (R1016, R1026, R1031). -/
def rtcReject (c : Chip) (off : Nat) : Chip := postError (setFlag c rtcStat 4 true) 0x80 srcNode (off - 0x1D0000)

/-- The field ranges of the block (R1031); an alarm field of 0 is in range. -/
def rtcRangeOk (off v : Nat) : Bool :=
  let timeOk := decide (natBits v 0 6 ≤ 59) && decide (natBits v 8 6 ≤ 59) && decide (natBits v 16 5 ≤ 23)
  let monOk := decide (natBits v 8 4 ≤ 12)
  let yr := natBits v 16 12
  let yearOk := decide (2000 ≤ yr) && decide (yr ≤ 2399)
  match off with
  | 0x1D0000 => decide (16 ≤ natBits v 16 12)
  | 0x1D0024 | 0x1D0040 | 0x1D0050 => timeOk
  | 0x1D0028 => monOk && yearOk && decide (1 ≤ natBits v 0 5) && decide (1 ≤ natBits v 8 4)
  | 0x1D0044 | 0x1D0054 => monOk && (yearOk || yr == 0)
  | 0x1D0030 => decide (-2000 ≤ signed 12 v) && decide (signed 12 v ≤ 2000)
  | _ => true

/-- RTC_CTL.SET (R1015 to R1017). -/
def submitSet (c : Chip) : Chip :=
  let k := calOf (reg c 0x1D0024).toNat (reg c 0x1D0028).toNat
  if calOk k then
    setFlag (setFld (modRtc c fun r => { r with set := some (fld c 0x1D0020 0 15, k), wait := false, edge := 0 })
      0x1D003C 0 16 0) rtcStat 5 false
  else rtcReject (setFlag c 0x1D0000 0 false) 0x1D0000

/-- RTC_SHIFT.GO (R1025, R1026). -/
def submitShift (c : Chip) (old : Word) : Chip :=
  let a := signed 16 (fld c 0x1D0038 0 16)
  if flag c rtcStat 5 || decide (a < -16384) || decide (16384 < a) then
    -- the write is discarded
    setFlag (rtcReject (setReg c 0x1D0038 old) 0x1D0038) 0x1D0038 31 false
  else
    let c1 := setFld (modRtc c fun r => { r with edge := 0, wait := false }) 0x1D003C 0 16 (unsigned 16 a)
    setFlag (setFlag c1 rtcStat 5 (a != 0)) 0x1D0038 31 false

/-- Writes of the RTC block. -/
def hookRtc : Hook := guarded (fun c _ o => !rtcRangeOk o (reg c o).toNat) (fun c _ o => rtcReject c o) fun w c =>
  if w.off = 0x1D0000 ∧ w.hit 0 = true then
    if w.badCode then rtcReject (setFlag c 0x1D0000 0 false) w.off else submitSet c
  else if w.off = 0x1D0000 ∧ w.old.toNat % 2 = 1 then
    -- a 0 written to SET withdraws nothing (R1184)
    setFlag c 0x1D0000 0 c.rtc.set.isSome
  else if w.off = 0x1D0038 ∧ w.hit 31 = true then submitShift c w.old
  else c

/-- CALENDAR_LATCH: a read of RTC_SS by a function (R1014). -/
def calendarLatch (c : Chip) (fn : Nat) : Chip :=
  if fn ≠ 0 ∨ rtcOn c = false then { c with readOut := some 0, readAbort := false }
  else
    let c1 := modFn c fn fun f => { f with cal := some (timeWord c.rtc.cal, dateWord c.rtc.cal, c.ot) }
    { c1 with readOut := some c.rtc.ss, readAbort := false }

end Sys2Proof.Machine
end

