-- ==== Sys2Proof/Machine/Can.lean ====
section
/-! DEFINITION. CAN FD controllers: transmit buffers, arbitration, reception, error state
(21_can_fd). -/

namespace Sys2Proof.Machine

def canBase (n : Nat) : Nat := 0x1B0000 + n * 0x2000
def canCtl (n : Nat) : Nat := canBase n
def canStatReg (n : Nat) : Nat := canBase n + 0x14
def canErr (n : Nat) : Nat := canBase n + 0x18
def canCnt (n : Nat) : Nat := canBase n + 0x1C

def canDef (_ : Nat) : CanSt := { buf := [], fifo := [], mode := 0 }
def canBufDef (_ : Nat) : Option CanTx := none

def canSt (c : Chip) (n : Nat) : CanSt := smGet canDef c.can n
def modCan (c : Chip) (n : Nat) (f : CanSt → CanSt) : Chip := { c with can := smMod canDef c.can n f }

/-- Transmit buffer b; buffer 3 is where a call frame waits while buffer 2 is ON_BUS. -/
def canBuf (c : Chip) (n b : Nat) : Option CanTx := smGet canBufDef (canSt c n).buf b
def setBuf (c : Chip) (n b : Nat) (x : Option CanTx) : Chip :=
  modCan c n fun s => { s with buf := smPut canBufDef s.buf b x }

def canOwner (c : Chip) (n : Nat) : Nat := ownerAt c (0xD00 + n)
def srcCan (n : Nat) : Nat := srcRes 7 n
def canDomOn (c : Chip) : Bool := domOn c 21

/-- STATE: 0 error-active, 1 error-passive, 2 bus-off, 3 recovering. -/
def canState (c : Chip) (n : Nat) : Nat := fld c (canStatReg n) 0 2

/-- Frames may be transmitted in the node's mode (R129, R944). -/
def canTransmits (c : Chip) : Bool := transmitLive c || nodeMode c == mTest

/-- A controller whose MODE is NORMAL runs as in LISTEN (R943). -/
def listenForced (c : Chip) (n : Nat) : Bool :=
  canDomOn c && (canSt c n).mode == 1 && !canTransmits c

/-- The controller takes part in its bus. -/
def canRuns (c : Chip) (n : Nat) : Bool := canDomOn c && (canSt c n).mode != 0

/-- The level of CANn_TX while it is known: recessive, which is high, while the controller takes no part in its bus, and while
it listens and drives nothing (R918, R943). -/
def canTxLevel (c : Chip) (n : Nat) : Option Bool :=
  if !canRuns c n || (canSt c n).mode == 2 || listenForced c n then some true else none

/-- Data bytes of a frame (R923); a remote frame carries none. -/
def canLen (fmt dlc : Nat) : Nat :=
  if natBit fmt 3 then 0
  else if dlc ≤ 8 then dlc
  else if natBit fmt 1 then
    (match dlc with | 9 => 12 | 10 => 16 | 11 => 20 | 12 => 24 | 13 => 32 | 14 => 48 | _ => 64)
  else 8

/-- The call takes its outputs and CAN settings from the rota in force: at start-up, at a swap while no call is in progress,
and at each evaluation (R735). -/
def callTake (c : Chip) : Chip :=
  { c with call := { c.call with set :=
      { pol := ((List.range 16).map fun n => tbl c 7 (0x41 + n * 0x10) 1 % 2 * 2 ^ n).sum
        ctrl := tbl c 7 8 1, fmt := tbl c 7 9 1, txId := tbl c 7 0xC 4, rxBase := tbl c 7 0x10 4 } } }

/-- The engineer call owns transmit buffer 2 of this controller (R759): its CAN_CTRL. -/
def callCtrl (c : Chip) : Option Nat := if c.call.set.ctrl < 8 then some c.call.set.ctrl else none

def callHoldsB2 (c : Chip) (n : Nat) : Bool := callCtrl c == some n

/-! ## CAN_SEND (R924) -/

/-- Fields of a CAN_SEND: controller, buffer, format, DLC, identifier and data. -/
structure CanCmd where
  ctrl : Nat
  buf : Nat
  fmt : Nat
  dlc : Nat
  ident : Nat
  data : List Byte
  deriving DecidableEq, Repr

def byteAt (bs : List Byte) (i : Nat) : Nat := (bs.getD i 0).toNat

def canCmdOf (ops : List Byte) : CanCmd :=
  { ctrl := byteAt ops 0, buf := byteAt ops 1, fmt := byteAt ops 2, dlc := byteAt ops 3,
    ident := leNat ((ops.drop 4).take 4), data := ops.drop 8 }

/-- INVALID_FIELD of R924; `more` says that the command had continuation entries. -/
def canFieldBad (k : CanCmd) (more : Bool) : Bool :=
  let len := canLen k.fmt k.dlc
  decide (7 < k.ctrl) || decide (2 < k.buf) || decide (15 < k.fmt) || decide (15 < k.dlc)
    || (natBit k.fmt 3 && natBit k.fmt 1) || (natBit k.fmt 2 && !natBit k.fmt 1)
    || (if natBit k.fmt 0 then decide (0x1FFFFFFF < k.ident) else decide (0x7FF < k.ident))
    || (more != decide (48 < len)) || (k.data.drop len).any fun b => b != 0

/-- Status of a CAN_SEND from a function. -/
def canSendStatus (c : Chip) (fn : Nat) (ops : List Byte) (more : Bool) : Nat :=
  let k := canCmdOf ops
  if canFieldBad k more then stInvalidField
  else if fn != 0 && canOwner c k.ctrl != fnOwner fn then stNotOwner
  else if !(transmitLive c || (nodeMode c == mTest && fn == 0)) then stWrongMode
  else if !(fld c (canCtl k.ctrl) 0 2 == 1 || fld c (canCtl k.ctrl) 0 2 == 3)
      || decide (2 ≤ canState c k.ctrl) || (natBit k.fmt 1 && !flag c (canCtl k.ctrl) 2) then stWrongState
  else if (k.buf == 2 && callHoldsB2 c k.ctrl) || (canBuf c k.ctrl k.buf).isSome then stNoResource
  else stSuccess

/-- The frame of an accepted CAN_SEND enters its buffer as PENDING. -/
def canSendBegin (c : Chip) (fn : Nat) (ops : List Byte) : Chip :=
  let k := canCmdOf ops
  setBuf c k.ctrl k.buf (some
    { onBus := false, fmt := k.fmt, ident := k.ident, dlc := k.dlc,
      data := k.data.take (canLen k.fmt k.dlc), fn := fn, tmo := false, drop := false })

/-- Complete the CAN_SEND whose frame leaves buffer b. Function 9 is the engineer call, whose frames
complete nothing. -/
def canComplete (c : Chip) (n b : Nat) (x : CanTx) (status result : Nat) : Chip :=
  completeWhere c (fun fn i => fn == x.fn && i.what == .can n b) fun _ _ => (status, result)

/-- Withdraw or finish the frame of a buffer. A call frame that waits for buffer 2 takes it (R929). -/
def endBuf (c : Chip) (n b status result : Nat) : Chip :=
  match canBuf c n b with
  | none => c
  | some x =>
    let c1 := canComplete (setBuf c n b none) n b x status result
    if b = 2 then
      match canBuf c1 n 3 with
      | some y => setBuf (setBuf c1 n 3 none) n 2 (some y)
      | none => c1
    else c1

/-- Withdraw every PENDING frame with an outcome. -/
def withdrawPending (c : Chip) (n status result : Nat) : Chip :=
  ([0, 1, 3, 2] : List Nat).foldl (fun c b =>
    match canBuf c n b with
    | some x => if x.onBus then c else endBuf c n b status result
    | none => c) c

/-- A frame ON_BUS ends its attempt; when the attempt fails it is withdrawn with outcome 5. -/
def dropOnBus (c : Chip) (n : Nat) : Chip :=
  ([0, 1, 2] : List Nat).foldl (fun c b =>
    match canBuf c n b with
    | some x => if x.onBus then setBuf c n b (some { x with drop := true }) else c
    | none => c) c

/-- A change of MODE, or of the node's mode to one that permits no transmission (R943, R945). -/
def canWithdraw (c : Chip) (n : Nat) : Chip := dropOnBus (withdrawPending c n stSuccess 5) n

/-- The buffer that is ON_BUS. -/
def onBusBuf (c : Chip) (n : Nat) : Option Nat :=
  ([0, 1, 2] : List Nat).find? fun b => match canBuf c n b with | some x => x.onBus | none => false

/-! ## Transmitting -/

/-- Rank of a frame in bus arbitration: the dominant bit wins, so the lower number ranks first. The
standard identifier, or the upper 11 bits, then RTR or SRR, IDE, the lower 18 bits and RTR. -/
def arbRank (x : CanTx) : Nat :=
  if natBit x.fmt 0 then
    x.ident / 2 ^ 18 * 2 ^ 21 + 2 ^ 20 + 2 ^ 19 + x.ident % 2 ^ 18 * 2 + b2n (natBit x.fmt 3)
  else x.ident * 2 ^ 21 + b2n (natBit x.fmt 3) * 2 ^ 20

/-- PENDING buffers in order of number. -/
def pendingBufs (c : Chip) (n : Nat) : List (Nat × CanTx) :=
  ([0, 1, 2] : List Nat).filterMap fun b =>
    match canBuf c n b with
    | some x => if x.onBus then none else some (b, x)
    | none => none

/-- The buffer a start of frame takes (R926). -/
def chooseBuf (c : Chip) (n : Nat) : Option (Nat × CanTx) :=
  if flag c (canBase n + 0x10) 0 then (pendingBufs c n).head?
  else (pendingBufs c n).foldl (fun a e =>
    match a with
    | some m => if arbRank e.2 < arbRank m.2 then some e else a
    | none => some e) none

/-- The controller may begin a frame now. -/
def canMayStart (c : Chip) (n : Nat) : Bool :=
  canRuns c n && ((canSt c n).mode == 3 || ((canSt c n).mode == 1 && canTransmits c))
    && decide (canState c n < 2) && (onBusBuf c n).isNone && (canSt c n).mode == fld c (canCtl n) 0 2

/-- START_OF_FRAME (R926). -/
def startOfFrame (c : Chip) (n : Nat) : Chip :=
  if canMayStart c n then
    match chooseBuf c n with
    | some (b, x) => setBuf c n b (some { x with onBus := true })
    | none => c
  else c

/-- Error-active or error-passive by the counters; bus-off and recovery end by their own commands. -/
def setErrState (c : Chip) (n : Nat) : Chip :=
  if 2 ≤ canState c n then c
  else setFld c (canStatReg n) 0 2 (b2n (decide (127 < fld c (canErr n) 0 8) || decide (127 < fld c (canErr n) 8 8)))

/-- ONESHOT of a buffer; ignored while the engineer call holds it (R929). -/
def oneShot (c : Chip) (n b : Nat) : Bool :=
  flag c (canBase n + 0x10) (1 + b) && !(b == 2 && callHoldsB2 c n)

/-- The attempt of an ON_BUS frame failed with one-shot outcome `o` (R927, R928, R945). -/
def attemptFails (c : Chip) (n b o : Nat) (x : CanTx) : Chip :=
  if oneShot c n b then endBuf c n b stSuccess o
  else if x.drop then endBuf c n b stSuccess 5
  else if x.tmo then endBuf c n b stSuccess 3
  else if b = 2 && x.fn == 9 && (canBuf c n 3).isSome then endBuf c n b stSuccess 5
  else setBuf c n b (some { x with onBus := false })

/-- A whole frame was transmitted: time stamp (R931), the transmit error counter, the measured delay of
R921. -/
def frameSent (c : Chip) (n b ts : Nat) (x : CanTx) : Chip :=
  let c1 := setReg c (canBase n + 0x20 + b * 8) (BitVec.ofNat 32 ts)
  let c2 := setReg c1 (canBase n + 0x24 + b * 8) (BitVec.ofNat 32 (ts / 2 ^ 32))
  -- PRESUMED (ISO 11898-1): a successful transmission takes 1 from the counter
  let c3 := setErrState (setFld c2 (canErr n) 0 8 (fld c2 (canErr n) 0 8 - 1)) n
  let c4 := if natBit x.fmt 2 && flag c3 (canBase n + 0xC) 0 then
      setFld (takeFree c3) (canBase n + 0xC) 16 8 (Config.freeValue c3.free) else c3
  endBuf c4 n b stSuccess 0

/-- TX_OUTCOME of the ON_BUS frame: 0 acknowledged, 1 arbitration lost, 2 an error. -/
def canOutcome (c : Chip) (n o ts : Nat) : Chip :=
  match onBusBuf c n with
  | none => c
  | some b =>
    match canBuf c n b with
    | none => c
    | some x => if o = 0 then frameSent c n b ts x else attemptFails c n b o x

/-- TX_TMO ms pass from the acceptance of a buffer's frame (R928). -/
def txTmo (c : Chip) (n b : Nat) : Chip :=
  match canBuf c n b with
  | none => c
  | some x =>
    if 2 < b then c
    else if x.onBus then setBuf c n b (some { x with tmo := true })
    else endBuf c n b stSuccess 3

/-! ## Receiving (R932 to R938) -/

def fltBase (n f : Nat) : Nat := canBase n + 0x100 + f * 0x10
def hpbBase (n h : Nat) : Nat := canBase n + 0x400 + h * 0x60

/-- R934. -/
def fltMatches (c : Chip) (n f fmt ident : Nat) : Bool :=
  flag c (fltBase n f) 0 && flag c (fltBase n f) 1 == natBit fmt 0
    && ((ident ^^^ (reg c (fltBase n f + 4)).toNat) &&& (reg c (fltBase n f + 8)).toNat) == 0

def fltFor (c : Chip) (n fmt ident : Nat) : Option Nat := (List.range 32).find? fun f => fltMatches c n f fmt ident

/-- Load the data words of a high-priority buffer. -/
def hpbData (c : Chip) (n h : Nat) (data : List Byte) : Chip :=
  (List.range 16).foldl (fun c w =>
    setReg c (hpbBase n h + 0x10 + w * 4) (BitVec.ofNat 32 (leNat ((padTo 64 data).drop (4 * w) |>.take 4)))) c

/-- A frame replaces the content of high-priority buffer h (R935). -/
def hpbTake (c : Chip) (n f h : Nat) (r : CanRx) : Chip :=
  let b := hpbBase n h
  let c1 := if flag c b 0 then countFld c b 24 8 else c
  let c2 := setFlag (setFld (setFld (setFld c1 b 1 5 r.fmt) b 6 4 r.dlc) b 10 5 f) b 0 true
  let c3 := wrapFld c2 b 16 8
  let c4 := setReg (setReg (setReg c3 (b + 4) (BitVec.ofNat 32 r.ident)) (b + 8) (BitVec.ofNat 32 r.ts))
    (b + 12) (BitVec.ofNat 32 (r.ts / 2 ^ 32))
  hpbData c4 n h r.data

/-- The CAN_RX event of a frame, to the controller's owner (R936). -/
def canRxEvent (c : Chip) (n a0 a1 : Nat) (r : CanRx) : Chip :=
  let first := natLe 1 n ++ natLe 1 r.fmt ++ natLe 1 r.dlc ++ natLe 1 0 ++ natLe 4 r.ident ++ natLe 8 r.ts ++ r.data.take 32
  let es := eventEntries 10 (frameNum c) c.ot (a0 + a1 * 256) first (pieces48 1 (r.data.drop 32))
  putEvents c (ownerFn (canOwner c n)) es

/-- The owner's host-traffic share is not 0 (R305, R937). -/
def canShare (c : Chip) (n : Nat) : Bool :=
  let o := canOwner c n
  if o < 8 then decide (0 < partEntry c o 3 1) else decide (0 < tbl c 2 5 1)

/-- Form the events of the FIFO's frames in order, while the owner has a share of the host traffic. -/
def drainFifo (c : Chip) (n : Nat) : Chip :=
  if canShare c n then
    (canSt c n).fifo.foldl (fun c r => canRxEvent c n 0 0xFF r) (modCan c n fun s => { s with fifo := [] })
  else c

/-- A frame enters the receive FIFO (R937, R938). -/
def fifoTake (c : Chip) (n : Nat) (r : CanRx) : Chip :=
  let c1 := drainFifo c n
  if (canSt c1 n).fifo.length < 128 then drainFifo (modCan c1 n fun s => { s with fifo := s.fifo ++ [r] }) n
  else postError (countFld c1 (canCnt n) 16 16) 0x71 (srcCan n) 0

/-- Steps 2 and 3 of R933. -/
def routeFrame (c : Chip) (n : Nat) (r : CanRx) : Chip :=
  match fltFor c n r.fmt r.ident with
  | some f =>
    let h := fld c (fltBase n f) 2 2
    canRxEvent (hpbTake c n f h r) n (h + 1) f r
  | none => if flag c (canCtl n) 4 then c else fifoTake c n r

/-- A frame received without error as the node keeps it: FD frames need FD_EN, data cut to its length. -/
def rxOf (fmt ident dlc ts : Nat) (data : List Byte) : CanRx :=
  { fmt := fmt % 32, ident := ident, dlc := dlc, data := padTo (canLen fmt dlc) data, ts := ts }

/-- The controller receives frames: it runs and is neither bus-off nor recovering. -/
def canHears (c : Chip) (n : Nat) : Bool := canRuns c n && decide (canState c n < 2)

/-- A successful reception takes 1 from the receive counter; above 127 it becomes a value from 119 to
127 that the standard leaves open. PRESUMED (ISO 11898-1). -/
def rxCounted (c : Chip) (n : Nat) : Chip :=
  let r := fld c (canErr n) 8 8
  if r ≤ 127 then setErrState (setFld c (canErr n) 8 8 (r - 1)) n
  else setErrState (setFld (takeFree c) (canErr n) 8 8 (119 + Config.freeValue c.free % 9)) n

/-! ## Errors and bus-off -/

/-- CAN_BUS_ERROR (R939): code of the error and the counters after it. -/
def canBusError (c : Chip) (n lec tec rec' : Nat) (dataPhase : Bool) : Chip :=
  if !canHears c n then c
  else
    let c1 := if dataPhase then setFld c (canErr n) 19 3 lec else setFld c (canErr n) 16 3 lec
    setErrState (setFld (setFld c1 (canErr n) 0 8 (min tec 255)) (canErr n) 8 8 (min rec' 255)) n

def callStat : Nat := 0x170004

/-- The controller cannot carry call frames (R768). -/
def callCanDown (c : Chip) : Bool :=
  match callCtrl c with
  | some n => !canDomOn c || fld c (canCtl n) 0 2 == 0 || decide (2 ≤ canState c n)
  | none => false

/-- CAN_DOWN follows the controller; its rise posts CALL_CAN_DOWN (R768). -/
def callCanCheck (c : Chip) : Chip :=
  if callCanDown c == flag c callStat 3 then c
  else if callCanDown c then postError (setFlag c callStat 3 true) 0x52 (srcCan ((callCtrl c).getD 0)) 0
  else setFlag c callStat 3 false

/-- The recovery sequence begins (R941). -/
def recoveryBegin (c : Chip) (n : Nat) : Chip :=
  if canState c n = 2 then setFlag (setFld c (canStatReg n) 0 2 3) (canCtl n) 8 false else c

/-- BUS_OFF (R940); the engineer call sees its controller go (R768). -/
def busOff (c : Chip) (n : Nat) : Chip :=
  if !canHears c n then c
  else
    let c1 := setFld c (canStatReg n) 0 2 2
    let c2 := ([0, 1, 3, 2] : List Nat).foldl (fun c b => endBuf c n b stSuccess 4) c1
    let c3 := postError (countFld c2 (canCnt n) 0 8) 0x72 (srcCan n) (fld c2 (canErr n) 0 8)
    let c4 := faultEvent c3 0x72 (srcCan n) 0 [ownerFn (canOwner c3 n), 0]
    callCanCheck (if flag c4 (canCtl n) 3 then recoveryBegin c4 n else c4)

/-- RECOVERY_END (R941). -/
def recoveryEnd (c : Chip) (n : Nat) : Chip :=
  if canState c n = 3 ∧ canRuns c n = true then
    callCanCheck (setFld (setFld (setFld c (canStatReg n) 0 2 0) (canErr n) 0 8 0) (canErr n) 8 8 0)
  else c

/-- PROTOCOL_EXCEPTION (R942). -/
def protocolException (c : Chip) (n : Nat) : Chip :=
  if canHears c n && !flag c (canCtl n) 2 then countFld c (canCnt n) 8 8 else c

/-- CAN_MODE_EFFECT: the bus is idle, and MODE as written takes effect (R945). -/
def canModeEffect (c : Chip) (n : Nat) : Chip :=
  if (onBusBuf c n).isNone && canDomOn c then modCan c n fun s => { s with mode := fld c (canCtl n) 0 2 } else c

/-! ## Registers -/

/-- CAN_STAT: STATE is kept, the rest is computed. -/
def canView (c : Chip) (off : Nat) : Option Nat :=
  if off < 0x1B0000 ∨ 0x1C0000 ≤ off then none
  else if off % 0x2000 = 0x14 then
    let n := (off - 0x1B0000) / 0x2000
    let code (b : Nat) : Nat := match canBuf c n b with | some x => if x.onBus then 2 else 1 | none => 0
    some (canState c n + code 0 * 4 + code 1 * 16 + code 2 * 64 + (canSt c n).fifo.length * 256
      + b2n (callHoldsB2 c n) * 2 ^ 16 + b2n (listenForced c n) * 2 ^ 17)
  else none

/-- R920: conditions under which a bit-timing write is discarded. -/
def canTimingBad (c : Chip) (n : Nat) : Bool :=
  let nbt := (reg c (canBase n + 4)).toNat
  let dbt := (reg c (canBase n + 8)).toNat
  let nom := (natBits nbt 0 5 + 1) * (1 + (natBits nbt 5 8 + 1) + (natBits nbt 13 7 + 1))
  let dat := (natBits dbt 0 5 + 1) * (1 + (natBits dbt 5 5 + 1) + (natBits dbt 10 4 + 1))
  fld c (canCtl n) 0 2 != 0 || decide (nom < 80) || decide (dat < 10) || decide (nom < dat)
    || decide (natBits nbt 13 7 < natBits nbt 20 7) || decide (natBits dbt 10 4 < natBits dbt 14 4)
    || (flag c (canBase n + 0xC) 0 && decide (1 < natBits dbt 0 5)) || natBits nbt 5 8 == 0

/-- R946: an identifier or mask bit above bit 10 while IDE is 0. -/
def canFilterBad (c : Chip) (n f : Nat) : Bool :=
  !flag c (fltBase n f) 1
    && (decide (0x7FF < (reg c (fltBase n f + 4)).toNat) || decide (0x7FF < (reg c (fltBase n f + 8)).toNat))

/-- A discarded write: CFG_REJ and CAN_CONFIG. -/
def canReject (c : Chip) (n off : Nat) : Chip :=
  postError (setFlag c (canCtl n) 9 true) 0x70 (srcCan n) (off % 0x2000)

/-- A write of the CAN blocks that is discarded (R920, R946). -/
def canBad (c : Chip) (_ : WriteCtx) (off : Nat) : Bool :=
  let n := (off - 0x1B0000) / 0x2000
  let o := off % 0x2000
  if o = 4 ∨ o = 8 ∨ o = 0xC then canTimingBad c n
  else if 0x104 ≤ o ∧ o < 0x300 ∧ o % 16 ≠ 0 then canFilterBad c n ((o - 0x100) / 16)
  else false

/-- Writes of the CAN blocks. -/
def hookCan : Hook := guarded canBad (fun c _ o => canReject c ((o - 0x1B0000) / 0x2000) o) fun w c =>
  let n := (w.off - 0x1B0000) / 0x2000
  if w.off % 0x2000 = 0 then
    let c1 := if natBits w.old.toNat 0 2 = fld c (canCtl n) 0 2 then c else canWithdraw c n
    callCanCheck (if w.hit 8 then recoveryBegin c1 n else c1)
  else c

/-- The owner of a controller changes: PENDING frames, those of the engineer call among them, are withdrawn and their commands
complete with ACCESS_REVOKED; what it received is discarded, in the FIFO and in the high-priority buffers (R315, R317). -/
def canOwnerChange (c : Chip) (n : Nat) : Chip :=
  resetRegs (modCan (withdrawPending c n stAccessRevoked 0) n fun s => { s with fifo := [] }) (hpbBase n 0) (hpbBase n 4)

/-- The CAN domain goes OFF: transmitters recessive, frames withdrawn, received frames lost (R918). -/
def canDomainOff (c : Chip) : Chip :=
  (List.range 8).foldl (fun c n =>
    let c1 := ([0, 1, 3, 2] : List Nat).foldl (fun c b => endBuf c n b stSuccess 5) c
    let c2 := modCan c1 n fun _ => canDef n
    setFld (setReg c2 (canErr n) 0) (canStatReg n) 0 2 0) c

/-- The CAN domain reaches ON: each controller starts in its MODE. -/
def canDomainOn (c : Chip) : Chip :=
  (List.range 8).foldl (fun c n => modCan c n fun s => { s with mode := fld c (canCtl n) 0 2 }) c

/-- The node enters a mode that permits no CAN transmission (R943). -/
def canNodeMode (c : Chip) : Chip :=
  if transmitLive c then c
  else (List.range 8).foldl (fun c n => if fld c (canCtl n) 0 2 = 1 then canWithdraw c n else c) c

end Sys2Proof.Machine
end

