-- ==== Sys2Proof/Machine/Lcd.lean ====
section
/-! DEFINITION. LCD annunciator drive: waveform, grey levels, tiles, trim overlay, starting and stopping
(24_display). -/

namespace Sys2Proof.Machine

def lcdCtl : Nat := 0x1D8000
def lcdStat : Nat := 0x1D8008
def lcdEvt : Nat := 0x1D8010
def lcdMem : Nat := 0x1C60000
def lcdState (c : Chip) : Nat := fld c lcdStat 0 3
def modLcd (c : Chip) (f : LcdSt → LcdSt) : Chip := { c with lcd := f c.lcd }
def setLcdState (c : Chip) (s : Nat) : Chip := setFld c lcdStat 0 3 s

def lcdSrc (c : Chip) : Nat := fld c lcdCtl 1 2
/-- PUMP_OK: only with the charge pump (R1040). -/
def pumpOk (c : Chip) : Bool := lcdSrc c == 1 && flag c lcdStat 4
/-- VLCD_OK: judged only while EN is 1 and SRC is 0 (R1177). -/
def vlcdJudged (c : Chip) : Bool := flag c lcdCtl 0 && lcdSrc c == 0
def vlcdOk (c : Chip) : Bool := !vlcdJudged c || flag c 0x10000 8
def biasOk (c : Chip) : Bool := if lcdSrc c = 1 then pumpOk c else vlcdOk c

/-- R1058. -/
def panelMay (c : Chip) : Bool := flag c lcdCtl 0 && domOn c 19 && domOn c 20

/-! ## Grey levels -/

/-- Grey level of a pixel in frame-memory coordinates (R1042, R1043). -/
def lcdGrey (c : Chip) (x y : Nat) : Nat :=
  if domOn c 19 then tmem c (lcdMem + y * 128 + x / 2) 1 / (if x % 2 = 0 then 1 else 16) % 16 else 0

/-- R1045. -/
def lcdCorrect (g map : Nat) : Nat :=
  if g = 0 then 0
  else
    let gain := signed 4 (map % 16)
    let ofs := signed 4 (map / 16 % 16)
    (clampInt 0 15 (roundHE (((g : Nat) * (16 + gain) : Int) / (16 : Rat)) + ofs)).toNat

/-- Map byte of a pixel in a copy (R1048). -/
def lcdMapByte (c : Chip) (copy x y : Nat) : Nat := tmem c (0x1C70000 + copy * 0x8000 + y * 256 + x) 1

/-- R1046: the pixel of corrected level `gc` is on in refresh frame k. -/
def lcdPhaseOn (k x y gc : Nat) : Bool := decide ((k + (x + 5 * y) % 15) % 15 < gc)

/-! ## Trim overlay (R1056, R1057) -/

/-- Segments of a glyph, one bit each from a to g, then v. -/
def glyphSegs (ch : Char) : Nat :=
  match ch with
  | '0' | 'O' => 0x3F
  | '1' => 0x06
  | '2' | 'Z' => 0x5B
  | '3' => 0x4F
  | '4' => 0x66
  | '5' | 'S' => 0x6D
  | '6' => 0x7D
  | '7' => 0x07
  | '8' => 0x7F
  | '9' => 0x6F
  | 'A' => 0x77
  | 'N' => 0x54
  | 'C' => 0x39
  | 'E' => 0x79
  | 'F' => 0x71
  | 'P' => 0x73
  | 'R' => 0x50
  | '-' => 0x40
  | '+' => 0xC0
  | _ => 0

/-- The segment that holds a pixel of a cell, or none. -/
def pixelSeg (col row : Nat) : Option Nat :=
  if row = 0 ∧ 1 ≤ col ∧ col ≤ 3 then some 0
  else if col = 4 ∧ (row = 1 ∨ row = 2) then some 1
  else if col = 4 ∧ (row = 4 ∨ row = 5) then some 2
  else if row = 6 ∧ 1 ≤ col ∧ col ≤ 3 then some 3
  else if col = 0 ∧ (row = 4 ∨ row = 5) then some 4
  else if col = 0 ∧ (row = 1 ∨ row = 2) then some 5
  else if row = 3 ∧ 1 ≤ col ∧ col ≤ 3 then some 6
  else if col = 2 ∧ (row = 2 ∨ row = 4) then some 7
  else none

/-- Decimal digits of a number below 100,000, no leading zeros. -/
def decDigits (n : Nat) : List Char :=
  let all := [n / 10000 % 10, n / 1000 % 10, n / 100 % 10, n / 10 % 10].dropWhile fun d => d == 0
  (all ++ [n % 10]).map fun d => Char.ofNat (48 + d)

/-- A signed number right-aligned in `w` cells, its sign before the first digit. -/
def signedCells (w : Nat) (v : Int) : List Char :=
  let t := (if 0 ≤ v then '+' else '-') :: decDigits v.natAbs
  List.replicate (w - t.length) ' ' ++ t

/-- The 32 cells in use of the trim line of a cell. -/
def trimLine (c : Chip) (ch : Nat) : List Char :=
  let d (n : Nat) : Char := Char.ofNat (48 + n % 10)
  let force := match forceOf c ch with | 1 => ['F', '0', '4'] | 2 => ['F', '2', '0'] | _ => ['F', '-', '-']
  ['C', d (ch / 16), '-', d (ch % 16 / 10), d (ch % 16), ' '] ++ force ++ [' ', 'Z', 'E', 'R', 'O', ' ']
    ++ signedCells 5 (signed 16 (fld c (cellBase ch + 8) 0 16)) ++ [' ', 'S', 'P', 'A', 'N', ' ']
    ++ signedCells 6 (signed 16 (fld c (cellBase ch + 8) 16 16))

/-- Is the overlay's pixel lit? -/
def overlayLit (c : Chip) (ch x y : Nat) : Bool :=
  match pixelSeg (x % 6) (y - 56) with
  | some s => decide (x / 6 < 42) && natBit (glyphSegs ((trimLine c ch).getD (x / 6) ' ')) s
  | none => false

/-- Level that the refresh takes for a pixel: rows 56 to 63 show the overlay while the buttons act. -/
def lcdShown (c : Chip) (x y : Nat) : Nat :=
  match buttonCell c with
  | some ch => if 56 ≤ y then (if overlayLit c ch x y then 15 else 0) else lcdGrey c x y
  | none => lcdGrey c x y

/-- R1046, R1047, R1059: is the pixel driven on in the refresh frame in progress? -/
def lcdPixelOn (c : Chip) (x y : Nat) : Bool :=
  if c.lcd.firstOff then false
  else match fld c lcdCtl 3 2 with
    | 1 => false
    | 2 => true
    | _ => lcdPhaseOn c.lcd.k x y (lcdCorrect (lcdShown c x y) (lcdMapByte c c.lcd.map x y))

/-! ## Ball levels (R1032 to R1035) -/

/-- Polarity of a line of the refresh frame: it reverses every INV lines. -/
def linePositive (c : Chip) (line : Nat) : Bool :=
  let inv := fld c lcdCtl 8 4
  if inv = 0 then c.lcd.positive else c.lcd.positive == (line / inv % 2 == 0)

/-- The panel is driven; elsewhere every ball is at V5, ground (R1040, R1060). -/
def panelDriven (c : Chip) : Bool := lcdState c == 2 || (lcdState c == 1 && c.lcd.firstOff)

/-- Level of ball COMj while line `line` is selected, in ninths of V0. -/
def comLevel (c : Chip) (line j : Nat) : Nat :=
  if !panelDriven c then 0
  else match j == line, linePositive c line with
    | true, true => 9 | true, false => 0 | false, true => 1 | false, false => 8

/-- Level of ball SEGi while line `line` is selected, in ninths of V0. -/
def segLevel (c : Chip) (line i : Nat) : Nat :=
  let x := if flag c lcdCtl 5 then 255 - i else i
  let y := if flag c lcdCtl 6 then 63 - line else line
  if !panelDriven c then 0
  else match lcdPixelOn c x y, linePositive c line with
    | true, true => 0 | true, false => 9 | false, true => 2 | false, false => 7

/-! ## Tiles (R1051 to R1055) -/

/-- Registers of a tile as of the last publication. -/
def tileRegs (c : Chip) (t : Nat) : Nat × Nat := smGet (fun _ => (0, 0)) c.lcd.tiles t

def tileEnabled (r : Nat × Nat) : Bool := natBit r.1 24

/-- Rectangle of a tile: left byte, top row, width in bytes, height. -/
def tileRect (r : Nat × Nat) : Nat × Nat × Nat × Nat :=
  (natBits r.2 0 7, natBits r.2 8 6, natBits r.2 16 5 + 1, natBits r.2 24 6 + 1)

/-- The enabled tile that holds a byte of the frame memory: the lowest-numbered one. -/
def tileAtByte (c : Chip) (b : Nat) : Option Nat :=
  (List.range 64).find? fun t =>
    let r := tileRegs c t
    let (x, y, w, h) := tileRect r
    tileEnabled r && decide (x ≤ b % 128) && decide (b % 128 < x + w) && decide (y ≤ b / 128) && decide (b / 128 < y + h)

/-- Levels of a tile: on even and on odd pixels. -/
def tileLevels (c : Chip) (p : Nat) : Nat × Nat :=
  let off := fld c 0x1D8014 0 4
  let on := fld c 0x1D8014 4 4
  let dim := fld c 0x1D8014 8 4
  let phase := natBit c.ot 9
  let q := if pointValid p then liveQw c p else qw32Of 0
  let m := q.mant.toNat
  let alarm := pClass p == 9
  if q.qual = 3 then (dim, off)
  else if (if alarm then m == 1 else decide (m % 16 ≠ 0)) then (if phase then (off, off) else (on, on))
  else if (if alarm then m == 2 else decide (m / 16 % 16 ≠ 0)) then (on, on)
  else if (if alarm then m == 3 else decide (m / 256 % 16 ≠ 0)) then (if phase then (off, off) else (dim, dim))
  else if (if alarm then decide (4 ≤ m) && decide (m ≤ 6) else decide (m / 4096 % 8 ≠ 0)) then (dim, dim)
  else (off, off)

/-- Paint one byte, two pixels, of a tile. -/
def paintByte (c : Chip) (xb y : Nat) (lv : Nat × Nat) : Chip :=
  let even := if y % 2 = 0 then lv.1 else lv.2
  let odd := if y % 2 = 0 then lv.2 else lv.1
  { c with tables := memWrite tblDef c.tables (lcdMem + y * 128 + xb) [BitVec.ofNat 8 (even + odd * 16)] }

/-- Paint a tile. -/
def paintTile (c : Chip) (t : Nat) : Chip :=
  let r := tileRegs c t
  if !tileEnabled r then c
  else
    let (x, y, w, h) := tileRect r
    let lv := tileLevels c (natBits r.1 0 24)
    (List.range h).foldl (fun c i => (List.range w).foldl (fun c j => paintByte c (x + j) (y + i) lv) c) c

/-- At a publication the tile registers take effect, and every enabled tile is painted (R1051, R1055). -/
def lcdPublish (c : Chip) : Chip :=
  let c1 := modLcd c fun l => { l with
    tiles := (List.range 64).foldl (fun m t =>
      smPut (fun _ => (0, 0)) m t ((reg c (0x1D8100 + t * 8)).toNat, (reg c (0x1D8104 + t * 8)).toNat)) [] }
  if domOn c 19 then (List.range 64).foldl paintTile c1 else c1

/-! ## Host writes of the frame memory -/

/-- The enabled tile in which a byte of the frame memory lies. -/
def lcdTileOf (c : Chip) (b : Nat) : Option Nat :=
  if 0x2000 ≤ b ∨ domOn c 19 = false then none else tileAtByte c b

/-- Write bytes at an offset of the frame memory; answers whether a byte lay inside a tile, and which
tile (R1043, R1054). -/
def lcdWriteByte (s : Chip × Option Nat) (b : Nat) (v : Byte) : Chip × Option Nat :=
  if 0x2000 ≤ b ∨ domOn s.1 19 = false then s
  else match tileAtByte s.1 b with
    | some t => (s.1, s.2.or (some t))
    | none => ({ s.1 with tables := memWrite tblDef s.1.tables (lcdMem + b) [v] }, s.2)

/-- A discarded part of a write counts and posts once. -/
def lcdTileWrite (s : Chip × Option Nat) : Chip :=
  match s.2 with
  | some t => postError (countFld s.1 lcdEvt 16 16) 0x89 srcNode t
  | none => s.1

/-! ## Starting, stopping and bias faults -/

/-- PANEL_START: R1058 comes to hold (R1059). -/
def panelStart (c : Chip) : Chip :=
  if panelMay c && !starting c && lcdState c == 0 then
    modLcd (setLcdState c 1) fun l => { l with ready := false, firstOff := false }
  else c

/-- BIAS_READY: V0 to V4 lie within 2 % of nominal; with the pump, V0 is in its band too. -/
def biasReady (c : Chip) : Chip :=
  if lcdState c = 1 ∧ panelMay c = true then
    setFlag (modLcd c fun l => { l with ready := true }) lcdStat 4 (lcdSrc c == 1)
  else c

/-- PANEL_STOP: R1058 ceases to hold; every ball goes to V5 (R1060). -/
def panelStop (c : Chip) : Chip :=
  if !panelMay c && lcdState c != 0 && lcdState c != 3 then
    setFlag (modLcd (setLcdState c 3) fun l => { l with ready := false, firstOff := false }) lcdStat 4 false
  else c

/-- BIAS_DISCHARGED: V0 to V4 lie below 0.5 V (R1060). -/
def biasDischarged (c : Chip) : Chip := if lcdState c = 3 then setLcdState c 0 else c

/-- The next refresh frame: number, polarity and map (R1035, R1046, R1050). -/
def nextRefresh (c : Chip) : Chip :=
  modLcd c fun l => { l with k := (l.k + 1) % 15, positive := !l.positive, map := fld c 0x1D800C 0 1 }

/-- REFRESH_FRAME. In STARTING the first one, once the bias is ready, drives every pixel off; the next
enters DRIVING. In HELD the frame memory goes on refreshing, and the panel resumes when the bias is back. -/
def refreshFrame (c : Chip) : Chip :=
  if !panelMay c then c
  else match lcdState c with
    | 1 =>
      if c.lcd.firstOff then setLcdState (modLcd (nextRefresh c) fun l => { l with firstOff := false }) 2
      else if c.lcd.ready then modLcd (nextRefresh c) fun l => { l with firstOff := true }
      else c
    | 2 => nextRefresh c
    | 4 => if biasOk c then setLcdState (nextRefresh c) 2 else nextRefresh c
    | _ => c

/-- A bias fault: balls at ground, event, error and record (R88, R1040). -/
def biasFault (c : Chip) (detail : Nat) : Chip :=
  let c1 := if lcdState c = 1 ∨ lcdState c = 2 then modLcd (setLcdState c 4) fun l => { l with firstOff := false } else c
  postErrorRec (setFlag c1 lcdEvt 0 true) 0x8A srcNode detail

/-- PUMP_FAULT: V0 has been outside its band for 1 ms (R1040). -/
def pumpFault (c : Chip) : Chip := if pumpOk c then biasFault (setFlag c lcdStat 4 false) 1 else c

/-- The leave request of a pump restart: the LCD_BIAS surge (R1041). -/
def pumpReq : LeaveReq := { op := .pump, dom := 20, cls := 5, steady := 0, surge := 60, late := false }

/-- PUMP_RESTART: the node asks for leave, and restarts the pump under it; `ok` is whether V0 then
reaches its band (R1041). -/
def pumpRestart (c : Chip) (ok : Bool) : Chip :=
  if lcdSrc c = 1 ∧ pumpOk c = false ∧ lcdState c = 4 ∧ domOn c 20 = true then
    let c1 := if opRuns c .pump || opWaits c .pump then c else requestOp c pumpReq
    if opRuns c1 .pump && ok then setFlag c1 lcdStat 4 true else c1
  else c

/-- The LCD_DRV domain goes OFF or reaches ON: the frame memory reads 0 (R1043). -/
def lcdMemLost (c : Chip) : Chip := { c with tables := memClear c.tables lcdMem 0x2000 }

/-! ## Registers -/

/-- LCD_STAT, and PWR_RAIL_STAT: VLCD_OK is judged only at times (R1177), and the defaults of the rails that power-on reset
waits for stand until start-up (R12). -/
def lcdView (c : Chip) (off : Nat) : Option Nat :=
  match off with
  | 0x1D8008 => some (lcdState c + b2n (vlcdOk c) * 8 + b2n (pumpOk c) * 16 + b2n (buttonCell c).isSome * 32)
  | 0x10000 => some (setNatBits ((reg c 0x10000).toNat ||| (if c.mode.up then 0 else 15)) 8 1 (b2n (vlcdOk c)))
  | _ => none

/-- Field ranges of the block (R1061). -/
def lcdRangeOk (off v : Nat) : Bool :=
  if off = lcdCtl then decide (60 ≤ natBits v 16 8) && decide (natBits v 16 8 ≤ 200)
  else if off = 0x1D8004 then decide (300 ≤ v) && decide (v ≤ 1600)
  else if 0x1D8100 ≤ off then
    if off % 8 = 0 then pClass (natBits v 0 24) == 9 || pClass (natBits v 0 24) == 10
    else
      let (x, y, w, h) := tileRect (0, v)
      decide (x + w ≤ 128) && decide (y + h ≤ 64)
  else true

/-- SRC, FLIP_X and FLIP_Y. -/
def lcdFixedBits (v : Word) : Nat × Nat := (bits v 1 2, bits v 5 2)

/-- Writes of the LCD block. -/
def hookLcd : Hook :=
  guarded (fun c w o => !lcdRangeOk o (reg c o).toNat
      || (o == lcdCtl && lcdState (unwrite c w) != 0 && lcdFixedBits (w.was o) != lcdFixedBits (reg c o)))
    (fun c _ o => postError (setFlag c lcdEvt 1 true) 0x88 srcNode (o % 0x8000)) hookNone

end Sys2Proof.Machine
end

