-- ==== Sys2Proof/Machine/Bar1.lean ====
section
/-! DEFINITION. BAR1: what a byte of it reads, and host writes to it (R208 to R223, R296). -/

namespace Sys2Proof.Machine

/-! ## Reading -/

/-- Byte of a frame-memory entry (R220). -/
def pointByte (c : Chip) (p i : Nat) : Nat :=
  if !pointValid p then 0
  else
    let e := if pClass p = 0 then ptDef p else point c p
    if i < 8 then e.live / 256 ^ i % 256
    else if i = 8 then e.flags
    else if i = 9 then b2n (pointWide c p)
    else if 0x10 ≤ i ∧ i < 0x18 then e.snap / 256 ^ (i - 0x10) % 256
    else if i = 0x18 then e.snapFlags
    else 0

/-- Byte of the record ring window: served from the ring image once it is rebuilt (R791, R802). -/
def ringByte (c : Chip) (a : Nat) : Byte :=
  if !flag c 0x180008 0 then 0
  else match recImage c (a / 128) with
    | some r => (recBytes r).getD (a % 128) 0
    | none => 0

/-- Byte of the table memories: those beyond the size that a table uses read 0 (R209). -/
def tableByte (c : Chip) (a : Nat) : Byte :=
  match tableAt a with
  | some d => if (a - d.base) % d.half < d.used then smGet tblDef c.tables a else 0
  | none => smGet tblDef c.tables a

/-- Byte of BAR1 (R208, R209, R219). The tuning buffers lie in the SRAM, which gives no access in its sentry state
(R126).

DESIGN CHOICE: a byte of the NVM window that was written into a page not programmed yet reads as the page stands, erased
(R215, R216 are silent; log 131). -/
def bar1Byte (c : Chip) (a : Nat) : Byte :=
  if a < 0x800000 then BitVec.ofNat 8 (pointByte c (a / 32 / 0x4000 * 2 ^ 20 + a / 32 % 0x4000) (a % 32))
  else if a < 0x1000000 then smGet erasedByte c.nvm (a - 0x800000)
  else if a < 0x1400000 then ringByte c (a - 0x1000000)
  else if a < 0x1500000 ∧ inSentry c 28 = true then 0
  else if a < 0x1C80000 then tableByte c a
  else 0

/-- May the function read the byte (R296, R796)? -/
def bar1Reach (c : Chip) (fn a : Nat) : Bool :=
  if fn = 0 then true
  else if a < 0x800000 then
    let p := a / 32 / 0x4000 * 2 ^ 20 + a / 32 % 0x4000
    pointValid p && mayRead c fn p
  else if a < 0x1000000 then false
  else if a < 0x1400000 then
    match recImage c ((a - 0x1000000) / 128) with
    | some r => (recTargets c r).contains fn
    | none => false
  else if a < 0x1500000 then ownerAt c (0xD08 + (a - 0x1400000) / 0x40000) == fnOwner fn
  else match tableAt a with
    | some d => tableOwner c d.code == fnOwner fn
    | none => false

/-- Bytes a function reads from BAR1 (R297). -/
def bar1Read (c : Chip) (fn a n : Nat) : List Byte :=
  (List.range n).map fun i => if bar1Reach c fn (a + i) then bar1Byte c (a + i) else 0

/-! ## Writing -/

/-- What becomes of a byte that a host writes. -/
inductive ByteFate where
  | store
  | lcd
  | nvm
  | ignore
  | denied
  | frame
  | loaded (page : Nat)
  | programmed (page : Nat)
  | active (code : Nat)
  | pending (code : Nat)
  deriving DecidableEq, Repr

/-- Bank that holds a page of the NVM window: 1 A, 2 B. -/
def bankOf (page : Nat) : Nat := page / 0x4000 + 1

/-- Fate of a byte written by the physical function. A page that is not erased, programmed or flagged, takes no write
(R167, R217).

DESIGN CHOICE: a byte of the active or the pending copy beyond the size that the table uses is a write to that copy, which is
reported, not one that R209 ignores (log 141).

DESIGN CHOICE: a bank that is being erased goes on taking writes; the end of its erase erases them (log 129). -/
def byteFate (c : Chip) (a : Nat) : ByteFate :=
  if a < 0x800000 then .frame
  else if a < 0x1000000 then
    let page := (a - 0x800000) / 256
    if fld c 0x120 0 2 = bankOf page then .loaded page
    else if smGet (fun _ => false) c.img.prog page || smGet (fun _ => false) c.img.flagged page then .programmed page
    else .nvm
  else if 0x1C60000 ≤ a ∧ a < 0x1C70000 then .lcd
  else match tableAt a with
    | none => .ignore
    | some d =>
      let copy := (a - d.base) / d.half
      if copy = activeCopy c d then .active d.code
      else if flag c d.stat 1 then .pending d.code
      else if (a - d.base) % d.half < d.used then .store
      else .ignore

/-- A virtual function writes the inactive copy of a table that its partition owns, and nothing else (R296, R298). -/
def byteFateFn (c : Chip) (fn a : Nat) : ByteFate :=
  if fn = 0 then byteFate c a
  else match tableAt a with
    | some d =>
      if tableOwner c d.code = fnOwner fn then
        (match byteFate c a with
         | .active _ => .denied
         | f => f)
      else .denied
    | none => .denied

/-- Store one byte of a write; the LCD's tile filter is carried along, also for a byte denied to its function (R1054). -/
def bar1Store (fn : Nat) (s : Chip × Option Nat) (a : Nat) (v : Byte) : Chip × Option Nat :=
  match byteFateFn s.1 fn a with
  | .denied => (s.1, s.2.or (if byteFate s.1 a = .lcd then lcdTileOf s.1 (a - 0x1C60000) else none))
  | .store => ({ s.1 with tables := memWrite tblDef s.1.tables a [v] }, s.2)
  | .lcd => lcdWriteByte s (a - 0x1C60000) v
  | .nvm => ({ s.1 with img := { s.1.img with stage := memWrite erasedByte s.1.img.stage (a - 0x800000) [v] } }, s.2)
  | _ => s

/-- Program a page of the NVM window with what was written into it, 0xFF elsewhere (R215, R216). Its programming is
under way from here (R168 to R171). -/
def programPage (c : Chip) (page : Nat) : Chip :=
  let bs := memRead erasedByte c.img.stage (page * 256) 256
  { c with
    nvm := memWrite erasedByte c.nvm (page * 256) bs
    img := { c.img with
      stage := memClear c.img.stage (page * 256) 256
      prog := smPut (fun _ => false) c.img.prog page true
      writing := some page } }

/-- The report of a byte's fate, when it has one. -/
def fateError : ByteFate → Option (Nat × Nat)
  | .frame => some (0x06, 0)
  | .loaded p => some (0x08, p)
  | .programmed p => some (0x07, p)
  | .active t => some (0x04, t)
  | .pending t => some (0x05, t)
  | _ => none

/-- Reports of a write, in ascending code: one for each reason and number (R212, R213, R217, R218, R223, R1088), and that of
R299 beside them where the function does not reach a byte. -/
def fateReports (c : Chip) (fn a n : Nat) : List (Nat × Nat) :=
  let denied := (List.range n).any fun i => byteFateFn c fn (a + i) == .denied
  let fates := ((List.range n).filterMap fun i => fateError (byteFate c (a + i))).dedup
  ([4, 5, 6, 7, 8].flatMap fun k => fates.filter fun f => f.1 == k) ++ (if denied then [(0x09, a % 2 ^ 24)] else [])

/-- A host write to BAR1. -/
def bar1Write (c : Chip) (fn a : Nat) (data : List Byte) : Chip :=
  let reports := fateReports c fn a data.length
  let pages := ((List.range data.length).filterMap fun i =>
    if byteFateFn c fn (a + i) == .nvm && (a + i) % 256 == 255 then some ((a + i - 0x800000) / 256) else none).dedup
  let c1 := lcdTileWrite ((data.zipIdx).foldl (fun s (v, i) => bar1Store fn s (a + i) v) (c, none))
  let c2 := pages.foldl programPage c1
  reports.foldl (fun c (code, detail) =>
    if code = 0x09 then deny c fn detail else postError c code (srcFn fn) detail) c2

end Sys2Proof.Machine
end

