-- ==== Sys2Proof/Machine/Drives.lean ====
section
/-! DEFINITION. Basin's drives: layouts, the blocks that the members hold, superblocks, unit headers, chunks and their
marks as they stand on the drives (19_basin_storage, R815 to R830, R844 to R846). -/

namespace Sys2Proof.Machine

def bsnCtl : Nat := 0x190000
def bsnStat : Nat := 0x190008
def bsnState (c : Chip) : Nat := fld c bsnStat 0 3
def setBsnState (c : Chip) (s : Nat) : Chip := setFld c bsnStat 0 3 s
/-- BSN_STAT.MEMBERS: ports that are members in use. -/
def bsnMembers (c : Chip) : Nat := fld c bsnStat 4 4
def setBsnMembers (c : Chip) (m : Nat) : Chip := setFld c bsnStat 4 4 m
def drvStat (m : Nat) : Nat := 0x190100 + m * 0x20
def drvState (c : Chip) (m : Nat) : Nat := fld c (drvStat m) 0 3
def setDrvState (c : Chip) (m s : Nat) : Chip := setFld c (drvStat m) 0 3 s
def ownerPage (o : Nat) : Nat := 0x190200 + o * 0x20
def modBsn (c : Chip) (f : BsnSt → BsnSt) : Chip := { c with bsn := f c.bsn }

/-- Add to a 32-bit saturating count of an owner page. -/
def bsnCount (c : Chip) (off n : Nat) : Chip := setReg c off (BitVec.ofNat 32 (satAdd 32 (reg c off).toNat n))

def driveDef (_ : Nat) : Option Drive := none
def unitDef (_ : Nat) : Option BUnit := none
def logDef (_ : Nat) : BLog :=
  { sets := [], pre := [], cur := [], curFlags := 0, ends := none, win := (1, 0), lost := false, trend := [], frames := 0,
    regs := [], seg := 0 }

def bDrive (c : Chip) (m : Nat) : Option Drive := smGet driveDef c.bsn.drives m
def setBDrive (c : Chip) (m : Nat) (d : Option Drive) : Chip := modBsn c fun b => { b with drives := smPut driveDef b.drives m d }
def bUnit (c : Chip) (u : Nat) : Option BUnit := smGet unitDef c.bsn.units u
def setBUnit (c : Chip) (u : Nat) (x : Option BUnit) : Chip := modBsn c fun b => { b with units := smPut unitDef b.units u x }
def bLog (c : Chip) (l : Nat) : BLog := smGet logDef c.bsn.logs l
def modLog (c : Chip) (l : Nat) (f : BLog → BLog) : Chip := modBsn c fun b => { b with logs := smMod logDef b.logs l f }

/-- Owner page of an owner code: 8 for the keeper. -/
def pageOf (o : Nat) : Nat := if o < 8 then o else 8
/-- Owner code of an owner page. -/
def codeOfPage (p : Nat) : Nat := if p < 8 then p else 0xF

/-- Basin takes writes: ONLINE, DEGRADED or REBUILDING. -/
def bsnServes (c : Chip) : Bool := [2, 3, 4].contains (bsnState c)

/-! ## Layout (R819, R820) -/

def portsOf (mask : Nat) : List Nat := ([0, 1, 2, 3] : List Nat).filter fun n => natBit mask n

/-- The members fit the layout. -/
def layoutFits (layout ports : Nat) : Bool :=
  match layout with
  | 0 => ports != 0
  | 1 => ports == 15
  | 2 => ports == 3 || ports == 12 || ports == 15
  | _ => false

/-- The losses among the ports are masked by the layout. -/
def lossMasked (layout lost : Nat) : Bool :=
  match layout with
  | 0 => lost == 0
  | 1 => decide ((portsOf lost).length ≤ 1)
  | _ => lost % 4 != 3 && lost / 4 % 4 != 3

/-- Strips of a member. -/
def memberStrips (cap : Nat) : Nat := (cap - 16) / 64

/-- Blocks of the logical space. -/
def logicalBlocks (layout ports cap : Nat) : Nat :=
  let n := (portsOf ports).length
  let strips := memberStrips cap
  match layout with
  | 0 => n * strips * 64
  | 1 => 3 * strips * 64
  | _ => n / 2 * strips * 64

def unitBlocks : Nat := 262144
def bsnUnits (c : Chip) : Nat := fld c 0x190010 0 20

/-- Ports that a logical block is read from or written to, parity included, and its member strip. -/
def blockPorts (layout ports l : Nat) : List Nat × Nat :=
  let s := l / 64
  let ps := portsOf ports
  match layout with
  | 0 => ([ps.getD (s % ps.length) 0], s / ps.length)
  | 1 =>
    let r := s / 3
    let pd := 3 - r % 4
    ([(([0, 1, 2, 3] : List Nat).filter fun n => n != pd).getD (s % 3) 0, pd], r)
  | _ =>
    let pairs := (([0, 1] : List Nat).filter fun k => natBit ports (2 * k))
    let p := pairs.getD (s % pairs.length) 0
    ([2 * p, 2 * p + 1], s / pairs.length)

/-- Member block of a logical block (R820). -/
def memberBlock (layout ports l : Nat) : Nat := 16 + (blockPorts layout ports l).2 * 64 + l % 64

/-- Members that a write of a logical block goes to: the members in use, and the member being rebuilt
below CURSOR (R857). -/
def writePorts (c : Chip) (l : Nat) : Nat :=
  let (ps, strip) := blockPorts c.bsn.layout c.bsn.ports l
  maskOf (ps.filter fun n =>
    natBit (bsnMembers c) n && (c.bsn.rebuild != some n || decide (strip < c.bsn.cursor)))

/-- Write bandwidth ceiling of the layout (R819), in MB/s. -/
def bwCeiling (layout ports : Nat) : Nat :=
  let n := (portsOf ports).length
  match layout with
  | 0 => 1500 * n
  | 1 => 4500
  | _ => 1500 * (n / 2)

/-! ## Blocks of the members (R820, R850, R853, R857) -/

/-- A block that a drive does not list. -/
def zeroBlock (_ : Nat) : List Byte := List.replicate 4096 0

def driveBlock (c : Chip) (m b : Nat) : List Byte := (bDrive c m).elim (zeroBlock 0) fun d => smGet zeroBlock d.data b

def putBlock (c : Chip) (m b : Nat) (bs : List Byte) : Chip :=
  match bDrive c m with
  | some d => setBDrive c m (some { d with data := smPut zeroBlock d.data b bs })
  | none => c

/-- A strip of a member can be read: the member is in use, and rebuilt as far as that (R857). -/
def readable (c : Chip) (strip m : Nat) : Bool :=
  natBit (bsnMembers c) m && (bDrive c m).isSome && (c.bsn.rebuild != some m || decide (strip < c.bsn.cursor))

def xorBlocks (a b : List Byte) : List Byte := List.zipWith (· ^^^ ·) a b

/-- A member's block as the redundancy gives it: the XOR of the other members of the row, or the other member of the pair. -/
def rebuiltBlock (c : Chip) (m b : Nat) : List Byte :=
  match c.bsn.layout with
  | 1 => (([0, 1, 2, 3] : List Nat).filter fun n => n != m).foldl (fun a n => xorBlocks a (driveBlock c n b)) (zeroBlock 0)
  | _ => driveBlock c (m ^^^ 1) b

/-- A logical block: from its member, or reconstructed (R850, R853). -/
def readLogical (c : Chip) (l : Nat) : List Byte :=
  let (ps, strip) := blockPorts c.bsn.layout c.bsn.ports l
  let b := memberBlock c.bsn.layout c.bsn.ports l
  let m := ps.headD 0
  if c.bsn.layout = 0 ∨ readable c strip m = true then driveBlock c m b else rebuiltBlock c m b

/-- Parity of the row of a logical block at its place in the strip, with the block replaced (R820). -/
def rowParity (c : Chip) (l : Nat) (bs : List Byte) : List Byte :=
  let r := l / 64 / 3
  ([0, 1, 2] : List Nat).foldl (fun a j =>
    let k := (3 * r + j) * 64 + l % 64
    xorBlocks a (if k = l then bs else readLogical c k)) (zeroBlock 0)

/-- A logical block is written to its members, its parity or its mirror copy with it (R820, R857). -/
def writeLogical (c : Chip) (l : Nat) (bs : List Byte) : Chip :=
  let (ps, _) := blockPorts c.bsn.layout c.bsn.ports l
  let b := memberBlock c.bsn.layout c.bsn.ports l
  let ports := writePorts c l
  let parity := rowParity c l bs
  ps.zipIdx.foldl (fun c (m, i) =>
    if natBit ports m then putBlock c m b (if c.bsn.layout = 1 ∧ i = 1 then parity else bs) else c) c

/-- Write blocks from a logical block on. -/
def writeBlocks (c : Chip) (l : Nat) (bs : List (List Byte)) : Chip :=
  bs.zipIdx.foldl (fun c (b, i) => writeLogical c (l + i) b) c

/-! ## Superblocks (R821, R822) -/

/-- A block of 4,092 bytes of content with its CRC-32 in the last four. -/
def sealBlock (bs : List Byte) : List Byte := let x := padTo 4092 bs; x ++ natLe 4 (crc32 x)

/-- The CRC-32 in the last four bytes of a block is that of the others. -/
def sealed (bs : List Byte) : Bool := leNat (bs.drop 4092) == crc32 (bs.take 4092)

/-- A superblock as it lies in a block. -/
def superBytes (s : SuperBlk) : List Byte :=
  sealBlock (natLe 4 0x4E495342 ++ natLe 2 1 ++ natLe 1 s.layout ++ natLe 1 s.member ++ natLe 8 s.basinId ++ natLe 8 s.sgen
    ++ natLe 8 s.cap ++ natLe 1 s.members ++ natLe 1 (b2n s.clean) ++ natLe 1 (s.rebuild.getD 0xFF) ++ natLe 5 0 ++ natLe 8 s.cursor)

/-- The number in some bytes of a block. -/
def blockNat (bs : List Byte) (o n : Nat) : Nat := leNat ((bs.drop o).take n)

/-- The superblock that a block holds: its MAGIC, FORMAT and CRC are correct, and its LAYOUT is one of R819. -/
def superIn (bs : List Byte) : Option SuperBlk :=
  if blockNat bs 0 4 = 0x4E495342 ∧ blockNat bs 4 2 = 1 ∧ blockNat bs 6 1 ≤ 2 ∧ sealed bs = true then
    some { layout := blockNat bs 6 1, member := blockNat bs 7 1, basinId := blockNat bs 8 8, sgen := blockNat bs 0x10 8,
           cap := blockNat bs 0x18 8, members := blockNat bs 0x20 1 % 16, clean := blockNat bs 0x21 1 == 1,
           rebuild := if blockNat bs 0x22 1 < 4 then some (blockNat bs 0x22 1) else none, cursor := blockNat bs 0x28 8 }
  else none

/-- The superblock of a member as the node writes it. -/
def superOf (c : Chip) (m : Nat) (clean : Bool) : SuperBlk :=
  { layout := c.bsn.layout, member := m, basinId := c.bsn.id, sgen := c.bsn.sgen, cap := c.bsn.cap,
    members := c.bsn.ports, clean := clean, rebuild := c.bsn.rebuild, cursor := c.bsn.cursor }

/-- Write a copy of the superblock on every member in use: copy 0 at block 0, copy 1 at block 8. -/
def writeCopy (clean : Bool) (c : Chip) (b : Nat) : Chip :=
  (portsOf (bsnMembers c)).foldl (fun c m => putBlock c m b (superBytes (superOf c m clean))) c

/-- Write the superblocks with one SGEN more: copy 0 of every member, then copy 1 of every member (R822). -/
def writeSupers (c : Chip) (clean : Bool) : Chip :=
  [0, 8].foldl (writeCopy clean) (modBsn c fun b => { b with sgen := b.sgen + 1 })

/-- The valid superblock of a drive: of the copies that are correct the one with the greater SGEN (R822). -/
def driveSuper (d : Drive) : Option SuperBlk :=
  match superIn (smGet zeroBlock d.data 0), superIn (smGet zeroBlock d.data 8) with
  | some a, some b => if a.sgen < b.sgen then some b else some a
  | some a, none => some a
  | none, b => b

/-- Superblock of a port's drive, when it is one of its own port. -/
def portSuper (c : Chip) (m : Nat) : Option SuperBlk :=
  (bDrive c m).bind fun d => (driveSuper d).filter fun s => s.member == m

/-! ## Headers of units (R823) -/

/-- Header block of a unit. -/
def unitHeader (u : UnitHead) : List Byte :=
  sealBlock (natLe 4 0x54555342 ++ natLe 1 u.kind ++ natLe 1 u.owner ++ natLe 1 u.stream ++ natLe 4 u.epoch
    ++ natLe 8 u.ugen ++ natLe 5 u.ot ++ natLe 3 u.pcc)

/-- The header that a block holds. -/
def headIn (bs : List Byte) : Option UnitHead :=
  if blockNat bs 0 4 = 0x54555342 ∧ sealed bs = true then
    some { kind := blockNat bs 4 1, owner := blockNat bs 5 1, stream := blockNat bs 6 1, epoch := blockNat bs 7 4,
           ugen := blockNat bs 11 8, ot := blockNat bs 19 5, pcc := blockNat bs 24 3 }
  else none

/-! ## Chunks and marks (R824, R827, R844, R846) -/

/-- The key of an epoch, if it is in the store. -/
def keyOf (c : Chip) (epoch : Nat) : Option (BitVec 512) := (c.bsn.keys.find? fun k => k.epoch == epoch).map fun k => k.key

/-- The unit's key is not in the store (R848). -/
def foreignUnit (c : Chip) (u : BUnit) : Bool := u.kind != 0 && u.epoch != 0 && (keyOf c u.epoch).isNone

/-- A body block as it is stored in a unit of an epoch, at a logical block; and as it reads. -/
def sealBody (c : Chip) (epoch l : Nat) (bs : List Byte) : List Byte :=
  if epoch = 0 then bs else (keyOf c epoch).elim bs fun k => xtsEncrypt k l bs
def openBody (c : Chip) (epoch l : Nat) (bs : List Byte) : List Byte :=
  if epoch = 0 then bs else (keyOf c epoch).elim (zeroBlock 0) fun k => xtsDecrypt k l bs

/-- Mark block of chunk `i` of a unit: of `n` body blocks whose stored bytes have a CRC. -/
def markBlock (ugen i n first last crc : Nat) : List Byte :=
  padTo 4092 (natLe 4 0x4B524D42 ++ natLe 8 ugen ++ natLe 4 i ++ natLe 1 n ++ natLe 5 first ++ natLe 5 last ++ natLe 4 crc)
    ++ natLe 4 0x5A3CC3A5

/-- A block is the complete mark of chunk `i` of a unit, of `n` body blocks with this stored content (R827). -/
def markValid (ugen i n : Nat) (body : List (List Byte)) (bs : List Byte) : Bool :=
  blockNat bs 0 4 == 0x4B524D42 && blockNat bs 4092 4 == 0x5A3CC3A5 && blockNat bs 4 8 == ugen && blockNat bs 12 4 == i
    && blockNat bs 16 1 == n && blockNat bs 27 4 == crc32 body.flatten

/-- The body blocks of the valid chunk `i` of a unit that begins at block `at_` of it, if there is one. -/
def chunkAt (c : Chip) (u ugen i at_ : Nat) : Option Nat :=
  ((List.range 31).map fun k => k + 1).find? fun n =>
    let l := u * unitBlocks + at_
    decide (at_ + n < unitBlocks)
      && markValid ugen i n ((List.range n).map fun j => readLogical c (l + j)) (readLogical c (l + n))

/-- The valid chunks of a unit from chunk `i` at a block of it on: those before the first that is not valid (R827, R828). -/
def chunksFrom (c : Chip) (u ugen : Nat) : Nat → Nat → Nat → List Nat
  | 0, _, _ => []
  | fuel + 1, i, at_ =>
    match chunkAt c u ugen i at_ with
    | some n => n :: chunksFrom c u ugen fuel (i + 1) (at_ + n + 1)
    | none => []

/-- A unit as admission finds it on the members. -/
def findUnit (c : Chip) (u : Nat) : Option BUnit :=
  (headIn (readLogical c (u * unitBlocks))).map fun h =>
    { h with chunks := if h.kind = 0 then [] else chunksFrom c u h.ugen (unitBlocks / 2) 0 1, wiped := h.kind == 0 }

/-- Blocks of a unit in use. -/
def usedBlocks (u : BUnit) : Nat := 1 + (u.chunks.map fun n => n + 1).sum

/-- Where the chunks of a unit begin, with the body blocks of each. -/
def chunkPlaces : Nat → List Nat → List (Nat × Nat)
  | _, [] => []
  | at_, n :: ns => (at_, n) :: chunkPlaces (at_ + n + 1) ns

/-- Body block at a block of a unit: it lies in a valid chunk and is not its mark. -/
def inBody (u : BUnit) (b : Nat) : Bool := (chunkPlaces 1 u.chunks).any fun p => decide (p.1 ≤ b) && decide (b < p.1 + p.2)

/-! ## Reading Basin (R849, R850) -/

/-- Byte of Basin at a Basin address, as a function reads it. What the blocks after a unit's last valid chunk hold is free
where they were deallocated, and in an encrypted unit, whose blocks there are no body blocks known (R830, R844; log 104). -/
def basinByte (c : Chip) (fn a : Nat) : Byte :=
  match bUnit c (a / 2 ^ 30) with
  | none => 0
  | some u =>
    let l := a / 4096
    let b := l % unitBlocks
    if !bsnServes c || u.kind == 0 || foreignUnit c u || (fn != 0 && u.owner != fnOwner fn) then 0
    else if usedBlocks u ≤ b ∧ (u.wiped = true ∨ u.epoch ≠ 0) then Config.freeByte a
    else
      let bs := readLogical c l
      (if inBody u b then openBody c u.epoch l bs else bs).getD (a % 4096) 0

end Sys2Proof.Machine
end

