-- ==== Sys2Proof/Machine/Basin.lean ====
section
/-! DEFINITION. Basin: units and space, chunks, admission, faults and rebuild, streams (19_basin_storage). -/

namespace Sys2Proof.Machine

/-- A program channel as GO starts it (R886). -/
def dpDef (_ : Nat) : DpSt :=
  { ctr0 := 0, ctr1 := 0, rsrc := none, rdst := none, scan := false, chan := false, xfer := none, pulse := false,
    verify := false, credit := 0, since := 0 }

/-! ## Units (R838 to R848) -/

/-- Numbers of the units that an owner code holds. -/
def heldUnits (c : Chip) (o : Nat) : List (Nat × BUnit) :=
  c.bsn.units.filterMap fun e => e.2.bind fun u => if u.kind ≠ 0 ∧ u.owner = o then some (e.1, u) else none

/-- The unit of an owner that is reclaimed first: a foreign one, else the oldest (R839, R848). -/
def reclaimChoice (c : Chip) (o : Nat) : Option Nat :=
  let us := heldUnits c o
  let cand := if us.any fun e => foreignUnit c e.2 then us.filter fun e => foreignUnit c e.2 else us
  (cand.foldl (fun a e =>
    match a with
    | some m => if e.2.ugen < m.2.ugen then some e else a
    | none => some e) (none : Option (Nat × BUnit))).map fun e => e.1

/-- UNITS of every owner page and FOREIGN follow the units held. -/
def countUnits (c : Chip) : Chip :=
  let c1 := (List.range 9).foldl (fun c p =>
    setReg c (ownerPage p) (BitVec.ofNat 32 (heldUnits c (codeOfPage p)).length)) c
  let n := (c1.bsn.units.filter fun e => match e.2 with | some u => foreignUnit c1 u | none => false).length
  setFld c1 bsnStat 16 16 (min 65535 n)

/-- A chunk in flight never reaches its unit: its records wait for Basin again while the image holds them (R862), and its
sets or entries are lost to their owner (R863). -/
def dropFlight (c : Chip) (f : BFlight) : Chip :=
  let p := ownerPage (pageOf f.owner)
  match f.kind with
  | 1 =>
    let gone := f.recs.filter fun r => !imageHolds c r
    let c1 := gone.foldl (fun c r => bsnCount c (ownerPage (recLog c r) + 0xC) 1) c
    { c1 with rcd := { c1.rcd with toBasin := (f.recs.filter fun r => imageHolds c r) ++ c1.rcd.toBasin } }
  | 2 => modLog (bsnCount c (p + 4) f.items) f.log fun g => { g with lost := true }
  | _ => bsnCount c (p + 8) f.items

/-- The chunks in flight that `gone` takes are dropped. -/
def dropFlights (c : Chip) (gone : BFlight → Bool) : Chip :=
  (c.bsn.flight.filter gone).foldl dropFlight (modBsn c fun b => { b with flight := b.flight.filter fun f => !gone f })

/-- Reclaim a unit: a new header with a greater UGEN makes it free, its other blocks are deallocated, and RECYCLED counts it
(R830). A chunk in flight to it is dropped.

DESIGN CHOICE: the header keeps OWNER and STREAM, and KEY_EPOCH is 0 (log 158). -/
def reclaimUnit (c : Chip) (u : Nat) : Chip :=
  match bUnit c u with
  | some x =>
    let c1 := dropFlights (bsnCount c (ownerPage (pageOf x.owner) + 0x10) 1) fun f => f.unit == u
    let h : UnitHead := { kind := 0, owner := x.owner, stream := x.stream, epoch := 0, ugen := c1.bsn.ugen + 1, ot := c1.ot,
                          pcc := pcc c1 }
    setBUnit (writeLogical (modBsn c1 fun b => { b with ugen := b.ugen + 1 }) (u * unitBlocks) (unitHeader h)) u
      (some { h with chunks := [], wiped := true })
  | none => c

/-- BASIN_SPACE of a partition (R286). -/
def spaceRsv (c : Chip) (p : Nat) : Nat := partEntry c p 8 4

/-- Sum of BASIN_SPACE over the partitions that `f` takes. -/
def spaceSum (c : Chip) (f : Nat → Bool) : Nat := (((List.range 8).filter f).map (spaceRsv c)).sum

/-- SAFETY_CLASS of a partition (R286). -/
def safetyClass (c : Chip) (p : Nat) : Bool := natBit (partEntry c p 0 1) 1

/-- Units that an amount gives to a partition: its reservation while the amount covers every one; else the partitions
of SAFETY_CLASS stand first (R319), and within a rank the amount is divided in proportion to the reservations (R320).

DESIGN CHOICE: a part that is no whole number of units is rounded down (log 92). -/
def spacePart (c : Chip) (n p : Nat) : Nat :=
  let first := spaceSum c (safetyClass c)
  let rest := spaceSum c fun q => !safetyClass c q
  if safetyClass c p then min (spaceRsv c p) (spaceRsv c p * n / max 1 first)
  else min (spaceRsv c p) (spaceRsv c p * (n - first) / max 1 rest)

/-- Usable units of the admitted layout. -/
def usableUnits (c : Chip) : Nat := if bsnServes c then bsnUnits c else 0

/-- Units that an owner code may hold: a partition's BASIN_SPACE, or its part when the layout's space falls short
(R307, R320); the keeper's share (R840). -/
def basinSpace (c : Chip) (o : Nat) : Nat :=
  if o < 8 then spacePart c (bsnUnits c) o else bsnUnits c - spaceSum c fun _ => true

/-- A partition's reserved space is not covered, in the sense of code 4 of R321. -/
def spaceShort (c : Chip) (p : Nat) : Bool :=
  (bsnServes c || bsnState c == 5) && decide (spacePart c (usableUnits c) p < spaceRsv c p)

/-- Partitions over their space give units back (R307, R839). -/
def trimUnits (c : Chip) : Chip :=
  countUnits ((List.range 8).foldl (fun c p =>
    (List.range ((heldUnits c p).length - basinSpace c p)).foldl (fun c _ =>
      match reclaimChoice c p with
      | some u => reclaimUnit c u
      | none => c) c) c)

/-- The lowest free unit (R838). -/
def freeUnit (c : Chip) : Option Nat := (List.range (c.bsn.units.length + 1)).find? fun u =>
  decide (u < bsnUnits c) && (bUnit c u).all fun x => x.kind == 0

/-- The unit that an owner takes next, after any reclaiming; none when it can have none. -/
def takeUnit (c : Chip) (o : Nat) : Chip × Option Nat :=
  if o < 8 ∧ basinSpace c o ≤ (heldUnits c o).length then
    match reclaimChoice c o with
    | some u => (reclaimUnit c u, some u)
    | none => (c, none)
  else match freeUnit c with
    | some u => (c, some u)
    | none =>
      let o' := if basinSpace c 0xF < (heldUnits c 0xF).length then 0xF else o
      match reclaimChoice c o' with
      | some u => (reclaimUnit c u, some u)
      | none => (c, none)

/-- The key epoch after `n`, in 32 bits; 0 stands for plaintext (R823, R845). -/
def nextEpoch (n : Nat) : Nat := n % (2 ^ 32 - 1) + 1

/-- Key epoch of a unit opened for an owner: an encrypting partition's key, made from the random source when first needed
(R844, R845). -/
def epochFor (c : Chip) (o : Nat) : Chip × Nat :=
  if o < 8 ∧ natBit (partEntry c o 0 1) 2 = true then
    match c.bsn.keys.find? fun k => k.owner == o with
    | some k => (c, k.epoch)
    | none =>
      let e := nextEpoch c.bsn.epochs
      (modBsn (takeFree c) fun b => { b with
        epochs := e, keys := b.keys ++ [{ owner := o, epoch := e, key := Config.xtsKey c.free }] }, e)
  else (c, 0)

/-- Owner code of the points of a stream whose registers are in force. -/
def streamOwner (c : Chip) (s : Nat) : Nat :=
  let r := (bLog c (16 + s)).regs
  let cfg := r.getD 0 0
  if cfg % 4 = 1 then
    ownerOf c (pt 2 (natBits cfg 2 3 * 16 + ((List.range 16).find? fun i => natBit cfg (16 + i)).getD 0))
  else ownerOf c (r.getD 3 0 % 2 ^ 24)

/-- The unit that a log goes on in: the latest of its kind, owner and stream that is not foreign (R828). -/
def tailUnit (c : Chip) (kind owner stream : Nat) : Option (Nat × BUnit) :=
  ((heldUnits c owner).filter fun e => e.2.kind == kind && e.2.stream == stream && !foreignUnit c e.2).foldl (fun a e =>
    match a with
    | some m => if m.2.ugen < e.2.ugen then some e else a
    | none => some e) none

/-- Open a unit (R823, R825). -/
def openUnit (c : Chip) (kind owner stream : Nat) : Chip × Option Nat :=
  match takeUnit c owner with
  | (c1, none) => (c1, none)
  | (c1, some u) =>
    let (c2, ep) := epochFor c1 owner
    let x : BUnit := { kind := kind, owner := owner, stream := stream, epoch := ep, ugen := c2.bsn.ugen + 1, ot := c2.ot,
                       pcc := pcc c2, chunks := [], wiped := (bUnit c2 u).isSome }
    (countUnits (setBUnit (modBsn c2 fun b => { b with ugen := b.ugen + 1 }) u (some x)), some u)

/-! ## Chunks (R824 to R832) -/

/-- Pad to whole blocks. -/
def padBlocks (bs : List Byte) : List Byte := padTo ((bs.length + 4095) / 4096 * 4096) bs

/-- The unit that takes a chunk of `n` blocks, its mark included, and whether it is a new one: the present unit of the log
while it has room. -/
def unitFor (c : Chip) (kind owner stream n : Nat) : Chip × Option Nat × Bool :=
  match tailUnit c kind owner stream with
  | some (u, x) =>
    if usedBlocks x + n ≤ unitBlocks then (c, some u, false)
    else let r := openUnit c kind owner stream; (r.1, r.2, true)
  | none => let r := openUnit c kind owner stream; (r.1, r.2, true)

/-- Members that `n` blocks from a logical block on go to. -/
def blocksPorts (c : Chip) (l n : Nat) : Nat := (List.range n).foldl (fun a i => a ||| writePorts c (l + i)) 0

/-- The body blocks of a chunk in flight as they are stored (R844). -/
def storedBody (c : Chip) (f : BFlight) (x : BUnit) : List (List Byte) :=
  (chop 4096 (f.chunk.body.length / 4096) f.chunk.body).zipIdx.map fun (b, i) =>
    sealBody c x.epoch (f.unit * unitBlocks + usedBlocks x + i) b

/-- The blocks that a step of a chunk writes, and where: 0 the header of its unit, 1 the body, 2 the mark (R824, R825). -/
def stepBlocks (c : Chip) (f : BFlight) (x : BUnit) : Nat × List (List Byte) :=
  let base := f.unit * unitBlocks
  let body := storedBody c f x
  match f.phase with
  | 0 => (base, [unitHeader x.toUnitHead])
  | 1 => (base + usedBlocks x, body)
  | _ => (base + usedBlocks x + body.length,
      [markBlock x.ugen x.chunks.length body.length f.chunk.first f.chunk.last (crc32 body.flatten)])

/-- A step of a chunk begins: its blocks go to the members, whose completion is awaited. -/
def chunkStep (c : Chip) (f : BFlight) : Chip :=
  match bUnit c f.unit with
  | some x =>
    let (l, bs) := stepBlocks c f x
    modBsn (writeBlocks c l bs) fun b => { b with flight := b.flight ++ [{ f with waits := blocksPorts c l bs.length }] }
  | none => c

/-- The mark has completed: the chunk is the tail of its log (R827). -/
def endChunk (c : Chip) (f : BFlight) : Chip :=
  match bUnit c f.unit with
  | some x => setBUnit c f.unit (some { x with chunks := x.chunks ++ [f.chunk.body.length / 4096] })
  | none => c

/-- A chunk goes on once every member has completed its step: its body follows the header of a new unit (R825), its mark the
body (R826). -/
def reapChunk (c : Chip) (f : BFlight) : Chip := if f.phase < 2 then chunkStep c { f with phase := f.phase + 1 } else endChunk c f

def reapChunks (c : Chip) : Chip :=
  (c.bsn.flight.filter fun f => f.waits == 0).foldl reapChunk
    (modBsn c fun b => { b with flight := b.flight.filter fun f => f.waits != 0 })

/-- Write a chunk. Answers whether a unit took it. -/
def startChunk (c : Chip) (l kind owner : Nat) (k : BChunk) (items : Nat) (recs : List Rec) : Chip × Bool :=
  match unitFor c kind owner (if l < 9 then 0 else l - 16) (k.body.length / 4096 + 1) with
  | (c1, none, _) => (c1, false)
  | (c1, some u, new) =>
    (chunkStep c1 { log := l, unit := u, owner := owner, kind := kind, chunk := k, phase := if new then 0 else 1, waits := 0,
                    items := items, recs := recs }, true)

/-- Records take up a record log's chunk from now on. -/
def recordsFrom (c : Chip) (o : Nat) : Chip :=
  { c with rcd := { c.rcd with basinSince := smPut (fun _ => 0) c.rcd.basinSince o c.ot } }

/-- The records that wait for a record log. -/
def recsOf (c : Chip) (o : Nat) : List Rec := c.rcd.toBasin.filter fun r => recLog c r == o

/-- A chunk of a record log: up to 31 blocks of 32 records (R832). -/
def recordChunk (c : Chip) (o : Nat) : Chip :=
  let rs := (recsOf c o).take 992
  match rs.head?, rs.getLast? with
  | some a, some z =>
    let k : BChunk := { body := padBlocks (rs.flatMap recBytes), first := a.ot, last := z.ot }
    let r := startChunk c o 1 (codeOfPage o) k 0 rs
    if r.2 then
      recordsFrom { r.1 with rcd := { r.1.rcd with toBasin := r.1.rcd.toBasin.filter fun q => !rs.contains q } } o
    else r.1
  | _, _ => c

/-- Sets in a body block of `n` channels (R834). -/
def setsPerBlock (n : Nat) : Nat := 4080 / (3 * n)

/-- A waveform body block (R834). -/
def waveBlock (ss : List WSet) (lost : Bool) : List Byte :=
  let fl := ss.foldl (fun a s => a ||| s.flags) 0 ||| (if lost then 8 else 0)
  let of (f : WSet → Nat) : Nat := (ss.head?.map f).getD 0
  padTo 4096 (natLe 5 (of fun s => s.ot) ++ natLe 2 ss.length ++ natLe 2 (of fun s => s.mask) ++ natLe 1 (of fun s => s.rate)
    ++ natLe 1 (of fun s => s.filt) ++ natLe 1 fl ++ natLe 4 0 ++ ss.flatMap fun s => s.codes.flatMap fun f => natLe 3 f)

/-- Cut sets into body blocks, at most `n`. -/
def waveBlocks (per : Nat) : Nat → List WSet → Bool → List Byte
  | 0, _, _ => []
  | n + 1, ss, lost => if ss.isEmpty then [] else waveBlock (ss.take per) lost ++ waveBlocks per n (ss.drop per) false

/-- Pack trend entries into blocks; no entry crosses a block (R836). Answers the bytes and the entries
left over when 31 blocks are full. -/
def packTrend : List TrEnt → List Byte → Nat → List Byte × List TrEnt
  | [], acc, _ => (acc, [])
  | e :: es, acc, blocks =>
    if acc.length + e.bytes.length ≤ blocks * 4096 then packTrend es (acc ++ e.bytes) blocks
    else if blocks < 31 then packTrend es (padTo (blocks * 4096) acc ++ e.bytes) (blocks + 1)
    else (acc, e :: es)

/-- Two sets lie in one chunk: one owner, no write to the stream's registers between them (R837), and the channels, rate and
filter that a block names once (R834). -/
def sameRun (a b : WSet) : Bool :=
  a.seg == b.seg && a.owner == b.owner && a.mask == b.mask && a.rate == b.rate && a.filt == b.filt

/-- The staged sets of a stream that its next chunk is taken from. -/
def waveRun (g : BLog) : List WSet := match g.sets with | a :: _ => g.sets.takeWhile (sameRun a) | [] => []

/-- The staged trend entries that the next chunk is taken from. -/
def trendRun (g : BLog) : List TrEnt :=
  match g.trend with | a :: _ => g.trend.takeWhile fun e => e.seg == a.seg && e.owner == a.owner | [] => []

/-- Sets that a chunk takes. -/
def waveFull (ss : List WSet) : Nat := 31 * setsPerBlock ((ss.head?.map fun s => s.codes.length).getD 1)

/-- A waveform chunk of a stream. -/
def waveChunk (c : Chip) (l : Nat) : Chip :=
  let g := bLog c l
  let ss := (waveRun g).take (waveFull g.sets)
  match ss.head?, ss.getLast? with
  | some a, some z =>
    let k : BChunk := { body := waveBlocks (setsPerBlock a.codes.length) 31 ss g.lost, first := a.ot, last := z.ot }
    let r := startChunk c l 2 a.owner k ss.length []
    if r.2 then modLog r.1 l fun g => { g with sets := g.sets.drop ss.length, lost := false } else r.1
  | _, _ => c

/-- A trend chunk of a stream. -/
def trendChunk (c : Chip) (l : Nat) : Chip :=
  let run := trendRun (bLog c l)
  let (body, rest) := packTrend run [] 1
  let done := run.take (run.length - rest.length)
  match done.head?, done.getLast? with
  | some a, some z =>
    let r := startChunk c l 3 a.owner { body := padBlocks body, first := a.ot, last := z.ot } done.length []
    if r.2 then modLog r.1 l fun g => { g with trend := g.trend.drop done.length } else r.1
  | _, _ => c

/-- A chunk of the log is in flight. -/
def logFlies (c : Chip) (l : Nat) : Bool := c.bsn.flight.any fun f => f.log == l

/-- OT units of a count of 100 ms. -/
def ot100ms (n : Nat) : Nat := ceilDiv (n * 1024) 10

/-- FLUSH × 100 ms have passed since an OT (R832). -/
def flushPassed (c : Chip) (ot : Nat) : Bool := decide (ot + ot100ms (fld c 0x190004 8 8) ≤ c.ot)

/-- A chunk of a record log waits to be written: its body is full, or FLUSH has passed (R832). -/
def recordsDue (c : Chip) (o : Nat) : Bool :=
  let n := (recsOf c o).length
  n != 0 && !logFlies c o && (decide (992 ≤ n) || flushPassed c (smGet (fun _ => 0) c.rcd.basinSince o))

/-- A waveform chunk of a stream waits to be written: its body is full, or a write to the stream or a change of its channels'
set-up has ended it (R834, R837).

DEDUCED: else it is due FLUSH after its first set, as a record chunk is (log 101). -/
def waveDue (c : Chip) (s : Nat) : Bool :=
  let g := bLog c (16 + s)
  !logFlies c (16 + s)
    && (match g.sets.head? with
        | some w => decide (waveFull g.sets ≤ (waveRun g).length) || decide ((waveRun g).length < g.sets.length) || w.seg != g.seg
            || flushPassed c w.ot
        | none => false)

/-- A trend chunk of a stream waits to be written.

DEDUCED: it is due as a record chunk is, when its body is full or FLUSH after its first entry (log 101); and when a write to
the stream has ended it (R837). -/
def trendDue (c : Chip) (s : Nat) : Bool :=
  let g := bLog c (16 + s)
  !logFlies c (16 + s)
    && (match g.trend.head? with
        | some e => !(packTrend (trendRun g) [] 1).2.isEmpty || decide ((trendRun g).length < g.trend.length) || e.seg != g.seg
            || flushPassed c e.ot
        | none => false)

/-- Owner page of the data at the front of a stream's staging, of its trends or of its waveforms. -/
def trendPage (c : Chip) (s : Nat) : Nat := (bLog c (16 + s)).trend.head?.elim 8 fun e => pageOf e.owner
def wavePage (c : Chip) (s : Nat) : Nat := (bLog c (16 + s)).sets.head?.elim 8 fun w => pageOf w.owner

/-- CHUNK_WRITE of a log: record logs 0 to 8, stream s is log 16 + s. Within an owner records are served before trends and
trends before waveforms (R832, R842). -/
def chunkWrite (c : Chip) (l : Nat) : Chip :=
  if !bsnServes c then c
  else if l < 9 then (if recordsDue c l then recordChunk c l else c)
  else if l < 16 ∨ 32 ≤ l then c
  else
    let s := l - 16
    if trendDue c s && !recordsDue c (trendPage c s) then trendChunk c l
    else if waveDue c s && !recordsDue c (wavePage c s)
        && !(List.range 16).any fun k => trendDue c k && trendPage c k == wavePage c s then waveChunk c l
    else c

/-! ## Admission -/

def bsnRefuse (c : Chip) (r : Nat) : Chip := setFld c bsnCtl 12 4 r

/-- R865; before the first frame no operation of Basin begins (R147). -/
def bsnModeOk (c : Chip) : Bool :=
  !starting c && [mScan, mRun, mService, mDegraded].contains (nodeMode c) && domOn c 25 && domOn c 27

/-- Ports whose link is up, with a drive, and whose PHY domain is ON. -/
def presentPorts (c : Chip) : List Nat :=
  ([0, 1, 2, 3] : List Nat).filter fun m => domOn c (2 + m) && (bDrive c m).isSome

/-- Blocks of a drive that the node uses (R818). -/
def driveBlocks (d : Drive) : Nat := min d.blocks (2 ^ 34)
def portBlocks (c : Chip) (m : Nat) : Nat := (bDrive c m).elim 0 driveBlocks
/-- A drive that the node accepts as a member (R817). -/
def driveSuitable (d : Drive) : Bool :=
  d.ns1 && (d.lba == 512 || d.lba == 4096) && d.metadata == 0 && decide (4 ≤ d.queues) && decide (256 ≤ d.depth)
    && decide (2 ^ 24 ≤ d.blocks)
def portSuitable (c : Chip) (m : Nat) : Bool := (bDrive c m).elim false driveSuitable

/-- The plain bytes of the body blocks of a unit, in order. -/
def unitBodies (c : Chip) (u : Nat) (x : BUnit) : List (List Byte) :=
  (chunkPlaces 1 x.chunks).flatMap fun p => (List.range p.2).map fun i =>
    let l := u * unitBlocks + p.1 + i
    openBody c x.epoch l (readLogical c l)

/-- Last SEQ in a record log: the last record of its last valid chunk. -/
def lastSeq (c : Chip) (o : Nat) : Option Nat :=
  let us := ((heldUnits c (codeOfPage o)).filter fun e => e.2.kind == 1).mergeSort fun a b => decide (a.2.ugen ≤ b.2.ugen)
  let recs := us.flatMap fun e => (unitBodies c e.1 e.2).flatMap fun b => (chop 128 32 b).filterMap fun r =>
    if leNat (r.drop 124) = 0x5A3CC3A5 then some (blockNat r 0x60 4) else none
  recs.getLast?

/-- After an admission the closed records of the image that follow their log's last SEQ wait for Basin,
in SEQ order (R833). -/
def requeueRecs (c : Chip) : Chip :=
  let next := (reg c 0x18000C).toNat
  let follows (r : Rec) : Bool :=
    match lastSeq c (recLog c r) with
    | some s => decide (seqAge next r.seq < seqAge next s)
    | none => true
  let rs := (imageRecs c).filter fun r => !recOpen c r.seq && follows r
  (List.range 9).foldl recordsFrom
    { c with rcd := { c.rcd with toBasin := rs.mergeSort fun a b => decide (seqAge next b.seq ≤ seqAge next a.seq) } }

/-- DP0 starts, with no credit and no pending event (R875, R883, R886). -/
def startDp0 (c0 : Chip) : Chip :=
  let c := setFld c0 0x1A010C 0 2 0
  { c with dma := { c.dma with dp := smPut dpDef c.dma.dp 0 { dpDef 0 with since := c.dma.now }, drained := none } }

/-! ### Consistency after a power failure (R829) -/

/-- Logical blocks of a log from its tail, the last block of its last valid chunk, to 32 blocks beyond it. -/
def tailBlocks (e : Nat × BUnit) : List Nat :=
  (List.range 33).map fun i => e.1 * unitBlocks + min (usedBlocks e.2 - 1 + i) (unitBlocks - 1)

/-- The unit in which a log ends: no unit of its kind, owner and stream is later. -/
def tailUnits (c : Chip) : List (Nat × BUnit) :=
  let us := c.bsn.units.filterMap fun e => e.2.bind fun u => if u.kind ≠ 0 then some (e.1, u) else none
  us.filter fun e => us.all fun q =>
    !(q.2.kind == e.2.kind && q.2.owner == e.2.owner && q.2.stream == e.2.stream) || decide (q.2.ugen ≤ e.2.ugen)

/-- The member strips that hold those blocks, of every log: ports, and strip on each. -/
def tailStrips (c : Chip) : List (List Nat × Nat) :=
  ((tailUnits c).flatMap fun e => (tailBlocks e).map (blockPorts c.bsn.layout c.bsn.ports)).dedup

/-- The parity of a row, or the second mirror copy of a strip, is written anew from the data, where every member of it can be
read. -/
def mendStrip (c : Chip) (x : List Nat × Nat) : Chip :=
  let row := if c.bsn.layout = 1 then ([0, 1, 2, 3] : List Nat) else x.1
  if row.all (readable c x.2) then
    let dst := x.1.getD 1 0
    (List.range 64).foldl (fun c i => let b := 16 + x.2 * 64 + i; putBlock c dst b (rebuiltBlock c dst b)) c
  else c

/-- Redundancy is made consistent before Basin takes a write, when it is admitted with CLEAN 0 (R829). -/
def makeConsistent (c : Chip) (clean : Bool) : Chip :=
  if clean || c.bsn.layout == 0 then c else (tailStrips c).foldl mendStrip c

/-- Basin is admitted with the members `use` of the ports, of whose superblocks CLEAN is given: states, capacity, the units and
their logs as the members hold them (R828), superblocks. -/
def enterAdmitted (c : Chip) (use : Nat) (clean : Bool) : Chip :=
  let units := logicalBlocks c.bsn.layout c.bsn.ports c.bsn.cap / unitBlocks
  let c1 := setBsnMembers (setFld (setFld c 0x190010 0 20 units) 0x190014 0 17 (c.bsn.cursor / 4096)) use
  let c2 := (portsOf use).foldl (fun c m => setDrvState c m (if c.bsn.rebuild = some m then 4 else 2)) c1
  let found := (List.range units).filterMap fun u => (findUnit c2 u).map fun x => (u, x)
  let c3 := modBsn c2 fun b => { b with
    units := found.foldl (fun m e => smPut unitDef m e.1 (some e.2)) []
    ugen := found.foldl (fun a e => max a e.2.ugen) 0
    auto := none }
  let st := if c.bsn.rebuild.isSome then 4 else if use = c.bsn.ports then 2 else 3
  startDp0 (requeueRecs (trimUnits (writeSupers (setBsnState (makeConsistent c3 clean) st) false)))

/-- Ports whose PHY domain is not ON. -/
def portsOff (c : Chip) : List Nat := ([0, 1, 2, 3] : List Nat).filter fun m => !domOn c (2 + m)

/-- CREATE needs the PHY domains of the members that the layout asks for, of PARITY every port and of MIRROR the partner of each
drive; no domain ON leaves no member (R865). -/
def createPhyOff (c : Chip) (layout : Nat) : Bool :=
  let off := portsOff c
  off.length == 4
    || (match layout with
        | 1 => !off.isEmpty
        | 2 => (presentPorts c).any fun m => off.contains (m ^^^ 1)
        | _ => false)

/-- OP 1 CREATE: the present drives become the members of a new Basin, which is admitted.

DESIGN CHOICE: what a member held before is deallocated, so that no unit of a former Basin is found on it (log 158). -/
def bsnCreate (c : Chip) : Chip :=
  let ports := maskOf (presentPorts c)
  let layout := fld c 0x190004 0 2
  if bsnState c ≠ 0 ∨ bsnModeOk c = false ∨ createPhyOff c layout = true then bsnRefuse c 2
  else if !layoutFits layout ports || !(presentPorts c).all (portSuitable c) then bsnRefuse c 3
  else
    let cap := (presentPorts c).foldl (fun a m => if a = 0 then portBlocks c m else min a (portBlocks c m)) 0
    let c1 := (presentPorts c).foldl (fun c m => setBDrive c m ((bDrive c m).map fun d => { d with data := [] })) c
    let c2 := modBsn (takeFree c1) fun b => { b with
      id := Config.freeValue c.free % 2 ^ 64, sgen := 0, cap := cap, layout := layout, ports := ports, cursor := 0,
      rebuild := none, flight := [], rewrites := [] }
    bsnRefuse (enterAdmitted c2 ports true) 0

/-- OP 2 ADMIT. -/
def bsnAdmit (c : Chip) : Chip :=
  let have_ := (presentPorts c).filterMap fun m => (portSuper c m).map fun s => (m, s)
  if (bsnState c ≠ 0 ∧ bsnState c ≠ 5) ∨ bsnModeOk c = false ∨ (portsOff c).length = 4 then bsnRefuse c 2
  else match have_.head? with
    | none => bsnRefuse c 3
    | some (_, s0) =>
      let top := have_.foldl (fun a e => if a.sgen < e.2.sgen then e.2 else a) s0
      if have_.any fun e => e.2.basinId != s0.basinId then bsnRefuse c 5
      else if (portsOff c).any fun m => natBit top.members m then bsnRefuse c 2
      else
        let inBasin := have_.filter fun e => natBit top.members e.1
        let fresh := inBasin.filter fun e => e.2.sgen == top.sgen
        let use := maskOf (fresh.map fun e => e.1)
        let good := use - (match top.rebuild with | some r => if natBit use r then 2 ^ r else 0 | none => 0)
        if inBasin.any fun e => !portSuitable c e.1 then bsnRefuse c 3
        else if fresh.any fun e => decide (portBlocks c e.1 < top.cap) then bsnRefuse c 4
        else if !lossMasked top.layout (top.members - good) then bsnRefuse c 6
        else
          let c1 := (inBasin.filter fun e => e.2.sgen != top.sgen).foldl (fun c e => setDrvState c e.1 5) c
          let c2 := modBsn c1 fun b => { b with
            id := top.basinId, sgen := top.sgen, cap := top.cap, layout := top.layout, ports := top.members,
            cursor := top.cursor, rebuild := top.rebuild.filter fun r => natBit use r, flight := [], rewrites := [] }
          bsnRefuse (enterAdmitted c2 use top.clean) 0

/-- Every step of the chunks in flight completes. -/
def flushFlight (c : Chip) : Chip :=
  (List.range 3).foldl (fun c _ =>
    reapChunks (modBsn c fun b => { b with flight := b.flight.map fun f => { f with waits := 0 } })) c

/-- Write chunks of a log until nothing of it waits, at most `n`. -/
def drainLog (chunk : Chip → Nat → Chip) (left : Chip → Nat) (l : Nat) : Nat → Chip → Chip
  | 0, c => c
  | n + 1, c => if left c = 0 then c else drainLog chunk left l n (flushFlight (chunk c l))

/-- Write what each log holds open (R864), records before trends before waveforms (R842). -/
def writeOpen (c : Chip) : Chip :=
  let logs := (List.range 16).map fun s => 16 + s
  let drain (ls : List Nat) (chunk : Chip → Nat → Chip) (left : Nat → Chip → Nat) (c : Chip) : Chip :=
    ls.foldl (fun c l => drainLog chunk (left l) l (left l c) c) c
  drain logs waveChunk (fun l c => (bLog c l).sets.length)
    (drain logs trendChunk (fun l c => (bLog c l).trend.length)
      (drain (List.range 9) recordChunk (fun l c => (recsOf c l).length) (flushFlight c)))

/-- DETACH: open chunks, Flush, superblocks with CLEAN 1 (R864). -/
def detachNow (c : Chip) : Chip :=
  let c1 := writeSupers (writeOpen c) true
  let c2 := (portsOf (bsnMembers c1)).foldl (fun c m => setDrvState c m 1) c1
  setBsnMembers (setBsnState (modBsn c2 fun b => { b with rewrites := [] }) 0) 0

/-- OP 3 DETACH. -/
def bsnDetach (c : Chip) : Chip := if bsnServes c then bsnRefuse (detachNow c) 0 else bsnRefuse c 2

/-! ## Faults and rebuild -/

/-- What a stream stages is discarded, and counted as lost to the owner of each set and entry (R854, R863). -/
def discardStaged (c : Chip) (s : Nat) : Chip :=
  let l := 16 + s
  let g := bLog c l
  let c1 := g.sets.foldl (fun c w => bsnCount c (ownerPage (pageOf w.owner) + 4) 1) c
  let c2 := g.trend.foldl (fun c e => bsnCount c (ownerPage (pageOf e.owner) + 8) 1) c1
  modLog c2 l fun g => { g with sets := [], trend := [], lost := g.lost || !g.sets.isEmpty }

/-- Basin goes offline: staged and in-flight stream data is lost and counted, records wait for Basin again, and every
partition whose space is gone has its guarantee breached (R39, R321, R854, R862). -/
def goOffline (c : Chip) : Chip :=
  let c1 := dropFlights ((List.range 16).foldl discardStaged c) fun _ => true
  let c2 := modBsn c1 fun b => { b with rewrites := [] }
  let c3 := postErrorRec (setBsnState c2 5) 0x63 srcNode (bsnMembers c2)
  (List.range 8).foldl (fun c p => if spaceShort c p then openBreach c p 4 else c) c3

/-- A member in use leaves it; the layout masks the loss, or Basin goes offline (R852, R854). -/
def dropMember (c : Chip) (m : Nat) : Chip :=
  let c1 := setBsnMembers c (bsnMembers c - 2 ^ m)
  let c2 := modBsn c1 fun b => { b with
    rebuild := if b.rebuild = some m then none else b.rebuild
    flight := b.flight.map fun f => { f with waits := f.waits - (if natBit f.waits m then 2 ^ m else 0) }
    rewrites := b.rewrites.filter fun x => x.1 != m }
  let good := bsnMembers c2 - (match c2.bsn.rebuild with | some r => 2 ^ r | none => 0)
  if lossMasked c2.bsn.layout (c2.bsn.ports - good) then
    reapChunks (setBsnState c2 (if c2.bsn.rebuild.isSome then 4 else 3))
  else goOffline c2

/-- MEMBER_LOST: cause 0 link down, 1 timeout, 2 fatal status, 3 media error (R851). -/
def memberLost (c : Chip) (m cause : Nat) : Chip :=
  let c1 := if cause = 0 then setFld (setFld c (drvStat m) 4 3 0) (drvStat m) 7 3 0 else c
  let use := natBit (bsnMembers c1) m && bsnServes c1
  let c2 := if cause = 0 then setBDrive c1 m none else c1
  if !use then (if cause = 0 && !([3, 5].contains (drvState c2 m)) then setDrvState c2 m 0 else c2)
  else
    let c3 := if cause = 1 then countFld c2 (drvStat m + 0xC) 16 16
      else if cause = 3 then countFld c2 (drvStat m + 0xC) 0 16 else c2
    dropMember (postErrorRec (setDrvState c3 m 3) 0x62 (srcRes 5 m) cause) m

/-- The writes of the oldest chunk that waits for a member have completed (R825, R826). -/
def writesDone (c : Chip) (m : Nat) : Chip :=
  let i := c.bsn.flight.findIdx fun f => natBit f.waits m
  let fl := c.bsn.flight.zipIdx.map fun (f, j) => if j = i then { f with waits := f.waits - 2 ^ m } else f
  reapChunks (modBsn c fun b => { b with flight := fl })

/-- The other members that hold a member's blocks again: its mirror, or the rest of its rows. -/
def redundancyOf (c : Chip) (m : Nat) : List Nat :=
  match c.bsn.layout with
  | 0 => []
  | 1 => (portsOf c.bsn.ports).filter fun n => n != m
  | _ => [m ^^^ 1]

/-- A block of a member can be answered from the redundancy: the other members that hold it can be read there (R853, R857). -/
def redundant (c : Chip) (m b : Nat) : Bool :=
  decide (16 ≤ b) && !(redundancyOf c m).isEmpty && (redundancyOf c m).all (readable c ((b - 16) / 64))

/-- A read error on a member: the redundancy answers, and the block is rewritten on that member (R853). MEDIA counts it.

DESIGN CHOICE: without redundancy for the block the error is counted and nothing else follows (log 102). -/
def readFails (c : Chip) (m b : Nat) : Chip :=
  let c1 := countFld c (drvStat m + 0xC) 0 16
  if redundant c m b && !c.bsn.rewrites.contains (m, b) then modBsn c1 fun x => { x with rewrites := x.rewrites ++ [(m, b)] }
  else c1

/-- The rewrite of a block ends: it holds what the redundancy gives. -/
def rewriteEnds (c : Chip) (m b : Nat) : Chip :=
  if c.bsn.rewrites.contains (m, b) then
    putBlock (modBsn c fun x => { x with rewrites := x.rewrites.erase (m, b) }) m b (rebuiltBlock c m b)
  else c

/-- NVME_COMPLETION of a member in use. -/
def nvmeCompletion (c : Chip) (m : Nat) (what : NvmeEnd) : Chip :=
  if !natBit (bsnMembers c) m || !bsnServes c then c
  else match what with
    | .done => writesDone c m
    | .failed => memberLost c m 3
    | .unread b => readFails c m b
    | .rewritten b => rewriteEnds c m b

/-- HEALTH_LOG_READ (R855). -/
def healthLogRead (c : Chip) (m warning : Nat) : Chip :=
  if !natBit (bsnMembers c) m then c
  else
    let c1 := setFlag c (drvStat m) 3 (warning != 0)
    if warning = 0 then c1 else postError c1 0x61 (srcRes 5 m) warning

/-- OP 4 REPLACE n (R856). -/
def bsnReplace (c : Chip) (n : Nat) : Chip :=
  if bsnState c = 4 then bsnRefuse c 1
  else if bsnState c ≠ 3 ∨ natBit c.bsn.ports n = false ∨ natBit (bsnMembers c) n = true then bsnRefuse c 2
  else if !(presentPorts c).contains n || !portSuitable c n then bsnRefuse c 3
  else if portBlocks c n < c.bsn.cap then bsnRefuse c 4
  else
    let c1 := modBsn (setDrvState (setBsnMembers c (bsnMembers c + 2 ^ n)) n 4) fun b => { b with rebuild := some n, cursor := 0 }
    bsnRefuse (writeSupers (setFld (setBsnState c1 4) 0x190014 0 17 0) false) 0

/-- The strip at CURSOR of the member being rebuilt is written from the redundancy. -/
def writeStrip (c : Chip) (n : Nat) : Chip :=
  (List.range 64).foldl (fun c i => let b := 16 + c.bsn.cursor * 64 + i; putBlock c n b (rebuiltBlock c n b)) c

/-- REBUILD_STRIP: the strip at CURSOR is rebuilt (R856 to R858). -/
def rebuildStrip (c : Chip) : Chip :=
  match c.bsn.rebuild with
  | none => c
  | some n =>
    if bsnState c ≠ 4 then c
    else
      let c1 := modBsn (writeStrip c n) fun b => { b with cursor := b.cursor + 1 }
      let k := c1.bsn.cursor
      let c2 := setFld c1 0x190014 0 17 (k / 4096)
      if memberStrips c2.bsn.cap ≤ k then
        let c3 := modBsn (setDrvState c2 n 2) fun b => { b with rebuild := none }
        let c4 := setBsnState c3 (if bsnMembers c3 = c3.bsn.ports then 2 else 3)
        -- the end of the masked fault (R37)
        let e : DiagEnt := { code := 0x62, source := srcRes 5 n, occ := occOf c4 0x62 (srcRes 5 n), sev := 2,
                             owner := 0xF, ot := c4.ot, detail := 0 }
        faultRec (writeSupers c4 false) 0x62 [diagWord e 0, diagWord e 1, diagWord e 2, diagWord e 3]
      else if k % 262144 = 0 then writeSupers c2 false
      else c2

/-- OP 5 RETIRE a member: taken out of use when the layout masks its loss. -/
def bsnRetire (c : Chip) (n : Nat) : Chip :=
  if bsnServes c = false ∨ natBit (bsnMembers c) n = false then bsnRefuse c 2
  else
    let good := bsnMembers c - (match c.bsn.rebuild with | some r => 2 ^ r | none => 0)
    let left := if natBit good n then good - 2 ^ n else good
    if !lossMasked c.bsn.layout (c.bsn.ports - left) then bsnRefuse c 6
    else bsnRefuse (writeSupers (setDrvState (dropMember c n) n 1) false) 0

/-- OP 6 ERASE_KEY of a partition (R847). -/
def bsnEraseKey (c : Chip) (o : Nat) : Chip :=
  let us := ((heldUnits c o).filter fun e => e.2.epoch != 0).map fun e => e.1
  let c1 := modBsn c fun b => { b with keys := b.keys.filter fun k => k.owner != o }
  let c2 := if bsnServes c then us.foldl reclaimUnit c1 else c1
  bsnRefuse (if bsnServes c then countUnits c2 else c2) 0

/-- With BSN_CFG.AUTO the node admits by itself after a start-up, once every root port that is to be ON has its drive, or when
`late` says that it waits no longer for one. A refused admission is tried again at the next link-up.

DESIGN CHOICE: how long it waits for a drive is not stated (log 64). -/
def autoAdmit (c : Chip) (late : Bool) : Chip :=
  let ports := (List.range 4).filter fun m => targetOn c (2 + m)
  if flag c 0x190004 4 && bsnState c == 0 && bsnModeOk c && c.bsn.auto.isSome
      && (if late then !(presentPorts c).isEmpty else !ports.isEmpty && ports.all fun m => (bDrive c m).isSome) then
    bsnAdmit (modBsn c fun b => { b with auto := some 0 })
  else c

/-- A link has come up: Basin is admitted, or two frame boundaries are left for the other drives. -/
def autoLinkUp (c : Chip) : Chip := autoAdmit (modBsn c fun b => { b with auto := b.auto.map fun _ => 2 }) false

/-- A frame boundary of the wait for drives. -/
def autoFrame (c : Chip) : Chip :=
  match c.bsn.auto with
  | some (n + 1) =>
    let c1 := modBsn c fun b => { b with auto := some n }
    if n = 0 then autoAdmit c1 true else c1
  | _ => c

/-- The level of NVn_PERST_N: low while the PHY domain is not ON, and until it is released (R1121). -/
def nvPerstN (c : Chip) (m : Nat) : Bool := domOn c (2 + m) && natBit c.bsn.perst m

/-- NVn_PERST_N is released, 1 ms after the domain reached ON. -/
def releasePerst (c : Chip) (m : Nat) : Chip :=
  if domOn c (2 + m) then modBsn c fun b => { b with perst := b.perst ||| 2 ^ m } else c

/-- The PHY domain of a root port reaches ON: NVn_PERST_N is low still. -/
def nvDomainOn (c : Chip) (m : Nat) : Chip :=
  modBsn c fun b => { b with perst := b.perst - (if natBit b.perst m then 2 ^ m else 0) }

/-- A link trains to four lanes, or down to two or one (R815). -/
def linkWidth (width : Nat) : Bool := [1, 2, 4].contains width

/-- NV_PORT_LINK_UP: NVn_PERST_N is released and the link of a root port comes up, with a drive. Before the first frame it
stays low (R146, R147). -/
def nvPortLinkUp (c0 : Chip) (m speed width : Nat) (d : Drive) : Chip :=
  let c := releasePerst c0 m
  if starting c0 then c0
  else if domOn c (2 + m) && speed != 0 && linkWidth width then
    let d1 := { d with data := d.data.foldl (fun s e => smPut zeroBlock s e.1 e.2) [] }
    let c1 := setBDrive (setFld (setFld c (drvStat m) 4 3 speed) (drvStat m) 7 3 width) m (some d1)
    let c2 := setReg (setReg c1 (drvStat m + 4) (BitVec.ofNat 32 (driveBlocks d))) (drvStat m + 8)
      (BitVec.ofNat 32 (driveBlocks d / 2 ^ 32 % 16))
    autoLinkUp (if [2, 3, 4, 5].contains (drvState c2 m) then c2 else setDrvState c2 m 1)
  else c

/-- The PHY domain of a root port goes OFF, after DETACH when it serves a member (R864). -/
def nvDomainOff (c : Chip) (m : Nat) : Chip :=
  let c1 := if bsnServes c && natBit (bsnMembers c) m then detachNow c else c
  setFld (setBDrive c1 m none) (drvStat m) 0 10 (8 * fld c1 (drvStat m) 3 1)

/-- The REC domain goes OFF (R864). -/
def bsnRecOff (c : Chip) : Chip := setBsnState (if bsnServes c then detachNow c else c) 0

/-! ## Streams -/

/-- One owner owns every point. -/
def oneOwner (c : Chip) (ps : List Nat) : Bool := ps.all fun p => ownerOf c p == ownerOf c (ps.headD 0)

/-- Every channel has one filter and one rate (R837). -/
def oneRate (c : Chip) (ps : List Nat) : Bool :=
  let filt (p : Nat) : Nat := bits (reg c (chBase (pIndex p) + 0x1C)) 0 9
  ps.all fun p => filt p == filt (ps.headD 0)

/-- A stream's registers are acceptable (R837). -/
def strOk (c : Chip) (rs : List Nat) : Bool :=
  let ps := strPoints rs
  oneOwner c ps && (rs.getD 0 0 % 4 != 1 || oneRate c ps)

/-- Staging of an owner page, in bytes: its part of 8 MiB. -/
def stagingPart (c : Chip) (p : Nat) : Nat :=
  2 ^ 23 * (if p < 8 then partEntry c p 4 1 else tbl c 2 6 1) / 256

/-- Bytes that a log stages for an owner page: each set and entry counts for the owner it was taken under. -/
def stagedBytes (g : BLog) (p : Nat) : Nat :=
  ((g.sets.filter fun w => pageOf w.owner == p).map fun w => 3 * w.codes.length).sum
    + ((g.trend.filter fun e => pageOf e.owner == p).map fun e => e.bytes.length).sum

def ownerStaged (c : Chip) (p : Nat) : Nat := ((List.range 16).map fun s => stagedBytes (bLog c (16 + s)) p).sum

/-- Count a waveform set of a stream as lost (R861, R863). -/
def loseSet (c : Chip) (s : Nat) (w : WSet) : Chip :=
  modLog (bsnCount c (ownerPage (pageOf w.owner) + 4) 1) (16 + s) fun g => { g with lost := true }

/-- A waveform set reaches staging (R861). -/
def stageSet (c : Chip) (s : Nat) (w : WSet) : Chip :=
  let p := pageOf w.owner
  if ownerStaged c p + 3 * w.codes.length ≤ stagingPart c p then
    modLog c (16 + s) fun g => { g with sets := g.sets ++ [w] }
  else loseSet c s w

/-- Discard the owner's oldest staged waveform set; answers whether there was one (R860). -/
def dropOldestSet (c : Chip) (p : Nat) : Chip × Bool :=
  let cand := (List.range 16).filterMap fun s =>
    ((bLog c (16 + s)).sets.find? fun w => pageOf w.owner == p).map fun w => (s, w)
  match cand.foldl (fun a e =>
    match a with
    | some m => if e.2.ot < m.2.ot then some e else a
    | none => some e) (none : Option (Nat × WSet)) with
  | some (s, w) => (loseSet (modLog c (16 + s) fun g => { g with sets := g.sets.erase w }) s w, true)
  | none => (c, false)

/-- Make room for a trend entry by discarding waveform sets (R860). -/
def makeRoom (p n : Nat) : Nat → Chip → Chip
  | 0, c => c
  | k + 1, c =>
    if ownerStaged c p + n ≤ stagingPart c p then c
    else match dropOldestSet c p with
      | (c1, true) => makeRoom p n k c1
      | (c1, false) => c1

/-- A trend entry reaches staging (R860). -/
def stageTrend (c : Chip) (s : Nat) (e : TrEnt) : Chip :=
  let p := pageOf e.owner
  let total := ((List.range 16).map fun s => (bLog c (16 + s)).sets.length).sum
  let c1 := makeRoom p e.bytes.length total c
  if ownerStaged c1 p + e.bytes.length ≤ stagingPart c1 p then modLog c1 (16 + s) fun g => { g with trend := g.trend ++ [e] }
  else bsnCount c1 (ownerPage p + 8) 1

/-- A trend entry of the present snapshot (R836). -/
def trendEntry (c : Chip) (ps : List Nat) : List Byte :=
  natLe 5 c.ot ++ natLe 1 ps.length ++ natLe 2 0
    ++ ps.flatMap fun p => ptBytes p ++ natLe 1 (point c p).snapFlags ++ natLe 8 (if pClass p = 0 then qwNull else (point c p).snap)

/-- A stream takes its registers: with new settings its capture, its pre-trigger sets and the set under way end (R837). -/
def streamRegs (c : Chip) (s : Nat) : Chip :=
  let rs := if (strRegs c s).getD 0 0 % 4 = 0 then [] else strRegs c s
  modLog c (16 + s) fun g =>
    if g.regs = rs then g else { g with regs := rs, cur := [], curFlags := 0, pre := [], ends := none, win := (1, 0) }

/-- At a frame boundary: streams take their registers, and trend entries fall due (R836, R837). -/
def streamsFrame (c : Chip) : Chip :=
  (List.range 16).foldl (fun c s =>
    let c1 := streamRegs c s
    let g := bLog c1 (16 + s)
    if g.regs.getD 0 0 % 4 = 2 && bsnServes c1 then
      if g.frames + 1 < natBits (g.regs.getD 2 0) 0 16 then modLog c1 (16 + s) fun g => { g with frames := g.frames + 1 }
      else stageTrend (modLog c1 (16 + s) fun g => { g with frames := 0 }) s
        { ot := c1.ot, bytes := trendEntry c1 (strPoints g.regs), owner := streamOwner c1 s, seg := g.seg }
    else c1) c

/-- A waveform set leaves its port for a stream: staged while the stream records continuously, or within a capture; else kept
for PRE (R835). -/
def portSet (c : Chip) (s : Nat) (w : WSet) : Chip :=
  let g := bLog c (16 + s)
  let time := g.regs.getD 1 0
  if time % 2 ^ 16 = 0xFFFF ∨ (g.win.1 ≤ w.ot ∧ w.ot ≤ g.win.2) then stageSet c s w
  else modLog c (16 + s) fun g => { g with
    pre := (g.pre ++ [w]).filter fun x => decide (w.ot ≤ x.ot + ot100ms (natBits time 16 8)) }

/-- A firing of trigger t begins the captures of the streams that it controls, or prolongs them (R835). -/
def waveTrigger (c : Chip) (t ot : Nat) : Chip :=
  (List.range 16).foldl (fun c s =>
    let g := bLog c (16 + s)
    let time := g.regs.getD 1 0
    if g.regs.getD 0 0 % 4 = 1 && time % 2 ^ 16 == t && bsnServes c then
      let till := ot + ot100ms (natBits time 24 8)
      let ws := g.pre.filter fun x => decide (ot ≤ x.ot + ot100ms (natBits time 16 8))
      let c1 := modLog c (16 + s) fun g => { g with
        ends := some till, pre := []
        win := (if g.ends.isSome then g.win.1 else ot - ot100ms (natBits time 16 8), till) }
      ws.foldl (fun c w => stageSet c s w) c1
    else c) c

/-- A firing of a recorder trigger, with its waveform captures (R783, R835). -/
def fireAll (c : Chip) (t ot : Nat) (items : List Nat) : Chip :=
  let c1 := fireTrigger c t ot items
  if trigFires c t then waveTrigger c1 t ot else c1

/-- WAVEFORM_CAPTURE_END (R835). -/
def waveformCaptureEnd (c : Chip) (s : Nat) : Chip :=
  match (bLog c (16 + s)).ends with
  | some e => if e ≤ c.ot then modLog c (16 + s) fun g => { g with ends := none } else c
  | none => c

/-- The filter code of an output goes into the set under way of each waveform stream of its channel;
a complete set enters the FIFO of its bank's port (R429, R834, R889). -/
def waveOutput (c : Chip) (ch : Nat) (raw : Rat) : Chip :=
  if !delivers c ch || !bsnServes c then c
  else
    let b := ch / 16
    let f := unsigned 24 (codeF (corrNow c ch (servingCell c ch)) raw)
    let fl := b2n (settling c ch) + b2n (onSpare c ch) * 2 + b2n (discards c ch) * 4
    (List.range 16).foldl (fun c s =>
      let g := bLog c (16 + s)
      let cfg := g.regs.getD 0 0
      if cfg % 4 = 1 && natBits cfg 2 3 == b && natBit cfg (16 + ch % 16) then
        let cur := smPut (fun _ => (2 ^ 24 : Nat)) g.cur (ch % 16) f
        let need := ((List.range 16).filter fun i => natBit cfg (16 + i)).length
        if cur.length < need then modLog c (16 + s) fun g => { g with cur := cur, curFlags := g.curFlags ||| fl }
        else
          let w : WSet := { ot := c.ot, codes := cur.map fun e => e.2, flags := g.curFlags ||| fl, mask := natBits cfg 16 16,
                            rate := natBits (anaSt c ch).aFilt 4 5, filt := natBits (anaSt c ch).aFilt 0 2,
                            owner := streamOwner c s, seg := g.seg }
          let c1 := modLog c (16 + s) fun g => { g with cur := [], curFlags := 0 }
          { c1 with dma := { c1.dma with port := smMod (fun _ => []) c1.dma.port b fun q => q ++ [(s, w)] } }
      else c) c

/-! ## Partition changes -/

/-- A change of the partition table: split streams are disabled, and partitions over their new space
give units back (R837, R841). -/
def bsnPartition (c : Chip) : Chip :=
  let c1 := (List.range 16).foldl (fun c s =>
    if oneOwner c (strPoints (strRegs c s)) then c
    else streamRegs (setFld c (strBase s) 0 2 0) s) c
  if bsnServes c1 then trimUnits c1 else c1

/-! ## Registers -/

/-- Field ranges of the block (R866). -/
def bsnRangeOk (off v : Nat) : Bool :=
  if off = 0x190004 then decide (1 ≤ natBits v 8 8)
  else if off = 0x19000C then decide (100 ≤ v) && decide (v ≤ 6000)
  else if 0x190400 ≤ off ∧ off < 0x190600 then
    match off % 0x20 with
    | 0 => v % 4 != 1 || natBits v 16 16 != 0
    | 4 => natBits v 0 16 == 0xFFFF || natBits v 8 8 == 0
    | 8 => decide (1 ≤ natBits v 0 16) && decide (1 ≤ natBits v 16 5) && decide (natBits v 16 5 ≤ 16)
    | _ => true
  else if 0x190800 ≤ off then pointValid v
  else true

/-- Stream whose register lies at an offset. -/
def strAt (off : Nat) : Option Nat :=
  if 0x190400 ≤ off ∧ off < 0x190600 then some ((off - 0x190400) / 0x20)
  else if 0x190800 ≤ off ∧ off < 0x190C00 then some ((off - 0x190800) / 0x40)
  else none

/-- A register of the block is left with a value outside its range: ARG names no port, or no owner code (R866). -/
def bsnCtlBad (c : Chip) : Bool :=
  let arg := fld c bsnCtl 4 4
  match fld c bsnCtl 0 4 with
  | 4 | 5 => decide (4 ≤ arg)
  | 6 => decide (8 ≤ arg) && arg != 15
  | _ => false

/-- The write to a register of the block is discarded (R837, R866). -/
def bsnBad (c : Chip) (_ : WriteCtx) (o : Nat) : Bool :=
  if o = bsnCtl then bsnCtlBad c
  else !bsnRangeOk o (reg c o).toNat
    || (match strAt o with
        | some s => fld c (strBase s) 0 2 != 0 && !strOk c (strRegs c s)
        | none => false)

def bsnReject (c : Chip) (_ : WriteCtx) (o : Nat) : Chip := postError (setFlag c bsnStat 3 true) 0x60 srcNode (o - 0x190000)

/-- BSN_CTL.GO: perform OP. The keeper has no keys to erase. An OP that names no command is refused (R196).

DESIGN CHOICE: with RESULT 2 (log 103). -/
def bsnGo (c : Chip) (w : WriteCtx) : Chip :=
  let arg := fld c bsnCtl 4 4
  let c0 := setFlag c bsnCtl 8 false
  if w.badCode then bsnRefuse c0 2
  else match fld c bsnCtl 0 4 with
    | 1 => bsnCreate c0
    | 2 => bsnAdmit c0
    | 3 => bsnDetach c0
    | 4 => bsnReplace c0 arg
    | 5 => bsnRetire c0 arg
    | 6 => bsnEraseKey c0 arg
    | _ => bsnRefuse c0 2

/-- What a write of the BSN block does: GO; a write to an enabled stream ends its open chunk (R837); WBW stays below the ceiling
of the layout (R819). -/
def bsnAct : Hook := fun w c =>
  if w.off = bsnCtl then (if w.hit 8 then bsnGo c w else c)
  else match strAt w.off with
    | some s => if (bLog c (16 + s)).regs.isEmpty then c else modLog c (16 + s) fun g => { g with seg := g.seg + 1 }
    | none =>
      if w.off = 0x19000C ∧ bsnServes c = true then
        setFld c w.off 0 13 (min (fld c w.off 0 13) (bwCeiling c.bsn.layout c.bsn.ports))
      else c

/-- Writes of the BSN block. -/
def hookBsn : Hook := guarded bsnBad bsnReject bsnAct

end Sys2Proof.Machine
end

