-- ==== Sys2Proof/Machine/Dma.lean ====
section
/-! DEFINITION. DMA engine: program channels, descriptor channels, completion (20_dma_engine). -/

namespace Sys2Proof.Machine

def dpBase (n : Nat) : Nat := 0x1A0100 + n * 0x20
def dlBase (n : Nat) : Nat := 0x1A0400 + n * 0x40
def dpStat (n : Nat) : Nat := dpBase n + 0xC
def dlStat (n : Nat) : Nat := dlBase n + 0x18

def dlDef (_ : Nat) : DlSt :=
  { xfer := none, notify := false, last := false, next := 0, pulse := false, credit := 0, since := 0 }

def dpSt (c : Chip) (n : Nat) : DpSt := smGet dpDef c.dma.dp n
def modDp (c : Chip) (n : Nat) (f : DpSt → DpSt) : Chip := { c with dma := { c.dma with dp := smMod dpDef c.dma.dp n f } }
def dlSt (c : Chip) (n : Nat) : DlSt := smGet dlDef c.dma.dl n
def modDl (c : Chip) (n : Nat) (f : DlSt → DlSt) : Chip := { c with dma := { c.dma with dl := smMod dlDef c.dma.dl n f } }

def dmaOn (c : Chip) : Bool := domOn c 27

/-- SOURCE of channel n: 0 to 7 DP, 8 to 15 DL. -/
def srcDma (n : Nat) : Nat := srcRes 6 n

/-- RATE of channel n: 0 to 7 DP, 8 to 15 DL. -/
def dmaRate (c : Chip) (n : Nat) : Nat := if n < 8 then fld c (dpBase n) 0 9 else fld c (dlBase (n - 8)) 8 9
def rateSum (c : Chip) : Nat := ((List.range 16).map (dmaRate c)).sum

/-! ## Credit (R875) -/

/-- Credit of channel n now, in eighths of a byte: RATE for each fabric cycle, up to 512 bytes. -/
def creditNow (c : Chip) (n : Nat) : Int :=
  let x : Int × Nat := if n < 8 then ((dpSt c n).credit, (dpSt c n).since) else ((dlSt c (n - 8)).credit, (dlSt c (n - 8)).since)
  min 4096 (x.1 + (dmaRate c n * (c.dma.now - x.2) : Nat))

/-- A burst of `k` bytes of channel n begins. -/
def chargeBurst (c : Chip) (n k : Nat) : Chip :=
  let x := creditNow c n - 8 * (k : Int)
  if n < 8 then modDp c n fun d => { d with credit := x, since := c.dma.now }
  else modDl c (n - 8) fun d => { d with credit := x, since := c.dma.now }

/-- Fabric cycles pass. -/
def dmaCycles (c : Chip) (n : Nat) : Chip := { c with dma := { c.dma with now := c.dma.now + n } }

/-- STATE of a program channel: 0 IDLE, 1 RUNNING, 2 WAITING, 3 HALTED. DP0 runs while Basin serves (R883), whatever its RATE:
no GO starts it (R916); with RATE 0 it gains no credit (R875). -/
def dpState (c : Chip) (n : Nat) : Nat :=
  if n = 0 ∧ fld c (dpStat 0) 0 2 ≠ 3 then
    (if bsnServes c && dmaOn c then (if c.dma.req = 0 then 2 else 1) else 0)
  else fld c (dpStat n) 0 2

def dpRuns (c : Chip) (n : Nat) : Bool := dpState c n == 1 || dpState c n == 2
def dlRuns (c : Chip) (n : Nat) : Bool := fld c (dlStat n) 0 2 == 1

def dpPc (c : Chip) (n : Nat) : Nat := fld c (dpStat n) 8 11

/-- A program channel halts with a reason. -/
def haltDp (c : Chip) (n reason : Nat) : Chip :=
  modDp (setFld (setFld c (dpStat n) 0 2 3) (dpStat n) 4 4 reason) n fun d => { d with xfer := none, pulse := false }

/-! ## Instructions (R885) -/

/-- Bytes of instruction i of program memory. -/
def instrBytes (c : Chip) (i : Nat) : List Nat :=
  (List.range 16).map fun k => (reg c (0x1A8000 + i * 16 + k / 4 * 4)).toNat / 256 ^ (k % 4) % 256

def numAt (bs : List Nat) (o n : Nat) : Nat := ((List.range n).map fun i => bs.getD (o + i) 0 * 256 ^ i).sum

/-- A decoded instruction. -/
inductive DpInstr where
  | move (sw dw swrap dwrap burst : Nat) (scont dcont : Bool) (src dst len : Nat)
  | loop (ctr count target : Nat)
  | wait (event : Nat)
  | signal (halt : Bool) (mask : Nat)
  deriving DecidableEq, Repr

/-- Bytes in an element of a width code (R869). -/
def elemBytes (w : Nat) : Nat := 2 ^ w

/-- Decode an instruction; none for a reserved OP or code, or a non-zero unused byte (R887). -/
def dpDecode (bs : List Nat) : Option DpInstr :=
  let b (i : Nat) : Nat := bs.getD i 0
  let zero (o n : Nat) : Bool := numAt bs o n == 0
  match b 0 with
  | 1 =>
    let sw := natBits (b 1) 0 3
    let dw := natBits (b 1) 4 3
    let len := numAt bs 12 4
    if sw ≤ 4 ∧ dw ≤ 4 ∧ natBit (b 1) 3 = false ∧ natBit (b 1) 7 = false ∧ b 3 < 64 ∧ 1 ≤ len ∧ len ≤ 2 ^ 24 then
      some (.move sw dw (natBits (b 2) 0 4) (natBits (b 2) 4 4) (b 3 % 16 + 1) (natBit (b 3) 4) (natBit (b 3) 5)
        (numAt bs 4 4) (numAt bs 8 4) len)
    else none
  | 2 => if b 1 < 2 ∧ zero 2 2 ∧ zero 10 6 then some (.loop (b 1) (numAt bs 4 4) (numAt bs 8 2)) else none
  | 3 => if b 1 < 3 ∧ zero 2 14 then some (.wait (b 1)) else none
  | 4 => if b 1 < 2 ∧ zero 3 13 then some (.signal (b 1 == 1) (b 2)) else none
  | _ => none

/-- R871. -/
def xferAligned (sw dw src dst len : Nat) : Bool :=
  len % max (elemBytes sw) (elemBytes dw) == 0 && src % elemBytes sw == 0 && dst % elemBytes dw == 0

/-- Source and destination of a MOVE of channel n (R888). -/
def moveEnds (c : Chip) (n : Nat) (scont dcont : Bool) (src dst : Nat) : Nat × Nat :=
  (if scont then (dpSt c n).rsrc.getD src else src, if dcont then (dpSt c n).rdst.getD dst else dst)

/-- The instruction at an index of a channel's window; none where the channel halts with INSTR. -/
def instrAt (c : Chip) (n i : Nat) : Option DpInstr :=
  let base := fld c (dpBase n + 4) 0 11
  let len := fld c (dpBase n + 4) 16 12
  if i < base ∨ base + len ≤ i ∨ 2048 ≤ i then none
  else match dpDecode (instrBytes c i) with
    | some (.move sw dw swrap dwrap burst scont dcont src dst l) =>
      let (s, d) := moveEnds c n scont dcont src dst
      if xferAligned sw dw s d l then some (.move sw dw swrap dwrap burst scont dcont s d l) else none
    | x => x

/-- The channel reaches instruction i (R887). -/
def dpReach (c : Chip) (n i : Nat) : Chip :=
  let c1 := setFld c (dpStat n) 8 11 i
  match instrAt c1 n i with
  | some _ => setFld c1 (dpStat n) 0 2 1
  | none => haltDp c1 n 5

/-- The instruction a running channel stands at, with no transfer or pulse in progress. -/
def dpHere (c : Chip) (n : Nat) : Option DpInstr :=
  if n = 0 ∨ 7 < n ∨ fld c (dpStat n) 0 2 ≠ 1 ∨ (dpSt c n).xfer.isSome = true ∨ (dpSt c n).pulse = true ∨ dmaOn c = false then none
  else instrAt c n (dpPc c n)

/-! ## Addresses -/

/-- R872: the address `m` bytes after `a` under a wrap code. -/
def wrapAdd (k a m : Nat) : Nat :=
  if k = 0 then a + m else let r := 2 ^ (k + 9); a / r * r + (a + m) % r

/-- A fabric address that DP1 to DP7 read (R881). -/
def fabricReads (a : Nat) : Bool := decide (a < 0x400000) || (decide (0x20000000 ≤ a) && decide (a < 0x24000000))
/-- A fabric address that DP1 to DP7 write. -/
def fabricWrites (a : Nat) : Bool := decide (a < 0x400000)

def handoffByte (c : Chip) (a : Nat) : Byte := smGet (fun _ => 0) c.dma.handoff a

def fabricByte (c : Chip) (a : Nat) : Byte :=
  if a < 0x400000 then handoffByte c a else bar1Byte c (a - 0x20000000)

def handoffWrite (c : Chip) (a : Nat) (v : Byte) : Chip :=
  { c with dma := { c.dma with handoff := smPut (fun _ => 0) c.dma.handoff a v } }

/-- Modes in which a pulse waits for a read-back, and start-up, which lasts to the first frame (R907). -/
def readsBack (c : Chip) : Bool := [mTest, mTakeover, mDegraded].contains (nodeMode c) || !c.mode.up || starting c

/-- One beat of a fabric transfer: up to 32 bytes read, then written. -/
def dpBeat (c : Chip) (x : Xfer) (done n : Nat) : Chip :=
  let bs := (List.range n).map fun i => fabricByte c (wrapAdd x.swrap x.src (done + i))
  bs.zipIdx.foldl (fun c (v, i) => handoffWrite c (wrapAdd x.dwrap x.dst (done + i)) v) c

/-- The beats of a burst of `n` bytes. -/
def dpBeats (x : Xfer) (n : Nat) : Nat → Nat → Chip → Chip
  | 0, _, c => c
  | k + 1, done, c => if n ≤ done then c else dpBeats x n k (done + 32) (dpBeat c x done (min 32 (n - done)))

/-- After a burst of n bytes. -/
def xferNext (x : Xfer) (n : Nat) : Xfer :=
  { x with src := wrapAdd x.swrap x.src n, dst := wrapAdd x.dwrap x.dst n, left := x.left - n }

/-- A burst of DP1 to DP7 (R873, R882). -/
def dpBurst (c : Chip) (n : Nat) (x : Xfer) : Chip :=
  let k := min x.left (x.burst * 32)
  let bad := (List.range k).find? fun i =>
    !fabricReads (wrapAdd x.swrap x.src i) || !fabricWrites (wrapAdd x.dwrap x.dst i)
  match bad with
  | some i =>
    let a := if fabricReads (wrapAdd x.swrap x.src i) then wrapAdd x.dwrap x.dst i else wrapAdd x.swrap x.src i
    postError (haltDp c n 4) 0x69 (srcDma n) (a % 2 ^ 24)
  | none =>
    let c1 := modDp (dpBeats x k 16 0 (chargeBurst c n k)) n fun d => { d with verify := readsBack c }
    let y := xferNext x k
    if y.left = 0 then
      dpReach (modDp c1 n fun d => { d with xfer := none, rsrc := some y.src, rdst := some y.dst }) n (dpPc c1 n + 1)
    else modDp c1 n fun d => { d with xfer := some y }

/-! ## DP0: waveform ports to Basin staging -/

def portFifo (c : Chip) (b : Nat) : List (Nat × WSet) := smGet (fun _ => []) c.dma.port b
def setPort (c : Chip) (b : Nat) (q : List (Nat × WSet)) : Chip :=
  { c with dma := { c.dma with port := smPut (fun _ => []) c.dma.port b q } }
def setReq (c : Chip) (b : Nat) (on : Bool) : Chip :=
  { c with dma := { c.dma with req := setNatBits c.dma.req b 1 (b2n on) } }

/-- Sets at the front of a FIFO that fit a burst of 512 bytes, at least one. -/
def burstSets : Nat → List (Nat × WSet) → Nat
  | _, [] => 0
  | room, e :: q => let n := 3 * e.2.codes.length; if n ≤ room then 1 + burstSets (room - n) q else 0

/-- The sets of a burst of a port leave its FIFO, and DP0 is charged their bytes. -/
def takeBurst (c : Chip) (b : Nat) : Chip × List (Nat × WSet) :=
  let q := portFifo c b
  let k := max 1 (burstSets 512 q)
  (setPort (chargeBurst c 0 ((q.take k).map fun e => 3 * e.2.codes.length).sum) b (q.drop k), q.take k)

/-- A burst of DP0: the lowest port that requests hands its sets to staging (R883, R889). -/
def dp0Burst (c : Chip) : Chip :=
  if dpState c 0 ≠ 1 then c
  else match (List.range 8).find? fun b => natBit c.dma.req b with
    | none => c
    | some b =>
      let (c1, ss) := takeBurst c b
      let c2 := if (portFifo c1 b).isEmpty then setReq c1 b false else c1
      ss.foldl (fun c e => portSet c e.1 e.2) c2

/-- The port whose drained burst halted DP0 is enabled again: the Basin manager starts DP0 (R915).

DESIGN CHOICE: a port is enabled again as its bank's AFE domain reaches ON, or with its next request (log 159). -/
def portEnabled (c : Chip) (b : Nat) : Chip := if c.dma.drained = some b then startDp0 c else c

/-- PORT_REQUEST: kept while DP0 runs; a request that finds DP0 IDLE or HALTED is discarded (R889, R894). -/
def portRequest (c : Chip) (b : Nat) : Chip :=
  if !domOn c (8 + b) || !dmaOn c then c
  else let c1 := portEnabled c b; if dpRuns c1 0 then setReq c1 b true else c1

/-- PORT_WITHDRAW; `begun` says that a burst of it has begun: the burst completes, and the sets that it holds, whose absent bytes
read 0, are all counted as discarded (R913 to R915). -/
def portWithdraw (c : Chip) (b : Nat) (begun : Bool) : Chip :=
  if !natBit c.dma.req b then c
  else
    let c1 := setReq c b false
    if !begun || dpState c 0 != 1 then c1
    else
      let (c2, ss) := takeBurst c1 b
      let c3 := ss.foldl (fun c e => loseSet c e.1 e.2) c2
      let c4 := haltDp (postError (setFlag c3 (dpStat 0) 19 true) 0x6C (srcDma 0) 0) 0 9
      { c4 with dma := { c4.dma with drained := some b } }

/-! ## Program instructions -/

/-- MOVE: the transfer of the instruction begins (R888). -/
def dpMove (c : Chip) (n : Nat) : Chip :=
  match dpHere c n with
  | some (.move _ dw swrap dwrap burst _ _ src dst len) =>
    let x : Xfer := { src := src, dst := dst, left := len, swrap := swrap, dwrap := dwrap, sspace := 0, dspace := 0,
                      burst := burst, dw := dw }
    modDp c n fun d => { d with xfer := some x }
  | _ => c

/-- LOOP (R890). -/
def dpLoop (c : Chip) (n : Nat) : Chip :=
  match dpHere c n with
  | some (.loop k count target) =>
    let v := if k = 0 then (dpSt c n).ctr0 else (dpSt c n).ctr1
    if count = 0 then dpReach (modDp c n fun d => if k = 0 then { d with ctr0 := 0 } else { d with ctr1 := 0 }) n target
    else
      let v1 := (if v = 0 then count else v) - 1
      let c1 := modDp c n fun d => if k = 0 then { d with ctr0 := v1 } else { d with ctr1 := v1 }
      dpReach c1 n (if v1 = 0 then dpPc c n + 1 else target)
  | _ => c

/-- The event that a WAITING channel waits for. -/
def waitsFor (c : Chip) (n : Nat) : Option Nat :=
  if n ≠ 0 ∧ fld c (dpStat n) 0 2 = 2 then
    (match instrAt c n (dpPc c n) with
     | some (.wait e) => some e
     | _ => none)
  else none

/-- Set a pending bit of channel n: event 0 SCAN, 1 CHANNEL (R891 to R894). A channel that waits for it
consumes it at once. -/
def setPending (c : Chip) (n e : Nat) : Chip :=
  if 7 < n ∨ dpRuns c n = false then c
  else if waitsFor c n = some e then dpReach c n (dpPc c n + 1)
  else if (if e = 0 then (dpSt c n).scan else (dpSt c n).chan) then countFld c (dpStat n) 24 8
  else modDp c n fun d => if e = 0 then { d with scan := true } else { d with chan := true }

/-- WAIT (R891). -/
def dpWait (c : Chip) (n : Nat) : Chip :=
  match dpHere c n with
  | some (.wait 0) =>
    if (dpSt c n).scan then dpReach (modDp c n fun d => { d with scan := false }) n (dpPc c n + 1)
    else setFld c (dpStat n) 0 2 2
  | some (.wait 1) =>
    if (dpSt c n).chan then dpReach (modDp c n fun d => { d with chan := false }) n (dpPc c n + 1)
    else setFld c (dpStat n) 0 2 2
  | some (.wait _) => setFld c (dpStat n) 0 2 2
  | _ => c

/-- A frame boundary ends each WAIT on FRAME. -/
def dmaFrame (c : Chip) : Chip :=
  (List.range 8).foldl (fun c n => if waitsFor c n = some 2 then dpReach c n (dpPc c n + 1) else c) c

/-- The pulse of a SIGNAL (R895). -/
def dpPulse (c : Chip) (n : Nat) (halt : Bool) (mask : Nat) : Chip :=
  let c1 := setReg (modDp c n fun d => { d with pulse := false }) (dpBase n + 0x10) (BitVec.ofNat 32 (frameNum c))
  let c2 := (List.range 8).foldl (fun c k => if natBit mask k then setPending c k 1 else c) c1
  if halt then haltDp c2 n 1 else dpReach c2 n (dpPc c2 n + 1)

/-- SIGNAL (R895): the mode in force at the channel's last write says whether its pulse waits (R907).

DESIGN CHOICE: with no write since GO there is nothing to read back, and the pulse is given at once (log 159). -/
def dpSignal (c : Chip) (n : Nat) : Chip :=
  match dpHere c n with
  | some (.signal halt mask) =>
    if (dpSt c n).verify then modDp c n fun d => { d with pulse := true } else dpPulse c n halt mask
  | _ => c

/-- The read-back before a program channel's pulse returns, or fails (R908). -/
def dpReadBack (c : Chip) (n : Nat) (ok : Bool) : Chip :=
  if !(dpSt c n).pulse then c
  else if !ok then haltDp c n 8
  else match instrAt c n (dpPc c n) with
    | some (.signal halt mask) => dpPulse c n halt mask
    | _ => haltDp c n 5

/-! ## Descriptor channels -/

/-- 64-bit number in a pair of registers. -/
def reg64 (c : Chip) (off : Nat) : Nat := (reg c off).toNat + (reg c (off + 4)).toNat * 2 ^ 32
def setReg64 (c : Chip) (off v : Nat) : Chip :=
  setReg (setReg c off (BitVec.ofNat 32 v)) (off + 4) (BitVec.ofNat 32 (v / 2 ^ 32))

def dlOwner (c : Chip) (n : Nat) : Nat := fld c (dlBase n) 0 4
def dlFn (c : Chip) (n : Nat) : Nat := ownerFn (dlOwner c n)

/-- The completion word, when CW is not 0 (R909). -/
def writeCw (c : Chip) (n reason : Nat) : Chip :=
  let cw := reg64 c (dlBase n + 0x10)
  if cw = 0 then c
  else hostWrite c cw (natLe 4 (reg c (dlBase n + 0x1C)).toNat ++ natLe 2 reason ++ natLe 2 0)

/-- A descriptor channel halts with a reason and, unless REVOKED, its completion word (R910). -/
def haltDl (c : Chip) (n reason : Nat) : Chip :=
  let c1 := setFld (setFld c (dlStat n) 0 2 3) (dlStat n) 4 4 reason
  let c2 := modDl c1 n fun d => { d with xfer := none, pulse := false }
  if reason = 10 then c2 else writeCw c2 n reason

/-- The pulse of a descriptor, if it has one, and what follows it (R900, R909, R910). -/
def endDesc (c : Chip) (n : Nat) (pulse : Bool) : Chip :=
  let d := dlSt c n
  let c1 := modDl c n fun d => { d with pulse := false }
  let c2 := if pulse then setReg c1 (dlBase n + 0x1C) (reg c1 (dlBase n + 0x1C) + 1) else c1
  if d.last then haltDl c2 n 1
  else setReg64 (if pulse then writeCw c2 n 0 else c2) (dlBase n + 0x20) d.next

/-- Bytes of a space read by a channel's function (R899). -/
def spaceByte (c : Chip) (fn space a : Nat) : Byte :=
  match space with
  | 0 => smGet (fun _ => 0) c.hostMem a
  | 1 => if bar1Reach c fn a then bar1Byte c a else 0
  | 2 => basinByte c fn a
  | _ => if fn = 0 ∨ a / 0x80000 + 1 = fn then handoffByte c a else 0

/-- Write a burst to a space in elements of `e` bytes (R870): host memory, or BAR1, each element a write of the function. -/
def spaceWrite (c : Chip) (fn space wrap e a : Nat) (bs : List Byte) : Chip :=
  (chop e (ceilDiv bs.length e) bs).zipIdx.foldl (fun c (v, i) =>
    let t := wrapAdd wrap a (i * e)
    if space = 0 then hostWrite c t v else bar1Write c fn t v) c

/-- The end of what `len` bytes from an address on reach under a wrap code (R872). -/
def wrapTop (k a len : Nat) : Nat :=
  let r := 2 ^ (k + 9)
  if k = 0 ∨ a % r + len ≤ r then a + len else a / r * r + r

/-- Addresses of a space (R899). -/
def spaceOk (space a len wrap : Nat) : Bool :=
  let top := wrapTop wrap a len
  match space with
  | 1 => decide (top ≤ 2 ^ 26)
  | 3 => decide (top ≤ 0x400000)
  | _ => decide (top ≤ 2 ^ 64)

/-- DESCRIPTOR: the descriptor at CUR is fetched, checked and begun (R898 to R901). -/
def descriptor (c : Chip) (n : Nat) : Chip :=
  if 7 < n ∨ dlRuns c n = false ∨ (dlSt c n).xfer.isSome = true ∨ (dlSt c n).pulse = true ∨ dmaOn c = false then c
  else
    let a := reg64 c (dlBase n + 0x20)
    let num (o k : Nat) : Nat := memNat zeroByte c.hostMem (a + o) k
    let src := num 0 8
    let dst := num 8 8
    let len := num 0x10 4
    let ctl := num 0x14 4
    let sw := natBits ctl 0 3
    let dw := natBits ctl 3 3
    let ss := natBits ctl 6 2
    let ds := natBits ctl 8 2
    let ok := decide (sw ≤ 4) && decide (dw ≤ 4) && natBits ctl 20 12 == 0 && decide (1 ≤ len) && decide (len ≤ 2 ^ 24)
      && ((ss == 0) != (ds == 0)) && decide (ds < 2) && xferAligned sw dw src dst len && a % 32 == 0
      && spaceOk ss src len (natBits ctl 12 4) && spaceOk ds dst len (natBits ctl 16 4)
    if !ok then haltDl c n 6
    else
      let x : Xfer := { src := src, dst := dst, left := len, swrap := natBits ctl 12 4, dwrap := natBits ctl 16 4,
                        sspace := ss, dspace := ds, burst := 0, dw := dw }
      modDl c n fun d => { d with xfer := some x, notify := natBit ctl 10, last := natBit ctl 11, next := num 0x18 8 }

/-- A burst of a descriptor channel; `limit` is the request size that the host negotiated (R902). -/
def dlBurst (c : Chip) (n limit : Nat) (x : Xfer) : Chip :=
  let k := min x.left (min 512 (if limit = 0 then 128 else limit))
  let fn := dlFn c n
  let bs := (List.range k).map fun i => spaceByte c fn x.sspace (wrapAdd x.swrap x.src i)
  let c1 := spaceWrite (chargeBurst c (8 + n) k) fn x.dspace x.dwrap (elemBytes x.dw) x.dst bs
  let y := xferNext x k
  if y.left ≠ 0 then modDl c1 n fun d => { d with xfer := some y }
  else
    let c2 := countFld (modDl c1 n fun d => { d with xfer := none }) (dlStat n) 16 16
    if (dlSt c2 n).notify then
      (if readsBack c2 then modDl c2 n fun d => { d with pulse := true } else endDesc c2 n true)
    else endDesc c2 n false

/-! ## Turns (R875, R880) -/

/-- A descriptor channel has a transfer in progress and credit for a burst. -/
def dlReady (c : Chip) (n : Nat) : Bool := dlRuns c n && (dlSt c n).xfer.isSome && decide (0 ≤ creditNow c (8 + n))

/-- The descriptor channel of a function whose turn it is: the first ready one after the channel served last. -/
def dlTurn (c : Chip) (fn : Nat) : Option Nat :=
  let k := smGet (fun _ => 7) c.dma.served fn
  ((List.range 8).map fun i => (k + 1 + i) % 8).find? fun n => dlFn c n == fn && dlReady c n

/-- A burst of a descriptor channel, in its turn; `ring` says that ring traffic of its function waits, which goes first. -/
def dlServe (c : Chip) (n limit : Nat) (ring : Bool) : Chip :=
  match (dlSt c n).xfer with
  | some x =>
    if !ring && dlTurn c (dlFn c n) == some n then
      dlBurst { c with dma := { c.dma with served := smPut (fun _ => 7) c.dma.served (dlFn c n) n } } n limit x
    else c
  | none => c

/-- A burst of a program channel, once its credit allows it. -/
def dpServe (c : Chip) (n : Nat) : Chip :=
  if creditNow c n < 0 then c
  else if n = 0 then dp0Burst c
  else match (dpSt c n).xfer with
    | some x => if fld c (dpStat n) 0 2 = 1 then dpBurst c n x else c
    | none => c

/-- COMPLETION_PULSE of channel n, after its read-back. -/
def completionPulse (c : Chip) (n : Nat) (ok : Bool) : Chip :=
  if n < 8 then dpReadBack c n ok
  else
    let m := n - 8
    if !(dlSt c m).pulse then c else if ok then endDesc c m true else haltDl c m 8

/-- DMA_HOST_ERROR of a descriptor channel (R903). -/
def dmaHostError (c : Chip) (n kind : Nat) : Chip :=
  if n < 8 ∨ dlRuns c (n - 8) = false then c
  else postError (haltDl c (n - 8) 7) 0x6B (srcDma n) kind

/-- R905, R906: a running channel halts; every register of its page but OWN takes its default. -/
def dlClear (c : Chip) (n reason : Nat) : Chip :=
  let c1 := if dlRuns c n then haltDl c n reason else c
  resetRegs (modDl c1 n fun _ => dlDef n) (dlBase n + 4) (dlBase n + 0x40)

/-- Descriptor channels of a function end with a reset of the function (R906). -/
def dlFnReset (c : Chip) (fn : Nat) : Chip :=
  (List.range 8).foldl (fun c n => if dlFn c n = fn then dlClear c n 11 else c) c

/-- Descriptor channels of a partition that is not ENABLED end (R905). -/
def dlPartition (c : Chip) : Chip :=
  (List.range 8).foldl (fun c n => if fnEnabled c (dlFn c n) then c else dlClear c n 10) c

/-- The DMA domain goes OFF or reaches ON (R868). -/
def dmaReset (c : Chip) : Chip :=
  resetRegs { c with dma := { c.dma with dp := [], dl := [], port := [], req := 0, now := 0, served := [], drained := none } } 0x1A0000 0x1B0000

/-! ## Registers -/

def dmaView (c : Chip) (off : Nat) : Option Nat :=
  if off = 0x1A0000 then
    some (((List.range 8).map fun n => b2n (dpRuns c n) * 2 ^ n).sum + ((List.range 8).map fun n => b2n (dlRuns c n) * 2 ^ (8 + n)).sum
      + rateSum c % 512 * 2 ^ 16)
  else if off = dpStat 0 then some (setNatBits (reg c off).toNat 0 2 (dpState c 0))
  else none

/-- Host-traffic bandwidth ceiling of the link as trained, in MB/s (R878); 0 while it is down. -/
def hbwCeiling (c : Chip) : Nat :=
  (match fld c 0x20000 0 3 with | 1 => 200 | 2 => 400 | 3 => 875 | 4 => 1750 | _ => 0) * fld c 0x20000 3 3

/-- The stored HBW is at most the ceiling. -/
def capHbw (c : Chip) : Chip :=
  if hbwCeiling c = 0 then c else setFld c 0x1A0004 0 13 (min (fld c 0x1A0004 0 13) (hbwCeiling c))

/-- GO and STOP of a program channel (R912, R916). -/
def dpCommand (c : Chip) (n : Nat) (go stop : Bool) : Chip :=
  let c1 := setFld c (dpBase n + 8) 0 2 0
  if stop then (if dpRuns c1 n then haltDp c1 n 2 else c1)
  else if go && !dpRuns c1 n && dmaOn c1 then
    let c2 := modDp c1 n fun _ => { dpDef n with since := c1.dma.now }
    if dmaRate c2 n = 0 then haltDp c2 n 3 else dpReach c2 n (fld c2 (dpBase n + 4) 0 11)
  else c1

/-- GO and STOP of a descriptor channel. -/
def dlCommand (c : Chip) (n : Nat) (go stop : Bool) : Chip :=
  let c1 := setFld c (dlBase n + 4) 0 2 0
  if stop then (if dlRuns c1 n then haltDl c1 n 2 else c1)
  else if go && !dlRuns c1 n && dmaOn c1 then
    let c2 := setReg (modDl c1 n fun _ => { dlDef n with since := c1.dma.now }) (dlBase n + 0x1C) 0
    if dmaRate c2 (8 + n) = 0 then haltDl c2 n 3
    else setReg64 (setFld c2 (dlStat n) 0 2 1) (dlBase n + 0x20) (reg64 c2 (dlBase n + 8))
  else c1

/-- A write of channel n is discarded: CFG_REJ, and an error FIFO entry, DMA_CONFIG 0x68 or DMA_PROG_BUSY 0x6A. -/
def dmaDiscard (c : Chip) (n code : Nat) : Chip :=
  postError (if n < 8 then setFlag c (dpStat n) 20 true else setFlag c (dlStat (n - 8)) 8 true) code (srcDma n) 0

/-- The running program channel in whose window the instruction of a register lies (R896). -/
def windowOf (c : Chip) (o : Nat) : Option Nat :=
  let i := (o - 0x1A8000) / 16
  (List.range 8).find? fun n => n != 0 && dpRuns c n && decide (fld c (dpBase n + 4) 0 11 ≤ i)
    && decide (i < fld c (dpBase n + 4) 0 11 + fld c (dpBase n + 4) 16 12)

/-- Program channel of a register of its page. -/
def dpOf (o : Nat) : Nat := (o - 0x1A0100) / 0x20

/-- A write to a program channel's page or to program memory is discarded (R876, R884, R896). -/
def dpBad (c : Chip) (_ : WriteCtx) (o : Nat) : Bool :=
  if 0x1A8000 ≤ o then (windowOf c o).isSome
  else if 0x1A0100 ≤ o ∧ o < 0x1A0200 then
    let n := dpOf o
    match o % 0x20 with
    | 0 => dpRuns c n || decide (256 < rateSum c)
    | 4 => n == 0 || dpRuns c n || decide (2048 < fld c o 0 11 + fld c o 16 12)
    | 8 => n == 0
    | _ => false
  else false

def dpReject (c : Chip) (_ : WriteCtx) (o : Nat) : Chip :=
  if 0x1A8000 ≤ o then (windowOf c o).elim c fun n => dmaDiscard c n 0x6A
  else
    let n := dpOf o
    match o % 0x20 with
    | 0 => dmaDiscard c n (if dpRuns c n then 0x6A else 0x68)
    | 4 => dmaDiscard c n (if n ≠ 0 ∧ dpRuns c n = true then 0x6A else 0x68)
    | _ => dmaDiscard c n 0x68

/-- Writes of a descriptor channel's page (R904, R905, R912). -/
def hookDl (w : WriteCtx) (c : Chip) (n o : Nat) : Chip :=
  match o with
  | 0 =>
    let c1 := if dlRuns c n && natBits w.mask 8 9 != 0 then
        setFlag (setFld c w.off 8 9 (bits w.old 8 9)) (dlStat n) 8 true
      else if 256 < rateSum c then dmaDiscard (setFld c w.off 8 9 (bits w.old 8 9)) (8 + n) 0x68
      else c
    if natBits w.mask 0 4 ≠ 0 then
      (if w.badCode || (8 ≤ fld c1 w.off 0 4 && fld c1 w.off 0 4 != 15) then c1 else dlClear c1 n 10)
    else c1
  | 4 => dlCommand c n (w.hit 0) (w.hit 1)
  | 8 | 0xC | 0x10 | 0x14 => if dlRuns c n then setFlag (setReg c w.off w.old) (dlStat n) 8 true else c
  | _ => c

/-- OWNER codes 8 to 14 are reserved: the field keeps its value and the write posts REG_CODE (R195). -/
def ownerCode (w : WriteCtx) (c : Chip) : Chip × WriteCtx :=
  let v := fld c w.off 0 4
  if 8 ≤ v ∧ v ≠ 15 then
    (postError (setFld c w.off 0 4 (bits w.old 0 4)) 0x02 (srcFn w.fn) w.off, { w with badCode := true })
  else (c, w)

/-- Writes of the DMA block. -/
def hookDma : Hook := guarded dpBad dpReject fun w c =>
  if w.off = 0x1A0004 then capHbw c
  else if 0x1A0100 ≤ w.off ∧ w.off < 0x1A0200 then
    (if w.off % 0x20 = 8 then dpCommand c (dpOf w.off) (w.hit 0) (w.hit 1) else c)
  else if 0x1A0400 ≤ w.off ∧ w.off < 0x1A0600 then
    let (c1, w1) := if w.off % 0x40 = 0 then ownerCode w c else (c, w)
    hookDl w1 c1 ((w.off - 0x1A0400) / 0x40) (w.off % 0x40)
  else c

end Sys2Proof.Machine
end

