-- ==== Sys2Proof/Machine/Alarm.lean ====
section
/-! DEFINITION. Floodplain alarm engine: conditions, delays, suppression, states, first-out, events and
floods (16_alarm_engine). Times are snapshot times in base ticks of 25 µs. -/

namespace Sys2Proof.Machine

/-! ## The table (R680 to R683) -/

/-- An alarm entry (R681). -/
structure AlmCfg where
  en : Bool
  initOos : Bool
  shelveOk : Bool
  cond : Nat
  prio : Nat
  trigOn : Nat
  src : Nat
  ref : Nat
  group : Nat
  trig : Nat
  limit : Nat
  db : Nat
  don : Nat
  doff : Nat
  mask : Nat
  rocWin : Nat

def almOff (a : Nat) : Nat := 0x20000 + a * 0x40

/-- Entry of alarm a in the copy at a base. -/
def almCfgAt (c : Chip) (base a : Nat) : AlmCfg :=
  let f (o n : Nat) : Nat := tmem c (base + almOff a + o) n
  { en := natBit (f 0 1) 0, initOos := natBit (f 0 1) 1, shelveOk := natBit (f 0 1) 2, cond := f 1 1, prio := f 2 1,
    trigOn := f 3 1, src := f 4 3, ref := f 8 3, group := f 0xC 2, trig := f 0xE 2, limit := f 0x10 8, db := f 0x18 8,
    don := f 0x20 2, doff := f 0x22 2, mask := f 0x24 2, rocWin := f 0x26 2 }

def almCfg (c : Chip) (a : Nat) : AlmCfg := almCfgAt c (tblBase c 6) a

/-- Entries of a region of the tables whose first byte has bit 0 set: their indexes, ascending. -/
def enabledAt (c : Chip) (base size n : Nat) : List Nat :=
  c.tables.filterMap fun e =>
    if base ≤ e.1 ∧ e.1 < base + size * n ∧ (e.1 - base) % size = 0 ∧ e.2.toNat % 2 = 1 then some ((e.1 - base) / size)
    else none

/-- Enabled alarms, ascending. -/
def enabledAlarms (c : Chip) (base : Nat) : List Nat := enabledAt c (base + 0x20000) 0x40 16384
/-- Enabled groups, ascending. -/
def enabledGroups (c : Chip) (base : Nat) : List Nat := enabledAt c (base + 0x1000) 0x40 1024

/-- A suppressor edge (R683). -/
structure EdgeCfg where
  target : Nat
  source : Nat
  smask : Nat
  hold : Nat
  deriving DecidableEq, Repr

def edgeAt (c : Chip) (base k : Nat) : EdgeCfg :=
  let f (o n : Nat) : Nat := tmem c (base + 0x120000 + k * 8 + o) n
  { target := f 0 2, source := f 2 3, smask := f 5 1, hold := f 6 2 }

def edgesOf (c : Chip) (base : Nat) : List EdgeCfg := (List.range (tmem c (base + 4) 4)).map (edgeAt c base)

def edgeKey (e : EdgeCfg) : Nat := e.target * 2 ^ 24 + e.source

/-- Group g is enabled; FO_EN; FO_PRIO (R682). -/
def groupEn (c : Chip) (base g : Nat) : Bool := decide (g < 1024) && natBit (tmem c (base + 0x1000 + g * 0x40) 1) 0
def groupFoEn (c : Chip) (base g : Nat) : Bool := natBit (tmem c (base + 0x1000 + g * 0x40) 1) 1
def groupFoPrio (c : Chip) (base g : Nat) : Nat := tmem c (base + 0x1000 + g * 0x40 + 1) 1

/-! ## State -/

def modAlm (c : Chip) (f : AlmSt → AlmSt) : Chip := { c with alm := f c.alm }
def almDef (_ : Nat) : Option AlarmEnt := none
def edgeDef (_ : Nat) : Option Int := none

/-- An alarm as it starts (R725). -/
def freshAlarm (k : AlmCfg) (t : Int) (ot : Nat) : AlarmEnt :=
  { state := if k.initOos then 6 else 0, c := false, cd := false, s := false, cAt := t, cOt := ot, crossOt := ot,
    shelve := none, vref := none, cross := 0, ev := none, pend := 0, pendFo := false, pendRec := none, pendOt := none }

/-- An alarm in the course of an evaluation: its state at the start, the changes made, and whether a
change of C_d's making was among them. -/
structure AWork where
  a : Nat
  k : AlmCfg
  start : Nat
  ent : AlarmEnt
  /-- states entered, in order -/
  hist : List Nat
  /-- a change by an evaluation row was made -/
  byEval : Bool
  /-- captured as first-out -/
  fo : Bool

/-- A state change. -/
def AWork.to (w : AWork) (s : Nat) (eval : Bool) : AWork :=
  { w with ent := { w.ent with state := s }, hist := w.hist ++ [s], byEval := w.byEval || eval }

/-- Base ticks of a count of 10 ms. -/
def ticks10ms (n : Nat) : Int := (n * 400 : Nat)

/-! ## Phase 1: commands (R699, R705) -/

/-- A command on one alarm: the alarm after it, status and RESULT. Op 0 ACK, 1 SHELVE, 2 UNSHELVE, 3 SERVICE. -/
def almRow (w : AWork) (op arg : Nat) (t : Int) : AWork × Nat × Nat :=
  let s := w.ent.state
  match op with
  | 0 =>
    if s = 1 then (w.to 2 false, stSuccess, 0)
    else if s = 3 then (w.to 0 false, stSuccess, 0)
    else (w, stSuccess, 1)
  | 1 =>
    let timed : AWork := { w with ent := { w.ent with shelve := some (t + (arg * 40000 : Nat)) } }
    if s = 6 ∨ w.k.shelveOk = false then (w, stWrongState, 0)
    else if s = 4 then (timed, stSuccess, 1)
    else (timed.to 4 false, stSuccess, 0)
  | 2 =>
    if s = 4 then ({ w with ent := { w.ent with shelve := none } }.to 0 false, stSuccess, 0) else (w, stSuccess, 1)
  | _ =>
    if arg = 1 then
      (if s = 6 then (w, stSuccess, 1)
       else ({ w with ent := { w.ent with shelve := none } }.to 6 false, stSuccess, 0))
    else if s = 6 then (w.to 0 false, stSuccess, 0)
    else (w, stSuccess, 1)

/-- Apply a row to one alarm of the list. -/
def almOne (ws : List AWork) (a op arg : Nat) (t : Int) : List AWork × Nat × Nat :=
  match ws.find? fun w => w.a == a with
  | some w =>
    let r := almRow w op arg t
    (ws.map fun x => if x.a = a then r.1 else x, r.2)
  | none => (ws, stWrongState, 0)

/-- Acknowledge every enabled member of a group (R705). -/
def almGroupAck (ws : List AWork) (g : Nat) (t : Int) : List AWork × Nat :=
  (ws.map fun w => if w.k.group = g then (almRow w 0 0 t).1 else w,
   (ws.filter fun w => w.k.group == g && (w.ent.state == 1 || w.ent.state == 3)).length)

/-- Apply the commands of the frame before, in order; with the results to publish. -/
def almCommands (ws : List AWork) (t : Int) : List AlmCmd → List AWork × List (Nat × Nat × Nat × Nat × Nat)
  | [] => (ws, [])
  | k :: ks =>
    let r : List AWork × Nat × Nat :=
      if pClass k.point = 10 then
        (let g := almGroupAck ws (pIndex k.point) t; (g.1, stSuccess, g.2))
      else almOne ws (pIndex k.point) k.op k.arg t
    let rest := almCommands r.1 t ks
    (rest.1, (k.fn, k.sq, k.tag, r.2.1, r.2.2) :: rest.2)

/-! ## Phases 2 to 6 -/

/-- Phase 2: an expired shelve ends (R706). -/
def almShelve (t : Int) (w : AWork) : AWork :=
  match w.ent.shelve with
  | some e => if e ≤ t then { w with ent := { w.ent with shelve := none } }.to 0 false else w
  | none => w

/-- Is a value an integer from 0 to 15 whose bit is set in a mask? -/
def inMask (v : Rat) (mask : Nat) : Bool := v.den == 1 && decide (0 ≤ v) && decide (v ≤ 15) && natBit mask v.num.toNat

/-- The raw condition of R686, and the ROC reference afterwards (R687 to R691). -/
def rawCond (c : Chip) (k : AlmCfg) (e : AlarmEnt) (t : Int) : Bool × Option (Nat × Int) :=
  let q := snapQw c k.src
  let v := qwValue q
  let l := qwValue (qw64Of k.limit)
  let d := qwValue (qw64Of k.db)
  let hold (on off : Bool) : Bool := if on then true else if off then false else e.c
  match k.cond with
  | 1 | 2 => (if q.qual = 3 then e.c else hold (decide (v > l)) (decide (v < l - d)), e.vref)
  | 3 | 4 => (if q.qual = 3 then e.c else hold (decide (v < l)) (decide (v > l + d)), e.vref)
  | 5 =>
    let r := snapQw c k.ref
    let x := |v - qwValue r|
    (if q.qual = 3 ∨ r.qual = 3 then e.c else hold (decide (x > l)) (decide (x < l - d)), e.vref)
  | 6 =>
    if q.qual = 3 then (e.c, none)
    else if k.rocWin = 0 ∨ frameNum c % k.rocWin ≠ 0 then (e.c, e.vref)
    else
      let w := (point c k.src).snap
      match e.vref with
      | none => (e.c, some (w, t))
      | some (w0, t0) =>
        let x := v - qwValue (qwOf (pointWide c k.src) w0)
        let dt : Rat := ((t - t0 : Int) : Rat) / 40000
        let b := if 0 < l then hold (decide (x > l * dt)) (decide (x < (l - d) * dt))
          else hold (decide (x < l * dt)) (decide (x > (l + d) * dt))
        (b, some (w, t))
  | 7 => (inMask v k.mask, e.vref)
  | 8 => (natBit k.mask q.qual, e.vref)
  | _ => (e.c, e.vref)

/-- An alarm whose entry is unusable is skipped (R39, R129). -/
def almBad (c : Chip) (a : Nat) : Bool := entryBad c 6 (almOff a) 0x40

/-- Phase 3. -/
def almRaw (c : Chip) (t : Int) (w : AWork) : AWork :=
  if almBad c w.a then w else
  let (b, r) := rawCond c w.k w.ent t
  { w with ent := if b = w.ent.c then { w.ent with vref := r }
                  else { w.ent with c := b, cAt := t, cOt := c.ot, vref := r } }

/-- C_d is frozen while a value condition has no usable word (R689). -/
def almFrozen (c : Chip) (k : AlmCfg) : Bool :=
  decide (k.cond ≤ 6) && ((snapQw c k.src).qual == 3 || (k.cond == 5 && (snapQw c k.ref).qual == 3))

/-- Phase 4: delays (R692, R693). -/
def almDelay (c : Chip) (t : Int) (w : AWork) : AWork :=
  let e := w.ent
  if almFrozen c w.k || e.c == e.cd then w
  else if ticks10ms (if e.c then w.k.don else w.k.doff) ≤ t - e.cAt then
    { w with ent := { e with cd := e.c, crossOt := e.cOt } }
  else w

/-- Is an edge active at the snapshot (R694)? -/
def edgeActive (c : Chip) (ws : List AWork) (e : EdgeCfg) : Bool :=
  if pClass e.source = 9 then ws.any fun w => w.a == pIndex e.source && w.ent.cd
  else if pClass e.source = 10 then ws.any fun w => w.k.group == pIndex e.source && w.ent.cd
  else inMask (qwValue (snapQw c e.source)) e.smask

/-- The edges that can be used: one whose entry is unusable is skipped (R39, R129). -/
def edgesInForce (c : Chip) (base : Nat) : List EdgeCfg :=
  ((List.range (tmem c (base + 4) 4)).filter fun i => !wordBad c (base + 0x120000 + i * 8) 8).map (edgeAt c base)

/-- Phase 5: suppression (R695). Answers the edges' last-active times. -/
def almSuppress (c : Chip) (base : Nat) (t : Int) (ws : List AWork) : SMap (Option Int) × List AWork :=
  let es := edgesInForce c base
  let act := es.filter (edgeActive c ws)
  let last := act.foldl (fun m e => smPut edgeDef m (edgeKey e) (some t)) c.alm.edges
  let holds (e : EdgeCfg) : Bool :=
    match smGet edgeDef last (edgeKey e) with
    | some x => decide (t - ticks10ms e.hold < x) || x == t
    | none => false
  (last, ws.map fun w => { w with ent := { w.ent with s := es.any fun e => e.target == w.a && holds e } })

/-- Phase 6: the evaluation rows of R699. -/
def almTransition (w : AWork) : AWork :=
  let e := w.ent
  let active (w : AWork) : AWork := ({ w with ent := { w.ent with cross := satInc 16 w.ent.cross } }).to 1 true
  match e.state with
  | 0 => if e.cd then (if e.s then w.to 5 true else active w) else w
  | 5 => if !e.cd then w.to 0 true else if !e.s then active w else w
  | 1 => if !e.cd then w.to 3 true else w
  | 2 => if !e.cd then w.to 0 true else w
  | 3 => if e.cd then active w else w
  | _ => w

/-- The alarm entered ACTIVE_UNACK in this evaluation by an evaluation row. -/
def AWork.entered (w : AWork) : Bool := w.byEval && w.ent.state == 1

/-! ## Phase 7: first-out and words -/

def foReg (g : Nat) : Nat := 0x164000 + g * 4

/-- The member captured in a group: the earliest crossing OT, then the lowest index (R710, R711). -/
def foChoice (ws : List AWork) : Option AWork :=
  ws.foldl (fun b w =>
    match b with
    | some m => if w.ent.crossOt < m.ent.crossOt then some w else b
    | none => some w) none

/-- First-out of one group. -/
def almFirstOut (base : Nat) (s : Chip × List AWork) (g : Nat) : Chip × List AWork :=
  let (c, ws) := s
  let members := ws.filter fun w => w.k.group == g
  let cand := members.filter fun w => w.entered && decide (w.k.prio ≤ groupFoPrio c base g)
  let (c1, ws1) : Chip × List AWork :=
    if groupFoEn c base g && !flag c (foReg g) 15 then
      match foChoice cand with
      | some m => (setReg c (foReg g) (BitVec.ofNat 32 (m.a + b2n (decide (1 < cand.length)) * 2 ^ 14 + 2 ^ 15)),
                   ws.map fun w => if w.a = m.a then { w with fo := true } else w)
      | none => (c, ws)
    else (c, ws)
  if members.any fun w => decide (1 ≤ w.ent.state) && decide (w.ent.state ≤ 3) then (c1, ws1)
  else (setFld c1 (foReg g) 14 2 0, ws1)

/-- `QW(w e0, good)` of unit 0, as a QW32. -/
def wordOfNat (w : Nat) : Nat := qw32To { mant := (w : Int), exp := 0, unit := 0, qual := 0 }

/-- The word of an alarm (R707). -/
def alarmWord (k : AlmCfg) (e : AlarmEnt) : Nat :=
  wordOfNat (e.state + 16 * b2n e.cd + 32 * b2n e.s + 64 * k.prio)

/-- The word of a group, from its members' priorities and states (R708). -/
def groupWord (c : Chip) (g : Nat) (ms : List (Nat × Nat)) : Nat :=
  let bit (b : Bool) (i : Nat) : Nat := b2n b * 2 ^ i
  let byPrio (s o : Nat) : Nat := ((List.range 4).map fun p => bit (ms.contains (p, s)) (o + p)).sum
  let has (s : Nat) : Bool := ms.any fun m => m.2 == s
  wordOfNat (byPrio 1 0 + byPrio 2 4 + byPrio 3 8 + bit (has 4) 12 + bit (has 5) 13 + bit (has 6) 14
    + bit (flag c (foReg g) 15) 15)

def shownDef (_ : Nat) : Option AlmShown := none

/-- The alarm depends on an unusable entry: its own, or that of an edge that suppresses it (R39). -/
def almHeld (c : Chip) (base a : Nat) : Bool :=
  almBad c a || (!c.mode.badWords.isEmpty
    && (List.range (tmem c (base + 4) 4)).any fun i =>
        wordBad c (base + 0x120000 + i * 8) 8 && (edgeAt c base i).target == a)

/-- Words of the enabled alarm and group points, by point, from the alarms of a state. -/
def almWordsOf (c : Chip) (base : Nat) (es : List (Nat × AlmCfg × AlarmEnt)) : List (Nat × Nat) :=
  es.map (fun e => (pt 9 e.1, if almHeld c base e.1 then alarmWord e.2.1 e.2.2 + 2 else alarmWord e.2.1 e.2.2))
    ++ (enabledGroups c base).map fun g =>
        let ms := es.filter fun e => e.2.1.group == g
        let w := groupWord c g (ms.map fun e => (e.2.1.prio, e.2.2.state))
        -- R39: a group that depends on an unusable entry is held
        (pt 10 g, if entryBad c 6 (0x1000 + g * 0x40) 0x40 || ms.any fun e => almHeld c base e.1 then w + 2 else w)

/-- The words that the alarm state as it stands gives (R728). -/
def almWordsNow (c : Chip) : List (Nat × Nat) :=
  let base := tblBase c 6
  almWordsOf c base ((enabledAlarms c base).filterMap fun a =>
    (smGet almDef c.alm.ents a).map fun e => (a, almCfgAt c base a, e))

/-- The alarms as the state stands, for the inspect registers of a node in MIRROR (R728, R732). -/
def almShownNow (c : Chip) : SMap (Option AlmShown) :=
  (enabledAlarms c (tblBase c 6)).filterMap fun a =>
    (smGet almDef c.alm.ents a).map fun e => (a, some ⟨e, (almCfg c a).prio⟩)

/-! ## The evaluation, phases 1 to 7 -/

/-- The snapshot time being evaluated. -/
def evalTime (c : Chip) : Int := (c.seq.snapTime : Nat)

/-- The alarms as an evaluation finds them (R725, R727). -/
def almBegin (c : Chip) (base : Nat) (t : Int) : List AWork :=
  (enabledAlarms c base).map fun a =>
    let k := almCfgAt c base a
    let e := match smGet almDef c.alm.ents a with
      | none => freshAlarm k t c.ot
      | some e => if c.alm.stopped then (if e.c = e.cd then { e with vref := none } else { e with vref := none, cAt := t, cOt := c.ot }) else e
    { a := a, k := k, start := e.state, ent := e, hist := [], byEval := false, fo := false }

/-- Phases 1 to 7: the alarms after them, and the words formed. -/
def almPhases (c : Chip) : Chip × List AWork × List (Nat × Nat) :=
  let base := tblBase c 6
  let t := evalTime c
  let ws0 := almBegin c base t
  let (ws1, res) := almCommands ws0 t c.alm.cmds
  let ws4 := ((ws1.map (almShelve t)).map (almRaw c t)).map (almDelay c t)
  let (last, ws5) := almSuppress c base t ws4
  let ws6 := ws5.map almTransition
  let c1 := modAlm c fun m => { m with edges := last, cmds := [], results := m.results ++ res, stopped := false }
  let (c2, ws7) := (enabledGroups c base).foldl (almFirstOut base) (c1, ws6)
  (c2, ws7, almWordsOf c2 base (ws7.map fun w => (w.a, w.k, w.ent)))

/-! ## Phase 8: triggers, floods, events -/

/-- The word of a point that a firing of the alarm plane records (R779). -/
def firedWord (c : Chip) (words : List (Nat × Nat)) (p : Nat) : Nat :=
  if 9 ≤ pClass p ∧ pClass p ≤ 11 then ((words.find? fun w => w.1 == p).map fun w => w.2).getD qwNull
  else if pClass p = 0 then qwNull else (point c p).snap

/-- Items of a trigger's snapshot list (R778 to R780); `rd` reads a register. -/
def firedItems (c : Chip) (rd : Chip → Nat → Nat) (words : List (Nat × Nat)) (t : Nat) : List Nat :=
  (List.range (min 24 (tbl c 8 (trigOff t + 1) 1))).map fun i =>
    let x := tbl c 8 (trigOff t + 0x20 + i * 4) 4
    match x / 2 ^ 28 with
    | 1 => firedWord c words (x % 2 ^ 24) % 2 ^ 32
    | 2 => firedWord c words (x % 2 ^ 24) / 2 ^ 32 % 2 ^ 32
    | 3 => rd c (x % 2 ^ 24) % 2 ^ 32
    | _ => 0

/-- A firing: trigger, the alarm that raised it (none for the call). -/
abbrev Firing := Nat × Option Nat

/-- Firings of the alarms (R716), in order of index. -/
def almFirings (ws : List AWork) : List Firing :=
  ws.flatMap fun w => w.hist.filterMap fun s =>
    if natBit w.k.trigOn s && decide (w.k.trig < 256) then some (w.k.trig, some w.a) else none

/-- SEQ of the record that a firing wrote or coalesced into. -/
def firedSeq (before after : Chip) (t : Nat) : Option Nat :=
  if recHolds before || !domOn before 25 || !natBit (tbl before 8 (trigOff t) 1) 0 || entryBad before 8 (trigOff t) 0x80 then none
  else if reg before 0x18000C = reg after 0x18000C then (openOf after t).map fun o => o.seq
  else some (((reg after 0x18000C).toNat + 2 ^ 32 - 1) % 2 ^ 32)

/-- Take firings in order (R783); answers the SEQ of each alarm's latest record. -/
def fireAllIn (rd : Chip → Nat → Nat) (words : List (Nat × Nat)) :
    List Firing → Chip × List (Nat × Option Nat) → Chip × List (Nat × Option Nat)
  | [], s => s
  | (t, a) :: fs, (c, seqs) =>
    let c1 := fireAll c t c.ot (firedItems c rd words t)
    let seqs1 := match a with
      | some i => (i, firedSeq c c1 t) :: seqs.filter fun x => x.1 != i
      | none => seqs
    fireAllIn rd words fs (c1, seqs1)

/-- Owner page of an alarm: 8 for the keeper. -/
def almPage (c : Chip) (a : Nat) : Nat := min 8 (ownerOf c (pt 9 a))
def floodCfg (o : Nat) : Nat := 0x160100 + o * 0x20

/-- Count the entries of an owner and enter or leave FLOOD (R719, R720, R724). -/
def almFlood (t : Int) (c : Chip) (o : Nat) : Chip :=
  let win : Int := (fld c (floodCfg o) 0 8 * 40000 : Nat)
  let n := (c.alm.entries.filter fun e => e.1 == o && decide (t - win < e.2)).length
  let c1 := setFld c (floodCfg o + 8) 16 16 (min n 65535)
  let inF := flag c1 (floodCfg o + 8) 0
  if !inF && decide (fld c1 (floodCfg o + 4) 0 16 < n) then
    let c2 := countFld (setFlag c1 (floodCfg o + 8) 0 true) (floodCfg o + 8) 8 8
    nodeRec c2 6 (if o < 8 then o else 0xF) [if o < 8 then o else 0xF, (reg c2 (floodCfg o + 8)).toNat]
  else if inF && decide (n ≤ fld c1 (floodCfg o + 4) 16 16) then setFlag c1 (floodCfg o + 8) 0 false
  else c1

/-- Count the entries into ACTIVE_UNACK of this evaluation; entries older than every window go. -/
def almEntries (c : Chip) (t : Int) (ws : List AWork) : Chip :=
  let fresh := ws.flatMap fun w => (w.hist.filter fun s => s == 1).map fun _ => (almPage c w.a, t)
  (List.range 9).foldl (almFlood t)
    (modAlm c fun m => { m with entries := (m.entries ++ fresh).filter fun e => decide (t - 255 * 40000 < e.2) })

/-- Payload of an ALARM event (R249, R714). -/
def almPayload (c : Chip) (a prio from_ to_ cond src group : Nat) (fo : Bool) (ot : Nat) (seq : Option Nat) : List Byte :=
  let flags := if pClass src = 0 then 0 else (point c src).snapFlags
  let word := if pClass src = 0 then qwNull else (point c src).snap
  ptBytes (pt 9 a) ++ natLe 1 prio ++ natLe 1 from_ ++ natLe 1 to_ ++ natLe 1 cond ++ natLe 1 flags ++ natLe 8 word
    ++ ptBytes (if group = 0xFFFF then 0 else pt 10 group) ++ natLe 1 (b2n fo) ++ natLe 5 ot ++ natLe 3 0
    ++ natLe 4 (seq.getD 0xFFFFFFFF)

/-- Event folding withholds the alarm's event (R721). -/
def almWithheld (c : Chip) (t : Int) (w : AWork) : Bool :=
  let o := floodCfg (almPage c w.a)
  flag c (o + 8) 0 && w.k.prio != 0
    && (match w.ent.ev with
        | some (te, _) => decide (t - te < (fld c o 8 8 * 4000 : Nat))
        | none => false)

/-- The event of an alarm, or its pending count (R713, R721, R722). Answers the alarm as it is kept. -/
def almReport (t : Int) (seqs : List (Nat × Option Nat)) (c : Chip) (w : AWork) : Chip :=
  let n := w.hist.length
  let e := w.ent
  let total := e.pend + n
  let seq : Option Nat := if n = 0 then e.pendRec else
    (if natBit w.k.trigOn (w.hist.getLastD 0) then ((seqs.find? fun x => x.1 == w.a).bind fun x => x.2) else none)
  let ot : Option Nat := if w.byEval then some e.crossOt else e.pendOt
  let keep (c : Chip) (e : AlarmEnt) : Chip := modAlm c fun m => { m with ents := smPut almDef m.ents w.a (some e) }
  if total = 0 then keep c e
  else if almWithheld c t w then
    keep c { e with pend := total, pendFo := e.pendFo || w.fo, pendRec := seq, pendOt := ot }
  else
    let from_ := if e.pend = 0 then w.start else (e.ev.map fun x => x.2).getD w.start
    let body := almPayload c w.a w.k.prio from_ e.state w.k.cond w.k.src w.k.group (e.pendFo || w.fo) (ot.getD c.ot) seq
    let x : AlmEv := { fn := ownerFn (ownerOf c (pt 9 w.a)), prio := w.k.prio, alarm := w.a, frame := frameNum c, ot := c.ot,
                       aux := min total 65535, body := body }
    keep (modAlm c fun m => { m with events := m.events ++ [x] })
      { e with pend := 0, pendFo := false, pendRec := none, pendOt := none, ev := some (t, e.state) }

/-- Events of alarms that a swap disabled (R730). -/
def almGoneEvents (c : Chip) : Chip :=
  let xs := c.alm.gone.map fun g =>
    ({ fn := g.fn, prio := g.prio, alarm := g.alarm, frame := frameNum c, ot := c.ot, aux := min (g.pend + 1) 65535,
       body := almPayload c g.alarm g.prio g.state 0 g.cond g.src g.group false c.ot none } : AlmEv)
  modAlm c fun m => { m with events := m.events ++ xs, gone := [] }

/-- Alarms waiting and suppressed of each owner (ALM_On_COUNT), and the summary of R1067. -/
def almCounts (c : Chip) (ws : List AWork) : Chip :=
  let c1 := (List.range 9).foldl (fun c o =>
    let mine := ws.filter fun w => almPage c w.a == o
    let n := (mine.filter fun w => w.ent.state == 1 || w.ent.state == 3).length
    let s := (mine.filter fun w => w.ent.state == 5).length
    setReg c (floodCfg o + 0xC) (BitVec.ofNat 32 (min n 65535 + min s 65535 * 2 ^ 16))) c
  let unack := (List.range 4).map fun p => b2n (ws.any fun w => w.k.prio == p && w.ent.state == 1) * 2 ^ p
  let act := (List.range 4).map fun p => b2n (ws.any fun w => w.k.prio == p && (w.ent.state == 1 || w.ent.state == 2)) * 2 ^ (4 + p)
  let fl := b2n ((List.range 9).any fun o => flag c1 (floodCfg o + 8) 0) * 2 ^ 8
  modAlm c1 fun m => { m with summary := unack.sum + act.sum + fl }

/-- Floods, events and counts, after the triggers. -/
def almFinish (c : Chip) (t : Int) (ws : List AWork) (seqs : List (Nat × Option Nat)) (words : List (Nat × Nat)) : Chip :=
  let c1 := almEntries c t ws
  let c2 := ws.foldl (almReport t seqs) (modAlm c1 fun m => { m with ents := [] })
  modAlm (almCounts (almGoneEvents c2) ws) fun m => { m with
    words := some words, evalAt := t, formed := ws.map fun w => (w.a, some ⟨w.ent, w.k.prio⟩) }

/-! ## Publication (R709, R715, R732) -/

/-- Load the live and the snapshot word of a point that an evaluation forms, unless it is substituted (R1189). -/
def publishWord (c : Chip) (p w : Nat) : Chip :=
  let e := point c p
  if e.subst then setPoint c p { e with lastOk := w, lastCalc := w }
  else setPoint c p { e with live := w, flags := 0, snap := w, snapFlags := 0, raw := false, lastOk := w, lastCalc := w }

/-- Load the words of every point of the classes `cls`: those formed, and `QW(0 e0, bad)` elsewhere. -/
def publishWords (c : Chip) (cls : List Nat) (words : List (Nat × Nat)) : Chip :=
  words.foldl (fun c w => publishWord c w.1 w.2)
    { c with points := c.points.filter fun e => e.2.subst || !cls.contains (pClass e.1) }

/-- ALARM events in order of function, PRIO and index. -/
def almEvOrder (a b : AlmEv) : Bool :=
  decide (a.fn < b.fn) || (a.fn == b.fn && (decide (a.prio < b.prio) || (a.prio == b.prio && decide (a.alarm ≤ b.alarm))))

/-- Commands that complete with the publication of their evaluation (R701, R745). -/
def endsAtPublication : Flight → Bool
  | .alarm _ => true
  | .callAck _ => true
  | _ => false

/-- Publish the alarm results of the frame before: words and inspect registers, then events. -/
def almPublish (c : Chip) : Chip :=
  let c1 := match c.alm.words with
    | some words =>
      modAlm (publishWords c [9, 10] (words.filter fun w => pClass w.1 != 11)) fun m => { m with shown := m.formed, shownAt := m.evalAt }
    | none => c
  (c1.alm.events.mergeSort almEvOrder).foldl (fun c e =>
    putEvent c e.fn { kind := 2, sub := 0x100, frame := e.frame % 2 ^ 32,
                      body := padTo 64 (evHeader 2 0 e.frame e.ot e.aux ++ e.body) })
    (modAlm c1 fun m => { m with events := [] })

/-- The commands of the evaluation complete, once its results are visible (R261, R701, R745). -/
def almComplete (c : Chip) : Chip :=
  c.alm.results.foldl (fun c r =>
    let (fn, sq, tag, st, res) := r
    completeWhere c (fun f i => f == fn && i.sq == sq && i.tag == tag && endsAtPublication i.what) fun _ _ => (st, res))
    (modAlm c fun m => { m with results := [], words := none })

/-! ## Swaps, domain, modes -/

/-- Alarm state across an alarm-table swap (R730). -/
def almSwap (c : Chip) (oldBase newBase : Nat) : Chip :=
  let t := evalTime c
  let olds := enabledAlarms c oldBase
  let news := enabledAlarms c newBase
  let gone := (olds.filter fun a => !news.contains a).filterMap fun a =>
    let k := almCfgAt c oldBase a
    (smGet almDef c.alm.ents a).bind fun e =>
      if e.state = 0 then none
      else some ({ fn := ownerFn (ownerOf c (pt 9 a)), alarm := a, prio := k.prio, cond := k.cond, src := k.src, group := k.group,
                   state := e.state, pend := e.pend } : AlmGone)
  let ents := news.foldl (fun m a =>
    let k := almCfgAt c newBase a
    let o := almCfgAt c oldBase a
    let e := if olds.contains a then smGet almDef c.alm.ents a else none
    let e1 := e.map fun e =>
      if k.cond = o.cond ∧ k.src = o.src ∧ k.ref = o.ref then e
      else { e with c := false, cd := false, cAt := t, cOt := c.ot, crossOt := c.ot, vref := none }
    smPut almDef m a e1) []
  let keys := ((edgesOf c oldBase).map edgeKey).filter fun k => ((edgesOf c newBase).map edgeKey).contains k
  let c1 := modAlm c fun m => { m with ents := ents, gone := m.gone ++ gone, edges := m.edges.filter fun e => keys.contains e.1 }
  (List.range 1024).foldl (fun c g =>
    if groupEn c oldBase g = groupEn c newBase g then c else setReg c (foReg g) 0) c1

/-- The ALARM domain goes OFF: everything starts again under R725 when it returns. -/
def almDomainOff (c : Chip) : Chip :=
  let c1 := (List.range 1024).foldl (fun c g => setReg c (foReg g) 0) c
  let c2 := (List.range 9).foldl (fun c o => setReg (setFld (setFlag c (floodCfg o + 8) 0 false) (floodCfg o + 8) 16 16 0) (floodCfg o + 0xC) 0) c1
  modAlm c2 fun m => { m with ents := [], shown := [], formed := [], edges := [], gone := [], events := [], words := none, entries := [],
                              stopped := false, summary := 0 }

/-! ## Commands (R702 to R704) -/

/-- Status of an alarm command before it begins: op 0 ACK, 1 SHELVE, 2 UNSHELVE, 3 SERVICE. -/
def almStatus (c : Chip) (op p : Nat) : Nat :=
  if !(pClass p == 9 || (pClass p == 10 && op == 0)) then stInvalidField
  else if !alarmsRun c then stWrongMode
  else if pClass p = 9 ∧ (almCfg c (pIndex p)).en = false then stWrongState
  else stSuccess

/-- An accepted alarm command waits for its evaluation (R701). -/
def almAccept (c : Chip) (k : AlmCmd) : Chip := modAlm c fun m => { m with cmds := m.cmds ++ [k] }

/-! ## Registers -/

/-- Inspect registers (R732): the alarm that the function's SEL names, as of the last publication. -/
def almView (c : Chip) (off : Nat) : Option Nat :=
  if off < 0x168000 ∨ 0x168120 ≤ off ∨ off % 0x20 = 0 then none
  else
    let fn := (off - 0x168000) / 0x20
    let a := fld c (0x168000 + fn * 0x20) 0 14
    if !mayRead c fn (pt 9 a) then some 0
    else match smGet shownDef c.alm.shown a with
      | none => some 0
      | some x =>
        let e := x.ent
        match off % 0x20 with
        | 4 => some (e.state + b2n e.c * 16 + b2n e.cd * 32 + b2n e.s * 64 + b2n (e.c != e.cd) * 128 + x.prio % 4 * 256)
        | 8 => some (match e.shelve with
            | some x => min (2 ^ 17 - 1) (ceilDiv (x - c.alm.shownAt).toNat 40000)
            | none => 0)
        | 0xC => some e.cross
        | _ => some 0

/-- Writes of the ALM block (R731). -/
def hookAlm : Hook :=
  guarded (fun c _ o => decide (0x160100 ≤ o) && decide (o < 0x160220) && (o - 0x160100) % 0x20 == 4
      && decide (fld c o 0 16 ≤ fld c o 16 16))
    (fun c _ o => postError c 0x50 (let p := (o - 0x160100) / 0x20; if p < 8 then srcRes 3 p else srcNode) 0) hookNone

end Sys2Proof.Machine
end

