-- ==== Sys2Proof/Machine/Call.lean ====
section
/-! DEFINITION. Engineer call: watch rota, stages, acceptances, outputs and panel frames
(17_engineer_call); the whole evaluation of a snapshot (16); what CAN controllers hand to the call. -/

namespace Sys2Proof.Machine

def callSeqReg : Nat := 0x170010
def modCall (c : Chip) (f : CallSt → CallSt) : Chip := { c with call := f c.call }

/-! ## The rota (R733, R736 to R738) -/

def rota (c : Chip) (o n : Nat) : Nat := tbl c 7 o n
def rotaRole (c : Chip) (n : Nat) : Nat := rota c (0x40 + n * 0x10) 1
def rotaPol (c : Chip) (n : Nat) : Bool := natBit (rota c (0x41 + n * 0x10) 1) 0
def rotaPanel (c : Chip) (n : Nat) : Bool := natBit (rota c (0x41 + n * 0x10) 1) 1
def rotaAckPoint (c : Chip) (n : Nat) : Nat := rota c (0x42 + n * 0x10) 3

/-- Entries that satisfy a test, as a mask. -/
def entryMask (p : Nat → Bool) : Nat := maskOf ((List.range 16).filter p)

/-- Minutes since the most recent start of watch slot w, within the past seven days. -/
def watchAge (c : Chip) (w : Nat) : Option Nat :=
  let start := rota c (0x200 + w * 8) 2
  let days := rota c (0x202 + w * 8) 1
  let now := c.rtc.cal.hour * 60 + c.rtc.cal.min
  let today := weekday c.rtc.cal - 1
  (List.range 8).findSome? fun d =>
    let age := now + d * 1440
    if natBit days ((today + 7 - d % 7) % 7) && decide (start ≤ age) && decide (age - start ≤ 7 * 1440) then some (age - start) else none

/-- The slots whose most recent start lies latest. -/
def latestWatches (c : Chip) : List Nat :=
  let ws := (List.range (min 32 (rota c 0x14 1))).filterMap fun w => (watchAge c w).map fun a => (w, a)
  match (ws.map fun e => e.2).min? with
  | some m => (ws.filter fun e => e.2 == m).map fun e => e.1
  | none => []

/-- FALLBACK; 0xFF is none (R738). -/
def fallbackDuty (c : Chip) : Option Nat := if rota c 3 1 = 0xFF then none else some (rota c 3 1 % 16)

/-- The duty engineer now (R736 to R738). -/
def callDuty (c : Chip) : Option Nat :=
  if flag c 0x170008 0 then some (fld c 0x170008 4 4)
  else if !(rtcOn c && flag c rtcStat 0) then fallbackDuty c
  else match latestWatches c with
    | [] => fallbackDuty c
    | w :: ws => some (rota c (0x203 + ((w :: ws).getD (Config.watchTie (w :: ws) % (ws.length + 1)) w) * 8) 1 % 16)

/-! ## Panel frames (R759 to R766) -/

/-- Put a frame of the call into transmit buffer 2 of CAN_CTRL (R759, R929).

DESIGN CHOICE: a frame that a host sent from that buffer before the call took it leaves first, and its command completes
with its own outcome; the call's frame waits (R254; log 151). -/
def callSend (c : Chip) (data : List Byte) : Chip :=
  match callCtrl c with
  | none => c
  | some n =>
    if callCanDown c || fld c (canCtl n) 0 2 == 2 || !transmitLive c then c
    else
      let x : CanTx := { onBus := false, fmt := b2n (c.call.set.fmt == 1), ident := c.call.set.txId, dlc := 8,
                         data := padTo 8 data, fn := 9, tmo := false, drop := false }
      match canBuf c n 2 with
      | some y => if y.onBus || y.fn != 9 then setBuf c n 3 (some x) else setBuf c n 2 (some x)
      | none => setBuf c n 2 (some x)

/-- A new CALL or CLEAR frame: it takes CALL_SEQ and goes out at the publication (R762). -/
def callFrame (c : Chip) (clear : Bool) (b1 targets first : Nat) : Chip :=
  if (callCtrl c).isNone then c
  else
    let s := fld c callSeqReg 0 16
    let f : CallFrame :=
      { data := natLe 1 (if clear then 2 else 1) ++ natLe 1 b1 ++ natLe 2 s ++ natLe 2 targets ++ natLe 2 (if clear then 0 else first),
        seq := s, targets := targets, acked := 0, sent := 0, clear := clear,
        panels := entryMask fun n => natBit targets n && rotaPanel c n }
    wrapFld (modCall c fun k => { k with frame := some f, due := true }) callSeqReg 0 16

/-- Every target that has a panel has acknowledged the frame (R764). -/
def frameAcked (f : CallFrame) : Bool := f.panels &&& f.acked == f.panels

/-- Send the frame in repetition once more. -/
def callTransmit (c : Chip) (f : CallFrame) : Chip :=
  let f1 := { f with sent := f.sent + 1 }
  callSend (modCall c fun k => { k with frame := if frameAcked f1 then none else some f1, due := false }) f.data

/-- CALL_FRAME_REPEAT: 250 ms have passed since the frame was last sent (R763 to R765). -/
def callFrameRepeat (c : Chip) : Chip :=
  match c.call.frame with
  | some f =>
    if c.call.due then c
    else if f.clear && decide (40 ≤ f.sent) then
      let left := f.targets - (f.targets &&& f.acked)
      modCall (setFld c 0x170018 0 16 (fld c 0x170018 0 16 ||| left)) fun k => { k with frame := none }
    else callTransmit c f
  | none => c

/-- ACCEPT: a frame of panel n offers an acceptance; the node acknowledges it (R766). -/
def callAcceptFrame (c : Chip) (n : Nat) (data : List Byte) : Chip :=
  let s := leNat ((padTo 8 data).drop 2 |>.take 2)
  let restart := natBit (byteAt data 1) 0
  let last := smGet (fun _ => none) c.call.last n
  let dup := !restart && (match last with
    | some l => decide ((l + 65536 - s) % 65536 < 64)
    | none => false)
  let c1 := if dup then c
    else modCall c fun k => { k with
      last := smPut (fun _ => none) k.last n (some s)
      accs := k.accs ++ [{ entry := byteAt data 4, cmd := none }] }
  callSend (modCall c1 fun k => { k with ackSent := some (n, s) }) (natLe 1 0x7F ++ natLe 1 0xFF ++ natLe 2 s)

/-- ACK: panel n acknowledges the frame in repetition (R764). -/
def callAckFrame (c : Chip) (n : Nat) (data : List Byte) : Chip :=
  match c.call.frame with
  | some f =>
    if leNat ((padTo 8 data).drop 2 |>.take 2) = f.seq ∧ c.call.due = false then
      let f1 := { f with acked := f.acked ||| 2 ^ n }
      modCall c fun k => { k with frame := if frameAcked f1 then none else some f1 }
    else c
  | none => c

/-- The call unit hears its controller: a frame of panel n (R760, R761). -/
def callFrameIn (c : Chip) (n : Nat) (data : List Byte) : Chip :=
  match byteAt data 0 with
  | 0x10 => callAcceptFrame c n data
  | 0x7F => callAckFrame c n data
  | _ => c

/-- May a panel's frame reach the call unit now? -/
def callHears (c : Chip) : Bool :=
  domOn c 24 && (match callCtrl c with | some n => canHears c n | none => false)

/-- ACCEPT of the opcode table: an ACCEPT frame arrives from the panel of entry n. -/
def acceptFrom (c : Chip) (n : Nat) (data : List Byte) : Chip :=
  if callHears c && byteAt data 0 == 0x10 then callAcceptFrame c n data else c

/-- ACK of the opcode table: an ACK frame arrives from the panel of entry n. -/
def ackFrom (c : Chip) (n : Nat) (data : List Byte) : Chip :=
  if callHears c && byteAt data 0 == 0x7F then callAckFrame c n data else c

/-! ## CAN controllers that hand frames to the call -/

/-- The panel whose frame this is, also while the ALARM domain is not ON (R760). -/
def callRange (c : Chip) (n : Nat) (r : CanRx) : Option Nat :=
  let s := c.call.set
  if callCtrl c = some n ∧ natBit r.fmt 0 = (s.fmt == 1) ∧ s.rxBase ≤ r.ident ∧ r.ident < s.rxBase + 16
  then some (r.ident - s.rxBase) else none

/-- Route a frame that was received (R933). -/
def takeFrame (c : Chip) (n : Nat) (r : CanRx) : Chip :=
  match callRange c n r with
  | some p => if domOn c 24 then callFrameIn c p r.data else c
  | none => routeFrame c n r

/-- FRAME_RECEIVED: a frame received without error (R933). An FD frame needs FD_EN (R942). -/
def frameReceived (c : Chip) (n : Nat) (r : CanRx) : Chip :=
  if !canHears c n || (natBit r.fmt 1 && !flag c (canCtl n) 2) then c else takeFrame (rxCounted c n) n r

/-- TX_OUTCOME; in LOOPBACK a controller receives its own frame (R925, R938). -/
def txOutcome (c : Chip) (n o ts : Nat) : Chip :=
  match (onBusBuf c n).bind fun b => canBuf c n b with
  | none => c
  | some x =>
    let c1 := canOutcome c n o ts
    if o = 0 ∧ (canSt c n).mode = 3 then
      takeFrame c1 n { fmt := x.fmt, ident := x.ident, dlc := x.dlc, data := x.data, ts := ts }
    else c1

/-! ## The evaluation of the call, phase 8 (R740 to R751) -/

/-- Does the alarm join the call (R740)? -/
def callJoins (c : Chip) (w : AWork) : Bool :=
  let o := tableOwner c 7
  w.hist.contains 1 && (decide (7 < o) || o == ownerOf c (pt 9 w.a)) && decide (w.k.prio ≤ rota c 2 1)
    && decide (w.k.group < 1024) && natBit (rota c (0x400 + w.k.group / 8) 1) (w.k.group % 8)

/-- Highest priority of some alarms: the least PRIO, 4 when there is none. -/
def callPrio (c : Chip) (as : List Nat) : Nat := as.foldl (fun m a => min m (almCfg c a).prio) 4

/-- The function that a CALL event goes to: of the owner of the call point it names (R295, R750).

DESIGN CHOICE: an event that names no call point goes to the owner of the rota (log 90). -/
def callFn (c : Chip) (e : Nat) : Nat := ownerFn (if e < 16 then ownerOf c (pt 11 e) else tableOwner c 7)

/-- A stage change: its CALL event with the duty engineer of the moment or, in ACCEPTED, the accepting entry, which keeps the function it was formed for (R316), its firing, its counts (R750). -/
def callStage (c : Chip) (stage : Nat) : Chip :=
  let k := c.call
  let e := if stage = 4 then k.accepted else (callDuty c).getD 0xFF
  let c1 := modCall c fun k => { k with
    stage := stage
    events := k.events ++ [{ fn := callFn c e, point := if e < 16 then pt 11 e else 0, stage := stage, entry := e,
                             frame := frameNum c, ot := c.ot }] }
  let c2 := if k.stage = 0 ∧ stage ≠ 0 then countFld c1 0x170014 0 16 else c1
  if stage = 2 ∨ stage = 3 then countFld c2 0x170014 16 16 else c2

/-- The CALL frame of the present stage (R761). -/
def callCallFrame (c : Chip) : Chip :=
  callFrame c false (c.call.stage + callPrio c c.call.marked * 16) c.call.targets c.call.first

/-- Enter a stage with its targets: timer 0 and a CALL frame. -/
def callEnter (c : Chip) (stage targets : Nat) : Chip :=
  callCallFrame (callStage (modCall c fun k => { k with timer := 0, targets := targets }) stage)

def callAllMask (c : Chip) : Nat := entryMask fun n => rotaRole c n == 1
def callBridgeMask (c : Chip) : Nat := entryMask fun n => rotaRole c n == 1 || rotaRole c n == 2

/-- First pass: new alarms. -/
def callPassJoin (c : Chip) (joins : List Nat) : Chip :=
  match joins with
  | [] => c
  | a :: _ =>
    let before := callPrio c c.call.marked
    let c1 := modCall c fun k => { k with marked := k.marked ++ joins.filter fun j => !k.marked.contains j }
    match c.call.stage with
    | 0 =>
      let c2 := modCall c1 fun k => { k with first := a, accepted := 0xFF }
      match callDuty c with
      | some d => callEnter c2 1 (2 ^ d)
      | none => callEnter c2 2 (callAllMask c)
    | 4 =>
      callEnter c1 1 (2 ^ c.call.accepted)
    | _ => if callPrio c1 c1.call.marked < before then callCallFrame c1 else c1

/-- A valid acceptance ends the calling (R748). -/
def callAccepted (c : Chip) (e : Nat) : Chip :=
  let t := c.call.targets
  callFrame (callStage (modCall c fun k => { k with accepted := e, targets := 0 }) 4) true e t 0

/-- Is an acceptance by an entry valid in the present stage (R744)? -/
def acceptValid (c : Chip) (e : Nat) : Bool :=
  let s := c.call.stage
  decide (e < 16) && ((rotaRole c e == 1 && decide (1 ≤ s) && decide (s ≤ 3)) || (rotaRole c e == 2 && s == 3))

/-- Second pass: one acceptance, with the status of the CALL_ACK that made it (R745). -/
def callAcceptOne (c : Chip) (x : CallAcc) : Chip :=
  let s := c.call.stage
  let valid := acceptValid c x.entry
  let c1 := if valid then callAccepted c x.entry else c
  match x.cmd with
  | none => c1
  | some (fn, sq, tag) =>
    let r : Nat × Nat := if valid then (stSuccess, 0) else if s = 1 ∨ s = 2 then (stWrongState, 0) else (stSuccess, 1)
    modAlm c1 fun m => { m with results := m.results ++ [(fn, sq, tag, r.1, r.2)] }

/-- Entries whose ACK_POINT the snapshot shows closed. -/
def callClosed (c : Chip) : List CallAcc :=
  ((List.range 16).filter fun n => rotaRole c n != 0 && rotaAckPoint c n != 0
    && decide (qwValue (snapQw c (rotaAckPoint c n)) = 1)).map fun n => { entry := n, cmd := none }

/-- Third pass: the OPEN test. -/
def callPassOpen (c : Chip) : Chip :=
  let k := c.call
  if k.marked.isEmpty = false ∨ k.stage = 0 then c
  else
    let c1 := callStage (modCall c fun k => { k with targets := 0 }) 0
    let c2 := if k.stage = 4 then c1 else callFrame c1 true 0xFF k.targets 0
    modCall c2 fun k => { k with accepted := 0xFF }

/-- Fourth pass: the timer. -/
def callPassTimer (c : Chip) : Chip :=
  if c.call.stage = 1 ∧ rota c 4 2 * 40000 ≤ c.call.timer then callEnter c 2 (callAllMask c)
  else if c.call.stage = 2 ∧ rota c 6 2 * 40000 ≤ c.call.timer then callEnter c 3 (callBridgeMask c)
  else c

/-- A call point's entry, or the rota's header, is unusable (R39). -/
def rotaBad (c : Chip) (n : Nat) : Bool := entryBad c 7 0 0x40 || entryBad c 7 (0x40 + n * 0x10) 0x10

/-- Words of the call points (R751), held where they depend on an unusable entry (R39); `live` says whether the outputs of
the targets are asserted with these words. -/
def callWords (c : Chip) (live : Bool) : List (Nat × Nat) :=
  (List.range 16).map fun n =>
    let tgt := natBit c.call.targets n
    (pt 11 n, wordOfNat (b2n (tgt && live) + 2 * b2n tgt + 4 * b2n (c.call.accepted == n)) + 2 * b2n (rotaBad c n))

/-- The call in phase 8: its chip, the words it forms and its firings. -/
def callPhase (c' : Chip) (ws : List AWork) : Chip × List Firing :=
  let c := callTake c'
  let now := c.seq.snapTime
  let k := c.call
  let c0 := if k.taken then setFld (modCall c fun k => { k with taken := false }) callSeqReg 0 16 (fld c callSeqReg 0 16 + 64)
    else c
  let run := decide (1 ≤ k.stage) && decide (k.stage ≤ 3)
  let c1 := modCall c0 fun k => { k with
    timer := if run then k.timer + (now - k.lastTime.getD now) else k.timer
    lastTime := some now }
  let n0 := c1.call.events.length
  let joins := (ws.filter (callJoins c1)).map fun w => w.a
  let c2 := callPassJoin c1 joins
  let c3 := (c2.call.accs ++ callClosed c2).foldl callAcceptOne (modCall c2 fun k => { k with accs := [] })
  let open_ (a : Nat) : Bool := ws.any fun w => w.a == a && (w.ent.state == 1 || w.ent.state == 3)
  let c4 := callPassTimer (callPassOpen (modCall c3 fun k => { k with marked := k.marked.filter open_ }))
  let c5 := modCall c4 fun k => { k with urgent := callPrio c4 k.marked == 0 }
  let changes := c5.call.events.length - n0
  let trig := rota c5 0xA 2
  (callCanCheck c5, if trig < 256 then List.replicate changes (trig, none) else [])

/-- Firings in order of trigger; within one trigger the alarms', by index, then the call's (R783). -/
def orderFirings (alm call : List Firing) : List Firing :=
  (alm ++ call).mergeSort fun a b => decide (a.1 ≤ b.1)

/-- A snapshot that is not evaluated: the timer does not run, and ACCEPT frames that came before it have no evaluation to be
applied in (R747, R756). A CALL_ACK waits for one (log 111). -/
def callIdle (c : Chip) : Chip :=
  modCall c fun k => { k with lastTime := none, accs := k.accs.filter fun x => x.cmd.isSome }

/-- The evaluation of the snapshot just taken, in a mode that evaluates alarms and with the ALARM domain
ON; `rd` reads a register for record items (R677). -/
def alarmEvaluation (rd : Chip → Nat → Nat) (c : Chip) : Chip :=
  if !(alarmsRun c && domOn c 24) then
    callIdle (modAlm c fun m => { m with stopped := true })
  else
    let (c1, ws, words) := almPhases c
    let (c2, calls) := callPhase c1 ws
    let all := words ++ callWords c2 true
    let (c3, seqs) := fireAllIn rd all (orderFirings (almFirings ws) calls) (c2, [])
    almFinish c3 (evalTime c) ws seqs all

/-- The outputs follow the call: asserted for the targets of its stage in a mode that drives calls, steady in an EMERGENCY,
with the polarity of its settings (R735, R752 to R754). -/
def callOutputs (c : Chip) : Chip :=
  modCall c fun k => { k with out := if alarmsRun c then k.targets else 0, steady := k.urgent, pol := k.set.pol }

/-- Publication of the call results: words, outputs, events of the frame that was evaluated, and the frame that is due
(R30, R247, R750, R753). -/
def callPublish (c : Chip) : Chip :=
  let c1 := match c.alm.words with
    | some _ => publishWords c [11] (callWords c (alarmsRun c))
    | none => c
  let c2 := modCall (callOutputs c1) fun k => { k with events := [] }
  let c3 := c.call.events.foldl (fun c e =>
    putEvents c e.fn (eventEntries 4 e.frame e.ot 0 (ptBytes e.point ++ natLe 1 e.stage ++ natLe 1 e.entry) [])) c2
  match c3.call.frame with
  | some f => if c3.call.due && nodeMode c3 != mMirror then callTransmit c3 f else c3
  | none => c3

/-- Level of ball CALLn: true is high (R752 to R755). Outside SAFE_HOLD it is as the last publication left it; in SAFE_HOLD
the polarity is that of the rota in force. -/
def callLevel (c : Chip) (n : Nat) : Bool :=
  if nodeMode c = mSafeHold then natBit (fld c 0x108 16 16) n != rotaPol c n
  else (domOn c 24 && natBit c.call.out n && (c.call.steady || decide (c.ot % 1024 < 512))) != natBit c.call.pol n

/-- The ALARM domain goes OFF: the call starts again, its outputs are inactive; a CALL_ACK that has begun waits for an
evaluation (R254; log 111). -/
def callDomainOff (c : Chip) : Chip :=
  callOutputs <| modCall (callIdle (callTake c)) fun k => { k with
    stage := 0, timer := 0, targets := 0, accepted := 0xFF, marked := [], frame := none, due := false,
    urgent := false, events := [], taken := false }

/-! ## CALL_ACK and registers -/

/-- Status of CALL_ACK before it begins (R743). -/
def callAckStatus (c : Chip) (entry : Nat) : Nat :=
  if 15 < entry ∨ rotaRole c (entry % 16) = 0 then stInvalidField
  else if !alarmsRun c then stWrongMode
  else stSuccess

def callAckBegin (c : Chip) (fn sq tag entry : Nat) : Chip :=
  modCall c fun k => { k with accs := k.accs ++ [{ entry := entry, cmd := some (fn, sq, tag) }] }

/-- Registers of the block: stage, targets and counts come from the call's state. -/
def callView (c : Chip) (off : Nat) : Option Nat :=
  match off with
  | 0x170004 => some (c.call.stage + b2n (flag c callStat 3) * 8 + (callDuty c).getD 0 % 16 * 16
      + (if c.call.accepted < 16 then c.call.accepted else 0) * 256 + c.call.targets * 2 ^ 16)
  | 0x17000C => some (min 65535 (c.call.timer / 40000))
  | 0x170010 => some (fld c callSeqReg 0 16 + min 65535 c.call.marked.length * 2 ^ 16)
  | _ => none

/-- Writes of the CALL block: CALL_DUTY that would name an entry whose ROLE is not 1 (R739). -/
def hookCall : Hook :=
  guarded (fun c w o => o == 0x170008 && w.off == o && natBits w.mask 4 4 + natBits w.mask 0 1 != 0 && rotaRole c (fld c o 4 4) != 1)
    (fun c _ _ => postError c 0x51 srcNode 0) hookNone

end Sys2Proof.Machine
end

