-- ==== Sys2Proof/Machine/Spt.lean ====
section
/-! DEFINITION. Status port: the mirror, its publication, its map and the port read (25_status_port). -/

namespace Sys2Proof.Machine

/-- A mapped word reads `QW(0 e0, bad)` before it is written; the first four words read 0. -/
def sptDef (w : Nat) : Nat := if w < 4 then 0 else qwNull

def sptGet (c : Chip) (w : Nat) : Nat := smGet sptDef c.spt.mirror w
def sptPut (c : Chip) (w v : Nat) : Chip := { c with spt := { c.spt with mirror := smPut sptDef c.spt.mirror w v } }

/-- An entry of the status port map at a base (R1077). -/
def sptKind (c : Chip) (base w : Nat) : Nat := tmem c (base + w * 8) 1
def sptPoint (c : Chip) (w : Nat) : Nat := tbl c 11 (w * 8 + 1) 3
def sptCount (c : Chip) (w : Nat) : Nat := tbl c 11 (w * 8 + 4) 1

/-- The mirror word of an address as the port reads it: the trip word and TRIP follow TRIP_ASSERTED (R1070). -/
def sptWord (c : Chip) (w : Nat) : Nat :=
  let trips := (reg c 0x13080C).toNat
  if w = 1 then trips
  else if w = 0 then setNatBits (sptGet c 0) 19 1 (b2n (trips != 0))
  else sptGet c w

/-- Fields of the summary word that a mode change writes (R1069). -/
def sptModeFields (c : Chip) (w : Nat) : Nat :=
  setNatBits (setNatBits (setNatBits w 0 4 (nodeMode c)) 4 3 (sdlRole c)) 7 1 (b2n (nodeMode c == mSafeHold))

/-- The summary word at a mode change (R1069). -/
def sptModeChange (c : Chip) : Chip := if domOn c 7 then sptPut c 0 (sptModeFields c (sptGet c 0)) else c

/-- UNACK and ACTIVE from the alarm state as it stands, for the state that the mirror set delivers (R1074). -/
def sptAlarmsNow (c : Chip) : Nat :=
  let es := (enabledAlarms c (tblBase c 6)).filterMap fun a => (smGet almDef c.alm.ents a).map fun e => ((almCfg c a).prio, e.state)
  let has (p : Nat) (acked : Bool) : Bool := es.any fun e => e.1 == p && (e.2 == 1 || (acked && e.2 == 2))
  ((List.range 4).map fun p => b2n (has p false) * 2 ^ p + b2n (has p true) * 2 ^ (4 + p)).sum

/-- The node summary word of a publication (R1067, R1068). -/
def sptSummary (c : Chip) : Nat :=
  let alm := if nodeMode c = mMirror then sptAlarmsNow c + natBits c.alm.summary 8 1 * 256 else c.alm.summary
  sptModeFields c 0 + natBits alm 0 8 * 2 ^ 8 + c.call.stage * 2 ^ 16 + natBits alm 8 1 * 2 ^ 20
    + b2n (fld c 0x190008 0 3 == 5) * 2 ^ 21 + fld c 0x1E000C 0 8 * 2 ^ 24

/-- The word that a mapped point takes: alarm and group words as just published, every other word from the
snapshot that the publication reports, which `old` still holds (R1072). -/
def sptPointWord (old c : Chip) (p : Nat) : Nat :=
  if pClass p = 0 then qwNull
  else if pClass p = 9 ∨ pClass p = 10 then (point c p).live
  else (point old p).snap

/-- One mapped address in ascending order (R1071, R1076). -/
def sptSweep (old : Chip) (base : Nat) (c : Chip) (w : Nat) : Chip :=
  match sptKind c base w with
  | 1 => sptPut c w (sptPointWord old c (sptPoint c w) % 2 ^ 32)
  | 2 => sptPut c w (sptPointWord old c (sptPoint c w) / 2 ^ 32)
  | 3 => sptPut c w ((sptGet c w + 2) % 2 ^ 32)
  | _ => c

/-- The mapped addresses of a copy: entries whose KIND byte is not 0. -/
def sptMapped (c : Chip) (base : Nat) : List Nat :=
  (c.tables.filterMap fun e =>
    if base + 32 ≤ e.1 ∧ e.1 < base + 0x8000 ∧ (e.1 - base) % 8 = 0 then some ((e.1 - base) / 8) else none)

/-- Step 5 of a boundary: the mirror takes what is published; `frame` is the frame whose snapshot it reports. The
length of the sweep is free, at most 20 µs (R1071). -/
def sptPublish (old : Chip) (c : Chip) (frame : Nat) : Chip :=
  let c1 := setReg c 0x1E000C (reg c 0x1E000C + 1)
  if !domOn c 7 then c1
  else
    let c2 := sptPut (sptPut c1 2 (frame % 2 ^ 32)) 0 (sptSummary c1)
    let base := tblBase c 11
    let c3 := (sptMapped c2 base).foldl (sptSweep old base) c2
    takeFree (setFld c3 0x1E0008 0 8 (Config.freeValue c3.free % 201))

/-- A map swap: unused addresses read `QW(0 e0, bad)`, a new SEQ word 0 (R1078, R1080). -/
def sptSwap (c : Chip) (oldBase newBase : Nat) : Chip :=
  let kept := (sptMapped c newBase)
  let c1 := { c with spt := { c.spt with mirror := smKeep (fun w => decide (w < 4) || kept.contains w) c.spt.mirror } }
  kept.foldl (fun c w => if sptKind c newBase w = 3 ∧ sptKind c oldBase w ≠ 3 then sptPut c w 0 else c) c1

/-- The SPORT_IO domain reaches ON (R1075); SEQ words start at 0, which is even. -/
def sptDomainOn (c : Chip) : Chip :=
  let base := tblBase c 11
  let c1 := { c with spt := { c.spt with mirror := [] } }
  let c2 := sptPut c1 0 (sptModeFields c1 0)
  (sptMapped c2 base).foldl (fun c w => if sptKind c base w = 3 then sptPut c w 0 else c) c2

/-- STATUS_PORT_READ: SP_D with SP_CS_N and SP_OE_N low; none is high impedance (R1062 to R1064). -/
def statusPortRead (c : Chip) (addr : Nat) : Chip :=
  { c with spt := { c.spt with data := if flag c 0x1E0004 0 && domOn c 7 && !starting c then some (sptWord c addr) else none } }

end Sys2Proof.Machine
end

