-- ==== Sys2Proof/Machine/Saddle.lean ====
section
/-! DEFINITION. Saddle link: frames, contact, events; the mirror set that the active unit takes and the
standby applies; what a standby brings to TAKEOVER (22_redundancy). -/

namespace Sys2Proof.Machine

def sdlStat : Nat := 0x1C0004
def sdlEvt : Nat := 0x1C0008
def modSdl (c : Chip) (f : SdlSt → SdlSt) : Chip := { c with sdl := f c.sdl }

/-- The link and the lease link are powered and in use; nothing is sent there during start-up (R147). -/
def sdlUp (c : Chip) : Bool := sdlEn c && domOn c 6 && !starting c

/-- SDL_CFG.UNIT: 0 unit A, 1 unit B. -/
def sdlUnit (c : Chip) : Nat := fld c 0x1C0000 1 1

/-- R983; a DEGRADED unit entered from MIRROR is not eligible (R140). -/
def sdlEligible (c : Chip) : Bool := sdlRole c == 2 && nodeMode c != mDegraded && (c.sdl.everHot || !c.sdl.metActive)

/-- Fields of the twin's SFLAGS as last received (R953). -/
def peerRole (c : Chip) : Nat := if c.sdl.heard then natBits c.sdl.peer 1 3 else 0
def peerHot (c : Chip) : Bool := c.sdl.heard && natBit c.sdl.peer 4
def peerEligible (c : Chip) : Bool := natBit c.sdl.peer 5
def peerLegsOff (c : Chip) : Bool := natBit c.sdl.peer 6

/-- SFLAGS of a frame that the node sends now (R953). -/
def sflagsNow (c : Chip) : Nat :=
  let r := sdlRole c
  sdlUnit c + (if r < 4 then r else 0) * 2 + b2n (r == 2 && c.sdl.sync == 2) * 16 + b2n (sdlEligible c) * 32
    + b2n ((List.range 12).all fun n => !legUp c n) * 64

/-! ## Frames (R953 to R960) -/

/-- Send a frame: it is outstanding until it is acknowledged (R956). -/
def sdlEmit (c : Chip) (f : SdlFrame) : Chip :=
  let seq := (c.sdl.txSeq + 1) % 2 ^ 32
  modSdl c fun s => { s with txSeq := seq, out := s.out ++ [{ f with seq := seq, sflags := sflagsNow c }] }

/-- Share of the link that RESYNC frames gain in a base tick of 25 µs, in 1/256 byte: RESYNC_BW of its 31,250 bytes
(R999). -/
def resyncShare (c : Chip) : Nat := max 1 (fld c 0x1C0000 8 8) * 31250

/-- A waiting RESYNC frame goes out, where it delays no other frame: none waits, none of its kind takes up the window,
and its share of the link is not used up (R999; log 105). -/
def resyncPump (c : Chip) : Chip :=
  match c.sdl.resync with
  | f :: fs =>
    if c.sdl.queue.isEmpty && decide (c.sdl.out.length < 64) && decide (0 ≤ c.sdl.share) && c.sdl.out.all (fun g => g.type != 0x30) then
      sdlEmit (modSdl c fun s => { s with resync := fs, share := s.share - (256 * (20 + f.data.length) : Nat) }) f
    else c
  | [] => c

/-- Send what waits while fewer than 64 frames are outstanding (R960). -/
def sdlPump (c : Chip) : Chip :=
  let n := 64 - c.sdl.out.length
  resyncPump ((c.sdl.queue.take n).foldl sdlEmit (modSdl c fun s => { s with queue := s.queue.drop n }))

/-- Send a frame, or let it wait behind 64 outstanding ones; a RESYNC frame waits behind every other. -/
def sdlSend (c : Chip) (type set : Nat) (data : List Byte) : Chip :=
  if sdlUp c then
    let f : SdlFrame := { type := type, sflags := 0, seq := 0, set := set, data := data }
    sdlPump (modSdl c fun s => if type = 0x30 then { s with resync := s.resync ++ [f] } else { s with queue := s.queue ++ [f] })
  else c

/-- A base tick: the share of RESYNC frames grows, up to that of one tick, and one that waited for it goes out. -/
def resyncTick (c : Chip) : Chip :=
  if c.sdl.resync.isEmpty then c
  else resyncPump (modSdl c fun s => { s with share := min (resyncShare c) (s.share + resyncShare c) })

/-- SYNC: outstanding frames are discarded and SYNC goes before any other frame (R962). -/
def sdlSync (c : Chip) : Chip := sdlSend (modSdl c fun s => { s with out := [], queue := [], resync := [] }) 2 0 []

/-- Cut a list into pieces of at most `n`. -/
def cutList {α : Type} (n : Nat) : Nat → List α → List (List α)
  | 0, _ => []
  | k + 1, xs => if xs.isEmpty then [] else xs.take n :: cutList n k (xs.drop n)

def cutAll {α : Type} (n : Nat) (xs : List α) : List (List α) := cutList n (xs.length + 1) xs

/-- Records that wait go out in RECORD frames of at most 31 (R954, R969, R971). -/
def sdlFlushRecs (c : Chip) : Chip :=
  if sdlUp c && c.sdl.contact then
    (cutAll 31 c.sdl.recs).foldl (fun c rs => sdlSend c 0x20 0 (rs.flatMap recBytes)) (modSdl c fun s => { s with recs := [] })
  else c

/-- HEARTBEAT_TIMER: 50 µs have passed without a frame to send (R955). A unit whose role is NONE sends nothing. -/
def heartbeatTimer (c : Chip) : Chip :=
  if sdlUp c && decide (1 ≤ sdlRole c) && decide (sdlRole c ≤ 3) then
    if c.sdl.contact && !c.sdl.recs.isEmpty then sdlFlushRecs c
    else if c.sdl.queue.isEmpty && decide (c.sdl.out.length < 64) then sdlSend c 1 0 []
    else sdlPump c
  else c

/-- SADDLE_RETRANSMIT: ACK has not advanced for 20 µs; every outstanding frame is resent unchanged (R960). -/
def saddleRetransmit (c : Chip) : Chip :=
  if sdlUp c && !c.sdl.out.isEmpty then countFld c 0x1C0010 0 16 else c

/-- A bit of SDL_EVT sets (R1006). -/
def sdlEvent (c : Chip) (bit : Nat) : Chip :=
  postErrorSev (setFlag c sdlEvt bit true) 0x78 (codeSev 0x78) srcNode bit ([0, 2, 4, 5, 6, 8, 9].contains bit)

/-- SYNC as SDL_STAT shows it; HOT and REFUSED are events (R997, R1006). -/
def setSync (c : Chip) (s : Nat) : Chip :=
  if c.sdl.sync = s then c
  else
    let c1 := modSdl c fun x => { x with sync := s }
    if s = 2 then sdlEvent c1 7 else if s = 4 then sdlEvent c1 8 else c1

/-! ## The mirror set (R963 to R968)

The content of a MIRROR frame is internal to the node. DESIGN CHOICE: an item is a key and an integer, 8 bytes
each; the key holds a kind, an index and a sub-field. -/

def mkey (kind i sub : Nat) : Nat := kind * 2 ^ 56 + i * 2 ^ 8 + sub

/-- Bytes of an item. -/
def itemBytes (x : Nat × Int) : List Byte := natLe 8 x.1 ++ natLe 8 (unsigned 64 x.2)

/-- Items of a frame. -/
def itemsOf (data : List Byte) : List (Nat × Int) :=
  (cutAll 16 data).map fun bs => (leNat (bs.take 8), signed 64 (leNat (bs.drop 8)))

def mloops (c : Chip) : List (Nat × Int) :=
  ((List.range 128).filter (loopEn c)).flatMap fun l =>
    let x := loopSt c l
    [(mkey 1 l 0, (b2n (loopAuto c l) : Nat)), (mkey 1 l 1, x.sp), (mkey 1 l 2, ((reg c (loopBase l + 0x1C)).toNat : Nat)),
     (mkey 1 l 3, ((reg c (loopBase l + 0x18)).toNat : Nat)), (mkey 1 l 4, (x.word : Nat)), (mkey 1 l 5, x.iAcc)]

def msubsts (c : Chip) : List (Nat × Int) :=
  (c.points.filter fun e => e.2.subst).flatMap fun e => [(mkey 2 e.1 0, (e.2.live : Nat)), (mkey 2 e.1 1, (e.2.flags : Nat))]

/-- Alarm items; a time that is not running is absent (R964). -/
def malarms (c : Chip) : List (Nat × Int) :=
  let t := evalTime c
  (enabledAlarms c (tblBase c 6)).flatMap fun a =>
    match smGet almDef c.alm.ents a with
    | none => []
    | some e =>
      let k := almCfg c a
      let xs : List (Nat × Int) :=
        [(mkey 3 a 0, (e.state : Int)), (mkey 3 a 1, ((b2n e.c + 2 * b2n e.cd + 4 * b2n e.s : Nat) : Int)), (mkey 3 a 2, t - e.cAt),
         (mkey 3 a 3, (c.ot : Int) - (e.cOt : Int)), (mkey 3 a 4, (c.ot : Int) - (e.crossOt : Int)), (mkey 3 a 5, (e.cross : Int)),
         (mkey 3 a 6, (k.cond : Int)), (mkey 3 a 7, (k.src : Int)), (mkey 3 a 8, (k.ref : Int))]
      xs ++ (e.shelve.toList.map fun s => (mkey 3 a 9, s - t))
        ++ (e.vref.toList.flatMap fun v => [(mkey 3 a 10, (v.1 : Int)), (mkey 3 a 11, t - v.2)])

def mplane (c : Chip) : List (Nat × Int) :=
  let t := evalTime c
  (c.alm.edges.filterMap fun e => e.2.map fun x => (mkey 4 e.1 0, t - x))
    ++ ((enabledGroups c (tblBase c 6)).map fun g => (mkey 5 g 0, ((reg c (foReg g)).toNat : Int)))
    ++ (c.alm.entries.zipIdx.flatMap fun (e, i) => [(mkey 6 i 0, (e.1 : Int)), (mkey 6 i 1, t - e.2)])
    ++ ((List.range 9).map fun o => (mkey 7 o 0, ((reg c (floodCfg o + 8)).toNat : Int)))

def mcall (c : Chip) : List (Nat × Int) :=
  let k := c.call
  [(mkey 8 0 0, (k.stage : Int)), (mkey 8 0 1, (k.targets : Int)), (mkey 8 0 2, (k.timer : Int)), (mkey 8 0 3, (fld c callSeqReg 0 16 : Int)),
   (mkey 8 0 4, (k.accepted : Int)), (mkey 8 0 6, (k.first : Int))]
    ++ (k.marked.zipIdx.map fun (a, i) => (mkey 9 i 0, (a : Int)))
    ++ (k.last.filterMap fun e => e.2.map fun s => (mkey 10 e.1 0, (s : Int)))

def mouts (c : Chip) : List (Nat × Int) :=
  ((List.range 48).flatMap fun ch =>
    let x := cell c ch
    [(mkey 11 ch 0, (x.mode : Int)), (mkey 11 ch 2, (b2n (cellFlag c ch 0) : Int)), (mkey 11 ch 3, (fld c (cellBase ch + 0x24) 0 2 : Int))]
      ++ x.last.toList.map fun d => (mkey 11 ch 1, (d : Int)))
    ++ ((List.range 12).flatMap fun n => [(mkey 12 n 0, (legState c n : Int)), (mkey 12 n 1, (leg c n).duty)])

/-- Edge count of a pulse input (R563). -/
def piCount (c : Chip) (m : Nat) : Nat :=
  (reg c (0x130414 + m * 0x20)).toNat + (reg c (0x130418 + m * 0x20)).toNat * 2 ^ 32

def setPiCount (c : Chip) (m x : Nat) : Chip :=
  setReg (setReg c (0x130414 + m * 0x20) (BitVec.ofNat 32 x)) (0x130418 + m * 0x20) (BitVec.ofNat 32 (x / 2 ^ 32 % 2 ^ 16))

/-- All items of a set taken now (R963). -/
def mirrorItems (c : Chip) : List (Nat × Int) :=
  mloops c ++ msubsts c ++ malarms c ++ mplane c ++ mcall c ++ mouts c
    ++ ((List.range 16).map fun m => (mkey 13 m 0, (piCount c m : Int))) ++ [(mkey 14 0 0, ((reg c 0x18000C).toNat : Int))]
    ++ (c.sdl.told.map fun x => (mkey 15 x.1 0, (x.2 : Int)))

/-- Send a set: its MIRROR frames of at most 254 items, then COMMIT (R954, R963, R969). -/
def sendSet (c : Chip) : Chip :=
  let n := c.sdl.setNum + 1
  let frames := cutAll 254 (mirrorItems c)
  let c1 := sdlFlushRecs (modSdl c fun s => { s with setNum := n % 2 ^ 32, told := [] })
  let c2 := frames.foldl (fun c xs => sdlSend c 0x10 (n % 2 ^ 32) (xs.flatMap itemBytes)) c1
  sdlSend c2 0x11 (n % 2 ^ 32) (natLe 4 frames.length ++ natLe 8 (frameNum c))

/-- FRAME_LEN of the scan table in force. -/
def frameLen (c : Chip) : Nat := fld c 0x40004 0 9

/-- MIRROR_SET_TAKE: the active unit takes a set at frame numbers that are multiples of ceil(40 / FRAME_LEN). -/
def takeSet (c : Chip) : Chip :=
  if sdlRole c = 1 ∧ c.sdl.contact = true ∧ frameNum c % ceilDiv 40 (max 1 (frameLen c)) = 0 then sendSet c else c

/-- An item of a set. -/
def mget (xs : List (Nat × Int)) (kind i sub : Nat) : Option Int :=
  (xs.find? fun x => x.1 == mkey kind i sub).map fun x => x.2

def mnat (xs : List (Nat × Int)) (kind i sub : Nat) : Nat := ((mget xs kind i sub).getD 0).toNat

/-- Items of a kind and a sub-field 0, by index. -/
def mlist (xs : List (Nat × Int)) (kind : Nat) : List (Nat × Int) :=
  xs.filterMap fun x => if x.1 / 2 ^ 56 = kind ∧ x.1 % 256 = 0 then some (x.1 / 256 % 2 ^ 48, x.2) else none

/-- Loops as delivered (R639); a loop that is not enabled here takes nothing (R1115), nor one while the CTRL domain is not
ON: there is no loop state (R638). -/
def applyLoops (xs : List (Nat × Int)) (c : Chip) (l : Nat) : Chip :=
  match mget xs 1 l 0 with
  | some a =>
    if !loopEn c l || !domOn c 23 then c
    else
      let w := mnat xs 1 l 4
      let c1 := setFlag c (loopStat l) 0 (a == 1)
      let c2 := setReg (setReg c1 (loopBase l + 0x1C) (BitVec.ofNat 32 (mnat xs 1 l 2))) (loopBase l + 0x18) (BitVec.ofNat 32 (mnat xs 1 l 3))
      let i := (mget xs 1 l 5).getD 0
      modLoop (setInt c2 l i) l fun x => { x with
        fresh := false, sp := (mget xs 1 l 1).getD 0, word := w, iAcc := i, uLast := outQ15 c l (qw32Of w) }
  | none => c

/-- One alarm as delivered; in a mixed station whose defining fields differ, its condition starts anew (R964, R1115). -/
def mirroredAlarm (xs : List (Nat × Int)) (c : Chip) (a : Nat) : Option AlarmEnt :=
  let t := evalTime c
  match mget xs 3 a 0 with
  | none => none
  | some st =>
    let b := mnat xs 3 a 1
    let k := almCfg c a
    let same := k.cond = mnat xs 3 a 6 ∧ k.src = mnat xs 3 a 7 ∧ k.ref = mnat xs 3 a 8
    let e : AlarmEnt :=
      { state := st.toNat, c := natBit b 0, cd := natBit b 1, s := natBit b 2, cAt := t - (mget xs 3 a 2).getD 0,
        cOt := ((c.ot : Int) - (mget xs 3 a 3).getD 0).toNat, crossOt := ((c.ot : Int) - (mget xs 3 a 4).getD 0).toNat,
        shelve := (mget xs 3 a 9).map fun s => t + s,
        vref := (mget xs 3 a 10).map fun w => (w.toNat, t - (mget xs 3 a 11).getD 0),
        cross := mnat xs 3 a 5, ev := none, pend := 0, pendFo := false, pendRec := none, pendOt := none }
    some (if same then e else { e with c := false, cd := false, cAt := t, cOt := c.ot, vref := none })

/-- The alarm plane as delivered (R728). -/
def applyAlarms (xs : List (Nat × Int)) (c : Chip) : Chip :=
  let t := evalTime c
  let base := tblBase c 6
  let ents := (enabledAlarms c base).foldl (fun m a => smPut almDef m a (mirroredAlarm xs c a)) []
  let keys := (edgesOf c base).map edgeKey
  let edges := (mlist xs 4).foldl (fun m e => if keys.contains e.1 then smPut edgeDef m e.1 (some (t - e.2)) else m) []
  let entries := (mlist xs 6).map fun e => (e.2.toNat, t - (mget xs 6 e.1 1).getD 0)
  let c1 := modAlm c fun m => { m with ents := ents, edges := edges, entries := entries, evalAt := t }
  let c2 := (enabledGroups c base).foldl (fun c g =>
    match mget xs 5 g 0 with | some v => setReg c (foReg g) (BitVec.ofNat 32 v.toNat) | none => c) c1
  (mlist xs 7).foldl (fun c e => setFlag c (floodCfg e.1 + 8) 0 (natBit e.2.toNat 0)) c2

/-- The call as delivered (R757, R964). -/
def applyCall (xs : List (Nat × Int)) (c : Chip) : Chip :=
  let c1 := modCall c fun k => { k with
    stage := mnat xs 8 0 0, targets := mnat xs 8 0 1, timer := mnat xs 8 0 2, accepted := mnat xs 8 0 4,
    first := mnat xs 8 0 6, marked := (mlist xs 9).map fun e => e.2.toNat,
    last := (mlist xs 10).foldl (fun m e => smPut (fun _ => none) m e.1 (some e.2.toNat)) [], lastTime := none }
  setFld (modCall c1 fun k => { k with urgent := callPrio c1 k.marked == 0 }) callSeqReg 0 16 (mnat xs 8 0 3)

/-- MIRROR_SET_APPLY: the standby applies every item of a complete set in one cycle (R965, R968). -/
def applySet (c : Chip) (frame : Nat) (xs : List (Nat × Int)) : Chip :=
  let c1 := (List.range 128).foldl (applyLoops xs) c
  let c2 := if domOn c 24 then applyCall xs (applyAlarms xs c1) else c1
  let diff := (mlist xs 13).foldl (fun m e => smPut (fun _ => (0 : Int)) m e.1 (e.2 - (piCount c e.1 : Nat))) []
  modSdl c2 fun s => { s with
    applied := some (frame, c.seq.snapTime), items := xs, pulseDiff := diff, ready := none
    swaps := s.swaps ++ (mlist xs 15).map fun e => (e.1, e.2.toNat) }

/-- A complete set that waits is applied at the boundary. -/
def applyReady (c : Chip) : Chip :=
  match c.sdl.ready with
  | some (f, xs) => if sdlRole c = 2 then applySet c f xs else modSdl c fun s => { s with ready := none }
  | none => c

/-! ## What TAKEOVER starts from (R591, R592, R968, R973, R989, R990, R992) -/

/-- A cell is taken into its mode under R495 with the mirrored last demand. -/
def takeoverCell (xs : List (Nat × Int)) (c : Chip) (ch : Nat) : Chip :=
  let m := fld c (cellBase ch) 0 2
  let c1 := match mget xs 11 ch 0 with
    | some _ =>
      let k := setFlag (modCell c ch fun x => { x with last := (mget xs 11 ch 1).map Int.toNat }) (cellStat ch) 0 (mget xs 11 ch 2 == some 1)
      drive k ch (entryDemand k ch)
    | none => c
  if m = 0 ∨ !domOn c (cellDom ch) then c1
  else requestOp (modCell c1 ch fun x => { x with mode := 0, tgt := some m }) (bankStepReq ch)

/-- A point that the set shows substituted is substituted again. -/
def takeoverSubst (xs : List (Nat × Int)) (c : Chip) (x : Nat × Int) : Chip :=
  if pointValid x.1 then
    let c1 := setPoint c x.1 { point c x.1 with live := x.2.toNat, flags := mnat xs 2 x.1 1, subst := true }
    demandPoint c1 x.1 x.2.toNat
  else c

/-- Legs that the set shows ARMED. -/
def mirroredArmed (xs : List (Nat × Int)) : Nat := maskOf ((List.range 12).filter fun n => mget xs 12 n 0 == some 2)

/-- The last applied set is more than 100 ms, 4,000 base ticks, old (R990). -/
def setIsStale (c : Chip) : Bool :=
  match c.sdl.applied with
  | some (_, t) => decide (4000 < c.seq.snapTime - t)
  | none => false

/-- Mirrored state becomes the unit's own at entry to TAKEOVER. -/
def takeoverState (c : Chip) : Chip :=
  let xs := c.sdl.items
  match c.sdl.applied with
  | some _ =>
    let c1 := (mlist xs 2).foldl (takeoverSubst xs) c
    let c2 := (mlist xs 13).foldl (fun c e => setPiCount c e.1 ((piCount c e.1 : Int) + smGet (fun _ => 0) c.sdl.pulseDiff e.1).toNat) c1
    let c3 := setReg c2 0x18000C (BitVec.ofNat 32 (mnat xs 14 0 0 + 1024))
    let c4 := if domOn c3 23 then (List.range 128).foldl (fun c l => modLoop c l fun x => { x with xfer := true }) c3 else c3
    modCall (modAlm c4 fun m => { m with stopped := false }) fun k => { k with taken := true }
  | none =>
    -- R989
    let c1 := startLoops c
    if domOn c 24 then callDomainOff (almDomainOff c1) else c1

/-- The cells of the incoming unit; legs wait for R993. -/
def takeoverOutputs (c : Chip) : Chip :=
  let xs := c.sdl.items
  modSdl ((List.range 48).foldl (takeoverCell xs) c) fun s => { s with arm := mirroredArmed xs }

/-- Every loop-output demand has been applied: no cell's step waits or runs (R992, R994). -/
def outputsApplied (c : Chip) : Bool := (List.range 48).all fun ch => (cell c ch).tgt.isNone

/-- TAKEOVER_LEG_ARM: LEGS_OFF came, or 50 µs without contact have passed (R592, R993). -/
def takeoverLegArm (c : Chip) : Chip :=
  if nodeMode c = mTakeover ∧ (peerLegsOff c = true ∨ c.sdl.contact = false) then
    let xs := c.sdl.items
    let c1 := (List.range 12).foldl (fun c n =>
      if natBit c.sdl.arm n then
        let c1 := if isFollower c n then c else setDuty c n ((mget xs 12 n 1).getD 0)
        armLeg (setFlag c1 (legBase n + 0x10) 0 true) n
      else c) c
    modSdl c1 fun s => { s with arm := 0 }
  else c

/-! ## Lease frames (R974) -/

/-- CRC-16, polynomial 0x1021: one byte taken into the register, eight shifts. -/
def crc16Bits : Nat → Nat → Nat
  | 0, x => x
  | n + 1, x => crc16Bits n (if natBit x 15 then (x * 2 % 65536) ^^^ 0x1021 else x * 2 % 65536)

def crc16 (bs : List Byte) : Nat := bs.foldl (fun x b => crc16Bits 8 (x ^^^ (b.toNat * 256))) 0xFFFF

/-- A lease frame. -/
def leaseFrame (type unit lflags rseq lease wait : Nat) : List Byte :=
  let body := natLe 1 type ++ natLe 1 unit ++ natLe 1 lflags ++ natLe 1 0 ++ natLe 4 rseq ++ natLe 4 lease ++ natLe 2 wait
  body ++ natLe 2 (crc16 body)

/-- A received lease frame of a type: 16 bytes, reserved byte 0, CRC correct. -/
def leaseOk (data : List Byte) (type : Nat) : Bool :=
  data.length == 16 && byteAt data 0 == type && leNat (data.drop 14) == crc16 (data.take 14)

def lfUnit (data : List Byte) : Nat := byteAt data 1
def lfFlags (data : List Byte) : Nat := byteAt data 2
def lfRseq (data : List Byte) : Nat := leNat ((data.drop 4).take 4)
def lfLease (data : List Byte) : Nat := leNat ((data.drop 8).take 4)
def lfWait (data : List Byte) : Nat := leNat ((data.drop 12).take 2)

def sendLease (c : Chip) (port : Nat) (data : List Byte) : Chip :=
  if sdlUp c then modSdl c fun s => { s with leaseTx := smPut (fun _ => []) s.leaseTx port data } else c

/-- RELEASE: the lease is given up (R987, R1003). -/
def sendRelease (c : Chip) : Chip :=
  modSdl (sendLease c 0 (leaseFrame 4 (sdlUnit c) 0 c.sdl.rseq 0 0)) fun s => { s with lease := none }

/-! ## Registers -/

/-- Valid lease held (R977). -/
def leaseHeld (c : Chip) : Bool := c.sdl.lease.isSome

/-- µs left of the valid lease: base ticks tell it within 25 µs, and the rest is free. -/
def leaseLeft (c : Chip) : Nat :=
  match c.sdl.lease with
  | some (_, g) => 1000 - 25 * (c.seq.g - g) - Config.freeValue c.free % 25
  | none => 0

def sdlView (c : Chip) (off : Nat) : Option Nat :=
  match off with
  | 0x1C0004 => some (sdlRole c + b2n c.sdl.contact * 8 + b2n (leaseHeld c) * 16 + b2n (sdlEligible c) * 32 + c.sdl.sync * 64
      + peerRole c % 8 * 512 + fld c sdlStat 12 1 * 4096
      + (match c.sdl.applied with | some (f, _) => min 65535 (frameNum c - f) | none => 0) * 65536)
  | 0x1C0014 => some (leaseLeft c % 2048 + c.sdl.leaseNum % 65536 * 65536)
  | 0x1C0020 => some (if nodeMode c = mArbiter then
      c.sdl.holder.getD 3 + (match c.sdl.guard with | some g => b2n (decide (c.seq.g < g + 10)) | none => 0) * 4 + c.sdl.leaseNum % 2 ^ 24 * 256
    else 0)
  | 0x1C0024 => if nodeMode c = mArbiter then none else some 0
  | _ => none

end Sys2Proof.Machine
end

