-- ==== Sys2Proof/Machine/Modes.lean ====
section
/-! DEFINITION. Operating modes: requests, transitions and what entering a mode does
(04_modes_startup_images). -/

namespace Sys2Proof.Machine

def modMode (c : Chip) (f : ModeSt → ModeSt) : Chip := { c with mode := f c.mode }

/-- Frames run in a mode: every mode but OFF, HIBERNATE, SENTRY and SAFE_HOLD (R129, R1181). -/
def framesMode (m : Nat) : Bool := decide (3 ≤ m) && decide (m ≤ 10)

/-- Loops run in a mode (R129, R637). -/
def loopsMode (m : Nat) : Bool := [mRun, mMirror, mTakeover, mDegraded, mService].contains m

/-- Outputs are live in a mode (R129). -/
def liveMode (m : Nat) : Bool := [mRun, mTakeover, mDegraded, mService].contains m

/-- MODE event to the keeper (R249). -/
def modeEvent (c : Chip) : Chip :=
  postEvent c 0 9 0 (natLe 1 (nodeMode c) ++ natLe 1 (fld c 0x100 4 4) ++ natLe 1 (fld c 0x100 8 8))

/-- MODE record (R775). -/
def modeRecord (c : Chip) : Chip := nodeRec c 4 0 [(reg c 0x100).toNat]

/-- NODE_MODE_REQ.STATUS. -/
def setReqStatus (c : Chip) (s : Nat) : Chip := setFld c 0x104 8 3 s

/-- An automatic transition is taken while a request is pending (R139). -/
def preempt (c : Chip) : Chip :=
  let c1 := if c.mode.req.isSome then setReqStatus c 4 else c
  modMode c1 fun m => { m with req := none, auto := none }

/-- The sentry lane takes the sentry entries of the scan table in force (R367). -/
def sentryCopy (c : Chip) : Chip :=
  { c with seq := { c.seq with sentry := sentryEntries c, woke := false } }

/-- A domain enters its sentry state; a bank's work ends but for its sentry cells (R123, R127, R128). -/
def domToSentry (c : Chip) (n : Nat) : Chip :=
  let c1 := setDom (releaseSurge (dropReq c (.domain n)) (.domain n)) n .sentry
  if 8 ≤ n ∧ n ≤ 15 then afeDomainOff c1 (n - 8) else c1

/-- SEQ, SRAM and the banks with a sentry point enter sentry state, and both PLLs stop (R123, R124, R128). -/
def sentryDomains (c : Chip) : Chip := ([26, 28] ++ sentryBanks c).foldl domToSentry (pllStop c)

/-- Entry to SENTRY: the domain states, once no bank has a channel to hand back (R465).

DEDUCED: R465 lets a bank complete phases E and F before rotation stops, so its power does not change before (log 124). -/
def sentryEnter (c : Chip) : Chip := if (List.range 8).any (spareReturning c) then c else sentryDomains c

/-- A bank's work, and what waited for it to hand a channel back: SENTRY's domain states, or the turn-off of the bank's
domain (R92, R123, R465). -/
def bankWork (f : Chip → Chip) (c : Chip) : Chip :=
  let c1 := f c
  if (List.range 8).any fun b => spareReturning c b && !spareReturning c1 b then
    retarget (if nodeMode c1 == mSentry && domOn c1 26 && !leavesSentry c1 26 then sentryEnter c1 else c1)
  else c1

/-- Stages that the new mode does not drive leave service (R129, R529, R543, R590, R943). -/
def modeLeave (old m : Nat) (c : Chip) : Chip :=
  let c1 := if liveMode m then c else legsOff c allLegs 1
  let c2 := if liveMode m || m == mSafeHold then c1 else (List.range 48).foldl cellToOpen c1
  let c3 := if old = mService ∧ m ≠ mService then clearForces c2 else c2
  let c4 := if (old = mRun ∨ old = mService) ∧ m ≠ mRun ∧ m ≠ mService then capturesLeave c3 else c3
  let c5 := if transmitLive c4 then c4 else (List.range 48).foldl (fun c ch => endFsk c ch stWrongState) c4
  let c6 := callCanCheck (canNodeMode c5)
  if loopsMode m && m != mMirror then c6 else { c6 with evq := [] }

/-- Legs that depend on an unusable entry have their gates low in DEGRADED (R129). -/
def degradedLegs (c : Chip) : Chip := legsOff c (maskOf ((List.range 12).filter fun n => outBad c (pt 6 n))) 11

/-- The return from SENTRY: the channels of each bank that kept its power settle, as those of a bank that wakes do (R374,
R433). -/
def sentryLeft (c : Chip) : Chip :=
  (List.range 128).foldl (fun c ch => if afeOn c (ch / 16) then startSettle c ch else c) c

/-- A change of mode: in a mode without frames no publication follows, and SAFE_HOLD ends at once (R129, R753, R755). -/
def callModeChange (old m : Nat) (c : Chip) : Chip :=
  if m ≠ mSafeHold ∧ (framesMode m = false ∨ old = mSafeHold) then callOutputs c else c

/-- What starts in the new mode (R123, R150, R151, R367, R374, R636, R637, R979). -/
def modeStart (old m : Nat) (c : Chip) : Chip :=
  let ca := if old = mSentry then sentryLeft c else c
  let c0 := if liveMode m then { ca with gate := false } else ca
  let c1 := if (m = mRun ∨ m = mService) ∧ loopsMode old = false then startLoops c0 else c0
  let c2 := if liveMode m && !liveMode old && m != mTakeover then cellsGoLive c1 else c1
  if m = mService then loopsToManual c2
  else if m = mTakeover then takeoverOutputs (takeoverState c2)
  else if m = mMirror then
    modSdl (modAlm c2 fun x => { x with stopped := true }) fun s =>
      { s with applied := none, items := [], ready := none, rxCount := 0, rxItems := [], sync := 0 }
  else if m = mDegraded then degradedLegs c2
  else if m = mArbiter then modSdl c2 fun s => { s with holder := none, guard := none, holdoff := true }
  else if m = mSentry then sentryEnter (sentryCopy c2)
  else c2

/-- Domains that are ON, in their sentry state or not.

DESIGN CHOICE: a domain in sentry state counts as ON at entry of SAFE_HOLD (log 79). -/
def onAtEntry (c : Chip) : Nat := domMask c .on + domMask c .sentry + domMask c .sentryWaiting

/-- Change the node's mode (R140): rotation and the status port follow (R458, R1069), domains follow their targets (R137). Cells that
were not live at entry to SAFE_HOLD hold their open state there (R131, R132). -/
def enterMode (c : Chip) (m cause : Nat) : Chip :=
  let old := nodeMode c
  let role := sdlRole c
  let on := onAtEntry c
  let c1 := setReg c 0x100 (BitVec.ofNat 32 (m + old * 16 + cause * 256))
  let c2 := modSdl (modMode c1 fun x => { x with
      frames := framesMode m
      resumed := x.resumed || (framesMode m && !framesMode old)
      entryOn := if m = mTakeover ∨ m = mSafeHold then on else x.entryOn
      heldOpen := m == mSafeHold && !liveMode old }) fun s => { s with role := if m = mDegraded then role else s.role, swb := if m = mMirror then s.swb else 0 }
  sptModeChange (retarget (unrefuse (rotationChecks (callModeChange old m (modeStart old m (modeLeave old m c2)))) (2 ^ 30 - 1)))

/-- A transition that the node takes at once. -/
def modeAtOnce (c : Chip) (m cause : Nat) : Chip := enterMode (preempt c) m cause

/-- Every domain that a mode forces is ON (R135). -/
def forcedAreOn (c : Chip) (m : Nat) : Bool :=
  (List.range 30).all fun n => !natBit (forcedOn c m) n || domOn c n

/-- Entry to SAFE_HOLD (R131 to R133, R140, R987). -/
def enterSafeHold (c : Chip) (cause : Nat) : Chip :=
  let m := nodeMode c
  if m = mOff ∨ m = mHibernate ∨ m = mSafeHold then c
  else
    let c1 := modeAtOnce c mSafeHold cause
    let c2 := modeRecord (postError c1 0x1C srcNode cause)
    if sdlUp c2 && c2.sdl.contact then
      modSdl (sendRelease (sdlSend c2 0x40 0 [])) fun s => { s with quiet := true }
    else c2

/-- SAFE_HOLD_OPEN: the twin reports TAKEOVER complete, or 4 ms have passed with contact to a healthy twin (R132). -/
def safeHoldOpen (c : Chip) : Chip :=
  if nodeMode c = mSafeHold ∧ c.sdl.contact = true ∧ sdlEn c = true ∧ peerRole c ≠ 3 then
    (List.range 48).foldl cellToOpen (modMode c fun x => { x with heldOpen := true })
  else c

/-! ## Requests (R134 to R141) -/

/-- Targets that R140 allows from a mode. -/
def reqTargets (m : Nat) : List Nat :=
  match m with
  | 3 => [mRun, mService, mTest, mSentry, mHibernate, mOff, mMirror, mArbiter]
  | 4 => [mScan, mService, mSentry, mMirror]
  | 5 | 7 | 10 | 11 => [mScan]
  | 9 => [mRun, mScan]
  | 8 => [mScan, mService]
  | 2 => [mScan, mRun]
  | _ => []

/-- STATUS with which a request is refused, 0 when it is accepted (R140, R141, R948, R951).

DESIGN CHOICE: from SAFE_HOLD the answer is 5 whenever CCLK runs from the fast RC, also after a start that failed there;
R140 names the fast RC after R104 (log 82). -/
def reqRefusal (c : Chip) (t : Nat) : Nat :=
  if !(reqTargets (nodeMode c)).contains t then 3
  else if nodeMode c = mSafeHold ∧ flag c 0x18000 6 = true then 5
  else if (t = mMirror ∨ t = mArbiter) ∧ sdlEn c = false then 5
  else if t = mService ∧ sdlRole c = 1 then 5
  else if t = mSentry ∧ tbl c 3 6 1 = 0 then 5
  else 0

/-- Submit a request (R138). -/
def submitMode (c : Chip) (t : Nat) : Chip :=
  let r := reqRefusal c t
  let c1 := modMode c fun x => { x with req := if r = 0 then some t else none }
  retarget (setReqStatus (if r = 0 then unrefuse c1 (forcedOn c1 t) else c1) (if r = 0 then 1 else r))

/-- NODE_MODE_REQ: GO submits MODE; a reserved code refuses the submission (R138, R196). -/
def hookModeReq : Hook := fun w c =>
  let c1 := setFlag c 0x104 31 false
  if w.hit 31 then
    if w.badCode then retarget (setReqStatus (modMode c1 fun x => { x with req := none }) 3)
    else submitMode c1 (fld c1 0x104 0 4)
  else c1

def modeRequest (c : Chip) (fn : Fn) (v : Word) (be : BitVec 4) : Chip := writeWord hookModeReq c fn 0x104 v be

/-- Leave for a domain that a pending request forces was withdrawn (R136). -/
def reqLeaveLost (c : Chip) (n : Nat) : Chip :=
  match c.mode.req with
  | some t => if natBit (forcedOn c t) n then retarget (setReqStatus (modMode c fun x => { x with req := none }) 5) else c
  | none => c

/-- A mode change that waits takes effect as the first slot of a frame begins (R134, R135, R139, R140). -/
def modeEffect (c : Chip) : Chip :=
  match c.mode.auto with
  | some (m, cause) =>
    if forcedAreOn c m then
      let c1 := enterMode (preempt c) m cause
      if cause = 2 then modeEvent (modeRecord c1) else c1
    else c
  | none =>
    match c.mode.req with
    | some m =>
      if forcedAreOn c m then enterMode (setReqStatus (modMode c fun x => { x with req := none }) 2) m 1 else c
    | none => c

/-- Frames stand still, and the mode change that waits can take effect: the sequencer makes a boundary
(R140, R1181). -/
def boundaryWakes (c : Chip) : Bool :=
  (nodeMode c == mSafeHold || nodeMode c == mSentry)
    && (match c.mode.auto with
        | some (m, _) => forcedAreOn c m
        | none => match c.mode.req with
          | some m => forcedAreOn c m
          | none => false)

/-! ## DEGRADED (R39, R140) -/

/-- Points that depend on an unusable entry carry quality held (R39). -/
def holdDependents (c : Chip) : Chip :=
  let c1 := (List.range (scanEntries c)).foldl (fun c i =>
    let set := entryBad c 4 (setOff (entArg c i % 65536)) 0x100
    if scanBad c i || (entOp c i == 1 && set) then writeHeld c (entPoint c i) (point c (entPoint c i)).flags else c) c
  (List.range 128).foldl (fun c l =>
    if loopEn c l && loopBad c l then
      writeHeld (writeHeld c (loopPt l) (point c (loopPt l)).flags) (outPoint c l) (point c (outPoint c l)).flags
    else c) c1

/-- A word of the copy in force of a table, at a BAR1 offset, cannot be used (R39, R140). -/
def tableFails (c : Chip) (code a : Nat) : Chip :=
  let c1 := holdDependents (modMode c fun x => { x with
      badTables := code :: x.badTables.filter fun k => k != code
      badWords := a :: x.badWords.filter fun w => w != a })
  let m := nodeMode c
  if m = mRun ∨ m = mService ∨ m = mMirror then retarget (modMode c1 fun x => { x with auto := some (mDegraded, 4) })
  else if m = mDegraded then degradedLegs c1 else c1

/-- The keeper has reloaded a table; with the last one the node returns to PREV. -/
def tableReloaded (c : Chip) (code : Nat) : Chip :=
  if c.mode.badTables.contains code then
    let c1 := modMode c fun x => { x with
      badTables := x.badTables.filter fun k => k != code
      badWords := x.badWords.filter fun w =>
        match tableAt w with
        | some d => d.code != code
        | none => false }
    if c1.mode.badTables.isEmpty && nodeMode c == mDegraded then
      retarget (modMode c1 fun x => { x with auto := some (fld c 0x100 4 4, 5) })
    else c1
  else c

/-- A sentry or wake event in SENTRY: the node wakes the domains of PREV and enters it (R140, R373). -/
def sentryWake (c : Chip) : Chip :=
  if nodeMode c = mSentry then retarget (modMode c fun x => { x with auto := some (fld c 0x100 4 4, 2) }) else c

end Sys2Proof.Machine
end

