-- ==== Sys2Proof/Machine/Twin.lean ====
section
/-! DEFINITION. The twin: received Saddle frames, promotion and demotion, the lease, the arbiter, records of
the twin, resynchronisation and switch-back (22_redundancy, with SDL_UPD of 27). -/

namespace Sys2Proof.Machine

/-! ## Records of the twin (R969 to R973) -/

/-- A record from its 128 bytes (R772). -/
def recOf (bs : List Byte) : Rec :=
  let f (o n : Nat) : Nat := leNat ((bs.drop o).take n)
  { items := (List.range (min 24 (f 111 1))).map fun i => f (i * 4) 4, seq := f 96 4, ot := f 100 5, pcc := f 105 3,
    source := f 108 2, type := f 110 1, lastOt := f 112 5, repeatN := f 118 2, rgen := f 120 2, aux := f 122 2 }

/-- A mirrored record enters the image and NVM at the slot of its SEQ; nothing is delivered (R970). -/
def storeMirrored (c : Chip) (r : Rec) : Chip :=
  let slot := r.seq % 32768
  let c1 := freshPage (setReg (setImage (overwrite c r) slot (some r)) 0x18000C
    (BitVec.ofNat 32 (max (reg c 0x18000C).toNat (r.seq + 1)))) r.seq
  let kept := match smGet imgDef c1.rcd.ring slot with
    | some q => q.seq == r.seq && q.pcc == r.pcc
    | none => false
  if !kept && pairClosed c1 r.seq then programPair c1 r.seq else programTail c1 r.seq

/-- A record of the standby is formed here, with this unit's SEQ, OT and PCC (R971). -/
def formForTwin (c : Chip) (r : Rec) : Chip :=
  let r1 := mkRec c r.source r.type c.ot r.aux r.items
  if recOff c then loseFiring c
  else if recHolds c then holdFormed c r1
  else if r.source = 0x103 then coalesceOr c r1 (faultWindow c) 1
  else enterRec c r1 0

/-! ## Promotion and demotion (R983 to R990) -/

/-- A condition of R984 other than the lease, in MIRROR (R140). -/
def promoteReady (c : Chip) : Bool :=
  nodeMode c == mMirror && sdlEligible c
    && (!c.sdl.contact || c.sdl.gone || (peerRole c == 2 && (sdlUnit c == 0 || !peerEligible c)))

/-- Every output has its demand: TAKEN goes to the twin, and RUN follows at the next frame (R140, R994). -/
def takeoverCheck (c : Chip) : Chip :=
  if nodeMode c = mTakeover ∧ outputsApplied c = true ∧ c.mode.auto = none then
    sdlSend (modMode c fun x => { x with auto := some (mRun, 3) }) 0x42 0 []
  else c

/-- PROMOTION (R984). A set completed in the same cycle is applied first (R967). The length of the switch-over
is measured in µs that the node's commands do not carry: it is free. -/
def promote (c : Chip) (same : Bool) : Chip :=
  if promoteReady c && leaseHeld c then
    let c0 := if same then applyReady c else c
    let stale := setIsStale c0
    let mine := c0.sdl.recs
    let c1 := modeAtOnce (modSdl c0 fun s => { s with recs := [], handed := false, ready := none }) mTakeover 3
    let c2 := mine.foldl formForTwin (modeRecord c1)
    let c3 := if stale then modeRecord (setFlag c2 sdlStat 12 true) else c2
    let c4 := countFld (setFld c3 0x1C0018 0 16 (Config.freeValue c3.free % 65536)) 0x1C0018 16 16
    takeoverCheck (modeEvent (sdlEvent (takeFree c4) 4))
  else c

/-- Complete the switch-back command. -/
def endSwitchback (c : Chip) (status : Nat) : Chip :=
  completeWhere c (fun _ i => i.what == .switchback) fun _ _ => (status, 0)

/-- DEMOTION and LEASE_GATE: a unit whose role is ACTIVE has neither lease nor contact (R985, R986). -/
def demoteCheck (c : Chip) : Chip :=
  if sdlRole c = 1 ∧ leaseHeld c = false ∧ c.sdl.contact = false then
    let c1 := modeAtOnce { c with gate := true } mMirror 3
    let c2 := modeEvent (sdlEvent (sdlEvent (modeRecord c1) 5) 9)
    endSwitchback (modSdl c2 fun s => { s with swb := 0 }) stAborted
  else c

/-! ## Resynchronisation (R997 to R1001, R1112 to R1117)

The content of RESYNC frames is internal to the node. DESIGN CHOICE: the first four bytes are a kind: 1 identity of
the standby, 2 identity of the active unit, 3 request for the tables, 4 bytes of a table, 5 SEQs of some slots,
6 records, 7 refusal, 8 a table that is about to be swapped. Its swap is an item of the next set. -/

def sdlMixed (c : Chip) : Bool := flag c 0x1C0028 1
def setMixed (c : Chip) (b : Bool) : Chip := setFlag c 0x1C0028 1 b

def sendResync (c : Chip) (kind : Nat) (body : List Byte) : Chip := sdlSend c 0x30 0 (natLe 4 kind ++ body)

/-- REASON, STEP and PROGRESS of SDL_RESYNC. -/
def setResync (c : Chip) (reason step : Nat) : Chip := setReg c 0x1C001C (BitVec.ofNat 32 (reason + step * 16))
def resyncStep (c : Chip) : Nat := fld c 0x1C001C 4 4

/-- NODE_STEPPING.MAJOR. -/
def stepMajor (c : Chip) : Nat := fld c 4 8 8

/-- IMAGE_CRC of the loaded image; 0 for the factory image. -/
def loadedCrc (c : Chip) : Nat :=
  match fld c 0x120 0 2 with
  | 1 => memNat erasedByte c.nvm 0x3FFF0C 4
  | 2 => memNat erasedByte c.nvm 0x7FFF0C 4
  | _ => 0

/-- The Basin leaves R998 free to start: it is not admitted, or it has at most 16,384 units. -/
def resyncSmall (c : Chip) : Bool := !basinUp c || decide (fld c 0x190010 0 20 ≤ 16384)

def identity (c : Chip) : List Byte :=
  natLe 4 (stepMajor c) ++ natLe 4 (loadedCrc c) ++ natLe 4 (b2n (flag c 0x1C0028 0) + 2 * b2n (resyncSmall c))

/-- Resynchronisation begins. -/
def beginResync (c : Chip) : Chip := sendResync (setSync (modSdl (setResync c 0 1) fun s => { s with tables := [] }) 1) 1 (identity c)

/-- Start by itself, or wait for SDL_RESYNC (R998). -/
def resyncAuto (c : Chip) (small : Bool) : Chip :=
  if flag c 0x1C0000 2 && small then beginResync c else setResync c 3 0

/-- The listed bytes of a copy of a table, as 8-byte items of place and value; the first frame empties the
copy that receives them. -/
def tableFrames (c : Chip) (kind : Nat) (d : TableDesc) (copy : Nat) : List (List Byte) :=
  let base := copyBase d copy
  let cells := c.tables.filterMap fun e => if base ≤ e.1 ∧ e.1 < base + d.half then some (e.1 - base, e.2) else none
  (natLe 4 kind ++ natLe 4 (d.code + 256))
    :: (cutAll 500 cells).map fun xs => natLe 4 kind ++ natLe 4 d.code ++ xs.flatMap fun x => natLe 4 x.1 ++ natLe 4 x.2.toNat

/-- Send a table to the twin. -/
def sendTable (kind : Nat) (c : Chip) (d : TableDesc) : Chip :=
  (tableFrames c kind d (activeCopy c d)).foldl (fun c bs => sdlSend c 0x30 0 bs) c

/-- Bytes of a table arrive for the inactive copy. -/
def takeTable (c : Chip) (body : List Byte) : Chip :=
  let w := leNat (body.take 4)
  match tableDesc (w % 256) with
  | none => c
  | some d =>
    let base := copyBase d (1 - activeCopy c d)
    let c1 := if 256 ≤ w then { c with tables := memClear c.tables base d.half } else c
    let c2 := (cutAll 8 (body.drop 4)).foldl (fun c x =>
      let o := leNat (x.take 4)
      if o < d.used then { c with tables := memWrite tblDef c.tables (base + o) [x.getD 4 0] } else c) c1
    modSdl c2 fun s => { s with tables := d.code :: s.tables.filter fun k => k != d.code }

/-- The SEQs that the standby holds, 1,000 slots a frame; 0 stands for an empty slot (step 3 of R997). -/
def sendHeldSeqs (c : Chip) : Chip :=
  (List.range 33).foldl (fun c k =>
    let lo := k * 1000
    let n := min 1000 (32768 - lo)
    sendResync c 5 (natLe 4 lo ++ (List.range n).flatMap fun i =>
      natLe 4 (match recImage c (lo + i) with | some r => r.seq + 1 | none => 0))) c

/-- The active unit sends the records of those slots that the standby lacks. -/
def sendLacking (c : Chip) (body : List Byte) : Chip :=
  let lo := leNat (body.take 4)
  let held := (cutAll 4 (body.drop 4)).map leNat
  let rs := (held.zipIdx).filterMap fun (h, i) =>
    (recImage c (lo + i)).bind fun r => if r.seq + 1 = h then none else some r
  (cutAll 31 rs).foldl (fun c xs => sendResync c 6 (xs.flatMap recBytes)) c

/-- A swap of the twin's table is pending here (R997 step 2, R1000). -/
def pendTable (c : Chip) (code : Nat) : Chip :=
  match tableDesc code with
  | some d => setFlag c d.stat 1 true
  | none => c

/-- SYNC becomes REFUSED with a reason. -/
def refuseSync (c : Chip) (reason : Nat) : Chip := setSync (setResync c reason 0) 4

/-- RESYNC_STEP_END (R997, R1112 to R1114). -/
def resyncStepEnd (c : Chip) : Chip :=
  if sdlRole c = 2 ∧ c.sdl.sync = 1 then
    match resyncStep c with
    | 1 => match c.sdl.twinId with
      | none => c
      | some (major, crc, allow, _) =>
        if major ≠ stepMajor c then refuseSync c 1
        else if crc ≠ loadedCrc c ∧ allow = false then refuseSync c 2
        else
          let c1 := if crc = loadedCrc c then setMixed c false else c
          if allow then sendHeldSeqs (setResync c1 0 3) else sendResync (setResync c1 0 2) 3 []
    | 2 =>
      if tableDescs.all fun d => c.sdl.tables.contains d.code then
        sendHeldSeqs (setResync ((tableDescs.map fun d => d.code).foldl pendTable c) 0 3)
      else c
    | 3 => setResync (modSdl c fun s => { s with applied := none, items := [] }) 0 4
    | 4 =>
      if c.sdl.applied.isSome then
        let c1 := setSync (setResync (modSdl c fun s => { s with everHot := true }) 0 0) 2
        match c.sdl.twinId with
        | some (_, crc, _, _) => if crc = loadedCrc c then c1 else setMixed c1 true
        | none => c1
      else c
    | _ => c
  else c

/-- The identity of the standby reaches the active unit. -/
def takeRequest (c : Chip) (body : List Byte) : Chip :=
  let crc := leNat ((body.drop 4).take 4)
  let c1 := modSdl c fun s => { s with twinId := some (leNat (body.take 4), crc, false, false) }
  sendResync (if crc = loadedCrc c then setMixed c1 false else c1) 2 (identity c)

/-- The identity of the active unit reaches the standby. -/
def takeIdentity (c : Chip) (body : List Byte) : Chip :=
  let w := leNat ((body.drop 8).take 4)
  let c1 := modSdl c fun s => { s with twinId := some (leNat (body.take 4), leNat ((body.drop 4).take 4), natBit w 0, natBit w 1) }
  if c.sdl.sync = 0 ∨ c.sdl.sync = 3 then resyncAuto c1 (natBit w 1) else c1

/-- An accepted RESYNC frame. -/
def takeResync (c : Chip) (data : List Byte) : Chip :=
  let body := data.drop 4
  let standby := sdlRole c == 2
  match leNat (data.take 4) with
  | 1 => if sdlRole c = 1 then takeRequest c body else c
  | 2 => if standby then takeIdentity c body else c
  | 3 => if sdlRole c = 1 then tableDescs.foldl (sendTable 4) c else c
  | 4 => if standby && c.sdl.sync == 1 then takeTable c body else c
  | 5 => if sdlRole c = 1 then sendLacking c body else c
  | 6 => if standby then (cutAll 128 body).foldl (fun c bs => storeMirrored c (recOf bs)) c else c
  | 7 => if standby then refuseSync c 2 else c
  | 8 => if standby && c.sdl.sync == 2 then takeTable c body else c
  | _ => c

/-- A swap that the active unit submits goes to a HOT standby, unless the station is mixed (R1000, R1116). -/
def shareSwap (c : Chip) (code : Nat) : Chip :=
  match tableDesc code with
  | some d =>
    if sdlRole c = 1 ∧ c.sdl.contact = true ∧ peerHot c = true ∧ sdlMixed c = false then
      (tableFrames c 8 d (1 - activeCopy c d)).foldl (fun c bs => sdlSend c 0x30 0 bs) c
    else c
  | none => c

/-- The frame carries content of a table to be swapped. -/
def isSwapFrame (code : Nat) (f : SdlFrame) : Bool :=
  f.type == 0x30 && leNat (f.data.take 4) == 8 && leNat ((f.data.drop 4).take 4) % 256 == code

/-- The swap waits until the standby has accepted the content (R1000). -/
def swapHeld (c : Chip) (code : Nat) : Bool :=
  sdlRole c == 1 && c.sdl.contact && peerHot c && !sdlMixed c
    && (c.sdl.out.any (isSwapFrame code) || c.sdl.resync.any (isSwapFrame code))

/-- The active unit tells its standby that a table was swapped at this boundary. -/
def tellSwap (c : Chip) (code : Nat) : Chip :=
  if sdlRole c = 1 ∧ c.sdl.contact = true ∧ peerHot c = true ∧ sdlMixed c = false then
    modSdl c fun s => { s with told := s.told ++ [(code, frameNum c)] }
  else c

/-- At a boundary of the standby: swaps whose set has been applied become pending. -/
def swapsDue (c : Chip) : Chip :=
  match c.sdl.applied with
  | some (f, _) =>
    let due := c.sdl.swaps.filter fun s => decide (s.2 ≤ f)
    (due.map fun s => s.1).foldl pendTable (modSdl c fun s => { s with swaps := s.swaps.filter fun x => decide (f < x.2) })
  | none => c

/-- ALLOW: written 0 while the station is mixed, the standby's SYNC becomes REFUSED (R1117). -/
def hookSdlUpd : Hook := fun w c =>
  if natBit w.mask 0 && !flag c 0x1C0028 0 && sdlMixed c then
    if sdlRole c = 2 then refuseSync c 2 else if sdlRole c = 1 then sendResync c 7 [] else c
  else c

def allowWrite (c : Chip) (fn : Fn) (v : Word) (be : BitVec 4) : Chip := writeWord hookSdlUpd c fn 0x1C0028 v be

/-! ## Received frames (R957 to R962, R965, R966, R984, R995) -/

/-- The unit gains contact (R962, R1006). -/
def contactGain (c : Chip) : Chip := sdlEvent (sdlSync (modSdl c fun s => { s with contact := true })) 1

/-- An acknowledgement arrives: frames it covers are no longer outstanding; one sent since contact was lost gives
contact (R960, R961). -/
def ackIn (c : Chip) (ack : Nat) : Chip :=
  let a := (ack + 2 ^ 32 - c.sdl.mark) % 2 ^ 32
  let b := (c.sdl.txSeq + 2 ^ 32 - c.sdl.mark) % 2 ^ 32
  if 1 ≤ a ∧ a ≤ b then
    let c1 := modSdl c fun s => { s with out := s.out.filter fun f => decide (2 ^ 31 ≤ (ack + 2 ^ 32 - f.seq) % 2 ^ 32) }
    if c.sdl.contact then sdlPump c1 else contactGain c1
  else c

/-- The twin's SFLAGS from an accepted frame; a standby that meets an active twin asks for its identity. -/
def peerUpdate (c : Chip) (flags : Nat) : Chip :=
  let r := natBits flags 1 3
  let c1 := modSdl c fun s => { s with
    peer := flags, heard := true, gone := s.gone && r != 1, metActive := s.metActive || (s.contact && r == 1) }
  if sdlRole c1 = 1 then
    if natBit flags 4 && c1.sdl.sync != 2 then
      let c2 := setSync c1 2
      match c2.sdl.twinId with
      | some (_, crc, _, _) => if crc = loadedCrc c2 then c2 else setMixed c2 true
      | none => c2
    else if !natBit flags 4 && c1.sdl.sync == 2 then setSync c1 1 else c1
  else if sdlRole c1 = 2 ∧ r = 1 ∧ c1.sdl.contact = true ∧ c1.sdl.idSent = false then
    sendResync (modSdl c1 fun s => { s with idSent := true }) 1 (identity c1)
  else c1

/-- LEN is a multiple of 4 of at most 4,064 (R953). -/
def sdlLenOk (data : List Byte) : Bool := data.length % 4 == 0 && Nat.ble data.length 4064

/-- SEQ − LAST mod 2^32. -/
def seqAhead (seq last : Nat) : Nat := (seq + 2 ^ 32 - last) % 2 ^ 32

/-- A received frame: its CRC, its acknowledgement, its SEQ; an accepted frame acts (R957 to R962). -/
def receive (c : Chip) (h : SaddleHdr) (data : List Byte) (sync : Bool) (act : Chip → Chip) : Chip :=
  if !(sdlUp c && h.crcOk && sdlLenOk data) then c
  else
    let c1 := ackIn c h.ack.toNat
    let d := seqAhead h.seq.toNat c1.sdl.last
    if sync || d == 1 then act (peerUpdate (modSdl c1 fun s => { s with last := h.seq.toNat }) h.sflags.toNat)
    else if d == 0 || natBit d 31 then countFld c1 0x1C000C 0 16
    else countFld c1 0x1C000C 16 16

def rxHeartbeat (c : Chip) (h : SaddleHdr) (data : List Byte) : Chip := receive c h data false fun c => promote c false
def rxSync (c : Chip) (h : SaddleHdr) (data : List Byte) : Chip := receive c h data true fun c => promote c false

/-- MIRROR: items of one set. -/
def takeMirror (c : Chip) (set : Nat) (data : List Byte) : Chip :=
  if sdlRole c = 2 then
    modSdl c fun s =>
      if s.rxSet = set ∧ s.rxCount ≠ 0 then { s with rxCount := s.rxCount + 1, rxItems := s.rxItems ++ itemsOf data }
      else { s with rxSet := set, rxCount := 1, rxItems := itemsOf data }
  else c

def rxMirror (c : Chip) (h : SaddleHdr) (data : List Byte) : Chip :=
  receive c h data false fun c => promote (takeMirror c h.set.toNat data) true

/-- COMMIT: a complete set waits for the boundary; an incomplete one is dropped (R965, R966). -/
def takeCommit (c : Chip) (set : Nat) (data : List Byte) : Chip :=
  if sdlRole c = 2 then
    let n := leNat (data.take 4)
    let whole := n = c.sdl.rxCount ∧ (n = 0 ∨ c.sdl.rxSet = set)
    let c1 := modSdl c fun s => { s with rxCount := 0, rxItems := [] }
    if whole then modSdl c1 fun s => { s with ready := some (leNat ((data.drop 4).take 8), c.sdl.rxItems) }
    else countFld c1 0x1C0010 16 16
  else c

def rxCommit (c : Chip) (h : SaddleHdr) (data : List Byte) : Chip :=
  receive c h data false fun c => promote (takeCommit c h.set.toNat data) true

/-- RECORD: stored by the standby, formed by the active unit (R970, R971). -/
def takeRecords (c : Chip) (data : List Byte) : Chip :=
  let rs := (cutAll 128 data).map recOf
  if sdlRole c = 2 then rs.foldl storeMirrored c else if sdlRole c = 1 then rs.foldl formForTwin c else c

def rxRecord (c : Chip) (h : SaddleHdr) (data : List Byte) : Chip :=
  receive c h data false fun c => promote (takeRecords c data) false
def rxResync (c : Chip) (h : SaddleHdr) (data : List Byte) : Chip :=
  receive c h data false fun c => promote (takeResync c data) false

/-- FAILED of the twin. -/
def rxFailed (c : Chip) (h : SaddleHdr) (data : List Byte) : Chip :=
  receive c h data false fun c => promote (sdlEvent (modSdl c fun s => { s with gone := true }) 6) false

/-- HANDOVER of the active twin. -/
def rxHandover (c : Chip) (h : SaddleHdr) (data : List Byte) : Chip :=
  receive c h data false fun c => promote (modSdl c fun s => { s with gone := true }) false

/-- The outgoing unit enters MIRROR and completes its switch-back (R1003, R1004). -/
def leaveActive (c : Chip) (status : Nat) : Chip :=
  let c1 := modeAtOnce (modSdl c fun s => { s with swb := 0, handed := true }) mMirror 3
  endSwitchback c1 status

/-- TAKEN: a unit in SAFE_HOLD opens its cells; a unit handing over becomes the standby (R995, R1003). -/
def takeTaken (c : Chip) : Chip :=
  if nodeMode c = mSafeHold then (List.range 48).foldl cellToOpen (modMode c fun x => { x with heldOpen := true })
  else if c.sdl.swb = 2 ∧ sdlRole c = 1 then leaveActive c stSuccess
  else c

def rxTaken (c : Chip) (h : SaddleHdr) (data : List Byte) : Chip := receive c h data false takeTaken

/-- CONTACT_LOSS: 1,000 µs without contact (R961, R984, R985). -/
def contactLoss (c : Chip) : Chip :=
  if c.sdl.contact then
    let c1 := sdlEvent (modSdl c fun s => { s with
      contact := false, mark := s.txSeq, idSent := false, twinId := none, rxCount := 0, rxItems := [], swaps := [] }) 0
    let c2 := if c.sdl.sync = 1 ∨ c.sdl.sync = 2 then setSync c1 3 else c1
    promote (demoteCheck c2) false
  else c

/-! ## The lease (R975 to R977) -/

/-- LEASE_REQUEST_TIMER (R975, R987, R988). -/
def leaseRequestTimer (c : Chip) : Chip :=
  let r := sdlRole c
  let sends := r == 1 || r == 2 || (r == 3 && !c.sdl.contact && !c.sdl.quiet)
  if sdlUp c && sends then
    let take := r != 2 || promoteReady c
    let n := (c.sdl.rseq + 1) % 2 ^ 32
    let f := b2n take + b2n (sdlEligible c) * 2 + b2n (r == 3) * 4
    sendLease (modSdl c fun s => { s with
      rseq := n, waitUs := 250, asked := (s.asked.filter fun a => decide (c.seq.g < a.2.2 + 40)) ++ [(n, take, c.seq.g)] })
      0 (leaseFrame 1 (sdlUnit c) f n 0 0)
  else c

/-- The request that an answer names. -/
def askedOf (c : Chip) (data : List Byte) : Option (Nat × Bool × Nat) := c.sdl.asked.find? fun a => a.1 == lfRseq data

def dropAsked (c : Chip) (data : List Byte) : Chip :=
  modSdl c fun s => { s with asked := s.asked.filter fun a => a.1 != lfRseq data }

/-- LEASE_GRANT (R977, R984). -/
def leaseGranted (c : Chip) (data : List Byte) : Chip :=
  if sdlUp c && leaseOk data 2 then
    match askedOf c data with
    | none => c
    | some (_, _, g) =>
      if g + 40 ≤ c.seq.g then dropAsked c data
      else
        let n := lfLease data
        let c1 := modSdl (dropAsked c data) fun s => { s with lease := some (n, g), leaseNum := n }
        promote (if n ≠ c.sdl.leaseNum then sdlEvent c1 3 else c1) false
  else c

/-- LEASE_DENY (R976). -/
def leaseDenied (c : Chip) (data : List Byte) : Chip :=
  if sdlUp c && leaseOk data 3 then
    match askedOf c data with
    | some (_, take, _) =>
      modSdl (dropAsked c data) fun s => { s with waitUs := if take then min 250 (lfWait data) else s.waitUs }
    | none => c
  else c

/-- LEASE_EXPIRY: the lease runs out, or 1,000 µs have passed without an answer (R977, R985). -/
def leaseExpiry (c : Chip) : Chip :=
  if c.sdl.lease.isSome then demoteCheck (sdlEvent (modSdl c fun s => { s with lease := none }) 2)
  else if !c.sdl.asked.isEmpty then sdlEvent (modSdl c fun s => { s with asked := [] }) 2
  else c

/-! ## The arbiter (R978 to R982) -/

/-- A guard of 250 µs, 10 base ticks, follows the end of a lease. -/
def arbGuard (c : Chip) : Bool :=
  match c.sdl.guard with
  | some g => decide (c.seq.g < g + 10)
  | none => false

/-- GRANT of the arbiter. -/
def arbGrant (c : Chip) (port : Nat) (data : List Byte) : Chip :=
  sendLease (modSdl c fun s => { s with holder := some (lfUnit data) }) port
    (leaseFrame 2 (lfUnit data) 0 (lfRseq data) c.sdl.leaseNum 0)

/-- LEASE_REQUEST: answered with GRANT or DENY. WAIT of a DENY is a time that the commands do not carry: it is free,
and 0 where a grant could be made now (R974, R978, R980, R982). -/
def leaseRequested (c : Chip) (port : Nat) (data : List Byte) : Chip :=
  if nodeMode c = mArbiter ∧ sdlUp c = true ∧ leaseOk data 1 = true ∧ lfUnit data < 2 then
    let free := c.sdl.holder.isNone && !arbGuard c
    if !c.sdl.holdoff && c.sdl.holder == some (lfUnit data) then arbGrant c port data
    else if !c.sdl.holdoff && free && natBit (lfFlags data) 0 && natBit (lfFlags data) 1 then
      arbGrant (countFld (modSdl c fun s => { s with leaseNum := (s.leaseNum + 1) % 2 ^ 32 }) 0x1C0024 0 16) port data
    else
      let wait := if free && !c.sdl.holdoff then 0 else Config.freeValue c.free % 65536
      takeFree (sendLease (countFld c 0x1C0024 16 16) port (leaseFrame 3 (lfUnit data) 0 (lfRseq data) c.sdl.leaseNum wait))
  else c

/-- The arbiter's count of a lease ends and the guard begins. -/
def arbEnd (c : Chip) : Chip := modSdl c fun s => { s with holder := none, guard := some c.seq.g }

/-- The LEASE_REQUESTs that arrive in one cycle: where both could be granted, unit A is (R981), so that of unit A is
answered first. -/
def leaseRequests (c : Chip) (at_ : LeaseAt) (data : List Byte) : Chip :=
  match at_ with
  | .port p => leaseRequested c p.val data
  | .both other =>
    if lfUnit data = 0 then leaseRequested (leaseRequested c 0 data) 1 other
    else leaseRequested (leaseRequested c 1 other) 0 data

/-- LEASE_RELEASE (R979). -/
def leaseReleased (c : Chip) (_port : Nat) (data : List Byte) : Chip :=
  if nodeMode c = mArbiter ∧ sdlUp c = true ∧ leaseOk data 4 = true ∧ c.sdl.holder = some (lfUnit data) then arbEnd c else c

/-- ARBITER_LEASE_END: 1,000 µs after the last GRANT (R979). -/
def arbiterLeaseEnd (c : Chip) : Chip := if nodeMode c = mArbiter ∧ c.sdl.holder.isSome = true then arbEnd c else c

/-- ARBITER_HOLDOFF_END (R982). -/
def arbiterHoldoffEnd (c : Chip) : Chip :=
  if nodeMode c = mArbiter then modSdl c fun s => { s with holdoff := false } else c

/-! ## Commands (R1001 to R1005) -/

/-- SDL_RESYNC: the chip after it, its status and RESULT. -/
def sdlResync (c : Chip) : Chip × Nat × Nat :=
  if !(sdlRole c == 2 && c.sdl.contact && peerRole c == 1) then
    if sdlRole c = 2 ∧ c.sdl.sync = 2 then (c, stSuccess, 1) else (c, stWrongState, 0)
  else if c.sdl.sync = 1 ∨ c.sdl.sync = 2 then (c, stSuccess, 1)
  else (beginResync c, stSuccess, 0)

/-- SDL_SWITCHBACK before it begins: status and RESULT; none when it begins. -/
def switchbackStatus (c : Chip) : Option (Nat × Nat) :=
  if nodeMode c = mMirror ∧ c.sdl.handed = true ∧ peerRole c = 1 then some (stSuccess, 1)
  else if sdlRole c = 1 ∧ peerHot c = true ∧ c.sdl.contact = true ∧ c.sdl.swb = 0 then none
  else some (stWrongState, 0)

def switchbackBegin (c : Chip) : Chip := modSdl c fun s => { s with swb := 1 }

/-- At the next boundary: a final set, HANDOVER and RELEASE (R1003). -/
def switchbackFrame (c : Chip) : Chip :=
  if c.sdl.swb = 1 ∧ sdlRole c = 1 then
    modSdl (sendRelease (sdlSend (sendSet c) 0x41 0 [])) fun s => { s with swb := 2 }
  else c

/-- SWITCHBACK_TIMEOUT (R1004). -/
def switchbackTimeout (c : Chip) : Chip :=
  if c.sdl.swb = 2 ∧ sdlRole c = 1 then leaveActive c stAborted else c

end Sys2Proof.Machine
end

