-- ==== Sys2Proof/Machine/Units.lean ====
section
/-! DEFINITION. Units and exponents that the tables and registers in force give the points (R1175), and
the units that their consumers require (R1176). -/

namespace Sys2Proof.Machine

/-- Unit and exponent of a point, while something in force gives it them (R1175). -/
def pointUnit (c : Chip) (p : Nat) : Option (Nat × Int) :=
  let i := pIndex p
  match pClass p with
  | 1 | 4 | 7 | 9 | 10 | 11 => some (0, 0)
  | 2 => anaUnit c i
  | 3 => some ((pulseScale c i).unit, pulseExp c i)
  | 5 => some (20, -3)
  | 6 => some (11, -2)
  | 8 => if loopEn c i then some (outUnit c i, outExp c i) else none
  | 12 => some (43, 0)
  | 13 => some (internalUnit i)
  | _ => none

/-- The point has the unit, or nothing in force gives it one. -/
def unitFits (c : Chip) (p u : Nat) : Bool :=
  match pointUnit c p with
  | some (v, _) => v == u
  | none => true

/-- Input span unit of a loop. -/
def inUnit (c : Chip) (l : Nat) : Nat := (loopQw c l 0x10).unit

def enabledLoops (c : Chip) : List Nat := (List.range 128).filter fun l => loopEn c l

/-- Points that a loop reads through its input span. -/
def loopReads (c : Chip) (l : Nat) : List Nat :=
  pvPoint c l :: (if spSrc c l = 2 ∨ spSrc c l = 3 then [spPoint c l] else [])

/-- An alarm of COND 1 to 6 compares SRC, and REF for DEV, with its words. -/
def almCompares (k : AlmCfg) : List Nat :=
  if k.cond ≤ 6 then k.src :: (if k.cond = 5 then [k.ref] else []) else []

/-- Units that the tables in force require of a point: those of the input spans that read it, and of the
limits it is compared with. -/
def unitNeeds (c : Chip) (p : Nat) : List Nat :=
  ((enabledLoops c).filterMap fun l => if (loopReads c l).contains p then some (inUnit c l) else none)
    ++ ((enabledAlarms c (tblBase c 6)).filterMap fun a =>
      let k := almCfg c a
      if (almCompares k).contains p then some ((qw64Of k.limit).unit) else none)

/-- Channels that name a point as TSRC. -/
def tsrcUsers (c : Chip) (p : Nat) : List Nat :=
  (List.range 128).filter fun ch => fld c (chBase ch + 8) 0 24 == p

/-- Every consumer in force takes the unit that the tables in force give the point: spans, limits, and the channels that
name it as TSRC, with the T_UNIT of their sets (R382, R475, R1176). -/
def consumersOk (c : Chip) (p : Nat) : Bool :=
  match pointUnit c p with
  | none => true
  | some (u, _) =>
    ((unitNeeds c p).all fun v => v == u)
      && (pClass p != 2 || (tsrcUsers c p).all fun ch => tsrcUnitOk c ch p)

/-- Does anything in force compare, add, subtract or span the point (R564)? -/
def isConsumed (c : Chip) (p : Nat) : Bool := !(unitNeeds c p).isEmpty

/-- SCALE of a pulse input: a reserved unit, or a change of unit under a consumer, discards the write
(R564). -/
def hookPiScale : Hook := fun w c =>
  let m := (w.off - 0x130400) / 0x20
  let before := pulseScale (unwrite c w) m
  let now := pulseScale c m
  if unitReserved now.unit || (now.unit != before.unit && isConsumed c (pt 3 m)) then
    postError (setFlag (unwrite c w) (piBase m + 0x10) 2 true) 0x38 (pt 3 m) (w.off % 0x10000)
  else c

/-- A substitution of a point that nothing gave a unit ends when something gives it one (R1191). -/
def endRawSubst (c : Chip) : Chip :=
  c.points.foldl (fun c (p, e) =>
    if e.subst && e.raw && (pointUnit c p).isSome then setPoint c p { e with subst := false, raw := false } else c) c

end Sys2Proof.Machine
end

