-- ==== Sys2Proof/Machine/ScanCheck.lean ====
section
/-! DEFINITION. Load checks: their results, and the checks of the scan table (R351 to R355, R366, R1185,
R1198). Every check is judged on a chip in which the tables that would be in force are in force. -/

namespace Sys2Proof.Machine

/-- A refused table: status and RESULT of its TABLE_SWAP, and REASON, SLOT and ENTRY of SEQ_LOAD_ERR;
REASON 0 leaves that register alone. -/
structure LoadErr where
  status : Nat
  result : Nat
  reason : Nat
  slot : Nat
  entry : Nat
  deriving DecidableEq, Repr

/-- RESULT of a failure that concerns no single entry. -/
def noEntry : Nat := 0xFFFFFFFF

def tableErr (status result : Nat) : LoadErr := ⟨status, result, 0, 0, 0⟩

/-- A refusal that loads SEQ_LOAD_ERR (R353, R1198).

DESIGN CHOICE: an entry that names a point which does not exist refuses its table with CONFIG_TABLE, as R351, R617, R684,
R781 and R1079 give it for their tables; R19 names INVALID_POINT (log 85). -/
def scanErr (reason result slot : Nat) : LoadErr :=
  { status := stConfigTable, result := result, reason := reason, slot := slot,
    entry := if result = noEntry then 0xFFFF else if 0x10000 ≤ result then 0xFFF0 + (result - 0x10000) else result }

/-- The first failing check. -/
def firstErr : List (Option LoadErr) → Option LoadErr
  | [] => none
  | some e :: _ => some e
  | none :: t => firstErr t

/-- The entry that a check reports: a failing header first, else the least RESULT (R1185).

DESIGN CHOICE: a failure outside every entry that is not the header's, such as a byte past the last entry, comes before
those of entries too, with RESULT 0xFFFFFFFF (log 142). -/
def firstRes (xs : List Nat) : Option Nat :=
  if xs.contains noEntry then some noEntry
  else match xs with
    | [] => none
    | x :: t => some (t.foldl min x)

/-- A check with a status and the RESULTs of what fails it. -/
def failing (status : Nat) (xs : List Nat) : Option LoadErr := (firstRes xs).map (tableErr status)

/-- The listed bytes of a region of the table memories, by offset in it. -/
def copyCells (c : Chip) (base size : Nat) : List (Nat × Nat) :=
  c.tables.filterMap fun e => if base ≤ e.1 ∧ e.1 < base + size then some (e.1 - base, e.2.toNat) else none

/-- Offsets of the bytes of a region that set a bit outside what `allow` gives their place. -/
def strayCells (c : Chip) (base size : Nat) (allow : Nat → Nat) : List Nat :=
  (copyCells c base size).filterMap fun (o, v) => if v &&& allow o = v then none else some o

/-! ## Frame and slots (R325 to R330) -/


def slotUnits (c : Chip) (p : Nat) : Nat := partEntry c p 1 1

/-- S: the sum of SLOT. -/
def slotSum (c : Chip) : Nat := ((List.range 8).map fun p => slotUnits c p).sum

/-- Engine cycle of the slot edge at offset `u` (R330). -/
def slotEdge (c : Chip) (u : Nat) : Nat := u * frameLenOf c * 10000 / 256

/-- Offsets at which slot k begins and ends: 0 the node slot, p + 1 the slot of Pp (R328, R329). -/
def slotSpan (c : Chip) (k : Nat) : Nat × Nat :=
  if k = 0 then (0, 256 - slotSum c)
  else
    let b := 256 - slotSum c + ((List.range (k - 1)).map fun p => slotUnits c p).sum
    (b, b + slotUnits c (k - 1))

/-- Length of a slot in engine cycles. -/
def slotLen (c : Chip) (k : Nat) : Nat := slotEdge c (slotSpan c k).2 - slotEdge c (slotSpan c k).1

/-- Command quota of a slot (R257). -/
def slotQuota (c : Chip) (k : Nat) : Nat := if k = 0 then partByte c 4 else partEntry c (k - 1) 2 1

/-- The slot that runs a slot-lane entry (R332). -/
def slotOf (c : Chip) (i : Nat) : Nat :=
  let o := ownerOf c (entPoint c i)
  if o < 8 then o + 1 else 0

/-- Cost of an entry in its lane (R349). -/
def opCost (op : Nat) : Nat := ([4, 64, 8, 24, 12, 16, 8, 8, 4] : List Nat).getD op 0

/-- T_BND in engine cycles (R375). -/
def bndCycles : Nat := 1600

/-- T_CMD in engine cycles. -/
def cmdCycles : Nat := 640

/-- Slot-lane entries of a slot, ascending. -/
def slotEntries (c : Chip) (k : Nat) : List Nat :=
  (List.range (scanEntries c)).filter fun i => entTrig c i % 4 == 0 && slotOf c i == k

/-! ## Checks of single entries -/

/-- Bits that an entry's ARG may set. -/
def argAllow (op i : Nat) : Nat :=
  match op, i with
  | 1, 0 | 1, 1 => 0xFF
  | 6, 0 => 0x01
  | 8, 0 => 0x07
  | 9, _ => 0xFF
  | _, _ => 0

/-- Bits that each byte of a scan table may set (R348, R365). -/
def scanAllow (c : Chip) (o : Nat) : Nat :=
  if o < 7 then 0xFF
  else if 0x40 ≤ o ∧ o < 0x140 then
    let s := (o - 0x40) / 16
    let r := (o - 0x40) % 16
    if tbl c 3 6 1 ≤ s then 0
    else if r < 3 ∨ r = 4 ∨ r = 5 then 0xFF
    else if r < 8 then 0
    else if pClass (tbl c 3 (0x40 + s * 16) 3) = 1 then (if r = 8 then 0x0F else 0)
    else 0xFF
  else if 0x200 ≤ o ∧ (o - 0x200) / 16 < scanEntries c then
    let r := (o - 0x200) % 16
    if r = 1 then 0x1F else if r < 6 ∧ r ≠ 3 then 0xFF else if 8 ≤ r ∧ r < 11 then 0xFF
    else if 12 ≤ r then argAllow (min 9 (entOp c ((o - 0x200) / 16))) (r - 12) else 0
  else 0

/-- RESULT of a stray byte. -/
def scanRes (c : Chip) (o : Nat) : Nat :=
  if 0x40 ≤ o ∧ o < 0x140 then 0x10000 + (o - 0x40) / 16
  else if 0x200 ≤ o ∧ (o - 0x200) / 16 < scanEntries c then (o - 0x200) / 16 else noEntry

/-- A check of the scan table whose failing RESULTs are given. -/
def scanFail (reason : Nat) (xs : List Nat) : Option LoadErr :=
  (firstRes xs).map fun r => scanErr (if r ≠ noEntry ∧ 0x10000 ≤ r then 7 else reason) r 0

def scanFormat (c : Chip) : Option LoadErr :=
  let len := frameLenOf c
  let head := tbl c 3 0 2 != 1 || decide (len < 10) || decide (400 < len) || decide (32736 < scanEntries c)
    || decide (16 < tbl c 3 6 1)
  if head then some (scanErr 1 noEntry 0)
  else scanFail 1 ((strayCells c (tblBase c 3) 0x80000 (scanAllow c)).map (scanRes c))

/-- TRIG and point class that an opcode takes (R349); DMA_SIGNAL never names DP0 (R884). -/
def entryPermitted (c : Chip) (i : Nat) : Bool :=
  let op := entOp c i
  let trig := entTrig c i % 4
  let cls := pClass (entPoint c i)
  (if op = 1 then trig == 3 else decide (trig < 3))
    && (match op with
        | 0 => cls == 0
        | 1 => cls == 2
        | 2 => cls == 1
        | 3 => cls == 3
        | 4 => cls == 12
        | 5 => cls == 13
        | 6 => cls == 8
        | 7 => cls == 5 || cls == 6
        | 8 => cls == 0 && entArg c i % 8 != 0
        | _ => false)

def scanIdx (c : Chip) (bad : Nat → Bool) : List Nat := (List.range (scanEntries c)).filter bad

/-- An entry that serves a point which an earlier entry serves. -/
def servedTwice (c : Chip) : List Nat :=
  scanIdx c fun i => entPoint c i != 0 && (List.range i).any fun j => entPoint c j == entPoint c i

/-- K, N and PHASE of an entry (R342, R343, R618).

DESIGN CHOICE: a field that the entry's trigger does not use and that is not 0 fails here, with REASON 5, not as a format
error (R351; log 144). -/
def rateOk (c : Chip) (i : Nat) : Bool :=
  let t := entTrig c i
  let k := t / 4 % 8
  let n := entN c i
  let ph := entPhase c i
  let len := frameLenOf c
  match t % 4 with
  | 1 => decide (k ≤ 5) && n == 0 && decide (ph < 2 ^ k)
  | 2 => k == 0 && decide (1 ≤ n) && decide (n ≤ 40) && len % n == 0 && decide (ph < len / n)
    && (entOp c i != 6 || decide (len ≤ n * 40))
  | _ => k == 0 && n == 0 && ph == 0

/-- A sentry entry (R366). -/
def sentryOk (c : Chip) (s : Nat) : Bool :=
  let o := 0x40 + s * 16
  let p := tbl c 3 o 3
  let per := tbl c 3 (o + 4) 1
  let conf := tbl c 3 (o + 5) 1
  (pClass p == 1 || pClass p == 2) && pointValid p && decide (1 ≤ per) && decide (1 ≤ conf) && decide (conf ≤ 4)
    && (if pClass p = 1 then tbl c 3 (o + 8) 4 % 16 != 0
        else decide (signed 32 (tbl c 3 (o + 8) 4) ≤ signed 32 (tbl c 3 (o + 12) 4)))

/-! ## Time checks -/

/-- The first index at which a running sum of costs passes a limit. -/
def firstOver (limit : Nat) : Nat → List (Nat × Nat) → Option Nat
  | _, [] => none
  | acc, (i, cost) :: t => if limit < acc + cost then some i else firstOver limit (acc + cost) t

/-- The slot-time check of one slot. -/
def slotTime (c : Chip) (k : Nat) : Option LoadErr :=
  let es := slotEntries c k
  let base := (if k = 0 then bndCycles else 0) + 80
  if k ≠ 0 ∧ es.isEmpty = true ∧ slotQuota c k = 0 then none
  else
    let costs := es.map fun i => (i, opCost (entOp c i))
    match firstOver (slotLen c k) base costs with
    | some i => some (scanErr 8 i k)
    | none =>
      if slotLen c k < base + (costs.map fun x => x.2).sum + slotQuota c k * cmdCycles then some (scanErr 8 noEntry k)
      else none

def slotTimes (c : Chip) : Option LoadErr := firstErr ((List.range 9).map fun k => slotTime c k)

def tickEntries (c : Chip) : List Nat := scanIdx c fun i => entTrig c i % 4 == 1 || entTrig c i % 4 == 2

def tickInstants (c : Chip) : Option LoadErr :=
  let es := tickEntries c
  if es.isEmpty then none
  else (allTicks c).findSome? fun (g, t) =>
    (firstOver 2400 0 ((es.filter fun i => dueAt c i g t).map fun i => (i, opCost (entOp c i)))).map fun i => scanErr 9 i 0

/-- LOOP entries of a slot with the base-tick interval in which each begins. -/
def slotLoops (c : Chip) (k : Nat) : List (Nat × Nat) :=
  let start := slotEdge c (slotSpan c k).1 + (if k = 0 then bndCycles else 0)
  ((slotEntries c k).foldl (fun (acc : List (Nat × Nat) × Nat) i =>
    ((if entOp c i = 6 then acc.1 ++ [(i, acc.2 / 10000)] else acc.1), acc.2 + opCost (entOp c i))) ([], start)).1

def loopLanes (c : Chip) : Option LoadErr :=
  let ticks := (tickEntries c).filter fun i => entOp c i == 6
  let slots := (List.range 9).flatMap fun k => slotLoops c k
  if ticks.length + slots.length ≤ 64 then none
  else (allTicks c).findSome? fun (g, t) =>
    let due := (ticks.filter fun i => dueAt c i g t) ++ (slots.filterMap fun (i, s) => if s = t then some i else none)
    ((due.mergeSort (fun a b => decide (a ≤ b)))[64]?).map fun i => scanErr 10 i 0

/-- T_ALM of the tables in force (R351). -/
def tAlm (c : Chip) : Nat :=
  let b := tblBase c 6
  ceilDiv (24 * (enabledAlarms c b).length + 4 * tmem c (b + 4) 4) 8 + 4 * (enabledGroups c b).length
    + 64 * (enabledAt c (tblBase c 8 + 0x400) 0x80 256).length

def alarmTime (c : Chip) : Option LoadErr :=
  if tAlm c + 2000 ≤ frameLenOf c * 10000 then none else some (scanErr 11 noEntry 0)

/-! ## The scan table -/

/-- Channels with an ACQ entry: entry and channel. -/
def acqEntries (c : Chip) : List (Nat × Nat) :=
  (scanIdx c fun i => entOp c i == 1).map fun i => (i, pIndex (entPoint c i))

/-- ACQ entries that read a TSRC point which they may not (R290).

DEDUCED: a channel's entry reads the point that TSRC names when it runs (R385, R471), so R290 binds it (log 116). -/
def acqOwnBad (c : Chip) : List Nat :=
  (acqEntries c).filterMap fun (i, ch) =>
    if readsOk c (ownerOf c (anaPt ch)) (fld c (chBase ch + 8) 0 24) then none else some i

/-- The unit that the ACQ entries give a channel's point is another than the other copy of the table gives it. -/
def unitMoves (c : Chip) (ch : Nat) : Bool :=
  (anaUnit c ch).map Prod.fst != (anaUnit (setFld c 0x40000 0 1 (1 - fld c 0x40000 0 1)) ch).map Prod.fst

/-- R474: coefficient sets named, and units given or changed, by the ACQ entries. -/
def scanSets (c : Chip) : Option LoadErr :=
  firstErr [
    failing stConfigTable ((acqEntries c).filterMap fun (i, _) => if entArg c i % 65536 < tbl c 4 2 2 then none else some i),
    failing stConfigUnit ((acqEntries c).filterMap fun (i, ch) =>
      if unitMoves c ch && !consumersOk c (anaPt ch) then some i else none)]

/-- Enabled loops whose DEADLINE is below D_MIN (R617). -/
def lateLoops (c : Chip) : List Nat :=
  (enabledLoops c).filter fun l =>
    let d := lp c l 0x2C 2
    d != 0 && decide (d < dMin c l)

/-- The checks of R351, R474, R618 and R619 in order. An entry writes the point it serves alone, so none breaks R291. -/
def checkScan (c : Chip) : Option LoadErr :=
  firstErr [
    scanFormat c,
    scanFail 2 (scanIdx c fun i => !entryPermitted c i),
    scanFail 3 (scanIdx c fun i => !pointValid (entPoint c i)),
    scanFail 4 (servedTwice c),
    scanFail 5 (scanIdx c fun i => !rateOk c i),
    scanFail 6 (acqOwnBad c),
    scanFail 7 (((List.range (tbl c 3 6 1)).filter fun s => !sentryOk c s).map fun s => 0x10000 + s),
    slotTimes c, tickInstants c, loopLanes c, alarmTime c,
    scanSets c,
    failing stConfigTable ((lateLoops c).filterMap fun l => loopEntry c l)]

end Sys2Proof.Machine
end

