-- ==== Sys2Proof/Machine/TableCheck.lean ====
section
/-! DEFINITION. Load checks of every table but the scan table, and the check of a swap against the tables
that will be in force at its boundary (R287, R473, R569, R617, R684, R734, R781, R1079, R311, R312). -/

namespace Sys2Proof.Machine

/-! ## Ownership (R290, R291, R293) -/

/-- R293: a partition's table serves only its own points. -/
def servesOk (c : Chip) (code o : Nat) : Bool := decide (8 ≤ tableOwner c code) || tableOwner c code == o

/-- Enabled loops that break R290 or R291. -/
def loopOwnBad (c : Chip) : List Nat :=
  (enabledLoops c).filter fun l =>
    let o := ownerOf c (loopPt l)
    !(readsOk c o (pvPoint c l) && readsOk c o (spPoint c l)
      && (loopPos c l == 255 || readsOk c o (pt 12 (loopPos c l))) && writesOk c o (outPoint c l))

/-- A trigger that a table may fire: none, or any for a table of the keeper, else one of the keeper or of the table's owner.

DEDUCED: R318 has no row for it, and R290 and R291 speak of points; R318 itself binds (log 117). -/
def trigOwnOk (c : Chip) (code trig : Nat) : Bool :=
  let o := ownerAt c (0xC00 + trig)
  trig == 0xFFFF || decide (8 ≤ tableOwner c code) || decide (8 ≤ o) || o == tableOwner c code

/-- Alarms and edges that break R290, R291 or R318, as RESULTs. -/
def almOwnBad (c : Chip) : List Nat :=
  let b := tblBase c 6
  ((enabledAlarms c b).filter fun a =>
    let k := almCfg c a
    let o := ownerOf c (pt 9 a)
    !(readsOk c o k.src && readsOk c o k.ref && (k.group == 0xFFFF || writesOk c o (pt 10 k.group)) && trigOwnOk c 6 k.trig))
  ++ ((edgesOf c b).zipIdx.filterMap fun (e, i) =>
    if readsOk c (ownerOf c (pt 9 e.target)) e.source then none else some (0x20000 + i))

/-- Entries of the rota in use. -/
def rotaUsed (c : Chip) : List Nat := (List.range 16).filter fun n => rotaRole c n != 0

/-- Offsets of rota fields that break R290 or R318. -/
def rotaOwnBad (c : Chip) : List Nat :=
  (if trigOwnOk c 7 (rota c 0xA 2) then [] else [0xA]) ++
  ((rotaUsed c).filter fun n => !readsOk c (ownerOf c (pt 11 n)) (rotaAckPoint c n)).map fun n => 0x42 + n * 0x10

def trigN (c : Chip) (t : Nat) : Nat := tbl c 8 (trigOff t + 1) 1
def trigItem (c : Chip) (t i : Nat) : Nat := tbl c 8 (trigOff t + 0x20 + i * 4) 4

/-- Triggers with a listed byte: the others hold no item. -/
def usedTriggers (c : Chip) : List Nat :=
  ((copyCells c (tblBase c 8) 0x8400).filterMap fun (o, _) => if 0x400 ≤ o then some ((o - 0x400) / 0x80) else none).dedup

/-- Triggers with a point item that breaks R290. -/
def trigOwnBad (c : Chip) : List Nat :=
  (usedTriggers c).filter fun t =>
    let o := ownerAt c (0xC00 + t)
    !((List.range (min 24 (trigN c t))).all fun i =>
      let x := trigItem c t i
      x / 2 ^ 28 == 3 || readsOk c o (x % 2 ^ 24))

/-- Trips that read an input they may not (R290, R292). -/
def tripOwnBad (c : Chip) : List Nat :=
  (List.range 32).filter fun j =>
    let e := readTripEnt c (tblBase c 9) j
    tripEn e && e.terms.any fun x => x.2.2 != 0 && (List.range 32).any fun i =>
      natBit x.1 i && !readsOk c (ownerOf c (pt 7 j)) (pt 4 i)

/-- Every table in force passes R290 and R291. -/
def ownershipOk (c : Chip) : Bool :=
  (loopOwnBad c).isEmpty && (almOwnBad c).isEmpty && (rotaOwnBad c).isEmpty && (trigOwnBad c).isEmpty
    && (tripOwnBad c).isEmpty && (acqOwnBad c).isEmpty

/-! ## Partition table (R283 to R287, R354) -/

def partAllow (o : Nat) : Nat :=
  if isOwnerByte o then 0x1F
  else if isOwnerCode o then 0x0F
  else if o < 2 ∨ (4 ≤ o ∧ o < 7) then 0xFF
  else if 0x40 ≤ o ∧ o < 0x240 then
    (let r := (o - 0x40) % 0x40
     if r = 0 then 0x07 else if r < 5 ∨ (6 ≤ r ∧ r < 12) then 0xFF else 0)
  else 0

/-- Owner codes 8 to 14 name nobody. -/
def badOwnerCode (v : Nat) : Bool := decide (8 ≤ v % 16) && v % 16 != 15

def sumParts (c : Chip) (off n : Nat) : Nat := ((List.range 8).map fun p => partEntry c p off n).sum

def failWhole (b : Bool) : Option LoadErr := if b then none else some (tableErr stConfigTable noEntry)

/-- Status and RESULT of a failing slot-time or loop-lane check of the scan table, for another table. -/
def asPartErr (e : Option LoadErr) : Option LoadErr := e.map fun x => { x with result := noEntry }

def checkPart (c : Chip) : Option LoadErr :=
  let b := tblBase c 2
  firstErr [
    failing stConfigTable ((if tbl c 2 0 2 = 1 then [] else [0]) ++ strayCells c b 0x8000 partAllow),
    failing stConfigTable ((copyCells c b 0x8000).filterMap fun (o, v) =>
      if (isOwnerByte o || isOwnerCode o) && badOwnerCode v then some o else none),
    failWhole (decide (sumParts c 1 1 ≤ 224)),
    failWhole (decide (partByte c 5 + sumParts c 3 1 ≤ 256)),
    failWhole (decide (partByte c 6 + sumParts c 4 1 ≤ 256)),
    failWhole (decide (sumParts c 6 2 + safetyRsv c + 2 ≤ budget c)),
    failing stConfigTable ((if 1 ≤ partByte c 4 ∧ partByte c 4 ≤ 64 then [] else [4])
      ++ ((List.range 8).filter fun p => decide (64 < partEntry c p 2 1)).map fun p => 0x42 + p * 0x40),
    failing stConfigTable (((List.range 5).filter fun i =>
      let o := ownerAt c (8 + i)
      decide (o < 8) && !natBit (partEntry c o 0 1) 0).map fun i => 8 + i),
    failWhole (ownershipOk c),
    asPartErr (slotTimes c), asPartErr (loopLanes c)]

/-! ## Coefficient table (R466, R467, R473, R382) -/

def setsN (c : Chip) : Nat := tbl c 4 2 2

def coefAllow (c : Chip) (o : Nat) : Nat :=
  if o < 4 then 0xFF
  else if 0x100 ≤ o ∧ (o - 0x100) / 0x100 < setsN c then
    (let r := o % 0x100
     if r < 7 ∨ (0x10 ≤ r ∧ r < 0xD0) then 0xFF else 0)
  else 0

def coefRes (c : Chip) (o : Nat) : Nat :=
  if 0x100 ≤ o ∧ (o - 0x100) / 0x100 < setsN c then (o - 0x100) / 0x100 else noEntry

def coefWord (c : Chip) (n k : Nat) : Nat := tbl c 4 (setOff n + 0x10 + k * 8) 8

def setsWhere (c : Chip) (bad : Nat → Bool) : List Nat := (List.range (setsN c)).filter bad

def setDegreeOk (c : Chip) (n : Nat) : Bool :=
  let im := tbl c 4 (setOff n) 1
  let jm := setJmax c n
  decide (im ≤ 5) && decide (jm ≤ 3) && (setTUnit c n != 0 || jm == 0)
    && (List.range 24).all fun k => (decide (k / 4 ≤ im) && decide (k % 4 ≤ jm)) || coefWord c n k == 0

def setWordsOk (c : Chip) (n : Nat) : Bool :=
  (List.range 24).all (fun k =>
    let w := coefWord c n k
    w % 256 == 0 && (qw64Of w).mant != -(2 ^ 47))
    && decide (-8 ≤ setExp c n) && decide (setExp c n ≤ 7) && setMask c n != 0 && setMask c n &&& 0x3FE == setMask c n

/-- The checks of a coefficient table (R473). A set serves the points whose ACQ entries name it: a table of a partition that
serves a point of another owner is refused, after them (R293, R318). -/
def checkCoef (c : Chip) : Option LoadErr :=
  let users := acqEntries c
  let setOfEnt (i : Nat) : Nat := entArg c i % 65536
  firstErr [
    failing stConfigTable ((if tbl c 4 0 2 = 1 ∧ setsN c ≤ 2047 then [] else [noEntry])
      ++ (strayCells c (tblBase c 4) 0x80000 (coefAllow c)).map (coefRes c)),
    failing stConfigTable (setsWhere c fun n => !setDegreeOk c n),
    failing stConfigTable (setsWhere c fun n => !setWordsOk c n),
    failing stConfigUnit (setsWhere c fun n =>
      unitReserved (setUnit c n) || decide (64 ≤ setUnit c n) || decide (2 < setTUnit c n)),
    failing stConfigTable (users.filterMap fun (i, _) => if setOfEnt i < setsN c then none else some (setOfEnt i)),
    failing stConfigUnit (users.filterMap fun (i, ch) =>
      if tsrcUnitOk c ch (fld c (chBase ch + 8) 0 24) then none else some (setOfEnt i)),
    failing stConfigUnit (users.filterMap fun (i, ch) => if consumersOk c (anaPt ch) then none else some (setOfEnt i)),
    failing stConfigTable (users.filterMap fun (i, ch) => if servesOk c 4 (ownerOf c (anaPt ch)) then none else some (setOfEnt i))]

/-! ## Trip matrix (R568, R569) -/

def tripAllow (o : Nat) : Nat :=
  if o < 2 then 0xFF
  else if 0x100 ≤ o ∧ o < 0x1100 then
    (let r := (o - 0x100) % 0x80
     if r = 0 then 0x0F else if r = 4 then 0xFF else if r = 5 then 0x0F
     else if 0x10 ≤ r ∧ r < 0x50 ∧ r % 16 < 9 then 0xFF else 0)
  else 0

def tripRes (o : Nat) : Nat := if 0x100 ≤ o ∧ o < 0x1100 then (o - 0x100) / 0x80 else noEntry

/-- KIND, SEL and INV of a trip's terms. -/
def tripTermsOk (e : TripEnt) : Bool :=
  e.terms.all (fun x => decide (x.2.2 ≤ 2) && (x.2.2 == 0 || x.1 != 0) && x.2.1 &&& x.1 == x.2.1)
    && (!tripEn e || e.terms.any fun x => x.2.2 != 0)

def checkTrips (c : Chip) : Option LoadErr :=
  let b := tblBase c 9
  failing stConfigTable ((if tbl c 9 0 2 = 1 then [] else [noEntry])
    ++ (strayCells c b 0x8000 tripAllow).map tripRes
    ++ ((List.range 32).filter fun j => !tripTermsOk (readTripEnt c b j)) ++ tripOwnBad c)

/-! ## Loop table (R615 to R617) -/

def loopAllow (o : Nat) : Nat :=
  if o < 2 then 0xFF
  else if 0x1000 ≤ o ∧ o < 0x9000 then
    (let r := o % 0x100
     if r = 0 then 0x3F else if r = 7 ∨ r = 0xB then 0 else if r < 0x43 then 0xFF
     else if 0x80 ≤ r ∧ r < 0xC2 then 0xFF else 0)
  else if (0x10000 ≤ o ∧ o < 0x12000) ∨ (0x20000 ≤ o ∧ o < 0x28000) then 0xFF
  else 0

def loopRes (o : Nat) : Nat := if 0x1000 ≤ o ∧ o < 0x9000 then (o - 0x1000) / 0x100 else noEntry

/-- Codes of an entry (R616). -/
def loopCodesOk (c : Chip) (l : Nat) : Bool :=
  decide (spSrc c l ≤ 4) && decide (badAct c l ≤ 2) && (loopPos c l == 255 || decide (loopPos c l ≤ 3))
    && decide (-8 ≤ outExp c l) && decide (outExp c l ≤ 7) && decide (lp c l 0x3C 2 ≤ 32767)
    && decide (lp c l 0x3E 1 ≤ 7) && decide (lp c l 0x3F 1 ≤ 24) && decide (lp c l 0x40 1 ≤ 7)
    && (ftab c l == 255 || decide (ftab c l ≤ 15)) && (ctab c l == 255 || decide (ctab c l ≤ 15))

def loopPointsOk (c : Chip) (l : Nat) : Bool :=
  let pv := pvPoint c l
  let sp := spPoint c l
  let out := outPoint c l
  ([2, 3, 12, 13] : List Nat).contains (pClass pv) && pointValid pv
    && (match spSrc c l with
        | 2 => pClass sp == 2 && pointValid sp
        | 3 => pClass sp == 3 && pointValid sp
        | _ => sp == 0)
    && (out == 0 || (([5, 6, 8] : List Nat).contains (pClass out) && pointValid out))

/-- The seven quantity words of an entry.

DESIGN CHOICE: a reserved unit in one is answered with CONFIG_TABLE, as the Words row of R617 says; R52 says CONFIG_UNIT of
every table (log 87). -/
def loopWordsOk (c : Chip) (l : Nat) : Bool :=
  ([0x10, 0x14, 0x18, 0x1C, 0x20, 0x24, 0x28] : List Nat).all fun o =>
    let q := loopQw c l o
    q.qual == 0 && !unitReserved q.unit && q.mant != -524288

def loopSpansOk (c : Chip) (l : Nat) : Bool :=
  qwLt (loopQw c l 0x10) (loopQw c l 0x14) && qwLt (loopQw c l 0x18) (loopQw c l 0x1C)

def loopUnitsOk (c : Chip) (l : Nat) : Bool :=
  let iu := inUnit c l
  let ou := outUnit c l
  let out := outPoint c l
  (loopQw c l 0x14).unit == iu && (loopQw c l 0x1C).unit == ou && unitFits c (pvPoint c l) iu
    && (loopQw c l 0x20).unit == iu && ((spSrc c l != 2 && spSrc c l != 3) || unitFits c (spPoint c l) iu)
    && (loopQw c l 0x24).unit == ou && (loopQw c l 0x28).unit == ou
    && (match pClass out with
        | 5 => ou == 20
        | 6 => ou == 11
        | 8 => inUnit c (pIndex out) == ou
        | _ => true)
    && consumersOk c (loopPt l)

/-- The loop that a loop drives, when it drives one. -/
def drivenLoop (c : Chip) (l : Nat) : Option Nat := if pClass (outPoint c l) = 8 then some (pIndex (outPoint c l)) else none

/-- Is a loop found again within `n` steps along the cascade? -/
def cascadeBack (c : Chip) (l : Nat) : Nat → Nat → Bool
  | 0, _ => false
  | n + 1, k =>
    match drivenLoop c k with
    | some j => j == l || cascadeBack c l n j
    | none => false

def loopDestOk (c : Chip) (l : Nat) : Bool :=
  let en := enabledLoops c
  let out := outPoint c l
  (out == 0 || !(en.any fun j => decide (j < l) && outPoint c j == out))
    && (match drivenLoop c l with
        | some j => en.contains j && spSrc c j == 4
        | none => true)
    && (spSrc c l != 4 || (en.filter fun j => drivenLoop c j == some l).length == 1)
    && !cascadeBack c l 128 l

def loopGainsOk (c : Chip) (l : Nat) : Bool :=
  let df := lp c l 0x34 2
  decide (signed 16 (lp c l 0x38 2) < signed 16 (lp c l 0x3A 2)) && decide (1 ≤ df) && decide (df ≤ 32768)
    && decide (lp c l 0x30 2 ≤ 32767) && decide (lp c l 0x32 2 ≤ 32767)
    && (List.range 33).all fun i => decide (lp c l (0x80 + 2 * i) 2 ≤ 32767)

/-- DESIGN CHOICE: the checks of spans and units bind enabled loops only, for R79 and R80 too; R617 says so in its Words
row alone (log 86). -/
def checkLoops (c : Chip) : Option LoadErr :=
  let en := enabledLoops c
  let bad (p : Nat → Bool) : List Nat := en.filter fun l => !p l
  firstErr [
    failing stConfigTable ((if tbl c 5 0 2 = 1 then [] else [noEntry])
      ++ (strayCells c (tblBase c 5) 0x80000 loopAllow).map loopRes
      ++ (List.range 128).filter fun l => !loopCodesOk c l),
    failing stConfigTable (bad (loopPointsOk c)),
    failing stConfigTable (bad (loopWordsOk c)),
    failing stConfigSpan (bad (loopSpansOk c)),
    failing stConfigUnit (bad (loopUnitsOk c)),
    failing stConfigTable (bad fun l =>
      match pClass (outPoint c l) with
      | 5 => outExp c l == -3
      | 6 => outExp c l == -2
      | _ => true),
    failing stConfigTable (bad (loopDestOk c)),
    failing stConfigTable (bad fun l => (ftab c l == 255 && ctab c l == 255) || loopPos c l != 255),
    failing stConfigTable (bad (loopGainsOk c)),
    failing stConfigTable (loopOwnBad c ++ bad fun l => servesOk c 5 (ownerOf c (loopPt l))),
    failing stConfigTable (lateLoops c)]

/-! ## Alarm table (R680 to R685) -/

def edgesN (c : Chip) : Nat := tbl c 6 4 4

def almAllow (c : Chip) (o : Nat) : Nat :=
  if o < 2 ∨ (4 ≤ o ∧ o < 8) then 0xFF
  else if 0x1000 ≤ o ∧ o < 0x11000 then
    (let r := o % 0x40
     if r = 0 then 0x03 else if r = 1 then 0xFF else 0)
  else if 0x20000 ≤ o ∧ o < 0x120000 then
    (let r := o % 0x40
     if r = 0 then 0x07 else if r = 7 ∨ r = 0xB then 0 else if r < 0x28 then 0xFF else 0)
  else if 0x120000 ≤ o ∧ (o - 0x120000) / 8 < edgesN c then 0xFF
  else 0

def almRes (o : Nat) : Nat :=
  if 0x20000 ≤ o ∧ o < 0x120000 then (o - 0x20000) / 0x40
  else if 0x1000 ≤ o ∧ o < 0x11000 then 0x10000 + (o - 0x1000) / 0x40
  else noEntry

def almSrcOk (p : Nat) : Bool :=
  pointValid p && ((decide (1 ≤ pClass p) && decide (pClass p ≤ 8)) || pClass p == 12 || pClass p == 13)

def almWordOk (w : Nat) : Bool := (qw64Of w).qual == 0 && (qw64Of w).mant != -(2 ^ 47)

def almUnitsOk (c : Chip) (k : AlmCfg) : Bool :=
  let u := (qw64Of k.limit).unit
  if k.cond ≤ 6 then
    (qw64Of k.db).unit == u && !unitReserved u && (almCompares k).all fun p => unitFits c p u
  else k.limit == 0 && k.db == 0

def almLimitsOk (k : AlmCfg) : Bool :=
  let l := qwValue (qw64Of k.limit)
  let d := qwValue (qw64Of k.db)
  decide (0 ≤ d)
    && (k.cond != 5 || (decide (0 < l) && decide (d ≤ l)))
    && (if k.cond = 6 then l != 0 && decide (d ≤ (if l < 0 then -l else l)) && decide (1 ≤ k.rocWin) else k.rocWin == 0)
    && (if k.cond = 7 then k.mask != 0 else if k.cond = 8 then k.mask != 0 && decide (k.mask < 16) else k.mask == 0)

def edgeSourceOk (c : Chip) (b : Nat) (e : EdgeCfg) : Bool :=
  let i := pIndex e.source
  let disc := ([1, 4, 7] : List Nat).contains (pClass e.source)
  (match pClass e.source with
   | 9 => decide (i < 16384) && (almCfgAt c b i).en
   | 10 => groupEn c b i
   | _ => disc && pointValid e.source)
    && (e.smask != 0) == disc

/-- Edges that fail the check of R684, by number: `seen` are those before. -/
def edgesBad (c : Chip) (b : Nat) : List EdgeCfg → Nat → List EdgeCfg → List Nat
  | _, _, [] => []
  | seen, k, e :: t =>
    let ok := decide (e.target < 16384) && (almCfgAt c b e.target).en && edgeSourceOk c b e
      && !(seen.any fun q => q.target == e.target && q.source == e.source)
      && decide ((seen.filter fun q => q.target == e.target).length < 8)
    (if ok then [] else [k]) ++ edgesBad c b (e :: seen) (k + 1) t

/-- Points that an alarm or group reaches along one arc: its group, and the targets of its edges. -/
def almArcs (c : Chip) (b : Nat) (es : List EdgeCfg) (p : Nat) : List Nat :=
  (if pClass p = 9 then (let g := (almCfgAt c b (pIndex p)).group; if g = 0xFFFF then [] else [pt 10 g]) else [])
    ++ es.filterMap fun e => if e.source = p then some (pt 9 e.target) else none

/-- Everything reached from a set of points in at most `n` rounds. -/
def almReach (c : Chip) (b : Nat) (es : List EdgeCfg) : Nat → List Nat → List Nat → List Nat
  | 0, seen, _ => seen
  | n + 1, seen, front =>
    let next := ((front.flatMap (almArcs c b es)).dedup).filter fun p => !seen.contains p
    if next.isEmpty then seen else almReach c b es n (seen ++ next) next

/-- The edge lies on a cycle: its source is reached from its target. -/
def onCycle (c : Chip) (b : Nat) (es : List EdgeCfg) (e : EdgeCfg) : Bool :=
  (almReach c b es (2 * es.length + 2) [pt 9 e.target] [pt 9 e.target]).contains e.source

def checkAlarms (c : Chip) : Option LoadErr :=
  let b := tblBase c 6
  let en := enabledAlarms c b
  let gs := enabledGroups c b
  let bad (p : AlmCfg → Bool) : List Nat := en.filter fun a => !p (almCfg c a)
  let es := edgesOf c b
  firstErr [
    failing stConfigTable ((if tbl c 6 0 2 = 1 ∧ edgesN c ≤ 65536 then [] else [noEntry])
      ++ (strayCells c b 0x200000 (almAllow c)).map almRes),
    failing stConfigTable ((bad fun k => decide (1 ≤ k.cond) && decide (k.cond ≤ 8) && decide (k.prio ≤ 3) && decide (k.trigOn < 128))
      ++ (gs.filter fun g => decide (3 < groupFoPrio c b g)).map fun g => 0x10000 + g),
    failing stConfigTable (bad fun k => almSrcOk k.src && (if k.cond = 5 then almSrcOk k.ref else k.ref == 0)),
    failing stConfigTable (bad fun k => almWordOk k.limit && almWordOk k.db),
    failing stConfigUnit (bad (almUnitsOk c)),
    failing stConfigTable (bad almLimitsOk),
    failing stConfigTable (bad fun k =>
      (k.group == 0xFFFF || groupEn c b k.group) && (k.trig == 0xFFFF || decide (k.trig ≤ 255))),
    failing stConfigTable ((edgesBad c b [] 0 es).map fun k => 0x20000 + k),
    failing stConfigTable (es.zipIdx.filterMap fun (e, k) => if onCycle c b es e then some (0x20000 + k) else none),
    failing stConfigTable (almOwnBad c ++ (en.filter fun a => !servesOk c 6 (ownerOf c (pt 9 a)))
      ++ (gs.filter fun g => !servesOk c 6 (ownerOf c (pt 10 g))).map fun g => 0x10000 + g),
    alarmTime c]

/-! ## Watch rota (R733, R734) -/

def rotaAllow (o : Nat) : Nat :=
  if o < 0x15 then 0xFF
  else if 0x40 ≤ o ∧ o < 0x140 then
    (let r := o % 0x10
     if r = 1 then 0x03 else if r < 5 then 0xFF else 0)
  else if 0x200 ≤ o ∧ o < 0x300 then
    (let r := o % 8
     if r = 2 then 0x7F else if r < 4 then 0xFF else 0)
  else if 0x400 ≤ o ∧ o < 0x480 then 0xFF
  else 0

/-- Offsets of the fields whose condition fails. -/
def badFields (xs : List (Nat × Bool)) : List Nat := xs.filterMap fun (o, ok) => if ok then none else some o

def watchesUsed (c : Chip) : List Nat := List.range (min 32 (rota c 0x14 1))

def rotaRanges (c : Chip) : List (Nat × Bool) :=
  let between (o lo hi n : Nat) : Nat × Bool := (o, decide (lo ≤ rota c o n) && decide (rota c o n ≤ hi))
  [(0, rota c 0 2 == 1), between 2 0 3 1, (3, rota c 3 1 == 255 || decide (rota c 3 1 ≤ 15)), between 4 10 3600 2,
   between 6 10 3600 2, (8, rota c 8 1 == 255 || decide (rota c 8 1 ≤ 7)), between 9 0 1 1,
   (0xA, rota c 0xA 2 == 0xFFFF || decide (rota c 0xA 2 ≤ 255)), between 0x14 0 32 1]
  ++ (List.range 16).map (fun n => (0x40 + n * 0x10, decide (rotaRole c n ≤ 2)))
  ++ (List.range 32).flatMap fun w => [between (0x200 + w * 8) 0 1439 2, between (0x203 + w * 8) 0 15 1]

def rotaEntries (c : Chip) : List (Nat × Bool) :=
  (3, rota c 3 1 == 255 || rotaRole c (rota c 3 1) == 1)
    :: ((List.range 16).map fun n =>
          let p := rotaAckPoint c n
          (0x42 + n * 0x10, p == 0 || (pClass p == 1 && pointValid p)))
    ++ (watchesUsed c).map fun w => (0x203 + w * 8, rotaRole c (rota c (0x203 + w * 8) 1) == 1)

def rotaCan (c : Chip) : List (Nat × Bool) :=
  if (List.range 16).any fun n => rotaPanel c n then
    let lim := if rota c 9 1 = 0 then 2 ^ 11 else 2 ^ 29
    let tx := rota c 0xC 4
    let rx := rota c 0x10 4
    [(8, decide (rota c 8 1 ≤ 7)), (0xC, decide (tx < lim)), (0x10, decide (rx + 15 < lim)),
     (0xC, decide (tx < rx) || decide (rx + 15 < tx))]
  else []

def checkRota (c : Chip) : Option LoadErr :=
  let ctl := rota c 8 1
  firstErr [
    failing stConfigTable (badFields (rotaRanges c) ++ strayCells c (tblBase c 7) 0x8000 rotaAllow),
    failing stConfigTable (badFields (rotaEntries c)),
    failing stConfigTable (badFields (rotaCan c)),
    failing stConfigTable (rotaOwnBad c
      ++ ((rotaUsed c).filter fun n => !servesOk c 7 (ownerOf c (pt 11 n))).map (fun n => 0x40 + n * 0x10)
      ++ (if ctl = 255 ∨ ownerAt c (0xD00 + ctl) = tableOwner c 7 then [] else [8]))]

/-! ## Triggers (R777 to R781) -/

def trigAllow (o : Nat) : Nat :=
  if o < 2 then 0xFF
  else if 0x400 ≤ o ∧ o < 0x8400 then
    (let r := o % 0x80
     if r = 0 then 0x01 else if r < 7 then 0xFF else if r < 0x20 then 0 else if r % 4 = 3 then 0xF0 else 0xFF)
  else 0

def trigRes (o : Nat) : Nat := if 0x400 ≤ o ∧ o < 0x8400 then (o - 0x400) / 0x80 else noEntry

def trigItemOk (c : Chip) (x : Nat) : Bool :=
  let a := x % 2 ^ 24
  match x / 2 ^ 28 with
  | 1 => pointValid a
  | 2 => pointValid a && pointWide c a
  | 3 => a % 4 == 0 && (findReg a).isSome
  | _ => false

def trigItems (c : Chip) (t : Nat) : List Nat := (List.range (trigN c t)).map fun i => trigItem c t i

def checkTriggers (c : Chip) : Option LoadErr :=
  let ts := usedTriggers c
  let bad (p : Nat → Bool) : List Nat := ts.filter fun t => !p t
  firstErr [
    failing stConfigTable ((if tbl c 8 0 2 = 1 then [] else [noEntry])
      ++ (strayCells c (tblBase c 8) 0x10000 trigAllow).map trigRes
      ++ bad fun t => decide (trigN c t ≤ 24)
        && (List.range 24).all fun i => decide (i < trigN c t) || trigItem c t i == 0),
    failing stConfigTable (bad fun t => (trigItems c t).all (trigItemOk c)),
    failing stConfigTable (bad fun t => decide (trigKey c t < 2 ^ trigN c t)),
    failing stConfigTable (trigOwnBad c ++ bad fun t =>
      let o := ownerAt c (0xC00 + t)
      servesOk c 8 o && (decide (8 ≤ o) || (trigItems c t).all fun x => x / 2 ^ 28 != 3 || reachRead c (o + 1) (x % 2 ^ 24))),
    alarmTime c]

/-! ## Status port map (R1077, R1079) -/

def sptAllow (o : Nat) : Nat :=
  if o < 2 then 0xFF else if 32 ≤ o ∧ o < 0x8000 then (if o % 8 < 5 then 0xFF else 0) else 0

def sptRes (o : Nat) : Nat := if 32 ≤ o ∧ o < 0x8000 then o / 8 else noEntry

/-- Addresses with a listed byte: the others are unused. -/
def sptUsed (c : Chip) : List Nat :=
  ((copyCells c (tblBase c 11) 0x8000).filterMap fun (o, _) => if 32 ≤ o then some (o / 8) else none).dedup

def checkSpt (c : Chip) : Option LoadErr :=
  let b := tblBase c 11
  let bad (p : Nat → Bool) : List Nat := (sptUsed c).filter fun w => !p w
  firstErr [
    failing stConfigTable ((if tbl c 11 0 2 = 1 then [] else [noEntry])
      ++ (strayCells c b 0x8000 sptAllow).map sptRes
      ++ bad fun w =>
        match sptKind c b w with
        | 0 => sptPoint c w == 0 && sptCount c w == 0
        | 1 | 2 => sptCount c w == 0
        | 3 => sptPoint c w == 0 && sptCount c w != 0
        | _ => false),
    failing stConfigTable (bad fun w =>
      match sptKind c b w with
      | 1 => pointValid (sptPoint c w)
      | 2 => pointValid (sptPoint c w) && pointWide c (sptPoint c w)
      | _ => true),
    failing stConfigTable (bad fun w =>
      sptKind c b w != 3 || (List.range (sptCount c w)).all fun i =>
        decide (w + 1 + i ≤ 0xFFF) && (sptKind c b (w + 1 + i) == 1 || sptKind c b (w + 1 + i) == 2))]

/-! ## Every table -/

/-- The load checks of a table in force in `c`. The uniformity map takes any bytes. -/
def checkTable (c : Chip) (code : Nat) : Option LoadErr :=
  match code with
  | 2 => checkPart c
  | 3 => checkScan c
  | 4 => checkCoef c
  | 5 => checkLoops c
  | 6 => checkAlarms c
  | 7 => checkRota c
  | 8 => checkTriggers c
  | 9 => checkTrips c
  | 11 => checkSpt c
  | _ => none

/-- The chip with the pending swaps, and those of `codes`, in force (R311, R312, R356). -/
def withSwaps (c : Chip) (codes : List Nat) : Chip :=
  tableDescs.foldl (fun c d =>
    if codes.contains d.code || flag c d.stat 1 then setFld c d.stat 0 1 (1 - activeCopy c d) else c) c

/-- What refuses a swap of the table submitted now. -/
def swapError (c : Chip) (code : Nat) : Option LoadErr := checkTable (withSwaps c [code]) code

/-- SEQ_LOAD_ERR after a refusal (R353 to R355). -/
def loadSeqErr (c : Chip) (e : LoadErr) : Chip :=
  if e.reason = 0 then c else setReg c 0x40010 (BitVec.ofNat 32 (e.reason + e.slot * 16 + e.entry * 256))

end Sys2Proof.Machine
end

