-- ==== Sys2Proof/Machine/DiagCmd.lean ====
section
/-! DEFINITION. Diagnostic commands, node-fatal faults and memory errors (R1087, R1089, R1092 to R1096). -/

namespace Sys2Proof.Machine

def modDiag (c : Chip) (f : DiagSt → DiagSt) : Chip := { c with diag := f c.diag }

/-- POP: the head entry leaves the FIFO; no effect when it is empty. -/
def diagPop (c : Chip) : Chip := modDiag c fun d => { d with fifo := d.fifo.tail }

/-- An entry of the source is in the FIFO. -/
def diagPending (c : Chip) (k : Nat) : Bool := c.diag.fifo.any fun e => srcKey e.code e.source == k

/-- PURGE: every ordinary record whose OCC is 0 and which has no entry in the FIFO is freed. -/
def diagPurge (c : Chip) : Chip :=
  let idle (e : Nat × Option SrcRec) : Bool :=
    match e.2 with
    | some r => r.occ == 0 && !diagPending c e.1
    | none => false
  modDiag c fun d => { d with src := d.src.filter fun e => !idle e }

/-- DIAG_FIFO_CTL. A pop comes first (R1089). -/
def hookDiagCtl : Hook := fun w c =>
  let c1 := if w.hit 0 then diagPop c else c
  if w.hit 1 then diagPurge c1 else c1

/-- DIAG_SRC_CNT.OCC: ones written clear bits of the selected record's count. -/
def clearOcc (c : Chip) (m : Nat) : Chip :=
  let sel := (reg c 0x1F0030).toNat
  let cut (r : SrcRec) : SrcRec := { r with occ := r.occ - (r.occ &&& m) }
  match smGet srcDef c.diag.src sel with
  | some r => modDiag c fun d => { d with src := smPut srcDef d.src sel (some (cut r)) }
  | none =>
    if sel % 2 ^ 24 = 0 then
      modDiag c fun d => { d with catchAll := smMod catchDef d.catchAll (sel / 2 ^ 24) cut }
    else c

/-- NEXT: SEL moves to the next record in use, or to 0. -/
def diagNext (c : Chip) : Chip :=
  let sel := (reg c 0x1F0030).toNat
  setReg c 0x1F0030 (BitVec.ofNat 32 (((c.diag.src.find? fun e => decide (sel < e.1)).map fun e => e.1).getD 0))

/-- DIAG_SRC_CNT. -/
def hookDiagCnt : Hook := fun w c =>
  let c1 := clearOcc (setReg c w.off 0) (natBits w.data 0 16 &&& natBits w.mask 0 16)
  if w.hit 18 then diagNext c1 else c1

def popWrite (c : Chip) (fn : Fn) (v : Word) (be : BitVec 4) : Chip := writeWord hookDiagCtl c fn 0x1F0004 v be
def purgeWrite (c : Chip) (fn : Fn) (v : Word) (be : BitVec 4) : Chip := writeWord hookDiagCtl c fn 0x1F0004 v be
def nextWrite (c : Chip) (fn : Fn) (v : Word) (be : BitVec 4) : Chip := writeWord hookDiagCnt c fn 0x1F0034 v be

/-- A node-fatal fault: SAFE_HOLD with CAUSE 7, and NODE_FATAL (R1096). One that is found in the first steps of a
start, before START_UP has loaded an image, ends that start early (R1182): START_UP acts on it. -/
def nodeFatal (c : Chip) (cause : Nat) : Chip :=
  if 1 ≤ cause ∧ cause ≤ 6 then
    if c.mode.up then enterSafeHold (postError c 0x1B srcNode cause) 7
    else { c with mode := { c.mode with startFault := cause } }
  else c

/-! ## Memory errors (R1092 to R1094, R39) -/

/-- SOURCE of a memory region. -/
def srcMem (region : Nat) : Nat := srcRes 8 region

def countEcc (c : Chip) (uncorr : Bool) : Chip := countFld c 0x1F0050 (if uncorr then 16 else 0) 16

/-- Quality bad over a word. -/
def badWord (w : Nat) : Nat := w / 4 * 4 + 3

/-- An uncorrectable word of the frame memory: the point's words carry quality bad until its producer
writes again (R39). -/
def frameMemBad (c : Chip) (addr : Nat) : Chip :=
  let p := addr / 4 / 0x4000 * 2 ^ 20 + addr / 4 % 0x4000
  if pClass p ≠ 0 ∧ pointValid p = true then
    let e := point c p
    postError (setPoint c p { e with live := badWord e.live, snap := badWord e.snap }) 0x19 (srcPt p) addr
  else postError c 0x19 (srcMem 1) addr

/-- An uncorrectable word of the table memories: reported, also to the keeper; in the copy in force it makes
its entry unusable (R39). -/
def tableMemBad (c : Chip) (addr : Nat) : Chip :=
  let c1 := faultEvent (postError c 0x19 (srcMem 2) addr) 0x19 (srcMem 2) 0 [0]
  match tableAt (addr * 8) with
  | some d => if (addr * 8 - d.base) / d.half = activeCopy c d then tableFails c1 d.code (addr * 8) else c1
  | none => c1

/-- An item of SRAM is discarded and counted by the loss counter of its use: an entry of a hold queue, or
a record that waits for its delivery; other uses have no loss counter. -/
def sramItemLost (c : Chip) (use : Nat) : Chip :=
  let fn := use / 4 % 9
  let i := use / 36
  match use % 4 with
  | 0 =>
    match (fnSt c fn).hold[i]? with
    | some e => gapOne (modFn c fn fun f => { f with hold := f.hold.eraseIdx i }) fn e.kind e.frame
    | none => c
  | 1 =>
    if i < (fnSt c fn).recQ.length then recLoss (modFn c fn fun f => { f with recQ := f.recQ.eraseIdx i }) fn 1 else c
  | _ => c

/-- An entry of a ring, error or receive FIFO buffer is lost under the ring's loss rules. -/
def bufferItemLost (c : Chip) (use : Nat) : Chip :=
  let i := use / 36
  match use % 4 with
  | 0 => gapOne c (use / 4 % 9) 0 (frameNum c % 2 ^ 32)
  | 1 => recLoss c (use / 4 % 9) 1
  | 2 =>
    if i < c.diag.fifo.length then
      setReg (modDiag c fun d => { d with fifo := d.fifo.eraseIdx i }) 0x1F0020
        (BitVec.ofNat 32 (satInc 32 (reg c 0x1F0020).toNat))
    else c
  | _ =>
    let n := use / 4 % 8
    if i < (canSt c n).fifo.length then
      countFld (modCan c n fun x => { x with fifo := x.fifo.eraseIdx i }) (canCnt n) 16 16
    else c

/-- An NVM page is flagged by page ECC: an image page (R153), or a page of the recorder's ring area, tail or OT area, which
the node ignores from then on (R771, R800).

DESIGN CHOICE: the areas follow the image banks in this order; the chapters give them no addresses (log 156). -/
def nvmPageBad (c : Chip) (page : Nat) : Chip :=
  let lost (f : RecSt → RecSt) : Chip := { c with rcd := f c.rcd }
  if page < 0x8000 then { c with img := { c.img with flagged := smPut (fun _ => false) c.img.flagged page true } }
  else if page < 0xC000 then
    let k := (page - 0x8000) * 2
    lost fun r => { r with ring := smDel (smDel r.ring k) (k + 1) }
  else if page < 0xC800 then lost fun r => { r with tail := r.tail.filter fun t => t.n % 2048 != page - 0xC000 }
  else if page < 0xCA00 then
    lost fun r => { r with
      otPages := smPut (fun _ => none) r.otPages (page - 0xC800) none
      intent := if r.intentPage = page - 0xC800 ∧ flag c 0x180008 2 = false then none else r.intent }
  else c

/-- The channels that run at an instruction of the program memory halt (R1092). -/
def progMemBad (c : Chip) (i : Nat) : Chip :=
  (List.range 8).foldl (fun c n => if dpRuns c n && dpPc c n == i % 2048 then haltDp c n 5 else c) c

/-- SCRUB: a word is read and rewritten; `err` is 0 none, 1 correctable, 2 uncorrectable. In sentry state the SRAM
accepts no access (R126). -/
def scrub (c : Chip) (region addr err : Nat) : Chip :=
  if err = 0 ∨ (region = 0 ∧ inSentry c 28 = true) then c
  else if err = 1 then postError (countEcc c false) 0x18 (srcMem region) addr
  else
    let c1 := countEcc c true
    match region with
    | 0 => postError (sramItemLost c1 (Config.memoryUse 0 addr)) 0x19 (srcMem 0) addr
    | 1 => frameMemBad c1 addr
    | 2 => tableMemBad c1 addr
    | 3 => nodeFatal (postError c1 0x19 (srcMem 3) addr) 3
    | 4 => postError (nvmPageBad c1 (addr / 32)) 0x19 (srcMem 4) addr
    | 5 => postError (bufferItemLost c1 (Config.memoryUse 5 addr)) 0x19 (srcMem 5) addr
    | _ => postError (progMemBad c1 (addr / 2)) 0x19 (srcMem 6) addr

end Sys2Proof.Machine
end

