-- ==== Sys2Proof/Machine/Images.lean ====
section
/-! DEFINITION. User images: the checks of a bank, selection, loading, erase, commit and apply
(R152 to R166, R1179 to R1183, R1097 to R1102). -/

namespace Sys2Proof.Machine

/-! ## A bank in NVM: 1 is bank A, 2 is bank B -/

def imgBase (b : Nat) : Nat := (b - 1) * 0x400000
def imgNat (c : Chip) (b o n : Nat) : Nat := memNat erasedByte c.nvm (imgBase b + o) n
def imgBytes (c : Chip) (b o n : Nat) : List Byte := memRead erasedByte c.nvm (imgBase b + o) n

/-- The 4 bytes at an offset of the commit page. -/
def commitNat (c : Chip) (b o : Nat) : Nat := imgNat c b (0x3FFF00 + o) 4

/-- Page number of the commit page. -/
def commitPage (b : Nat) : Nat := (b - 1) * 0x4000 + 0x3FFF

def pageFlagged (c : Chip) (p : Nat) : Bool := smGet (fun _ => false) c.img.flagged p
def pageProg (c : Chip) (p : Nat) : Bool := smGet (fun _ => false) c.img.prog p

/-- A directory entry (R158). -/
structure Sect where
  type : Nat
  flags : Nat
  off : Nat
  len : Nat
  crc : Nat
  deriving DecidableEq, Repr

def sectAt (c : Chip) (b i : Nat) : Sect :=
  let o := 0x40 + 16 * i
  { type := imgNat c b o 2, flags := imgNat c b (o + 2) 2, off := imgNat c b (o + 4) 4, len := imgNat c b (o + 8) 4,
    crc := imgNat c b (o + 12) 4 }

def sectCount (c : Chip) (b : Nat) : Nat := imgNat c b 0x0C 2

def sects (c : Chip) (b : Nat) : List Sect := (List.range (sectCount c b)).map fun i => sectAt c b i

def imgLength (c : Chip) (b : Nat) : Nat := imgNat c b 8 4

/-- Two sections overlap (R159).

DESIGN CHOICE: a section of LENGTH 0 whose OFFSET lies strictly inside another overlaps it; the chapter does not say
(log 84). -/
def overlap (a b : Sect) : Bool := decide (a.off < b.off + b.len) && decide (b.off < a.off + a.len)

def anyOverlap : List Sect → Bool
  | [] => false
  | s :: t => t.any (overlap s) || anyOverlap t

def roundUp (n k : Nat) : Nat := (n + k - 1) / k * k

/-- LENGTH of the header (R1179); `commit` is LENGTH of the commit page, none before it exists. -/
def lengthOk (c : Chip) (b : Nat) (commit : Option Nat) : Bool :=
  let n := imgLength c b
  n % 256 == 0 && decide (n ≤ 0x3FFF00)
    && n == roundUp (((sects c b).map fun s => s.off + s.len).foldl max 0) 256
    && decide (0x40 + 16 * sectCount c b ≤ n)
    && (match commit with
        | some m => n == m
        | none => true)

/-- Check 4 of R153 (R157 to R159, R1179).

DESIGN CHOICE: R158 does not say which check an OFFSET that is no multiple of 16 fails; it fails this one (log 83). -/
def headerOk (c : Chip) (b : Nat) (commit : Option Nat) : Bool :=
  imgNat c b 0 4 == 0x495A4C43 && imgNat c b 0x3C 4 == crc32 (imgBytes c b 0 0x3C)
    && decide (1 ≤ sectCount c b) && decide (sectCount c b ≤ 256)
    && imgNat c b 0x0E 2 == 0 && imgNat c b 0x18 36 == 0
    && ((sects c b).all fun s => s.flags == 0 && s.off % 16 == 0) && !anyOverlap (sects c b) && lengthOk c b commit

/-- NODE_STEPPING[15:0] (R205). -/
def stepCode (c : Chip) : Nat := fld c 4 0 16

/-- Check 5 of R153. -/
def formatOk (c : Chip) (b : Nat) : Bool := imgNat c b 4 2 == 1 && decide (imgNat c b 6 2 ≤ stepCode c)

/-- The commit record passes checks 1 to 3. -/
def commitRecord (c : Chip) (b : Nat) : Nat :=
  if !pageProg c (commitPage b) && !pageFlagged c (commitPage b) then 1
  else if pageFlagged c (commitPage b) then 2
  else if commitNat c b 0 ≠ 0x54494D43 ∨ commitNat c b 0xFC ≠ 0xA5A55A5A then 3
  else 0

/-- Checks 1 to 5 of R153: 0, or the reason of the first that fails. -/
def firstChecks (c : Chip) (b : Nat) : Nat :=
  let r := commitRecord c b
  if r ≠ 0 then r
  else if !headerOk c b (some (commitNat c b 8)) then 4
  else if !formatOk c b then 5 else 0

/-- GENERATION that NODE_IMG_GEN shows: 0 for a bank that fails check 3. -/
def imgGen (c : Chip) (b : Nat) : Nat := if commitRecord c b = 0 then commitNat c b 4 else 0

/-! ## Loading -/

/-- The copy that an image load writes: a section's bytes beyond the size that the table uses are not stored (R209). -/
def loadCopy (c : Chip) (d : TableDesc) (copy : Nat) (bs : Option (List Byte)) : Chip :=
  let base := copyBase d copy
  { c with tables :=
      match bs with
      | some xs => memLoad tblDef c.tables base d.half (xs.take d.used)
      | none => memClear c.tables base d.half }

/-- Bytes of the section of a type, of its first occurrence. -/
def sectBytes (c : Chip) (b type : Nat) : Option (List Byte) :=
  ((sects c b).find? fun s => s.type == type).map fun s => imgBytes c b s.off s.len

/-- Put every table of the bank, or the factory's where it holds none, into a copy of each table that
`copy` selects. -/
def loadAllTables (c : Chip) (b : Nat) (copy : Chip → TableDesc → Nat) : Chip :=
  tableDescs.foldl (fun x d => loadCopy x d (copy x d) (if b = 0 then none else sectBytes c b d.code)) c

/-- Fields of a register that an image may set (R152, R161). -/
def userFields (d : RegDesc) : List Fld := d.fields.filter fun f => f.user

/-- A register-default entry (R161). Of two entries that name one register the later sets its fields last.

DESIGN CHOICE: a reserved code in an enumerated field leaves the field's default, and its section is accepted; R195 speaks
of writes, and R161 and R162 name no such check (log 126). -/
def setDefault (c : Chip) (off v : Nat) : Chip :=
  match findReg off with
  | some d =>
    (userFields d).foldl (fun c f => setFld c off f.lo f.width (ruleStore f.rule (fld c off f.lo f.width) (natBits v f.lo f.width))) c
  | none => c

/-- Every such field of a register back at its v. -/
def userToDefault (c : Chip) (off : Nat) : Chip :=
  match findReg off with
  | some d => (userFields d).foldl (fun c f => setFld c off f.lo f.width (natBits (regDefault off).toNat f.lo f.width)) c
  | none => c

/-- The entries of a register-defaults section: offset and value. -/
def defaultEntries (bs : List Byte) : List (Nat × Nat) :=
  (cutAll 8 bs).map fun x => (leNat (x.take 4), leNat (x.drop 4))

/-- The register-defaults section of a bank, entry by entry.

DESIGN CHOICE: two entries that name one offset are both taken, and the later one stands; R161 and R162 are silent
(log 139). -/
def loadDefaults (c : Chip) (b : Nat) : Chip :=
  match (if b = 0 then none else sectBytes c b 1) with
  | some bs => (defaultEntries bs).foldl (fun c e => setDefault c e.1 e.2) c
  | none => c

/-- The "U v" fields of the registers from `lo` up to `hi`, which hold their v, take their values from the loaded image (R13,
R152). -/
def reloadDefaults (c : Chip) (lo hi : Nat) : Chip :=
  let b := fld c 0x120 0 2
  match (if b = 0 then none else sectBytes c b 1) with
  | some bs => ((defaultEntries bs).filter fun e => decide (lo ≤ e.1) && decide (e.1 < hi)).foldl (fun c e => setDefault c e.1 e.2) c
  | none => c

/-- The node as it would stand with a bank loaded, for the checks of its sections. -/
def imageCandidate (c : Chip) (b : Nat) : Chip :=
  loadDefaults (loadAllTables
    { c with regs := [], tables := [], mode := { c.mode with frames := false } } b fun _ _ => 0) b

/-- A register-defaults section (R122, R161, R162, R381, R949).

DESIGN CHOICE: one whose LENGTH is no multiple of 8 is refused; no rule names that check (log 140). -/
def defaultsOk (cand : Chip) (bs : List Byte) : Bool :=
  bs.length % 8 == 0
    && ((defaultEntries bs).all fun e =>
      match findReg e.1 with
      | some d => e.1 % 4 == 0 && !(userFields d).isEmpty
          && e.2 &&& (d.fields.map fun f => (2 ^ f.width - 1) * 2 ^ f.lo).sum == e.2
      | none => false)
    && ([3, 4, 5, 7] : List Nat).contains (fld cand 0x108 0 4)
    && (sdlEn cand || (fld cand 0x108 0 4 != 5 && fld cand 0x108 0 4 != 7))
    && (List.range 128).all fun ch => setupOk cand ch (setupRegs cand ch)

/-- Load checks of a section against the candidate; producer notes are taken as they are (R160).

DESIGN CHOICE: no check names a LENGTH that differs from the table's size. Any LENGTH up to the table's half region is
taken; bytes past the section's end read 0, and bytes past the size that the table uses are dropped (log 127). -/
def sectOk (c cand : Chip) (b : Nat) (s : Sect) : Bool :=
  if 0x8000 ≤ s.type then true
  else if s.type = 1 then defaultsOk cand (imgBytes c b s.off s.len)
  else match tableDesc s.type with
    | some d => decide (s.len ≤ d.half) && (checkTable cand s.type).isNone
    | none => false

/-- Types that R160 refuses: reserved, or held by an earlier entry.

DESIGN CHOICE: type 0x0000, which stands in no row of R160's table, counts as reserved (log 128). -/
def badTypes : List Nat → List Sect → Nat → Option Nat
  | _, [], _ => none
  | seen, s :: t, i =>
    if s.type = 0 ∨ (0xC ≤ s.type ∧ s.type < 0x8000) ∨ seen.contains s.type = true then some i
    else badTypes (s.type :: seen) t (i + 1)

/-- Check 9: the section that R1180 names, none when every section is accepted. -/
def sectRefused (c : Chip) (b : Nat) : Option Nat :=
  match badTypes [] (sects c b) 0 with
  | some i => some i
  | none =>
    let cand := imageCandidate c b
    (sects c b).findIdx? fun s => !sectOk c cand b s

/-- Checks 6 to 9: 0, or the reason, and FAIL_SECTION; `crc` is IMAGE_CRC, none before a commit. -/
def restChecks (c : Chip) (b : Nat) (crc : Option Nat) : Nat × Option Nat :=
  let n := imgLength c b
  if (List.range (n / 256)).any fun i => pageFlagged c ((b - 1) * 0x4000 + i) then (7, none)
  else if (match crc with
      | some x => crc32 (imgBytes c b 0 n) != x
      | none => false) then (6, none)
  else match (sects c b).findIdx? fun s => crc32 (imgBytes c b s.off s.len) != s.crc with
    | some i => (8, some i)
    | none =>
      match sectRefused c b with
      | some i => (9, some i)
      | none => (0, none)

/-- Every check of R153. -/
def bankReason (c : Chip) (b : Nat) : Nat × Option Nat :=
  let r := firstChecks c b
  if r ≠ 0 then (r, none) else restChecks c b (some (commitNat c b 12))

/-- The outcome of R154 and R155: the bank loaded (0 factory), the reasons of A and B, FAIL_SECTION. -/
structure Selection where
  loaded : Nat
  a : Nat
  b : Nat
  fail : Option Nat
  /-- SEQ_LOAD_ERR of the last scan table that check 9 refused (R353) -/
  scan : Option LoadErr
  deriving DecidableEq, Repr

def bankOrder (c : Chip) : List Nat :=
  let ok := ([1, 2] : List Nat).filter fun b => firstChecks c b == 0
  if ok.length = 2 ∧ commitNat c 1 4 < commitNat c 2 4 then [2, 1] else ok

/-- The refusal of the scan table that check 9 names, when it names one (R351, R353, R1198). -/
def scanRefusal (c : Chip) (b : Nat) (f : Option Nat) : Option LoadErr :=
  match f.bind fun i => (sects c b)[i]? with
  | some s => if s.type = 3 then checkTable (imageCandidate c b) 3 else none
  | none => none

/-- Try the banks in order (R149 steps 5 and 6). -/
def tryBanks (c : Chip) : List Nat → Selection → Selection
  | [], s => s
  | b :: t, s =>
    let (r, f) := restChecks c b (some (commitNat c b 12))
    let fail := if r = 8 ∨ r = 9 then f else s.fail
    let s0 := { s with fail := fail, scan := if r = 9 then (scanRefusal c b f).orElse fun _ => s.scan else s.scan }
    let s1 := if b = 1 then { s0 with a := r } else { s0 with b := r }
    if r = 0 then { s1 with loaded := b } else tryBanks c t s1

def selectImage (c : Chip) : Selection :=
  let reason (b : Nat) : Nat := let r := firstChecks c b; if r = 0 then 15 else r
  tryBanks c (bankOrder c) { loaded := 0, a := reason 1, b := reason 2, fail := none, scan := none }

def reasonBad (r : Nat) : Bool := decide (1 ≤ r) && decide (r ≤ 9)

/-- Load the image of a selection (R149 steps 5 and 6): registers, tables, NODE_IMG_STAT, the clear code,
SEQ_LOAD_ERR of a refused scan table (R353), and IMAGE_BANK for an invalid bank (R39). -/
def loadImage (c : Chip) (s : Selection) : Chip :=
  let c1 := loadDefaults (loadAllTables c s.loaded fun _ _ => 0) s.loaded
  let c2 := setReg c1 0x120 (BitVec.ofNat 32 (s.loaded + s.a * 4 + s.b * 64 + (s.fail.getD 0xFFFF) % 65536 * 65536))
  let c3 := { c2 with img := { c2.img with clearCode := if s.loaded = 0 then 0 else imgNat c s.loaded 0x14 4 } }
  let c4 := match s.scan with
    | some e => loadSeqErr (setReg c3 0x40004 (BitVec.ofNat 32 (frameLenOf c3))) e
    | none => setReg c3 0x40004 (BitVec.ofNat 32 (frameLenOf c3))
  if reasonBad s.a || reasonBad s.b then
    postErrorSev c4 0x14 (if reasonBad s.a && reasonBad s.b then 3 else 2) srcNode (s.a + s.b * 16) false
  else c4

/-! ## Erase and commit (R163 to R166) -/

/-- The bank of an OP of NODE_IMG_CMD. -/
def opBank (op : Nat) : Nat := if op = 1 ∨ op = 3 then 1 else 2

/-- RESULT of NODE_IMG_CMD. -/
def setImgResult (c : Chip) (r : Nat) : Chip := setFld c 0x124 4 4 r

/-- The applied bank while MIXED is set (R1101, R1102). -/
def appliedBank (c : Chip) : Nat := if flag c 0x130 18 then fld c 0x130 16 2 else 0

/-- GENERATION of the next commit (R165). -/
def nextGen (c : Chip) : Nat :=
  1 + ((([1, 2] : List Nat).filter fun b => firstChecks c b == 0).map fun b => commitNat c b 4).foldl max 0

/-- Checks 4 to 9 before a commit (R164). -/
def commitChecks (c : Chip) (b : Nat) : Nat :=
  if !headerOk c b none then 4 else if !formatOk c b then 5 else (restChecks c b none).1

/-- RESULT of a refused erase or commit, 0 when it begins. -/
def imgRefusal (c : Chip) (op : Nat) : Nat :=
  let b := opBank op
  if b = fld c 0x120 0 2 ∨ (op ≤ 2 ∧ b = appliedBank c) then 2
  else if op ≤ 2 then 0
  else if 0xFFFFFFFF < nextGen c then 3 else commitChecks c b

/-- NODE_IMG_CMD: GO starts OP; while an operation runs it stands (R1184). A page of the NVM window is whole before the
operation begins (R165).

DESIGN CHOICE: GO with OP 0, which names no operation, ends at once with RESULT 0 (log 51). -/
def hookImgCmd : Hook := fun w c =>
  let go := w.hit 3
  if c.img.op.isSome then setFlag c 0x124 3 true
  else
    let c1 := setFlag c 0x124 3 false
    if !go then c1
    else if w.badCode then setImgResult c1 2
    else
      let op := fld c1 0x124 0 3
      if op = 0 then setImgResult c1 0
      else
        let r := imgRefusal c1 op
        if r ≠ 0 then setImgResult c1 r
        else setImgResult (setFlag { c1 with img := { c1.img with op := some op, writing := none } } 0x124 3 true) 1

def imgCmdWrite (c : Chip) (fn : Fn) (v : Word) (be : BitVec 4) : Chip := writeWord hookImgCmd c fn 0x124 v be

/-- Every page of a bank is erased. -/
def eraseBank (c : Chip) (b : Nat) : Chip :=
  let p := (b - 1) * 0x4000
  let out {α : Type} (m : SMap α) : SMap α := smKeep (fun k => !(decide (p ≤ k) && decide (k < p + 0x4000))) m
  { c with
    nvm := memClear c.nvm (imgBase b) 0x400000
    img := { c.img with stage := memClear c.img.stage (imgBase b) 0x400000, prog := out c.img.prog, flagged := out c.img.flagged } }

/-- The commit page of a bank. -/
def commitBytes (c : Chip) (b : Nat) : List Byte :=
  let n := imgLength c b
  natLe 4 0x54494D43 ++ natLe 4 (nextGen c) ++ natLe 4 n ++ natLe 4 (crc32 (imgBytes c b 0 n))
    ++ List.replicate 236 0xFF ++ natLe 4 0xA5A55A5A

/-- The commit page is programmed last, every page of the window being whole before it (R165), when it is erased; else the
page and an open RESULT stand (R167). A CONFIG record follows (R775). -/
def commitBank (c : Chip) (b : Nat) : Chip :=
  if pageProg c (commitPage b) || pageFlagged c (commitPage b) then
    setImgResult (takeFree c) (Config.freeValue c.free)
  else
    let g := nextGen c
    let c1 := { c with
      nvm := memWrite erasedByte c.nvm (imgBase b + 0x3FFF00) (commitBytes c b)
      img := { c.img with prog := smPut (fun _ => false) c.img.prog (commitPage b) true } }
    nodeRec c1 7 0xFF [0xFF, g]

/-- IMAGE_OP_DONE: the erase or commit in progress ends.

DESIGN CHOICE: the window goes on taking pages of the bank in between. The end of an erase erases them too, with no report;
a commit page is written for what the bank then holds, with no further check (R164, R217; log 129). -/
def imageOpDone (c : Chip) : Chip :=
  match c.img.op with
  | none => c
  | some op =>
    let c1 := setImgResult (setFlag { c with img := { c.img with op := none } } 0x124 3 false) 0
    if op ≤ 2 then eraseBank c1 (opBank op)
    else commitBank { c1 with img := { c1.img with writing := none } } (opBank op)

/-! ## Apply (R1097 to R1102) -/

/-- The bank that an apply takes: the one not loaded; with the factory image, the one that R154 would try
first. -/
def applyBank (c : Chip) : Nat :=
  match fld c 0x120 0 2 with
  | 1 => 2
  | 2 => 1
  | _ => (bankOrder c).headD 1

/-- The refusals of R1098. -/
def applyRefusal (c : Chip) : Nat :=
  let b := applyBank c
  let loaded := fld c 0x120 0 2
  if (bankReason c b).1 ≠ 0 ∨ (loaded ≠ 0 ∧ imgGen c b ≤ imgGen c loaded) then 2
  else if tableDescs.any fun d => flag c d.stat 1 then 3
  else if ([mScan, mRun, mService, mDegraded] : List Nat).contains (nodeMode c) then 0 else 4

/-- The first table whose check fails when every table is swapped at once, with its refusal (R1099). -/
def applyFails (c : Chip) : Option (Nat × LoadErr) :=
  let all := tableDescs.map fun d => d.code
  let x := withSwaps c all
  all.findSome? fun k => (checkTable x k).map fun e => (k, e)

/-- NODE_IMG_APPLY.GO. -/
def imageApply (c : Chip) : Chip :=
  let r := applyRefusal c
  if r ≠ 0 then setFld c 0x130 0 4 r
  else
    let b := applyBank c
    let c1 := loadAllTables c b fun x d => 1 - activeCopy x d
    match applyFails c1 with
    | some (k, e) => setFld (setFld (loadSeqErr c1 e) 0x130 0 4 5) 0x130 8 8 k
    | none =>
      let c2 := setFld { c1 with img := { c1.img with apply := some b } } 0x130 0 4 1
      tableDescs.foldl (fun c d => shareSwap (setFlag c d.stat 1 true) d.code) c2

def hookApply : Hook := fun w c =>
  let c1 := setFlag c 0x130 31 false
  if w.hit 31 then imageApply c1 else c1

def applyWrite (c : Chip) (fn : Fn) (v : Word) (be : BitVec 4) : Chip := writeWord hookApply c fn 0x130 v be

/-- At the boundary at which its swaps take effect an apply ends: RESULT 0, BANK and MIXED (R1101). -/
def applyDone (c : Chip) : Chip :=
  match c.img.apply with
  | some b =>
    setFlag (setFld (setFld { c with img := { c.img with apply := none } } 0x130 0 4 0) 0x130 16 2 b) 0x130 18 true
  | none => c

end Sys2Proof.Machine
end

