-- ==== Sys2Proof/Machine/Update.lean ====
section
/-! DEFINITION. Engine microcode (R1103 to R1111). Engine 1 is the control engine, 2 Floodplain. -/

namespace Sys2Proof.Machine

def modUpd (c : Chip) (f : UpdSt → UpdSt) : Chip := { c with upd := f c.upd }
def bytesDef (_ : Nat) : List Byte := []
def pkgDef (_ : Nat) : Option (List Byte) := none
def slotDef (_ : Nat) : Option (Nat × List Byte) := none

def ucStage (c : Chip) (e : Nat) : List Byte := smGet bytesDef c.upd.stage e
def ucForce (c : Chip) (e : Nat) : Option (List Byte) := smGet pkgDef c.upd.force e
def ucSlot (c : Chip) (e k : Nat) : Option (Nat × List Byte) := smGet slotDef c.upd.slots (e * 2 + k)
def ucWait (c : Chip) (e : Nat) : Option (List Byte) := smGet pkgDef c.upd.wait e

def setUcForce (c : Chip) (e : Nat) (p : Option (List Byte)) : Chip :=
  modUpd c fun u => { u with force := smPut pkgDef u.force e p }

/-- Largest number of bytes a staging store takes (R1104). -/
def ucMax : Nat := 0x60 + 262144

/-- The engine's domain (R89): CTRL, ALARM. -/
def ucDomain (e : Nat) : Nat := if e = 1 then 23 else 24

/-- RESULT of NODE_UC_CTL. -/
def setUcResult (c : Chip) (r : Nat) : Chip := setFld c 0x140 8 4 r

/-- CTRL_SRC or ALM_SRC of NODE_UC_STAT. -/
def ucSrc (c : Chip) (e : Nat) : Nat := fld c 0x148 (18 + 2 * e) 2
def setUcSrc (c : Chip) (e s : Nat) : Chip := setFld c 0x148 (18 + 2 * e) 2 s

/-- VERSION of a package; the ROM microcode, held as no bytes, has version 0. -/
def pkgVersion (p : List Byte) : Nat := cfgField p 6 2

/-- NODE_UCODE_VER shows the version in force of each engine. -/
def showVersion (c : Chip) (e : Nat) : Chip :=
  setFld c 0x20 (16 * (e - 1)) 16 (pkgVersion ((ucForce c e).getD []))

/-- The checks of R1105 on a package for an engine, less that of its domain: 0, or the RESULT of the first that fails. -/
def pkgCheck (c : Chip) (e : Nat) (p : List Byte) : Nat :=
  let len := cfgField p 0xC 4
  if p.length < 0x60 ∨ cfgField p 0 4 ≠ 0x555A4C43 ∨ cfgField p 5 1 ≠ 0 ∨ cfgField p 0xA 2 ≠ 0 ∨ cfgField p 0x14 8 ≠ 0 then 2
  else if cfgField p 4 1 ≠ e then 6
  else if len % 8 ≠ 0 ∨ len < 8 ∨ 262144 < len ∨ p.length ≠ 0x60 + len then 7
  else if cfgField p 0x1C 4 ≠ crc32 (p.take 0x1C) then 2
  else if cfgField p 0x10 4 ≠ crc32 (p.drop 0x60) then 3
  else if stepCode c < cfgField p 8 2 then 5
  else if !Config.sigOk p then 4
  else 0

/-- OPEN: the staging store of the engine is emptied (R1104). -/
def ucOpen (c : Chip) (e : Nat) : Chip :=
  setFld (modUpd c fun u => { u with stage := smPut bytesDef u.stage e [], openEng := e }) 0x148 0 19 0

/-- A write of NODE_UC_DATA appends 4 bytes; what does not fit is discarded and sets OVERFLOW (R1104). A write that
does not enable all four acts on nothing (R178). -/
def hookUcData : Hook := fun w c =>
  let e := c.upd.openEng
  if e = 0 ∨ w.mask ≠ 0xFFFFFFFF then c
  else
    let s := ucStage c e ++ natLe 4 w.data
    let c1 := if ucMax < s.length then setFlag c 0x148 24 true else c
    let s1 := s.take ucMax
    setFld (modUpd c1 fun u => { u with stage := smPut bytesDef u.stage e s1 }) 0x148 0 19 s1.length

/-- APPLY: the staged package waits for the next boundary (R1105, R1106). -/
def ucApply (c : Chip) (e : Nat) : Chip :=
  let p := ucStage c e
  let r := pkgCheck c e p
  if r ≠ 0 then setUcResult c r
  else if !domOn c (ucDomain e) then setUcResult c 6
  else setUcResult (setFlag (modUpd c fun u => { u with wait := smPut pkgDef u.wait e (some p) }) 0x148 19 true) 0

/-- Generation of a slot; 0 when it is erased. -/
def slotGen (c : Chip) (e k : Nat) : Nat := ((ucSlot c e k).map fun x => x.1).getD 0

/-- The older start-up slot of an engine. -/
def olderSlot (c : Chip) (e : Nat) : Nat :=
  if (ucSlot c e 0).isNone then 0 else if (ucSlot c e 1).isNone then 1 else if slotGen c e 1 < slotGen c e 0 then 1 else 0

/-- STORE ends: the microcode in force stands in the older slot, with a generation one greater (R1109). -/
def ucStoreEnd (c : Chip) (e : Nat) : Chip :=
  let k := olderSlot c e
  let g := max (slotGen c e 0) (slotGen c e 1) + 1
  let p := (ucForce c e).getD []
  setUcSrc (modUpd c fun u => { u with slots := smPut slotDef u.slots (e * 2 + k) (some (g, p)) }) e (k + 1)

/-- ERASE ends: both slots are erased; microcode that was loaded from one is no longer stored (R1109). -/
def ucEraseEnd (c : Chip) (e : Nat) : Chip :=
  let c1 := modUpd c fun u => { u with slots := smDel (smDel u.slots (e * 2)) (e * 2 + 1) }
  if ucSrc c e = 0 then c1 else setUcSrc c1 e 3

/-- UCODE_STORE_DONE. -/
def ucStoreDone (c : Chip) : Chip :=
  match c.upd.op with
  | some (e, op) =>
    let c1 := setUcResult (setFlag (modUpd c fun u => { u with op := none }) 0x140 31 false) 0
    if op = 3 then ucStoreEnd c1 e else ucEraseEnd c1 e
  | none => c

/-- One OP of NODE_UC_CTL. -/
def ucOp (c : Chip) (op e : Nat) : Chip :=
  if e ≠ 1 ∧ e ≠ 2 then setUcResult c 6
  else if (ucWait c e).isSome then setUcResult c 8
  else match op with
    | 1 => setUcResult (ucOpen c e) 0
    | 2 => ucApply c e
    | 3 | 4 => setUcResult (setFlag (modUpd c fun u => { u with op := some (e, op) }) 0x140 31 true) 1
    | _ => setUcResult c 0

/-- NODE_UC_CTL: GO starts OP; a STORE or ERASE in progress stands (R1184). A reserved code is refused with
RESULT 6 (R196). -/
def hookUcCtl : Hook := fun w c =>
  if c.upd.op.isSome then setFlag c 0x140 31 true
  else
    let c1 := setFlag c 0x140 31 false
    if !w.hit 31 then c1
    else if w.badCode then setUcResult c1 6
    else ucOp c1 (fld c1 0x140 0 3) (fld c1 0x140 4 2)

def ucCtlWrite (c : Chip) (fn : Fn) (v : Word) (be : BitVec 4) : Chip := writeWord hookUcCtl c fn 0x140 v be
def ucDataWrite (c : Chip) (fn : Fn) (v : Word) (be : BitVec 4) : Chip := writeWord hookUcData c fn 0x144 v be

/-- Step 3 of R28: waiting microcode takes effect (R1106). -/
def ucSwap (c : Chip) : Chip :=
  let one (c : Chip) (e : Nat) : Chip :=
    match ucWait c e with
    | some p =>
      showVersion (setUcSrc (modUpd c fun u =>
        { u with wait := smPut pkgDef u.wait e none, force := smPut pkgDef u.force e (some p) }) e 3) e
    | none => c
  setFlag (one (one c 1) 2) 0x148 19 false

/-- A stored package loads: it passes R1105, or it is the ROM microcode that a STORE wrote. -/
def slotPasses (c : Chip) (e k : Nat) : Bool :=
  match ucSlot c e k with
  | some (_, p) => p.isEmpty || pkgCheck c e p == 0
  | none => false

/-- The engine's domain reaches ON: the slot with the greater generation that passes, else ROM (R1110). -/
def ucDomainOn (c : Chip) (e : Nat) : Chip :=
  let ks := ([0, 1] : List Nat).filter fun k => slotPasses c e k
  let best := ks.foldl (fun b k =>
    match b with
    | some j => if slotGen c e j < slotGen c e k then some k else b
    | none => some k) none
  match best with
  | some k =>
    showVersion (setUcSrc (setUcForce c e ((ucSlot c e k).map fun x => x.2)) e (k + 1)) e
  | none => showVersion (setUcSrc (setUcForce c e none) e 0) e

/-- The engine's domain turns off: what was applied and not stored is lost, and a waiting apply with it. -/
def ucDomainOff (c : Chip) (e : Nat) : Chip :=
  let c1 := modUpd c fun u => { u with wait := smPut pkgDef u.wait e none, force := smPut pkgDef u.force e none }
  setFlag c1 0x148 19 ((ucWait c1 1).isSome || (ucWait c1 2).isSome)

end Sys2Proof.Machine
end

