-- ==== Sys2Proof/Machine/Jtag.lean ====
section
/-! DEFINITION. The JTAG port: the test access port of IEEE 1149.1 with SAMPLE/PRELOAD and BYPASS, and the
boundary register of 169 capture cells (28_balls_signals). -/

namespace Sys2Proof.Machine

def modJtag (c : Chip) (f : JtagSt → JtagSt) : Chip := { c with jtag := f c.jtag }

/-- States of the controller, numbered: 0 Test-Logic-Reset, 1 Run-Test/Idle, 2 Select-DR, 3 Capture-DR,
4 Shift-DR, 5 Exit1-DR, 6 Pause-DR, 7 Exit2-DR, 8 Update-DR, 9 to 15 the same of the instruction register.
The state after a rising edge of TCK with TMS. -/
def tapNext (s : Nat) (tms : Bool) : Nat :=
  let p : Nat × Nat := match s with
    | 0 => (1, 0) | 1 => (1, 2) | 2 => (3, 9) | 3 => (4, 5) | 4 => (4, 5) | 5 => (6, 8) | 6 => (6, 7)
    | 7 => (4, 8) | 8 => (1, 2) | 9 => (10, 0) | 10 => (11, 12) | 11 => (11, 12) | 12 => (13, 15)
    | 13 => (13, 14) | 14 => (11, 15) | _ => (1, 2)
  if tms then p.2 else p.1

/-- The level that the model knows of the ball of capture cell `i`, in the order of R1128: trip inputs and
outputs, call outputs, quadrature inputs, status-port data, and a CAN output that is held recessive. -/
def ballLevel (c : Chip) (i : Nat) : Option Bool :=
  if 8 ≤ i ∧ i < 72 then
    let r := (i - 8) / 16
    let k := (i - 8) % 16
    if k < 8 then some (natBit c.trips.inputs (8 * r + k))
    else c.spt.data.map fun d => natBit d (8 * r + k - 8)
  else if 72 ≤ i ∧ i < 80 then some (tripOutput c (i - 72))
  else if 88 ≤ i ∧ i < 96 then some (tripOutput c (i - 80))
  else if 102 ≤ i ∧ i < 118 then some (tripOutput c (i - 86))
  else if 118 ≤ i ∧ i < 134 then some (callLevel c (i - 118))
  else if 141 ≤ i ∧ i < 153 then
    match (i - 141) % 3 with
    | 0 => some (posSt c ((i - 141) / 3)).qa
    | 1 => some (posSt c ((i - 141) / 3)).qb
    | _ => none
  else if 153 ≤ i ∧ i < 161 then canTxLevel c (i - 153)
  else none

/-- The boundary register after a capture: bit 168 - i is the cell i, bit 0 being nearest TDO. A ball whose
level the model does not hold gives a free value. -/
def captureBalls (c : Chip) : Nat :=
  ((List.range 169).map fun i =>
    2 ^ (168 - i) * (match ballLevel c i with
      | some b => b2n b
      | none => Config.freeValue (c.free + i) % 2)).sum

/-- Load the boundary register from the balls. -/
def captureBoundary (c : Chip) : Chip :=
  { modJtag c (fun j => { j with bnd := captureBalls c }) with free := c.free + 169 }

/-- SAMPLE/PRELOAD is the instruction in force (R1126). -/
def jtagSample (c : Chip) : Bool := c.jtag.ir == 1

/-- Shift a register of `n` bits by one: TDI enters at the top. -/
def shiftIn (n v : Nat) (tdi : Bool) : Nat := v / 2 + b2n tdi * 2 ^ (n - 1)

/-- What the rising edge of TCK does in the controller's present state. -/
def tapAction (c : Chip) (tdi : Bool) : Chip :=
  match c.jtag.tap with
  | 3 => if jtagSample c then captureBoundary c else modJtag c fun j => { j with byp := false }
  | 4 =>
    if jtagSample c then modJtag c fun j => { j with bnd := shiftIn 169 j.bnd tdi }
    else modJtag c fun j => { j with byp := tdi }
  | 10 => modJtag { c with free := c.free + 1 } fun j => { j with irShift := Config.freeValue c.free % 4 * 4 + 1 }
  | 11 => modJtag c fun j => { j with irShift := shiftIn 4 j.irShift tdi }
  | _ => c

/-- In Test-Logic-Reset the instruction is BYPASS, for there is no IDCODE (R1127). -/
def tapReset (c : Chip) : Chip := modJtag c fun j => { j with tap := 0, ir := 15, tdo := none }

/-- The rising edge: the action of the state, then the next state. -/
def tckRise (c : Chip) (tms tdi : Bool) : Chip :=
  let c1 := tapAction c tdi
  let s := tapNext c.jtag.tap tms
  if s = 0 then tapReset c1 else modJtag c1 fun j => { j with tap := s }

/-- The falling edge: an instruction takes effect in Update-IR, and TDO is driven only while shifting. -/
def tckFall (c : Chip) : Chip :=
  modJtag c fun j => { j with
    ir := if j.tap = 15 then j.irShift else j.ir
    tdo := match j.tap with
      | 4 => some (if jtagSample c then natBit j.bnd 0 else j.byp)
      | 11 => some (natBit j.irShift 0)
      | _ => none }

/-- An edge of TCK (R1126). -/
def tckEdge (c : Chip) (rising tms tdi : Bool) : Chip := if rising then tckRise c tms tdi else tckFall c

/-- The instruction SAMPLE/PRELOAD takes effect and captures the boundary register (R1126, R1128). -/
def samplePreload (c : Chip) : Chip := captureBoundary (modJtag c fun j => { j with ir := 1 })

/-- The instruction BYPASS takes effect (R1126). -/
def bypassSelect (c : Chip) : Chip := modJtag c fun j => { j with ir := 15 }

end Sys2Proof.Machine
end

