-- ==== Sys2Proof/Machine/RegRead.lean ====
section
/-! DEFINITION. Host reads of BAR0: every register as it reads, the size rule and the latch of 64-bit values
(05_register_model_map). -/

namespace Sys2Proof.Machine

/-- The generation registers of the image banks (R166). -/
def imgView (c : Chip) (off : Nat) : Option Nat :=
  match off with
  | 0x128 => some (imgGen c 1)
  | 0x12C => some (imgGen c 2)
  | _ => none

/-- The registers that a block computes from other state, by block. -/
def blockView (c : Chip) (fn off : Nat) : Option Nat :=
  match off / 0x10000 with
  | 0 => (imgView c off).orElse fun _ => nodeView c off
  | 1 => if off = 0x10000 then lcdView c off else powerView c off
  | 3 => powerView c off
  | 4 => blankView c off
  | 8 | 9 | 10 | 11 | 12 | 13 | 14 | 15 => (nodeView c off).orElse fun _ => acqView c off
  | 16 | 17 | 18 => loopView c off
  | 19 => tripView c off
  | 20 => actView c off
  | 21 => ctrlView c off
  | 22 => almView c off
  | 23 => callView c off
  | 24 => recView c off
  | 26 => dmaView c off
  | 27 => canView c off
  | 28 => sdlView c off
  | 29 => if off < 0x1D8000 then rtcView c fn off else lcdView c off
  | 31 => diagView c off
  | _ => none

/-- What a register reads (R197 where none is defined). -/
def readReg (c : Chip) (fn off : Nat) : Nat := (blockView c fn off).getD (reg c off).toNat % 2 ^ 32

/-- A request of `len` bytes from an offset that R174 accepts. -/
def sizeOk (off len : Nat) : Bool := decide (1 ≤ len) && decide (off % 8 + len ≤ 8)

/-- Is the offset the lower register of a 64-bit value, whose upper register follows it (R181)? -/
def isLower (off : Nat) : Bool :=
  let o := off % 0x10000
  match off / 0x10000 with
  | 0 => o == 0x10
  | 2 => decide (0x21100 ≤ off) && decide (off < 0x2A000) && off % 0x40 == 0 && decide (off % 0x1000 < 0x200)
      && decide (0x100 ≤ off % 0x1000)
  | 4 => o == 8
  | 19 => (decide (0x400 ≤ o) && decide (o < 0x600) && (o % 0x20 == 8 || o % 0x20 == 0x14)) || o == 0x810
  | 21 => decide (0x1000 ≤ o) && decide (o < 0x3000) && o % 0x40 == 0x10
  | 24 => o == 0x18
  | 25 => decide (0x100 ≤ o) && decide (o < 0x180) && o % 0x20 == 4
  | 26 => decide (0x400 ≤ o) && decide (o < 0x600) && (o % 0x40 == 8 || o % 0x40 == 0x10 || o % 0x40 == 0x20)
  | 27 => let p := o % 0x2000
          p == 0x20 || p == 0x28 || p == 0x30
            || (decide (0x400 ≤ p) && decide (p < 0x580) && (p - 0x400) % 0x60 == 8)
  | 29 => o == 0x14
  | 31 => [0x10, 0x18, 0x38, 0x40].contains o
  | _ => false

def latchDef (_ : Nat) : Option Word := none

/-- A read completion with a value. -/
def answer (c : Chip) (v : Nat) : Chip := { c with readOut := some (v % 2 ^ 64), readAbort := false }

/-- MALFORMED_BAR0_READ: Completer Abort for a request that breaks R174 (R175). Every access of a virtual function
completes successfully (R300).

DEDUCED: R300 says every access, so it takes a virtual function's from R175, and the answer is 0 as for a register it
does not reach (log 91). -/
def malformedRead (c : Chip) (fn off len : Nat) : Chip :=
  if sizeOk off len then c else if fn = 0 then { c with readOut := none, readAbort := true } else answer c 0

/-- UPPER_LATCH: a 4-byte read by a function. The lower register of a 64-bit value latches the upper one, and
the next read of the upper register returns the latched half (R181). -/
def upperLatch (c : Chip) (fn off : Nat) : Chip :=
  if off % 4 ≠ 0 then c
  else if !reachRead c fn off then answer c 0
  else if off = 0x1D0008 then calendarLatch c fn
  else if isLower off then
    answer (modFn c fn fun f => { f with latch := smPut latchDef f.latch (off + 4) (some (BitVec.ofNat 32 (readReg c fn (off + 4)))) })
      (readReg c fn off)
  else match smGet latchDef (fnSt c fn).latch off with
    | some w => answer (modFn c fn fun f => { f with latch := smPut latchDef f.latch off none }) w.toNat
    | none => answer c (readReg c fn off)

end Sys2Proof.Machine
end

