-- ==== Sys2Proof/Machine/HostPort.lean ====
section
/-! DEFINITION. The host port: ring set-up, doorbells, messages, the draining of held entries, and the resets
of the host interface (06_host_rings_doorbells). -/

namespace Sys2Proof.Machine

/-! ## Messages (R228, R244, R245) -/

/-- Vector control word of a vector in the function's MSI-X table. -/
def msixCtl (fn vec : Nat) : Nat := hostPage fn + 0x800 + vec * 16 + 12

def msixPba (fn : Nat) : Nat := hostPage fn + 0xC00

/-- Send the message of a vector; a masked vector sets its pending bit instead. -/
def msixSend (c : Chip) (fn vec : Nat) : Chip :=
  if flag c (msixCtl fn vec) 0 then setFlag c (msixPba fn) vec true
  else modFn c fn fun f => { f with msg := f.msg ||| 2 ^ vec }

/-- A vector that is unmasked while its pending bit is set sends its message. -/
def hookMsix : Hook := fun w c =>
  let fn := (w.off - 0x21000) / 0x1000
  let vec := (w.off % 0x1000 - 0x800) / 16
  if w.off % 16 = 12 ∧ flag c (msixPba fn) vec = true ∧ flag c w.off 0 = false then
    msixSend (setFlag c (msixPba fn) vec false) fn vec
  else c

/-- MSIX_MESSAGE: the ring of the vector has entries not yet signalled (R245). -/
def msixMessage (c : Chip) (fn vec : Nat) : Chip :=
  if vec < 3 ∧ flag c (ringBase fn (vec + 1) + 8) 9 = true ∧ natBit (fnSt c fn).unsig vec = true then
    msixSend (modFn c fn fun f => { f with unsig := f.unsig - 2 ^ vec }) fn vec
  else c

/-! ## Draining (R271, R275, R276) -/

/-- Write held event entries, the GAP event that is due first, while the ring has room.

DESIGN CHOICE: the GAP goes out before the next entry also where that entry continues an event whose first entries are in
the ring already: R275 and R248 do not say which gives way (log 123). -/
def drainHold : Nat → Nat → Chip → Chip
  | 0, _, c => c
  | n + 1, fn, c =>
    if !ringRoom c fn 2 then c
    else if (fnSt c fn).gapN ≠ 0 then drainHold n fn (putGap c fn)
    else match (fnSt c fn).hold with
      | [] => c
      | e :: t => drainHold n fn (putEvRaw (modFn c fn fun f => { f with hold := t }) fn e.body)

/-- HOLD_QUEUE_DRAIN. The SRAM gives no access in its sentry state (R126). -/
def holdQueueDrain (c : Chip) (fn : Nat) : Chip :=
  if !fnEnabled c fn || inSentry c 28 then c else eventRise (drainHold 1026 fn c) fn (ringOcc c fn 2)

/-- Deliver held records while the ring has room. -/
def drainRecs : Nat → Nat → Chip → Chip
  | 0, _, c => c
  | n + 1, fn, c =>
    if !ringRoom c fn 3 then c
    else if (fnSt c fn).recLost ≠ 0 then drainRecs n fn (putRecGap c fn)
    else match (fnSt c fn).recQ with
      | [] => c
      | d :: t => drainRecs n fn (putRecRaw (modFn c fn fun f => { f with recQ := t }) fn (recEntry d.rkind 0 d.bytes))

/-- RECORD_DELIVERY. -/
def recordDelivery (c : Chip) (fn : Nat) : Chip := if fnEnabled c fn then drainRecs 4097 fn c else c

/-! ## Ring set-up (R229, R234 to R236, R281, R282) -/

def log2Max (r : Nat) : Nat := if r = 2 then 14 else 12
def log2Ok (r n : Nat) : Bool := decide (4 ≤ n) && decide (n ≤ log2Max r)

/-- Entries that would go to a ring that was disabled are discarded and counted (R282). Entries of a command not begun
that were taken from a command ring are no run any more: its indexes start again (R235, R281). -/
def discardHeld (c : Chip) (fn r : Nat) : Chip :=
  if r = 0 then modFn c fn fun f => { f with asm := none }
  else if r = 2 then
    modFn ((fnSt c fn).hold.foldl (fun c e => gapOne c fn e.kind e.frame) c) fn fun f => { f with hold := [] }
  else if r = 3 then modFn (recLoss c fn (fnSt c fn).recQ.length) fn fun f => { f with recQ := [] }
  else c

/-- HOST_RING_BUSY of a function. -/
def ringBusy (c : Chip) (fn r : Nat) : Chip := postError c 0x0A (srcFn fn) r

/-- HOST_RING_BASE: a write while EN is 1 leaves it unchanged (R236). -/
def hookRingBase : Hook :=
  let fn (o : Nat) : Nat := (o - 0x21000) / 0x1000
  let r (o : Nat) : Nat := (o % 0x1000 - 0x100) / 0x40
  guarded (fun c _ o => ringEn c (fn o) (r o)) (fun c _ o => ringBusy c (fn o) (r o)) hookNone

/-- HOST_RING_CFG. -/
def hookRingCfg : Hook := fun w c =>
  let fn := (w.off - 0x21000) / 0x1000
  let r := (w.off % 0x1000 - 0x100) / 0x40
  let was := bits w.old 8 1 == 1
  let c1 := if was && natBits w.mask 0 4 != 0 then ringBusy (setFld c w.off 0 4 (bits w.old 0 4)) fn r else c
  if !was && flag c1 w.off 8 then
    if log2Ok r (fld c1 w.off 0 4) then checkFall (setReg c1 (ringBase fn r + 0xC) 0) fn r
    else msixSend (setFlag c1 w.off 8 false) fn 3
  else if was && !flag c1 w.off 8 then discardHeld c1 fn r
  else c1

/-- RING_ENABLE and RING_DISABLE: writes of HOST_RING_CFG. -/
def ringCfgWrite (c : Chip) (fn page : Fn) (r : Nat) (v : Word) (be : BitVec 4) : Chip :=
  writeWord hookRingCfg c fn (ringBase page.val r + 8) v be

/-! ## Doorbells (R237 to R240) -/

/-- Count a doorbell error in its half of HOST_RING_DBERR. -/
def countDb (c : Chip) (fn r lo : Nat) : Chip := countFld c (ringBase fn r + 0x18) lo 16

/-- Judge a doorbell value (R238). -/
def ringDoorbell (c : Chip) (fn r v : Nat) : Chip :=
  let last := hostIdx c fn r
  let refIdx := if r = 0 then nodeIdx c fn r else last
  let limit := if r = 0 then ringSize c fn r else ringOcc c fn r
  let d := (v + 65536 - last) % 65536
  let a := (v + 65536 - refIdx) % 65536
  if !ringEn c fn r ∨ d = 0 then c
  else if 32768 ≤ d then countDb c fn r 0
  else if limit < a then postError (countDb c fn r 16) 0x0B (srcFn fn) r
  else
    let before := ringOcc c fn r
    let c1 := setHostIdx c fn r v
    if r = 0 then checkRise c1 fn r before else checkFall c1 fn r

/-- The host's own writes of its memory. -/
def hostStores (c : Chip) (mem : List (Nat × Byte)) : Chip :=
  { c with hostMem := mem.foldl (fun m x => memWrite zeroByte m x.1 [x.2]) c.hostMem }

/-- DOORBELL: it acts only when bytes 0 and 1 are both enabled. -/
def doorbellWrite (c : Chip) (fn r : Nat) (mem : List (Nat × Byte)) (v : Word) (be : BitVec 4) : Chip :=
  let c1 := hostStores c mem
  if be.getLsbD 0 && be.getLsbD 1 then ringDoorbell c1 fn r (v.toNat % 65536) else c1

/-! ## Resets of the host interface -/

/-- The host side of a function starts again; each begun command goes on without a completion (R278). -/
def resetFn (c : Chip) (fn : Nat) : Chip :=
  modFn (resetRegs c (hostPage fn) (hostPage fn + 0x1000)) fn fun f =>
    { fnDef fn with
      inflight := f.inflight.map fun i => { i with silent := true }
      carry := f.carry.map fun (x : Carried) => { x with cmd := { x.cmd with silent := true } }
      used := f.used
      work := f.work }

/-- FUNCTION_LEVEL_RESET (R278 to R280, R906). -/
def functionReset (c : Chip) (fn : Nat) : Chip := setFlag (resetFn (dlFnReset c fn) fn) 0x20004 fn true

/-- The link trains; 0 is down, and a width is 1, 2 or 4 lanes. -/
def linkTrained (c : Chip) (speed width : Nat) : Chip :=
  let up := decide (1 ≤ speed) && decide (speed ≤ 4) && [1, 2, 4].contains width
  capHbw (setReg c 0x20000 (BitVec.ofNat 32 (if up then speed + width * 8 else 0)))

/-- The HOST block, the doorbells and the ring state of every function at their reset (R142). -/
def resetHostBlock (c : Chip) : Chip :=
  (List.range 9).foldl resetFn (resetRegs c 0x20000 0x30000)

/-- HOST_RESET (R142, R143, R906, R1196). -/
def hostReset (c : Chip) (speed width : Nat) : Chip :=
  linkTrained (setFlag (resetHostBlock ((List.range 9).foldl dlFnReset c)) 0x110 5 true) speed width

end Sys2Proof.Machine
end

