-- ==== Sys2Proof/Machine/RecCmds.lean ====
section
/-! DEFINITION. The recorder's timed steps, its clear, and the rebuild of its image (18_event_recorder). -/

namespace Sys2Proof.Machine

def modRec (c : Chip) (f : RecSt → RecSt) : Chip := { c with rcd := f c.rcd }

def recStat : Nat := 0x180008

/-- Source of a trigger row: 256 stands for FAULT. -/
def rowSource (t : Nat) : Nat := if t = 256 then 0x103 else t

/-- RECORD_CLOSE: the coalesce window of the open record of a source has ended (R797). -/
def recordClose (c : Chip) (t : Nat) : Chip :=
  match openOf c (rowSource t) with
  | some o => if o.ends ≤ c.ot then closeRec c o.seq else c
  | none => c

/-- REC_CFG.JOURNAL in units of 1/1024 s. -/
def journalTime (c : Chip) : Nat := ceilDiv (fld c 0x180004 0 8 * 1024) 10

/-- A tail page of a record is due: NVM lacks its present state, and the journal interval has passed since its previous
tail page (R798). -/
def tailDue (c : Chip) (o : OpenRec) : Bool :=
  match recImage c (o.seq % 32768) with
  | some r => r.seq == o.seq && unsavedOf c r != 0 && decide (o.journal + journalTime c ≤ c.ot)
  | none => false

/-- TAIL_PAGE: the state of a record of a source that NVM lacks is programmed (R798). -/
def tailPage (c : Chip) (t : Nat) : Chip :=
  match (c.rcd.opens ++ c.rcd.closing).find? fun o => o.source == rowSource t && tailDue c o with
  | some o => programTail c o.seq
  | none => c

/-- Take the next page of the OT area, for OT[39:16] or for a clear's intent; the pages are used in turn (R770, R811). -/
def otAreaPage (r : RecSt) (v : Option Nat) : RecSt :=
  { r with otPages := smPut (fun _ => none) r.otPages r.otNext v, otNext := (r.otNext + 1) % 512 }

/-- OT_PAGE: OT[39:16] goes into the next page of the OT area as OT[15:0] passes to 0 (R770). -/
def otPage (c : Chip) : Chip :=
  if c.ot % 65536 = 0 ∧ c.ot ≠ 0 then modRec c fun r => otAreaPage r (some (c.ot / 65536)) else c

/-! ## Clearing (R808 to R814) -/

/-- Arm the recorder, or disarm it. -/
def setArmed (c : Chip) (a : Option (Nat × Nat)) : Chip :=
  setFlag (modRec c fun r => { r with armed := a }) recStat 1 a.isSome

/-- The clear code operand does not serve (R808). -/
def clearCodeBad (c : Chip) (code : Nat) : Bool :=
  fld c 0x120 0 2 == 0 || c.img.clearCode == 0 || code != c.img.clearCode

/-- REC_CLEAR_ARM: the chip and the status. -/
def recClearArm (c : Chip) (code : Nat) : Chip × Nat :=
  if clearCodeBad c code then (setArmed c none, stClearCode)
  else (setArmed c (some (c.ot + 10240, frameNum c)), stSuccess)

/-- CLEAR_ARM_EXPIRY: OT has advanced by 10 s (R809). -/
def clearArmExpiry (c : Chip) : Chip :=
  match c.rcd.armed with
  | some (t, _) => if t ≤ c.ot then setArmed c none else c
  | none => c

/-- Is a REC_CLEAR_CONFIRM accepted (R810)? -/
def clearConfirmed (c : Chip) (code : Nat) : Bool :=
  !clearCodeBad c code
    && (match c.rcd.armed with
        | some (t, f) => decide (c.ot < t) && decide (f < frameNum c)
        | none => false)

/-- Records not delivered are lost when the image is emptied (R277), and so are those that Basin awaits. -/
def emptyImage (c : Chip) : Chip :=
  let c1 := (List.range 9).foldl (fun c fn =>
    modFn (recLoss c fn (fnSt c fn).recQ.length) fn fun f => { f with recQ := [] }) c
  let c2 := c1.rcd.toBasin.foldl missBasin c1
  modRec c2 fun r => { r with image := [] }

/-- Steps 1 to 4 of a clear (R811). -/
def beginClear (c : Chip) : Chip :=
  let c1 := (c.rcd.opens.map fun o => o.seq).foldl closeRec (setArmed c none)
  let seqs := (imageRecs c1).map fun r => r.seq
  let lo := seqs.foldl min (seqs.headD 0)
  let hi := seqs.foldl max 0
  let c2 := emptyImage (modRec c1 fun r => { otAreaPage r none with
    intent := some ((reg c1 0x18000C).toNat, seqs.length, lo, hi), intentPage := r.otNext })
  setFlag (modRec c2 fun r => { r with ring := [], tail := [], closing := [] }) recStat 2 true

/-- The word of a count in a CLEARED record. -/
def countWord (n : Nat) : Nat := (encodeWord false (n : Rat) 0 43 0 0).1

/-- Step 5: the CLEARED record takes the next SEQ and is in NVM; the intent page leaves use (R811). -/
def formCleared (c : Chip) : Chip :=
  match c.rcd.intent with
  | some (_, n, lo, hi) => modRec (enterRec c (mkRec c 0x108 8 c.ot 0 [countWord n, lo, hi]) 0) fun x => { x with intent := none }
  | none => c

/-- The clear ends, and the records held meanwhile follow (R811, R812). -/
def finishClear (c : Chip) : Chip := flushHeld (setFlag (formCleared c) recStat 2 false)

/-- CLEAR_DONE: the CLEARED record is in NVM and the command completes with RESULT the count (R811). -/
def clearDone (c : Chip) : Chip :=
  match c.rcd.intent with
  | some (_, n, _, _) =>
    if flag c recStat 2 then
      completeWhere (finishClear c) (fun _ i => i.what == .recClear) fun _ _ => (stSuccess, n)
    else c
  | none => c

/-! ## Rebuild (R800 to R803, R774, R813) -/

/-- The tail page of a slot with the greatest running count. -/
def tailOf (c : Chip) (slot : Nat) : Option Rec :=
  ((c.rcd.tail.filter fun t => t.state.seq % 32768 == slot).foldl
    (fun (a : Option TailPage) t => match a with
      | some b => if b.n < t.n then some t else a
      | none => some t) none).map fun t => t.state

/-- A slot of the image as it is rebuilt. -/
def rebuiltSlot (c : Chip) (slot : Nat) : Option Rec :=
  match smGet imgDef c.rcd.ring slot, tailOf c slot with
  | some r, some t => if r.seq < t.seq then some t else some r
  | some r, none => some r
  | none, t => t

/-- Slots for which NVM holds a record. -/
def nvmSlots (c : Chip) : List Nat :=
  (c.rcd.ring.map Prod.fst ++ c.rcd.tail.map fun (t : TailPage) => t.state.seq % 32768).dedup

/-- The image as NVM gives it (R800). -/
def nvmImage (c : Chip) : SMap (Option Rec) := (nvmSlots c).foldl (fun m s => smPut imgDef m s (rebuiltSlot c s)) []

/-- REC_SEQ becomes one greater than the greatest SEQ that NVM holds, if that is greater (R774). -/
def seqFromNvm (c : Chip) : Chip :=
  match (nvmImage c).filterMap fun e => e.2.map fun r => r.seq with
  | [] => c
  | s :: t => setReg c 0x18000C (BitVec.ofNat 32 (max (t.foldl max s + 1) (reg c 0x18000C).toNat))

/-- Start-up: the next SEQ is found; a clear that was cut off takes its steps 3 to 6, and no completion is written
(R774, R813). -/
def startRecorder (c : Chip) : Chip :=
  match c.rcd.intent with
  | some (n, _) =>
    let c1 := formCleared (setReg (modRec c fun r => { r with ring := [], tail := [] }) 0x18000C (BitVec.ofNat 32 n))
    modRec c1 fun r => { r with image := [] }
  | none => seqFromNvm c

/-- The image is rebuilt from NVM; the records restored from the tail are closed, and held records are entered (R800 to
R802). A record that waits for Basin waits on while the image holds it. -/
def rebuild (c : Chip) : Chip :=
  let c1 := seqFromNvm (modRec c fun r => { r with image := nvmImage c, opens := [], closing := [] })
  let c2 := ((c1.rcd.tail.map fun t => t.state.seq).dedup).foldl programPair c1
  let c3 := modRec c2 fun r => { r with toBasin := r.toBasin.filter fun q => imageHolds c2 q }
  flushHeld (setFlag c3 recStat 0 true)

/-- The REC domain goes OFF: its image is lost and its open records end.

DESIGN CHOICE: a clear that runs ends before, with its CLEARED record in NVM, and its command completes (R254; log 155). -/
def recDomainOff (c : Chip) : Chip :=
  bsnRecOff (setFlag (setArmed (modRec (clearDone c) fun r => { r with image := [], opens := [], closing := [] }) none) recStat 0 false)

end Sys2Proof.Machine
end

