-- ==== Sys2Proof/Machine/PowerCmds.lean ====
section
/-! DEFINITION. Power commands: domains that reach ON or go OFF, leave, the writes of the PWR block, and the
clocks (03_power_clocks_leave). -/

namespace Sys2Proof.Machine

/-! ## Clocks: their registers, PLL start and fallback (R104, R105, R124) -/

def clkStat : Nat := 0x18000
def clkEvt : Nat := 0x18004

def setPwr (c : Chip) (f : PwrSt → PwrSt) : Chip := { c with pwr := f c.pwr }

/-- CCLK moves to the fast RC and the node enters SAFE_HOLD (R104, R105). -/
def clockFallback (c : Chip) (detail : Nat) : Chip :=
  let c1 := setFlag (setFlag (setFlag c clkStat 4 false) clkStat 6 true) clkEvt 4 true
  enterSafeHold (postError c1 0x13 srcNode detail) 6

/-- SEQ wakes and starts both PLLs (R89, R124): CCLK moves to PLL-C and the modulators run, or, with the reference
absent, the node acts as at its loss (R104, R1178). -/
def pllStart (c : Chip) : Chip :=
  if flag c clkStat 3 then
    setPwr (setFld (setFld c clkStat 4 2 3) clkStat 6 1 0) fun p => { p with modulators := true }
  else clockFallback c 1

/-! ## What a domain starts and ends -/

/-- What the domain's blocks do as it reaches ON. -/
def domainStarts (c : Chip) (n : Nat) : Chip :=
  match n with
  | 0 => rtcDomainOn c
  | 2 | 3 | 4 | 5 => nvDomainOn c (n - 2)
  | 6 => sdlSync c
  | 7 => sptDomainOn c
  | 8 | 9 | 10 | 11 | 12 | 13 | 14 | 15 => portEnabled (afeDomainOn c (n - 8)) (n - 8)
  | 16 | 17 | 18 => loopDomainOn c (n - 16)
  | 19 => lcdMemLost c
  | 21 => callCanCheck (canDomainOn c)
  | 23 => ctrlDomainOn (ucDomainOn c 1)
  | 24 => ucDomainOn c 2
  | 25 => if starting c then rebuild c else autoAdmit (rebuild c) false
  | 26 => pllStart c
  | 27 => reloadDefaults (dmaReset c) 0x1A0000 0x1B0000
  | _ => c

/-- The SRAM loses its contents, and every word is initialised before it is ON again (R97): hold queues and record
deliveries of every function, the hand-off area, the tuning buffers (text of R1092). Basin's staging area went with REC. -/
def sramLost (c : Chip) : Chip :=
  (List.range 9).foldl (fun c fn => modFn c fn fun f => { f with hold := [], recQ := [] })
    { c with tables := memClear c.tables 0x1400000 0x100000, dma := { c.dma with handoff := [] } }

/-- What the domain's blocks lose as it goes OFF; their outputs were de-energised before (R96). -/
def domainEnds (c : Chip) (n : Nat) : Chip :=
  match n with
  | 2 | 3 | 4 | 5 => nvDomainOff c (n - 2)
  | 6 => modSdl c fun s => { s with out := [], queue := [], resync := [] }
  | 7 => { c with spt := { c.spt with data := none } }
  | 8 | 9 | 10 | 11 | 12 | 13 | 14 | 15 => afeDomainOff c (n - 8)
  | 16 | 17 | 18 => loopDomainOff c (n - 16)
  | 19 => lcdMemLost c
  | 21 => callCanCheck (canDomainOff c)
  | 22 => actDomainOff c
  | 23 => ucDomainOff (ctrlDomainOff c) 1
  | 24 => ucDomainOff (callDomainOff (almDomainOff c)) 2
  | 25 => recDomainOff c
  | 26 => { pllStop c with points := [] }
  | 27 => dmaReset c
  | 28 => sramLost c
  | _ => c

/-- DOMAIN_ON: a waking domain reaches ON and its surge ends (R93, R113). -/
def domainOn (c : Chip) (n : Nat) : Chip :=
  if dom c n = .waking then retarget (domainStarts (releaseSurge (setDom c n .on) (.domain n)) n) else c

/-- Dependants of one domain go in descending order (R95). -/
def offTurn (c : Chip) (n : Nat) : Bool :=
  (List.range 30).all fun p => !(dom c p).turning || !(dependants p).contains n
    || (dependants p).all fun k => decide (k ≤ n) || dom c k == .off || dom c k == .waiting

/-- The panel has been driven to V5 and its bias discharged before its domains lose power (R1060). -/
def panelQuiet (c : Chip) (n : Nat) : Bool := (n != 19 && n != 20) || lcdState c == 0

/-- DOMAIN_OFF: the turn-off completes (R95, R96, R113). -/
def domainOff (c : Chip) (n : Nat) : Chip :=
  if (dom c n).turning = true ∧ dependantsOff c n = true ∧ offTurn c n = true ∧ panelQuiet c n = true then
    retarget (domainEnds (releaseSurge (setDom c n .off) (.domain n)) n)
  else c

/-! ## Leave -/

/-- LEAVE_GRANT: the request that stands first, once it fits (R107 to R112). -/
def leaveGrant (c : Chip) : Chip := grantHead c

/-- LEAVE_TIMEOUT: the earliest request of a domain that is not SAFETY has waited for PWR_LEAVE_TMO (R117 to
R119). -/
def leaveTimeout (c : Chip) (n : Nat) : Chip :=
  match c.pwr.reqs.find? fun r => r.dom == n && r.cls != 1 with
  | some r =>
    let c1 := withdrawReq c r
    let c2 := match r.op with
      | .bankStep ch => bankStepWithdrawn c1 ch
      | .domain d => reqLeaveLost c1 d
      | _ => c1
    grantAll 40 c2
  | none => c

/-- SURGE_RELEASE: the earliest surge of a domain has lasted its time, a later one of the same operation has not; the
release counts before the grants (R113, R114). -/
def surgeRelease (c : Chip) (n : Nat) : Chip :=
  if c.pwr.surges.any fun s => s.dom == n then
    grantAll 40 (setPwr c fun p => { p with surges := p.surges.eraseP fun s => s.dom == n })
  else c

/-! ## Writes of the block -/

/-- PWR_DOM_EN: the bits written set their domains' targets anew (R91, R98, R99, R117). -/
def hookDomEn : Hook := fun w c => retarget (unrefuse c w.mask)

/-- PWR_BUDGET and PWR_SAFETY_RSV: what fits is granted (R107, R108, R116). -/
def hookBudget : Hook := fun _ c => grantAll 40 c

def domEnWrite (c : Chip) (fn : Fn) (v : Word) (be : BitVec 4) : Chip := writeWord hookDomEn c fn 0x10010 v be
def budgetWrite (c : Chip) (fn : Fn) (v : Word) (be : BitVec 4) : Chip := writeWord hookBudget c fn 0x10020 v be

/-! ## Clocks (R101 to R105, R1178) -/

/-- XTAL_LOSS: AON runs from the RC backup (R101).

DESIGN CHOICE: while a cold reset holds AON the row changes nothing: AON leaves that reset on the crystal (log 138). -/
def xtalLoss (c : Chip) : Chip :=
  if c.pwr.onCrystal && aonRuns c then
    let c1 := setFlag (setFlag (setPwr c fun p => { p with onCrystal := false }) clkStat 0 false) clkStat 1 true
    postError (rtcSource (setFlag c1 clkEvt 0 true)) 0x11 srcNode 0
  else c

/-- XTAL_RETURN: AON runs from the crystal again (R102). -/
def xtalReturn (c : Chip) : Chip :=
  if c.pwr.onCrystal || !aonRuns c then c
  else
    let c1 := setFlag (setFlag (setPwr c fun p => { p with onCrystal := true }) clkStat 0 true) clkStat 1 false
    postError (rtcSource c1) 0x11 srcNode 1

/-- The PLLs run: not in sentry state, nor while SEQ is not ON (R124, R125). -/
def pllRuns (c : Chip) : Bool := domOn c 26

/-- PLLM_LOSS: every modulator stops (R103). -/
def pllmLoss (c : Chip) : Chip :=
  if pllRuns c && flag c clkStat 5 then
    bankWork (fun c => setFlag (setFlag (modulatorsStop c) clkStat 5 false) clkEvt 5 true) c
  else c

/-- PLLM_RELOCK: the modulators run again, with settling samples; the reference is present again where its absence
had been the loss (R103, R464, R1178). -/
def pllmRelock (c : Chip) : Chip :=
  if pllRuns c && !flag c clkStat 5 then
    modulatorsRestart (setFlag (setFlag (setPwr c fun p => { p with modulators := true }) clkStat 3 true) clkStat 5 true)
  else c

/-- PLLC_LOSS (R104, R105). -/
def pllcLoss (c : Chip) : Chip := if pllRuns c && flag c clkStat 4 then clockFallback c 0 else c

/-- REF_LOSS: the loss of both PLLs (R1178).

DESIGN CHOICE: in sentry state, in which both PLLs stand still (R124, R125), the row changes nothing, neither REF_OK
nor CLK_EVT (log 80). -/
def refLoss (c : Chip) : Chip :=
  if pllRuns c && flag c clkStat 3 then
    let c1 := setFlag (setFlag c clkStat 3 false) clkEvt 3 true
    clockFallback (bankWork (fun c => setFlag (setFlag (modulatorsStop c) clkStat 5 false) clkEvt 5 true) c1) 1
  else c

end Sys2Proof.Machine
end

