-- ==== Sys2Proof/Machine/Startup.lean ====
section
/-! DEFINITION. Rails, resets and start-up (03_power_clocks_leave, 04_modes_startup_images). -/

namespace Sys2Proof.Machine

/-! ## What a reset keeps (R142) -/

/-- An indeterminate number of bytes, 0 to 256, that a cut page write had reached, or 257 with its page whole (R170, R171). -/
def freeReached (c : Chip) : Nat := Config.freeValue c.free % 258

/-- A page write cut after `n` bytes: the byte being programmed is indeterminate, the rest is erased, the page
is flagged (R168 to R171). -/
def cutProgram (c : Chip) (page : Nat) (bs : List Byte) (n : Nat) : Chip :=
  let seen := if n < 256 then bs.take n ++ [Config.freeByte c.free] else bs.take 256
  { (takeFree c) with
    nvm := memWrite erasedByte (memClear c.nvm (page * 256) 256) (page * 256) seen
    img := { c.img with
      prog := smPut (fun _ => false) c.img.prog page true
      flagged := smPut (fun _ => false) c.img.flagged page true } }

/-- A power failure or another reset while a page of the NVM window is being programmed (R168 to R171).

DESIGN CHOICE: a window page is under way from its write to the next frame boundary or window page; the chapters give
its programming no length (log 88). They speak of power failure; a pin, node or wake reset cuts it alike (log 38). -/
def windowCut (c : Chip) (reached : Nat) : Chip :=
  match c.img.writing with
  | some p => cutProgram { c with img := { c.img with writing := none } } p (memRead erasedByte c.nvm (p * 256) 256) reached
  | none => c

/-- A bank erase cut at an indeterminate page: the pages before it are erased, its bytes are indeterminate and it
is flagged, those after it stand (R171, R172). -/
def cutErase (c : Chip) (b : Nat) : Chip :=
  let first := (b - 1) * 0x4000
  let p := first + Config.freeValue c.free % 0x4000
  let out {α : Type} (m : SMap α) : SMap α := smKeep (fun k => !(decide (first ≤ k) && decide (k < p))) m
  let junk := (List.range 256).map fun i => Config.freeByte (c.free + 1 + i)
  { c with
    nvm := memWrite erasedByte (memClear c.nvm (first * 256) ((p - first) * 256)) (p * 256) junk
    img := { c.img with prog := out c.img.prog, flagged := smPut (fun _ => false) (out c.img.flagged) p true }
    free := c.free + 257 }

/-- Operations on NVM that a reset cuts off: a trim STORE, erase and commit of a bank, STORE and ERASE of microcode. -/
def nvmCut (c0 : Chip) (reached : Nat) : Chip :=
  let c := trimCut c0 reached
  let c1 := match c.img.op with
    | some op =>
      let b := opBank op
      if op ≤ 2 then cutErase c b
      else if pageProg c (commitPage b) || pageFlagged c (commitPage b) then c
      else cutProgram { c with img := { c.img with writing := none } } (commitPage b) (commitBytes c b) reached
    | none => c
  match c1.upd.op with
  | some (e, op) =>
    modUpd c1 fun u => { u with
      slots := if op = 3 then smDel u.slots (e * 2 + olderSlot c1 e) else smDel (smDel u.slots (e * 2)) (e * 2 + 1) }
  | none => c1

/-- Registers that every reset but a cold one keeps: the reset causes, PCC, the rails, the trip matrix in AON, and
the RTC block. -/
def aonReg (off : Nat) : Bool :=
  off == 0x110 || off == 0x114 || off == 0x10000 || (decide (0x130804 ≤ off) && decide (off < 0x130980))
    || (decide (0x1D0000 ≤ off) && decide (off < 0x1D8000))

/-- Registers whose content is in NVM, or shows a rail's level: PCC and PWR_RAIL_STAT. -/
def nvmReg (off : Nat) : Bool := off == 0x114 || off == 0x10000

/-- What NVM keeps of a bank: its retired cells, and the channel that the spare covers (R1204). -/
def bankNvm (s : BankSt) : BankSt := { bankDef 0 with retired := s.retired, cover := s.cover }

/-- The store of R1204 is loaded: COVERING, SPARE_RETIRED and SPARE_CH of a bank, and the channel that the spare serves. -/
def loadBankStore (c : Chip) (b : Nat) : Chip :=
  let s := bankSt c b
  let c1 := setFlag c (rotStat b) 13 (natBit s.retired 16)
  match s.cover with
  | some ch => setCover c1 ch
  | none => c1

/-- The recorder's part of NVM. -/
def recNvm (r : RecSt) : RecSt :=
  { Chip.reset.rcd with ring := r.ring, tail := r.tail, tailN := r.tailN, otPages := r.otPages, otNext := r.otNext, intent := r.intent, intentPage := r.intentPage }

/-- OT after a cold reset (R771); it stops at its greatest value (R769). -/
def coldOt (c : Chip) : Nat :=
  match c.rcd.otPages.filterMap Prod.snd with
  | [] => 0
  | s :: t => min (2 ^ 40 - 1) ((t.foldl max s + 1) * 65536)

/-- The node in a reset of every block: what NVM holds stands, and so does the host's memory.

DESIGN CHOICE: bytes written into the NVM window since the erase, of a page that is not programmed yet, are dropped; R216
does not say whether a reset keeps them (log 125). -/
def resetAll (c : Chip) (keep : Nat → Bool) : Chip :=
  { Chip.reset with
    regs := smKeep keep c.regs
    hostMem := c.hostMem
    nvm := c.nvm
    free := c.free
    img := { Chip.reset.img with prog := c.img.prog, flagged := c.img.flagged }
    rcd := recNvm c.rcd
    trim := { c.trim with storing := none }
    upd := { Chip.reset.upd with slots := c.upd.slots }
    bsn := { Chip.reset.bsn with keys := c.bsn.keys, epochs := c.bsn.epochs }
    bank := (List.range 8).foldl (fun m b => smPut bankDef m b (bankNvm (bankSt c b))) []
    mode := { Chip.reset.mode with cause := c.mode.cause, pccInc := c.mode.pccInc } }

/-- A cold reset: AON and RTC with every other block (R142, R574, R771, R1011, R1207). -/
def coldReset (c : Chip) (reached : Nat) : Chip :=
  let k := resetAll (windowCut (nvmCut c reached) reached) nvmReg
  { k with ot := coldOt k, pwr := { k.pwr with ioHigh := c.pwr.ioHigh }, mode := { k.mode with cause := [0], pccInc := true } }

/-- Every other reset but a host reset: AON and RTC go on, with a request of RTC that waits for leave, which the reset of
the other domains may let through (R112, R118, R142, R574, R575, R1205). -/
def warmReset (c : Chip) (reached : Nat) (cause : List Nat) (pccInc : Bool) : Chip :=
  let c0 := windowCut (nvmCut c reached) reached
  let k := resetAll c0 aonReg
  let k1 := setFld (setFld k 0x10004 1 3 (fld c 0x10004 1 3)) clkStat 0 2 (fld c clkStat 0 2)
  grantAll 40 { k1 with
    ot := c.ot, rtc := c.rtc, trips := { c.trips with events := [] }, corr := c.corr, jtag := c.jtag
    pwr := { k1.pwr with dom := smKeep (fun n => n == 0) c.pwr.dom, reqs := c.pwr.reqs.filter fun r => r.dom == 0, refused := c.pwr.refused % 2, onCrystal := c.pwr.onCrystal, ioHigh := c.pwr.ioHigh, aon := aonRuns c }
    mode := { k1.mode with cause := (c.mode.cause ++ cause).dedup, pccInc := c.mode.pccInc || pccInc } }

/-- PIN_RESET and NODE_RESET (R142). -/
def plainReset (c : Chip) (cause : Nat) : Chip :=
  let c1 := if c.mode.up then { c with mode := { c.mode with cause := [], pccInc := false } } else c
  warmReset c1 (freeReached c) [cause] false

def pinReset (c : Chip) : Chip := plainReset c 2

/-- NODE_RESET: KEY written whole by the physical function starts a reset. -/
def hookNodeReset : Hook := fun w c =>
  if w.fn = 0 ∧ w.mask % 65536 = 65535 ∧ w.val 0 16 = 0x4E52 then plainReset c 3 else c

def nodeResetWrite (c : Chip) (fn : Fn) (v : Word) (be : BitVec 4) : Chip := writeWord hookNodeReset c fn 0x10C v be

/-! ## Rails (R84, R87, R88, R177) -/

def railStat : Nat := 0x10000
def railEvt : Nat := 0x10004

/-- The four rails that power-on reset waits for are above their thresholds (R84). -/
def coreRails (c : Chip) : Bool := fld c railStat 0 4 == 15

/-- VDD_IO at a level passes the threshold for the level that STRAP_IO selects (R87, R1122, R1124). -/
def ioPasses (high strap : Bool) : Bool := high || !strap

/-- The level whose threshold the supervisor takes: that which the strap selects while power-on reset is held, and
the latched one afterwards (R1122, R1123). -/
def ioStrap (c : Chip) (strap : Bool) : Bool := if c.mode.up then flag c railStat 12 else strap

/-- A core rail other than VAUX falls: a power-on reset; its RAIL_LOSS entry waits for the next start. From the loss of VAUX
until R84 is met the whole node is in reset, AON included, and only the rail's state changes (R88). -/
def coreLoss (c : Chip) (bit reached : Nat) : Chip :=
  let c1 := if c.mode.up then { c with mode := { c.mode with cause := [], pccInc := false } } else c
  if flag c railStat 0 && aonRuns c then warmReset (setFlag (setFlag c1 railStat bit false) railEvt bit true) reached [1, 8 + bit] true
  else setFlag c railStat bit false

/-- Functions that own the cells of a loop-output bank, and the keeper. -/
def bankFns (c : Chip) (n : Nat) : List Nat := ((List.range 16).map fun k => ownerFn (ownerOf c (cellPt (n * 16 + k)))) ++ [0]

/-- VFIELD of a bank leaves its window (R88, R519). -/
def vfieldLoss (c : Chip) (n : Nat) (high : Bool) : Chip :=
  let c1 := setFlag (setFlag c railStat (4 + n) false) railEvt (4 + n) true
  -- LOOP_FAULT of the cells comes before LOOP_VFIELD (R1088)
  let c2 := postErrorRec (vfieldRefreshBank c1 n) 0x32 (srcRes 2 n) (b2n high)
  faultEvent c2 0x32 (srcRes 2 n) 0 (bankFns c2 n)

/-- VDRV falls: every leg has its gates low (R88). -/
def vdrvLoss (c : Chip) : Chip :=
  let c1 := setFlag (setFlag c railStat 7 false) railEvt 7 true
  let c2 := postErrorRec (legsOff c1 allLegs 2) 0x42 srcNode 0
  faultEvent c2 0x42 srcNode 0 (((List.range 12).map fun n => ownerFn (ownerOf c2 (legPt n))) ++ [0])

/-- VLCD falls while the supervisor judges it (R88, R1177).

DESIGN CHOICE: where the supervisor begins to judge VLCD while VLCD is low already, VLCD_OK reads 0 and no loss is
reported: no threshold is crossed then (log 81). -/
def vlcdLoss (c : Chip) : Chip :=
  let c1 := setFlag c railStat 8 false
  if vlcdJudged c then biasFault (setFlag c1 railEvt 8 true) 0 else c1

/-- RAIL_LOSS of a rail that stood; field and drive rails are reported while the node runs. -/
def railLoss (c : Chip) (rail : Rail) (reached : Nat) : Chip :=
  let was (i : Nat) : Bool := flag c railStat i
  match rail with
  | .vaux => if was 0 then coldReset (setFlag c railStat 0 false) reached else c
  | .vddCore => if was 1 then coreLoss c 1 reached else c
  | .vddIo _ _ => if was 2 then coreLoss c 2 reached else c
  | .vdda => if was 3 then coreLoss c 3 reached else c
  | .vfield n high =>
    if was (4 + n.val) then (if c.mode.up then vfieldLoss c n.val high else setFlag c railStat (4 + n.val) false) else c
  | .vdrv => if was 7 then (if c.mode.up then vdrvLoss c else setFlag c railStat 7 false) else c
  | .vlcd => if was 8 then vlcdLoss c else c

/-- RAIL_RETURN. -/
def railReturn (c : Chip) (rail : Rail) : Chip :=
  match rail with
  | .vaux => setFlag c railStat 0 true
  | .vddCore => setFlag c railStat 1 true
  | .vddIo high strap =>
    let c1 : Chip := { c with pwr := { c.pwr with ioHigh := high } }
    if ioPasses high (ioStrap c strap) then setFlag c1 railStat 2 true else c1
  | .vdda => setFlag c railStat 3 true
  | .vfield n _ => vfieldRefreshBank (setFlag c railStat (4 + n.val) true) n.val
  | .vdrv => setFlag c railStat 7 true
  | .vlcd => setFlag c railStat 8 true

/-! ## Wake (R140, R142, R373, R1030) -/

/-- A wake event: a wake reset in HIBERNATE, and from OFF for WAKE_N while the core rails stand; in SENTRY the node
wakes to PREV. -/
def wakeEvent (c : Chip) (pin : Bool) : Chip :=
  if !c.mode.up then c
  else if nodeMode c = mHibernate ∨ (nodeMode c = mOff ∧ pin = true ∧ coreRails c = true ∧ c.mode.frames = false) then plainReset c 4
  else sentryWake c

def wakeN (c : Chip) : Chip := wakeEvent c true

/-- An edge of the 32 kHz source, and the wake of an alarm that fires with WAKE. -/
def clockEdge (step : Chip → Chip) (c : Chip) : Chip :=
  let c1 := step c
  if rtcOn c && secondDue c && c1.rtc.cal != c.rtc.cal && alarmWakes c1 then wakeEvent c1 false else c1

def edgeTick (c : Chip) : Chip := clockEdge crystalEdge c
def secondTick (c : Chip) : Chip := clockEdge calendarSecond c

/-! ## Start-up (R146 to R152, R1182) -/

/-- Step 1: AON has left its reset; the causes and the straps are latched. -/
def latchCauses (c : Chip) (ioLevel strapTest : Bool) : Chip :=
  let ks := c.mode.cause.filter fun k => decide (k < 6)
  let c1 := ks.foldl (fun c k => setFlag c 0x110 k true) c
  { (setFlag c1 railStat 12 ioLevel) with strapTest := strapTest, pwr := { c1.pwr with aon := true } }

/-- A domain that start-up wakes under leave: it is ON within its latency, or waits for leave (R94, R112, R149). -/
def startDomain (c : Chip) (n : Nat) : Chip :=
  if fits c (domReq n) then setDom c n .on else addReq (setDom c n .waiting) (domReq n)

/-- Steps 2 and 3: NVM and SEQ are ON, the PLLs have locked, HOST_PHY is woken. The store of R1204 is loaded from NVM. -/
def startClocks (c : Chip) (refOk pllOk : Bool) : Chip :=
  let c1 := [29, 26, 1].foldl startDomain ((List.range 8).foldl loadBankStore c)
  if refOk && pllOk then
    setPwr (setFld (setFld c1 clkStat 3 3 7) clkStat 6 1 0) fun p => { p with modulators := true }
  else if refOk then setFlag c1 clkStat 3 true
  else setFld (setFlag c1 clkStat 3 false) clkEvt 3 3 7

/-- Steps 5 and 6. Registers that the reset has kept take their "U v" fields anew too (R152). -/
def startImage (c : Chip) : Chip :=
  callOutputs <| callTake <| loadImage ((c.regs.map Prod.fst).foldl (fun c off => if aonReg off then userToDefault c off else c) c) (selectImage c)

/-- Step 7 (R144, R145), what the recorder finds in NVM (R774, R813), and the START record (R775). -/
def startPcc (c : Chip) : Chip :=
  let c1 := if c.mode.pccInc then wrapFld c 0x114 0 24 else c
  let lost := (c.mode.cause.filter fun k => decide (8 ≤ k)).map fun k => k - 8
  let c2 := lost.foldl (fun c b => postError c 0x10 srcNode b) c1
  let c3 : Chip := { c2 with mode := { c2.mode with up := true, firstFrame := true, cause := [], pccInc := false } }
  nodeRec (startRecorder c3) 2 0 [(reg c3 0x110).toNat, (reg c3 0x120).toNat, (reg c3 4).toNat, (reg c3 0x108).toNat]

/-- Start-up ends early in SAFE_HOLD, with PREV 3 (R1182); a node-fatal fault is posted (R1096). No frame has run:
the first one, on leaving SAFE_HOLD, is frame 0 (R327, R1181). -/
def startFails (c : Chip) (cause fatal : Nat) : Chip :=
  let c0 := startPcc c
  let c1 := setReg { c0 with mode := { c0.mode with startFault := 0 } } 0x100 3
  enterSafeHold (if fatal = 0 then c1 else postError c1 0x1B srcNode fatal) cause

/-- Steps 7 and 8: the domains of the start mode are woken and the first boundary is awaited. -/
def startRuns (c : Chip) : Chip :=
  let c1 := tripLoad (loadTrims (startPcc c))
  retarget { c1 with mode := { c1.mode with frames := true, auto := some (fld c1 0x108 0 4, 0) } }

/-- START_UP: from the release of reset to the wait for the first frame. Its operands say what the steps find; a
node-fatal fault of another kind that comes before it is one of its steps 1 to 4, one that comes after it is one of
steps 7 to 9 (R1182). -/
def startUp (c : Chip) (refOk pllOk sramOk gateOk ioLevel strapTest : Bool) : Chip :=
  if c.mode.up || c.strapTest || !coreRails c || !ioPasses c.pwr.ioHigh ioLevel then c
  else
    let c1 := latchCauses c ioLevel strapTest
    if strapTest then c1
    else
      let c2 := startClocks c1 refOk pllOk
      if !refOk || !pllOk then startFails c2 6 0
      else if c.mode.startFault ≠ 0 then startFails c2 7 c.mode.startFault
      else if !sramOk then startFails c2 7 4
      else
        let c3 := startImage (startDomain c2 28)
        if !gateOk && sdlEn c3 then startFails (tripLoad (loadTrims c3)) 7 5
        else startRuns c3

end Sys2Proof.Machine
end

