-- ==== Sys2Proof/Machine/Commands.lean ====
section
/-! DEFINITION. The commands of the command rings: their checks in the order of R1186, their effects and their
completions (R253 to R266, R1186 to R1195). -/

namespace Sys2Proof.Machine

/-- Number of entries of the command. -/
def HostCmd.entries (k : HostCmd) : Nat := k.ops.length / 56

/-- Operand field at an offset of the first entry. -/
def HostCmd.at_ (k : HostCmd) (off n : Nat) : Nat := leNat ((k.ops.drop (off - 8)).take n)

/-- The point at 0x08. -/
def HostCmd.point (k : HostCmd) : Nat := k.at_ 8 3

/-! ## The opcode table (R265) -/

def knownOp (op : Nat) : Bool :=
  ([0x00, 0x01, 0x02, 0x03, 0x04, 0x05, 0x08, 0x09, 0x0A, 0x0B, 0x0C, 0x10, 0x11, 0x18, 0x1A, 0x1C, 0x1D, 0x20, 0x21,
    0x24, 0x25, 0x30, 0x31] : List Nat).contains op

def keeperOp (op : Nat) : Bool := ([0x20, 0x21, 0x30, 0x31] : List Nat).contains op

/-- Opcodes that act on the point at 0x08. -/
def pointOp (op : Nat) : Bool :=
  ([0x01, 0x02, 0x03, 0x04, 0x05, 0x08, 0x09, 0x0A, 0x0B, 0x0C, 0x1A, 0x1C, 0x24, 0x25] : List Nat).contains op

/-- Classes of point that an opcode takes. -/
def classOk (op cls : Nat) : Bool :=
  match op with
  | 0x03 | 0x04 | 0x05 | 0x24 | 0x25 => cls == 8
  | 0x08 => cls == 9 || cls == 10
  | 0x09 | 0x0A | 0x0B => cls == 9
  | 0x0C => cls == 11
  | 0x1A => cls == 7
  | 0x1C => cls == 5
  | _ => true

def countOk (n : Nat) : Bool := decide (1 ≤ n) && decide (n ≤ 12)

/-- Is the operand byte at an offset of the command used? -/
def usedByte (k : HostCmd) (o : Nat) : Bool :=
  let within (a n : Nat) : Bool := decide (a ≤ o) && decide (o < a + n)
  match k.op with
  | 0x01 | 0x03 | 0x05 => within 8 3 || within 0x0C 8
  | 0x02 | 0x08 | 0x0A | 0x1A | 0x25 => within 8 3
  | 0x04 | 0x0B | 0x0C => within 8 4
  | 0x09 => within 8 3 || within 0x0C 4
  | 0x10 => within 8 1 || within 0x0A 3 || within 0x10 (3 * k.at_ 0x0C 1)
  | 0x11 => within 0x0C 1 || within 0x10 (3 * k.at_ 0x0C 1)
  | 0x18 => within 8 1
  | 0x1C => within 8 4 || within 0x0C (k.at_ 0x0B 1)
  | 0x1D => true
  | 0x20 | 0x21 => within 8 4
  | 0x24 => within 8 3 || within 0x0C 48
  | _ => false

/-- The capture set-up of TUNE_START. -/
def tuneCfg (k : HostCmd) : List Byte := (k.ops.drop 4).take 48

/-- The operand fields lie in their ranges. -/
def rangeOk (c : Chip) (k : HostCmd) : Bool :=
  match k.op with
  | 0x04 | 0x0B => decide (k.at_ 0x0B 1 ≤ 1)
  | 0x09 => decide (1 ≤ k.at_ 0x0C 4) && decide (k.at_ 0x0C 4 ≤ 86400)
  | 0x0C => callAckStatus c (k.at_ 0x0B 1) != stInvalidField
  | 0x10 => decide (k.at_ 8 1 ≤ 15) && (if k.at_ 0x0A 2 = 0 then k.at_ 0x0C 1 == 0 else countOk (k.at_ 0x0C 1))
  | 0x11 => countOk (k.at_ 0x0C 1)
  | 0x18 => (tableDesc (k.at_ 8 1)).isSome
  | 0x1C => decide (1 ≤ k.at_ 0x0B 1)
  | 0x1D => !canFieldBad (canCmdOf k.ops) (k.entries == 2)
  | 0x24 => cfgOk (tuneCfg k)
  | _ => true

/-- Entries that the length of a command needs (R1192). -/
def entriesOk (k : HostCmd) : Bool :=
  match k.op with
  | 0x1C => k.entries == 1 + (k.at_ 0x0B 1 - 52 + 55) / 56
  | 0x1D => k.entries == 1 || k.entries == 2
  | _ => k.entries == 1

/-- Condition 3 of R1186. -/
def fieldsOk (c : Chip) (k : HostCmd) : Bool :=
  !k.bad && entriesOk k
    && ((List.range k.ops.length).all fun i => usedByte k (i + 8) || k.ops.getD i 0 == 0)
    && rangeOk c k

/-- The points of SUBSCRIBE and READ_POINTS. -/
def itemPoints (k : HostCmd) : List Nat := (List.range (k.at_ 0x0C 1)).map fun i => k.at_ (0x10 + 3 * i) 3

/-- Condition 5. -/
def pointsOk (k : HostCmd) : Bool :=
  if pointOp k.op then pointValid k.point && k.point != 0
  else if k.op = 0x10 ∨ k.op = 0x11 then (itemPoints k).all pointValid
  else true

/-- Condition 7 (R301, R302). -/
def ownsOk (c : Chip) (k : HostCmd) : Bool :=
  if k.fn = 0 then true
  else if pointOp k.op then
    owns c k.fn k.point && (k.op != 0x24 || ownerAt c (0xD08 + k.at_ 0x0C 1 % 4) == fnOwner k.fn)
  else if k.op = 0x10 ∨ k.op = 0x11 then (itemPoints k).all fun p => p == 0 || mayRead c k.fn p
  else if k.op = 0x18 then tableOwner c (k.at_ 8 1) == fnOwner k.fn
  else if k.op = 0x1D then canOwner c (k.at_ 8 1) == fnOwner k.fn
  else true

/-- Conditions 1 to 7 of R1186: the status, or none. -/
def earlyStatus (c : Chip) (k : HostCmd) : Option Nat :=
  if !fnEnabled c k.fn then some stNotOwner
  else if !knownOp k.op then some stInvalidOpcode
  else if !fieldsOk c k then some stInvalidField
  else if keeperOp k.op && k.fn != 0 then some stKeeperOnly
  else if !pointsOk k then some stInvalidPoint
  else if pointOp k.op && !classOk k.op (pClass k.point) then some stInvalidField
  else if !ownsOk c k then some stNotOwner
  else none

/-- Opcodes that MIRROR forbids (R952). -/
def mirrorForbids (op : Nat) : Bool := ([0x01, 0x02, 0x03, 0x04, 0x05, 0x0C] : List Nat).contains op

/-- Condition 10, of the word at 0x0C for a destination whose unit is known or not (R1174, R1188). -/
def wordStatus (k : HostCmd) (unit : Option Nat) : Option Nat :=
  let q := qw32Of (k.at_ 0x0C 4)
  if k.at_ 0x10 4 ≠ 0 then some stInvalidField
  else if q.mant = -524288 then some stInvalidQw
  else if unitReserved q.unit then some stConfigUnit
  else match unit with
    | some u => if q.unit = u then none else some stUnitMismatch
    | none => none

/-! ## Effects -/

/-- The command has begun and completes later. -/
def begin_ (c : Chip) (k : HostCmd) (w : Flight) : Chip :=
  modFn c k.fn fun f => { f with inflight := f.inflight ++ [{ sq := k.sq, tag := k.tag, what := w, silent := k.silent }] }

/-- Complete a command at once. -/
def done (c : Chip) (k : HostCmd) (status result : Nat) : Chip :=
  if k.silent then c else complete c k.fn k.sq k.tag status result

/-- The word and flags that SUBSTITUTE stores, and whether nothing gives the point a unit (R66, R1191). -/
def substWord (c : Chip) (p w : Nat) : Nat × Nat × Bool :=
  let q := qw32Of w
  match pointUnit c p with
  | some (u, e) =>
    let r := encodeWord false (qwValue q) e u q.qual flSubst
    (r.1, r.2, false)
  | none => (qw32To (qwFlagged q flSubst), flSubst, true)

/-- SUBSTITUTE (R1189, R1191); an output point's demand follows its live word. -/
def substitute (c : Chip) (p w : Nat) : Chip :=
  let (word, fl, raw) := substWord c p w
  demandPoint (setPoint c p { point c p with live := word, flags := fl, subst := true, raw := raw }) p word

/-- UNSUBSTITUTE (R1190). -/
def unsubstitute (c : Chip) (p : Nat) : Chip :=
  setPoint c p { point c p with subst := false, raw := false }

def subDef (_ : Nat) : Option Sub := none

/-- SUBSCRIBE (R1193, R1194): the chip, and RESULT. -/
def subscribe (c : Chip) (k : HostCmd) : Chip × Nat :=
  let s := k.at_ 8 1
  let old := smGet subDef (fnSt c k.fn).subs s
  let put (x : Option Sub) : Chip := modFn c k.fn fun f => { f with subs := smPut subDef f.subs s x }
  if k.at_ 0x0A 2 = 0 then
    if old.isNone then (c, 1) else (put none, 0)
  else
    let ps := itemPoints k
    match old with
    | some o => if o.period = k.at_ 0x0A 2 ∧ o.points = ps then (c, 1) else (put (some ⟨k.at_ 0x0A 2, ps, 0⟩), 0)
    | none => (put (some ⟨k.at_ 0x0A 2, ps, 0⟩), 0)

/-- READ_POINTS (R1194). -/
def readPoints (c : Chip) (k : HostCmd) : Chip := modFn c k.fn fun f => { f with reads := f.reads ++ [itemPoints k] }

/-- SUBSTITUTE and UNSUBSTITUTE. -/
def substCmd (c : Chip) (k : HostCmd) : Chip :=
  if pClass k.point = 8 then done c k stWrongState 0
  else if k.op = 0x02 then
    if (point c k.point).subst then done (unsubstitute c k.point) k stSuccess 0 else done c k stSuccess 1
  else match wordStatus k ((pointUnit c k.point).map Prod.fst) with
    | some s => done c k s 0
    | none => done (substitute c k.point (k.at_ 0x0C 4)) k stSuccess 0

/-- SET_SETPOINT, SET_LOOP_MODE and SET_MANUAL_OUTPUT. -/
def loopCmd (c : Chip) (k : HostCmd) : Chip :=
  let l := pIndex k.point
  if k.op = 0x04 then
    let r := setLoopModeStatus c l (k.at_ 0x0B 1)
    if r = (stSuccess, 0) then done (setLoopMode c l (k.at_ 0x0B 1)) k stSuccess 0 else done c k r.1 r.2
  else if k.op = 0x03 then
    if spSrc c l ≠ 1 then done c k stWrongState 0
    else match wordStatus k (some (qw32Of (spConst c l)).unit) with
      | some s => done c k s 0
      | none => done (setSetpoint c l (k.at_ 0x0C 4)) k stSuccess 0
  else if loopAuto c l then done c k stWrongState 0
  else match wordStatus k (some (outUnit c l)) with
    | some s => done c k s 0
    | none => done (setManualOutput c l (k.at_ 0x0C 4)) k stSuccess 0

/-- The alarm commands. -/
def alarmCmd (c : Chip) (k : HostCmd) : Chip :=
  let op := k.op - 8
  let s := almStatus c op k.point
  if s ≠ stSuccess then done c k s 0
  else
    let arg := if op = 1 then k.at_ 0x0C 4 else k.at_ 0x0B 1
    almAccept (begin_ c k (.alarm k.point)) { fn := k.fn, sq := k.sq, tag := k.tag, op := op, point := k.point, arg := arg }

/-- TABLE_SWAP (R213, R214, R311, R1000): conditions 11 and 12, then the swap is pending. -/
def tableSwap (c : Chip) (k : HostCmd) : Chip :=
  let code := k.at_ 8 1
  if swapPending c code then done c k stTableBusy 0
  else match swapError c code with
    | some e => done (loadSeqErr c e) k e.status e.result
    | none => shareSwap (pendTable (begin_ c k (.tableSwap code)) code) code

/-- FSK_SEND. -/
def fskCmd (c : Chip) (k : HostCmd) : Chip :=
  let ch := pIndex k.point
  let s := fskStatus c ch
  if s ≠ stSuccess then done c k s 0
  else fskBegin (begin_ c k (.fsk ch)) k.fn ch ((k.ops.drop 4).take (k.at_ 0x0B 1))

/-- CAN_SEND. -/
def canCmd (c : Chip) (k : HostCmd) : Chip :=
  let s := canSendStatus c k.fn k.ops (k.entries == 2)
  if s ≠ stSuccess then done c k s 0 else canSendBegin (begin_ c k (.can (k.at_ 8 1) (k.at_ 9 1))) k.fn k.ops

/-- REC_CLEAR_ARM and REC_CLEAR_CONFIRM. -/
def clearCmd (c : Chip) (k : HostCmd) : Chip :=
  if k.op = 0x20 then
    let r := recClearArm c (k.at_ 8 4)
    done r.1 k r.2 0
  else if clearConfirmed c (k.at_ 8 4) then beginClear (begin_ c k .recClear)
  else done (setArmed c none) k stClearCode 0

/-- TUNE_START and TUNE_STOP. -/
def tuneCmd (c : Chip) (k : HostCmd) : Chip :=
  let l := pIndex k.point
  if k.op = 0x24 then
    let r := tuneStatus c l (tuneCfg k)
    if r = (stSuccess, 0) then done (tuneStart c l (tuneCfg k)) k stSuccess 0 else done c k r.1 r.2
  else
    let r := tuneStop c l
    done r.1 k stSuccess (b2n (!r.2))

/-- SDL_RESYNC and SDL_SWITCHBACK. -/
def sdlCmd (c : Chip) (k : HostCmd) : Chip :=
  if k.op = 0x30 then
    let r := sdlResync c
    done r.1 k r.2.1 r.2.2
  else match switchbackStatus c with
    | some (s, r) => done c k s r
    | none => switchbackBegin (begin_ c k .switchback)

/-- A command that has passed conditions 1 to 7. -/
def perform (c : Chip) (k : HostCmd) : Chip :=
  if nodeMode c = mMirror ∧ mirrorForbids k.op = true then done c k stWrongMode 0
  else match k.op with
    | 0x00 => done c k stSuccess 0
    | 0x01 | 0x02 => substCmd c k
    | 0x03 | 0x04 | 0x05 => loopCmd c k
    | 0x08 | 0x09 | 0x0A | 0x0B => alarmCmd c k
    | 0x0C =>
      let s := callAckStatus c (k.at_ 0x0B 1)
      if s ≠ stSuccess then done c k s 0 else callAckBegin (begin_ c k (.callAck k.point)) k.fn k.sq k.tag (k.at_ 0x0B 1)
    | 0x10 => let r := subscribe c k; done r.1 k stSuccess r.2
    | 0x11 => done (readPoints c k) k stSuccess 0
    | 0x18 => tableSwap c k
    | 0x1A => let r := tripClear c (pIndex k.point); done r.1 k r.2.1 r.2.2
    | 0x1C => fskCmd c k
    | 0x1D => canCmd c k
    | 0x20 | 0x21 => clearCmd c k
    | 0x24 | 0x25 => tuneCmd c k
    | _ => sdlCmd c k

/-- Perform a command, or refuse it with the first condition of R1186 that it breaks. -/
def runCommand (c : Chip) (k : HostCmd) : Chip :=
  match earlyStatus c k with
  | some s => done c k s 0
  | none => perform c k

/-! ## Entries -/

def cmdEntryMore (e : Entry) : Bool := e.flags.getLsbD 0

/-- A reserved byte or FLAGS bit of an entry is not 0. -/
def cmdEntryBad (e : Entry) : Bool := 2 ≤ e.flags.toNat || e.reserved != 0

def cmdEntryOps (e : Entry) : List Byte := padTo 56 e.operands

/-- Commands of a partition for one frame: NODE_CMDS or CMDS (R257). -/
def fnQuota (c : Chip) (fn : Nat) : Nat := slotQuota c fn

/-- The function's slot runs: the node slot for the physical function (R256). -/
def inSlot (c : Chip) (fn : Nat) : Bool := c.mode.frames && !c.mode.firstFrame && c.seq.slot == some fn

/-- May the node begin a command of the function: its command ring is enabled, its slot runs and has reserved time
left, the completion ring has room, and the command before has completed (R255 to R259, R281, R335)?

DEDUCED: a command that goes on without its completion after a reset (R278) is still the command before, until its end:
at most one CAN_SEND of a function is in progress (log 122). -/
def mayBegin (c : Chip) (fn : Nat) : Bool :=
  ringEn c fn 0 && inSlot c fn && decide ((fnSt c fn).used < fnQuota c fn) && (fnSt c fn).carry.isNone
    && ringRoom c fn 1 && (fnSt c fn).inflight.isEmpty

/-- The next entry of the command ring is fetched; a ring that holds none takes it with its fetch. -/
def fetchStep (c : Chip) (fn n : Nat) : Chip :=
  if ringEn c fn 0 then
    let c1 := if ringOcc c fn 0 < n then setHostIdx c fn 0 ((nodeIdx c fn 0 + n) % 65536) else c
    checkFall (setNodeIdx c1 fn 0 ((nodeIdx c fn 0 + n) % 65536)) fn 0
  else c

/-- A command begins: it takes one T_CMD of its slot (R334). It is performed at once, or, where its work takes more,
goes on in its slot of the next frames (R335). -/
def beginCommand (c : Chip) (k : HostCmd) : Chip :=
  let w := (fnSt c k.fn).work.headD 0
  let c1 := modFn c k.fn fun f => { f with used := f.used + 1, work := f.work.drop 1 }
  if w = 0 then runCommand c1 k else modFn c1 k.fn fun f => { f with carry := some ⟨k, w⟩ }

/-- A carried command goes on for at most n T_CMD of its slot, within the quota; at its end it is performed (R335).
The chip, and the T_CMD of the slot that are left. -/
def continueCommand (fn n : Nat) (c : Chip) : Chip × Nat :=
  match (fnSt c fn).carry with
  | none => (c, n)
  | some x =>
    let t := min x.left (min n (fnQuota c fn - (fnSt c fn).used))
    let c1 := modFn c fn fun f => { f with used := f.used + t, carry := none }
    if t = x.left then (runCommand c1 x.cmd, n - t)
    else (modFn c1 fn fun f => { f with carry := some { x with left := x.left - t } }, n - t)

/-- The command whose entries are collected is run. -/
def runCollected (c : Chip) (fn : Nat) (a : Nat × Nat × Nat × List Byte) (bad : Bool) : Chip :=
  let (sq, tag, op, ops) := a
  beginCommand (modFn c fn fun f => { f with asm := none })
    { fn := fn, sq := sq, tag := tag, op := op % 256, bad := bad || decide (256 ≤ op), ops := ops }

/-- The first entry of a command. -/
def firstEntry (c : Chip) (fn sq op : Nat) (e : Entry) : Chip :=
  if cmdEntryMore e then
    modFn c fn fun f => { f with asm := some (sq, e.tag.toNat, op + 256 * b2n (cmdEntryBad e), cmdEntryOps e) }
  else beginCommand c { fn := fn, sq := sq, tag := e.tag.toNat, op := op, bad := cmdEntryBad e, ops := cmdEntryOps e }

/-- One entry of a function's command ring, taken by itself (R1192): a DATA_CONT goes on with the command whose MORE
was set; any other entry ends that run, and is a command of its own when the node may begin one then. -/
def takeEntry (c : Chip) (fn op : Nat) (e : Entry) : Chip :=
  if !mayBegin c fn then c
  else
    let first (c : Chip) : Chip := firstEntry (fetchStep c fn 1) fn (nodeIdx c fn 0) op e
    match (fnSt c fn).asm with
    | none => first c
    | some (q, t, o, ops) =>
      if op = 0x1F then
        let a := (q, t, o % 256 + 256 * b2n (decide (256 ≤ o) || cmdEntryBad e), ops ++ cmdEntryOps e)
        let c1 := fetchStep c fn 1
        if cmdEntryMore e then modFn c1 fn fun f => { f with asm := some a } else runCollected c1 fn a false
      else
        let c1 := runCollected c fn (q, t, o, ops) true
        if mayBegin c1 fn then first c1 else c1

/-! ## Fetching in a slot (R255 to R259, R1192) -/

/-- The entry at an absolute index of a function's command ring, with its OPCODE. -/
def ringEntry (c : Chip) (fn i : Nat) : Nat × Entry :=
  let bs := memRead zeroByte c.hostMem (ringAddr c fn 0 64 i) 64
  ((bs.getD 0 0).toNat,
   { flags := bs.getD 1 0, reserved := BitVec.ofNat 16 (leNat ((bs.drop 2).take 2)),
     tag := BitVec.ofNat 32 (leNat ((bs.drop 4).take 4)), operands := bs.drop 8 })

/-- The DATA_CONT entries that follow an entry whose MORE is set, as far as TAIL covers them: how many, whether one
is bad, their operand bytes, and whether the run is whole: it ends at MORE 0 or at another opcode. -/
def contRun (c : Chip) (fn : Nat) : Nat → Nat → Nat → Nat × Bool × List Byte × Bool × Bool
  | 0, _, _ => (0, false, [], false, true)
  | fuel + 1, i, left =>
    if left = 0 then (0, false, [], false, true)
    else
      let (op, e) := ringEntry c fn i
      if op ≠ 0x1F then (0, false, [], true, true)
      else if cmdEntryMore e then
        let (n, b, os, whole, cut) := contRun c fn fuel (i + 1) (left - 1)
        (n + 1, b || cmdEntryBad e, cmdEntryOps e ++ os, whole, cut)
      else (1, cmdEntryBad e, cmdEntryOps e, true, false)

/-- The command at HEAD, with the number of its entries; none while TAIL does not cover them all. -/
def headCommand (c : Chip) (fn : Nat) : Option (HostCmd × Nat) :=
  let i := nodeIdx c fn 0
  let left := ringOcc c fn 0
  if !ringEn c fn 0 ∨ left = 0 then none
  else
    let (op, e) := ringEntry c fn i
    let k : HostCmd := { fn := fn, sq := i, tag := e.tag.toNat, op := op, bad := cmdEntryBad e, ops := cmdEntryOps e }
    if cmdEntryMore e then
      let (n, b, os, whole, cut) := contRun c fn left (i + 1) (left - 1)
      if whole then some ({ k with bad := cmdEntryBad e || b || cut, ops := cmdEntryOps e ++ os }, n + 1) else none
    else some (k, 1)

/-- Ring traffic of a function waits: a whole command stands at HEAD, and the node may begin it; or events or record deliveries
are held back and their ring has room. -/
def ringWaits (c : Chip) (fn : Nat) : Bool :=
  let f := fnSt c fn
  (mayBegin c fn && (headCommand c fn).isSome)
    || ((!f.hold.isEmpty || f.gapN != 0) && ringRoom c fn 2)
    || ((!f.recQ.isEmpty || f.recLost != 0) && ringRoom c fn 3)

/-- DMA_BURST of channel n, 0 to 7 DP, 8 to 15 DL, `cycles` fabric cycles after the engine's last (R873 to R880). -/
def dmaBurst (c : Chip) (n limit cycles : Nat) : Chip :=
  if !dmaOn c then c
  else
    let c1 := dmaCycles c cycles
    if n < 8 then dpServe c1 n else dlServe c1 (n - 8) limit (ringWaits c1 (dlFn c1 (n - 8)))

/-- The function's commands in its slot: in index order, within the quota (R256 to R259). -/
def runCommands (fn : Nat) : Nat → Chip → Chip
  | 0, c => c
  | n + 1, c =>
    if !mayBegin c fn || (fnSt c fn).asm.isSome then c
    else match headCommand c fn with
      | some (k, m) => runCommands fn n (beginCommand (fetchStep c fn m) k)
      | none => c

end Sys2Proof.Machine
end

