-- ==== Sys2Proof/Machine/Sequencer.lean ====
section
/-! DEFINITION. The sequencer: the frame boundary, the slots, the base tick, blanking and the sentry lane
(01_node_architecture, 08_scan_sequencer), with the partition change of 07 and the breaches of guarantees. -/

namespace Sys2Proof.Machine

/-! ## Step 1: a partition-table change (R313 to R317) -/

/-- Commands begun and not completed that name what their function's partition no longer owns (R315). -/
def flightLost (c : Chip) (fn : Nat) (i : InFlight) : Bool :=
  fn != 0 && (match i.what with
    | .alarm p => ownerOf c p != fnOwner fn
    | .callAck p => ownerOf c p != fnOwner fn
    | .tableSwap code => tableOwner c code != fnOwner fn
    | _ => false)

/-- Swaps whose commands are lost are no longer pending. -/
def unpend (c : Chip) : Chip :=
  (List.range 9).foldl (fun c fn => (fnSt c fn).inflight.foldl (fun c i =>
    match i.what with
    | .tableSwap code =>
      if flightLost c fn i then
        (match tableDesc code with
         | some d => setFlag c d.stat 1 false
         | none => c)
      else c
    | _ => c) c) c

/-- Lost commands complete with ACCESS_REVOKED, and no part of them is performed (R315). -/
def revokeFlights (c : Chip) : Chip :=
  let lost (fn sq tag : Nat) : Bool := (fnSt c fn).inflight.any fun i => i.sq == sq && i.tag == tag && flightLost c fn i
  let c1 := modAlm (unpend c) fun m => { m with
    cmds := m.cmds.filter fun k => !lost k.fn k.sq k.tag
    results := m.results.filter fun r => !lost r.1 r.2.1 r.2.2.1 }
  let c2 := modCall c1 fun k => { k with accs := k.accs.filter fun a =>
    match a.cmd with
    | some (fn, sq, tag) => !lost fn sq tag
    | none => true }
  completeWhere c2 (fun fn i => flightLost c fn i) fun _ _ => (stAccessRevoked, 0)

/-- A carried command that names what its function's partition no longer owns completes with ACCESS_REVOKED (R315). -/
def revokeCarried (old c : Chip) (fn : Nat) : Chip :=
  match (fnSt c fn).carry with
  | some x =>
    if ownsOk old x.cmd && !ownsOk c x.cmd then done (modFn c fn fun f => { f with carry := none }) x.cmd stAccessRevoked 0 else c
  | none => c

/-- A point that a function may not have delivered to it any more (R302, R317). -/
def itemLost (old c : Chip) (fn p : Nat) : Bool :=
  p != 0 && ((ownerOf old p != ownerOf c p && ownerOf old p == fnOwner fn) || !mayRead c fn p)

/-- Items of subscriptions and reads that are lost become the null point (R317). -/
def nullItems (old c : Chip) (fn : Nat) : Chip :=
  let cut (p : Nat) : Nat := if itemLost old c fn p then 0 else p
  modFn c fn fun f => { f with
    subs := f.subs.map fun (e : Nat × Option Sub) =>
      (e.1, e.2.map fun (s : Sub) => { s with points := s.points.map cut })
    reads := f.reads.map fun ps => ps.map cut }

/-- What a change of the partition table does beyond the table itself. -/
def partitionChange (old c : Chip) : Chip :=
  let changed (p : Nat) : Bool := ownerOf old p != ownerOf c p
  let c1 := (List.range 32).foldl (fun c j => if changed (pt 7 j) then tripOwnerChange c j else c) c
  let c2 := (List.range 48).foldl (fun c ch => if changed (pt 5 ch) then fskRxOwner (endFsk c ch stAccessRevoked) ch else c) c1
  let c3 := (List.range 8).foldl (fun c n => if canOwner old n ≠ canOwner c n then canOwnerChange c n else c) c2
  let c4 := (List.range 4).foldl (fun c b =>
    if ownerAt old (0xD08 + b) ≠ ownerAt c (0xD08 + b) ∨ changed (loopPt (tuneLoop c b)) = true then clearBuffer c b
    else c) c3
  let c5 := (List.range 9).foldl (fun c fn => nullItems old (if fn = 0 then c else revokeCarried old c fn) fn) (revokeFlights c4)
  grantAll 40 (bsnPartition (dlPartition c5))

/-! ## Steps 1 to 3: swaps (R213, R214, R357) -/

/-- The other copy becomes active: ACTIVE, PENDING and GEN. -/
def toggleTable (c : Chip) (d : TableDesc) : Chip :=
  wrapFld (setFld c d.stat 0 2 (1 - activeCopy c d)) d.stat 16 16

/-- Triggers whose entry a swap changes: their open records close (R782). -/
def closeChanged (old new : Nat) (c : Chip) : Chip :=
  (List.range 256).foldl (fun c t =>
    if tmem c (old + trigOff t) 0x80 = tmem c (new + trigOff t) 0x80 then c else closeSource c t) c

/-- What follows the swap of a table; `was` is the chip before it. -/
def afterSwap (was c : Chip) (code : Nat) : Chip :=
  match code with
  | 2 => partitionChange was c
  | 3 => setReg c 0x40004 (BitVec.ofNat 32 (frameLenOf c))
  | 5 => loopSwap c (tblBase was 5)
  | 6 => almSwap c (tblBase was 6) (tblBase c 6)
  | 7 => if c.call.stage = 0 then callTake c else c
  | 8 => closeChanged (tblBase was 8) (tblBase c 8) c
  | 9 => legsFollowTrips (tripLoad c)
  | 11 => sptSwap c (tblBase was 11) (tblBase c 11)
  | _ => c

/-- A pending swap takes effect: its CONFIG record, and its command completes (R260, R775). -/
def swapTable (c : Chip) (code : Nat) : Chip :=
  match tableDesc code with
  | some d =>
    if swapPending c code && !swapHeld c code then
      let c1 := afterSwap c (toggleTable c d) code
      let c2 := tableReloaded (tellSwap (nodeRec c1 7 code [code, fld c1 d.stat 16 16]) code) code
      completeWhere c2 (fun _ i => i.what == .tableSwap code) fun _ _ => (stSuccess, 0)
    else c
  | none => c

/-- Steps 1 to 3 of R28. -/
def boundarySwaps (c : Chip) : Chip :=
  let c1 := swapTable (swapTable (swapsDue c) 2) 3
  let c2 := [4, 5, 6, 7, 8, 9, 10, 11].foldl swapTable (ucSwap c1)
  let c3 := if c2.img.apply.isSome && tableDescs.all fun d => !swapPending c2 d.code then applyDone c2 else c2
  endRawSubst c3

/-! ## Step 4: the snapshot (R26, R27, R577, R1194) -/

/-- Code of a trip's last snapshot word. -/
def lastTripCode (c : Chip) (j : Nat) : Nat :=
  let w := (point c (pt 7 j)).lastCalc
  if w % 4 = 0 then w / 4096 else 0

/-- A trip's state goes to its point; a change of the word forms a TRIP event. -/
def tripSnapshot (c : Chip) (j : Nat) : Chip :=
  let s := if natBit c.trips.fresh j then 1 else tripCode c j
  let c1 := if s = lastTripCode c j then c
    else
      let at_ := smGet codeDef (if natBit c.trips.fresh j then c.trips.entries else c.trips.ots) j
      let body := evHeader 3 0 (frameNum c) c.ot 0 ++ ptBytes (pt 7 j) ++ natLe 1 s ++ natLe 5 at_
      let e : EvEnt := { kind := 3, sub := 0x100, frame := frameNum c % 2 ^ 32, body := padTo 64 body }
      { c with trips := { c.trips with events := c.trips.events ++ [(ownerFn (ownerOf c (pt 7 j)), e)] } }
  writeLive c1 (pt 7 j) (tripWord s) 0

/-- Every snapshot word takes its live word with its flags (R62). -/
def copySnapshot (c : Chip) : Chip :=
  { c with points := smMap ptDef (fun (x : PtEnt) => { x with snap := x.live, snapFlags := x.flags }) c.points }

/-- One item of a VALUE_SET event. -/
def valueItem (c : Chip) (p : Nat) : List Byte :=
  if p = 0 then List.replicate 12 0
  else ptBytes p ++ natLe 1 (point c p).snapFlags ++ natLe 8 (point c p).snap

/-- The entries of a VALUE_SET event: four items in each (R249). -/
def valueSet (c : Chip) (sub : Nat) (ps : List Nat) : List EvEnt :=
  let bodies := (cutAll 4 ps).map fun q => q.flatMap (valueItem c)
  (eventEntries 1 (frameNum c) c.ot sub (bodies.headD []) bodies.tail).map fun (e : EvEnt) => { e with sub := sub }

/-- A subscription at a snapshot: its event when it is due, and the count to the next (R1194). -/
def subStep (c : Chip) (k : Nat) (s : Sub) : Sub × List (Nat × List EvEnt) :=
  if s.left = 0 then ({ s with left := s.period - 1 }, [(k, valueSet c k s.points)]) else ({ s with left := s.left - 1 }, [])

/-- The VALUE_SET events that a function gets from this snapshot. -/
def formValues (c : Chip) (fn : Nat) : Chip :=
  let f := fnSt c fn
  let subs := f.subs.map fun (e : Nat × Option Sub) =>
    match e.2 with
    | some s => (e.1, some (subStep c e.1 s).1)
    | none => e
  let sets := f.subs.flatMap fun (e : Nat × Option Sub) =>
    match e.2 with
    | some s => (subStep c e.1 s).2
    | none => []
  let reads := f.reads.map fun ps => (0xFF, valueSet c 0xFF ps)
  modFn c fn fun f => { f with subs := subs, reads := [], formed := f.formed ++ sets ++ reads }

/-- Step 4: mirrored state is applied, the snapshot is taken, sets and streams follow it. -/
def boundarySnapshot (c : Chip) (len : Nat) : Chip :=
  let c1 := (List.range 32).foldl tripSnapshot c
  let c2 := { c1 with trips := { c1.trips with fresh := 0 }, seq := { c1.seq with snapTime := c1.seq.snapTime + len } }
  let c3 := applyReady (copySnapshot c2)
  let c4 := (List.range 9).foldl formValues c3
  streamsFrame (switchbackFrame (takeSet c4))

/-! ## Step 5: publication (R30, R1195) -/

/-- Write a VALUE_SET event; where the ring cannot take it, queued entries of the same subscription go first (R272). -/
def putValueSet (fn : Nat) (c : Chip) (s : Nat × List EvEnt) : Chip :=
  let f := fnSt c fn
  let full := ringEn c fn 2 && !(f.hold.isEmpty && ringRoom c fn 2)
  putEvents (if full then dropSub c fn s.1 else c) fn s.2

/-- The VALUE_SET events of every function formed from the snapshot before. -/
def publishValues (sets : List (Nat × List (Nat × List EvEnt))) (c : Chip) : Chip :=
  sets.foldl (fun c x => x.2.foldl (putValueSet x.1) c) c

/-- What a boundary publishes: formed before its own snapshot was taken. -/
structure Formed where
  trips : List (Nat × EvEnt)
  values : List (Nat × List (Nat × List EvEnt))
  deriving DecidableEq, Repr

def formedNow (c : Chip) : Formed :=
  { trips := c.trips.events, values := (List.range 9).map fun fn => (fn, (fnSt c fn).formed) }

/-- What was formed has been taken for publication. -/
def clearFormed (c : Chip) : Chip :=
  (List.range 9).foldl (fun c fn => modFn c fn fun f => { f with formed := [] })
    { c with trips := { c.trips with events := [] } }

/-- In MIRROR the alarm, group and call words and the inspect registers come from the mirrored state (R728, R732). -/
def publishMirror (c : Chip) : Chip :=
  modAlm (publishWords (publishWords c [9, 10] (almWordsNow c)) [11] (callWords c false)) fun m =>
    { m with shown := almShownNow c, shownAt := evalTime c }

/-- Step 5 of R28; `old` is the chip before step 4, `f` what was formed from its snapshot. What an evaluation before MIRROR
formed is still published; its commands complete last (R30, R261, R701). -/
def boundaryPublish (old c : Chip) (f : Formed) (frame : Nat) : Chip :=
  let c1 := f.trips.foldl (fun c e => putEvent c e.1 e.2) (almPublish c)
  let c2 := callPublish c1
  let c3 := if nodeMode c = mMirror then publishMirror c2 else c2
  almComplete (publishValues f.values (lcdPublish (sptPublish old c3 frame)))

/-! ## The boundary -/

/-- Reads of registers as the records of triggers take them (R780). -/
def recRead (c : Chip) (off : Nat) : Nat := readReg c 0 off

/-- Step 8 of start-up is done: the domains of the start mode are ON, and of those that PWR_DOM_EN enables none
waits or wakes (R149). -/
def startDone (c : Chip) : Bool :=
  (match c.mode.auto with | some (m, _) => forcedAreOn c m | none => true)
    && (List.range 30).all fun n => !(dom c n).waits && dom c n != .waking

/-- Does a boundary come (R140, R149, R1181)? -/
def boundaryComes (c : Chip) : Bool :=
  if c.mode.frames then !c.mode.firstFrame || startDone c else boundaryWakes c

/-- The evaluation of the snapshot just taken; in MIRROR there is none (R728). -/
def evaluateFrame (c : Chip) : Chip := if nodeMode c = mMirror then callIdle c else alarmEvaluation recRead c

/-- Step 6, and what the frame begins with. The evaluation begins as step 4 ends, before the mode that step 6 takes (R678).
After start-up the Saddle link and an automatic admission begin here (R147, R962).

DEDUCED: before the first boundary after start-up no mode is in force, so its evaluation is that of the start mode (R29,
R149; log 109). -/
def boundaryBegin (c : Chip) (first : Bool) : Chip :=
  let c1 := demoteCheck (modeEffect (takeoverCheck (if first then sdlSync c else evaluateFrame c)))
  let c2 := modMode c1 fun m => { m with resumed := false }
  let c3 := if first then evaluateFrame c2 else c2
  let c4 := (List.range 8).foldl drainFifo (dmaFrame c3)
  let c5 := (List.range 9).foldl (fun c fn => modFn c fn fun f => { f with used := 0 }) c4
  if first then autoAdmit c5 false else autoFrame c5

/-- A slot that is not run in full (R321). -/
def shortSlot (c : Chip) (k : Nat) : Chip := { c with seq := { c.seq with short := c.seq.short ||| 2 ^ k } }

/-- Slots of partitions that have not begun in the frame that ends. -/
def slotsMissed (c : Chip) : Chip :=
  (List.range 8).foldl (fun c p =>
    if fnEnabled c (p + 1) && decide (0 < slotLen c (p + 1)) && !natBit c.seq.begun (p + 1) then shortSlot c (p + 1) else c) c

/-- OT in 1/4,000 of its count. -/
def otFine (c : Chip) : Nat := c.ot * 4000 + c.rtc.otFrac

/-- Base ticks from the last frame boundary to one at which frames resume after they have stood still.

DEDUCED: snapshot times count from start-up through such a time (16_alarm_engine.md, before R677); the node measures it by
OT, whose count is 1,024 a second (log 152). -/
def stoodStill (c : Chip) : Nat := max 1 ((otFine c - c.seq.snapOt) * 5 / 512)

/-- FRAME_BOUNDARY (R28, R327, R341). -/
def frameBoundary (c : Chip) : Chip :=
  if !boundaryComes c then c
  else
    let first := c.mode.firstFrame
    let resumed := c.mode.resumed || !c.mode.frames
    let n := if first then 0 else frameNum c + 1
    let len := if first then 0 else if resumed then stoodStill c else frameLen c
    let cf := modMode c fun m => { m with firstFrame := false }
    let c0 : Chip := { (if first then loseHeld cf else cf) with img := { c.img with writing := none } }
    let c1 := boundarySwaps (setFrameNum (if first || resumed then c0 else slotsMissed c0) n)
    let g := if first || resumed then 0 else c1.seq.g
    let c2 : Chip := { c1 with seq := { c1.seq with slot := none, begun := 0, tick := 0, g := g, snapOt := otFine c } }
    let f := formedNow c2
    let c3 := boundarySnapshot (clearFormed c2) len
    let c4 := if first then c3 else boundaryPublish c2 c3 f (n - 1)
    boundaryBegin c4 first

/-! ## Entries (R333, R338 to R345, R349) -/

/-- Frames run and the tables with them. -/
def entriesRun (c : Chip) : Bool := c.mode.frames && !c.mode.firstFrame && tablesRun c

/-- Action of an entry of the slot or tick lane; INTERNAL takes its reading in its own row, ACQ its output. -/
def entryAction (c : Chip) (i : Nat) (tickLane : Bool) : Chip :=
  let n := pIndex (entPoint c i)
  if scanBad c i then c
  else match entOp c i with
    | 2 => contactEntry c n
    | 3 => pulseEntry c n
    | 4 => positionEntry c n
    | 6 => dispatchLoop c n tickLane (natBit (entArg c i) 0)
    | 7 => applyPoint c (entPoint c i)
    | 8 => setPending c (entArg c i % 8) 0
    | _ => c

/-- An entry that cannot end in its slot is not begun (R336). -/
def skipEntry (c : Chip) (k i : Nat) : Chip :=
  postError (countFld (shortSlot c k) 0x40014 0 16) 0x1D (if k = 0 then srcNode else srcRes 3 (k - 1)) i

/-- The entries of a slot in ascending index, with the cycles that the slot has used. -/
def runSlot (k : Nat) (s : Chip × Nat) (i : Nat) : Chip × Nat :=
  let cost := opCost (entOp s.1 i)
  if slotLen s.1 k < s.2 + cost then (skipEntry s.1 k i, s.2)
  else if scanBad s.1 i then (shortSlot s.1 k, s.2 + cost)
  else (entryAction s.1 i false, s.2 + cost)

/-- SLOT_BEGIN: the slot's entries, then the command that its function carries over, then its next commands; `work` is the
T_CMD that each command begun in the slot needs beyond its first (R330 to R337). -/
def slotBegin (c : Chip) (k : Nat) (work : List Nat) : Chip :=
  if !c.mode.frames || c.mode.firstFrame then c
  else
    let c0 : Chip := { (modFn c k fun f => { f with work := work }) with seq := { c.seq with
      slot := some k, begun := c.seq.begun ||| 2 ^ k, short := c.seq.short - (if natBit c.seq.short k then 2 ^ k else 0) } }
    let start := if k = 0 then bndCycles else 0
    let s := if tablesRun c0 then (slotEntries c0 k).foldl (runSlot k) (c0, start) else (c0, start)
    let x := continueCommand k ((slotLen s.1 k - s.2) / cmdCycles) s.1
    runCommands k x.2 x.1

/-- BASE_TICK: the tick that G counts, then G and the tick advance (R33, R341 to R345). -/
def baseTick (c : Chip) : Chip :=
  if !c.mode.up || !domOn c 26 then c
  else
    let c1 := resyncTick (legsTick (if domOn c 28 then tripInputCopy c else c))
    let t := c1.seq.tick
    let g := c1.seq.g - t
    let due := if entriesRun c1 then (tickEntries c1).filter fun i => dueAt c1 i g t else []
    let c2 := due.foldl (fun c i => entryAction c i true) c1
    { c2 with seq := { c2.seq with tick := t + 1, g := c2.seq.g + 1 } }

/-- One entry of the scan table in force, run by its own row, of an opcode. -/
def entryRow (c : Chip) (op i : Nat) (f : Chip) : Chip :=
  if entriesRun c && decide (i < scanEntries c) && entOp c i == op && !scanBad c i then f else c

def scanRow (c : Chip) (op i : Nat) : Chip := entryRow c op i (entryAction c i (entTrig c i % 4 != 0))

/-- INTERNAL: the monitor reading goes to its point (R1173). -/
def internalEntry (c : Chip) (i : Nat) (x : Rat) : Chip :=
  let p := entPoint c i
  let u := internalUnit (pIndex p)
  entryRow c 5 i (writeValue c p x u.2 u.1 0 0)

/-- STALE_TIMEOUT (R56, R57, R1189). -/
def staleTimeout (c : Chip) (p : Nat) : Chip :=
  let e := point c p
  if !pointValid p || p == 0 || e.subst then c
  else setPoint c p { e with live := e.live - e.live % 4 + worst (e.live % 4) 2, flags := flagOn flStale e.flags }

/-! ## Blanking (R360 to R364) -/

def blankStat : Nat := 0x40028
def blankEn (c : Chip) (b : Nat) : Bool := flag c 0x40020 b
def modSeq (c : Chip) (f : SeqSt → SeqSt) : Chip := { c with seq := f c.seq }
def stuck (c : Chip) (b : Nat) : Bool := flag c blankStat (8 + b)

/-- A blanking interval begins, or goes on. -/
def beginBlank (c : Chip) (b : Nat) : Chip :=
  if flag c blankStat b then c else countFld (setFlag c blankStat b true) blankStat 16 16

/-- BLANK_ACTIVE. -/
def blankActive (c : Chip) (b : Nat) : Chip :=
  if natBit c.seq.blankIn b then c
  else
    let c1 := modSeq c fun s => { s with blankIn := s.blankIn ||| 2 ^ b, blankPost := s.blankPost - (s.blankPost &&& 2 ^ b) }
    if blankEn c1 b && !stuck c1 b then beginBlank c1 b else c1

/-- BLANK_INACTIVE: the extension begins; a stuck input is heard again. -/
def blankInactive (c : Chip) (b : Nat) : Chip :=
  if natBit c.seq.blankIn b then
    let c1 := modSeq c fun s => { s with blankIn := s.blankIn - 2 ^ b }
    if stuck c1 b then setFlag c1 blankStat (8 + b) false
    else if flag c1 blankStat b then modSeq c1 fun s => { s with blankPost := s.blankPost ||| 2 ^ b }
    else c1
  else c

/-- BLANK_POST_END. -/
def blankPostEnd (c : Chip) (b : Nat) : Chip :=
  if natBit c.seq.blankPost b then
    endBlank (modSeq c fun s => { s with blankPost := s.blankPost - 2 ^ b }) b
  else c

/-- BLANK_STUCK. -/
def blankStuck (c : Chip) (b : Nat) : Chip :=
  if natBit c.seq.blankIn b && !stuck c b then
    let c1 := if flag c blankStat b then endBlank c b else c
    postErrorRec (setFlag c1 blankStat (8 + b) true) 0x1E (srcRes 1 b) 0
  else c

/-- SEQ_BLANK_CFG: blanking follows EN (R360). -/
def hookBlank : Hook := fun _ c =>
  (List.range 8).foldl (fun c b =>
    if blankEn c b then (if natBit c.seq.blankIn b && !stuck c b then beginBlank c b else c)
    else if flag c blankStat b then endBlank (modSeq c fun s => { s with blankPost := s.blankPost - (s.blankPost &&& 2 ^ b) }) b
    else c) c

/-! ## The sentry lane (R367 to R374) -/

def sentryWakeReg : Nat := 0x40030

/-- The state of a contact in a scan: its class, where R lies far enough beyond the boundary it crossed, else its debounced
state (R549, R550, R556). In MODE 0 it drives no excitation and has none (R552).

DESIGN CHOICE: the margin of R550 is judged from the state debounced before SENTRY throughout; CONFIRM stands in place of DEB
and the chapter names no other state (R371; log 145). -/
def sentryContact (c : Chip) (n : Nat) (ohm : Option Nat) : Option Nat :=
  let old := fld c (diStat n) 0 2
  let s := diClass c n ohm
  if diMode c n = 0 then none else some (if s ≠ old ∧ diBeyond c n old s ohm = false then old else s)

/-- The bank's cells are powered: its domain is ON, or in its sentry state (R127). -/
def cellsPowered (c : Chip) (b : Nat) : Bool := afeOn c b || inSentry c (8 + b)

/-- What a scan gives for an entry: the filter code F of its channel in its mode and excitation (R369, R429, R431), or its
contact's state. A channel in OFF, one without a cell that works, and a contact in MODE 0 give nothing. -/
def sentryCode (c : Chip) (e : SentrySt) (seen : SentrySeen) : Option Int :=
  let k := pIndex e.point
  if pClass e.point = 1 then (sentryContact c k seen.ohm).map Int.ofNat
  else if mdMode (anaSt c k).aMode = 0 || !cellsPowered c (k / 16) || !cellWorks c k then none
  else some (codeF (corrNow c k (servingCell c k)) (filterResult c k (phasor seen.sense) (phasor seen.drive)).1)

/-- The scan finds the entry outside its window, or in a state that wakes (R370, R371). -/
def sentryHit (e : SentrySt) (f : Int) : Bool :=
  if pClass e.point = 1 then natBit e.lo f.toNat else decide (f < signed 32 e.lo) || decide (signed 32 e.hi < f)

/-- Does a confirmation belong to the scan that woke the node (R372)?

DESIGN CHOICE: confirmations within 90 units of OT belong to one scan; sixteen conversions of 5 ms last less, and the fast
RC brings the next scan later (R368, R369; log 98). -/
def sameScan (c : Chip) : Bool := decide (c.ot - c.seq.wakeOt < 90)

/-- SEQ_SENTRY_WAKE of an entry and its last code. -/
def wakeWord (i more : Nat) (f : Int) : Word := BitVec.ofNat 32 (i + more * 16 + unsigned 24 f * 256)

/-- An entry is confirmed: it wakes the node, or it is named beside the entry that did so in the same scan (R372). -/
def sentryConfirm (c : Chip) (i : Nat) (f : Int) : Chip :=
  let was := fld c sentryWakeReg 0 4
  if !c.seq.woke then sentryWake (setReg (modSeq c fun s => { s with woke := true, wakeOt := c.ot }) sentryWakeReg (wakeWord i 0 f))
  else if sameScan c && i < was then setReg c sentryWakeReg (wakeWord i 1 f)
  else if sameScan c && was < i then setFlag c sentryWakeReg 4 true
  else c

/-- A free value for the ratio of a scan whose excitation has no amplitude is taken (log 96). -/
def sentryFree (c : Chip) (e : SentrySt) (seen : SentrySeen) : Chip :=
  if pClass e.point != 1 && ratioFree c (pIndex e.point) (phasor seen.drive) then takeFree c else c

/-- SENTRY_SCAN. -/
def sentryScan (c : Chip) (i : Nat) (seen : SentrySeen) : Chip :=
  match c.seq.sentry[i]? with
  | some e =>
    match sentryCode c e seen with
    | some f =>
      if nodeMode c ≠ mSentry then c
      else
        let n := if sentryHit e f then min (e.count + 1) 255 else 0
        let c1 := modSeq (sentryFree c e seen) fun s => { s with sentry := s.sentry.set i { e with count := n } }
        if n < e.confirm then c1 else sentryConfirm c1 i f
    | none => c
  | none => c

/-! ## Breaches (R321 to R324) -/

/-- Does what R321 gives as a breach's condition hold now, as far as the state shows it?

DESIGN CHOICE: HOST_TRAFFIC and BASIN_BANDWIDTH are rates over 10 µs; the block holds no such times, so the two are judged
by their rows alone (log 45). -/
def breached (c : Chip) (p code : Nat) : Bool :=
  match code with
  | 1 => natBit c.seq.short (p + 1)
  | 4 => spaceShort c p
  | 5 => c.pwr.reqs.any fun r => r.late && chargeOf c r == p
  | 6 => (fnSt c (p + 1)).spilt
  | _ => (fnSt c (p + 1)).recOver

/-- The breach is a rate measured over time. -/
def rateCode (code : Nat) : Bool := code == 2 || code == 3

/-- Mark the first request that satisfies `p`. -/
def markLate (p : LeaveReq → Bool) : List LeaveReq → List LeaveReq
  | [] => []
  | r :: t => if p r then { r with late := true } :: t else r :: markLate p t

/-- The oldest request of the partition's reservation that has not done so before has now waited more than 2 µs (R321). -/
def waitedLong (c : Chip) (p : Nat) : Chip :=
  { c with pwr := { c.pwr with reqs := markLate (fun r => !r.late && chargeOf c r == p && inReservation c r) c.pwr.reqs } }

/-- GUARANTEE_BREACH_START. -/
def breachStart (c0 : Chip) (p code : Nat) : Chip :=
  let c := if code = 5 then waitedLong c0 p else c0
  if rateCode code || breached c p code then openBreach c p code else c

/-- GUARANTEE_BREACH_END. -/
def breachEnd (c : Chip) (p code us : Nat) : Chip :=
  if rateCode code || !breached c p code then closeBreach c p code us else c

end Sys2Proof.Machine
end

