-- ==== Sys2Proof/Machine/Registers.lean ====
section
/-! DEFINITION. Writes of any BAR0 register: which action belongs to which offset (05_register_model_map, R174 to
R180). -/

namespace Sys2Proof.Machine

/-- ACQ_ROT_CFG: rotation starts or stops (R458, R465). -/
def hookRotCfg : Hook := fun w c => rotationCheck c ((w.off - 0x80000) / 0x10000)

/-- Actions of the NODE block. -/
def nodeHook (off : Nat) : Hook :=
  match off with
  | 0x104 => hookModeReq
  | 0x10C => hookNodeReset
  | 0x124 => hookImgCmd
  | 0x130 => hookApply
  | 0x140 => hookUcCtl
  | 0x144 => hookUcData
  | 0x10010 => hookDomEn
  | 0x10020 | 0x10028 => hookBudget
  | _ => hookNone

/-- Actions of a HOST page. -/
def hostHook (off : Nat) : Hook :=
  let o := off % 0x1000
  if off < 0x21000 then hookNone
  else if 0x100 ≤ o ∧ o < 0x200 then
    (match o % 0x40 with
     | 0 | 4 => hookRingBase
     | 8 => hookRingCfg
     | _ => hookNone)
  else if 0x800 ≤ o ∧ o < 0x840 then hookMsix
  else hookNone

/-- Actions of an ACQ block. -/
def acqHook (off : Nat) : Hook :=
  let o := off % 0x10000
  if o = 0 then hookRotCfg
  else if 0x100 ≤ o ∧ o < 0x500 then
    (match o % 0x40 with
     | 0x00 | 0x04 | 0x08 | 0x0C | 0x1C => hookSetup
     | 0x20 => hookCmwin
     | _ => hookNone)
  else hookNone

/-- Actions of a LOOP block. -/
def loopHook (off : Nat) : Hook :=
  let o := off % 0x10000
  if 0x100 ≤ o ∧ o < 0x500 then
    (match o % 0x40 with
     | 0x00 => hookLoopCfg
     | 0x04 | 0x08 => hookClamp
     | 0x24 => hookTrimCmd
     | _ => hookNone)
  else hookNone

/-- Actions of the DIO block. -/
def dioHook (off : Nat) : Hook :=
  let o := off % 0x10000
  if o < 0x10 then hookDiThr
  else if 0x100 ≤ o ∧ o < 0x200 then hookDiCfg
  else if 0x400 ≤ o ∧ o < 0x600 then
    (match o % 0x20 with
     | 0x00 => hookPiCfg
     | 0x04 => hookPiThr
     | 0x08 | 0x0C => hookPiScale
     | _ => hookNone)
  else hookNone

/-- Actions of the ACT block. -/
def actHook (off : Nat) : Hook :=
  let o := off % 0x10000
  if 0x100 ≤ o ∧ o < 0x400 then
    (match o % 0x40 with
     | 0x00 | 0x04 | 0x08 | 0x0C => hookLeg
     | 0x10 => hookLegCtrl
     | _ => hookNone)
  else if 0x800 ≤ o ∧ o < 0x880 then
    (match o % 0x20 with
     | 0 | 4 => hookPos
     | _ => hookNone)
  else hookNone

/-- The action of the register at an offset. -/
def hookFor (off : Nat) : Hook :=
  let blk := off / 0x10000
  if blk ≤ 1 then nodeHook off
  else if blk = 2 then hostHook off
  else if 8 ≤ blk ∧ blk ≤ 15 then acqHook off
  else if 16 ≤ blk ∧ blk ≤ 18 then loopHook off
  else if blk = 19 then dioHook off
  else if blk = 20 then actHook off
  else if blk = 21 then (if 0x154000 ≤ off ∧ off % 0x20 = 0xC then hookTuneCtl else hookNone)
  else if blk = 22 then hookAlm
  else if blk = 23 then hookCall
  else if blk = 25 then hookBsn
  else if blk = 26 then hookDma
  else if blk = 27 then hookCan
  else if off = 0x40020 then hookBlank
  else if off = 0x1C0028 then hookSdlUpd
  else if blk = 29 then (if off < 0x1D8000 then hookRtc else hookLcd)
  else if off = 0x1F0004 then hookDiagCtl
  else if off = 0x1F0034 then hookDiagCnt
  else hookNone

/-- REG_WRITE: 1 to 8 bytes from an offset, that do not cross an 8-byte boundary (R174, R176, R177, R180). -/
def regWrite (c : Chip) (fn off : Nat) (bs : WriteBytes) : Chip :=
  if !sizeOk off bs.length then postError c 0x01 (srcFn fn) off
  else
    let base := off / 8 * 8
    let pad := List.replicate (off % 8) none ++ bs
    let data := dataOf pad
    let mask := maskOfBytes pad
    let half (x : Nat) : Nat := x % 2 ^ 32
    writePair (hookFor base) (hookFor (base + 4)) c fn base (half data) (half mask) (data / 2 ^ 32) (mask / 2 ^ 32)

/-- A write of BSN_CTL. -/
def bsnCtlWrite (c : Chip) (fn : Fn) (v : Word) (be : BitVec 4) : Chip := writeWord hookBsn c fn bsnCtl v be

/-- A write of CTL of a program channel. -/
def dpWrite (c : Chip) (fn : Fn) (n : Nat) (v : Word) (be : BitVec 4) : Chip := writeWord hookDma c fn (dpBase n + 8) v be

/-- A write of CTL of a descriptor channel. -/
def dlWrite (c : Chip) (fn : Fn) (n : Nat) (v : Word) (be : BitVec 4) : Chip := writeWord hookDma c fn (dlBase n + 4) v be

/-- A write of DMA_DLn_OWN. -/
def dlOwnWrite (c : Chip) (fn : Fn) (n : Nat) (v : Word) (be : BitVec 4) : Chip := writeWord hookDma c fn (dlBase n) v be

/-- A write of CAN_CTL. -/
def canCtlWrite (c : Chip) (fn : Fn) (n : Nat) (v : Word) (be : BitVec 4) : Chip := writeWord hookCan c fn (canCtl n) v be

/-- Writes of RTC_CTL and RTC_SHIFT. -/
def rtcSetWrite (c : Chip) (fn : Fn) (v : Word) (be : BitVec 4) : Chip := writeWord hookRtc c fn 0x1D0000 v be
def rtcShiftWrite (c : Chip) (fn : Fn) (v : Word) (be : BitVec 4) : Chip := writeWord hookRtc c fn 0x1D0038 v be

end Sys2Proof.Machine
end

