-- ==== Sys2Proof/Machine/Effect.lean ====
section
/-! DEFINITION. What the meanings answer: a command acts on the node and leaves the queue alone. -/

namespace Sys2Proof.Machine

/-- What a command answers. -/
abbrev Result := Host.Outcome State Fault Refusal

/-- The command has this effect on the node; the queue of waiting commands is not its own to change. -/
def onChip (s : State) (f : Chip → Chip) : Result := .next { s with chip := f s.chip }

end Sys2Proof.Machine
end

