-- ==== Sys2Proof/Machine/ExecAnalog.lean ====
section
/-! DEFINITION. The meanings of the commands of the analog channels: one definition for each row, over the shared operations. -/

namespace Sys2Proof.Machine

/-- ACQ_SETUP_WRITE (R379): write of a channel set-up register, checked and scheduled for application. -/
def execAcqSetupWrite (fn : Fn) (ch : Fin 128) (reg : Fin 5) (v : Word) (be : BitVec 4) (s : State) : Result :=
  onChip s fun c => acqSetupWrite c fn ch.val reg.val v be

/-- RTD3_PHASE_CHANGE (R393): end of an RTD3 excitation phase, which swaps the current and loads a lead value. -/
def execRtd3PhaseChange (ch : Fin 128) (lead : Nat) (s : State) : Result :=
  onChip s fun c => rtd3PhaseChange c ch.val lead

/-- PROTECTION_OPEN (R415): A channel ball goes beyond its limit and the protection switches open. -/
def execProtectionOpen (ch : Fin 128) (s : State) : Result :=
  onChip s fun c => protectionOpen c ch.val

/-- PROTECTION_END (R415): the balls stay in range for 10 ms and the channel restarts. -/
def execProtectionEnd (ch : Fin 128) (s : State) : Result :=
  onChip s fun c => protectionEnd c ch.val

/-- SHUNT_OPEN (R415): current-input overcurrent for 50 µs disconnects the shunt. -/
def execShuntOpen (ch : Fin 128) (s : State) : Result :=
  onChip s fun c => shuntOpen c ch.val

/-- SHUNT_RECONNECT_TEST (R416): once-a-second reconnection test of an open shunt. -/
def execShuntReconnectTest (ch : Fin 128) (ok : Bool) (s : State) : Result :=
  onChip s fun c => shuntReconnectTest c ch.val ok

/-- IEPE_BIAS_CHECK (R410): judgement of the 100 ms IEPE bias average into open or short. -/
def execIepeBiasCheck (ch : Fin 128) (bias : Nat) (s : State) : Result :=
  onChip s fun c => iepeBiasCheck c ch.val bias

/-- ROTATION_PHASE_END (R438): A phase of the rotation step ends and the next begins. -/
def execRotationPhaseEnd (b : Fin 8) (s : State) : Result :=
  onChip s fun c => rotationPhaseEnd c b.val

/-- CALIBRATION_END (R446): A cell calibration ends and its reference check is judged. -/
def execCalibrationEnd (b : Fin 8) (ofs : Int) (gain : Int) (exc : Nat) (s : State) : Result :=
  onChip s (bankWork fun c => calibrationEnd c b.val ofs gain exc)

/-- CELL_MONITOR_FAIL (R452): A serving cell fails its monitor and its channel moves to the spare. -/
def execCellMonitorFail (ch : Fin 128) (reference : Bool) (s : State) : Result :=
  onChip s (bankWork fun c => cellMonitorFail c ch.val reference)

/-- CAL_AGED (R460): A serving cell's correction exceeds AGE_MAX hours. -/
def execCalAged (b : Fin 8) (s : State) : Result :=
  onChip s fun c => calAged c b.val

/-- CM_CHECK (R478): common-mode measurement that sets or clears CM_FAULT. -/
def execCmCheck (ch : Fin 128) (v : BallVolts) (s : State) : Result :=
  onChip s fun c => cmCheck c ch.val v

/-- TEST_TONE_START (R481): start of a periodic test-tone check of a channel. -/
def execTestToneStart (ch : Fin 128) (s : State) : Result :=
  onChip s fun c => testToneStart c ch.val

/-- TEST_TONE_END (R484): end of a test-tone check, which loads results and fault flags. -/
def execTestToneEnd (ch : Fin 128) (loopR : Nat) (ins : Insulation) (s : State) : Result :=
  onChip s fun c => testToneEnd c ch.val loopR ins

/-- EXCITATION_LIMIT (R415): an excitation source reaches or leaves its current or voltage limit, setting or clearing EXC_LIMIT and marking the channel's words. -/
def execExcitationLimit (ch : Fin 128) (limited : Bool) (s : State) : Result :=
  onChip s fun c => excitationLimit c ch.val limited

end Sys2Proof.Machine
end

