-- ==== Sys2Proof/Machine/ExecBasin.lean ====
section
/-! DEFINITION. The meanings of the commands of Basin storage: one definition for each row, over the shared operations. -/

namespace Sys2Proof.Machine

/-- CREATE (R819): BSN_CTL operation that creates a Basin in the chosen layout. -/
def execCreate (fn : Fn) (v : Word) (be : BitVec 4) (s : State) : Result :=
  onChip s fun c => bsnCtlWrite c fn v be

/-- ADMIT (R828): BSN_CTL operation that admits an existing Basin. -/
def execBasinAdmit (fn : Fn) (v : Word) (be : BitVec 4) (s : State) : Result :=
  onChip s fun c => bsnCtlWrite c fn v be

/-- DETACH (R864): BSN_CTL operation that writes open chunks, flushes and marks members clean. -/
def execDetach (fn : Fn) (v : Word) (be : BitVec 4) (s : State) : Result :=
  onChip s fun c => bsnCtlWrite c fn v be

/-- REPLACE (R856): BSN_CTL operation that accepts a new drive and starts its rebuild. -/
def execReplace (fn : Fn) (v : Word) (be : BitVec 4) (s : State) : Result :=
  onChip s fun c => bsnCtlWrite c fn v be

/-- RETIRE (R866): BSN_CTL operation that retires a member. -/
def execRetire (fn : Fn) (v : Word) (be : BitVec 4) (s : State) : Result :=
  onChip s fun c => bsnCtlWrite c fn v be

/-- ERASE_KEY (R847): BSN_CTL operation that destroys a partition's keys and reclaims its encrypted units. -/
def execEraseKey (fn : Fn) (v : Word) (be : BitVec 4) (s : State) : Result :=
  onChip s fun c => bsnCtlWrite c fn v be

/-- CHUNK_WRITE (R832): writing of a log chunk when its body is full or FLUSH has passed. -/
def execChunkWrite (log : Nat) (s : State) : Result :=
  onChip s fun c => chunkWrite c log

/-- NVME_COMPLETION (R826): completion of a member's NVMe command, after which a mark block may be written. -/
def execNvmeCompletion (m : Fin 4) (what : NvmeEnd) (s : State) : Result :=
  onChip s fun c => nvmeCompletion c m.val what

/-- MEMBER_LOST (R851): A Basin member is lost and Basin degrades or goes offline. -/
def execMemberLost (m : Fin 4) (cause : Fin 4) (s : State) : Result :=
  onChip s fun c => memberLost c m.val cause.val

/-- HEALTH_LOG_READ (R855): reading of each member's health log every 60 s. -/
def execHealthLogRead (m : Fin 4) (warning : Byte) (s : State) : Result :=
  onChip s fun c => healthLogRead c m.val warning.toNat

/-- REBUILD_STRIP (R857): rebuild of one strip of a replaced member, with CURSOR stored as due. -/
def execRebuildStrip (s : State) : Result :=
  onChip s fun c => rebuildStrip c

/-- WAVEFORM_CAPTURE_END (R835): POST ms after the last firing, a triggered waveform capture ends. -/
def execWaveformCaptureEnd (str : Fin 16) (s : State) : Result :=
  onChip s fun c => waveformCaptureEnd c str.val

/-- NV_PORT_LINK_UP (R1121): 1 ms after the NVn PHY domain reaches ON, NVn_PERST_N is released and the root port's link to its drive trains, so the drive becomes present. -/
def execNvPortLinkUp (m : Fin 4) (speed : Fin 5) (width : Fin 5) (drive : Drive) (s : State) : Result :=
  onChip s fun c => nvPortLinkUp c m.val speed.val width.val drive

end Sys2Proof.Machine
end

