-- ==== Sys2Proof/Machine/ExecCan.lean ====
section
/-! DEFINITION. The meanings of the commands of the CAN FD controllers: one definition for each row, over the shared operations. -/

namespace Sys2Proof.Machine

/-- START_OF_FRAME (R926): A CAN controller chooses a pending buffer at a start of frame. -/
def execStartOfFrame (n : Fin 8) (s : State) : Result :=
  onChip s fun c => startOfFrame c n.val

/-- TX_OUTCOME (R925): A transmitted frame's outcome is known and its CAN_SEND completes. -/
def execTxOutcome (n : Fin 8) (outcome : Fin 3) (timestamp : BitVec 64) (s : State) : Result :=
  onChip s fun c => txOutcome c n.val outcome.val timestamp.toNat

/-- TX_TMO (R928): TX_TMO passes for a pending frame, which is withdrawn. -/
def execTxTmo (n : Fin 8) (b : Fin 3) (s : State) : Result :=
  onChip s fun c => txTmo c n.val b.val

/-- FRAME_RECEIVED (R933): A CAN frame received without error is routed. -/
def execFrameReceived (n : Fin 8) (format : BitVec 5) (ident : BitVec 29) (dlc : BitVec 4) (data : List Byte) (timestamp : BitVec 64) (s : State) : Result :=
  onChip s fun c => frameReceived c n.val (rxOf format.toNat ident.toNat dlc.toNat timestamp.toNat data)

/-- PROTOCOL_EXCEPTION (R942): an FD frame is received while FD is disabled. -/
def execProtocolException (n : Fin 8) (s : State) : Result :=
  onChip s fun c => protocolException c n.val

/-- BUS_OFF (R940): A controller enters bus-off. -/
def execBusOff (n : Fin 8) (s : State) : Result :=
  onChip s fun c => busOff c n.val

/-- RECOVER (R941): write of CAN_CTL.RECOVER, which begins the bus-off recovery sequence. -/
def execRecover (fn : Fn) (n : Fin 8) (v : Word) (be : BitVec 4) (s : State) : Result :=
  onChip s fun c => canCtlWrite c fn n.val v be

/-- RECOVERY_END (R941): the recovery sequence ends and the controller is error-active. -/
def execRecoveryEnd (n : Fin 8) (s : State) : Result :=
  onChip s fun c => recoveryEnd c n.val

/-- CAN_MODE_WRITE (R945): write of CAN_CTL.MODE, which withdraws pending frames. -/
def execCanModeWrite (fn : Fn) (n : Fin 8) (v : Word) (be : BitVec 4) (s : State) : Result :=
  onChip s fun c => canCtlWrite c fn n.val v be

/-- CAN_MODE_EFFECT (R945): A new CAN MODE takes effect at the next bus-idle. -/
def execCanModeEffect (n : Fin 8) (s : State) : Result :=
  onChip s fun c => canModeEffect c n.val

/-- CAN_BUS_ERROR (R939): A bus error is detected on a controller, updating its error counters, LEC or DLEC and possibly its error state. -/
def execCanBusError (n : Fin 8) (lec : BitVec 3) (dataPhase : Bool) (tec : BitVec 9) (recCount : BitVec 8) (s : State) : Result :=
  onChip s fun c => canBusError c n.val lec.toNat tec.toNat recCount.toNat dataPhase

end Sys2Proof.Machine
end

