-- ==== Sys2Proof/Machine/ExecCommand.lean ====
section
/-! DEFINITION. The meanings of the commands of the entries of the command ring: one definition for each row, over the shared operations. -/

namespace Sys2Proof.Machine

/-- NOP (R265): command that performs nothing and completes with SUCCESS. -/
def execNop (fn : Fn) (e : Entry) (s : State) : Result :=
  onChip s fun c => takeEntry c fn.val 0x00 e

/-- SUBSTITUTE (R1189): command that writes a word into a point's live word with SUBSTITUTED set and holds back the producer's writes. -/
def execSubstitute (fn : Fn) (e : Entry) (s : State) : Result :=
  onChip s fun c => takeEntry c fn.val 0x01 e

/-- UNSUBSTITUTE (R1190): command that ends a substitution and leaves the live word unchanged until the producer next writes it. -/
def execUnsubstitute (fn : Fn) (e : Entry) (s : State) : Result :=
  onChip s fun c => takeEntry c fn.val 0x02 e

/-- SET_SETPOINT (R643): command that stores a host setpoint word for a loop whose SP_SRC is HOST. -/
def execSetSetpoint (fn : Fn) (e : Entry) (s : State) : Result :=
  onChip s fun c => takeEntry c fn.val 0x03 e

/-- SET_LOOP_MODE (R634): command that changes a loop between MANUAL and AUTO. -/
def execSetLoopMode (fn : Fn) (e : Entry) (s : State) : Result :=
  onChip s fun c => takeEntry c fn.val 0x04 e

/-- SET_MANUAL_OUTPUT (R635): command that stores the manual output word of a loop in MANUAL. -/
def execSetManualOutput (fn : Fn) (e : Entry) (s : State) : Result :=
  onChip s fun c => takeEntry c fn.val 0x05 e

/-- ALARM_ACK (R699): command that acknowledges an alarm, or every enabled member of a group. -/
def execAlarmAck (fn : Fn) (e : Entry) (s : State) : Result :=
  onChip s fun c => takeEntry c fn.val 0x08 e

/-- ALARM_SHELVE (R706): command that shelves an alarm for a duration. -/
def execAlarmShelve (fn : Fn) (e : Entry) (s : State) : Result :=
  onChip s fun c => takeEntry c fn.val 0x09 e

/-- ALARM_UNSHELVE (R699): command that ends the shelving of an alarm. -/
def execAlarmUnshelve (fn : Fn) (e : Entry) (s : State) : Result :=
  onChip s fun c => takeEntry c fn.val 0x0A e

/-- ALARM_SERVICE (R699): command that takes an alarm out of service or returns it to service. -/
def execAlarmService (fn : Fn) (e : Entry) (s : State) : Result :=
  onChip s fun c => takeEntry c fn.val 0x0B e

/-- CALL_ACK (R742): command that accepts the engineer call for a rota entry. -/
def execCallAck (fn : Fn) (e : Entry) (s : State) : Result :=
  onChip s fun c => takeEntry c fn.val 0x0C e

/-- SUBSCRIBE (R1194): command that starts, replaces or cancels a periodic VALUE_SET subscription. -/
def execSubscribe (fn : Fn) (e : Entry) (s : State) : Result :=
  onChip s fun c => takeEntry c fn.val 0x10 e

/-- READ_POINTS (R1194): command that delivers one VALUE_SET event from the next snapshot. -/
def execReadPoints (fn : Fn) (e : Entry) (s : State) : Result :=
  onChip s fun c => takeEntry c fn.val 0x11 e

/-- TABLE_SWAP (R214): command that submits a swap of a double-buffered table for the next frame boundary after checking it. -/
def execTableSwap (fn : Fn) (e : Entry) (s : State) : Result :=
  onChip s fun c => takeEntry c fn.val 0x18 e

/-- TRIP_CLEAR (R572): command that clears or arms the clear of a trip latch. -/
def execTripClear (fn : Fn) (e : Entry) (s : State) : Result :=
  onChip s fun c => takeEntry c fn.val 0x1A e

/-- FSK_SEND (R541): command that transmits data through a loop-output cell's FSK modem. -/
def execFskSend (fn : Fn) (e : Entry) (s : State) : Result :=
  onChip s fun c => takeEntry c fn.val 0x1C e

/-- CAN_SEND (R924): command that places a frame in a CAN transmit buffer. -/
def execCanSend (fn : Fn) (e : Entry) (s : State) : Result :=
  onChip s fun c => takeEntry c fn.val 0x1D e

/-- DATA_CONT (R1192): command entry that carries further data of an FSK_SEND or CAN_SEND, or fails with INVALID_OPCODE without MORE. -/
def execDataCont (fn : Fn) (e : Entry) (s : State) : Result :=
  onChip s fun c => takeEntry c fn.val 0x1F e

/-- REC_CLEAR_ARM (R809): command that arms the recorder for a clear when the clear code matches. -/
def execRecClearArm (fn : Fn) (e : Entry) (s : State) : Result :=
  onChip s fun c => takeEntry c fn.val 0x20 e

/-- REC_CLEAR_CONFIRM (R811): command that performs the recorder clear on an armed recorder. -/
def execRecClearConfirm (fn : Fn) (e : Entry) (s : State) : Result :=
  onChip s fun c => takeEntry c fn.val 0x21 e

/-- TUNE_START (R662): command that arms a tuning capture buffer with injection and capture set-up. -/
def execTuneStart (fn : Fn) (e : Entry) (s : State) : Result :=
  onChip s fun c => takeEntry c fn.val 0x24 e

/-- TUNE_STOP (R674): command that ends injection and capture of every buffer naming a loop. -/
def execTuneStop (fn : Fn) (e : Entry) (s : State) : Result :=
  onChip s fun c => takeEntry c fn.val 0x25 e

/-- SDL_RESYNC (R1001): command that starts resynchronisation of the standby. -/
def execSdlResync (fn : Fn) (e : Entry) (s : State) : Result :=
  onChip s fun c => takeEntry c fn.val 0x30 e

/-- SDL_SWITCHBACK (R1003): command that hands the active role to the HOT twin. -/
def execSdlSwitchback (fn : Fn) (e : Entry) (s : State) : Result :=
  onChip s fun c => takeEntry c fn.val 0x31 e

end Sys2Proof.Machine
end

