-- ==== Sys2Proof/Machine/ExecControl.lean ====
section
/-! DEFINITION. The meanings of the commands of the control engine and its tuning aids: one definition for each row, over the shared operations. -/

namespace Sys2Proof.Machine

/-- LOOP_EVALUATION (R626): evaluation of a loop on a free MAC lane, writing its output. -/
def execLoopEvaluation (l : Fin 128) (cycles : Nat) (s : State) : Result :=
  onChip s fun c => loopEvaluation c l.val cycles

/-- DEADLINE_MISS (R656): an evaluation has not written its output by its deadline. -/
def execDeadlineMiss (l : Fin 128) (s : State) : Result :=
  onChip s fun c => deadlineMiss c l.val

/-- CAPTURE_TIMEOUT (R673): TIMEOUT passes in ARMED and the capture ends. -/
def execCaptureTimeout (b : Fin 4) (s : State) : Result :=
  onChip s fun c => captureTimeout c b.val

/-- RELEASE (R676): write of CTRL_TUNEb_CTL.RELEASE, which returns a DONE buffer to IDLE. -/
def execRelease (fn : Fn) (b : Fin 4) (v : Word) (be : BitVec 4) (s : State) : Result :=
  onChip s fun c => releaseWrite c fn b.val v be

/-- MAC_LANE_SELFTEST (R659): periodic self-test of a MAC lane, which takes a failing lane out of service. -/
def execMacLaneSelftest (lane : Fin 4) (ok : Bool) (s : State) : Result :=
  onChip s fun c => macLaneSelftest c lane.val ok

end Sys2Proof.Machine
end

