-- ==== Sys2Proof/Machine/ExecDiag.lean ====
section
/-! DEFINITION. The meanings of the commands of diagnostics and JTAG: one definition for each row, over the shared operations. -/

namespace Sys2Proof.Machine

/-- POP (R1089): write of DIAG_FIFO_CTL.POP, which removes the head entry. -/
def execPop (fn : Fn) (v : Word) (be : BitVec 4) (s : State) : Result :=
  onChip s fun c => popWrite c fn v be

/-- PURGE (R1087): write of DIAG_FIFO_CTL.PURGE, which frees idle source records. -/
def execPurge (fn : Fn) (v : Word) (be : BitVec 4) (s : State) : Result :=
  onChip s fun c => purgeWrite c fn v be

/-- NEXT (R1087): write of DIAG_SRC_CNT.NEXT, which moves the selection to the next source record. -/
def execNext (fn : Fn) (v : Word) (be : BitVec 4) (s : State) : Result :=
  onChip s fun c => nextWrite c fn v be

/-- SCRUB (R1093): periodic read and rewrite of protected memory words. -/
def execScrub (region : Fin 7) (addr : BitVec 24) (err : Fin 3) (s : State) : Result :=
  onChip s fun c => scrub c region.val addr.toNat err.val

/-- TEST_LOGIC_RESET (R1129): TRST_N low holds the TAP controller in Test-Logic-Reset. -/
def execTestLogicReset (s : State) : Result :=
  onChip s fun c => tapReset c

/-- SAMPLE_PRELOAD (R1126): JTAG instruction that captures the boundary register. -/
def execSamplePreload (s : State) : Result :=
  onChip s fun c => samplePreload c

/-- BYPASS (R1126): JTAG instruction that selects the bypass register. -/
def execBypass (s : State) : Result :=
  onChip s fun c => bypassSelect c

/-- TCK_EDGE (R1126): an edge of TCK moves the JTAG TAP controller by TMS and shifts TDI to TDO. -/
def execTckEdge (rising : Bool) (tms : Bool) (tdi : Bool) (s : State) : Result :=
  onChip s fun c => tckEdge c rising tms tdi

end Sys2Proof.Machine
end

