-- ==== Sys2Proof/Machine/ExecDma.lean ====
section
/-! DEFINITION. The meanings of the commands of the DMA engine: one definition for each row, over the shared operations. -/

namespace Sys2Proof.Machine

/-- DP_GO (R886): write of GO, which starts a program channel at BASE. -/
def execDpGo (fn : Fn) (n : Fin 8) (v : Word) (be : BitVec 4) (s : State) : Result :=
  onChip s fun c => dpWrite c fn n.val v be

/-- DP_STOP (R912): write of STOP, which halts a program channel after its burst. -/
def execDpStop (fn : Fn) (n : Fin 8) (v : Word) (be : BitVec 4) (s : State) : Result :=
  onChip s fun c => dpWrite c fn n.val v be

/-- MOVE (R888): DMA instruction that moves LEN bytes. -/
def execMove (n : Fin 8) (s : State) : Result :=
  onChip s fun c => dpMove c n.val

/-- DMA_LOOP (R890): DMA instruction that counts and jumps to TARGET. -/
def execDmaLoop (n : Fin 8) (s : State) : Result :=
  onChip s fun c => dpLoop c n.val

/-- WAIT (R891): DMA instruction that waits for a SCAN, CHANNEL or FRAME event. -/
def execWait (n : Fin 8) (s : State) : Result :=
  onChip s fun c => dpWait c n.val

/-- SIGNAL (R895): DMA instruction that gives a completion pulse and signals channels. -/
def execSignal (n : Fin 8) (s : State) : Result :=
  onChip s fun c => dpSignal c n.val

/-- DMA_BURST (R873): A burst begins once the channel's credit allows it. -/
def execDmaBurst (n : Fin 16) (at_ : BurstAt) (s : State) : Result :=
  onChip s fun c => dmaBurst c n.val at_.limit.val at_.cycles

/-- PORT_REQUEST (R889): A waveform port raises a request for a burst. -/
def execPortRequest (b : Fin 8) (s : State) : Result :=
  onChip s fun c => portRequest c b.val

/-- PORT_WITHDRAW (R913): A port withdraws its request, which drains a begun burst. -/
def execPortWithdraw (b : Fin 8) (begun : Bool) (s : State) : Result :=
  onChip s fun c => portWithdraw c b.val begun

/-- DL_GO (R900): write of GO, which starts a descriptor channel at HEAD. -/
def execDlGo (fn : Fn) (n : Fin 8) (mem : List (Nat × Byte)) (v : Word) (be : BitVec 4) (s : State) : Result :=
  onChip s fun c => dlWrite (hostStores c mem) fn n.val v be

/-- DL_STOP (R912): write of STOP, which halts a descriptor channel after its burst. -/
def execDlStop (fn : Fn) (n : Fin 8) (v : Word) (be : BitVec 4) (s : State) : Result :=
  onChip s fun c => dlWrite c fn n.val v be

/-- DESCRIPTOR (R898): A fetched descriptor is checked and performed. -/
def execDescriptor (n : Fin 8) (s : State) : Result :=
  onChip s fun c => descriptor c n.val

/-- DMA_HOST_ERROR (R903): A host request fails or draws no completion in 50 ms. -/
def execDmaHostError (n : Fin 16) (kind : Fin 4) (s : State) : Result :=
  onChip s fun c => dmaHostError c n.val kind.val

/-- COMPLETION_PULSE (R907): completion pulse of a transfer, after read-back where the mode requires it. -/
def execCompletionPulse (n : Fin 16) (ok : Bool) (s : State) : Result :=
  onChip s fun c => completionPulse c n.val ok

/-- OWNER_CHANGE (R905): write of DMA_DLn_OWN.OWNER, which revokes a running channel. -/
def execOwnerChange (fn : Fn) (n : Fin 8) (v : Word) (be : BitVec 4) (s : State) : Result :=
  onChip s fun c => dlOwnWrite c fn n.val v be

end Sys2Proof.Machine
end

