-- ==== Sys2Proof/Machine/ExecField.lean ====
section
/-! DEFINITION. The meanings of the commands of contacts, pulses, trips, legs and positions: one definition for each row, over the shared operations. -/

namespace Sys2Proof.Machine

/-- CONTACT_SAMPLE (R549): 100 µs sample and classification of a contact's resistance. -/
def execContactSample (n : Fin 64) (ohm : Option Nat) (s : State) : Result :=
  onChip s fun c => contactSample c n.val ohm

/-- PULSE_EDGE (R558): A counted edge on a pulse input is timestamped and counted. -/
def execPulseEdge (m : Fin 16) (e : PulseStep) (s : State) : Result :=
  onChip s fun c => pulseEdge c m.val e

/-- GATE_END (R559): end of a pulse gate period, which takes a frequency. -/
def execGateEnd (m : Fin 16) (time : Nat) (s : State) : Result :=
  onChip s fun c => gateEnd c m.val time

/-- PULSE_TIMEOUT (R560): TIMEOUT passes since the last edge and the frequency becomes 0. -/
def execPulseTimeout (m : Fin 16) (s : State) : Result :=
  onChip s fun c => pulseTimeout c m.val

/-- TRIP_CAUSE_RISE (R572): A trip cause rises and the trip asserts. -/
def execTripCauseRise (inputs : Word) (s : State) : Result :=
  onChip s fun c => tripInputs c inputs.toNat

/-- TRIP_CAUSE_FALL (R572): A trip cause falls and the trip releases or latches. -/
def execTripCauseFall (inputs : Word) (s : State) : Result :=
  onChip s fun c => tripInputs c inputs.toNat

/-- ARM_REQUEST (R589): write leaving a leg's EN at 1, judged against the arm conditions. -/
def execArmRequest (fn : Fn) (n : Fin 12) (v : Word) (be : BitVec 4) (s : State) : Result :=
  onChip s fun c => writeLegCtrl c fn n.val v be

/-- LEG_DISARM (R590): write of EN 0, which disarms a leg. -/
def execLegDisarm (fn : Fn) (n : Fin 12) (v : Word) (be : BitVec 4) (s : State) : Result :=
  onChip s fun c => writeLegCtrl c fn n.val v be

/-- PRECHARGE_END (R590): PRE elapses and the leg becomes ARMED. -/
def execPrechargeEnd (n : Fin 12) (s : State) : Result :=
  onChip s fun c => prechargeEnd c n.val

/-- CARRIER_ZERO (R593): A leg carrier zero, which latches the latest duty. -/
def execCarrierZero (n : Fin 12) (isense : List (BitVec 16)) (s : State) : Result :=
  onChip s fun c => carrierZero c n.val (isense.map BitVec.toNat)

/-- SHORT_DETECTOR_FIRE (R598): A leg short detector fires and clamps the gate or faults the leg. -/
def execShortDetectorFire (n : Fin 12) (seen : ShortSeen) (s : State) : Result :=
  onChip s fun c => shortDetectorFire c n.val seen.sense seen.blanking

/-- BLANKING_END (R599): blanking ends and the clamp is released or the leg faults. -/
def execBlankingEnd (n : Fin 12) (seen : LegSense) (s : State) : Result :=
  onChip s fun c => blankingEnd c n.val seen

/-- LEG_WATCHDOG_EXPIRY (R605): the leg watchdog expires and the leg disarms. -/
def execLegWatchdogExpiry (n : Fin 12) (s : State) : Result :=
  onChip s fun c => legWatchdogExpiry c n.val

/-- QUADRATURE_EDGE (R607): A filtered quadrature edge updates CNT, or QERR on a double change. -/
def execQuadratureEdge (n : Fin 4) (a : Bool) (b : Bool) (s : State) : Result :=
  onChip s fun c => quadratureEdge c n.val a b

/-- INDEX_EDGE (R609): rising edge of QIn, which zeroes CNT. -/
def execIndexEdge (n : Fin 4) (s : State) : Result :=
  onChip s fun c => indexEdge c n.val

end Sys2Proof.Machine
end

