-- ==== Sys2Proof/Machine/ExecHost.lean ====
section
/-! DEFINITION. The meanings of the commands of the host port: rings, registers and memories: one definition for each row, over the shared operations. -/

namespace Sys2Proof.Machine

/-- RING_ENABLE (R234): write setting HOST_RING_CFG.EN, which zeroes the ring indexes or is refused with vector 3. -/
def execRingEnable (fn : Fn) (page : Fn) (r : Fin 4) (v : Word) (be : BitVec 4) (s : State) : Result :=
  onChip s fun c => ringCfgWrite c fn page r.val v be

/-- RING_DISABLE (R282): write clearing HOST_RING_CFG.EN, which stops fetches or discards the ring's entries. -/
def execRingDisable (fn : Fn) (page : Fn) (r : Fin 4) (v : Word) (be : BitVec 4) (s : State) : Result :=
  onChip s fun c => ringCfgWrite c fn page r.val v be

/-- DOORBELL (R238): write of a ring doorbell, judged as repeated, stale, out of range or accepted. -/
def execDoorbell (fn : Fn) (mem : List (Nat × Byte)) (r : Fin 4) (v : Word) (be : BitVec 4) (s : State) : Result :=
  onChip s fun c => doorbellWrite c fn.val r.val mem v be

/-- FUNCTION_LEVEL_RESET (R279): function-level reset of one PCIe function. -/
def execFunctionLevelReset (fn : Fn) (s : State) : Result :=
  onChip s fun c => functionReset c fn.val

/-- HOST_RESET (R143): PERST_N low, hot reset or link down, which resets the host interface only. -/
def execHostReset (speed : Fin 5) (width : Fin 5) (s : State) : Result :=
  onChip s fun c => hostReset c speed.val width.val

/-- LINK_RETRAIN (R878): change of the negotiated host link, which lowers the stored host-traffic bandwidth. -/
def execLinkRetrain (speed : Fin 5) (width : Fin 5) (s : State) : Result :=
  onChip s fun c => linkTrained c speed.val width.val

/-- REG_WRITE (R177): host write to a BAR0 register that has no row of its own, resolved field by field. -/
def execRegWrite (fn : Fn) (off : BitVec 21) (data : WriteBytes) (s : State) : Result :=
  onChip s fun c => regWrite c fn.val off.toNat data

/-- MALFORMED_BAR0_READ (R175): BAR0 read that breaks the size rules, completed with Completer Abort. -/
def execMalformedBar0Read (fn : Fn) (off : BitVec 21) (len : Nat) (s : State) : Result :=
  onChip s fun c => malformedRead c fn.val off.toNat len

/-- UPPER_LATCH (R181): 4-byte read of the lower half of a 64-bit value, which latches the upper half. -/
def execUpperLatch (fn : Fn) (off : BitVec 21) (s : State) : Result :=
  onChip s fun c => upperLatch c fn.val off.toNat

/-- CALENDAR_LATCH (R1014): read of RTC_SS, which latches the calendar and OT for the reading function. -/
def execCalendarLatch (fn : Fn) (s : State) : Result :=
  onChip s fun c => calendarLatch c fn.val

/-- TABLE_MEMORY_WRITE (R211): host write into a BAR1 table region, performed, or discarded for an active or pending copy. -/
def execTableMemoryWrite (fn : Fn) (off : BitVec 26) (data : List Byte) (s : State) : Result :=
  onChip s fun c => bar1Write c fn.val off.toNat data

/-- NVM_WINDOW_WRITE (R215): host write into the NVM image window, which programs a page when byte 255 arrives. -/
def execNvmWindowWrite (fn : Fn) (off : BitVec 26) (data : List Byte) (s : State) : Result :=
  onChip s fun c => bar1Write c fn.val off.toNat data

/-- FRAME_MEMORY_WRITE (R223): host write to the frame memory, which is discarded and reported. -/
def execFrameMemoryWrite (fn : Fn) (off : BitVec 26) (data : List Byte) (s : State) : Result :=
  onChip s fun c => bar1Write c fn.val off.toNat data

/-- LCD_FRAME_MEMORY_WRITE (R1054): host write to the LCD frame memory, discarded inside enabled tiles. -/
def execLcdFrameMemoryWrite (fn : Fn) (off : BitVec 26) (data : List Byte) (s : State) : Result :=
  onChip s fun c => bar1Write c fn.val off.toNat data

/-- STATUS_PORT_READ (R1064): asynchronous external read of a mirror word through the status port. -/
def execStatusPortRead (addr : BitVec 12) (s : State) : Result :=
  onChip s fun c => statusPortRead c addr.toNat

/-- RECORD_DELIVERY (R276): delivery of held-back records once the record ring has room. -/
def execRecordDelivery (fn : Fn) (s : State) : Result :=
  onChip s fun c => recordDelivery c fn.val

/-- HOLD_QUEUE_DRAIN (R271): writing of held event entries once the event ring has room. -/
def execHoldQueueDrain (fn : Fn) (s : State) : Result :=
  onChip s fun c => holdQueueDrain c fn.val

/-- MSIX_MESSAGE (R245): sending of a ring's MSI-X message once MOD has passed. -/
def execMsixMessage (fn : Fn) (vec : Fin 4) (s : State) : Result :=
  onChip s fun c => msixMessage c fn.val vec.val

/-- GUARANTEE_BREACH_START (R322): start of a guarantee breach of a partition. -/
def execGuaranteeBreachStart (p : Fin 8) (code : Fin 8) (s : State) : Result :=
  onChip s fun c => breachStart c p.val code.val

/-- GUARANTEE_BREACH_END (R323): end of a guarantee breach of a partition. -/
def execGuaranteeBreachEnd (p : Fin 8) (code : Fin 8) (us : Nat) (s : State) : Result :=
  onChip s fun c => breachEnd c p.val code.val us

end Sys2Proof.Machine
end

