-- ==== Sys2Proof/Machine/ExecLoopOut.lean ====
section
/-! DEFINITION. The meanings of the commands of the current-loop outputs: one definition for each row, over the shared operations. -/

namespace Sys2Proof.Machine

/-- LOOP_MODE_WRITE (R495): write of a loop-output cell's MODE, taken as a bank step under leave. -/
def execLoopModeWrite (fn : Fn) (ch : Fin 48) (v : Word) (be : BitVec 4) (s : State) : Result :=
  onChip s fun c => loopModeWrite c fn ch.val v be

/-- CELL_MODE_ENTER (R493): A cell enters its new mode after leave and 1 ms in OPEN. -/
def execCellModeEnter (ch : Fin 48) (s : State) : Result :=
  onChip s fun c => cellModeEnter c ch.val

/-- READBACK_UPDATE (R509): 10 ms update of DRIVE, READBACK and the terminal voltages. -/
def execReadbackUpdate (ch : Fin 48) (readback : BitVec 16) (drive : BitVec 16) (vloop : BitVec 16) (vres : BitVec 8) (short : Bool) (s : State) : Result :=
  onChip s fun c => readbackUpdate c ch.val readback.toNat drive.toNat vloop.toInt vres.toNat short

/-- LOOP_FAULT_SET (R512): A readback fault condition has persisted for RB_TIME and its status sets. -/
def execLoopFaultSet (ch : Fin 48) (fault : Fin 11) (s : State) : Result :=
  onChip s fun c => loopFaultSet c ch.val fault.val

/-- LN_SWITCH_OPEN (R517): LN overcurrent for 50 µs opens the LN switch. -/
def execLnSwitchOpen (ch : Fin 48) (s : State) : Result :=
  onChip s fun c => lnSwitchOpen c ch.val

/-- LN_RECONNECT_TEST (R517): once-a-second reconnection test of an open LN switch. -/
def execLnReconnectTest (ch : Fin 48) (ok : Bool) (s : State) : Result :=
  onChip s fun c => lnReconnectTest c ch.val ok

/-- OVERTEMP (R512): A cell passes 150 °C and goes to OPEN, or cools and re-enters its mode. -/
def execOvertemp (ch : Fin 48) (hot : Bool) (s : State) : Result :=
  onChip s fun c => overtemp c ch.val hot

/-- WD_HOLD (R522): cell watchdog expiry, which holds the last current. -/
def execWdHold (ch : Fin 48) (s : State) : Result :=
  onChip s fun c => wdHold c ch.val

/-- WD_OPEN (R523): further cell watchdog expiry, which opens the cell. -/
def execWdOpen (ch : Fin 48) (s : State) : Result :=
  onChip s fun c => wdOpen c ch.val

/-- FORCE (R527): write of LOOP_CHc_TRIMCMD.FORCE, which forces 4 or 20 mA in SERVICE. -/
def execForce (fn : Fn) (ch : Fin 48) (v : Word) (be : BitVec 4) (s : State) : Result :=
  onChip s fun c => writeTrimCmd c fn ch.val v be

/-- STORE (R533): write of the STORE key, which starts a trim store write. -/
def execStore (fn : Fn) (ch : Fin 48) (v : Word) (be : BitVec 4) (s : State) : Result :=
  onChip s fun c => writeTrimCmd c fn ch.val v be

/-- STORE_DONE (R533): the trim store write ends and a record is written. -/
def execStoreDone (s : State) : Result :=
  onChip s fun c => storeDone c

/-- BUTTON_PRESS (R531): A debounced press of a trim button. -/
def execButtonPress (b : Fin 4) (s : State) : Result :=
  onChip s fun c => buttonPress c b.val

/-- BUTTON_REPEAT (R531): repeated step of a held BTN_UP or BTN_DN. -/
def execButtonRepeat (b : Fin 4) (late : Bool) (s : State) : Result :=
  onChip s fun c => buttonRepeat c b.val late

/-- BUTTON_STORE_HOLD (R531): BTN_Z and BTN_S held together for 2 s, which clears FORCE and stores the trims. -/
def execButtonStoreHold (s : State) : Result :=
  onChip s fun c => buttonStoreHold c

/-- FSK_TX_START (R541): carrier has been absent for 5 ms and the modem begins transmitting. -/
def execFskTxStart (ch : Fin 48) (s : State) : Result :=
  onChip s fun c => fskTxStart c ch.val

/-- FSK_CARRIER_TIMEOUT (R541): carrier stays present for 250 ms and the FSK_SEND fails. -/
def execFskCarrierTimeout (ch : Fin 48) (s : State) : Result :=
  onChip s fun c => fskCarrierTimeout c ch.val

/-- FSK_TX_END (R542): the stop bit of the last byte is sent and FSK_SEND completes. -/
def execFskTxEnd (ch : Fin 48) (s : State) : Result :=
  onChip s fun c => fskTxEnd c ch.val

/-- FSK_RX_END (R545): A reception ends and its bytes go out in an FSK_RX event. -/
def execFskRxEnd (ch : Fin 48) (data : List Byte) (status : Byte) (s : State) : Result :=
  onChip s fun c => fskRxEnd c ch.val data status

/-- FSK_CARRIER_DETECT (R541): carrier appears on a loop, setting CD, starting a reception and holding off transmission. -/
def execFskCarrierDetect (ch : Fin 48) (on : Bool) (s : State) : Result :=
  onChip s fun c => fskCarrierDetect c ch.val on

end Sys2Proof.Machine
end

