-- ==== Sys2Proof/Machine/ExecNode.lean ====
section
/-! DEFINITION. The meanings of the commands of modes, resets, start-up, images and microcode: one definition for each row, over the shared operations. -/

namespace Sys2Proof.Machine

/-- MODE_REQUEST (R140): write of NODE_MODE_REQ.GO that submits a mode request, accepted as pending or refused. -/
def execModeRequest (fn : Fn) (v : Word) (be : BitVec 4) (s : State) : Result :=
  onChip s fun c => modeRequest c fn v be

/-- NODE_RESET (R142): keeper write of the key to NODE_RESET that starts a node reset. -/
def execNodeReset (fn : Fn) (v : Word) (be : BitVec 4) (s : State) : Result :=
  onChip s fun c => nodeResetWrite c fn v be

/-- ERASE_BANK (R163): NODE_IMG_CMD operation that erases an image bank that is not loaded. -/
def execEraseBank (fn : Fn) (v : Word) (be : BitVec 4) (s : State) : Result :=
  onChip s fun c => imgCmdWrite c fn v be

/-- COMMIT_BANK (R164): NODE_IMG_CMD operation that checks a bank and writes its commit page. -/
def execCommitBank (fn : Fn) (v : Word) (be : BitVec 4) (s : State) : Result :=
  onChip s fun c => imgCmdWrite c fn v be

/-- IMAGE_APPLY (R1097): write of NODE_IMG_APPLY.GO that loads every table of the committed bank for one frame boundary. -/
def execImageApply (fn : Fn) (v : Word) (be : BitVec 4) (s : State) : Result :=
  onChip s fun c => applyWrite c fn v be

/-- UCODE_OPEN (R1104): NODE_UC_CTL operation that empties the microcode staging store of an engine. -/
def execUcodeOpen (fn : Fn) (v : Word) (be : BitVec 4) (s : State) : Result :=
  onChip s fun c => ucCtlWrite c fn v be

/-- UCODE_DATA (R1104): write of NODE_UC_DATA that appends 4 bytes to the staging store. -/
def execUcodeData (fn : Fn) (v : Word) (be : BitVec 4) (s : State) : Result :=
  onChip s fun c => ucDataWrite c fn v be

/-- UCODE_APPLY (R1105): NODE_UC_CTL operation that checks the staged package and schedules it for the next boundary. -/
def execUcodeApply (fn : Fn) (v : Word) (be : BitVec 4) (s : State) : Result :=
  onChip s fun c => ucCtlWrite c fn v be

/-- UCODE_STORE (R1109): NODE_UC_CTL operation that writes the microcode in force into the older start-up slot. -/
def execUcodeStore (fn : Fn) (v : Word) (be : BitVec 4) (s : State) : Result :=
  onChip s fun c => ucCtlWrite c fn v be

/-- UCODE_ERASE (R1109): NODE_UC_CTL operation that erases both start-up slots of an engine. -/
def execUcodeErase (fn : Fn) (v : Word) (be : BitVec 4) (s : State) : Result :=
  onChip s fun c => ucCtlWrite c fn v be

/-- PIN_RESET (R142): RESET_N held low for at least 1 µs. -/
def execPinReset (s : State) : Result :=
  onChip s fun c => pinReset c

/-- WAKE_N (R140): WAKE_N low, which wakes the node from OFF, HIBERNATE or SENTRY. -/
def execWakeN (s : State) : Result :=
  onChip s fun c => wakeN c

/-- START_UP (R149): start-up sequence from release of reset to the first frame in START_MODE. -/
def execStartUp (refOk : Bool) (pllOk : Bool) (sramOk : Bool) (gateOk : Bool) (ioLevel : Bool) (strapTest : Bool) (s : State) : Result :=
  onChip s fun c => startUp c refOk pllOk sramOk gateOk ioLevel strapTest

/-- SAFE_HOLD_OPEN (R132): opening of held loop-output cells when the twin takes over or after 4 ms. -/
def execSafeHoldOpen (s : State) : Result :=
  onChip s fun c => safeHoldOpen c

/-- NODE_FATAL (R1096): detection of a node-fatal fault, which enters SAFE_HOLD. -/
def execNodeFatal (cause : Fin 7) (s : State) : Result :=
  onChip s fun c => nodeFatal c cause.val

/-- IMAGE_OP_DONE (R165): an image erase or commit ends, the commit page is written, RESULT loads and NODE_IMG_CMD.GO clears. -/
def execImageOpDone (s : State) : Result :=
  onChip s fun c => imageOpDone c

/-- UCODE_STORE_DONE (R1109): A microcode STORE or ERASE in NVM ends, RESULT loads and NODE_UC_CTL.GO clears. -/
def execUcodeStoreDone (s : State) : Result :=
  onChip s fun c => ucStoreDone c

end Sys2Proof.Machine
end

