-- ==== Sys2Proof/Machine/ExecPanel.lean ====
section
/-! DEFINITION. The meanings of the commands of the clock, the calendar and the LCD: one definition for each row, over the shared operations. -/

namespace Sys2Proof.Machine

/-- SET (R1015): write of RTC_CTL.SET, which loads the calendar at the next crystal edge. -/
def execSet (fn : Fn) (v : Word) (be : BitVec 4) (s : State) : Result :=
  onChip s fun c => rtcSetWrite c fn v be

/-- SHIFT (R1025): write of RTC_SHIFT with GO, which starts a shift. -/
def execShift (fn : Fn) (v : Word) (be : BitVec 4) (s : State) : Result :=
  onChip s fun c => rtcShiftWrite c fn v be

/-- SHIFT_STEP (R1027): every 16th crystal edge, one shift count is added or withheld. -/
def execShiftStep (s : State) : Result :=
  onChip s fun c => shiftStep c

/-- CALENDAR_SECOND (R1008): SS passes 32,767 and the calendar advances one second. -/
def execCalendarSecond (s : State) : Result :=
  onChip s fun c => secondTick c

/-- TRIM_WINDOW_END (R1022): end of a trim measurement window, which loads MEAS or discards it. -/
def execTrimWindowEnd (n : Exact) (ok : Bool) (s : State) : Result :=
  onChip s fun c => trimWindowEnd c (exactVal n) ok

/-- CRYSTAL_EDGE (R1008): an edge of the active 32 kHz AON source advances SS by its increment, runs the trim accumulator and counts OT. -/
def execCrystalEdge (s : State) : Result :=
  onChip s fun c => edgeTick c

/-- PANEL_START (R1059): the panel's drive conditions come to hold and the bias is raised. -/
def execPanelStart (s : State) : Result :=
  onChip s fun c => panelStart c

/-- BIAS_READY (R1059): the bias levels settle and the panel begins driving. -/
def execBiasReady (s : State) : Result :=
  onChip s fun c => biasReady c

/-- PANEL_STOP (R1060): the drive conditions cease and the panel is driven to V5. -/
def execPanelStop (s : State) : Result :=
  onChip s fun c => panelStop c

/-- BIAS_DISCHARGED (R1060): the bias has discharged and the LCD drive enters OFF. -/
def execBiasDischarged (s : State) : Result :=
  onChip s fun c => biasDischarged c

/-- REFRESH_FRAME (R1046): A refresh frame of the LCD begins. -/
def execRefreshFrame (s : State) : Result :=
  onChip s fun c => refreshFrame c

/-- PUMP_FAULT (R1040): V0 stays outside its band for 1 ms and PUMP_OK falls. -/
def execPumpFault (s : State) : Result :=
  onChip s fun c => pumpFault c

/-- PUMP_RESTART (R1041): once-a-second restart of a failed charge pump under leave. -/
def execPumpRestart (ok : Bool) (s : State) : Result :=
  onChip s fun c => pumpRestart c ok

end Sys2Proof.Machine
end

