-- ==== Sys2Proof/Machine/ExecPower.lean ====
section
/-! DEFINITION. The meanings of the commands of domains, leave, rails and clocks: one definition for each row, over the shared operations. -/

namespace Sys2Proof.Machine

/-- DOMAIN_ENABLE (R91): write of PWR_DOM_EN that changes domain target states and requests or drops leave. -/
def execDomainEnable (fn : Fn) (v : Word) (be : BitVec 4) (s : State) : Result :=
  onChip s fun c => domEnWrite c fn v be

/-- BUDGET_WRITE (R116): write of PWR_BUDGET that sets the budget and OVER when committed exceeds it. -/
def execBudgetWrite (fn : Fn) (v : Word) (be : BitVec 4) (s : State) : Result :=
  onChip s fun c => budgetWrite c fn v be

/-- RAIL_LOSS (R88): A supply rail falls below its threshold or VFIELD exceeds its over-voltage limit. -/
def execRailLoss (rail : Rail) (reached : Fin 258) (s : State) : Result :=
  onChip s fun c => railLoss c rail reached.val

/-- RAIL_RETURN (R519): A field, drive or LCD rail returns inside its window. -/
def execRailReturn (rail : Rail) (s : State) : Result :=
  onChip s fun c => railReturn c rail

/-- LEAVE_GRANT (R112): grant of a waiting leave request once it fits the budget. -/
def execLeaveGrant (s : State) : Result :=
  onChip s fun c => leaveGrant c

/-- LEAVE_TIMEOUT (R117): withdrawal of a non-SAFETY leave request that waited PWR_LEAVE_TMO. -/
def execLeaveTimeout (dom : Fin 30) (s : State) : Result :=
  onChip s fun c => leaveTimeout c dom.val

/-- SURGE_RELEASE (R113): release of a wake surge after its duration or operation ends. -/
def execSurgeRelease (dom : Fin 30) (s : State) : Result :=
  onChip s fun c => surgeRelease c dom.val

/-- DOMAIN_ON (R93): A waking domain reaches ON. -/
def execDomainOn (dom : Fin 30) (s : State) : Result :=
  onChip s fun c => domainOn c dom.val

/-- DOMAIN_OFF (R95): A domain completes its turn-off with dependants off and outputs de-energised. -/
def execDomainOff (dom : Fin 30) (s : State) : Result :=
  onChip s fun c => domainOff c dom.val

/-- XTAL_LOSS (R101): no crystal edge for 125 µs, which switches AON to the RC backup. -/
def execXtalLoss (s : State) : Result :=
  onChip s fun c => xtalLoss c

/-- XTAL_RETURN (R102): 1,024 good crystal edges, which switch AON back to the crystal. -/
def execXtalReturn (s : State) : Result :=
  onChip s fun c => xtalReturn c

/-- PLLM_LOSS (R103): PLL-M loses lock and every modulator stops. -/
def execPllmLoss (s : State) : Result :=
  onChip s fun c => pllmLoss c

/-- PLLM_RELOCK (R103): PLL-M relocks and the modulators restart with settling samples. -/
def execPllmRelock (s : State) : Result :=
  onChip s fun c => pllmRelock c

/-- PLLC_LOSS (R104): PLL-C loses lock, CCLK moves to the fast RC and the node enters SAFE_HOLD. -/
def execPllcLoss (s : State) : Result :=
  onChip s fun c => pllcLoss c

/-- REF_LOSS (R1178): the 25 MHz reference is absent for 2 µs, a loss of both PLLs. -/
def execRefLoss (s : State) : Result :=
  onChip s fun c => refLoss c

end Sys2Proof.Machine
end

