-- ==== Sys2Proof/Machine/ExecRecord.lean ====
section
/-! DEFINITION. The meanings of the commands of the engineer call and the event recorder: one definition for each row, over the shared operations. -/

namespace Sys2Proof.Machine

/-- ACCEPT (R766): received ACCEPT frame from a cabin panel, judged for duplicates and acknowledged. -/
def execAccept (panel : Fin 16) (data : List Byte) (s : State) : Result :=
  onChip s fun c => acceptFrom c panel.val data

/-- ACK (R764): received ACK frame from a panel that stops repetition of a call frame. -/
def execAck (panel : Fin 16) (data : List Byte) (s : State) : Result :=
  onChip s fun c => ackFrom c panel.val data

/-- CALL_FRAME_REPEAT (R763): repetition every 250 ms of an unacknowledged CALL or CLEAR frame. -/
def execCallFrameRepeat (s : State) : Result :=
  onChip s fun c => callFrameRepeat c

/-- RECORD_CLOSE (R797): A record's coalesce window ends and the record closes. -/
def execRecordClose (t : Fin 257) (s : State) : Result :=
  onChip s fun c => recordClose c t.val

/-- TAIL_PAGE (R798): programming of a tail page for an open record after the journal interval. -/
def execTailPage (t : Fin 257) (s : State) : Result :=
  onChip s fun c => tailPage c t.val

/-- OT_PAGE (R770): OT[15:0] wraps and OT[39:16] is programmed into the OT area. -/
def execOtPage (s : State) : Result :=
  onChip s fun c => otPage c

/-- CLEAR_ARM_EXPIRY (R809): 10 s of OT pass and the recorder disarms. -/
def execClearArmExpiry (s : State) : Result :=
  onChip s fun c => clearArmExpiry c

/-- CLEAR_DONE (R811): the CLEARED record reaches NVM and REC_CLEAR_CONFIRM completes. -/
def execClearDone (s : State) : Result :=
  onChip s fun c => clearDone c

end Sys2Proof.Machine
end

