-- ==== Sys2Proof/Machine/ExecSaddle.lean ====
section
/-! DEFINITION. The meanings of the commands of the Saddle link and the lease: one definition for each row, over the shared operations. -/

namespace Sys2Proof.Machine

/-- HEARTBEAT_TIMER (R955): 50 µs without a frame to send, which sends HEARTBEAT. -/
def execHeartbeatTimer (s : State) : Result :=
  onChip s fun c => heartbeatTimer c

/-- HEARTBEAT (R957): received HEARTBEAT Saddle frame. -/
def execHeartbeat (h : SaddleHdr) (data : List Byte) (s : State) : Result :=
  onChip s fun c => rxHeartbeat c h data

/-- SYNC (R962): received SYNC Saddle frame, which resets the receiver's LAST. -/
def execSync (h : SaddleHdr) (data : List Byte) (s : State) : Result :=
  onChip s fun c => rxSync c h data

/-- MIRROR (R965): received MIRROR frame carrying items of a mirror set. -/
def execMirror (h : SaddleHdr) (data : List Byte) (s : State) : Result :=
  onChip s fun c => rxMirror c h data

/-- COMMIT (R965): received COMMIT frame that completes a mirror set. -/
def execCommit (h : SaddleHdr) (data : List Byte) (s : State) : Result :=
  onChip s fun c => rxCommit c h data

/-- RECORD (R970): received RECORD frame carrying records to store or form. -/
def execRecord (h : SaddleHdr) (data : List Byte) (s : State) : Result :=
  onChip s fun c => rxRecord c h data

/-- RESYNC (R997): received RESYNC frame carrying resynchronisation data. -/
def execResync (h : SaddleHdr) (data : List Byte) (s : State) : Result :=
  onChip s fun c => rxResync c h data

/-- FAILED (R984): received FAILED frame from the twin. -/
def execFailed (h : SaddleHdr) (data : List Byte) (s : State) : Result :=
  onChip s fun c => rxFailed c h data

/-- HANDOVER (R984): received HANDOVER frame from the active twin. -/
def execHandover (h : SaddleHdr) (data : List Byte) (s : State) : Result :=
  onChip s fun c => rxHandover c h data

/-- TAKEN (R995): received TAKEN frame, which opens the outgoing unit's outputs. -/
def execTaken (h : SaddleHdr) (data : List Byte) (s : State) : Result :=
  onChip s fun c => rxTaken c h data

/-- SADDLE_RETRANSMIT (R960): ACK has not advanced for 20 µs and the outstanding frames are resent. -/
def execSaddleRetransmit (s : State) : Result :=
  onChip s fun c => saddleRetransmit c

/-- CONTACT_LOSS (R961): A unit loses Saddle contact after 1,000 µs. -/
def execContactLoss (s : State) : Result :=
  onChip s fun c => contactLoss c

/-- LEASE_REQUEST_TIMER (R975): sending of a lease REQUEST every 250 µs. -/
def execLeaseRequestTimer (s : State) : Result :=
  onChip s fun c => leaseRequestTimer c

/-- LEASE_REQUEST (R978): received lease REQUEST, answered by the arbiter with GRANT or DENY. -/
def execLeaseRequest (at_ : LeaseAt) (data : List Byte) (s : State) : Result :=
  onChip s fun c => leaseRequests c at_ data

/-- LEASE_GRANT (R977): received GRANT, which gives the unit a valid lease. -/
def execLeaseGrant (data : List Byte) (s : State) : Result :=
  onChip s fun c => leaseGranted c data

/-- LEASE_DENY (R976): received DENY, which delays the next request. -/
def execLeaseDeny (data : List Byte) (s : State) : Result :=
  onChip s fun c => leaseDenied c data

/-- LEASE_RELEASE (R979): received RELEASE, which ends the arbiter's count of the lease. -/
def execLeaseRelease (port : Fin 2) (data : List Byte) (s : State) : Result :=
  onChip s fun c => leaseReleased c port.val data

/-- LEASE_EXPIRY (R985): A unit's lease runs out. -/
def execLeaseExpiry (s : State) : Result :=
  onChip s fun c => leaseExpiry c

/-- ARBITER_LEASE_END (R979): the arbiter's count of a lease ends and the guard begins. -/
def execArbiterLeaseEnd (s : State) : Result :=
  onChip s fun c => arbiterLeaseEnd c

/-- ARBITER_HOLDOFF_END (R982): 1,250 µs after its start, the arbiter may grant. -/
def execArbiterHoldoffEnd (s : State) : Result :=
  onChip s fun c => arbiterHoldoffEnd c

/-- TAKEOVER_LEG_ARM (R993): arming of legs at takeover after LEGS_OFF or 50 µs without contact. -/
def execTakeoverLegArm (s : State) : Result :=
  onChip s fun c => takeoverLegArm c

/-- SWITCHBACK_TIMEOUT (R1004): TAKEN has not arrived 4 ms after HANDOVER and the switch-back aborts. -/
def execSwitchbackTimeout (s : State) : Result :=
  onChip s fun c => switchbackTimeout c

/-- RESYNC_STEP_END (R997): A step of resynchronisation ends. -/
def execResyncStepEnd (s : State) : Result :=
  onChip s fun c => resyncStepEnd c

/-- ALLOW (R1117): write of SDL_UPD.ALLOW, which permits or refuses a mixed station. -/
def execAllow (fn : Fn) (v : Word) (be : BitVec 4) (s : State) : Result :=
  onChip s fun c => allowWrite c fn v be

end Sys2Proof.Machine
end

