-- ==== Sys2Proof/Machine/ExecScan.lean ====
section
/-! DEFINITION. The meanings of the commands of the boundary, the slots and the scan entries: one definition for each row, over the shared operations. -/

namespace Sys2Proof.Machine

/-- FRAME_BOUNDARY (R28): frame boundary at which the boundary steps run in order. -/
def execFrameBoundary (s : State) : Result :=
  onChip s fun c => frameBoundary c

/-- SLOT_BEGIN (R337): beginning of a slot, which runs its entries and then its function's commands. -/
def execSlotBegin (slot : SlotRun) (s : State) : Result :=
  onChip s fun c => slotBegin c slot.slot.val slot.work

/-- BASE_TICK (R342): base tick of 25 µs at which due grid and frame-tick entries run. -/
def execBaseTick (s : State) : Result :=
  onChip s fun c => baseTick c

/-- SCAN_NOP (R349): scan entry that does nothing. -/
def execScanNop (entry : Nat) (s : State) : Result :=
  onChip s fun c => scanRow c 0 entry

/-- ACQ (R469): scan entry that linearises a filter output and writes the analog point's live word. -/
def execAcq (ch : Fin 128) (sense drive : Wave) (beside : Exact) (s : State) : Result :=
  onChip s (bankWork fun c => acqOutput c ch.val (phasor sense) (phasor drive) (exactVal beside))

/-- CONTACT (R553): scan entry that writes a contact state to its live word. -/
def execContact (entry : Nat) (s : State) : Result :=
  onChip s fun c => scanRow c 2 entry

/-- PULSE (R561): scan entry that writes the scaled frequency to its live word. -/
def execPulse (entry : Nat) (s : State) : Result :=
  onChip s fun c => scanRow c 3 entry

/-- POSITION (R611): scan entry that writes the position count to its live word. -/
def execPosition (entry : Nat) (s : State) : Result :=
  onChip s fun c => scanRow c 4 entry

/-- INTERNAL (R1173): scan entry that writes a monitor reading to its live word. -/
def execInternal (entry : Nat) (reading : Exact) (s : State) : Result :=
  onChip s fun c => internalEntry c entry (exactVal reading)

/-- LOOP (R651): scan entry that dispatches a loop evaluation to the control engine. -/
def execLoop (entry : Nat) (s : State) : Result :=
  onChip s fun c => scanRow c 6 entry

/-- OUT (R503): scan entry that applies a point's live word to its cell or leg. -/
def execOut (entry : Nat) (s : State) : Result :=
  onChip s fun c => scanRow c 7 entry

/-- DMA_SIGNAL (R892): scan entry that sets a program channel's SCAN pending bit. -/
def execDmaSignal (entry : Nat) (s : State) : Result :=
  onChip s fun c => scanRow c 8 entry

/-- BLANK_ACTIVE (R360): BLANK_Bn becomes active and blanking of the bank's bits begins. -/
def execBlankActive (b : Fin 8) (s : State) : Result :=
  onChip s fun c => blankActive c b.val

/-- BLANK_POST_END (R360): the extension after BLANK_Bn goes inactive ends. -/
def execBlankPostEnd (b : Fin 8) (s : State) : Result :=
  onChip s fun c => blankPostEnd c b.val

/-- BLANK_STUCK (R364): BLANK_Bn has stayed active for MAX ms and is ignored. -/
def execBlankStuck (b : Fin 8) (s : State) : Result :=
  onChip s fun c => blankStuck c b.val

/-- BLANK_INACTIVE (R364): BLANK_Bn goes inactive, starting the POST extension and ending the neglect of a stuck input. -/
def execBlankInactive (b : Fin 8) (s : State) : Result :=
  onChip s fun c => blankInactive c b.val

/-- SENTRY_SCAN (R368): periodic sentry conversion or contact check of a sentry entry. -/
def execSentryScan (e : Fin 16) (seen : SentrySeen) (s : State) : Result :=
  onChip s fun c => sentryScan c e.val seen

/-- STALE_TIMEOUT (R56): A producer has not written a live word within two of its own update periods, so STALE sets and the word's quality falls to held. -/
def execStaleTimeout (point : PointId) (s : State) : Result :=
  onChip s fun c => staleTimeout c point.toNat

end Sys2Proof.Machine
end

