-- ==== Sys2Proof/Machine/Dispatch.lean ====
section
/-! DEFINITION. The effect of a command: one arm for each row of the opcode table. -/

namespace Sys2Proof.Machine

def exec (i : Instr) (s : State) : Host.Outcome State Fault Refusal :=
  match i with
  | .nop fn e => Sys2Proof.Machine.execNop fn e s
  | .substitute fn e => Sys2Proof.Machine.execSubstitute fn e s
  | .unsubstitute fn e => Sys2Proof.Machine.execUnsubstitute fn e s
  | .setSetpoint fn e => Sys2Proof.Machine.execSetSetpoint fn e s
  | .setLoopMode fn e => Sys2Proof.Machine.execSetLoopMode fn e s
  | .setManualOutput fn e => Sys2Proof.Machine.execSetManualOutput fn e s
  | .alarmAck fn e => Sys2Proof.Machine.execAlarmAck fn e s
  | .alarmShelve fn e => Sys2Proof.Machine.execAlarmShelve fn e s
  | .alarmUnshelve fn e => Sys2Proof.Machine.execAlarmUnshelve fn e s
  | .alarmService fn e => Sys2Proof.Machine.execAlarmService fn e s
  | .callAck fn e => Sys2Proof.Machine.execCallAck fn e s
  | .subscribe fn e => Sys2Proof.Machine.execSubscribe fn e s
  | .readPoints fn e => Sys2Proof.Machine.execReadPoints fn e s
  | .tableSwap fn e => Sys2Proof.Machine.execTableSwap fn e s
  | .tripClear fn e => Sys2Proof.Machine.execTripClear fn e s
  | .fskSend fn e => Sys2Proof.Machine.execFskSend fn e s
  | .canSend fn e => Sys2Proof.Machine.execCanSend fn e s
  | .dataCont fn e => Sys2Proof.Machine.execDataCont fn e s
  | .recClearArm fn e => Sys2Proof.Machine.execRecClearArm fn e s
  | .recClearConfirm fn e => Sys2Proof.Machine.execRecClearConfirm fn e s
  | .tuneStart fn e => Sys2Proof.Machine.execTuneStart fn e s
  | .tuneStop fn e => Sys2Proof.Machine.execTuneStop fn e s
  | .sdlResync fn e => Sys2Proof.Machine.execSdlResync fn e s
  | .sdlSwitchback fn e => Sys2Proof.Machine.execSdlSwitchback fn e s
  | .modeRequest fn v be => Sys2Proof.Machine.execModeRequest fn v be s
  | .nodeReset fn v be => Sys2Proof.Machine.execNodeReset fn v be s
  | .eraseBank fn v be => Sys2Proof.Machine.execEraseBank fn v be s
  | .commitBank fn v be => Sys2Proof.Machine.execCommitBank fn v be s
  | .imageApply fn v be => Sys2Proof.Machine.execImageApply fn v be s
  | .ucodeOpen fn v be => Sys2Proof.Machine.execUcodeOpen fn v be s
  | .ucodeData fn v be => Sys2Proof.Machine.execUcodeData fn v be s
  | .ucodeApply fn v be => Sys2Proof.Machine.execUcodeApply fn v be s
  | .ucodeStore fn v be => Sys2Proof.Machine.execUcodeStore fn v be s
  | .ucodeErase fn v be => Sys2Proof.Machine.execUcodeErase fn v be s
  | .domainEnable fn v be => Sys2Proof.Machine.execDomainEnable fn v be s
  | .budgetWrite fn v be => Sys2Proof.Machine.execBudgetWrite fn v be s
  | .ringEnable fn page r v be => Sys2Proof.Machine.execRingEnable fn page r v be s
  | .ringDisable fn page r v be => Sys2Proof.Machine.execRingDisable fn page r v be s
  | .doorbell fn mem r v be => Sys2Proof.Machine.execDoorbell fn mem r v be s
  | .functionLevelReset fn => Sys2Proof.Machine.execFunctionLevelReset fn s
  | .hostReset speed width => Sys2Proof.Machine.execHostReset speed width s
  | .linkRetrain speed width => Sys2Proof.Machine.execLinkRetrain speed width s
  | .regWrite fn off data => Sys2Proof.Machine.execRegWrite fn off data s
  | .malformedBar0Read fn off len => Sys2Proof.Machine.execMalformedBar0Read fn off len s
  | .upperLatch fn off => Sys2Proof.Machine.execUpperLatch fn off s
  | .calendarLatch fn => Sys2Proof.Machine.execCalendarLatch fn s
  | .tableMemoryWrite fn off data => Sys2Proof.Machine.execTableMemoryWrite fn off data s
  | .nvmWindowWrite fn off data => Sys2Proof.Machine.execNvmWindowWrite fn off data s
  | .frameMemoryWrite fn off data => Sys2Proof.Machine.execFrameMemoryWrite fn off data s
  | .lcdFrameMemoryWrite fn off data => Sys2Proof.Machine.execLcdFrameMemoryWrite fn off data s
  | .statusPortRead addr => Sys2Proof.Machine.execStatusPortRead addr s
  | .railLoss rail reached => Sys2Proof.Machine.execRailLoss rail reached s
  | .railReturn rail => Sys2Proof.Machine.execRailReturn rail s
  | .pinReset => Sys2Proof.Machine.execPinReset s
  | .wakeN => Sys2Proof.Machine.execWakeN s
  | .startUp refOk pllOk sramOk gateOk ioLevel strapTest => Sys2Proof.Machine.execStartUp refOk pllOk sramOk gateOk ioLevel strapTest s
  | .leaveGrant => Sys2Proof.Machine.execLeaveGrant s
  | .leaveTimeout dom => Sys2Proof.Machine.execLeaveTimeout dom s
  | .surgeRelease dom => Sys2Proof.Machine.execSurgeRelease dom s
  | .domainOn dom => Sys2Proof.Machine.execDomainOn dom s
  | .domainOff dom => Sys2Proof.Machine.execDomainOff dom s
  | .xtalLoss => Sys2Proof.Machine.execXtalLoss s
  | .xtalReturn => Sys2Proof.Machine.execXtalReturn s
  | .pllmLoss => Sys2Proof.Machine.execPllmLoss s
  | .pllmRelock => Sys2Proof.Machine.execPllmRelock s
  | .pllcLoss => Sys2Proof.Machine.execPllcLoss s
  | .refLoss => Sys2Proof.Machine.execRefLoss s
  | .safeHoldOpen => Sys2Proof.Machine.execSafeHoldOpen s
  | .nodeFatal cause => Sys2Proof.Machine.execNodeFatal cause s
  | .frameBoundary => Sys2Proof.Machine.execFrameBoundary s
  | .slotBegin slot => Sys2Proof.Machine.execSlotBegin slot s
  | .baseTick => Sys2Proof.Machine.execBaseTick s
  | .scanNop entry => Sys2Proof.Machine.execScanNop entry s
  | .acq ch sense drive beside => Sys2Proof.Machine.execAcq ch sense drive beside s
  | .contact entry => Sys2Proof.Machine.execContact entry s
  | .pulse entry => Sys2Proof.Machine.execPulse entry s
  | .position entry => Sys2Proof.Machine.execPosition entry s
  | .internal entry reading => Sys2Proof.Machine.execInternal entry reading s
  | .loop entry => Sys2Proof.Machine.execLoop entry s
  | .out entry => Sys2Proof.Machine.execOut entry s
  | .dmaSignal entry => Sys2Proof.Machine.execDmaSignal entry s
  | .loopEvaluation l cycles => Sys2Proof.Machine.execLoopEvaluation l cycles s
  | .deadlineMiss l => Sys2Proof.Machine.execDeadlineMiss l s
  | .captureTimeout b => Sys2Proof.Machine.execCaptureTimeout b s
  | .release fn b v be => Sys2Proof.Machine.execRelease fn b v be s
  | .macLaneSelftest lane ok => Sys2Proof.Machine.execMacLaneSelftest lane ok s
  | .blankActive b => Sys2Proof.Machine.execBlankActive b s
  | .blankPostEnd b => Sys2Proof.Machine.execBlankPostEnd b s
  | .blankStuck b => Sys2Proof.Machine.execBlankStuck b s
  | .sentryScan e seen => Sys2Proof.Machine.execSentryScan e seen s
  | .acqSetupWrite fn ch reg v be => Sys2Proof.Machine.execAcqSetupWrite fn ch reg v be s
  | .rtd3PhaseChange ch lead => Sys2Proof.Machine.execRtd3PhaseChange ch lead s
  | .protectionOpen ch => Sys2Proof.Machine.execProtectionOpen ch s
  | .protectionEnd ch => Sys2Proof.Machine.execProtectionEnd ch s
  | .shuntOpen ch => Sys2Proof.Machine.execShuntOpen ch s
  | .shuntReconnectTest ch ok => Sys2Proof.Machine.execShuntReconnectTest ch ok s
  | .iepeBiasCheck ch bias => Sys2Proof.Machine.execIepeBiasCheck ch bias s
  | .rotationPhaseEnd b => Sys2Proof.Machine.execRotationPhaseEnd b s
  | .calibrationEnd b ofs gain exc => Sys2Proof.Machine.execCalibrationEnd b ofs gain exc s
  | .cellMonitorFail ch reference => Sys2Proof.Machine.execCellMonitorFail ch reference s
  | .calAged b => Sys2Proof.Machine.execCalAged b s
  | .cmCheck ch v => Sys2Proof.Machine.execCmCheck ch v s
  | .testToneStart ch => Sys2Proof.Machine.execTestToneStart ch s
  | .testToneEnd ch loopR ins => Sys2Proof.Machine.execTestToneEnd ch loopR ins s
  | .loopModeWrite fn ch v be => Sys2Proof.Machine.execLoopModeWrite fn ch v be s
  | .cellModeEnter ch => Sys2Proof.Machine.execCellModeEnter ch s
  | .readbackUpdate ch readback drive vloop vres short => Sys2Proof.Machine.execReadbackUpdate ch readback drive vloop vres short s
  | .loopFaultSet ch fault => Sys2Proof.Machine.execLoopFaultSet ch fault s
  | .lnSwitchOpen ch => Sys2Proof.Machine.execLnSwitchOpen ch s
  | .lnReconnectTest ch ok => Sys2Proof.Machine.execLnReconnectTest ch ok s
  | .overtemp ch hot => Sys2Proof.Machine.execOvertemp ch hot s
  | .wdHold ch => Sys2Proof.Machine.execWdHold ch s
  | .wdOpen ch => Sys2Proof.Machine.execWdOpen ch s
  | .force fn ch v be => Sys2Proof.Machine.execForce fn ch v be s
  | .store fn ch v be => Sys2Proof.Machine.execStore fn ch v be s
  | .storeDone => Sys2Proof.Machine.execStoreDone s
  | .buttonPress b => Sys2Proof.Machine.execButtonPress b s
  | .buttonRepeat b late => Sys2Proof.Machine.execButtonRepeat b late s
  | .buttonStoreHold => Sys2Proof.Machine.execButtonStoreHold s
  | .fskTxStart ch => Sys2Proof.Machine.execFskTxStart ch s
  | .fskCarrierTimeout ch => Sys2Proof.Machine.execFskCarrierTimeout ch s
  | .fskTxEnd ch => Sys2Proof.Machine.execFskTxEnd ch s
  | .fskRxEnd ch data status => Sys2Proof.Machine.execFskRxEnd ch data status s
  | .contactSample n ohm => Sys2Proof.Machine.execContactSample n ohm s
  | .pulseEdge m e => Sys2Proof.Machine.execPulseEdge m e s
  | .gateEnd m time => Sys2Proof.Machine.execGateEnd m time s
  | .pulseTimeout m => Sys2Proof.Machine.execPulseTimeout m s
  | .tripCauseRise inputs => Sys2Proof.Machine.execTripCauseRise inputs s
  | .tripCauseFall inputs => Sys2Proof.Machine.execTripCauseFall inputs s
  | .armRequest fn n v be => Sys2Proof.Machine.execArmRequest fn n v be s
  | .legDisarm fn n v be => Sys2Proof.Machine.execLegDisarm fn n v be s
  | .prechargeEnd n => Sys2Proof.Machine.execPrechargeEnd n s
  | .carrierZero n isense => Sys2Proof.Machine.execCarrierZero n isense s
  | .shortDetectorFire n seen => Sys2Proof.Machine.execShortDetectorFire n seen s
  | .blankingEnd n seen => Sys2Proof.Machine.execBlankingEnd n seen s
  | .legWatchdogExpiry n => Sys2Proof.Machine.execLegWatchdogExpiry n s
  | .quadratureEdge n a b => Sys2Proof.Machine.execQuadratureEdge n a b s
  | .indexEdge n => Sys2Proof.Machine.execIndexEdge n s
  | .accept panel data => Sys2Proof.Machine.execAccept panel data s
  | .ack panel data => Sys2Proof.Machine.execAck panel data s
  | .callFrameRepeat => Sys2Proof.Machine.execCallFrameRepeat s
  | .recordClose t => Sys2Proof.Machine.execRecordClose t s
  | .tailPage t => Sys2Proof.Machine.execTailPage t s
  | .otPage => Sys2Proof.Machine.execOtPage s
  | .clearArmExpiry => Sys2Proof.Machine.execClearArmExpiry s
  | .clearDone => Sys2Proof.Machine.execClearDone s
  | .recordDelivery fn => Sys2Proof.Machine.execRecordDelivery fn s
  | .holdQueueDrain fn => Sys2Proof.Machine.execHoldQueueDrain fn s
  | .msixMessage fn vec => Sys2Proof.Machine.execMsixMessage fn vec s
  | .guaranteeBreachStart p code => Sys2Proof.Machine.execGuaranteeBreachStart p code s
  | .guaranteeBreachEnd p code us => Sys2Proof.Machine.execGuaranteeBreachEnd p code us s
  | .create fn v be => Sys2Proof.Machine.execCreate fn v be s
  | .basinAdmit fn v be => Sys2Proof.Machine.execBasinAdmit fn v be s
  | .detach fn v be => Sys2Proof.Machine.execDetach fn v be s
  | .replace fn v be => Sys2Proof.Machine.execReplace fn v be s
  | .retire fn v be => Sys2Proof.Machine.execRetire fn v be s
  | .eraseKey fn v be => Sys2Proof.Machine.execEraseKey fn v be s
  | .chunkWrite log => Sys2Proof.Machine.execChunkWrite log s
  | .nvmeCompletion m what => Sys2Proof.Machine.execNvmeCompletion m what s
  | .memberLost m cause => Sys2Proof.Machine.execMemberLost m cause s
  | .healthLogRead m warning => Sys2Proof.Machine.execHealthLogRead m warning s
  | .rebuildStrip => Sys2Proof.Machine.execRebuildStrip s
  | .waveformCaptureEnd str => Sys2Proof.Machine.execWaveformCaptureEnd str s
  | .dpGo fn n v be => Sys2Proof.Machine.execDpGo fn n v be s
  | .dpStop fn n v be => Sys2Proof.Machine.execDpStop fn n v be s
  | .move n => Sys2Proof.Machine.execMove n s
  | .dmaLoop n => Sys2Proof.Machine.execDmaLoop n s
  | .wait n => Sys2Proof.Machine.execWait n s
  | .signal n => Sys2Proof.Machine.execSignal n s
  | .dmaBurst n at_ => Sys2Proof.Machine.execDmaBurst n at_ s
  | .portRequest b => Sys2Proof.Machine.execPortRequest b s
  | .portWithdraw b begun => Sys2Proof.Machine.execPortWithdraw b begun s
  | .dlGo fn n mem v be => Sys2Proof.Machine.execDlGo fn n mem v be s
  | .dlStop fn n v be => Sys2Proof.Machine.execDlStop fn n v be s
  | .descriptor n => Sys2Proof.Machine.execDescriptor n s
  | .dmaHostError n kind => Sys2Proof.Machine.execDmaHostError n kind s
  | .completionPulse n ok => Sys2Proof.Machine.execCompletionPulse n ok s
  | .ownerChange fn n v be => Sys2Proof.Machine.execOwnerChange fn n v be s
  | .startOfFrame n => Sys2Proof.Machine.execStartOfFrame n s
  | .txOutcome n outcome timestamp => Sys2Proof.Machine.execTxOutcome n outcome timestamp s
  | .txTmo n b => Sys2Proof.Machine.execTxTmo n b s
  | .frameReceived n format ident dlc data timestamp => Sys2Proof.Machine.execFrameReceived n format ident dlc data timestamp s
  | .protocolException n => Sys2Proof.Machine.execProtocolException n s
  | .busOff n => Sys2Proof.Machine.execBusOff n s
  | .recover fn n v be => Sys2Proof.Machine.execRecover fn n v be s
  | .recoveryEnd n => Sys2Proof.Machine.execRecoveryEnd n s
  | .canModeWrite fn n v be => Sys2Proof.Machine.execCanModeWrite fn n v be s
  | .canModeEffect n => Sys2Proof.Machine.execCanModeEffect n s
  | .heartbeatTimer => Sys2Proof.Machine.execHeartbeatTimer s
  | .heartbeat h data => Sys2Proof.Machine.execHeartbeat h data s
  | .sync h data => Sys2Proof.Machine.execSync h data s
  | .mirror h data => Sys2Proof.Machine.execMirror h data s
  | .commit h data => Sys2Proof.Machine.execCommit h data s
  | .record h data => Sys2Proof.Machine.execRecord h data s
  | .resync h data => Sys2Proof.Machine.execResync h data s
  | .failed h data => Sys2Proof.Machine.execFailed h data s
  | .handover h data => Sys2Proof.Machine.execHandover h data s
  | .taken h data => Sys2Proof.Machine.execTaken h data s
  | .saddleRetransmit => Sys2Proof.Machine.execSaddleRetransmit s
  | .contactLoss => Sys2Proof.Machine.execContactLoss s
  | .leaseRequestTimer => Sys2Proof.Machine.execLeaseRequestTimer s
  | .leaseRequest at_ data => Sys2Proof.Machine.execLeaseRequest at_ data s
  | .leaseGrant data => Sys2Proof.Machine.execLeaseGrant data s
  | .leaseDeny data => Sys2Proof.Machine.execLeaseDeny data s
  | .leaseRelease port data => Sys2Proof.Machine.execLeaseRelease port data s
  | .leaseExpiry => Sys2Proof.Machine.execLeaseExpiry s
  | .arbiterLeaseEnd => Sys2Proof.Machine.execArbiterLeaseEnd s
  | .arbiterHoldoffEnd => Sys2Proof.Machine.execArbiterHoldoffEnd s
  | .takeoverLegArm => Sys2Proof.Machine.execTakeoverLegArm s
  | .switchbackTimeout => Sys2Proof.Machine.execSwitchbackTimeout s
  | .resyncStepEnd => Sys2Proof.Machine.execResyncStepEnd s
  | .allow fn v be => Sys2Proof.Machine.execAllow fn v be s
  | .set fn v be => Sys2Proof.Machine.execSet fn v be s
  | .shift fn v be => Sys2Proof.Machine.execShift fn v be s
  | .shiftStep => Sys2Proof.Machine.execShiftStep s
  | .calendarSecond => Sys2Proof.Machine.execCalendarSecond s
  | .trimWindowEnd n ok => Sys2Proof.Machine.execTrimWindowEnd n ok s
  | .panelStart => Sys2Proof.Machine.execPanelStart s
  | .biasReady => Sys2Proof.Machine.execBiasReady s
  | .panelStop => Sys2Proof.Machine.execPanelStop s
  | .biasDischarged => Sys2Proof.Machine.execBiasDischarged s
  | .refreshFrame => Sys2Proof.Machine.execRefreshFrame s
  | .pumpFault => Sys2Proof.Machine.execPumpFault s
  | .pumpRestart ok => Sys2Proof.Machine.execPumpRestart ok s
  | .pop fn v be => Sys2Proof.Machine.execPop fn v be s
  | .purge fn v be => Sys2Proof.Machine.execPurge fn v be s
  | .next fn v be => Sys2Proof.Machine.execNext fn v be s
  | .scrub region addr err => Sys2Proof.Machine.execScrub region addr err s
  | .testLogicReset => Sys2Proof.Machine.execTestLogicReset s
  | .samplePreload => Sys2Proof.Machine.execSamplePreload s
  | .bypass => Sys2Proof.Machine.execBypass s
  | .staleTimeout point => Sys2Proof.Machine.execStaleTimeout point s
  | .crystalEdge => Sys2Proof.Machine.execCrystalEdge s
  | .blankInactive b => Sys2Proof.Machine.execBlankInactive b s
  | .excitationLimit ch limited => Sys2Proof.Machine.execExcitationLimit ch limited s
  | .fskCarrierDetect ch on => Sys2Proof.Machine.execFskCarrierDetect ch on s
  | .canBusError n lec dataPhase tec recCount => Sys2Proof.Machine.execCanBusError n lec dataPhase tec recCount s
  | .nvPortLinkUp m speed width drive => Sys2Proof.Machine.execNvPortLinkUp m speed width drive s
  | .tckEdge rising tms tdi => Sys2Proof.Machine.execTckEdge rising tms tdi s
  | .imageOpDone => Sys2Proof.Machine.execImageOpDone s
  | .ucodeStoreDone => Sys2Proof.Machine.execUcodeStoreDone s

end Sys2Proof.Machine
end

