-- ==== Sys2Proof/WellFormed.lean ====
section
/-! DEFINITION. Which commands are well formed: the operands that an access, a frame or a reading can have.
The operand types hold all other bounds. -/

namespace Sys2Proof

/-- The command's operands are ones its sender can give. -/
def wellFormed : Instr → Bool
  -- A ring entry holds 56 bytes after its header (R253).
  | .nop _ e | .substitute _ e | .unsubstitute _ e | .setSetpoint _ e | .setLoopMode _ e | .setManualOutput _ e
  | .alarmAck _ e | .alarmShelve _ e | .alarmUnshelve _ e | .alarmService _ e | .callAck _ e | .subscribe _ e
  | .readPoints _ e | .tableSwap _ e | .tripClear _ e | .fskSend _ e | .canSend _ e | .dataCont _ e
  | .recClearArm _ e | .recClearConfirm _ e | .tuneStart _ e | .tuneStop _ e | .sdlResync _ e
  | .sdlSwitchback _ e => e.operands.length == 56
  -- A request writes a byte at least (R174).
  | .regWrite _ _ d => !d.isEmpty
  -- It lies in the 64 MiB of BAR1.
  | .tableMemoryWrite _ a d | .nvmWindowWrite _ a d | .frameMemoryWrite _ a d | .lcdFrameMemoryWrite _ a d => !d.isEmpty && decide (a.toNat + d.length ≤ 2 ^ 26)
  -- Host addresses have 64 bits.
  | .doorbell _ m _ _ _ | .dlGo _ _ m _ _ => m.all fun x => decide (x.1 < 2 ^ 64)
  -- A CAN FD frame carries at most 64 bytes.
  | .frameReceived _ _ _ _ d _ => decide (d.length ≤ 64)
  -- LENGTH of a Saddle frame has 16 bits (R953).
  | .heartbeat _ d | .sync _ d | .mirror _ d | .commit _ d | .record _ d | .resync _ d | .failed _ d
  | .handover _ d | .taken _ d => decide (d.length < 65536)
  -- A reading has a denominator.
  | .acq _ x y z => x.along.den != 0 && x.lag.den != 0 && y.along.den != 0 && y.lag.den != 0 && z.den != 0
  | .trimWindowEnd x _ => x.den != 0
  -- Entry numbers of the scan table (R349).
  | .scanNop n | .contact n | .pulse n | .position n | .loop n | .out n | .dmaSignal n => decide (n < 32736)
  | .internal n x => decide (n < 32736) && x.den != 0
  -- Cause codes begin at 1 (R1096).
  | .nodeFatal k => k != 0
  -- Guarantee codes begin at 1 (R321).
  | .guaranteeBreachStart _ k | .guaranteeBreachEnd _ k _ => k != 0
  -- The conditions of R512 that persist.
  | .loopFaultSet _ k => decide (k.val < 6)
  -- Records logs 0 to 8, stream logs 16 to 31.
  | .chunkWrite l => decide (l < 9) || (decide (16 ≤ l) && decide (l < 32))
  -- NVMe gives a namespace size in 64 bits.
  | .nvPortLinkUp _ _ w d =>
    decide (d.blocks < 2 ^ 64) && (w.val == 1 || w.val == 2 || w.val == 4)
      && d.data.all fun e => decide (e.1 < d.blocks) && e.2.length == 4096
  -- Every value of the operand types.
  | .modeRequest _ _ _ | .nodeReset _ _ _ | .eraseBank _ _ _ | .commitBank _ _ _ | .imageApply _ _ _
  | .ucodeOpen _ _ _ | .ucodeData _ _ _ | .ucodeApply _ _ _ | .ucodeStore _ _ _ | .ucodeErase _ _ _
  | .domainEnable _ _ _ | .budgetWrite _ _ _ | .ringEnable _ _ _ _ _ | .ringDisable _ _ _ _ _
  | .functionLevelReset _ | .hostReset _ _ | .linkRetrain _ _ | .malformedBar0Read _ _ _ | .upperLatch _ _
  | .calendarLatch _ | .statusPortRead _ | .railLoss _ _ | .railReturn _ | .pinReset | .wakeN
  | .startUp _ _ _ _ _ _ | .leaveGrant | .leaveTimeout _ | .surgeRelease _ | .domainOn _ | .domainOff _
  | .xtalLoss | .xtalReturn | .pllmLoss | .pllmRelock | .pllcLoss | .refLoss | .safeHoldOpen | .frameBoundary
  | .slotBegin _ | .baseTick | .loopEvaluation _ _ | .deadlineMiss _ | .captureTimeout _ | .release _ _ _ _
  | .macLaneSelftest _ _ | .blankActive _ | .blankPostEnd _ | .blankStuck _ | .sentryScan _ _
  | .acqSetupWrite _ _ _ _ _ | .rtd3PhaseChange _ _ | .protectionOpen _ | .protectionEnd _ | .shuntOpen _
  | .shuntReconnectTest _ _ | .iepeBiasCheck _ _ | .rotationPhaseEnd _ | .calibrationEnd _ _ _ _
  | .cellMonitorFail _ _ | .calAged _ | .cmCheck _ _ | .testToneStart _ | .testToneEnd _ _ _
  | .loopModeWrite _ _ _ _ | .cellModeEnter _ | .readbackUpdate _ _ _ _ _ _ | .lnSwitchOpen _
  | .lnReconnectTest _ _ | .overtemp _ _ | .wdHold _ | .wdOpen _ | .force _ _ _ _ | .store _ _ _ _ | .storeDone
  | .buttonPress _ | .buttonRepeat _ _ | .buttonStoreHold | .fskTxStart _ | .fskCarrierTimeout _ | .fskTxEnd _
  | .fskRxEnd _ _ _ | .contactSample _ _ | .pulseEdge _ _ | .gateEnd _ _ | .pulseTimeout _ | .tripCauseRise _
  | .tripCauseFall _ | .armRequest _ _ _ _ | .legDisarm _ _ _ _ | .prechargeEnd _ | .carrierZero _ _
  | .shortDetectorFire _ _ | .blankingEnd _ _ | .legWatchdogExpiry _ | .quadratureEdge _ _ _ | .indexEdge _
  | .accept _ _ | .ack _ _ | .callFrameRepeat | .recordClose _ | .tailPage _ | .otPage | .clearArmExpiry
  | .clearDone | .recordDelivery _ | .holdQueueDrain _ | .msixMessage _ _ | .create _ _ _ | .basinAdmit _ _ _
  | .detach _ _ _ | .replace _ _ _ | .retire _ _ _ | .eraseKey _ _ _ | .nvmeCompletion _ _ | .memberLost _ _
  | .healthLogRead _ _ | .rebuildStrip | .waveformCaptureEnd _ | .dpGo _ _ _ _ | .dpStop _ _ _ _ | .move _
  | .dmaLoop _ | .wait _ | .signal _ | .dmaBurst _ _ | .portRequest _ | .portWithdraw _ _ | .dlStop _ _ _ _
  | .descriptor _ | .dmaHostError _ _ | .completionPulse _ _ | .ownerChange _ _ _ _ | .startOfFrame _
  | .txOutcome _ _ _ | .txTmo _ _ | .protocolException _ | .busOff _ | .recover _ _ _ _ | .recoveryEnd _
  | .canModeWrite _ _ _ _ | .canModeEffect _ | .heartbeatTimer | .saddleRetransmit | .contactLoss
  | .leaseRequestTimer | .leaseRequest _ _ | .leaseGrant _ | .leaseDeny _ | .leaseRelease _ _ | .leaseExpiry
  | .arbiterLeaseEnd | .arbiterHoldoffEnd | .takeoverLegArm | .switchbackTimeout | .resyncStepEnd
  | .allow _ _ _ | .set _ _ _ | .shift _ _ _ | .shiftStep | .calendarSecond | .panelStart | .biasReady
  | .panelStop | .biasDischarged | .refreshFrame | .pumpFault | .pumpRestart _ | .pop _ _ _ | .purge _ _ _
  | .next _ _ _ | .scrub _ _ _ | .testLogicReset | .samplePreload | .bypass | .staleTimeout _ | .crystalEdge
  | .blankInactive _ | .excitationLimit _ _ | .fskCarrierDetect _ _ | .canBusError _ _ _ _ _ | .tckEdge _ _ _
  | .imageOpDone | .ucodeStoreDone => true

end Sys2Proof
end

