-- ==== Sys2Proof/Safety.lean ====
section
/-! DEFINITION. What claims say of a run: the canonical form of the memories, what a command leaves
unchanged, and what a report may touch. -/

namespace Sys2Proof.Machine

/-! ## The canonical form -/

/-- A memory is in canonical form: rising addresses, no entry equal to what an unlisted address reads as. -/
def Memory.wf (d : Nat → Byte) (m : Mem) : Bool := smWf d m

/-- The memories of the node, its register file and its frame memory are canonical. -/
def Chip.wf (c : Chip) : Bool :=
  Memory.wf zeroByte c.hostMem && Memory.wf tblDef c.tables && Memory.wf erasedByte c.nvm
    && smWf regDefault c.regs && smWf ptDef c.points

/-- The invariant of a run: canonical memories, and a queue of commands that can be sent. -/
def State.Inv (s : State) : Prop := s.chip.wf = true ∧ ∀ i ∈ s.pending, wellFormed i = true

/-! ## What a command leaves unchanged -/

/-- The parts of the node. -/
inductive Part where
  | regs | hostMem | tables | nvm | points | ot | pwr | mode | img | fns | seq | rcd | diag | breach | readOut
  | readAbort | free | ana | bank | corr | cells | trim | gate | contacts | pulses | trips | legs | pos | loops
  | evq | tune | rtc | can | alm | call | bsn | dma | sdl | lcd | spt | upd | jtag | strapTest
  deriving DecidableEq, Repr

/-- A part is the same in both. -/
def samePart (c c' : Chip) : Part → Prop
  | .regs => c'.regs = c.regs
  | .hostMem => c'.hostMem = c.hostMem
  | .tables => c'.tables = c.tables
  | .nvm => c'.nvm = c.nvm
  | .points => c'.points = c.points
  | .ot => c'.ot = c.ot
  | .pwr => c'.pwr = c.pwr
  | .mode => c'.mode = c.mode
  | .img => c'.img = c.img
  | .fns => c'.fns = c.fns
  | .seq => c'.seq = c.seq
  | .rcd => c'.rcd = c.rcd
  | .diag => c'.diag = c.diag
  | .breach => c'.breach = c.breach
  | .readOut => c'.readOut = c.readOut
  | .readAbort => c'.readAbort = c.readAbort
  | .free => c'.free = c.free
  | .ana => c'.ana = c.ana
  | .bank => c'.bank = c.bank
  | .corr => c'.corr = c.corr
  | .cells => c'.cells = c.cells
  | .trim => c'.trim = c.trim
  | .gate => c'.gate = c.gate
  | .contacts => c'.contacts = c.contacts
  | .pulses => c'.pulses = c.pulses
  | .trips => c'.trips = c.trips
  | .legs => c'.legs = c.legs
  | .pos => c'.pos = c.pos
  | .loops => c'.loops = c.loops
  | .evq => c'.evq = c.evq
  | .tune => c'.tune = c.tune
  | .rtc => c'.rtc = c.rtc
  | .can => c'.can = c.can
  | .alm => c'.alm = c.alm
  | .call => c'.call = c.call
  | .bsn => c'.bsn = c.bsn
  | .dma => c'.dma = c.dma
  | .sdl => c'.sdl = c.sdl
  | .lcd => c'.lcd = c.lcd
  | .spt => c'.spt = c.spt
  | .upd => c'.upd = c.upd
  | .jtag => c'.jtag = c.jtag
  | .strapTest => c'.strapTest = c.strapTest

/-- Only the parts listed may differ. -/
def onlyParts (ps : List Part) (c c' : Chip) : Prop := ∀ p, p ∉ ps → samePart c c' p

/-- A register reads the same in both. -/
def sameReg (c c' : Chip) (off : Nat) : Prop := reg c' off = reg c off

/-- Every register outside `touched` reads the same. -/
def onlyRegs (touched : Nat → Prop) (c c' : Chip) : Prop := ∀ off, ¬ touched off → sameReg c c' off

/-- The points outside `touched` are the same. -/
def onlyPoints (touched : Nat → Prop) (c c' : Chip) : Prop := ∀ p, ¬ touched p → point c' p = point c p

/-- The command is performed: it answers a next state, the queue stands, and the node is as `P` says. -/
def performs (s : State) (i : Instr) (P : Chip → Prop) : Prop :=
  ∃ t : State, exec i s = .next t ∧ t.pending = s.pending ∧ P t.chip

/-! ## Reports: errors, events, completions and records -/

/-- Registers that reporting writes: the index, state and loss registers of the rings, the counts of the
recorder, of Basin's missed records and of the error FIFO. -/
def reportReg (off : Nat) : Bool :=
  (decide (0x21000 ≤ off) && decide (off < 0x2A000) && (off % 64 == 0x0C || off % 64 == 0x14 || off % 64 == 0x1C))
    || off == 0x180008 || off == 0x18000C || (decide (0x180400 ≤ off) && decide (off < 0x180800))
    || (decide (0x190200 ≤ off) && decide (off < 0x190400) && off % 32 == 0x0C)
    || off == 0x1F0020 || off == 0x1F0048

/-- Address `a` of host memory lies in an enabled node-to-host ring of a function. -/
def inRing (c : Chip) (a : Nat) : Prop :=
  ∃ fn r, fn < 9 ∧ 1 ≤ r ∧ r ≤ 3 ∧ ringEn c fn r = true
    ∧ ringAddr c fn r (entryBytes r) 0 ≤ a ∧ a < ringAddr c fn r (entryBytes r) 0 + ringSize c fn r * entryBytes r

/-- The parts that reporting writes. -/
def reportParts : List Part := [.regs, .hostMem, .fns, .rcd, .diag, .sdl]

/-- `c'` differs from `c` by what reporting writes: entries of the enabled rings, the FIFO and its source
records, the recorder, the records waiting for the twin, and the registers that count them. -/
structure Reports (c c' : Chip) : Prop where
  parts : onlyParts reportParts c c'
  regs : onlyRegs (fun off => reportReg off = true) c c'
  host : ∀ a, ¬ inRing c a → smGet zeroByte c'.hostMem a = smGet zeroByte c.hostMem a
  link : c'.sdl = { c.sdl with recs := c'.sdl.recs }

/-! ## What a command touches -/

/-- The register at an offset. -/
def regAt (a : Nat) : Nat → Bool := fun off => off == a

/-- The registers listed. -/
def regsAt (as : List Nat) : Nat → Bool := fun off => as.contains off

/-- The registers from `lo` up to but not including `hi`. -/
def regIn (lo hi : Nat) : Nat → Bool := fun off => decide (lo ≤ off) && decide (off < hi)

/-- No register. -/
def noReg : Nat → Bool := fun _ => false

/-- `c'` differs from `c` at most in the parts `ps` and in the registers `rs`. -/
structure Touches (ps : List Part) (rs : Nat → Bool) (c c' : Chip) : Prop where
  parts : onlyParts (.regs :: ps) c c'
  regs : onlyRegs (fun off => rs off = true) c c'

/-- `c'` differs from `c` at most in the parts `ps`, in the registers `rs`, and by what reporting writes. -/
structure Changes (ps : List Part) (rs : Nat → Bool) (c c' : Chip) : Prop where
  parts : onlyParts (reportParts ++ ps) c c'
  regs : onlyRegs (fun off => reportReg off = true ∨ rs off = true) c c'
  host : ∀ a, ¬ inRing c a → smGet zeroByte c'.hostMem a = smGet zeroByte c.hostMem a

/-- The physical function: the keeper. -/
def keeper : Fn := 0

/-- Every byte of a write is enabled. -/
def allBytes : BitVec 4 := 15

end Sys2Proof.Machine
end

