-- ==== Sys2Proof/Certificates/Slice0/Obligations.lean ====
section
/-! DEFINITION. The statements for the provers, and the few operations that they name. -/

namespace Sys2Proof.Machine

/-- The bit of PWR_RAIL_STAT of a rail (R87). -/
def railBit : Rail → Nat
  | .vaux => 0
  | .vddCore => 1
  | .vddIo _ _ => 2
  | .vdda => 3
  | .vfield c _ => 4 + c.val
  | .vdrv => 7
  | .vlcd => 8


/-- The command that an entry with an opcode is when it stands alone (R253, R1192). -/
def entryCmd (c : Chip) (fn op : Nat) (e : Entry) : HostCmd :=
  { fn := fn, sq := nodeIdx c fn 0, tag := e.tag.toNat, op := op, bad := cmdEntryBad e, ops := cmdEntryOps e }

/-- The node once the entry at HEAD is fetched and its command begun, which takes one T_CMD of the slot (R256, R257, R334). -/
def fetched (c : Chip) (fn : Nat) : Chip := modFn (fetchStep c fn 1) fn fun f => { f with used := f.used + 1, work := f.work.drop 1 }

/-- The node may begin a command of the function, which takes no more than one T_CMD; the entry is a whole command, it passes
conditions 1 to 7 of R1186, and the mode allows it (R255, R257, R259, R335, R952, R1186, R1192). -/
def accepts (c : Chip) (fn op : Nat) (e : Entry) : Bool :=
  mayBegin c fn && (fnSt c fn).work.headD 0 == 0 && (fnSt c fn).asm.isNone && !cmdEntryMore e && (earlyStatus (fetched c fn) (entryCmd c fn op e)).isNone
    && !(nodeMode (fetched c fn) == mMirror && mirrorForbids op)

/-- The slot of a function has begun, with the work that its next commands take (R256, R335, R337). -/
def inItsSlot (c : Chip) (k : Nat) (work : List Nat) : Chip := { modFn c k fun f => { f with work := work } with seq := { c.seq with
  slot := some k, begun := c.seq.begun ||| 2 ^ k, short := c.seq.short - (if natBit c.seq.short k then 2 ^ k else 0) } }

/-- The frame is accepted in order: the link is up, its CRC and LEN are right, and its SEQ is LAST + 1 (R953, R957). -/
def inOrder (c : Chip) (h : SaddleHdr) (data : List Byte) : Bool :=
  sdlUp c && h.crcOk && sdlLenOk data && seqAhead h.seq.toNat c.sdl.last == 1

/-- A standby with contact that has told its twin its identity and holds no lease, so that nothing promotes it (R984). -/
def calmStandby (c : Chip) : Bool := c.sdl.contact && sdlRole c == 2 && c.sdl.idSent && !leaseHeld c

/-- The receiver took the frame: its LAST and what it knows of the twin follow it (R953, R957). -/
def tookFrame (h : SaddleHdr) (c : Chip) : Bool :=
  c.sdl.last == h.seq.toNat && c.sdl.peer == h.sflags.toNat && c.sdl.heard

/-- No operation on NVM is in progress that a reset would cut off (R168 to R172, R1109). -/
def nvmQuiet (c : Chip) : Bool := c.img.op.isNone && c.upd.op.isNone && c.img.writing.isNone && c.trim.storing.isNone

/-- What NVM holds: its bytes, the programmed and the flagged pages, the recorder's part, the trims, the microcode slots,
the Basin keys, and the spares of R1204. -/
abbrev nvmStands (c t : Chip) : Prop :=
  (nvmQuiet c = true → t.nvm = c.nvm ∧ t.img = { State.reset.chip.img with prog := c.img.prog, flagged := c.img.flagged }
      ∧ t.upd = { State.reset.chip.upd with slots := c.upd.slots } ∧ t.trim = c.trim ∧ t.free = c.free)
    ∧ t.rcd = recNvm c.rcd ∧ t.trim.storing = none
    ∧ t.bsn = { State.reset.chip.bsn with keys := c.bsn.keys, epochs := c.bsn.epochs }
    ∧ (∀ b : Fin 8, bankSt t b.val = { bankDef b.val with retired := (bankSt c b.val).retired, cover := (bankSt c b.val).cover })

/-- No request of domain 0, RTC, waits for leave. -/
def rtcQuiet (c : Chip) : Bool := c.pwr.reqs.all fun r => r.dom != 0

/-- The parts in which a node in a reset other than a cold one may differ from State.reset: what NVM, AON, the RTC block and
the host hold, and the causes of the reset. -/
def resetParts : List Part :=
  [.regs, .hostMem, .nvm, .free, .img, .rcd, .trim, .upd, .bsn, .mode, .bank, .ot, .rtc, .trips, .corr, .jtag, .pwr]

/-- The node `t` in a reset of every block but AON and RTC that found it as `c`, with its causes (R142, R1204): each block is
as after reset, and what NVM, AON and the RTC block hold stands. -/
abbrev inReset (c : Chip) (cause : List Nat) (pccInc : Bool) (t : Chip) : Prop :=
  onlyParts resetParts State.reset.chip t ∧ t.mode = { State.reset.chip.mode with cause := cause, pccInc := pccInc }
    ∧ t.ot = c.ot ∧ t.rtc = c.rtc ∧ t.corr = c.corr ∧ t.jtag = c.jtag ∧ t.hostMem = c.hostMem
    ∧ t.trips = { c.trips with events := [] } ∧ nvmStands c t
    ∧ (rtcQuiet c = true → (∀ n : Fin 30, dom t n.val = if n = 0 then dom c 0 else .off)
        ∧ t.pwr = { State.reset.chip.pwr with
            dom := t.pwr.dom, refused := c.pwr.refused % 2, onCrystal := c.pwr.onCrystal, ioHigh := c.pwr.ioHigh, aon := aonRuns c })
    ∧ fld t 0x18000 0 2 = fld c 0x18000 0 2 ∧ fld t 0x18000 2 30 = fld State.reset.chip 0x18000 2 30
    ∧ onlyRegs (fun off => aonReg off = true ∨ off = 0x10004 ∨ off = 0x18000) State.reset.chip t
    ∧ onlyRegs (fun off => aonReg off = false ∨ off = 0x10000) c t

/-- The causes that wait for the next start once a reset of cause `k` has come: those of a reset that is still in progress,
and this one (R142). -/
def causesWith (c : Chip) (k : List Nat) : List Nat := ((if c.mode.up then [] else c.mode.cause) ++ k).dedup

/-- Registers of the legs. -/
def legReg (off : Nat) : Bool := regIn 0x140100 0x140400 off

/-- No step of a loop-output cell waits for leave. -/
def noStepWaits (c : Chip) : Bool := c.pwr.reqs.all fun r => match r.op with | .bankStep _ => false | _ => true

/-- `Touches` for a command after which waiting requests are granted: a cell whose step begins goes to OPEN then, which ends
its transmission and its force (R495, R529, R543); with no such step waiting they stand. -/
abbrev Grants (ps : List Part) (rs : Nat → Bool) (c t : Chip) : Prop :=
  Changes (.cells :: .points :: ps) (fun off => rs off || regIn 0x100000 0x130000 off) c t
    ∧ (noStepWaits c = true → Touches ps rs c t)

/-- A cell has no force, no FORCED and no transmission, so that going to OPEN changes nothing of it (R529, R543). -/
def cellIdle (c : Chip) (ch : Nat) : Bool :=
  fld c (cellBase ch + 0x24) 0 2 == 0 && !cellFlag c ch 13 && (cell c ch).tx.isNone && !flag c (fskReg ch) 0

/-- No DMA channel runs or keeps anything (R868). -/
def dmaIdle (c : Chip) : Bool :=
  c.dma.dp.isEmpty && c.dma.dl.isEmpty && c.dma.req == 0 && c.dma.drained.isNone
    && (List.range 8).all fun n => fld c (dpStat n) 0 2 == 0 && fld c (dlStat n) 0 2 == 0

/-- The domain is ON or waking. -/
def domUp (c : Chip) (n : Nat) : Bool := domOn c n || dom c n == .waking

/-- No change of a domain's target reaches a leg, the control engine, a cell or a DMA channel: no leg is in PRECHARGE or ARMED,
the CTRL domain is neither ON nor waking, no cell's step waits, and in a loop-output bank or a DMA domain that is ON or waking
everything is idle. -/
def quietDomains (c : Chip) : Bool :=
  ((List.range 12).all fun n => !legUp c n) && !domUp c 23 && noStepWaits c && (!domUp c 27 || dmaIdle c)
    && (List.range 48).all fun ch => !domUp c (cellDom ch) || cellIdle c ch

/-- Parts and registers that a change of targets may reach beside a command's own: legs whose ACT domain begins to turn off have
their gates low (R86, R590), the cells of a bank that begins to turn off are in OPEN (R86, R529, R543), DMA channels stop
(R868), the CTRL domain loses its state (R638, R676), and what `Grants` names. -/
def targetParts : List Part := [.legs, .cells, .points, .loops, .tune, .evq, .tables, .dma]
def targetReg (off : Nat) : Bool :=
  legReg off || regIn 0x100000 0x130000 off || regIn 0x151000 0x155000 off || regIn 0x1A0100 0x1A0600 off

/-- `Touches` for a command that sets the targets of the domains anew. -/
abbrev Retargets (ps : List Part) (rs : Nat → Bool) (c t : Chip) : Prop :=
  Changes (targetParts ++ ps) (fun off => rs off || targetReg off) c t ∧ (quietDomains c = true → Touches ps rs c t)

/-- The same with reports. -/
abbrev RetargetsChanges (ps : List Part) (rs : Nat → Bool) (c t : Chip) : Prop :=
  Changes (targetParts ++ ps) (fun off => rs off || targetReg off) c t ∧ (quietDomains c = true → Changes ps rs c t)

/-- A frame memory entry once its producer has written a word with its flags (R54, R61, R1189). -/
def wrote (e : PtEnt) (word flags : Nat) : PtEnt :=
  { e with
    lastCalc := word, lastOk := if word % 4 ≤ 1 then word else e.lastOk
    live := if e.subst then e.live else word, flags := if e.subst then e.flags else flags % 128, raw := e.subst && e.raw }

/-- The scan table runs and holds entry `i`, of opcode `op` and usable (R341, R349, R351). -/
def inForce (c : Chip) (i op : Nat) : Bool := entriesRun c && decide (i < scanEntries c) && entOp c i == op && !scanBad c i

/-- The state code that a CONTACT entry takes: the earliest change not yet taken with CATCH, else the debounced state (R553, R554). -/
def contactCode (c : Chip) (n : Nat) : Nat :=
  if flag c (diCfg n) 2 then (contactSt c n).later.headD (fld c (diStat n) 0 2) else fld c (diStat n) 0 2

/-- Outputs of a bank may be applied (R129, R503). -/
def outGo (c : Chip) (d : Nat) : Bool := domOn c d && outputsLive c && !c.gate

end Sys2Proof.Machine

open Sys2Proof Sys2Proof.Machine

/-- A step runs the command at the front of the queue with the queue's rest. (95_what_each_step_holds.md, R258) -/
def Obligations.StepRunsFront : Prop :=
  ∀ (s : State) (i : Instr), step { s with pending := i :: s.pending } = exec i s

/-- Every command answers a next state and leaves the queue alone; with no command waiting the block idles (the model's choice, log entry 2). (95_what_each_step_holds.md) -/
def Obligations.EveryCommandAnswersAndTheBlockIdles : Prop :=
  (∀ (s : State) (i : Instr), ∃ t : State, exec i s = .next t ∧ t.pending = s.pending)
    ∧ ∀ s : State, s.pending = [] → step s = .next s

/-- After reset registers of every group hold the defaults of their field tables. (R12, R13, R207) -/
def Obligations.ResetHoldsDefaults : Prop :=
  (∀ x ∈ ([(0x0, 0x47C19100), (0x4, 0x100), (0x10020, 1600), (0x1002C, 20), (0x40004, 40), (0x180004, 0x64000A), (0x1F0024, 0xA0A),
      (0x150004, 15), (0x190004, 0xA00)] : List (Nat × Nat)), reg State.reset.chip x.1 = BitVec.ofNat 32 x.2)
  ∧ (∀ (fn : Fn) (r : Fin 4), reg State.reset.chip (ringBase fn.val r.val + 0x10) = 0xFFFF ∧ ringEn State.reset.chip fn.val r.val = false)
  ∧ (∀ b : Fin 8, reg State.reset.chip (0x80008 + b.val * 0x10000) = 0x14141F40)
  ∧ (∀ ch : Fin 48, reg State.reset.chip (cellBase ch.val + 4) = 0x50140ED8)
  ∧ (∀ n : Fin 12, reg State.reset.chip (legBase n.val + 4) = 0x640A0050)
  ∧ State.reset.chip.mode.req = none ∧ State.reset.pending = []

/-- The state after reset is in canonical form. (05_register_model_map.md, 04_modes_startup_images.md) -/
def Obligations.ResetIsCanonical : Prop :=
  State.Inv State.reset

/-- Every step keeps the host memory, the table memories and the NVM in canonical form. (05_register_model_map.md, 04_modes_startup_images.md, 06_host_rings_doorbells.md) -/
def Obligations.StepKeepsMemories : Prop :=
  ∀ s t : State, step s = .next t → (∀ i ∈ s.pending, wellFormed i = true) →
    Memory.wf zeroByte s.chip.hostMem = true → Memory.wf tblDef s.chip.tables = true → Memory.wf erasedByte s.chip.nvm = true →
      Memory.wf zeroByte t.chip.hostMem = true ∧ Memory.wf tblDef t.chip.tables = true ∧ Memory.wf erasedByte t.chip.nvm = true
        ∧ ∀ i ∈ t.pending, wellFormed i = true

/-- Every step keeps the register file and the points in canonical form. (05_register_model_map.md, 01_node_architecture.md) -/
def Obligations.StepKeepsRegisterFile : Prop :=
  ∀ s t : State, step s = .next t → smWf regDefault s.chip.regs = true → smWf ptDef s.chip.points = true →
    smWf regDefault t.chip.regs = true ∧ smWf ptDef t.chip.points = true

/-- Encoding a value rounds x / 10^e half to even, saturates the mantissa and then sets OVER. (R63, R64, R65) -/
def Obligations.EncodingRoundsHalfToEven : Prop :=
  ∀ (wide : Bool) (x : Rat) (e n : Int) (u q fl : Nat),
    ((-1 < 2 * (x / pow10 e - n) ∧ 2 * (x / pow10 e - n) < 1) ∨ (n % 2 = 0 ∧ (2 * (x / pow10 e - n) = 1 ∨ 2 * (x / pow10 e - n) = -1))) →
    (encodeValue wide x e u q).1 = { mant := max (-mantLim wide) (min (mantLim wide) n), exp := e, unit := u, qual := q }
         ∧ (encodeWord wide x e u q fl).2 = (if n < -mantLim wide ∨ mantLim wide < n then flagOn flOver fl else fl)

/-- A quantity word of either width decodes to the fields that it encodes. (R40, R44) -/
def Obligations.QuantityWordsRoundTrip : Prop :=
  (∀ (m e : Int) (u q : Nat),
     (-2 ^ 19 ≤ m ∧ m < 2 ^ 19) →
     (-8 ≤ e ∧ e < 8) →
     (u < 64 ∧ q < 4) →
     qw32Of (qw32To ⟨m, e, u, q⟩) = ⟨m, e, u, q⟩)
  ∧ (∀ (m e : Int) (u q : Nat),
     (-2 ^ 47 ≤ m ∧ m < 2 ^ 47) →
     (-128 ≤ e ∧ e < 128) →
     (u < 64 ∧ q < 4) →
     qw64Of (qw64To ⟨m, e, u, q⟩) = ⟨m, e, u, q⟩)

/-- A doorbell without bytes 0 and 1, or of a ring that is not enabled, does nothing. (R237, R239) -/
def Obligations.DoorbellIgnored : Prop :=
  ∀ (s : State) (fn : Fn) (mem : List (Nat × Byte)) (r : Fin 4) (v : Word) (be : BitVec 4),
    (be.getLsbD 0 = false ∨ be.getLsbD 1 = false ∨ ringEn s.chip fn.val r.val = false) →
    performs s (.doorbell fn mem r v be) fun t => t = { s.chip with hostMem := mem.foldl (fun m x => memWrite zeroByte m x.1 [x.2]) s.chip.hostMem }

/-- A Saddle frame out of sequence is discarded and counted as a duplicate or a gap. (R958, R959) -/
def Obligations.SaddleSequenceJudged : Prop :=
  (∀ (s : State) (h : SaddleHdr) (data : List Byte),
     (sdlUp s.chip = true ∧ h.crcOk = true ∧ sdlLenOk data = true) →
     (seqAhead h.seq.toNat s.chip.sdl.last = 0 ∨ 2 ^ 31 ≤ seqAhead h.seq.toNat s.chip.sdl.last) →
     ∀ i ∈ [Instr.heartbeat h data, .mirror h data, .commit h data, .record h data, .resync h data, .failed h data, .handover h data, .taken h data],
          performs s i fun t =>
            fld t 0x1C000C 0 16 = satInc 16 (fld s.chip 0x1C000C 0 16) ∧ fld t 0x1C000C 16 16 = fld s.chip 0x1C000C 16 16
              ∧ t.sdl.last = s.chip.sdl.last ∧ t.sdl.peer = s.chip.sdl.peer ∧ t.sdl.gone = s.chip.sdl.gone ∧ t.sdl.rxItems = s.chip.sdl.rxItems
              ∧ t.sdl.ready = s.chip.sdl.ready ∧ t.sdl.lease = s.chip.sdl.lease ∧ t.rcd.image = s.chip.rcd.image
              ∧ Changes [] (regsAt [0x1C000C, sdlEvt]) s.chip t)
  ∧ (∀ (s : State) (h : SaddleHdr) (data : List Byte),
     (sdlUp s.chip = true ∧ h.crcOk = true ∧ sdlLenOk data = true) →
     (1 < seqAhead h.seq.toNat s.chip.sdl.last ∧ seqAhead h.seq.toNat s.chip.sdl.last < 2 ^ 31) →
     ∀ i ∈ [Instr.heartbeat h data, .mirror h data, .commit h data, .record h data, .resync h data, .failed h data, .handover h data, .taken h data],
          performs s i fun t =>
            fld t 0x1C000C 16 16 = satInc 16 (fld s.chip 0x1C000C 16 16) ∧ fld t 0x1C000C 0 16 = fld s.chip 0x1C000C 0 16
              ∧ t.sdl.last = s.chip.sdl.last ∧ t.sdl.peer = s.chip.sdl.peer ∧ t.sdl.gone = s.chip.sdl.gone ∧ t.sdl.rxItems = s.chip.sdl.rxItems
              ∧ t.sdl.ready = s.chip.sdl.ready ∧ t.sdl.lease = s.chip.sdl.lease ∧ t.rcd.image = s.chip.rcd.image
              ∧ Changes [] (regsAt [0x1C000C, sdlEvt]) s.chip t)

/-- A virtual function's access to a register that it does not reach is denied. (R177, R297, R298, R299) -/
def Obligations.VirtualFunctionIsDenied : Prop :=
  (∀ (s : State) (fn : Fn) (off : BitVec 21) (b0 b1 b2 b3 : Option Byte),
     (fn ≠ 0) →
     (off.toNat % 4 = 0) →
     (reachWrite s.chip fn.val off.toNat = false) →
     (∃ b ∈ [b0, b1, b2, b3], b.isSome = true) →
     performs s (.regWrite fn off [b0, b1, b2, b3]) fun t =>
          fld t (0x30100 + (fn.val - 1) * 0x20) 0 16 = satInc 16 (fld s.chip (0x30100 + (fn.val - 1) * 0x20) 0 16)
            ∧ t.diag.fifo ≠ [] ∧ Changes [] (regAt (0x30100 + (fn.val - 1) * 0x20)) s.chip t)
  ∧ (∀ (s : State) (fn : Fn) (off : BitVec 21),
     (off.toNat % 4 = 0) →
     (reachRead s.chip fn.val off.toNat = false) →
     performs s (.upperLatch fn off) fun t => t = { s.chip with readOut := some 0, readAbort := false })
  ∧ (∀ (s : State) (off : BitVec 21) (b0 b1 b2 b3 : Option Byte),
     (off.toNat % 4 = 0) →
     (findReg off.toNat = none) →
     (∃ b ∈ [b0, b1, b2, b3], b.isSome = true) →
     performs s (.regWrite keeper off [b0, b1, b2, b3]) fun t => reg t off.toNat = reg s.chip off.toNat ∧ Changes [] noReg s.chip t)

/-- A host reset changes no mode, output, loop, alarm or record. (R143) -/
def Obligations.HostResetKeepsThePlant : Prop :=
  ∀ (s : State) (speed width : Fin 5),
    performs s (.hostReset speed width) fun t =>
         nodeMode t = nodeMode s.chip ∧ reg t 0x100 = reg s.chip 0x100
           ∧ (∀ p ∈ [Part.mode, .points, .cells, .gate, .trips, .legs, .pos, .loops, .evq, .tune, .alm, .call, .rcd], samePart s.chip t p)
           ∧ ∀ off, 0x100000 ≤ off → off < 0x180000 → reg t off = reg s.chip off

/-- Writes of the domain enables and the budget, and leave granted, refused and released, complete. (R91, R107, R110, R112, R113, R116, R117) -/
def Obligations.PowerWritesAndLeaveComplete : Prop :=
  (∀ (s : State) (v : Word),
     performs s (.domainEnable keeper v allBytes) fun t =>
          fld t 0x10010 0 30 = v.toNat % 2 ^ 30 ∧ Retargets [.pwr] (regAt 0x10010) s.chip t)
  ∧ (∀ (s : State) (v : Word),
     performs s (.budgetWrite keeper v allBytes) fun t =>
          fld t 0x10020 0 11 = min 1600 (v.toNat % 2048) ∧ Grants [.pwr] (regAt 0x10020) s.chip t)
  ∧ (∀ (s : State) (r : LeaveReq),
     (headReq s.chip = some r) →
     (fits s.chip r = true) →
     performs s .leaveGrant fun t =>
          t.pwr.reqs = (s.chip.pwr.reqs.filter fun q => q.op != r.op)
            ∧ (∀ n : Fin 30, r.op = .domain n.val → dom t n.val = .waking)
            ∧ (r.surge ≠ 0 → (⟨r.op, r.dom, r.surge⟩ : Surge) ∈ t.pwr.surges) ∧ Grants [.pwr] noReg s.chip t)
  ∧ (∀ (s : State) (n : Fin 30) (r : LeaveReq),
     ((s.chip.pwr.reqs.find? fun r => r.dom == n.val && r.cls != 1) = some r) →
     (s.chip.mode.req = none) →
     performs s (.leaveTimeout n) fun t =>
          flag t 0x1001C n.val = true ∧ fld t 0x10030 16 16 = satInc 16 (fld s.chip 0x10030 16 16)
            ∧ (r.op = .domain n.val → dom t n.val = .off) ∧ (∀ ch : Fin 48, r.op = .bankStep ch.val → (cell t ch.val).tgt = none)
            ∧ ((∀ ch : Fin 48, r.op ≠ .bankStep ch.val) → r.op = .domain n.val ∨ r.op = .pump →
                Changes [.pwr, .cells, .points] (fun off => regsAt [0x1001C, 0x10030] off || regIn 0x100000 0x130000 off) s.chip t
                  ∧ (noStepWaits s.chip = true → Changes [.pwr] (regsAt [0x1001C, 0x10030]) s.chip t)))
  ∧ (∀ (s : State) (n : Fin 30) (r : LeaveReq) (m : Fin 12),
     ((s.chip.pwr.reqs.find? fun r => r.dom == n.val && r.cls != 1) = some r) →
     (r.op = .domain n.val) →
     (s.chip.mode.req = some m.val) →
     (natBit (forcedOn s.chip m.val) n.val = true) →
     performs s (.leaveTimeout n) fun t =>
          t.mode.req = none ∧ fld t 0x104 8 3 = 5 ∧ flag t 0x1001C n.val = true
            ∧ RetargetsChanges [.pwr, .mode] (regsAt [0x1001C, 0x10030, 0x104]) s.chip t)
  ∧ (∀ (s : State) (n : Fin 30) (x : Surge),
     ((s.chip.pwr.surges.find? fun y => y.dom == n.val) = some x) →
     (s.chip.pwr.reqs = []) →
     performs s (.surgeRelease n) fun t =>
          t.pwr.surges = (s.chip.pwr.surges.eraseP fun y => y.dom == n.val) ∧ x ∈ s.chip.pwr.surges ∧ Touches [.pwr] noReg s.chip t)

/-- A waking domain reaches ON, a turning-off one goes OFF, and a rail's loss and return act as R88's table says. (03_power_clocks_leave.md, 04_modes_startup_images.md, 11_loop_outputs.md, 13_actuator_drive.md) -/
def Obligations.DomainsAndRailsComplete : Prop :=
  (∀ (s : State) (n : Fin 30),
     (dom s.chip n.val = .waking) →
     (((List.range 30).all fun m => !(withDependants m).contains n.val || targetOn s.chip m) = true) →
     (opWaits s.chip (.domain n.val) = false) →
     performs s (.domainOn n) fun t =>
          domOn t n.val = true ∧ ([1, 20, 22, 28, 29].contains n.val = true → Retargets [.pwr] noReg s.chip t))
  ∧ (∀ (s : State) (m : Fin 4),
     (dom s.chip (2 + m.val) = .waking) →
     performs s (.domainOn ⟨2 + m.val, by omega⟩) fun t =>
          natBit t.bsn.perst m.val = false ∧ (∀ k : Fin 4, k ≠ m → natBit t.bsn.perst k.val = natBit s.chip.bsn.perst k.val)
            ∧ t.bsn = { s.chip.bsn with perst := t.bsn.perst } ∧ Retargets [.pwr, .bsn] noReg s.chip t)
  ∧ (∀ (s : State),
     (dom s.chip 26 = .waking) →
     (flag s.chip 0x18000 3 = true) →
     performs s (.domainOn 26) fun t =>
          t.pwr.modulators = true ∧ flag t 0x18000 4 = true ∧ flag t 0x18000 5 = true ∧ flag t 0x18000 6 = false
            ∧ Retargets [.pwr] (regAt 0x18000) s.chip t)
  ∧ (∀ (s : State),
     (dom s.chip 27 = .waking) →
     performs s (.domainOn 27) fun t =>
          (∀ n : Fin 8, dpSt t n.val = dpSt State.reset.chip n.val ∧ dlSt t n.val = dlSt State.reset.chip n.val)
            ∧ onlyRegs (fun off => regIn 0x1A0000 0x1B0000 off = false) State.reset.chip t ∧ Retargets [.pwr, .dma] (regIn 0x1A0000 0x1B0000) s.chip t)
  ∧ (∀ (s : State) (n : Fin 30),
     ((dom s.chip n.val).turning = true) →
     (dependantsOff s.chip n.val = true) →
     (offTurn s.chip n.val = true) →
     (panelQuiet s.chip n.val = true) →
     (targetOn s.chip n.val = false) →
     (opWaits s.chip (.domain n.val) = false) →
     performs s (.domainOff n) fun t =>
          dom t n.val = .off ∧ ([0, 1, 20, 29].contains n.val = true → Retargets [.pwr] noReg s.chip t))
  ∧ (∀ (s : State),
     ((dom s.chip 26).turning = true) →
     (dependantsOff s.chip 26 = true) →
     (offTurn s.chip 26 = true) →
     performs s (.domainOff 26) fun t =>
          t.points = [] ∧ t.pwr.modulators = false ∧ fld t 0x18000 4 2 = 0 ∧ flag t 0x18000 6 = true ∧ Retargets [.pwr, .points] (regAt 0x18000) s.chip t)
  ∧ (∀ (s : State),
     ((dom s.chip 28).turning = true) →
     (dependantsOff s.chip 28 = true) →
     (offTurn s.chip 28 = true) →
     performs s (.domainOff 28) fun t =>
          (∀ fn : Fn, (fnSt t fn.val).hold = [] ∧ (fnSt t fn.val).recQ = [])
            ∧ t.tables = memClear s.chip.tables 0x1400000 0x100000 ∧ t.dma = { s.chip.dma with handoff := [] }
            ∧ Retargets [.pwr, .tables, .fns, .dma] noReg s.chip t)
  ∧ (∀ (s : State),
     ((dom s.chip 22).turning = true) →
     (dependantsOff s.chip 22 = true) →
     (offTurn s.chip 22 = true) →
     performs s (.domainOff 22) fun t => (∀ n : Fin 12, legUp t n.val = false) ∧ Retargets [.pwr, .legs] (regIn 0x140100 0x140400) s.chip t)
  ∧ (∀ (s : State) (m : Fin 4),
     ((dom s.chip (2 + m.val)).turning = true) →
     (dependantsOff s.chip (2 + m.val) = true) →
     (offTurn s.chip (2 + m.val) = true) →
     (bsnServes s.chip = false ∨ natBit (bsnMembers s.chip) m.val = false) →
     performs s (.domainOff ⟨2 + m.val, by omega⟩) fun t =>
          bDrive t m.val = none ∧ fld t (drvStat m.val) 0 3 = 0 ∧ fld t (drvStat m.val) 4 6 = 0 ∧ (∀ k : Fin 4, k ≠ m → bDrive t k.val = bDrive s.chip k.val)
            ∧ Retargets [.pwr, .bsn] (regAt (drvStat m.val)) s.chip t)
  ∧ (∀ (s : State) (reached : Fin 258),
     (flag s.chip 0x10000 0 = true) →
     performs s (.railLoss .vaux reached) fun t =>
          onlyParts [.regs, .hostMem, .nvm, .free, .img, .rcd, .trim, .upd, .bsn, .mode, .bank, .ot, .pwr] State.reset.chip t
            ∧ t.mode = { State.reset.chip.mode with cause := [0], pccInc := true } ∧ t.ot = coldOt s.chip ∧ t.hostMem = s.chip.hostMem
            ∧ nvmStands s.chip t ∧ t.pwr = { State.reset.chip.pwr with ioHigh := s.chip.pwr.ioHigh }
            ∧ flag t 0x10000 0 = false ∧ fld t 0x10000 1 31 = fld s.chip 0x10000 1 31 ∧ reg t 0x114 = reg s.chip 0x114
            ∧ onlyRegs (fun off => nvmReg off = true) State.reset.chip t)
  ∧ (∀ (s : State) (rail : Rail) (reached : Fin 258),
     (railBit rail = 1 ∨ railBit rail = 2 ∨ railBit rail = 3) →
     (flag s.chip 0x10000 (railBit rail) = true) →
     (flag s.chip 0x10000 0 = true ∧ aonRuns s.chip = true) →
     performs s (.railLoss rail reached) fun t =>
          inReset s.chip (causesWith s.chip [1, 8 + railBit rail]) true t
            ∧ flag t 0x10000 (railBit rail) = false ∧ (∀ i : Fin 32, i.val ≠ railBit rail → flag t 0x10000 i.val = flag s.chip 0x10000 i.val)
            ∧ (∀ i : Fin 32, flag t 0x10004 i.val = (decide (i.val = railBit rail) || (decide (1 ≤ i.val ∧ i.val < 4) && flag s.chip 0x10004 i.val))))
  ∧ (∀ (s : State) (rail : Rail) (reached : Fin 258),
     (railBit rail = 1 ∨ railBit rail = 2 ∨ railBit rail = 3) →
     (flag s.chip 0x10000 0 = false ∨ aonRuns s.chip = false) →
     performs s (.railLoss rail reached) fun t => flag t 0x10000 (railBit rail) = false ∧ Touches [] (regAt 0x10000) s.chip t)
  ∧ (∀ (s : State) (n : Fin 3) (high : Bool) (reached : Fin 258),
     (flag s.chip 0x10000 (4 + n.val) = true) →
     (s.chip.mode.up = true) →
     performs s (.railLoss (.vfield n high) reached) fun t =>
          flag t 0x10000 (4 + n.val) = false ∧ flag t 0x10004 (4 + n.val) = true
            ∧ (∀ k : Fin 16, domOn s.chip (cellDom (n.val * 16)) = true → (cell s.chip (n.val * 16 + k.val)).mode = 1 → cellFlag t (n.val * 16 + k.val) lfVfieldLow = true)
            ∧ Changes [.points] (fun off => regsAt [0x10000, 0x10004] off || regIn 0x100000 0x130000 off) s.chip t)
  ∧ (∀ (s : State) (reached : Fin 258),
     (flag s.chip 0x10000 7 = true) →
     (s.chip.mode.up = true) →
     performs s (.railLoss .vdrv reached) fun t =>
          flag t 0x10000 7 = false ∧ flag t 0x10004 7 = true ∧ (∀ k : Fin 12, legUp t k.val = false)
            ∧ (∀ k : Fin 12, legUp s.chip k.val = true → legState t k.val = 0 ∧ fld t (legStat k.val) 8 4 = 2)
            ∧ Changes [.legs] (fun off => regsAt [0x10000, 0x10004] off || regIn 0x140100 0x140400 off) s.chip t)
  ∧ (∀ (s : State) (reached : Fin 258),
     (flag s.chip 0x10000 8 = true) →
     performs s (.railLoss .vlcd reached) fun t =>
          flag t 0x10000 8 = false ∧ (vlcdJudged s.chip = true → flag t 0x10004 8 = true ∧ flag t lcdEvt 0 = true
              ∧ lcdState t = (if lcdState s.chip = 1 ∨ lcdState s.chip = 2 then 4 else lcdState s.chip))
            ∧ (vlcdJudged s.chip = false → Touches [] (regAt 0x10000) s.chip t)
            ∧ Changes [.lcd] (regsAt [0x10000, 0x10004, lcdStat, lcdEvt]) s.chip t)
  ∧ (∀ (s : State) (rail : Rail) (reached : Fin 258),
     (4 ≤ railBit rail ∧ railBit rail < 8) →
     (s.chip.mode.up = false) →
     performs s (.railLoss rail reached) fun t => flag t 0x10000 (railBit rail) = false ∧ Touches [] (regAt 0x10000) s.chip t)
  ∧ (∀ (s : State) (rail : Rail) (reached : Fin 258),
     (flag s.chip 0x10000 (railBit rail) = false) →
     performs s (.railLoss rail reached) fun t => t = s.chip)
  ∧ (∀ (s : State) (rail : Rail),
     (railBit rail ≠ 2) →
     (railBit rail < 4 ∨ 7 ≤ railBit rail) →
     performs s (.railReturn rail) fun t =>
          flag t 0x10000 (railBit rail) = true ∧ (∀ i : Fin 32, i.val ≠ railBit rail → flag t 0x10000 i.val = flag s.chip 0x10000 i.val)
            ∧ Touches [] (regAt 0x10000) s.chip t)
  ∧ (∀ (s : State) (high strap : Bool),
     performs s (.railReturn (.vddIo high strap)) fun t =>
          t.pwr = { s.chip.pwr with ioHigh := high }
            ∧ flag t 0x10000 2 = (flag s.chip 0x10000 2 || high || !(if s.chip.mode.up = true then flag s.chip 0x10000 12 else strap))
            ∧ Touches [.pwr] (regAt 0x10000) s.chip t)
  ∧ (∀ (s : State) (n : Fin 3) (high : Bool),
     performs s (.railReturn (.vfield n high)) fun t =>
          flag t 0x10000 (4 + n.val) = true ∧ (∀ k : Fin 16, cellFlag t (n.val * 16 + k.val) lfVfieldLow = false)
            ∧ Touches [.points] (fun off => regAt 0x10000 off || regIn 0x100000 0x130000 off) s.chip t)

/-- DOMAIN_ON, RAIL_LOSS and RAIL_RETURN answer a next state with the domain ON and the rail's flag as it now is. (R87, R88, R90, R93, R113) -/
def Obligations.RailAndDomainEventsComplete : Prop :=
  (∀ (s : State) (n : Fin 30),
     (dom s.chip n.val = .waking) →
     (((List.range 30).all fun m => !(withDependants m).contains n.val || targetOn s.chip m) = true) →
     (opWaits s.chip (.domain n.val) = false) →
     performs s (.domainOn n) fun t => domOn t n.val = true)
  ∧ (∀ (s : State) (n : Fin 30),
     (dom s.chip n.val ≠ .waking) →
     performs s (.domainOn n) fun t => t = s.chip)
  ∧ (∀ (s : State) (rail : Rail) (reached : Fin 258),
     performs s (.railLoss rail reached) fun t => flag t 0x10000 (railBit rail) = false)
  ∧ (∀ (s : State) (rail : Rail) (reached : Fin 258),
     (flag s.chip 0x10000 0 = true ∧ flag s.chip 0x10000 (railBit rail) = true) →
     (s.chip.mode.up = true) →
     (railBit rail ≠ 0) →
     (railBit rail = 8 → vlcdJudged s.chip = true) →
     performs s (.railLoss rail reached) fun t => flag t 0x10000 (railBit rail) = false ∧ flag t 0x10004 (railBit rail) = true)
  ∧ (∀ (s : State) (rail : Rail),
     (railBit rail ≠ 2) →
     performs s (.railReturn rail) fun t => flag t 0x10000 (railBit rail) = true)
  ∧ (∀ (s : State) (high strap : Bool),
     (high = true ∨ (if s.chip.mode.up = true then flag s.chip 0x10000 12 else strap) = false) →
     performs s (.railReturn (.vddIo high strap)) fun t => flag t 0x10000 2 = true)

/-- The losses and returns of the crystal, the reference and the PLLs complete. (R101, R102, R103, R104, R105, R1178) -/
def Obligations.ClockCommandsComplete : Prop :=
  (∀ (s : State),
     (s.chip.pwr.onCrystal = true) →
     (aonRuns s.chip = true) →
     performs s .xtalLoss fun t =>
          t.pwr = { s.chip.pwr with onCrystal := false } ∧ fld t 0x18000 0 2 = 2 ∧ flag t 0x18004 0 = true ∧ flag t rtcStat 1 = true
            ∧ flag t rtcStat 2 = true ∧ Changes [.pwr] (regsAt [0x18000, 0x18004, rtcStat]) s.chip t)
  ∧ (∀ (s : State),
     (s.chip.pwr.onCrystal = false) →
     (aonRuns s.chip = true) →
     performs s .xtalReturn fun t =>
          t.pwr = { s.chip.pwr with onCrystal := true } ∧ fld t 0x18000 0 2 = 1 ∧ flag t rtcStat 1 = false
            ∧ Changes [.pwr] (regsAt [0x18000, rtcStat]) s.chip t)
  ∧ (∀ (s : State),
     (pllRuns s.chip = true) →
     (flag s.chip 0x18000 5 = true) →
     performs s .pllmLoss fun t =>
          t.pwr = { s.chip.pwr with modulators := false } ∧ flag t 0x18000 5 = false ∧ flag t 0x18004 5 = true
            ∧ fld t 0x18000 0 5 = fld s.chip 0x18000 0 5
            ∧ Changes [.pwr, .ana, .bank, .points] (fun off => off == 0x18000 || off == 0x18004 || regIn 0x80000 0x100000 off) s.chip t
            ∧ ((∀ b : Fin 8, (bankSt s.chip b.val).back = none) →
                Touches [.pwr, .ana, .bank, .points] (fun off => off == 0x18000 || off == 0x18004 || regIn 0x80000 0x100000 off) s.chip t))
  ∧ (∀ (s : State),
     (pllRuns s.chip = true) →
     (flag s.chip 0x18000 5 = false) →
     performs s .pllmRelock fun t =>
          t.pwr = { s.chip.pwr with modulators := true } ∧ flag t 0x18000 5 = true ∧ flag t 0x18000 3 = true
            ∧ fld t 0x18000 0 3 = fld s.chip 0x18000 0 3 ∧ flag t 0x18000 4 = flag s.chip 0x18000 4 ∧ flag t 0x18000 6 = flag s.chip 0x18000 6
            ∧ Touches [.pwr, .ana, .bank] (fun off => off == 0x18000 || regIn 0x80000 0x100000 off) s.chip t)
  ∧ (∀ (s : State),
     (pllRuns s.chip = true) →
     (flag s.chip 0x18000 4 = true) →
     (nodeMode s.chip ≠ mOff ∧ nodeMode s.chip ≠ mHibernate ∧ nodeMode s.chip ≠ mSafeHold) →
     performs s .pllcLoss fun t =>
          nodeMode t = mSafeHold ∧ fld t 0x100 4 4 = nodeMode s.chip ∧ fld t 0x100 8 8 = 6
            ∧ flag t 0x18000 4 = false ∧ flag t 0x18000 6 = true ∧ flag t 0x18004 4 = true)
  ∧ (∀ (s : State),
     (pllRuns s.chip = true) →
     (flag s.chip 0x18000 3 = true) →
     (nodeMode s.chip ≠ mOff ∧ nodeMode s.chip ≠ mHibernate ∧ nodeMode s.chip ≠ mSafeHold) →
     performs s .refLoss fun t =>
          nodeMode t = mSafeHold ∧ fld t 0x100 4 4 = nodeMode s.chip ∧ fld t 0x100 8 8 = 6
            ∧ fld t 0x18000 3 4 = 8 ∧ fld t 0x18004 3 3 = 7 ∧ t.pwr.modulators = false)

/-- A mode request that R140 allows is accepted and waits, a refused one says why, and a node-fatal fault holds the node. (R132, R134, R138, R140, R1096) -/
def Obligations.ModeCommandsComplete : Prop :=
  (∀ (s : State) (m : Fin 12),
     (reqRefusal s.chip m.val = 0) →
     performs s (.modeRequest keeper (BitVec.ofNat 32 (0x80000000 + m.val)) allBytes) fun t =>
          t.mode = { s.chip.mode with req := some m.val } ∧ fld t 0x104 0 4 = m.val ∧ fld t 0x104 8 3 = 1
            ∧ Retargets [.mode, .pwr] (regAt 0x104) s.chip t)
  ∧ (∀ (s : State) (m : Fin 12),
     (reqRefusal s.chip m.val ≠ 0) →
     performs s (.modeRequest keeper (BitVec.ofNat 32 (0x80000000 + m.val)) allBytes) fun t =>
          t.mode = { s.chip.mode with req := none } ∧ fld t 0x104 8 3 = reqRefusal s.chip m.val
            ∧ Retargets [.mode, .pwr] (regAt 0x104) s.chip t)
  ∧ (∀ (s : State),
     (nodeMode s.chip = mSafeHold) →
     (s.chip.sdl.contact = true) →
     (sdlEn s.chip = true) →
     (peerRole s.chip ≠ 3) →
     performs s .safeHoldOpen fun t =>
          t.mode = { s.chip.mode with heldOpen := true } ∧ (∀ ch : Fin 48, fld t (cellBase ch.val + 0x24) 0 2 = 0)
            ∧ Changes [.mode, .cells] (regIn 0x100000 0x130000) s.chip t)
  ∧ (∀ (s : State) (cause : Fin 7),
     (cause ≠ 0) →
     (s.chip.mode.up = true) →
     (nodeMode s.chip ≠ mOff ∧ nodeMode s.chip ≠ mHibernate ∧ nodeMode s.chip ≠ mSafeHold) →
     performs s (.nodeFatal cause) fun t =>
          nodeMode t = mSafeHold ∧ fld t 0x100 4 4 = nodeMode s.chip ∧ fld t 0x100 8 8 = 7 ∧ t.mode.frames = false)
  ∧ (∀ (s : State) (cause : Fin 7),
     (cause ≠ 0) →
     (s.chip.mode.up = false) →
     performs s (.nodeFatal cause) fun t => t = { s.chip with mode := { s.chip.mode with startFault := cause.val } })
  ∧ (∀ (s : State),
     (s.chip.mode.up = true) →
     (nodeMode s.chip = mHibernate ∨ (nodeMode s.chip = mOff ∧ coreRails s.chip = true ∧ s.chip.mode.frames = false)) →
     performs s .wakeN fun t => inReset s.chip [4] false t ∧ reg t 0x10000 = reg s.chip 0x10000)
  ∧ (∀ (s : State),
     (s.chip.mode.up = true) →
     (nodeMode s.chip = mSentry) →
     performs s .wakeN fun t =>
          t.mode = { s.chip.mode with auto := some (fld s.chip 0x100 4 4, 2) } ∧ Retargets [.mode, .pwr] noReg s.chip t)

/-- PIN_RESET and a keeper's NODE_RESET leave the node in reset, with what AON, the RTC block and NVM hold. (04_modes_startup_images.md, 03_power_clocks_leave.md, 01_node_architecture.md) -/
def Obligations.ResetsComplete : Prop :=
  (∀ (s : State),
     performs s .pinReset fun t =>
          inReset s.chip (causesWith s.chip [2]) (!s.chip.mode.up && s.chip.mode.pccInc) t
            ∧ reg t 0x10000 = reg s.chip 0x10000 ∧ fld t 0x10004 1 3 = fld s.chip 0x10004 1 3 ∧ fld t 0x10004 0 1 = 0 ∧ fld t 0x10004 4 28 = 0)
  ∧ (∀ (s : State) (v : Word) (be : BitVec 4),
     (v.toNat % 65536 = 0x4E52) →
     (be.getLsbD 0 = true ∧ be.getLsbD 1 = true) →
     performs s (.nodeReset keeper v be) fun t =>
          inReset s.chip (causesWith s.chip [3]) (!s.chip.mode.up && s.chip.mode.pccInc) t
            ∧ reg t 0x10000 = reg s.chip 0x10000 ∧ fld t 0x10004 1 3 = fld s.chip 0x10004 1 3 ∧ fld t 0x10004 0 1 = 0 ∧ fld t 0x10004 4 28 = 0)
  ∧ (∀ (s : State) (v : Word) (be : BitVec 4),
     (v.toNat % 65536 ≠ 0x4E52 ∨ be.getLsbD 0 = false ∨ be.getLsbD 1 = false) →
     performs s (.nodeReset keeper v be) fun t => Touches [] (regAt 0x10C) s.chip t)
  ∧ (∀ (s : State) (fn : Fn) (v : Word) (be : BitVec 4),
     (fn ≠ 0) →
     performs s (.nodeReset fn v be) fun t => t.mode = s.chip.mode ∧ Changes [] (regAt (0x30100 + (fn.val - 1) * 0x20)) s.chip t)
  ∧ (∀ (s : State),
     (dom s.chip 0 = .waiting) →
     (s.chip.pwr.reqs = [domReq 0]) →
     performs s .pinReset fun t => dom t 0 = .waking ∧ t.pwr.reqs = [])

/-- Start-up with everything good ends with frames about to run in the start mode, and a clock failure in SAFE_HOLD. (R144, R147, R149, R1182) -/
def Obligations.StartUpCompletes : Prop :=
  (∀ (s : State) (ioLevel : Bool),
     (s.chip.mode.up = false) →
     (s.chip.strapTest = false) →
     (coreRails s.chip = true ∧ ioPasses s.chip.pwr.ioHigh ioLevel = true) →
     (s.chip.mode.startFault = 0) →
     (s.chip.pwr.reqs = []) →
     performs s (.startUp true true true true ioLevel false) fun t =>
          t.mode.up = true ∧ t.mode.frames = true ∧ t.mode.firstFrame = true ∧ t.mode.cause = [] ∧ t.mode.auto = some (fld t 0x108 0 4, 0)
            ∧ (([3, 4, 5, 7] : List Nat).contains (fld t 0x108 0 4) = true → domOn t 26 = true ∧ domOn t 28 = true ∧ domOn t 29 = true)
            ∧ fld t 0x18000 3 3 = 7 ∧ flag t 0x10000 12 = ioLevel
            ∧ fld t 0x114 0 24 = (fld s.chip 0x114 0 24 + b2n s.chip.mode.pccInc) % 2 ^ 24 ∧ t.nvm = s.chip.nvm
            ∧ ∀ b : Fin 8, flag t (rotStat b.val) 13 = natBit (bankSt s.chip b.val).retired 16)
  ∧ (∀ (s : State) (pllOk sramOk gateOk ioLevel : Bool),
     (s.chip.mode.up = false) →
     (s.chip.strapTest = false) →
     (coreRails s.chip = true ∧ ioPasses s.chip.pwr.ioHigh ioLevel = true) →
     performs s (.startUp false pllOk sramOk gateOk ioLevel false) fun t =>
          t.mode.up = true ∧ nodeMode t = mSafeHold ∧ fld t 0x100 4 4 = 3 ∧ fld t 0x100 8 8 = 6 ∧ fld t 0x18004 3 3 = 7 ∧ t.nvm = s.chip.nvm)
  ∧ (∀ (s : State) (gateOk ioLevel : Bool),
     (s.chip.mode.up = false) →
     (s.chip.strapTest = false) →
     (coreRails s.chip = true ∧ ioPasses s.chip.pwr.ioHigh ioLevel = true) →
     (s.chip.mode.startFault = 0) →
     performs s (.startUp true true false gateOk ioLevel false) fun t =>
          t.mode.up = true ∧ nodeMode t = mSafeHold ∧ fld t 0x100 4 4 = 3 ∧ fld t 0x100 8 8 = 7 ∧ t.nvm = s.chip.nvm)
  ∧ (∀ (s : State) (refOk pllOk sramOk gateOk ioLevel strapTest : Bool),
     (s.chip.mode.up = true ∨ s.chip.strapTest = true ∨ coreRails s.chip = false ∨ ioPasses s.chip.pwr.ioHigh ioLevel = false) →
     performs s (.startUp refOk pllOk sramOk gateOk ioLevel strapTest) fun t => t = s.chip)

/-- NOP, the substitutions, the loop commands and TRIP_CLEAR complete. (R265, R572, R634, R635, R643, R1187, R1189, R1190) -/
def Obligations.PointAndLoopCommandsComplete : Prop :=
  (∀ (s : State) (fn : Fn) (e : Entry),
     (accepts s.chip fn.val 0x00 e = true) →
     performs s (.nop fn e) fun t =>
          t = done (fetched s.chip fn.val) (entryCmd s.chip fn.val 0x00 e) stSuccess 0 ∧ Changes [] noReg s.chip t)
  ∧ (∀ (s : State) (fn : Fn) (e : Entry) (p : Nat),
     (accepts s.chip fn.val 0x01 e = true) →
     (p = (entryCmd s.chip fn.val 0x01 e).point) →
     (pClass p ≠ 8) →
     (wordStatus (entryCmd s.chip fn.val 0x01 e) ((pointUnit (fetched s.chip fn.val) p).map Prod.fst) = none) →
     performs s (.substitute fn e) fun t =>
          t = done (substitute (fetched s.chip fn.val) p ((entryCmd s.chip fn.val 0x01 e).at_ 0x0C 4)) (entryCmd s.chip fn.val 0x01 e) stSuccess 0
            ∧ (point t p).subst = true ∧ natBit (point t p).flags 2 = true ∧ (point t p).lastCalc = (point s.chip p).lastCalc
            ∧ onlyPoints (· = p) s.chip t ∧ Changes [.points, .cells, .legs] noReg s.chip t)
  ∧ (∀ (s : State) (fn : Fn) (e : Entry) (p : Nat),
     (accepts s.chip fn.val 0x02 e = true) →
     (p = (entryCmd s.chip fn.val 0x02 e).point) →
     (pClass p ≠ 8) →
     ((point s.chip p).subst = true) →
     performs s (.unsubstitute fn e) fun t =>
          t = done (setPoint (fetched s.chip fn.val) p { point s.chip p with subst := false, raw := false }) (entryCmd s.chip fn.val 0x02 e) stSuccess 0
            ∧ (point t p).subst = false ∧ (point t p).live = (point s.chip p).live ∧ (point t p).flags = (point s.chip p).flags
            ∧ onlyPoints (· = p) s.chip t ∧ Changes [.points] noReg s.chip t)
  ∧ (∀ (s : State) (fn : Fn) (e : Entry) (l w : Nat),
     (accepts s.chip fn.val 0x03 e = true) →
     (l = pIndex (entryCmd s.chip fn.val 0x03 e).point) →
     (w = (entryCmd s.chip fn.val 0x03 e).at_ 0x0C 4) →
     (spSrc s.chip l = 1) →
     (wordStatus (entryCmd s.chip fn.val 0x03 e) (some (qw32Of (spConst s.chip l)).unit) = none) →
     performs s (.setSetpoint fn e) fun t =>
          t = done (setSetpoint (fetched s.chip fn.val) l w) (entryCmd s.chip fn.val 0x03 e) stSuccess 0 ∧ reg t (loopBase l + 0x18) = BitVec.ofNat 32 (encodeWord false (qwValue (qw32Of w)) (qw32Of (spConst s.chip l)).exp
              (qw32Of w).unit (qw32Of w).qual 0).1
            ∧ Changes [] (regAt (loopBase l + 0x18)) s.chip t)
  ∧ (∀ (s : State) (fn : Fn) (e : Entry) (l m : Nat),
     (accepts s.chip fn.val 0x04 e = true) →
     (l = pIndex (entryCmd s.chip fn.val 0x04 e).point) →
     (m = (entryCmd s.chip fn.val 0x04 e).at_ 0x0B 1) →
     (setLoopModeStatus s.chip l m = (stSuccess, 0)) →
     performs s (.setLoopMode fn e) fun t =>
          t = done (setLoopMode (fetched s.chip fn.val) l m) (entryCmd s.chip fn.val 0x04 e) stSuccess 0 ∧ b2n (loopAuto t l) = m ∧ (m = 0 → reg t (loopBase l + 0x1C) = BitVec.ofNat 32 (loopSt s.chip l).word)
            ∧ (m = 1 → (loopSt t l).xfer = true)
            ∧ Changes [.loops, .tune] (regsAt [loopBase l, loopBase l + 0x1C]) s.chip t)
  ∧ (∀ (s : State) (fn : Fn) (e : Entry) (l w : Nat),
     (accepts s.chip fn.val 0x05 e = true) →
     (l = pIndex (entryCmd s.chip fn.val 0x05 e).point) →
     (w = (entryCmd s.chip fn.val 0x05 e).at_ 0x0C 4) →
     (loopAuto s.chip l = false) →
     (wordStatus (entryCmd s.chip fn.val 0x05 e) (some (outUnit s.chip l)) = none) →
     performs s (.setManualOutput fn e) fun t =>
          t = done (setManualOutput (fetched s.chip fn.val) l w) (entryCmd s.chip fn.val 0x05 e) stSuccess 0 ∧ reg t (loopBase l + 0x1C) = BitVec.ofNat 32 (encodeWord false (qwValue (qw32Of w)) (outExp s.chip l)
              (qw32Of w).unit (qw32Of w).qual 0).1
            ∧ Changes [] (regAt (loopBase l + 0x1C)) s.chip t)
  ∧ (∀ (s : State) (fn : Fn) (e : Entry) (j : Nat),
     (accepts s.chip fn.val 0x1A e = true) →
     (j = pIndex (entryCmd s.chip fn.val 0x1A e).point) →
     (tripCode s.chip j = 2) →
     performs s (.tripClear fn e) fun t =>
          tripCode t j = 0 ∧ (∀ k : Fin 32, k.val ≠ j → tripCode t k.val = tripCode s.chip k.val)
            ∧ t = done (setTripCode (fetched s.chip fn.val) j 0) (entryCmd s.chip fn.val 0x1A e) stSuccess 0 ∧ Changes [.trips] noReg s.chip t)

/-- The alarm commands, CALL_ACK, SUBSCRIBE and READ_POINTS complete. (R699, R701, R706, R742, R1193, R1194) -/
def Obligations.AlarmCallAndValueCommandsComplete : Prop :=
  (∀ (s : State) (fn : Fn) (e : Entry) (k : HostCmd),
     (accepts s.chip fn.val 0x08 e = true) →
     (k = entryCmd s.chip fn.val 0x08 e) →
     (almStatus s.chip 0 k.point = stSuccess) →
     performs s (.alarmAck fn e) fun t =>
          t.alm.cmds = s.chip.alm.cmds ++ [{ fn := fn.val, sq := k.sq, tag := k.tag, op := 0, point := k.point, arg := k.at_ 0x0B 1 }]
            ∧ (⟨k.sq, k.tag, .alarm k.point, false⟩ : InFlight) ∈ (fnSt t fn.val).inflight ∧ Changes [.alm] noReg s.chip t)
  ∧ (∀ (s : State) (fn : Fn) (e : Entry) (k : HostCmd),
     (accepts s.chip fn.val 0x09 e = true) →
     (k = entryCmd s.chip fn.val 0x09 e) →
     (almStatus s.chip 1 k.point = stSuccess) →
     performs s (.alarmShelve fn e) fun t =>
          t.alm.cmds = s.chip.alm.cmds ++ [{ fn := fn.val, sq := k.sq, tag := k.tag, op := 1, point := k.point, arg := k.at_ 0x0C 4 }]
            ∧ (⟨k.sq, k.tag, .alarm k.point, false⟩ : InFlight) ∈ (fnSt t fn.val).inflight ∧ Changes [.alm] noReg s.chip t)
  ∧ (∀ (s : State) (fn : Fn) (e : Entry) (k : HostCmd),
     (accepts s.chip fn.val 0x0A e = true) →
     (k = entryCmd s.chip fn.val 0x0A e) →
     (almStatus s.chip 2 k.point = stSuccess) →
     performs s (.alarmUnshelve fn e) fun t =>
          t.alm.cmds = s.chip.alm.cmds ++ [{ fn := fn.val, sq := k.sq, tag := k.tag, op := 2, point := k.point, arg := k.at_ 0x0B 1 }]
            ∧ (⟨k.sq, k.tag, .alarm k.point, false⟩ : InFlight) ∈ (fnSt t fn.val).inflight ∧ Changes [.alm] noReg s.chip t)
  ∧ (∀ (s : State) (fn : Fn) (e : Entry) (k : HostCmd),
     (accepts s.chip fn.val 0x0B e = true) →
     (k = entryCmd s.chip fn.val 0x0B e) →
     (almStatus s.chip 3 k.point = stSuccess) →
     performs s (.alarmService fn e) fun t =>
          t.alm.cmds = s.chip.alm.cmds ++ [{ fn := fn.val, sq := k.sq, tag := k.tag, op := 3, point := k.point, arg := k.at_ 0x0B 1 }]
            ∧ (⟨k.sq, k.tag, .alarm k.point, false⟩ : InFlight) ∈ (fnSt t fn.val).inflight ∧ Changes [.alm] noReg s.chip t)
  ∧ (∀ (s : State) (fn : Fn) (e : Entry) (k : HostCmd),
     (accepts s.chip fn.val 0x0C e = true) →
     (k = entryCmd s.chip fn.val 0x0C e) →
     (callAckStatus s.chip (k.at_ 0x0B 1) = stSuccess) →
     performs s (.callAck fn e) fun t =>
          t.call.accs = s.chip.call.accs ++ [{ entry := k.at_ 0x0B 1, cmd := some (fn.val, k.sq, k.tag) }]
            ∧ (⟨k.sq, k.tag, .callAck (k.at_ 8 4), false⟩ : InFlight) ∈ (fnSt t fn.val).inflight ∧ Changes [.call] noReg s.chip t)
  ∧ (∀ (s : State) (fn : Fn) (e : Entry) (k : HostCmd),
     (accepts s.chip fn.val 0x10 e = true) →
     (k = entryCmd s.chip fn.val 0x10 e) →
     performs s (.subscribe fn e) fun t =>
          smGet subDef (fnSt t fn.val).subs (k.at_ 8 1) = (if k.at_ 0x0A 2 = 0 then none
              else match smGet subDef (fnSt s.chip fn.val).subs (k.at_ 8 1) with
                | some o => if o.period = k.at_ 0x0A 2 ∧ o.points = itemPoints k then some o else some ⟨k.at_ 0x0A 2, itemPoints k, 0⟩
                | none => some ⟨k.at_ 0x0A 2, itemPoints k, 0⟩)
            ∧ (∀ q : Fin 16, q.val ≠ k.at_ 8 1 → smGet subDef (fnSt t fn.val).subs q.val = smGet subDef (fnSt s.chip fn.val).subs q.val)
            ∧ Changes [] noReg s.chip t)
  ∧ (∀ (s : State) (fn : Fn) (e : Entry) (k : HostCmd),
     (accepts s.chip fn.val 0x11 e = true) →
     (k = entryCmd s.chip fn.val 0x11 e) →
     performs s (.readPoints fn e) fun t =>
          (fnSt t fn.val).reads = (fnSt s.chip fn.val).reads ++ [itemPoints k] ∧ (fnSt t fn.val).subs = (fnSt s.chip fn.val).subs
            ∧ Changes [] noReg s.chip t)

/-- TABLE_SWAP, FSK_SEND, CAN_SEND and DATA_CONT complete. (R213, R214, R541, R924, R1192) -/
def Obligations.SwapAndSendingCommandsComplete : Prop :=
  (∀ (s : State) (fn : Fn) (e : Entry) (k : HostCmd) (d : TableDesc),
     (accepts s.chip fn.val 0x18 e = true) →
     (k = entryCmd s.chip fn.val 0x18 e) →
     (tableDesc (k.at_ 8 1) = some d) →
     (flag s.chip d.stat 1 = false) →
     (swapError (fetched s.chip fn.val) d.code = none) →
     performs s (.tableSwap fn e) fun t =>
          flag t d.stat 1 = true ∧ fld t d.stat 0 1 = fld s.chip d.stat 0 1 ∧ t.tables = s.chip.tables
            ∧ (⟨k.sq, k.tag, .tableSwap d.code, false⟩ : InFlight) ∈ (fnSt t fn.val).inflight ∧ Changes [] (regAt d.stat) s.chip t)
  ∧ (∀ (s : State) (fn : Fn) (e : Entry) (k : HostCmd) (ch : Nat),
     (accepts s.chip fn.val 0x1C e = true) →
     (k = entryCmd s.chip fn.val 0x1C e) →
     (ch = pIndex k.point) →
     (fskStatus s.chip ch = stSuccess) →
     performs s (.fskSend fn e) fun t =>
          (cell t ch).tx = some { fn := fn.val, data := (k.ops.drop 4).take (k.at_ 0x0B 1), sending := false, line := [] }
            ∧ (∀ j : Fin 48, j.val ≠ ch → cell t j.val = cell s.chip j.val)
            ∧ (⟨k.sq, k.tag, .fsk ch, false⟩ : InFlight) ∈ (fnSt t fn.val).inflight ∧ Changes [.cells] noReg s.chip t)
  ∧ (∀ (s : State) (fn : Fn) (e : Entry) (k : HostCmd) (f : CanCmd),
     (accepts s.chip fn.val 0x1D e = true) →
     (k = entryCmd s.chip fn.val 0x1D e) →
     (f = canCmdOf k.ops) →
     (canSendStatus s.chip fn.val k.ops false = stSuccess) →
     performs s (.canSend fn e) fun t =>
          canBuf t f.ctrl f.buf = some { onBus := false, fmt := f.fmt, ident := f.ident, dlc := f.dlc, data := f.data.take (canLen f.fmt f.dlc), fn := fn.val, tmo := false, drop := false }
            ∧ (∀ (n : Fin 8) (b : Fin 3), (n.val, b.val) ≠ (f.ctrl, f.buf) → canBuf t n.val b.val = canBuf s.chip n.val b.val)
            ∧ (⟨k.sq, k.tag, .can f.ctrl f.buf, false⟩ : InFlight) ∈ (fnSt t fn.val).inflight ∧ Changes [.can] noReg s.chip t)
  ∧ (∀ (s : State) (fn : Fn) (e : Entry) (a : Nat × Nat × Nat × List Byte),
     (mayBegin s.chip fn.val = true) →
     ((fnSt s.chip fn.val).asm = some a) →
     (cmdEntryMore e = true) →
     (cmdEntryBad e = false) →
     performs s (.dataCont fn e) fun t =>
          (fnSt t fn.val).asm = some (a.1, a.2.1, a.2.2.1 % 256 + 256 * b2n (decide (256 ≤ a.2.2.1)), a.2.2.2 ++ cmdEntryOps e)
            ∧ Changes [] noReg s.chip t)
  ∧ (∀ (s : State) (fn : Fn) (e : Entry) (a : Nat × Nat × Nat × List Byte) (k : HostCmd),
     (mayBegin s.chip fn.val = true) →
     ((fnSt s.chip fn.val).asm = some a) →
     (cmdEntryMore e = false) →
     (cmdEntryBad e = false) →
     (a.2.2.1 = 0x1C) →
     (k = ⟨fn.val, a.1, a.2.1, 0x1C, false, a.2.2.2 ++ cmdEntryOps e, false⟩) →
     ((fnSt s.chip fn.val).work.headD 0 = 0) →
     (earlyStatus (fetched s.chip fn.val) k = none) →
     (fskStatus s.chip (pIndex k.point) = stSuccess) →
     performs s (.dataCont fn e) fun t =>
          (fnSt t fn.val).asm = none
            ∧ (cell t (pIndex k.point)).tx = some { fn := fn.val, data := (k.ops.drop 4).take (k.at_ 0x0B 1), sending := false, line := [] }
            ∧ (⟨k.sq, k.tag, .fsk (pIndex k.point), false⟩ : InFlight) ∈ (fnSt t fn.val).inflight ∧ Changes [.cells] noReg s.chip t)

/-- The recorder clear, the tuning commands, SDL_RESYNC and SDL_SWITCHBACK complete. (R662, R674, R675, R809, R811, R1001, R1003) -/
def Obligations.KeeperAndTuningCommandsComplete : Prop :=
  (∀ (s : State) (fn : Fn) (e : Entry),
     (accepts s.chip fn.val 0x20 e = true) →
     performs s (.recClearArm fn e) fun t =>
          t.rcd = { s.chip.rcd with armed := (if clearCodeBad s.chip ((entryCmd s.chip fn.val 0x20 e).at_ 8 4) then none else some (s.chip.ot + 10240, frameNum s.chip)) }
            ∧ flag t recStat 1 = !clearCodeBad s.chip ((entryCmd s.chip fn.val 0x20 e).at_ 8 4) ∧ Changes [] (regAt recStat) s.chip t)
  ∧ (∀ (s : State) (fn : Fn) (e : Entry),
     (accepts s.chip fn.val 0x21 e = true) →
     (clearConfirmed s.chip ((entryCmd s.chip fn.val 0x21 e).at_ 8 4) = true) →
     performs s (.recClearConfirm fn e) fun t =>
          t.rcd.image = [] ∧ t.rcd.ring = [] ∧ t.rcd.tail = [] ∧ t.rcd.opens = [] ∧ t.rcd.armed = none ∧ t.rcd.intent.isSome = true
            ∧ flag t recStat 1 = false ∧ flag t recStat 2 = true
            ∧ (⟨nodeIdx s.chip fn.val 0, e.tag.toNat, .recClear, false⟩ : InFlight) ∈ (fnSt t fn.val).inflight ∧ Changes [] (regAt recStat) s.chip t)
  ∧ (∀ (s : State) (fn : Fn) (e : Entry) (k : HostCmd),
     (accepts s.chip fn.val 0x24 e = true) →
     (k = entryCmd s.chip fn.val 0x24 e) →
     (tuneStatus s.chip (pIndex k.point) (tuneCfg k) = (stSuccess, 0)) →
     performs s (.tuneStart fn e) fun t =>
          tuneState t (cfgField (tuneCfg k) 0 1) = 1 ∧ (tuneSt t (cfgField (tuneCfg k) 0 1)).cfg = tuneCfg k
            ∧ fld t (tuneBase (cfgField (tuneCfg k) 0 1)) 8 7 = pIndex k.point
            ∧ Changes [.tune, .tables] (regIn (tuneBase (cfgField (tuneCfg k) 0 1)) (tuneBase (cfgField (tuneCfg k) 0 1) + 0x20)) s.chip t)
  ∧ (∀ (s : State) (fn : Fn) (e : Entry) (l : Nat),
     (accepts s.chip fn.val 0x25 e = true) →
     (l = pIndex (entryCmd s.chip fn.val 0x25 e).point) →
     performs s (.tuneStop fn e) fun t =>
          (∀ b : Fin 4, (tuneState s.chip b.val = 1 ∨ tuneState s.chip b.val = 2) → tuneLoop s.chip b.val = l → tuneState t b.val = 3 ∧ fld t (tuneBase b.val) 2 3 = 2)
            ∧ (∀ b : Fin 4, tuneLoop s.chip b.val ≠ l → reg t (tuneBase b.val) = reg s.chip (tuneBase b.val))
            ∧ Changes [] (regsAt [tuneBase 0, tuneBase 1, tuneBase 2, tuneBase 3]) s.chip t)
  ∧ (∀ (s : State) (fn : Fn) (e : Entry),
     (accepts s.chip fn.val 0x30 e = true) →
     (sdlRole s.chip = 2 ∧ s.chip.sdl.contact = true ∧ peerRole s.chip = 1) →
     (s.chip.sdl.sync ≠ 1 ∧ s.chip.sdl.sync ≠ 2) →
     performs s (.sdlResync fn e) fun t =>
          t.sdl.sync = 1 ∧ fld t 0x1C001C 4 4 = 1 ∧ t.sdl.tables = []
            ∧ t = done (beginResync (fetched s.chip fn.val)) (entryCmd s.chip fn.val 0x30 e) stSuccess 0 ∧ Changes [] (regsAt [0x1C001C, sdlEvt]) s.chip t)
  ∧ (∀ (s : State) (fn : Fn) (e : Entry),
     (accepts s.chip fn.val 0x31 e = true) →
     (switchbackStatus s.chip = none) →
     performs s (.sdlSwitchback fn e) fun t =>
          t.sdl = { s.chip.sdl with swb := 1 }
            ∧ (⟨nodeIdx s.chip fn.val 0, e.tag.toNat, .switchback, false⟩ : InFlight) ∈ (fnSt t fn.val).inflight ∧ Changes [] noReg s.chip t)

/-- A ring's enabling and disabling, a doorbell and a message complete. (R234, R235, R236, R237, R238, R245, R282) -/
def Obligations.RingCommandsComplete : Prop :=
  (∀ (s : State) (fn page : Fn) (r : Fin 4) (v : Word),
     (fn = 0 ∨ fn = page) →
     (ringEn s.chip page.val r.val = false) →
     (natBit v.toNat 8 = true) →
     (log2Ok r.val (v.toNat % 16) = true) →
     performs s (.ringEnable fn page r v allBytes) fun t =>
          ringEn t page.val r.val = true ∧ ringLog2 t page.val r.val = v.toNat % 16 ∧ fld t (ringBase page.val r.val + 8) 16 16 = v.toNat / 65536
            ∧ (flag s.chip (ringBase page.val r.val + 0x14) 0 = false →
                nodeIdx t page.val r.val = 0 ∧ hostIdx t page.val r.val = 0
                  ∧ Touches [] (regsAt [ringBase page.val r.val + 8, ringBase page.val r.val + 0xC]) s.chip t))
  ∧ (∀ (s : State) (fn page : Fn) (r : Fin 4) (v : Word),
     (fn = 0 ∨ fn = page) →
     (ringEn s.chip page.val r.val = false) →
     (natBit v.toNat 8 = true) →
     (log2Ok r.val (v.toNat % 16) = false) →
     performs s (.ringEnable fn page r v allBytes) fun t =>
          ringEn t page.val r.val = false ∧ (natBit (fnSt t page.val).msg 3 = true ∨ flag t (msixPba page.val) 3 = true)
            ∧ Touches [.fns] (regsAt [ringBase page.val r.val + 8, msixPba page.val]) s.chip t)
  ∧ (∀ (s : State) (fn page : Fn) (r : Fin 4) (v : Word) (be : BitVec 4),
     (fn = 0 ∨ fn = page) →
     (ringEn s.chip page.val r.val = true) →
     (be.getLsbD 1 = true) →
     (natBit v.toNat 8 = false) →
     performs s (.ringDisable fn page r v be) fun t =>
          ringEn t page.val r.val = false ∧ ringLog2 t page.val r.val = ringLog2 s.chip page.val r.val
            ∧ (r = 2 → (fnSt t page.val).hold = []) ∧ (r = 3 → (fnSt t page.val).recQ = [])
            ∧ Changes [] (regAt (ringBase page.val r.val + 8)) s.chip t)
  ∧ (∀ (s : State) (fn : Fn) (mem : List (Nat × Byte)) (r : Fin 4) (v : Word) (be : BitVec 4) (d a : Nat),
     (be.getLsbD 0 = true ∧ be.getLsbD 1 = true) →
     (ringEn s.chip fn.val r.val = true) →
     (d = (v.toNat % 65536 + 65536 - hostIdx s.chip fn.val r.val) % 65536) →
     (0 < d ∧ d < 32768) →
     (a = (v.toNat % 65536 + 65536 - (if r = 0 then nodeIdx s.chip fn.val 0 else hostIdx s.chip fn.val r.val)) % 65536) →
     (a ≤ (if r = 0 then ringSize s.chip fn.val 0 else ringOcc s.chip fn.val r.val)) →
     performs s (.doorbell fn mem r v be) fun t =>
          hostIdx t fn.val r.val = v.toNat % 65536 ∧ Changes [] noReg (hostStores s.chip mem) t)
  ∧ (∀ (s : State) (fn : Fn) (vec : Fin 4),
     (vec.val < 3) →
     (flag s.chip (ringBase fn.val (vec.val + 1) + 8) 9 = true) →
     (natBit (fnSt s.chip fn.val).unsig vec.val = true) →
     performs s (.msixMessage fn vec) fun t =>
          natBit (fnSt t fn.val).unsig vec.val = false
            ∧ (flag s.chip (msixCtl fn.val vec.val) 0 = false → natBit (fnSt t fn.val).msg vec.val = true ∧ t.regs = s.chip.regs)
            ∧ (flag s.chip (msixCtl fn.val vec.val) 0 = true → flag t (msixPba fn.val) vec.val = true ∧ (fnSt t fn.val).msg = (fnSt s.chip fn.val).msg)
            ∧ Touches [.fns] (regAt (msixPba fn.val)) s.chip t)

/-- A function-level reset, a host reset and a training of the link complete. (R142, R143, R278, R279, R878, R906) -/
def Obligations.HostResetsComplete : Prop :=
  (∀ (s : State) (fn : Fn),
     performs s (.functionLevelReset fn) fun t =>
          flag t 0x20004 fn.val = true ∧ (∀ r : Fin 4, ringEn t fn.val r.val = false) ∧ (fnSt t fn.val).hold = [] ∧ (fnSt t fn.val).recQ = []
            ∧ (fnSt t fn.val).subs = [] ∧ (fnSt t fn.val).asm = none ∧ ((fnSt t fn.val).inflight.all fun i => i.silent) = true
            ∧ (∀ g : Fn, g ≠ fn → fnSt t g.val = fnSt s.chip g.val ∧ ∀ r : Fin 4, ringEn t g.val r.val = ringEn s.chip g.val r.val)
            ∧ Touches [.fns, .hostMem, .dma] (fun off => regIn (hostPage fn.val) (hostPage fn.val + 0x1000) off || regIn 0x1A0400 0x1A0600 off
                || off == 0x20004 || reportReg off) s.chip t)
  ∧ (∀ (s : State) (speed width : Fin 5),
     performs s (.hostReset speed width) fun t =>
          flag t 0x110 5 = true ∧ (∀ (fn : Fn) (r : Fin 4), ringEn t fn.val r.val = false ∧ (fnSt t fn.val).hold = [] ∧ (fnSt t fn.val).subs = []
              ∧ ((fnSt t fn.val).inflight.all fun i => i.silent) = true)
            ∧ Touches [.fns, .hostMem, .dma] (fun off => regIn 0x20000 0x30000 off || regIn 0x1A0400 0x1A0600 off || off == 0x110 || off == 0x1A0004
                || reportReg off) s.chip t)
  ∧ (∀ (s : State) (speed width : Fin 5),
     (speed ≠ 0) →
     (width = 1 ∨ width = 2 ∨ width = 4) →
     performs s (.linkRetrain speed width) fun t =>
          fld t 0x20000 0 3 = speed.val ∧ fld t 0x20000 3 3 = width.val
            ∧ fld t 0x1A0004 0 13 = min (fld s.chip 0x1A0004 0 13) (([0, 200, 400, 875, 1750].getD speed.val 0) * width.val)
            ∧ Touches [] (regsAt [0x20000, 0x1A0004]) s.chip t)
  ∧ (∀ (s : State) (speed width : Fin 5),
     (speed = 0 ∨ width = 0 ∨ width = 3) →
     performs s (.linkRetrain speed width) fun t => reg t 0x20000 = 0 ∧ Touches [] (regAt 0x20000) s.chip t)

/-- A register write, a malformed read and the latching reads complete. (R174, R175, R177, R181, R1014) -/
def Obligations.RegisterAccessesComplete : Prop :=
  (∀ (s : State) (fn page : Fn) (r : Fin 4) (b0 b1 b2 b3 : Option Byte),
     (fn = 0 ∨ fn = page) →
     performs s (.regWrite fn (BitVec.ofNat 21 (ringBase page.val r.val + 0x10)) [b0, b1, b2, b3]) fun t =>
          (∀ i : Fin 4, fld t (ringBase page.val r.val + 0x10) (8 * i.val) 8
              = match [b0, b1, b2, b3].getD i.val none with
                | some b => b.toNat
                | none => fld s.chip (ringBase page.val r.val + 0x10) (8 * i.val) 8)
            ∧ Touches [] (regAt (ringBase page.val r.val + 0x10)) s.chip t)
  ∧ (∀ (s : State) (fn : Fn) (off : BitVec 21) (len : Nat),
     (len = 0 ∨ 8 < off.toNat % 8 + len) →
     performs s (.malformedBar0Read fn off len) fun t =>
          t = (if fn = 0 then { s.chip with readOut := none, readAbort := true } else { s.chip with readOut := some 0, readAbort := false }))
  ∧ (∀ (s : State) (fn : Fn) (off : BitVec 21),
     (off.toNat % 4 = 0) →
     (reachRead s.chip fn.val off.toNat = true) →
     (isLower off.toNat = true) →
     performs s (.upperLatch fn off) fun t =>
          t.readOut = some (readReg s.chip fn.val off.toNat) ∧ t.readAbort = false
            ∧ smGet latchDef (fnSt t fn.val).latch (off.toNat + 4) = some (BitVec.ofNat 32 (readReg s.chip fn.val (off.toNat + 4)))
            ∧ onlyParts [.fns, .readOut, .readAbort] s.chip t)
  ∧ (∀ (s : State) (fn : Fn) (off : BitVec 21) (w : Word),
     (off.toNat % 4 = 0) →
     (off.toNat ≠ 0x1D0008) →
     (reachRead s.chip fn.val off.toNat = true) →
     (isLower off.toNat = false) →
     (smGet latchDef (fnSt s.chip fn.val).latch off.toNat = some w) →
     performs s (.upperLatch fn off) fun t =>
          t.readOut = some w.toNat ∧ smGet latchDef (fnSt t fn.val).latch off.toNat = none ∧ onlyParts [.fns, .readOut, .readAbort] s.chip t)
  ∧ (∀ (s : State),
     (rtcOn s.chip = true) →
     performs s (.calendarLatch keeper) fun t =>
          t.readOut = some s.chip.rtc.ss ∧ (fnSt t 0).cal = some (timeWord s.chip.rtc.cal, dateWord s.chip.rtc.cal, s.chip.ot)
            ∧ onlyParts [.fns, .readOut, .readAbort] s.chip t)

/-- The host's writes of the BAR1 memories and a read of the status port complete. (R211, R212, R215, R216, R223, R1054, R1064) -/
def Obligations.MemoryWritesComplete : Prop :=
  (∀ (s : State) (fn : Fn) (off : BitVec 26) (data : List Byte),
     (((List.range data.length).all fun i => byteFateFn s.chip fn.val (off.toNat + i) == .store) = true) →
     performs s (.tableMemoryWrite fn off data) fun t =>
          t = { s.chip with tables := memWrite tblDef s.chip.tables off.toNat data })
  ∧ (∀ (s : State) (off : BitVec 26) (data : List Byte),
     (((List.range data.length).all fun i => byteFateFn s.chip 0 (off.toNat + i) == .nvm && (off.toNat + i) % 256 != 255) = true) →
     performs s (.nvmWindowWrite keeper off data) fun t =>
          t = { s.chip with img := { s.chip.img with stage := memWrite erasedByte s.chip.img.stage (off.toNat - 0x800000) data } })
  ∧ (∀ (s : State) (off : BitVec 26) (data : List Byte) (x : Nat),
     (((List.range data.length).all fun i => byteFateFn s.chip 0 (off.toNat + i) == .nvm) = true) →
     (off.toNat % 256 + data.length = 256) →
     (x = off.toNat - 0x800000) →
     performs s (.nvmWindowWrite keeper off data) fun t =>
          memRead erasedByte t.nvm (x / 256 * 256) 256 = memRead erasedByte (memWrite erasedByte s.chip.img.stage x data) (x / 256 * 256) 256
            ∧ (∀ a : Nat, a / 256 ≠ x / 256 → smGet erasedByte t.nvm a = smGet erasedByte s.chip.nvm a)
            ∧ smGet (fun _ => false) t.img.prog (x / 256) = true ∧ onlyParts [.nvm, .img] s.chip t)
  ∧ (∀ (s : State) (fn : Fn) (off : BitVec 26) (data : List Byte),
     (data ≠ []) →
     (off.toNat + data.length ≤ 0x800000) →
     performs s (.frameMemoryWrite fn off data) fun t =>
          t = (if fn = 0 then postError s.chip 0x06 (srcFn 0) 0 else deny (postError s.chip 0x06 (srcFn fn.val) 0) fn.val off.toNat) ∧ t.points = s.chip.points
            ∧ Changes [] (regIn 0x30100 0x30200) s.chip t)
  ∧ (∀ (s : State) (off : BitVec 26) (data : List Byte),
     (domOn s.chip 19 = true) →
     (lcdMem ≤ off.toNat ∧ off.toNat + data.length ≤ lcdMem + 0x2000) →
     (((List.range data.length).all fun i => (tileAtByte s.chip (off.toNat - lcdMem + i)).isNone) = true) →
     performs s (.lcdFrameMemoryWrite keeper off data) fun t =>
          t = { s.chip with tables := memWrite tblDef s.chip.tables off.toNat data })
  ∧ (∀ (s : State) (off : BitVec 26) (b : Byte) (k : Nat),
     (domOn s.chip 19 = true) →
     (lcdMem ≤ off.toNat ∧ off.toNat < lcdMem + 0x2000) →
     (tileAtByte s.chip (off.toNat - lcdMem) = some k) →
     performs s (.lcdFrameMemoryWrite keeper off [b]) fun t =>
          t = postError (countFld s.chip lcdEvt 16 16) 0x89 srcNode k ∧ t.tables = s.chip.tables ∧ Changes [] (regAt lcdEvt) s.chip t)
  ∧ (∀ (s : State) (addr : BitVec 12),
     (flag s.chip 0x1E0004 0 = true) →
     (domOn s.chip 7 = true) →
     (starting s.chip = false) →
     performs s (.statusPortRead addr) fun t => t = { s.chip with spt := { s.chip.spt with data := some (sptWord s.chip addr.toNat) } })
  ∧ (∀ (s : State) (addr : BitVec 12),
     (flag s.chip 0x1E0004 0 = false ∨ domOn s.chip 7 = false ∨ starting s.chip = true) →
     performs s (.statusPortRead addr) fun t => t = { s.chip with spt := { s.chip.spt with data := none } })

/-- The delivery of held records and events and the two ends of a guarantee breach complete. (R271, R276, R322, R323) -/
def Obligations.QueuesAndBreachesComplete : Prop :=
  (∀ (s : State) (fn : Fn) (room : Nat),
     (fnEnabled s.chip fn.val = true) →
     (ringEn s.chip fn.val 3 = true) →
     ((fnSt s.chip fn.val).recLost = 0) →
     ((fnSt s.chip fn.val).recQ.length ≤ 4096) →
     (room = ringSize s.chip fn.val 3 - ringOcc s.chip fn.val 3) →
     performs s (.recordDelivery fn) fun t =>
          (fnSt t fn.val).recQ = (fnSt s.chip fn.val).recQ.drop room
            ∧ nodeIdx t fn.val 3 = (nodeIdx s.chip fn.val 3 + min room (fnSt s.chip fn.val).recQ.length) % 65536
            ∧ (fnSt t fn.val).rseq = ((fnSt s.chip fn.val).rseq + min room (fnSt s.chip fn.val).recQ.length) % 65536
            ∧ Changes [] noReg s.chip t)
  ∧ (∀ (s : State) (fn : Fn) (room : Nat),
     (fnEnabled s.chip fn.val = true) →
     (ringEn s.chip fn.val 2 = true) →
     ((fnSt s.chip fn.val).gapN = 0) →
     ((fnSt s.chip fn.val).hold.length ≤ 1024 ∧ inSentry s.chip 28 = false) →
     (room = ringSize s.chip fn.val 2 - ringOcc s.chip fn.val 2) →
     (ringOcc s.chip fn.val 2 + (fnSt s.chip fn.val).hold.length ≤ fld s.chip (ringBase fn.val 2 + 0x10) 0 16) →
     performs s (.holdQueueDrain fn) fun t =>
          (fnSt t fn.val).hold = (fnSt s.chip fn.val).hold.drop room
            ∧ nodeIdx t fn.val 2 = (nodeIdx s.chip fn.val 2 + min room (fnSt s.chip fn.val).hold.length) % 65536
            ∧ (fnSt t fn.val).eseq = ((fnSt s.chip fn.val).eseq + min room (fnSt s.chip fn.val).hold.length) % 65536
            ∧ Changes [] noReg s.chip t)
  ∧ (∀ (s : State) (p code : Fin 8),
     (code ≠ 0) →
     (smGet breachDef s.chip.breach (8 * p.val + code.val) = none) →
     (rateCode code.val = true ∨ breached s.chip p.val code.val = true) →
     performs s (.guaranteeBreachStart p code) fun t =>
          smGet breachDef t.breach (8 * p.val + code.val) = some s.chip.ot
            ∧ fld t (breachReg p.val) 0 16 = satInc 16 (fld s.chip (breachReg p.val) 0 16) ∧ flag t (breachReg p.val) (16 + code.val) = true
            ∧ Changes [.breach] (regAt (breachReg p.val)) s.chip t)
  ∧ (∀ (s : State) (p code : Fin 8) (us ot : Nat),
     (smGet breachDef s.chip.breach (8 * p.val + code.val) = some ot) →
     (rateCode code.val = true ∨ breached s.chip p.val code.val = false) →
     performs s (.guaranteeBreachEnd p code us) fun t =>
          smGet breachDef t.breach (8 * p.val + code.val) = none ∧ flag t (breachReg p.val) (16 + code.val) = false
            ∧ fld t (breachReg p.val) 0 16 = fld s.chip (breachReg p.val) 0 16 ∧ Changes [.breach] (regAt (breachReg p.val)) s.chip t)

/-- A frame boundary, a slot and a base tick complete. (R26, R28, R33, R255, R256, R257, R337, R341, R342) -/
def Obligations.BoundarySlotAndTickComplete : Prop :=
  (∀ (s : State),
     (boundaryComes s.chip = true) →
     (s.chip.mode.frames = true ∧ s.chip.mode.firstFrame = false) →
     performs s .frameBoundary fun t =>
          frameNum t = (frameNum s.chip + 1) % 2 ^ 64 ∧ t.seq.tick = 0 ∧ t.seq.snapTime = s.chip.seq.snapTime + (if s.chip.mode.resumed = true then stoodStill s.chip else frameLen s.chip)
            ∧ t.mode.firstFrame = false ∧ (∀ fn : Fn, (fnSt t fn.val).used = 0 ∧ (fnSt t fn.val).reads = [])
            ∧ t.nvm = s.chip.nvm ∧ t.ot = s.chip.ot ∧ t.rtc = s.chip.rtc ∧ t.contacts = s.chip.contacts ∧ t.pulses = s.chip.pulses ∧ t.corr = s.chip.corr)
  ∧ (∀ (s : State) (ch : Fin 128),
     (boundaryComes s.chip = true) →
     (s.chip.mode.frames = true ∧ s.chip.mode.firstFrame = false) →
     (nodeMode s.chip = mScan ∧ s.chip.mode.auto = none ∧ s.chip.mode.req = none) →
     ((tableDescs.all fun d => !swapPending s.chip d.code) = true) →
     (s.chip.sdl.swaps = [] ∧ s.chip.img.apply = none) →
     ((point s.chip (anaPt ch.val)).raw = false) →
     performs s .frameBoundary fun t =>
          (point t (anaPt ch.val)).snap = (point s.chip (anaPt ch.val)).live ∧ (point t (anaPt ch.val)).snapFlags = (point s.chip (anaPt ch.val)).flags)
  ∧ (∀ (s : State) (k : Fn) (work : List Nat) (cmd : HostCmd) (m : Nat) (x : Chip),
     (s.chip.mode.frames = true ∧ s.chip.mode.firstFrame = false) →
     (tablesRun s.chip = false ∨ slotEntries s.chip k.val = []) →
     ((if k = 0 then bndCycles else 0) + cmdCycles ≤ slotLen s.chip k.val) →
     (x = inItsSlot s.chip k.val work) →
     (mayBegin x k.val = true) →
     (work.headD 0 = 0) →
     ((fnSt s.chip k.val).asm = none) →
     (headCommand s.chip k.val = some (cmd, m)) →
     (ringOcc s.chip k.val 0 = m) →
     performs s (.slotBegin ⟨k, work⟩) fun t =>
          t = runCommand (modFn (fetchStep x k.val m) k.val fun f => { f with used := f.used + 1, work := work.drop 1 }) cmd
            ∧ (fnSt t k.val).used = (fnSt s.chip k.val).used + 1 ∧ nodeIdx t k.val 0 = (nodeIdx s.chip k.val 0 + m) % 65536)
  ∧ (∀ (s : State) (k : Fn) (work : List Nat) (cmd : HostCmd) (m w : Nat) (x : Chip),
     (s.chip.mode.frames = true ∧ s.chip.mode.firstFrame = false) →
     (tablesRun s.chip = false ∨ slotEntries s.chip k.val = []) →
     ((if k = 0 then bndCycles else 0) + cmdCycles ≤ slotLen s.chip k.val) →
     (x = inItsSlot s.chip k.val work) →
     (mayBegin x k.val = true) →
     (work.headD 0 = w ∧ 0 < w) →
     ((fnSt s.chip k.val).asm = none) →
     (headCommand s.chip k.val = some (cmd, m)) →
     performs s (.slotBegin ⟨k, work⟩) fun t =>
          (fnSt t k.val).carry = some ⟨cmd, w⟩ ∧ (fnSt t k.val).used = (fnSt s.chip k.val).used + 1
            ∧ nodeIdx t k.val 0 = (nodeIdx s.chip k.val 0 + m) % 65536)
  ∧ (∀ (s : State) (k : Fn) (work : List Nat) (y : Carried) (n : Nat),
     (s.chip.mode.frames = true ∧ s.chip.mode.firstFrame = false) →
     (tablesRun s.chip = false ∨ slotEntries s.chip k.val = []) →
     ((fnSt s.chip k.val).carry = some y) →
     (n = min ((slotLen s.chip k.val - (if k = 0 then bndCycles else 0)) / cmdCycles) (fnQuota s.chip k.val - (fnSt s.chip k.val).used)) →
     (n < y.left) →
     performs s (.slotBegin ⟨k, work⟩) fun t =>
          (fnSt t k.val).carry = some { y with left := y.left - n } ∧ (fnSt t k.val).used = (fnSt s.chip k.val).used + n
            ∧ onlyParts [.seq, .fns] s.chip t)
  ∧ (∀ (s : State) (k : Fn) (work : List Nat) (i : Nat),
     (s.chip.mode.frames = true ∧ s.chip.mode.firstFrame = false) →
     (tablesRun s.chip = true) →
     (slotEntries s.chip k.val = [i]) →
     ((if k = 0 then bndCycles else 0) + opCost (entOp s.chip i) ≤ slotLen s.chip k.val) →
     (scanBad s.chip i = false) →
     ((fnSt s.chip k.val).carry = none ∧ ringOcc s.chip k.val 0 = 0) →
     performs s (.slotBegin ⟨k, work⟩) fun t => t = entryAction (inItsSlot s.chip k.val work) i false)
  ∧ (∀ (s : State),
     (s.chip.mode.up = true) →
     (domOn s.chip 26 = true) →
     performs s .baseTick fun t =>
          t.seq.tick = s.chip.seq.tick + 1 ∧ t.seq.g = s.chip.seq.g + 1
            ∧ (tickEntries s.chip = [] → domOn s.chip 28 = false → s.chip.sdl.resync = [] →
                t = { legsTick s.chip with seq := { s.chip.seq with tick := s.chip.seq.tick + 1, g := s.chip.seq.g + 1 } })
            ∧ onlyParts [.regs, .hostMem, .fns, .rcd, .diag, .seq, .points, .pos, .cells, .contacts, .pwr, .evq, .dma, .legs, .sdl] s.chip t)

/-- The scan entries of the slots and the tick lane complete. (08_scan_sequencer.md, 11_loop_outputs.md, 12_discrete_pulse_trip.md, 13_actuator_drive.md, 14_control_engine.md, 20_dma_engine.md, 95_what_each_step_holds.md) -/
def Obligations.ScanEntriesComplete : Prop :=
  (∀ (s : State) (i : Nat),
     (inForce s.chip i 0 = true) →
     performs s (.scanNop i) fun t => t = s.chip)
  ∧ (∀ (s : State) (i op : Nat) (x : Exact),
     (inForce s.chip i op = false) →
     ∀ k ∈ ([(0, .scanNop i), (2, .contact i), (3, .pulse i), (4, .position i), (5, .internal i x), (6, .loop i), (7, .out i), (8, .dmaSignal i)] : List (Nat × Instr)),
          k.1 = op → performs s k.2 fun t => t = s.chip)
  ∧ (∀ (s : State) (i n : Nat),
     (inForce s.chip i 2 = true) →
     (n = pIndex (entPoint s.chip i)) →
     (diMode s.chip n ≠ 0) →
     performs s (.contact i) fun t =>
          point t (pt 1 n) = wrote (point s.chip (pt 1 n))
              (qw32To { mant := contactCode s.chip n, exp := 0, unit := 0, qual := if 2 ≤ contactCode s.chip n then 3 else 0 }) (if 2 ≤ contactCode s.chip n then flFault else 0)
            ∧ contactSt t n = { contactSt s.chip n with later := if flag s.chip (diCfg n) 2 = true then (contactSt s.chip n).later.drop 1 else [] }
            ∧ (∀ m : Fin 128, m.val ≠ n → contactSt t m.val = contactSt s.chip m.val) ∧ onlyPoints (· = pt 1 n) s.chip t ∧ onlyParts [.points, .contacts] s.chip t)
  ∧ (∀ (s : State) (i : Nat),
     (inForce s.chip i 2 = true) →
     (diMode s.chip (pIndex (entPoint s.chip i)) = 0) →
     performs s (.contact i) fun t => t = s.chip)
  ∧ (∀ (s : State) (i m : Nat) (w : Nat × Nat),
     (inForce s.chip i 3 = true) →
     (m = pIndex (entPoint s.chip i)) →
     (w = encodeWord false (pulseFreq (pulseSt s.chip m) * qwValue (pulseScale s.chip m)) (pulseExp s.chip m) (pulseScale s.chip m).unit 0 (if 110000 < pulseFreq (pulseSt s.chip m) then flOver else 0)) →
     performs s (.pulse i) fun t =>
          point t (pt 3 m) = wrote (point s.chip (pt 3 m)) w.1 w.2 ∧ onlyPoints (· = pt 3 m) s.chip t ∧ onlyParts [.points] s.chip t)
  ∧ (∀ (s : State) (i n q : Nat),
     (inForce s.chip i 4 = true) →
     (n = pIndex (entPoint s.chip i)) →
     (q = (if flag s.chip (posBase n) 0 = false then 3 else if (fld s.chip (posBase n) 2 2 ≠ 0 ∧ flag s.chip (posBase n + 0x10) 0 = false) ∨ (posSt s.chip n).warn = true then 1 else 0)) →
     performs s (.position i) fun t =>
          point t (pt 12 n) = wrote (point s.chip (pt 12 n)) (qw32To { mant := ((actView s.chip (posBase n + 0xC)).getD 0) % 2 ^ 20, exp := 0, unit := 43, qual := q }) 0
            ∧ posSt t n = { posSt s.chip n with warn := false } ∧ (∀ m : Fin 4, m.val ≠ n → posSt t m.val = posSt s.chip m.val)
            ∧ onlyPoints (· = pt 12 n) s.chip t ∧ onlyParts [.points, .pos] s.chip t)
  ∧ (∀ (s : State) (i : Nat) (x : Exact) (p : Nat) (w : Nat × Nat),
     (inForce s.chip i 5 = true) →
     (p = entPoint s.chip i) →
     (pClass p ≠ 0) →
     (w = encodeWord false (exactVal x) (internalUnit (pIndex p)).2 (internalUnit (pIndex p)).1 0 0) →
     performs s (.internal i x) fun t => point t p = wrote (point s.chip p) w.1 w.2 ∧ onlyPoints (· = p) s.chip t ∧ onlyParts [.points] s.chip t)
  ∧ (∀ (s : State) (i l : Nat),
     (inForce s.chip i 6 = true) →
     (l = pIndex (entPoint s.chip i)) →
     performs s (.loop i) fun t =>
          t = (if loopRuns s.chip l = true then { s.chip with evq := s.chip.evq ++ [⟨l, entTrig s.chip i % 4 != 0, natBit (entArg s.chip i) 0⟩] } else s.chip))
  ∧ (∀ (s : State) (i ch d : Nat),
     (inForce s.chip i 7 = true) →
     (entPoint s.chip i = pt 5 ch ∧ ch < 48) →
     (outGo s.chip (cellDom ch) = true) →
     (forceOf s.chip ch = 0) →
     ((cell s.chip ch).dem % 4 ≠ 3) →
     (d = clampDemand s.chip ch (demandUa (cell s.chip ch).dem)) →
     performs s (.out i) fun t =>
          (cell t ch).last = some d ∧ (cell t ch).cur = driveCurrent t ch d
            ∧ flag t (cellStat ch) 0 = false ∧ flag t (cellStat ch) 1 = false ∧ (flag s.chip (cellStat ch) 13 = false → flag t (cellStat ch) 13 = false)
            ∧ ((point s.chip (pt 5 ch)).subst = false → natBit (point s.chip (pt 5 ch)).flags 2 = false →
                natBits (point t (pt 5 ch)).live 12 20 = d % 2 ^ 20 ∧ natBits (point t (pt 5 ch)).live 2 10 = 20 + 64 * 13)
            ∧ ((cell s.chip ch).opened = false → onlyPoints (· = pt 5 ch) s.chip t ∧ Touches [.cells, .points] (regAt (cellStat ch)) s.chip t)
            ∧ Changes [.cells, .points, .pwr] (regIn 0x100000 0x130000) s.chip t)
  ∧ (∀ (s : State) (i ch : Nat),
     (inForce s.chip i 7 = true) →
     (entPoint s.chip i = pt 5 ch ∧ ch < 48) →
     (outGo s.chip (cellDom ch) = true) →
     (forceOf s.chip ch = 0) →
     ((cell s.chip ch).dem % 4 = 3) →
     performs s (.out i) fun t =>
          (cell t ch).last = (cell s.chip ch).last ∧ flag t (cellStat ch) 0 = true ∧ flag t (cellStat ch) 1 = false ∧ (flag s.chip (cellStat ch) 13 = false → flag t (cellStat ch) 13 = false)
            ∧ ((cell s.chip ch).opened = false → onlyPoints (· = pt 5 ch) s.chip t ∧ Touches [.cells, .points] (regAt (cellStat ch)) s.chip t)
            ∧ Changes [.cells, .points, .pwr] (regIn 0x100000 0x130000) s.chip t)
  ∧ (∀ (s : State) (i ch : Nat),
     (inForce s.chip i 7 = true) →
     (entPoint s.chip i = pt 5 ch ∧ ch < 48) →
     (outGo s.chip (cellDom ch) = true) →
     (forceOf s.chip ch ≠ 0) →
     ((cell s.chip ch).opened = false) →
     performs s (.out i) fun t =>
          (cell t ch).last = some (if forceOf s.chip ch = 1 then 4000 else 20000) ∧ flag t (cellStat ch) 0 = false ∧ flag t (cellStat ch) 13 = true
            ∧ onlyPoints (· = pt 5 ch) s.chip t ∧ Touches [.cells, .points] (regAt (cellStat ch)) s.chip t)
  ∧ (∀ (s : State) (i n : Nat) (d : Int),
     (inForce s.chip i 7 = true) →
     (entPoint s.chip i = pt 6 n ∧ n < 12) →
     (outGo s.chip 22 = true) →
     (pairOf s.chip n = none) →
     ((leg s.chip n).dem % 4 ≠ 3) →
     (d = clampDuty s.chip n (demandDuty (leg s.chip n).dem)) →
     performs s (.out i) fun t =>
          leg t n = { leg s.chip n with fresh := some s.chip.ot, duty := d, next := some (limitTon s.chip n (roundHE ((d * (legPeriod s.chip n : Int) / 10000 : Rat)))) }
            ∧ flag t (legStat n) 2 = false ∧ (∀ k : Fin 12, k.val ≠ n → leg t k.val = leg s.chip k.val)
            ∧ onlyPoints (· = pt 6 n) s.chip t ∧ Touches [.legs, .points] (regAt (legStat n)) s.chip t)
  ∧ (∀ (s : State) (i : Nat),
     (inForce s.chip i 7 = true) →
     ((pClass (entPoint s.chip i) = 5 ∧ outGo s.chip (cellDom (pIndex (entPoint s.chip i))) = false) ∨ (pClass (entPoint s.chip i) = 6 ∧ (outGo s.chip 22 = false ∨ isFollower s.chip (pIndex (entPoint s.chip i)) = true))) →
     performs s (.out i) fun t => t = s.chip)
  ∧ (∀ (s : State) (i n : Nat),
     (inForce s.chip i 8 = true) →
     (n = entArg s.chip i % 8) →
     (n ≠ 0) →
     (dpRuns s.chip n = true) →
     (waitsFor s.chip n ≠ some 0) →
     performs s (.dmaSignal i) fun t =>
          (dpSt t n).scan = true ∧ (∀ m : Fin 8, m.val ≠ n → dpSt t m.val = dpSt s.chip m.val)
            ∧ ((dpSt s.chip n).scan = false → t.regs = s.chip.regs)
            ∧ ((dpSt s.chip n).scan = true → fld t (dpStat n) 24 8 = satInc 8 (fld s.chip (dpStat n) 24 8) ∧ t.dma = s.chip.dma)
            ∧ Touches [.dma] (regAt (dpStat n)) s.chip t)
  ∧ (∀ (s : State) (i n : Nat),
     (inForce s.chip i 8 = true) →
     (n = entArg s.chip i % 8) →
     (n = 0 ∨ dpRuns s.chip n = false) →
     performs s (.dmaSignal i) fun t => t = s.chip)

/-- A filter output of a voltage channel is linearised into its point's live word. (R430, R446, R469, R470) -/
def Obligations.FilterOutputCompletes : Prop :=
  ∀ (s : State) (ch : Fin 128) (sense drive : Wave) (beside : Exact) (set : Nat) (x : Rat),
    (delivers s.chip ch.val = true ∧ tablesRun s.chip = true) →
    (acqSet s.chip ch.val = some set) →
    (discards s.chip ch.val = false ∧ heldByFailure s.chip ch.val = false ∧ cellLost s.chip ch.val = false) →
    (entryBad s.chip 4 (setOff set) 0x100 = false) →
    (mdMode (anaSt s.chip ch.val).aMode = 1 ∧ natBit (setMask s.chip set) 1 = true) →
    ((anaSt s.chip ch.val).aTsrc = 0) →
    (clampSpan (anaSt s.chip ch.val).aMode ((codeF (corrNow s.chip ch.val (servingCell s.chip ch.val)) (exactVal sense.along) : Rat) * stepS (anaSt s.chip ch.val).aMode) = (x, false)) →
    ((codeWide (corrNow s.chip ch.val (servingCell s.chip ch.val)) (exactVal sense.along)).natAbs < 2 ^ 23) →
    (flagsS s.chip ch.val false = 0 ∧ condQual s.chip ch.val = 0) →
    ((point s.chip (anaPt ch.val)).subst = false) →
    performs s (.acq ch sense drive beside) fun t =>
         (point t (anaPt ch.val)).live = (encodeWord false (polyValue s.chip set x 0) (setExp s.chip set) (setUnit s.chip set) 0 0).1
           ∧ onlyPoints (· = anaPt ch.val) s.chip t ∧ Touches [.points, .bank, .ana] (regIn (bankBase (ch.val / 16)) (bankBase (ch.val / 16) + 0x500)) s.chip t

/-- The blanking inputs, a sentry scan and a stale timeout complete. (R56, R57, R360, R364, R368, R370) -/
def Obligations.BlankingSentryAndStaleComplete : Prop :=
  (∀ (s : State) (b : Fin 8),
     (natBit s.chip.seq.blankIn b.val = false) →
     (blankEn s.chip b.val = true ∧ stuck s.chip b.val = false ∧ flag s.chip blankStat b.val = false) →
     performs s (.blankActive b) fun t =>
          natBit t.seq.blankIn b.val = true ∧ natBit t.seq.blankPost b.val = false ∧ flag t blankStat b.val = true
            ∧ fld t blankStat 16 16 = satInc 16 (fld s.chip blankStat 16 16) ∧ Touches [.seq] (regAt blankStat) s.chip t)
  ∧ (∀ (s : State) (b : Fin 8),
     (natBit s.chip.seq.blankIn b.val = true) →
     (stuck s.chip b.val = false ∧ flag s.chip blankStat b.val = true) →
     performs s (.blankInactive b) fun t =>
          natBit t.seq.blankIn b.val = false ∧ natBit t.seq.blankPost b.val = true ∧ t.regs = s.chip.regs ∧ onlyParts [.seq] s.chip t)
  ∧ (∀ (s : State) (b : Fin 8),
     (natBit s.chip.seq.blankIn b.val = true) →
     (stuck s.chip b.val = true) →
     performs s (.blankInactive b) fun t =>
          natBit t.seq.blankIn b.val = false ∧ stuck t b.val = false ∧ Touches [.seq] (regAt blankStat) s.chip t)
  ∧ (∀ (s : State) (b : Fin 8),
     (natBit s.chip.seq.blankPost b.val = true) →
     performs s (.blankPostEnd b) fun t =>
          natBit t.seq.blankPost b.val = false ∧ flag t blankStat b.val = false ∧ Touches [.seq] (regAt blankStat) s.chip t)
  ∧ (∀ (s : State) (b : Fin 8),
     (natBit s.chip.seq.blankIn b.val = true) →
     (stuck s.chip b.val = false) →
     performs s (.blankStuck b) fun t =>
          stuck t b.val = true ∧ flag t blankStat b.val = false ∧ Changes [] (regAt blankStat) s.chip t)
  ∧ (∀ (s : State) (e : Fin 16) (seen : SentrySeen) (x : SentrySt) (f : Int),
     (nodeMode s.chip = mSentry) →
     (s.chip.seq.sentry[e.val]? = some x) →
     (sentryCode s.chip x seen = some f) →
     (sentryHit x f = false) →
     (0 < x.confirm) →
     performs s (.sentryScan e seen) fun t =>
          t.seq = { s.chip.seq with sentry := s.chip.seq.sentry.set e.val { x with count := 0 } } ∧ onlyParts [.seq, .free] s.chip t
            ∧ (pClass x.point = 1 → t.free = s.chip.free))
  ∧ (∀ (s : State) (e : Fin 16) (seen : SentrySeen) (x : SentrySt) (f : Int),
     (nodeMode s.chip = mSentry) →
     (s.chip.seq.sentry[e.val]? = some x) →
     (sentryCode s.chip x seen = some f) →
     (sentryHit x f = true) →
     (x.confirm ≤ x.count + 1 ∧ x.confirm < 256) →
     (s.chip.seq.woke = false) →
     (s.chip.mode.auto = none) →
     performs s (.sentryScan e seen) fun t =>
          reg t sentryWakeReg = BitVec.ofNat 32 (e.val + unsigned 24 f * 256) ∧ t.mode.auto = some (fld s.chip 0x100 4 4, 2) ∧ t.seq.woke = true
            ∧ Retargets [.seq, .mode, .pwr, .free] (regAt sentryWakeReg) s.chip t)
  ∧ (∀ (s : State) (e : Fin 16) (seen : SentrySeen) (x : SentrySt),
     (s.chip.seq.sentry[e.val]? = some x) →
     (sentryCode s.chip x seen = none) →
     performs s (.sentryScan e seen) fun t => t = s.chip)
  ∧ (∀ (s : State) (p : PointId),
     (pointValid p.toNat = true ∧ p ≠ 0) →
     ((point s.chip p.toNat).subst = false) →
     performs s (.staleTimeout p) fun t =>
          (point t p.toNat).live / 4 = (point s.chip p.toNat).live / 4 ∧ 2 ≤ (point t p.toNat).live % 4 ∧ (point s.chip p.toNat).live % 4 ≤ (point t p.toNat).live % 4
            ∧ natBit (point t p.toNat).flags 6 = true ∧ onlyPoints (· = p.toNat) s.chip t ∧ onlyParts [.points] s.chip t)

/-- A channel's set-up write, its protections and its RTD3 and IEPE measurements complete. (R379, R383, R393, R410, R412, R415, R416, R433) -/
def Obligations.SetupAndSensorCommandsComplete : Prop :=
  (∀ (s : State) (ch : Fin 128) (i : Fin 5) (v : Word) (off : Nat) (d : RegDesc) (c : Chip),
     (off = chBase ch.val + setupOff i.val) →
     (findReg off = some d) →
     ((d.fields.any fun f => fieldBad 0 (reg s.chip off).toNat v.toNat 0xFFFFFFFF f) = false) →
     (c = setReg s.chip off (BitVec.ofNat 32 (regAfter 0 d.fields (reg s.chip off).toNat v.toNat 0xFFFFFFFF))) →
     (setupOk c ch.val (setupRegs c ch.val) = true) →
     (i = 2 → tsrcUnitOk c ch.val ((setupRegs c ch.val).tsrc % 2 ^ 24) = true) →
     (reservedCode off (reg c off).toNat = false) →
     performs s (.acqSetupWrite keeper ch i v allBytes) fun t =>
          reg t off = reg c off
            ∧ (delivers s.chip ch.val = true → (anaSt t ch.val).change = true ∧ Touches [.ana] (regAt off) s.chip t)
            ∧ (delivers s.chip ch.val = false → t = applySetup c ch.val ∧ (anaSt t ch.val).aMode = (setupRegs c ch.val).md
                ∧ (anaSt t ch.val).aFilt = (setupRegs c ch.val).filt ∧ (anaSt t ch.val).aTsrc = (setupRegs c ch.val).tsrc
                ∧ (anaSt t ch.val).change = false ∧ Touches [.ana, .bank] (regsAt [off, chStat ch.val, chBase ch.val + 0x18, chConv ch.val, rotStat (ch.val / 16)]) s.chip t))
  ∧ (∀ (s : State) (ch : Fin 128) (lead : Nat),
     (mdMode (anaSt s.chip ch.val).aMode = 4 ∧ delivers s.chip ch.val = true ∧ measures s.chip ch.val = true) →
     performs s (.rtd3PhaseChange ch lead) fun t =>
          fld t (chBase ch.val + 0x14) (if (anaSt s.chip ch.val).phaseB then 16 else 0) 16
              = (if (anaSt s.chip ch.val).toned then fld s.chip (chBase ch.val + 0x14) (if (anaSt s.chip ch.val).phaseB then 16 else 0) 16 else min 65535 lead)
            ∧ (anaSt t ch.val).phaseB = !(anaSt s.chip ch.val).phaseB
            ∧ Touches [.ana] (regsAt [chBase ch.val + 0x14, chStat ch.val]) s.chip t)
  ∧ (∀ (s : State) (ch : Fin 128),
     (mdMode (anaSt s.chip ch.val).aMode ≠ 2 ∧ powered s.chip ch.val = true) →
     (flag s.chip (chStat ch.val) 1 = false) →
     performs s (.protectionOpen ch) fun t =>
          flag t (chStat ch.val) 1 = true ∧ fld t (chStat ch.val) 16 16 = satInc 16 (fld s.chip (chStat ch.val) 16 16)
            ∧ Changes [] (regAt (chStat ch.val)) s.chip t)
  ∧ (∀ (s : State) (ch : Fin 128),
     (flag s.chip (chStat ch.val) 1 = true) →
     performs s (.protectionEnd ch) fun t =>
          flag t (chStat ch.val) 1 = false
            ∧ settleLeft t ch.val = min 511 (settleCount (natBits (anaSt s.chip ch.val).aFilt 0 2) + natBits (anaSt s.chip ch.val).aFilt 16 8)
            ∧ Touches [.ana] (regsAt [chStat ch.val, chConv ch.val]) s.chip t)
  ∧ (∀ (s : State) (ch : Fin 128),
     (mdMode (anaSt s.chip ch.val).aMode = 2 ∧ powered s.chip ch.val = true) →
     (flag s.chip (chStat ch.val) 2 = false) →
     performs s (.shuntOpen ch) fun t =>
          flag t (chStat ch.val) 2 = true ∧ fld t (chStat ch.val) 16 16 = satInc 16 (fld s.chip (chStat ch.val) 16 16)
            ∧ Changes [] (regAt (chStat ch.val)) s.chip t)
  ∧ (∀ (s : State) (ch : Fin 128),
     (flag s.chip (chStat ch.val) 2 = true ∧ afeOn s.chip (ch.val / 16) = true ∧ cellWorks s.chip ch.val = true) →
     performs s (.shuntReconnectTest ch true) (fun t => flag t (chStat ch.val) 2 = false ∧ Touches [] (regAt (chStat ch.val)) s.chip t)
        ∧ performs s (.shuntReconnectTest ch false) fun t =>
          flag t (chStat ch.val) 2 = true ∧ fld t (chStat ch.val) 16 16 = satInc 16 (fld s.chip (chStat ch.val) 16 16)
            ∧ Changes [] (regAt (chStat ch.val)) s.chip t)
  ∧ (∀ (s : State) (ch : Fin 128) (bias : Nat),
     (mdMode (anaSt s.chip ch.val).aMode = 9 ∧ measures s.chip ch.val = true) →
     performs s (.iepeBiasCheck ch bias) fun t =>
          flag t (chStat ch.val) 5 = decide (23000 < bias) ∧ flag t (chStat ch.val) 6 = decide (bias < 1000) ∧ Touches [.ana] (regAt (chStat ch.val)) s.chip t)
  ∧ (∀ (s : State) (ch : Fin 128) (limited : Bool),
     (limited = false ∨ (measures s.chip ch.val = true ∧ hasSource (anaSt s.chip ch.val).aMode = true)) →
     performs s (.excitationLimit ch limited) fun t => flag t (chStat ch.val) 3 = limited ∧ Touches [] (regAt (chStat ch.val)) s.chip t)

/-- Rotation, calibration, cell failures and the sensor checks complete. (R438, R446, R447, R449, R452, R460, R478, R481, R484) -/
def Obligations.RotationAndCheckCommandsComplete : Prop :=
  (∀ (s : State) (b : Fin 8) (n : Nat),
     (rotPhase s.chip b.val = 0) →
     (rotationRuns s.chip b.val = true) →
     ((bankSt s.chip b.val).wait = false ∧ (bankSt s.chip b.val).stepDue = none) →
     (n = (if rotStep s.chip b.val = 16 then 0 else rotStep s.chip b.val + 1)) →
     (n ≤ 16) →
     performs s (.rotationPhaseEnd b) fun t =>
          (discarding s.chip b.val = false → rotStep t b.val = n
                ∧ rotPhase t b.val = (if n = 16 then 5 else if mdMode (anaSt s.chip (b.val * 16 + n)).aMode = 0 then 3 else 1)
                ∧ (bankSt t b.val).stepOt = s.chip.ot)
            ∧ (discarding s.chip b.val = true → rotStep t b.val = rotStep s.chip b.val ∧ rotPhase t b.val = 0 ∧ (bankSt t b.val).stepDue = some n)
            ∧ Touches [.bank] (regAt (rotStat b.val)) s.chip t)
  ∧ (∀ (s : State) (b : Fin 8) (ofs gain : Int) (exc md ex : Nat),
     (afeOn s.chip b.val = true ∧ s.chip.pwr.modulators = true) →
     (rotPhase s.chip b.val = 1 ∧ calSetup s.chip b.val = some (16, md, ex)) →
     (calPasses s.chip b.val (smGet corrDef s.chip.corr (corrKey b.val 16 (setupKey md ex))) ofs gain (excWithin md ex exc) = true) →
     performs s (.calibrationEnd b ofs gain exc) fun t =>
          smGet corrDef t.corr (corrKey b.val 16 (setupKey md ex)) = some ⟨ofs, gain, s.chip.ot⟩
            ∧ ((anaSt s.chip (stepCh s.chip b.val)).tone = false → rotPhase t b.val = 2
                ∧ (bankSt t b.val).left = phaseP s.chip (stepCh s.chip b.val))
            ∧ ((anaSt s.chip (stepCh s.chip b.val)).tone = true → rotPhase t b.val = 1 ∧ (bankSt t b.val).toneWait = true)
            ∧ Touches [.bank, .corr] (regAt (rotStat b.val)) s.chip t)
  ∧ (∀ (s : State) (b : Fin 8) (ofs gain : Int) (exc cell md ex : Nat),
     (afeOn s.chip b.val = true ∧ s.chip.pwr.modulators = true) →
     (calSetup s.chip b.val = some (cell, md, ex)) →
     (calPasses s.chip b.val (smGet corrDef s.chip.corr (corrKey b.val cell (setupKey md ex))) ofs gain (excWithin md ex exc) = false) →
     performs s (.calibrationEnd b ofs gain exc) fun t =>
          ((bankSt s.chip b.val).retry = false → (bankSt t b.val).retry = true ∧ onlyParts [.bank] s.chip t)
            ∧ ((bankSt s.chip b.val).retry = true → natBit (bankSt t b.val).retired cell = true ∧ rotPhase t b.val = 6
                ∧ Changes [.bank, .ana] (regIn (bankBase b.val) (bankBase b.val + 0x1000)) s.chip t
                ∧ ((bankSt s.chip b.val).emerg = none → Changes [.bank] (regsAt [rotStat b.val, chConv (stepCh s.chip b.val)]) s.chip t)))
  ∧ (∀ (s : State) (ch : Fin 128) (reference : Bool) (b : Nat),
     (b = ch.val / 16) →
     (delivers s.chip ch.val = true ∧ cellLost s.chip ch.val = false ∧ heldByFailure s.chip ch.val = false) →
     (onSpare s.chip ch.val = false) →
     (covering s.chip b = false ∧ natBit (bankSt s.chip b).retired 16 = false ∧ (bankSt s.chip b).emerg = none) →
     (rotPhase s.chip b ≠ 3 ∧ rotPhase s.chip b ≠ 4) →
     performs s (.cellMonitorFail ch reference) fun t =>
          natBit (bankSt t b).retired (ch.val % 16) = true ∧ (bankSt t b).emerg = some ch.val ∧ rotPhase t b = 1
            ∧ (anaSt t ch.val).tone = false ∧ flag t (chStat ch.val) 3 = false
            ∧ (∀ k : Fin 128, k ≠ ch → anaSt t k.val = anaSt s.chip k.val)
            ∧ Changes [.bank, .ana] (regsAt [rotStat b, chStat ch.val]) s.chip t)
  ∧ (∀ (s : State) (b : Fin 8),
     performs s (.calAged b) fun t =>
          (∀ k : Fin 16, flag t (chConv (b.val * 16 + k.val)) 15 = chAged s.chip (b.val * 16 + k.val))
            ∧ Changes [] (fun off => off == bankBase b.val + 0xC || (List.range 16).any fun k => off == chConv (b.val * 16 + k)) s.chip t)
  ∧ (∀ (s : State) (ch : Fin 128) (v : BallVolts) (both lo hi : Int) (n : Nat),
     (flag s.chip (chBase ch.val + 0x24) 0 = true ∧ delivers s.chip ch.val = true ∧ measures s.chip ch.val = true) →
     (both = (if mdMode (anaSt s.chip ch.val).aMode = 3 ∨ mdMode (anaSt s.chip ch.val).aMode = 4 ∨ mdMode (anaSt s.chip ch.val).aMode = 9 then v.exa + v.exb else v.sna + v.snb)) →
     (lo = signed 16 (fld s.chip (chBase ch.val + 0x20) 0 16) * 20000 ∧ hi = signed 16 (fld s.chip (chBase ch.val + 0x20) 16 16) * 20000) →
     (n = fld s.chip (chBase ch.val + 0x24) 16 8) →
     performs s (.cmCheck ch v) fun t =>
          flag t (chConv ch.val) 10 = (if both < lo ∨ hi < both then (if n ≤ (anaSt s.chip ch.val).cmOut + 1 then true else flag s.chip (chConv ch.val) 10)
              else (if n ≤ (anaSt s.chip ch.val).cmIn + 1 then false else flag s.chip (chConv ch.val) 10))
            ∧ Changes [.ana] (regAt (chConv ch.val)) s.chip t)
  ∧ (∀ (s : State) (ch : Fin 128),
     (toneRuns s.chip ch.val = true) →
     performs s (.testToneStart ch) fun t =>
          t = modAna s.chip ch.val fun a =>
            if discards s.chip ch.val = true ∨ stepBusy s.chip ch.val = true then { a with toneDue := true }
            else { a with tone := true, toneDue := false, toned := true })
  ∧ (∀ (s : State) (ch : Fin 128) (loopR ins : Nat) (both : Insulation),
     (ins ≤ both.sna ∧ ins ≤ both.snb ∧ (ins = both.sna ∨ ins = both.snb)) →
     ((anaSt s.chip ch.val).tone = true ∧ measures s.chip ch.val = true) →
     performs s (.testToneEnd ch loopR both) fun t =>
          (anaSt t ch.val).tone = false
            ∧ ((toneChecks (anaSt s.chip ch.val).aMode).1 = true → fld t (chBase ch.val + 0x2C) 0 16 = min 65535 loopR
                ∧ flag t (chConv ch.val) 11 = decide (fld s.chip (chBase ch.val + 0x28) 0 8 * 200 < loopR))
            ∧ ((toneChecks (anaSt s.chip ch.val).aMode).1 = false → flag t (chConv ch.val) 11 = false)
            ∧ ((toneChecks (anaSt s.chip ch.val).aMode).2 = true → fld t (chBase ch.val + 0x2C) 16 16 = min 65535 (ins / 10000)
                ∧ flag t (chConv ch.val) 12 = decide (ins < fld s.chip (chBase ch.val + 0x28) 8 8 * 100000)
                ∧ flag t (chConv ch.val) 13 = decide (ins < fld s.chip (chBase ch.val + 0x28) 16 8 * 1000000))
            ∧ ((bankSt s.chip (ch.val / 16)).toneWait = true → stepCh s.chip (ch.val / 16) = ch.val → rotPhase t (ch.val / 16) = 2)
            ∧ Changes [.ana, .bank] (regsAt [chBase ch.val + 0x2C, chConv ch.val, rotStat (ch.val / 16)]) s.chip t)

/-- The balls of a bank that goes OFF and of a channel whose protection opens are open and drive nothing, GUARD follows, and nothing is measured there. (R376, R377, R378, R415, R417, R420, R421, R422) -/
def Obligations.UnpoweredAndProtectedChannelsDriveNothing : Prop :=
  (∀ (s : State) (b : Fin 8),
     ((dom s.chip (8 + b.val)).turning = true) →
     (dependantsOff s.chip (8 + b.val) = true) →
     (offTurn s.chip (8 + b.val) = true) →
     performs s (.domainOff ⟨8 + b.val, by omega⟩) fun t =>
          (∀ k : Fin 16, chBalls t (b.val * 16 + k.val) = openBalls ∧ chExcitation t (b.val * 16 + k.val) = .none) ∧ guardDrive t b.val = .highZ
            ∧ ∀ ch : Fin 128, ch.val / 16 ≠ b.val → dom t (8 + ch.val / 16) = dom s.chip (8 + ch.val / 16) → chExcitation t ch.val = chExcitation s.chip ch.val)
  ∧ (∀ (s : State) (ch : Fin 128),
     (mdMode (anaSt s.chip ch.val).aMode ≠ 2 ∧ powered s.chip ch.val = true) →
     performs s (.protectionOpen ch) fun t =>
          chBalls t ch.val = openBalls ∧ chExcitation t ch.val = .none
            ∧ (fld s.chip (bankBase (ch.val / 16) + 0x10) 0 2 = 3 → fld s.chip (bankBase (ch.val / 16) + 0x10) 4 4 = ch.val % 16 →
                guardDrive t (ch.val / 16) = if starting s.chip then .highZ else .agnd)
            ∧ ∀ k : Fin 128, k ≠ ch → chBalls t k.val = chBalls s.chip k.val ∧ chExcitation t k.val = chExcitation s.chip k.val)
  ∧ (∀ (s : State) (ch : Fin 128),
     (flag s.chip (chStat ch.val) 1 = true) →
     (powered s.chip ch.val = true ∧ cellLost s.chip ch.val = false ∧ starting s.chip = false) →
     ((mdMode (anaSt s.chip ch.val).aMode = 2 → flag s.chip (chStat ch.val) 2 = false)) →
     performs s (.protectionEnd ch) fun t =>
          chBalls t ch.val = ballsOfMode (mdMode (anaSt s.chip ch.val).aMode) (anaSt s.chip ch.val).phaseB
            ∧ chExcitation t ch.val = excitationOf (anaSt s.chip ch.val).aMode (anaSt s.chip ch.val).aExc
            ∧ (fld s.chip (bankBase (ch.val / 16) + 0x10) 0 2 = 3 → fld s.chip (bankBase (ch.val / 16) + 0x10) 4 4 = ch.val % 16 →
                guardDrive t (ch.val / 16) = .follow ch.val))
  ∧ (∀ (s : State) (ch : Fin 128) (lead bias loopR : Nat) (v : BallVolts) (both : Insulation),
     (measures s.chip ch.val = false) →
     performs s (.rtd3PhaseChange ch lead) (fun t => t = s.chip) ∧ performs s (.cmCheck ch v) (fun t => t = s.chip)
        ∧ performs s (.iepeBiasCheck ch bias) (fun t => t = s.chip) ∧ performs s (.testToneEnd ch loopR both) fun t => t = s.chip)

/-- A loop-output cell's mode write, its mode's entry, its readings, faults and watchdog complete. (R493, R495, R497, R498, R499, R509, R512, R517, R520, R522, R523) -/
def Obligations.CellModesAndFaultsComplete : Prop :=
  (∀ (s : State) (ch : Fin 48) (v : Word),
     (domOn s.chip (cellDom ch.val) = true) →
     (v.toNat % 4 ≠ fld s.chip (cellBase ch.val) 0 2) →
     (natBit v.toNat 4 = true) →
     performs s (.loopModeWrite keeper ch v allBytes) fun t =>
          fld t (cellBase ch.val) 0 2 = v.toNat % 4 ∧ fskEn t ch.val = true ∧ (cell t ch.val).tgt = some (v.toNat % 4)
            ∧ (cell t ch.val).mode = (cell s.chip ch.val).mode ∧ (opWaits t (.bankStep ch.val) = true ∨ opRuns t (.bankStep ch.val) = true)
            ∧ (opWaits t (.bankStep ch.val) = true → noStepWaits s.chip = true → Touches [.cells, .pwr] (regAt (cellBase ch.val)) s.chip t)
            ∧ (v.toNat % 4 ≠ 0 → opWaits t (.bankStep ch.val) = false → fld t (cellBase ch.val + 0x24) 0 2 = 0 ∧ (cell t ch.val).tx = none)
            ∧ Changes [.cells, .points, .pwr] (regIn 0x100000 0x130000) s.chip t)
  ∧ (∀ (s : State) (ch : Fin 48) (m : Nat),
     ((cell s.chip ch.val).tgt = some m) →
     (opWaits s.chip (.bankStep ch.val) = false) →
     (domOn s.chip (cellDom ch.val) = true) →
     performs s (.cellModeEnter ch) fun t =>
          (cell t ch.val).mode = m ∧ (cell t ch.val).tgt = none ∧ (cell t ch.val).opened = cellFlag s.chip ch.val lfOvertemp
            ∧ (m ≠ 0 → m ≠ 3 → (cell t ch.val).cur = (match (cell s.chip ch.val).last with
                | some _ => (cell s.chip ch.val).cur
                | none => driveCurrent s.chip ch.val (clampInt (fld s.chip (cellBase ch.val + 4) 0 16) (max (fld s.chip (cellBase ch.val + 4) 0 16) (clampHi s.chip ch.val))
                    (fld s.chip (cellBase ch.val + 0xC) 0 16)).toNat))
            ∧ (m = 0 ∨ m ≠ (cell s.chip ch.val).mode → fld t (cellBase ch.val + 0x24) 0 2 = 0 ∧ (cell t ch.val).tx = none)
            ∧ onlyPoints (· = pt 5 ch.val) s.chip t
            ∧ Changes [.cells, .points] (regsAt [cellBase ch.val + 0x24, cellStat ch.val, fskReg ch.val]) s.chip t)
  ∧ (∀ (s : State) (ch : Fin 48) (rb dr vl : BitVec 16) (vres : BitVec 8) (short : Bool),
     (domOn s.chip (cellDom ch.val) = true) →
     performs s (.readbackUpdate ch rb dr vl vres short) fun t =>
          fld t (cellBase ch.val + 0x18) 0 16 = (if cellFlag s.chip ch.val lfLnOpen then 0 else rb.toNat) ∧ fld t (cellBase ch.val + 0x18) 16 16 = dr.toNat
            ∧ fld t (cellBase ch.val + 0x1C) 0 16 = vl.toNat ∧ fld t (cellBase ch.val + 0x1C) 16 8 = (if (cell s.chip ch.val).mode = 3 then vres.toNat else 0)
            ∧ (0 ≤ vl.toInt → cellFlag t ch.val lfReverse = false)
            ∧ (cell t ch.val).mode = (cell s.chip ch.val).mode ∧ (cell t ch.val).cur = (cell s.chip ch.val).cur
            ∧ onlyPoints (· = pt 5 ch.val) s.chip t
            ∧ Changes [.cells, .points] (regsAt [cellBase ch.val + 0x18, cellBase ch.val + 0x1C, cellStat ch.val]) s.chip t)
  ∧ (∀ (s : State) (ch : Fin 48) (k : Fin 11),
     (k.val < 6) →
     (domOn s.chip (cellDom ch.val) = true) →
     (k = 0 ∨ k = 1 ∨ k = 4 → cellLive s.chip ch.val = true) →
     (cellFlag s.chip ch.val lfLnOpen = false ∧ cellFlag s.chip ch.val lfVfieldLow = false ∧ cellFlag s.chip ch.val lfFieldShort = false) →
     (k = 4 → (cell s.chip ch.val).mode = 1) →
     (k = 0 → complianceJudged s.chip ch.val = true) →
     (cellFlag s.chip ch.val (2 + k.val) = false) →
     performs s (.loopFaultSet ch k) fun t =>
          cellFlag t ch.val (2 + k.val) = true ∧ fld t (cellStat ch.val) 16 16 = satInc 16 (fld s.chip (cellStat ch.val) 16 16)
            ∧ ((point s.chip (pt 5 ch.val)).subst = false → natBit (point s.chip (pt 5 ch.val)).flags 2 = false →
                (point t (pt 5 ch.val)).live % 4 = 3 ∧ natBit (point t (pt 5 ch.val)).flags 5 = true
                  ∧ (point t (pt 5 ch.val)).live / 4 = (point s.chip (pt 5 ch.val)).live / 4)
            ∧ onlyPoints (· = pt 5 ch.val) s.chip t
            ∧ Changes [.points] (regAt (cellStat ch.val)) s.chip t)
  ∧ (∀ (s : State) (ch : Fin 48),
     (cellLive s.chip ch.val = true) →
     (cellFlag s.chip ch.val lfLnOpen = false) →
     performs s (.lnSwitchOpen ch) fun t =>
          cellFlag t ch.val lfLnOpen = true ∧ fld t (cellBase ch.val + 0x18) 0 16 = 0 ∧ onlyPoints (· = pt 5 ch.val) s.chip t ∧ Changes [.points] (regsAt [cellBase ch.val + 0x18, cellStat ch.val]) s.chip t)
  ∧ (∀ (s : State) (ch : Fin 48),
     performs s (.lnReconnectTest ch true) (fun t => cellFlag t ch.val lfLnOpen = false ∧ onlyPoints (· = pt 5 ch.val) s.chip t
            ∧ Touches [.points] (regAt (cellStat ch.val)) s.chip t)
        ∧ performs s (.lnReconnectTest ch false) (fun t => t = s.chip))
  ∧ (∀ (s : State) (ch : Fin 48),
     (domOn s.chip (cellDom ch.val) = true) →
     (cellFlag s.chip ch.val lfOvertemp = false) →
     performs s (.overtemp ch true) fun t =>
          cellFlag t ch.val lfOvertemp = true ∧ cellLive t ch.val = false ∧ fld t (cellBase ch.val + 0x24) 0 2 = 0 ∧ (cell t ch.val).tx = none
            ∧ onlyPoints (· = pt 5 ch.val) s.chip t ∧ Changes [.cells, .points] (regsAt [cellBase ch.val + 0x24, cellStat ch.val, fskReg ch.val]) s.chip t)
  ∧ (∀ (s : State) (ch : Fin 48),
     (domOn s.chip (cellDom ch.val) = true) →
     (cellFlag s.chip ch.val lfOvertemp = true) →
     performs s (.overtemp ch false) fun t =>
          cellFlag t ch.val lfOvertemp = false ∧ ((cell s.chip ch.val).opened = true → cellLive t ch.val = false)
            ∧ ((cell s.chip ch.val).mode ≠ 0 → (cell s.chip ch.val).tgt = none → (cell t ch.val).tgt = some (cell s.chip ch.val).mode
                ∧ (opWaits t (.bankStep ch.val) = true ∨ opRuns t (.bankStep ch.val) = true))
            ∧ Changes [.cells, .points, .pwr] (regIn 0x100000 0x130000) s.chip t)
  ∧ (∀ (s : State) (ch : Fin 48),
     (watchdogRuns s.chip ch.val = true) →
     performs s (.wdHold ch) fun t => cellFlag t ch.val 1 = true ∧ Touches [] (regAt (cellStat ch.val)) s.chip t)
  ∧ (∀ (s : State) (ch : Fin 48),
     (watchdogRuns s.chip ch.val = true) →
     (cellFlag s.chip ch.val 1 = true) →
     (fld s.chip (0x100004 + ch.val / 16 * 0x10000) 16 16 ≠ 0) →
     performs s (.wdOpen ch) fun t =>
          (cell t ch.val).opened = true ∧ cellLive t ch.val = false ∧ onlyPoints (· = pt 5 ch.val) s.chip t
            ∧ Changes [.cells, .points] (regsAt [cellBase ch.val + 0x24, cellStat ch.val, fskReg ch.val]) s.chip t)

/-- FORCE, STORE, the trim buttons and the FSK modem complete. (R525, R527, R528, R530, R531, R533, R541, R542, R544, R545) -/
def Obligations.TrimAndModemCommandsComplete : Prop :=
  (∀ (s : State) (ch : Fin 48) (f : Fin 3),
     (nodeMode s.chip = mService) →
     (cellLive s.chip ch.val = true) →
     performs s (.force keeper ch (BitVec.ofNat 32 f.val) allBytes) fun t =>
          fld t (cellBase ch.val + 0x24) 0 2 = f.val ∧ flag t (cellStat ch.val) 13 = decide (f ≠ 0)
            ∧ (f ≠ 0 → (cell t ch.val).last = some (if f = 1 then 4000 else 20000)
                ∧ (cell t ch.val).cur = driveCurrent s.chip ch.val (if f = 1 then 4000 else 20000))
            ∧ Touches [.cells, .points] (regsAt [cellBase ch.val + 0x24, cellStat ch.val]) s.chip t)
  ∧ (∀ (s : State) (ch : Fin 48) (q : Nat),
     (s.chip.trim.storing = none) →
     (q = (match trimCopy s.chip.trim with | some p => (leNat (p.bytes.take 4) + 1) % 2 ^ 32 | none => 1)) →
     performs s (.store keeper ch 0x54530000 12) fun t =>
          t.trim = { s.chip.trim with storing := some (trimBytes q ((List.range 48).map fun k => (reg s.chip (cellBase k + 8)).toNat)) }
            ∧ flag t 0x10000C 0 = true ∧ Touches [.trim] (regsAt [0x10000C, cellBase ch.val + 0x24]) s.chip t)
  ∧ (∀ (s : State) (bs : List Byte),
     (s.chip.trim.storing = some bs) →
     performs s .storeDone fun t =>
          (if trimPage s.chip.trim = some 0 then t.trim = { a := ⟨[], false⟩, b := ⟨bs, false⟩, storing := none }
              else t.trim = { a := ⟨bs, false⟩, b := ⟨[], false⟩, storing := none })
            ∧ flag t 0x10000C 0 = false ∧ fld t 0x10000C 16 16 = leNat (bs.take 4) % 65536
            ∧ Changes [.trim] (regAt 0x10000C) s.chip t)
  ∧ (∀ (s : State) (bs : List Byte) (p : TrimPage) (reached : Fin 258),
     (s.chip.trim.storing = some bs) →
     (trimCopy s.chip.trim = some p) →
     (reached.val < 257) →
     (flag s.chip 0x10000 0 = true) →
     performs s (.railLoss .vaux reached) fun t => trimCopy t.trim = some p ∧ t.trim.storing = none)
  ∧ (∀ (s : State) (ch : Fin 48) (b : Fin 4),
     (buttonCell s.chip = some ch.val) →
     (b.val < 2) →
     (forceOf s.chip ch.val ≠ b.val + 1) →
     performs s (.buttonPress b) fun t =>
          fld t (cellBase ch.val + 0x24) 0 2 = b.val + 1 ∧ (cell t ch.val).last = some (if b = 0 then 4000 else 20000)
            ∧ Touches [.cells, .points] (regsAt [cellBase ch.val + 0x24, cellStat ch.val]) s.chip t)
  ∧ (∀ (s : State) (ch : Fin 48) (b : Fin 4),
     (buttonCell s.chip = some ch.val) →
     (b.val < 2) →
     (forceOf s.chip ch.val = b.val + 1) →
     performs s (.buttonPress b) fun t =>
          fld t (cellBase ch.val + 0x24) 0 2 = 0 ∧ flag t (cellStat ch.val) 13 = false ∧ onlyPoints (· = pt 5 ch.val) s.chip t
            ∧ Touches [.points] (regsAt [cellBase ch.val + 0x24, cellStat ch.val]) s.chip t)
  ∧ (∀ (s : State) (ch : Fin 48) (b : Fin 4) (k : Int),
     (buttonCell s.chip = some ch.val) →
     (2 ≤ b.val) →
     (k = (if b = 2 then 1 else -1)) →
     performs s (.buttonPress b) fun t =>
          (forceOf s.chip ch.val = 1 → signed 16 (fld t (cellBase ch.val + 8) 0 16) = clampInt (-2000) 2000 (signed 16 (fld s.chip (cellBase ch.val + 8) 0 16) + k))
            ∧ (forceOf s.chip ch.val = 2 → signed 16 (fld t (cellBase ch.val + 8) 16 16) = clampInt (-10000) 10000 (signed 16 (fld s.chip (cellBase ch.val + 8) 16 16) + 10 * k))
            ∧ Touches [] (regAt (cellBase ch.val + 8)) s.chip t)
  ∧ (∀ (s : State) (ch : Fin 48) (b : Fin 4) (late : Bool) (k : Int),
     (buttonCell s.chip = some ch.val) →
     (2 ≤ b.val) →
     (k = (if b = 2 then 1 else -1) * (if late then 10 else 1)) →
     performs s (.buttonRepeat b late) fun t =>
          (forceOf s.chip ch.val = 1 → signed 16 (fld t (cellBase ch.val + 8) 0 16) = clampInt (-2000) 2000 (signed 16 (fld s.chip (cellBase ch.val + 8) 0 16) + k))
            ∧ (forceOf s.chip ch.val = 2 → signed 16 (fld t (cellBase ch.val + 8) 16 16) = clampInt (-10000) 10000 (signed 16 (fld s.chip (cellBase ch.val + 8) 16 16) + 10 * k))
            ∧ Touches [] (regAt (cellBase ch.val + 8)) s.chip t)
  ∧ (∀ (s : State) (ch : Fin 48),
     (buttonCell s.chip = some ch.val) →
     (s.chip.trim.storing = none) →
     performs s .buttonStoreHold fun t =>
          fld t (cellBase ch.val + 0x24) 0 2 = 0 ∧ flag t (cellStat ch.val) 13 = false ∧ t.trim.storing.isSome = true ∧ flag t 0x10000C 0 = true
            ∧ onlyPoints (· = pt 5 ch.val) s.chip t ∧ Touches [.trim, .points] (regsAt [cellBase ch.val + 0x24, cellStat ch.val, 0x10000C]) s.chip t)
  ∧ (∀ (s : State) (ch : Fin 48) (x : FskTx),
     ((cell s.chip ch.val).tx = some x) →
     (x.sending = false) →
     (flag s.chip (fskReg ch.val) 0 = false ∧ cellLive s.chip ch.val = true) →
     performs s (.fskTxStart ch) fun t =>
          (cell t ch.val).tx = some { x with sending := true, line := fskLine x.data } ∧ flag t (fskReg ch.val) 1 = true ∧ Touches [.cells] (regAt (fskReg ch.val)) s.chip t)
  ∧ (∀ (b : Byte) (data : List Byte),
     fskLine (b :: data) = [false, b.getLsbD 0, b.getLsbD 1, b.getLsbD 2, b.getLsbD 3, b.getLsbD 4, b.getLsbD 5, b.getLsbD 6, b.getLsbD 7,
            !((((((((b.getLsbD 0 != b.getLsbD 1) != b.getLsbD 2) != b.getLsbD 3) != b.getLsbD 4) != b.getLsbD 5) != b.getLsbD 6) != b.getLsbD 7)), true] ++ fskLine data)
  ∧ (∀ (s : State) (ch : Fin 48) (x : FskTx),
     ((cell s.chip ch.val).tx = some x) →
     (x.sending = false) →
     (flag s.chip (fskReg ch.val) 0 = true) →
     performs s (.fskCarrierTimeout ch) fun t =>
          t = endFsk s.chip ch.val stNoResource ∧ (cell t ch.val).tx = none ∧ (∀ fn : Fn, ∀ i ∈ (fnSt t fn.val).inflight, i.what ≠ .fsk ch.val)
            ∧ (cell t ch.val).rxBlank = (cell s.chip ch.val).rxBlank ∧ Changes [.cells] (regAt (fskReg ch.val)) s.chip t)
  ∧ (∀ (s : State) (ch : Fin 48) (x : FskTx),
     ((cell s.chip ch.val).tx = some x) →
     (x.sending = true) →
     performs s (.fskTxEnd ch) fun t =>
          (cell t ch.val).tx = none ∧ (cell t ch.val).rxBlank = s.chip.ot + 2 ∧ flag t (fskReg ch.val) 1 = false
            ∧ (∀ fn : Fn, ∀ i ∈ (fnSt t fn.val).inflight, i.what ≠ .fsk ch.val) ∧ Changes [.cells] (regAt (fskReg ch.val)) s.chip t)
  ∧ (∀ (s : State) (ch : Fin 48) (data : List Byte) (st : Byte),
     (fskHears s.chip ch.val = true ∧ (cell s.chip ch.val).rxCut = false) →
     performs s (.fskRxEnd ch data st) fun t =>
          fld t (fskReg ch.val) 16 16 = (if st.toNat % 16 = 0 ∧ data.length ≤ 255 then fld s.chip (fskReg ch.val) 16 16 else satInc 16 (fld s.chip (fskReg ch.val) 16 16))
            ∧ (∃ c1 : Chip, t = putEvents c1 (ownerFn (ownerOf s.chip (cellPt ch.val))) (eventEntries 11 (frameNum s.chip) s.chip.ot 0
                (ptBytes (cellPt ch.val) ++ natLe 1 (min 255 data.length) ++ natLe 1 (if 255 < data.length then (st.toNat % 16) ||| 4 else st.toNat % 16)
                  ++ natLe 3 0 ++ data.take 40) (pieces48 6 ((data.take 255).drop 40))) ∧ Touches [] (regAt (fskReg ch.val)) s.chip c1)
            ∧ Changes [] (regAt (fskReg ch.val)) s.chip t)
  ∧ (∀ (s : State) (ch : Fin 48) (on : Bool),
     (on = true → fskHears s.chip ch.val = true) →
     performs s (.fskCarrierDetect ch on) fun t => flag t (fskReg ch.val) 0 = on ∧ Touches [] (regAt (fskReg ch.val)) s.chip t)

/-- A contact sample, the pulse measurement and the trip inputs complete. (R549, R551, R558, R559, R560, R563, R572, R578, R579) -/
def Obligations.ContactPulseAndTripCommandsComplete : Prop :=
  (∀ (s : State) (n : Fin 64) (ohm : Option Nat) (v : Nat),
     (domOn s.chip 26 = true ∧ diMode s.chip n.val ≠ 0) →
     (v = diClass s.chip n.val ohm) →
     (v = fld s.chip (diStat n.val) 0 2 ∨ diBeyond s.chip n.val (fld s.chip (diStat n.val) 0 2) v ohm = false) →
     performs s (.contactSample n ohm) fun t =>
          fld t (diStat n.val) 16 12 = (match ohm with | some r => min 4095 (r / 10) | none => 4095)
            ∧ fld t (diStat n.val) 0 2 = fld s.chip (diStat n.val) 0 2 ∧ (contactSt t n.val).count = 0
            ∧ Touches [.contacts] (regAt (diStat n.val)) s.chip t)
  ∧ (∀ (s : State) (n : Fin 64) (ohm : Option Nat) (v : Nat),
     (domOn s.chip 26 = true ∧ diMode s.chip n.val ≠ 0) →
     (v = diClass s.chip n.val ohm) →
     (v ≠ fld s.chip (diStat n.val) 0 2 ∧ diBeyond s.chip n.val (fld s.chip (diStat n.val) 0 2) v ohm = true) →
     (fld s.chip (diCfg n.val) 8 8 ≤ (if (contactSt s.chip n.val).cand = v then (contactSt s.chip n.val).count + 1 else 1)) →
     performs s (.contactSample n ohm) fun t =>
          fld t (diStat n.val) 0 2 = v ∧ fld t (diCnt n.val) 0 16 = satInc 16 (fld s.chip (diCnt n.val) 0 16)
            ∧ Changes [.contacts] (regsAt [diStat n.val, diCnt n.val]) s.chip t)
  ∧ (∀ (s : State) (m : Fin 16) (e : PulseStep) (l : Bool),
     (domOn s.chip 26 = true ∧ piEn s.chip m.val = true) →
     (l = piLevel s.chip m.val e.mv ∧ l ≠ (pulseSt s.chip m.val).level) →
     (fld s.chip (piBase m.val) 8 8 * 40 ≤ e.width) →
     (l ≠ flag s.chip (piBase m.val) 1) →
     performs s (.pulseEdge m e) fun t =>
          pulseCount t m.val = (pulseCount s.chip m.val + 1) % 2 ^ 48 ∧ flag t (piBase m.val + 0x10) 1 = false
            ∧ pulseSt t m.val = (match (pulseSt s.chip m.val).ref with
              | none => { pulseSt s.chip m.val with level := l, ref := some e.time, last := e.time, edges := 0 }
              | some _ => { pulseSt s.chip m.val with level := l, last := e.time, edges := (pulseSt s.chip m.val).edges + 1 })
            ∧ Touches [.pulses] (regsAt [piBase m.val + 0x10, piBase m.val + 0x14, piBase m.val + 0x18]) s.chip t)
  ∧ (∀ (s : State) (m : Fin 16) (e : PulseStep) (l : Bool),
     (l = piLevel s.chip m.val e.mv) →
     (l = (pulseSt s.chip m.val).level ∨ e.width < fld s.chip (piBase m.val) 8 8 * 40 ∨ l = flag s.chip (piBase m.val) 1) →
     performs s (.pulseEdge m e) fun t =>
          pulseCount t m.val = pulseCount s.chip m.val ∧ onlyParts [.pulses] s.chip t
            ∧ (pulseSt t m.val = pulseSt s.chip m.val ∨ pulseSt t m.val = { pulseSt s.chip m.val with level := l }))
  ∧ (∀ (s : State) (m : Fin 16) (time r : Nat),
     (domOn s.chip 26 = true ∧ piEn s.chip m.val = true) →
     ((pulseSt s.chip m.val).ref = some r) →
     (1 ≤ (pulseSt s.chip m.val).edges ∧ r < (pulseSt s.chip m.val).last) →
     (pulseStopped s.chip m.val time = false) →
     performs s (.gateEnd m time) fun t =>
          pulseFreq (pulseSt t m.val) = ((pulseSt s.chip m.val).edges * 400000000 : Nat) / (((pulseSt s.chip m.val).last - r : Nat) : Rat)
            ∧ (pulseSt t m.val).ref = some (pulseSt s.chip m.val).last ∧ (pulseSt t m.val).edges = 0
            ∧ Touches [.pulses] (regAt (piBase m.val + 0x10)) s.chip t)
  ∧ (∀ (s : State) (m : Fin 16),
     (domOn s.chip 26 = true ∧ piEn s.chip m.val = true) →
     performs s (.pulseTimeout m) fun t =>
          pulseFreq (pulseSt t m.val) = 0 ∧ flag t (piBase m.val + 0x10) 0 = false ∧ flag t (piBase m.val + 0x10) 1 = true
            ∧ Touches [.pulses] (regAt (piBase m.val + 0x10)) s.chip t)
  ∧ (∀ (s : State) (x : Word),
     performs s (.tripCauseRise x) fun t =>
          t.trips.inputs = x.toNat ∧ t.trips.causes = causesOf s.chip x.toNat
            ∧ (∀ j : Fin 32, tripCode t j.val = tripNext (tripEnt s.chip j.val) (tripCode s.chip j.val) (natBit s.chip.trips.causes j.val)
                (causeOf (tripEnt s.chip j.val) x.toNat))
            ∧ (∀ n : Fin 12, natBit (tripLegs t) n.val = true → legUp t n.val = false)
            ∧ Touches [.trips, .legs] (fun off => regIn 0x130900 0x130980 off || regsAt [0x130818, 0x13081C] off || regIn 0x140100 0x140400 off) s.chip t)
  ∧ (∀ (s : State) (x : Word),
     performs s (.tripCauseFall x) fun t =>
          t.trips.inputs = x.toNat ∧ t.trips.causes = causesOf s.chip x.toNat
            ∧ (∀ j : Fin 32, tripCode t j.val = tripNext (tripEnt s.chip j.val) (tripCode s.chip j.val) (natBit s.chip.trips.causes j.val)
                (causeOf (tripEnt s.chip j.val) x.toNat))
            ∧ (∀ n : Fin 12, natBit (tripLegs t) n.val = true → legUp t n.val = false)
            ∧ Touches [.trips, .legs] (fun off => regIn 0x130900 0x130980 off || regsAt [0x130818, 0x13081C] off || regIn 0x140100 0x140400 off) s.chip t)

/-- The arming, the carrier, the shorts and the watchdog of a leg, and a position interface, complete. (R588, R589, R590, R593, R598, R599, R600, R602, R605, R607, R608, R609) -/
def Obligations.LegAndPositionCommandsComplete : Prop :=
  (∀ (s : State) (n : Fin 12),
     (armRej s.chip n.val = 0) →
     (pairOf s.chip n.val = none) →
     (legState s.chip n.val = 0 ∨ legState s.chip n.val = 3) →
     performs s (.armRequest keeper n 1 allBytes) fun t =>
          legState t n.val = 1 ∧ fld t (legStat n.val) 3 3 = 0 ∧ Touches [] (regsAt [legStat n.val, legBase n.val + 0x10]) s.chip t)
  ∧ (∀ (s : State) (n : Fin 12),
     (armRej s.chip n.val ≠ 0) →
     (isFollower s.chip n.val = false) →
     performs s (.armRequest keeper n 1 allBytes) fun t =>
          legState t n.val = legState s.chip n.val ∧ fld t (legStat n.val) 12 4 = armRej s.chip n.val
            ∧ Touches [] (regsAt [legStat n.val, legBase n.val + 0x10]) s.chip t)
  ∧ (∀ (s : State) (n : Fin 12),
     (legUp s.chip n.val = true) →
     (pairOf s.chip n.val = none) →
     performs s (.legDisarm keeper n 0 allBytes) fun t =>
          legState t n.val = 0 ∧ fld t (legStat n.val) 8 4 = 6 ∧ (leg t n.val).next = none
            ∧ Touches [.legs] (regsAt [legStat n.val, legBase n.val + 0x10]) s.chip t)
  ∧ (∀ (s : State) (n : Fin 12),
     (legState s.chip n.val = 1 ∧ domOn s.chip 22 = true) →
     performs s (.prechargeEnd n) fun t => legState t n.val = 2 ∧ Touches [] (regAt (legStat n.val)) s.chip t)
  ∧ (∀ (s : State) (n : Fin 12) (x : BitVec 16) (xs : List (BitVec 16)),
     (domOn s.chip 22 = true) →
     (legGrp s.chip n.val = 7) →
     ((signed 16 x.toNat).natAbs ≤ fld s.chip (legBase n.val + 8) 0 9 * 50) →
     performs s (.carrierZero n (x :: xs)) fun t =>
          fld t (legBase n.val + 0x18) 16 16 = x.toNat ∧ (leg t n.val).firing = false
            ∧ (leg t n.val).fired = false ∧ (leg t n.val).left = false ∧ (leg t n.val).clamp = (reg s.chip (legBase n.val + 0xC)).toNat
            ∧ (leg t n.val).sc = (reg s.chip (legBase n.val + 8)).toNat
            ∧ (legState s.chip n.val = 2 → (leg t n.val).next = none ∧ (leg t n.val).runs = true
                ∧ fld t (legBase n.val + 0x18) 0 15
                  = limitTon s.chip n.val ((leg s.chip n.val).next.getD (fld s.chip (legBase n.val + 0x18) 0 15) : Nat) % 2 ^ 15)
            ∧ legState t n.val = legState s.chip n.val ∧ Touches [.legs] (regAt (legBase n.val + 0x18)) s.chip t)
  ∧ (∀ (s : State) (n : Fin 12) (x : BitVec 16) (xs : List (BitVec 16)),
     (domOn s.chip 22 = true) →
     (legGrp s.chip n.val = 7 ∧ legState s.chip n.val = 2) →
     ((leg s.chip n.val).runs = false ∧ (leg s.chip n.val).next = none) →
     (fld s.chip (legBase n.val + 0x18) 0 15 = 0) →
     (fld s.chip (legBase n.val + 8) 0 9 * 50 < (signed 16 x.toNat).natAbs) →
     performs s (.carrierZero n (x :: xs)) fun t =>
          fld t (legBase n.val + 0x18) 16 16 = x.toNat ∧ legState t n.val = 3 ∧ flag t (legStat n.val) 3 = true ∧ fld t (legStat n.val) 8 4 = 8
            ∧ Changes [.legs] (regsAt [legStat n.val, legBase n.val + 0x18]) s.chip t)
  ∧ (∀ (s : State) (n : Fin 12) (xs : List (BitVec 16)),
     (domOn s.chip 22 = true) →
     (xs.length = (groupOf s.chip n.val).length) →
     performs s (.carrierZero n xs) fun t =>
          (groupOf s.chip n.val).map (fun k => fld t (legBase k + 0x18) 16 16) = xs.map BitVec.toNat
            ∧ Changes [.legs] (regIn 0x140100 0x140400) s.chip t)
  ∧ (∀ (s : State) (n : Fin 12) (seen : LegSense) (blanking : Bool),
     (detectorFires s.chip n.val seen = true) →
     (domOn s.chip 22 = true ∧ legUp s.chip n.val = true) →
     (legGrp s.chip n.val = 7) →
     performs s (.shortDetectorFire n ⟨seen, blanking⟩) fun t =>
          (leg t n.val).fired = true
            ∧ (blanking = true → (leg t n.val).clamped = true ∧ onlyParts [.legs] s.chip t)
            ∧ (blanking = false → legState t n.val = 3 ∧ flag t (legStat n.val) 3 = true ∧ fld t (legStat n.val) 8 4 = 8
                ∧ fld t (legStat n.val) 24 8 = satInc 8 (fld s.chip (legStat n.val) 24 8) ∧ Changes [.legs] (regAt (legStat n.val)) s.chip t))
  ∧ (∀ (s : State) (n : Fin 12) (seen : LegSense),
     (detectorFires s.chip n.val seen = true) →
     (domOn s.chip 22 = true) →
     (legState s.chip n.val = 0 ∧ (leg s.chip n.val).left = true) →
     (legGrp s.chip n.val = 7) →
     performs s (.shortDetectorFire n ⟨seen, false⟩) fun t =>
          legState t n.val = 3 ∧ flag t (legStat n.val) 3 = true ∧ fld t (legStat n.val) 8 4 = 8 ∧ Changes [.legs] (regAt (legStat n.val)) s.chip t)
  ∧ (∀ (s : State) (n k : Fin 12) (seen : LegSense) (blanking : Bool),
     (detectorFires s.chip n.val seen = true) →
     (domOn s.chip 22 = true ∧ legUp s.chip n.val = true) →
     (k ≠ n ∧ k.val ∈ groupOf s.chip n.val ∧ (leg s.chip k.val).fired = true) →
     performs s (.shortDetectorFire n ⟨seen, blanking⟩) fun t =>
          legState t n.val = 3 ∧ legState t k.val = 3 ∧ flag t (legStat n.val) 4 = true ∧ flag t (legStat k.val) 4 = true
            ∧ Changes [.legs] (regIn 0x140100 0x140400) s.chip t)
  ∧ (∀ (s : State) (n : Fin 12) (seen : LegSense) (blanking : Bool),
     (detectorFires s.chip n.val seen = false) →
     performs s (.shortDetectorFire n ⟨seen, blanking⟩) fun t =>
          leg t n.val = { leg s.chip n.val with firing := false, vds := false } ∧ (∀ k : Fin 12, k ≠ n → leg t k.val = leg s.chip k.val)
            ∧ onlyParts [.legs] s.chip t)
  ∧ (∀ (s : State) (n : Fin 12) (seen : LegSense),
     (detectorFires s.chip n.val seen = false) →
     (domOn s.chip 22 = true ∧ legUp s.chip n.val = true) →
     ((leg s.chip n.val).clamped = true) →
     performs s (.blankingEnd n seen) fun t =>
          (leg t n.val).clamped = false ∧ (leg t n.val).firing = false ∧ legState t n.val = legState s.chip n.val
            ∧ fld t (legStat n.val) 16 8 = satInc 8 (fld s.chip (legStat n.val) 16 8) ∧ Changes [.legs] (regAt (legStat n.val)) s.chip t)
  ∧ (∀ (s : State) (n : Fin 12) (seen : LegSense),
     (detectorFires s.chip n.val seen = true) →
     (domOn s.chip 22 = true ∧ legUp s.chip n.val = true) →
     (legGrp s.chip n.val = 7) →
     performs s (.blankingEnd n seen) fun t =>
          legState t n.val = 3 ∧ flag t (legStat n.val) 3 = true ∧ Changes [.legs] (regAt (legStat n.val)) s.chip t)
  ∧ (∀ (per ton dt h k : Nat),
     (ton = 0 ∨ (2 * dt ≤ ton ∧ ton + 2 * dt + 400 ≤ per)) →
     ((carrierGates per ton dt h).gh = .high ∧ (carrierGates per ton dt k).gl = .high) →
     2 * dt ≤ (h - k) + (k - h))
  ∧ (∀ (s : State) (n : Fin 12),
     (legUp s.chip n.val = true) →
     (pairOf s.chip n.val = none) →
     ((leg s.chip n.val).fresh ≠ some s.chip.ot) →
     performs s (.legWatchdogExpiry n) fun t =>
          legState t n.val = 0 ∧ flag t (legStat n.val) 5 = true ∧ fld t (legStat n.val) 8 4 = 5 ∧ Touches [.legs] (regAt (legStat n.val)) s.chip t)
  ∧ (∀ (s : State) (n : Fin 4) (a b : Bool) (up : Bool),
     (domOn s.chip 22 = true ∧ flag s.chip (posBase n.val) 0 = true) →
     ((a ≠ (posSt s.chip n.val).qa ∧ b = (posSt s.chip n.val).qb) ∨ (a = (posSt s.chip n.val).qa ∧ b ≠ (posSt s.chip n.val).qb)) →
     (up = ((a != (posSt s.chip n.val).qb) != flag s.chip (posBase n.val) 1)) →
     performs s (.quadratureEdge n a b) fun t =>
          reg t (posBase n.val + 8) = (if up then reg s.chip (posBase n.val + 8) + 1 else reg s.chip (posBase n.val + 8) - 1)
            ∧ posSt t n.val = { posSt s.chip n.val with qa := a, qb := b } ∧ Touches [.pos] (regAt (posBase n.val + 8)) s.chip t)
  ∧ (∀ (s : State) (n : Fin 4) (a b : Bool),
     (domOn s.chip 22 = true ∧ flag s.chip (posBase n.val) 0 = true) →
     (a ≠ (posSt s.chip n.val).qa ∧ b ≠ (posSt s.chip n.val).qb) →
     performs s (.quadratureEdge n a b) fun t =>
          reg t (posBase n.val + 8) = reg s.chip (posBase n.val + 8) ∧ (posSt t n.val).warn = true
            ∧ fld t (posBase n.val + 0x10) 16 16 = satInc 16 (fld s.chip (posBase n.val + 0x10) 16 16) ∧ Touches [.pos] (regAt (posBase n.val + 0x10)) s.chip t)
  ∧ (∀ (s : State) (n : Fin 4),
     (domOn s.chip 22 = true ∧ flag s.chip (posBase n.val) 0 = true) →
     (fld s.chip (posBase n.val) 2 2 ≠ 0) →
     (fld s.chip (posBase n.val) 2 2 = 2 → flag s.chip (posBase n.val + 0x10) 0 = false) →
     performs s (.indexEdge n) fun t =>
          reg t (posBase n.val + 8) = 0 ∧ flag t (posBase n.val + 0x10) 0 = true ∧ Touches [] (regsAt [posBase n.val + 8, posBase n.val + 0x10]) s.chip t)

/-- An evaluation, a deadline miss, a capture's timeout and release and a lane's failure complete. (R623, R624, R626, R651, R656, R657, R659, R673, R676, R1211) -/
def Obligations.ControlCommandsComplete : Prop :=
  (∀ (s : State) (l : Fin 128) (cycles : Nat) (r : EvalReq),
     (nextEval s.chip = some r) →
     (r.loop = l.val) →
     (loopRuns s.chip l.val = true) →
     (laneIn s.chip = true) →
     (evalLate s.chip l.val cycles = false) →
     performs s (.loopEvaluation l cycles) fun t =>
          t.evq = s.chip.evq.erase r ∧ fld t (loopBase l.val + 4) 16 8 = 0 ∧ fld t (loopBase l.val + 0x20) 16 16 = min 65535 cycles
            ∧ onlyParts [.regs, .hostMem, .fns, .rcd, .diag, .sdl, .evq, .loops, .points, .cells, .legs, .tune, .tables, .free, .pwr] s.chip t)
  ∧ (∀ (s : State) (l : Fin 128) (cycles : Nat) (r : EvalReq),
     (nextEval s.chip = some r) →
     (r.loop = l.val) →
     (loopRuns s.chip l.val = true) →
     (laneIn s.chip = true) →
     (evalLate s.chip l.val cycles = false) →
     ((loopSt s.chip l.val).fresh = true) →
     ((point s.chip (pvPoint s.chip l.val)).live % 4 ≠ 3) →
     performs s (.loopEvaluation l cycles) fun t =>
          (loopSt t l.val).fresh = false ∧ reg t (loopBase l.val + 0x1C) = BitVec.ofNat 32 (lp s.chip l.val 0x24 4)
            ∧ loopAuto t l.val = (loopFlag s.chip l.val 3 && nodeMode s.chip != mService))
  ∧ (∀ (s : State) (l : Fin 128) (cycles : Nat) (r : EvalReq),
     (nextEval s.chip = some r) →
     (r.loop = l.val) →
     (loopRuns s.chip l.val = true) →
     (laneIn s.chip = true) →
     (evalLate s.chip l.val cycles = true) →
     performs s (.loopEvaluation l cycles) fun t =>
          t.evq = s.chip.evq.erase r ∧ flag t (loopStat l.val) 10 = true ∧ t.points = s.chip.points ∧ t.loops = s.chip.loops
            ∧ fld t (loopBase l.val + 4) 0 16 = satInc 16 (fld s.chip (loopBase l.val + 4) 0 16)
            ∧ Changes [.evq, .tune, .tables, .free] (fun off => regsAt [loopStat l.val, loopBase l.val + 4] off || regIn 0x154000 0x154080 off) s.chip t)
  ∧ (∀ (s : State) (l : Fin 128) (r : EvalReq),
     (waiting s.chip l.val = some r) →
     performs s (.deadlineMiss l) fun t =>
          t.evq = s.chip.evq.erase r ∧ flag t (loopStat l.val) 10 = true
            ∧ fld t (loopBase l.val + 4) 0 16 = satInc 16 (fld s.chip (loopBase l.val + 4) 0 16)
            ∧ fld t (loopBase l.val + 4) 16 8 = satInc 8 (fld s.chip (loopBase l.val + 4) 16 8)
            ∧ Changes [.evq, .tune, .tables, .free] (fun off => regsAt [loopStat l.val, loopBase l.val + 4] off || regIn 0x154000 0x154080 off) s.chip t)
  ∧ (∀ (s : State) (b : Fin 4),
     (tuneState s.chip b.val = 1) →
     (cfgTimeout (tuneSt s.chip b.val).cfg ≠ 0) →
     performs s (.captureTimeout b) fun t =>
          tuneState t b.val = 3 ∧ fld t (tuneBase b.val) 2 3 = 3 ∧ Touches [] (regAt (tuneBase b.val)) s.chip t)
  ∧ (∀ (s : State) (b : Fin 4),
     (tuneState s.chip b.val = 3) →
     performs s (.release keeper b 1 allBytes) fun t =>
          tuneState t b.val = 0 ∧ fld t (tuneBase b.val) 2 3 = 0 ∧ flag t (tuneBase b.val) 5 = flag s.chip (tuneBase b.val) 5 ∧ t.tables = s.chip.tables
            ∧ Touches [] (regsAt [tuneBase b.val, tuneBase b.val + 0xC]) s.chip t)
  ∧ (∀ (s : State) (lane : Fin 4),
     (domOn s.chip 23 = true) →
     (flag s.chip 0x150004 lane.val = true) →
     performs s (.macLaneSelftest lane true) (fun t => t = s.chip)
        ∧ performs s (.macLaneSelftest lane false) fun t =>
          flag t 0x150004 lane.val = false ∧ Changes [] (regAt 0x150004) s.chip t)

/-- A CAN controller takes a pending frame onto its bus, and the frame leaves its buffer with its outcome. (R925, R926, R927, R928, R931) -/
def Obligations.CanTransmissionCompletes : Prop :=
  (∀ (s : State) (n : Fin 8) (b : Nat) (x : CanTx),
     (canMayStart s.chip n.val = true) →
     (chooseBuf s.chip n.val = some (b, x)) →
     performs s (.startOfFrame n) fun t =>
          canBuf t n.val b = some { x with onBus := true } ∧ (∀ k : Fin 4, k.val ≠ b → canBuf t n.val k.val = canBuf s.chip n.val k.val)
            ∧ Touches [.can] noReg s.chip t)
  ∧ (∀ (s : State) (n : Fin 8) (b : Nat) (x : CanTx) (ts : BitVec 64),
     (onBusBuf s.chip n.val = some b) →
     (canBuf s.chip n.val b = some x) →
     ((canSt s.chip n.val).mode ≠ 3) →
     (b ≠ 2 ∨ canBuf s.chip n.val 3 = none) →
     performs s (.txOutcome n 0 ts) fun t =>
          canBuf t n.val b = none ∧ reg t (canBase n.val + 0x20 + b * 8) = BitVec.ofNat 32 ts.toNat
            ∧ reg t (canBase n.val + 0x24 + b * 8) = BitVec.ofNat 32 (ts.toNat / 2 ^ 32)
            ∧ Changes [.can, .free] (regIn (canBase n.val) (canBase n.val + 0x100)) s.chip t)
  ∧ (∀ (s : State) (n : Fin 8) (b : Nat) (x : CanTx) (ts : BitVec 64) (o : Fin 3),
     (o ≠ 0) →
     (onBusBuf s.chip n.val = some b) →
     (canBuf s.chip n.val b = some x) →
     (oneShot s.chip n.val b = false) →
     (x.drop = false ∧ x.tmo = false) →
     (b ≠ 2 ∨ canBuf s.chip n.val 3 = none) →
     performs s (.txOutcome n o ts) fun t => canBuf t n.val b = some { x with onBus := false } ∧ Touches [.can] noReg s.chip t)
  ∧ (∀ (s : State) (n : Fin 8) (b : Fin 3) (x : CanTx),
     (canBuf s.chip n.val b.val = some x) →
     (x.onBus = false) →
     (b ≠ 2 ∨ canBuf s.chip n.val 3 = none) →
     performs s (.txTmo n b) fun t => canBuf t n.val b.val = none ∧ Changes [.can] noReg s.chip t)

/-- A CAN controller takes a frame that a filter accepts, counts its errors, goes bus-off and recovers. (R932, R933, R934, R935, R939, R940, R941, R942, R768) -/
def Obligations.CanReceptionAndErrorsComplete : Prop :=
  (∀ (s : State) (n : Fin 8) (format : BitVec 5) (ident : BitVec 29) (dlc : BitVec 4) (data : List Byte) (ts : BitVec 64) (f : Nat),
     (canHears s.chip n.val = true) →
     (natBit format.toNat 1 = false ∨ flag s.chip (canCtl n.val) 2 = true) →
     (callCtrl s.chip ≠ some n.val) →
     (fltFor s.chip n.val format.toNat ident.toNat = some f) →
     performs s (.frameReceived n format ident dlc data ts) fun t =>
          flag t (hpbBase n.val (fld s.chip (fltBase n.val f) 2 2)) 0 = true
            ∧ fld t (hpbBase n.val (fld s.chip (fltBase n.val f) 2 2)) 1 5 = format.toNat
            ∧ fld t (hpbBase n.val (fld s.chip (fltBase n.val f) 2 2)) 6 4 = dlc.toNat
            ∧ fld t (hpbBase n.val (fld s.chip (fltBase n.val f) 2 2)) 10 5 = f
            ∧ reg t (hpbBase n.val (fld s.chip (fltBase n.val f) 2 2) + 4) = BitVec.ofNat 32 ident.toNat
            ∧ reg t (hpbBase n.val (fld s.chip (fltBase n.val f) 2 2) + 8) = BitVec.ofNat 32 ts.toNat
            ∧ Changes [.free] (regIn (canBase n.val) (canBase n.val + 0x2000)) s.chip t)
  ∧ (∀ (s : State) (n : Fin 8),
     (canHears s.chip n.val = true) →
     (flag s.chip (canCtl n.val) 2 = false) →
     performs s (.protocolException n) fun t =>
          fld t (canCnt n.val) 8 8 = satInc 8 (fld s.chip (canCnt n.val) 8 8) ∧ Touches [] (regAt (canCnt n.val)) s.chip t)
  ∧ (∀ (s : State) (n : Fin 8) (lec : BitVec 3) (dataPhase : Bool) (tec : BitVec 9) (rec' : BitVec 8),
     (canHears s.chip n.val = true) →
     performs s (.canBusError n lec dataPhase tec rec') fun t =>
          fld t (canErr n.val) 0 8 = min tec.toNat 255 ∧ fld t (canErr n.val) 8 8 = rec'.toNat
            ∧ fld t (canErr n.val) (if dataPhase then 19 else 16) 3 = lec.toNat
            ∧ canState t n.val = b2n (decide (127 < tec.toNat) || decide (127 < rec'.toNat))
            ∧ Touches [] (regsAt [canErr n.val, canStatReg n.val]) s.chip t)
  ∧ (∀ (s : State) (n : Fin 8),
     (canHears s.chip n.val = true) →
     performs s (.busOff n) fun t =>
          canState t n.val = (if flag s.chip (canCtl n.val) 3 then 3 else 2) ∧ (∀ b : Fin 4, canBuf t n.val b.val = none)
            ∧ fld t (canCnt n.val) 0 8 = satInc 8 (fld s.chip (canCnt n.val) 0 8)
            ∧ flag t callStat 3 = callCanDown t ∧ Changes [.can] (regsAt [canCtl n.val, canStatReg n.val, canCnt n.val, callStat]) s.chip t)
  ∧ (∀ (s : State) (n : Fin 8),
     (canState s.chip n.val = 3) →
     (canRuns s.chip n.val = true) →
     performs s (.recoveryEnd n) fun t =>
          canState t n.val = 0 ∧ fld t (canErr n.val) 0 16 = 0 ∧ flag t callStat 3 = callCanDown t
            ∧ Changes [] (regsAt [canErr n.val, canStatReg n.val, callStat]) s.chip t
            ∧ (flag s.chip callStat 3 = callCanDown s.chip → Touches [] (regsAt [canErr n.val, canStatReg n.val, callStat]) s.chip t))

/-- RECOVER, a MODE write and its effect complete in a CAN controller. (R768, R941, R943, R945) -/
def Obligations.CanControlCompletes : Prop :=
  (∀ (s : State) (n : Fin 8),
     (canState s.chip n.val = 2) →
     performs s (.recover keeper n 0x100 2) fun t =>
          canState t n.val = 3 ∧ flag t (canCtl n.val) 8 = false ∧ flag t callStat 3 = callCanDown t
            ∧ Changes [] (regsAt [canCtl n.val, canStatReg n.val, callStat]) s.chip t
            ∧ (flag s.chip callStat 3 = callCanDown s.chip → Touches [] (regsAt [canCtl n.val, canStatReg n.val]) s.chip t))
  ∧ (∀ (s : State) (n : Fin 8) (m : Fin 4),
     performs s (.canModeWrite keeper n (BitVec.ofNat 32 m.val) 1) fun t =>
          fld t (canCtl n.val) 0 2 = m.val ∧ (canSt t n.val).mode = (canSt s.chip n.val).mode
            ∧ flag t callStat 3 = callCanDown t ∧ Changes [.can] (regsAt [canCtl n.val, callStat]) s.chip t)
  ∧ (∀ (s : State) (n : Fin 8),
     (onBusBuf s.chip n.val = none) →
     (canDomOn s.chip = true) →
     performs s (.canModeEffect n) fun t =>
          (canSt t n.val).mode = fld s.chip (canCtl n.val) 0 2 ∧ (canSt t n.val).buf = (canSt s.chip n.val).buf
            ∧ (canSt t n.val).fifo = (canSt s.chip n.val).fifo ∧ Touches [.can] noReg s.chip t)

/-- The close of a record, its tail page, an OT page, the end of an arm and of a clear complete. (R770, R797, R798, R809, R811) -/
def Obligations.RecorderTimedStepsComplete : Prop :=
  (∀ (s : State) (k : Fin 257) (o : OpenRec),
     (openOf s.chip (rowSource k.val) = some o) →
     (o.ends ≤ s.chip.ot) →
     performs s (.recordClose k) fun t => t = closeRec s.chip o.seq ∧ (∀ q ∈ t.rcd.opens, q.seq ≠ o.seq) ∧ Changes [] noReg s.chip t)
  ∧ (∀ (s : State) (k : Fin 257) (o : OpenRec) (r : Rec),
     (((s.chip.rcd.opens ++ s.chip.rcd.closing).find? fun o => o.source == rowSource k.val && tailDue s.chip o) = some o) →
     (recImage s.chip (o.seq % 32768) = some r) →
     performs s (.tailPage k) fun t =>
          (∃ p ∈ t.rcd.tail, p.state = r ∧ p.used = true ∧ p.n + 1 = t.rcd.tailN) ∧ t.rcd.image = s.chip.rcd.image ∧ onlyParts [.rcd] s.chip t)
  ∧ (∀ (s : State),
     (s.chip.ot % 65536 = 0) →
     (s.chip.ot ≠ 0) →
     performs s .otPage fun t =>
          t = { s.chip with rcd := { s.chip.rcd with
            otPages := smPut (fun _ => none) s.chip.rcd.otPages s.chip.rcd.otNext (some (s.chip.ot / 65536))
            otNext := (s.chip.rcd.otNext + 1) % 512 } })
  ∧ (∀ (s : State) (a : Nat × Nat),
     (s.chip.rcd.armed = some a) →
     (a.1 ≤ s.chip.ot) →
     performs s .clearArmExpiry fun t =>
          t.rcd = { s.chip.rcd with armed := none } ∧ flag t recStat 1 = false ∧ Touches [.rcd] (regAt recStat) s.chip t)
  ∧ (∀ (s : State) (n : Nat × Nat × Nat × Nat),
     (s.chip.rcd.intent = some n) →
     (flag s.chip recStat 2 = true) →
     performs s .clearDone fun t =>
          t.rcd.intent = none ∧ flag t recStat 2 = false ∧ (flag s.chip recStat 0 = true → t.rcd.held = [])
            ∧ Changes [] (regAt 0x18000C) s.chip t)

/-- The frames of the call panels and the repetition of a call frame complete. (R760, R763, R764, R765, R766) -/
def Obligations.CallCommandsComplete : Prop :=
  (∀ (s : State) (p : Fin 16) (data : List Byte),
     (callHears s.chip = true) →
     (byteAt data 0 = 0x10) →
     (natBit (byteAt data 1) 0 = true) →
     performs s (.accept p data) fun t =>
          t.call.accs = s.chip.call.accs ++ [{ entry := byteAt data 4, cmd := none }]
            ∧ smGet (fun _ => none) t.call.last p.val = some (leNat ((padTo 8 data).drop 2 |>.take 2))
            ∧ t.call.ackSent = some (p.val, leNat ((padTo 8 data).drop 2 |>.take 2)) ∧ Touches [.call, .can] noReg s.chip t)
  ∧ (∀ (s : State) (p : Fin 16) (data : List Byte) (f : CallFrame),
     (callHears s.chip = true) →
     (byteAt data 0 = 0x7F) →
     (s.chip.call.frame = some f) →
     (s.chip.call.due = false) →
     (leNat ((padTo 8 data).drop 2 |>.take 2) = f.seq) →
     performs s (.ack p data) fun t =>
          t.call.frame = (if frameAcked { f with acked := f.acked ||| 2 ^ p.val } then none else some { f with acked := f.acked ||| 2 ^ p.val })
            ∧ Touches [.call] noReg s.chip t)
  ∧ (∀ (s : State) (f : CallFrame),
     (s.chip.call.frame = some f) →
     (s.chip.call.due = false) →
     (f.clear = false ∨ f.sent < 40) →
     performs s .callFrameRepeat fun t =>
          t.call.frame = (if frameAcked f then none else some { f with sent := f.sent + 1 }) ∧ Touches [.call, .can] noReg s.chip t)
  ∧ (∀ (s : State) (f : CallFrame),
     (s.chip.call.frame = some f) →
     (s.chip.call.due = false) →
     (f.clear = true ∧ 40 ≤ f.sent) →
     performs s .callFrameRepeat fun t =>
          t.call.frame = none
            ∧ fld t 0x170018 0 16 = (fld s.chip 0x170018 0 16 ||| (f.targets - (f.targets &&& f.acked))) % 2 ^ 16
            ∧ Touches [.call] (regAt 0x170018) s.chip t)

/-- CREATE, ADMIT, DETACH, REPLACE, RETIRE and ERASE_KEY complete with RESULT 0. (R819, R822, R828, R847, R856, R864, R866) -/
def Obligations.BasinCommandsComplete : Prop :=
  (∀ (s : State),
     (bsnState s.chip = 0) →
     (bsnModeOk s.chip = true) →
     (layoutFits (fld s.chip 0x190004 0 2) (maskOf (presentPorts s.chip)) = true) →
     ((presentPorts s.chip).all (portSuitable s.chip) = true) →
     (createPhyOff s.chip (fld s.chip 0x190004 0 2) = false) →
     performs s (.create keeper 0x101 allBytes) fun t =>
          bsnState t = 2 ∧ bsnMembers t = maskOf (presentPorts s.chip) ∧ fld t bsnCtl 12 4 = 0 ∧ t.bsn.ports = maskOf (presentPorts s.chip)
            ∧ t.bsn.layout = fld s.chip 0x190004 0 2 ∧ t.bsn.units = [] ∧ t.bsn.rebuild = none
            ∧ (∀ m ∈ presentPorts s.chip, drvState t m = 2) ∧ Touches [.bsn, .rcd, .dma, .free] (fun off => regIn 0x190000 0x190400 off || off == dpStat 0) s.chip t)
  ∧ (∀ (s : State) (id g cap : Nat),
     (bsnState s.chip = 0 ∨ bsnState s.chip = 5) →
     (bsnModeOk s.chip = true) →
     (presentPorts s.chip ≠ []) →
     (∀ m ∈ presentPorts s.chip, portSuitable s.chip m = true ∧ cap ≤ portBlocks s.chip m ∧ (∃ sb ∈ (portSuper s.chip m).toList, sb.basinId = id ∧ sb.sgen = g ∧ sb.cap = cap ∧ sb.members = maskOf (presentPorts s.chip) ∧ sb.rebuild = none)) →
     performs s (.basinAdmit keeper 0x102 allBytes) fun t =>
          bsnState t = 2 ∧ bsnMembers t = maskOf (presentPorts s.chip) ∧ fld t bsnCtl 12 4 = 0 ∧ t.bsn.id = id ∧ t.bsn.sgen = g + 1
            ∧ t.bsn.cap = cap ∧ (∀ m ∈ presentPorts s.chip, drvState t m = 2) ∧ Touches [.bsn, .rcd, .dma, .free] (fun off => regIn 0x190000 0x190400 off || off == dpStat 0) s.chip t)
  ∧ (∀ (s : State),
     (bsnServes s.chip = true) →
     performs s (.detach keeper 0x103 allBytes) fun t =>
          bsnState t = 0 ∧ bsnMembers t = 0 ∧ fld t bsnCtl 12 4 = 0 ∧ t.bsn.flight = [] ∧ t.bsn.rewrites = []
            ∧ (∀ m : Fin 4, natBit (bsnMembers s.chip) m.val = true → drvState t m.val = 1)
            ∧ Touches [.bsn, .rcd, .free] (regIn 0x190000 0x190400) s.chip t)
  ∧ (∀ (s : State) (n : Fin 4),
     (bsnState s.chip = 3) →
     (natBit s.chip.bsn.ports n.val = true) →
     (natBit (bsnMembers s.chip) n.val = false) →
     ((presentPorts s.chip).contains n.val = true) →
     (portSuitable s.chip n.val = true) →
     (s.chip.bsn.cap ≤ portBlocks s.chip n.val) →
     performs s (.replace keeper (BitVec.ofNat 32 (0x104 + n.val * 16)) allBytes) fun t =>
          bsnState t = 4 ∧ natBit (bsnMembers t) n.val = true ∧ drvState t n.val = 4 ∧ t.bsn.rebuild = some n.val ∧ t.bsn.cursor = 0
            ∧ fld t 0x190014 0 17 = 0 ∧ fld t bsnCtl 12 4 = 0 ∧ Touches [.bsn] (regsAt [bsnCtl, bsnStat, drvStat n.val, 0x190014]) s.chip t)
  ∧ (∀ (s : State) (n : Fin 4),
     (bsnServes s.chip = true) →
     (natBit (bsnMembers s.chip) n.val = true) →
     (s.chip.bsn.rebuild = none) →
     (lossMasked s.chip.bsn.layout (s.chip.bsn.ports - (bsnMembers s.chip - 2 ^ n.val)) = true) →
     performs s (.retire keeper (BitVec.ofNat 32 (0x105 + n.val * 16)) allBytes) fun t =>
          bsnState t = 3 ∧ natBit (bsnMembers t) n.val = false ∧ drvState t n.val = 1 ∧ fld t bsnCtl 12 4 = 0
            ∧ Touches [.bsn] (regsAt [bsnCtl, bsnStat, drvStat n.val]) s.chip t)
  ∧ (∀ (s : State) (p : Fin 8),
     performs s (.eraseKey keeper (BitVec.ofNat 32 (0x106 + p.val * 16)) allBytes) fun t =>
          t.bsn.keys = (s.chip.bsn.keys.filter fun k => k.owner != p.val) ∧ fld t bsnCtl 12 4 = 0
            ∧ Touches [.bsn, .rcd] (regIn 0x190000 0x190400) s.chip t)

/-- A drive's link that comes up, a member's loss, its health log and its rebuild complete. (R817, R818, R851, R852, R855, R856, R857, R1121) -/
def Obligations.BasinMembersComplete : Prop :=
  (∀ (s : State) (m : Fin 4) (speed width : Fin 5) (d : Drive),
     (starting s.chip = false) →
     (domOn s.chip (2 + m.val) = true) →
     (speed ≠ 0) →
     (width = 1 ∨ width = 2 ∨ width = 4) →
     (flag s.chip 0x190004 4 = false) →
     (([2, 3, 4, 5] : List Nat).contains (drvState s.chip m.val) = false) →
     performs s (.nvPortLinkUp m speed width d) fun t =>
          bDrive t m.val = some { d with data := d.data.foldl (fun b e => smPut zeroBlock b e.1 e.2) [] } ∧ natBit t.bsn.perst m.val = true ∧ drvState t m.val = 1 ∧ fld t (drvStat m.val) 4 3 = speed.val ∧ fld t (drvStat m.val) 7 3 = width.val
            ∧ reg t (drvStat m.val + 4) = BitVec.ofNat 32 (min d.blocks (2 ^ 34)) ∧ Touches [.bsn] (regIn (drvStat m.val) (drvStat m.val + 12)) s.chip t)
  ∧ (∀ (s : State) (m cause : Fin 4),
     (bsnServes s.chip = true) →
     (natBit (bsnMembers s.chip) m.val = true) →
     (s.chip.bsn.rebuild = none) →
     (lossMasked s.chip.bsn.layout (s.chip.bsn.ports - (bsnMembers s.chip - 2 ^ m.val)) = true) →
     performs s (.memberLost m cause) fun t =>
          drvState t m.val = 3 ∧ natBit (bsnMembers t) m.val = false ∧ bsnState t = 3 ∧ (cause = 0 → bDrive t m.val = none)
            ∧ (∀ f ∈ t.bsn.flight, natBit f.waits m.val = false) ∧ Changes [.bsn] (regIn 0x190000 0x190200) s.chip t)
  ∧ (∀ (s : State) (m : Fin 4) (w : Byte),
     (natBit (bsnMembers s.chip) m.val = true) →
     performs s (.healthLogRead m w) fun t => flag t (drvStat m.val) 3 = (w != 0) ∧ Changes [] (regAt (drvStat m.val)) s.chip t)
  ∧ (∀ (s : State) (n : Nat),
     (bsnState s.chip = 4) →
     (s.chip.bsn.rebuild = some n) →
     (s.chip.bsn.cursor + 1 < memberStrips s.chip.bsn.cap) →
     ((s.chip.bsn.cursor + 1) % 262144 ≠ 0) →
     performs s .rebuildStrip fun t =>
          t.bsn = { s.chip.bsn with drives := (writeStrip s.chip n).bsn.drives, cursor := s.chip.bsn.cursor + 1 } ∧ fld t 0x190014 0 17 = (s.chip.bsn.cursor + 1) / 4096 % 2 ^ 17
            ∧ Touches [.bsn] (regAt 0x190014) s.chip t)

/-- A record chunk is written to the log's unit, its completion makes it the unit's tail, and a waveform capture ends. (R826, R827, R832, R835) -/
def Obligations.BasinChunksComplete : Prop :=
  (∀ (s : State) (o : Fin 9) (u : Nat) (x : BUnit),
     (bsnServes s.chip = true) →
     (recordsDue s.chip o.val = true) →
     (∀ r ∈ s.chip.rcd.toBasin, (recBytes r).length = 128) →
     (tailUnit s.chip 1 (codeOfPage o.val) 0 = some (u, x)) →
     (bUnit s.chip u = some x) →
     (usedBlocks x + 32 ≤ unitBlocks) →
     performs s (.chunkWrite o.val) fun t =>
          (∃ f ∈ t.bsn.flight, f.log = o.val ∧ f.unit = u ∧ f.kind = 1 ∧ f.phase = 1
            ∧ f.chunk.body = padBlocks (((recsOf s.chip o.val).take 992).flatMap recBytes))
            ∧ recsOf t o.val = (recsOf s.chip o.val).filter (fun r => !((recsOf s.chip o.val).take 992).contains r)
            ∧ Touches [.bsn, .rcd] noReg s.chip t)
  ∧ (∀ (s : State) (m : Fin 4) (f : BFlight) (x : BUnit),
     (bsnServes s.chip = true) →
     (natBit (bsnMembers s.chip) m.val = true) →
     (s.chip.bsn.flight = [f] ∧ f.waits = 2 ^ m.val) →
     (bUnit s.chip f.unit = some x) →
     performs s (.nvmeCompletion m .done) fun t =>
          (f.phase < 2 → ∃ w ∈ List.range 16, t.bsn.flight = [{ f with phase := f.phase + 1, waits := w }])
            ∧ (2 ≤ f.phase → t.bsn.flight = [] ∧ bUnit t f.unit = some { x with chunks := x.chunks ++ [f.chunk.body.length / 4096] })
            ∧ Touches [.bsn] noReg s.chip t)
  ∧ (∀ (s : State) (m : Fin 4),
     (bsnServes s.chip = true) →
     (natBit (bsnMembers s.chip) m.val = true) →
     performs s (.nvmeCompletion m .failed) fun t => t = memberLost s.chip m.val 3)
  ∧ (∀ (s : State) (m : Fin 4) (b : Nat),
     (bsnServes s.chip = true) →
     (natBit (bsnMembers s.chip) m.val = true) →
     performs s (.nvmeCompletion m (.unread b)) fun t =>
          fld t (drvStat m.val + 0xC) 0 16 = satInc 16 (fld s.chip (drvStat m.val + 0xC) 0 16) ∧ bsnMembers t = bsnMembers s.chip
            ∧ (redundant s.chip m.val b = true → (m.val, b) ∈ t.bsn.rewrites)
            ∧ Touches [.bsn] (regAt (drvStat m.val + 0xC)) s.chip t)
  ∧ (∀ (s : State) (m : Fin 4) (b : Nat),
     (bsnServes s.chip = true) →
     (natBit (bsnMembers s.chip) m.val = true) →
     ((m.val, b) ∈ s.chip.bsn.rewrites) →
     ((bDrive s.chip m.val).isSome = true) →
     performs s (.nvmeCompletion m (.rewritten b)) fun t =>
          t.bsn.rewrites = s.chip.bsn.rewrites.erase (m.val, b) ∧ driveBlock t m.val b = rebuiltBlock s.chip m.val b ∧ Touches [.bsn] noReg s.chip t)
  ∧ (∀ (s : State) (k : Fin 16) (e : Nat),
     ((bLog s.chip (16 + k.val)).ends = some e) →
     (e ≤ s.chip.ot) →
     performs s (.waveformCaptureEnd k) fun t =>
          (bLog t (16 + k.val)) = { bLog s.chip (16 + k.val) with ends := none } ∧ Touches [.bsn] noReg s.chip t)

/-- POP, PURGE, NEXT and SCRUB of the diagnostics block complete with their effects. (R1087, R1089, R1092, R1093, R39) -/
def Obligations.DiagnosticCommandsComplete : Prop :=
  (∀ (s : State),
     performs s (.pop keeper 1 allBytes) fun t =>
          t.diag = { s.chip.diag with fifo := s.chip.diag.fifo.tail } ∧ Touches [.diag] (regAt 0x1F0004) s.chip t)
  ∧ (∀ (s : State),
     performs s (.purge keeper 2 allBytes) fun t =>
          t.diag = { s.chip.diag with src := s.chip.diag.src.filter fun e =>
              !(match e.2 with
                | some r => r.occ == 0 && !(s.chip.diag.fifo.any fun q => srcKey q.code q.source == e.1)
                | none => false) }
            ∧ Touches [.diag] (regAt 0x1F0004) s.chip t)
  ∧ (∀ (s : State),
     performs s (.next keeper 0x40000 allBytes) fun t =>
          reg t 0x1F0030 = BitVec.ofNat 32 (((t.diag.src.find? fun e => decide ((reg s.chip 0x1F0030).toNat < e.1)).map Prod.fst).getD 0)
            ∧ t.diag.fifo = s.chip.diag.fifo ∧ Touches [.diag] (regsAt [0x1F0030, 0x1F0034]) s.chip t)
  ∧ (∀ (s : State) (region : Fin 7) (addr : BitVec 24),
     performs s (.scrub region addr 0) (fun t => t = s.chip)
        ∧ performs s (.scrub region addr 1) fun t =>
          fld t 0x1F0050 0 16 = satInc 16 (fld s.chip 0x1F0050 0 16) ∧ Changes [] (regAt 0x1F0050) s.chip t)
  ∧ (∀ (s : State) (addr : BitVec 24),
     (addr.toNat / 32 < 0x8000) →
     performs s (.scrub 4 addr 2) fun t =>
          pageFlagged t (addr.toNat / 32) = true ∧ fld t 0x1F0050 16 16 = satInc 16 (fld s.chip 0x1F0050 16 16)
            ∧ Changes [.img] (regAt 0x1F0050) s.chip t)
  ∧ (∀ (s : State) (addr : BitVec 24) (p : Nat),
     (p = addr.toNat / 4 / 0x4000 * 2 ^ 20 + addr.toNat / 4 % 0x4000) →
     (pClass p ≠ 0) →
     (pointValid p = true) →
     performs s (.scrub 1 addr 2) fun t =>
          (point t p).live = badWord (point s.chip p).live ∧ (point t p).snap = badWord (point s.chip p).snap
            ∧ onlyPoints (fun q => q = p) s.chip t ∧ Changes [.points] (regAt 0x1F0050) s.chip t)

/-- The JTAG commands move the test access port and change nothing but its state and the free values. (R1126, R1127, R1128, R1129) -/
def Obligations.JtagCommandsComplete : Prop :=
  (∀ (s : State),
     performs s .testLogicReset fun t => t = { s.chip with jtag := { s.chip.jtag with tap := 0, ir := 15, tdo := none } })
  ∧ (∀ (s : State),
     performs s .bypass fun t => t = { s.chip with jtag := { s.chip.jtag with ir := 15 } })
  ∧ (∀ (s : State),
     performs s .samplePreload fun t =>
          t = { s.chip with free := s.chip.free + 169, jtag := { s.chip.jtag with ir := 1, bnd := captureBalls s.chip } })
  ∧ (∀ (s : State) (tms tdi : Bool),
     performs s (.tckEdge true tms tdi) fun t => t.jtag.tap = tapNext s.chip.jtag.tap tms ∧ Touches [.jtag, .free] noReg s.chip t)
  ∧ (∀ (s : State) (tms tdi : Bool),
     (s.chip.jtag.tap = 4) →
     performs s (.tckEdge true tms tdi) fun t =>
          t = { s.chip with jtag := { s.chip.jtag with
            tap := if tms then 5 else 4
            bnd := if s.chip.jtag.ir = 1 then s.chip.jtag.bnd / 2 + b2n tdi * 2 ^ 168 else s.chip.jtag.bnd
            byp := if s.chip.jtag.ir = 1 then s.chip.jtag.byp else tdi } })
  ∧ (∀ (s : State) (tms tdi : Bool),
     performs s (.tckEdge false tms tdi) fun t =>
          t.jtag.ir = (if s.chip.jtag.tap = 15 then s.chip.jtag.irShift else s.chip.jtag.ir) ∧ t.jtag.tap = s.chip.jtag.tap
            ∧ (t.jtag.tdo.isSome = true ↔ s.chip.jtag.tap = 4 ∨ s.chip.jtag.tap = 11) ∧ Touches [.jtag] noReg s.chip t)

/-- GO, STOP and the instructions of the program channels complete with their effects, inside the DMA block. (R869, R871, R872, R873, R882, R886, R887, R888, R890, R891, R892, R895) -/
def Obligations.ProgramChannelsComplete : Prop :=
  (∀ (s : State) (n : Fin 8),
     (n ≠ 0) →
     (dpRuns s.chip n.val = false) →
     (dmaOn s.chip = true) →
     (dmaRate s.chip n.val ≠ 0) →
     ((instrAt (modDp s.chip n.val fun _ => dpDef n.val) n.val (fld s.chip (dpBase n.val + 4) 0 11)).isSome = true) →
     performs s (.dpGo keeper n 1 allBytes) fun t =>
          fld t (dpStat n.val) 0 2 = 1 ∧ dpPc t n.val = fld s.chip (dpBase n.val + 4) 0 11 ∧ dpSt t n.val = { dpDef n.val with since := s.chip.dma.now }
            ∧ Touches [.dma] (regsAt [dpBase n.val + 8, dpStat n.val]) s.chip t)
  ∧ (∀ (s : State) (n : Fin 8),
     (n ≠ 0) →
     (dpRuns s.chip n.val = true) →
     performs s (.dpStop keeper n 2 allBytes) fun t =>
          fld t (dpStat n.val) 0 2 = 3 ∧ fld t (dpStat n.val) 4 4 = 2 ∧ (dpSt t n.val).xfer = none
            ∧ Touches [.dma] (regsAt [dpBase n.val + 8, dpStat n.val]) s.chip t)
  ∧ (∀ (s : State) (n : Fin 8) (sw dw swrap dwrap burst src dst len : Nat) (sc dc : Bool),
     (dpHere s.chip n.val = some (.move sw dw swrap dwrap burst sc dc src dst len)) →
     performs s (.move n) fun t =>
          (dpSt t n.val).xfer = some { src := src, dst := dst, left := len, swrap := swrap, dwrap := dwrap, sspace := 0, dspace := 0, burst := burst, dw := dw }
            ∧ Touches [.dma] noReg s.chip t)
  ∧ (∀ (s : State) (n : Fin 8) (k count target : Nat),
     (dpHere s.chip n.val = some (.loop k count target)) →
     (count ≠ 0) →
     (k = 0) →
     (target < 2048 ∧ dpPc s.chip n.val + 1 < 2048) →
     performs s (.dmaLoop n) fun t =>
          (dpSt t n.val).ctr0 = (if (dpSt s.chip n.val).ctr0 = 0 then count else (dpSt s.chip n.val).ctr0) - 1
            ∧ dpPc t n.val = (if (dpSt t n.val).ctr0 = 0 then dpPc s.chip n.val + 1 else target)
            ∧ (dpSt t n.val).ctr1 = (dpSt s.chip n.val).ctr1 ∧ Touches [.dma] (regAt (dpStat n.val)) s.chip t)
  ∧ (∀ (s : State) (n : Fin 8) (k count target : Nat),
     (dpHere s.chip n.val = some (.loop k count target)) →
     (count ≠ 0) →
     (k ≠ 0) →
     (target < 2048 ∧ dpPc s.chip n.val + 1 < 2048) →
     performs s (.dmaLoop n) fun t =>
          (dpSt t n.val).ctr1 = (if (dpSt s.chip n.val).ctr1 = 0 then count else (dpSt s.chip n.val).ctr1) - 1
            ∧ dpPc t n.val = (if (dpSt t n.val).ctr1 = 0 then dpPc s.chip n.val + 1 else target)
            ∧ (dpSt t n.val).ctr0 = (dpSt s.chip n.val).ctr0 ∧ Touches [.dma] (regAt (dpStat n.val)) s.chip t)
  ∧ (∀ (s : State) (n : Fin 8) (e : Nat),
     (dpHere s.chip n.val = some (.wait e)) →
     (dpPc s.chip n.val + 1 < 2048) →
     performs s (.wait n) fun t =>
          (e = 0 → (dpSt s.chip n.val).scan = true → dpPc t n.val = dpPc s.chip n.val + 1 ∧ (dpSt t n.val).scan = false)
            ∧ (e = 1 → (dpSt s.chip n.val).chan = true → dpPc t n.val = dpPc s.chip n.val + 1 ∧ (dpSt t n.val).chan = false)
            ∧ ((e = 0 → (dpSt s.chip n.val).scan = false) → (e = 1 → (dpSt s.chip n.val).chan = false) → fld t (dpStat n.val) 0 2 = 2)
            ∧ Touches [.dma] (regAt (dpStat n.val)) s.chip t)
  ∧ (∀ (s : State) (n : Fin 8) (halt : Bool) (mask : Nat),
     (dpHere s.chip n.val = some (.signal halt mask)) →
     ((dpSt s.chip n.val).verify = false) →
     performs s (.signal n) fun t =>
          reg t (dpBase n.val + 0x10) = BitVec.ofNat 32 (frameNum s.chip)
            ∧ (halt = true → fld t (dpStat n.val) 0 2 = 3 ∧ fld t (dpStat n.val) 4 4 = 1)
            ∧ Touches [.dma] (regIn 0x1A0100 0x1A0200) s.chip t)
  ∧ (∀ (s : State) (n : Fin 16) (limit : Fin 4097) (cycles : Nat) (x : Xfer),
     (dmaOn s.chip = true) →
     (n.val ≠ 0 ∧ n.val < 8) →
     (0 ≤ creditNow (dmaCycles s.chip cycles) n.val) →
     (fld s.chip (dpStat n.val) 0 2 = 1) →
     ((dpSt s.chip n.val).xfer = some x) →
     (x.burst * 32 < x.left) →
     (((List.range (x.burst * 32)).all fun i => fabricReads (wrapAdd x.swrap x.src i) && fabricWrites (wrapAdd x.dwrap x.dst i)) = true) →
     performs s (.dmaBurst n ⟨limit, cycles⟩) fun t =>
          (dpSt t n.val).xfer = some { x with src := wrapAdd x.swrap x.src (x.burst * 32), dst := wrapAdd x.dwrap x.dst (x.burst * 32), left := x.left - x.burst * 32 }
            ∧ t.dma.handoff = (dpBeats x (x.burst * 32) 16 0 s.chip).dma.handoff
            ∧ (dpSt t n.val).credit = creditNow (dmaCycles s.chip cycles) n.val - 8 * (x.burst * 32 : Nat)
            ∧ (dpSt t n.val).since = s.chip.dma.now + cycles ∧ Touches [.dma] noReg s.chip t)
  ∧ (∀ (s : State) (n : Fin 16) (limit : Fin 4097) (cycles : Nat),
     (dmaOn s.chip = true) →
     (creditNow (dmaCycles s.chip cycles) n.val < 0) →
     performs s (.dmaBurst n ⟨limit, cycles⟩) fun t => t = dmaCycles s.chip cycles)
  ∧ (∀ (s : State) (n : Fin 16) (halt : Bool) (mask : Nat),
     (n.val < 8) →
     ((dpSt s.chip n.val).pulse = true) →
     (instrAt s.chip n.val (dpPc s.chip n.val) = some (.signal halt mask)) →
     performs s (.completionPulse n true) fun t =>
          reg t (dpBase n.val + 0x10) = BitVec.ofNat 32 (frameNum s.chip)
            ∧ (halt = true → fld t (dpStat n.val) 0 2 = 3 ∧ fld t (dpStat n.val) 4 4 = 1)
            ∧ Touches [.dma] (regIn 0x1A0100 0x1A0200) s.chip t)

/-- The descriptor channels start, fetch, move, notify, halt and change owner. (R898, R899, R900, R902, R903, R904, R905, R907, R909, R910, R912) -/
def Obligations.DescriptorChannelsComplete : Prop :=
  (∀ (s : State) (n : Fin 8) (mem : List (Nat × Byte)),
     (dlRuns s.chip n.val = false) →
     (dmaOn s.chip = true) →
     (dmaRate s.chip (8 + n.val) ≠ 0) →
     performs s (.dlGo keeper n mem 1 allBytes) fun t =>
          fld t (dlStat n.val) 0 2 = 1 ∧ reg64 t (dlBase n.val + 0x20) = reg64 s.chip (dlBase n.val + 8)
            ∧ reg t (dlBase n.val + 0x1C) = 0 ∧ dlSt t n.val = { dlDef n.val with since := s.chip.dma.now } ∧ t.hostMem = (hostStores s.chip mem).hostMem
            ∧ Touches [.dma, .hostMem] (regIn (dlBase n.val + 4) (dlBase n.val + 0x28)) s.chip t)
  ∧ (∀ (s : State) (n : Fin 8),
     (dlRuns s.chip n.val = true) →
     performs s (.dlStop keeper n 2 allBytes) fun t =>
          fld t (dlStat n.val) 0 2 = 3 ∧ fld t (dlStat n.val) 4 4 = 2
            ∧ (reg64 s.chip (dlBase n.val + 0x10) ≠ 0 → memNat zeroByte t.hostMem (reg64 s.chip (dlBase n.val + 0x10) + 4) 2 = 2)
            ∧ Touches [.dma, .hostMem] (regsAt [dlBase n.val + 4, dlStat n.val]) s.chip t)
  ∧ (∀ (s : State) (n : Fin 8) (a src dst len ctl next : Nat),
     (dlRuns s.chip n.val = true) →
     ((dlSt s.chip n.val).xfer = none) →
     ((dlSt s.chip n.val).pulse = false) →
     (dmaOn s.chip = true) →
     (a = reg64 s.chip (dlBase n.val + 0x20) ∧ a % 32 = 0) →
     (src = memNat zeroByte s.chip.hostMem a 8 ∧ dst = memNat zeroByte s.chip.hostMem (a + 8) 8) →
     (len = memNat zeroByte s.chip.hostMem (a + 0x10) 4 ∧ ctl = memNat zeroByte s.chip.hostMem (a + 0x14) 4 ∧ next = memNat zeroByte s.chip.hostMem (a + 0x18) 8) →
     (natBits ctl 0 3 ≤ 4 ∧ natBits ctl 3 3 ≤ 4 ∧ natBits ctl 20 12 = 0 ∧ 1 ≤ len ∧ len ≤ 2 ^ 24) →
     ((natBits ctl 6 2 == 0) ≠ (natBits ctl 8 2 == 0) ∧ natBits ctl 8 2 < 2) →
     (xferAligned (natBits ctl 0 3) (natBits ctl 3 3) src dst len = true) →
     (spaceOk (natBits ctl 6 2) src len (natBits ctl 12 4) = true ∧ spaceOk (natBits ctl 8 2) dst len (natBits ctl 16 4) = true) →
     performs s (.descriptor n) fun t =>
          (dlSt t n.val).xfer = some { src := src, dst := dst, left := len, swrap := natBits ctl 12 4, dwrap := natBits ctl 16 4, sspace := natBits ctl 6 2, dspace := natBits ctl 8 2, burst := 0, dw := natBits ctl 3 3 }
            ∧ (dlSt t n.val).notify = natBit ctl 10 ∧ (dlSt t n.val).last = natBit ctl 11 ∧ (dlSt t n.val).next = next
            ∧ Touches [.dma] noReg s.chip t)
  ∧ (∀ (s : State) (n : Fin 16) (limit : Fin 4097) (cycles : Nat) (x : Xfer) (k : Nat),
     (dmaOn s.chip = true) →
     (8 ≤ n.val) →
     (dlTurn (dmaCycles s.chip cycles) (dlFn s.chip (n.val - 8)) = some (n.val - 8)) →
     (ringWaits s.chip (dlFn s.chip (n.val - 8)) = false) →
     (dlRuns s.chip (n.val - 8) = true) →
     ((dlSt s.chip (n.val - 8)).xfer = some x) →
     (k = min 512 (if limit.val = 0 then 128 else limit.val)) →
     (k < x.left) →
     (x.dspace = 0 ∧ x.dwrap = 0) →
     performs s (.dmaBurst n ⟨limit, cycles⟩) fun t =>
          (dlSt t (n.val - 8)).xfer = some { x with src := wrapAdd x.swrap x.src k, dst := x.dst + k, left := x.left - k }
            ∧ smGet (fun _ => 7) t.dma.served (dlFn s.chip (n.val - 8)) = n.val - 8
            ∧ (dlSt t (n.val - 8)).credit = creditNow (dmaCycles s.chip cycles) n.val - 8 * (k : Nat)
            ∧ (∀ i : Fin 512, i.val < k → smGet zeroByte t.hostMem (x.dst + i.val)
                 = spaceByte s.chip (dlFn s.chip (n.val - 8)) x.sspace (wrapAdd x.swrap x.src i.val))
            ∧ Touches [.dma, .hostMem] noReg s.chip t)
  ∧ (∀ (s : State) (n : Fin 16) (limit : Fin 4097) (cycles : Nat),
     (dmaOn s.chip = true) →
     (8 ≤ n.val) →
     (dlTurn (dmaCycles s.chip cycles) (dlFn s.chip (n.val - 8)) ≠ some (n.val - 8) ∨ ringWaits s.chip (dlFn s.chip (n.val - 8)) = true) →
     performs s (.dmaBurst n ⟨limit, cycles⟩) fun t => t = dmaCycles s.chip cycles)
  ∧ (∀ (s : State) (n : Fin 16),
     (8 ≤ n.val) →
     ((dlSt s.chip (n.val - 8)).pulse = true) →
     ((dlSt s.chip (n.val - 8)).last = false) →
     performs s (.completionPulse n true) fun t =>
          reg t (dlBase (n.val - 8) + 0x1C) = reg s.chip (dlBase (n.val - 8) + 0x1C) + 1
            ∧ reg64 t (dlBase (n.val - 8) + 0x20) = (dlSt s.chip (n.val - 8)).next % 2 ^ 64 ∧ (dlSt t (n.val - 8)).pulse = false
            ∧ Touches [.dma, .hostMem] (regIn (dlBase (n.val - 8) + 0x1C) (dlBase (n.val - 8) + 0x28)) s.chip t)
  ∧ (∀ (s : State) (n : Fin 16) (kind : Fin 4),
     (8 ≤ n.val) →
     (dlRuns s.chip (n.val - 8) = true) →
     (reg64 s.chip (dlBase (n.val - 8) + 0x10) = 0) →
     performs s (.dmaHostError n kind) fun t =>
          fld t (dlStat (n.val - 8)) 0 2 = 3 ∧ fld t (dlStat (n.val - 8)) 4 4 = 7 ∧ Changes [.dma] (regAt (dlStat (n.val - 8))) s.chip t)
  ∧ (∀ (s : State) (n : Fin 8) (o : Fin 16),
     (o.val < 8 ∨ o.val = 15) →
     (rateSum s.chip ≤ 256) →
     performs s (.ownerChange keeper n (BitVec.ofNat 32 o.val) 1) fun t =>
          dlOwner t n.val = o.val ∧ dlSt t n.val = dlDef n.val
            ∧ (∀ off, dlBase n.val + 4 ≤ off → off < dlBase n.val + 0x40 → reg t off = regDefault off)
            ∧ fld t (dlBase n.val) 8 9 = fld s.chip (dlBase n.val) 8 9
            ∧ Touches [.dma] (regIn (dlBase n.val) (dlBase n.val + 0x40)) s.chip t)

/-- A waveform port's request is taken, its sets move to staging, and a withdrawn burst halts DP0. (R883, R889, R913, R914, R915) -/
def Obligations.WaveformPortsComplete : Prop :=
  (∀ (s : State) (b : Fin 8),
     (domOn s.chip (8 + b.val) = true) →
     (dmaOn s.chip = true) →
     (dpRuns s.chip 0 = true ∨ (s.chip.dma.drained = some b.val ∧ bsnServes s.chip = true)) →
     performs s (.portRequest b) fun t => natBit t.dma.req b.val = true ∧ Touches [.dma] (regAt (dpStat 0)) s.chip t)
  ∧ (∀ (s : State) (b : Fin 8),
     (dpRuns s.chip 0 = false) →
     (s.chip.dma.drained ≠ some b.val) →
     performs s (.portRequest b) fun t => t = s.chip)
  ∧ (∀ (s : State) (b : Nat) (limit : Fin 4097) (cycles : Nat),
     (dmaOn s.chip = true) →
     (0 ≤ creditNow (dmaCycles s.chip cycles) 0) →
     (dpState s.chip 0 = 1) →
     (((List.range 8).find? fun k => natBit s.chip.dma.req k) = some b) →
     performs s (.dmaBurst 0 ⟨limit, cycles⟩) fun t =>
          portFifo t b = (portFifo s.chip b).drop (max 1 (burstSets 512 (portFifo s.chip b)))
            ∧ Touches [.dma, .bsn] (regIn 0x190200 0x190400) s.chip t)
  ∧ (∀ (s : State) (b : Fin 8),
     (natBit s.chip.dma.req b.val = true) →
     performs s (.portWithdraw b false) fun t => natBit t.dma.req b.val = false ∧ Touches [.dma] noReg s.chip t)
  ∧ (∀ (s : State) (b : Fin 8),
     (natBit s.chip.dma.req b.val = true) →
     (dpState s.chip 0 = 1) →
     performs s (.portWithdraw b true) fun t =>
          natBit t.dma.req b.val = false ∧ portFifo t b.val = (portFifo s.chip b.val).drop (max 1 (burstSets 512 (portFifo s.chip b.val)))
            ∧ t.dma.drained = some b.val ∧ fld t (dpStat 0) 0 2 = 3 ∧ fld t (dpStat 0) 4 4 = 9
            ∧ Changes [.dma, .bsn] (fun off => off == dpStat 0 || regIn 0x190200 0x190400 off) s.chip t)

/-- Erase, commit and apply of a user image begin and end. (R163, R164, R165, R1097, R1099) -/
def Obligations.ImageCommandsComplete : Prop :=
  (∀ (s : State) (op : Fin 3),
     (op ≠ 0) →
     (s.chip.img.op = none) →
     (fld s.chip 0x120 0 2 ≠ op.val) →
     (appliedBank s.chip ≠ op.val) →
     performs s (.eraseBank keeper (BitVec.ofNat 32 (8 + op.val)) allBytes) fun t =>
          t.img = { s.chip.img with op := some op.val, writing := none } ∧ flag t 0x124 3 = true ∧ fld t 0x124 4 4 = 1
            ∧ Touches [.img] (regAt 0x124) s.chip t)
  ∧ (∀ (s : State) (op : Fin 5),
     (3 ≤ op.val) →
     (s.chip.img.op = none) →
     (imgRefusal s.chip op.val = 0) →
     performs s (.commitBank keeper (BitVec.ofNat 32 (8 + op.val)) allBytes) fun t =>
          t.img = { s.chip.img with op := some op.val, writing := none } ∧ flag t 0x124 3 = true ∧ fld t 0x124 4 4 = 1
            ∧ Touches [.img] (regAt 0x124) s.chip t)
  ∧ (∀ (s : State),
     (applyRefusal s.chip = 0) →
     performs s (.imageApply keeper 0x80000000 allBytes) fun t =>
          fld t 0x130 0 4
              = (if applyFails (loadAllTables s.chip (applyBank s.chip) fun x d => 1 - activeCopy x d) = none then 1 else 5)
            ∧ (fld t 0x130 0 4 = 1 → t.img = { s.chip.img with apply := some (applyBank s.chip) }
                ∧ ∀ d ∈ tableDescs, flag t d.stat 1 = true)
            ∧ t.tables = (loadAllTables s.chip (applyBank s.chip) fun x d => 1 - activeCopy x d).tables
            ∧ Touches [.img, .tables, .sdl] (regsAt (0x130 :: tableDescs.map fun d => d.stat)) s.chip t)
  ∧ (∀ (s : State) (op : Fin 3),
     (op ≠ 0) →
     (s.chip.img.op = some op.val) →
     performs s .imageOpDone fun t =>
          t.img.op = none ∧ flag t 0x124 3 = false ∧ fld t 0x124 4 4 = 0
            ∧ (∀ i, i < 0x400000 → smGet erasedByte t.nvm (imgBase op.val + i) = 0xFF)
            ∧ (∀ p, p < 0x4000 → pageProg t ((op.val - 1) * 0x4000 + p) = false)
            ∧ Touches [.img, .nvm] (regAt 0x124) s.chip t)
  ∧ (∀ (s : State) (op : Fin 5),
     (3 ≤ op.val) →
     (s.chip.img.op = some op.val) →
     (pageProg s.chip (commitPage (op.val - 2)) = false) →
     (pageFlagged s.chip (commitPage (op.val - 2)) = false) →
     performs s .imageOpDone fun t =>
          t.img.op = none ∧ flag t 0x124 3 = false ∧ fld t 0x124 4 4 = 0
            ∧ memRead erasedByte t.nvm (imgBase (op.val - 2) + 0x3FFF00) 256 = commitBytes s.chip (op.val - 2)
            ∧ pageProg t (commitPage (op.val - 2)) = true ∧ Changes [.img, .nvm] (regAt 0x124) s.chip t)

/-- The microcode commands stage, apply, store and erase packages. (R1104, R1105, R1106, R1109) -/
def Obligations.MicrocodeCommandsComplete : Prop :=
  (∀ (s : State) (e : Fin 3),
     (e ≠ 0) →
     (s.chip.upd.op = none) →
     (ucWait s.chip e.val = none) →
     performs s (.ucodeOpen keeper (BitVec.ofNat 32 (0x80000001 + e.val * 16)) allBytes) fun t =>
          ucStage t e.val = [] ∧ t.upd.openEng = e.val ∧ fld t 0x148 0 19 = 0 ∧ fld t 0x140 8 4 = 0
            ∧ Touches [.upd] (regsAt [0x140, 0x148]) s.chip t)
  ∧ (∀ (s : State) (v : Word),
     (s.chip.upd.openEng ≠ 0) →
     ((ucStage s.chip s.chip.upd.openEng).length + 4 ≤ ucMax) →
     performs s (.ucodeData keeper v allBytes) fun t =>
          ucStage t s.chip.upd.openEng = ucStage s.chip s.chip.upd.openEng ++ natLe 4 v.toNat
            ∧ fld t 0x148 0 19 = (ucStage s.chip s.chip.upd.openEng).length + 4 ∧ Touches [.upd] (regsAt [0x144, 0x148]) s.chip t)
  ∧ (∀ (s : State) (e : Fin 3),
     (e ≠ 0) →
     (s.chip.upd.op = none) →
     (ucWait s.chip e.val = none) →
     (domOn s.chip (ucDomain e.val) = true) →
     performs s (.ucodeApply keeper (BitVec.ofNat 32 (0x80000002 + e.val * 16)) allBytes) fun t =>
          fld t 0x140 8 4 = pkgCheck s.chip e.val (ucStage s.chip e.val)
            ∧ ucWait t e.val = (if pkgCheck s.chip e.val (ucStage s.chip e.val) = 0 then some (ucStage s.chip e.val) else none)
            ∧ Touches [.upd] (regsAt [0x140, 0x148]) s.chip t)
  ∧ (∀ (s : State) (e : Fin 3),
     (e ≠ 0) →
     (s.chip.upd.op = none) →
     (ucWait s.chip e.val = none) →
     performs s (.ucodeStore keeper (BitVec.ofNat 32 (0x80000003 + e.val * 16)) allBytes) (fun t =>
          t.upd = { s.chip.upd with op := some (e.val, 3) } ∧ flag t 0x140 31 = true ∧ fld t 0x140 8 4 = 1
            ∧ Touches [.upd] (regAt 0x140) s.chip t)
        ∧ performs s (.ucodeErase keeper (BitVec.ofNat 32 (0x80000004 + e.val * 16)) allBytes) fun t =>
          t.upd = { s.chip.upd with op := some (e.val, 4) } ∧ flag t 0x140 31 = true ∧ fld t 0x140 8 4 = 1
            ∧ Touches [.upd] (regAt 0x140) s.chip t)
  ∧ (∀ (s : State) (e : Fin 3),
     (e ≠ 0) →
     (s.chip.upd.op = some (e.val, 3)) →
     performs s .ucodeStoreDone fun t =>
          ucSlot t e.val (olderSlot s.chip e.val)
              = some (max (slotGen s.chip e.val 0) (slotGen s.chip e.val 1) + 1, (ucForce s.chip e.val).getD [])
            ∧ ucSrc t e.val = olderSlot s.chip e.val + 1 ∧ t.upd.op = none ∧ flag t 0x140 31 = false ∧ fld t 0x140 8 4 = 0
            ∧ Touches [.upd] (regsAt [0x140, 0x148]) s.chip t)
  ∧ (∀ (s : State) (e : Fin 3),
     (e ≠ 0) →
     (s.chip.upd.op = some (e.val, 4)) →
     performs s .ucodeStoreDone fun t =>
          ucSlot t e.val 0 = none ∧ ucSlot t e.val 1 = none ∧ t.upd.op = none ∧ flag t 0x140 31 = false ∧ fld t 0x140 8 4 = 0
            ∧ Touches [.upd] (regsAt [0x140, 0x148]) s.chip t)

/-- A Saddle frame in order is taken, and each type has its effect at a standby. (R957, R962, R965, R970, R984, R995, R1000) -/
def Obligations.SaddleFramesComplete : Prop :=
  (∀ (s : State) (h : SaddleHdr) (data : List Byte),
     (inOrder s.chip h data = true) →
     (calmStandby s.chip = true) →
     performs s (.heartbeat h data) fun t => tookFrame h t ∧ onlyParts [.sdl] s.chip t)
  ∧ (∀ (s : State) (h : SaddleHdr) (data : List Byte),
     (sdlUp s.chip = true ∧ h.crcOk = true ∧ sdlLenOk data = true) →
     (calmStandby s.chip = true) →
     performs s (.sync h data) fun t => tookFrame h t ∧ onlyParts [.sdl] s.chip t)
  ∧ (∀ (s : State) (h : SaddleHdr) (data : List Byte),
     (inOrder s.chip h data = true) →
     (calmStandby s.chip = true) →
     (s.chip.sdl.rxSet = h.set.toNat) →
     (s.chip.sdl.rxCount ≠ 0) →
     performs s (.mirror h data) fun t =>
          tookFrame h t ∧ t.sdl.rxCount = s.chip.sdl.rxCount + 1 ∧ t.sdl.rxItems = s.chip.sdl.rxItems ++ itemsOf data
            ∧ onlyParts [.sdl] s.chip t)
  ∧ (∀ (s : State) (h : SaddleHdr) (data : List Byte),
     (inOrder s.chip h data = true) →
     (calmStandby s.chip = true) →
     (leNat (data.take 4) = s.chip.sdl.rxCount) →
     (s.chip.sdl.rxSet = h.set.toNat) →
     performs s (.commit h data) fun t =>
          tookFrame h t ∧ t.sdl.ready = some (leNat ((data.drop 4).take 8), s.chip.sdl.rxItems) ∧ t.sdl.rxCount = 0
            ∧ onlyParts [.sdl] s.chip t)
  ∧ (∀ (s : State) (h : SaddleHdr) (data : List Byte),
     (inOrder s.chip h data = true) →
     (calmStandby s.chip = true) →
     (leNat (data.take 4) ≠ s.chip.sdl.rxCount) →
     performs s (.commit h data) fun t =>
          tookFrame h t ∧ t.sdl.ready = s.chip.sdl.ready ∧ t.sdl.rxItems = []
            ∧ fld t 0x1C0010 16 16 = satInc 16 (fld s.chip 0x1C0010 16 16) ∧ Touches [.sdl] (regAt 0x1C0010) s.chip t)
  ∧ (∀ (s : State) (h : SaddleHdr) (data : List Byte),
     (inOrder s.chip h data = true) →
     (calmStandby s.chip = true) →
     (data.length = 128) →
     performs s (.record h data) fun t =>
          tookFrame h t ∧ recImage t ((recOf data).seq % 32768) = some (recOf data) ∧ Touches [.sdl, .rcd] (regAt 0x18000C) s.chip t)
  ∧ (∀ (s : State) (h : SaddleHdr) (data : List Byte),
     (inOrder s.chip h data = true) →
     (calmStandby s.chip = true) →
     (leNat (data.take 4) = 2) →
     (s.chip.sdl.sync = 1 ∨ s.chip.sdl.sync = 2 ∨ s.chip.sdl.sync = 4) →
     performs s (.resync h data) fun t =>
          tookFrame h t ∧ t.sdl.sync = s.chip.sdl.sync
            ∧ t.sdl.twinId = some (leNat ((data.drop 4).take 4), leNat ((data.drop 8).take 4), natBit (leNat ((data.drop 12).take 4)) 0, natBit (leNat ((data.drop 12).take 4)) 1)
            ∧ onlyParts [.sdl] s.chip t)
  ∧ (∀ (s : State) (h : SaddleHdr) (data : List Byte),
     (inOrder s.chip h data = true) →
     (calmStandby s.chip = true) →
     (leNat (data.take 4) = 6) →
     (data.length = 132) →
     performs s (.resync h data) fun t =>
          tookFrame h t ∧ recImage t ((recOf (data.drop 4)).seq % 32768) = some (recOf (data.drop 4)) ∧ Touches [.sdl, .rcd] (regAt 0x18000C) s.chip t)
  ∧ (∀ (s : State) (h : SaddleHdr) (data : List Byte),
     (inOrder s.chip h data = true) →
     (calmStandby s.chip = true) →
     (leNat (data.take 4) = 7) →
     performs s (.resync h data) fun t =>
          tookFrame h t ∧ t.sdl.sync = 4 ∧ fld t 0x1C001C 0 4 = 2 ∧ resyncStep t = 0 ∧ Changes [] (regsAt [0x1C001C, sdlEvt]) s.chip t)
  ∧ (∀ (s : State) (h : SaddleHdr) (data : List Byte),
     (inOrder s.chip h data = true) →
     (calmStandby s.chip = true) →
     performs s (.failed h data) fun t =>
          tookFrame h t ∧ t.sdl.gone = true ∧ flag t sdlEvt 6 = true ∧ Changes [] (regAt sdlEvt) s.chip t)
  ∧ (∀ (s : State) (h : SaddleHdr) (data : List Byte),
     (inOrder s.chip h data = true) →
     (calmStandby s.chip = true) →
     performs s (.handover h data) fun t => tookFrame h t ∧ t.sdl.gone = true ∧ onlyParts [.sdl] s.chip t)
  ∧ (∀ (s : State) (h : SaddleHdr) (data : List Byte),
     (inOrder s.chip h data = true) →
     (s.chip.sdl.contact = true) →
     (nodeMode s.chip = mSafeHold) →
     performs s (.taken h data) fun t =>
          tookFrame h t ∧ t.mode = { s.chip.mode with heldOpen := true } ∧ (∀ ch : Fin 48, fld t (cellBase ch.val + 0x24) 0 2 = 0)
            ∧ Changes [.mode, .cells] (regIn 0x100000 0x130000) s.chip t)

/-- The timers of the Saddle link, the steps of a resynchronisation, takeover's legs and SDL_UPD.ALLOW complete. (R955, R960, R961, R993, R995, R997, R1004, R1117) -/
def Obligations.SaddleTimersAndStepsComplete : Prop :=
  (∀ (s : State),
     (sdlUp s.chip = true) →
     (sdlRole s.chip = 1 ∨ sdlRole s.chip = 2 ∨ sdlRole s.chip = 3) →
     (s.chip.sdl.recs = []) →
     (s.chip.sdl.queue = []) →
     (s.chip.sdl.resync = []) →
     (s.chip.sdl.out.length < 64) →
     performs s .heartbeatTimer fun t =>
          t.sdl = { s.chip.sdl with
            txSeq := (s.chip.sdl.txSeq + 1) % 2 ^ 32
            out := s.chip.sdl.out ++ [⟨1, sflagsNow s.chip, (s.chip.sdl.txSeq + 1) % 2 ^ 32, 0, []⟩] }
            ∧ onlyParts [.sdl] s.chip t)
  ∧ (∀ (s : State),
     (sdlUp s.chip = true) →
     (s.chip.sdl.out ≠ []) →
     performs s .saddleRetransmit fun t =>
          t.sdl = s.chip.sdl ∧ fld t 0x1C0010 0 16 = satInc 16 (fld s.chip 0x1C0010 0 16) ∧ Touches [] (regAt 0x1C0010) s.chip t)
  ∧ (∀ (s : State),
     (s.chip.sdl.contact = true) →
     (sdlRole s.chip = 2) →
     (leaseHeld s.chip = false) →
     performs s .contactLoss fun t =>
          t.sdl.contact = false ∧ t.sdl.mark = s.chip.sdl.txSeq ∧ t.sdl.rxCount = 0 ∧ t.sdl.swaps = []
            ∧ t.sdl.sync = (if s.chip.sdl.sync = 1 ∨ s.chip.sdl.sync = 2 then 3 else s.chip.sdl.sync)
            ∧ flag t sdlEvt 0 = true ∧ Changes [] (regAt sdlEvt) s.chip t)
  ∧ (∀ (s : State),
     (sdlRole s.chip = 2) →
     (s.chip.sdl.sync = 1) →
     (resyncStep s.chip = 3) →
     performs s .resyncStepEnd fun t =>
          t.sdl = { s.chip.sdl with applied := none, items := [] } ∧ resyncStep t = 4 ∧ Touches [.sdl] (regAt 0x1C001C) s.chip t)
  ∧ (∀ (s : State) (a : Nat × Nat),
     (sdlRole s.chip = 2) →
     (s.chip.sdl.sync = 1) →
     (resyncStep s.chip = 4) →
     (s.chip.sdl.applied = some a) →
     performs s .resyncStepEnd fun t =>
          t.sdl.sync = 2 ∧ t.sdl.everHot = true ∧ resyncStep t = 0 ∧ flag t sdlEvt 7 = true
            ∧ Changes [] (regsAt [0x1C001C, 0x1C0028, sdlEvt]) s.chip t)
  ∧ (∀ (s : State),
     (nodeMode s.chip = mTakeover) →
     (peerLegsOff s.chip = true ∨ s.chip.sdl.contact = false) →
     performs s .takeoverLegArm fun t =>
          t.sdl = { s.chip.sdl with arm := 0 } ∧ (∀ n : Fin 12, natBit s.chip.sdl.arm n.val = true → flag t (legBase n.val + 0x10) 0 = true)
            ∧ Touches [.sdl, .legs] (regIn 0x140100 0x140400) s.chip t)
  ∧ (∀ (s : State),
     (s.chip.sdl.swb = 2) →
     (sdlRole s.chip = 1) →
     performs s .switchbackTimeout fun t =>
          nodeMode t = mMirror ∧ fld t 0x100 8 8 = 3 ∧ t.sdl.swb = 0 ∧ t.sdl.handed = true ∧ t.mode.req = none
            ∧ onlyParts (reportParts ++ [.spt, .alm, .seq, .cells, .points, .call, .can, .mode, .pwr, .gate, .evq, .loops, .legs]) s.chip t)
  ∧ (∀ (s : State) (v : Word),
     (sdlMixed s.chip = false ∨ v.getLsbD 0 = true) →
     performs s (.allow keeper v allBytes) fun t => flag t 0x1C0028 0 = v.getLsbD 0 ∧ Touches [] (regAt 0x1C0028) s.chip t)
  ∧ (∀ (s : State) (v : Word),
     (sdlMixed s.chip = true) →
     (v.getLsbD 0 = false) →
     (sdlRole s.chip = 2) →
     performs s (.allow keeper v allBytes) fun t =>
          flag t 0x1C0028 0 = false ∧ t.sdl.sync = 4 ∧ fld t 0x1C001C 0 4 = 2 ∧ Changes [] (regsAt [0x1C0028, 0x1C001C, sdlEvt]) s.chip t)

/-- Lease requests, grants, denials and releases complete at the unit and at the arbiter. (R974, R975, R976, R977, R978, R979, R980, R982) -/
def Obligations.LeaseCommandsComplete : Prop :=
  (∀ (s : State),
     (sdlUp s.chip = true) →
     (sdlRole s.chip = 1) →
     performs s .leaseRequestTimer fun t =>
          t.sdl.rseq = (s.chip.sdl.rseq + 1) % 2 ^ 32 ∧ (t.sdl.rseq, true, s.chip.seq.g) ∈ t.sdl.asked
            ∧ smGet (fun _ => []) t.sdl.leaseTx 0 = leaseFrame 1 (sdlUnit s.chip) 1 t.sdl.rseq 0 0 ∧ onlyParts [.sdl] s.chip t)
  ∧ (∀ (s : State) (port : Fin 2) (data : List Byte),
     (nodeMode s.chip = mArbiter) →
     (sdlUp s.chip = true) →
     (leaseOk data 1 = true) →
     (lfUnit data < 2) →
     (natBit (lfFlags data) 0 = true ∧ natBit (lfFlags data) 1 = true) →
     (s.chip.sdl.holdoff = false) →
     (s.chip.sdl.holder = none) →
     (arbGuard s.chip = false) →
     performs s (.leaseRequest (.port port) data) fun t =>
          t.sdl.holder = some (lfUnit data) ∧ t.sdl.leaseNum = (s.chip.sdl.leaseNum + 1) % 2 ^ 32
            ∧ smGet (fun _ => []) t.sdl.leaseTx port.val = leaseFrame 2 (lfUnit data) 0 (lfRseq data) t.sdl.leaseNum 0
            ∧ fld t 0x1C0024 0 16 = satInc 16 (fld s.chip 0x1C0024 0 16) ∧ Touches [.sdl] (regAt 0x1C0024) s.chip t)
  ∧ (∀ (s : State) (port : Fin 2) (data : List Byte) (u : Nat),
     (nodeMode s.chip = mArbiter) →
     (sdlUp s.chip = true) →
     (leaseOk data 1 = true) →
     (lfUnit data < 2) →
     (s.chip.sdl.holder = some u) →
     (u ≠ lfUnit data) →
     performs s (.leaseRequest (.port port) data) fun t =>
          t.sdl.holder = some u ∧ t.sdl.leaseNum = s.chip.sdl.leaseNum
            ∧ (∃ wait, smGet (fun _ => []) t.sdl.leaseTx port.val = leaseFrame 3 (lfUnit data) 0 (lfRseq data) t.sdl.leaseNum wait)
            ∧ fld t 0x1C0024 16 16 = satInc 16 (fld s.chip 0x1C0024 16 16) ∧ Touches [.sdl, .free] (regAt 0x1C0024) s.chip t)
  ∧ (∀ (s : State) (data other : List Byte) (a b : List Byte),
     (nodeMode s.chip = mArbiter) →
     (sdlUp s.chip = true) →
     (leaseOk data 1 = true ∧ leaseOk other 1 = true) →
     ((lfUnit data = 0 ∧ lfUnit other = 1) ∨ (lfUnit data = 1 ∧ lfUnit other = 0)) →
     (∀ x ∈ [data, other], natBit (lfFlags x) 0 = true ∧ natBit (lfFlags x) 1 = true) →
     (s.chip.sdl.holdoff = false) →
     (s.chip.sdl.holder = none) →
     (arbGuard s.chip = false) →
     ((a, b) = (if lfUnit data = 0 then (data, other) else (other, data))) →
     performs s (.leaseRequest (.both other) data) fun t =>
          t.sdl.holder = some 0 ∧ t.sdl.leaseNum = (s.chip.sdl.leaseNum + 1) % 2 ^ 32
            ∧ smGet (fun _ => []) t.sdl.leaseTx (if lfUnit data = 0 then 0 else 1) = leaseFrame 2 0 0 (lfRseq a) t.sdl.leaseNum 0
            ∧ (∃ wait, smGet (fun _ => []) t.sdl.leaseTx (if lfUnit data = 0 then 1 else 0) = leaseFrame 3 1 0 (lfRseq b) t.sdl.leaseNum wait)
            ∧ fld t 0x1C0024 0 16 = satInc 16 (fld s.chip 0x1C0024 0 16) ∧ fld t 0x1C0024 16 16 = satInc 16 (fld s.chip 0x1C0024 16 16)
            ∧ Touches [.sdl, .free] (regAt 0x1C0024) s.chip t)
  ∧ (∀ (s : State) (data : List Byte) (a : Nat × Bool × Nat),
     (sdlUp s.chip = true) →
     (leaseOk data 2 = true) →
     (askedOf s.chip data = some a) →
     (s.chip.seq.g < a.2.2 + 40) →
     (promoteReady s.chip = false) →
     performs s (.leaseGrant data) fun t =>
          t.sdl.lease = some (lfLease data, a.2.2) ∧ t.sdl.leaseNum = lfLease data ∧ askedOf t data = none
            ∧ (lfLease data ≠ s.chip.sdl.leaseNum → flag t sdlEvt 3 = true) ∧ Changes [] (regAt sdlEvt) s.chip t)
  ∧ (∀ (s : State) (data : List Byte) (a : Nat × Bool × Nat),
     (sdlUp s.chip = true) →
     (leaseOk data 3 = true) →
     (askedOf s.chip data = some a) →
     performs s (.leaseDeny data) fun t =>
          t.sdl.waitUs = (if a.2.1 = true then min 250 (lfWait data) else s.chip.sdl.waitUs) ∧ askedOf t data = none
            ∧ t.sdl.lease = s.chip.sdl.lease ∧ onlyParts [.sdl] s.chip t)
  ∧ (∀ (s : State) (port : Fin 2) (data : List Byte),
     (nodeMode s.chip = mArbiter) →
     (sdlUp s.chip = true) →
     (leaseOk data 4 = true) →
     (s.chip.sdl.holder = some (lfUnit data)) →
     performs s (.leaseRelease port data) fun t =>
          t.sdl = { s.chip.sdl with holder := none, guard := some s.chip.seq.g } ∧ onlyParts [.sdl] s.chip t)
  ∧ (∀ (s : State) (l : Nat × Nat),
     (s.chip.sdl.lease = some l) →
     (sdlRole s.chip ≠ 1 ∨ s.chip.sdl.contact = true) →
     performs s .leaseExpiry fun t =>
          t.sdl.lease = none ∧ flag t sdlEvt 2 = true ∧ Changes [] (regAt sdlEvt) s.chip t)
  ∧ (∀ (s : State) (u : Nat),
     (nodeMode s.chip = mArbiter) →
     (s.chip.sdl.holder = some u) →
     performs s .arbiterLeaseEnd fun t =>
          t.sdl = { s.chip.sdl with holder := none, guard := some s.chip.seq.g } ∧ onlyParts [.sdl] s.chip t)
  ∧ (∀ (s : State),
     (nodeMode s.chip = mArbiter) →
     performs s .arbiterHoldoffEnd fun t => t.sdl = { s.chip.sdl with holdoff := false } ∧ onlyParts [.sdl] s.chip t)

/-- SET, SHIFT, the edges of the 32 kHz source and a trim window complete. (R1008, R1010, R1015, R1018, R1019, R1021, R1022, R1025, R1027) -/
def Obligations.ClockAndCalendarComplete : Prop :=
  (∀ (s : State),
     (calOk (calOf (reg s.chip 0x1D0024).toNat (reg s.chip 0x1D0028).toNat) = true) →
     (16 ≤ fld s.chip 0x1D0000 16 12) →
     performs s (.set keeper 1 1) fun t =>
          t.rtc = { s.chip.rtc with set := some (fld s.chip 0x1D0020 0 15, calOf (reg s.chip 0x1D0024).toNat (reg s.chip 0x1D0028).toNat), wait := false, edge := 0 }
            ∧ flag t 0x1D0000 0 = true ∧ fld t 0x1D003C 0 16 = 0 ∧ flag t rtcStat 5 = false
            ∧ Touches [.rtc] (regsAt [0x1D0000, 0x1D003C, rtcStat]) s.chip t)
  ∧ (∀ (s : State) (ss : Nat) (k : Cal),
     (rtcOn s.chip = true ∧ aonRuns s.chip = true) →
     (s.chip.rtc.set = some (ss, k)) →
     performs s .crystalEdge fun t =>
          t.rtc.ss = ss ∧ t.rtc.cal = k ∧ t.rtc.set = none ∧ flag t rtcStat 0 = true ∧ flag t 0x1D0000 0 = false
            ∧ Touches [.rtc, .ot] (regsAt [0x1D0000, rtcStat]) s.chip t)
  ∧ (∀ (s : State) (a : BitVec 16),
     (flag s.chip rtcStat 5 = false) →
     (-16384 ≤ a.toInt ∧ a.toInt ≤ 16384) →
     performs s (.shift keeper (BitVec.ofNat 32 (0x80000000 + a.toNat)) allBytes) fun t =>
          t.rtc = { s.chip.rtc with edge := 0, wait := false } ∧ shiftLeft t = a.toInt ∧ flag t rtcStat 5 = (a != 0)
            ∧ flag t 0x1D0038 31 = false ∧ Touches [.rtc] (regsAt [0x1D0038, 0x1D003C, rtcStat]) s.chip t)
  ∧ (∀ (s : State),
     (rtcOn s.chip = true ∧ aonRuns s.chip = true) →
     (s.chip.rtc.set = none) →
     (s.chip.pwr.onCrystal = true) →
     (fld s.chip 0x1D0030 0 12 = 0 ∧ -10000000 < s.chip.rtc.acc ∧ s.chip.rtc.acc < 10000000) →
     (shiftLeft s.chip = 0) →
     (s.chip.rtc.ss < 32767) →
     performs s .crystalEdge fun t =>
          t.rtc.ss = s.chip.rtc.ss + 1 ∧ t.rtc.cal = s.chip.rtc.cal
            ∧ t.ot = min (2 ^ 40 - 1) (s.chip.ot + (s.chip.rtc.otFrac + 125) / 4000) ∧ Touches [.rtc, .ot] noReg s.chip t)
  ∧ (∀ (s : State),
     (rtcOn s.chip = true ∧ aonRuns s.chip = true) →
     (s.chip.rtc.set = none) →
     (s.chip.pwr.onCrystal = true) →
     (fld s.chip 0x1D0030 0 12 = 0 ∧ -10000000 < s.chip.rtc.acc ∧ s.chip.rtc.acc < 10000000) →
     (shiftLeft s.chip = 0) →
     (s.chip.rtc.ss = 32767) →
     (flag s.chip 0x1D0048 8 = false ∧ flag s.chip 0x1D0058 8 = false) →
     performs s .calendarSecond fun t =>
          t.rtc.ss = 0 ∧ t.rtc.cal = (calNext s.chip.rtc.cal).1
            ∧ flag t rtcStat 3 = (flag s.chip rtcStat 3 || (calNext s.chip.rtc.cal).2) ∧ Touches [.rtc, .ot] (regAt rtcStat) s.chip t)
  ∧ (∀ (s : State),
     (rtcOn s.chip = true ∧ aonRuns s.chip = true) →
     (s.chip.rtc.set = none) →
     (s.chip.pwr.onCrystal = true) →
     (fld s.chip 0x1D0030 0 12 = 0 ∧ -10000000 < s.chip.rtc.acc ∧ s.chip.rtc.acc < 10000000) →
     (shiftLeft s.chip ≠ 0) →
     (s.chip.rtc.wait = true ∨ s.chip.rtc.edge = 15) →
     (s.chip.rtc.ss < 32766) →
     performs s .shiftStep fun t =>
          (0 < shiftLeft s.chip → shiftLeft t = shiftLeft s.chip - 1 ∧ t.rtc.ss = s.chip.rtc.ss + 2)
            ∧ (shiftLeft s.chip < 0 → shiftLeft t = shiftLeft s.chip + 1 ∧ t.rtc.ss = s.chip.rtc.ss)
            ∧ t.rtc.cal = s.chip.rtc.cal ∧ Touches [.rtc, .ot] (regsAt [0x1D003C, rtcStat]) s.chip t)
  ∧ (∀ (s : State) (n : Exact) (m : Int),
     (rtcOn s.chip = true) →
     (domOn s.chip 26 = true) →
     (fld s.chip 0x1D0000 2 2 ≠ 0) →
     (fld s.chip 0x1D0000 16 12 ≠ 0) →
     (m = roundHE ((exactVal n / (32768 * (fld s.chip 0x1D0000 16 12 : Nat)) - 1) * 10000000)) →
     (-2000 ≤ m ∧ m ≤ 2000) →
     performs s (.trimWindowEnd n true) fun t =>
          fld t 0x1D0034 0 12 = unsigned 12 m ∧ fld t 0x1D0034 16 8 = satInc 8 (fld s.chip 0x1D0034 16 8) ∧ flag t rtcStat 6 = true
            ∧ fld t 0x1D0030 0 12 = (if flag s.chip 0x1D0000 4 then unsigned 12 (-m) else fld s.chip 0x1D0030 0 12)
            ∧ Touches [] (regsAt [0x1D0030, 0x1D0034, rtcStat]) s.chip t)

/-- The annunciator panel starts, is refreshed, is held by a bias fault and stops. (R1035, R1040, R1041, R1046, R1050, R1058, R1059, R1060) -/
def Obligations.PanelCommandsComplete : Prop :=
  (∀ (s : State),
     (panelMay s.chip = true) →
     (lcdState s.chip = 0) →
     performs s .panelStart fun t =>
          lcdState t = 1 ∧ t.lcd = { s.chip.lcd with ready := false, firstOff := false } ∧ Touches [.lcd] (regAt lcdStat) s.chip t)
  ∧ (∀ (s : State),
     (lcdState s.chip = 1) →
     (panelMay s.chip = true) →
     performs s .biasReady fun t =>
          t.lcd = { s.chip.lcd with ready := true } ∧ flag t lcdStat 4 = (lcdSrc s.chip == 1) ∧ lcdState t = 1
            ∧ Touches [.lcd] (regAt lcdStat) s.chip t)
  ∧ (∀ (s : State),
     (panelMay s.chip = false) →
     (lcdState s.chip ≠ 0 ∧ lcdState s.chip ≠ 3) →
     performs s .panelStop fun t =>
          lcdState t = 3 ∧ flag t lcdStat 4 = false ∧ t.lcd = { s.chip.lcd with ready := false, firstOff := false }
            ∧ Touches [.lcd] (regAt lcdStat) s.chip t)
  ∧ (∀ (s : State),
     (lcdState s.chip = 3) →
     performs s .biasDischarged fun t => lcdState t = 0 ∧ Touches [] (regAt lcdStat) s.chip t)
  ∧ (∀ (s : State),
     (panelMay s.chip = true) →
     (lcdState s.chip = 2) →
     performs s .refreshFrame fun t =>
          t.lcd = { s.chip.lcd with k := (s.chip.lcd.k + 1) % 15, positive := !s.chip.lcd.positive, map := fld s.chip 0x1D800C 0 1 }
            ∧ Touches [.lcd] noReg s.chip t)
  ∧ (∀ (s : State),
     (panelMay s.chip = true) →
     (lcdState s.chip = 1) →
     (s.chip.lcd.ready = true ∨ s.chip.lcd.firstOff = true) →
     performs s .refreshFrame fun t =>
          lcdState t = (if s.chip.lcd.firstOff then 2 else 1) ∧ t.lcd.firstOff = !s.chip.lcd.firstOff ∧ t.lcd.k = (s.chip.lcd.k + 1) % 15
            ∧ Touches [.lcd] (regAt lcdStat) s.chip t)
  ∧ (∀ (s : State),
     (pumpOk s.chip = true) →
     performs s .pumpFault fun t =>
          pumpOk t = false ∧ flag t lcdEvt 0 = true ∧ (lcdState s.chip = 1 ∨ lcdState s.chip = 2 → lcdState t = 4)
            ∧ Changes [.lcd] (regsAt [lcdStat, lcdEvt]) s.chip t)
  ∧ (∀ (s : State) (ok : Bool),
     (lcdSrc s.chip = 1) →
     (pumpOk s.chip = false) →
     (lcdState s.chip = 4) →
     (domOn s.chip 20 = true) →
     (opRuns s.chip .pump = true) →
     performs s (.pumpRestart ok) fun t => pumpOk t = ok ∧ lcdState t = 4 ∧ Touches [] (regAt lcdStat) s.chip t)
  ∧ (∀ (s : State),
     (lcdSrc s.chip = 1) →
     (pumpOk s.chip = false) →
     (lcdState s.chip = 4) →
     (domOn s.chip 20 = true) →
     (opRuns s.chip .pump = false ∧ opWaits s.chip .pump = false) →
     performs s (.pumpRestart false) fun t => t.pwr = (requestOp s.chip pumpReq).pwr ∧ Touches [.pwr] noReg s.chip t)
end

