-- ==== Sys2Proof/Laws/Bits.lean ====
section
/-! SUPPORT. Laws of bit fields: a field reads back what was put into it, the others stay. -/

namespace Sys2Proof.Machine

/-- The number that a field replacement gives, and that it still fits a register. -/
theorem setBits_toNat (v : Word) (lo w x : Nat) (h : lo + w ≤ 32) :
    (setBits v lo w x).toNat = v.toNat / 2 ^ (lo + w) * 2 ^ (lo + w) + x % 2 ^ w * 2 ^ lo + v.toNat % 2 ^ lo := by
  have hv := v.isLt
  have e : (2 : Nat) ^ (lo + w) = 2 ^ lo * 2 ^ w := Nat.pow_add 2 lo w
  have d1 : v.toNat = 2 ^ lo * (v.toNat / 2 ^ lo) + v.toNat % 2 ^ lo := (Nat.div_add_mod _ _).symm
  have d2 : v.toNat / 2 ^ lo = 2 ^ w * (v.toNat / 2 ^ lo / 2 ^ w) + v.toNat / 2 ^ lo % 2 ^ w := (Nat.div_add_mod _ _).symm
  have d3 : v.toNat / 2 ^ (lo + w) = v.toNat / 2 ^ lo / 2 ^ w := by rw [e, Nat.div_div_eq_div_mul]
  have hx : x % 2 ^ w < 2 ^ w := Nat.mod_lt _ (Nat.two_pow_pos w)
  have hr : v.toNat % 2 ^ lo < 2 ^ lo := Nat.mod_lt _ (Nat.two_pow_pos lo)
  have hq : v.toNat / 2 ^ lo / 2 ^ w * 2 ^ (lo + w) + x % 2 ^ w * 2 ^ lo + v.toNat % 2 ^ lo < 2 ^ 32 := by
    have h32 : (2 : Nat) ^ 32 = 2 ^ (lo + w) * 2 ^ (32 - (lo + w)) := by rw [← Nat.pow_add]; congr 1; omega
    have hlt : v.toNat / 2 ^ lo / 2 ^ w < 2 ^ (32 - (lo + w)) := by
      rw [← d3]; apply Nat.div_lt_of_lt_mul; rw [← h32]; exact hv
    have h1 : x % 2 ^ w * 2 ^ lo + v.toNat % 2 ^ lo < 2 ^ (lo + w) := by
      calc x % 2 ^ w * 2 ^ lo + v.toNat % 2 ^ lo < x % 2 ^ w * 2 ^ lo + 2 ^ lo := by omega
        _ = (x % 2 ^ w + 1) * 2 ^ lo := by ring
        _ ≤ 2 ^ w * 2 ^ lo := Nat.mul_le_mul_right _ hx
        _ = 2 ^ (lo + w) := by rw [e]; ring
    calc _ < v.toNat / 2 ^ lo / 2 ^ w * 2 ^ (lo + w) + 2 ^ (lo + w) := by omega
      _ = (v.toNat / 2 ^ lo / 2 ^ w + 1) * 2 ^ (lo + w) := by ring
      _ ≤ 2 ^ (32 - (lo + w)) * 2 ^ (lo + w) := Nat.mul_le_mul_right _ hlt
      _ = 2 ^ 32 := by rw [h32]; ring
  have hs : v.toNat - v.toNat / 2 ^ lo % 2 ^ w * 2 ^ lo = v.toNat / 2 ^ lo / 2 ^ w * 2 ^ (lo + w) + v.toNat % 2 ^ lo := by
    have : v.toNat = v.toNat / 2 ^ lo / 2 ^ w * 2 ^ (lo + w) + v.toNat / 2 ^ lo % 2 ^ w * 2 ^ lo + v.toNat % 2 ^ lo := by
      calc v.toNat = 2 ^ lo * (v.toNat / 2 ^ lo) + v.toNat % 2 ^ lo := d1
        _ = 2 ^ lo * (2 ^ w * (v.toNat / 2 ^ lo / 2 ^ w) + v.toNat / 2 ^ lo % 2 ^ w) + v.toNat % 2 ^ lo := by rw [← d2]
        _ = _ := by rw [e]; ring
    omega
  unfold setBits bits
  rw [hs, BitVec.toNat_ofNat, d3]
  rw [Nat.mod_eq_of_lt (by omega)]
  omega

/-- A field reads back what was put into it. -/
@[simp] theorem bits_setBits (v : Word) (lo w x : Nat) (h : lo + w ≤ 32) : bits (setBits v lo w x) lo w = x % 2 ^ w := by
  have hr : v.toNat % 2 ^ lo < 2 ^ lo := Nat.mod_lt _ (Nat.two_pow_pos lo)
  have hx : x % 2 ^ w < 2 ^ w := Nat.mod_lt _ (Nat.two_pow_pos w)
  unfold bits
  rw [setBits_toNat v lo w x h]
  have : v.toNat / 2 ^ (lo + w) * 2 ^ (lo + w) + x % 2 ^ w * 2 ^ lo + v.toNat % 2 ^ lo
      = (v.toNat / 2 ^ (lo + w) * 2 ^ w + x % 2 ^ w) * 2 ^ lo + v.toNat % 2 ^ lo := by rw [Nat.pow_add]; ring
  rw [this, Nat.add_comm, Nat.add_mul_div_right _ _ (Nat.two_pow_pos lo), Nat.div_eq_of_lt hr, Nat.zero_add,
    Nat.add_comm, Nat.add_mul_mod_self_right, Nat.mod_eq_of_lt hx]

/-- A field below the one put stays. -/
theorem bits_setBits_below (v : Word) (lo w x lo' w' : Nat) (h : lo + w ≤ 32) (hd : lo' + w' ≤ lo) :
    bits (setBits v lo w x) lo' w' = bits v lo' w' := by
  have key : ∀ n : Nat, n / 2 ^ lo' % 2 ^ w' = n % 2 ^ lo / 2 ^ lo' % 2 ^ w' := by
    intro n
    have e : (2 : Nat) ^ lo = 2 ^ lo' * 2 ^ (lo - lo') := by rw [← Nat.pow_add]; congr 1; omega
    rw [e, Nat.mod_mul_right_div_self]
    exact (Nat.mod_mod_of_dvd _ (Nat.pow_dvd_pow 2 (by omega))).symm
  have hm : (setBits v lo w x).toNat % 2 ^ lo = v.toNat % 2 ^ lo := by
    rw [setBits_toNat v lo w x h]
    have : v.toNat / 2 ^ (lo + w) * 2 ^ (lo + w) + x % 2 ^ w * 2 ^ lo + v.toNat % 2 ^ lo
        = v.toNat % 2 ^ lo + (v.toNat / 2 ^ (lo + w) * 2 ^ w + x % 2 ^ w) * 2 ^ lo := by rw [Nat.pow_add]; ring
    rw [this, Nat.add_mul_mod_self_right, Nat.mod_mod]
  unfold bits
  rw [key, hm, ← key]

/-- A field above the one put stays. -/
theorem bits_setBits_above (v : Word) (lo w x lo' w' : Nat) (h : lo + w ≤ 32) (hd : lo + w ≤ lo') :
    bits (setBits v lo w x) lo' w' = bits v lo' w' := by
  have hx : x % 2 ^ w * 2 ^ lo + v.toNat % 2 ^ lo < 2 ^ (lo + w) := by
    have h1 : x % 2 ^ w < 2 ^ w := Nat.mod_lt _ (Nat.two_pow_pos w)
    have h2 : v.toNat % 2 ^ lo < 2 ^ lo := Nat.mod_lt _ (Nat.two_pow_pos lo)
    calc x % 2 ^ w * 2 ^ lo + v.toNat % 2 ^ lo < x % 2 ^ w * 2 ^ lo + 2 ^ lo := by omega
      _ = (x % 2 ^ w + 1) * 2 ^ lo := by ring
      _ ≤ 2 ^ w * 2 ^ lo := Nat.mul_le_mul_right _ h1
      _ = 2 ^ (lo + w) := by rw [Nat.pow_add]; ring
  have hdv : (setBits v lo w x).toNat / 2 ^ (lo + w) = v.toNat / 2 ^ (lo + w) := by
    rw [setBits_toNat v lo w x h, Nat.add_assoc, Nat.mul_comm, Nat.mul_add_div (Nat.two_pow_pos _),
      Nat.div_eq_of_lt hx, Nat.add_zero]
  have key : ∀ n : Nat, n / 2 ^ lo' = n / 2 ^ (lo + w) / 2 ^ (lo' - (lo + w)) := by
    intro n
    rw [Nat.div_div_eq_div_mul, ← Nat.pow_add]; congr 2; omega
  unfold bits
  rw [key, hdv, ← key]

/-- A field that does not overlap the one put stays. -/
theorem bits_setBits_other (v : Word) (lo w x lo' w' : Nat) (h : lo + w ≤ 32) (hd : lo' + w' ≤ lo ∨ lo + w ≤ lo') :
    bits (setBits v lo w x) lo' w' = bits v lo' w' := by
  obtain hd | hd := hd
  · exact bits_setBits_below v lo w x lo' w' h hd
  · exact bits_setBits_above v lo w x lo' w' h hd

end Sys2Proof.Machine
end

