-- ==== Sys2Proof/Laws/Store.lean ====
section
/-! SUPPORT. Laws of sparse maps and byte memories: what a read gives after a write, and that every
operation keeps the canonical form. -/

namespace Sys2Proof.Machine

variable {α : Type}

/-! ## Reads after updates -/

theorem smGet_smDel (d : Nat → α) (m : SMap α) (k j : Nat) :
    smGet d (smDel m k) j = if j = k then d j else smGet d m j := by
  induction m with
  | nil => simp [smDel, smGet]
  | cons e t ih =>
    obtain ⟨i, a⟩ := e
    by_cases h : i = k
    · subst h
      by_cases h2 : j = i
      · subst h2; simp [smDel, ih]
      · simp [smDel, smGet, ih, h2, Ne.symm h2]
    · by_cases h3 : i = j
      · subst h3; simp [smDel, smGet, h]
      · simp [smDel, smGet, h, h3, ih]

theorem smGet_smInsert_self (d : Nat → α) (m : SMap α) (k : Nat) (v : α) (h : ∀ e ∈ m, e.1 ≠ k) :
    smGet d (smInsert m k v) k = v := by
  induction m with
  | nil => simp [smInsert, smGet]
  | cons e t ih =>
    obtain ⟨i, a⟩ := e
    have hi : i ≠ k := h (i, a) (by simp)
    have ht : ∀ e ∈ t, e.1 ≠ k := fun e he => h e (by simp [he])
    by_cases h1 : k < i
    · simp [smInsert, smGet, h1]
    · simp [smInsert, smGet, h1, hi, ih ht]

theorem smGet_smInsert_other (d : Nat → α) (m : SMap α) (k j : Nat) (v : α) (h : j ≠ k) :
    smGet d (smInsert m k v) j = smGet d m j := by
  induction m with
  | nil => simp [smInsert, smGet, Ne.symm h]
  | cons e t ih =>
    obtain ⟨i, a⟩ := e
    by_cases h1 : k < i
    · simp [smInsert, smGet, h1, Ne.symm h]
    · simp [smInsert, smGet, h1, ih]

theorem smDel_no_key (m : SMap α) (k : Nat) : ∀ e ∈ smDel m k, e.1 ≠ k := by
  induction m with
  | nil => simp [smDel]
  | cons e t ih =>
    obtain ⟨i, a⟩ := e
    by_cases h : i = k
    · simpa [smDel, h] using ih
    · intro e he
      simp only [smDel, h, if_false, List.mem_cons] at he
      obtain rfl | he := he
      · exact h
      · exact ih e he

/-- A number holds what was put. -/
@[simp] theorem smGet_smPut_self [DecidableEq α] (d : Nat → α) (m : SMap α) (k : Nat) (v : α) :
    smGet d (smPut d m k v) k = v := by
  unfold smPut
  split
  · next h => rw [smGet_smDel]; simp [h]
  · exact smGet_smInsert_self d _ k v (smDel_no_key m k)

/-- Every other number is left alone. -/
theorem smGet_smPut_other [DecidableEq α] (d : Nat → α) (m : SMap α) (k j : Nat) (v : α) (h : j ≠ k) :
    smGet d (smPut d m k v) j = smGet d m j := by
  unfold smPut
  split
  · rw [smGet_smDel]; simp [h]
  · rw [smGet_smInsert_other d _ k j v h, smGet_smDel]; simp [h]

theorem smGet_smPut [DecidableEq α] (d : Nat → α) (m : SMap α) (k j : Nat) (v : α) :
    smGet d (smPut d m k v) j = if j = k then v else smGet d m j := by
  split
  · next h => subst h; simp
  · next h => exact smGet_smPut_other d m k j v h

@[simp] theorem smGet_smMod_self [DecidableEq α] (d : Nat → α) (m : SMap α) (k : Nat) (f : α → α) :
    smGet d (smMod d m k f) k = f (smGet d m k) := by simp [smMod]

theorem smGet_smMod_other [DecidableEq α] (d : Nat → α) (m : SMap α) (k j : Nat) (f : α → α) (h : j ≠ k) :
    smGet d (smMod d m k f) j = smGet d m j := smGet_smPut_other d m k j _ h

theorem smGet_smKeep (d : Nat → α) (p : Nat → Bool) (m : SMap α) (j : Nat) :
    smGet d (smKeep p m) j = if p j then smGet d m j else d j := by
  induction m with
  | nil => simp [smKeep, smGet]
  | cons e t ih =>
    obtain ⟨i, a⟩ := e
    unfold smKeep at ih ⊢
    by_cases h : p i
    · by_cases h2 : i = j
      · subst h2; simp [smGet, h]
      · simp [smGet, h, h2, ih]
    · by_cases h2 : i = j
      · subst h2; simpa [h] using ih
      · simp [smGet, h, h2, ih]

/-! ## The canonical form -/

/-- The canonical form as propositions: numbers rise strictly, and no entry is its default. -/
theorem smSorted_iff (m : SMap α) : smSorted m = true ↔ m.Pairwise fun a b => a.1 < b.1 := by
  induction m with
  | nil => simp [smSorted]
  | cons e t ih =>
    obtain ⟨i, a⟩ := e
    cases t with
    | nil => simp [smSorted]
    | cons f u =>
      obtain ⟨k, b⟩ := f
      simp only [smSorted, Bool.and_eq_true, decide_eq_true_eq, ih, List.pairwise_cons]
      constructor
      · rintro ⟨h1, h2, h3⟩
        refine ⟨?_, h2, h3⟩
        intro x hx
        obtain rfl | hx := List.mem_cons.1 hx
        · exact h1
        · exact Nat.lt_trans h1 (h2 x hx)
      · rintro ⟨h1, h2, h3⟩
        exact ⟨h1 (k, b) (by simp), h2, h3⟩

theorem smWf_iff [DecidableEq α] (d : Nat → α) (m : SMap α) :
    smWf d m = true ↔ (m.Pairwise fun a b => a.1 < b.1) ∧ ∀ e ∈ m, e.2 ≠ d e.1 := by
  simp [smWf, smSorted_iff]

@[simp] theorem smWf_nil [DecidableEq α] (d : Nat → α) : smWf d ([] : SMap α) = true := rfl

theorem smDel_sublist (m : SMap α) (k : Nat) : (smDel m k).Sublist m := by
  induction m with
  | nil => simp [smDel]
  | cons e t ih =>
    obtain ⟨i, a⟩ := e
    by_cases h : i = k
    · simpa [smDel, h] using ih.cons (i, a)
    · simpa [smDel, h] using ih

theorem mem_smInsert (m : SMap α) (k : Nat) (v : α) (e : Nat × α) (h : e ∈ smInsert m k v) : e = (k, v) ∨ e ∈ m := by
  induction m with
  | nil => simpa [smInsert] using h
  | cons f t ih =>
    obtain ⟨i, a⟩ := f
    by_cases h1 : k < i
    · simpa [smInsert, h1] using h
    · simp only [smInsert, h1, if_false, List.mem_cons] at h
      obtain rfl | h := h
      · right; simp
      · obtain h | h := ih h
        · left; exact h
        · right; simp [h]

theorem smInsert_pairwise (m : SMap α) (k : Nat) (v : α) (hs : m.Pairwise fun a b => a.1 < b.1)
    (hk : ∀ e ∈ m, e.1 ≠ k) : (smInsert m k v).Pairwise fun a b => a.1 < b.1 := by
  induction m with
  | nil => simp [smInsert]
  | cons f t ih =>
    obtain ⟨i, a⟩ := f
    rw [List.pairwise_cons] at hs
    by_cases h1 : k < i
    · simp only [smInsert, h1, if_true, List.pairwise_cons]
      refine ⟨?_, hs⟩
      intro x hx
      obtain rfl | hx := List.mem_cons.1 hx
      · exact h1
      · exact Nat.lt_trans h1 (hs.1 x hx)
    · have hik : i < k := by have := hk (i, a) (by simp); simp at this; omega
      simp only [smInsert, h1, if_false, List.pairwise_cons]
      refine ⟨?_, ih hs.2 fun e he => hk e (by simp [he])⟩
      intro x hx
      obtain rfl | hx := mem_smInsert t k v x hx
      · exact hik
      · exact hs.1 x hx

theorem smWf_sublist [DecidableEq α] {d : Nat → α} {m m' : SMap α} (hw : smWf d m = true) (h : m'.Sublist m) :
    smWf d m' = true := by
  rw [smWf_iff] at hw ⊢
  exact ⟨hw.1.sublist h, fun e he => hw.2 e (h.subset he)⟩

/-- Putting an entry keeps the canonical form. -/
theorem smWf_smPut [DecidableEq α] {d : Nat → α} {m : SMap α} (k : Nat) (v : α) (hw : smWf d m = true) :
    smWf d (smPut d m k v) = true := by
  have hd : smWf d (smDel m k) = true := smWf_sublist hw (smDel_sublist m k)
  unfold smPut
  split
  · exact hd
  · next h =>
    rw [smWf_iff] at hd ⊢
    refine ⟨smInsert_pairwise _ k v hd.1 (smDel_no_key m k), ?_⟩
    intro e he
    obtain rfl | he := mem_smInsert _ k v e he
    · exact h
    · exact hd.2 e he

theorem smWf_smMod [DecidableEq α] {d : Nat → α} {m : SMap α} (k : Nat) (f : α → α) (hw : smWf d m = true) :
    smWf d (smMod d m k f) = true := smWf_smPut k _ hw

theorem smWf_filter [DecidableEq α] {d : Nat → α} {m : SMap α} (p : Nat × α → Bool) (hw : smWf d m = true) :
    smWf d (m.filter p) = true := smWf_sublist hw List.filter_sublist

theorem smWf_smKeep [DecidableEq α] {d : Nat → α} {m : SMap α} (p : Nat → Bool) (hw : smWf d m = true) :
    smWf d (smKeep p m) = true := smWf_filter _ hw

theorem smWf_smDel [DecidableEq α] {d : Nat → α} {m : SMap α} (k : Nat) (hw : smWf d m = true) :
    smWf d (smDel m k) = true := smWf_sublist hw (smDel_sublist m k)

theorem smWf_smMap [DecidableEq α] {d : Nat → α} {m : SMap α} (f : α → α) (hw : smWf d m = true) :
    smWf d (smMap d f m) = true := by
  rw [smWf_iff] at hw ⊢
  unfold smMap
  refine ⟨List.Pairwise.filter _ ?_, ?_⟩
  · rw [List.pairwise_map]; exact hw.1
  · intro e he
    simpa using (List.mem_filter.1 he).2

/-! ## Byte memories -/

/-- Writing bytes keeps the canonical form. -/
theorem smWf_memWrite {d : Nat → Byte} {m : Mem} (a : Nat) (bs : List Byte) (hw : smWf d m = true) :
    smWf d (memWrite d m a bs) = true := by
  induction bs generalizing m a with
  | nil => exact hw
  | cons b bs ih => exact ih (a + 1) (smWf_smPut a b hw)

theorem smWf_memClear {d : Nat → Byte} {m : Mem} (a n : Nat) (hw : smWf d m = true) : smWf d (memClear m a n) = true :=
  smWf_smKeep _ hw

/-- Addresses outside a written range read as before. -/
theorem smGet_memWrite_other (d : Nat → Byte) (m : Mem) (a : Nat) (bs : List Byte) (j : Nat)
    (h : j < a ∨ a + bs.length ≤ j) : smGet d (memWrite d m a bs) j = smGet d m j := by
  induction bs generalizing m a with
  | nil => rfl
  | cons b bs ih =>
    simp only [List.length_cons] at h
    unfold memWrite
    rw [ih _ (a + 1) (by omega), smGet_smPut_other _ _ _ _ _ (by omega)]

/-- A written byte reads back. -/
theorem smGet_memWrite (d : Nat → Byte) (m : Mem) (a : Nat) (bs : List Byte) (i : Nat) (h : i < bs.length) :
    smGet d (memWrite d m a bs) (a + i) = bs[i] := by
  induction bs generalizing m a i with
  | nil => simp at h
  | cons b bs ih =>
    unfold memWrite
    cases i with
    | zero => rw [smGet_memWrite_other _ _ _ _ _ (by omega)]; simp
    | succ i =>
      have := ih (smPut d m a b) (a + 1) i (by simpa using h)
      rw [show a + (i + 1) = a + 1 + i by omega, this]; simp

theorem memRead_length (d : Nat → Byte) (m : Mem) (a n : Nat) : (memRead d m a n).length = n := by simp [memRead]

/-- Reading a written range gives what was written. -/
theorem memRead_memWrite (d : Nat → Byte) (m : Mem) (a : Nat) (bs : List Byte) :
    memRead d (memWrite d m a bs) a bs.length = bs := by
  apply List.ext_getElem
  · simp [memRead]
  · intro i h1 h2
    simp [memRead, smGet_memWrite d m a bs i h2]

/-- Loading a region keeps the canonical form. -/
theorem smWf_memLoad {d : Nat → Byte} {m : Mem} (base size : Nat) (bs : List Byte) (hw : smWf d m = true) :
    smWf d (memLoad d m base size bs) = true := by
  rw [smWf_iff] at hw ⊢
  have hcell : ∀ {a : Nat} {b : Byte} {e : Nat × Byte},
      (if b = d a then none else some (a, b)) = some e → e = (a, b) ∧ b ≠ d a := by
    intro a b e h
    split at h
    · simp at h
    · next hn => simp at h; exact ⟨h.symm, hn⟩
  have hzip : ∀ (xs : List Byte) (k : Nat),
      (((xs.zipIdx k).filterMap fun (x : Byte × Nat) => if x.1 = d (base + x.2) then none else some (base + x.2, x.1))).Pairwise
        (fun a b : Nat × Byte => a.1 < b.1) ∧
      ∀ e ∈ ((xs.zipIdx k).filterMap fun (x : Byte × Nat) => if x.1 = d (base + x.2) then none else some (base + x.2, x.1)),
        base + k ≤ e.1 ∧ e.1 < base + k + xs.length ∧ e.2 ≠ d e.1 := by
    intro xs
    induction xs with
    | nil => intro k; simp
    | cons x xs ih =>
      intro k
      obtain ⟨h1, h2⟩ := ih (k + 1)
      simp only [List.zipIdx_cons, List.filterMap_cons]
      split
      · refine ⟨h1, fun e he => ?_⟩
        obtain ⟨a, b, c⟩ := h2 e he
        simp only [List.length_cons]; exact ⟨by omega, by omega, c⟩
      · next v hv =>
        obtain ⟨rfl, hne⟩ := hcell hv
        refine ⟨List.pairwise_cons.2 ⟨fun e he => ?_, h1⟩, fun e he => ?_⟩
        · have := (h2 e he).1; simp; omega
        · obtain rfl | he := List.mem_cons.1 he
          · simp only [List.length_cons]; exact ⟨Nat.le_refl _, by omega, hne⟩
          · obtain ⟨a, b, c⟩ := h2 e he
            simp only [List.length_cons]; exact ⟨by omega, by omega, c⟩
  have hrange : ((List.range (size - bs.length)).filterMap fun i =>
      if (0 : Byte) = d (base + bs.length + i) then none else some (base + bs.length + i, (0 : Byte))).Pairwise
        (fun a b : Nat × Byte => a.1 < b.1) := by
    rw [List.pairwise_filterMap]
    refine List.Pairwise.imp ?_ List.pairwise_lt_range
    intro i j hij x hx y hy
    obtain ⟨rfl, -⟩ := hcell hx
    obtain ⟨rfl, -⟩ := hcell hy
    simpa using hij
  have hz := hzip (bs.take size) 0
  have hr : ∀ e ∈ ((List.range (size - bs.length)).filterMap fun i =>
      if (0 : Byte) = d (base + bs.length + i) then none else some (base + bs.length + i, (0 : Byte))),
      base + bs.length ≤ e.1 ∧ e.1 < base + size ∧ e.2 ≠ d e.1 := by
    intro e he
    obtain ⟨i, hi, hx⟩ := List.mem_filterMap.1 he
    obtain ⟨rfl, hne⟩ := hcell hx
    have := List.mem_range.1 hi
    exact ⟨by simp, by simp; omega, hne⟩
  have hlen : (bs.take size).length ≤ bs.length ∧ (bs.take size).length ≤ size := by
    simp [List.length_take]
  unfold memLoad
  refine ⟨?_, ?_⟩
  · refine List.pairwise_append.2 ⟨List.pairwise_append.2 ⟨List.pairwise_append.2
      ⟨hw.1.filter _, hz.1, ?_⟩, hrange, ?_⟩, hw.1.filter _, ?_⟩
    · intro a ha b hb
      have h1 := of_decide_eq_true (List.mem_filter.1 ha).2
      have h2 := (hz.2 b hb).1
      omega
    · intro a ha b hb
      have h2 := (hr b hb).1
      obtain ha | ha := List.mem_append.1 ha
      · have h1 := of_decide_eq_true (List.mem_filter.1 ha).2; omega
      · have h1 := (hz.2 a ha).2.1; omega
    · intro a ha b hb
      have h2 := of_decide_eq_true (List.mem_filter.1 hb).2
      obtain ha | ha := List.mem_append.1 ha
      · obtain ha | ha := List.mem_append.1 ha
        · have h1 := of_decide_eq_true (List.mem_filter.1 ha).2; omega
        · have h1 := (hz.2 a ha).2.1; omega
      · have h1 := (hr a ha).2.1; omega
  · intro e he
    obtain he | he := List.mem_append.1 he
    · obtain he | he := List.mem_append.1 he
      · obtain he | he := List.mem_append.1 he
        · exact hw.2 e (List.mem_filter.1 he).1
        · exact (hz.2 e he).2.2
      · exact (hr e he).2.2
    · exact hw.2 e (List.mem_filter.1 he).1

end Sys2Proof.Machine
end

