-- ==== Sys2Proof/Laws/State.lean ====
section
/-! SUPPORT. Laws of the state: what each named update leaves alone, one lemma a field, and what registers,
fields and points read after one. -/

namespace Sys2Proof.Machine

variable (c : Chip)

/-! ## Registers and fields of registers -/

@[simp] theorem reg_setReg_self (off : Nat) (v : Word) : reg (setReg c off v) off = v := by simp [reg, setReg]

theorem reg_setReg_other (off off' : Nat) (v : Word) (h : off' ≠ off) : reg (setReg c off v) off' = reg c off' :=
  smGet_smPut_other _ _ _ _ _ h

theorem reg_setReg (off off' : Nat) (v : Word) : reg (setReg c off v) off' = if off' = off then v else reg c off' :=
  smGet_smPut _ _ _ _ _

theorem reg_setFld_other (off off' lo w x : Nat) (h : off' ≠ off) : reg (setFld c off lo w x) off' = reg c off' :=
  reg_setReg_other c off off' _ h

theorem reg_setFlag_other (off off' i : Nat) (b : Bool) (h : off' ≠ off) : reg (setFlag c off i b) off' = reg c off' :=
  reg_setReg_other c off off' _ h

theorem reg_countFld_other (off off' lo w : Nat) (h : off' ≠ off) : reg (countFld c off lo w) off' = reg c off' :=
  reg_setReg_other c off off' _ h

/-- A field reads back. -/
@[simp] theorem fld_setFld_self (off lo w x : Nat) (h : lo + w ≤ 32) : fld (setFld c off lo w x) off lo w = x % 2 ^ w := by
  simp [fld, setFld, h]

/-- Another field of the register stays. -/
theorem fld_setFld_field (off lo w x lo' w' : Nat) (h : lo + w ≤ 32) (hd : lo' + w' ≤ lo ∨ lo + w ≤ lo') :
    fld (setFld c off lo w x) off lo' w' = fld c off lo' w' := by
  simp [fld, setFld, bits_setBits_other _ lo w x lo' w' h hd]

/-- Fields of other registers stay. -/
theorem fld_setFld_other (off off' lo w x lo' w' : Nat) (h : off' ≠ off) :
    fld (setFld c off lo w x) off' lo' w' = fld c off' lo' w' := by simp [fld, reg_setFld_other c off off' lo w x h]

theorem fld_setReg_other (off off' : Nat) (v : Word) (lo w : Nat) (h : off' ≠ off) :
    fld (setReg c off v) off' lo w = fld c off' lo w := by simp [fld, reg_setReg_other c off off' v h]

@[simp] theorem flag_setFlag_self (off i : Nat) (b : Bool) (h : i < 32) : flag (setFlag c off i b) off i = b := by
  unfold flag setFlag
  rw [fld_setFld_self c off i 1 (b2n b) (by omega)]
  cases b <;> simp [b2n]

theorem flag_setFlag_bit (off i j : Nat) (b : Bool) (h : i < 32) (hd : j ≠ i) :
    flag (setFlag c off i b) off j = flag c off j := by
  unfold flag setFlag
  rw [fld_setFld_field c off i 1 (b2n b) j 1 (by omega) (by omega)]

theorem flag_setFlag_other (off off' i j : Nat) (b : Bool) (h : off' ≠ off) :
    flag (setFlag c off i b) off' j = flag c off' j := by
  simp [flag, setFlag, fld_setFld_other c off off' i 1 (b2n b) j 1 h]

theorem flag_setFld_other (off off' lo w x j : Nat) (h : off' ≠ off) :
    flag (setFld c off lo w x) off' j = flag c off' j := by simp [flag, fld_setFld_other c off off' lo w x j 1 h]

theorem flag_setFld_bit (off lo w x j : Nat) (h : lo + w ≤ 32) (hd : j < lo ∨ lo + w ≤ j) :
    flag (setFld c off lo w x) off j = flag c off j := by
  simp [flag, fld_setFld_field c off lo w x j 1 h (by omega)]

theorem fld_setFlag_field (off i : Nat) (b : Bool) (lo w : Nat) (h : i < 32) (hd : i < lo ∨ lo + w ≤ i) :
    fld (setFlag c off i b) off lo w = fld c off lo w := fld_setFld_field c off i 1 _ lo w (by omega) (by omega)

theorem fld_setFlag_other (off off' i : Nat) (b : Bool) (lo w : Nat) (h : off' ≠ off) :
    fld (setFlag c off i b) off' lo w = fld c off' lo w := fld_setFld_other c off off' i 1 _ lo w h

/-- A count reads one more, and stays at its largest value. -/
theorem fld_countFld_self (off lo w : Nat) (h : lo + w ≤ 32) :
    fld (countFld c off lo w) off lo w = satInc w (fld c off lo w) := by
  unfold countFld
  rw [fld_setFld_self c off lo w _ h]
  apply Nat.mod_eq_of_lt
  have := Nat.two_pow_pos w
  unfold satInc; split <;> omega

theorem fld_countFld_field (off lo w lo' w' : Nat) (h : lo + w ≤ 32) (hd : lo' + w' ≤ lo ∨ lo + w ≤ lo') :
    fld (countFld c off lo w) off lo' w' = fld c off lo' w' := fld_setFld_field c off lo w _ lo' w' h hd

theorem flag_countFld_bit (off lo w j : Nat) (h : lo + w ≤ 32) (hd : j < lo ∨ lo + w ≤ j) :
    flag (countFld c off lo w) off j = flag c off j := flag_setFld_bit c off lo w _ j h hd

theorem flag_countFld_other (off off' lo w j : Nat) (h : off' ≠ off) :
    flag (countFld c off lo w) off' j = flag c off' j := flag_setFld_other c off off' lo w _ j h

/-- The field of a register is below its width. -/
theorem fld_lt (off lo w : Nat) : fld c off lo w < 2 ^ w := Nat.mod_lt _ (Nat.two_pow_pos w)

/-! ## Points and functions -/

@[simp] theorem point_setPoint_self (p : Nat) (e : PtEnt) : point (setPoint c p e) p = e := by simp [point, setPoint]

theorem point_setPoint_other (p q : Nat) (e : PtEnt) (h : q ≠ p) : point (setPoint c p e) q = point c q :=
  smGet_smPut_other _ _ _ _ _ h

@[simp] theorem fnSt_setFn_self (fn : Nat) (f : FnSt) : fnSt (setFn c fn f) fn = f := by simp [fnSt, setFn]

theorem fnSt_setFn_other (fn g : Nat) (f : FnSt) (h : g ≠ fn) : fnSt (setFn c fn f) g = fnSt c g :=
  smGet_smPut_other _ _ _ _ _ h

@[simp] theorem fnSt_modFn_self (fn : Nat) (f : FnSt → FnSt) : fnSt (modFn c fn f) fn = f (fnSt c fn) := by simp [modFn]

theorem fnSt_modFn_other (fn g : Nat) (f : FnSt → FnSt) (h : g ≠ fn) : fnSt (modFn c fn f) g = fnSt c g :=
  fnSt_setFn_other c fn g _ h

/-- Registers do not move with points, functions or host memory. -/
@[simp] theorem reg_setPoint (p : Nat) (e : PtEnt) (off : Nat) : reg (setPoint c p e) off = reg c off := rfl
@[simp] theorem reg_setFn (fn : Nat) (f : FnSt) (off : Nat) : reg (setFn c fn f) off = reg c off := rfl
@[simp] theorem reg_modFn (fn : Nat) (f : FnSt → FnSt) (off : Nat) : reg (modFn c fn f) off = reg c off := rfl
@[simp] theorem reg_hostWrite (a : Nat) (bs : List Byte) (off : Nat) : reg (hostWrite c a bs) off = reg c off := rfl
@[simp] theorem reg_takeFree (off : Nat) : reg (takeFree c) off = reg c off := rfl
@[simp] theorem point_setReg (off : Nat) (v : Word) (p : Nat) : point (setReg c off v) p = point c p := rfl
@[simp] theorem fnSt_setReg (off : Nat) (v : Word) (fn : Nat) : fnSt (setReg c off v) fn = fnSt c fn := rfl
@[simp] theorem point_modFn (fn : Nat) (f : FnSt → FnSt) (p : Nat) : point (modFn c fn f) p = point c p := rfl

/-! ## One lemma a field and update -/

@[simp] theorem setReg_hostMem (off : Nat) (v : Word) : (setReg c off v).hostMem = c.hostMem := rfl
@[simp] theorem setReg_tables (off : Nat) (v : Word) : (setReg c off v).tables = c.tables := rfl
@[simp] theorem setReg_nvm (off : Nat) (v : Word) : (setReg c off v).nvm = c.nvm := rfl
@[simp] theorem setReg_points (off : Nat) (v : Word) : (setReg c off v).points = c.points := rfl
@[simp] theorem setReg_ot (off : Nat) (v : Word) : (setReg c off v).ot = c.ot := rfl
@[simp] theorem setReg_pwr (off : Nat) (v : Word) : (setReg c off v).pwr = c.pwr := rfl
@[simp] theorem setReg_mode (off : Nat) (v : Word) : (setReg c off v).mode = c.mode := rfl
@[simp] theorem setReg_img (off : Nat) (v : Word) : (setReg c off v).img = c.img := rfl
@[simp] theorem setReg_fns (off : Nat) (v : Word) : (setReg c off v).fns = c.fns := rfl
@[simp] theorem setReg_seq (off : Nat) (v : Word) : (setReg c off v).seq = c.seq := rfl
@[simp] theorem setReg_rcd (off : Nat) (v : Word) : (setReg c off v).rcd = c.rcd := rfl
@[simp] theorem setReg_diag (off : Nat) (v : Word) : (setReg c off v).diag = c.diag := rfl
@[simp] theorem setReg_breach (off : Nat) (v : Word) : (setReg c off v).breach = c.breach := rfl
@[simp] theorem setReg_readOut (off : Nat) (v : Word) : (setReg c off v).readOut = c.readOut := rfl
@[simp] theorem setReg_readAbort (off : Nat) (v : Word) : (setReg c off v).readAbort = c.readAbort := rfl
@[simp] theorem setReg_free (off : Nat) (v : Word) : (setReg c off v).free = c.free := rfl
@[simp] theorem setReg_ana (off : Nat) (v : Word) : (setReg c off v).ana = c.ana := rfl
@[simp] theorem setReg_bank (off : Nat) (v : Word) : (setReg c off v).bank = c.bank := rfl
@[simp] theorem setReg_corr (off : Nat) (v : Word) : (setReg c off v).corr = c.corr := rfl
@[simp] theorem setReg_cells (off : Nat) (v : Word) : (setReg c off v).cells = c.cells := rfl
@[simp] theorem setReg_trim (off : Nat) (v : Word) : (setReg c off v).trim = c.trim := rfl
@[simp] theorem setReg_gate (off : Nat) (v : Word) : (setReg c off v).gate = c.gate := rfl
@[simp] theorem setReg_contacts (off : Nat) (v : Word) : (setReg c off v).contacts = c.contacts := rfl
@[simp] theorem setReg_pulses (off : Nat) (v : Word) : (setReg c off v).pulses = c.pulses := rfl
@[simp] theorem setReg_trips (off : Nat) (v : Word) : (setReg c off v).trips = c.trips := rfl
@[simp] theorem setReg_legs (off : Nat) (v : Word) : (setReg c off v).legs = c.legs := rfl
@[simp] theorem setReg_pos (off : Nat) (v : Word) : (setReg c off v).pos = c.pos := rfl
@[simp] theorem setReg_loops (off : Nat) (v : Word) : (setReg c off v).loops = c.loops := rfl
@[simp] theorem setReg_evq (off : Nat) (v : Word) : (setReg c off v).evq = c.evq := rfl
@[simp] theorem setReg_tune (off : Nat) (v : Word) : (setReg c off v).tune = c.tune := rfl
@[simp] theorem setReg_rtc (off : Nat) (v : Word) : (setReg c off v).rtc = c.rtc := rfl
@[simp] theorem setReg_can (off : Nat) (v : Word) : (setReg c off v).can = c.can := rfl
@[simp] theorem setReg_alm (off : Nat) (v : Word) : (setReg c off v).alm = c.alm := rfl
@[simp] theorem setReg_call (off : Nat) (v : Word) : (setReg c off v).call = c.call := rfl
@[simp] theorem setReg_bsn (off : Nat) (v : Word) : (setReg c off v).bsn = c.bsn := rfl
@[simp] theorem setReg_dma (off : Nat) (v : Word) : (setReg c off v).dma = c.dma := rfl
@[simp] theorem setReg_sdl (off : Nat) (v : Word) : (setReg c off v).sdl = c.sdl := rfl
@[simp] theorem setReg_lcd (off : Nat) (v : Word) : (setReg c off v).lcd = c.lcd := rfl
@[simp] theorem setReg_spt (off : Nat) (v : Word) : (setReg c off v).spt = c.spt := rfl
@[simp] theorem setReg_upd (off : Nat) (v : Word) : (setReg c off v).upd = c.upd := rfl
@[simp] theorem setReg_jtag (off : Nat) (v : Word) : (setReg c off v).jtag = c.jtag := rfl
@[simp] theorem setReg_strapTest (off : Nat) (v : Word) : (setReg c off v).strapTest = c.strapTest := rfl

@[simp] theorem setFld_hostMem (off lo w x : Nat) : (setFld c off lo w x).hostMem = c.hostMem := setReg_hostMem c _ _
@[simp] theorem setFld_tables (off lo w x : Nat) : (setFld c off lo w x).tables = c.tables := setReg_tables c _ _
@[simp] theorem setFld_nvm (off lo w x : Nat) : (setFld c off lo w x).nvm = c.nvm := setReg_nvm c _ _
@[simp] theorem setFld_points (off lo w x : Nat) : (setFld c off lo w x).points = c.points := setReg_points c _ _
@[simp] theorem setFld_ot (off lo w x : Nat) : (setFld c off lo w x).ot = c.ot := setReg_ot c _ _
@[simp] theorem setFld_pwr (off lo w x : Nat) : (setFld c off lo w x).pwr = c.pwr := setReg_pwr c _ _
@[simp] theorem setFld_mode (off lo w x : Nat) : (setFld c off lo w x).mode = c.mode := setReg_mode c _ _
@[simp] theorem setFld_img (off lo w x : Nat) : (setFld c off lo w x).img = c.img := setReg_img c _ _
@[simp] theorem setFld_fns (off lo w x : Nat) : (setFld c off lo w x).fns = c.fns := setReg_fns c _ _
@[simp] theorem setFld_seq (off lo w x : Nat) : (setFld c off lo w x).seq = c.seq := setReg_seq c _ _
@[simp] theorem setFld_rcd (off lo w x : Nat) : (setFld c off lo w x).rcd = c.rcd := setReg_rcd c _ _
@[simp] theorem setFld_diag (off lo w x : Nat) : (setFld c off lo w x).diag = c.diag := setReg_diag c _ _
@[simp] theorem setFld_breach (off lo w x : Nat) : (setFld c off lo w x).breach = c.breach := setReg_breach c _ _
@[simp] theorem setFld_readOut (off lo w x : Nat) : (setFld c off lo w x).readOut = c.readOut := setReg_readOut c _ _
@[simp] theorem setFld_readAbort (off lo w x : Nat) : (setFld c off lo w x).readAbort = c.readAbort := setReg_readAbort c _ _
@[simp] theorem setFld_free (off lo w x : Nat) : (setFld c off lo w x).free = c.free := setReg_free c _ _
@[simp] theorem setFld_ana (off lo w x : Nat) : (setFld c off lo w x).ana = c.ana := setReg_ana c _ _
@[simp] theorem setFld_bank (off lo w x : Nat) : (setFld c off lo w x).bank = c.bank := setReg_bank c _ _
@[simp] theorem setFld_corr (off lo w x : Nat) : (setFld c off lo w x).corr = c.corr := setReg_corr c _ _
@[simp] theorem setFld_cells (off lo w x : Nat) : (setFld c off lo w x).cells = c.cells := setReg_cells c _ _
@[simp] theorem setFld_trim (off lo w x : Nat) : (setFld c off lo w x).trim = c.trim := setReg_trim c _ _
@[simp] theorem setFld_gate (off lo w x : Nat) : (setFld c off lo w x).gate = c.gate := setReg_gate c _ _
@[simp] theorem setFld_contacts (off lo w x : Nat) : (setFld c off lo w x).contacts = c.contacts := setReg_contacts c _ _
@[simp] theorem setFld_pulses (off lo w x : Nat) : (setFld c off lo w x).pulses = c.pulses := setReg_pulses c _ _
@[simp] theorem setFld_trips (off lo w x : Nat) : (setFld c off lo w x).trips = c.trips := setReg_trips c _ _
@[simp] theorem setFld_legs (off lo w x : Nat) : (setFld c off lo w x).legs = c.legs := setReg_legs c _ _
@[simp] theorem setFld_pos (off lo w x : Nat) : (setFld c off lo w x).pos = c.pos := setReg_pos c _ _
@[simp] theorem setFld_loops (off lo w x : Nat) : (setFld c off lo w x).loops = c.loops := setReg_loops c _ _
@[simp] theorem setFld_evq (off lo w x : Nat) : (setFld c off lo w x).evq = c.evq := setReg_evq c _ _
@[simp] theorem setFld_tune (off lo w x : Nat) : (setFld c off lo w x).tune = c.tune := setReg_tune c _ _
@[simp] theorem setFld_rtc (off lo w x : Nat) : (setFld c off lo w x).rtc = c.rtc := setReg_rtc c _ _
@[simp] theorem setFld_can (off lo w x : Nat) : (setFld c off lo w x).can = c.can := setReg_can c _ _
@[simp] theorem setFld_alm (off lo w x : Nat) : (setFld c off lo w x).alm = c.alm := setReg_alm c _ _
@[simp] theorem setFld_call (off lo w x : Nat) : (setFld c off lo w x).call = c.call := setReg_call c _ _
@[simp] theorem setFld_bsn (off lo w x : Nat) : (setFld c off lo w x).bsn = c.bsn := setReg_bsn c _ _
@[simp] theorem setFld_dma (off lo w x : Nat) : (setFld c off lo w x).dma = c.dma := setReg_dma c _ _
@[simp] theorem setFld_sdl (off lo w x : Nat) : (setFld c off lo w x).sdl = c.sdl := setReg_sdl c _ _
@[simp] theorem setFld_lcd (off lo w x : Nat) : (setFld c off lo w x).lcd = c.lcd := setReg_lcd c _ _
@[simp] theorem setFld_spt (off lo w x : Nat) : (setFld c off lo w x).spt = c.spt := setReg_spt c _ _
@[simp] theorem setFld_upd (off lo w x : Nat) : (setFld c off lo w x).upd = c.upd := setReg_upd c _ _
@[simp] theorem setFld_jtag (off lo w x : Nat) : (setFld c off lo w x).jtag = c.jtag := setReg_jtag c _ _
@[simp] theorem setFld_strapTest (off lo w x : Nat) : (setFld c off lo w x).strapTest = c.strapTest := setReg_strapTest c _ _

@[simp] theorem setFlag_hostMem (off i : Nat) (b : Bool) : (setFlag c off i b).hostMem = c.hostMem := setReg_hostMem c _ _
@[simp] theorem setFlag_tables (off i : Nat) (b : Bool) : (setFlag c off i b).tables = c.tables := setReg_tables c _ _
@[simp] theorem setFlag_nvm (off i : Nat) (b : Bool) : (setFlag c off i b).nvm = c.nvm := setReg_nvm c _ _
@[simp] theorem setFlag_points (off i : Nat) (b : Bool) : (setFlag c off i b).points = c.points := setReg_points c _ _
@[simp] theorem setFlag_ot (off i : Nat) (b : Bool) : (setFlag c off i b).ot = c.ot := setReg_ot c _ _
@[simp] theorem setFlag_pwr (off i : Nat) (b : Bool) : (setFlag c off i b).pwr = c.pwr := setReg_pwr c _ _
@[simp] theorem setFlag_mode (off i : Nat) (b : Bool) : (setFlag c off i b).mode = c.mode := setReg_mode c _ _
@[simp] theorem setFlag_img (off i : Nat) (b : Bool) : (setFlag c off i b).img = c.img := setReg_img c _ _
@[simp] theorem setFlag_fns (off i : Nat) (b : Bool) : (setFlag c off i b).fns = c.fns := setReg_fns c _ _
@[simp] theorem setFlag_seq (off i : Nat) (b : Bool) : (setFlag c off i b).seq = c.seq := setReg_seq c _ _
@[simp] theorem setFlag_rcd (off i : Nat) (b : Bool) : (setFlag c off i b).rcd = c.rcd := setReg_rcd c _ _
@[simp] theorem setFlag_diag (off i : Nat) (b : Bool) : (setFlag c off i b).diag = c.diag := setReg_diag c _ _
@[simp] theorem setFlag_breach (off i : Nat) (b : Bool) : (setFlag c off i b).breach = c.breach := setReg_breach c _ _
@[simp] theorem setFlag_readOut (off i : Nat) (b : Bool) : (setFlag c off i b).readOut = c.readOut := setReg_readOut c _ _
@[simp] theorem setFlag_readAbort (off i : Nat) (b : Bool) : (setFlag c off i b).readAbort = c.readAbort := setReg_readAbort c _ _
@[simp] theorem setFlag_free (off i : Nat) (b : Bool) : (setFlag c off i b).free = c.free := setReg_free c _ _
@[simp] theorem setFlag_ana (off i : Nat) (b : Bool) : (setFlag c off i b).ana = c.ana := setReg_ana c _ _
@[simp] theorem setFlag_bank (off i : Nat) (b : Bool) : (setFlag c off i b).bank = c.bank := setReg_bank c _ _
@[simp] theorem setFlag_corr (off i : Nat) (b : Bool) : (setFlag c off i b).corr = c.corr := setReg_corr c _ _
@[simp] theorem setFlag_cells (off i : Nat) (b : Bool) : (setFlag c off i b).cells = c.cells := setReg_cells c _ _
@[simp] theorem setFlag_trim (off i : Nat) (b : Bool) : (setFlag c off i b).trim = c.trim := setReg_trim c _ _
@[simp] theorem setFlag_gate (off i : Nat) (b : Bool) : (setFlag c off i b).gate = c.gate := setReg_gate c _ _
@[simp] theorem setFlag_contacts (off i : Nat) (b : Bool) : (setFlag c off i b).contacts = c.contacts := setReg_contacts c _ _
@[simp] theorem setFlag_pulses (off i : Nat) (b : Bool) : (setFlag c off i b).pulses = c.pulses := setReg_pulses c _ _
@[simp] theorem setFlag_trips (off i : Nat) (b : Bool) : (setFlag c off i b).trips = c.trips := setReg_trips c _ _
@[simp] theorem setFlag_legs (off i : Nat) (b : Bool) : (setFlag c off i b).legs = c.legs := setReg_legs c _ _
@[simp] theorem setFlag_pos (off i : Nat) (b : Bool) : (setFlag c off i b).pos = c.pos := setReg_pos c _ _
@[simp] theorem setFlag_loops (off i : Nat) (b : Bool) : (setFlag c off i b).loops = c.loops := setReg_loops c _ _
@[simp] theorem setFlag_evq (off i : Nat) (b : Bool) : (setFlag c off i b).evq = c.evq := setReg_evq c _ _
@[simp] theorem setFlag_tune (off i : Nat) (b : Bool) : (setFlag c off i b).tune = c.tune := setReg_tune c _ _
@[simp] theorem setFlag_rtc (off i : Nat) (b : Bool) : (setFlag c off i b).rtc = c.rtc := setReg_rtc c _ _
@[simp] theorem setFlag_can (off i : Nat) (b : Bool) : (setFlag c off i b).can = c.can := setReg_can c _ _
@[simp] theorem setFlag_alm (off i : Nat) (b : Bool) : (setFlag c off i b).alm = c.alm := setReg_alm c _ _
@[simp] theorem setFlag_call (off i : Nat) (b : Bool) : (setFlag c off i b).call = c.call := setReg_call c _ _
@[simp] theorem setFlag_bsn (off i : Nat) (b : Bool) : (setFlag c off i b).bsn = c.bsn := setReg_bsn c _ _
@[simp] theorem setFlag_dma (off i : Nat) (b : Bool) : (setFlag c off i b).dma = c.dma := setReg_dma c _ _
@[simp] theorem setFlag_sdl (off i : Nat) (b : Bool) : (setFlag c off i b).sdl = c.sdl := setReg_sdl c _ _
@[simp] theorem setFlag_lcd (off i : Nat) (b : Bool) : (setFlag c off i b).lcd = c.lcd := setReg_lcd c _ _
@[simp] theorem setFlag_spt (off i : Nat) (b : Bool) : (setFlag c off i b).spt = c.spt := setReg_spt c _ _
@[simp] theorem setFlag_upd (off i : Nat) (b : Bool) : (setFlag c off i b).upd = c.upd := setReg_upd c _ _
@[simp] theorem setFlag_jtag (off i : Nat) (b : Bool) : (setFlag c off i b).jtag = c.jtag := setReg_jtag c _ _
@[simp] theorem setFlag_strapTest (off i : Nat) (b : Bool) : (setFlag c off i b).strapTest = c.strapTest := setReg_strapTest c _ _

@[simp] theorem countFld_hostMem (off lo w : Nat) : (countFld c off lo w).hostMem = c.hostMem := setReg_hostMem c _ _
@[simp] theorem countFld_tables (off lo w : Nat) : (countFld c off lo w).tables = c.tables := setReg_tables c _ _
@[simp] theorem countFld_nvm (off lo w : Nat) : (countFld c off lo w).nvm = c.nvm := setReg_nvm c _ _
@[simp] theorem countFld_points (off lo w : Nat) : (countFld c off lo w).points = c.points := setReg_points c _ _
@[simp] theorem countFld_ot (off lo w : Nat) : (countFld c off lo w).ot = c.ot := setReg_ot c _ _
@[simp] theorem countFld_pwr (off lo w : Nat) : (countFld c off lo w).pwr = c.pwr := setReg_pwr c _ _
@[simp] theorem countFld_mode (off lo w : Nat) : (countFld c off lo w).mode = c.mode := setReg_mode c _ _
@[simp] theorem countFld_img (off lo w : Nat) : (countFld c off lo w).img = c.img := setReg_img c _ _
@[simp] theorem countFld_fns (off lo w : Nat) : (countFld c off lo w).fns = c.fns := setReg_fns c _ _
@[simp] theorem countFld_seq (off lo w : Nat) : (countFld c off lo w).seq = c.seq := setReg_seq c _ _
@[simp] theorem countFld_rcd (off lo w : Nat) : (countFld c off lo w).rcd = c.rcd := setReg_rcd c _ _
@[simp] theorem countFld_diag (off lo w : Nat) : (countFld c off lo w).diag = c.diag := setReg_diag c _ _
@[simp] theorem countFld_breach (off lo w : Nat) : (countFld c off lo w).breach = c.breach := setReg_breach c _ _
@[simp] theorem countFld_readOut (off lo w : Nat) : (countFld c off lo w).readOut = c.readOut := setReg_readOut c _ _
@[simp] theorem countFld_readAbort (off lo w : Nat) : (countFld c off lo w).readAbort = c.readAbort := setReg_readAbort c _ _
@[simp] theorem countFld_free (off lo w : Nat) : (countFld c off lo w).free = c.free := setReg_free c _ _
@[simp] theorem countFld_ana (off lo w : Nat) : (countFld c off lo w).ana = c.ana := setReg_ana c _ _
@[simp] theorem countFld_bank (off lo w : Nat) : (countFld c off lo w).bank = c.bank := setReg_bank c _ _
@[simp] theorem countFld_corr (off lo w : Nat) : (countFld c off lo w).corr = c.corr := setReg_corr c _ _
@[simp] theorem countFld_cells (off lo w : Nat) : (countFld c off lo w).cells = c.cells := setReg_cells c _ _
@[simp] theorem countFld_trim (off lo w : Nat) : (countFld c off lo w).trim = c.trim := setReg_trim c _ _
@[simp] theorem countFld_gate (off lo w : Nat) : (countFld c off lo w).gate = c.gate := setReg_gate c _ _
@[simp] theorem countFld_contacts (off lo w : Nat) : (countFld c off lo w).contacts = c.contacts := setReg_contacts c _ _
@[simp] theorem countFld_pulses (off lo w : Nat) : (countFld c off lo w).pulses = c.pulses := setReg_pulses c _ _
@[simp] theorem countFld_trips (off lo w : Nat) : (countFld c off lo w).trips = c.trips := setReg_trips c _ _
@[simp] theorem countFld_legs (off lo w : Nat) : (countFld c off lo w).legs = c.legs := setReg_legs c _ _
@[simp] theorem countFld_pos (off lo w : Nat) : (countFld c off lo w).pos = c.pos := setReg_pos c _ _
@[simp] theorem countFld_loops (off lo w : Nat) : (countFld c off lo w).loops = c.loops := setReg_loops c _ _
@[simp] theorem countFld_evq (off lo w : Nat) : (countFld c off lo w).evq = c.evq := setReg_evq c _ _
@[simp] theorem countFld_tune (off lo w : Nat) : (countFld c off lo w).tune = c.tune := setReg_tune c _ _
@[simp] theorem countFld_rtc (off lo w : Nat) : (countFld c off lo w).rtc = c.rtc := setReg_rtc c _ _
@[simp] theorem countFld_can (off lo w : Nat) : (countFld c off lo w).can = c.can := setReg_can c _ _
@[simp] theorem countFld_alm (off lo w : Nat) : (countFld c off lo w).alm = c.alm := setReg_alm c _ _
@[simp] theorem countFld_call (off lo w : Nat) : (countFld c off lo w).call = c.call := setReg_call c _ _
@[simp] theorem countFld_bsn (off lo w : Nat) : (countFld c off lo w).bsn = c.bsn := setReg_bsn c _ _
@[simp] theorem countFld_dma (off lo w : Nat) : (countFld c off lo w).dma = c.dma := setReg_dma c _ _
@[simp] theorem countFld_sdl (off lo w : Nat) : (countFld c off lo w).sdl = c.sdl := setReg_sdl c _ _
@[simp] theorem countFld_lcd (off lo w : Nat) : (countFld c off lo w).lcd = c.lcd := setReg_lcd c _ _
@[simp] theorem countFld_spt (off lo w : Nat) : (countFld c off lo w).spt = c.spt := setReg_spt c _ _
@[simp] theorem countFld_upd (off lo w : Nat) : (countFld c off lo w).upd = c.upd := setReg_upd c _ _
@[simp] theorem countFld_jtag (off lo w : Nat) : (countFld c off lo w).jtag = c.jtag := setReg_jtag c _ _
@[simp] theorem countFld_strapTest (off lo w : Nat) : (countFld c off lo w).strapTest = c.strapTest := setReg_strapTest c _ _

@[simp] theorem resetRegs_hostMem (lo hi : Nat) : (resetRegs c lo hi).hostMem = c.hostMem := rfl
@[simp] theorem resetRegs_tables (lo hi : Nat) : (resetRegs c lo hi).tables = c.tables := rfl
@[simp] theorem resetRegs_nvm (lo hi : Nat) : (resetRegs c lo hi).nvm = c.nvm := rfl
@[simp] theorem resetRegs_points (lo hi : Nat) : (resetRegs c lo hi).points = c.points := rfl
@[simp] theorem resetRegs_ot (lo hi : Nat) : (resetRegs c lo hi).ot = c.ot := rfl
@[simp] theorem resetRegs_pwr (lo hi : Nat) : (resetRegs c lo hi).pwr = c.pwr := rfl
@[simp] theorem resetRegs_mode (lo hi : Nat) : (resetRegs c lo hi).mode = c.mode := rfl
@[simp] theorem resetRegs_img (lo hi : Nat) : (resetRegs c lo hi).img = c.img := rfl
@[simp] theorem resetRegs_fns (lo hi : Nat) : (resetRegs c lo hi).fns = c.fns := rfl
@[simp] theorem resetRegs_seq (lo hi : Nat) : (resetRegs c lo hi).seq = c.seq := rfl
@[simp] theorem resetRegs_rcd (lo hi : Nat) : (resetRegs c lo hi).rcd = c.rcd := rfl
@[simp] theorem resetRegs_diag (lo hi : Nat) : (resetRegs c lo hi).diag = c.diag := rfl
@[simp] theorem resetRegs_breach (lo hi : Nat) : (resetRegs c lo hi).breach = c.breach := rfl
@[simp] theorem resetRegs_readOut (lo hi : Nat) : (resetRegs c lo hi).readOut = c.readOut := rfl
@[simp] theorem resetRegs_readAbort (lo hi : Nat) : (resetRegs c lo hi).readAbort = c.readAbort := rfl
@[simp] theorem resetRegs_free (lo hi : Nat) : (resetRegs c lo hi).free = c.free := rfl
@[simp] theorem resetRegs_ana (lo hi : Nat) : (resetRegs c lo hi).ana = c.ana := rfl
@[simp] theorem resetRegs_bank (lo hi : Nat) : (resetRegs c lo hi).bank = c.bank := rfl
@[simp] theorem resetRegs_corr (lo hi : Nat) : (resetRegs c lo hi).corr = c.corr := rfl
@[simp] theorem resetRegs_cells (lo hi : Nat) : (resetRegs c lo hi).cells = c.cells := rfl
@[simp] theorem resetRegs_trim (lo hi : Nat) : (resetRegs c lo hi).trim = c.trim := rfl
@[simp] theorem resetRegs_gate (lo hi : Nat) : (resetRegs c lo hi).gate = c.gate := rfl
@[simp] theorem resetRegs_contacts (lo hi : Nat) : (resetRegs c lo hi).contacts = c.contacts := rfl
@[simp] theorem resetRegs_pulses (lo hi : Nat) : (resetRegs c lo hi).pulses = c.pulses := rfl
@[simp] theorem resetRegs_trips (lo hi : Nat) : (resetRegs c lo hi).trips = c.trips := rfl
@[simp] theorem resetRegs_legs (lo hi : Nat) : (resetRegs c lo hi).legs = c.legs := rfl
@[simp] theorem resetRegs_pos (lo hi : Nat) : (resetRegs c lo hi).pos = c.pos := rfl
@[simp] theorem resetRegs_loops (lo hi : Nat) : (resetRegs c lo hi).loops = c.loops := rfl
@[simp] theorem resetRegs_evq (lo hi : Nat) : (resetRegs c lo hi).evq = c.evq := rfl
@[simp] theorem resetRegs_tune (lo hi : Nat) : (resetRegs c lo hi).tune = c.tune := rfl
@[simp] theorem resetRegs_rtc (lo hi : Nat) : (resetRegs c lo hi).rtc = c.rtc := rfl
@[simp] theorem resetRegs_can (lo hi : Nat) : (resetRegs c lo hi).can = c.can := rfl
@[simp] theorem resetRegs_alm (lo hi : Nat) : (resetRegs c lo hi).alm = c.alm := rfl
@[simp] theorem resetRegs_call (lo hi : Nat) : (resetRegs c lo hi).call = c.call := rfl
@[simp] theorem resetRegs_bsn (lo hi : Nat) : (resetRegs c lo hi).bsn = c.bsn := rfl
@[simp] theorem resetRegs_dma (lo hi : Nat) : (resetRegs c lo hi).dma = c.dma := rfl
@[simp] theorem resetRegs_sdl (lo hi : Nat) : (resetRegs c lo hi).sdl = c.sdl := rfl
@[simp] theorem resetRegs_lcd (lo hi : Nat) : (resetRegs c lo hi).lcd = c.lcd := rfl
@[simp] theorem resetRegs_spt (lo hi : Nat) : (resetRegs c lo hi).spt = c.spt := rfl
@[simp] theorem resetRegs_upd (lo hi : Nat) : (resetRegs c lo hi).upd = c.upd := rfl
@[simp] theorem resetRegs_jtag (lo hi : Nat) : (resetRegs c lo hi).jtag = c.jtag := rfl
@[simp] theorem resetRegs_strapTest (lo hi : Nat) : (resetRegs c lo hi).strapTest = c.strapTest := rfl

@[simp] theorem setFrameNum_hostMem (n : Nat) : (setFrameNum c n).hostMem = c.hostMem := (setReg_hostMem _ _ _).trans (setReg_hostMem c _ _)
@[simp] theorem setFrameNum_tables (n : Nat) : (setFrameNum c n).tables = c.tables := (setReg_tables _ _ _).trans (setReg_tables c _ _)
@[simp] theorem setFrameNum_nvm (n : Nat) : (setFrameNum c n).nvm = c.nvm := (setReg_nvm _ _ _).trans (setReg_nvm c _ _)
@[simp] theorem setFrameNum_points (n : Nat) : (setFrameNum c n).points = c.points := (setReg_points _ _ _).trans (setReg_points c _ _)
@[simp] theorem setFrameNum_ot (n : Nat) : (setFrameNum c n).ot = c.ot := (setReg_ot _ _ _).trans (setReg_ot c _ _)
@[simp] theorem setFrameNum_pwr (n : Nat) : (setFrameNum c n).pwr = c.pwr := (setReg_pwr _ _ _).trans (setReg_pwr c _ _)
@[simp] theorem setFrameNum_mode (n : Nat) : (setFrameNum c n).mode = c.mode := (setReg_mode _ _ _).trans (setReg_mode c _ _)
@[simp] theorem setFrameNum_img (n : Nat) : (setFrameNum c n).img = c.img := (setReg_img _ _ _).trans (setReg_img c _ _)
@[simp] theorem setFrameNum_fns (n : Nat) : (setFrameNum c n).fns = c.fns := (setReg_fns _ _ _).trans (setReg_fns c _ _)
@[simp] theorem setFrameNum_seq (n : Nat) : (setFrameNum c n).seq = c.seq := (setReg_seq _ _ _).trans (setReg_seq c _ _)
@[simp] theorem setFrameNum_rcd (n : Nat) : (setFrameNum c n).rcd = c.rcd := (setReg_rcd _ _ _).trans (setReg_rcd c _ _)
@[simp] theorem setFrameNum_diag (n : Nat) : (setFrameNum c n).diag = c.diag := (setReg_diag _ _ _).trans (setReg_diag c _ _)
@[simp] theorem setFrameNum_breach (n : Nat) : (setFrameNum c n).breach = c.breach := (setReg_breach _ _ _).trans (setReg_breach c _ _)
@[simp] theorem setFrameNum_readOut (n : Nat) : (setFrameNum c n).readOut = c.readOut := (setReg_readOut _ _ _).trans (setReg_readOut c _ _)
@[simp] theorem setFrameNum_readAbort (n : Nat) : (setFrameNum c n).readAbort = c.readAbort := (setReg_readAbort _ _ _).trans (setReg_readAbort c _ _)
@[simp] theorem setFrameNum_free (n : Nat) : (setFrameNum c n).free = c.free := (setReg_free _ _ _).trans (setReg_free c _ _)
@[simp] theorem setFrameNum_ana (n : Nat) : (setFrameNum c n).ana = c.ana := (setReg_ana _ _ _).trans (setReg_ana c _ _)
@[simp] theorem setFrameNum_bank (n : Nat) : (setFrameNum c n).bank = c.bank := (setReg_bank _ _ _).trans (setReg_bank c _ _)
@[simp] theorem setFrameNum_corr (n : Nat) : (setFrameNum c n).corr = c.corr := (setReg_corr _ _ _).trans (setReg_corr c _ _)
@[simp] theorem setFrameNum_cells (n : Nat) : (setFrameNum c n).cells = c.cells := (setReg_cells _ _ _).trans (setReg_cells c _ _)
@[simp] theorem setFrameNum_trim (n : Nat) : (setFrameNum c n).trim = c.trim := (setReg_trim _ _ _).trans (setReg_trim c _ _)
@[simp] theorem setFrameNum_gate (n : Nat) : (setFrameNum c n).gate = c.gate := (setReg_gate _ _ _).trans (setReg_gate c _ _)
@[simp] theorem setFrameNum_contacts (n : Nat) : (setFrameNum c n).contacts = c.contacts := (setReg_contacts _ _ _).trans (setReg_contacts c _ _)
@[simp] theorem setFrameNum_pulses (n : Nat) : (setFrameNum c n).pulses = c.pulses := (setReg_pulses _ _ _).trans (setReg_pulses c _ _)
@[simp] theorem setFrameNum_trips (n : Nat) : (setFrameNum c n).trips = c.trips := (setReg_trips _ _ _).trans (setReg_trips c _ _)
@[simp] theorem setFrameNum_legs (n : Nat) : (setFrameNum c n).legs = c.legs := (setReg_legs _ _ _).trans (setReg_legs c _ _)
@[simp] theorem setFrameNum_pos (n : Nat) : (setFrameNum c n).pos = c.pos := (setReg_pos _ _ _).trans (setReg_pos c _ _)
@[simp] theorem setFrameNum_loops (n : Nat) : (setFrameNum c n).loops = c.loops := (setReg_loops _ _ _).trans (setReg_loops c _ _)
@[simp] theorem setFrameNum_evq (n : Nat) : (setFrameNum c n).evq = c.evq := (setReg_evq _ _ _).trans (setReg_evq c _ _)
@[simp] theorem setFrameNum_tune (n : Nat) : (setFrameNum c n).tune = c.tune := (setReg_tune _ _ _).trans (setReg_tune c _ _)
@[simp] theorem setFrameNum_rtc (n : Nat) : (setFrameNum c n).rtc = c.rtc := (setReg_rtc _ _ _).trans (setReg_rtc c _ _)
@[simp] theorem setFrameNum_can (n : Nat) : (setFrameNum c n).can = c.can := (setReg_can _ _ _).trans (setReg_can c _ _)
@[simp] theorem setFrameNum_alm (n : Nat) : (setFrameNum c n).alm = c.alm := (setReg_alm _ _ _).trans (setReg_alm c _ _)
@[simp] theorem setFrameNum_call (n : Nat) : (setFrameNum c n).call = c.call := (setReg_call _ _ _).trans (setReg_call c _ _)
@[simp] theorem setFrameNum_bsn (n : Nat) : (setFrameNum c n).bsn = c.bsn := (setReg_bsn _ _ _).trans (setReg_bsn c _ _)
@[simp] theorem setFrameNum_dma (n : Nat) : (setFrameNum c n).dma = c.dma := (setReg_dma _ _ _).trans (setReg_dma c _ _)
@[simp] theorem setFrameNum_sdl (n : Nat) : (setFrameNum c n).sdl = c.sdl := (setReg_sdl _ _ _).trans (setReg_sdl c _ _)
@[simp] theorem setFrameNum_lcd (n : Nat) : (setFrameNum c n).lcd = c.lcd := (setReg_lcd _ _ _).trans (setReg_lcd c _ _)
@[simp] theorem setFrameNum_spt (n : Nat) : (setFrameNum c n).spt = c.spt := (setReg_spt _ _ _).trans (setReg_spt c _ _)
@[simp] theorem setFrameNum_upd (n : Nat) : (setFrameNum c n).upd = c.upd := (setReg_upd _ _ _).trans (setReg_upd c _ _)
@[simp] theorem setFrameNum_jtag (n : Nat) : (setFrameNum c n).jtag = c.jtag := (setReg_jtag _ _ _).trans (setReg_jtag c _ _)
@[simp] theorem setFrameNum_strapTest (n : Nat) : (setFrameNum c n).strapTest = c.strapTest := (setReg_strapTest _ _ _).trans (setReg_strapTest c _ _)

@[simp] theorem takeFree_regs : (takeFree c).regs = c.regs := rfl
@[simp] theorem takeFree_hostMem : (takeFree c).hostMem = c.hostMem := rfl
@[simp] theorem takeFree_tables : (takeFree c).tables = c.tables := rfl
@[simp] theorem takeFree_nvm : (takeFree c).nvm = c.nvm := rfl
@[simp] theorem takeFree_points : (takeFree c).points = c.points := rfl
@[simp] theorem takeFree_ot : (takeFree c).ot = c.ot := rfl
@[simp] theorem takeFree_pwr : (takeFree c).pwr = c.pwr := rfl
@[simp] theorem takeFree_mode : (takeFree c).mode = c.mode := rfl
@[simp] theorem takeFree_img : (takeFree c).img = c.img := rfl
@[simp] theorem takeFree_fns : (takeFree c).fns = c.fns := rfl
@[simp] theorem takeFree_seq : (takeFree c).seq = c.seq := rfl
@[simp] theorem takeFree_rcd : (takeFree c).rcd = c.rcd := rfl
@[simp] theorem takeFree_diag : (takeFree c).diag = c.diag := rfl
@[simp] theorem takeFree_breach : (takeFree c).breach = c.breach := rfl
@[simp] theorem takeFree_readOut : (takeFree c).readOut = c.readOut := rfl
@[simp] theorem takeFree_readAbort : (takeFree c).readAbort = c.readAbort := rfl
@[simp] theorem takeFree_ana : (takeFree c).ana = c.ana := rfl
@[simp] theorem takeFree_bank : (takeFree c).bank = c.bank := rfl
@[simp] theorem takeFree_corr : (takeFree c).corr = c.corr := rfl
@[simp] theorem takeFree_cells : (takeFree c).cells = c.cells := rfl
@[simp] theorem takeFree_trim : (takeFree c).trim = c.trim := rfl
@[simp] theorem takeFree_gate : (takeFree c).gate = c.gate := rfl
@[simp] theorem takeFree_contacts : (takeFree c).contacts = c.contacts := rfl
@[simp] theorem takeFree_pulses : (takeFree c).pulses = c.pulses := rfl
@[simp] theorem takeFree_trips : (takeFree c).trips = c.trips := rfl
@[simp] theorem takeFree_legs : (takeFree c).legs = c.legs := rfl
@[simp] theorem takeFree_pos : (takeFree c).pos = c.pos := rfl
@[simp] theorem takeFree_loops : (takeFree c).loops = c.loops := rfl
@[simp] theorem takeFree_evq : (takeFree c).evq = c.evq := rfl
@[simp] theorem takeFree_tune : (takeFree c).tune = c.tune := rfl
@[simp] theorem takeFree_rtc : (takeFree c).rtc = c.rtc := rfl
@[simp] theorem takeFree_can : (takeFree c).can = c.can := rfl
@[simp] theorem takeFree_alm : (takeFree c).alm = c.alm := rfl
@[simp] theorem takeFree_call : (takeFree c).call = c.call := rfl
@[simp] theorem takeFree_bsn : (takeFree c).bsn = c.bsn := rfl
@[simp] theorem takeFree_dma : (takeFree c).dma = c.dma := rfl
@[simp] theorem takeFree_sdl : (takeFree c).sdl = c.sdl := rfl
@[simp] theorem takeFree_lcd : (takeFree c).lcd = c.lcd := rfl
@[simp] theorem takeFree_spt : (takeFree c).spt = c.spt := rfl
@[simp] theorem takeFree_upd : (takeFree c).upd = c.upd := rfl
@[simp] theorem takeFree_jtag : (takeFree c).jtag = c.jtag := rfl
@[simp] theorem takeFree_strapTest : (takeFree c).strapTest = c.strapTest := rfl

@[simp] theorem setPoint_regs (p : Nat) (e : PtEnt) : (setPoint c p e).regs = c.regs := rfl
@[simp] theorem setPoint_hostMem (p : Nat) (e : PtEnt) : (setPoint c p e).hostMem = c.hostMem := rfl
@[simp] theorem setPoint_tables (p : Nat) (e : PtEnt) : (setPoint c p e).tables = c.tables := rfl
@[simp] theorem setPoint_nvm (p : Nat) (e : PtEnt) : (setPoint c p e).nvm = c.nvm := rfl
@[simp] theorem setPoint_ot (p : Nat) (e : PtEnt) : (setPoint c p e).ot = c.ot := rfl
@[simp] theorem setPoint_pwr (p : Nat) (e : PtEnt) : (setPoint c p e).pwr = c.pwr := rfl
@[simp] theorem setPoint_mode (p : Nat) (e : PtEnt) : (setPoint c p e).mode = c.mode := rfl
@[simp] theorem setPoint_img (p : Nat) (e : PtEnt) : (setPoint c p e).img = c.img := rfl
@[simp] theorem setPoint_fns (p : Nat) (e : PtEnt) : (setPoint c p e).fns = c.fns := rfl
@[simp] theorem setPoint_seq (p : Nat) (e : PtEnt) : (setPoint c p e).seq = c.seq := rfl
@[simp] theorem setPoint_rcd (p : Nat) (e : PtEnt) : (setPoint c p e).rcd = c.rcd := rfl
@[simp] theorem setPoint_diag (p : Nat) (e : PtEnt) : (setPoint c p e).diag = c.diag := rfl
@[simp] theorem setPoint_breach (p : Nat) (e : PtEnt) : (setPoint c p e).breach = c.breach := rfl
@[simp] theorem setPoint_readOut (p : Nat) (e : PtEnt) : (setPoint c p e).readOut = c.readOut := rfl
@[simp] theorem setPoint_readAbort (p : Nat) (e : PtEnt) : (setPoint c p e).readAbort = c.readAbort := rfl
@[simp] theorem setPoint_free (p : Nat) (e : PtEnt) : (setPoint c p e).free = c.free := rfl
@[simp] theorem setPoint_ana (p : Nat) (e : PtEnt) : (setPoint c p e).ana = c.ana := rfl
@[simp] theorem setPoint_bank (p : Nat) (e : PtEnt) : (setPoint c p e).bank = c.bank := rfl
@[simp] theorem setPoint_corr (p : Nat) (e : PtEnt) : (setPoint c p e).corr = c.corr := rfl
@[simp] theorem setPoint_cells (p : Nat) (e : PtEnt) : (setPoint c p e).cells = c.cells := rfl
@[simp] theorem setPoint_trim (p : Nat) (e : PtEnt) : (setPoint c p e).trim = c.trim := rfl
@[simp] theorem setPoint_gate (p : Nat) (e : PtEnt) : (setPoint c p e).gate = c.gate := rfl
@[simp] theorem setPoint_contacts (p : Nat) (e : PtEnt) : (setPoint c p e).contacts = c.contacts := rfl
@[simp] theorem setPoint_pulses (p : Nat) (e : PtEnt) : (setPoint c p e).pulses = c.pulses := rfl
@[simp] theorem setPoint_trips (p : Nat) (e : PtEnt) : (setPoint c p e).trips = c.trips := rfl
@[simp] theorem setPoint_legs (p : Nat) (e : PtEnt) : (setPoint c p e).legs = c.legs := rfl
@[simp] theorem setPoint_pos (p : Nat) (e : PtEnt) : (setPoint c p e).pos = c.pos := rfl
@[simp] theorem setPoint_loops (p : Nat) (e : PtEnt) : (setPoint c p e).loops = c.loops := rfl
@[simp] theorem setPoint_evq (p : Nat) (e : PtEnt) : (setPoint c p e).evq = c.evq := rfl
@[simp] theorem setPoint_tune (p : Nat) (e : PtEnt) : (setPoint c p e).tune = c.tune := rfl
@[simp] theorem setPoint_rtc (p : Nat) (e : PtEnt) : (setPoint c p e).rtc = c.rtc := rfl
@[simp] theorem setPoint_can (p : Nat) (e : PtEnt) : (setPoint c p e).can = c.can := rfl
@[simp] theorem setPoint_alm (p : Nat) (e : PtEnt) : (setPoint c p e).alm = c.alm := rfl
@[simp] theorem setPoint_call (p : Nat) (e : PtEnt) : (setPoint c p e).call = c.call := rfl
@[simp] theorem setPoint_bsn (p : Nat) (e : PtEnt) : (setPoint c p e).bsn = c.bsn := rfl
@[simp] theorem setPoint_dma (p : Nat) (e : PtEnt) : (setPoint c p e).dma = c.dma := rfl
@[simp] theorem setPoint_sdl (p : Nat) (e : PtEnt) : (setPoint c p e).sdl = c.sdl := rfl
@[simp] theorem setPoint_lcd (p : Nat) (e : PtEnt) : (setPoint c p e).lcd = c.lcd := rfl
@[simp] theorem setPoint_spt (p : Nat) (e : PtEnt) : (setPoint c p e).spt = c.spt := rfl
@[simp] theorem setPoint_upd (p : Nat) (e : PtEnt) : (setPoint c p e).upd = c.upd := rfl
@[simp] theorem setPoint_jtag (p : Nat) (e : PtEnt) : (setPoint c p e).jtag = c.jtag := rfl
@[simp] theorem setPoint_strapTest (p : Nat) (e : PtEnt) : (setPoint c p e).strapTest = c.strapTest := rfl

@[simp] theorem setFn_regs (fn : Nat) (f : FnSt) : (setFn c fn f).regs = c.regs := rfl
@[simp] theorem setFn_hostMem (fn : Nat) (f : FnSt) : (setFn c fn f).hostMem = c.hostMem := rfl
@[simp] theorem setFn_tables (fn : Nat) (f : FnSt) : (setFn c fn f).tables = c.tables := rfl
@[simp] theorem setFn_nvm (fn : Nat) (f : FnSt) : (setFn c fn f).nvm = c.nvm := rfl
@[simp] theorem setFn_points (fn : Nat) (f : FnSt) : (setFn c fn f).points = c.points := rfl
@[simp] theorem setFn_ot (fn : Nat) (f : FnSt) : (setFn c fn f).ot = c.ot := rfl
@[simp] theorem setFn_pwr (fn : Nat) (f : FnSt) : (setFn c fn f).pwr = c.pwr := rfl
@[simp] theorem setFn_mode (fn : Nat) (f : FnSt) : (setFn c fn f).mode = c.mode := rfl
@[simp] theorem setFn_img (fn : Nat) (f : FnSt) : (setFn c fn f).img = c.img := rfl
@[simp] theorem setFn_seq (fn : Nat) (f : FnSt) : (setFn c fn f).seq = c.seq := rfl
@[simp] theorem setFn_rcd (fn : Nat) (f : FnSt) : (setFn c fn f).rcd = c.rcd := rfl
@[simp] theorem setFn_diag (fn : Nat) (f : FnSt) : (setFn c fn f).diag = c.diag := rfl
@[simp] theorem setFn_breach (fn : Nat) (f : FnSt) : (setFn c fn f).breach = c.breach := rfl
@[simp] theorem setFn_readOut (fn : Nat) (f : FnSt) : (setFn c fn f).readOut = c.readOut := rfl
@[simp] theorem setFn_readAbort (fn : Nat) (f : FnSt) : (setFn c fn f).readAbort = c.readAbort := rfl
@[simp] theorem setFn_free (fn : Nat) (f : FnSt) : (setFn c fn f).free = c.free := rfl
@[simp] theorem setFn_ana (fn : Nat) (f : FnSt) : (setFn c fn f).ana = c.ana := rfl
@[simp] theorem setFn_bank (fn : Nat) (f : FnSt) : (setFn c fn f).bank = c.bank := rfl
@[simp] theorem setFn_corr (fn : Nat) (f : FnSt) : (setFn c fn f).corr = c.corr := rfl
@[simp] theorem setFn_cells (fn : Nat) (f : FnSt) : (setFn c fn f).cells = c.cells := rfl
@[simp] theorem setFn_trim (fn : Nat) (f : FnSt) : (setFn c fn f).trim = c.trim := rfl
@[simp] theorem setFn_gate (fn : Nat) (f : FnSt) : (setFn c fn f).gate = c.gate := rfl
@[simp] theorem setFn_contacts (fn : Nat) (f : FnSt) : (setFn c fn f).contacts = c.contacts := rfl
@[simp] theorem setFn_pulses (fn : Nat) (f : FnSt) : (setFn c fn f).pulses = c.pulses := rfl
@[simp] theorem setFn_trips (fn : Nat) (f : FnSt) : (setFn c fn f).trips = c.trips := rfl
@[simp] theorem setFn_legs (fn : Nat) (f : FnSt) : (setFn c fn f).legs = c.legs := rfl
@[simp] theorem setFn_pos (fn : Nat) (f : FnSt) : (setFn c fn f).pos = c.pos := rfl
@[simp] theorem setFn_loops (fn : Nat) (f : FnSt) : (setFn c fn f).loops = c.loops := rfl
@[simp] theorem setFn_evq (fn : Nat) (f : FnSt) : (setFn c fn f).evq = c.evq := rfl
@[simp] theorem setFn_tune (fn : Nat) (f : FnSt) : (setFn c fn f).tune = c.tune := rfl
@[simp] theorem setFn_rtc (fn : Nat) (f : FnSt) : (setFn c fn f).rtc = c.rtc := rfl
@[simp] theorem setFn_can (fn : Nat) (f : FnSt) : (setFn c fn f).can = c.can := rfl
@[simp] theorem setFn_alm (fn : Nat) (f : FnSt) : (setFn c fn f).alm = c.alm := rfl
@[simp] theorem setFn_call (fn : Nat) (f : FnSt) : (setFn c fn f).call = c.call := rfl
@[simp] theorem setFn_bsn (fn : Nat) (f : FnSt) : (setFn c fn f).bsn = c.bsn := rfl
@[simp] theorem setFn_dma (fn : Nat) (f : FnSt) : (setFn c fn f).dma = c.dma := rfl
@[simp] theorem setFn_sdl (fn : Nat) (f : FnSt) : (setFn c fn f).sdl = c.sdl := rfl
@[simp] theorem setFn_lcd (fn : Nat) (f : FnSt) : (setFn c fn f).lcd = c.lcd := rfl
@[simp] theorem setFn_spt (fn : Nat) (f : FnSt) : (setFn c fn f).spt = c.spt := rfl
@[simp] theorem setFn_upd (fn : Nat) (f : FnSt) : (setFn c fn f).upd = c.upd := rfl
@[simp] theorem setFn_jtag (fn : Nat) (f : FnSt) : (setFn c fn f).jtag = c.jtag := rfl
@[simp] theorem setFn_strapTest (fn : Nat) (f : FnSt) : (setFn c fn f).strapTest = c.strapTest := rfl

@[simp] theorem modFn_regs (fn : Nat) (f : FnSt → FnSt) : (modFn c fn f).regs = c.regs := rfl
@[simp] theorem modFn_hostMem (fn : Nat) (f : FnSt → FnSt) : (modFn c fn f).hostMem = c.hostMem := rfl
@[simp] theorem modFn_tables (fn : Nat) (f : FnSt → FnSt) : (modFn c fn f).tables = c.tables := rfl
@[simp] theorem modFn_nvm (fn : Nat) (f : FnSt → FnSt) : (modFn c fn f).nvm = c.nvm := rfl
@[simp] theorem modFn_points (fn : Nat) (f : FnSt → FnSt) : (modFn c fn f).points = c.points := rfl
@[simp] theorem modFn_ot (fn : Nat) (f : FnSt → FnSt) : (modFn c fn f).ot = c.ot := rfl
@[simp] theorem modFn_pwr (fn : Nat) (f : FnSt → FnSt) : (modFn c fn f).pwr = c.pwr := rfl
@[simp] theorem modFn_mode (fn : Nat) (f : FnSt → FnSt) : (modFn c fn f).mode = c.mode := rfl
@[simp] theorem modFn_img (fn : Nat) (f : FnSt → FnSt) : (modFn c fn f).img = c.img := rfl
@[simp] theorem modFn_seq (fn : Nat) (f : FnSt → FnSt) : (modFn c fn f).seq = c.seq := rfl
@[simp] theorem modFn_rcd (fn : Nat) (f : FnSt → FnSt) : (modFn c fn f).rcd = c.rcd := rfl
@[simp] theorem modFn_diag (fn : Nat) (f : FnSt → FnSt) : (modFn c fn f).diag = c.diag := rfl
@[simp] theorem modFn_breach (fn : Nat) (f : FnSt → FnSt) : (modFn c fn f).breach = c.breach := rfl
@[simp] theorem modFn_readOut (fn : Nat) (f : FnSt → FnSt) : (modFn c fn f).readOut = c.readOut := rfl
@[simp] theorem modFn_readAbort (fn : Nat) (f : FnSt → FnSt) : (modFn c fn f).readAbort = c.readAbort := rfl
@[simp] theorem modFn_free (fn : Nat) (f : FnSt → FnSt) : (modFn c fn f).free = c.free := rfl
@[simp] theorem modFn_ana (fn : Nat) (f : FnSt → FnSt) : (modFn c fn f).ana = c.ana := rfl
@[simp] theorem modFn_bank (fn : Nat) (f : FnSt → FnSt) : (modFn c fn f).bank = c.bank := rfl
@[simp] theorem modFn_corr (fn : Nat) (f : FnSt → FnSt) : (modFn c fn f).corr = c.corr := rfl
@[simp] theorem modFn_cells (fn : Nat) (f : FnSt → FnSt) : (modFn c fn f).cells = c.cells := rfl
@[simp] theorem modFn_trim (fn : Nat) (f : FnSt → FnSt) : (modFn c fn f).trim = c.trim := rfl
@[simp] theorem modFn_gate (fn : Nat) (f : FnSt → FnSt) : (modFn c fn f).gate = c.gate := rfl
@[simp] theorem modFn_contacts (fn : Nat) (f : FnSt → FnSt) : (modFn c fn f).contacts = c.contacts := rfl
@[simp] theorem modFn_pulses (fn : Nat) (f : FnSt → FnSt) : (modFn c fn f).pulses = c.pulses := rfl
@[simp] theorem modFn_trips (fn : Nat) (f : FnSt → FnSt) : (modFn c fn f).trips = c.trips := rfl
@[simp] theorem modFn_legs (fn : Nat) (f : FnSt → FnSt) : (modFn c fn f).legs = c.legs := rfl
@[simp] theorem modFn_pos (fn : Nat) (f : FnSt → FnSt) : (modFn c fn f).pos = c.pos := rfl
@[simp] theorem modFn_loops (fn : Nat) (f : FnSt → FnSt) : (modFn c fn f).loops = c.loops := rfl
@[simp] theorem modFn_evq (fn : Nat) (f : FnSt → FnSt) : (modFn c fn f).evq = c.evq := rfl
@[simp] theorem modFn_tune (fn : Nat) (f : FnSt → FnSt) : (modFn c fn f).tune = c.tune := rfl
@[simp] theorem modFn_rtc (fn : Nat) (f : FnSt → FnSt) : (modFn c fn f).rtc = c.rtc := rfl
@[simp] theorem modFn_can (fn : Nat) (f : FnSt → FnSt) : (modFn c fn f).can = c.can := rfl
@[simp] theorem modFn_alm (fn : Nat) (f : FnSt → FnSt) : (modFn c fn f).alm = c.alm := rfl
@[simp] theorem modFn_call (fn : Nat) (f : FnSt → FnSt) : (modFn c fn f).call = c.call := rfl
@[simp] theorem modFn_bsn (fn : Nat) (f : FnSt → FnSt) : (modFn c fn f).bsn = c.bsn := rfl
@[simp] theorem modFn_dma (fn : Nat) (f : FnSt → FnSt) : (modFn c fn f).dma = c.dma := rfl
@[simp] theorem modFn_sdl (fn : Nat) (f : FnSt → FnSt) : (modFn c fn f).sdl = c.sdl := rfl
@[simp] theorem modFn_lcd (fn : Nat) (f : FnSt → FnSt) : (modFn c fn f).lcd = c.lcd := rfl
@[simp] theorem modFn_spt (fn : Nat) (f : FnSt → FnSt) : (modFn c fn f).spt = c.spt := rfl
@[simp] theorem modFn_upd (fn : Nat) (f : FnSt → FnSt) : (modFn c fn f).upd = c.upd := rfl
@[simp] theorem modFn_jtag (fn : Nat) (f : FnSt → FnSt) : (modFn c fn f).jtag = c.jtag := rfl
@[simp] theorem modFn_strapTest (fn : Nat) (f : FnSt → FnSt) : (modFn c fn f).strapTest = c.strapTest := rfl

@[simp] theorem setNodeIdx_hostMem (fn r x : Nat) : (setNodeIdx c fn r x).hostMem = c.hostMem := setReg_hostMem c _ _
@[simp] theorem setNodeIdx_tables (fn r x : Nat) : (setNodeIdx c fn r x).tables = c.tables := setReg_tables c _ _
@[simp] theorem setNodeIdx_nvm (fn r x : Nat) : (setNodeIdx c fn r x).nvm = c.nvm := setReg_nvm c _ _
@[simp] theorem setNodeIdx_points (fn r x : Nat) : (setNodeIdx c fn r x).points = c.points := setReg_points c _ _
@[simp] theorem setNodeIdx_ot (fn r x : Nat) : (setNodeIdx c fn r x).ot = c.ot := setReg_ot c _ _
@[simp] theorem setNodeIdx_pwr (fn r x : Nat) : (setNodeIdx c fn r x).pwr = c.pwr := setReg_pwr c _ _
@[simp] theorem setNodeIdx_mode (fn r x : Nat) : (setNodeIdx c fn r x).mode = c.mode := setReg_mode c _ _
@[simp] theorem setNodeIdx_img (fn r x : Nat) : (setNodeIdx c fn r x).img = c.img := setReg_img c _ _
@[simp] theorem setNodeIdx_fns (fn r x : Nat) : (setNodeIdx c fn r x).fns = c.fns := setReg_fns c _ _
@[simp] theorem setNodeIdx_seq (fn r x : Nat) : (setNodeIdx c fn r x).seq = c.seq := setReg_seq c _ _
@[simp] theorem setNodeIdx_rcd (fn r x : Nat) : (setNodeIdx c fn r x).rcd = c.rcd := setReg_rcd c _ _
@[simp] theorem setNodeIdx_diag (fn r x : Nat) : (setNodeIdx c fn r x).diag = c.diag := setReg_diag c _ _
@[simp] theorem setNodeIdx_breach (fn r x : Nat) : (setNodeIdx c fn r x).breach = c.breach := setReg_breach c _ _
@[simp] theorem setNodeIdx_readOut (fn r x : Nat) : (setNodeIdx c fn r x).readOut = c.readOut := setReg_readOut c _ _
@[simp] theorem setNodeIdx_readAbort (fn r x : Nat) : (setNodeIdx c fn r x).readAbort = c.readAbort := setReg_readAbort c _ _
@[simp] theorem setNodeIdx_free (fn r x : Nat) : (setNodeIdx c fn r x).free = c.free := setReg_free c _ _
@[simp] theorem setNodeIdx_ana (fn r x : Nat) : (setNodeIdx c fn r x).ana = c.ana := setReg_ana c _ _
@[simp] theorem setNodeIdx_bank (fn r x : Nat) : (setNodeIdx c fn r x).bank = c.bank := setReg_bank c _ _
@[simp] theorem setNodeIdx_corr (fn r x : Nat) : (setNodeIdx c fn r x).corr = c.corr := setReg_corr c _ _
@[simp] theorem setNodeIdx_cells (fn r x : Nat) : (setNodeIdx c fn r x).cells = c.cells := setReg_cells c _ _
@[simp] theorem setNodeIdx_trim (fn r x : Nat) : (setNodeIdx c fn r x).trim = c.trim := setReg_trim c _ _
@[simp] theorem setNodeIdx_gate (fn r x : Nat) : (setNodeIdx c fn r x).gate = c.gate := setReg_gate c _ _
@[simp] theorem setNodeIdx_contacts (fn r x : Nat) : (setNodeIdx c fn r x).contacts = c.contacts := setReg_contacts c _ _
@[simp] theorem setNodeIdx_pulses (fn r x : Nat) : (setNodeIdx c fn r x).pulses = c.pulses := setReg_pulses c _ _
@[simp] theorem setNodeIdx_trips (fn r x : Nat) : (setNodeIdx c fn r x).trips = c.trips := setReg_trips c _ _
@[simp] theorem setNodeIdx_legs (fn r x : Nat) : (setNodeIdx c fn r x).legs = c.legs := setReg_legs c _ _
@[simp] theorem setNodeIdx_pos (fn r x : Nat) : (setNodeIdx c fn r x).pos = c.pos := setReg_pos c _ _
@[simp] theorem setNodeIdx_loops (fn r x : Nat) : (setNodeIdx c fn r x).loops = c.loops := setReg_loops c _ _
@[simp] theorem setNodeIdx_evq (fn r x : Nat) : (setNodeIdx c fn r x).evq = c.evq := setReg_evq c _ _
@[simp] theorem setNodeIdx_tune (fn r x : Nat) : (setNodeIdx c fn r x).tune = c.tune := setReg_tune c _ _
@[simp] theorem setNodeIdx_rtc (fn r x : Nat) : (setNodeIdx c fn r x).rtc = c.rtc := setReg_rtc c _ _
@[simp] theorem setNodeIdx_can (fn r x : Nat) : (setNodeIdx c fn r x).can = c.can := setReg_can c _ _
@[simp] theorem setNodeIdx_alm (fn r x : Nat) : (setNodeIdx c fn r x).alm = c.alm := setReg_alm c _ _
@[simp] theorem setNodeIdx_call (fn r x : Nat) : (setNodeIdx c fn r x).call = c.call := setReg_call c _ _
@[simp] theorem setNodeIdx_bsn (fn r x : Nat) : (setNodeIdx c fn r x).bsn = c.bsn := setReg_bsn c _ _
@[simp] theorem setNodeIdx_dma (fn r x : Nat) : (setNodeIdx c fn r x).dma = c.dma := setReg_dma c _ _
@[simp] theorem setNodeIdx_sdl (fn r x : Nat) : (setNodeIdx c fn r x).sdl = c.sdl := setReg_sdl c _ _
@[simp] theorem setNodeIdx_lcd (fn r x : Nat) : (setNodeIdx c fn r x).lcd = c.lcd := setReg_lcd c _ _
@[simp] theorem setNodeIdx_spt (fn r x : Nat) : (setNodeIdx c fn r x).spt = c.spt := setReg_spt c _ _
@[simp] theorem setNodeIdx_upd (fn r x : Nat) : (setNodeIdx c fn r x).upd = c.upd := setReg_upd c _ _
@[simp] theorem setNodeIdx_jtag (fn r x : Nat) : (setNodeIdx c fn r x).jtag = c.jtag := setReg_jtag c _ _
@[simp] theorem setNodeIdx_strapTest (fn r x : Nat) : (setNodeIdx c fn r x).strapTest = c.strapTest := setReg_strapTest c _ _

@[simp] theorem setHostIdx_hostMem (fn r x : Nat) : (setHostIdx c fn r x).hostMem = c.hostMem := setReg_hostMem c _ _
@[simp] theorem setHostIdx_tables (fn r x : Nat) : (setHostIdx c fn r x).tables = c.tables := setReg_tables c _ _
@[simp] theorem setHostIdx_nvm (fn r x : Nat) : (setHostIdx c fn r x).nvm = c.nvm := setReg_nvm c _ _
@[simp] theorem setHostIdx_points (fn r x : Nat) : (setHostIdx c fn r x).points = c.points := setReg_points c _ _
@[simp] theorem setHostIdx_ot (fn r x : Nat) : (setHostIdx c fn r x).ot = c.ot := setReg_ot c _ _
@[simp] theorem setHostIdx_pwr (fn r x : Nat) : (setHostIdx c fn r x).pwr = c.pwr := setReg_pwr c _ _
@[simp] theorem setHostIdx_mode (fn r x : Nat) : (setHostIdx c fn r x).mode = c.mode := setReg_mode c _ _
@[simp] theorem setHostIdx_img (fn r x : Nat) : (setHostIdx c fn r x).img = c.img := setReg_img c _ _
@[simp] theorem setHostIdx_fns (fn r x : Nat) : (setHostIdx c fn r x).fns = c.fns := setReg_fns c _ _
@[simp] theorem setHostIdx_seq (fn r x : Nat) : (setHostIdx c fn r x).seq = c.seq := setReg_seq c _ _
@[simp] theorem setHostIdx_rcd (fn r x : Nat) : (setHostIdx c fn r x).rcd = c.rcd := setReg_rcd c _ _
@[simp] theorem setHostIdx_diag (fn r x : Nat) : (setHostIdx c fn r x).diag = c.diag := setReg_diag c _ _
@[simp] theorem setHostIdx_breach (fn r x : Nat) : (setHostIdx c fn r x).breach = c.breach := setReg_breach c _ _
@[simp] theorem setHostIdx_readOut (fn r x : Nat) : (setHostIdx c fn r x).readOut = c.readOut := setReg_readOut c _ _
@[simp] theorem setHostIdx_readAbort (fn r x : Nat) : (setHostIdx c fn r x).readAbort = c.readAbort := setReg_readAbort c _ _
@[simp] theorem setHostIdx_free (fn r x : Nat) : (setHostIdx c fn r x).free = c.free := setReg_free c _ _
@[simp] theorem setHostIdx_ana (fn r x : Nat) : (setHostIdx c fn r x).ana = c.ana := setReg_ana c _ _
@[simp] theorem setHostIdx_bank (fn r x : Nat) : (setHostIdx c fn r x).bank = c.bank := setReg_bank c _ _
@[simp] theorem setHostIdx_corr (fn r x : Nat) : (setHostIdx c fn r x).corr = c.corr := setReg_corr c _ _
@[simp] theorem setHostIdx_cells (fn r x : Nat) : (setHostIdx c fn r x).cells = c.cells := setReg_cells c _ _
@[simp] theorem setHostIdx_trim (fn r x : Nat) : (setHostIdx c fn r x).trim = c.trim := setReg_trim c _ _
@[simp] theorem setHostIdx_gate (fn r x : Nat) : (setHostIdx c fn r x).gate = c.gate := setReg_gate c _ _
@[simp] theorem setHostIdx_contacts (fn r x : Nat) : (setHostIdx c fn r x).contacts = c.contacts := setReg_contacts c _ _
@[simp] theorem setHostIdx_pulses (fn r x : Nat) : (setHostIdx c fn r x).pulses = c.pulses := setReg_pulses c _ _
@[simp] theorem setHostIdx_trips (fn r x : Nat) : (setHostIdx c fn r x).trips = c.trips := setReg_trips c _ _
@[simp] theorem setHostIdx_legs (fn r x : Nat) : (setHostIdx c fn r x).legs = c.legs := setReg_legs c _ _
@[simp] theorem setHostIdx_pos (fn r x : Nat) : (setHostIdx c fn r x).pos = c.pos := setReg_pos c _ _
@[simp] theorem setHostIdx_loops (fn r x : Nat) : (setHostIdx c fn r x).loops = c.loops := setReg_loops c _ _
@[simp] theorem setHostIdx_evq (fn r x : Nat) : (setHostIdx c fn r x).evq = c.evq := setReg_evq c _ _
@[simp] theorem setHostIdx_tune (fn r x : Nat) : (setHostIdx c fn r x).tune = c.tune := setReg_tune c _ _
@[simp] theorem setHostIdx_rtc (fn r x : Nat) : (setHostIdx c fn r x).rtc = c.rtc := setReg_rtc c _ _
@[simp] theorem setHostIdx_can (fn r x : Nat) : (setHostIdx c fn r x).can = c.can := setReg_can c _ _
@[simp] theorem setHostIdx_alm (fn r x : Nat) : (setHostIdx c fn r x).alm = c.alm := setReg_alm c _ _
@[simp] theorem setHostIdx_call (fn r x : Nat) : (setHostIdx c fn r x).call = c.call := setReg_call c _ _
@[simp] theorem setHostIdx_bsn (fn r x : Nat) : (setHostIdx c fn r x).bsn = c.bsn := setReg_bsn c _ _
@[simp] theorem setHostIdx_dma (fn r x : Nat) : (setHostIdx c fn r x).dma = c.dma := setReg_dma c _ _
@[simp] theorem setHostIdx_sdl (fn r x : Nat) : (setHostIdx c fn r x).sdl = c.sdl := setReg_sdl c _ _
@[simp] theorem setHostIdx_lcd (fn r x : Nat) : (setHostIdx c fn r x).lcd = c.lcd := setReg_lcd c _ _
@[simp] theorem setHostIdx_spt (fn r x : Nat) : (setHostIdx c fn r x).spt = c.spt := setReg_spt c _ _
@[simp] theorem setHostIdx_upd (fn r x : Nat) : (setHostIdx c fn r x).upd = c.upd := setReg_upd c _ _
@[simp] theorem setHostIdx_jtag (fn r x : Nat) : (setHostIdx c fn r x).jtag = c.jtag := setReg_jtag c _ _
@[simp] theorem setHostIdx_strapTest (fn r x : Nat) : (setHostIdx c fn r x).strapTest = c.strapTest := setReg_strapTest c _ _

@[simp] theorem hostWrite_regs (a : Nat) (bs : List Byte) : (hostWrite c a bs).regs = c.regs := rfl
@[simp] theorem hostWrite_tables (a : Nat) (bs : List Byte) : (hostWrite c a bs).tables = c.tables := rfl
@[simp] theorem hostWrite_nvm (a : Nat) (bs : List Byte) : (hostWrite c a bs).nvm = c.nvm := rfl
@[simp] theorem hostWrite_points (a : Nat) (bs : List Byte) : (hostWrite c a bs).points = c.points := rfl
@[simp] theorem hostWrite_ot (a : Nat) (bs : List Byte) : (hostWrite c a bs).ot = c.ot := rfl
@[simp] theorem hostWrite_pwr (a : Nat) (bs : List Byte) : (hostWrite c a bs).pwr = c.pwr := rfl
@[simp] theorem hostWrite_mode (a : Nat) (bs : List Byte) : (hostWrite c a bs).mode = c.mode := rfl
@[simp] theorem hostWrite_img (a : Nat) (bs : List Byte) : (hostWrite c a bs).img = c.img := rfl
@[simp] theorem hostWrite_fns (a : Nat) (bs : List Byte) : (hostWrite c a bs).fns = c.fns := rfl
@[simp] theorem hostWrite_seq (a : Nat) (bs : List Byte) : (hostWrite c a bs).seq = c.seq := rfl
@[simp] theorem hostWrite_rcd (a : Nat) (bs : List Byte) : (hostWrite c a bs).rcd = c.rcd := rfl
@[simp] theorem hostWrite_diag (a : Nat) (bs : List Byte) : (hostWrite c a bs).diag = c.diag := rfl
@[simp] theorem hostWrite_breach (a : Nat) (bs : List Byte) : (hostWrite c a bs).breach = c.breach := rfl
@[simp] theorem hostWrite_readOut (a : Nat) (bs : List Byte) : (hostWrite c a bs).readOut = c.readOut := rfl
@[simp] theorem hostWrite_readAbort (a : Nat) (bs : List Byte) : (hostWrite c a bs).readAbort = c.readAbort := rfl
@[simp] theorem hostWrite_free (a : Nat) (bs : List Byte) : (hostWrite c a bs).free = c.free := rfl
@[simp] theorem hostWrite_ana (a : Nat) (bs : List Byte) : (hostWrite c a bs).ana = c.ana := rfl
@[simp] theorem hostWrite_bank (a : Nat) (bs : List Byte) : (hostWrite c a bs).bank = c.bank := rfl
@[simp] theorem hostWrite_corr (a : Nat) (bs : List Byte) : (hostWrite c a bs).corr = c.corr := rfl
@[simp] theorem hostWrite_cells (a : Nat) (bs : List Byte) : (hostWrite c a bs).cells = c.cells := rfl
@[simp] theorem hostWrite_trim (a : Nat) (bs : List Byte) : (hostWrite c a bs).trim = c.trim := rfl
@[simp] theorem hostWrite_gate (a : Nat) (bs : List Byte) : (hostWrite c a bs).gate = c.gate := rfl
@[simp] theorem hostWrite_contacts (a : Nat) (bs : List Byte) : (hostWrite c a bs).contacts = c.contacts := rfl
@[simp] theorem hostWrite_pulses (a : Nat) (bs : List Byte) : (hostWrite c a bs).pulses = c.pulses := rfl
@[simp] theorem hostWrite_trips (a : Nat) (bs : List Byte) : (hostWrite c a bs).trips = c.trips := rfl
@[simp] theorem hostWrite_legs (a : Nat) (bs : List Byte) : (hostWrite c a bs).legs = c.legs := rfl
@[simp] theorem hostWrite_pos (a : Nat) (bs : List Byte) : (hostWrite c a bs).pos = c.pos := rfl
@[simp] theorem hostWrite_loops (a : Nat) (bs : List Byte) : (hostWrite c a bs).loops = c.loops := rfl
@[simp] theorem hostWrite_evq (a : Nat) (bs : List Byte) : (hostWrite c a bs).evq = c.evq := rfl
@[simp] theorem hostWrite_tune (a : Nat) (bs : List Byte) : (hostWrite c a bs).tune = c.tune := rfl
@[simp] theorem hostWrite_rtc (a : Nat) (bs : List Byte) : (hostWrite c a bs).rtc = c.rtc := rfl
@[simp] theorem hostWrite_can (a : Nat) (bs : List Byte) : (hostWrite c a bs).can = c.can := rfl
@[simp] theorem hostWrite_alm (a : Nat) (bs : List Byte) : (hostWrite c a bs).alm = c.alm := rfl
@[simp] theorem hostWrite_call (a : Nat) (bs : List Byte) : (hostWrite c a bs).call = c.call := rfl
@[simp] theorem hostWrite_bsn (a : Nat) (bs : List Byte) : (hostWrite c a bs).bsn = c.bsn := rfl
@[simp] theorem hostWrite_dma (a : Nat) (bs : List Byte) : (hostWrite c a bs).dma = c.dma := rfl
@[simp] theorem hostWrite_sdl (a : Nat) (bs : List Byte) : (hostWrite c a bs).sdl = c.sdl := rfl
@[simp] theorem hostWrite_lcd (a : Nat) (bs : List Byte) : (hostWrite c a bs).lcd = c.lcd := rfl
@[simp] theorem hostWrite_spt (a : Nat) (bs : List Byte) : (hostWrite c a bs).spt = c.spt := rfl
@[simp] theorem hostWrite_upd (a : Nat) (bs : List Byte) : (hostWrite c a bs).upd = c.upd := rfl
@[simp] theorem hostWrite_jtag (a : Nat) (bs : List Byte) : (hostWrite c a bs).jtag = c.jtag := rfl
@[simp] theorem hostWrite_strapTest (a : Nat) (bs : List Byte) : (hostWrite c a bs).strapTest = c.strapTest := rfl

end Sys2Proof.Machine
end

