-- ==== Sys2Proof/Laws/Report.lean ====
section
/-! SUPPORT. Laws of reporting: what an error, an event, a completion or a record may touch, said once. -/

namespace Sys2Proof.Machine

/-! ## Frames of parts -/

theorem onlyParts_refl (ps : List Part) (c : Chip) : onlyParts ps c c := by
  intro p _; cases p <;> rfl

theorem onlyParts_trans {ps : List Part} {a b c : Chip} (h : onlyParts ps a b) (k : onlyParts ps b c) :
    onlyParts ps a c := by
  intro p hp
  have h1 := h p hp
  have h2 := k p hp
  cases p <;> exact h2.trans h1

theorem onlyParts_mono {ps qs : List Part} {a b : Chip} (h : onlyParts ps a b) (hs : ∀ p ∈ ps, p ∈ qs) :
    onlyParts qs a b := fun p hp => h p fun hq => hp (hs p hq)

theorem onlyRegs_refl (P : Nat → Prop) (c : Chip) : onlyRegs P c c := fun _ _ => rfl

theorem onlyRegs_trans {P : Nat → Prop} {a b c : Chip} (h : onlyRegs P a b) (k : onlyRegs P b c) : onlyRegs P a c :=
  fun off ho => (k off ho).trans (h off ho)

theorem onlyRegs_mono {P Q : Nat → Prop} {a b : Chip} (h : onlyRegs P a b) (hs : ∀ off, P off → Q off) :
    onlyRegs Q a b := fun off ho => h off fun hp => ho (hs off hp)

/-! ## The relation -/

theorem Reports.refl (c : Chip) : Reports c c :=
  ⟨onlyParts_refl _ c, onlyRegs_refl _ c, fun _ _ => rfl, rfl⟩

/-- Ring bases, sizes and enables are no report registers. -/
theorem Reports.reg {c c' : Chip} (h : Reports c c') {off : Nat} (ho : reportReg off = false) :
    reg c' off = Machine.reg c off := h.regs off (by simp [ho])

theorem ringBase_eq (fn r : Nat) : ringBase fn r = 0x21100 + fn * 0x1000 + r * 64 := by
  unfold ringBase hostPage; omega

theorem reportReg_ring {fn r k : Nat} (hf : fn < 9) (hr : r ≤ 3) (hk : k < 64)
    (h : k % 64 ≠ 0x0C ∧ k % 64 ≠ 0x14 ∧ k % 64 ≠ 0x1C) : reportReg (ringBase fn r + k) = false := by
  rw [ringBase_eq]
  simp only [reportReg, Bool.or_eq_false_iff, Bool.and_eq_false_iff, decide_eq_false_iff_not, beq_eq_false_iff_ne]
  refine ⟨⟨⟨⟨⟨⟨Or.inr ⟨⟨?_, ?_⟩, ?_⟩, ?_⟩, ?_⟩, Or.inl (by omega)⟩, Or.inl (Or.inl (by omega))⟩, ?_⟩, ?_⟩ <;> omega

theorem Reports.ringEn {c c' : Chip} (h : Reports c c') {fn r : Nat} (hf : fn < 9) (hr : r ≤ 3) :
    Machine.ringEn c' fn r = Machine.ringEn c fn r := by
  unfold Machine.ringEn flag fld
  rw [h.reg (reportReg_ring hf hr (by omega) (by omega))]

theorem Reports.ringSize {c c' : Chip} (h : Reports c c') {fn r : Nat} (hf : fn < 9) (hr : r ≤ 3) :
    Machine.ringSize c' fn r = Machine.ringSize c fn r := by
  unfold Machine.ringSize ringLog2 fld
  rw [h.reg (reportReg_ring hf hr (by omega) (by omega))]

theorem Reports.ringAddr {c c' : Chip} (h : Reports c c') {fn r : Nat} (hf : fn < 9) (hr : r ≤ 3) (n i : Nat) :
    Machine.ringAddr c' fn r n i = Machine.ringAddr c fn r n i := by
  unfold Machine.ringAddr
  have e0 : Machine.reg c' (ringBase fn r) = Machine.reg c (ringBase fn r) := by
    have := h.reg (reportReg_ring (k := 0) hf hr (by omega) (by omega)); simpa using this
  rw [h.ringSize hf hr, e0, h.reg (reportReg_ring hf hr (by omega) (by omega))]

theorem Reports.inRing {c c' : Chip} (h : Reports c c') (a : Nat) : Machine.inRing c' a ↔ Machine.inRing c a := by
  unfold Machine.inRing
  constructor
  · rintro ⟨fn, r, h1, h2, h3, h4, h5, h6⟩
    rw [h.ringEn h1 h3] at h4; rw [h.ringAddr h1 h3] at h5; rw [h.ringAddr h1 h3, h.ringSize h1 h3] at h6
    exact ⟨fn, r, h1, h2, h3, h4, h5, h6⟩
  · rintro ⟨fn, r, h1, h2, h3, h4, h5, h6⟩
    rw [← h.ringEn h1 h3] at h4; rw [← h.ringAddr h1 h3] at h5; rw [← h.ringAddr h1 h3, ← h.ringSize h1 h3] at h6
    exact ⟨fn, r, h1, h2, h3, h4, h5, h6⟩

theorem Reports.trans {a b c : Chip} (h : Reports a b) (k : Reports b c) : Reports a c where
  parts := onlyParts_trans h.parts k.parts
  regs := onlyRegs_trans h.regs k.regs
  host := fun x hx => (k.host x (by rwa [h.inRing])).trans (h.host x hx)
  link := by rw [k.link, h.link]

/-! ## Its steps -/

/-- An update of registers, functions, the recorder, the FIFO or the link's records. -/
theorem Reports.setReg {a b : Chip} (h : Reports a b) {off : Nat} (v : Word) (ho : reportReg off = true) :
    Reports a (Machine.setReg b off v) := by
  refine h.trans ⟨?_, ?_, fun _ _ => rfl, rfl⟩
  · intro p hp; cases p <;> first | rfl | simp [reportParts] at hp
  · intro o hn; exact reg_setReg_other b off o v (by rintro rfl; exact hn ho)

theorem Reports.setFld {a b : Chip} (h : Reports a b) {off : Nat} (lo w x : Nat) (ho : reportReg off = true) :
    Reports a (Machine.setFld b off lo w x) := h.setReg _ ho

theorem Reports.setFlag {a b : Chip} (h : Reports a b) {off : Nat} (i : Nat) (x : Bool) (ho : reportReg off = true) :
    Reports a (Machine.setFlag b off i x) := h.setReg _ ho

theorem Reports.countFld {a b : Chip} (h : Reports a b) {off : Nat} (lo w : Nat) (ho : reportReg off = true) :
    Reports a (Machine.countFld b off lo w) := h.setReg _ ho

theorem Reports.modFn {a b : Chip} (h : Reports a b) (fn : Nat) (f : FnSt → FnSt) : Reports a (Machine.modFn b fn f) := by
  refine h.trans ⟨?_, fun _ _ => rfl, fun _ _ => rfl, rfl⟩
  intro p hp; cases p <;> first | rfl | simp [reportParts] at hp

theorem Reports.rcd {a b : Chip} (h : Reports a b) (x : RecSt) : Reports a { b with rcd := x } := by
  refine h.trans ⟨?_, fun _ _ => rfl, fun _ _ => rfl, rfl⟩
  intro p hp; cases p <;> first | rfl | simp [reportParts] at hp

theorem Reports.diag {a b : Chip} (h : Reports a b) (x : DiagSt) : Reports a { b with diag := x } := by
  refine h.trans ⟨?_, fun _ _ => rfl, fun _ _ => rfl, rfl⟩
  intro p hp; cases p <;> first | rfl | simp [reportParts] at hp

theorem Reports.recs {a b : Chip} (h : Reports a b) (x : List Rec) : Reports a { b with sdl := { b.sdl with recs := x } } := by
  refine h.trans ⟨?_, fun _ _ => rfl, fun _ _ => rfl, rfl⟩
  intro p hp; cases p <;> first | rfl | simp [reportParts] at hp

/-- A fold of reports is a report. -/
theorem Reports.foldl {β : Type} (f : Chip → β → Chip) (xs : List β) (hf : ∀ c x, x ∈ xs → Reports c (f c x)) {a b : Chip}
    (h : Reports a b) : Reports a (xs.foldl f b) := by
  induction xs generalizing b with
  | nil => exact h
  | cons x xs ih => exact ih (fun c y hy => hf c y (by simp [hy])) (h.trans (hf b x (by simp)))

/-! ## The operations that report -/

theorem withPhase_length (bs : List Byte) (p : Nat) : (withPhase bs p).length = bs.length := by
  unfold withPhase; split <;> simp

@[simp] theorem padTo_length (n : Nat) (bs : List Byte) : (padTo n bs).length = n := by simp [padTo]

theorem ringAddr_eq (c : Chip) (fn r n i : Nat) :
    ringAddr c fn r n i = ringAddr c fn r n 0 + i % ringSize c fn r * n := by simp [ringAddr]

theorem ringAddr_end (c : Chip) (fn r n i : Nat) :
    ringAddr c fn r n i + n ≤ ringAddr c fn r n 0 + ringSize c fn r * n := by
  rw [ringAddr_eq c fn r n i]
  have h : i % ringSize c fn r + 1 ≤ ringSize c fn r := Nat.mod_lt _ (Nat.two_pow_pos _)
  have := Nat.mul_le_mul_right n h
  rw [Nat.add_mul, Nat.one_mul] at this
  omega

theorem reportReg_idx {fn r : Nat} (hf : fn < 9) (hr : r ≤ 3) {k : Nat} (hk : k = 0x0C ∨ k = 0x14 ∨ k = 0x1C) :
    reportReg (ringBase fn r + k) = true := by
  rw [ringBase_eq]
  simp only [reportReg, Bool.or_eq_true, Bool.and_eq_true, decide_eq_true_eq, beq_iff_eq]
  omega

theorem entryBytes_ge (r : Nat) : 16 ≤ entryBytes r := by unfold entryBytes; split <;> [omega; (split <;> omega)]

/-- A write of host memory inside an enabled node-to-host ring is a report. -/
theorem Reports.hostWrite {a b : Chip} (h : Reports a b) {fn r : Nat} (x : Nat) (bs : List Byte) (hf : fn < 9) (h1 : 1 ≤ r)
    (h3 : r ≤ 3) (he : Machine.ringEn b fn r = true) (hl : Machine.ringAddr b fn r (entryBytes r) 0 ≤ x)
    (hh : x + bs.length ≤ Machine.ringAddr b fn r (entryBytes r) 0 + Machine.ringSize b fn r * entryBytes r) :
    Reports a (Machine.hostWrite b x bs) := by
  refine h.trans ⟨?_, fun _ _ => rfl, ?_, rfl⟩
  · intro p hp; cases p <;> first | rfl | simp [reportParts] at hp
  · intro y hy
    refine smGet_memWrite_other _ _ _ _ _ ?_
    by_contra hc
    exact hy ⟨fn, r, hf, h1, h3, he, by omega, by omega⟩

/-- An entry of an enabled ring is written, in two writes, then PROD moves. -/
theorem Reports.putRaw {a b : Chip} (h : Reports a b) {fn r : Nat} (bs : List Byte) (hf : fn < 9) (h1 : 1 ≤ r) (h3 : r ≤ 3)
    (he : Machine.ringEn b fn r = true) : Reports a (Machine.putRaw b fn r bs) := by
  have hb := entryBytes_ge r
  have hlo := ringAddr_eq b fn r (entryBytes r) (nodeIdx b fn r)
  have hhi := ringAddr_end b fn r (entryBytes r) (nodeIdx b fn r)
  unfold Machine.putRaw
  refine Reports.modFn (Reports.setFld (Reports.hostWrite (Reports.hostWrite h _ _ hf h1 h3 he ?_ ?_) _ _ hf h1 h3 he ?_ ?_)
    _ _ _ (reportReg_idx hf h3 (Or.inl rfl))) _ _
  · omega
  · simp only [List.length_drop, withPhase_length, padTo_length]; omega
  · show Machine.ringAddr b fn r (entryBytes r) 0 ≤ _; omega
  · simp only [List.length_take, withPhase_length, padTo_length]
    show _ ≤ Machine.ringAddr b fn r (entryBytes r) 0 + Machine.ringSize b fn r * entryBytes r; omega

theorem ringRoom_en {c : Chip} {fn r : Nat} (h : ringRoom c fn r = true) : ringEn c fn r = true := by
  simp [ringRoom] at h; exact h.1.1

theorem Reports.markRise {a b : Chip} (h : Reports a b) {fn r : Nat} (hf : fn < 9) (hr : r ≤ 3) :
    Reports a (Machine.markRise b fn r) :=
  ((h.setFlag _ _ (reportReg_idx hf hr (Or.inr (Or.inl rfl)))).setFlag _ _
    (reportReg_idx hf hr (Or.inr (Or.inl rfl)))).countFld _ _ (reportReg_idx hf hr (Or.inr (Or.inl rfl)))

@[simp] theorem ringEn_modFn (c : Chip) (fn : Nat) (f : FnSt → FnSt) (g r : Nat) :
    ringEn (modFn c fn f) g r = ringEn c g r := rfl

theorem Reports.putEvRaw {a b : Chip} (h : Reports a b) {fn : Nat} (bs : List Byte) (hf : fn < 9)
    (he : Machine.ringEn b fn 2 = true) : Reports a (Machine.putEvRaw b fn bs) :=
  (h.modFn _ _).putRaw _ hf (by omega) (by omega) he

theorem Reports.gapOne {a b : Chip} (h : Reports a b) {fn : Nat} (kind frame : Nat) (hf : fn < 9) :
    Reports a (Machine.gapOne b fn kind frame) := by
  have hr := reportReg_idx (r := 2) hf (by omega) (k := 0x1C) (Or.inr (Or.inr rfl))
  unfold Machine.gapOne
  exact (h.setReg _ hr).modFn _ _

theorem Reports.gapOver {a b : Chip} (h : Reports a b) {fn : Nat} (kind frame : Nat) (hf : fn < 9) :
    Reports a (Machine.gapOver b fn kind frame) := (h.gapOne _ _ hf).modFn _ _

theorem Reports.putGap {a b : Chip} (h : Reports a b) {fn : Nat} (hf : fn < 9) : Reports a (Machine.putGap b fn) := by
  unfold Machine.putGap
  dsimp only
  split
  · exact h
  · split
    · next hr => exact (h.putEvRaw _ hf (ringRoom_en hr)).modFn _ _
    · exact h

theorem Reports.holdEntry {a b : Chip} (h : Reports a b) {fn : Nat} (e : EvEnt) (hf : fn < 9) :
    Reports a (Machine.holdEntry b fn e) := by
  unfold Machine.holdEntry
  dsimp only
  split
  · exact h.gapOne _ _ hf
  · split
    · exact h.modFn _ _
    · split
      · exact (h.gapOver _ _ hf).modFn _ _
      · exact h.gapOver _ _ hf

theorem Reports.dropSub {a b : Chip} (h : Reports a b) {fn : Nat} (sub : Nat) (hf : fn < 9) :
    Reports a (Machine.dropSub b fn sub) := by
  unfold Machine.dropSub
  dsimp only
  split
  · exact h
  · exact Reports.modFn (Reports.foldl _ _ (fun c _ _ => (Reports.refl c).gapOver _ _ hf) h) _ _

theorem Reports.putEvEntry {a b : Chip} (h : Reports a b) {fn : Nat} (e : EvEnt) (hf : fn < 9) :
    Reports a (Machine.putEvEntry b fn e) := by
  unfold Machine.putEvEntry
  dsimp only
  split
  · exact h
  · split
    · exact h.gapOne _ _ hf
    · have h2 : Reports a (if (fnSt b fn).hold.isEmpty then Machine.putGap b fn else b) := by
        split
        · exact h.putGap hf
        · exact h
      generalize (if (fnSt b fn).hold.isEmpty then Machine.putGap b fn else b) = x at h2 ⊢
      split
      · next hc =>
        simp only [Bool.and_eq_true] at hc
        exact h2.putEvRaw _ hf (ringRoom_en hc.2)
      · exact h2.holdEntry _ hf

theorem Reports.eventRise {a b : Chip} (h : Reports a b) {fn : Nat} (before : Nat) (hf : fn < 9) :
    Reports a (Machine.eventRise b fn before) := by
  unfold Machine.eventRise
  dsimp only
  split
  · split
    · exact (h.markRise hf (by omega)).putEvEntry _ hf
    · exact h.markRise hf (by omega)
  · exact h

theorem Reports.putEvents {a b : Chip} (h : Reports a b) {fn : Nat} (es : List EvEnt) (hf : fn < 9) :
    Reports a (Machine.putEvents b fn es) :=
  (Reports.foldl _ _ (fun c _ _ => (Reports.refl c).putEvEntry _ hf) h).eventRise _ hf

theorem Reports.putEvent {a b : Chip} (h : Reports a b) {fn : Nat} (e : EvEnt) (hf : fn < 9) :
    Reports a (Machine.putEvent b fn e) := h.putEvents _ hf

theorem Reports.checkRise {a b : Chip} (h : Reports a b) {fn r : Nat} (before : Nat) (hf : fn < 9) (hr : r ≤ 3) :
    Reports a (Machine.checkRise b fn r before) := by
  unfold Machine.checkRise
  dsimp only
  split
  · split
    · exact (h.markRise hf hr).putEvent _ hf
    · exact h.markRise hf hr
  · exact h

theorem Reports.checkFall {a b : Chip} (h : Reports a b) {fn r : Nat} (hf : fn < 9) (hr : r ≤ 3) :
    Reports a (Machine.checkFall b fn r) := by
  unfold Machine.checkFall
  dsimp only
  split
  · split
    · exact (h.setFlag _ _ (reportReg_idx hf hr (Or.inr (Or.inl rfl)))).putEvent _ hf
    · exact h.setFlag _ _ (reportReg_idx hf hr (Or.inr (Or.inl rfl)))
  · exact h

theorem Reports.postEventAt {a b : Chip} (h : Reports a b) {fn : Nat} (kind frame aux : Nat) (bs : List Byte) (hf : fn < 9) :
    Reports a (Machine.postEventAt b fn kind frame aux bs) :=
  h.putEvents _ hf

/-- Posting an event is a report. -/
theorem Reports.postEvent {a b : Chip} (h : Reports a b) {fn : Nat} (kind aux : Nat) (bs : List Byte) (hf : fn < 9) :
    Reports a (Machine.postEvent b fn kind aux bs) := h.postEventAt _ _ _ _ hf

theorem Reports.postEventBoth {a b : Chip} (h : Reports a b) {fn : Nat} (kind aux : Nat) (bs : List Byte) (hf : fn < 9) :
    Reports a (Machine.postEventBoth b fn kind aux bs) := by
  unfold Machine.postEventBoth
  dsimp only
  split
  · exact h.postEvent _ _ _ hf
  · exact (h.postEvent _ _ _ hf).postEvent _ _ _ (by omega)

/-- A completion is a report. -/
theorem Reports.complete {a b : Chip} (h : Reports a b) {fn : Nat} (sq tag status result : Nat) (hf : fn < 9) :
    Reports a (Machine.complete b fn sq tag status result) := by
  unfold Machine.complete
  dsimp only
  split
  · next he => exact (h.putRaw _ hf (by omega) (by omega) he).checkRise _ hf (by omega)
  · exact h.setReg _ (reportReg_idx hf (by omega) (Or.inr (Or.inr rfl)))

theorem Reports.completeFlight {a b : Chip} (h : Reports a b) {fn : Nat} (i : InFlight) (status result : Nat) (hf : fn < 9) :
    Reports a (Machine.completeFlight b fn i status result) := by
  unfold Machine.completeFlight
  dsimp only
  split
  · exact h.modFn _ _
  · exact (h.modFn _ _).complete _ _ _ _ hf

theorem Reports.completeWhere {a b : Chip} (h : Reports a b) (p : Nat → InFlight → Bool) (st : Nat → InFlight → Nat × Nat) :
    Reports a (Machine.completeWhere b p st) :=
  Reports.foldl _ _ (fun c _ hfn => Reports.foldl _ _
    (fun c' _ _ => (Reports.refl c').completeFlight _ _ _ (List.mem_range.1 hfn)) (Reports.refl c)) h

/-! ## Records -/

theorem Reports.putRecRaw {a b : Chip} (h : Reports a b) {fn : Nat} (bs : List Byte) (hf : fn < 9)
    (he : Machine.ringEn b fn 3 = true) : Reports a (Machine.putRecRaw b fn bs) :=
  ((h.modFn _ _).putRaw _ hf (by omega) (by omega) he).checkRise _ hf (by omega)

theorem Reports.recLoss {a b : Chip} (h : Reports a b) {fn : Nat} (n : Nat) (hf : fn < 9) :
    Reports a (Machine.recLoss b fn n) := by
  have hr := reportReg_idx (r := 3) hf (by omega) (k := 0x1C) (Or.inr (Or.inr rfl))
  unfold Machine.recLoss
  exact (h.setReg _ hr).modFn _ _

theorem Reports.putRecGap {a b : Chip} (h : Reports a b) {fn : Nat} (hf : fn < 9) : Reports a (Machine.putRecGap b fn) := by
  unfold Machine.putRecGap
  dsimp only
  split
  · exact h
  · split
    · next hr => exact (h.putRecRaw _ hf (ringRoom_en hr)).modFn _ _
    · exact h

theorem fnEnabled_out {c : Chip} {fn : Nat} (h : ¬ fn < 9) : fnEnabled c fn = false := by
  have h0 : fn ≠ 0 := by omega
  simp [fnEnabled, h, h0]

theorem Reports.deliverIn {a b : Chip} (h : Reports a b) {fn : Nat} (rkind : Nat) (r : Rec) (hf : fn < 9) :
    Reports a (Machine.deliver b fn rkind r) := by
  unfold Machine.deliver
  dsimp only
  split
  · exact h
  · split
    · exact h.recLoss _ hf
    · have h2 : Reports a (if (fnSt b fn).recQ.isEmpty then Machine.putRecGap b fn else b) := by
        split
        · exact h.putRecGap hf
        · exact h
      generalize (if (fnSt b fn).recQ.isEmpty then Machine.putRecGap b fn else b) = x at h2 ⊢
      split
      · next hc =>
        simp only [Bool.and_eq_true] at hc
        exact h2.putRecRaw _ hf (ringRoom_en hc.2)
      · exact h2.modFn _ _

/-- A delivery to any function is a report: one that does not exist takes nothing. -/
theorem Reports.deliver {a b : Chip} (h : Reports a b) (fn rkind : Nat) (r : Rec) :
    Reports a (Machine.deliver b fn rkind r) := by
  by_cases hf : fn < 9
  · exact h.deliverIn _ _ hf
  · unfold Machine.deliver; rw [fnEnabled_out hf]; exact h

theorem ownerFn_lt (o : Nat) : ownerFn o < 9 := by unfold ownerFn; split <;> omega

theorem Reports.deliverAll {a b : Chip} (h : Reports a b) (fns : List Nat) (rkind : Nat) (r : Rec) :
    Reports a (Machine.deliverAll b fns rkind r) := Reports.foldl _ _ (fun c fn _ => (Reports.refl c).deliver fn rkind r) h

theorem Reports.setImage {a b : Chip} (h : Reports a b) (slot : Nat) (r : Option Rec) : Reports a (Machine.setImage b slot r) :=
  h.rcd _

theorem Reports.programPair {a b : Chip} (h : Reports a b) (seq : Nat) : Reports a (Machine.programPair b seq) := by
  unfold Machine.programPair
  dsimp only
  split
  · exact h.rcd _
  · exact h

theorem Reports.programTail {a b : Chip} (h : Reports a b) (seq : Nat) : Reports a (Machine.programTail b seq) := by
  unfold Machine.programTail
  dsimp only
  split
  · exact h.rcd _
  · exact h

theorem Reports.toBasinAdd {a b : Chip} (h : Reports a b) (r : Rec) : Reports a (Machine.toBasinAdd b r) :=
  h.rcd _

theorem Reports.ite {a x y : Chip} {p : Prop} [Decidable p] (hx : Reports a x) (hy : Reports a y) :
    Reports a (if p then x else y) := by
  split
  · exact hx
  · exact hy

theorem Reports.closeRec {a b : Chip} (h : Reports a b) (seq : Nat) : Reports a (Machine.closeRec b seq) := by
  have h2 : Reports a (Machine.programPair { b with rcd := { b.rcd with opens := b.rcd.opens.filter fun o => o.seq != seq } } seq) :=
    (h.rcd _).programPair _
  unfold Machine.closeRec
  dsimp only
  split
  · exact (h2.ite (h2.rcd _)).toBasinAdd _
  · exact h2

theorem Reports.closeSource {a b : Chip} (h : Reports a b) (src : Nat) : Reports a (Machine.closeSource b src) := by
  unfold Machine.closeSource
  split
  · exact h.closeRec _
  · exact h

theorem recLog_le (c : Chip) (r : Rec) : recLog c r ≤ 8 := by unfold recLog; split <;> omega

theorem Reports.missBasin {a b : Chip} (h : Reports a b) (r : Rec) : Reports a (Machine.missBasin b r) := by
  unfold Machine.missBasin
  dsimp only
  split
  · refine (h.setReg _ ?_).rcd _
    have := recLog_le b r
    simp only [reportReg, Bool.or_eq_true, Bool.and_eq_true, decide_eq_true_eq, beq_iff_eq]
    omega
  · exact h

theorem Reports.loseSlot {a b : Chip} (h : Reports a b) (slot : Nat) : Reports a (Machine.loseSlot b slot) := by
  unfold Machine.loseSlot
  split
  · refine Reports.foldl _ _ (fun c fn hfn => ?_) (h.missBasin _)
    split
    · exact ((Reports.refl c).modFn _ _).recLoss _ (List.mem_range.1 hfn)
    · exact Reports.refl c
  · exact h

theorem Reports.overwrite {a b : Chip} (h : Reports a b) (r : Rec) : Reports a (Machine.overwrite b r) := by
  unfold Machine.overwrite
  dsimp only
  split
  · exact h.ite (((h.closeRec _).ite h).loseSlot _ |>.rcd _)
  · exact h

theorem Reports.freshPage {a b : Chip} (h : Reports a b) (seq : Nat) : Reports a (Machine.freshPage b seq) := by
  unfold Machine.freshPage
  exact (h.rcd _).ite h

theorem Reports.loseFiring {a b : Chip} (h : Reports a b) : Reports a (Machine.loseFiring b) := by
  unfold Machine.loseFiring
  exact (h.countFld _ _ rfl).ite h

theorem Reports.toTwin {a b : Chip} (h : Reports a b) (r : Rec) : Reports a (Machine.toTwin b r) := by
  unfold Machine.toTwin
  dsimp only
  split
  · exact h.recs _
  · exact h

theorem Reports.holdForTwin {a b : Chip} (h : Reports a b) (r : Rec) : Reports a (Machine.holdForTwin b r) := by
  unfold Machine.holdForTwin
  dsimp only
  split
  · exact h.recs _
  · exact h.countFld _ _ rfl

theorem Reports.enterRecTo {a b : Chip} (h : Reports a b) (fns : List Nat) (r : Rec) (window : Nat) :
    Reports a (Machine.enterRecTo b fns r window) := by
  unfold Machine.enterRecTo
  generalize (Machine.reg b 0x18000C).toNat = seq
  have h3 := (((h.overwrite { r with seq := seq }).setImage (seq % 32768) (some { r with seq := seq })).setReg
    (off := 0x18000C) (BitVec.ofNat 32 (seq + 1)) rfl).freshPage seq
  refine Reports.ite (Reports.toBasinAdd ?_ _) ?_ <;>
    refine Reports.toTwin (Reports.deliverAll (Reports.ite (Reports.programPair ?_ _) (Reports.programTail ?_ _)) _ _ _) _ <;>
    exact Reports.ite h3 (h3.rcd _)

theorem Reports.enterRec {a b : Chip} (h : Reports a b) (r : Rec) (window : Nat) : Reports a (Machine.enterRec b r window) :=
  h.enterRecTo _ _ _

theorem Reports.formRec {a b : Chip} (h : Reports a b) (r : Rec) (window : Nat) : Reports a (Machine.formRec b r window) := by
  unfold Machine.formRec
  exact h.loseFiring.ite ((h.holdForTwin _).ite ((h.rcd _).ite (h.enterRec _ _)))

theorem Reports.coalesce {a b : Chip} (h : Reports a b) (fns : List Nat) (seq ot : Nat) :
    Reports a (Machine.coalesce b fns seq ot) := by
  unfold Machine.coalesce
  dsimp only
  split
  · exact ((h.setImage _ _).deliverAll _ _ _).toTwin _
  · exact h

/-- A record of a node source is a report. -/
theorem Reports.nodeRec {a b : Chip} (h : Reports a b) (type aux : Nat) (items : List Nat) :
    Reports a (Machine.nodeRec b type aux items) := h.formRec _ _

theorem Reports.coalesceOrTo {a b : Chip} (h : Reports a b) (fns : List Nat) (r : Rec) (window key : Nat) :
    Reports a (Machine.coalesceOrTo b fns r window key) := by
  unfold Machine.coalesceOrTo
  dsimp only
  split
  · split
    · split
      · exact h.coalesce _ _ _
      · exact (h.closeRec _).enterRecTo _ _ _
    · exact (h.closeRec _).enterRecTo _ _ _
  · exact h.enterRecTo _ _ _

theorem Reports.coalesceOr {a b : Chip} (h : Reports a b) (r : Rec) (window key : Nat) :
    Reports a (Machine.coalesceOr b r window key) := h.coalesceOrTo _ _ _ _

theorem Reports.faultRec {a b : Chip} (h : Reports a b) (code : Nat) (items : List Nat) :
    Reports a (Machine.faultRec b code items) := by
  unfold Machine.faultRec
  dsimp only
  exact h.loseFiring.ite ((h.holdForTwin _).ite ((h.rcd _).ite (h.coalesceOr _ _ _)))

theorem Reports.enterTrigger {a b : Chip} (h : Reports a b) (fns : List Nat) {r : Rec} (hr : r.source < 0x100) :
    Reports a (Machine.enterTrigger b fns r) := by
  have h1 := h.coalesceOrTo fns r (trigWindow b r.source) (trigKey b r.source)
  unfold Machine.enterTrigger countFormed
  refine h1.ite (h1.countFld _ _ ?_)
  simp only [reportReg, Bool.or_eq_true, Bool.and_eq_true, decide_eq_true_eq, beq_iff_eq]
  omega

theorem Reports.flushHeld {a b : Chip} (h : Reports a b) : Reports a (Machine.flushHeld b) := by
  unfold Machine.flushHeld
  dsimp only
  split
  · exact h
  · refine Reports.foldl _ _ (fun c r _ => ?_) (h.rcd _)
    split
    · exact (Reports.refl c).coalesceOrTo _ _ _ _
    · split
      · next hr => exact (Reports.refl c).enterTrigger _ hr
      · exact (Reports.refl c).enterRecTo _ _ _

/-! ## Errors -/

theorem Reports.countOcc {a b : Chip} (h : Reports a b) (code src : Nat) : Reports a (Machine.countOcc b code src).1 := by
  unfold Machine.countOcc
  dsimp only
  split
  · exact h.diag _
  · split
    · exact h.diag _
    · exact (h.diag _).countFld _ _ rfl

theorem Reports.pushEntry {a b : Chip} (h : Reports a b) (e : DiagEnt) : Reports a (Machine.pushEntry b e) := by
  unfold Machine.pushEntry
  dsimp only
  split
  · exact h
  · split
    · exact h.diag _
    · exact h.setReg _ rfl

/-- An occurrence of an error source is a report. -/
theorem Reports.postErrorSev {a b : Chip} (h : Reports a b) (code sev src detail : Nat) (record : Bool) :
    Reports a (Machine.postErrorSev b code sev src detail record) := by
  unfold Machine.postErrorSev
  dsimp only
  split
  · exact ((h.countOcc _ _).pushEntry _).faultRec _ _
  · exact (h.countOcc _ _).pushEntry _

theorem Reports.postError {a b : Chip} (h : Reports a b) (code src detail : Nat) :
    Reports a (Machine.postError b code src detail) := h.postErrorSev _ _ _ _ _

theorem Reports.postErrorRec {a b : Chip} (h : Reports a b) (code src detail : Nat) :
    Reports a (Machine.postErrorRec b code src detail) := h.postErrorSev _ _ _ _ _

theorem Reports.faultEvent {a b : Chip} (h : Reports a b) (code src point : Nat) {fns : List Nat} (hf : ∀ f ∈ fns, f < 9) :
    Reports a (Machine.faultEvent b code src point fns) := by
  unfold Machine.faultEvent
  dsimp only
  split
  · exact Reports.foldl _ _ (fun c fn hfn => (Reports.refl c).postEvent _ _ _ (hf fn (List.mem_dedup.1 hfn))) (h.diag _)
  · exact h

theorem ownerAndKeeper_lt (c : Chip) (p : Nat) : ∀ f ∈ ownerAndKeeper c p, f < 9 := by
  intro f hf
  simp only [ownerAndKeeper, List.mem_cons, List.not_mem_nil, or_false] at hf
  obtain rfl | rfl := hf
  · exact ownerFn_lt _
  · omega

/-- A fault of a point is a report. -/
theorem Reports.postPointFault {a b : Chip} (h : Reports a b) (code p detail : Nat) (record : Bool) :
    Reports a (Machine.postPointFault b code p detail record) :=
  (h.postErrorSev _ _ _ _ _).faultEvent _ _ _ (ownerAndKeeper_lt b p)

end Sys2Proof.Machine
end

