-- ==== Sys2Proof/Laws/Drives.lean ====
section
/-! SUPPORT. Laws of the blocks on Basin's drives: a sealed block passes its CRC, and superblocks and unit headers read back as
they were written. -/

namespace Sys2Proof.Machine

theorem natLe_length (n x : Nat) : (natLe n x).length = n := by
  induction n generalizing x with
  | zero => rfl
  | succ n ih => simp [natLe, ih]

theorem leNat_natLe {n x : Nat} (h : x < 256 ^ n) : leNat (natLe n x) = x := by
  induction n generalizing x with
  | zero => simp [natLe, leNat]; omega
  | succ n ih =>
    have h1 : x / 256 < 256 ^ n := by rw [Nat.div_lt_iff_lt_mul (by decide)]; rw [pow_succ] at h; omega
    simp only [natLe, leNat, ih h1, BitVec.toNat_ofNat]
    omega

theorem crc32Bits_lt (n : Nat) {c : Nat} (h : c < 2 ^ 32) : crc32Bits n c < 2 ^ 32 := by
  induction n generalizing c with
  | zero => exact h
  | succ n ih =>
    apply ih
    split
    · exact Nat.xor_lt_two_pow (by omega) (by decide)
    · omega

theorem crc32_lt (bs : List Byte) : crc32 bs < 2 ^ 32 := by
  have h (l : List Byte) (c : Nat) (hc : c < 2 ^ 32) : l.foldl crc32Step c < 2 ^ 32 := by
    induction l generalizing c with
    | nil => exact hc
    | cons b l ih => exact ih _ (crc32Bits_lt 8 (Nat.xor_lt_two_pow hc (by have := b.isLt; omega)))
  exact Nat.xor_lt_two_pow (h bs _ (by decide)) (by decide)

/-- A sealed block passes its CRC. -/
theorem sealed_sealBlock (bs : List Byte) : sealed (sealBlock bs) = true := by
  have h := padTo_length 4092 bs
  simp only [sealed, sealBlock, beq_iff_eq]
  rw [List.drop_left' h, List.take_left' h, leNat_natLe (crc32_lt _)]

/-- The content of a padded block stands at its front. -/
theorem padTo_eq {n : Nat} {bs : List Byte} (hb : bs.length ≤ n) : padTo n bs = bs ++ List.replicate (n - bs.length) 0 := by
  rw [padTo, List.take_append, List.take_of_length_le hb, List.take_replicate, Nat.min_eq_left (by omega)]

/-- A number in the content of a sealed block. -/
theorem blockNat_sealBlock {bs : List Byte} {o n : Nat} (h : o + n ≤ bs.length) (hb : bs.length ≤ 4092) :
    blockNat (sealBlock bs) o n = leNat ((bs.drop o).take n) := by
  simp only [blockNat, sealBlock]
  rw [padTo_eq hb, List.append_assoc, List.drop_append_of_le_length (by omega),
    List.take_append_of_le_length (by rw [List.length_drop]; omega)]

/-- The superblocks that a node writes have fields of these sizes. -/
def SuperBlk.fits (s : SuperBlk) : Bool :=
  decide (s.layout ≤ 2) && decide (s.member < 256) && decide (s.basinId < 2 ^ 64) && decide (s.sgen < 2 ^ 64) && decide (s.cap < 2 ^ 64)
    && decide (s.members < 16) && decide (s.cursor < 2 ^ 64) && s.rebuild.all fun n => decide (n < 4)

theorem drop_natLe {o n : Nat} (h : n ≤ o) (x : Nat) : (natLe n x).drop o = [] :=
  List.drop_eq_nil_of_le (by rw [natLe_length]; exact h)

theorem take_natLe {o n : Nat} (h : n ≤ o) (x : Nat) : (natLe n x).take o = natLe n x :=
  List.take_of_length_le (by rw [natLe_length]; exact h)

/-- The content of a superblock. -/
theorem superBytes_field (s : SuperBlk) {o n : Nat} (h : o + n ≤ 48) :
    blockNat (superBytes s) o n = leNat (((natLe 4 0x4E495342 ++ (natLe 2 1 ++ (natLe 1 s.layout ++ (natLe 1 s.member
      ++ (natLe 8 s.basinId ++ (natLe 8 s.sgen ++ (natLe 8 s.cap ++ (natLe 1 s.members ++ (natLe 1 (b2n s.clean)
      ++ (natLe 1 (s.rebuild.getD 0xFF) ++ (natLe 5 0 ++ natLe 8 s.cursor))))))))))).drop o).take n) := by
  rw [superBytes, blockNat_sealBlock (by simp [natLe_length]; omega) (by simp [natLe_length])]
  simp only [List.append_assoc]

/-- A superblock reads back as it was written (R821). -/
theorem superIn_superBytes {s : SuperBlk} (h : s.fits = true) : superIn (superBytes s) = some s := by
  simp only [SuperBlk.fits, Bool.and_eq_true, decide_eq_true_eq] at h
  obtain ⟨⟨⟨⟨⟨⟨⟨h0, h1⟩, h2⟩, h3⟩, h4⟩, h5⟩, h6⟩, h7⟩ := h
  have hc : b2n s.clean < 256 ^ 1 := by cases s.clean <;> decide
  have hr : s.rebuild.getD 0xFF < 256 ^ 1 := by
    cases hs : s.rebuild with
    | none => decide
    | some n => rw [hs] at h7; simp at h7 ⊢; omega
  have f (o n : Nat) (hn : o + n ≤ 48) := superBytes_field s hn
  simp only [superIn, f 0 4 (by decide), f 4 2 (by decide), f 6 1 (by decide), f 7 1 (by decide), f 8 8 (by decide), f 0x10 8 (by decide),
    f 0x18 8 (by decide), f 0x20 1 (by decide), f 0x21 1 (by decide), f 0x22 1 (by decide), f 0x28 8 (by decide),
    List.drop_append, List.take_append, natLe_length, Nat.reduceSub, Nat.reduceLeDiff, drop_natLe, take_natLe, List.drop_zero, List.nil_append,
    List.take_zero, List.append_nil]
  rw [leNat_natLe (by decide), leNat_natLe (by decide), leNat_natLe (n := 1) (by omega), leNat_natLe (n := 1) (by omega),
    leNat_natLe (n := 8) (by omega), leNat_natLe (n := 8) (by omega), leNat_natLe (n := 8) (by omega), leNat_natLe (n := 1) (by omega),
    leNat_natLe hc, leNat_natLe hr, leNat_natLe (n := 8) (by omega)]
  have hs : sealed (superBytes s) = true := sealed_sealBlock _
  obtain ⟨layout, member, basinId, sgen, cap, members, clean, rebuild, cursor⟩ := s
  simp only [hs, h0, Nat.mod_eq_of_lt h5, and_self, if_true, Option.some.injEq, SuperBlk.mk.injEq, true_and, and_true]
  refine ⟨by cases clean <;> rfl, ?_⟩
  cases rebuild with
  | none => rfl
  | some n => simp only [Option.all_some, decide_eq_true_eq] at h7; simp only [Option.getD_some, h7, if_true]

/-- The header of a unit has fields of these sizes. -/
def UnitHead.fits (u : UnitHead) : Bool :=
  decide (u.kind < 256) && decide (u.owner < 256) && decide (u.stream < 256) && decide (u.epoch < 2 ^ 32) && decide (u.ugen < 2 ^ 64)
    && decide (u.ot < 2 ^ 40) && decide (u.pcc < 2 ^ 24)

/-- The content of a unit's header. -/
theorem unitHeader_field (u : UnitHead) {o n : Nat} (h : o + n ≤ 27) :
    blockNat (unitHeader u) o n = leNat (((natLe 4 0x54555342 ++ (natLe 1 u.kind ++ (natLe 1 u.owner ++ (natLe 1 u.stream
      ++ (natLe 4 u.epoch ++ (natLe 8 u.ugen ++ (natLe 5 u.ot ++ natLe 3 u.pcc))))))).drop o).take n) := by
  rw [unitHeader, blockNat_sealBlock (by simp [natLe_length]; omega) (by simp [natLe_length])]
  simp only [List.append_assoc]

/-- The header of a unit reads back as it was written (R823). -/
theorem headIn_unitHeader {u : UnitHead} (h : u.fits = true) : headIn (unitHeader u) = some u := by
  simp only [UnitHead.fits, Bool.and_eq_true, decide_eq_true_eq] at h
  obtain ⟨⟨⟨⟨⟨⟨h0, h1⟩, h2⟩, h3⟩, h4⟩, h5⟩, h6⟩ := h
  have f (o n : Nat) (hn : o + n ≤ 27) := unitHeader_field u hn
  simp only [headIn, f 0 4 (by decide), f 4 1 (by decide), f 5 1 (by decide), f 6 1 (by decide), f 7 4 (by decide), f 11 8 (by decide),
    f 19 5 (by decide), f 24 3 (by decide), List.drop_append, List.take_append, natLe_length, Nat.reduceSub, Nat.reduceLeDiff,
    drop_natLe, take_natLe, List.drop_zero, List.nil_append, List.take_zero, List.append_nil]
  rw [leNat_natLe (by decide), leNat_natLe (n := 1) (by omega), leNat_natLe (n := 1) (by omega), leNat_natLe (n := 1) (by omega),
    leNat_natLe (n := 4) (by omega), leNat_natLe (n := 8) (by omega), leNat_natLe (n := 5) (by omega), leNat_natLe (n := 3) (by omega)]
  have hs : sealed (unitHeader u) = true := sealed_sealBlock _
  simp only [hs, and_self, if_true]

end Sys2Proof.Machine
end

