-- ==== Sys2Proof/Tests/Slice0.lean ====
section
/-! SUPPORT. The model's own tests: ill-formed commands, worked examples of the chapters, and for every
hypothesis of a statement a state and operands that meet it. -/

namespace Sys2Proof.Tests

open Sys2Proof Sys2Proof.Machine

set_option Elab.async false
set_option linter.unusedVariables false

/-! ## Small states -/

/-- The node after reset, changed by `f`. -/
def node (f : Chip → Chip) : State := { State.reset with chip := f State.reset.chip }

/-- The node in an operating mode, with its frames running. -/
def inMode (m : Nat) (c : Chip) : Chip := modMode (setFld c 0x100 0 4 m) fun x => { x with up := true, frames := true }

/-- Domains in state ON. -/
def withDoms (ns : List Nat) (c : Chip) : Chip :=
  ns.foldl (fun c n => setDom c n .on) c

/-- Registers with values. -/
def withRegs (rs : List (Nat × Nat)) (c : Chip) : Chip := rs.foldl (fun c r => setReg c r.1 (BitVec.ofNat 32 r.2)) c

/-- Bytes of the table memories. -/
def withTable (rs : List (Nat × List Nat)) (c : Chip) : Chip :=
  rs.foldl (fun c r => { c with tables := memWrite tblDef c.tables r.1 (r.2.map fun b => BitVec.ofNat 8 b) }) c

/-- A small image in bank A: one section of producer notes, with its commit page or without. -/
def withImage (committed : Bool) (c : Chip) : Chip :=
  let body : List Byte := natLe 4 0x4 ++ List.replicate 12 0
  let dir := natLe 2 0x8000 ++ natLe 2 0 ++ natLe 4 0x50 ++ natLe 4 16 ++ natLe 4 (crc32 body)
  let head := natLe 4 0x495A4C43 ++ natLe 2 1 ++ natLe 2 0 ++ natLe 4 256 ++ natLe 2 1 ++ natLe 2 0 ++ List.replicate 44 0
  let img := padTo 256 (head ++ natLe 4 (crc32 head) ++ dir ++ body)
  let page := natLe 4 0x54494D43 ++ natLe 4 1 ++ natLe 4 256 ++ natLe 4 (crc32 img) ++ List.replicate 236 0xFF ++ natLe 4 0xA5A55A5A
  let c1 := { c with nvm := memWrite erasedByte c.nvm 0 img }
  if committed then
    { c1 with nvm := memWrite erasedByte c1.nvm 0x3FFF00 page, img := { c1.img with prog := [(commitPage 1, true)] } }
  else c1

/-- A CAN frame in a transmit buffer. -/
def txFrame (onBus : Bool) : CanTx :=
  { onBus := onBus, fmt := 0, ident := 5, dlc := 1, data := [9], fn := 1, tmo := false, drop := false }

/-- Controller 0 holds a frame in a buffer. -/
def canFrame (b : Nat) (onBus : Bool) (c : Chip) : Chip := setBuf c 0 b (some (txFrame onBus))

/-- SCAN mode, the CAN domain on, controller 0 in NORMAL. -/
def canNode (c : Chip) : Chip :=
  modCan (setFld (withDoms [21] (inMode 3 c)) (canCtl 0) 0 2 1) 0 fun s => { s with mode := 1 }

/-- SCAN mode with the DMA domain on, a rate and a window of eight instructions for DP1, and a rate for DL0: a MOVE of
100 bytes, a LOOP of 3 to the first, a WAIT for SCAN and a SIGNAL that halts. -/
def dmaNode (rate : Nat) (c : Chip) : Chip :=
  withRegs [(dpBase 0, rate), (dpBase 1, 4), (dpBase 1 + 4, 0x80000), (dlBase 0, 0x40F), (dlBase 0 + 8, 0x1000),
    (0x1A8000, 0x01000001), (0x1A8004, 0x100), (0x1A8008, 0x200), (0x1A800C, 100),
    (0x1A8010, 2), (0x1A8014, 3), (0x1A8018, 0), (0x1A8020, 3), (0x1A8030, 0x40104)] (withDoms [26, 27] (inMode 3 c))

/-- A suitable drive of some blocks. -/
def drive (blocks : Nat) (data : List (Nat × List Byte)) : Drive :=
  { ns1 := true, lba := 4096, metadata := 0, queues := 4, depth := 256, blocks := blocks, data := data }

/-- SCAN mode, REC and DMA on, a drive of 2^24 blocks on port 1. -/
def basinNode (sb : Option SuperBlk) (c : Chip) : Chip :=
  setBDrive (withDoms [25, 26, 27, 28, 29, 3] (inMode 3 c)) 1 (some (drive (2 ^ 24) (sb.toList.map fun x => (0, superBytes x))))

/-- A unit of the keeper's record log. -/
def chunkUnit : BUnit := { kind := 1, owner := 15, stream := 0, epoch := 0, ugen := 1, ot := 0, pcc := 0, chunks := [], wiped := false }

/-- Basin is ONLINE with port 1, unit 0 belongs to the keeper's record log, and one record waits. -/
def chunkNode (c : Chip) : Chip :=
  let c1 := modBsn (withRegs [(bsnStat, 0x22), (0x190010, 60)] (basinNode none c)) fun b => { b with ports := 2, cap := 2 ^ 24 }
  let c2 := setBUnit c1 0 (some chunkUnit)
  { c2 with ot := 1000000, rcd := { c2.rcd with toBasin := [⟨[], 5, 1, 0, 0x100, 2, 1, 0, 0, 0⟩] } }

/-- RUN mode, loop 0 enabled in AUTO with its evaluation waiting on the tick lane. -/
def loopNode (_n : Nat) (c : Chip) : Chip :=
  let c1 := withTable [(0x1701000, [1])] (withRegs [(loopStat 0, 1), (0x150004, 15)] (withDoms [23, 26, 28, 29] (inMode 4 c)))
  { c1 with evq := [⟨0, true, false⟩] }

/-- A FAULT record stands open in the image. -/
def openNode (c : Chip) : Chip :=
  let c1 := { c with ot := max c.ot 5, rcd := { c.rcd with
    opens := [⟨0x103, 0, 3, 0⟩], image := smPut imgDef c.rcd.image 0 (some ⟨[], 0, 1, 0, 0x103, 1, 1, 0, 0, 0⟩) } }
  setReg c1 0x18000C 1

/-- SCAN mode, the call uses CAN controller 0, which runs in NORMAL. -/
def callNode (c : Chip) : Chip := withDoms [24] (modCall (canNode c) fun k => { k with set := { k.set with ctrl := 0 } })

/-- A node whose keeper has its command and completion rings enabled, in a mode, while the node slot runs. -/
def cmdNode (m : Nat) (c : Chip) : Chip :=
  let c1 := withRegs [(0x21108, 0x104), (0x21148, 0x104)] (inMode m c)
  { c1 with seq := { c1.seq with slot := some 0 } }

/-- A command entry with operand bytes from 0x08. -/
def ent (ops : List Nat) : Entry := ⟨0, 0, 7, padTo 56 (ops.map fun b => BitVec.ofNat 8 b)⟩

/-- RUN mode; cell 3 drives its loop with its modem enabled; the keeper's completion ring is enabled. -/
def fskNode (c : Chip) : Chip :=
  setFlag (modCell (withDoms [cellDom 3] (cmdNode 4 c)) 3 fun x => { x with mode := 1 }) (cellBase 3) 4 true

/-- SCAN mode; channel 5 measures a voltage on a bank that is on, with a calibrated cell; entry 0 of the scan table
reads it with coefficient set 0, the identity in volts with 6 decimals. -/
def acqNode (c : Chip) : Chip :=
  let c1 := withTable [(0x1500004, [1]), (0x1500200, [1]), (0x1500208, [5, 0, 0x20]),
    (0x1600100, [1, 0, 16, 0xFA, 2]), (0x1600100 + 0x32, [1])] (withDoms [8] (inMode 3 c))
  { setAna c1 5 { anaDef 5 with aMode := 1 } with
    pwr := { c1.pwr with modulators := true }, corr := [(corrKey 0 5 (setupKey 1 0), some ⟨0, 0, 0⟩)] }

/-- A cell that drives 12 mA, in a mode of the node. -/
def cellNode (m ch : Nat) (c : Chip) : Chip :=
  modCell (withDoms [cellDom ch] (withRegs [(0x10000, 0x7F)] (inMode m c))) ch fun x => { x with mode := 1, dem := qw32To ⟨12000, -3, 20, 0⟩ }

/-- A transmission of two bytes stands in the modem of a cell. -/
def fskTx (ch : Nat) (sending : Bool) (c : Chip) : Chip :=
  setFlag (modCell (cellNode 4 ch c) ch fun x => { x with tx := some ⟨0, [1, 2], sending, if sending then fskLine [1, 2] else []⟩ }) (cellBase ch) 4 true

/-- RUN mode, the leg driver powered, leg 2 alone and off with a demand of 50 %. -/
def legNode (c : Chip) : Chip :=
  setPoint (withRegs [(0x10000, 0x1FF), (legBase 2, 0x71000)] (withDoms [22] (inMode 4 c))) (legPt 2) { ptDef 0 with live := qw32To ⟨5000, -2, 11, 0⟩ }

/-- MIRROR mode, the Saddle link up with contact, the identity sent. -/
def standbyNode (f : SdlSt → SdlSt) (c : Chip) : Chip :=
  modSdl (withRegs [(0x1C0000, 1)] (withDoms [6] (inMode 5 c))) fun x => f { x with contact := true, idSent := true }

/-- RUN mode, the Saddle link up with contact. -/
def activeNode (f : SdlSt → SdlSt) (c : Chip) : Chip :=
  modSdl (withRegs [(0x1C0000, 1)] (withDoms [6] (inMode 4 c))) fun x => f { x with contact := true }

/-- ARBITER mode, the Saddle link powered. -/
def arbNode (f : SdlSt → SdlSt) (c : Chip) : Chip :=
  modSdl (withRegs [(0x1C0000, 1)] (withDoms [6] (inMode 7 c))) f

/-- A Saddle header with SEQ `n`, from an active unit A. -/
def hdr (n : Nat) : SaddleHdr := ⟨2, BitVec.ofNat 32 n, 0, 7, true⟩

/-- The superblock of a Basin of one drive on port 1. -/
def oneMember : SuperBlk := ⟨0, 1, 77, 4, 2 ^ 24, 2, true, none, 0⟩

/-! ## Well-formedness: one ill-formed command for each check -/

theorem test_ill_formed_operands : wellFormed (.nop 0 ⟨0, 0, 1, []⟩) = false := by decide
theorem test_ill_formed_register_write : wellFormed (.regWrite 0 0x30 []) = false := by decide
theorem test_ill_formed_memory_write : wellFormed (.tableMemoryWrite 0 0x3FFFFFF [1, 2]) = false := by decide
theorem test_ill_formed_empty_memory_write : wellFormed (.frameMemoryWrite 0 0 []) = false := by decide
theorem test_ill_formed_host_store : wellFormed (.doorbell 0 [(2 ^ 64, 0)] 0 0 15) = false := by decide
theorem test_ill_formed_can_frame : wellFormed (.frameReceived 0 0 0 0 (List.replicate 65 0) 0) = false := by decide
theorem test_ill_formed_saddle_frame : wellFormed (.heartbeat (hdr 1) (List.replicate 65536 0)) = false := by decide +kernel
theorem test_ill_formed_reading : wellFormed (.acq 0 ⟨⟨1, 0⟩, ⟨0, 1⟩⟩ ⟨⟨1, 1⟩, ⟨0, 1⟩⟩ ⟨1, 1⟩) = false := by decide
theorem test_ill_formed_window : wellFormed (.trimWindowEnd ⟨1, 0⟩ true) = false := by decide
theorem test_ill_formed_scan_entry : wellFormed (.loop 32736) = false := by decide
theorem test_ill_formed_internal_entry : wellFormed (.internal 0 ⟨1, 0⟩) = false := by decide
theorem test_ill_formed_cause : wellFormed (.nodeFatal 0) = false := by decide
theorem test_ill_formed_breach : wellFormed (.guaranteeBreachStart 0 0) = false := by decide
theorem test_ill_formed_loop_fault : wellFormed (.loopFaultSet 0 6) = false := by decide
theorem test_ill_formed_chunk : wellFormed (.chunkWrite 9) = false := by decide
theorem test_ill_formed_drive : wellFormed (.nvPortLinkUp 0 1 1 (drive (2 ^ 64) [])) = false := by decide
theorem test_well_formed_chunk : wellFormed (.chunkWrite 31) = true := by decide

/-! ## Worked examples of the chapters -/

/-- The worked encodings of 02_quantity_words and the example of 00_scope. -/
theorem test_quantity_words :
    ([⟨1234, -1, 3, 0⟩, ⟨-125, -1, 1, 1⟩, ⟨9004, -2, 1, 0⟩, ⟨524287, -3, 3, 1⟩, ⟨1234, -1, 0, 0⟩, ⟨-5, 0, 0, 3⟩] : List Qw).map qw32To
      = [0x004D2F0C, 0xFFF83F05, 0x0232CE04, 0x7FFFFD0D, 0x004D2F00, 0xFFFFB003] := by decide +kernel
theorem test_wide_quantity_word : qw64To ⟨1234567891, -3, 26, 0⟩ = 0x0000499602D3FD68 := by decide +kernel
/-- 85.25 at exponent −1 is a tie (R66). -/
theorem test_encode_tie : (encodeValue false (8525 / 100) (-1) 1 0).1 = ⟨852, -1, 1, 0⟩ := by decide +kernel
/-- The mis-scaled pressure of 02_quantity_words. -/
theorem test_encode_saturates : encodeWord false (6000004 / 10000) (-3) 3 0 0 = (0x7FFFFD0D, 2) := by decide +kernel
/-- The input and output spans of loop 7. -/
theorem test_spans : toQ15 (9004 / 100) 0 150 = (19669, false) ∧ (encodeValue false (ofQ15 16384 4 20) (-3) 20 0).1 = ⟨12000, -3, 20, 0⟩ := by
  decide +kernel
/-- Point IDs of 01_node_architecture. -/
theorem test_point_ids : anaPt (16 * 2 + 5) = 0x200025 ∧ cellPt (16 + 3) = 0x500013 := by decide
/-- The 16 bytes of point 0x200025 at 0x1004B0 (05_register_model_map). -/
theorem test_frame_memory :
    bar1Read (setPoint (node id).chip 0x200025 { ptDef 0x200025 with snap := 0x0232CE04, snapFlags := 0 }) 0 0x1004B0 16
      = [0x04, 0xCE, 0x32, 0x02, 0, 0, 0, 0, 0, 0, 0, 0, 0, 0, 0, 0] := by decide +kernel

/-- Virtual function 3 with rings of 16 entries whose indexes stand at 14 (06_host_rings_doorbells); TAIL is `t`. -/
def ringNode (t : Nat) : Chip :=
  withRegs [(ringBase 3 0 + 8, 0x104), (ringBase 3 0 + 0xC, 14 + t * 65536), (ringBase 3 1 + 8, 0x104), (ringBase 3 1 + 0xC, 18 + 14 * 65536)] (node id).chip

theorem test_doorbell_accepted : hostIdx (ringDoorbell (ringNode 14) 3 0 18) 3 0 = 18 := by decide +kernel
theorem test_doorbell_repeated : ringDoorbell (ringNode 18) 3 0 18 = ringNode 18 := by decide +kernel
theorem test_doorbell_stale : (let c := ringDoorbell (ringNode 18) 3 0 17; (hostIdx c 3 0, c.diag.fifo.length)) = (18, 0) := by decide +kernel
theorem test_doorbell_out_of_range : (ringDoorbell (ringNode 18) 3 0 40).diag.fifo.map (·.code) = [0x0B] := by decide +kernel
theorem test_doorbell_of_completions : hostIdx (ringDoorbell (ringNode 18) 3 1 18) 3 1 = 18 := by decide +kernel

/-- Loop 7 of 14_control_engine: its table entry. -/
def loop7 : List Nat :=
  [0x27, 1, 0, 0xFF, 0x25, 0, 0x20, 0, 0, 0, 0, 0, 0x13, 0, 0x50, 0xFD]
    ++ ([⟨0, 0, 1, 0⟩, ⟨150, 0, 1, 0⟩, ⟨4000, -3, 20, 0⟩, ⟨20000, -3, 20, 0⟩, ⟨8500, -2, 1, 0⟩, ⟨4000, -3, 20, 0⟩, ⟨4000, -3, 20, 0⟩] : List Qw).flatMap
      (fun q => (natLe 4 (qw32To q)).map BitVec.toNat)
    ++ [0, 0, 0, 0, 0x20, 0x4E, 0x30, 0x75, 0x00, 0x10, 0, 0, 0, 0, 0xFF, 0x7F, 0, 0, 2, 12, 7, 0xFF, 0xFF]

/-- The gain table of loop 7. -/
def gain7 : List Nat := (List.range 33).flatMap fun k => (natLe 2 (min 32767 (8192 + 1024 * k))).map BitVec.toNat

/-- The node before the evaluation of the example: AUTO, or a transfer from MANUAL at 12.500 mA. -/
def evalNode (transfer : Bool) : State :=
  node fun c =>
    let c1 := withTable [(0x1701700, loop7), (0x1701780, gain7)] (withRegs [(loopStat 7, 1), (loopBase 7 + 0x18, qw32To ⟨8500, -2, 1, 0⟩), (0x150004, 15)]
      (withDoms [23, 26, 28, 29] (inMode 4 c)))
    let c2 := modLoop (setPoint c1 0x200025 { ptDef 0 with live := 0x0232CE04, flags := 0 }) 7 fun x => { x with
      iAcc := 524288000, dAcc := 14000000, xPrev := 19665, wasBad := false, wasHold := false, xfer := transfer, uLast := if transfer then 17407 else x.uLast }
    { c2 with evq := [⟨7, true, true⟩] }

/-- The node after loop 7's evaluation. -/
def evalDone (transfer : Bool) : Chip := match exec (.loopEvaluation 7 600) (evalNode transfer) with
  | .next t => t.chip
  | _ => (evalNode transfer).chip

theorem test_loop_evaluation :
    (let x := loopSt (evalDone false) 7; (x.iAcc, x.dAcc, x.uLast, x.xPrev, x.sp)) = (524293376, 14170000, 17682, 19669, 18568)
      ∧ (point (evalDone false) 0x500013).live = 0x0315AD50 := by decide +kernel
theorem test_loop_transfer :
    (let x := loopSt (evalDone true) 7; (x.iAcc, x.uLast)) = (515296204, 17407)
      ∧ (point (evalDone true) 0x500013).live = qw32To ⟨12500, -3, 20, 0⟩ := by decide +kernel

/-- The geometry of the four-drive PARITY Basin of 19_basin_storage. -/
theorem test_basin_geometry :
    memberStrips (2 ^ 33) = 134217727 ∧ logicalBlocks 1 15 (2 ^ 33) = 25769803584 ∧ 25769803584 / unitBlocks - 1 = 98303 - 1
      ∧ blockPorts 1 15 3000000 = ([0, 2], 15625) ∧ memberBlock 1 15 3000000 = 1000016 := by decide +kernel
/-- DLC 13 of 21_can_fd. -/
theorem test_can_length : canLen 6 13 = 32 ∧ canLen 0 13 = 8 := by decide
/-- The published check values of the two CRCs (R157, R974), over the ASCII digits 1 to 9. -/
theorem test_crcs : crc32 ((List.range 9).map fun i => BitVec.ofNat 8 (0x31 + i)) = 0xCBF43926
    ∧ crc16 ((List.range 9).map fun i => BitVec.ofNat 8 (0x31 + i)) = 0x29B1 := by decide +kernel

/-! ## The queue, and the premises of the statements that name no state -/

theorem test_step_takes_the_front : step { node id with pending := [.pinReset, .wakeN] } = exec .pinReset { node id with pending := [.wakeN] } := rfl

/-- A state with a host write and a register write waiting, and what a step of it answers. -/
def busy : State := { node (fun c => hostWrite (setPoint (setReg c 0x30 5) 0x200001 { ptDef 0 with live := 9 }) 64 [7]) with
  pending := [.tableMemoryWrite 0 0x1780000 [1, 2], .regWrite 0 0x30 [some 1]] }
def afterBusy : State := match step busy with
  | .next t => t
  | _ => busy

theorem witness_StepKeepsMemories : ∃ s t : State, step s = .next t ∧ (∀ i ∈ s.pending, wellFormed i = true)
    ∧ Memory.wf zeroByte s.chip.hostMem = true ∧ Memory.wf tblDef s.chip.tables = true ∧ Memory.wf erasedByte s.chip.nvm = true ∧ s.chip.hostMem ≠ [] :=
  ⟨busy, afterBusy, rfl, by decide +kernel, by decide +kernel, by decide +kernel, by decide +kernel, by decide +kernel⟩
theorem witness_StepKeepsRegisterFile : ∃ s t : State, step s = .next t ∧ smWf regDefault s.chip.regs = true ∧ smWf ptDef s.chip.points = true
    ∧ s.chip.regs ≠ [] ∧ s.chip.points ≠ [] :=
  ⟨busy, afterBusy, rfl, by decide +kernel, by decide +kernel, by decide +kernel, by decide +kernel⟩
theorem witness_StepIdlesOnEmptyQueue : ∃ s : State, s.pending = [] := ⟨node id, rfl⟩

/-! ## A superblock reads back -/

theorem oneMember_super : portSuper (node (basinNode (some oneMember))).chip 1 = some oneMember := by
  have hd : bDrive (node (basinNode (some oneMember))).chip 1 = some (drive (2 ^ 24) [(0, superBytes oneMember)]) := by rfl
  have h0 : superIn (smGet zeroBlock (drive (2 ^ 24) [(0, superBytes oneMember)]).data 0) = some oneMember :=
    superIn_superBytes (s := oneMember) (by decide)
  have h8 : superIn (smGet zeroBlock (drive (2 ^ 24) [(0, superBytes oneMember)]).data 8) = none := by
    have : smGet zeroBlock (drive (2 ^ 24) [(0, superBytes oneMember)]).data 8 = zeroBlock 8 := rfl
    rw [this]; decide +kernel
  rw [portSuper, hd, Option.bind_some, driveSuper, h0, h8]
  rfl

/-! ## Witnesses of the hypotheses -/

theorem witness_EncodingRoundsHalfToEven_1 : ∃ (wide : Bool) (x : Rat) (e n : Int) (u q fl : Nat), ((-1 < 2 * (x / pow10 e - n) ∧ 2 * (x / pow10 e - n) < 1) ∨ (n % 2 = 0 ∧ (2 * (x / pow10 e - n) = 1 ∨ 2 * (x / pow10 e - n) = -1))) :=
  ⟨false, (12345 : Rat) / 10, 0, 1234, 3, 0, 0, by decide +kernel⟩

theorem witness_QuantityWordsRoundTrip_1 : ∃ (m e : Int) (u q : Nat), (-2 ^ 19 ≤ m ∧ m < 2 ^ 19) ∧ (-8 ≤ e ∧ e < 8) ∧ (u < 64 ∧ q < 4) :=
  ⟨-5, -8, 63, 2, by decide +kernel⟩

theorem witness_QuantityWordsRoundTrip_2 : ∃ (m e : Int) (u q : Nat), (-2 ^ 47 ≤ m ∧ m < 2 ^ 47) ∧ (-128 ≤ e ∧ e < 128) ∧ (u < 64 ∧ q < 4) :=
  ⟨-2 ^ 47, 127, 63, 3, by decide +kernel⟩

theorem witness_DoorbellIgnored_1 : ∃ (s : State) (fn : Fn) (mem : List (Nat × Byte)) (r : Fin 4) (v : Word) (be : BitVec 4), (be.getLsbD 0 = false ∨ be.getLsbD 1 = false ∨ ringEn s.chip fn.val r.val = false) :=
  ⟨node id, 2, [(64, 5)], 0, 3, 15, by decide +kernel⟩

theorem witness_SaddleSequenceJudged_1 : ∃ (s : State) (h : SaddleHdr) (data : List Byte), (sdlUp s.chip = true ∧ h.crcOk = true ∧ sdlLenOk data = true) ∧ (seqAhead h.seq.toNat s.chip.sdl.last = 0 ∨ 2 ^ 31 ≤ seqAhead h.seq.toNat s.chip.sdl.last) :=
  ⟨node (standbyNode fun x => { x with last := 7 }), hdr 7, [], by decide +kernel⟩

theorem witness_SaddleSequenceJudged_2 : ∃ (s : State) (h : SaddleHdr) (data : List Byte), (sdlUp s.chip = true ∧ h.crcOk = true ∧ sdlLenOk data = true) ∧ (1 < seqAhead h.seq.toNat s.chip.sdl.last ∧ seqAhead h.seq.toNat s.chip.sdl.last < 2 ^ 31) :=
  ⟨node (standbyNode fun x => { x with last := 7 }), hdr 10, [], by decide +kernel⟩

theorem witness_VirtualFunctionIsDenied_1 : ∃ (s : State) (fn : Fn) (off : BitVec 21) (b0 b1 b2 b3 : Option Byte), (fn ≠ 0) ∧ (off.toNat % 4 = 0) ∧ (reachWrite s.chip fn.val off.toNat = false) ∧ (∃ b ∈ [b0, b1, b2, b3], b.isSome = true) :=
  ⟨node id, 3, 0x10020, some 1, none, none, none, by decide +kernel⟩

theorem witness_VirtualFunctionIsDenied_2 : ∃ (s : State) (fn : Fn) (off : BitVec 21), (off.toNat % 4 = 0) ∧ (reachRead s.chip fn.val off.toNat = false) :=
  ⟨node id, 3, 0x1D0010, by decide +kernel⟩

theorem witness_VirtualFunctionIsDenied_3 : ∃ (s : State) (off : BitVec 21) (b0 b1 b2 b3 : Option Byte), (off.toNat % 4 = 0) ∧ (findReg off.toNat = none) ∧ (∃ b ∈ [b0, b1, b2, b3], b.isSome = true) :=
  ⟨node id, 0x10FF0, some 1, none, none, none, by decide +kernel⟩

theorem witness_PowerWritesAndLeaveComplete_3 : ∃ (s : State) (r : LeaveReq), (headReq s.chip = some r) ∧ (fits s.chip r = true) :=
  ⟨node (fun c => addReq (setDom c 16 .waiting) (domReq 16)), domReq 16, by decide +kernel⟩

theorem witness_PowerWritesAndLeaveComplete_4 : ∃ (s : State) (n : Fin 30) (r : LeaveReq), ((s.chip.pwr.reqs.find? fun r => r.dom == n.val && r.cls != 1) = some r) ∧ (s.chip.mode.req = none) :=
  ⟨node (fun c => addReq (setDom c 16 .waiting) (domReq 16)), 16, domReq 16, by decide +kernel⟩

theorem witness_PowerWritesAndLeaveComplete_5 : ∃ (s : State) (n : Fin 30) (r : LeaveReq) (m : Fin 12), ((s.chip.pwr.reqs.find? fun r => r.dom == n.val && r.cls != 1) = some r) ∧ (r.op = .domain n.val) ∧ (s.chip.mode.req = some m.val) ∧ (natBit (forcedOn s.chip m.val) n.val = true) :=
  ⟨node (fun c => modMode (addReq (setDom (inMode 3 c) 1 .waiting) { domReq 1 with cls := 5 }) fun x => { x with req := some 9 }), 1, domReq 1, 9, by decide +kernel⟩

theorem witness_PowerWritesAndLeaveComplete_6 : ∃ (s : State) (n : Fin 30) (x : Surge), ((s.chip.pwr.surges.find? fun y => y.dom == n.val) = some x) ∧ (s.chip.pwr.reqs = []) :=
  ⟨node (fun c => setPwr c fun p => { p with surges := [⟨.pump, 20, 60⟩, ⟨.domain 8, 8, 40⟩] }), 8, ⟨.domain 8, 8, 40⟩, by decide +kernel⟩

theorem witness_DomainsAndRailsComplete_1 : ∃ (s : State) (n : Fin 30), (dom s.chip n.val = .waking) ∧ (((List.range 30).all fun m => !(withDependants m).contains n.val || targetOn s.chip m) = true) ∧ (opWaits s.chip (.domain n.val) = false) :=
  ⟨node (fun c => withRegs [(0x10010, 0x3FFFFFFF)] (setDom (withDoms [26, 28, 29] (inMode 4 c)) 22 .waking)), 22, by decide +kernel⟩

theorem witness_DomainsAndRailsComplete_2 : ∃ (s : State) (m : Fin 4), (dom s.chip (2 + m.val) = .waking) :=
  ⟨node (fun c => setDom (withDoms [26, 27] { inMode 4 c with bsn := { c.bsn with perst := 15 } }) 3 .waking), 1, by decide +kernel⟩

theorem witness_DomainsAndRailsComplete_3 : ∃ (s : State), (dom s.chip 26 = .waking) ∧ (flag s.chip 0x18000 3 = true) :=
  ⟨node (fun c => setDom (inMode 3 c) 26 .waking), by decide +kernel⟩

theorem witness_DomainsAndRailsComplete_4 : ∃ (s : State), (dom s.chip 27 = .waking) :=
  ⟨node (fun c => setDom (dmaNode 1 c) 27 .waking), by decide +kernel⟩

theorem witness_DomainsAndRailsComplete_5 : ∃ (s : State) (n : Fin 30), ((dom s.chip n.val).turning = true) ∧ (dependantsOff s.chip n.val = true) ∧ (offTurn s.chip n.val = true) ∧ (panelQuiet s.chip n.val = true) ∧ (targetOn s.chip n.val = false) ∧ (opWaits s.chip (.domain n.val) = false) :=
  ⟨node (fun c => setDom (withDoms [26, 28, 29] (inMode 3 c)) 20 .turningOff), 20, by decide +kernel⟩

theorem witness_DomainsAndRailsComplete_6 : ∃ (s : State), ((dom s.chip 26).turning = true) ∧ (dependantsOff s.chip 26 = true) ∧ (offTurn s.chip 26 = true) :=
  ⟨node (fun c => setDom (setPoint (inMode 1 c) 0x200005 { ptDef 0 with live := 4 }) 26 .turningOff), by decide +kernel⟩

theorem witness_DomainsAndRailsComplete_7 : ∃ (s : State), ((dom s.chip 28).turning = true) ∧ (dependantsOff s.chip 28 = true) ∧ (offTurn s.chip 28 = true) :=
  ⟨node (fun c => setDom (withTable [(0x1400004, [5])] (inMode 1 c)) 28 .turningOff), by decide +kernel⟩

theorem witness_DomainsAndRailsComplete_8 : ∃ (s : State), ((dom s.chip 22).turning = true) ∧ (dependantsOff s.chip 22 = true) ∧ (offTurn s.chip 22 = true) :=
  ⟨node (fun c => setDom (withRegs [(legStat 3, 2)] (inMode 3 c)) 22 .turningOff), by decide +kernel⟩

theorem witness_DomainsAndRailsComplete_9 : ∃ (s : State) (m : Fin 4), ((dom s.chip (2 + m.val)).turning = true) ∧ (dependantsOff s.chip (2 + m.val) = true) ∧ (offTurn s.chip (2 + m.val) = true) ∧ (bsnServes s.chip = false ∨ natBit (bsnMembers s.chip) m.val = false) :=
  ⟨node (fun c => setDom (setBDrive (inMode 3 c) 1 (some (drive (2 ^ 24) []))) 3 .turningOff), 1, by decide +kernel⟩

theorem witness_DomainsAndRailsComplete_10 : ∃ (s : State) (reached : Fin 258), (flag s.chip 0x10000 0 = true) :=
  ⟨node (fun c => withRegs [(0x10004, 0x6), (0x1D0010, 5), (0x40020, 4)] (withDoms [0, 26] (inMode 3 c))), 9, by decide +kernel⟩

theorem witness_DomainsAndRailsComplete_11 : ∃ (s : State) (rail : Rail) (reached : Fin 258), (railBit rail = 1 ∨ railBit rail = 2 ∨ railBit rail = 3) ∧ (flag s.chip 0x10000 (railBit rail) = true) ∧ (flag s.chip 0x10000 0 = true ∧ aonRuns s.chip = true) :=
  ⟨node (fun c => withRegs [(0x10004, 0x18), (0x1D0010, 5), (0x40020, 4)] (withDoms [0, 26] (inMode 3 c))), .vddIo false true, 0, by decide +kernel⟩

theorem witness_DomainsAndRailsComplete_12 : ∃ (s : State) (rail : Rail) (reached : Fin 258), (railBit rail = 1 ∨ railBit rail = 2 ∨ railBit rail = 3) ∧ (flag s.chip 0x10000 0 = false ∨ aonRuns s.chip = false) :=
  ⟨node (fun c => withRegs [(0x10000, 0xE)] c), .vddCore, 0, by decide +kernel⟩

theorem witness_DomainsAndRailsComplete_13 : ∃ (s : State) (n : Fin 3) (high : Bool) (reached : Fin 258), (flag s.chip 0x10000 (4 + n.val) = true) ∧ (s.chip.mode.up = true) :=
  ⟨node (cellNode 4 20), 1, false, 0, by decide +kernel⟩

theorem witness_DomainsAndRailsComplete_14 : ∃ (s : State) (reached : Fin 258), (flag s.chip 0x10000 7 = true) ∧ (s.chip.mode.up = true) :=
  ⟨node (fun c => withRegs [(legStat 2, 2), (0x10000, 0x1FF)] (legNode c)), 0, by decide +kernel⟩

theorem witness_DomainsAndRailsComplete_15 : ∃ (s : State) (reached : Fin 258), (flag s.chip 0x10000 8 = true) :=
  ⟨node (fun c => withRegs [(0x10000, 0x1FF), (lcdCtl, 1)] (inMode 3 c)), 0, by decide +kernel⟩

theorem witness_DomainsAndRailsComplete_16 : ∃ (s : State) (rail : Rail) (reached : Fin 258), (4 ≤ railBit rail ∧ railBit rail < 8) ∧ (s.chip.mode.up = false) :=
  ⟨State.reset, .vdrv, 0, by decide +kernel⟩

theorem witness_DomainsAndRailsComplete_17 : ∃ (s : State) (rail : Rail) (reached : Fin 258), (flag s.chip 0x10000 (railBit rail) = false) :=
  ⟨node (fun c => withRegs [(0x10000, 1)] c), .vdda, 7, by decide +kernel⟩

theorem witness_DomainsAndRailsComplete_18 : ∃ (s : State) (rail : Rail), (railBit rail ≠ 2) ∧ (railBit rail < 4 ∨ 7 ≤ railBit rail) :=
  ⟨node (fun c => withRegs [(0x10000, 0)] (inMode 3 c)), .vdrv, by decide +kernel⟩

theorem witness_RailAndDomainEventsComplete_1 : ∃ (s : State) (n : Fin 30), (dom s.chip n.val = .waking) ∧ (((List.range 30).all fun m => !(withDependants m).contains n.val || targetOn s.chip m) = true) ∧ (opWaits s.chip (.domain n.val) = false) :=
  ⟨node (fun c => withRegs [(0x10010, 0x3FFFFFFF)] (setDom (withDoms [26, 28, 29] (inMode 4 c)) 24 .waking)), 24, by decide +kernel⟩

theorem witness_RailAndDomainEventsComplete_2 : ∃ (s : State) (n : Fin 30), (dom s.chip n.val ≠ .waking) :=
  ⟨node (fun c => withDoms [26] (inMode 4 c)), 26, by decide +kernel⟩

theorem witness_RailAndDomainEventsComplete_4 : ∃ (s : State) (rail : Rail) (reached : Fin 258), (flag s.chip 0x10000 0 = true ∧ flag s.chip 0x10000 (railBit rail) = true) ∧ (s.chip.mode.up = true) ∧ (railBit rail ≠ 0) ∧ (railBit rail = 8 → vlcdJudged s.chip = true) :=
  ⟨node (fun c => withRegs [(0x10000, 0x1FF)] (inMode 3 c)), .vdrv, 3, by decide +kernel⟩

theorem witness_RailAndDomainEventsComplete_5 : ∃ (s : State) (rail : Rail), (railBit rail ≠ 2) :=
  ⟨node (fun c => withRegs [(0x10000, 0)] (inMode 3 c)), .vfield 1 true, by decide +kernel⟩

theorem witness_RailAndDomainEventsComplete_6 : ∃ (s : State) (high strap : Bool), (high = true ∨ (if s.chip.mode.up = true then flag s.chip 0x10000 12 else strap) = false) :=
  ⟨node (fun c => withRegs [(0x10000, 0)] (inMode 3 c)), false, true, by decide +kernel⟩

theorem witness_ClockCommandsComplete_1 : ∃ (s : State), (s.chip.pwr.onCrystal = true) ∧ (aonRuns s.chip = true) :=
  ⟨node (inMode 3), by decide +kernel⟩

theorem witness_ClockCommandsComplete_2 : ∃ (s : State), (s.chip.pwr.onCrystal = false) ∧ (aonRuns s.chip = true) :=
  ⟨node (fun c => setPwr c fun p => { p with onCrystal := false, aon := true }), by decide +kernel⟩

theorem witness_ClockCommandsComplete_3 : ∃ (s : State), (pllRuns s.chip = true) ∧ (flag s.chip 0x18000 5 = true) :=
  ⟨node (fun c => withRegs [(0x18000, 0x38)] (withDoms [26] c)), by decide +kernel⟩

theorem witness_ClockCommandsComplete_4 : ∃ (s : State), (pllRuns s.chip = true) ∧ (flag s.chip 0x18000 5 = false) :=
  ⟨node (fun c => withRegs [(0x18000, 0x18)] (withDoms [26, 8] c)), by decide +kernel⟩

theorem witness_ClockCommandsComplete_5 : ∃ (s : State), (pllRuns s.chip = true) ∧ (flag s.chip 0x18000 4 = true) ∧ (nodeMode s.chip ≠ mOff ∧ nodeMode s.chip ≠ mHibernate ∧ nodeMode s.chip ≠ mSafeHold) :=
  ⟨node (fun c => withRegs [(0x18000, 0x38)] (withDoms [26] (inMode 3 c))), by decide +kernel⟩

theorem witness_ClockCommandsComplete_6 : ∃ (s : State), (pllRuns s.chip = true) ∧ (flag s.chip 0x18000 3 = true) ∧ (nodeMode s.chip ≠ mOff ∧ nodeMode s.chip ≠ mHibernate ∧ nodeMode s.chip ≠ mSafeHold) :=
  ⟨node (fun c => withRegs [(0x18000, 0x38)] (withDoms [26] (inMode 3 c))), by decide +kernel⟩

theorem witness_ModeCommandsComplete_1 : ∃ (s : State) (m : Fin 12), (reqRefusal s.chip m.val = 0) :=
  ⟨node (inMode 3), 4, by decide +kernel⟩

theorem witness_ModeCommandsComplete_2 : ∃ (s : State) (m : Fin 12), (reqRefusal s.chip m.val ≠ 0) :=
  ⟨node (inMode 4), 0, by decide +kernel⟩

theorem witness_ModeCommandsComplete_3 : ∃ (s : State), (nodeMode s.chip = mSafeHold) ∧ (s.chip.sdl.contact = true) ∧ (sdlEn s.chip = true) ∧ (peerRole s.chip ≠ 3) :=
  ⟨node (fun c => withRegs [(0x1C0000, 1)] (modSdl (inMode 11 c) fun x => { x with contact := true })), by decide +kernel⟩

theorem witness_ModeCommandsComplete_4 : ∃ (s : State) (cause : Fin 7), (cause ≠ 0) ∧ (s.chip.mode.up = true) ∧ (nodeMode s.chip ≠ mOff ∧ nodeMode s.chip ≠ mHibernate ∧ nodeMode s.chip ≠ mSafeHold) :=
  ⟨node (inMode 3), 3, by decide +kernel⟩

theorem witness_ModeCommandsComplete_5 : ∃ (s : State) (cause : Fin 7), (cause ≠ 0) ∧ (s.chip.mode.up = false) :=
  ⟨node (modMode · fun m => { m with up := false }), 3, by decide +kernel⟩

theorem witness_ModeCommandsComplete_6 : ∃ (s : State), (s.chip.mode.up = true) ∧ (nodeMode s.chip = mHibernate ∨ (nodeMode s.chip = mOff ∧ coreRails s.chip = true ∧ s.chip.mode.frames = false)) :=
  ⟨node (inMode 1), by decide +kernel⟩

theorem witness_ModeCommandsComplete_7 : ∃ (s : State), (s.chip.mode.up = true) ∧ (nodeMode s.chip = mSentry) :=
  ⟨node (fun c => withRegs [(0x100, 0x32)] (inMode 2 c)), by decide +kernel⟩

theorem witness_ResetsComplete_2 : ∃ (s : State) (v : Word) (be : BitVec 4), (v.toNat % 65536 = 0x4E52) ∧ (be.getLsbD 0 = true ∧ be.getLsbD 1 = true) :=
  ⟨node (fun c => withRegs [(0x10004, 0x6), (0x1D0010, 5), (0x40020, 4)] (withDoms [0, 26] (inMode 3 c))), 0x4E52, 7, by decide +kernel⟩

theorem witness_ResetsComplete_3 : ∃ (s : State) (v : Word) (be : BitVec 4), (v.toNat % 65536 ≠ 0x4E52 ∨ be.getLsbD 0 = false ∨ be.getLsbD 1 = false) :=
  ⟨node (inMode 3), 0x4E51, 15, by decide +kernel⟩

theorem witness_ResetsComplete_4 : ∃ (s : State) (fn : Fn) (v : Word) (be : BitVec 4), (fn ≠ 0) :=
  ⟨node (inMode 3), 2, 0x4E52, 15, by decide +kernel⟩

theorem witness_ResetsComplete_5 : ∃ (s : State), (dom s.chip 0 = .waiting) ∧ (s.chip.pwr.reqs = [domReq 0]) :=
  ⟨node (fun c => addReq (setDom (inMode 3 c) 0 .waiting) (domReq 0)), by decide +kernel⟩

theorem witness_StartUpCompletes_1 : ∃ (s : State) (ioLevel : Bool), (s.chip.mode.up = false) ∧ (s.chip.strapTest = false) ∧ (coreRails s.chip = true ∧ ioPasses s.chip.pwr.ioHigh ioLevel = true) ∧ (s.chip.mode.startFault = 0) ∧ (s.chip.pwr.reqs = []) :=
  ⟨State.reset, true, by decide +kernel⟩

theorem witness_StartUpCompletes_2 : ∃ (s : State) (pllOk sramOk gateOk ioLevel : Bool), (s.chip.mode.up = false) ∧ (s.chip.strapTest = false) ∧ (coreRails s.chip = true ∧ ioPasses s.chip.pwr.ioHigh ioLevel = true) :=
  ⟨State.reset, true, true, true, false, by decide +kernel⟩

theorem witness_StartUpCompletes_3 : ∃ (s : State) (gateOk ioLevel : Bool), (s.chip.mode.up = false) ∧ (s.chip.strapTest = false) ∧ (coreRails s.chip = true ∧ ioPasses s.chip.pwr.ioHigh ioLevel = true) ∧ (s.chip.mode.startFault = 0) :=
  ⟨State.reset, true, false, by decide +kernel⟩

theorem witness_StartUpCompletes_4 : ∃ (s : State) (refOk pllOk sramOk gateOk ioLevel strapTest : Bool), (s.chip.mode.up = true ∨ s.chip.strapTest = true ∨ coreRails s.chip = false ∨ ioPasses s.chip.pwr.ioHigh ioLevel = false) :=
  ⟨node (inMode 3), true, true, true, true, false, false, by decide +kernel⟩

theorem witness_PointAndLoopCommandsComplete_1 : ∃ (s : State) (fn : Fn) (e : Entry), (accepts s.chip fn.val 0x00 e = true) :=
  ⟨node (cmdNode 3), 0, ent [], by decide +kernel⟩

theorem witness_PointAndLoopCommandsComplete_2 : ∃ (s : State) (fn : Fn) (e : Entry) (p : Nat), (accepts s.chip fn.val 0x01 e = true) ∧ (p = (entryCmd s.chip fn.val 0x01 e).point) ∧ (pClass p ≠ 8) ∧ (wordStatus (entryCmd s.chip fn.val 0x01 e) ((pointUnit (fetched s.chip fn.val) p).map Prod.fst) = none) :=
  ⟨node (cmdNode 3), 0, ent [3, 0, 0x10, 0, 0, 0x10, 0, 0], 0x100003, by decide +kernel⟩

theorem witness_PointAndLoopCommandsComplete_3 : ∃ (s : State) (fn : Fn) (e : Entry) (p : Nat), (accepts s.chip fn.val 0x02 e = true) ∧ (p = (entryCmd s.chip fn.val 0x02 e).point) ∧ (pClass p ≠ 8) ∧ ((point s.chip p).subst = true) :=
  ⟨node (fun c => cmdNode 3 (setPoint c 0x100003 { ptDef 0 with subst := true, live := 0x1004, flags := 4 })), 0, ent [3, 0, 0x10], 0x100003, by decide +kernel⟩

theorem witness_PointAndLoopCommandsComplete_4 : ∃ (s : State) (fn : Fn) (e : Entry) (l w : Nat), (accepts s.chip fn.val 0x03 e = true) ∧ (l = pIndex (entryCmd s.chip fn.val 0x03 e).point) ∧ (w = (entryCmd s.chip fn.val 0x03 e).at_ 0x0C 4) ∧ (spSrc s.chip l = 1) ∧ (wordStatus (entryCmd s.chip fn.val 0x03 e) (some (qw32Of (spConst s.chip l)).unit) = none) :=
  ⟨node (fun c => cmdNode 3 (withTable [(0x1701000 + 5 * 0x100, [1, 1])] c)), 0, ent [5, 0, 0x80, 0, 0, 0x10, 0, 0], 5, 0x1000, by decide +kernel⟩

theorem witness_PointAndLoopCommandsComplete_5 : ∃ (s : State) (fn : Fn) (e : Entry) (l m : Nat), (accepts s.chip fn.val 0x04 e = true) ∧ (l = pIndex (entryCmd s.chip fn.val 0x04 e).point) ∧ (m = (entryCmd s.chip fn.val 0x04 e).at_ 0x0B 1) ∧ (setLoopModeStatus s.chip l m = (stSuccess, 0)) :=
  ⟨node (fun c => cmdNode 4 (withTable [(0x1701000 + 5 * 0x100, [1, 1])] c)), 0, ent [5, 0, 0x80, 1], 5, 1, by decide +kernel⟩

theorem witness_PointAndLoopCommandsComplete_6 : ∃ (s : State) (fn : Fn) (e : Entry) (l w : Nat), (accepts s.chip fn.val 0x05 e = true) ∧ (l = pIndex (entryCmd s.chip fn.val 0x05 e).point) ∧ (w = (entryCmd s.chip fn.val 0x05 e).at_ 0x0C 4) ∧ (loopAuto s.chip l = false) ∧ (wordStatus (entryCmd s.chip fn.val 0x05 e) (some (outUnit s.chip l)) = none) :=
  ⟨node (fun c => cmdNode 3 (withTable [(0x1701000 + 5 * 0x100, [1, 1])] c)), 0, ent [5, 0, 0x80, 0, 0, 0x10, 0, 0], 5, 0x1000, by decide +kernel⟩

theorem witness_PointAndLoopCommandsComplete_7 : ∃ (s : State) (fn : Fn) (e : Entry) (j : Nat), (accepts s.chip fn.val 0x1A e = true) ∧ (j = pIndex (entryCmd s.chip fn.val 0x1A e).point) ∧ (tripCode s.chip j = 2) :=
  ⟨node (fun c => cmdNode 3 (setTripCode c 3 2)), 0, ent [3, 0, 0x70], 3, by decide +kernel⟩

theorem witness_AlarmCallAndValueCommandsComplete_1 : ∃ (s : State) (fn : Fn) (e : Entry) (k : HostCmd), (accepts s.chip fn.val 0x08 e = true) ∧ (k = entryCmd s.chip fn.val 0x08 e) ∧ (almStatus s.chip 0 k.point = stSuccess) :=
  ⟨node (fun c => cmdNode 3 (withTable [(0x1820000, [1])] c)), 0, ent [5, 0, 0xA0], entryCmd Chip.reset 0 8 (ent [5, 0, 0xA0]), by decide +kernel⟩

theorem witness_AlarmCallAndValueCommandsComplete_2 : ∃ (s : State) (fn : Fn) (e : Entry) (k : HostCmd), (accepts s.chip fn.val 0x09 e = true) ∧ (k = entryCmd s.chip fn.val 0x09 e) ∧ (almStatus s.chip 1 k.point = stSuccess) :=
  ⟨node (fun c => cmdNode 3 (withTable [(0x1820000, [5])] c)), 0, ent [0, 0, 0x90, 0, 60], entryCmd Chip.reset 0 9 (ent [0, 0, 0x90, 0, 60]), by decide +kernel⟩

theorem witness_AlarmCallAndValueCommandsComplete_3 : ∃ (s : State) (fn : Fn) (e : Entry) (k : HostCmd), (accepts s.chip fn.val 0x0A e = true) ∧ (k = entryCmd s.chip fn.val 0x0A e) ∧ (almStatus s.chip 2 k.point = stSuccess) :=
  ⟨node (fun c => cmdNode 3 (withTable [(0x1820000, [5])] c)), 0, ent [0, 0, 0x90], entryCmd Chip.reset 0 10 (ent [0, 0, 0x90]), by decide +kernel⟩

theorem witness_AlarmCallAndValueCommandsComplete_4 : ∃ (s : State) (fn : Fn) (e : Entry) (k : HostCmd), (accepts s.chip fn.val 0x0B e = true) ∧ (k = entryCmd s.chip fn.val 0x0B e) ∧ (almStatus s.chip 3 k.point = stSuccess) :=
  ⟨node (fun c => cmdNode 3 (withTable [(0x1820000, [5])] c)), 0, ent [0, 0, 0x90, 1], entryCmd Chip.reset 0 11 (ent [0, 0, 0x90, 1]), by decide +kernel⟩

theorem witness_AlarmCallAndValueCommandsComplete_5 : ∃ (s : State) (fn : Fn) (e : Entry) (k : HostCmd), (accepts s.chip fn.val 0x0C e = true) ∧ (k = entryCmd s.chip fn.val 0x0C e) ∧ (callAckStatus s.chip (k.at_ 0x0B 1) = stSuccess) :=
  ⟨node (fun c => cmdNode 3 (withTable [(0x1C40040, [1])] c)), 0, ent [0, 0, 0xB0, 0], entryCmd Chip.reset 0 12 (ent [0, 0, 0xB0, 0]), by decide +kernel⟩

theorem witness_AlarmCallAndValueCommandsComplete_6 : ∃ (s : State) (fn : Fn) (e : Entry) (k : HostCmd), (accepts s.chip fn.val 0x10 e = true) ∧ (k = entryCmd s.chip fn.val 0x10 e) :=
  ⟨node (cmdNode 3), 0, ent [2, 0, 5, 0, 1, 0, 0, 0, 3, 0, 0x10], entryCmd Chip.reset 0 16 (ent [2, 0, 5, 0, 1, 0, 0, 0, 3, 0, 0x10]), by decide +kernel⟩

theorem witness_AlarmCallAndValueCommandsComplete_7 : ∃ (s : State) (fn : Fn) (e : Entry) (k : HostCmd), (accepts s.chip fn.val 0x11 e = true) ∧ (k = entryCmd s.chip fn.val 0x11 e) :=
  ⟨node (cmdNode 3), 0, ent [0, 0, 0, 0, 1, 0, 0, 0, 3, 0, 0x10], entryCmd Chip.reset 0 17 (ent [0, 0, 0, 0, 1, 0, 0, 0, 3, 0, 0x10]), by decide +kernel⟩

theorem witness_SwapAndSendingCommandsComplete_1 : ∃ (s : State) (fn : Fn) (e : Entry) (k : HostCmd) (d : TableDesc), (accepts s.chip fn.val 0x18 e = true) ∧ (k = entryCmd s.chip fn.val 0x18 e) ∧ (tableDesc (k.at_ 8 1) = some d) ∧ (flag s.chip d.stat 1 = false) ∧ (swapError (fetched s.chip fn.val) d.code = none) :=
  ⟨node (cmdNode 3), 0, ent [10], entryCmd Chip.reset 0 0x18 (ent [10]), ⟨10, 0x1C70000, 0x8000, 0x4000, 0x1D800C⟩, by decide +kernel⟩

theorem witness_SwapAndSendingCommandsComplete_2 : ∃ (s : State) (fn : Fn) (e : Entry) (k : HostCmd) (ch : Nat), (accepts s.chip fn.val 0x1C e = true) ∧ (k = entryCmd s.chip fn.val 0x1C e) ∧ (ch = pIndex k.point) ∧ (fskStatus s.chip ch = stSuccess) :=
  ⟨node (fun c => fskNode c), 0, ent [3, 0, 0x50, 2, 0xAA, 0x55], entryCmd Chip.reset 0 0x1C (ent [3, 0, 0x50, 2, 0xAA, 0x55]), 3, by decide +kernel⟩

theorem witness_SwapAndSendingCommandsComplete_3 : ∃ (s : State) (fn : Fn) (e : Entry) (k : HostCmd) (f : CanCmd), (accepts s.chip fn.val 0x1D e = true) ∧ (k = entryCmd s.chip fn.val 0x1D e) ∧ (f = canCmdOf k.ops) ∧ (canSendStatus s.chip fn.val k.ops false = stSuccess) :=
  ⟨node (fun c => canNode (cmdNode 3 c)), 0, ent [0, 1, 0, 2, 5, 0, 0, 0, 0xAA, 0x55], entryCmd Chip.reset 0 0x1D (ent [0, 1, 0, 2, 5, 0, 0, 0, 0xAA, 0x55]), canCmdOf (ent [0, 1, 0, 2, 5, 0, 0, 0, 0xAA, 0x55]).operands, by decide +kernel⟩

theorem witness_SwapAndSendingCommandsComplete_4 : ∃ (s : State) (fn : Fn) (e : Entry) (a : Nat × Nat × Nat × List Byte), (mayBegin s.chip fn.val = true) ∧ ((fnSt s.chip fn.val).asm = some a) ∧ (cmdEntryMore e = true) ∧ (cmdEntryBad e = false) :=
  ⟨node (fun c => modFn (cmdNode 3 c) 0 fun f => { f with asm := some (4, 7, 0x1C, []) }), 0, { ent [1, 2] with flags := 1 }, (4, 7, 0x1C, []), by decide +kernel⟩

theorem witness_SwapAndSendingCommandsComplete_5 : ∃ (s : State) (fn : Fn) (e : Entry) (a : Nat × Nat × Nat × List Byte) (k : HostCmd), (mayBegin s.chip fn.val = true) ∧ ((fnSt s.chip fn.val).asm = some a) ∧ (cmdEntryMore e = false) ∧ (cmdEntryBad e = false) ∧ (a.2.2.1 = 0x1C) ∧ (k = ⟨fn.val, a.1, a.2.1, 0x1C, false, a.2.2.2 ++ cmdEntryOps e, false⟩) ∧ ((fnSt s.chip fn.val).work.headD 0 = 0) ∧ (earlyStatus (fetched s.chip fn.val) k = none) ∧ (fskStatus s.chip (pIndex k.point) = stSuccess) :=
  ⟨node (fun c => modFn (fskNode c) 0 fun f => { f with asm := some (4, 7, 0x1C, (ent [3, 0, 0x50, 60]).operands) }), 0, ent [1, 2], (4, 7, 0x1C, (ent [3, 0, 0x50, 60]).operands), ⟨0, 4, 7, 0x1C, false, (ent [3, 0, 0x50, 60]).operands ++ (ent [1, 2]).operands, false⟩, by decide +kernel⟩

theorem witness_KeeperAndTuningCommandsComplete_1 : ∃ (s : State) (fn : Fn) (e : Entry), (accepts s.chip fn.val 0x20 e = true) :=
  ⟨node (cmdNode 3), 0, ent [1, 2, 3, 4], by decide +kernel⟩

theorem witness_KeeperAndTuningCommandsComplete_2 : ∃ (s : State) (fn : Fn) (e : Entry), (accepts s.chip fn.val 0x21 e = true) ∧ (clearConfirmed s.chip ((entryCmd s.chip fn.val 0x21 e).at_ 8 4) = true) :=
  ⟨node (fun c => let c1 := setFrameNum (setArmed (withRegs [(0x120, 1)] (cmdNode 3 c)) (some (100, 5))) 6; { c1 with img := { c1.img with clearCode := 0x04030201 } }), 0, ent [1, 2, 3, 4], by decide +kernel⟩

theorem witness_KeeperAndTuningCommandsComplete_3 : ∃ (s : State) (fn : Fn) (e : Entry) (k : HostCmd), (accepts s.chip fn.val 0x24 e = true) ∧ (k = entryCmd s.chip fn.val 0x24 e) ∧ (tuneStatus s.chip (pIndex k.point) (tuneCfg k) = (stSuccess, 0)) :=
  ⟨node (fun c => cmdNode 4 (withRegs [(loopStat 5, 1)] (withDoms [23] (withTable [(0x1701000 + 5 * 0x100, [1, 1])] c)))), 0, ent ([5, 0, 0x80, 0, 1] ++ List.replicate 25 0 ++ [1, 0, 4, 0, 0, 0]), entryCmd Chip.reset 0 0x24 (ent ([5, 0, 0x80, 0, 1] ++ List.replicate 25 0 ++ [1, 0, 4, 0, 0, 0])), by decide +kernel⟩

theorem witness_KeeperAndTuningCommandsComplete_4 : ∃ (s : State) (fn : Fn) (e : Entry) (l : Nat), (accepts s.chip fn.val 0x25 e = true) ∧ (l = pIndex (entryCmd s.chip fn.val 0x25 e).point) :=
  ⟨node (fun c => cmdNode 4 (withRegs [(tuneBase 1, 0x502)] c)), 0, ent [5, 0, 0x80], 5, by decide +kernel⟩

theorem witness_KeeperAndTuningCommandsComplete_5 : ∃ (s : State) (fn : Fn) (e : Entry), (accepts s.chip fn.val 0x30 e = true) ∧ (sdlRole s.chip = 2 ∧ s.chip.sdl.contact = true ∧ peerRole s.chip = 1) ∧ (s.chip.sdl.sync ≠ 1 ∧ s.chip.sdl.sync ≠ 2) :=
  ⟨node (fun c => modSdl (withRegs [(0x1C0000, 1)] (cmdNode 5 c)) fun s => { s with contact := true, heard := true, peer := 2 }), 0, ent [], by decide +kernel⟩

theorem witness_KeeperAndTuningCommandsComplete_6 : ∃ (s : State) (fn : Fn) (e : Entry), (accepts s.chip fn.val 0x31 e = true) ∧ (switchbackStatus s.chip = none) :=
  ⟨node (fun c => modSdl (withRegs [(0x1C0000, 1)] (cmdNode 4 c)) fun s => { s with contact := true, heard := true, peer := 0x10 }), 0, ent [], by decide +kernel⟩

theorem witness_RingCommandsComplete_1 : ∃ (s : State) (fn page : Fn) (r : Fin 4) (v : Word), (fn = 0 ∨ fn = page) ∧ (ringEn s.chip page.val r.val = false) ∧ (natBit v.toNat 8 = true) ∧ (log2Ok r.val (v.toNat % 16) = true) :=
  ⟨node (fun c => withRegs [(0x2110C, 0x50005)] c), 0, 0, 0, 0x00320304, by decide +kernel⟩

theorem witness_RingCommandsComplete_2 : ∃ (s : State) (fn page : Fn) (r : Fin 4) (v : Word), (fn = 0 ∨ fn = page) ∧ (ringEn s.chip page.val r.val = false) ∧ (natBit v.toNat 8 = true) ∧ (log2Ok r.val (v.toNat % 16) = false) :=
  ⟨node id, 0, 0, 1, 0x10D, by decide +kernel⟩

theorem witness_RingCommandsComplete_3 : ∃ (s : State) (fn page : Fn) (r : Fin 4) (v : Word) (be : BitVec 4), (fn = 0 ∨ fn = page) ∧ (ringEn s.chip page.val r.val = true) ∧ (be.getLsbD 1 = true) ∧ (natBit v.toNat 8 = false) :=
  ⟨node (fun c => modFn (withRegs [(0x22188, 0x104)] c) 1 fun f => { f with hold := [⟨3, 0x100, 1, []⟩] }), 1, 1, 2, 0, 2, by decide +kernel⟩

theorem witness_RingCommandsComplete_4 : ∃ (s : State) (fn : Fn) (mem : List (Nat × Byte)) (r : Fin 4) (v : Word) (be : BitVec 4) (d a : Nat), (be.getLsbD 0 = true ∧ be.getLsbD 1 = true) ∧ (ringEn s.chip fn.val r.val = true) ∧ (d = (v.toNat % 65536 + 65536 - hostIdx s.chip fn.val r.val) % 65536) ∧ (0 < d ∧ d < 32768) ∧ (a = (v.toNat % 65536 + 65536 - (if r = 0 then nodeIdx s.chip fn.val 0 else hostIdx s.chip fn.val r.val)) % 65536) ∧ (a ≤ (if r = 0 then ringSize s.chip fn.val 0 else ringOcc s.chip fn.val r.val)) :=
  ⟨node (fun c => withRegs [(0x21108, 0x104)] c), 0, [(0x40, 7)], 0, 3, 3, 3, 3, by decide +kernel⟩

theorem witness_RingCommandsComplete_5 : ∃ (s : State) (fn : Fn) (vec : Fin 4), (vec.val < 3) ∧ (flag s.chip (ringBase fn.val (vec.val + 1) + 8) 9 = true) ∧ (natBit (fnSt s.chip fn.val).unsig vec.val = true) :=
  ⟨node (fun c => modFn (withRegs [(0x21188, 0x304)] c) 0 fun f => { f with unsig := 3 }), 0, 1, by decide +kernel⟩

theorem witness_HostResetsComplete_3 : ∃ (s : State) (speed width : Fin 5), (speed ≠ 0) ∧ (width = 1 ∨ width = 2 ∨ width = 4) :=
  ⟨node (fun c => withRegs [(0x1A0004, 5000)] c), 2, 4, by decide +kernel⟩

theorem witness_HostResetsComplete_4 : ∃ (s : State) (speed width : Fin 5), (speed = 0 ∨ width = 0 ∨ width = 3) :=
  ⟨node (fun c => withRegs [(0x20000, 0x13)] c), 0, 0, by decide +kernel⟩

theorem witness_RegisterAccessesComplete_1 : ∃ (s : State) (fn page : Fn) (r : Fin 4) (b0 b1 b2 b3 : Option Byte), (fn = 0 ∨ fn = page) :=
  ⟨node id, 2, 2, 3, some 5, none, some 0xAA, none, by decide +kernel⟩

theorem witness_RegisterAccessesComplete_2 : ∃ (s : State) (fn : Fn) (off : BitVec 21) (len : Nat), (len = 0 ∨ 8 < off.toNat % 8 + len) :=
  ⟨node id, 1, 0x106, 4, by decide +kernel⟩

theorem witness_RegisterAccessesComplete_3 : ∃ (s : State) (fn : Fn) (off : BitVec 21), (off.toNat % 4 = 0) ∧ (reachRead s.chip fn.val off.toNat = true) ∧ (isLower off.toNat = true) :=
  ⟨node (fun c => withRegs [(0x4000C, 7)] c), 0, 0x40008, by decide +kernel⟩

theorem witness_RegisterAccessesComplete_4 : ∃ (s : State) (fn : Fn) (off : BitVec 21) (w : Word), (off.toNat % 4 = 0) ∧ (off.toNat ≠ 0x1D0008) ∧ (reachRead s.chip fn.val off.toNat = true) ∧ (isLower off.toNat = false) ∧ (smGet latchDef (fnSt s.chip fn.val).latch off.toNat = some w) :=
  ⟨node (fun c => modFn c 0 fun f => { f with latch := smPut latchDef f.latch 0x4000C (some 9) }), 0, 0x4000C, 9, by decide +kernel⟩

theorem witness_RegisterAccessesComplete_5 : ∃ (s : State), (rtcOn s.chip = true) :=
  ⟨node (withDoms [0]), by decide +kernel⟩

theorem witness_MemoryWritesComplete_1 : ∃ (s : State) (fn : Fn) (off : BitVec 26) (data : List Byte), (((List.range data.length).all fun i => byteFateFn s.chip fn.val (off.toNat + i) == .store) = true) :=
  ⟨node id, 0, 0x1780000, [1, 2, 3], by decide +kernel⟩

theorem witness_MemoryWritesComplete_2 : ∃ (s : State) (off : BitVec 26) (data : List Byte), (((List.range data.length).all fun i => byteFateFn s.chip 0 (off.toNat + i) == .nvm && (off.toNat + i) % 256 != 255) = true) :=
  ⟨node id, 0x801010, [1, 2, 3], by decide +kernel⟩

theorem witness_MemoryWritesComplete_3 : ∃ (s : State) (off : BitVec 26) (data : List Byte) (x : Nat), (((List.range data.length).all fun i => byteFateFn s.chip 0 (off.toNat + i) == .nvm) = true) ∧ (off.toNat % 256 + data.length = 256) ∧ (x = off.toNat - 0x800000) :=
  ⟨node id, 0x8010FE, [1, 2], 0x10FE, by decide +kernel⟩

theorem witness_MemoryWritesComplete_4 : ∃ (s : State) (fn : Fn) (off : BitVec 26) (data : List Byte), (data ≠ []) ∧ (off.toNat + data.length ≤ 0x800000) :=
  ⟨node id, 0, 0x20, [1, 2, 3, 4], by decide +kernel⟩

theorem witness_MemoryWritesComplete_5 : ∃ (s : State) (off : BitVec 26) (data : List Byte), (domOn s.chip 19 = true) ∧ (lcdMem ≤ off.toNat ∧ off.toNat + data.length ≤ lcdMem + 0x2000) ∧ (((List.range data.length).all fun i => (tileAtByte s.chip (off.toNat - lcdMem + i)).isNone) = true) :=
  ⟨node (withDoms [19]), 0x1C60100, [1, 2, 3], by decide +kernel⟩

theorem witness_MemoryWritesComplete_6 : ∃ (s : State) (off : BitVec 26) (b : Byte) (k : Nat), (domOn s.chip 19 = true) ∧ (lcdMem ≤ off.toNat ∧ off.toNat < lcdMem + 0x2000) ∧ (tileAtByte s.chip (off.toNat - lcdMem) = some k) :=
  ⟨node (fun c => withDoms [19] { c with lcd := { c.lcd with tiles := [(0, (0x1000000, 0))] } }), 0x1C60000, 5, 0, by decide +kernel⟩

theorem witness_MemoryWritesComplete_7 : ∃ (s : State) (addr : BitVec 12), (flag s.chip 0x1E0004 0 = true) ∧ (domOn s.chip 7 = true) ∧ (starting s.chip = false) :=
  ⟨node (fun c => withRegs [(0x1E0004, 1)] (withDoms [7] c)), 2, by decide +kernel⟩

theorem witness_MemoryWritesComplete_8 : ∃ (s : State) (addr : BitVec 12), (flag s.chip 0x1E0004 0 = false ∨ domOn s.chip 7 = false ∨ starting s.chip = true) :=
  ⟨node id, 2, by decide +kernel⟩

theorem witness_QueuesAndBreachesComplete_1 : ∃ (s : State) (fn : Fn) (room : Nat), (fnEnabled s.chip fn.val = true) ∧ (ringEn s.chip fn.val 3 = true) ∧ ((fnSt s.chip fn.val).recLost = 0) ∧ ((fnSt s.chip fn.val).recQ.length ≤ 4096) ∧ (room = ringSize s.chip fn.val 3 - ringOcc s.chip fn.val 3) :=
  ⟨node (fun c => modFn (withRegs [(0x211C8, 0x104), (0x211CC, 0xE)] c) 0 fun f => { f with recQ := [⟨1, 0, [1]⟩, ⟨1, 1, [2]⟩, ⟨1, 2, [3]⟩] }), 0, 2, by decide +kernel⟩

theorem witness_QueuesAndBreachesComplete_2 : ∃ (s : State) (fn : Fn) (room : Nat), (fnEnabled s.chip fn.val = true) ∧ (ringEn s.chip fn.val 2 = true) ∧ ((fnSt s.chip fn.val).gapN = 0) ∧ ((fnSt s.chip fn.val).hold.length ≤ 1024 ∧ inSentry s.chip 28 = false) ∧ (room = ringSize s.chip fn.val 2 - ringOcc s.chip fn.val 2) ∧ (ringOcc s.chip fn.val 2 + (fnSt s.chip fn.val).hold.length ≤ fld s.chip (ringBase fn.val 2 + 0x10) 0 16) :=
  ⟨node (fun c => modFn (withRegs [(0x21188, 0x104), (0x2118C, 0xE)] c) 0 fun f => { f with hold := [⟨3, 0x100, 1, [3]⟩, ⟨3, 0x100, 1, [3]⟩, ⟨3, 0x100, 1, [3]⟩] }), 0, 2, by decide +kernel⟩

theorem witness_QueuesAndBreachesComplete_3 : ∃ (s : State) (p code : Fin 8), (code ≠ 0) ∧ (smGet breachDef s.chip.breach (8 * p.val + code.val) = none) ∧ (rateCode code.val = true ∨ breached s.chip p.val code.val = true) :=
  ⟨node id, 2, 3, by decide +kernel⟩

theorem witness_QueuesAndBreachesComplete_4 : ∃ (s : State) (p code : Fin 8) (us ot : Nat), (smGet breachDef s.chip.breach (8 * p.val + code.val) = some ot) ∧ (rateCode code.val = true ∨ breached s.chip p.val code.val = false) :=
  ⟨node (fun c => openBreach c 2 5), 2, 5, 50, 0, by decide +kernel⟩

theorem witness_BoundarySlotAndTickComplete_1 : ∃ (s : State), (boundaryComes s.chip = true) ∧ (s.chip.mode.frames = true ∧ s.chip.mode.firstFrame = false) :=
  ⟨node (fun c => setFrameNum (inMode 3 c) (2 ^ 32 - 1)), by decide +kernel⟩

theorem witness_BoundarySlotAndTickComplete_2 : ∃ (s : State) (ch : Fin 128), (boundaryComes s.chip = true) ∧ (s.chip.mode.frames = true ∧ s.chip.mode.firstFrame = false) ∧ (nodeMode s.chip = mScan ∧ s.chip.mode.auto = none ∧ s.chip.mode.req = none) ∧ ((tableDescs.all fun d => !swapPending s.chip d.code) = true) ∧ (s.chip.sdl.swaps = [] ∧ s.chip.img.apply = none) ∧ ((point s.chip (anaPt ch.val)).raw = false) :=
  ⟨node (fun c => setPoint (inMode 3 c) (anaPt 5) { ptDef 0 with live := 0x1004, flags := 0x40 }), 5, by decide +kernel⟩

theorem witness_BoundarySlotAndTickComplete_3 : ∃ (s : State) (k : Fn) (work : List Nat) (cmd : HostCmd) (m : Nat) (x : Chip), (s.chip.mode.frames = true ∧ s.chip.mode.firstFrame = false) ∧ (tablesRun s.chip = false ∨ slotEntries s.chip k.val = []) ∧ ((if k = 0 then bndCycles else 0) + cmdCycles ≤ slotLen s.chip k.val) ∧ (x = inItsSlot s.chip k.val work) ∧ (mayBegin x k.val = true) ∧ (work.headD 0 = 0) ∧ ((fnSt s.chip k.val).asm = none) ∧ (headCommand s.chip k.val = some (cmd, m)) ∧ (ringOcc s.chip k.val 0 = m) :=
  ⟨node (fun c => withRegs [(0x2110C, 0x10000)] (cmdNode 3 c)), 0, [0, 7], ⟨0, 0, 0, 0, false, List.replicate 56 0, false⟩, 1, inItsSlot (node (fun c => withRegs [(0x2110C, 0x10000)] (cmdNode 3 c))).chip 0 [0, 7], by decide +kernel⟩

theorem witness_BoundarySlotAndTickComplete_4 : ∃ (s : State) (k : Fn) (work : List Nat) (cmd : HostCmd) (m w : Nat) (x : Chip), (s.chip.mode.frames = true ∧ s.chip.mode.firstFrame = false) ∧ (tablesRun s.chip = false ∨ slotEntries s.chip k.val = []) ∧ ((if k = 0 then bndCycles else 0) + cmdCycles ≤ slotLen s.chip k.val) ∧ (x = inItsSlot s.chip k.val work) ∧ (mayBegin x k.val = true) ∧ (work.headD 0 = w ∧ 0 < w) ∧ ((fnSt s.chip k.val).asm = none) ∧ (headCommand s.chip k.val = some (cmd, m)) :=
  ⟨node (fun c => withRegs [(0x2110C, 0x10000)] (cmdNode 3 c)), 0, [9], ⟨0, 0, 0, 0, false, List.replicate 56 0, false⟩, 1, 9, inItsSlot (node (fun c => withRegs [(0x2110C, 0x10000)] (cmdNode 3 c))).chip 0 [9], by decide +kernel⟩

theorem witness_BoundarySlotAndTickComplete_5 : ∃ (s : State) (k : Fn) (work : List Nat) (y : Carried) (n : Nat), (s.chip.mode.frames = true ∧ s.chip.mode.firstFrame = false) ∧ (tablesRun s.chip = false ∨ slotEntries s.chip k.val = []) ∧ ((fnSt s.chip k.val).carry = some y) ∧ (n = min ((slotLen s.chip k.val - (if k = 0 then bndCycles else 0)) / cmdCycles) (fnQuota s.chip k.val - (fnSt s.chip k.val).used)) ∧ (n < y.left) :=
  ⟨node (fun c => modFn (withRegs [(0x2110C, 0x10000)] (cmdNode 3 c)) 0 fun f => { f with carry := some ⟨⟨0, 0, 0, 0, false, List.replicate 56 0, false⟩, 7000⟩ }), 0, [], ⟨⟨0, 0, 0, 0, false, List.replicate 56 0, false⟩, 7000⟩, (fnQuota (withRegs [(0x2110C, 0x10000)] (cmdNode 3 State.reset.chip)) 0), by decide +kernel⟩

theorem witness_BoundarySlotAndTickComplete_6 : ∃ (s : State) (k : Fn) (work : List Nat) (i : Nat), (s.chip.mode.frames = true ∧ s.chip.mode.firstFrame = false) ∧ (tablesRun s.chip = true) ∧ (slotEntries s.chip k.val = [i]) ∧ ((if k = 0 then bndCycles else 0) + opCost (entOp s.chip i) ≤ slotLen s.chip k.val) ∧ (scanBad s.chip i = false) ∧ ((fnSt s.chip k.val).carry = none ∧ ringOcc s.chip k.val 0 = 0) :=
  ⟨node (fun c => withTable [(0x1500004, [1]), (0x1500200, [5])] (cmdNode 3 c)), 0, [], 0, by decide +kernel⟩

theorem witness_BoundarySlotAndTickComplete_7 : ∃ (s : State), (s.chip.mode.up = true) ∧ (domOn s.chip 26 = true) :=
  ⟨node (fun c => withDoms [26] (inMode 3 c)), by decide +kernel⟩

theorem witness_ScanEntriesComplete_1 : ∃ (s : State) (i : Nat), (inForce s.chip i 0 = true) :=
  ⟨node (fun c => withTable [(0x1500004, [1]), (0x1500200, [0])] (cmdNode 3 c)), 0, by decide +kernel⟩

theorem witness_ScanEntriesComplete_2 : ∃ (s : State) (i op : Nat) (x : Exact), (inForce s.chip i op = false) :=
  ⟨node (fun c => withTable [(0x1500004, [1]), (0x1500200, [0])] (cmdNode 3 c)), 0, 7, ⟨1, 1⟩, by decide +kernel⟩

theorem witness_ScanEntriesComplete_3 : ∃ (s : State) (i n : Nat), (inForce s.chip i 2 = true) ∧ (n = pIndex (entPoint s.chip i)) ∧ (diMode s.chip n ≠ 0) :=
  ⟨node (fun c => withRegs [(0x13010C, 5), (0x13020C, 1)] (withTable [(0x1500004, [1]), (0x1500200, [2]), (0x1500208, [3, 0, 0x10])] (cmdNode 3 (setContact c 3 ⟨0, 0, [2, 1]⟩)))), 0, 3, by decide +kernel⟩

theorem witness_ScanEntriesComplete_4 : ∃ (s : State) (i : Nat), (inForce s.chip i 2 = true) ∧ (diMode s.chip (pIndex (entPoint s.chip i)) = 0) :=
  ⟨node (fun c => withTable [(0x1500004, [1]), (0x1500200, [2]), (0x1500208, [3, 0, 0x10])] (cmdNode 3 c)), 0, by decide +kernel⟩

theorem witness_ScanEntriesComplete_5 : ∃ (s : State) (i m : Nat) (w : Nat × Nat), (inForce s.chip i 3 = true) ∧ (m = pIndex (entPoint s.chip i)) ∧ (w = encodeWord false (pulseFreq (pulseSt s.chip m) * qwValue (pulseScale s.chip m)) (pulseExp s.chip m) (pulseScale s.chip m).unit 0 (if 110000 < pulseFreq (pulseSt s.chip m) then flOver else 0)) :=
  ⟨node (fun c => withTable [(0x1500004, [1]), (0x1500200, [3]), (0x1500208, [3, 0, 0x30])] (cmdNode 3 { c with pulses := [(3, ⟨false, none, 0, 0, 50, 1⟩)] })), 0, 3, encodeWord false (50 * qwValue (pulseScale State.reset.chip 3)) (pulseExp State.reset.chip 3) (pulseScale State.reset.chip 3).unit 0 0, by decide +kernel⟩

theorem witness_ScanEntriesComplete_6 : ∃ (s : State) (i n q : Nat), (inForce s.chip i 4 = true) ∧ (n = pIndex (entPoint s.chip i)) ∧ (q = (if flag s.chip (posBase n) 0 = false then 3 else if (fld s.chip (posBase n) 2 2 ≠ 0 ∧ flag s.chip (posBase n + 0x10) 0 = false) ∨ (posSt s.chip n).warn = true then 1 else 0)) :=
  ⟨node (fun c => withRegs [(posBase 2, 1)] (withTable [(0x1500004, [1]), (0x1500200, [4]), (0x1500208, [2, 0, 0xC0])] (cmdNode 3 c))), 0, 2, 0, by decide +kernel⟩

theorem witness_ScanEntriesComplete_7 : ∃ (s : State) (i : Nat) (x : Exact) (p : Nat) (w : Nat × Nat), (inForce s.chip i 5 = true) ∧ (p = entPoint s.chip i) ∧ (pClass p ≠ 0) ∧ (w = encodeWord false (exactVal x) (internalUnit (pIndex p)).2 (internalUnit (pIndex p)).1 0 0) :=
  ⟨node (withTable [(0x1500004, [1]), (0x1500200, [5]), (0x1500208, [2, 0, 0xD0])]  ∘ cmdNode 3), 0, ⟨251, 10⟩, 0xD00002, encodeWord false (251 / 10) (internalUnit 2).2 (internalUnit 2).1 0 0, by decide +kernel⟩

theorem witness_ScanEntriesComplete_8 : ∃ (s : State) (i l : Nat), (inForce s.chip i 6 = true) ∧ (l = pIndex (entPoint s.chip i)) :=
  ⟨node (fun c => withTable [(0x1500004, [1]), (0x1500200, [6]), (0x1500208, [0, 0, 0x80])] (inMode 4 (loopNode 3 c))), 0, 0, by decide +kernel⟩

theorem witness_ScanEntriesComplete_9 : ∃ (s : State) (i ch d : Nat), (inForce s.chip i 7 = true) ∧ (entPoint s.chip i = pt 5 ch ∧ ch < 48) ∧ (outGo s.chip (cellDom ch) = true) ∧ (forceOf s.chip ch = 0) ∧ ((cell s.chip ch).dem % 4 ≠ 3) ∧ (d = clampDemand s.chip ch (demandUa (cell s.chip ch).dem)) :=
  ⟨node (fun c => setDemand (withTable [(0x1500004, [1]), (0x1500200, [7]), (0x1500208, [3, 0, 0x50])] (fskNode c)) 3 (qw32To ⟨12000, -3, 20, 0⟩)), 0, 3, 12000, by decide +kernel⟩

theorem witness_ScanEntriesComplete_10 : ∃ (s : State) (i ch : Nat), (inForce s.chip i 7 = true) ∧ (entPoint s.chip i = pt 5 ch ∧ ch < 48) ∧ (outGo s.chip (cellDom ch) = true) ∧ (forceOf s.chip ch = 0) ∧ ((cell s.chip ch).dem % 4 = 3) :=
  ⟨node (fun c => setDemand (withTable [(0x1500004, [1]), (0x1500200, [7]), (0x1500208, [3, 0, 0x50])] (fskNode c)) 3 (qw32To ⟨12000, -3, 20, 3⟩)), 0, 3, by decide +kernel⟩

theorem witness_ScanEntriesComplete_11 : ∃ (s : State) (i ch : Nat), (inForce s.chip i 7 = true) ∧ (entPoint s.chip i = pt 5 ch ∧ ch < 48) ∧ (outGo s.chip (cellDom ch) = true) ∧ (forceOf s.chip ch ≠ 0) ∧ ((cell s.chip ch).opened = false) :=
  ⟨node (fun c => withRegs [(cellBase 3 + 0x24, 2)] (setFld (withTable [(0x1500004, [1]), (0x1500200, [7]), (0x1500208, [3, 0, 0x50])] (fskNode c)) 0x100 0 4 9)), 0, 3, by decide +kernel⟩

theorem witness_ScanEntriesComplete_12 : ∃ (s : State) (i n : Nat) (d : Int), (inForce s.chip i 7 = true) ∧ (entPoint s.chip i = pt 6 n ∧ n < 12) ∧ (outGo s.chip 22 = true) ∧ (pairOf s.chip n = none) ∧ ((leg s.chip n).dem % 4 ≠ 3) ∧ (d = clampDuty s.chip n (demandDuty (leg s.chip n).dem)) :=
  ⟨node (fun c => setLegDemand (withTable [(0x1500004, [1]), (0x1500200, [7]), (0x1500208, [2, 0, 0x60])] (legNode c)) 2 (qw32To ⟨5000, -2, 11, 0⟩)), 0, 2, 5000, by decide +kernel⟩

theorem witness_ScanEntriesComplete_13 : ∃ (s : State) (i : Nat), (inForce s.chip i 7 = true) ∧ ((pClass (entPoint s.chip i) = 5 ∧ outGo s.chip (cellDom (pIndex (entPoint s.chip i))) = false) ∨ (pClass (entPoint s.chip i) = 6 ∧ (outGo s.chip 22 = false ∨ isFollower s.chip (pIndex (entPoint s.chip i)) = true))) :=
  ⟨node (fun c => withTable [(0x1500004, [1]), (0x1500200, [7]), (0x1500208, [3, 0, 0x50])] (cmdNode 3 c)), 0, by decide +kernel⟩

theorem witness_ScanEntriesComplete_14 : ∃ (s : State) (i n : Nat), (inForce s.chip i 8 = true) ∧ (n = entArg s.chip i % 8) ∧ (n ≠ 0) ∧ (dpRuns s.chip n = true) ∧ (waitsFor s.chip n ≠ some 0) :=
  ⟨node (fun c => withTable [(0x1500004, [1]), (0x1500200, [8]), (0x150020C, [1])] (withRegs [(dpStat 1, 1)] (cmdNode 3 c))), 0, 1, by decide +kernel⟩

theorem witness_ScanEntriesComplete_15 : ∃ (s : State) (i n : Nat), (inForce s.chip i 8 = true) ∧ (n = entArg s.chip i % 8) ∧ (n = 0 ∨ dpRuns s.chip n = false) :=
  ⟨node (fun c => withTable [(0x1500004, [1]), (0x1500200, [8]), (0x150020C, [1])] (cmdNode 3 c)), 0, 1, by decide +kernel⟩

theorem witness_FilterOutputCompletes_1 : ∃ (s : State) (ch : Fin 128) (sense drive : Wave) (beside : Exact) (set : Nat) (x : Rat), (delivers s.chip ch.val = true ∧ tablesRun s.chip = true) ∧ (acqSet s.chip ch.val = some set) ∧ (discards s.chip ch.val = false ∧ heldByFailure s.chip ch.val = false ∧ cellLost s.chip ch.val = false) ∧ (entryBad s.chip 4 (setOff set) 0x100 = false) ∧ (mdMode (anaSt s.chip ch.val).aMode = 1 ∧ natBit (setMask s.chip set) 1 = true) ∧ ((anaSt s.chip ch.val).aTsrc = 0) ∧ (clampSpan (anaSt s.chip ch.val).aMode ((codeF (corrNow s.chip ch.val (servingCell s.chip ch.val)) (exactVal sense.along) : Rat) * stepS (anaSt s.chip ch.val).aMode) = (x, false)) ∧ ((codeWide (corrNow s.chip ch.val (servingCell s.chip ch.val)) (exactVal sense.along)).natAbs < 2 ^ 23) ∧ (flagsS s.chip ch.val false = 0 ∧ condQual s.chip ch.val = 0) ∧ ((point s.chip (anaPt ch.val)).subst = false) :=
  ⟨node acqNode, 5, ⟨⟨1234, 1⟩, ⟨0, 1⟩⟩, ⟨⟨1, 1⟩, ⟨0, 1⟩⟩, ⟨0, 1⟩, 0, 1234 * (2 / 1000000), by decide +kernel⟩

theorem witness_BlankingSentryAndStaleComplete_1 : ∃ (s : State) (b : Fin 8), (natBit s.chip.seq.blankIn b.val = false) ∧ (blankEn s.chip b.val = true ∧ stuck s.chip b.val = false ∧ flag s.chip blankStat b.val = false) :=
  ⟨node (withRegs [(0x40020, 4)]), 2, by decide +kernel⟩

theorem witness_BlankingSentryAndStaleComplete_2 : ∃ (s : State) (b : Fin 8), (natBit s.chip.seq.blankIn b.val = true) ∧ (stuck s.chip b.val = false ∧ flag s.chip blankStat b.val = true) :=
  ⟨node (fun c => blankActive (withRegs [(0x40020, 4)] c) 2), 2, by decide +kernel⟩

theorem witness_BlankingSentryAndStaleComplete_3 : ∃ (s : State) (b : Fin 8), (natBit s.chip.seq.blankIn b.val = true) ∧ (stuck s.chip b.val = true) :=
  ⟨node (fun c => blankStuck (blankActive (withRegs [(0x40020, 4)] c) 2) 2), 2, by decide +kernel⟩

theorem witness_BlankingSentryAndStaleComplete_4 : ∃ (s : State) (b : Fin 8), (natBit s.chip.seq.blankPost b.val = true) :=
  ⟨node (fun c => blankInactive (blankActive (withRegs [(0x40020, 4)] c) 2) 2), 2, by decide +kernel⟩

theorem witness_BlankingSentryAndStaleComplete_5 : ∃ (s : State) (b : Fin 8), (natBit s.chip.seq.blankIn b.val = true) ∧ (stuck s.chip b.val = false) :=
  ⟨node (fun c => blankActive (withRegs [(0x40020, 4)] c) 2), 2, by decide +kernel⟩

theorem witness_BlankingSentryAndStaleComplete_6 : ∃ (s : State) (e : Fin 16) (seen : SentrySeen) (x : SentrySt) (f : Int), (nodeMode s.chip = mSentry) ∧ (s.chip.seq.sentry[e.val]? = some x) ∧ (sentryCode s.chip x seen = some f) ∧ (sentryHit x f = false) ∧ (0 < x.confirm) :=
  ⟨node (fun c => withRegs [(diCfg 3, 1)] { inMode 2 c with seq := { c.seq with sentry := [⟨0x100003, 1, 2, 2, 0, 1⟩] } }), 0, ⟨⟨⟨0, 1⟩, ⟨0, 1⟩⟩, ⟨⟨0, 1⟩, ⟨0, 1⟩⟩, none⟩, ⟨0x100003, 1, 2, 2, 0, 1⟩, 0, by decide +kernel⟩

theorem witness_BlankingSentryAndStaleComplete_7 : ∃ (s : State) (e : Fin 16) (seen : SentrySeen) (x : SentrySt) (f : Int), (nodeMode s.chip = mSentry) ∧ (s.chip.seq.sentry[e.val]? = some x) ∧ (sentryCode s.chip x seen = some f) ∧ (sentryHit x f = true) ∧ (x.confirm ≤ x.count + 1 ∧ x.confirm < 256) ∧ (s.chip.seq.woke = false) ∧ (s.chip.mode.auto = none) :=
  ⟨node (fun c => { withDoms [8] (inMode 2 (acqNode c)) with seq := { c.seq with sentry := [⟨0x200005, 1, 2, 0, 100, 1⟩] } }), 0, ⟨⟨⟨1234, 1⟩, ⟨0, 1⟩⟩, ⟨⟨1, 1⟩, ⟨0, 1⟩⟩, none⟩, ⟨0x200005, 1, 2, 0, 100, 1⟩, 1234, by decide +kernel⟩

theorem witness_BlankingSentryAndStaleComplete_8 : ∃ (s : State) (e : Fin 16) (seen : SentrySeen) (x : SentrySt), (s.chip.seq.sentry[e.val]? = some x) ∧ (sentryCode s.chip x seen = none) :=
  ⟨node (fun c => { inMode 2 c with seq := { c.seq with sentry := [⟨0x200000, 1, 2, 0, 100, 1⟩] } }), 0, ⟨⟨⟨9, 1⟩, ⟨0, 1⟩⟩, ⟨⟨0, 1⟩, ⟨0, 1⟩⟩, none⟩, ⟨0x200000, 1, 2, 0, 100, 1⟩, by decide +kernel⟩

theorem witness_BlankingSentryAndStaleComplete_9 : ∃ (s : State) (p : PointId), (pointValid p.toNat = true ∧ p ≠ 0) ∧ ((point s.chip p.toNat).subst = false) :=
  ⟨node (fun c => setPoint c 0x200005 { ptDef 0 with live := 0x1004 }), 0x200005, by decide +kernel⟩

theorem witness_SetupAndSensorCommandsComplete_1 : ∃ (s : State) (ch : Fin 128) (i : Fin 5) (v : Word) (off : Nat) (d : RegDesc) (c : Chip), (off = chBase ch.val + setupOff i.val) ∧ (findReg off = some d) ∧ ((d.fields.any fun f => fieldBad 0 (reg s.chip off).toNat v.toNat 0xFFFFFFFF f) = false) ∧ (c = setReg s.chip off (BitVec.ofNat 32 (regAfter 0 d.fields (reg s.chip off).toNat v.toNat 0xFFFFFFFF))) ∧ (setupOk c ch.val (setupRegs c ch.val) = true) ∧ (i = 2 → tsrcUnitOk c ch.val ((setupRegs c ch.val).tsrc % 2 ^ 24) = true) ∧ (reservedCode off (reg c off).toNat = false) :=
  ⟨node id, 3, 0, 1, chBase 3, (findReg (chBase 3)).getD (reg1 "" 0 []), setReg Chip.reset (chBase 3) 1, by decide +kernel⟩

theorem witness_SetupAndSensorCommandsComplete_2 : ∃ (s : State) (ch : Fin 128) (lead : Nat), (mdMode (anaSt s.chip ch.val).aMode = 4 ∧ delivers s.chip ch.val = true ∧ measures s.chip ch.val = true) :=
  ⟨node (fun c => setAna (acqNode c) 5 { anaDef 5 with aMode := 4 }), 5, 1500, by decide +kernel⟩

theorem witness_SetupAndSensorCommandsComplete_3 : ∃ (s : State) (ch : Fin 128), (mdMode (anaSt s.chip ch.val).aMode ≠ 2 ∧ powered s.chip ch.val = true) ∧ (flag s.chip (chStat ch.val) 1 = false) :=
  ⟨node acqNode, 5, by decide +kernel⟩

theorem witness_SetupAndSensorCommandsComplete_4 : ∃ (s : State) (ch : Fin 128), (flag s.chip (chStat ch.val) 1 = true) :=
  ⟨node (fun c => protectionOpen (acqNode c) 5), 5, by decide +kernel⟩

theorem witness_SetupAndSensorCommandsComplete_5 : ∃ (s : State) (ch : Fin 128), (mdMode (anaSt s.chip ch.val).aMode = 2 ∧ powered s.chip ch.val = true) ∧ (flag s.chip (chStat ch.val) 2 = false) :=
  ⟨node (fun c => setAna (acqNode c) 5 { anaDef 5 with aMode := 2 }), 5, by decide +kernel⟩

theorem witness_SetupAndSensorCommandsComplete_6 : ∃ (s : State) (ch : Fin 128), (flag s.chip (chStat ch.val) 2 = true ∧ afeOn s.chip (ch.val / 16) = true ∧ cellWorks s.chip ch.val = true) :=
  ⟨node (fun c => withRegs [(chStat 5, 4)] (acqNode c)), 5, by decide +kernel⟩

theorem witness_SetupAndSensorCommandsComplete_7 : ∃ (s : State) (ch : Fin 128) (bias : Nat), (mdMode (anaSt s.chip ch.val).aMode = 9 ∧ measures s.chip ch.val = true) :=
  ⟨node (fun c => setAna (acqNode c) 5 { anaDef 5 with aMode := 9 }), 5, 24000, by decide +kernel⟩

theorem witness_SetupAndSensorCommandsComplete_8 : ∃ (s : State) (ch : Fin 128) (limited : Bool), (limited = false ∨ (measures s.chip ch.val = true ∧ hasSource (anaSt s.chip ch.val).aMode = true)) :=
  ⟨node (fun c => setAna (acqNode c) 5 { anaDef 5 with aMode := 3 }), 5, true, by decide +kernel⟩

theorem witness_RotationAndCheckCommandsComplete_1 : ∃ (s : State) (b : Fin 8) (n : Nat), (rotPhase s.chip b.val = 0) ∧ (rotationRuns s.chip b.val = true) ∧ ((bankSt s.chip b.val).wait = false ∧ (bankSt s.chip b.val).stepDue = none) ∧ (n = (if rotStep s.chip b.val = 16 then 0 else rotStep s.chip b.val + 1)) ∧ (n ≤ 16) :=
  ⟨node (fun c => withRegs [(bankBase 0, 1), (rotStat 0, 4)] (acqNode c)), 0, 5, by decide +kernel⟩

theorem witness_RotationAndCheckCommandsComplete_2 : ∃ (s : State) (b : Fin 8) (ofs gain : Int) (exc md ex : Nat), (afeOn s.chip b.val = true ∧ s.chip.pwr.modulators = true) ∧ (rotPhase s.chip b.val = 1 ∧ calSetup s.chip b.val = some (16, md, ex)) ∧ (calPasses s.chip b.val (smGet corrDef s.chip.corr (corrKey b.val 16 (setupKey md ex))) ofs gain (excWithin md ex exc) = true) :=
  ⟨node (fun c => withRegs [(bankBase 0, 1), (rotStat 0, 0x25)] (acqNode c)), 0, 3, -2, 0, 1, 0, by decide +kernel⟩

theorem witness_RotationAndCheckCommandsComplete_3 : ∃ (s : State) (b : Fin 8) (ofs gain : Int) (exc cell md ex : Nat), (afeOn s.chip b.val = true ∧ s.chip.pwr.modulators = true) ∧ (calSetup s.chip b.val = some (cell, md, ex)) ∧ (calPasses s.chip b.val (smGet corrDef s.chip.corr (corrKey b.val cell (setupKey md ex))) ofs gain (excWithin md ex exc) = false) :=
  ⟨node (fun c => modBank (withRegs [(bankBase 0, 1), (rotStat 0, 0x25)] (acqNode c)) 0 fun x => { x with retry := true }), 0, 100000, -2, 0, 16, 1, 0, by decide +kernel⟩

theorem witness_RotationAndCheckCommandsComplete_4 : ∃ (s : State) (ch : Fin 128) (reference : Bool) (b : Nat), (b = ch.val / 16) ∧ (delivers s.chip ch.val = true ∧ cellLost s.chip ch.val = false ∧ heldByFailure s.chip ch.val = false) ∧ (onSpare s.chip ch.val = false) ∧ (covering s.chip b = false ∧ natBit (bankSt s.chip b).retired 16 = false ∧ (bankSt s.chip b).emerg = none) ∧ (rotPhase s.chip b ≠ 3 ∧ rotPhase s.chip b ≠ 4) :=
  ⟨node acqNode, 5, true, 0, by decide +kernel⟩

theorem witness_RotationAndCheckCommandsComplete_6 : ∃ (s : State) (ch : Fin 128) (v : BallVolts) (both lo hi : Int) (n : Nat), (flag s.chip (chBase ch.val + 0x24) 0 = true ∧ delivers s.chip ch.val = true ∧ measures s.chip ch.val = true) ∧ (both = (if mdMode (anaSt s.chip ch.val).aMode = 3 ∨ mdMode (anaSt s.chip ch.val).aMode = 4 ∨ mdMode (anaSt s.chip ch.val).aMode = 9 then v.exa + v.exb else v.sna + v.snb)) ∧ (lo = signed 16 (fld s.chip (chBase ch.val + 0x20) 0 16) * 20000 ∧ hi = signed 16 (fld s.chip (chBase ch.val + 0x20) 16 16) * 20000) ∧ (n = fld s.chip (chBase ch.val + 0x24) 16 8) :=
  ⟨node (fun c => withRegs [(chBase 5 + 0x24, 0x10001), (chBase 5 + 0x20, 0x00640000)] (acqNode c)), 5, ⟨0, 2000000, 1000000, 0⟩, 3000000, 0, 2000000, 1, by decide +kernel⟩

theorem witness_RotationAndCheckCommandsComplete_7 : ∃ (s : State) (ch : Fin 128), (toneRuns s.chip ch.val = true) :=
  ⟨node (fun c => withRegs [(chBase 5 + 0x24, 2)] (acqNode c)), 5, by decide +kernel⟩

theorem witness_RotationAndCheckCommandsComplete_8 : ∃ (s : State) (ch : Fin 128) (loopR ins : Nat) (both : Insulation), (ins ≤ both.sna ∧ ins ≤ both.snb ∧ (ins = both.sna ∨ ins = both.snb)) ∧ ((anaSt s.chip ch.val).tone = true ∧ measures s.chip ch.val = true) :=
  ⟨node (fun c => setAna (acqNode c) 5 { anaDef 5 with aMode := 6 + 32, tone := true }), 5, 300, 90000, ⟨90000, 95000⟩, by decide +kernel⟩

theorem witness_UnpoweredAndProtectedChannelsDriveNothing_1 : ∃ (s : State) (b : Fin 8), ((dom s.chip (8 + b.val)).turning = true) ∧ (dependantsOff s.chip (8 + b.val) = true) ∧ (offTurn s.chip (8 + b.val) = true) :=
  ⟨node (fun c => setDom (withRegs [(0x90010, 0x51)] (setAna (withDoms [26, 28, 8, 9] c) 21 { anaDef 21 with aMode := 5 })) 9 .turningOff), 1, by decide +kernel⟩

theorem witness_UnpoweredAndProtectedChannelsDriveNothing_2 : ∃ (s : State) (ch : Fin 128), (mdMode (anaSt s.chip ch.val).aMode ≠ 2 ∧ powered s.chip ch.val = true) :=
  ⟨node (fun c => withRegs [(0x80010, 0x53)] (acqNode c)), 5, by decide +kernel⟩

theorem witness_UnpoweredAndProtectedChannelsDriveNothing_3 : ∃ (s : State) (ch : Fin 128), (flag s.chip (chStat ch.val) 1 = true) ∧ (powered s.chip ch.val = true ∧ cellLost s.chip ch.val = false ∧ starting s.chip = false) ∧ ((mdMode (anaSt s.chip ch.val).aMode = 2 → flag s.chip (chStat ch.val) 2 = false)) :=
  ⟨node (fun c => withRegs [(0x80010, 0x53)] (protectionOpen (acqNode c) 5)), 5, by decide +kernel⟩

theorem witness_UnpoweredAndProtectedChannelsDriveNothing_4 : ∃ (s : State) (ch : Fin 128) (lead bias loopR : Nat) (v : BallVolts) (both : Insulation), (measures s.chip ch.val = false) :=
  ⟨node (fun c => protectionOpen (withRegs [(chBase 5 + 0x24, 0x10001)] (setAna (acqNode c) 5 { anaDef 5 with aMode := 4, tone := true })) 5), 5, 100, 24000, 300, ⟨0, 2000000, 1000000, 0⟩, ⟨90000, 95000⟩, by decide +kernel⟩

theorem witness_CellModesAndFaultsComplete_1 : ∃ (s : State) (ch : Fin 48) (v : Word), (domOn s.chip (cellDom ch.val) = true) ∧ (v.toNat % 4 ≠ fld s.chip (cellBase ch.val) 0 2) ∧ (natBit v.toNat 4 = true) :=
  ⟨node (cellNode 4 3), 3, 0x12, by decide +kernel⟩

theorem witness_CellModesAndFaultsComplete_2 : ∃ (s : State) (ch : Fin 48) (m : Nat), ((cell s.chip ch.val).tgt = some m) ∧ (opWaits s.chip (.bankStep ch.val) = false) ∧ (domOn s.chip (cellDom ch.val) = true) :=
  ⟨node (fun c => modCell (cellNode 4 3 c) 3 fun x => { x with tgt := some 2 }), 3, 2, by decide +kernel⟩

theorem witness_CellModesAndFaultsComplete_3 : ∃ (s : State) (ch : Fin 48) (rb dr vl : BitVec 16) (vres : BitVec 8) (short : Bool), (domOn s.chip (cellDom ch.val) = true) :=
  ⟨node (cellNode 4 3), 3, 12001, 12000, 600, 0, false, by decide +kernel⟩

theorem witness_CellModesAndFaultsComplete_4 : ∃ (s : State) (ch : Fin 48) (k : Fin 11), (k.val < 6) ∧ (domOn s.chip (cellDom ch.val) = true) ∧ (k = 0 ∨ k = 1 ∨ k = 4 → cellLive s.chip ch.val = true) ∧ (cellFlag s.chip ch.val lfLnOpen = false ∧ cellFlag s.chip ch.val lfVfieldLow = false ∧ cellFlag s.chip ch.val lfFieldShort = false) ∧ (k = 4 → (cell s.chip ch.val).mode = 1) ∧ (k = 0 → complianceJudged s.chip ch.val = true) ∧ (cellFlag s.chip ch.val (2 + k.val) = false) :=
  ⟨node (cellNode 4 3), 3, 5, by decide +kernel⟩

theorem witness_CellModesAndFaultsComplete_5 : ∃ (s : State) (ch : Fin 48), (cellLive s.chip ch.val = true) ∧ (cellFlag s.chip ch.val lfLnOpen = false) :=
  ⟨node (cellNode 4 3), 3, by decide +kernel⟩

theorem witness_CellModesAndFaultsComplete_7 : ∃ (s : State) (ch : Fin 48), (domOn s.chip (cellDom ch.val) = true) ∧ (cellFlag s.chip ch.val lfOvertemp = false) :=
  ⟨node (fskTx 3 true), 3, by decide +kernel⟩

theorem witness_CellModesAndFaultsComplete_8 : ∃ (s : State) (ch : Fin 48), (domOn s.chip (cellDom ch.val) = true) ∧ (cellFlag s.chip ch.val lfOvertemp = true) :=
  ⟨node (fun c => overtemp (fskTx 3 true c) 3 true), 3, by decide +kernel⟩

theorem witness_CellModesAndFaultsComplete_9 : ∃ (s : State) (ch : Fin 48), (watchdogRuns s.chip ch.val = true) :=
  ⟨node (cellNode 4 3), 3, by decide +kernel⟩

theorem witness_CellModesAndFaultsComplete_10 : ∃ (s : State) (ch : Fin 48), (watchdogRuns s.chip ch.val = true) ∧ (cellFlag s.chip ch.val 1 = true) ∧ (fld s.chip (0x100004 + ch.val / 16 * 0x10000) 16 16 ≠ 0) :=
  ⟨node (fun c => setFlag (withRegs [(0x100004, 0x100010)] (cellNode 4 3 c)) (cellStat 3) 1 true), 3, by decide +kernel⟩

theorem witness_TrimAndModemCommandsComplete_1 : ∃ (s : State) (ch : Fin 48) (f : Fin 3), (nodeMode s.chip = mService) ∧ (cellLive s.chip ch.val = true) :=
  ⟨node (cellNode 9 3), 3, 2, by decide +kernel⟩

theorem witness_TrimAndModemCommandsComplete_2 : ∃ (s : State) (ch : Fin 48) (q : Nat), (s.chip.trim.storing = none) ∧ (q = (match trimCopy s.chip.trim with | some p => (leNat (p.bytes.take 4) + 1) % 2 ^ 32 | none => 1)) :=
  ⟨node (cellNode 9 3), 3, 1, by decide +kernel⟩

theorem witness_TrimAndModemCommandsComplete_3 : ∃ (s : State) (bs : List Byte), (s.chip.trim.storing = some bs) :=
  ⟨node (fun c => beginStore (cellNode 9 3 c)), trimBytes 1 (List.replicate 48 0), by decide +kernel⟩

theorem witness_TrimAndModemCommandsComplete_4 : ∃ (s : State) (bs : List Byte) (p : TrimPage) (reached : Fin 258), (s.chip.trim.storing = some bs) ∧ (trimCopy s.chip.trim = some p) ∧ (reached.val < 257) ∧ (flag s.chip 0x10000 0 = true) :=
  ⟨node (fun c => beginStore (storeDone (beginStore (withRegs [(0x10000, 1)] (cellNode 9 3 c))))), trimBytes 2 (List.replicate 48 0), ⟨trimBytes 1 (List.replicate 48 0), false⟩, 100, by decide +kernel⟩

theorem witness_TrimAndModemCommandsComplete_5 : ∃ (s : State) (ch : Fin 48) (b : Fin 4), (buttonCell s.chip = some ch.val) ∧ (b.val < 2) ∧ (forceOf s.chip ch.val ≠ b.val + 1) :=
  ⟨node (fun c => withRegs [(0x100008, 0x103)] (cellNode 9 3 c)), 3, 1, by decide +kernel⟩

theorem witness_TrimAndModemCommandsComplete_6 : ∃ (s : State) (ch : Fin 48) (b : Fin 4), (buttonCell s.chip = some ch.val) ∧ (b.val < 2) ∧ (forceOf s.chip ch.val = b.val + 1) :=
  ⟨node (fun c => setForce (withRegs [(0x100008, 0x103)] (cellNode 9 3 c)) 3 1), 3, 0, by decide +kernel⟩

theorem witness_TrimAndModemCommandsComplete_7 : ∃ (s : State) (ch : Fin 48) (b : Fin 4) (k : Int), (buttonCell s.chip = some ch.val) ∧ (2 ≤ b.val) ∧ (k = (if b = 2 then 1 else -1)) :=
  ⟨node (fun c => setForce (withRegs [(0x100008, 0x103)] (cellNode 9 3 c)) 3 1), 3, 3, -1, by decide +kernel⟩

theorem witness_TrimAndModemCommandsComplete_8 : ∃ (s : State) (ch : Fin 48) (b : Fin 4) (late : Bool) (k : Int), (buttonCell s.chip = some ch.val) ∧ (2 ≤ b.val) ∧ (k = (if b = 2 then 1 else -1) * (if late then 10 else 1)) :=
  ⟨node (fun c => setForce (withRegs [(0x100008, 0x103)] (cellNode 9 3 c)) 3 2), 3, 2, true, 10, by decide +kernel⟩

theorem witness_TrimAndModemCommandsComplete_9 : ∃ (s : State) (ch : Fin 48), (buttonCell s.chip = some ch.val) ∧ (s.chip.trim.storing = none) :=
  ⟨node (fun c => setForce (withRegs [(0x100008, 0x103)] (cellNode 9 3 c)) 3 1), 3, by decide +kernel⟩

theorem witness_TrimAndModemCommandsComplete_10 : ∃ (s : State) (ch : Fin 48) (x : FskTx), ((cell s.chip ch.val).tx = some x) ∧ (x.sending = false) ∧ (flag s.chip (fskReg ch.val) 0 = false ∧ cellLive s.chip ch.val = true) :=
  ⟨node (fskTx 3 false), 3, ⟨0, [1, 2], false, []⟩, by decide +kernel⟩

theorem witness_TrimAndModemCommandsComplete_12 : ∃ (s : State) (ch : Fin 48) (x : FskTx), ((cell s.chip ch.val).tx = some x) ∧ (x.sending = false) ∧ (flag s.chip (fskReg ch.val) 0 = true) :=
  ⟨node (fun c => setFlag (fskTx 3 false c) (fskReg 3) 0 true), 3, ⟨0, [1, 2], false, []⟩, by decide +kernel⟩

theorem witness_TrimAndModemCommandsComplete_13 : ∃ (s : State) (ch : Fin 48) (x : FskTx), ((cell s.chip ch.val).tx = some x) ∧ (x.sending = true) :=
  ⟨node (fskTx 3 true), 3, ⟨0, [1, 2], true, fskLine [1, 2]⟩, by decide +kernel⟩

theorem witness_TrimAndModemCommandsComplete_14 : ∃ (s : State) (ch : Fin 48) (data : List Byte) (st : Byte), (fskHears s.chip ch.val = true ∧ (cell s.chip ch.val).rxCut = false) :=
  ⟨node (fun c => setFlag (cellNode 4 3 c) (cellBase 3) 4 true), 3, [1, 2, 3], 1, by decide +kernel⟩

theorem witness_TrimAndModemCommandsComplete_15 : ∃ (s : State) (ch : Fin 48) (on : Bool), (on = true → fskHears s.chip ch.val = true) :=
  ⟨node (fun c => setFlag (cellNode 4 3 c) (cellBase 3) 4 true), 3, true, by decide +kernel⟩

theorem witness_ContactPulseAndTripCommandsComplete_1 : ∃ (s : State) (n : Fin 64) (ohm : Option Nat) (v : Nat), (domOn s.chip 26 = true ∧ diMode s.chip n.val ≠ 0) ∧ (v = diClass s.chip n.val ohm) ∧ (v = fld s.chip (diStat n.val) 0 2 ∨ diBeyond s.chip n.val (fld s.chip (diStat n.val) 0 2) v ohm = false) :=
  ⟨node (fun c => withRegs [(0x13010C, 1)] (withDoms [26] c)), 3, none, 0, by decide +kernel⟩

theorem witness_ContactPulseAndTripCommandsComplete_2 : ∃ (s : State) (n : Fin 64) (ohm : Option Nat) (v : Nat), (domOn s.chip 26 = true ∧ diMode s.chip n.val ≠ 0) ∧ (v = diClass s.chip n.val ohm) ∧ (v ≠ fld s.chip (diStat n.val) 0 2 ∧ diBeyond s.chip n.val (fld s.chip (diStat n.val) 0 2) v ohm = true) ∧ (fld s.chip (diCfg n.val) 8 8 ≤ (if (contactSt s.chip n.val).cand = v then (contactSt s.chip n.val).count + 1 else 1)) :=
  ⟨node (fun c => withRegs [(0x13010C, 0x101), (0x130000, 0x11 + 0x50 * 1024 + 0x100 * 1048576)] (withDoms [26] c)), 3, some 100, 1, by decide +kernel⟩

theorem witness_ContactPulseAndTripCommandsComplete_3 : ∃ (s : State) (m : Fin 16) (e : PulseStep) (l : Bool), (domOn s.chip 26 = true ∧ piEn s.chip m.val = true) ∧ (l = piLevel s.chip m.val e.mv ∧ l ≠ (pulseSt s.chip m.val).level) ∧ (fld s.chip (piBase m.val) 8 8 * 40 ≤ e.width) ∧ (l ≠ flag s.chip (piBase m.val) 1) :=
  ⟨node (fun c => withRegs [(piBase 2, 1), (piBase 2 + 0x14, 0xFFFFFFFF)] (withDoms [26] c)), 2, ⟨1000, 7000, 40000⟩, true, by decide +kernel⟩

theorem witness_ContactPulseAndTripCommandsComplete_4 : ∃ (s : State) (m : Fin 16) (e : PulseStep) (l : Bool), (l = piLevel s.chip m.val e.mv) ∧ (l = (pulseSt s.chip m.val).level ∨ e.width < fld s.chip (piBase m.val) 8 8 * 40 ∨ l = flag s.chip (piBase m.val) 1) :=
  ⟨node (fun c => withRegs [(piBase 2, 3)] (withDoms [26] c)), 2, ⟨1000, 7000, 40000⟩, true, by decide +kernel⟩

theorem witness_ContactPulseAndTripCommandsComplete_5 : ∃ (s : State) (m : Fin 16) (time r : Nat), (domOn s.chip 26 = true ∧ piEn s.chip m.val = true) ∧ ((pulseSt s.chip m.val).ref = some r) ∧ (1 ≤ (pulseSt s.chip m.val).edges ∧ r < (pulseSt s.chip m.val).last) ∧ (pulseStopped s.chip m.val time = false) :=
  ⟨node (fun c => setPulse (withRegs [(piBase 2, 1), (piBase 2 + 4, 0x640000), (piBase 2 + 0x10, 1)] (withDoms [26] c)) 2 ⟨true, some 100, 4000100, 50, 0, 1⟩), 2, 5000000, 100, by decide +kernel⟩

theorem witness_ContactPulseAndTripCommandsComplete_6 : ∃ (s : State) (m : Fin 16), (domOn s.chip 26 = true ∧ piEn s.chip m.val = true) :=
  ⟨node (fun c => setPulse (withRegs [(piBase 2, 1)] (withDoms [26] c)) 2 ⟨true, some 100, 4000100, 50, 7, 1⟩), 2, by decide +kernel⟩

theorem witness_LegAndPositionCommandsComplete_1 : ∃ (s : State) (n : Fin 12), (armRej s.chip n.val = 0) ∧ (pairOf s.chip n.val = none) ∧ (legState s.chip n.val = 0 ∨ legState s.chip n.val = 3) :=
  ⟨node legNode, 2, by decide +kernel⟩

theorem witness_LegAndPositionCommandsComplete_2 : ∃ (s : State) (n : Fin 12), (armRej s.chip n.val ≠ 0) ∧ (isFollower s.chip n.val = false) :=
  ⟨node id, 2, by decide +kernel⟩

theorem witness_LegAndPositionCommandsComplete_3 : ∃ (s : State) (n : Fin 12), (legUp s.chip n.val = true) ∧ (pairOf s.chip n.val = none) :=
  ⟨node (fun c => withRegs [(legStat 2, 2)] (legNode c)), 2, by decide +kernel⟩

theorem witness_LegAndPositionCommandsComplete_4 : ∃ (s : State) (n : Fin 12), (legState s.chip n.val = 1 ∧ domOn s.chip 22 = true) :=
  ⟨node (fun c => withRegs [(legStat 2, 1)] (legNode c)), 2, by decide +kernel⟩

theorem witness_LegAndPositionCommandsComplete_5 : ∃ (s : State) (n : Fin 12) (x : BitVec 16) (xs : List (BitVec 16)), (domOn s.chip 22 = true) ∧ (legGrp s.chip n.val = 7) ∧ ((signed 16 x.toNat).natAbs ≤ fld s.chip (legBase n.val + 8) 0 9 * 50) :=
  ⟨node (fun c => setLeg (withRegs [(legStat 2, 2)] (legNode c)) 2 { legDef 2 with next := some 5000 }), 2, 1000, [], by decide +kernel⟩

theorem witness_LegAndPositionCommandsComplete_6 : ∃ (s : State) (n : Fin 12) (x : BitVec 16) (xs : List (BitVec 16)), (domOn s.chip 22 = true) ∧ (legGrp s.chip n.val = 7 ∧ legState s.chip n.val = 2) ∧ ((leg s.chip n.val).runs = false ∧ (leg s.chip n.val).next = none) ∧ (fld s.chip (legBase n.val + 0x18) 0 15 = 0) ∧ (fld s.chip (legBase n.val + 8) 0 9 * 50 < (signed 16 x.toNat).natAbs) :=
  ⟨node (fun c => withRegs [(legStat 2, 2), (legBase 2 + 8, 20)] (legNode c)), 2, 2000, [], by decide +kernel⟩

theorem witness_LegAndPositionCommandsComplete_7 : ∃ (s : State) (n : Fin 12) (xs : List (BitVec 16)), (domOn s.chip 22 = true) ∧ (xs.length = (groupOf s.chip n.val).length) :=
  ⟨node (fun c => withRegs [(legStat 2, 2)] (legNode c)), 2, [5], by decide +kernel⟩

theorem witness_LegAndPositionCommandsComplete_8 : ∃ (s : State) (n : Fin 12) (seen : LegSense) (blanking : Bool), (detectorFires s.chip n.val seen = true) ∧ (domOn s.chip 22 = true ∧ legUp s.chip n.val = true) ∧ (legGrp s.chip n.val = 7) :=
  ⟨node (fun c => withRegs [(legStat 2, 2)] (legNode c)), 2, ⟨20000, 0, false⟩, false, by decide +kernel⟩

theorem witness_LegAndPositionCommandsComplete_9 : ∃ (s : State) (n : Fin 12) (seen : LegSense), (detectorFires s.chip n.val seen = true) ∧ (domOn s.chip 22 = true) ∧ (legState s.chip n.val = 0 ∧ (leg s.chip n.val).left = true) ∧ (legGrp s.chip n.val = 7) :=
  ⟨node (fun c => legLeave (withRegs [(legStat 2, 2)] (legNode c)) 2 0 6), 2, ⟨0, 1001, false⟩, by decide +kernel⟩

theorem witness_LegAndPositionCommandsComplete_10 : ∃ (s : State) (n k : Fin 12) (seen : LegSense) (blanking : Bool), (detectorFires s.chip n.val seen = true) ∧ (domOn s.chip 22 = true ∧ legUp s.chip n.val = true) ∧ (k ≠ n ∧ k.val ∈ groupOf s.chip n.val ∧ (leg s.chip k.val).fired = true) :=
  ⟨node (fun c => modLeg (withRegs [(legStat 2, 2), (legStat 3, 2)] (setFld (setFld (legNode c) (legBase 2) 16 3 1) (legBase 3) 16 3 1)) 3 fun x => { x with fired := true }), 2, 3, ⟨20000, 0, false⟩, true, by decide +kernel⟩

theorem witness_LegAndPositionCommandsComplete_11 : ∃ (s : State) (n : Fin 12) (seen : LegSense) (blanking : Bool), (detectorFires s.chip n.val seen = false) :=
  ⟨node (fun c => withRegs [(legStat 2, 2)] (legNode c)), 2, ⟨10000, 1000, false⟩, true, by decide +kernel⟩

theorem witness_LegAndPositionCommandsComplete_12 : ∃ (s : State) (n : Fin 12) (seen : LegSense), (detectorFires s.chip n.val seen = false) ∧ (domOn s.chip 22 = true ∧ legUp s.chip n.val = true) ∧ ((leg s.chip n.val).clamped = true) :=
  ⟨node (fun c => shortFires (withRegs [(legStat 2, 2)] (legNode c)) 2 true false true), 2, ⟨0, 0, true⟩, by decide +kernel⟩

theorem witness_LegAndPositionCommandsComplete_13 : ∃ (s : State) (n : Fin 12) (seen : LegSense), (detectorFires s.chip n.val seen = true) ∧ (domOn s.chip 22 = true ∧ legUp s.chip n.val = true) ∧ (legGrp s.chip n.val = 7) :=
  ⟨node (fun c => shortFires (withRegs [(legStat 2, 2)] (legNode c)) 2 true false true), 2, ⟨-10001, 0, true⟩, by decide +kernel⟩

theorem witness_LegAndPositionCommandsComplete_14 : ∃ (per ton dt h k : Nat), (ton = 0 ∨ (2 * dt ≤ ton ∧ ton + 2 * dt + 400 ≤ per)) ∧ ((carrierGates per ton dt h).gh = .high ∧ (carrierGates per ton dt k).gl = .high) :=
  ⟨8000, 3000, 80, 8000, 0, by decide +kernel⟩

theorem witness_LegAndPositionCommandsComplete_15 : ∃ (s : State) (n : Fin 12), (legUp s.chip n.val = true) ∧ (pairOf s.chip n.val = none) ∧ ((leg s.chip n.val).fresh ≠ some s.chip.ot) :=
  ⟨node (fun c => withRegs [(legStat 2, 2)] (legNode c)), 2, by decide +kernel⟩

theorem witness_LegAndPositionCommandsComplete_16 : ∃ (s : State) (n : Fin 4) (a b : Bool) (up : Bool), (domOn s.chip 22 = true ∧ flag s.chip (posBase n.val) 0 = true) ∧ ((a ≠ (posSt s.chip n.val).qa ∧ b = (posSt s.chip n.val).qb) ∨ (a = (posSt s.chip n.val).qa ∧ b ≠ (posSt s.chip n.val).qb)) ∧ (up = ((a != (posSt s.chip n.val).qb) != flag s.chip (posBase n.val) 1)) :=
  ⟨node (fun c => withRegs [(posBase 1, 1)] (withDoms [22] c)), 1, false, true, false, by decide +kernel⟩

theorem witness_LegAndPositionCommandsComplete_17 : ∃ (s : State) (n : Fin 4) (a b : Bool), (domOn s.chip 22 = true ∧ flag s.chip (posBase n.val) 0 = true) ∧ (a ≠ (posSt s.chip n.val).qa ∧ b ≠ (posSt s.chip n.val).qb) :=
  ⟨node (fun c => withRegs [(posBase 1, 1)] (withDoms [22] c)), 1, true, true, by decide +kernel⟩

theorem witness_LegAndPositionCommandsComplete_18 : ∃ (s : State) (n : Fin 4), (domOn s.chip 22 = true ∧ flag s.chip (posBase n.val) 0 = true) ∧ (fld s.chip (posBase n.val) 2 2 ≠ 0) ∧ (fld s.chip (posBase n.val) 2 2 = 2 → flag s.chip (posBase n.val + 0x10) 0 = false) :=
  ⟨node (fun c => withRegs [(posBase 1, 9), (posBase 1 + 8, 77)] (withDoms [22] c)), 1, by decide +kernel⟩

theorem witness_ControlCommandsComplete_1 : ∃ (s : State) (l : Fin 128) (cycles : Nat) (r : EvalReq), (nextEval s.chip = some r) ∧ (r.loop = l.val) ∧ (loopRuns s.chip l.val = true) ∧ (laneIn s.chip = true) ∧ (evalLate s.chip l.val cycles = false) :=
  ⟨node (fun c => withTable [(0x170102C, [0x10, 0x27])] (loopNode 3 c)), 0, 450, ⟨0, true, false⟩, by decide +kernel⟩

theorem witness_ControlCommandsComplete_2 : ∃ (s : State) (l : Fin 128) (cycles : Nat) (r : EvalReq), (nextEval s.chip = some r) ∧ (r.loop = l.val) ∧ (loopRuns s.chip l.val = true) ∧ (laneIn s.chip = true) ∧ (evalLate s.chip l.val cycles = false) ∧ ((loopSt s.chip l.val).fresh = true) ∧ ((point s.chip (pvPoint s.chip l.val)).live % 4 ≠ 3) :=
  ⟨node (fun c => modLoop (withTable [(0x1701000, [9]), (0x170102C, [0x10, 0x27])] (setPoint (loopNode 3 c) 0 { ptDef 0 with live := 0 })) 0 fun x => { x with fresh := true }), 0, 450, ⟨0, true, false⟩, by decide +kernel⟩

theorem witness_ControlCommandsComplete_3 : ∃ (s : State) (l : Fin 128) (cycles : Nat) (r : EvalReq), (nextEval s.chip = some r) ∧ (r.loop = l.val) ∧ (loopRuns s.chip l.val = true) ∧ (laneIn s.chip = true) ∧ (evalLate s.chip l.val cycles = true) :=
  ⟨node (fun c => withTable [(0x170102C, [0x10, 0x27])] (loopNode 3 c)), 0, 65000, ⟨0, true, false⟩, by decide +kernel⟩

theorem witness_ControlCommandsComplete_4 : ∃ (s : State) (l : Fin 128) (r : EvalReq), (waiting s.chip l.val = some r) :=
  ⟨node (loopNode 3), 0, ⟨0, true, false⟩, by decide +kernel⟩

theorem witness_ControlCommandsComplete_5 : ∃ (s : State) (b : Fin 4), (tuneState s.chip b.val = 1) ∧ (cfgTimeout (tuneSt s.chip b.val).cfg ≠ 0) :=
  ⟨node (fun c => withRegs [(tuneBase 1, 1)] (setTune c 1 { tuneDef 1 with cfg := List.replicate 0x24 0 ++ [5] ++ List.replicate 11 0 })), 1, by decide +kernel⟩

theorem witness_ControlCommandsComplete_6 : ∃ (s : State) (b : Fin 4), (tuneState s.chip b.val = 3) :=
  ⟨node (fun c => withRegs [(tuneBase 1, 0xB)] c), 1, by decide +kernel⟩

theorem witness_ControlCommandsComplete_7 : ∃ (s : State) (lane : Fin 4), (domOn s.chip 23 = true) ∧ (flag s.chip 0x150004 lane.val = true) :=
  ⟨node (fun c => withRegs [(0x150004, 15)] (withDoms [23] c)), 2, by decide +kernel⟩

theorem witness_CanTransmissionCompletes_1 : ∃ (s : State) (n : Fin 8) (b : Nat) (x : CanTx), (canMayStart s.chip n.val = true) ∧ (chooseBuf s.chip n.val = some (b, x)) :=
  ⟨node (fun c => canNode (canFrame 1 false c)), 0, 1, txFrame false, by decide +kernel⟩

theorem witness_CanTransmissionCompletes_2 : ∃ (s : State) (n : Fin 8) (b : Nat) (x : CanTx) (ts : BitVec 64), (onBusBuf s.chip n.val = some b) ∧ (canBuf s.chip n.val b = some x) ∧ ((canSt s.chip n.val).mode ≠ 3) ∧ (b ≠ 2 ∨ canBuf s.chip n.val 3 = none) :=
  ⟨node (fun c => canNode (canFrame 1 true c)), 0, 1, txFrame true, 0x123456789ABC, by decide +kernel⟩

theorem witness_CanTransmissionCompletes_3 : ∃ (s : State) (n : Fin 8) (b : Nat) (x : CanTx) (ts : BitVec 64) (o : Fin 3), (o ≠ 0) ∧ (onBusBuf s.chip n.val = some b) ∧ (canBuf s.chip n.val b = some x) ∧ (oneShot s.chip n.val b = false) ∧ (x.drop = false ∧ x.tmo = false) ∧ (b ≠ 2 ∨ canBuf s.chip n.val 3 = none) :=
  ⟨node (fun c => canNode (canFrame 1 true c)), 0, 1, txFrame true, 5, 1, by decide +kernel⟩

theorem witness_CanTransmissionCompletes_4 : ∃ (s : State) (n : Fin 8) (b : Fin 3) (x : CanTx), (canBuf s.chip n.val b.val = some x) ∧ (x.onBus = false) ∧ (b ≠ 2 ∨ canBuf s.chip n.val 3 = none) :=
  ⟨node (fun c => canNode (canFrame 1 false c)), 0, 1, txFrame false, by decide +kernel⟩

theorem witness_CanReceptionAndErrorsComplete_1 : ∃ (s : State) (n : Fin 8) (format : BitVec 5) (ident : BitVec 29) (dlc : BitVec 4) (data : List Byte) (ts : BitVec 64) (f : Nat), (canHears s.chip n.val = true) ∧ (natBit format.toNat 1 = false ∨ flag s.chip (canCtl n.val) 2 = true) ∧ (callCtrl s.chip ≠ some n.val) ∧ (fltFor s.chip n.val format.toNat ident.toNat = some f) :=
  ⟨node (fun c => withRegs [(fltBase 0 0, 1), (fltBase 0 0 + 4, 5), (fltBase 0 0 + 8, 0x7FF)] (canNode c)), 0, 0, 5, 2, [7, 8], 9, 0, by decide +kernel⟩

theorem witness_CanReceptionAndErrorsComplete_2 : ∃ (s : State) (n : Fin 8), (canHears s.chip n.val = true) ∧ (flag s.chip (canCtl n.val) 2 = false) :=
  ⟨node canNode, 0, by decide +kernel⟩

theorem witness_CanReceptionAndErrorsComplete_3 : ∃ (s : State) (n : Fin 8) (lec : BitVec 3) (dataPhase : Bool) (tec : BitVec 9) (rec' : BitVec 8), (canHears s.chip n.val = true) :=
  ⟨node canNode, 0, 3, false, 300, 5, by decide +kernel⟩

theorem witness_CanReceptionAndErrorsComplete_4 : ∃ (s : State) (n : Fin 8), (canHears s.chip n.val = true) :=
  ⟨node (fun c => canNode (canFrame 1 true c)), 0, by decide +kernel⟩

theorem witness_CanReceptionAndErrorsComplete_5 : ∃ (s : State) (n : Fin 8), (canState s.chip n.val = 3) ∧ (canRuns s.chip n.val = true) :=
  ⟨node (fun c => withRegs [(canStatReg 0, 3), (canErr 0, 0x8080)] (canNode c)), 0, by decide +kernel⟩

theorem witness_CanControlCompletes_1 : ∃ (s : State) (n : Fin 8), (canState s.chip n.val = 2) :=
  ⟨node (fun c => withRegs [(canStatReg 0, 2)] (canNode c)), 0, by decide +kernel⟩

theorem witness_CanControlCompletes_3 : ∃ (s : State) (n : Fin 8), (onBusBuf s.chip n.val = none) ∧ (canDomOn s.chip = true) :=
  ⟨node canNode, 0, by decide +kernel⟩

theorem witness_RecorderTimedStepsComplete_1 : ∃ (s : State) (k : Fin 257) (o : OpenRec), (openOf s.chip (rowSource k.val) = some o) ∧ (o.ends ≤ s.chip.ot) :=
  ⟨node (fun c => openNode c), 256, ⟨0x103, 0, 3, 0⟩, by decide +kernel⟩

theorem witness_RecorderTimedStepsComplete_2 : ∃ (s : State) (k : Fin 257) (o : OpenRec) (r : Rec), (((s.chip.rcd.opens ++ s.chip.rcd.closing).find? fun o => o.source == rowSource k.val && tailDue s.chip o) = some o) ∧ (recImage s.chip (o.seq % 32768) = some r) :=
  ⟨node (fun c => openNode { c with ot := 5000 }), 256, ⟨0x103, 0, 3, 0⟩, ⟨[], 0, 1, 0, 0x103, 1, 1, 0, 0, 0⟩, by decide +kernel⟩

theorem witness_RecorderTimedStepsComplete_3 : ∃ (s : State), (s.chip.ot % 65536 = 0) ∧ (s.chip.ot ≠ 0) :=
  ⟨node (fun c => { c with ot := 0x20000 }), by decide +kernel⟩

theorem witness_RecorderTimedStepsComplete_4 : ∃ (s : State) (a : Nat × Nat), (s.chip.rcd.armed = some a) ∧ (a.1 ≤ s.chip.ot) :=
  ⟨node (fun c => setArmed { c with ot := 9 } (some (8, 1))), (8, 1), by decide +kernel⟩

theorem witness_RecorderTimedStepsComplete_5 : ∃ (s : State) (n : Nat × Nat × Nat × Nat), (s.chip.rcd.intent = some n) ∧ (flag s.chip recStat 2 = true) :=
  ⟨node (fun c => modRec (setFlag c recStat 2 true) fun r => { r with intent := some (4, 3, 1, 3) }), (4, 3, 1, 3), by decide +kernel⟩

theorem witness_CallCommandsComplete_1 : ∃ (s : State) (p : Fin 16) (data : List Byte), (callHears s.chip = true) ∧ (byteAt data 0 = 0x10) ∧ (natBit (byteAt data 1) 0 = true) :=
  ⟨node callNode, 3, [0x10, 1, 7, 0, 3], by decide +kernel⟩

theorem witness_CallCommandsComplete_2 : ∃ (s : State) (p : Fin 16) (data : List Byte) (f : CallFrame), (callHears s.chip = true) ∧ (byteAt data 0 = 0x7F) ∧ (s.chip.call.frame = some f) ∧ (s.chip.call.due = false) ∧ (leNat ((padTo 8 data).drop 2 |>.take 2) = f.seq) :=
  ⟨node (fun c => modCall (callNode c) fun k => { k with frame := some ⟨[1], 9, 3, 0, 1, false, 3⟩ }), 0, [0x7F, 0, 9, 0], ⟨[1], 9, 3, 0, 1, false, 3⟩, by decide +kernel⟩

theorem witness_CallCommandsComplete_3 : ∃ (s : State) (f : CallFrame), (s.chip.call.frame = some f) ∧ (s.chip.call.due = false) ∧ (f.clear = false ∨ f.sent < 40) :=
  ⟨node (fun c => modCall (callNode c) fun k => { k with frame := some ⟨[1], 9, 3, 0, 1, false, 3⟩ }), ⟨[1], 9, 3, 0, 1, false, 3⟩, by decide +kernel⟩

theorem witness_CallCommandsComplete_4 : ∃ (s : State) (f : CallFrame), (s.chip.call.frame = some f) ∧ (s.chip.call.due = false) ∧ (f.clear = true ∧ 40 ≤ f.sent) :=
  ⟨node (fun c => modCall (callNode c) fun k => { k with frame := some ⟨[2], 9, 3, 1, 40, true, 3⟩ }), ⟨[2], 9, 3, 1, 40, true, 3⟩, by decide +kernel⟩

theorem witness_BasinCommandsComplete_1 : ∃ (s : State), (bsnState s.chip = 0) ∧ (bsnModeOk s.chip = true) ∧ (layoutFits (fld s.chip 0x190004 0 2) (maskOf (presentPorts s.chip)) = true) ∧ ((presentPorts s.chip).all (portSuitable s.chip) = true) ∧ (createPhyOff s.chip (fld s.chip 0x190004 0 2) = false) :=
  ⟨node (basinNode none), by decide +kernel⟩

theorem witness_BasinCommandsComplete_2 : ∃ (s : State) (id g cap : Nat), (bsnState s.chip = 0 ∨ bsnState s.chip = 5) ∧ (bsnModeOk s.chip = true) ∧ (presentPorts s.chip ≠ []) ∧ (∀ m ∈ presentPorts s.chip, portSuitable s.chip m = true ∧ cap ≤ portBlocks s.chip m ∧ (∃ sb ∈ (portSuper s.chip m).toList, sb.basinId = id ∧ sb.sgen = g ∧ sb.cap = cap ∧ sb.members = maskOf (presentPorts s.chip) ∧ sb.rebuild = none)) :=
  ⟨node (basinNode (some oneMember)), 77, 4, 2 ^ 24, by
    have hp : presentPorts (node (basinNode (some oneMember))).chip = [1] := by decide +kernel
    rw [hp]
    simp only [List.mem_singleton, forall_eq, oneMember_super]
    decide +kernel⟩

theorem witness_BasinCommandsComplete_3 : ∃ (s : State), (bsnServes s.chip = true) :=
  ⟨node (fun c => withRegs [(bsnStat, 0x22)] (basinNode none c)), by decide +kernel⟩

theorem witness_BasinCommandsComplete_4 : ∃ (s : State) (n : Fin 4), (bsnState s.chip = 3) ∧ (natBit s.chip.bsn.ports n.val = true) ∧ (natBit (bsnMembers s.chip) n.val = false) ∧ ((presentPorts s.chip).contains n.val = true) ∧ (portSuitable s.chip n.val = true) ∧ (s.chip.bsn.cap ≤ portBlocks s.chip n.val) :=
  ⟨node (fun c => modBsn (withRegs [(bsnStat, 0x13)] (basinNode none c)) fun b => { b with ports := 3, cap := 2 ^ 24 }), 1, by decide +kernel⟩

theorem witness_BasinCommandsComplete_5 : ∃ (s : State) (n : Fin 4), (bsnServes s.chip = true) ∧ (natBit (bsnMembers s.chip) n.val = true) ∧ (s.chip.bsn.rebuild = none) ∧ (lossMasked s.chip.bsn.layout (s.chip.bsn.ports - (bsnMembers s.chip - 2 ^ n.val)) = true) :=
  ⟨node (fun c => modBsn (withRegs [(bsnStat, 0x32)] (basinNode none c)) fun b => { b with ports := 3, layout := 2, cap := 2 ^ 24 }), 1, by decide +kernel⟩

theorem witness_BasinMembersComplete_1 : ∃ (s : State) (m : Fin 4) (speed width : Fin 5) (d : Drive), (starting s.chip = false) ∧ (domOn s.chip (2 + m.val) = true) ∧ (speed ≠ 0) ∧ (width = 1 ∨ width = 2 ∨ width = 4) ∧ (flag s.chip 0x190004 4 = false) ∧ (([2, 3, 4, 5] : List Nat).contains (drvState s.chip m.val) = false) :=
  ⟨node (fun c => withDoms [27, 3] (inMode 3 c)), 1, 3, 2, drive (2 ^ 25) [], by decide +kernel⟩

theorem witness_BasinMembersComplete_2 : ∃ (s : State) (m cause : Fin 4), (bsnServes s.chip = true) ∧ (natBit (bsnMembers s.chip) m.val = true) ∧ (s.chip.bsn.rebuild = none) ∧ (lossMasked s.chip.bsn.layout (s.chip.bsn.ports - (bsnMembers s.chip - 2 ^ m.val)) = true) :=
  ⟨node (fun c => modBsn (withRegs [(bsnStat, 0x32)] (basinNode none c)) fun b => { b with ports := 3, layout := 2, cap := 2 ^ 24 }), 1, 0, by decide +kernel⟩

theorem witness_BasinMembersComplete_3 : ∃ (s : State) (m : Fin 4) (w : Byte), (natBit (bsnMembers s.chip) m.val = true) :=
  ⟨node (fun c => withRegs [(bsnStat, 0x22)] (basinNode none c)), 1, 4, by decide +kernel⟩

theorem witness_BasinMembersComplete_4 : ∃ (s : State) (n : Nat), (bsnState s.chip = 4) ∧ (s.chip.bsn.rebuild = some n) ∧ (s.chip.bsn.cursor + 1 < memberStrips s.chip.bsn.cap) ∧ ((s.chip.bsn.cursor + 1) % 262144 ≠ 0) :=
  ⟨node (fun c => modBsn (withRegs [(bsnStat, 0x34)] c) fun b => { b with rebuild := some 1, cap := 2 ^ 24, cursor := 5 }), 1, by decide +kernel⟩

theorem witness_BasinChunksComplete_1 : ∃ (s : State) (o : Fin 9) (u : Nat) (x : BUnit), (bsnServes s.chip = true) ∧ (recordsDue s.chip o.val = true) ∧ (∀ r ∈ s.chip.rcd.toBasin, (recBytes r).length = 128) ∧ (tailUnit s.chip 1 (codeOfPage o.val) 0 = some (u, x)) ∧ (bUnit s.chip u = some x) ∧ (usedBlocks x + 32 ≤ unitBlocks) :=
  ⟨node (fun c => chunkNode c), 8, 0, chunkUnit, by decide +kernel⟩

theorem witness_BasinChunksComplete_2 : ∃ (s : State) (m : Fin 4) (f : BFlight) (x : BUnit), (bsnServes s.chip = true) ∧ (natBit (bsnMembers s.chip) m.val = true) ∧ (s.chip.bsn.flight = [f] ∧ f.waits = 2 ^ m.val) ∧ (bUnit s.chip f.unit = some x) :=
  ⟨node (fun c => modBsn (chunkNode c) fun b => { b with flight := [⟨8, 0, 15, 1, ⟨[], 1, 1⟩, 2, 2, 0, []⟩] }), 1, ⟨8, 0, 15, 1, ⟨[], 1, 1⟩, 2, 2, 0, []⟩, chunkUnit, by decide +kernel⟩

theorem witness_BasinChunksComplete_3 : ∃ (s : State) (m : Fin 4), (bsnServes s.chip = true) ∧ (natBit (bsnMembers s.chip) m.val = true) :=
  ⟨node chunkNode, 1, by decide +kernel⟩

theorem witness_BasinChunksComplete_4 : ∃ (s : State) (m : Fin 4) (b : Nat), (bsnServes s.chip = true) ∧ (natBit (bsnMembers s.chip) m.val = true) :=
  ⟨node (fun c => modBsn (withRegs [(bsnStat, 0x32)] (chunkNode c)) fun b => { b with ports := 3, layout := 2 }), 1, 77, by decide +kernel⟩

theorem witness_BasinChunksComplete_5 : ∃ (s : State) (m : Fin 4) (b : Nat), (bsnServes s.chip = true) ∧ (natBit (bsnMembers s.chip) m.val = true) ∧ ((m.val, b) ∈ s.chip.bsn.rewrites) ∧ ((bDrive s.chip m.val).isSome = true) :=
  ⟨node (fun c => modBsn (chunkNode c) fun b => { b with rewrites := [(1, 77)] }), 1, 77, by decide +kernel⟩

theorem witness_BasinChunksComplete_6 : ∃ (s : State) (k : Fin 16) (e : Nat), ((bLog s.chip (16 + k.val)).ends = some e) ∧ (e ≤ s.chip.ot) :=
  ⟨node (fun c => modLog { c with ot := 9 } 17 fun g => { g with ends := some 8 }), 1, 8, by decide +kernel⟩

theorem witness_DiagnosticCommandsComplete_5 : ∃ (s : State) (addr : BitVec 24), (addr.toNat / 32 < 0x8000) :=
  ⟨node id, 65, by decide +kernel⟩

theorem witness_DiagnosticCommandsComplete_6 : ∃ (s : State) (addr : BitVec 24) (p : Nat), (p = addr.toNat / 4 / 0x4000 * 2 ^ 20 + addr.toNat / 4 % 0x4000) ∧ (pClass p ≠ 0) ∧ (pointValid p = true) :=
  ⟨node id, 0x10004, 0x100001, by decide +kernel⟩

theorem witness_JtagCommandsComplete_5 : ∃ (s : State) (tms tdi : Bool), (s.chip.jtag.tap = 4) :=
  ⟨node (fun c => modJtag c fun j => { j with tap := 4, ir := 1, bnd := 7 }), true, true, by decide +kernel⟩

theorem witness_ProgramChannelsComplete_1 : ∃ (s : State) (n : Fin 8), (n ≠ 0) ∧ (dpRuns s.chip n.val = false) ∧ (dmaOn s.chip = true) ∧ (dmaRate s.chip n.val ≠ 0) ∧ ((instrAt (modDp s.chip n.val fun _ => dpDef n.val) n.val (fld s.chip (dpBase n.val + 4) 0 11)).isSome = true) :=
  ⟨node (dmaNode 0), 1, by decide +kernel⟩

theorem witness_ProgramChannelsComplete_2 : ∃ (s : State) (n : Fin 8), (n ≠ 0) ∧ (dpRuns s.chip n.val = true) :=
  ⟨node (fun c => withRegs [(dpStat 1, 1)] (dmaNode 0 c)), 1, by decide +kernel⟩

theorem witness_ProgramChannelsComplete_3 : ∃ (s : State) (n : Fin 8) (sw dw swrap dwrap burst src dst len : Nat) (sc dc : Bool), (dpHere s.chip n.val = some (.move sw dw swrap dwrap burst sc dc src dst len)) :=
  ⟨node (fun c => withRegs [(dpStat 1, 1)] (dmaNode 0 c)), 1, 0, 0, 0, 0, 2, 0x100, 0x200, 100, false, false, by decide +kernel⟩

theorem witness_ProgramChannelsComplete_4 : ∃ (s : State) (n : Fin 8) (k count target : Nat), (dpHere s.chip n.val = some (.loop k count target)) ∧ (count ≠ 0) ∧ (k = 0) ∧ (target < 2048 ∧ dpPc s.chip n.val + 1 < 2048) :=
  ⟨node (fun c => withRegs [(dpStat 1, 0x101)] (dmaNode 0 c)), 1, 0, 3, 0, by decide +kernel⟩

theorem witness_ProgramChannelsComplete_5 : ∃ (s : State) (n : Fin 8) (k count target : Nat), (dpHere s.chip n.val = some (.loop k count target)) ∧ (count ≠ 0) ∧ (k ≠ 0) ∧ (target < 2048 ∧ dpPc s.chip n.val + 1 < 2048) :=
  ⟨node (fun c => withRegs [(dpStat 1, 0x101), (0x1A8010, 0x0102)] (dmaNode 0 c)), 1, 1, 3, 0, by decide +kernel⟩

theorem witness_ProgramChannelsComplete_6 : ∃ (s : State) (n : Fin 8) (e : Nat), (dpHere s.chip n.val = some (.wait e)) ∧ (dpPc s.chip n.val + 1 < 2048) :=
  ⟨node (fun c => withRegs [(dpStat 1, 0x201)] (dmaNode 0 c)), 1, 0, by decide +kernel⟩

theorem witness_ProgramChannelsComplete_7 : ∃ (s : State) (n : Fin 8) (halt : Bool) (mask : Nat), (dpHere s.chip n.val = some (.signal halt mask)) ∧ ((dpSt s.chip n.val).verify = false) :=
  ⟨node (fun c => withRegs [(dpStat 1, 0x301)] (dmaNode 0 c)), 1, true, 4, by decide +kernel⟩

theorem witness_ProgramChannelsComplete_8 : ∃ (s : State) (n : Fin 16) (limit : Fin 4097) (cycles : Nat) (x : Xfer), (dmaOn s.chip = true) ∧ (n.val ≠ 0 ∧ n.val < 8) ∧ (0 ≤ creditNow (dmaCycles s.chip cycles) n.val) ∧ (fld s.chip (dpStat n.val) 0 2 = 1) ∧ ((dpSt s.chip n.val).xfer = some x) ∧ (x.burst * 32 < x.left) ∧ (((List.range (x.burst * 32)).all fun i => fabricReads (wrapAdd x.swrap x.src i) && fabricWrites (wrapAdd x.dwrap x.dst i)) = true) :=
  ⟨node (fun c => modDp (withRegs [(dpStat 1, 1)] (dmaNode 0 c)) 1 fun d => { d with xfer := some { src := 0, dst := 64, left := 100, swrap := 0, dwrap := 0, sspace := 0, dspace := 0, burst := 2, dw := 0 } }), 1, 0, 7, { src := 0, dst := 64, left := 100, swrap := 0, dwrap := 0, sspace := 0, dspace := 0, burst := 2, dw := 0 }, by decide +kernel⟩

theorem witness_ProgramChannelsComplete_9 : ∃ (s : State) (n : Fin 16) (limit : Fin 4097) (cycles : Nat), (dmaOn s.chip = true) ∧ (creditNow (dmaCycles s.chip cycles) n.val < 0) :=
  ⟨node (fun c => modDp (withRegs [(dpStat 1, 1)] (dmaNode 0 c)) 1 fun d => { d with credit := -4000 }), 1, 0, 7, by decide +kernel⟩

theorem witness_ProgramChannelsComplete_10 : ∃ (s : State) (n : Fin 16) (halt : Bool) (mask : Nat), (n.val < 8) ∧ ((dpSt s.chip n.val).pulse = true) ∧ (instrAt s.chip n.val (dpPc s.chip n.val) = some (.signal halt mask)) :=
  ⟨node (fun c => modDp (withRegs [(dpStat 1, 0x301)] (dmaNode 0 c)) 1 fun d => { d with pulse := true }), 1, true, 4, by decide +kernel⟩

theorem witness_DescriptorChannelsComplete_1 : ∃ (s : State) (n : Fin 8) (mem : List (Nat × Byte)), (dlRuns s.chip n.val = false) ∧ (dmaOn s.chip = true) ∧ (dmaRate s.chip (8 + n.val) ≠ 0) :=
  ⟨node (dmaNode 0), 0, [(0x1000, 7)], by decide +kernel⟩

theorem witness_DescriptorChannelsComplete_2 : ∃ (s : State) (n : Fin 8), (dlRuns s.chip n.val = true) :=
  ⟨node (fun c => withRegs [(dlStat 0, 1), (dlBase 0 + 0x10, 0x2000)] (dmaNode 0 c)), 0, by decide +kernel⟩

theorem witness_DescriptorChannelsComplete_3 : ∃ (s : State) (n : Fin 8) (a src dst len ctl next : Nat), (dlRuns s.chip n.val = true) ∧ ((dlSt s.chip n.val).xfer = none) ∧ ((dlSt s.chip n.val).pulse = false) ∧ (dmaOn s.chip = true) ∧ (a = reg64 s.chip (dlBase n.val + 0x20) ∧ a % 32 = 0) ∧ (src = memNat zeroByte s.chip.hostMem a 8 ∧ dst = memNat zeroByte s.chip.hostMem (a + 8) 8) ∧ (len = memNat zeroByte s.chip.hostMem (a + 0x10) 4 ∧ ctl = memNat zeroByte s.chip.hostMem (a + 0x14) 4 ∧ next = memNat zeroByte s.chip.hostMem (a + 0x18) 8) ∧ (natBits ctl 0 3 ≤ 4 ∧ natBits ctl 3 3 ≤ 4 ∧ natBits ctl 20 12 = 0 ∧ 1 ≤ len ∧ len ≤ 2 ^ 24) ∧ ((natBits ctl 6 2 == 0) ≠ (natBits ctl 8 2 == 0) ∧ natBits ctl 8 2 < 2) ∧ (xferAligned (natBits ctl 0 3) (natBits ctl 3 3) src dst len = true) ∧ (spaceOk (natBits ctl 6 2) src len (natBits ctl 12 4) = true ∧ spaceOk (natBits ctl 8 2) dst len (natBits ctl 16 4) = true) :=
  ⟨node (fun c => withRegs [(dlStat 0, 1), (dlBase 0 + 0x20, 0x1000)] (hostStores (dmaNode 0 c) [(0x1000, 4), (0x1009, 1), (0x1010, 8), (0x1014, 0xC0)])), 0, 0x1000, 4, 0x100, 8, 0xC0, 0, by decide +kernel⟩

theorem witness_DescriptorChannelsComplete_4 : ∃ (s : State) (n : Fin 16) (limit : Fin 4097) (cycles : Nat) (x : Xfer) (k : Nat), (dmaOn s.chip = true) ∧ (8 ≤ n.val) ∧ (dlTurn (dmaCycles s.chip cycles) (dlFn s.chip (n.val - 8)) = some (n.val - 8)) ∧ (ringWaits s.chip (dlFn s.chip (n.val - 8)) = false) ∧ (dlRuns s.chip (n.val - 8) = true) ∧ ((dlSt s.chip (n.val - 8)).xfer = some x) ∧ (k = min 512 (if limit.val = 0 then 128 else limit.val)) ∧ (k < x.left) ∧ (x.dspace = 0 ∧ x.dwrap = 0) :=
  ⟨node (fun c => modDl (withRegs [(dlStat 0, 1)] (dmaNode 0 c)) 0 fun d => { d with xfer := some { src := 0, dst := 64, left := 100, swrap := 0, dwrap := 0, sspace := 3, dspace := 0, burst := 0, dw := 0 } }), 8, 64, 7, { src := 0, dst := 64, left := 100, swrap := 0, dwrap := 0, sspace := 3, dspace := 0, burst := 0, dw := 0 }, 64, by decide +kernel⟩

theorem witness_DescriptorChannelsComplete_5 : ∃ (s : State) (n : Fin 16) (limit : Fin 4097) (cycles : Nat), (dmaOn s.chip = true) ∧ (8 ≤ n.val) ∧ (dlTurn (dmaCycles s.chip cycles) (dlFn s.chip (n.val - 8)) ≠ some (n.val - 8) ∨ ringWaits s.chip (dlFn s.chip (n.val - 8)) = true) :=
  ⟨node (fun c => modDl (withRegs [(dlStat 0, 1)] (dmaNode 0 c)) 0 fun d => { d with credit := -4000, xfer := some { src := 0, dst := 64, left := 100, swrap := 0, dwrap := 0, sspace := 3, dspace := 0, burst := 0, dw := 0 } }), 8, 64, 7, by decide +kernel⟩

theorem witness_DescriptorChannelsComplete_6 : ∃ (s : State) (n : Fin 16), (8 ≤ n.val) ∧ ((dlSt s.chip (n.val - 8)).pulse = true) ∧ ((dlSt s.chip (n.val - 8)).last = false) :=
  ⟨node (fun c => modDl (withRegs [(dlStat 0, 1)] (dmaNode 0 c)) 0 fun d => { d with pulse := true, next := 0x1020 }), 8, by decide +kernel⟩

theorem witness_DescriptorChannelsComplete_7 : ∃ (s : State) (n : Fin 16) (kind : Fin 4), (8 ≤ n.val) ∧ (dlRuns s.chip (n.val - 8) = true) ∧ (reg64 s.chip (dlBase (n.val - 8) + 0x10) = 0) :=
  ⟨node (fun c => withRegs [(dlStat 0, 1)] (dmaNode 0 c)), 8, 2, by decide +kernel⟩

theorem witness_DescriptorChannelsComplete_8 : ∃ (s : State) (n : Fin 8) (o : Fin 16), (o.val < 8 ∨ o.val = 15) ∧ (rateSum s.chip ≤ 256) :=
  ⟨node (fun c => withRegs [(dlStat 0, 1)] (dmaNode 0 c)), 0, 3, by decide +kernel⟩

theorem witness_WaveformPortsComplete_1 : ∃ (s : State) (b : Fin 8), (domOn s.chip (8 + b.val) = true) ∧ (dmaOn s.chip = true) ∧ (dpRuns s.chip 0 = true ∨ (s.chip.dma.drained = some b.val ∧ bsnServes s.chip = true)) :=
  ⟨node (fun c => withRegs [(bsnStat, 2)] (withDoms [9] (dmaNode 0 c))), 1, by decide +kernel⟩

theorem witness_WaveformPortsComplete_2 : ∃ (s : State) (b : Fin 8), (dpRuns s.chip 0 = false) ∧ (s.chip.dma.drained ≠ some b.val) :=
  ⟨node (dmaNode 0), 1, by decide +kernel⟩

theorem witness_WaveformPortsComplete_3 : ∃ (s : State) (b : Nat) (limit : Fin 4097) (cycles : Nat), (dmaOn s.chip = true) ∧ (0 ≤ creditNow (dmaCycles s.chip cycles) 0) ∧ (dpState s.chip 0 = 1) ∧ (((List.range 8).find? fun k => natBit s.chip.dma.req k) = some b) :=
  ⟨node (fun c => setReq (setPort (withRegs [(bsnStat, 2), (dpBase 0, 4)] (dmaNode 0 c)) 1 [(0, ⟨0, [1, 2], 0, 3, 0, 0, 15, 0⟩)]) 1 true), 1, 0, 5, by decide +kernel⟩

theorem witness_WaveformPortsComplete_4 : ∃ (s : State) (b : Fin 8), (natBit s.chip.dma.req b.val = true) :=
  ⟨node (fun c => setReq c 1 true), 1, by decide +kernel⟩

theorem witness_WaveformPortsComplete_5 : ∃ (s : State) (b : Fin 8), (natBit s.chip.dma.req b.val = true) ∧ (dpState s.chip 0 = 1) :=
  ⟨node (fun c => setReq (setReq (setPort (withRegs [(bsnStat, 2), (dpBase 0, 4)] (dmaNode 0 c)) 1 [(0, ⟨0, [1, 2], 0, 3, 0, 0, 15, 0⟩)]) 1 true) 2 true), 1, by decide +kernel⟩

theorem witness_ImageCommandsComplete_1 : ∃ (s : State) (op : Fin 3), (op ≠ 0) ∧ (s.chip.img.op = none) ∧ (fld s.chip 0x120 0 2 ≠ op.val) ∧ (appliedBank s.chip ≠ op.val) :=
  ⟨node id, 1, by decide +kernel⟩

theorem witness_ImageCommandsComplete_2 : ∃ (s : State) (op : Fin 5), (3 ≤ op.val) ∧ (s.chip.img.op = none) ∧ (imgRefusal s.chip op.val = 0) :=
  ⟨node (withImage false), 3, by decide +kernel⟩

set_option maxRecDepth 20000 in
theorem witness_ImageCommandsComplete_3 : ∃ (s : State), (applyRefusal s.chip = 0) :=
  ⟨node (fun c => inMode 3 (withImage true c)), by decide +kernel⟩

theorem witness_ImageCommandsComplete_4 : ∃ (s : State) (op : Fin 3), (op ≠ 0) ∧ (s.chip.img.op = some op.val) :=
  ⟨node (fun c => { c with img := { c.img with op := some 1, prog := [(5, true)] } }), 1, by decide +kernel⟩

theorem witness_ImageCommandsComplete_5 : ∃ (s : State) (op : Fin 5), (3 ≤ op.val) ∧ (s.chip.img.op = some op.val) ∧ (pageProg s.chip (commitPage (op.val - 2)) = false) ∧ (pageFlagged s.chip (commitPage (op.val - 2)) = false) :=
  ⟨node (fun c => withImage false { c with img := { c.img with op := some 3 } }), 3, by decide +kernel⟩

theorem witness_MicrocodeCommandsComplete_1 : ∃ (s : State) (e : Fin 3), (e ≠ 0) ∧ (s.chip.upd.op = none) ∧ (ucWait s.chip e.val = none) :=
  ⟨node id, 1, by decide +kernel⟩

theorem witness_MicrocodeCommandsComplete_2 : ∃ (s : State) (v : Word), (s.chip.upd.openEng ≠ 0) ∧ ((ucStage s.chip s.chip.upd.openEng).length + 4 ≤ ucMax) :=
  ⟨node (fun c => modUpd c fun u => { u with openEng := 2 }), 0x12345678, by decide +kernel⟩

theorem witness_MicrocodeCommandsComplete_3 : ∃ (s : State) (e : Fin 3), (e ≠ 0) ∧ (s.chip.upd.op = none) ∧ (ucWait s.chip e.val = none) ∧ (domOn s.chip (ucDomain e.val) = true) :=
  ⟨node (withDoms [23, 24]), 2, by decide +kernel⟩

theorem witness_MicrocodeCommandsComplete_4 : ∃ (s : State) (e : Fin 3), (e ≠ 0) ∧ (s.chip.upd.op = none) ∧ (ucWait s.chip e.val = none) :=
  ⟨node id, 1, by decide +kernel⟩

theorem witness_MicrocodeCommandsComplete_5 : ∃ (s : State) (e : Fin 3), (e ≠ 0) ∧ (s.chip.upd.op = some (e.val, 3)) :=
  ⟨node (fun c => modUpd c fun u => { u with op := some (1, 3) }), 1, by decide +kernel⟩

theorem witness_MicrocodeCommandsComplete_6 : ∃ (s : State) (e : Fin 3), (e ≠ 0) ∧ (s.chip.upd.op = some (e.val, 4)) :=
  ⟨node (fun c => modUpd c fun u => { u with op := some (2, 4), slots := smPut slotDef u.slots 5 (some (3, [])) }), 2, by decide +kernel⟩

theorem witness_SaddleFramesComplete_1 : ∃ (s : State) (h : SaddleHdr) (data : List Byte), (inOrder s.chip h data = true) ∧ (calmStandby s.chip = true) :=
  ⟨node (standbyNode id), hdr 1, [], by decide +kernel⟩

theorem witness_SaddleFramesComplete_2 : ∃ (s : State) (h : SaddleHdr) (data : List Byte), (sdlUp s.chip = true ∧ h.crcOk = true ∧ sdlLenOk data = true) ∧ (calmStandby s.chip = true) :=
  ⟨node (standbyNode id), hdr 900, [], by decide +kernel⟩

theorem witness_SaddleFramesComplete_3 : ∃ (s : State) (h : SaddleHdr) (data : List Byte), (inOrder s.chip h data = true) ∧ (calmStandby s.chip = true) ∧ (s.chip.sdl.rxSet = h.set.toNat) ∧ (s.chip.sdl.rxCount ≠ 0) :=
  ⟨node (standbyNode fun x => { x with rxSet := 7, rxCount := 1, rxItems := [(5, 5)] }), hdr 1, List.replicate 16 3, by decide +kernel⟩

theorem witness_SaddleFramesComplete_4 : ∃ (s : State) (h : SaddleHdr) (data : List Byte), (inOrder s.chip h data = true) ∧ (calmStandby s.chip = true) ∧ (leNat (data.take 4) = s.chip.sdl.rxCount) ∧ (s.chip.sdl.rxSet = h.set.toNat) :=
  ⟨node (standbyNode fun x => { x with rxSet := 7, rxCount := 1, rxItems := [(5, 5)] }), hdr 1, [1, 0, 0, 0, 40, 0, 0, 0, 0, 0, 0, 0], by decide +kernel⟩

theorem witness_SaddleFramesComplete_5 : ∃ (s : State) (h : SaddleHdr) (data : List Byte), (inOrder s.chip h data = true) ∧ (calmStandby s.chip = true) ∧ (leNat (data.take 4) ≠ s.chip.sdl.rxCount) :=
  ⟨node (standbyNode fun x => { x with rxSet := 7, rxCount := 1, rxItems := [(5, 5)] }), hdr 1, [2, 0, 0, 0, 40, 0, 0, 0, 0, 0, 0, 0], by decide +kernel⟩

theorem witness_SaddleFramesComplete_6 : ∃ (s : State) (h : SaddleHdr) (data : List Byte), (inOrder s.chip h data = true) ∧ (calmStandby s.chip = true) ∧ (data.length = 128) :=
  ⟨node (standbyNode id), hdr 1, List.replicate 128 3, by decide +kernel⟩

theorem witness_SaddleFramesComplete_7 : ∃ (s : State) (h : SaddleHdr) (data : List Byte), (inOrder s.chip h data = true) ∧ (calmStandby s.chip = true) ∧ (leNat (data.take 4) = 2) ∧ (s.chip.sdl.sync = 1 ∨ s.chip.sdl.sync = 2 ∨ s.chip.sdl.sync = 4) :=
  ⟨node (standbyNode fun x => { x with sync := 1 }), hdr 1, [2, 0, 0, 0, 1, 0, 0, 0, 40, 0, 0, 0, 3, 0, 0, 0], by decide +kernel⟩

theorem witness_SaddleFramesComplete_8 : ∃ (s : State) (h : SaddleHdr) (data : List Byte), (inOrder s.chip h data = true) ∧ (calmStandby s.chip = true) ∧ (leNat (data.take 4) = 6) ∧ (data.length = 132) :=
  ⟨node (standbyNode fun x => { x with sync := 1 }), hdr 1, [6, 0, 0, 0] ++ List.replicate 128 3, by decide +kernel⟩

theorem witness_SaddleFramesComplete_9 : ∃ (s : State) (h : SaddleHdr) (data : List Byte), (inOrder s.chip h data = true) ∧ (calmStandby s.chip = true) ∧ (leNat (data.take 4) = 7) :=
  ⟨node (standbyNode fun x => { x with sync := 1 }), hdr 1, [7, 0, 0, 0], by decide +kernel⟩

theorem witness_SaddleFramesComplete_10 : ∃ (s : State) (h : SaddleHdr) (data : List Byte), (inOrder s.chip h data = true) ∧ (calmStandby s.chip = true) :=
  ⟨node (standbyNode id), hdr 1, [], by decide +kernel⟩

theorem witness_SaddleFramesComplete_11 : ∃ (s : State) (h : SaddleHdr) (data : List Byte), (inOrder s.chip h data = true) ∧ (calmStandby s.chip = true) :=
  ⟨node (standbyNode id), hdr 1, [], by decide +kernel⟩

theorem witness_SaddleFramesComplete_12 : ∃ (s : State) (h : SaddleHdr) (data : List Byte), (inOrder s.chip h data = true) ∧ (s.chip.sdl.contact = true) ∧ (nodeMode s.chip = mSafeHold) :=
  ⟨node (fun c => inMode 11 (standbyNode id c)), hdr 1, [], by decide +kernel⟩

theorem witness_SaddleTimersAndStepsComplete_1 : ∃ (s : State), (sdlUp s.chip = true) ∧ (sdlRole s.chip = 1 ∨ sdlRole s.chip = 2 ∨ sdlRole s.chip = 3) ∧ (s.chip.sdl.recs = []) ∧ (s.chip.sdl.queue = []) ∧ (s.chip.sdl.resync = []) ∧ (s.chip.sdl.out.length < 64) :=
  ⟨node (standbyNode id), by decide +kernel⟩

theorem witness_SaddleTimersAndStepsComplete_2 : ∃ (s : State), (sdlUp s.chip = true) ∧ (s.chip.sdl.out ≠ []) :=
  ⟨node (standbyNode fun x => { x with out := [⟨1, 0, 1, 0, []⟩] }), by decide +kernel⟩

theorem witness_SaddleTimersAndStepsComplete_3 : ∃ (s : State), (s.chip.sdl.contact = true) ∧ (sdlRole s.chip = 2) ∧ (leaseHeld s.chip = false) :=
  ⟨node (standbyNode fun x => { x with sync := 2, txSeq := 9 }), by decide +kernel⟩

theorem witness_SaddleTimersAndStepsComplete_4 : ∃ (s : State), (sdlRole s.chip = 2) ∧ (s.chip.sdl.sync = 1) ∧ (resyncStep s.chip = 3) :=
  ⟨node (fun c => withRegs [(0x1C001C, 0x30)] (standbyNode (fun x => { x with sync := 1, applied := some (1, 1) }) c)), by decide +kernel⟩

theorem witness_SaddleTimersAndStepsComplete_5 : ∃ (s : State) (a : Nat × Nat), (sdlRole s.chip = 2) ∧ (s.chip.sdl.sync = 1) ∧ (resyncStep s.chip = 4) ∧ (s.chip.sdl.applied = some a) :=
  ⟨node (fun c => withRegs [(0x1C001C, 0x40)] (standbyNode (fun x => { x with sync := 1, applied := some (1, 1) }) c)), (1, 1), by decide +kernel⟩

theorem witness_SaddleTimersAndStepsComplete_6 : ∃ (s : State), (nodeMode s.chip = mTakeover) ∧ (peerLegsOff s.chip = true ∨ s.chip.sdl.contact = false) :=
  ⟨node (fun c => modSdl (inMode 6 c) fun x => { x with arm := 5 }), by decide +kernel⟩

theorem witness_SaddleTimersAndStepsComplete_7 : ∃ (s : State), (s.chip.sdl.swb = 2) ∧ (sdlRole s.chip = 1) :=
  ⟨node (activeNode fun x => { x with swb := 2 }), by decide +kernel⟩

theorem witness_SaddleTimersAndStepsComplete_8 : ∃ (s : State) (v : Word), (sdlMixed s.chip = false ∨ v.getLsbD 0 = true) :=
  ⟨node (standbyNode id), 1, by decide +kernel⟩

theorem witness_SaddleTimersAndStepsComplete_9 : ∃ (s : State) (v : Word), (sdlMixed s.chip = true) ∧ (v.getLsbD 0 = false) ∧ (sdlRole s.chip = 2) :=
  ⟨node (fun c => withRegs [(0x1C0028, 3)] (standbyNode id c)), 0, by decide +kernel⟩

theorem witness_LeaseCommandsComplete_1 : ∃ (s : State), (sdlUp s.chip = true) ∧ (sdlRole s.chip = 1) :=
  ⟨node (activeNode id), by decide +kernel⟩

theorem witness_LeaseCommandsComplete_2 : ∃ (s : State) (port : Fin 2) (data : List Byte), (nodeMode s.chip = mArbiter) ∧ (sdlUp s.chip = true) ∧ (leaseOk data 1 = true) ∧ (lfUnit data < 2) ∧ (natBit (lfFlags data) 0 = true ∧ natBit (lfFlags data) 1 = true) ∧ (s.chip.sdl.holdoff = false) ∧ (s.chip.sdl.holder = none) ∧ (arbGuard s.chip = false) :=
  ⟨node (arbNode fun x => { x with holdoff := false, leaseNum := 6 }), 1, leaseFrame 1 1 3 44 0 0, by decide +kernel⟩

theorem witness_LeaseCommandsComplete_3 : ∃ (s : State) (port : Fin 2) (data : List Byte) (u : Nat), (nodeMode s.chip = mArbiter) ∧ (sdlUp s.chip = true) ∧ (leaseOk data 1 = true) ∧ (lfUnit data < 2) ∧ (s.chip.sdl.holder = some u) ∧ (u ≠ lfUnit data) :=
  ⟨node (arbNode fun x => { x with holdoff := false, holder := some 0 }), 1, leaseFrame 1 1 3 44 0 0, 0, by decide +kernel⟩

theorem witness_LeaseCommandsComplete_4 : ∃ (s : State) (data other : List Byte) (a b : List Byte), (nodeMode s.chip = mArbiter) ∧ (sdlUp s.chip = true) ∧ (leaseOk data 1 = true ∧ leaseOk other 1 = true) ∧ ((lfUnit data = 0 ∧ lfUnit other = 1) ∨ (lfUnit data = 1 ∧ lfUnit other = 0)) ∧ (∀ x ∈ [data, other], natBit (lfFlags x) 0 = true ∧ natBit (lfFlags x) 1 = true) ∧ (s.chip.sdl.holdoff = false) ∧ (s.chip.sdl.holder = none) ∧ (arbGuard s.chip = false) ∧ ((a, b) = (if lfUnit data = 0 then (data, other) else (other, data))) :=
  ⟨node (arbNode fun x => { x with holdoff := false, leaseNum := 6 }), leaseFrame 1 1 3 44 0 0, leaseFrame 1 0 3 45 0 0, leaseFrame 1 0 3 45 0 0, leaseFrame 1 1 3 44 0 0, by decide +kernel⟩

theorem witness_LeaseCommandsComplete_5 : ∃ (s : State) (data : List Byte) (a : Nat × Bool × Nat), (sdlUp s.chip = true) ∧ (leaseOk data 2 = true) ∧ (askedOf s.chip data = some a) ∧ (s.chip.seq.g < a.2.2 + 40) ∧ (promoteReady s.chip = false) :=
  ⟨node (activeNode fun x => { x with asked := [(44, true, 0)] }), leaseFrame 2 0 0 44 5 0, (44, true, 0), by decide +kernel⟩

theorem witness_LeaseCommandsComplete_6 : ∃ (s : State) (data : List Byte) (a : Nat × Bool × Nat), (sdlUp s.chip = true) ∧ (leaseOk data 3 = true) ∧ (askedOf s.chip data = some a) :=
  ⟨node (activeNode fun x => { x with asked := [(44, true, 0)] }), leaseFrame 3 0 0 44 5 100, (44, true, 0), by decide +kernel⟩

theorem witness_LeaseCommandsComplete_7 : ∃ (s : State) (port : Fin 2) (data : List Byte), (nodeMode s.chip = mArbiter) ∧ (sdlUp s.chip = true) ∧ (leaseOk data 4 = true) ∧ (s.chip.sdl.holder = some (lfUnit data)) :=
  ⟨node (arbNode fun x => { x with holder := some 1 }), 1, leaseFrame 4 1 0 44 0 0, by decide +kernel⟩

theorem witness_LeaseCommandsComplete_8 : ∃ (s : State) (l : Nat × Nat), (s.chip.sdl.lease = some l) ∧ (sdlRole s.chip ≠ 1 ∨ s.chip.sdl.contact = true) :=
  ⟨node (activeNode fun x => { x with lease := some (4, 4) }), (4, 4), by decide +kernel⟩

theorem witness_LeaseCommandsComplete_9 : ∃ (s : State) (u : Nat), (nodeMode s.chip = mArbiter) ∧ (s.chip.sdl.holder = some u) :=
  ⟨node (arbNode fun x => { x with holder := some 1 }), 1, by decide +kernel⟩

theorem witness_LeaseCommandsComplete_10 : ∃ (s : State), (nodeMode s.chip = mArbiter) :=
  ⟨node (arbNode id), by decide +kernel⟩

theorem witness_ClockAndCalendarComplete_1 : ∃ (s : State), (calOk (calOf (reg s.chip 0x1D0024).toNat (reg s.chip 0x1D0028).toNat) = true) ∧ (16 ≤ fld s.chip 0x1D0000 16 12) :=
  ⟨node (fun c => withRegs [(0x1D0020, 9), (0x1D0024, 0x0D1E0F), (0x1D0028, 0x7E8021D)] c), by decide +kernel⟩

theorem witness_ClockAndCalendarComplete_2 : ∃ (s : State) (ss : Nat) (k : Cal), (rtcOn s.chip = true ∧ aonRuns s.chip = true) ∧ (s.chip.rtc.set = some (ss, k)) :=
  ⟨node (fun c => modRtc (withDoms [0] (inMode 3 c)) fun r => { r with set := some (7, { calZero with year := 2024 }) }), 7, { calZero with year := 2024 }, by decide +kernel⟩

theorem witness_ClockAndCalendarComplete_3 : ∃ (s : State) (a : BitVec 16), (flag s.chip rtcStat 5 = false) ∧ (-16384 ≤ a.toInt ∧ a.toInt ≤ 16384) :=
  ⟨node id, 0xFFF0, by decide +kernel⟩

theorem witness_ClockAndCalendarComplete_4 : ∃ (s : State), (rtcOn s.chip = true ∧ aonRuns s.chip = true) ∧ (s.chip.rtc.set = none) ∧ (s.chip.pwr.onCrystal = true) ∧ (fld s.chip 0x1D0030 0 12 = 0 ∧ -10000000 < s.chip.rtc.acc ∧ s.chip.rtc.acc < 10000000) ∧ (shiftLeft s.chip = 0) ∧ (s.chip.rtc.ss < 32767) :=
  ⟨node (fun c => withDoms [0] (inMode 3 c)), by decide +kernel⟩

theorem witness_ClockAndCalendarComplete_5 : ∃ (s : State), (rtcOn s.chip = true ∧ aonRuns s.chip = true) ∧ (s.chip.rtc.set = none) ∧ (s.chip.pwr.onCrystal = true) ∧ (fld s.chip 0x1D0030 0 12 = 0 ∧ -10000000 < s.chip.rtc.acc ∧ s.chip.rtc.acc < 10000000) ∧ (shiftLeft s.chip = 0) ∧ (s.chip.rtc.ss = 32767) ∧ (flag s.chip 0x1D0048 8 = false ∧ flag s.chip 0x1D0058 8 = false) :=
  ⟨node (fun c => modRtc (withDoms [0] (inMode 3 c)) fun r => { r with ss := 32767 }), by decide +kernel⟩

theorem witness_ClockAndCalendarComplete_6 : ∃ (s : State), (rtcOn s.chip = true ∧ aonRuns s.chip = true) ∧ (s.chip.rtc.set = none) ∧ (s.chip.pwr.onCrystal = true) ∧ (fld s.chip 0x1D0030 0 12 = 0 ∧ -10000000 < s.chip.rtc.acc ∧ s.chip.rtc.acc < 10000000) ∧ (shiftLeft s.chip ≠ 0) ∧ (s.chip.rtc.wait = true ∨ s.chip.rtc.edge = 15) ∧ (s.chip.rtc.ss < 32766) :=
  ⟨node (fun c => withRegs [(0x1D003C, 0xFFFE), (rtcStat, 0x20)] (modRtc (withDoms [0] (inMode 3 c)) fun r => { r with edge := 15, ss := 5 })), by decide +kernel⟩

theorem witness_ClockAndCalendarComplete_7 : ∃ (s : State) (n : Exact) (m : Int), (rtcOn s.chip = true) ∧ (domOn s.chip 26 = true) ∧ (fld s.chip 0x1D0000 2 2 ≠ 0) ∧ (fld s.chip 0x1D0000 16 12 ≠ 0) ∧ (m = roundHE ((exactVal n / (32768 * (fld s.chip 0x1D0000 16 12 : Nat)) - 1) * 10000000)) ∧ (-2000 ≤ m ∧ m ≤ 2000) :=
  ⟨node (fun c => withRegs [(0x1D0000, 0x00400014)] (withDoms [0, 26] c)), ⟨2097153, 1⟩, 5, by decide +kernel⟩

theorem witness_PanelCommandsComplete_1 : ∃ (s : State), (panelMay s.chip = true) ∧ (lcdState s.chip = 0) :=
  ⟨node (fun c => withRegs [(lcdCtl, 0x640001)] (withDoms [19, 20] c)), by decide +kernel⟩

theorem witness_PanelCommandsComplete_2 : ∃ (s : State), (lcdState s.chip = 1) ∧ (panelMay s.chip = true) :=
  ⟨node (fun c => withRegs [(lcdCtl, 0x640003), (lcdStat, 1)] (withDoms [19, 20] c)), by decide +kernel⟩

theorem witness_PanelCommandsComplete_3 : ∃ (s : State), (panelMay s.chip = false) ∧ (lcdState s.chip ≠ 0 ∧ lcdState s.chip ≠ 3) :=
  ⟨node (fun c => withRegs [(lcdStat, 2)] c), by decide +kernel⟩

theorem witness_PanelCommandsComplete_4 : ∃ (s : State), (lcdState s.chip = 3) :=
  ⟨node (fun c => withRegs [(lcdStat, 3)] c), by decide +kernel⟩

theorem witness_PanelCommandsComplete_5 : ∃ (s : State), (panelMay s.chip = true) ∧ (lcdState s.chip = 2) :=
  ⟨node (fun c => withRegs [(lcdCtl, 0x640001), (lcdStat, 2)] (withDoms [19, 20] c)), by decide +kernel⟩

theorem witness_PanelCommandsComplete_6 : ∃ (s : State), (panelMay s.chip = true) ∧ (lcdState s.chip = 1) ∧ (s.chip.lcd.ready = true ∨ s.chip.lcd.firstOff = true) :=
  ⟨node (fun c => withRegs [(lcdCtl, 0x640001), (lcdStat, 1)] (modLcd (withDoms [19, 20] c) fun l => { l with ready := true })), by decide +kernel⟩

theorem witness_PanelCommandsComplete_7 : ∃ (s : State), (pumpOk s.chip = true) :=
  ⟨node (fun c => withRegs [(lcdCtl, 0x640003), (lcdStat, 0x12)] (withDoms [19, 20] c)), by decide +kernel⟩

theorem witness_PanelCommandsComplete_8 : ∃ (s : State) (ok : Bool), (lcdSrc s.chip = 1) ∧ (pumpOk s.chip = false) ∧ (lcdState s.chip = 4) ∧ (domOn s.chip 20 = true) ∧ (opRuns s.chip .pump = true) :=
  ⟨node (fun c => withRegs [(lcdCtl, 0x640003), (lcdStat, 4)] (setPwr (withDoms [19, 20] c) fun p => { p with surges := [⟨.pump, 20, 60⟩] })), true, by decide +kernel⟩

theorem witness_PanelCommandsComplete_9 : ∃ (s : State), (lcdSrc s.chip = 1) ∧ (pumpOk s.chip = false) ∧ (lcdState s.chip = 4) ∧ (domOn s.chip 20 = true) ∧ (opRuns s.chip .pump = false ∧ opWaits s.chip .pump = false) :=
  ⟨node (fun c => withRegs [(lcdCtl, 0x640003), (lcdStat, 4)] (withDoms [19, 20] c)), by decide +kernel⟩

end Sys2Proof.Tests
end

section
/-! SUPPORT. Encoding an exact value into a quantity word (R63 to R65): rounding half to even, saturation, OVER. -/

namespace Sys2Proof.Machine

/-! ## Rounding half to even (R63) -/

/-- Rounding seen from any integer `f` that is known to be the floor. -/
theorem roundHE_of_floor {y : Rat} {f : Int} (hlo : (f : Rat) ≤ y) (hhi : y < f + 1) :
    roundHE y = if 2 * (y - f) < 1 then f else if 1 < 2 * (y - f) then f + 1 else if f % 2 = 0 then f else f + 1 := by
  have hf : y.floor = f := Int.floor_eq_iff.mpr ⟨hlo, hhi⟩
  have below : y - (f : Rat) < 1 / 2 ↔ 2 * (y - f) < 1 := by constructor <;> intro h <;> linarith
  have above : 1 / 2 < y - (f : Rat) ↔ 1 < 2 * (y - f) := by constructor <;> intro h <;> linarith
  simp only [roundHE, hf, below, above]

/-- An integer less than one half away is the rounded value. -/
theorem roundHE_of_near {y : Rat} {n : Int} (hlo : -1 < 2 * (y - n)) (hhi : 2 * (y - n) < 1) : roundHE y = n := by
  rcases le_or_gt (n : Rat) y with hn | hn
  · rw [roundHE_of_floor hn (by linarith), if_pos hhi]
  · have hcast : ((n - 1 : Int) : Rat) = n - 1 := by simp
    rw [roundHE_of_floor (f := n - 1) (by linarith) (by linarith), if_neg (by linarith), if_pos (by linarith),
      sub_add_cancel]

/-- From the middle above an even integer, rounding goes down to it. -/
theorem roundHE_of_tie_above {y : Rat} {n : Int} (heven : n % 2 = 0) (htie : 2 * (y - n) = 1) : roundHE y = n := by
  rw [roundHE_of_floor (f := n) (by linarith) (by linarith), if_neg (by linarith), if_neg (by linarith), if_pos heven]

/-- From the middle below an even integer, rounding goes up to it: the floor is odd. -/
theorem roundHE_of_tie_below {y : Rat} {n : Int} (heven : n % 2 = 0) (htie : 2 * (y - n) = -1) : roundHE y = n := by
  have hcast : ((n - 1 : Int) : Rat) = n - 1 := by simp
  have hodd : ¬ (n - 1) % 2 = 0 := by omega
  rw [roundHE_of_floor (f := n - 1) (by linarith) (by linarith), if_neg (by linarith), if_neg (by linarith),
    if_neg hodd, sub_add_cancel]

/-! ## Saturation and OVER (R64, R65) -/

theorem mantLim_nonneg (wide : Bool) : 0 ≤ mantLim wide := by
  cases wide <;> decide

/-- The encoded word holds the rounded mantissa, clamped to the range of the destination's width. -/
theorem encodeValue_word (wide : Bool) (x : Rat) (e : Int) (u q : Nat) :
    (encodeValue wide x e u q).1
      = { mant := max (-mantLim wide) (min (mantLim wide) (roundHE (x / pow10 e))), exp := e, unit := u, qual := q } := by
  have hlim := mantLim_nonneg wide
  simp only [encodeValue]
  split
  · next habove => rw [min_eq_left habove.le, max_eq_right (by omega)]
  · split
    · next hbelow => rw [max_eq_left ((min_le_right _ _).trans hbelow.le)]
    · rw [min_eq_right (by omega), max_eq_right (by omega)]

/-- The encoding reports a saturation exactly when the rounded mantissa lies outside the range. -/
theorem encodeValue_over (wide : Bool) (x : Rat) (e : Int) (u q : Nat) :
    (encodeValue wide x e u q).2 = true
      ↔ roundHE (x / pow10 e) < -mantLim wide ∨ mantLim wide < roundHE (x / pow10 e) := by
  simp only [encodeValue]
  split
  · next habove => simp [habove]
  · next hle =>
    split
    · next hbelow => simp [hbelow]
    · next hge => simp [hle, hge]

/-- OVER joins the flags exactly when the rounded mantissa lies outside the range. -/
theorem encodeWord_flags (wide : Bool) (x : Rat) (e : Int) (u q fl : Nat) :
    (encodeWord wide x e u q fl).2
      = if roundHE (x / pow10 e) < -mantLim wide ∨ mantLim wide < roundHE (x / pow10 e) then flagOn flOver fl else fl := by
  simp only [encodeWord, encodeValue_over]

/-- Settles O7: the integer that the premise describes is the rounded value, from which the word and the flags follow. -/
theorem encodingRoundsHalfToEven : Obligations.EncodingRoundsHalfToEven := by
  intro wide x e n u q fl hnearest
  have hround : roundHE (x / pow10 e) = n := by
    rcases hnearest with ⟨hlo, hhi⟩ | ⟨heven, htie | htie⟩
    · exact roundHE_of_near hlo hhi
    · exact roundHE_of_tie_above heven htie
    · exact roundHE_of_tie_below heven htie
  rw [encodeValue_word, encodeWord_flags, hround]
  exact ⟨rfl, rfl⟩

end Sys2Proof.Machine
end

section
/-! SUPPORT. What a command touches, composed from its updates, and the frame of a host reset (R142, R143, R906): the
host block, the descriptor channels' pages, the stored bandwidth and the reset cause. -/

namespace Sys2Proof.Machine

/-! ## Updates that stay inside what a command touches -/

variable {ps qs : List Part} {rs rs' : Nat → Bool} {a b c : Chip}

theorem regIn_iff {lo hi off : Nat} : regIn lo hi off = true ↔ lo ≤ off ∧ off < hi := by simp [regIn]

theorem Touches.refl (ps : List Part) (rs : Nat → Bool) (c : Chip) : Touches ps rs c c :=
  ⟨onlyParts_refl _ c, onlyRegs_refl _ c⟩

theorem Touches.trans (h : Touches ps rs a b) (k : Touches ps rs b c) : Touches ps rs a c :=
  ⟨onlyParts_trans h.parts k.parts, onlyRegs_trans h.regs k.regs⟩

theorem Touches.mono (h : Touches ps rs a b) (hp : ps ⊆ qs) (hr : ∀ off, rs off = true → rs' off = true) :
    Touches qs rs' a b :=
  ⟨onlyParts_mono h.parts fun _ hm => List.cons_subset_cons _ hp hm, onlyRegs_mono h.regs hr⟩

theorem Touches.setReg (h : Touches ps rs a b) {off : Nat} (v : Word) (ho : rs off = true) :
    Touches ps rs a (Machine.setReg b off v) := by
  refine h.trans ⟨fun p hp => ?_, fun o hn => reg_setReg_other b off o v fun e => hn (e ▸ ho)⟩
  cases p with
  | regs => exact absurd List.mem_cons_self hp
  | _ => rfl

theorem Touches.setFld (h : Touches ps rs a b) {off : Nat} (lo w x : Nat) (ho : rs off = true) :
    Touches ps rs a (Machine.setFld b off lo w x) := h.setReg _ ho

theorem Touches.setFlag (h : Touches ps rs a b) {off : Nat} (i : Nat) (x : Bool) (ho : rs off = true) :
    Touches ps rs a (Machine.setFlag b off i x) := h.setReg _ ho

/-- A register outside a reset range reads as before. -/
theorem reg_resetRegs_other (c : Chip) {lo hi off : Nat} (h : ¬ (lo ≤ off ∧ off < hi)) :
    reg (resetRegs c lo hi) off = reg c off := by
  unfold reg resetRegs
  rw [smGet_smKeep, if_pos (by simpa [imp_iff_not_or] using h)]

theorem Touches.resetRegs (h : Touches ps rs a b) {lo hi : Nat} (hr : ∀ off, regIn lo hi off = true → rs off = true) :
    Touches ps rs a (Machine.resetRegs b lo hi) := by
  refine h.trans ⟨fun p hp => ?_, fun o hn => reg_resetRegs_other b fun hin => hn (hr o (regIn_iff.2 hin))⟩
  cases p with
  | regs => exact absurd List.mem_cons_self hp
  | _ => rfl

theorem Touches.modFn (h : Touches ps rs a b) (fn : Nat) (f : FnSt → FnSt) (hps : Part.fns ∈ ps) :
    Touches ps rs a (Machine.modFn b fn f) := by
  refine h.trans ⟨fun p hp => ?_, fun _ _ => rfl⟩
  cases p with
  | fns => exact absurd (List.mem_cons_of_mem _ hps) hp
  | _ => rfl

theorem Touches.modDl (h : Touches ps rs a b) (n : Nat) (f : DlSt → DlSt) (hps : Part.dma ∈ ps) :
    Touches ps rs a (Machine.modDl b n f) := by
  refine h.trans ⟨fun p hp => ?_, fun _ _ => rfl⟩
  cases p with
  | dma => exact absurd (List.mem_cons_of_mem _ hps) hp
  | _ => rfl

theorem Touches.hostWrite (h : Touches ps rs a b) (x : Nat) (bs : List Byte) (hps : Part.hostMem ∈ ps) :
    Touches ps rs a (Machine.hostWrite b x bs) := by
  refine h.trans ⟨fun p hp => ?_, fun _ _ => rfl⟩
  cases p with
  | hostMem => exact absurd (List.mem_cons_of_mem _ hps) hp
  | _ => rfl

theorem Touches.foldl {β : Type} (f : Chip → β → Chip) (xs : List β) (hf : ∀ c, ∀ x ∈ xs, Touches ps rs c (f c x)) (c : Chip) :
    Touches ps rs c (xs.foldl f c) := by
  induction xs generalizing c with
  | nil => exact Touches.refl _ _ c
  | cons x xs ih =>
    exact (hf c x List.mem_cons_self).trans (ih (fun d y hy => hf d y (List.mem_cons_of_mem _ hy)) (f c x))

/-! ## The descriptor channels of a reset function (R906, R909, R910) -/

/-- The registers of a descriptor channel's page but OWN. -/
def dlPage (n : Nat) : Nat → Bool := regIn (dlBase n + 4) (dlBase n + 0x40)

theorem dlStat_mem_dlPage (n : Nat) : dlPage n (dlStat n) = true := by
  unfold dlPage dlStat
  rw [regIn_iff]
  omega

theorem writeCw_touches (c : Chip) (n reason : Nat) : Touches [.hostMem] noReg c (writeCw c n reason) := by
  simp only [writeCw]
  split
  · exact Touches.refl _ _ c
  · exact (Touches.refl _ _ c).hostWrite _ _ (by simp)

theorem haltDl_touches (c : Chip) (n reason : Nat) :
    Touches [.hostMem, .dma] (dlPage n) c (haltDl c n reason) := by
  have hstat := dlStat_mem_dlPage n
  have hhalt := (((Touches.refl [.hostMem, .dma] (dlPage n) c).setFld 0 2 3 hstat).setFld 4 4 reason hstat).modDl n
    (fun d => { d with xfer := none, pulse := false }) (by simp)
  simp only [haltDl]
  split
  · exact hhalt
  · exact hhalt.trans ((writeCw_touches _ n reason).mono (by simp) (by simp [noReg]))

theorem dlClear_touches (c : Chip) (n reason : Nat) :
    Touches [.hostMem, .dma] (dlPage n) c (dlClear c n reason) := by
  have hhalt : Touches [.hostMem, .dma] (dlPage n) c (if dlRuns c n then haltDl c n reason else c) := by
    split
    · exact haltDl_touches c n reason
    · exact Touches.refl _ _ c
  exact (hhalt.modDl n _ (by simp)).resetRegs fun _ hin => hin

theorem dlFnReset_touches (c : Chip) (fn : Nat) :
    Touches [.hostMem, .dma] (regIn 0x1A0400 0x1A0600) c (dlFnReset c fn) := by
  refine Touches.foldl _ _ (fun d n hn => ?_) c
  have hlt : n < 8 := List.mem_range.1 hn
  split
  · refine (dlClear_touches d n 11).mono (List.Subset.refl _) fun off hin => ?_
    simp only [dlPage, dlBase, regIn_iff] at hin ⊢
    omega
  · exact Touches.refl _ _ d

/-! ## The host block and the link (R142, R278, R878) -/

theorem resetFn_touches (c : Chip) (fn : Nat) :
    Touches [.fns] (regIn (hostPage fn) (hostPage fn + 0x1000)) c (resetFn c fn) :=
  ((Touches.refl _ _ c).resetRegs fun _ hin => hin).modFn _ _ (by simp)

theorem resetHostBlock_touches (c : Chip) : Touches [.fns] (regIn 0x20000 0x30000) c (resetHostBlock c) := by
  refine ((Touches.refl _ _ c).resetRegs fun _ hin => hin).trans (Touches.foldl _ _ (fun d fn hfn => ?_) _)
  have hlt : fn < 9 := List.mem_range.1 hfn
  refine (resetFn_touches d fn).mono (List.Subset.refl _) fun off hin => ?_
  simp only [hostPage, regIn_iff] at hin ⊢
  omega

theorem capHbw_touches (c : Chip) : Touches [] (regAt 0x1A0004) c (capHbw c) := by
  unfold capHbw
  split
  · exact Touches.refl _ _ c
  · exact (Touches.refl _ _ c).setFld _ _ _ (by decide)

theorem linkTrained_touches (c : Chip) (speed width : Nat) :
    Touches [] (regsAt [0x20000, 0x1A0004]) c (linkTrained c speed width) :=
  ((Touches.refl _ _ c).setReg _ (by decide)).trans
    ((capHbw_touches _).mono (List.Subset.refl _) fun off hin => by
      obtain rfl : off = 0x1A0004 := by simpa [regAt] using hin
      decide)

/-! ## The host reset -/

/-- The registers that a host reset may change: the host block, the descriptor channels' pages, the reset cause and the
stored bandwidth. -/
def hostResetReg (off : Nat) : Bool :=
  regIn 0x20000 0x30000 off || regIn 0x1A0400 0x1A0600 off || off == 0x110 || off == 0x1A0004

theorem hostResetReg_iff {off : Nat} : hostResetReg off = true ↔
    (0x20000 ≤ off ∧ off < 0x30000) ∨ (0x1A0400 ≤ off ∧ off < 0x1A0600) ∨ off = 0x110 ∨ off = 0x1A0004 := by
  simp [hostResetReg, regIn_iff, or_assoc]

/-- A host reset touches the functions, host memory and the descriptor channels, and the registers of `hostResetReg`. -/
theorem hostReset_touches (c : Chip) (speed width : Nat) :
    Touches [.fns, .hostMem, .dma] hostResetReg c (hostReset c speed width) := by
  have hdl (d : Chip) (fn : Nat) : Touches [.fns, .hostMem, .dma] hostResetReg d (dlFnReset d fn) :=
    (dlFnReset_touches d fn).mono (by simp) fun _ hin => hostResetReg_iff.2 (.inr (.inl (regIn_iff.1 hin)))
  have hhost (d : Chip) : Touches [.fns, .hostMem, .dma] hostResetReg d (resetHostBlock d) :=
    (resetHostBlock_touches d).mono (by simp) fun _ hin => hostResetReg_iff.2 (.inl (regIn_iff.1 hin))
  have hlink (d : Chip) : Touches [.fns, .hostMem, .dma] hostResetReg d (linkTrained d speed width) :=
    (linkTrained_touches d speed width).mono (List.nil_subset _) fun off hin => by
      simp only [regsAt, List.contains_cons, List.contains_nil, Bool.or_false, Bool.or_eq_true, beq_iff_eq] at hin
      rw [hostResetReg_iff]
      omega
  exact (((Touches.foldl _ _ (fun d fn _ => hdl d fn) c).trans (hhost _)).setFlag 5 true
    (hostResetReg_iff.2 (by simp))).trans (hlink _)

/-- Settles O12: the frame of a host reset holds none of the parts and none of the registers that the statement names. -/
theorem hostResetKeepsThePlant : Obligations.HostResetKeepsThePlant := by
  intro s speed width
  have hframe := hostReset_touches s.chip speed.val width.val
  have hreg : ∀ off, ¬ hostResetReg off = true → reg (hostReset s.chip speed.val width.val) off = reg s.chip off :=
    hframe.regs
  have hmode := hreg 0x100 (by decide)
  refine ⟨_, rfl, rfl, ?_, hmode, fun p hp => hframe.parts p ?_, fun off hlo hhi => hreg off ?_⟩
  · exact congrArg (bits · 0 4) hmode
  · revert p
    decide
  · rw [hostResetReg_iff]
    omega

end Sys2Proof.Machine
end

section
/-! SUPPORT. The doorbell writes that are ignored: byte enables without both index bytes (R237), a ring that is not
enabled (R239). -/

namespace Sys2Proof.Machine

/-- The host's stores are outside the register file, so they enable and disable no ring. -/
theorem ringEn_hostStores (c : Chip) (mem : List (Nat × Byte)) (fn r : Nat) :
    ringEn (hostStores c mem) fn r = ringEn c fn r := rfl

/-- R239: whatever its value, a doorbell of a ring that is not enabled is not judged. -/
theorem ringDoorbell_of_disabled {c : Chip} {fn r : Nat} (hen : ringEn c fn r = false) (v : Nat) :
    ringDoorbell c fn r v = c := by
  unfold ringDoorbell
  exact if_pos (Or.inl (by rw [hen]; rfl))

/-- R237: without both index bytes only the host's own stores remain of a doorbell write. -/
theorem doorbellWrite_of_partial {be : BitVec 4} (hbe : (be.getLsbD 0 && be.getLsbD 1) = false) (c : Chip) (fn r : Nat)
    (mem : List (Nat × Byte)) (v : Word) : doorbellWrite c fn r mem v be = hostStores c mem := by
  simp only [doorbellWrite, hbe, Bool.false_eq_true, if_false]

/-- R239: with any byte enables, only the host's own stores remain of a doorbell write to a ring that is not enabled. -/
theorem doorbellWrite_of_disabled {c : Chip} {fn r : Nat} (hen : ringEn c fn r = false) (mem : List (Nat × Byte))
    (v : Word) (be : BitVec 4) : doorbellWrite c fn r mem v be = hostStores c mem := by
  have hen' : ringEn (hostStores c mem) fn r = false := (ringEn_hostStores c mem fn r).trans hen
  simp only [doorbellWrite, ringDoorbell_of_disabled hen', ite_self]

/-- Settles O9: a missing index byte and a ring that is not enabled each leave the host's stores alone. -/
theorem doorbellIgnored : Obligations.DoorbellIgnored := by
  intro s fn mem r v be hignored
  have hstores : doorbellWrite s.chip fn.val r.val mem v be = hostStores s.chip mem := by
    rcases hignored with hbyte0 | hbyte1 | hen
    · exact doorbellWrite_of_partial (by rw [hbyte0, Bool.false_and]) _ _ _ _ _
    · exact doorbellWrite_of_partial (by rw [hbyte1, Bool.and_false]) _ _ _ _ _
    · exact doorbellWrite_of_disabled hen mem v be
  exact ⟨_, rfl, rfl, hstores⟩

end Sys2Proof.Machine
end

section
/-! SUPPORT. A duplicate Saddle frame whose ACK gives contact: the frame is discarded, but the event CONTACT is an error of
SEV 2, and its FAULT record enters the ring image (R958, R960, R1006, R1083, R1091). -/

namespace Sys2Proof.Machine

/-- R958: of a frame whose SEQ is LAST, its acknowledgement and the count of duplicates remain. -/
theorem receive_of_duplicate {c : Chip} {h : SaddleHdr} {data : List Byte} (act : Chip → Chip)
    (hvalid : (sdlUp c && h.crcOk && sdlLenOk data) = true)
    (hdup : seqAhead h.seq.toNat (ackIn c h.ack.toNat).sdl.last = 0) :
    receive c h data false act = countFld (ackIn c h.ack.toNat) 0x1C000C 0 16 := by
  simp [receive, hvalid, hdup]

/-- The ring image after such a frame is the one that its acknowledgement leaves. -/
theorem recImage_receive_of_duplicate {c : Chip} {h : SaddleHdr} {data : List Byte} (act : Chip → Chip)
    (hvalid : (sdlUp c && h.crcOk && sdlLenOk data) = true)
    (hdup : seqAhead h.seq.toNat (ackIn c h.ack.toNat).sdl.last = 0) (slot : Nat) :
    recImage (receive c h data false act) slot = recImage (ackIn c h.ack.toNat) slot := by
  simp only [receive_of_duplicate act hvalid hdup, recImage, countFld_rcd]

/-- An active unit in RUN whose recorder is READY: it lacks contact, has sent one frame since, and has accepted SEQ 7. -/
def contactlessUnit : Chip :=
  let running := modMode (setFld Chip.reset 0x100 0 4 mRun) fun m => { m with up := true, frames := true }
  let powered := setDom (setDom running 6 .on) 25 .on
  modSdl (setFlag (setFlag powered 0x1C0000 0 true) 0x180008 0 true) fun l => { l with txSeq := 1, last := 7 }

/-- The standby twin repeats its frame 7 and acknowledges the frame that the unit sent. -/
def repeatedHeader : SaddleHdr := { sflags := 5, seq := 7, ack := 1, set := 0, crcOk := true }

theorem repeatedHeader_valid : (sdlUp contactlessUnit && repeatedHeader.crcOk && sdlLenOk []) = true := by decide +kernel

theorem repeatedHeader_duplicate :
    seqAhead repeatedHeader.seq.toNat (ackIn contactlessUnit repeatedHeader.ack.toNat).sdl.last = 0 := by decide +kernel

theorem recImage_contactlessUnit : recImage contactlessUnit 0 = none := by decide +kernel

/-- The acknowledgement alone puts a FAULT record (source 0x103) of SDL_EVENT (code 0x78) into slot 0. -/
theorem recImage_contact_gained :
    (recImage (ackIn contactlessUnit repeatedHeader.ack.toNat) 0).map (fun r => (r.source, r.aux)) = some (0x103, 0x78) := by
  decide +kernel

/-- Refutes O10: the ring image does not stand when the duplicate's ACK gives contact, since SDL_EVENT forms a record. -/
theorem not_saddleSequenceJudged : ¬ Obligations.SaddleSequenceJudged := by
  rintro ⟨hduplicate, -⟩
  obtain ⟨t, hexec, -, -, -, -, -, -, -, -, -, himage, -⟩ :=
    hduplicate { chip := contactlessUnit, pending := [] } repeatedHeader [] (by decide +kernel) (.inl (by decide +kernel))
      (.heartbeat repeatedHeader []) List.mem_cons_self
  obtain rfl : { chip := rxHeartbeat contactlessUnit repeatedHeader [], pending := [] } = t := by injection hexec
  have hslot : recImage (rxHeartbeat contactlessUnit repeatedHeader []) 0 = recImage contactlessUnit 0 :=
    congrArg (smGet imgDef · 0) himage
  have hrecord := recImage_contact_gained
  rw [← recImage_receive_of_duplicate (promote · false) repeatedHeader_valid repeatedHeader_duplicate] at hrecord
  rw [rxHeartbeat, recImage_contactlessUnit] at hslot
  rw [hslot] at hrecord
  cases hrecord

end Sys2Proof.Machine
end

section
-- One proof at a time: every thread takes a stack of its own from the memory that a compile has.
set_option Elab.async false
/-! SUPPORT. The form of a step: the front of the queue runs, every command acts on the node alone, and the state after reset. -/

namespace Sys2Proof.Machine

/-- Every command acts on the node alone. -/
theorem exec_onChip (i : Instr) (s : State) : ∃ c, exec i s = .next { s with chip := c } := by
  cases i <;> exact ⟨_, rfl⟩

/-- Settles O1: a step takes the front of the queue. -/
theorem stepRunsFront : Obligations.StepRunsFront := fun _ _ => rfl

/-- Settles O2: every command is an effect on the node, and an empty queue has no command. -/
theorem everyCommandAnswersAndTheBlockIdles : Obligations.EveryCommandAnswersAndTheBlockIdles := by
  refine ⟨fun s i => ?_, fun s hnil => ?_⟩
  · obtain ⟨c, hexec⟩ := exec_onChip i s
    exact ⟨_, hexec, rfl⟩
  · unfold step
    rw [hnil]

/-- Settles O3: no register is listed after reset, so each reads its default. -/
theorem resetHoldsDefaults : Obligations.ResetHoldsDefaults := by
  refine ⟨by decide +kernel, ?_, by decide +kernel, by decide +kernel, by decide +kernel, rfl, rfl⟩
  decide +kernel

/-- Settles O4: after reset no memory lists anything and no command waits. -/
theorem resetIsCanonical : Obligations.ResetIsCanonical := ⟨rfl, fun _ hi => absurd hi List.not_mem_nil⟩

end Sys2Proof.Machine
end

section
-- One proof at a time: every thread takes a stack of its own from the memory that a compile has.
set_option Elab.async false
/-! SUPPORT. The canonical form (log 3) is kept by the operations of registers, points, rings, records and diagnostics. -/

namespace Sys2Proof.Machine

variable {c₀ c : Chip}

/-- `c` is canonical wherever `c₀` is, memory by memory. -/
structure KeepsForm (c₀ c : Chip) : Prop where
  ofRegs : smWf regDefault c₀.regs = true → smWf regDefault c.regs = true
  ofPoints : smWf ptDef c₀.points = true → smWf ptDef c.points = true
  ofHostMem : Memory.wf zeroByte c₀.hostMem = true → Memory.wf zeroByte c.hostMem = true
  ofTables : Memory.wf tblDef c₀.tables = true → Memory.wf tblDef c.tables = true
  ofNvm : Memory.wf erasedByte c₀.nvm = true → Memory.wf erasedByte c.nvm = true

theorem KeepsForm.refl (c : Chip) : KeepsForm c c := ⟨id, id, id, id, id⟩

/-! An update of another part keeps the form. -/

theorem KeepsForm.withOt (h : KeepsForm c₀ c) (x : Nat) : KeepsForm c₀ { c with ot := x } := ⟨h.1, h.2, h.3, h.4, h.5⟩
theorem KeepsForm.withPwr (h : KeepsForm c₀ c) (x : PwrSt) : KeepsForm c₀ { c with pwr := x } := ⟨h.1, h.2, h.3, h.4, h.5⟩
theorem KeepsForm.withMode (h : KeepsForm c₀ c) (x : ModeSt) : KeepsForm c₀ { c with mode := x } := ⟨h.1, h.2, h.3, h.4, h.5⟩
theorem KeepsForm.withImg (h : KeepsForm c₀ c) (x : ImgSt) : KeepsForm c₀ { c with img := x } := ⟨h.1, h.2, h.3, h.4, h.5⟩
theorem KeepsForm.withFns (h : KeepsForm c₀ c) (x : SMap FnSt) : KeepsForm c₀ { c with fns := x } := ⟨h.1, h.2, h.3, h.4, h.5⟩
theorem KeepsForm.withSeq (h : KeepsForm c₀ c) (x : SeqSt) : KeepsForm c₀ { c with seq := x } := ⟨h.1, h.2, h.3, h.4, h.5⟩
theorem KeepsForm.withRcd (h : KeepsForm c₀ c) (x : RecSt) : KeepsForm c₀ { c with rcd := x } := ⟨h.1, h.2, h.3, h.4, h.5⟩
theorem KeepsForm.withDiag (h : KeepsForm c₀ c) (x : DiagSt) : KeepsForm c₀ { c with diag := x } := ⟨h.1, h.2, h.3, h.4, h.5⟩
theorem KeepsForm.withBreach (h : KeepsForm c₀ c) (x : SMap (Option Nat)) : KeepsForm c₀ { c with breach :=
  x } := ⟨h.1, h.2, h.3, h.4, h.5⟩
theorem KeepsForm.withReadOut (h : KeepsForm c₀ c) (x : Option Nat) : KeepsForm c₀ { c with readOut :=
  x } := ⟨h.1, h.2, h.3, h.4, h.5⟩
theorem KeepsForm.withReadAbort (h : KeepsForm c₀ c) (x : Bool) : KeepsForm c₀ { c with readAbort :=
  x } := ⟨h.1, h.2, h.3, h.4, h.5⟩
theorem KeepsForm.withFree (h : KeepsForm c₀ c) (x : Nat) : KeepsForm c₀ { c with free := x } := ⟨h.1, h.2, h.3, h.4, h.5⟩
theorem KeepsForm.withAna (h : KeepsForm c₀ c) (x : SMap AnaSt) : KeepsForm c₀ { c with ana := x } := ⟨h.1, h.2, h.3, h.4, h.5⟩
theorem KeepsForm.withBank (h : KeepsForm c₀ c) (x : SMap BankSt) : KeepsForm c₀ { c with bank :=
  x } := ⟨h.1, h.2, h.3, h.4, h.5⟩
theorem KeepsForm.withCorr (h : KeepsForm c₀ c) (x : SMap (Option Corr)) : KeepsForm c₀ { c with corr :=
  x } := ⟨h.1, h.2, h.3, h.4, h.5⟩
theorem KeepsForm.withCells (h : KeepsForm c₀ c) (x : SMap LoopCell) : KeepsForm c₀ { c with cells :=
  x } := ⟨h.1, h.2, h.3, h.4, h.5⟩
theorem KeepsForm.withTrim (h : KeepsForm c₀ c) (x : TrimSt) : KeepsForm c₀ { c with trim := x } := ⟨h.1, h.2, h.3, h.4, h.5⟩
theorem KeepsForm.withGate (h : KeepsForm c₀ c) (x : Bool) : KeepsForm c₀ { c with gate := x } := ⟨h.1, h.2, h.3, h.4, h.5⟩
theorem KeepsForm.withContacts (h : KeepsForm c₀ c) (x : SMap ContactSt) : KeepsForm c₀ { c with contacts :=
  x } := ⟨h.1, h.2, h.3, h.4, h.5⟩
theorem KeepsForm.withPulses (h : KeepsForm c₀ c) (x : SMap PulseSt) : KeepsForm c₀ { c with pulses :=
  x } := ⟨h.1, h.2, h.3, h.4, h.5⟩
theorem KeepsForm.withTrips (h : KeepsForm c₀ c) (x : TripSt) : KeepsForm c₀ { c with trips := x } := ⟨h.1, h.2, h.3, h.4, h.5⟩
theorem KeepsForm.withLegs (h : KeepsForm c₀ c) (x : SMap LegSt) : KeepsForm c₀ { c with legs :=
  x } := ⟨h.1, h.2, h.3, h.4, h.5⟩
theorem KeepsForm.withPos (h : KeepsForm c₀ c) (x : SMap PosSt) : KeepsForm c₀ { c with pos := x } := ⟨h.1, h.2, h.3, h.4, h.5⟩
theorem KeepsForm.withLoops (h : KeepsForm c₀ c) (x : SMap LoopSt) : KeepsForm c₀ { c with loops :=
  x } := ⟨h.1, h.2, h.3, h.4, h.5⟩
theorem KeepsForm.withEvq (h : KeepsForm c₀ c) (x : List EvalReq) : KeepsForm c₀ { c with evq :=
  x } := ⟨h.1, h.2, h.3, h.4, h.5⟩
theorem KeepsForm.withTune (h : KeepsForm c₀ c) (x : SMap TuneSt) : KeepsForm c₀ { c with tune :=
  x } := ⟨h.1, h.2, h.3, h.4, h.5⟩
theorem KeepsForm.withRtc (h : KeepsForm c₀ c) (x : RtcSt) : KeepsForm c₀ { c with rtc := x } := ⟨h.1, h.2, h.3, h.4, h.5⟩
theorem KeepsForm.withCan (h : KeepsForm c₀ c) (x : SMap CanSt) : KeepsForm c₀ { c with can := x } := ⟨h.1, h.2, h.3, h.4, h.5⟩
theorem KeepsForm.withAlm (h : KeepsForm c₀ c) (x : AlmSt) : KeepsForm c₀ { c with alm := x } := ⟨h.1, h.2, h.3, h.4, h.5⟩
theorem KeepsForm.withCall (h : KeepsForm c₀ c) (x : CallSt) : KeepsForm c₀ { c with call := x } := ⟨h.1, h.2, h.3, h.4, h.5⟩
theorem KeepsForm.withBsn (h : KeepsForm c₀ c) (x : BsnSt) : KeepsForm c₀ { c with bsn := x } := ⟨h.1, h.2, h.3, h.4, h.5⟩
theorem KeepsForm.withDma (h : KeepsForm c₀ c) (x : DmaSt) : KeepsForm c₀ { c with dma := x } := ⟨h.1, h.2, h.3, h.4, h.5⟩
theorem KeepsForm.withSdl (h : KeepsForm c₀ c) (x : SdlSt) : KeepsForm c₀ { c with sdl := x } := ⟨h.1, h.2, h.3, h.4, h.5⟩
theorem KeepsForm.withLcd (h : KeepsForm c₀ c) (x : LcdSt) : KeepsForm c₀ { c with lcd := x } := ⟨h.1, h.2, h.3, h.4, h.5⟩
theorem KeepsForm.withSpt (h : KeepsForm c₀ c) (x : SptSt) : KeepsForm c₀ { c with spt := x } := ⟨h.1, h.2, h.3, h.4, h.5⟩
theorem KeepsForm.withUpd (h : KeepsForm c₀ c) (x : UpdSt) : KeepsForm c₀ { c with upd := x } := ⟨h.1, h.2, h.3, h.4, h.5⟩
theorem KeepsForm.withJtag (h : KeepsForm c₀ c) (x : JtagSt) : KeepsForm c₀ { c with jtag := x } := ⟨h.1, h.2, h.3, h.4, h.5⟩
theorem KeepsForm.withStrapTest (h : KeepsForm c₀ c) (x : Bool) : KeepsForm c₀ { c with strapTest :=
  x } := ⟨h.1, h.2, h.3, h.4, h.5⟩

/-- An update of several parts beside the memories keeps the form. -/
theorem KeepsForm.keep {c' : Chip} (h : KeepsForm c₀ c) (hr : c'.regs = c.regs) (hp : c'.points = c.points)
    (hh : c'.hostMem = c.hostMem) (ht : c'.tables = c.tables) (hn : c'.nvm = c.nvm) : KeepsForm c₀ c' :=
  ⟨hr ▸ h.ofRegs, hp ▸ h.ofPoints, hh ▸ h.ofHostMem, ht ▸ h.ofTables, hn ▸ h.ofNvm⟩

theorem KeepsForm.withRegs (h : KeepsForm c₀ c) {m : SMap Word}
    (hm : smWf regDefault c.regs = true → smWf regDefault m = true) : KeepsForm c₀ { c with regs := m } :=
  ⟨fun w => hm (h.ofRegs w), h.ofPoints, h.ofHostMem, h.ofTables, h.ofNvm⟩

theorem KeepsForm.withPoints (h : KeepsForm c₀ c) {m : SMap PtEnt}
    (hm : smWf ptDef c.points = true → smWf ptDef m = true) : KeepsForm c₀ { c with points := m } :=
  ⟨h.ofRegs, fun w => hm (h.ofPoints w), h.ofHostMem, h.ofTables, h.ofNvm⟩

theorem KeepsForm.withHostMem (h : KeepsForm c₀ c) {m : Mem}
    (hm : Memory.wf zeroByte c.hostMem = true → Memory.wf zeroByte m = true) : KeepsForm c₀ { c with hostMem := m } :=
  ⟨h.ofRegs, h.ofPoints, fun w => hm (h.ofHostMem w), h.ofTables, h.ofNvm⟩

theorem KeepsForm.withTables (h : KeepsForm c₀ c) {m : Mem}
    (hm : Memory.wf tblDef c.tables = true → Memory.wf tblDef m = true) : KeepsForm c₀ { c with tables := m } :=
  ⟨h.ofRegs, h.ofPoints, h.ofHostMem, fun w => hm (h.ofTables w), h.ofNvm⟩

theorem KeepsForm.withNvm (h : KeepsForm c₀ c) {m : Mem}
    (hm : Memory.wf erasedByte c.nvm = true → Memory.wf erasedByte m = true) : KeepsForm c₀ { c with nvm := m } :=
  ⟨h.ofRegs, h.ofPoints, h.ofHostMem, h.ofTables, fun w => hm (h.ofNvm w)⟩

theorem KeepsForm.ite {p : Prop} [Decidable p] {x y : Chip} (hx : KeepsForm c₀ x) (hy : KeepsForm c₀ y) :
    KeepsForm c₀ (if p then x else y) := by
  split
  · exact hx
  · exact hy

theorem KeepsForm.foldl {β : Type} {f : Chip → β → Chip} {xs : List β} (h : KeepsForm c₀ c)
    (hf : ∀ x, KeepsForm c₀ x → ∀ y, KeepsForm c₀ (f x y)) : KeepsForm c₀ (xs.foldl f c) := by
  induction xs generalizing c with
  | nil => exact h
  | cons x xs ih => exact ih (hf c h x)

theorem KeepsForm.fst {σ : Type} {y : σ} (h : KeepsForm c₀ c) : KeepsForm c₀ (c, y).1 := h

theorem KeepsForm.snd {σ : Type} {y : σ} (h : KeepsForm c₀ c) : KeepsForm c₀ (y, c).2 := h

theorem KeepsForm.iteFst {σ : Type} {p : Prop} [Decidable p] {x y : Chip × σ} (hx : KeepsForm c₀ x.1) (hy : KeepsForm c₀ y.1) :
    KeepsForm c₀ (if p then x else y).1 := by
  split
  · exact hx
  · exact hy

theorem KeepsForm.iteSnd {σ : Type} {p : Prop} [Decidable p] {x y : σ × Chip} (hx : KeepsForm c₀ x.2) (hy : KeepsForm c₀ y.2) :
    KeepsForm c₀ (if p then x else y).2 := by
  split
  · exact hx
  · exact hy

theorem KeepsForm.foldlFst {β σ : Type} {f : Chip × σ → β → Chip × σ} {xs : List β} {s : Chip × σ} (h : KeepsForm c₀ s.1)
    (hf : ∀ s, KeepsForm c₀ s.1 → ∀ y, KeepsForm c₀ (f s y).1) : KeepsForm c₀ (xs.foldl f s).1 := by
  induction xs generalizing s with
  | nil => exact h
  | cons x xs ih => exact ih (hf s h x)

theorem KeepsForm.foldlSnd {β σ : Type} {f : σ × Chip → β → σ × Chip} {xs : List β} {s : σ × Chip} (h : KeepsForm c₀ s.2)
    (hf : ∀ s, KeepsForm c₀ s.2 → ∀ y, KeepsForm c₀ (f s y).2) : KeepsForm c₀ (xs.foldl f s).2 := by
  induction xs generalizing s with
  | nil => exact h
  | cons x xs ih => exact ih (hf s h x)

/-! ## Named operations on the register file and on the fields of registers -/

theorem KeepsForm.setReg (h : KeepsForm c₀ c) (off : Nat) (v : Word) : KeepsForm c₀ (Machine.setReg c off v) :=
  h.withRegs (smWf_smPut _ _)

theorem KeepsForm.setFld (h : KeepsForm c₀ c) (off lo w x : Nat) : KeepsForm c₀ (Machine.setFld c off lo w x) := h.setReg _ _

theorem KeepsForm.setFlag (h : KeepsForm c₀ c) (off i : Nat) (b : Bool) : KeepsForm c₀ (Machine.setFlag c off i b) :=
  h.setFld _ _ _ _

theorem KeepsForm.countFld (h : KeepsForm c₀ c) (off lo w : Nat) : KeepsForm c₀ (Machine.countFld c off lo w) :=
  h.setFld _ _ _ _

theorem KeepsForm.wrapFld (h : KeepsForm c₀ c) (off lo w : Nat) : KeepsForm c₀ (Machine.wrapFld c off lo w) := h.setFld _ _ _ _

theorem KeepsForm.resetRegs (h : KeepsForm c₀ c) (lo hi : Nat) : KeepsForm c₀ (Machine.resetRegs c lo hi) :=
  h.withRegs (smWf_smKeep _)

theorem KeepsForm.setFrameNum (h : KeepsForm c₀ c) (n : Nat) : KeepsForm c₀ (Machine.setFrameNum c n) := by
  unfold Machine.setFrameNum
  exact (h.setReg _ _).setReg _ _

theorem KeepsForm.takeFree (h : KeepsForm c₀ c) : KeepsForm c₀ (Machine.takeFree c) := h.withFree _

/-! ## Points, owners, live words and the per-function stores -/

theorem KeepsForm.setPoint (h : KeepsForm c₀ c) (p : Nat) (e : PtEnt) : KeepsForm c₀ (Machine.setPoint c p e) :=
  h.withPoints (smWf_smPut _ _)

theorem KeepsForm.writeLive (h : KeepsForm c₀ c) (p word flags : Nat) : KeepsForm c₀ (Machine.writeLive c p word flags) := by
  unfold Machine.writeLive
  exact h.ite ((h.setPoint _ _).ite (h.setPoint _ _))

theorem KeepsForm.writeValue (h : KeepsForm c₀ c) (p : Nat) (x : Rat) (e : Int) (u qual fl : Nat) :
    KeepsForm c₀ (Machine.writeValue c p x e u qual fl) := by
  unfold Machine.writeValue
  exact h.writeLive _ _ _

theorem KeepsForm.writeBad (h : KeepsForm c₀ c) (p fl : Nat) : KeepsForm c₀ (Machine.writeBad c p fl) := by
  unfold Machine.writeBad
  exact h.ite (h.ite (h.setPoint _ _))

theorem KeepsForm.writeHeld (h : KeepsForm c₀ c) (p fl : Nat) : KeepsForm c₀ (Machine.writeHeld c p fl) := by
  unfold Machine.writeHeld
  exact (h.writeBad _ _).ite (h.ite (h.ite (h.setPoint _ _)))

theorem KeepsForm.setDom (h : KeepsForm c₀ c) (n : Nat) (s : DomSt) : KeepsForm c₀ (Machine.setDom c n s) := by
  unfold Machine.setDom
  exact h.withPwr _

theorem KeepsForm.setFn (h : KeepsForm c₀ c) (fn : Nat) (f : FnSt) : KeepsForm c₀ (Machine.setFn c fn f) := h.withFns _

theorem KeepsForm.modFn (h : KeepsForm c₀ c) (fn : Nat) (f : FnSt → FnSt) : KeepsForm c₀ (Machine.modFn c fn f) := h.setFn _ _

theorem KeepsForm.setNodeIdx (h : KeepsForm c₀ c) (fn r x : Nat) : KeepsForm c₀ (Machine.setNodeIdx c fn r x) :=
  h.setFld _ _ _ _

theorem KeepsForm.setHostIdx (h : KeepsForm c₀ c) (fn r x : Nat) : KeepsForm c₀ (Machine.setHostIdx c fn r x) :=
  h.setFld _ _ _ _

theorem KeepsForm.hostWrite (h : KeepsForm c₀ c) (a : Nat) (bs : List Byte) : KeepsForm c₀ (Machine.hostWrite c a bs) :=
  h.withHostMem (smWf_memWrite _ _)

/-! ## Rings -/

theorem KeepsForm.putRaw (h : KeepsForm c₀ c) (fn r : Nat) (bs : List Byte) : KeepsForm c₀ (Machine.putRaw c fn r bs) := by
  unfold Machine.putRaw
  exact (((h.hostWrite _ _).hostWrite _ _).setNodeIdx _ _ _).modFn _ _

theorem KeepsForm.markRise (h : KeepsForm c₀ c) (fn r : Nat) : KeepsForm c₀ (Machine.markRise c fn r) := by
  unfold Machine.markRise
  exact ((h.setFlag _ _ _).setFlag _ _ _).countFld _ _ _

theorem KeepsForm.putEvRaw (h : KeepsForm c₀ c) (fn : Nat) (bs : List Byte) : KeepsForm c₀ (Machine.putEvRaw c fn bs) := by
  unfold Machine.putEvRaw
  exact (h.modFn _ _).putRaw _ _ _

theorem KeepsForm.gapOne (h : KeepsForm c₀ c) (fn kind frame : Nat) : KeepsForm c₀ (Machine.gapOne c fn kind frame) := by
  unfold Machine.gapOne
  exact (h.setReg _ _).modFn _ _

theorem KeepsForm.gapOver (h : KeepsForm c₀ c) (fn kind frame : Nat) : KeepsForm c₀ (Machine.gapOver c fn kind frame) := by
  unfold Machine.gapOver
  exact (h.gapOne _ _ _).modFn _ _

theorem KeepsForm.putGap (h : KeepsForm c₀ c) (fn : Nat) : KeepsForm c₀ (Machine.putGap c fn) := by
  unfold Machine.putGap
  exact h.ite (((h.putEvRaw _ _).modFn _ _).ite h)

theorem KeepsForm.holdEntry (h : KeepsForm c₀ c) (fn : Nat) (e : EvEnt) : KeepsForm c₀ (Machine.holdEntry c fn e) := by
  unfold Machine.holdEntry
  dsimp only
  refine (h.gapOne _ _ _).ite ?_
  refine (h.modFn _ _).ite ?_
  split
  · exact (h.gapOver _ _ _).modFn _ _
  · exact h.gapOver _ _ _

theorem KeepsForm.dropSub (h : KeepsForm c₀ c) (fn sub : Nat) : KeepsForm c₀ (Machine.dropSub c fn sub) := by
  unfold Machine.dropSub
  exact h.ite ((h.foldl (fun _ h1 _ => (h1.gapOver _ _ _))).modFn _ _)

theorem KeepsForm.putEvEntry (h : KeepsForm c₀ c) (fn : Nat) (e : EvEnt) : KeepsForm c₀ (Machine.putEvEntry c fn e) := by
  unfold Machine.putEvEntry
  exact h.ite ((h.gapOne _ _ _).ite ((((h.putGap _).ite h).putEvRaw _ _).ite (((h.putGap _).ite h).holdEntry _ _)))

theorem KeepsForm.eventRise (h : KeepsForm c₀ c) (fn before : Nat) : KeepsForm c₀ (Machine.eventRise c fn before) := by
  unfold Machine.eventRise
  exact (((h.markRise _ _).putEvEntry _ _).ite (h.markRise _ _)).ite h

theorem KeepsForm.putEvents (h : KeepsForm c₀ c) (fn : Nat) (es : List EvEnt) : KeepsForm c₀ (Machine.putEvents c fn es) := by
  unfold Machine.putEvents
  exact (h.foldl (fun _ h1 _ => (h1.putEvEntry _ _))).eventRise _ _

theorem KeepsForm.putEvent (h : KeepsForm c₀ c) (fn : Nat) (e : EvEnt) : KeepsForm c₀ (Machine.putEvent c fn e) :=
  h.putEvents _ _

theorem KeepsForm.checkRise (h : KeepsForm c₀ c) (fn r before : Nat) : KeepsForm c₀ (Machine.checkRise c fn r before) := by
  unfold Machine.checkRise
  exact (((h.markRise _ _).putEvent _ _).ite (h.markRise _ _)).ite h

theorem KeepsForm.checkFall (h : KeepsForm c₀ c) (fn r : Nat) : KeepsForm c₀ (Machine.checkFall c fn r) := by
  unfold Machine.checkFall
  exact (((h.setFlag _ _ _).putEvent _ _).ite (h.setFlag _ _ _)).ite h

theorem KeepsForm.postEventAt (h : KeepsForm c₀ c) (fn kind frame aux : Nat) (payload : List Byte) :
    KeepsForm c₀ (Machine.postEventAt c fn kind frame aux payload) := h.putEvents _ _

theorem KeepsForm.postEvent (h : KeepsForm c₀ c) (fn kind aux : Nat) (payload : List Byte) :
    KeepsForm c₀ (Machine.postEvent c fn kind aux payload) := h.postEventAt _ _ _ _ _

theorem KeepsForm.complete (h : KeepsForm c₀ c) (fn sq tag status result : Nat) :
    KeepsForm c₀ (Machine.complete c fn sq tag status result) := by
  unfold Machine.complete
  exact ((h.putRaw _ _ _).checkRise _ _ _).ite (h.setReg _ _)

theorem KeepsForm.completeFlight (h : KeepsForm c₀ c) (fn : Nat) (i : InFlight) (status result : Nat) :
    KeepsForm c₀ (Machine.completeFlight c fn i status result) := by
  unfold Machine.completeFlight
  exact (h.modFn _ _).ite ((h.modFn _ _).complete _ _ _ _ _)

theorem KeepsForm.completeWhere (h : KeepsForm c₀ c) (p : Nat → InFlight → Bool) (status : Nat → InFlight → Nat × Nat) :
    KeepsForm c₀ (Machine.completeWhere c p status) := by
  unfold Machine.completeWhere
  exact h.foldl (fun _ h1 _ => (h1.foldl (fun _ h2 _ => (h2.completeFlight _ _ _ _))))

/-! ## The event recorder -/

theorem KeepsForm.putRecRaw (h : KeepsForm c₀ c) (fn : Nat) (bs : List Byte) : KeepsForm c₀ (Machine.putRecRaw c fn bs) := by
  unfold Machine.putRecRaw
  exact ((h.modFn _ _).putRaw _ _ _).checkRise _ _ _

theorem KeepsForm.recLoss (h : KeepsForm c₀ c) (fn n : Nat) : KeepsForm c₀ (Machine.recLoss c fn n) := by
  unfold Machine.recLoss
  exact (h.setReg _ _).modFn _ _

theorem KeepsForm.putRecGap (h : KeepsForm c₀ c) (fn : Nat) : KeepsForm c₀ (Machine.putRecGap c fn) := by
  unfold Machine.putRecGap
  exact h.ite (((h.putRecRaw _ _).modFn _ _).ite h)

theorem KeepsForm.holdRec (h : KeepsForm c₀ c) (fn : Nat) (d : RecDel) : KeepsForm c₀ (Machine.holdRec c fn d) := h.modFn _ _

theorem KeepsForm.deliver (h : KeepsForm c₀ c) (fn rkind : Nat) (r : Rec) : KeepsForm c₀ (Machine.deliver c fn rkind r) := by
  unfold Machine.deliver
  exact h.ite ((h.recLoss _ _).ite ((((h.putRecGap _).ite h).putRecRaw _ _).ite (((h.putRecGap _).ite h).holdRec _ _)))

theorem KeepsForm.deliverAll (h : KeepsForm c₀ c) (fns : List Nat) (rkind : Nat) (r : Rec) :
    KeepsForm c₀ (Machine.deliverAll c fns rkind r) := by
  unfold Machine.deliverAll
  exact h.foldl (fun _ h1 _ => (h1.deliver _ _ _))

theorem KeepsForm.setImage (h : KeepsForm c₀ c) (slot : Nat) (r : Option Rec) : KeepsForm c₀ (Machine.setImage c slot r) := by
  unfold Machine.setImage
  exact h.withRcd _

theorem KeepsForm.programPair (h : KeepsForm c₀ c) (seq : Nat) : KeepsForm c₀ (Machine.programPair c seq) := by
  unfold Machine.programPair
  exact (h.withRcd _).ite h

theorem KeepsForm.freshPage (h : KeepsForm c₀ c) (seq : Nat) : KeepsForm c₀ (Machine.freshPage c seq) := by
  unfold Machine.freshPage
  exact (h.withRcd _).ite h

theorem KeepsForm.programTail (h : KeepsForm c₀ c) (seq : Nat) : KeepsForm c₀ (Machine.programTail c seq) := by
  unfold Machine.programTail
  dsimp only
  split
  · exact h.withRcd _
  · exact h

theorem KeepsForm.toBasinAdd (h : KeepsForm c₀ c) (r : Rec) : KeepsForm c₀ (Machine.toBasinAdd c r) := by
  unfold Machine.toBasinAdd
  exact h.withRcd _

theorem KeepsForm.closeRec (h : KeepsForm c₀ c) (seq : Nat) : KeepsForm c₀ (Machine.closeRec c seq) := by
  unfold Machine.closeRec
  dsimp only
  split
  · exact (((h.withRcd _).programPair _).ite (((h.withRcd _).programPair _).withRcd _)).toBasinAdd _
  · exact (h.withRcd _).programPair _

theorem KeepsForm.closeSource (h : KeepsForm c₀ c) (source : Nat) : KeepsForm c₀ (Machine.closeSource c source) := by
  unfold Machine.closeSource
  split
  · exact h.closeRec _
  · exact h

theorem KeepsForm.missBasin (h : KeepsForm c₀ c) (old : Rec) : KeepsForm c₀ (Machine.missBasin c old) := by
  unfold Machine.missBasin
  exact ((h.setReg _ _).withRcd _).ite h

theorem KeepsForm.loseSlot (h : KeepsForm c₀ c) (slot : Nat) : KeepsForm c₀ (Machine.loseSlot c slot) := by
  unfold Machine.loseSlot
  split
  · exact (h.missBasin _).foldl (fun _ h1 _ => (((h1.modFn _ _).recLoss _ _).ite h1))
  · exact h

theorem KeepsForm.overwrite (h : KeepsForm c₀ c) (r : Rec) : KeepsForm c₀ (Machine.overwrite c r) := by
  unfold Machine.overwrite
  dsimp only
  split
  · exact h.ite ((((h.closeRec _).ite h).loseSlot _).withRcd _)
  · exact h

theorem KeepsForm.toTwin (h : KeepsForm c₀ c) (r : Rec) : KeepsForm c₀ (Machine.toTwin c r) := by
  unfold Machine.toTwin
  exact (h.withSdl _).ite h

theorem KeepsForm.holdForTwin (h : KeepsForm c₀ c) (r : Rec) : KeepsForm c₀ (Machine.holdForTwin c r) := by
  unfold Machine.holdForTwin
  exact (h.withSdl _).ite (h.countFld _ _ _)

theorem KeepsForm.enterRecTo (h : KeepsForm c₀ c) (fns : List Nat) (r : Rec) (window : Nat) :
    KeepsForm c₀ (Machine.enterRecTo c fns r window) := by
  unfold Machine.enterRecTo
  exact ((((((((((h.overwrite _).setImage _ _).setReg _ _).freshPage _).ite (((((h.overwrite _).setImage _ _).setReg _
      _).freshPage _).withRcd _)).programPair _).ite ((((((h.overwrite _).setImage _ _).setReg _ _).freshPage _).ite
      (((((h.overwrite _).setImage _ _).setReg _ _).freshPage _).withRcd _)).programTail _)).deliverAll _ _ _).toTwin
      _).toBasinAdd _).ite (((((((((h.overwrite _).setImage _ _).setReg _ _).freshPage _).ite (((((h.overwrite _).setImage _
      _).setReg _ _).freshPage _).withRcd _)).programPair _).ite ((((((h.overwrite _).setImage _ _).setReg _ _).freshPage _).ite
      (((((h.overwrite _).setImage _ _).setReg _ _).freshPage _).withRcd _)).programTail _)).deliverAll _ _ _).toTwin _)

theorem KeepsForm.enterRec (h : KeepsForm c₀ c) (r : Rec) (window : Nat) : KeepsForm c₀ (Machine.enterRec c r window) :=
  h.enterRecTo _ _ _

theorem KeepsForm.holdFormed (h : KeepsForm c₀ c) (r : Rec) : KeepsForm c₀ (Machine.holdFormed c r) := by
  unfold Machine.holdFormed
  exact h.withRcd _

theorem KeepsForm.loseFiring (h : KeepsForm c₀ c) : KeepsForm c₀ (Machine.loseFiring c) := by
  unfold Machine.loseFiring
  exact (h.countFld _ _ _).ite h

theorem KeepsForm.loseHeld (h : KeepsForm c₀ c) : KeepsForm c₀ (Machine.loseHeld c) := by
  unfold Machine.loseHeld
  exact ((h.withRcd _).foldl (fun _ h1 _ => h1.loseFiring)).ite h

theorem KeepsForm.formRec (h : KeepsForm c₀ c) (r : Rec) (window : Nat) : KeepsForm c₀ (Machine.formRec c r window) := by
  unfold Machine.formRec
  exact h.loseFiring.ite ((h.holdForTwin _).ite ((h.holdFormed _).ite (h.enterRec _ _)))

theorem KeepsForm.coalesce (h : KeepsForm c₀ c) (fns : List Nat) (seq ot : Nat) : KeepsForm c₀ (Machine.coalesce c fns seq ot)
    := by
  unfold Machine.coalesce
  dsimp only
  split
  · exact ((h.setImage _ _).deliverAll _ _ _).toTwin _
  · exact h

theorem KeepsForm.nodeRec (h : KeepsForm c₀ c) (type aux : Nat) (items : List Nat) :
    KeepsForm c₀ (Machine.nodeRec c type aux items) := h.formRec _ _

theorem KeepsForm.coalesceOrTo (h : KeepsForm c₀ c) (fns : List Nat) (r : Rec) (window : Nat) (key : Nat) :
    KeepsForm c₀ (Machine.coalesceOrTo c fns r window key) := by
  unfold Machine.coalesceOrTo
  dsimp only
  split
  · split
    · exact (h.coalesce _ _ _).ite ((h.closeRec _).enterRecTo _ _ _)
    · exact (h.closeRec _).enterRecTo _ _ _
  · exact h.enterRecTo _ _ _

theorem KeepsForm.coalesceOr (h : KeepsForm c₀ c) (r : Rec) (window : Nat) (key : Nat) :
    KeepsForm c₀ (Machine.coalesceOr c r window key) := h.coalesceOrTo _ _ _ _

theorem KeepsForm.faultRec (h : KeepsForm c₀ c) (code : Nat) (items : List Nat) : KeepsForm c₀ (Machine.faultRec c code items)
    := by
  unfold Machine.faultRec
  exact h.loseFiring.ite ((h.holdForTwin _).ite ((h.holdFormed _).ite (h.coalesceOr _ _ _)))

theorem KeepsForm.countFormed (h : KeepsForm c₀ c) (before : Chip) (t : Nat) : KeepsForm c₀ (Machine.countFormed before c t) :=
    by
  unfold Machine.countFormed
  exact h.ite (h.countFld _ _ _)

theorem KeepsForm.enterTrigger (h : KeepsForm c₀ c) (fns : List Nat) (r : Rec) : KeepsForm c₀ (Machine.enterTrigger c fns r) :=
    by
  unfold Machine.enterTrigger
  exact (h.coalesceOrTo _ _ _ _).countFormed _ _

theorem KeepsForm.flushHeld (h : KeepsForm c₀ c) : KeepsForm c₀ (Machine.flushHeld c) := by
  unfold Machine.flushHeld
  exact h.ite ((h.withRcd _).foldl (fun _ h1 _ => ((h1.coalesceOrTo _ _ _ _).ite ((h1.enterTrigger _ _).ite (h1.enterRecTo _ _
      _)))))

theorem KeepsForm.fireTrigger (h : KeepsForm c₀ c) (t ot : Nat) (items : List Nat) :
    KeepsForm c₀ (Machine.fireTrigger c t ot items) := by
  unfold Machine.fireTrigger
  exact h.ite (((h.countFld _ _ _).loseFiring).ite (((h.countFld _ _ _).holdFormed _).ite ((h.countFld _ _ _).enterTrigger _
      _)))

/-! ## Diagnostics -/

theorem KeepsForm.countOcc (h : KeepsForm c₀ c) (code src : Nat) : KeepsForm c₀ (Machine.countOcc c code src).1 := by
  unfold Machine.countOcc
  dsimp only
  split
  · exact (h.withDiag _).fst
  · exact KeepsForm.iteFst (h.withDiag _).fst ((h.withDiag _).countFld _ _ _).fst

theorem KeepsForm.pushEntry (h : KeepsForm c₀ c) (e : DiagEnt) : KeepsForm c₀ (Machine.pushEntry c e) := by
  unfold Machine.pushEntry
  exact h.ite ((h.withDiag _).ite (h.setReg _ _))

theorem KeepsForm.postErrorSev (h : KeepsForm c₀ c) (code sev src detail : Nat) (record : Bool) :
    KeepsForm c₀ (Machine.postErrorSev c code sev src detail record) := by
  unfold Machine.postErrorSev
  exact (((h.countOcc _ _).pushEntry _).faultRec _ _).ite ((h.countOcc _ _).pushEntry _)

theorem KeepsForm.postError (h : KeepsForm c₀ c) (code src detail : Nat) : KeepsForm c₀ (Machine.postError c code src detail) :=
  h.postErrorSev _ _ _ _ _

theorem KeepsForm.postErrorRec (h : KeepsForm c₀ c) (code src detail : Nat) :
    KeepsForm c₀ (Machine.postErrorRec c code src detail) := h.postErrorSev _ _ _ _ _

theorem KeepsForm.faultEvent (h : KeepsForm c₀ c) (code src point : Nat) (fns : List Nat) :
    KeepsForm c₀ (Machine.faultEvent c code src point fns) := by
  unfold Machine.faultEvent
  exact ((h.withDiag _).foldl (fun _ h1 _ => (h1.postEvent _ _ _ _))).ite h

theorem KeepsForm.postPointFault (h : KeepsForm c₀ c) (code p detail : Nat) (record : Bool) :
    KeepsForm c₀ (Machine.postPointFault c code p detail record) := by
  unfold Machine.postPointFault
  exact (h.postErrorSev _ _ _ _ _).faultEvent _ _ _ _

theorem KeepsForm.openBreach (h : KeepsForm c₀ c) (p code : Nat) : KeepsForm c₀ (Machine.openBreach c p code) := by
  unfold Machine.openBreach
  exact h.ite ((((((h.withBreach _).countFld _ _ _).setFlag _ _ _).postError _ _ _).nodeRec _ _ _).postEvent _ _ _ _)

theorem KeepsForm.closeBreach (h : KeepsForm c₀ c) (p code us : Nat) : KeepsForm c₀ (Machine.closeBreach c p code us) := by
  unfold Machine.closeBreach
  dsimp only
  split
  · exact ((h.withBreach _).setFlag _ _ _).postEvent _ _ _ _
  · exact h

/-! ## Actuator legs -/

theorem KeepsForm.setLeg (h : KeepsForm c₀ c) (n : Nat) (x : LegSt) : KeepsForm c₀ (Machine.setLeg c n x) := h.withLegs _

theorem KeepsForm.modLeg (h : KeepsForm c₀ c) (n : Nat) (f : LegSt → LegSt) : KeepsForm c₀ (Machine.modLeg c n f) :=
  h.setLeg _ _

theorem KeepsForm.legLeave1 (h : KeepsForm c₀ c) (n st cause : Nat) : KeepsForm c₀ (Machine.legLeave1 c n st cause) := by
  unfold Machine.legLeave1
  exact (((h.setFld _ _ _ _).setFld _ _ _ _).modLeg _ _).ite h

theorem KeepsForm.partnerFollows (h : KeepsForm c₀ c) (n : Nat) : KeepsForm c₀ (Machine.partnerFollows c n) := by
  unfold Machine.partnerFollows
  split
  · exact h.legLeave1 _ _ _
  · exact h

theorem KeepsForm.legLeave (h : KeepsForm c₀ c) (n st cause : Nat) : KeepsForm c₀ (Machine.legLeave c n st cause) := by
  unfold Machine.legLeave
  exact ((h.legLeave1 _ _ _).partnerFollows _).ite h

theorem KeepsForm.legsOff (h : KeepsForm c₀ c) (mask cause : Nat) : KeepsForm c₀ (Machine.legsOff c mask cause) := by
  unfold Machine.legsOff
  exact (h.foldl (fun _ h1 _ => (h1.legLeave1 _ _ _))).foldl (fun _ h1 _ => (h1.partnerFollows _))

/-! ## Loop-output cells -/

theorem KeepsForm.setCell (h : KeepsForm c₀ c) (ch : Nat) (x : LoopCell) : KeepsForm c₀ (Machine.setCell c ch x) :=
  h.withCells _

theorem KeepsForm.modCell (h : KeepsForm c₀ c) (ch : Nat) (f : LoopCell → LoopCell) : KeepsForm c₀ (Machine.modCell c ch f) :=
  h.setCell _ _

theorem KeepsForm.endFsk (h : KeepsForm c₀ c) (ch status : Nat) : KeepsForm c₀ (Machine.endFsk c ch status) := by
  unfold Machine.endFsk
  dsimp only
  split
  · exact ((h.modCell _ _).setFlag _ _ _).completeWhere _ _
  · exact h

theorem KeepsForm.endForced (h : KeepsForm c₀ c) (ch : Nat) : KeepsForm c₀ (Machine.endForced c ch) := by
  unfold Machine.endForced
  exact ((h.setFlag _ _ _).setPoint _ _).ite (h.setFlag _ _ _)

theorem KeepsForm.cellToOpen (h : KeepsForm c₀ c) (ch : Nat) : KeepsForm c₀ (Machine.cellToOpen c ch) := by
  unfold Machine.cellToOpen
  exact (((h.setFld _ _ _ _).endForced _).endFsk _ _).setFlag _ _ _

/-! ## The state of loops and capture buffers, and its loss with the CTRL domain, which leave and the control engine share -/

theorem KeepsForm.setLoop (h : KeepsForm c₀ c) (l : Nat) (x : LoopSt) : KeepsForm c₀ (Machine.setLoop c l x) := h.withLoops _

theorem KeepsForm.modLoop (h : KeepsForm c₀ c) (l : Nat) (f : LoopSt → LoopSt) : KeepsForm c₀ (Machine.modLoop c l f) :=
  h.setLoop _ _

theorem KeepsForm.setTune (h : KeepsForm c₀ c) (b : Nat) (x : TuneSt) : KeepsForm c₀ (Machine.setTune c b x) := h.withTune _

theorem KeepsForm.clearBuffer (h : KeepsForm c₀ c) (b : Nat) : KeepsForm c₀ (Machine.clearBuffer c b) := by
  unfold Machine.clearBuffer
  exact ((h.setTune _ _).withTables (smWf_memClear _ _)).resetRegs _ _

theorem KeepsForm.setInt (h : KeepsForm c₀ c) (l : Nat) (i : Int) : KeepsForm c₀ (Machine.setInt c l i) := by
  unfold Machine.setInt
  exact (h.setReg _ _).setReg _ _

theorem KeepsForm.clearLoopRegs (h : KeepsForm c₀ c) (l : Nat) : KeepsForm c₀ (Machine.clearLoopRegs c l) := by
  unfold Machine.clearLoopRegs
  exact (h.setReg _ _).resetRegs _ _

theorem KeepsForm.ctrlDomainOff (h : KeepsForm c₀ c) : KeepsForm c₀ (Machine.ctrlDomainOff c) := by
  unfold Machine.ctrlDomainOff
  refine KeepsForm.foldl ?_ (fun _ h1 _ => ?_)
  · refine KeepsForm.foldl ?_ (fun _ h1 _ => ?_)
    · exact h.keep rfl rfl rfl rfl rfl
    · exact h1.clearBuffer _
  · exact h1.clearLoopRegs _

end Sys2Proof.Machine
end

section
-- One proof at a time: every thread takes a stack of its own from the memory that a compile has.
set_option Elab.async false
/-! SUPPORT. The canonical form (log 3) is kept by the operations of power and the resolution of register writes. -/

namespace Sys2Proof.Machine

variable {c₀ c : Chip}

/-! ## The power governor -/

theorem KeepsForm.pllStop (h : KeepsForm c₀ c) : KeepsForm c₀ (Machine.pllStop c) := by
  unfold Machine.pllStop
  exact ((h.setFld _ _ _ _).setFld _ _ _ _).withPwr _

theorem KeepsForm.addReq (h : KeepsForm c₀ c) (r : LeaveReq) : KeepsForm c₀ (Machine.addReq c r) := by
  unfold Machine.addReq
  exact h.withPwr _

theorem KeepsForm.unrefuse (h : KeepsForm c₀ c) (mask : Nat) : KeepsForm c₀ (Machine.unrefuse c mask) := by
  unfold Machine.unrefuse
  exact h.withPwr _

theorem KeepsForm.dropReq (h : KeepsForm c₀ c) (op : LeaveOp) : KeepsForm c₀ (Machine.dropReq c op) := by
  unfold Machine.dropReq
  exact h.withPwr _

theorem KeepsForm.dmaStop (h : KeepsForm c₀ c) : KeepsForm c₀ (Machine.dmaStop c) := by
  unfold Machine.dmaStop
  exact (h.foldl (fun _ h1 _ => ((h1.setFld _ _ _ _).setFld _ _ _ _))).withDma _

theorem KeepsForm.beginOff (h : KeepsForm c₀ c) (n : Nat) : KeepsForm c₀ (Machine.beginOff c n) := by
  unfold Machine.beginOff
  split
  · exact ((h.setDom _ _).legsOff _ _).ite (((h.setDom _ _).ctrlDomainOff).ite (((h.setDom _ _).dmaStop).ite (((h.setDom _
        _).foldl (fun _ h1 _ => (h1.cellToOpen _))).ite (h.ite (h.setDom _ _)))))
  · exact ((h.setDom _ _).legsOff _ _).ite (((h.setDom _ _).ctrlDomainOff).ite (((h.setDom _ _).dmaStop).ite (((h.setDom _
        _).foldl (fun _ h1 _ => (h1.cellToOpen _))).ite (h.ite (h.setDom _ _)))))
  · exact h.setDom _ _
  · exact (h.dropReq _).setDom _ _
  · exact (h.dropReq _).setDom _ _
  · exact h

theorem KeepsForm.retargetOne (h : KeepsForm c₀ c) (n : Nat) : KeepsForm c₀ (Machine.retargetOne c n) := by
  unfold Machine.retargetOne
  refine h.ite ?_
  refine KeepsForm.ite ?_ ?_
  · split
    · exact ((h.setDom _ _).addReq _).ite h
    · exact ((h.setDom _ _).addReq _).ite h
    · exact h
  · split
    · exact h
    · exact h
    · exact h
    · exact h.foldl (fun _ h1 _ => (h1.beginOff _))

theorem KeepsForm.stepBegins (h : KeepsForm c₀ c) (ch : Nat) : KeepsForm c₀ (Machine.stepBegins c ch) := by
  unfold Machine.stepBegins
  split
  · exact h.ite (h.cellToOpen _)
  · exact h

theorem KeepsForm.grant (h : KeepsForm c₀ c) (r : LeaveReq) : KeepsForm c₀ (Machine.grant c r) := by
  unfold Machine.grant
  dsimp only
  split
  · exact ((h.dropReq _).ite ((h.dropReq _).withPwr _)).setDom _ _
  · exact ((h.dropReq _).ite ((h.dropReq _).withPwr _)).stepBegins _
  · exact (h.dropReq _).ite ((h.dropReq _).withPwr _)

theorem KeepsForm.grantHead (h : KeepsForm c₀ c) : KeepsForm c₀ (Machine.grantHead c) := by
  unfold Machine.grantHead
  split
  · exact (h.grant _).ite h
  · exact h

theorem KeepsForm.grantAll (h : KeepsForm c₀ c) (n : Nat) : KeepsForm c₀ (Machine.grantAll n c) := by
  induction n generalizing c with
  | zero => exact h
  | succ n ih =>
    unfold Machine.grantAll
    split
    · exact (ih (h.grant _)).ite h
    · exact h

theorem KeepsForm.retarget (h : KeepsForm c₀ c) : KeepsForm c₀ (Machine.retarget c) := by
  unfold Machine.retarget
  exact (h.foldl (fun _ h1 _ => (h1.retargetOne _))).grantAll _

theorem KeepsForm.requestOp (h : KeepsForm c₀ c) (r : LeaveReq) : KeepsForm c₀ (Machine.requestOp c r) := by
  unfold Machine.requestOp
  exact ((h.dropReq _).addReq _).grantAll _

theorem KeepsForm.releaseSurge (h : KeepsForm c₀ c) (op : LeaveOp) : KeepsForm c₀ (Machine.releaseSurge c op) := by
  unfold Machine.releaseSurge
  exact h.withPwr _

theorem KeepsForm.withdrawReq (h : KeepsForm c₀ c) (r : LeaveReq) : KeepsForm c₀ (Machine.withdrawReq c r) := by
  unfold Machine.withdrawReq
  dsimp only
  refine KeepsForm.postEvent ?_ _ _ _ _
  refine KeepsForm.postError ?_ _ _ _
  refine KeepsForm.countFld ?_ _ _ _
  refine KeepsForm.setFlag ?_ _ _ _
  split
  · exact ((h.dropReq _).setDom _ _).withPwr _
  · exact h.dropReq _

/-! ## A host write to one BAR0 register, resolved field by field -/

theorem KeepsForm.deny (h : KeepsForm c₀ c) (fn off : Nat) : KeepsForm c₀ (Machine.deny c fn off) := by
  unfold Machine.deny
  exact h.ite ((h.countFld _ _ _).postError _ _ _)

theorem KeepsForm.unwrite (h : KeepsForm c₀ c) (w : WriteCtx) : KeepsForm c₀ (Machine.unwrite c w) := by
  unfold Machine.unwrite
  dsimp only
  split
  · exact (h.setReg _ _).setReg _ _
  · exact h.setReg _ _

theorem KeepsForm.rewritten (h : KeepsForm c₀ c) (w : WriteCtx) : KeepsForm c₀ (Machine.rewritten c w) := by
  unfold Machine.rewritten
  dsimp only
  split
  · exact (h.setReg _ _).setReg _ _
  · exact h.setReg _ _

theorem KeepsForm.hookNone (h : KeepsForm c₀ c) (w : WriteCtx) : KeepsForm c₀ (Machine.hookNone w c) := h

theorem KeepsForm.guarded (h : KeepsForm c₀ c) (bad : Chip → WriteCtx → Nat → Bool) (reject : Chip → WriteCtx → Nat → Chip) (act
    : Hook) (w : WriteCtx) (hreject : ∀ (x0 : Chip) (_ : KeepsForm c₀ x0) x1 x2, KeepsForm c₀ (reject x0 x1 x2)) (hact : ∀ x0
    (x1 : Chip) (_ : KeepsForm c₀ x1), KeepsForm c₀ (act x0 x1)) :
    KeepsForm c₀ (Machine.guarded bad reject act w c) := by
  unfold Machine.guarded
  split
  · exact (hreject _ (h.unwrite _) _ _).ite h
  · exact hact _ _ h

theorem KeepsForm.runHook (h : KeepsForm c₀ c) (hook : Hook) (w : Option WriteCtx) (hhook : ∀ x0 (x1 : Chip) (_ : KeepsForm c₀
    x1), KeepsForm c₀ (hook x0 x1)) :
    KeepsForm c₀ (Machine.runHook hook w c) := by
  unfold Machine.runHook
  split
  · exact hhook _ _ h
  · exact h

theorem KeepsForm.storeDefined (h : KeepsForm c₀ c) (fn off : Nat) (d : RegDesc) (data mask : Nat) :
    KeepsForm c₀ (Machine.storeDefined c fn off d data mask).chip := ((h.setReg _ _).postError _ _ _).ite (h.setReg _ _)

theorem KeepsForm.storeReg (h : KeepsForm c₀ c) (fn off data mask : Nat) :
    KeepsForm c₀ (Machine.storeReg c fn off data mask).chip := by
  unfold Machine.storeReg
  split
  · exact h
  · split
    · exact h
    · split
      · exact h.storeDefined _ _ _ _ _
      · exact h.postError 0x03 (srcFn fn) off

theorem KeepsForm.writeReg (h : KeepsForm c₀ c) (hook : Hook) (fn off data mask : Nat)
    (hhook : ∀ w c, KeepsForm c₀ c → KeepsForm c₀ (hook w c)) : KeepsForm c₀ (Machine.writeReg hook c fn off data mask) :=
  have hs := h.storeReg fn off data mask
  ((hs.deny _ _).ite hs).runHook _ _ hhook

theorem KeepsForm.writePair (h : KeepsForm c₀ c) (lo hi : Hook) (fn off dataLo maskLo dataHi maskHi : Nat)
    (hlo : ∀ w c, KeepsForm c₀ c → KeepsForm c₀ (lo w c)) (hhi : ∀ w c, KeepsForm c₀ c → KeepsForm c₀ (hi w c)) :
    KeepsForm c₀ (Machine.writePair lo hi c fn off dataLo maskLo dataHi maskHi) :=
  have ht := (h.storeReg fn off dataLo maskLo).storeReg fn (off + 4) dataHi maskHi
  (((ht.deny _ _).ite ((ht.deny _ _).ite ht)).runHook _ _ hlo).runHook _ _ hhi

theorem KeepsForm.writeWord (h : KeepsForm c₀ c) (hook : Hook) (fn : Fn) (off : Nat) (v : Word) (be : BitVec 4) (hhook : ∀ x0
    (x1 : Chip) (_ : KeepsForm c₀ x1), KeepsForm c₀ (hook x0 x1)) :
    KeepsForm c₀ (Machine.writeWord hook c fn off v be) := by
  unfold Machine.writeWord
  exact h.writeReg _ _ _ _ _ hhook

end Sys2Proof.Machine
end

section
-- One proof at a time: every thread takes a stack of its own from the memory that a compile has.
set_option Elab.async false
/-! SUPPORT. The canonical form (log 3) is kept by the operations of the plant side: channels, cells, contacts, trips and legs. -/

namespace Sys2Proof.Machine

variable {c₀ c : Chip}

/-! ## Universal analog channels -/

theorem KeepsForm.setAna (h : KeepsForm c₀ c) (ch : Nat) (a : AnaSt) : KeepsForm c₀ (Machine.setAna c ch a) := h.withAna _

theorem KeepsForm.modAna (h : KeepsForm c₀ c) (ch : Nat) (f : AnaSt → AnaSt) : KeepsForm c₀ (Machine.modAna c ch f) :=
  h.setAna _ _

theorem KeepsForm.setBank (h : KeepsForm c₀ c) (b : Nat) (s : BankSt) : KeepsForm c₀ (Machine.setBank c b s) := h.withBank _

theorem KeepsForm.modBank (h : KeepsForm c₀ c) (b : Nat) (f : BankSt → BankSt) : KeepsForm c₀ (Machine.modBank c b f) :=
  h.setBank _ _

theorem KeepsForm.setCover (h : KeepsForm c₀ c) (ch : Nat) : KeepsForm c₀ (Machine.setCover c ch) := by
  unfold Machine.setCover
  exact (((h.setFlag _ _ _).setFld _ _ _ _).setFlag _ _ _).modBank _ _

theorem KeepsForm.setPhase (h : KeepsForm c₀ c) (b p : Nat) : KeepsForm c₀ (Machine.setPhase c b p) := h.setFld _ _ _ _

theorem KeepsForm.startSettle (h : KeepsForm c₀ c) (ch : Nat) : KeepsForm c₀ (Machine.startSettle c ch) := by
  unfold Machine.startSettle
  exact h.setFld _ _ _ _

theorem KeepsForm.startIepe (h : KeepsForm c₀ c) (ch : Nat) : KeepsForm c₀ (Machine.startIepe c ch) := by
  unfold Machine.startIepe
  exact (h.setAna _ _).ite h

theorem KeepsForm.loadHo (h : KeepsForm c₀ c) (ch : Nat) (d : Int) : KeepsForm c₀ (Machine.loadHo c ch d) := h.setFld _ _ _ _

theorem KeepsForm.beginStep (h : KeepsForm c₀ c) (b k : Nat) : KeepsForm c₀ (Machine.beginStep c b k) := by
  unfold Machine.beginStep
  exact (((h.setFld _ _ _ _).modBank _ _).setPhase _ _).ite ((((h.setFld _ _ _ _).modBank _ _).setPhase _ _).ite (((h.setFld _ _
      _ _).modBank _ _).setPhase _ _))

theorem KeepsForm.stepFallsDue (h : KeepsForm c₀ c) (b k : Nat) : KeepsForm c₀ (Machine.stepFallsDue c b k) := by
  unfold Machine.stepFallsDue
  exact ((h.setPhase _ _).modBank _ _).ite (h.beginStep _ _)

theorem KeepsForm.endWork (h : KeepsForm c₀ c) (b : Nat) : KeepsForm c₀ (Machine.endWork c b) := by
  unfold Machine.endWork
  exact (((h.modBank _ _).countFld _ _ _).stepFallsDue _ _).ite ((h.modBank _ _).setPhase _ _)

theorem KeepsForm.stopRotation (h : KeepsForm c₀ c) (b : Nat) : KeepsForm c₀ (Machine.stopRotation c b) := by
  unfold Machine.stopRotation
  exact (h.modBank _ _).setPhase _ _

theorem KeepsForm.beginEmergency (h : KeepsForm c₀ c) (b ch : Nat) : KeepsForm c₀ (Machine.beginEmergency c b ch) := by
  unfold Machine.beginEmergency
  exact (h.setPhase _ _).modBank _ _

theorem KeepsForm.freshCal (h : KeepsForm c₀ c) (ch : Nat) : KeepsForm c₀ (Machine.freshCal c ch) := by
  unfold Machine.freshCal
  exact h.ite (h.setFlag _ _ _)

theorem KeepsForm.dropSpareFlag (h : KeepsForm c₀ c) (ch : Nat) : KeepsForm c₀ (Machine.dropSpareFlag c ch) := by
  unfold Machine.dropSpareFlag
  exact h.ite (h.setPoint _ _)

theorem KeepsForm.toHome (h : KeepsForm c₀ c) (ch : Nat) : KeepsForm c₀ (Machine.toHome c ch) := by
  unfold Machine.toHome
  exact (h.setFlag _ _ _).freshCal _

theorem KeepsForm.cellLostReport (h : KeepsForm c₀ c) (ch : Nat) : KeepsForm c₀ (Machine.cellLostReport c ch) :=
  h.postPointFault _ _ _ _

theorem KeepsForm.spareGone (h : KeepsForm c₀ c) (b : Nat) : KeepsForm c₀ (Machine.spareGone c b) := by
  unfold Machine.spareGone
  dsimp only
  split
  · exact h
  · split
    · exact ((((((h.modBank _ _).toHome _).startSettle _).setFlag _ _ _).stopRotation _).postErrorRec _ _ _).cellLostReport _
    · exact (((((h.modBank _ _).toHome _).startSettle _).setFlag _ _ _).stopRotation _).postErrorRec _ _ _

theorem KeepsForm.rotationMeetsChange (h : KeepsForm c₀ c) (ch : Nat) (toOff : Bool) :
    KeepsForm c₀ (Machine.rotationMeetsChange c ch toOff) := by
  unfold Machine.rotationMeetsChange
  dsimp only
  refine ((h.spareGone _).ite h).ite ?_
  refine ((((h.spareGone _).ite h).beginEmergency _ _).ite ((h.spareGone _).ite h)).ite ?_
  refine ((((h.spareGone _).ite h).stopRotation _).ite (((((h.spareGone _).ite h).setPhase _ _).modBank _ _).ite ((((h.spareGone
      _).ite h).modBank _ _).stepFallsDue _ _))).ite ?_
  refine KeepsForm.ite ?_ ((h.spareGone _).ite h)
  refine KeepsForm.ite ?_ ((((h.spareGone _).ite h).setPhase _ _).modBank _ _)
  split
  · exact ((((h.spareGone _).ite h).toHome _).dropSpareFlag _).beginEmergency _ _
  · exact (((((h.spareGone _).ite h).toHome _).dropSpareFlag _).setPhase _ _).modBank _ _

theorem KeepsForm.clearUnused (h : KeepsForm c₀ c) (ch m : Nat) : KeepsForm c₀ (Machine.clearUnused c ch m) := by
  unfold Machine.clearUnused
  exact ((h.ite ((h.setFlag _ _ _).setFlag _ _ _)).ite ((h.ite ((h.setFlag _ _ _).setFlag _ _ _)).setFlag _ _ _)).ite (((h.ite
      ((h.setFlag _ _ _).setFlag _ _ _)).ite ((h.ite ((h.setFlag _ _ _).setFlag _ _ _)).setFlag _ _ _)).setFld _ _ _ _)

theorem KeepsForm.endTone (h : KeepsForm c₀ c) (ch : Nat) : KeepsForm c₀ (Machine.endTone c ch) := by
  unfold Machine.endTone
  exact (((h.modAna _ _).setPhase _ _).modBank _ _).ite (h.modAna _ _)

theorem KeepsForm.cellOut (h : KeepsForm c₀ c) (ch : Nat) : KeepsForm c₀ (Machine.cellOut c ch) := by
  unfold Machine.cellOut
  exact (h.setFlag _ _ _).endTone _

theorem KeepsForm.applySetup (h : KeepsForm c₀ c) (ch : Nat) : KeepsForm c₀ (Machine.applySetup c ch) := by
  unfold Machine.applySetup
  exact ((((((h.clearUnused _ _).setAna _ _).startSettle _).startIepe _).ite ((h.clearUnused _ _).setAna _ _)).ite
      (((((((h.clearUnused _ _).setAna _ _).startSettle _).startIepe _).ite ((h.clearUnused _ _).setAna _ _)).freshCal
      _).rotationMeetsChange _ _)).ite (((((((h.clearUnused _ _).setAna _ _).startSettle _).startIepe _).ite ((h.clearUnused _
      _).setAna _ _)).ite (((((((h.clearUnused _ _).setAna _ _).startSettle _).startIepe _).ite ((h.clearUnused _ _).setAna _
      _)).freshCal _).rotationMeetsChange _ _)).endTone _)

theorem KeepsForm.acqReject (h : KeepsForm c₀ c) (w : WriteCtx) (ch : Nat) : KeepsForm c₀ (Machine.acqReject c w ch) := by
  unfold Machine.acqReject
  exact ((h.unwrite _).setFlag _ _ _).postError _ _ _

theorem KeepsForm.keepIexc (h : KeepsForm c₀ c) (w : WriteCtx) : KeepsForm c₀ (Machine.keepIexc c w) := by
  unfold Machine.keepIexc
  exact (h.setFld _ _ _ _).ite h

theorem KeepsForm.hookSetup (h : KeepsForm c₀ c) (w : WriteCtx) : KeepsForm c₀ (Machine.hookSetup w c) := by
  unfold Machine.hookSetup
  exact ((((h.keepIexc _).acqReject _ _).ite (((h.keepIexc _).modAna _ _).ite ((h.keepIexc _).applySetup _))).postError _ _
      _).ite (((h.keepIexc _).acqReject _ _).ite (((h.keepIexc _).modAna _ _).ite ((h.keepIexc _).applySetup _)))

theorem KeepsForm.hookCmwin (h : KeepsForm c₀ c) (w : WriteCtx) : KeepsForm c₀ (Machine.hookCmwin w c) := by
  unfold Machine.hookCmwin
  exact (h.acqReject _ _).ite h

theorem KeepsForm.acqSetupWrite (h : KeepsForm c₀ c) (fn : Fn) (ch : Nat) (i : Nat) (v : Word) (be : BitVec 4) :
    KeepsForm c₀ (Machine.acqSetupWrite c fn ch i v be) := by
  unfold Machine.acqSetupWrite
  exact h.writeWord _ _ _ _ _ (fun _ _ h1 => (h1.hookSetup _))

theorem KeepsForm.loadQuad (h : KeepsForm c₀ c) (ch : Nat) (q : Rat) : KeepsForm c₀ (Machine.loadQuad c ch q) := by
  unfold Machine.loadQuad
  exact h.setFld _ _ _ _

theorem KeepsForm.linearise (h : KeepsForm c₀ c) (ch set : Nat) (raw : Rat) : KeepsForm c₀ (Machine.linearise c ch set raw) :=
    by
  unfold Machine.linearise
  exact (h.writeBad _ _).ite ((h.writeHeld _ _).ite (((h.setFlag _ _ _).writeBad _ _).ite ((h.setFlag _ _ _).writeValue _ _ _ _
      _ _)))

theorem KeepsForm.phaseE (h : KeepsForm c₀ c) (ch : Nat) : KeepsForm c₀ (Machine.phaseE c ch) := by
  unfold Machine.phaseE
  exact (h.modBank _ _).ite ((h.setPhase _ _).modBank _ _)

theorem KeepsForm.countSettle (h : KeepsForm c₀ c) (ch : Nat) : KeepsForm c₀ (Machine.countSettle c ch) := by
  unfold Machine.countSettle
  exact ((((h.setFld _ _ _ _).stepFallsDue _ _).ite ((h.setFld _ _ _ _).stopRotation _)).ite ((((h.setFld _ _ _ _).modBank _
      _).phaseE _).ite ((h.setFld _ _ _ _).modBank _ _))).ite (h.setFld _ _ _ _)

theorem KeepsForm.takeOver (h : KeepsForm c₀ c) (ch : Nat) (diff : Int) : KeepsForm c₀ (Machine.takeOver c ch diff) := by
  unfold Machine.takeOver
  exact ((((((((h.setFlag _ _ _).setFld _ _ _ _).loadHo _ _).freshCal _).setCover _).countFld _ _ _).modBank _ _).stopRotation
      _).ite (((((h.setFlag _ _ _).setFld _ _ _ _).loadHo _ _).freshCal _).setPhase _ _)

theorem KeepsForm.handBack (h : KeepsForm c₀ c) (ch : Nat) : KeepsForm c₀ (Machine.handBack c ch) := by
  unfold Machine.handBack
  dsimp only
  split
  · exact (h.toHome _).beginEmergency _ _
  · exact ((h.toHome _).endWork _).ite ((h.toHome _).stopRotation _)

theorem KeepsForm.countPhase (h : KeepsForm c₀ c) (ch : Nat) (raw beside : Rat) :
    KeepsForm c₀ (Machine.countPhase c ch raw beside) := by
  unfold Machine.countPhase
  exact h.ite ((h.modBank _ _).ite ((h.takeOver _ _).ite (h.handBack _)))

theorem KeepsForm.applyIfChanged (h : KeepsForm c₀ c) (ch : Nat) : KeepsForm c₀ (Machine.applyIfChanged c ch) := by
  unfold Machine.applyIfChanged
  exact (h.applySetup _).ite h

theorem KeepsForm.acqWrite (h : KeepsForm c₀ c) (ch : Nat) (raw : Rat) : KeepsForm c₀ (Machine.acqWrite c ch raw) := by
  unfold Machine.acqWrite
  split
  · exact h
  · exact ((h.writeBad _ _).ite (h.writeHeld _ _)).ite ((h.writeHeld _ _).ite (h.linearise _ _ _))

theorem KeepsForm.lessTail (h : KeepsForm c₀ c) (ch : Nat) : KeepsForm c₀ (Machine.lessTail c ch) := by
  unfold Machine.lessTail
  exact h.ite (h.modAna _ _)

theorem KeepsForm.beginTone (h : KeepsForm c₀ c) (ch : Nat) : KeepsForm c₀ (Machine.beginTone c ch) := h.modAna _ _

theorem KeepsForm.startDue (h : KeepsForm c₀ c) (ch : Nat) : KeepsForm c₀ (Machine.startDue c ch) := by
  unfold Machine.startDue
  dsimp only
  refine KeepsForm.ite ?_ ?_
  · refine KeepsForm.ite ?_ ?_
    · refine KeepsForm.beginTone ?_ _
      split
      · exact (h.beginStep _ _).ite (h.stopRotation _)
      · exact h
    · refine KeepsForm.modAna ?_ _ _
      split
      · exact (h.beginStep _ _).ite (h.stopRotation _)
      · exact h
  · split
    · exact (h.beginStep _ _).ite (h.stopRotation _)
    · exact h

theorem KeepsForm.countOutput (h : KeepsForm c₀ c) (ch : Nat) (raw beside : Rat) :
    KeepsForm c₀ (Machine.countOutput c ch raw beside) := by
  unfold Machine.countOutput
  exact ((((h.spareGone _).ite h).ite ((((h.spareGone _).ite h).countPhase _ _ _).countSettle _)).lessTail _).ite
      ((((h.spareGone _).ite h).ite ((((h.spareGone _).ite h).countPhase _ _ _).countSettle _)).startDue _)

theorem KeepsForm.acqOutput (h : KeepsForm c₀ c) (ch : Nat) (sense drive : Phasor) (beside : Rat) :
    KeepsForm c₀ (Machine.acqOutput c ch sense drive beside) := by
  unfold Machine.acqOutput
  exact ((((((h.takeFree.takeFree.ite h).loadQuad _ _).acqWrite _ _).ite ((h.takeFree.takeFree.ite h).loadQuad _ _)).countOutput
      _ _ _).applyIfChanged _).ite h

theorem KeepsForm.endBlank (h : KeepsForm c₀ c) (b : Nat) : KeepsForm c₀ (Machine.endBlank c b) := by
  unfold Machine.endBlank
  exact (h.setFlag _ _ _).foldl (fun _ h1 _ => ((h1.modAna _ _).ite h1))

theorem KeepsForm.rtd3PhaseChange (h : KeepsForm c₀ c) (ch lead : Nat) : KeepsForm c₀ (Machine.rtd3PhaseChange c ch lead) := by
  unfold Machine.rtd3PhaseChange
  exact h.ite (((h.ite (h.setFld _ _ _ _)).setAna _ _).setFlag _ _ _)

theorem KeepsForm.iepeBiasCheck (h : KeepsForm c₀ c) (ch bias : Nat) : KeepsForm c₀ (Machine.iepeBiasCheck c ch bias) := by
  unfold Machine.iepeBiasCheck
  exact h.ite ((((h.setFlag _ _ _).setFlag _ _ _).startIepe _).ite ((h.setFlag _ _ _).setFlag _ _ _))

theorem KeepsForm.excitationLimit (h : KeepsForm c₀ c) (ch : Nat) (limited : Bool) :
    KeepsForm c₀ (Machine.excitationLimit c ch limited) := by
  unfold Machine.excitationLimit
  exact h.ite (h.setFlag _ _ _)

theorem KeepsForm.protReport (h : KeepsForm c₀ c) (ch detail : Nat) : KeepsForm c₀ (Machine.protReport c ch detail) := by
  unfold Machine.protReport
  exact (h.countFld _ _ _).postPointFault _ _ _ _

theorem KeepsForm.protectionOpen (h : KeepsForm c₀ c) (ch : Nat) : KeepsForm c₀ (Machine.protectionOpen c ch) := by
  unfold Machine.protectionOpen
  exact (((h.cellOut _).setFlag _ _ _).protReport _ _).ite h

theorem KeepsForm.protectionEnd (h : KeepsForm c₀ c) (ch : Nat) : KeepsForm c₀ (Machine.protectionEnd c ch) := by
  unfold Machine.protectionEnd
  exact (((h.setFlag _ _ _).startSettle _).startIepe _).ite h

theorem KeepsForm.shuntOpen (h : KeepsForm c₀ c) (ch : Nat) : KeepsForm c₀ (Machine.shuntOpen c ch) := by
  unfold Machine.shuntOpen
  exact ((h.setFlag _ _ _).protReport _ _).ite h

theorem KeepsForm.shuntReconnectTest (h : KeepsForm c₀ c) (ch : Nat) (ok : Bool) :
    KeepsForm c₀ (Machine.shuntReconnectTest c ch ok) := by
  unfold Machine.shuntReconnectTest
  exact ((h.setFlag _ _ _).ite (h.protReport _ _)).ite h

theorem KeepsForm.sensorFault (h : KeepsForm c₀ c) (ch : Nat) : KeepsForm c₀ (Machine.sensorFault c ch) := by
  unfold Machine.sensorFault
  exact (h.countFld _ _ _).postPointFault _ _ _ _

theorem KeepsForm.setCheck (h : KeepsForm c₀ c) (ch i : Nat) (b : Bool) : KeepsForm c₀ (Machine.setCheck c ch i b) := by
  unfold Machine.setCheck
  exact ((h.setFlag _ _ _).sensorFault _).ite (h.setFlag _ _ _)

theorem KeepsForm.cmCheck (h : KeepsForm c₀ c) (ch : Nat) (v : BallVolts) : KeepsForm c₀ (Machine.cmCheck c ch v) := by
  unfold Machine.cmCheck
  exact h.ite ((((h.setAna _ _).setCheck _ _ _).ite (h.setAna _ _)).ite (((h.setAna _ _).setCheck _ _ _).ite (h.setAna _ _)))

theorem KeepsForm.testToneStart (h : KeepsForm c₀ c) (ch : Nat) : KeepsForm c₀ (Machine.testToneStart c ch) := by
  unfold Machine.testToneStart
  exact ((h.modAna _ _).ite (h.beginTone _)).ite h

theorem KeepsForm.testToneEnd (h : KeepsForm c₀ c) (ch loopR : Nat) (both : Insulation) :
    KeepsForm c₀ (Machine.testToneEnd c ch loopR both) := by
  unfold Machine.testToneEnd
  exact h.ite (((((((((h.endTone _).setFld _ _ _ _).ite (h.endTone _)).setFld _ _ _ _).ite (((h.endTone _).setFld _ _ _ _).ite
      (h.endTone _))).setCheck _ _ _).setCheck _ _ _).setFlag _ _ _).ite ((((((h.endTone _).setFld _ _ _ _).ite (h.endTone
      _)).setFld _ _ _ _).ite (((h.endTone _).setFld _ _ _ _).ite (h.endTone _))).setCheck _ _ _))

theorem KeepsForm.rotationPhaseEnd (h : KeepsForm c₀ c) (b : Nat) : KeepsForm c₀ (Machine.rotationPhaseEnd c b) := by
  unfold Machine.rotationPhaseEnd
  exact (h.stepFallsDue _ _).ite h

theorem KeepsForm.retireCell (h : KeepsForm c₀ c) (b cell : Nat) : KeepsForm c₀ (Machine.retireCell c b cell) := h.modBank _ _

theorem KeepsForm.calPassed (h : KeepsForm c₀ c) (b cell key : Nat) (ofs gain : Int) :
    KeepsForm c₀ (Machine.calPassed c b cell key ofs gain) := by
  unfold Machine.calPassed
  dsimp only
  split
  · exact (((h.withCorr _).modBank _ _).modBank _ _).ite ((((h.withCorr _).modBank _ _).setPhase _ _).modBank _ _)
  · exact (((h.withCorr _).modBank _ _).phaseE _).ite (((((h.withCorr _).modBank _ _).freshCal _).endWork _).ite ((((h.withCorr
        _).modBank _ _).freshCal _).stopRotation _))
  · exact (((h.withCorr _).modBank _ _).modBank _ _).ite (((h.withCorr _).modBank _ _).endWork _)
  · exact (h.withCorr _).modBank _ _

theorem KeepsForm.loseWaiting (h : KeepsForm c₀ c) (b : Nat) : KeepsForm c₀ (Machine.loseWaiting c b) := by
  unfold Machine.loseWaiting
  split
  · exact ((h.modBank _ _).cellOut _).cellLostReport _
  · exact h

theorem KeepsForm.calFailed (h : KeepsForm c₀ c) (b cell : Nat) : KeepsForm c₀ (Machine.calFailed c b cell) := by
  unfold Machine.calFailed
  exact ((((((h.retireCell _ _).modBank _ _).setFlag _ _ _).stopRotation _).postErrorRec _ _ _).loseWaiting _).ite
      ((((((h.retireCell _ _).modBank _ _).setCover _).stopRotation _).postErrorRec _ _ _).loseWaiting _)

theorem KeepsForm.calibrationEnd (h : KeepsForm c₀ c) (b : Nat) (ofs gain : Int) (exc : Nat) :
    KeepsForm c₀ (Machine.calibrationEnd c b ofs gain exc) := by
  unfold Machine.calibrationEnd
  dsimp only
  refine h.ite ?_
  split
  · exact h
  · exact (h.calPassed _ _ _ _ _).ite ((h.calFailed _ _).ite (h.modBank _ _))

theorem KeepsForm.spareFails (h : KeepsForm c₀ c) (ch detail : Nat) : KeepsForm c₀ (Machine.spareFails c ch detail) := by
  unfold Machine.spareFails
  exact ((((h.retireCell _ _).modBank _ _).cellOut _).spareGone _).ite (((h.retireCell _ _).modBank _ _).cellOut _)

theorem KeepsForm.homeFails (h : KeepsForm c₀ c) (ch detail : Nat) : KeepsForm c₀ (Machine.homeFails c ch detail) := by
  unfold Machine.homeFails
  exact (((((h.retireCell _ _).cellOut _).postErrorRec _ _ _).modBank _ _).ite (((((h.retireCell _ _).cellOut _).postErrorRec _
      _ _).modBank _ _).phaseE _)).ite ((((h.retireCell _ _).cellOut _).postErrorRec _ _ _).beginEmergency _ _)

theorem KeepsForm.cellMonitorFail (h : KeepsForm c₀ c) (ch : Nat) (reference : Bool) :
    KeepsForm c₀ (Machine.cellMonitorFail c ch reference) := by
  unfold Machine.cellMonitorFail
  exact h.ite ((((((h.retireCell _ _).setFlag _ _ _).cellOut _).cellLostReport _).ite (h.spareFails _ _)).ite ((((h.retireCell _
      _).cellOut _).cellLostReport _).ite (h.homeFails _ _)))

theorem KeepsForm.calAged (h : KeepsForm c₀ c) (b : Nat) : KeepsForm c₀ (Machine.calAged c b) := by
  unfold Machine.calAged
  exact (((h.foldl (fun _ h1 _ => (h1.setFlag _ _ _))).setFld _ _ _ _).postErrorRec _ _ _).ite ((h.foldl (fun _ h1 _ =>
      (h1.setFlag _ _ _))).setFld _ _ _ _)

theorem KeepsForm.rotationCheck (h : KeepsForm c₀ c) (b : Nat) : KeepsForm c₀ (Machine.rotationCheck c b) := by
  unfold Machine.rotationCheck
  exact h.ite (((h.stepFallsDue _ _).ite h).ite (h.ite ((h.ite (h.stopRotation _)).ite (h.stopRotation _))))

theorem KeepsForm.rotationChecks (h : KeepsForm c₀ c) : KeepsForm c₀ (Machine.rotationChecks c) := by
  unfold Machine.rotationChecks
  exact h.foldl (fun _ h1 _ => ((h1.rotationCheck _).ite h1))

theorem KeepsForm.afeDomainOn (h : KeepsForm c₀ c) (bank : Nat) : KeepsForm c₀ (Machine.afeDomainOn c bank) := by
  rw [Machine.afeDomainOn]
  generalize hc1 : List.foldl _ c _ = c1
  have h1 : KeepsForm c₀ c1 := hc1 ▸ h.foldl fun _ h _ => ((h.applySetup _).startIepe _).startSettle _
  split
  · exact h1.beginEmergency _ _
  · exact (h1.stepFallsDue _ _).ite (h1.stopRotation _)

theorem KeepsForm.afeChannelOff (h : KeepsForm c₀ c) (ch : Nat) : KeepsForm c₀ (Machine.afeChannelOff c ch) := by
  unfold Machine.afeChannelOff
  exact (((h.setFlag _ _ _).modAna _ _).applyIfChanged _).ite ((((h.setFlag _ _ _).modAna _ _).applyIfChanged _).setFlag _ _ _)

theorem KeepsForm.afeDomainOff (h : KeepsForm c₀ c) (b : Nat) : KeepsForm c₀ (Machine.afeDomainOff c b) := by
  unfold Machine.afeDomainOff
  exact ((h.spareGone _).foldl (fun _ h1 _ => (h1.afeChannelOff _))).stopRotation _

theorem KeepsForm.modulatorsStop (h : KeepsForm c₀ c) : KeepsForm c₀ (Machine.modulatorsStop c) := by
  unfold Machine.modulatorsStop
  exact (h.withPwr _).foldl (fun _ h1 _ => (h1.applyIfChanged _))

theorem KeepsForm.modulatorsRestart (h : KeepsForm c₀ c) : KeepsForm c₀ (Machine.modulatorsRestart c) := by
  unfold Machine.modulatorsRestart
  exact h.foldl (fun _ h1 _ => (((h1.foldl (fun _ h2 _ => ((h2.startSettle _).startIepe _))).modBank _ _).ite ((h1.foldl (fun _
      h2 _ => ((h2.startSettle _).startIepe _))).ite (((h1.foldl (fun _ h2 _ => ((h2.startSettle _).startIepe _))).phaseE _).ite
      ((((h1.foldl (fun _ h2 _ => ((h2.startSettle _).startIepe _))).setPhase _ _).modBank _ _).ite (((h1.foldl (fun _ h2 _ =>
      ((h2.startSettle _).startIepe _))).setPhase _ _).modBank _ _))))))

/-! ## Loop-output cells -/

theorem KeepsForm.drive (h : KeepsForm c₀ c) (ch d : Nat) : KeepsForm c₀ (Machine.drive c ch d) := by
  unfold Machine.drive
  exact h.modCell _ _

theorem KeepsForm.enterDrive (h : KeepsForm c₀ c) (ch : Nat) : KeepsForm c₀ (Machine.enterDrive c ch) := by
  unfold Machine.enterDrive
  exact h.ite ((h.modCell _ _).drive _ _)

theorem KeepsForm.refreshWord (h : KeepsForm c₀ c) (ch : Nat) : KeepsForm c₀ (Machine.refreshWord c ch) := by
  unfold Machine.refreshWord
  exact h.ite (h.setPoint _ _)

theorem KeepsForm.writeBack (h : KeepsForm c₀ c) (ch d qual fl : Nat) : KeepsForm c₀ (Machine.writeBack c ch d qual fl) := by
  unfold Machine.writeBack
  exact h.ite (((h.modCell _ _).setPoint _ _).refreshWord _)

theorem KeepsForm.reenter (h : KeepsForm c₀ c) (ch : Nat) : KeepsForm c₀ (Machine.reenter c ch) := by
  unfold Machine.reenter
  exact h.ite ((h.setCell _ _).requestOp _)

theorem KeepsForm.restartWatchdog (h : KeepsForm c₀ c) (ch : Nat) : KeepsForm c₀ (Machine.restartWatchdog c ch) := by
  unfold Machine.restartWatchdog
  exact ((h.setFlag _ _ _).reenter _).ite (h.setFlag _ _ _)

theorem KeepsForm.applyCell (h : KeepsForm c₀ c) (ch : Nat) : KeepsForm c₀ (Machine.applyCell c ch) := by
  unfold Machine.applyCell
  exact h.ite (((((((h.restartWatchdog _).setFlag _ _ _).setFlag _ _ _).modCell _ _).drive _ _).writeBack _ _ _ _).ite
      ((((h.restartWatchdog _).setFlag _ _ _).writeBack _ _ _ _).ite (((((h.restartWatchdog _).modCell _ _).setFlag _ _ _).drive
      _ _).writeBack _ _ _ _)))

theorem KeepsForm.setDemand (h : KeepsForm c₀ c) (ch w : Nat) : KeepsForm c₀ (Machine.setDemand c ch w) := by
  unfold Machine.setDemand
  exact (h.modCell _ _).refreshWord _

theorem KeepsForm.fskBegin (h : KeepsForm c₀ c) (fn ch : Nat) (data : List Byte) : KeepsForm c₀ (Machine.fskBegin c fn ch data) :=
  h.modCell _ _

theorem KeepsForm.fskTxStart (h : KeepsForm c₀ c) (ch : Nat) : KeepsForm c₀ (Machine.fskTxStart c ch) := by
  unfold Machine.fskTxStart
  split
  · exact h.ite ((h.modCell _ _).setFlag _ _ _)
  · exact h

theorem KeepsForm.fskCarrierTimeout (h : KeepsForm c₀ c) (ch : Nat) : KeepsForm c₀ (Machine.fskCarrierTimeout c ch) := by
  unfold Machine.fskCarrierTimeout
  split
  · exact h.ite (h.endFsk _ _)
  · exact h

theorem KeepsForm.fskTxEnd (h : KeepsForm c₀ c) (ch : Nat) : KeepsForm c₀ (Machine.fskTxEnd c ch) := by
  unfold Machine.fskTxEnd
  split
  · exact (h.endFsk _ _).ite h
  · exact h

theorem KeepsForm.fskCarrierDetect (h : KeepsForm c₀ c) (ch : Nat) (on : Bool) : KeepsForm c₀ (Machine.fskCarrierDetect c ch on)
    := by
  unfold Machine.fskCarrierDetect
  exact (((h.modCell _ _).setFlag _ _ _).ite h).ite (h.setFlag _ _ _)

theorem KeepsForm.fskRxOwner (h : KeepsForm c₀ c) (ch : Nat) : KeepsForm c₀ (Machine.fskRxOwner c ch) := by
  unfold Machine.fskRxOwner
  exact (h.modCell _ _).ite h

theorem KeepsForm.fskRxEnd (h : KeepsForm c₀ c) (ch : Nat) (data : List Byte) (status : Byte) :
    KeepsForm c₀ (Machine.fskRxEnd c ch data status) := by
  unfold Machine.fskRxEnd
  exact h.ite ((h.modCell _ _).ite ((h.ite (h.countFld _ _ _)).putEvents _ _))

theorem KeepsForm.setCellFault (h : KeepsForm c₀ c) (ch i : Nat) : KeepsForm c₀ (Machine.setCellFault c ch i) := by
  unfold Machine.setCellFault
  exact h.ite ((((h.setFlag _ _ _).countFld _ _ _).refreshWord _).postPointFault _ _ _ _)

theorem KeepsForm.clearCellFault (h : KeepsForm c₀ c) (ch i : Nat) : KeepsForm c₀ (Machine.clearCellFault c ch i) := by
  unfold Machine.clearCellFault
  exact ((h.setFlag _ _ _).refreshWord _).ite h

theorem KeepsForm.loadCellFault (h : KeepsForm c₀ c) (ch i : Nat) (b : Bool) : KeepsForm c₀ (Machine.loadCellFault c ch i b) :=
    by
  unfold Machine.loadCellFault
  exact (h.setCellFault _ _).ite (h.clearCellFault _ _)

theorem KeepsForm.vfieldRefresh (h : KeepsForm c₀ c) (ch : Nat) : KeepsForm c₀ (Machine.vfieldRefresh c ch) :=
  h.loadCellFault _ _ _

theorem KeepsForm.vfieldRefreshBank (h : KeepsForm c₀ c) (n : Nat) : KeepsForm c₀ (Machine.vfieldRefreshBank c n) := by
  unfold Machine.vfieldRefreshBank
  exact h.foldl (fun _ h1 _ => (h1.vfieldRefresh _))

theorem KeepsForm.loopFaultSet (h : KeepsForm c₀ c) (ch k : Nat) : KeepsForm c₀ (Machine.loopFaultSet c ch k) := by
  unfold Machine.loopFaultSet
  dsimp only
  refine h.ite ?_
  split
  · exact h.ite (h.setCellFault _ _)
  · exact h.ite (h.setCellFault _ _)
  · exact h.ite (h.setCellFault _ _)
  · exact h.ite (h.setCellFault _ _)
  · exact (h.setCellFault _ _).ite h
  · exact h.setCellFault _ _
  · exact h

theorem KeepsForm.clearIf (h : KeepsForm c₀ c) (ch i : Nat) (b : Bool) : KeepsForm c₀ (Machine.clearIf c ch i b) := by
  unfold Machine.clearIf
  exact (h.clearCellFault _ _).ite h

theorem KeepsForm.sinkHeadroom (h : KeepsForm c₀ c) (ch : Nat) (p : Int) : KeepsForm c₀ (Machine.sinkHeadroom c ch p) := by
  unfold Machine.sinkHeadroom
  exact ((h.setCell _ _).clearCellFault _ _).ite (((h.setCell _ _).setCellFault _ _).ite ((h.setCell _ _).clearIf _ _ _))

theorem KeepsForm.readbackUpdate (h : KeepsForm c₀ c) (ch rbIn dr : Nat) (vloop : Int) (vres : Nat) (short : Bool) :
    KeepsForm c₀ (Machine.readbackUpdate c ch rbIn dr vloop vres short) := by
  unfold Machine.readbackUpdate
  exact h.ite ((((((((h.setReg _ _).setReg _ _).ite ((((((h.setReg _ _).setReg _ _).clearIf _ _ _).clearIf _ _ _).clearIf _ _
      _).clearIf _ _ _)).clearIf _ _ _).clearIf _ _ _).sinkHeadroom _ _).clearCellFault _ _).ite ((((((((h.setReg _ _).setReg _
      _).ite ((((((h.setReg _ _).setReg _ _).clearIf _ _ _).clearIf _ _ _).clearIf _ _ _).clearIf _ _ _)).clearIf _ _ _).clearIf
      _ _ _).sinkHeadroom _ _).setCellFault _ _).ite (((((((h.setReg _ _).setReg _ _).ite ((((((h.setReg _ _).setReg _
      _).clearIf _ _ _).clearIf _ _ _).clearIf _ _ _).clearIf _ _ _)).clearIf _ _ _).clearIf _ _ _).sinkHeadroom _ _).clearIf _
      _ _)))

theorem KeepsForm.lnSwitchOpen (h : KeepsForm c₀ c) (ch : Nat) : KeepsForm c₀ (Machine.lnSwitchOpen c ch) := by
  unfold Machine.lnSwitchOpen
  exact ((h.setCellFault _ _).setFld _ _ _ _).ite h

theorem KeepsForm.lnReconnectTest (h : KeepsForm c₀ c) (ch : Nat) (ok : Bool) : KeepsForm c₀ (Machine.lnReconnectTest c ch ok)
    := by
  unfold Machine.lnReconnectTest
  exact (h.clearCellFault _ _).ite h

theorem KeepsForm.overtemp (h : KeepsForm c₀ c) (ch : Nat) (hot : Bool) : KeepsForm c₀ (Machine.overtemp c ch hot) := by
  unfold Machine.overtemp
  exact h.ite ((h.ite (((h.setCellFault _ _).modCell _ _).cellToOpen _)).ite (((h.clearCellFault _ _).reenter _).ite h))

theorem KeepsForm.loopReject (h : KeepsForm c₀ c) (ch off : Nat) : KeepsForm c₀ (Machine.loopReject c ch off) := by
  unfold Machine.loopReject
  exact (h.setFlag _ _ _).postError _ _ _

theorem KeepsForm.loopGuarded (h : KeepsForm c₀ c) (act : Hook) (w : WriteCtx)
    (hact : ∀ w c, KeepsForm c₀ c → KeepsForm c₀ (act w c)) : KeepsForm c₀ (Machine.loopGuarded act w c) := by
  unfold Machine.loopGuarded
  exact h.guarded _ _ _ _ (fun _ h _ _ => h.loopReject _ _) hact

theorem KeepsForm.hookLoopCfg (h : KeepsForm c₀ c) (w : WriteCtx) : KeepsForm c₀ (Machine.hookLoopCfg w c) := by
  unfold Machine.hookLoopCfg
  exact h.loopGuarded _ _ (fun _ _ h1 => ((h1.ite ((h1.endFsk _ _).setFlag _ _ _)).ite (((h1.ite ((h1.endFsk _ _).setFlag _ _
      _)).modCell _ _).requestOp _)))

theorem KeepsForm.loopModeWrite (h : KeepsForm c₀ c) (fn : Fn) (ch : Nat) (v : Word) (be : BitVec 4) :
    KeepsForm c₀ (Machine.loopModeWrite c fn ch v be) := by
  unfold Machine.loopModeWrite
  exact h.writeWord _ _ _ _ _ (fun _ _ h1 => (h1.hookLoopCfg _))

theorem KeepsForm.bankStepWithdrawn (h : KeepsForm c₀ c) (ch : Nat) : KeepsForm c₀ (Machine.bankStepWithdrawn c ch) := by
  unfold Machine.bankStepWithdrawn
  dsimp only
  split
  · exact ((h.setCell _ _).setFld _ _ _ _).loopReject _ _
  · exact h

theorem KeepsForm.cellModeEnter (h : KeepsForm c₀ c) (ch : Nat) : KeepsForm c₀ (Machine.cellModeEnter c ch) := by
  unfold Machine.cellModeEnter
  dsimp only
  split
  · exact h.ite (((((h.cellToOpen _).ite h).modCell _ _).ite ((((h.cellToOpen _).ite h).modCell _ _).enterDrive
        _)).vfieldRefresh _)
  · exact h

theorem KeepsForm.loopDomainOn (h : KeepsForm c₀ c) (n : Nat) : KeepsForm c₀ (Machine.loopDomainOn c n) := by
  unfold Machine.loopDomainOn
  exact h.foldl (fun _ h1 _ => (((h1.modCell _ _).enterDrive _).vfieldRefresh _))

theorem KeepsForm.loopDomainOff (h : KeepsForm c₀ c) (n : Nat) : KeepsForm c₀ (Machine.loopDomainOff c n) := by
  unfold Machine.loopDomainOff
  exact h.foldl (fun _ h1 _ => (((((h1.cellToOpen _).releaseSurge _).dropReq _).modCell _ _).vfieldRefresh _))

theorem KeepsForm.wdHold (h : KeepsForm c₀ c) (ch : Nat) : KeepsForm c₀ (Machine.wdHold c ch) := by
  unfold Machine.wdHold
  exact (h.setFlag _ _ _).ite h

theorem KeepsForm.wdOpen (h : KeepsForm c₀ c) (ch : Nat) : KeepsForm c₀ (Machine.wdOpen c ch) := by
  unfold Machine.wdOpen
  exact ((h.modCell _ _).cellToOpen _).ite h

theorem KeepsForm.hookClamp (h : KeepsForm c₀ c) (w : WriteCtx) : KeepsForm c₀ (Machine.hookClamp w c) := by
  unfold Machine.hookClamp
  exact h.loopGuarded _ _ (fun _ _ h1 => (h1.hookNone _))

theorem KeepsForm.setForce (h : KeepsForm c₀ c) (ch f : Nat) : KeepsForm c₀ (Machine.setForce c ch f) := by
  unfold Machine.setForce
  exact ((h.setFld _ _ _ _).endForced _).ite (((h.setFld _ _ _ _).applyCell _).ite (h.setFld _ _ _ _))

theorem KeepsForm.beginStore (h : KeepsForm c₀ c) : KeepsForm c₀ (Machine.beginStore c) := by
  unfold Machine.beginStore
  exact h.ite ((h.withTrim _).setFlag _ _ _)

theorem KeepsForm.storeDone (h : KeepsForm c₀ c) : KeepsForm c₀ (Machine.storeDone c) := by
  unfold Machine.storeDone
  dsimp only
  split
  · exact (((h.withTrim _).setFlag _ _ _).setFld _ _ _ _).nodeRec _ _ _
  · exact h

theorem KeepsForm.trimCut (h : KeepsForm c₀ c) (reached : Nat) : KeepsForm c₀ (Machine.trimCut c reached) := by
  unfold Machine.trimCut
  dsimp only
  split
  · exact h.takeFree.withTrim _
  · exact h

theorem KeepsForm.hookTrimCmd (h : KeepsForm c₀ c) (w : WriteCtx) : KeepsForm c₀ (Machine.hookTrimCmd w c) := by
  unfold Machine.hookTrimCmd
  exact ((h.setFlag _ _ _).ite h).ite (((h.ite (((h.setReg _ _).setFlag _ _ _).ite (h.setForce _ _))).beginStore).ite (h.ite
      (((h.setReg _ _).setFlag _ _ _).ite (h.setForce _ _))))

theorem KeepsForm.writeTrimCmd (h : KeepsForm c₀ c) (fn : Fn) (ch : Nat) (v : Word) (be : BitVec 4) :
    KeepsForm c₀ (Machine.writeTrimCmd c fn ch v be) := by
  unfold Machine.writeTrimCmd
  exact h.writeWord _ _ _ _ _ (fun _ _ h1 => (h1.hookTrimCmd _))

theorem KeepsForm.loadTrims (h : KeepsForm c₀ c) : KeepsForm c₀ (Machine.loadTrims c) := by
  unfold Machine.loadTrims
  dsimp only
  split
  · exact (h.foldl (fun _ h1 _ => (h1.setReg _ _))).setReg _ _
  · exact (h.foldl (fun _ h1 _ => (h1.setReg _ _))).setReg _ _

theorem KeepsForm.stepTrim (h : KeepsForm c₀ c) (ch lo : Nat) (d lim : Int) : KeepsForm c₀ (Machine.stepTrim c ch lo d lim) :=
    by
  unfold Machine.stepTrim
  exact h.setFld _ _ _ _

theorem KeepsForm.buttonStep (h : KeepsForm c₀ c) (ch : Nat) (up : Bool) (k : Int) : KeepsForm c₀ (Machine.buttonStep c ch up k)
    := by
  unfold Machine.buttonStep
  dsimp only
  split
  · exact h.stepTrim _ _ _ _
  · exact h.stepTrim _ _ _ _
  · exact h

theorem KeepsForm.buttonPress (h : KeepsForm c₀ c) (b : Nat) : KeepsForm c₀ (Machine.buttonPress c b) := by
  unfold Machine.buttonPress
  split
  · exact h
  · split
    · exact h.setForce _ _
    · exact h.setForce _ _
    · exact h.buttonStep _ _ _
    · exact h.buttonStep _ _ _

theorem KeepsForm.buttonRepeat (h : KeepsForm c₀ c) (b : Nat) (late : Bool) : KeepsForm c₀ (Machine.buttonRepeat c b late) := by
  unfold Machine.buttonRepeat
  split
  · exact h
  · exact h.ite (h.buttonStep _ _ _)

theorem KeepsForm.buttonStoreHold (h : KeepsForm c₀ c) : KeepsForm c₀ (Machine.buttonStoreHold c) := by
  unfold Machine.buttonStoreHold
  split
  · exact h
  · exact (h.setForce _ _).beginStore

theorem KeepsForm.clearForces (h : KeepsForm c₀ c) : KeepsForm c₀ (Machine.clearForces c) := by
  unfold Machine.clearForces
  exact h.foldl (fun _ h1 _ => (h1.ite (h1.setForce _ _)))

theorem KeepsForm.cellsGoLive (h : KeepsForm c₀ c) : KeepsForm c₀ (Machine.cellsGoLive c) := by
  unfold Machine.cellsGoLive
  exact h.foldl (fun _ h1 _ => (h1.ite (h1.enterDrive _)))

/-! ## Contacts, pulse inputs and the Notch trip matrix -/

theorem KeepsForm.setContact (h : KeepsForm c₀ c) (n : Nat) (x : ContactSt) : KeepsForm c₀ (Machine.setContact c n x) :=
  h.withContacts _

theorem KeepsForm.diChange (h : KeepsForm c₀ c) (n s : Nat) : KeepsForm c₀ (Machine.diChange c n s) := by
  unfold Machine.diChange
  exact (((((((h.setContact _ _).setFld _ _ _ _).countFld _ _ _).countFld _ _ _).ite (((h.setContact _ _).setFld _ _ _
      _).countFld _ _ _)).countFld _ _ _).postPointFault _ _ _ _).ite (((((h.setContact _ _).setFld _ _ _ _).countFld _ _
      _).countFld _ _ _).ite (((h.setContact _ _).setFld _ _ _ _).countFld _ _ _))

theorem KeepsForm.contactSample (h : KeepsForm c₀ c) (n : Nat) (ohm : Option Nat) : KeepsForm c₀ (Machine.contactSample c n ohm)
    := by
  unfold Machine.contactSample
  exact h.ite ((((h.setFld _ _ _ _).diChange _ _).ite ((h.setFld _ _ _ _).setContact _ _)).ite ((h.setFld _ _ _ _).setContact _
      _))

theorem KeepsForm.contactEntry (h : KeepsForm c₀ c) (n : Nat) : KeepsForm c₀ (Machine.contactEntry c n) := by
  unfold Machine.contactEntry
  exact h.ite ((h.setContact _ _).writeLive _ _ _)

theorem KeepsForm.hookDiThr (h : KeepsForm c₀ c) (w : WriteCtx) : KeepsForm c₀ (Machine.hookDiThr w c) := by
  unfold Machine.hookDiThr
  exact h.ite (((h.unwrite _).foldl (fun _ h1 _ => (h1.setFlag _ _ _))).postError _ _ _)

theorem KeepsForm.hookDiCfg (h : KeepsForm c₀ c) (w : WriteCtx) : KeepsForm c₀ (Machine.hookDiCfg w c) := by
  unfold Machine.hookDiCfg
  exact h.ite ((h.setContact _ _).foldl (fun _ h1 _ => (h1.countFld _ _ _)))

theorem KeepsForm.setPulse (h : KeepsForm c₀ c) (m : Nat) (x : PulseSt) : KeepsForm c₀ (Machine.setPulse c m x) :=
  h.withPulses _

theorem KeepsForm.setPulseCount (h : KeepsForm c₀ c) (m n : Nat) : KeepsForm c₀ (Machine.setPulseCount c m n) := by
  unfold Machine.setPulseCount
  exact (h.setReg _ _).setReg _ _

theorem KeepsForm.countEdge (h : KeepsForm c₀ c) (m time : Nat) : KeepsForm c₀ (Machine.countEdge c m time) := by
  unfold Machine.countEdge
  exact ((h.setPulse _ _).setPulseCount _ _).setFlag _ _ _

theorem KeepsForm.pulseEdge (h : KeepsForm c₀ c) (m : Nat) (e : PulseStep) : KeepsForm c₀ (Machine.pulseEdge c m e) := by
  unfold Machine.pulseEdge
  exact h.ite (((h.setPulse _ _).countEdge _ _).ite (h.setPulse _ _))

theorem KeepsForm.pulseOver (h : KeepsForm c₀ c) (m : Nat) : KeepsForm c₀ (Machine.pulseOver c m) := h.setFlag _ _ _

theorem KeepsForm.gateEnd (h : KeepsForm c₀ c) (m time : Nat) : KeepsForm c₀ (Machine.gateEnd c m time) := by
  unfold Machine.gateEnd
  dsimp only
  refine h.ite ?_
  split
  · exact h
  · exact (h.setPulse _ _).pulseOver _

theorem KeepsForm.pulseTimeout (h : KeepsForm c₀ c) (m : Nat) : KeepsForm c₀ (Machine.pulseTimeout c m) := by
  unfold Machine.pulseTimeout
  exact h.ite (((h.setPulse _ _).pulseOver _).setFlag _ _ _)

theorem KeepsForm.pulseEntry (h : KeepsForm c₀ c) (m : Nat) : KeepsForm c₀ (Machine.pulseEntry c m) := by
  unfold Machine.pulseEntry
  exact h.writeValue _ _ _ _ _ _

theorem KeepsForm.piReject (h : KeepsForm c₀ c) (w : WriteCtx) (m off : Nat) : KeepsForm c₀ (Machine.piReject c w m off) := by
  unfold Machine.piReject
  exact ((h.unwrite _).setFlag _ _ _).postError _ _ _

theorem KeepsForm.hookPiThr (h : KeepsForm c₀ c) (w : WriteCtx) : KeepsForm c₀ (Machine.hookPiThr w c) := by
  unfold Machine.hookPiThr
  exact h.ite (h.piReject _ _ _)

theorem KeepsForm.hookPiCfg (h : KeepsForm c₀ c) (w : WriteCtx) : KeepsForm c₀ (Machine.hookPiCfg w c) := by
  unfold Machine.hookPiCfg
  exact (h.piReject _ _ _).ite ((((h.setPulse _ _).setPulseCount _ _).setFlag _ _ _).ite h)

theorem KeepsForm.setTripCode (h : KeepsForm c₀ c) (j s : Nat) : KeepsForm c₀ (Machine.setTripCode c j s) := by
  unfold Machine.setTripCode
  exact h.ite (h.withTrips _)

theorem KeepsForm.tripCapture (h : KeepsForm c₀ c) (entered before : Nat) : KeepsForm c₀ (Machine.tripCapture c entered before)
    := by
  unfold Machine.tripCapture
  exact (h.foldl (fun _ h1 _ => ((h1.countFld _ _ _).ite h1))).ite (((h.foldl (fun _ h1 _ => ((h1.countFld _ _ _).ite
      h1))).setReg _ _).setReg _ _)

theorem KeepsForm.tripFollow (h : KeepsForm c₀ c) : KeepsForm c₀ (Machine.tripFollow c) := by
  unfold Machine.tripFollow
  exact ((h.foldl (fun _ h1 _ => (h1.setTripCode _ _))).withTrips _).tripCapture _ _

theorem KeepsForm.tripLoad (h : KeepsForm c₀ c) : KeepsForm c₀ (Machine.tripLoad c) := by
  unfold Machine.tripLoad
  exact (h.withTrips _).tripFollow

theorem KeepsForm.tripClear (h : KeepsForm c₀ c) (j : Nat) : KeepsForm c₀ (Machine.tripClear c j).1 := by
  unfold Machine.tripClear
  split
  · exact h.fst
  · exact KeepsForm.iteFst (h.setTripCode _ _).fst h.fst
  · exact (h.setTripCode _ _).fst
  · exact h.fst

theorem KeepsForm.tripOwnerChange (h : KeepsForm c₀ c) (j : Nat) : KeepsForm c₀ (Machine.tripOwnerChange c j) := by
  unfold Machine.tripOwnerChange
  exact (h.setTripCode _ _).ite h

theorem KeepsForm.tripInputCopy (h : KeepsForm c₀ c) : KeepsForm c₀ (Machine.tripInputCopy c) := by
  unfold Machine.tripInputCopy
  exact h.foldl (fun _ h1 _ => (h1.writeLive _ _ _))

/-! ## Actuator legs -/

theorem KeepsForm.legsFollowTrips (h : KeepsForm c₀ c) : KeepsForm c₀ (Machine.legsFollowTrips c) := by
  unfold Machine.legsFollowTrips
  exact (h.legsOff _ _).foldl (fun _ h1 _ => ((h1.modLeg _ _).ite h1))

theorem KeepsForm.tripInputs (h : KeepsForm c₀ c) (inputs : Nat) : KeepsForm c₀ (Machine.tripInputs c inputs) := by
  unfold Machine.tripInputs
  exact ((h.withTrips _).tripFollow).legsFollowTrips

theorem KeepsForm.precharge (h : KeepsForm c₀ c) (n : Nat) : KeepsForm c₀ (Machine.precharge c n) := by
  unfold Machine.precharge
  exact h.ite ((h.setFld _ _ _ _).setFld _ _ _ _)

theorem KeepsForm.armLeg (h : KeepsForm c₀ c) (n : Nat) : KeepsForm c₀ (Machine.armLeg c n) := by
  unfold Machine.armLeg
  dsimp only
  refine (h.setFld _ _ _ _).ite ?_
  split
  · exact (h.precharge _).precharge _
  · exact h.precharge _

theorem KeepsForm.hookLegCtrl (h : KeepsForm c₀ c) (w : WriteCtx) : KeepsForm c₀ (Machine.hookLegCtrl w c) := by
  unfold Machine.hookLegCtrl
  exact h.ite ((h.armLeg _).ite ((h.legLeave _ _ _).ite h))

theorem KeepsForm.writeLegCtrl (h : KeepsForm c₀ c) (fn : Fn) (n : Nat) (v : Word) (be : BitVec 4) :
    KeepsForm c₀ (Machine.writeLegCtrl c fn n v be) := by
  unfold Machine.writeLegCtrl
  exact h.writeWord _ _ _ _ _ (fun _ _ h1 => (h1.hookLegCtrl _))

theorem KeepsForm.prechargeEnd (h : KeepsForm c₀ c) (n : Nat) : KeepsForm c₀ (Machine.prechargeEnd c n) := by
  unfold Machine.prechargeEnd
  exact (h.setFld _ _ _ _).ite h

theorem KeepsForm.legWrite (h : KeepsForm c₀ c) (n : Nat) (d : Int) (qual fl : Nat) :
    KeepsForm c₀ (Machine.legWrite c n d qual fl) := by
  unfold Machine.legWrite
  exact h.ite (h.setPoint _ _)

theorem KeepsForm.setDuty (h : KeepsForm c₀ c) (n : Nat) (d : Int) : KeepsForm c₀ (Machine.setDuty c n d) := by
  unfold Machine.setDuty
  exact h.foldl (fun _ h1 _ => (h1.modLeg _ _))

theorem KeepsForm.applyDuty (h : KeepsForm c₀ c) (n : Nat) (d : Int) (qual : Nat) (clamped : Bool) :
    KeepsForm c₀ (Machine.applyDuty c n d qual clamped) := by
  unfold Machine.applyDuty
  dsimp only
  split
  · exact ((h.setDuty _ _).legWrite _ _ _ _).legWrite _ _ _ _
  · exact (h.setDuty _ _).legWrite _ _ _ _

theorem KeepsForm.legsTick (h : KeepsForm c₀ c) : KeepsForm c₀ (Machine.legsTick c) := by
  unfold Machine.legsTick
  exact h.foldl (fun _ h1 _ => (h1.modLeg _ _))

theorem KeepsForm.applyLeg (h : KeepsForm c₀ c) (n : Nat) : KeepsForm c₀ (Machine.applyLeg c n) := by
  unfold Machine.applyLeg
  exact h.ite ((((h.foldl (fun _ h1 _ => (h1.modLeg _ _))).setFlag _ _ _).applyDuty _ _ _ _).ite (((h.foldl (fun _ h1 _ =>
      (h1.modLeg _ _))).setFlag _ _ _).applyDuty _ _ _ _))

theorem KeepsForm.setLegDemand (h : KeepsForm c₀ c) (n w : Nat) : KeepsForm c₀ (Machine.setLegDemand c n w) := h.modLeg _ _

theorem KeepsForm.demandPoint (h : KeepsForm c₀ c) (p w : Nat) : KeepsForm c₀ (Machine.demandPoint c p w) := by
  unfold Machine.demandPoint
  exact (h.setDemand _ _).ite ((h.setLegDemand _ _).ite h)

theorem KeepsForm.applyPoint (h : KeepsForm c₀ c) (p : Nat) : KeepsForm c₀ (Machine.applyPoint c p) := by
  unfold Machine.applyPoint
  exact (h.applyCell _).ite ((h.applyLeg _).ite h)

theorem KeepsForm.shortReport (h : KeepsForm c₀ c) (n extra : Nat) : KeepsForm c₀ (Machine.shortReport c n extra) := by
  unfold Machine.shortReport
  exact (h.countFld _ _ _).postPointFault _ _ _ _

theorem KeepsForm.legFault (h : KeepsForm c₀ c) (soft : Bool) (n : Nat) : KeepsForm c₀ (Machine.legFault soft c n) := by
  unfold Machine.legFault
  exact h.ite ((((h.legLeave _ _ _).ite (((h.setFld _ _ _ _).setFld _ _ _ _).ite (h.setFld _ _ _ _))).modLeg _ _).shortReport _
      _)

theorem KeepsForm.crossShort (h : KeepsForm c₀ c) (n : Nat) : KeepsForm c₀ (Machine.crossShort c n) := by
  unfold Machine.crossShort
  exact (h.foldl (fun _ h1 _ => (h1.setFlag _ _ _))).foldl (fun _ h1 _ => ((h1.legFault _ _).modLeg _ _))

theorem KeepsForm.shortFires (h : KeepsForm c₀ c) (n : Nat) (phase gate blanking : Bool) :
    KeepsForm c₀ (Machine.shortFires c n phase gate blanking) := by
  unfold Machine.shortFires
  exact h.ite ((((h.modLeg _ _).ite ((h.modLeg _ _).setFlag _ _ _)).crossShort _).ite (((h.modLeg _ _).ite ((h.modLeg _
      _).setFlag _ _ _)).ite (((h.modLeg _ _).ite ((h.modLeg _ _).setFlag _ _ _)).legFault _ _)))

theorem KeepsForm.shortDetectorFire (h : KeepsForm c₀ c) (n : Nat) (s : LegSense) (blanking : Bool) :
    KeepsForm c₀ (Machine.shortDetectorFire c n s blanking) := by
  unfold Machine.shortDetectorFire
  exact (h.shortFires _ _ _ _).ite ((h.modLeg _ _).ite h)

theorem KeepsForm.blankingEnd (h : KeepsForm c₀ c) (n : Nat) (s : LegSense) : KeepsForm c₀ (Machine.blankingEnd c n s) := by
  unfold Machine.blankingEnd
  exact h.ite ((h.shortFires _ _ _ _).ite ((((h.modLeg _ _).countFld _ _ _).shortReport _ _).ite h))

theorem KeepsForm.zeroLeg (h : KeepsForm c₀ c) (k : Nat) : KeepsForm c₀ (Machine.zeroLeg c k) := by
  unfold Machine.zeroLeg
  exact ((h.setFld _ _ _ _).ite h).setLeg _ _

theorem KeepsForm.sampleLeg (h : KeepsForm c₀ c) (e : Nat × Nat) : KeepsForm c₀ (Machine.sampleLeg c e) := by
  unfold Machine.sampleLeg
  exact (h.modLeg _ _).setFld _ _ _ _

theorem KeepsForm.carrierZero (h : KeepsForm c₀ c) (n : Nat) (isense : List Nat) : KeepsForm c₀ (Machine.carrierZero c n isense)
    := by
  unfold Machine.carrierZero
  exact h.ite (((h.foldl (fun _ h1 _ => (h1.zeroLeg _))).foldl (fun _ h1 _ => (h1.sampleLeg _))).foldl (fun _ h1 _ =>
      (h1.shortFires _ _ _ _)))

theorem KeepsForm.legWatchdogExpiry (h : KeepsForm c₀ c) (n : Nat) : KeepsForm c₀ (Machine.legWatchdogExpiry c n) := by
  unfold Machine.legWatchdogExpiry
  exact ((h.setFlag _ _ _).legLeave _ _ _).ite h

theorem KeepsForm.actReject (h : KeepsForm c₀ c) (w : WriteCtx) (stat i p : Nat) : KeepsForm c₀ (Machine.actReject c w stat i p)
    := by
  unfold Machine.actReject
  exact ((h.unwrite _).setFlag _ _ _).postError _ _ _

theorem KeepsForm.hookLeg (h : KeepsForm c₀ c) (w : WriteCtx) : KeepsForm c₀ (Machine.hookLeg w c) := by
  unfold Machine.hookLeg
  exact ((((h.setFld _ _ _ _).postError _ _ _).ite h).actReject _ _ _ _).ite (((h.setFld _ _ _ _).postError _ _ _).ite h)

theorem KeepsForm.setPos (h : KeepsForm c₀ c) (n : Nat) (x : PosSt) : KeepsForm c₀ (Machine.setPos c n x) := h.withPos _

theorem KeepsForm.quadratureEdge (h : KeepsForm c₀ c) (n : Nat) (a b : Bool) : KeepsForm c₀ (Machine.quadratureEdge c n a b) :=
    by
  unfold Machine.quadratureEdge
  exact (h.setPos _ _).ite (((h.setPos _ _).countFld _ _ _).ite ((h.setPos _ _).ite ((h.setPos _ _).setReg _ _)))

theorem KeepsForm.indexEdge (h : KeepsForm c₀ c) (n : Nat) : KeepsForm c₀ (Machine.indexEdge c n) := by
  unfold Machine.indexEdge
  exact h.ite (h.ite ((h.setReg _ _).setFlag _ _ _))

theorem KeepsForm.positionEntry (h : KeepsForm c₀ c) (n : Nat) : KeepsForm c₀ (Machine.positionEntry c n) := by
  unfold Machine.positionEntry
  exact (h.setPos _ _).writeLive _ _ _

theorem KeepsForm.hookPos (h : KeepsForm c₀ c) (w : WriteCtx) : KeepsForm c₀ (Machine.hookPos w c) := by
  unfold Machine.hookPos
  exact (h.actReject _ _ _ _).ite ((h.setFlag _ _ _).ite h)

theorem KeepsForm.actDomainOff (h : KeepsForm c₀ c) : KeepsForm c₀ (Machine.actDomainOff c) := h.legsOff _ _

end Sys2Proof.Machine
end

section
-- One proof at a time: every thread takes a stack of its own from the memory that a compile has.
set_option Elab.async false
/-! SUPPORT. The canonical form (log 3) is kept by the operations of control, the calendar, CAN and the panel. -/

namespace Sys2Proof.Machine

variable {c₀ c : Chip}

/-! ## The control engine -/

theorem KeepsForm.cutInj (h : KeepsForm c₀ c) (b : Nat) : KeepsForm c₀ (Machine.cutInj c b) := by
  unfold Machine.cutInj
  exact ((h.setFlag _ _ _).setFlag _ _ _).setTune _ _

theorem KeepsForm.dueCut (h : KeepsForm c₀ c) (l : Nat) : KeepsForm c₀ (Machine.dueCut c l) := by
  unfold Machine.dueCut
  exact h.foldl (fun _ h1 _ => (h1.setTune _ _))

theorem KeepsForm.cutDue (h : KeepsForm c₀ c) (l : Nat) (all : Bool) : KeepsForm c₀ (Machine.cutDue c l all) := by
  unfold Machine.cutDue
  exact h.foldl (fun _ h1 _ => (h1.cutInj _))

theorem KeepsForm.endCapture (h : KeepsForm c₀ c) (b code : Nat) : KeepsForm c₀ (Machine.endCapture c b code) := by
  unfold Machine.endCapture
  exact (h.setFld _ _ _ _).setFld _ _ _ _

theorem KeepsForm.beginInj (h : KeepsForm c₀ c) (b : Nat) : KeepsForm c₀ (Machine.beginInj c b) := by
  unfold Machine.beginInj
  exact h.ite ((h.setTune _ _).setFlag _ _ _)

theorem KeepsForm.injValue (h : KeepsForm c₀ c) (b : Nat) : KeepsForm c₀ (Machine.injValue c b).2 := by
  unfold Machine.injValue
  dsimp only
  split
  · exact (h.setTune _ _).snd
  · exact (h.setTune _ _).snd
  · exact ((h.setTune _ _).takeFree).snd
  · exact ((h.setTune _ _).takeFree).snd

theorem KeepsForm.injDone (h : KeepsForm c₀ c) (b : Nat) : KeepsForm c₀ (Machine.injDone c b) := by
  unfold Machine.injDone
  exact (h.setFlag _ _ _).ite h

theorem KeepsForm.injValues (h : KeepsForm c₀ c) (bs : List Nat) : KeepsForm c₀ (Machine.injValues c bs).2 := by
  unfold Machine.injValues
  exact h.snd.foldlSnd (fun _ h1 _ => ((h1.injValue _).injDone _).snd)

theorem KeepsForm.captureTrigger (h : KeepsForm c₀ c) (b : Nat) (xv xPrev e : Int) :
    KeepsForm c₀ (Machine.captureTrigger c b xv xPrev e) := by
  unfold Machine.captureTrigger
  exact (((h.setFld _ _ _ _).setReg _ _).beginInj _).ite h

theorem KeepsForm.tuneEval (h : KeepsForm c₀ c) (b : Nat) (sample : Option Nat) : KeepsForm c₀ (Machine.tuneEval c b sample) :=
    by
  unfold Machine.tuneEval
  exact (h.setTune _ _).ite (((((((h.withTables (smWf_memWrite _ _)).countFld _ _ _).ite (h.withTables (smWf_memWrite _
      _))).setTune _ _).setFld _ _ _ _).endCapture _ _).ite (((((h.withTables (smWf_memWrite _ _)).countFld _ _ _).ite
      (h.withTables (smWf_memWrite _ _))).setTune _ _).setFld _ _ _ _))

theorem KeepsForm.startLoops (h : KeepsForm c₀ c) : KeepsForm c₀ (Machine.startLoops c) := by
  unfold Machine.startLoops
  exact h.ite (h.foldl (fun _ h1 _ => (h1.modLoop _ _)))

theorem KeepsForm.beginLoop (h : KeepsForm c₀ c) (l : Nat) : KeepsForm c₀ (Machine.beginLoop c l) := by
  unfold Machine.beginLoop
  exact h.ite ((((h.setFlag _ _ _).setReg _ _).setReg _ _).setLoop _ _)

theorem KeepsForm.toManual (h : KeepsForm c₀ c) (l : Nat) : KeepsForm c₀ (Machine.toManual c l) := by
  unfold Machine.toManual
  exact (((h.setFlag _ _ _).setReg _ _).dueCut _).ite h

theorem KeepsForm.toAuto (h : KeepsForm c₀ c) (l : Nat) : KeepsForm c₀ (Machine.toAuto c l) := by
  unfold Machine.toAuto
  exact h.ite (((h.setFlag _ _ _).modLoop _ _).dueCut _)

theorem KeepsForm.loopsToManual (h : KeepsForm c₀ c) : KeepsForm c₀ (Machine.loopsToManual c) := by
  unfold Machine.loopsToManual
  exact h.foldl (fun _ h1 _ => (h1.toManual _))

theorem KeepsForm.loopSwap (h : KeepsForm c₀ c) (old : Nat) : KeepsForm c₀ (Machine.loopSwap c old) := by
  unfold Machine.loopSwap
  exact h.ite (h.foldl (fun _ h1 _ => (((((h1.dueCut _).ite ((h1.dueCut _).setReg _ _)).modLoop _ _).ite ((h1.dueCut _).modLoop
      _ _)).ite (((h1.dueCut _).modLoop _ _).foldl (fun _ h2 _ => (h2.endCapture _ _))))))

theorem KeepsForm.ctrlDomainOn (h : KeepsForm c₀ c) : KeepsForm c₀ (Machine.ctrlDomainOn c) := by
  unfold Machine.ctrlDomainOn
  exact (h.setFld _ _ _ _).startLoops

theorem KeepsForm.capturesLeave (h : KeepsForm c₀ c) : KeepsForm c₀ (Machine.capturesLeave c) := by
  unfold Machine.capturesLeave
  exact h.foldl (fun _ h1 _ => ((h1.endCapture _ _).ite h1))

theorem KeepsForm.loopWrite (h : KeepsForm c₀ c) (l word fl : Nat) (chain : Bool) :
    KeepsForm c₀ (Machine.loopWrite c l word fl chain) := by
  unfold Machine.loopWrite
  exact (((h.writeLive _ _ _).modLoop _ _).setReg _ _).ite ((((((h.writeLive _ _ _).modLoop _ _).ite ((((h.writeLive _ _
      _).modLoop _ _).writeLive _ _ _).demandPoint _ _)).applyPoint _).ite (((h.writeLive _ _ _).modLoop _ _).ite
      ((((h.writeLive _ _ _).modLoop _ _).writeLive _ _ _).demandPoint _ _))).ite ((h.writeLive _ _ _).modLoop _ _))

theorem KeepsForm.holdEval (h : KeepsForm c₀ c) (l : Nat) (chain : Bool) : KeepsForm c₀ (Machine.holdEval c l chain) := by
  unfold Machine.holdEval
  exact (((h.cutDue _ _).setFld _ _ _ _).modLoop _ _).loopWrite _ _ _ _

theorem KeepsForm.shed (h : KeepsForm c₀ c) (l : Nat) : KeepsForm c₀ (Machine.shed c l) := by
  unfold Machine.shed
  exact h.ite (((h.toManual _).setReg _ _).ite (h.toManual _))

theorem KeepsForm.evalFrom (h : KeepsForm c₀ c) (l : Nat) (pvw : Nat) (bad shedNow chain : Bool) :
    KeepsForm c₀ (Machine.evalFrom c l pvw bad shedNow chain) := by
  unfold Machine.evalFrom
  exact (((((((((((((h.cutDue _ _).injValues _).foldl (fun _ h1 _ => (h1.captureTrigger _ _ _ _))).cutDue _ _).injValues
      _).setLoop _ _).setReg _ _).setReg _ _).setInt _ _).setFld _ _ _ _).setReg _ _).ite ((((((((((h.cutDue _ _).injValues
      _).foldl (fun _ h1 _ => (h1.captureTrigger _ _ _ _))).cutDue _ _).injValues _).setLoop _ _).setReg _ _).setReg _ _).setInt
      _ _).setFld _ _ _ _)).loopWrite _ _ _ _).foldl (fun _ h1 _ => (h1.tuneEval _ _))

theorem KeepsForm.evaluate (h : KeepsForm c₀ c) (l : Nat) (chain : Bool) (cycles : Nat) :
    KeepsForm c₀ (Machine.evaluate c l chain cycles) := by
  unfold Machine.evaluate
  exact ((((h.beginLoop _).holdEval _ _).ite ((((h.beginLoop _).shed _).ite (h.beginLoop _)).evalFrom _ _ _ _ _)).setFld _ _ _
      _).setFld _ _ _ _

theorem KeepsForm.missEval (h : KeepsForm c₀ c) (l : Nat) (r : EvalReq) : KeepsForm c₀ (Machine.missEval c l r) := by
  unfold Machine.missEval
  exact ((((((((h.withEvq _).setFlag _ _ _).countFld _ _ _).countFld _ _ _).cutDue _ _).injValues _).foldl (fun _ h1 _ =>
      (h1.tuneEval _ _))).postPointFault _ _ _ _).ite (((((((h.withEvq _).setFlag _ _ _).countFld _ _ _).countFld _ _ _).cutDue
      _ _).injValues _).foldl (fun _ h1 _ => (h1.tuneEval _ _)))

theorem KeepsForm.deadlineMiss (h : KeepsForm c₀ c) (l : Nat) : KeepsForm c₀ (Machine.deadlineMiss c l) := by
  unfold Machine.deadlineMiss
  split
  · exact h.missEval _ _
  · exact h

theorem KeepsForm.loopEvaluation (h : KeepsForm c₀ c) (l cycles : Nat) : KeepsForm c₀ (Machine.loopEvaluation c l cycles) := by
  unfold Machine.loopEvaluation
  dsimp only
  split
  · exact h.ite ((h.withEvq _).ite ((h.missEval _ _).ite ((h.withEvq _).evaluate _ _ _)))
  · exact h

theorem KeepsForm.dispatchLoop (h : KeepsForm c₀ c) (l : Nat) (tickLane chain : Bool) :
    KeepsForm c₀ (Machine.dispatchLoop c l tickLane chain) := by
  unfold Machine.dispatchLoop
  exact (h.withEvq _).ite h

theorem KeepsForm.macLaneSelftest (h : KeepsForm c₀ c) (lane : Nat) (ok : Bool) : KeepsForm c₀ (Machine.macLaneSelftest c lane
    ok) := by
  unfold Machine.macLaneSelftest
  exact h.ite (((h.setFlag _ _ _).postErrorRec _ _ _).postErrorRec _ _ _)

theorem KeepsForm.setLoopMode (h : KeepsForm c₀ c) (l m : Nat) : KeepsForm c₀ (Machine.setLoopMode c l m) := by
  unfold Machine.setLoopMode
  exact (h.toAuto _).ite (h.toManual _)

theorem KeepsForm.setSetpoint (h : KeepsForm c₀ c) (l w : Nat) : KeepsForm c₀ (Machine.setSetpoint c l w) := h.setReg _ _

theorem KeepsForm.setManualOutput (h : KeepsForm c₀ c) (l w : Nat) : KeepsForm c₀ (Machine.setManualOutput c l w) :=
  h.setReg _ _

theorem KeepsForm.tuneStart (h : KeepsForm c₀ c) (l : Nat) (x : List Byte) : KeepsForm c₀ (Machine.tuneStart c l x) := by
  unfold Machine.tuneStart
  exact (((h.clearBuffer _).setTune _ _).setFld _ _ _ _).setFld _ _ _ _

theorem KeepsForm.tuneStop (h : KeepsForm c₀ c) (l : Nat) : KeepsForm c₀ (Machine.tuneStop c l).1 := by
  unfold Machine.tuneStop
  exact ((h.foldl (fun _ h1 _ => (h1.endCapture _ _))).foldl (fun _ h1 _ => (h1.setFlag _ _ _))).fst

theorem KeepsForm.captureTimeout (h : KeepsForm c₀ c) (b : Nat) : KeepsForm c₀ (Machine.captureTimeout c b) := by
  unfold Machine.captureTimeout
  exact (h.endCapture _ _).ite h

theorem KeepsForm.hookTuneCtl (h : KeepsForm c₀ c) (w : WriteCtx) : KeepsForm c₀ (Machine.hookTuneCtl w c) := by
  unfold Machine.hookTuneCtl
  exact ((h.setFlag _ _ _).setFld _ _ _ _).ite (h.setFlag _ _ _)

theorem KeepsForm.releaseWrite (h : KeepsForm c₀ c) (fn : Fn) (b : Nat) (v : Word) (be : BitVec 4) :
    KeepsForm c₀ (Machine.releaseWrite c fn b v be) := by
  unfold Machine.releaseWrite
  exact h.writeWord _ _ _ _ _ (fun _ _ h1 => (h1.hookTuneCtl _))

/-! ## Real-time clock -/

theorem KeepsForm.modRtc (h : KeepsForm c₀ c) (f : RtcSt → RtcSt) : KeepsForm c₀ (Machine.modRtc c f) := h.withRtc _

theorem KeepsForm.secondPasses (h : KeepsForm c₀ c) : KeepsForm c₀ (Machine.secondPasses c) := by
  unfold Machine.secondPasses
  exact (((h.modRtc _).setFlag _ _ _).ite (h.modRtc _)).foldl (fun _ h1 _ => (h1.setFlag _ _ _))

theorem KeepsForm.shiftTerm (h : KeepsForm c₀ c) (t : Int) : KeepsForm c₀ (Machine.shiftTerm c t).2 := by
  unfold Machine.shiftTerm
  exact KeepsForm.iteSnd h.snd (KeepsForm.iteSnd (h.modRtc _).snd (KeepsForm.iteSnd ((h.modRtc _).modRtc _).snd (((((h.modRtc
      _).modRtc _).setFld _ _ _ _).setFlag _ _ _).ite (((h.modRtc _).modRtc _).setFld _ _ _ _)).snd))

theorem KeepsForm.advanceSs (h : KeepsForm c₀ c) (n : Nat) : KeepsForm c₀ (Machine.advanceSs c n) := by
  unfold Machine.advanceSs
  exact ((h.modRtc _).secondPasses).ite (h.modRtc _)

theorem KeepsForm.loadSet (h : KeepsForm c₀ c) (ss : Nat) (k : Cal) : KeepsForm c₀ (Machine.loadSet c ss k) := by
  unfold Machine.loadSet
  exact ((h.modRtc _).setFlag _ _ _).setFlag _ _ _

theorem KeepsForm.rtcEdge (h : KeepsForm c₀ c) : KeepsForm c₀ (Machine.rtcEdge c) := by
  unfold Machine.rtcEdge
  dsimp only
  refine h.ite ?_
  split
  · exact h.loadSet _ _
  · exact (((h.modRtc _).shiftTerm _).advanceSs _).ite (((h.modRtc _).shiftTerm _).advanceSs _)

theorem KeepsForm.otEdge (h : KeepsForm c₀ c) : KeepsForm c₀ (Machine.otEdge c) := by
  unfold Machine.otEdge
  exact (h.modRtc _).withOt _

theorem KeepsForm.crystalEdge (h : KeepsForm c₀ c) : KeepsForm c₀ (Machine.crystalEdge c) := by
  unfold Machine.crystalEdge
  exact h.otEdge.rtcEdge.ite h

theorem KeepsForm.calendarSecond (h : KeepsForm c₀ c) : KeepsForm c₀ (Machine.calendarSecond c) := by
  unfold Machine.calendarSecond
  exact h.crystalEdge.ite h

theorem KeepsForm.shiftStep (h : KeepsForm c₀ c) : KeepsForm c₀ (Machine.shiftStep c) := by
  unfold Machine.shiftStep
  exact h.crystalEdge.ite h

theorem KeepsForm.rtcDomainOn (h : KeepsForm c₀ c) : KeepsForm c₀ (Machine.rtcDomainOn c) := by
  unfold Machine.rtcDomainOn
  exact (h.modRtc _).setFlag _ _ _

theorem KeepsForm.rtcSource (h : KeepsForm c₀ c) : KeepsForm c₀ (Machine.rtcSource c) := by
  unfold Machine.rtcSource
  exact (h.setFlag _ _ _).ite ((h.setFlag _ _ _).setFlag _ _ _)

theorem KeepsForm.trimWindowEnd (h : KeepsForm c₀ c) (n : Rat) (ok : Bool) : KeepsForm c₀ (Machine.trimWindowEnd c n ok) := by
  unfold Machine.trimWindowEnd
  exact h.ite (((h.countFld _ _ _).setFlag _ _ _).ite (((((h.setFld _ _ _ _).countFld _ _ _).setFlag _ _ _).setFld _ _ _ _).ite
      (((h.setFld _ _ _ _).countFld _ _ _).setFlag _ _ _)))

theorem KeepsForm.rtcReject (h : KeepsForm c₀ c) (off : Nat) : KeepsForm c₀ (Machine.rtcReject c off) := by
  unfold Machine.rtcReject
  exact (h.setFlag _ _ _).postError _ _ _

theorem KeepsForm.submitSet (h : KeepsForm c₀ c) : KeepsForm c₀ (Machine.submitSet c) := by
  unfold Machine.submitSet
  exact (((h.modRtc _).setFld _ _ _ _).setFlag _ _ _).ite ((h.setFlag _ _ _).rtcReject _)

theorem KeepsForm.submitShift (h : KeepsForm c₀ c) (old : Word) : KeepsForm c₀ (Machine.submitShift c old) := by
  unfold Machine.submitShift
  exact (((h.setReg _ _).rtcReject _).setFlag _ _ _).ite ((((h.modRtc _).setFld _ _ _ _).setFlag _ _ _).setFlag _ _ _)

theorem KeepsForm.hookRtc (h : KeepsForm c₀ c) (w : WriteCtx) : KeepsForm c₀ (Machine.hookRtc w c) := by
  unfold Machine.hookRtc
  exact h.guarded _ _ _ _ (fun _ h1 _ _ => (h1.rtcReject _)) (fun _ _ h1 => ((((h1.setFlag _ _ _).rtcReject _).ite
      h1.submitSet).ite ((h1.setFlag _ _ _).ite ((h1.submitShift _).ite h1))))

theorem KeepsForm.calendarLatch (h : KeepsForm c₀ c) (fn : Nat) : KeepsForm c₀ (Machine.calendarLatch c fn) := by
  unfold Machine.calendarLatch
  split
  · exact h.keep rfl rfl rfl rfl rfl
  · exact h.keep rfl rfl rfl rfl rfl

/-! ## CAN FD controllers -/

theorem KeepsForm.modCan (h : KeepsForm c₀ c) (n : Nat) (f : CanSt → CanSt) : KeepsForm c₀ (Machine.modCan c n f) := h.withCan _

theorem KeepsForm.setBuf (h : KeepsForm c₀ c) (n b : Nat) (x : Option CanTx) : KeepsForm c₀ (Machine.setBuf c n b x) :=
  h.modCan _ _

theorem KeepsForm.callTake (h : KeepsForm c₀ c) : KeepsForm c₀ (Machine.callTake c) := by
  unfold Machine.callTake
  exact h.withCall _

theorem KeepsForm.canSendBegin (h : KeepsForm c₀ c) (fn : Nat) (ops : List Byte) : KeepsForm c₀ (Machine.canSendBegin c fn ops)
    := by
  unfold Machine.canSendBegin
  exact h.setBuf _ _ _

theorem KeepsForm.canComplete (h : KeepsForm c₀ c) (n b : Nat) (x : CanTx) (status result : Nat) :
    KeepsForm c₀ (Machine.canComplete c n b x status result) := h.completeWhere _ _

theorem KeepsForm.endBuf (h : KeepsForm c₀ c) (n b status result : Nat) : KeepsForm c₀ (Machine.endBuf c n b status result) :=
    by
  unfold Machine.endBuf
  dsimp only
  split
  · exact h
  · refine KeepsForm.ite ?_ ((h.setBuf _ _ _).canComplete _ _ _ _ _)
    split
    · exact (((h.setBuf _ _ _).canComplete _ _ _ _ _).setBuf _ _ _).setBuf _ _ _
    · exact (h.setBuf _ _ _).canComplete _ _ _ _ _

theorem KeepsForm.withdrawPending (h : KeepsForm c₀ c) (n status result : Nat) :
    KeepsForm c₀ (Machine.withdrawPending c n status result) := by
  unfold Machine.withdrawPending
  refine h.foldl fun _ h1 _ => ?_
  split
  · exact h1.ite (h1.endBuf _ _ _ _)
  · exact h1

theorem KeepsForm.dropOnBus (h : KeepsForm c₀ c) (n : Nat) : KeepsForm c₀ (Machine.dropOnBus c n) := by
  unfold Machine.dropOnBus
  refine h.foldl fun _ h1 _ => ?_
  split
  · exact (h1.setBuf _ _ _).ite h1
  · exact h1

theorem KeepsForm.canWithdraw (h : KeepsForm c₀ c) (n : Nat) : KeepsForm c₀ (Machine.canWithdraw c n) := by
  unfold Machine.canWithdraw
  exact (h.withdrawPending _ _ _).dropOnBus _

theorem KeepsForm.startOfFrame (h : KeepsForm c₀ c) (n : Nat) : KeepsForm c₀ (Machine.startOfFrame c n) := by
  unfold Machine.startOfFrame
  refine KeepsForm.ite ?_ h
  split
  · exact h.setBuf _ _ _
  · exact h

theorem KeepsForm.setErrState (h : KeepsForm c₀ c) (n : Nat) : KeepsForm c₀ (Machine.setErrState c n) := by
  unfold Machine.setErrState
  exact h.ite (h.setFld _ _ _ _)

theorem KeepsForm.attemptFails (h : KeepsForm c₀ c) (n b o : Nat) (x : CanTx) : KeepsForm c₀ (Machine.attemptFails c n b o x) :=
    by
  unfold Machine.attemptFails
  exact (h.endBuf _ _ _ _).ite ((h.endBuf _ _ _ _).ite ((h.endBuf _ _ _ _).ite ((h.endBuf _ _ _ _).ite (h.setBuf _ _ _))))

theorem KeepsForm.frameSent (h : KeepsForm c₀ c) (n b ts : Nat) (x : CanTx) : KeepsForm c₀ (Machine.frameSent c n b ts x) := by
  unfold Machine.frameSent
  exact (((((((h.setReg _ _).setReg _ _).setFld _ _ _ _).setErrState _).takeFree).setFld _ _ _ _).ite ((((h.setReg _ _).setReg _
      _).setFld _ _ _ _).setErrState _)).endBuf _ _ _ _

theorem KeepsForm.canOutcome (h : KeepsForm c₀ c) (n o ts : Nat) : KeepsForm c₀ (Machine.canOutcome c n o ts) := by
  unfold Machine.canOutcome
  split
  · exact h
  · split
    · exact h
    · exact (h.frameSent _ _ _ _).ite (h.attemptFails _ _ _ _)

theorem KeepsForm.txTmo (h : KeepsForm c₀ c) (n b : Nat) : KeepsForm c₀ (Machine.txTmo c n b) := by
  unfold Machine.txTmo
  split
  · exact h
  · exact h.ite ((h.setBuf _ _ _).ite (h.endBuf _ _ _ _))

theorem KeepsForm.hpbData (hc : KeepsForm c₀ c) (n h : Nat) (data : List Byte) : KeepsForm c₀ (Machine.hpbData c n h data) := by
  unfold Machine.hpbData
  exact hc.foldl (fun _ h1 _ => (h1.setReg _ _))

theorem KeepsForm.hpbTake (hc : KeepsForm c₀ c) (n f h : Nat) (r : CanRx) : KeepsForm c₀ (Machine.hpbTake c n f h r) := by
  unfold Machine.hpbTake
  exact ((((((((((hc.countFld _ _ _).ite hc).setFld _ _ _ _).setFld _ _ _ _).setFld _ _ _ _).setFlag _ _ _).wrapFld _ _
      _).setReg _ _).setReg _ _).setReg _ _).hpbData _ _ _

theorem KeepsForm.canRxEvent (h : KeepsForm c₀ c) (n a0 a1 : Nat) (r : CanRx) : KeepsForm c₀ (Machine.canRxEvent c n a0 a1 r) :=
    by
  unfold Machine.canRxEvent
  exact h.putEvents _ _

theorem KeepsForm.drainFifo (h : KeepsForm c₀ c) (n : Nat) : KeepsForm c₀ (Machine.drainFifo c n) := by
  unfold Machine.drainFifo
  exact ((h.modCan _ _).foldl (fun _ h1 _ => (h1.canRxEvent _ _ _ _))).ite h

theorem KeepsForm.fifoTake (h : KeepsForm c₀ c) (n : Nat) (r : CanRx) : KeepsForm c₀ (Machine.fifoTake c n r) := by
  unfold Machine.fifoTake
  exact (((h.drainFifo _).modCan _ _).drainFifo _).ite (((h.drainFifo _).countFld _ _ _).postError _ _ _)

theorem KeepsForm.routeFrame (h : KeepsForm c₀ c) (n : Nat) (r : CanRx) : KeepsForm c₀ (Machine.routeFrame c n r) := by
  unfold Machine.routeFrame
  dsimp only
  split
  · exact (h.hpbTake _ _ _ _).canRxEvent _ _ _ _
  · exact h.ite (h.fifoTake _ _)

theorem KeepsForm.rxCounted (h : KeepsForm c₀ c) (n : Nat) : KeepsForm c₀ (Machine.rxCounted c n) := by
  unfold Machine.rxCounted
  exact ((h.setFld _ _ _ _).setErrState _).ite ((h.takeFree.setFld _ _ _ _).setErrState _)

theorem KeepsForm.canBusError (h : KeepsForm c₀ c) (n lec tec rec' : Nat) (dataPhase : Bool) :
    KeepsForm c₀ (Machine.canBusError c n lec tec rec' dataPhase) := by
  unfold Machine.canBusError
  exact h.ite (((((h.setFld _ _ _ _).ite (h.setFld _ _ _ _)).setFld _ _ _ _).setFld _ _ _ _).setErrState _)

theorem KeepsForm.callCanCheck (h : KeepsForm c₀ c) : KeepsForm c₀ (Machine.callCanCheck c) := by
  unfold Machine.callCanCheck
  exact h.ite (((h.setFlag _ _ _).postError _ _ _).ite (h.setFlag _ _ _))

theorem KeepsForm.recoveryBegin (h : KeepsForm c₀ c) (n : Nat) : KeepsForm c₀ (Machine.recoveryBegin c n) := by
  unfold Machine.recoveryBegin
  exact ((h.setFld _ _ _ _).setFlag _ _ _).ite h

theorem KeepsForm.busOff (h : KeepsForm c₀ c) (n : Nat) : KeepsForm c₀ (Machine.busOff c n) := by
  unfold Machine.busOff
  exact h.ite ((((((((h.setFld _ _ _ _).foldl (fun _ h1 _ => (h1.endBuf _ _ _ _))).countFld _ _ _).postError _ _ _).faultEvent _
      _ _ _).recoveryBegin _).ite (((((h.setFld _ _ _ _).foldl (fun _ h1 _ => (h1.endBuf _ _ _ _))).countFld _ _ _).postError _
      _ _).faultEvent _ _ _ _)).callCanCheck)

theorem KeepsForm.recoveryEnd (h : KeepsForm c₀ c) (n : Nat) : KeepsForm c₀ (Machine.recoveryEnd c n) := by
  unfold Machine.recoveryEnd
  exact ((((h.setFld _ _ _ _).setFld _ _ _ _).setFld _ _ _ _).callCanCheck).ite h

theorem KeepsForm.protocolException (h : KeepsForm c₀ c) (n : Nat) : KeepsForm c₀ (Machine.protocolException c n) := by
  unfold Machine.protocolException
  exact (h.countFld _ _ _).ite h

theorem KeepsForm.canModeEffect (h : KeepsForm c₀ c) (n : Nat) : KeepsForm c₀ (Machine.canModeEffect c n) := by
  unfold Machine.canModeEffect
  exact (h.modCan _ _).ite h

theorem KeepsForm.canReject (h : KeepsForm c₀ c) (n off : Nat) : KeepsForm c₀ (Machine.canReject c n off) := by
  unfold Machine.canReject
  exact (h.setFlag _ _ _).postError _ _ _

theorem KeepsForm.hookCan (h : KeepsForm c₀ c) (w : WriteCtx) : KeepsForm c₀ (Machine.hookCan w c) := by
  unfold Machine.hookCan
  exact h.guarded _ _ _ _ (fun _ h1 _ _ => (h1.canReject _ _)) (fun _ _ h1 => (((((h1.ite (h1.canWithdraw _)).recoveryBegin
      _).ite (h1.ite (h1.canWithdraw _))).callCanCheck).ite h1))

theorem KeepsForm.canOwnerChange (h : KeepsForm c₀ c) (n : Nat) : KeepsForm c₀ (Machine.canOwnerChange c n) := by
  unfold Machine.canOwnerChange
  exact ((h.withdrawPending _ _ _).modCan _ _).resetRegs _ _

theorem KeepsForm.canDomainOff (h : KeepsForm c₀ c) : KeepsForm c₀ (Machine.canDomainOff c) := by
  unfold Machine.canDomainOff
  exact h.foldl (fun _ h1 _ => ((((h1.foldl (fun _ h2 _ => (h2.endBuf _ _ _ _))).modCan _ _).setReg _ _).setFld _ _ _ _))

theorem KeepsForm.canDomainOn (h : KeepsForm c₀ c) : KeepsForm c₀ (Machine.canDomainOn c) := by
  unfold Machine.canDomainOn
  exact h.foldl (fun _ h1 _ => (h1.modCan _ _))

theorem KeepsForm.canNodeMode (h : KeepsForm c₀ c) : KeepsForm c₀ (Machine.canNodeMode c) := by
  unfold Machine.canNodeMode
  exact h.ite (h.foldl (fun _ h1 _ => ((h1.canWithdraw _).ite h1)))

/-! ## LCD annunciator drive -/

theorem KeepsForm.modLcd (h : KeepsForm c₀ c) (f : LcdSt → LcdSt) : KeepsForm c₀ (Machine.modLcd c f) := h.withLcd _

theorem KeepsForm.setLcdState (h : KeepsForm c₀ c) (s : Nat) : KeepsForm c₀ (Machine.setLcdState c s) := h.setFld _ _ _ _

theorem KeepsForm.paintByte (h : KeepsForm c₀ c) (xb y : Nat) (lv : Nat × Nat) : KeepsForm c₀ (Machine.paintByte c xb y lv) :=
    by
  unfold Machine.paintByte
  exact h.withTables (smWf_memWrite _ _)

theorem KeepsForm.paintTile (h : KeepsForm c₀ c) (t : Nat) : KeepsForm c₀ (Machine.paintTile c t) := by
  unfold Machine.paintTile
  exact h.ite (h.foldl (fun _ h1 _ => (h1.foldl (fun _ h2 _ => (h2.paintByte _ _ _)))))

theorem KeepsForm.lcdPublish (h : KeepsForm c₀ c) : KeepsForm c₀ (Machine.lcdPublish c) := by
  unfold Machine.lcdPublish
  exact ((h.modLcd _).foldl (fun _ h1 _ => (h1.paintTile _))).ite (h.modLcd _)

theorem KeepsForm.lcdWriteByte {s : Chip × Option Nat} (h : KeepsForm c₀ s.1) (b : Nat) (v : Byte) :
    KeepsForm c₀ (Machine.lcdWriteByte s b v).1 := by
  unfold Machine.lcdWriteByte
  dsimp only
  refine KeepsForm.iteFst h ?_
  split
  · exact h.fst
  · exact (h.withTables (smWf_memWrite _ _)).fst

theorem KeepsForm.lcdTileWrite {s : Chip × Option Nat} (h : KeepsForm c₀ s.1) :
    KeepsForm c₀ (Machine.lcdTileWrite s) := by
  unfold Machine.lcdTileWrite
  split
  · exact (h.countFld _ _ _).postError _ _ _
  · exact h

theorem KeepsForm.panelStart (h : KeepsForm c₀ c) : KeepsForm c₀ (Machine.panelStart c) := by
  unfold Machine.panelStart
  exact ((h.setLcdState _).modLcd _).ite h

theorem KeepsForm.biasReady (h : KeepsForm c₀ c) : KeepsForm c₀ (Machine.biasReady c) := by
  unfold Machine.biasReady
  exact ((h.modLcd _).setFlag _ _ _).ite h

theorem KeepsForm.panelStop (h : KeepsForm c₀ c) : KeepsForm c₀ (Machine.panelStop c) := by
  unfold Machine.panelStop
  exact (((h.setLcdState _).modLcd _).setFlag _ _ _).ite h

theorem KeepsForm.biasDischarged (h : KeepsForm c₀ c) : KeepsForm c₀ (Machine.biasDischarged c) := by
  unfold Machine.biasDischarged
  exact (h.setLcdState _).ite h

theorem KeepsForm.nextRefresh (h : KeepsForm c₀ c) : KeepsForm c₀ (Machine.nextRefresh c) := h.modLcd _

theorem KeepsForm.refreshFrame (h : KeepsForm c₀ c) : KeepsForm c₀ (Machine.refreshFrame c) := by
  unfold Machine.refreshFrame
  refine h.ite ?_
  split
  · exact ((h.nextRefresh.modLcd _).setLcdState _).ite ((h.nextRefresh.modLcd _).ite h)
  · exact h.nextRefresh
  · exact (h.nextRefresh.setLcdState _).ite h.nextRefresh
  · exact h

theorem KeepsForm.biasFault (h : KeepsForm c₀ c) (detail : Nat) : KeepsForm c₀ (Machine.biasFault c detail) := by
  unfold Machine.biasFault
  exact ((((h.setLcdState _).modLcd _).ite h).setFlag _ _ _).postErrorRec _ _ _

theorem KeepsForm.pumpFault (h : KeepsForm c₀ c) : KeepsForm c₀ (Machine.pumpFault c) := by
  unfold Machine.pumpFault
  exact ((h.setFlag _ _ _).biasFault _).ite h

theorem KeepsForm.pumpRestart (h : KeepsForm c₀ c) (ok : Bool) : KeepsForm c₀ (Machine.pumpRestart c ok) := by
  unfold Machine.pumpRestart
  exact (((h.ite (h.requestOp _)).setFlag _ _ _).ite (h.ite (h.requestOp _))).ite h

theorem KeepsForm.lcdMemLost (h : KeepsForm c₀ c) : KeepsForm c₀ (Machine.lcdMemLost c) := h.withTables (smWf_memClear _ _)

theorem KeepsForm.hookLcd (h : KeepsForm c₀ c) (w : WriteCtx) : KeepsForm c₀ (Machine.hookLcd w c) := by
  unfold Machine.hookLcd
  exact h.guarded _ _ _ _ (fun _ h1 _ _ => ((h1.setFlag _ _ _).postError _ _ _)) (fun _ _ h1 => (h1.hookNone _))

/-! ## BAR1 -/

theorem KeepsForm.bar1Store {s : Chip × Option Nat} (h : KeepsForm c₀ s.1) (fn : Nat) (a : Nat) (v : Byte) :
    KeepsForm c₀ (Machine.bar1Store fn s a v).1 := by
  unfold Machine.bar1Store
  dsimp only
  split
  · exact h.fst
  · exact (h.withTables (smWf_memWrite _ _)).fst
  · exact h.lcdWriteByte _ _
  · exact (h.withImg _).fst
  · exact h

theorem KeepsForm.programPage (h : KeepsForm c₀ c) (page : Nat) : KeepsForm c₀ (Machine.programPage c page) := by
  unfold Machine.programPage
  exact (h.withNvm (smWf_memWrite _ _)).keep rfl rfl rfl rfl rfl

theorem KeepsForm.bar1Write (h : KeepsForm c₀ c) (fn a : Nat) (data : List Byte) : KeepsForm c₀ (Machine.bar1Write c fn a data)
    := by
  unfold Machine.bar1Write
  exact (((h.fst.foldlFst (fun _ h1 _ => (h1.bar1Store _ _ _))).lcdTileWrite).foldl (fun _ h1 _ => (h1.programPage _))).foldl
      (fun _ h1 _ => ((h1.deny _ _).ite (h1.postError _ _ _)))

end Sys2Proof.Machine
end

section
-- One proof at a time: every thread takes a stack of its own from the memory that a compile has.
set_option Elab.async false
/-! SUPPORT. The canonical form (log 3) is kept by the operations of Basin storage and the DMA engine. -/

namespace Sys2Proof.Machine

variable {c₀ c : Chip}

/-! ## Basin's drives -/

theorem KeepsForm.setBsnState (h : KeepsForm c₀ c) (s : Nat) : KeepsForm c₀ (Machine.setBsnState c s) := h.setFld _ _ _ _

theorem KeepsForm.setBsnMembers (h : KeepsForm c₀ c) (m : Nat) : KeepsForm c₀ (Machine.setBsnMembers c m) := h.setFld _ _ _ _

theorem KeepsForm.setDrvState (h : KeepsForm c₀ c) (m s : Nat) : KeepsForm c₀ (Machine.setDrvState c m s) := h.setFld _ _ _ _

theorem KeepsForm.modBsn (h : KeepsForm c₀ c) (f : BsnSt → BsnSt) : KeepsForm c₀ (Machine.modBsn c f) := h.withBsn _

theorem KeepsForm.bsnCount (h : KeepsForm c₀ c) (off n : Nat) : KeepsForm c₀ (Machine.bsnCount c off n) := h.setReg _ _

theorem KeepsForm.setBDrive (h : KeepsForm c₀ c) (m : Nat) (d : Option Drive) : KeepsForm c₀ (Machine.setBDrive c m d) :=
  h.modBsn _

theorem KeepsForm.setBUnit (h : KeepsForm c₀ c) (u : Nat) (x : Option BUnit) : KeepsForm c₀ (Machine.setBUnit c u x) :=
  h.modBsn _

theorem KeepsForm.modLog (h : KeepsForm c₀ c) (l : Nat) (f : BLog → BLog) : KeepsForm c₀ (Machine.modLog c l f) := h.modBsn _

theorem KeepsForm.putBlock (h : KeepsForm c₀ c) (m b : Nat) (bs : List Byte) : KeepsForm c₀ (Machine.putBlock c m b bs) := by
  unfold Machine.putBlock
  split
  · exact h.setBDrive _ _
  · exact h

theorem KeepsForm.writeLogical (h : KeepsForm c₀ c) (l : Nat) (bs : List Byte) : KeepsForm c₀ (Machine.writeLogical c l bs) :=
    by
  unfold Machine.writeLogical
  exact h.foldl (fun _ h1 _ => ((h1.putBlock _ _ _).ite h1))

theorem KeepsForm.writeBlocks (h : KeepsForm c₀ c) (l : Nat) (bs : List (List Byte)) : KeepsForm c₀ (Machine.writeBlocks c l bs)
    := by
  unfold Machine.writeBlocks
  exact h.foldl (fun _ h1 _ => (h1.writeLogical _ _))

theorem KeepsForm.writeCopy (h : KeepsForm c₀ c) (clean : Bool) (b : Nat) : KeepsForm c₀ (Machine.writeCopy clean c b) := by
  unfold Machine.writeCopy
  exact h.foldl (fun _ h1 _ => (h1.putBlock _ _ _))

theorem KeepsForm.writeSupers (h : KeepsForm c₀ c) (clean : Bool) : KeepsForm c₀ (Machine.writeSupers c clean) := by
  unfold Machine.writeSupers
  exact (h.modBsn _).foldl (fun _ h1 _ => (h1.writeCopy _ _))

/-! ## Basin -/

theorem KeepsForm.countUnits (h : KeepsForm c₀ c) : KeepsForm c₀ (Machine.countUnits c) := by
  unfold Machine.countUnits
  exact (h.foldl (fun _ h1 _ => (h1.setReg _ _))).setFld _ _ _ _

theorem KeepsForm.dropFlight (h : KeepsForm c₀ c) (f : BFlight) : KeepsForm c₀ (Machine.dropFlight c f) := by
  unfold Machine.dropFlight
  dsimp only
  split
  · exact (h.foldl (fun _ h1 _ => (h1.bsnCount _ _))).withRcd _
  · exact (h.bsnCount _ _).modLog _ _
  · exact h.bsnCount _ _

theorem KeepsForm.dropFlights (h : KeepsForm c₀ c) (gone : BFlight → Bool) : KeepsForm c₀ (Machine.dropFlights c gone) := by
  unfold Machine.dropFlights
  exact (h.modBsn _).foldl (fun _ h1 _ => (h1.dropFlight _))

theorem KeepsForm.reclaimUnit (h : KeepsForm c₀ c) (u : Nat) : KeepsForm c₀ (Machine.reclaimUnit c u) := by
  unfold Machine.reclaimUnit
  dsimp only
  split
  · exact ((((h.bsnCount _ _).dropFlights _).modBsn _).writeLogical _ _).setBUnit _ _
  · exact h

theorem KeepsForm.trimUnits (h : KeepsForm c₀ c) : KeepsForm c₀ (Machine.trimUnits c) := by
  unfold Machine.trimUnits
  refine KeepsForm.countUnits ?_
  refine h.foldl fun _ h1 _ => ?_
  refine h1.foldl fun _ h2 _ => ?_
  split
  · exact h2.reclaimUnit _
  · exact h2

theorem KeepsForm.takeUnit (h : KeepsForm c₀ c) (o : Nat) : KeepsForm c₀ (Machine.takeUnit c o).1 := by
  unfold Machine.takeUnit
  dsimp only
  refine KeepsForm.iteFst ?_ ?_
  · split
    · exact (h.reclaimUnit _).fst
    · exact h.fst
  · split
    · exact h.fst
    · split
      · exact (h.reclaimUnit _).fst
      · exact h.fst

theorem KeepsForm.epochFor (h : KeepsForm c₀ c) (o : Nat) : KeepsForm c₀ (Machine.epochFor c o).1 := by
  unfold Machine.epochFor
  dsimp only
  refine KeepsForm.iteFst ?_ h.fst
  split
  · exact h.fst
  · exact (h.takeFree.modBsn _).fst

theorem KeepsForm.openUnit (h : KeepsForm c₀ c) (kind owner stream : Nat) :
    KeepsForm c₀ (Machine.openUnit c kind owner stream).1 := by
  have ht := h.takeUnit owner
  unfold Machine.openUnit
  split
  · next heq =>
    rw [heq] at ht
    exact ht
  · next heq =>
    rw [heq] at ht
    exact (((ht.epochFor _).modBsn _).setBUnit _ _).countUnits

theorem KeepsForm.unitFor (h : KeepsForm c₀ c) (kind owner stream n : Nat) :
    KeepsForm c₀ (Machine.unitFor c kind owner stream n).1 := by
  unfold Machine.unitFor
  dsimp only
  split
  · exact KeepsForm.iteFst h.fst (h.openUnit _ _ _).fst
  · exact (h.openUnit _ _ _).fst

theorem KeepsForm.chunkStep (h : KeepsForm c₀ c) (f : BFlight) : KeepsForm c₀ (Machine.chunkStep c f) := by
  unfold Machine.chunkStep
  split
  · exact (h.writeBlocks _ _).modBsn _
  · exact h

theorem KeepsForm.endChunk (h : KeepsForm c₀ c) (f : BFlight) : KeepsForm c₀ (Machine.endChunk c f) := by
  unfold Machine.endChunk
  split
  · exact h.setBUnit _ _
  · exact h

theorem KeepsForm.reapChunk (h : KeepsForm c₀ c) (f : BFlight) : KeepsForm c₀ (Machine.reapChunk c f) := by
  unfold Machine.reapChunk
  exact (h.chunkStep _).ite (h.endChunk _)

theorem KeepsForm.reapChunks (h : KeepsForm c₀ c) : KeepsForm c₀ (Machine.reapChunks c) := by
  unfold Machine.reapChunks
  exact (h.modBsn _).foldl (fun _ h1 _ => (h1.reapChunk _))

theorem KeepsForm.startChunk (h : KeepsForm c₀ c) (l kind owner : Nat) (k : BChunk) (items : Nat) (recs : List Rec) :
    KeepsForm c₀ (Machine.startChunk c l kind owner k items recs).1 := by
  have hu := h.unitFor kind owner (if l < 9 then 0 else l - 16) (k.body.length / 4096 + 1)
  unfold Machine.startChunk
  split
  · next heq =>
    rw [heq] at hu
    exact hu
  · next heq =>
    rw [heq] at hu
    exact hu.chunkStep _

theorem KeepsForm.recordsFrom (h : KeepsForm c₀ c) (o : Nat) : KeepsForm c₀ (Machine.recordsFrom c o) := by
  unfold Machine.recordsFrom
  exact h.withRcd _

theorem KeepsForm.recordChunk (h : KeepsForm c₀ c) (o : Nat) : KeepsForm c₀ (Machine.recordChunk c o) := by
  unfold Machine.recordChunk
  dsimp only
  split
  · exact (((h.startChunk _ _ _ _ _ _).withRcd _).recordsFrom _).ite (h.startChunk _ _ _ _ _ _)
  · exact h

theorem KeepsForm.waveChunk (h : KeepsForm c₀ c) (l : Nat) : KeepsForm c₀ (Machine.waveChunk c l) := by
  unfold Machine.waveChunk
  dsimp only
  split
  · exact ((h.startChunk _ _ _ _ _ _).modLog _ _).ite (h.startChunk _ _ _ _ _ _)
  · exact h

theorem KeepsForm.trendChunk (h : KeepsForm c₀ c) (l : Nat) : KeepsForm c₀ (Machine.trendChunk c l) := by
  unfold Machine.trendChunk
  dsimp only
  split
  · have hr := h.startChunk l 3
    exact .ite ((hr _ _ _ _).modLog _ _) (hr _ _ _ _)
  · exact h

theorem KeepsForm.chunkWrite (h : KeepsForm c₀ c) (l : Nat) : KeepsForm c₀ (Machine.chunkWrite c l) := by
  unfold Machine.chunkWrite
  exact h.ite (((h.recordChunk _).ite h).ite (h.ite ((h.trendChunk _).ite ((h.waveChunk _).ite h))))

theorem KeepsForm.bsnRefuse (h : KeepsForm c₀ c) (r : Nat) : KeepsForm c₀ (Machine.bsnRefuse c r) := h.setFld _ _ _ _

theorem KeepsForm.requeueRecs (h : KeepsForm c₀ c) : KeepsForm c₀ (Machine.requeueRecs c) := by
  unfold Machine.requeueRecs
  exact (h.withRcd _).foldl (fun _ h1 _ => (h1.recordsFrom _))

theorem KeepsForm.startDp0 (h : KeepsForm c₀ c) : KeepsForm c₀ (Machine.startDp0 c) := by
  unfold Machine.startDp0
  exact (h.setFld _ _ _ _).withDma _

theorem KeepsForm.mendStrip (h : KeepsForm c₀ c) (x : List Nat × Nat) : KeepsForm c₀ (Machine.mendStrip c x) := by
  unfold Machine.mendStrip
  exact (h.foldl (fun _ h1 _ => (h1.putBlock _ _ _))).ite h

theorem KeepsForm.makeConsistent (h : KeepsForm c₀ c) (clean : Bool) : KeepsForm c₀ (Machine.makeConsistent c clean) := by
  unfold Machine.makeConsistent
  exact h.ite (h.foldl (fun _ h1 _ => (h1.mendStrip _)))

theorem KeepsForm.enterAdmitted (h : KeepsForm c₀ c) (use : Nat) (clean : Bool) : KeepsForm c₀ (Machine.enterAdmitted c use
    clean) := by
  unfold Machine.enterAdmitted
  exact ((((((((((h.setFld _ _ _ _).setFld _ _ _ _).setBsnMembers _).foldl (fun _ h1 _ => (h1.setDrvState _ _))).modBsn
      _).makeConsistent _).setBsnState _).writeSupers _).trimUnits).requeueRecs).startDp0

theorem KeepsForm.bsnCreate (h : KeepsForm c₀ c) : KeepsForm c₀ (Machine.bsnCreate c) := by
  unfold Machine.bsnCreate
  exact (h.bsnRefuse _).ite ((h.bsnRefuse _).ite (((((h.foldl (fun _ h1 _ => (h1.setBDrive _ _))).takeFree).modBsn
      _).enterAdmitted _ _).bsnRefuse _))

theorem KeepsForm.bsnAdmit (h : KeepsForm c₀ c) : KeepsForm c₀ (Machine.bsnAdmit c) := by
  unfold Machine.bsnAdmit
  dsimp only
  refine (h.bsnRefuse _).ite ?_
  split
  · exact h.bsnRefuse _
  · exact (h.bsnRefuse _).ite ((h.bsnRefuse _).ite ((h.bsnRefuse _).ite ((h.bsnRefuse _).ite ((h.bsnRefuse _).ite ((((h.foldl
        (fun _ h1 _ => (h1.setDrvState _ _))).modBsn _).enterAdmitted _ _).bsnRefuse _)))))

theorem KeepsForm.flushFlight (h : KeepsForm c₀ c) : KeepsForm c₀ (Machine.flushFlight c) := by
  unfold Machine.flushFlight
  exact h.foldl (fun _ h1 _ => ((h1.modBsn _).reapChunks))

theorem KeepsForm.drainLog (h : KeepsForm c₀ c) (chunk : Chip → Nat → Chip) (left : Chip → Nat) (l n : Nat)
    (hchunk : ∀ c, KeepsForm c₀ c → ∀ l, KeepsForm c₀ (chunk c l)) : KeepsForm c₀ (Machine.drainLog chunk left l n c) := by
  induction n generalizing c with
  | zero => exact h
  | succ n ih => exact h.ite (ih (hchunk c h l).flushFlight)

theorem KeepsForm.writeOpen (h : KeepsForm c₀ c) : KeepsForm c₀ (Machine.writeOpen c) := by
  unfold Machine.writeOpen
  exact ((h.flushFlight.foldl (fun _ h1 _ => (h1.drainLog _ _ _ _ (fun _ h2 _ => (h2.recordChunk _))))).foldl (fun _ h1 _ =>
      (h1.drainLog _ _ _ _ (fun _ h2 _ => (h2.trendChunk _))))).foldl (fun _ h1 _ => (h1.drainLog _ _ _ _ (fun _ h2 _ =>
      (h2.waveChunk _))))

theorem KeepsForm.detachNow (h : KeepsForm c₀ c) : KeepsForm c₀ (Machine.detachNow c) := by
  unfold Machine.detachNow
  exact ((((h.writeOpen.writeSupers _).foldl (fun _ h1 _ => (h1.setDrvState _ _))).modBsn _).setBsnState _).setBsnMembers _

theorem KeepsForm.bsnDetach (h : KeepsForm c₀ c) : KeepsForm c₀ (Machine.bsnDetach c) := by
  unfold Machine.bsnDetach
  exact (h.detachNow.bsnRefuse _).ite (h.bsnRefuse _)

theorem KeepsForm.discardStaged (h : KeepsForm c₀ c) (s : Nat) : KeepsForm c₀ (Machine.discardStaged c s) := by
  unfold Machine.discardStaged
  exact ((h.foldl (fun _ h1 _ => (h1.bsnCount _ _))).foldl (fun _ h1 _ => (h1.bsnCount _ _))).modLog _ _

theorem KeepsForm.goOffline (h : KeepsForm c₀ c) : KeepsForm c₀ (Machine.goOffline c) := by
  unfold Machine.goOffline
  exact (((((h.foldl (fun _ h1 _ => (h1.discardStaged _))).dropFlights _).modBsn _).setBsnState _).postErrorRec _ _ _).foldl
      (fun _ h1 _ => ((h1.openBreach _ _).ite h1))

theorem KeepsForm.dropMember (h : KeepsForm c₀ c) (m : Nat) : KeepsForm c₀ (Machine.dropMember c m) := by
  unfold Machine.dropMember
  exact ((((h.setBsnMembers _).modBsn _).setBsnState _).reapChunks).ite (((h.setBsnMembers _).modBsn _).goOffline)

theorem KeepsForm.memberLost (h : KeepsForm c₀ c) (m cause : Nat) : KeepsForm c₀ (Machine.memberLost c m cause) := by
  unfold Machine.memberLost
  exact (((((((h.setFld _ _ _ _).setFld _ _ _ _).ite h).setBDrive _ _).ite (((h.setFld _ _ _ _).setFld _ _ _ _).ite
      h)).setDrvState _ _).ite (((((h.setFld _ _ _ _).setFld _ _ _ _).ite h).setBDrive _ _).ite (((h.setFld _ _ _ _).setFld _ _
      _ _).ite h))).ite ((((((((((h.setFld _ _ _ _).setFld _ _ _ _).ite h).setBDrive _ _).ite (((h.setFld _ _ _ _).setFld _ _ _
      _).ite h)).countFld _ _ _).ite (((((((h.setFld _ _ _ _).setFld _ _ _ _).ite h).setBDrive _ _).ite (((h.setFld _ _ _
      _).setFld _ _ _ _).ite h)).countFld _ _ _).ite (((((h.setFld _ _ _ _).setFld _ _ _ _).ite h).setBDrive _ _).ite
      (((h.setFld _ _ _ _).setFld _ _ _ _).ite h)))).setDrvState _ _).postErrorRec _ _ _).dropMember _)

theorem KeepsForm.writesDone (h : KeepsForm c₀ c) (m : Nat) : KeepsForm c₀ (Machine.writesDone c m) := by
  unfold Machine.writesDone
  exact (h.modBsn _).reapChunks

theorem KeepsForm.readFails (h : KeepsForm c₀ c) (m b : Nat) : KeepsForm c₀ (Machine.readFails c m b) := by
  unfold Machine.readFails
  exact ((h.countFld _ _ _).modBsn _).ite (h.countFld _ _ _)

theorem KeepsForm.rewriteEnds (h : KeepsForm c₀ c) (m b : Nat) : KeepsForm c₀ (Machine.rewriteEnds c m b) := by
  unfold Machine.rewriteEnds
  exact ((h.modBsn _).putBlock _ _ _).ite h

theorem KeepsForm.nvmeCompletion (h : KeepsForm c₀ c) (m : Nat) (what : NvmeEnd) : KeepsForm c₀ (Machine.nvmeCompletion c m
    what) := by
  unfold Machine.nvmeCompletion
  refine h.ite ?_
  split
  · exact h.writesDone _
  · exact h.memberLost _ _
  · exact h.readFails _ _
  · exact h.rewriteEnds _ _

theorem KeepsForm.healthLogRead (h : KeepsForm c₀ c) (m warning : Nat) : KeepsForm c₀ (Machine.healthLogRead c m warning) := by
  unfold Machine.healthLogRead
  exact h.ite ((h.setFlag _ _ _).ite ((h.setFlag _ _ _).postError _ _ _))

theorem KeepsForm.bsnReplace (h : KeepsForm c₀ c) (n : Nat) : KeepsForm c₀ (Machine.bsnReplace c n) := by
  unfold Machine.bsnReplace
  exact (h.bsnRefuse _).ite ((h.bsnRefuse _).ite ((h.bsnRefuse _).ite ((h.bsnRefuse _).ite (((((((h.setBsnMembers _).setDrvState
      _ _).modBsn _).setBsnState _).setFld _ _ _ _).writeSupers _).bsnRefuse _))))

theorem KeepsForm.writeStrip (h : KeepsForm c₀ c) (n : Nat) : KeepsForm c₀ (Machine.writeStrip c n) := by
  unfold Machine.writeStrip
  exact h.foldl (fun _ h1 _ => (h1.putBlock _ _ _))

theorem KeepsForm.rebuildStrip (h : KeepsForm c₀ c) : KeepsForm c₀ (Machine.rebuildStrip c) := by
  unfold Machine.rebuildStrip
  dsimp only
  split
  · exact h
  · exact h.ite (((((((((h.writeStrip _).modBsn _).setFld _ _ _ _).setDrvState _ _).modBsn _).setBsnState _).writeSupers
        _).faultRec _ _).ite (((((h.writeStrip _).modBsn _).setFld _ _ _ _).writeSupers _).ite (((h.writeStrip _).modBsn
        _).setFld _ _ _ _)))

theorem KeepsForm.bsnRetire (h : KeepsForm c₀ c) (n : Nat) : KeepsForm c₀ (Machine.bsnRetire c n) := by
  unfold Machine.bsnRetire
  exact (h.bsnRefuse _).ite ((h.bsnRefuse _).ite ((((h.dropMember _).setDrvState _ _).writeSupers _).bsnRefuse _))

theorem KeepsForm.bsnEraseKey (h : KeepsForm c₀ c) (o : Nat) : KeepsForm c₀ (Machine.bsnEraseKey c o) := by
  unfold Machine.bsnEraseKey
  exact (((((h.modBsn _).foldl (fun _ h1 _ => (h1.reclaimUnit _))).ite (h.modBsn _)).countUnits).ite (((h.modBsn _).foldl (fun _
      h1 _ => (h1.reclaimUnit _))).ite (h.modBsn _))).bsnRefuse _

theorem KeepsForm.autoAdmit (h : KeepsForm c₀ c) (late : Bool) : KeepsForm c₀ (Machine.autoAdmit c late) := by
  unfold Machine.autoAdmit
  exact ((h.modBsn _).bsnAdmit).ite h

theorem KeepsForm.autoLinkUp (h : KeepsForm c₀ c) : KeepsForm c₀ (Machine.autoLinkUp c) := by
  unfold Machine.autoLinkUp
  exact (h.modBsn _).autoAdmit _

theorem KeepsForm.autoFrame (h : KeepsForm c₀ c) : KeepsForm c₀ (Machine.autoFrame c) := by
  unfold Machine.autoFrame
  dsimp only
  split
  · exact ((h.modBsn _).autoAdmit _).ite (h.modBsn _)
  · exact h

theorem KeepsForm.releasePerst (h : KeepsForm c₀ c) (m : Nat) : KeepsForm c₀ (Machine.releasePerst c m) := by
  unfold Machine.releasePerst
  exact (h.modBsn _).ite h

theorem KeepsForm.nvDomainOn (h : KeepsForm c₀ c) (m : Nat) : KeepsForm c₀ (Machine.nvDomainOn c m) := h.modBsn _

theorem KeepsForm.nvPortLinkUp (h : KeepsForm c₀ c) (m speed width : Nat) (d : Drive) :
    KeepsForm c₀ (Machine.nvPortLinkUp c m speed width d) := by
  unfold Machine.nvPortLinkUp
  exact h.ite (((((((((h.releasePerst _).setFld _ _ _ _).setFld _ _ _ _).setBDrive _ _).setReg _ _).setReg _ _).ite
      (((((((h.releasePerst _).setFld _ _ _ _).setFld _ _ _ _).setBDrive _ _).setReg _ _).setReg _ _).setDrvState _
      _)).autoLinkUp).ite (h.releasePerst _))

theorem KeepsForm.nvDomainOff (h : KeepsForm c₀ c) (m : Nat) : KeepsForm c₀ (Machine.nvDomainOff c m) := by
  unfold Machine.nvDomainOff
  exact ((h.detachNow.ite h).setBDrive _ _).setFld _ _ _ _

theorem KeepsForm.bsnRecOff (h : KeepsForm c₀ c) : KeepsForm c₀ (Machine.bsnRecOff c) := by
  unfold Machine.bsnRecOff
  exact (h.detachNow.ite h).setBsnState _

theorem KeepsForm.loseSet (h : KeepsForm c₀ c) (s : Nat) (w : WSet) : KeepsForm c₀ (Machine.loseSet c s w) := by
  unfold Machine.loseSet
  exact (h.bsnCount _ _).modLog _ _

theorem KeepsForm.stageSet (h : KeepsForm c₀ c) (s : Nat) (w : WSet) : KeepsForm c₀ (Machine.stageSet c s w) := by
  unfold Machine.stageSet
  exact (h.modLog _ _).ite (h.loseSet _ _)

theorem KeepsForm.dropOldestSet (h : KeepsForm c₀ c) (p : Nat) : KeepsForm c₀ (Machine.dropOldestSet c p).1 := by
  unfold Machine.dropOldestSet
  dsimp only
  split
  · exact ((h.modLog _ _).loseSet _ _).fst
  · exact h.fst

theorem KeepsForm.makeRoom (h : KeepsForm c₀ c) (p n k : Nat) : KeepsForm c₀ (Machine.makeRoom p n k c) := by
  induction k generalizing c with
  | zero => exact h
  | succ k ih =>
    have hd := h.dropOldestSet p
    unfold Machine.makeRoom
    refine h.ite ?_
    split
    · next heq =>
      rw [heq] at hd
      exact ih hd
    · next heq =>
      rw [heq] at hd
      exact hd

theorem KeepsForm.stageTrend (h : KeepsForm c₀ c) (s : Nat) (e : TrEnt) : KeepsForm c₀ (Machine.stageTrend c s e) := by
  unfold Machine.stageTrend
  exact ((h.makeRoom _ _ _).modLog _ _).ite ((h.makeRoom _ _ _).bsnCount _ _)

theorem KeepsForm.streamRegs (h : KeepsForm c₀ c) (s : Nat) : KeepsForm c₀ (Machine.streamRegs c s) := by
  unfold Machine.streamRegs
  exact h.modLog _ _

theorem KeepsForm.streamsFrame (h : KeepsForm c₀ c) : KeepsForm c₀ (Machine.streamsFrame c) := by
  unfold Machine.streamsFrame
  exact h.foldl (fun _ h1 _ => ((((h1.streamRegs _).modLog _ _).ite (((h1.streamRegs _).modLog _ _).stageTrend _ _)).ite
      (h1.streamRegs _)))

theorem KeepsForm.portSet (h : KeepsForm c₀ c) (s : Nat) (w : WSet) : KeepsForm c₀ (Machine.portSet c s w) := by
  unfold Machine.portSet
  exact (h.stageSet _ _).ite (h.modLog _ _)

theorem KeepsForm.waveTrigger (h : KeepsForm c₀ c) (t ot : Nat) : KeepsForm c₀ (Machine.waveTrigger c t ot) := by
  unfold Machine.waveTrigger
  exact h.foldl (fun _ h1 _ => (((h1.modLog _ _).foldl (fun _ h2 _ => (h2.stageSet _ _))).ite h1))

theorem KeepsForm.fireAll (h : KeepsForm c₀ c) (t ot : Nat) (items : List Nat) : KeepsForm c₀ (Machine.fireAll c t ot items) :=
    by
  unfold Machine.fireAll
  exact ((h.fireTrigger _ _ _).waveTrigger _ _).ite (h.fireTrigger _ _ _)

theorem KeepsForm.waveformCaptureEnd (h : KeepsForm c₀ c) (s : Nat) : KeepsForm c₀ (Machine.waveformCaptureEnd c s) := by
  unfold Machine.waveformCaptureEnd
  split
  · exact (h.modLog _ _).ite h
  · exact h

theorem KeepsForm.bsnPartition (h : KeepsForm c₀ c) : KeepsForm c₀ (Machine.bsnPartition c) := by
  unfold Machine.bsnPartition
  exact ((h.foldl (fun _ h1 _ => (h1.ite ((h1.setFld _ _ _ _).streamRegs _)))).trimUnits).ite (h.foldl (fun _ h1 _ => (h1.ite
      ((h1.setFld _ _ _ _).streamRegs _))))

theorem KeepsForm.bsnReject (h : KeepsForm c₀ c) (w : WriteCtx) (o : Nat) : KeepsForm c₀ (Machine.bsnReject c w o) := by
  unfold Machine.bsnReject
  exact (h.setFlag _ _ _).postError _ _ _

theorem KeepsForm.bsnGo (h : KeepsForm c₀ c) (w : WriteCtx) : KeepsForm c₀ (Machine.bsnGo c w) := by
  unfold Machine.bsnGo
  dsimp only
  refine ((h.setFlag _ _ _).bsnRefuse _).ite ?_
  split
  · exact (h.setFlag _ _ _).bsnCreate
  · exact (h.setFlag _ _ _).bsnAdmit
  · exact (h.setFlag _ _ _).bsnDetach
  · exact (h.setFlag _ _ _).bsnReplace _
  · exact (h.setFlag _ _ _).bsnRetire _
  · exact (h.setFlag _ _ _).bsnEraseKey _
  · exact (h.setFlag _ _ _).bsnRefuse _

theorem KeepsForm.bsnAct (h : KeepsForm c₀ c) (w : WriteCtx) : KeepsForm c₀ (Machine.bsnAct w c) := by
  unfold Machine.bsnAct
  refine ((h.bsnGo _).ite h).ite ?_
  split
  · exact h.ite (h.modLog _ _)
  · exact (h.setFld _ _ _ _).ite h

theorem KeepsForm.hookBsn (h : KeepsForm c₀ c) (w : WriteCtx) : KeepsForm c₀ (Machine.hookBsn w c) := by
  unfold Machine.hookBsn
  exact h.guarded _ _ _ _ (fun _ h1 _ _ => (h1.bsnReject _ _)) (fun _ _ h1 => (h1.bsnAct _))

/-! ## DMA engine -/

theorem KeepsForm.modDp (h : KeepsForm c₀ c) (n : Nat) (f : DpSt → DpSt) : KeepsForm c₀ (Machine.modDp c n f) := by
  unfold Machine.modDp
  exact h.withDma _

theorem KeepsForm.modDl (h : KeepsForm c₀ c) (n : Nat) (f : DlSt → DlSt) : KeepsForm c₀ (Machine.modDl c n f) := by
  unfold Machine.modDl
  exact h.withDma _

theorem KeepsForm.chargeBurst (h : KeepsForm c₀ c) (n k : Nat) : KeepsForm c₀ (Machine.chargeBurst c n k) := by
  unfold Machine.chargeBurst
  exact (h.modDp _ _).ite (h.modDl _ _)

theorem KeepsForm.dmaCycles (h : KeepsForm c₀ c) (n : Nat) : KeepsForm c₀ (Machine.dmaCycles c n) := by
  unfold Machine.dmaCycles
  exact h.withDma _

theorem KeepsForm.haltDp (h : KeepsForm c₀ c) (n reason : Nat) : KeepsForm c₀ (Machine.haltDp c n reason) := by
  unfold Machine.haltDp
  exact ((h.setFld _ _ _ _).setFld _ _ _ _).modDp _ _

theorem KeepsForm.dpReach (h : KeepsForm c₀ c) (n i : Nat) : KeepsForm c₀ (Machine.dpReach c n i) := by
  unfold Machine.dpReach
  dsimp only
  split
  · exact (h.setFld _ _ _ _).setFld _ _ _ _
  · exact (h.setFld _ _ _ _).haltDp _ _

theorem KeepsForm.handoffWrite (h : KeepsForm c₀ c) (a : Nat) (v : Byte) : KeepsForm c₀ (Machine.handoffWrite c a v) := by
  unfold Machine.handoffWrite
  exact h.withDma _

theorem KeepsForm.dpBeat (h : KeepsForm c₀ c) (x : Xfer) (done n : Nat) : KeepsForm c₀ (Machine.dpBeat c x done n) := by
  unfold Machine.dpBeat
  exact h.foldl (fun _ h1 _ => (h1.handoffWrite _ _))

theorem KeepsForm.dpBeats (h : KeepsForm c₀ c) (x : Xfer) (n k done : Nat) :
    KeepsForm c₀ (Machine.dpBeats x n k done c) := by
  induction k generalizing c done with
  | zero => exact h
  | succ k ih => exact h.ite (ih (h.dpBeat _ _ _) _)

theorem KeepsForm.dpBurst (h : KeepsForm c₀ c) (n : Nat) (x : Xfer) : KeepsForm c₀ (Machine.dpBurst c n x) := by
  unfold Machine.dpBurst
  dsimp only
  split
  · exact (h.haltDp _ _).postError _ _ _
  · exact (((((h.chargeBurst _ _).dpBeats _ _ _ _).modDp _ _).modDp _ _).dpReach _ _).ite ((((h.chargeBurst _ _).dpBeats _ _ _
        _).modDp _ _).modDp _ _)

theorem KeepsForm.setPort (h : KeepsForm c₀ c) (b : Nat) (q : List (Nat × WSet)) : KeepsForm c₀ (Machine.setPort c b q) := by
  unfold Machine.setPort
  exact h.withDma _

theorem KeepsForm.setReq (h : KeepsForm c₀ c) (b : Nat) (on : Bool) : KeepsForm c₀ (Machine.setReq c b on) := by
  unfold Machine.setReq
  exact h.withDma _

theorem KeepsForm.takeBurst (h : KeepsForm c₀ c) (b : Nat) : KeepsForm c₀ (Machine.takeBurst c b).1 := by
  unfold Machine.takeBurst
  exact ((h.chargeBurst _ _).setPort _ _).fst

theorem KeepsForm.dp0Burst (h : KeepsForm c₀ c) : KeepsForm c₀ (Machine.dp0Burst c) := by
  unfold Machine.dp0Burst
  dsimp only
  refine h.ite ?_
  split
  · exact h
  · exact (((h.takeBurst _).setReq _ _).ite (h.takeBurst _)).foldl (fun _ h1 _ => (h1.portSet _ _))

theorem KeepsForm.portEnabled (h : KeepsForm c₀ c) (b : Nat) : KeepsForm c₀ (Machine.portEnabled c b) := by
  unfold Machine.portEnabled
  exact h.startDp0.ite h

theorem KeepsForm.portRequest (h : KeepsForm c₀ c) (b : Nat) : KeepsForm c₀ (Machine.portRequest c b) := by
  unfold Machine.portRequest
  exact h.ite (((h.portEnabled _).setReq _ _).ite (h.portEnabled _))

theorem KeepsForm.portWithdraw (h : KeepsForm c₀ c) (b : Nat) (begun : Bool) : KeepsForm c₀ (Machine.portWithdraw c b begun) :=
    by
  unfold Machine.portWithdraw
  exact h.ite ((h.setReq _ _).ite (((((((h.setReq _ _).takeBurst _).foldl (fun _ h1 _ => (h1.loseSet _ _))).setFlag _ _
      _).postError _ _ _).haltDp _ _).withDma _))

theorem KeepsForm.dpMove (h : KeepsForm c₀ c) (n : Nat) : KeepsForm c₀ (Machine.dpMove c n) := by
  unfold Machine.dpMove
  dsimp only
  split
  · exact h.modDp _ _
  · exact h

theorem KeepsForm.dpLoop (h : KeepsForm c₀ c) (n : Nat) : KeepsForm c₀ (Machine.dpLoop c n) := by
  unfold Machine.dpLoop
  dsimp only
  split
  · exact ((h.modDp _ _).dpReach _ _).ite ((h.modDp _ _).dpReach _ _)
  · exact h

theorem KeepsForm.setPending (h : KeepsForm c₀ c) (n e : Nat) : KeepsForm c₀ (Machine.setPending c n e) := by
  unfold Machine.setPending
  exact h.ite ((h.dpReach _ _).ite ((h.countFld _ _ _).ite (h.modDp _ _)))

theorem KeepsForm.dpWait (h : KeepsForm c₀ c) (n : Nat) : KeepsForm c₀ (Machine.dpWait c n) := by
  unfold Machine.dpWait
  split
  · exact ((h.modDp _ _).dpReach _ _).ite (h.setFld _ _ _ _)
  · exact ((h.modDp _ _).dpReach _ _).ite (h.setFld _ _ _ _)
  · exact h.setFld _ _ _ _
  · exact h

theorem KeepsForm.dmaFrame (h : KeepsForm c₀ c) : KeepsForm c₀ (Machine.dmaFrame c) := by
  unfold Machine.dmaFrame
  exact h.foldl (fun _ h1 _ => ((h1.dpReach _ _).ite h1))

theorem KeepsForm.dpPulse (h : KeepsForm c₀ c) (n : Nat) (halt : Bool) (mask : Nat) : KeepsForm c₀ (Machine.dpPulse c n halt
    mask) := by
  unfold Machine.dpPulse
  exact ((((h.modDp _ _).setReg _ _).foldl (fun _ h1 _ => ((h1.setPending _ _).ite h1))).haltDp _ _).ite ((((h.modDp _ _).setReg
      _ _).foldl (fun _ h1 _ => ((h1.setPending _ _).ite h1))).dpReach _ _)

theorem KeepsForm.dpSignal (h : KeepsForm c₀ c) (n : Nat) : KeepsForm c₀ (Machine.dpSignal c n) := by
  unfold Machine.dpSignal
  split
  · exact (h.modDp _ _).ite (h.dpPulse _ _ _)
  · exact h

theorem KeepsForm.dpReadBack (h : KeepsForm c₀ c) (n : Nat) (ok : Bool) : KeepsForm c₀ (Machine.dpReadBack c n ok) := by
  unfold Machine.dpReadBack
  refine h.ite ?_
  refine (h.haltDp _ _).ite ?_
  split
  · exact h.dpPulse _ _ _
  · exact h.haltDp _ _

theorem KeepsForm.setReg64 (h : KeepsForm c₀ c) (off v : Nat) : KeepsForm c₀ (Machine.setReg64 c off v) := by
  unfold Machine.setReg64
  exact (h.setReg _ _).setReg _ _

theorem KeepsForm.writeCw (h : KeepsForm c₀ c) (n reason : Nat) : KeepsForm c₀ (Machine.writeCw c n reason) := by
  unfold Machine.writeCw
  exact h.ite (h.hostWrite _ _)

theorem KeepsForm.haltDl (h : KeepsForm c₀ c) (n reason : Nat) : KeepsForm c₀ (Machine.haltDl c n reason) := by
  unfold Machine.haltDl
  exact (((h.setFld _ _ _ _).setFld _ _ _ _).modDl _ _).ite ((((h.setFld _ _ _ _).setFld _ _ _ _).modDl _ _).writeCw _ _)

theorem KeepsForm.endDesc (h : KeepsForm c₀ c) (n : Nat) (pulse : Bool) : KeepsForm c₀ (Machine.endDesc c n pulse) := by
  unfold Machine.endDesc
  exact ((((h.modDl _ _).setReg _ _).ite (h.modDl _ _)).haltDl _ _).ite ((((((h.modDl _ _).setReg _ _).ite (h.modDl _
      _)).writeCw _ _).ite (((h.modDl _ _).setReg _ _).ite (h.modDl _ _))).setReg64 _ _)

theorem KeepsForm.spaceWrite (h : KeepsForm c₀ c) (fn space wrap e a : Nat) (bs : List Byte) :
    KeepsForm c₀ (Machine.spaceWrite c fn space wrap e a bs) := by
  unfold Machine.spaceWrite
  exact h.foldl (fun _ h1 _ => ((h1.hostWrite _ _).ite (h1.bar1Write _ _ _)))

theorem KeepsForm.descriptor (h : KeepsForm c₀ c) (n : Nat) : KeepsForm c₀ (Machine.descriptor c n) := by
  unfold Machine.descriptor
  exact h.ite ((h.haltDl _ _).ite (h.modDl _ _))

theorem KeepsForm.dlBurst (h : KeepsForm c₀ c) (n limit : Nat) (x : Xfer) : KeepsForm c₀ (Machine.dlBurst c n limit x) := by
  unfold Machine.dlBurst
  exact (((h.chargeBurst _ _).spaceWrite _ _ _ _ _ _).modDl _ _).ite (((((((h.chargeBurst _ _).spaceWrite _ _ _ _ _ _).modDl _
      _).countFld _ _ _).modDl _ _).ite (((((h.chargeBurst _ _).spaceWrite _ _ _ _ _ _).modDl _ _).countFld _ _ _).endDesc _
      _)).ite (((((h.chargeBurst _ _).spaceWrite _ _ _ _ _ _).modDl _ _).countFld _ _ _).endDesc _ _))

theorem KeepsForm.dlServe (h : KeepsForm c₀ c) (n limit : Nat) (ring : Bool) : KeepsForm c₀ (Machine.dlServe c n limit ring) :=
    by
  unfold Machine.dlServe
  dsimp only
  split
  · exact ((h.withDma _).dlBurst _ _ _).ite h
  · exact h

theorem KeepsForm.dpServe (h : KeepsForm c₀ c) (n : Nat) : KeepsForm c₀ (Machine.dpServe c n) := by
  unfold Machine.dpServe
  refine h.ite ?_
  refine h.dp0Burst.ite ?_
  split
  · exact (h.dpBurst _ _).ite h
  · exact h

theorem KeepsForm.completionPulse (h : KeepsForm c₀ c) (n : Nat) (ok : Bool) : KeepsForm c₀ (Machine.completionPulse c n ok) :=
    by
  unfold Machine.completionPulse
  exact (h.dpReadBack _ _).ite (h.ite ((h.endDesc _ _).ite (h.haltDl _ _)))

theorem KeepsForm.dmaHostError (h : KeepsForm c₀ c) (n kind : Nat) : KeepsForm c₀ (Machine.dmaHostError c n kind) := by
  unfold Machine.dmaHostError
  exact h.ite ((h.haltDl _ _).postError _ _ _)

theorem KeepsForm.dlClear (h : KeepsForm c₀ c) (n reason : Nat) : KeepsForm c₀ (Machine.dlClear c n reason) := by
  unfold Machine.dlClear
  exact (((h.haltDl _ _).ite h).modDl _ _).resetRegs _ _

theorem KeepsForm.dlFnReset (h : KeepsForm c₀ c) (fn : Nat) : KeepsForm c₀ (Machine.dlFnReset c fn) := by
  unfold Machine.dlFnReset
  exact h.foldl (fun _ h1 _ => ((h1.dlClear _ _).ite h1))

theorem KeepsForm.dlPartition (h : KeepsForm c₀ c) : KeepsForm c₀ (Machine.dlPartition c) := by
  unfold Machine.dlPartition
  exact h.foldl (fun _ h1 _ => (h1.ite (h1.dlClear _ _)))

theorem KeepsForm.dmaReset (h : KeepsForm c₀ c) : KeepsForm c₀ (Machine.dmaReset c) := by
  unfold Machine.dmaReset
  exact (h.withDma _).resetRegs _ _

theorem KeepsForm.capHbw (h : KeepsForm c₀ c) : KeepsForm c₀ (Machine.capHbw c) := by
  unfold Machine.capHbw
  exact h.ite (h.setFld _ _ _ _)

theorem KeepsForm.dpCommand (h : KeepsForm c₀ c) (n : Nat) (go stop : Bool) : KeepsForm c₀ (Machine.dpCommand c n go stop) := by
  unfold Machine.dpCommand
  exact (((h.setFld _ _ _ _).haltDp _ _).ite (h.setFld _ _ _ _)).ite (((((h.setFld _ _ _ _).modDp _ _).haltDp _ _).ite
      (((h.setFld _ _ _ _).modDp _ _).dpReach _ _)).ite (h.setFld _ _ _ _))

theorem KeepsForm.dlCommand (h : KeepsForm c₀ c) (n : Nat) (go stop : Bool) : KeepsForm c₀ (Machine.dlCommand c n go stop) := by
  unfold Machine.dlCommand
  exact (((h.setFld _ _ _ _).haltDl _ _).ite (h.setFld _ _ _ _)).ite ((((((h.setFld _ _ _ _).modDl _ _).setReg _ _).haltDl _
      _).ite (((((h.setFld _ _ _ _).modDl _ _).setReg _ _).setFld _ _ _ _).setReg64 _ _)).ite (h.setFld _ _ _ _))

theorem KeepsForm.dmaDiscard (h : KeepsForm c₀ c) (n code : Nat) : KeepsForm c₀ (Machine.dmaDiscard c n code) := by
  unfold Machine.dmaDiscard
  exact ((h.setFlag _ _ _).ite (h.setFlag _ _ _)).postError _ _ _

theorem KeepsForm.dpReject (h : KeepsForm c₀ c) (w : WriteCtx) (o : Nat) : KeepsForm c₀ (Machine.dpReject c w o) := by
  unfold Machine.dpReject
  refine KeepsForm.ite ?_ ?_
  · cases windowOf c o with
    | none => exact h
    | some n => exact h.dmaDiscard _ _
  · split <;> exact h.dmaDiscard _ _

theorem KeepsForm.hookDl (h : KeepsForm c₀ c) (w : WriteCtx) (n o : Nat) : KeepsForm c₀ (Machine.hookDl w c n o) := by
  unfold Machine.hookDl
  dsimp only
  split
  · exact ((((h.setFld _ _ _ _).setFlag _ _ _).ite (((h.setFld _ _ _ _).dmaDiscard _ _).ite h)).ite ((((h.setFld _ _ _
        _).setFlag _ _ _).ite (((h.setFld _ _ _ _).dmaDiscard _ _).ite h)).dlClear _ _)).ite (((h.setFld _ _ _ _).setFlag _ _
        _).ite (((h.setFld _ _ _ _).dmaDiscard _ _).ite h))
  · exact h.dlCommand _ _ _
  · exact ((h.setReg _ _).setFlag _ _ _).ite h
  · exact ((h.setReg _ _).setFlag _ _ _).ite h
  · exact ((h.setReg _ _).setFlag _ _ _).ite h
  · exact ((h.setReg _ _).setFlag _ _ _).ite h
  · exact h

theorem KeepsForm.ownerCode (h : KeepsForm c₀ c) (w : WriteCtx) : KeepsForm c₀ (Machine.ownerCode w c).1 := by
  unfold Machine.ownerCode
  exact KeepsForm.iteFst ((h.setFld _ _ _ _).postError _ _ _).fst h.fst

theorem KeepsForm.hookDma (h : KeepsForm c₀ c) (w : WriteCtx) : KeepsForm c₀ (Machine.hookDma w c) := by
  unfold Machine.hookDma
  exact h.guarded _ _ _ _ (fun _ h1 _ _ => (h1.dpReject _ _)) (fun _ _ h1 => (h1.capHbw.ite (((h1.dpCommand _ _ _).ite h1).ite
      (((KeepsForm.iteFst (h1.ownerCode _) h1.fst).hookDl _ _ _).ite h1))))

end Sys2Proof.Machine
end

section
-- One proof at a time: every thread takes a stack of its own from the memory that a compile has.
set_option Elab.async false
/-! SUPPORT. The canonical form (log 3) is kept by the operations of alarms, the engineer call, the Saddle link and modes. -/

namespace Sys2Proof.Machine

variable {c₀ c : Chip}

/-! ## Floodplain alarm engine -/

theorem KeepsForm.modAlm (h : KeepsForm c₀ c) (f : AlmSt → AlmSt) : KeepsForm c₀ (Machine.modAlm c f) := h.withAlm _

theorem KeepsForm.almFirstOut {s : Chip × List AWork} (h : KeepsForm c₀ s.1) (base g : Nat) :
    KeepsForm c₀ (Machine.almFirstOut base s g).1 := by
  unfold Machine.almFirstOut
  refine KeepsForm.iteFst ?_ (KeepsForm.setFld ?_ _ _ _ _) <;>
  · refine KeepsForm.iteFst ?_ h
    split
    · exact h.setReg _ _
    · exact h

theorem KeepsForm.almPhases (h : KeepsForm c₀ c) : KeepsForm c₀ (Machine.almPhases c).1 := by
  unfold Machine.almPhases
  exact ((h.modAlm _).fst.foldlFst (fun _ h1 _ => (h1.almFirstOut _ _))).fst

theorem KeepsForm.fireAllIn {s : Chip × List (Nat × Option Nat)} (h : KeepsForm c₀ s.1) (rd : Chip → Nat → Nat)
    (words : List (Nat × Nat)) (fs : List Firing) : KeepsForm c₀ (Machine.fireAllIn rd words fs s).1 := by
  induction fs generalizing s with
  | nil => exact h
  | cons f fs ih => exact ih (h.fireAll _ _ _)

theorem KeepsForm.almFlood (h : KeepsForm c₀ c) (t : Int) (o : Nat) : KeepsForm c₀ (Machine.almFlood t c o) := by
  unfold Machine.almFlood
  exact ((((h.setFld _ _ _ _).setFlag _ _ _).countFld _ _ _).nodeRec _ _ _).ite (((h.setFld _ _ _ _).setFlag _ _ _).ite
      (h.setFld _ _ _ _))

theorem KeepsForm.almEntries (h : KeepsForm c₀ c) (t : Int) (ws : List AWork) : KeepsForm c₀ (Machine.almEntries c t ws) := by
  unfold Machine.almEntries
  exact (h.modAlm _).foldl (fun _ h1 _ => (h1.almFlood _ _))

theorem KeepsForm.almReport (h : KeepsForm c₀ c) (t : Int) (seqs : List (Nat × Option Nat)) (w : AWork) :
    KeepsForm c₀ (Machine.almReport t seqs c w) := by
  unfold Machine.almReport
  exact (h.modAlm _).ite ((h.modAlm _).ite ((h.modAlm _).modAlm _))

theorem KeepsForm.almGoneEvents (h : KeepsForm c₀ c) : KeepsForm c₀ (Machine.almGoneEvents c) := by
  unfold Machine.almGoneEvents
  exact h.modAlm _

theorem KeepsForm.almCounts (h : KeepsForm c₀ c) (ws : List AWork) : KeepsForm c₀ (Machine.almCounts c ws) := by
  unfold Machine.almCounts
  exact (h.foldl (fun _ h1 _ => (h1.setReg _ _))).modAlm _

theorem KeepsForm.almFinish (h : KeepsForm c₀ c) (t : Int) (ws : List AWork) (seqs : List (Nat × Option Nat)) (words : List (Nat
    × Nat)) :
    KeepsForm c₀ (Machine.almFinish c t ws seqs words) := by
  unfold Machine.almFinish
  exact (((((h.almEntries _ _).modAlm _).foldl (fun _ h1 _ => (h1.almReport _ _ _))).almGoneEvents).almCounts _).modAlm _

theorem KeepsForm.publishWord (h : KeepsForm c₀ c) (p w : Nat) : KeepsForm c₀ (Machine.publishWord c p w) := by
  unfold Machine.publishWord
  exact (h.setPoint _ _).ite (h.setPoint _ _)

theorem KeepsForm.publishWords (h : KeepsForm c₀ c) (cls : List Nat) (words : List (Nat × Nat)) :
    KeepsForm c₀ (Machine.publishWords c cls words) := by
  unfold Machine.publishWords
  exact (h.withPoints (smWf_filter _)).foldl (fun _ h1 _ => (h1.publishWord _ _))

theorem KeepsForm.almPublish (h : KeepsForm c₀ c) : KeepsForm c₀ (Machine.almPublish c) := by
  unfold Machine.almPublish
  dsimp only
  refine KeepsForm.foldl ?_ (fun _ h1 _ => ?_)
  · refine KeepsForm.modAlm ?_ _
    split
    · exact (h.publishWords _ _).modAlm _
    · exact h
  · exact h1.putEvent _ _

theorem KeepsForm.almComplete (h : KeepsForm c₀ c) : KeepsForm c₀ (Machine.almComplete c) := by
  unfold Machine.almComplete
  exact (h.modAlm _).foldl (fun _ h1 _ => (h1.completeWhere _ _))

theorem KeepsForm.almSwap (h : KeepsForm c₀ c) (oldBase newBase : Nat) : KeepsForm c₀ (Machine.almSwap c oldBase newBase) := by
  unfold Machine.almSwap
  exact (h.modAlm _).foldl (fun _ h1 _ => (h1.ite (h1.setReg _ _)))

theorem KeepsForm.almDomainOff (h : KeepsForm c₀ c) : KeepsForm c₀ (Machine.almDomainOff c) := by
  unfold Machine.almDomainOff
  exact ((h.foldl (fun _ h1 _ => (h1.setReg _ _))).foldl (fun _ h1 _ => (((h1.setFlag _ _ _).setFld _ _ _ _).setReg _
      _))).modAlm _

theorem KeepsForm.almAccept (h : KeepsForm c₀ c) (k : AlmCmd) : KeepsForm c₀ (Machine.almAccept c k) := h.modAlm _

theorem KeepsForm.hookAlm (h : KeepsForm c₀ c) (w : WriteCtx) : KeepsForm c₀ (Machine.hookAlm w c) := by
  unfold Machine.hookAlm
  exact h.guarded _ _ _ _ (fun _ h1 _ _ => (h1.postError _ _ _)) (fun _ _ h1 => (h1.hookNone _))

/-! ## Engineer call -/

theorem KeepsForm.modCall (h : KeepsForm c₀ c) (f : CallSt → CallSt) : KeepsForm c₀ (Machine.modCall c f) := h.withCall _

theorem KeepsForm.callSend (h : KeepsForm c₀ c) (data : List Byte) : KeepsForm c₀ (Machine.callSend c data) := by
  unfold Machine.callSend
  dsimp only
  split
  · exact h
  · refine h.ite ?_
    split
    · exact (h.setBuf _ _ _).ite (h.setBuf _ _ _)
    · exact h.setBuf _ _ _

theorem KeepsForm.callFrame (h : KeepsForm c₀ c) (clear : Bool) (b1 targets first : Nat) :
    KeepsForm c₀ (Machine.callFrame c clear b1 targets first) := by
  unfold Machine.callFrame
  exact h.ite ((h.modCall _).wrapFld _ _ _)

theorem KeepsForm.callTransmit (h : KeepsForm c₀ c) (f : CallFrame) : KeepsForm c₀ (Machine.callTransmit c f) := by
  unfold Machine.callTransmit
  exact (h.modCall _).callSend _

theorem KeepsForm.callFrameRepeat (h : KeepsForm c₀ c) : KeepsForm c₀ (Machine.callFrameRepeat c) := by
  unfold Machine.callFrameRepeat
  dsimp only
  split
  · exact h.ite (((h.setFld _ _ _ _).modCall _).ite (h.callTransmit _))
  · exact h

theorem KeepsForm.callAcceptFrame (h : KeepsForm c₀ c) (n : Nat) (data : List Byte) :
    KeepsForm c₀ (Machine.callAcceptFrame c n data) := by
  unfold Machine.callAcceptFrame
  exact ((h.ite (h.modCall _)).modCall _).callSend _

theorem KeepsForm.callAckFrame (h : KeepsForm c₀ c) (n : Nat) (data : List Byte) : KeepsForm c₀ (Machine.callAckFrame c n data)
    := by
  unfold Machine.callAckFrame
  dsimp only
  split
  · exact (h.modCall _).ite h
  · exact h

theorem KeepsForm.callFrameIn (h : KeepsForm c₀ c) (n : Nat) (data : List Byte) : KeepsForm c₀ (Machine.callFrameIn c n data) :=
    by
  unfold Machine.callFrameIn
  split
  · exact h.callAcceptFrame _ _
  · exact h.callAckFrame _ _
  · exact h

theorem KeepsForm.acceptFrom (h : KeepsForm c₀ c) (n : Nat) (data : List Byte) : KeepsForm c₀ (Machine.acceptFrom c n data) :=
    by
  unfold Machine.acceptFrom
  exact (h.callAcceptFrame _ _).ite h

theorem KeepsForm.ackFrom (h : KeepsForm c₀ c) (n : Nat) (data : List Byte) : KeepsForm c₀ (Machine.ackFrom c n data) := by
  unfold Machine.ackFrom
  exact (h.callAckFrame _ _).ite h

theorem KeepsForm.takeFrame (h : KeepsForm c₀ c) (n : Nat) (r : CanRx) : KeepsForm c₀ (Machine.takeFrame c n r) := by
  unfold Machine.takeFrame
  split
  · exact (h.callFrameIn _ _).ite h
  · exact h.routeFrame _ _

theorem KeepsForm.frameReceived (h : KeepsForm c₀ c) (n : Nat) (r : CanRx) : KeepsForm c₀ (Machine.frameReceived c n r) := by
  unfold Machine.frameReceived
  exact h.ite ((h.rxCounted _).takeFrame _ _)

theorem KeepsForm.txOutcome (h : KeepsForm c₀ c) (n o ts : Nat) : KeepsForm c₀ (Machine.txOutcome c n o ts) := by
  unfold Machine.txOutcome
  dsimp only
  split
  · exact h
  · exact ((h.canOutcome _ _ _).takeFrame _ _).ite (h.canOutcome _ _ _)

theorem KeepsForm.callStage (h : KeepsForm c₀ c) (stage : Nat) : KeepsForm c₀ (Machine.callStage c stage) := by
  unfold Machine.callStage
  exact ((((h.modCall _).countFld _ _ _).ite (h.modCall _)).countFld _ _ _).ite (((h.modCall _).countFld _ _ _).ite (h.modCall
      _))

theorem KeepsForm.callCallFrame (h : KeepsForm c₀ c) : KeepsForm c₀ (Machine.callCallFrame c) := h.callFrame _ _ _ _

theorem KeepsForm.callEnter (h : KeepsForm c₀ c) (stage targets : Nat) : KeepsForm c₀ (Machine.callEnter c stage targets) := by
  unfold Machine.callEnter
  exact ((h.modCall _).callStage _).callCallFrame

theorem KeepsForm.callPassJoin (h : KeepsForm c₀ c) (joins : List Nat) : KeepsForm c₀ (Machine.callPassJoin c joins) := by
  unfold Machine.callPassJoin
  dsimp only
  split
  · exact h
  · split
    · split
      · exact ((h.modCall _).modCall _).callEnter _ _
      · exact ((h.modCall _).modCall _).callEnter _ _
    · exact (h.modCall _).callEnter _ _
    · exact ((h.modCall _).callCallFrame).ite (h.modCall _)

theorem KeepsForm.callAccepted (h : KeepsForm c₀ c) (e : Nat) : KeepsForm c₀ (Machine.callAccepted c e) := by
  unfold Machine.callAccepted
  exact ((h.modCall _).callStage _).callFrame _ _ _ _

theorem KeepsForm.callAcceptOne (h : KeepsForm c₀ c) (x : CallAcc) : KeepsForm c₀ (Machine.callAcceptOne c x) := by
  unfold Machine.callAcceptOne
  dsimp only
  split
  · exact (h.callAccepted _).ite h
  · exact ((h.callAccepted _).ite h).modAlm _

theorem KeepsForm.callPassOpen (h : KeepsForm c₀ c) : KeepsForm c₀ (Machine.callPassOpen c) := by
  unfold Machine.callPassOpen
  exact h.ite ((((h.modCall _).callStage _).ite (((h.modCall _).callStage _).callFrame _ _ _ _)).modCall _)

theorem KeepsForm.callPassTimer (h : KeepsForm c₀ c) : KeepsForm c₀ (Machine.callPassTimer c) := by
  unfold Machine.callPassTimer
  exact (h.callEnter _ _).ite ((h.callEnter _ _).ite h)

theorem KeepsForm.callPhase (h : KeepsForm c₀ c) (ws : List AWork) : KeepsForm c₀ (Machine.callPhase c ws).1 := by
  unfold Machine.callPhase
  exact ((((((((((((h.callTake.modCall _).setFld _ _ _ _).ite h.callTake).modCall _).callPassJoin _).modCall _).foldl (fun _ h1
      _ => (h1.callAcceptOne _))).modCall _).callPassOpen).callPassTimer).modCall _).callCanCheck).fst

theorem KeepsForm.callIdle (h : KeepsForm c₀ c) : KeepsForm c₀ (Machine.callIdle c) := h.modCall _

theorem KeepsForm.alarmEvaluation (h : KeepsForm c₀ c) (rd : Chip → Nat → Nat) : KeepsForm c₀ (Machine.alarmEvaluation rd c) :=
    by
  have h1 := h.almPhases
  unfold Machine.alarmEvaluation
  split
  · exact (h.modAlm _).callIdle
  · generalize Machine.almPhases c = p at h1 ⊢
    obtain ⟨c1, ws, words⟩ := p
    have h2 := h1.callPhase ws
    dsimp only at h2 ⊢
    generalize Machine.callPhase c1 ws = q at h2 ⊢
    exact (h2.fst.fireAllIn _ _ _).almFinish _ _ _ _

theorem KeepsForm.callOutputs (h : KeepsForm c₀ c) : KeepsForm c₀ (Machine.callOutputs c) := h.modCall _

theorem KeepsForm.callPublish (h : KeepsForm c₀ c) : KeepsForm c₀ (Machine.callPublish c) := by
  unfold Machine.callPublish
  dsimp only
  split
  · refine KeepsForm.ite ?_ ?_
    · refine KeepsForm.callTransmit ?_ _
      refine KeepsForm.foldl ?_ (fun _ h1 _ => ?_)
      · refine KeepsForm.modCall ?_ _
        refine KeepsForm.callOutputs ?_
        split
        · exact h.publishWords _ _
        · exact h
      · exact h1.putEvents _ _
    · refine KeepsForm.foldl ?_ (fun _ h1 _ => ?_)
      · refine KeepsForm.modCall ?_ _
        refine KeepsForm.callOutputs ?_
        split
        · exact h.publishWords _ _
        · exact h
      · exact h1.putEvents _ _
  · refine KeepsForm.foldl ?_ (fun _ h1 _ => ?_)
    · refine KeepsForm.modCall ?_ _
      refine KeepsForm.callOutputs ?_
      split
      · exact h.publishWords _ _
      · exact h
    · exact h1.putEvents _ _

theorem KeepsForm.callDomainOff (h : KeepsForm c₀ c) : KeepsForm c₀ (Machine.callDomainOff c) := by
  unfold Machine.callDomainOff
  exact (h.callTake.callIdle.modCall _).callOutputs

theorem KeepsForm.callAckBegin (h : KeepsForm c₀ c) (fn sq tag entry : Nat) :
    KeepsForm c₀ (Machine.callAckBegin c fn sq tag entry) := h.modCall _

theorem KeepsForm.hookCall (h : KeepsForm c₀ c) (w : WriteCtx) : KeepsForm c₀ (Machine.hookCall w c) := by
  unfold Machine.hookCall
  exact h.guarded _ _ _ _ (fun _ h1 _ _ => (h1.postError _ _ _)) (fun _ _ h1 => (h1.hookNone _))

/-! ## Status port -/

theorem KeepsForm.sptPut (h : KeepsForm c₀ c) (w v : Nat) : KeepsForm c₀ (Machine.sptPut c w v) := by
  unfold Machine.sptPut
  exact h.withSpt _

theorem KeepsForm.sptModeChange (h : KeepsForm c₀ c) : KeepsForm c₀ (Machine.sptModeChange c) := by
  unfold Machine.sptModeChange
  exact (h.sptPut _ _).ite h

theorem KeepsForm.sptSweep (h : KeepsForm c₀ c) (old : Chip) (base : Nat) (w : Nat) : KeepsForm c₀ (Machine.sptSweep old base c
    w) := by
  unfold Machine.sptSweep
  split
  · exact h.sptPut _ _
  · exact h.sptPut _ _
  · exact h.sptPut _ _
  · exact h

theorem KeepsForm.sptPublish (h : KeepsForm c₀ c) (old : Chip) (frame : Nat) : KeepsForm c₀ (Machine.sptPublish old c frame) :=
    by
  unfold Machine.sptPublish
  exact (h.setReg _ _).ite ((((((h.setReg _ _).sptPut _ _).sptPut _ _).foldl (fun _ h1 _ => (h1.sptSweep _ _ _))).setFld _ _ _
      _).takeFree)

theorem KeepsForm.sptSwap (h : KeepsForm c₀ c) (oldBase newBase : Nat) : KeepsForm c₀ (Machine.sptSwap c oldBase newBase) := by
  unfold Machine.sptSwap
  exact (h.withSpt _).foldl (fun _ h1 _ => ((h1.sptPut _ _).ite h1))

theorem KeepsForm.sptDomainOn (h : KeepsForm c₀ c) : KeepsForm c₀ (Machine.sptDomainOn c) := by
  unfold Machine.sptDomainOn
  exact ((h.withSpt _).sptPut _ _).foldl (fun _ h1 _ => ((h1.sptPut _ _).ite h1))

theorem KeepsForm.statusPortRead (h : KeepsForm c₀ c) (addr : Nat) : KeepsForm c₀ (Machine.statusPortRead c addr) := by
  unfold Machine.statusPortRead
  exact h.withSpt _

/-! ## Saddle link -/

theorem KeepsForm.modSdl (h : KeepsForm c₀ c) (f : SdlSt → SdlSt) : KeepsForm c₀ (Machine.modSdl c f) := h.withSdl _

theorem KeepsForm.sdlEmit (h : KeepsForm c₀ c) (f : SdlFrame) : KeepsForm c₀ (Machine.sdlEmit c f) := by
  unfold Machine.sdlEmit
  exact h.modSdl _

theorem KeepsForm.resyncPump (h : KeepsForm c₀ c) : KeepsForm c₀ (Machine.resyncPump c) := by
  unfold Machine.resyncPump
  split
  · exact ((h.modSdl _).sdlEmit _).ite h
  · exact h

theorem KeepsForm.sdlPump (h : KeepsForm c₀ c) : KeepsForm c₀ (Machine.sdlPump c) := by
  unfold Machine.sdlPump
  exact ((h.modSdl _).foldl (fun _ h1 _ => (h1.sdlEmit _))).resyncPump

theorem KeepsForm.sdlSend (h : KeepsForm c₀ c) (type set : Nat) (data : List Byte) :
    KeepsForm c₀ (Machine.sdlSend c type set data) := by
  unfold Machine.sdlSend
  exact ((h.modSdl _).sdlPump).ite h

theorem KeepsForm.resyncTick (h : KeepsForm c₀ c) : KeepsForm c₀ (Machine.resyncTick c) := by
  unfold Machine.resyncTick
  exact h.ite ((h.modSdl _).resyncPump)

theorem KeepsForm.sdlSync (h : KeepsForm c₀ c) : KeepsForm c₀ (Machine.sdlSync c) := by
  unfold Machine.sdlSync
  exact (h.modSdl _).sdlSend _ _ _

theorem KeepsForm.sdlFlushRecs (h : KeepsForm c₀ c) : KeepsForm c₀ (Machine.sdlFlushRecs c) := by
  unfold Machine.sdlFlushRecs
  exact ((h.modSdl _).foldl (fun _ h1 _ => (h1.sdlSend _ _ _))).ite h

theorem KeepsForm.heartbeatTimer (h : KeepsForm c₀ c) : KeepsForm c₀ (Machine.heartbeatTimer c) := by
  unfold Machine.heartbeatTimer
  exact (h.sdlFlushRecs.ite ((h.sdlSend _ _ _).ite h.sdlPump)).ite h

theorem KeepsForm.saddleRetransmit (h : KeepsForm c₀ c) : KeepsForm c₀ (Machine.saddleRetransmit c) := by
  unfold Machine.saddleRetransmit
  exact (h.countFld _ _ _).ite h

theorem KeepsForm.sdlEvent (h : KeepsForm c₀ c) (bit : Nat) : KeepsForm c₀ (Machine.sdlEvent c bit) := by
  unfold Machine.sdlEvent
  exact (h.setFlag _ _ _).postErrorSev _ _ _ _ _

theorem KeepsForm.setSync (h : KeepsForm c₀ c) (s : Nat) : KeepsForm c₀ (Machine.setSync c s) := by
  unfold Machine.setSync
  exact h.ite (((h.modSdl _).sdlEvent _).ite (((h.modSdl _).sdlEvent _).ite (h.modSdl _)))

theorem KeepsForm.setPiCount (h : KeepsForm c₀ c) (m x : Nat) : KeepsForm c₀ (Machine.setPiCount c m x) := by
  unfold Machine.setPiCount
  exact (h.setReg _ _).setReg _ _

theorem KeepsForm.sendSet (h : KeepsForm c₀ c) : KeepsForm c₀ (Machine.sendSet c) := by
  unfold Machine.sendSet
  exact (((h.modSdl _).sdlFlushRecs).foldl (fun _ h1 _ => (h1.sdlSend _ _ _))).sdlSend _ _ _

theorem KeepsForm.takeSet (h : KeepsForm c₀ c) : KeepsForm c₀ (Machine.takeSet c) := by
  unfold Machine.takeSet
  exact h.sendSet.ite h

theorem KeepsForm.applyLoops (h : KeepsForm c₀ c) (xs : List (Nat × Int)) (l : Nat) : KeepsForm c₀ (Machine.applyLoops xs c l)
    := by
  unfold Machine.applyLoops
  dsimp only
  split
  · exact h.ite (((((h.setFlag _ _ _).setReg _ _).setReg _ _).setInt _ _).modLoop _ _)
  · exact h

theorem KeepsForm.applyAlarms (h : KeepsForm c₀ c) (xs : List (Nat × Int)) : KeepsForm c₀ (Machine.applyAlarms xs c) := by
  unfold Machine.applyAlarms
  dsimp only
  refine KeepsForm.foldl ?_ (fun _ h1 _ => ?_)
  · refine (h.modAlm _).foldl fun _ h1 _ => ?_
    split
    · exact h1.setReg _ _
    · exact h1
  · exact h1.setFlag _ _ _

theorem KeepsForm.applyCall (h : KeepsForm c₀ c) (xs : List (Nat × Int)) : KeepsForm c₀ (Machine.applyCall xs c) := by
  unfold Machine.applyCall
  exact ((h.modCall _).modCall _).setFld _ _ _ _

theorem KeepsForm.applySet (h : KeepsForm c₀ c) (frame : Nat) (xs : List (Nat × Int)) : KeepsForm c₀ (Machine.applySet c frame
    xs) := by
  unfold Machine.applySet
  exact ((((h.foldl (fun _ h1 _ => (h1.applyLoops _ _))).applyAlarms _).applyCall _).ite (h.foldl (fun _ h1 _ => (h1.applyLoops
      _ _)))).modSdl _

theorem KeepsForm.applyReady (h : KeepsForm c₀ c) : KeepsForm c₀ (Machine.applyReady c) := by
  unfold Machine.applyReady
  split
  · exact (h.applySet _ _).ite (h.modSdl _)
  · exact h

theorem KeepsForm.takeoverCell (h : KeepsForm c₀ c) (xs : List (Nat × Int)) (ch : Nat) :
    KeepsForm c₀ (Machine.takeoverCell xs c ch) := by
  unfold Machine.takeoverCell
  dsimp only
  refine KeepsForm.ite ?_ ?_
  · split
    · exact ((h.modCell _ _).setFlag _ _ _).drive _ _
    · exact h
  · refine KeepsForm.requestOp ?_ _
    refine KeepsForm.modCell ?_ _ _
    split
    · exact ((h.modCell _ _).setFlag _ _ _).drive _ _
    · exact h

theorem KeepsForm.takeoverSubst (h : KeepsForm c₀ c) (xs : List (Nat × Int)) (x : Nat × Int) :
    KeepsForm c₀ (Machine.takeoverSubst xs c x) := by
  unfold Machine.takeoverSubst
  exact ((h.setPoint _ _).demandPoint _ _).ite h

theorem KeepsForm.takeoverState (h : KeepsForm c₀ c) : KeepsForm c₀ (Machine.takeoverState c) := by
  unfold Machine.takeoverState
  dsimp only
  split
  · exact ((((((h.foldl (fun _ h1 _ => (h1.takeoverSubst _ _))).foldl (fun _ h1 _ => (h1.setPiCount _ _))).setReg _ _).foldl
        (fun _ h1 _ => (h1.modLoop _ _))).ite (((h.foldl (fun _ h1 _ => (h1.takeoverSubst _ _))).foldl (fun _ h1 _ =>
        (h1.setPiCount _ _))).setReg _ _)).modAlm _).modCall _
  · exact h.startLoops.almDomainOff.callDomainOff.ite h.startLoops

theorem KeepsForm.takeoverOutputs (h : KeepsForm c₀ c) : KeepsForm c₀ (Machine.takeoverOutputs c) := by
  unfold Machine.takeoverOutputs
  exact (h.foldl (fun _ h1 _ => (h1.takeoverCell _ _))).modSdl _

theorem KeepsForm.takeoverLegArm (h : KeepsForm c₀ c) : KeepsForm c₀ (Machine.takeoverLegArm c) := by
  unfold Machine.takeoverLegArm
  exact ((h.foldl (fun _ h1 _ => ((((h1.ite (h1.setDuty _ _)).setFlag _ _ _).armLeg _).ite h1))).modSdl _).ite h

theorem KeepsForm.sendLease (h : KeepsForm c₀ c) (port : Nat) (data : List Byte) : KeepsForm c₀ (Machine.sendLease c port data)
    := by
  unfold Machine.sendLease
  exact (h.modSdl _).ite h

theorem KeepsForm.sendRelease (h : KeepsForm c₀ c) : KeepsForm c₀ (Machine.sendRelease c) := by
  unfold Machine.sendRelease
  exact (h.sendLease _ _).modSdl _

/-! ## Operating modes -/

theorem KeepsForm.modMode (h : KeepsForm c₀ c) (f : ModeSt → ModeSt) : KeepsForm c₀ (Machine.modMode c f) := h.withMode _

theorem KeepsForm.modeEvent (h : KeepsForm c₀ c) : KeepsForm c₀ (Machine.modeEvent c) := h.postEvent _ _ _ _

theorem KeepsForm.modeRecord (h : KeepsForm c₀ c) : KeepsForm c₀ (Machine.modeRecord c) := h.nodeRec _ _ _

theorem KeepsForm.setReqStatus (h : KeepsForm c₀ c) (s : Nat) : KeepsForm c₀ (Machine.setReqStatus c s) := h.setFld _ _ _ _

theorem KeepsForm.preempt (h : KeepsForm c₀ c) : KeepsForm c₀ (Machine.preempt c) := by
  unfold Machine.preempt
  exact ((h.setReqStatus _).ite h).modMode _

theorem KeepsForm.sentryCopy (h : KeepsForm c₀ c) : KeepsForm c₀ (Machine.sentryCopy c) := by
  unfold Machine.sentryCopy
  exact h.withSeq _

theorem KeepsForm.domToSentry (h : KeepsForm c₀ c) (n : Nat) : KeepsForm c₀ (Machine.domToSentry c n) := by
  unfold Machine.domToSentry
  exact ((((h.dropReq _).releaseSurge _).setDom _ _).afeDomainOff _).ite (((h.dropReq _).releaseSurge _).setDom _ _)

theorem KeepsForm.sentryDomains (h : KeepsForm c₀ c) : KeepsForm c₀ (Machine.sentryDomains c) := by
  unfold Machine.sentryDomains
  exact h.pllStop.foldl (fun _ h1 _ => (h1.domToSentry _))

theorem KeepsForm.sentryEnter (h : KeepsForm c₀ c) : KeepsForm c₀ (Machine.sentryEnter c) := by
  unfold Machine.sentryEnter
  exact h.ite h.sentryDomains

theorem KeepsForm.bankWork (h : KeepsForm c₀ c) (f : Chip → Chip) (hf : ∀ (x0 : Chip) (_ : KeepsForm c₀ x0), KeepsForm c₀ (f
    x0)) :
    KeepsForm c₀ (Machine.bankWork f c) := by
  unfold Machine.bankWork
  exact ((((hf _ h).sentryEnter).ite (hf _ h)).retarget).ite (hf _ h)

theorem KeepsForm.modeLeave (h : KeepsForm c₀ c) (old m : Nat) : KeepsForm c₀ (Machine.modeLeave old m c) := by
  unfold Machine.modeLeave
  exact (((((((((h.ite (h.legsOff _ _)).ite ((h.ite (h.legsOff _ _)).foldl (fun _ h1 _ => (h1.cellToOpen _)))).clearForces).ite
      ((h.ite (h.legsOff _ _)).ite ((h.ite (h.legsOff _ _)).foldl (fun _ h1 _ => (h1.cellToOpen _))))).capturesLeave).ite
      ((((h.ite (h.legsOff _ _)).ite ((h.ite (h.legsOff _ _)).foldl (fun _ h1 _ => (h1.cellToOpen _)))).clearForces).ite ((h.ite
      (h.legsOff _ _)).ite ((h.ite (h.legsOff _ _)).foldl (fun _ h1 _ => (h1.cellToOpen _)))))).ite (((((((h.ite (h.legsOff _
      _)).ite ((h.ite (h.legsOff _ _)).foldl (fun _ h1 _ => (h1.cellToOpen _)))).clearForces).ite ((h.ite (h.legsOff _ _)).ite
      ((h.ite (h.legsOff _ _)).foldl (fun _ h1 _ => (h1.cellToOpen _))))).capturesLeave).ite ((((h.ite (h.legsOff _ _)).ite
      ((h.ite (h.legsOff _ _)).foldl (fun _ h1 _ => (h1.cellToOpen _)))).clearForces).ite ((h.ite (h.legsOff _ _)).ite ((h.ite
      (h.legsOff _ _)).foldl (fun _ h1 _ => (h1.cellToOpen _)))))).foldl (fun _ h1 _ => (h1.endFsk _
      _)))).canNodeMode).callCanCheck).ite ((((((((((h.ite (h.legsOff _ _)).ite ((h.ite (h.legsOff _ _)).foldl (fun _ h1 _ =>
      (h1.cellToOpen _)))).clearForces).ite ((h.ite (h.legsOff _ _)).ite ((h.ite (h.legsOff _ _)).foldl (fun _ h1 _ =>
      (h1.cellToOpen _))))).capturesLeave).ite ((((h.ite (h.legsOff _ _)).ite ((h.ite (h.legsOff _ _)).foldl (fun _ h1 _ =>
      (h1.cellToOpen _)))).clearForces).ite ((h.ite (h.legsOff _ _)).ite ((h.ite (h.legsOff _ _)).foldl (fun _ h1 _ =>
      (h1.cellToOpen _)))))).ite (((((((h.ite (h.legsOff _ _)).ite ((h.ite (h.legsOff _ _)).foldl (fun _ h1 _ => (h1.cellToOpen
      _)))).clearForces).ite ((h.ite (h.legsOff _ _)).ite ((h.ite (h.legsOff _ _)).foldl (fun _ h1 _ => (h1.cellToOpen
      _))))).capturesLeave).ite ((((h.ite (h.legsOff _ _)).ite ((h.ite (h.legsOff _ _)).foldl (fun _ h1 _ => (h1.cellToOpen
      _)))).clearForces).ite ((h.ite (h.legsOff _ _)).ite ((h.ite (h.legsOff _ _)).foldl (fun _ h1 _ => (h1.cellToOpen
      _)))))).foldl (fun _ h1 _ => (h1.endFsk _ _)))).canNodeMode).callCanCheck).withEvq _)

theorem KeepsForm.degradedLegs (h : KeepsForm c₀ c) : KeepsForm c₀ (Machine.degradedLegs c) := h.legsOff _ _

theorem KeepsForm.sentryLeft (h : KeepsForm c₀ c) : KeepsForm c₀ (Machine.sentryLeft c) := by
  unfold Machine.sentryLeft
  exact h.foldl (fun _ h1 _ => ((h1.startSettle _).ite h1))

theorem KeepsForm.callModeChange (h : KeepsForm c₀ c) (old m : Nat) : KeepsForm c₀ (Machine.callModeChange old m c) := by
  unfold Machine.callModeChange
  exact h.callOutputs.ite h

theorem KeepsForm.modeStart (h : KeepsForm c₀ c) (old m : Nat) : KeepsForm c₀ (Machine.modeStart old m c) := by
  unfold Machine.modeStart
  exact ((((((((h.sentryLeft.ite h).withGate _).ite (h.sentryLeft.ite h)).startLoops).ite (((h.sentryLeft.ite h).withGate _).ite
      (h.sentryLeft.ite h))).cellsGoLive).ite (((((h.sentryLeft.ite h).withGate _).ite (h.sentryLeft.ite h)).startLoops).ite
      (((h.sentryLeft.ite h).withGate _).ite (h.sentryLeft.ite h)))).loopsToManual).ite ((((((((((h.sentryLeft.ite h).withGate
      _).ite (h.sentryLeft.ite h)).startLoops).ite (((h.sentryLeft.ite h).withGate _).ite (h.sentryLeft.ite
      h))).cellsGoLive).ite (((((h.sentryLeft.ite h).withGate _).ite (h.sentryLeft.ite h)).startLoops).ite (((h.sentryLeft.ite
      h).withGate _).ite (h.sentryLeft.ite h)))).takeoverState).takeoverOutputs).ite ((((((((((h.sentryLeft.ite h).withGate
      _).ite (h.sentryLeft.ite h)).startLoops).ite (((h.sentryLeft.ite h).withGate _).ite (h.sentryLeft.ite
      h))).cellsGoLive).ite (((((h.sentryLeft.ite h).withGate _).ite (h.sentryLeft.ite h)).startLoops).ite (((h.sentryLeft.ite
      h).withGate _).ite (h.sentryLeft.ite h)))).modAlm _).modSdl _).ite (((((((((h.sentryLeft.ite h).withGate _).ite
      (h.sentryLeft.ite h)).startLoops).ite (((h.sentryLeft.ite h).withGate _).ite (h.sentryLeft.ite h))).cellsGoLive).ite
      (((((h.sentryLeft.ite h).withGate _).ite (h.sentryLeft.ite h)).startLoops).ite (((h.sentryLeft.ite h).withGate _).ite
      (h.sentryLeft.ite h)))).degradedLegs).ite (((((((((h.sentryLeft.ite h).withGate _).ite (h.sentryLeft.ite
      h)).startLoops).ite (((h.sentryLeft.ite h).withGate _).ite (h.sentryLeft.ite h))).cellsGoLive).ite (((((h.sentryLeft.ite
      h).withGate _).ite (h.sentryLeft.ite h)).startLoops).ite (((h.sentryLeft.ite h).withGate _).ite (h.sentryLeft.ite
      h)))).modSdl _).ite ((((((((((h.sentryLeft.ite h).withGate _).ite (h.sentryLeft.ite h)).startLoops).ite
      (((h.sentryLeft.ite h).withGate _).ite (h.sentryLeft.ite h))).cellsGoLive).ite (((((h.sentryLeft.ite h).withGate _).ite
      (h.sentryLeft.ite h)).startLoops).ite (((h.sentryLeft.ite h).withGate _).ite (h.sentryLeft.ite
      h)))).sentryCopy).sentryEnter).ite (((((((h.sentryLeft.ite h).withGate _).ite (h.sentryLeft.ite h)).startLoops).ite
      (((h.sentryLeft.ite h).withGate _).ite (h.sentryLeft.ite h))).cellsGoLive).ite (((((h.sentryLeft.ite h).withGate _).ite
      (h.sentryLeft.ite h)).startLoops).ite (((h.sentryLeft.ite h).withGate _).ite (h.sentryLeft.ite h)))))))))

theorem KeepsForm.enterMode (h : KeepsForm c₀ c) (m cause : Nat) : KeepsForm c₀ (Machine.enterMode c m cause) := by
  unfold Machine.enterMode
  exact (((((((((h.setReg _ _).modMode _).modSdl _).modeLeave _ _).modeStart _ _).callModeChange _ _).rotationChecks).unrefuse
      _).retarget).sptModeChange

theorem KeepsForm.modeAtOnce (h : KeepsForm c₀ c) (m cause : Nat) : KeepsForm c₀ (Machine.modeAtOnce c m cause) := by
  unfold Machine.modeAtOnce
  exact h.preempt.enterMode _ _

theorem KeepsForm.enterSafeHold (h : KeepsForm c₀ c) (cause : Nat) : KeepsForm c₀ (Machine.enterSafeHold c cause) := by
  unfold Machine.enterSafeHold
  exact h.ite (((((((h.modeAtOnce _ _).postError _ _ _).modeRecord).sdlSend _ _ _).sendRelease).modSdl _).ite (((h.modeAtOnce _
      _).postError _ _ _).modeRecord))

theorem KeepsForm.safeHoldOpen (h : KeepsForm c₀ c) : KeepsForm c₀ (Machine.safeHoldOpen c) := by
  unfold Machine.safeHoldOpen
  exact ((h.modMode _).foldl (fun _ h1 _ => (h1.cellToOpen _))).ite h

theorem KeepsForm.submitMode (h : KeepsForm c₀ c) (t : Nat) : KeepsForm c₀ (Machine.submitMode c t) := by
  unfold Machine.submitMode
  exact ((((h.modMode _).unrefuse _).ite (h.modMode _)).setReqStatus _).retarget

theorem KeepsForm.hookModeReq (h : KeepsForm c₀ c) (w : WriteCtx) : KeepsForm c₀ (Machine.hookModeReq w c) := by
  unfold Machine.hookModeReq
  exact (((((h.setFlag _ _ _).modMode _).setReqStatus _).retarget).ite ((h.setFlag _ _ _).submitMode _)).ite (h.setFlag _ _ _)

theorem KeepsForm.modeRequest (h : KeepsForm c₀ c) (fn : Fn) (v : Word) (be : BitVec 4) :
    KeepsForm c₀ (Machine.modeRequest c fn v be) := by
  unfold Machine.modeRequest
  exact h.writeWord _ _ _ _ _ (fun _ _ h1 => (h1.hookModeReq _))

theorem KeepsForm.reqLeaveLost (h : KeepsForm c₀ c) (n : Nat) : KeepsForm c₀ (Machine.reqLeaveLost c n) := by
  unfold Machine.reqLeaveLost
  split
  · exact (((h.modMode _).setReqStatus _).retarget).ite h
  · exact h

theorem KeepsForm.modeEffect (h : KeepsForm c₀ c) : KeepsForm c₀ (Machine.modeEffect c) := by
  unfold Machine.modeEffect
  dsimp only
  split
  · exact ((((h.preempt.enterMode _ _).modeRecord).modeEvent).ite (h.preempt.enterMode _ _)).ite h
  · split
    · exact (((h.modMode _).setReqStatus _).enterMode _ _).ite h
    · exact h

theorem KeepsForm.holdDependents (h : KeepsForm c₀ c) : KeepsForm c₀ (Machine.holdDependents c) := by
  unfold Machine.holdDependents
  exact (h.foldl (fun _ h1 _ => ((h1.writeHeld _ _).ite h1))).foldl (fun _ h1 _ => (((h1.writeHeld _ _).writeHeld _ _).ite h1))

theorem KeepsForm.tableFails (h : KeepsForm c₀ c) (code a : Nat) : KeepsForm c₀ (Machine.tableFails c code a) := by
  unfold Machine.tableFails
  exact ((((h.modMode _).holdDependents).modMode _).retarget).ite ((((h.modMode _).holdDependents).degradedLegs).ite ((h.modMode
      _).holdDependents))

theorem KeepsForm.tableReloaded (h : KeepsForm c₀ c) (code : Nat) : KeepsForm c₀ (Machine.tableReloaded c code) := by
  unfold Machine.tableReloaded
  exact ((((h.modMode _).modMode _).retarget).ite (h.modMode _)).ite h

theorem KeepsForm.sentryWake (h : KeepsForm c₀ c) : KeepsForm c₀ (Machine.sentryWake c) := by
  unfold Machine.sentryWake
  exact ((h.modMode _).retarget).ite h

/-! ## The twin -/

theorem KeepsForm.storeMirrored (h : KeepsForm c₀ c) (r : Rec) : KeepsForm c₀ (Machine.storeMirrored c r) := by
  unfold Machine.storeMirrored
  exact (((((h.overwrite _).setImage _ _).setReg _ _).freshPage _).programPair _).ite (((((h.overwrite _).setImage _ _).setReg _
      _).freshPage _).programTail _)

theorem KeepsForm.formForTwin (h : KeepsForm c₀ c) (r : Rec) : KeepsForm c₀ (Machine.formForTwin c r) := by
  unfold Machine.formForTwin
  exact h.loseFiring.ite ((h.holdFormed _).ite ((h.coalesceOr _ _ _).ite (h.enterRec _ _)))

theorem KeepsForm.takeoverCheck (h : KeepsForm c₀ c) : KeepsForm c₀ (Machine.takeoverCheck c) := by
  unfold Machine.takeoverCheck
  exact ((h.modMode _).sdlSend _ _ _).ite h

theorem KeepsForm.promote (h : KeepsForm c₀ c) (same : Bool) : KeepsForm c₀ (Machine.promote c same) := by
  unfold Machine.promote
  exact ((((((((((((((h.applyReady.ite h).modSdl _).modeAtOnce _ _).modeRecord).foldl (fun _ h1 _ => (h1.formForTwin
      _))).setFlag _ _ _).modeRecord).ite (((((h.applyReady.ite h).modSdl _).modeAtOnce _ _).modeRecord).foldl (fun _ h1 _ =>
      (h1.formForTwin _)))).setFld _ _ _ _).countFld _ _ _).takeFree).sdlEvent _).modeEvent).takeoverCheck).ite h

theorem KeepsForm.endSwitchback (h : KeepsForm c₀ c) (status : Nat) : KeepsForm c₀ (Machine.endSwitchback c status) :=
  h.completeWhere _ _

theorem KeepsForm.demoteCheck (h : KeepsForm c₀ c) : KeepsForm c₀ (Machine.demoteCheck c) := by
  unfold Machine.demoteCheck
  exact ((((((((h.withGate _).modeAtOnce _ _).modeRecord).sdlEvent _).sdlEvent _).modeEvent).modSdl _).endSwitchback _).ite h

theorem KeepsForm.setMixed (h : KeepsForm c₀ c) (b : Bool) : KeepsForm c₀ (Machine.setMixed c b) := h.setFlag _ _ _

theorem KeepsForm.sendResync (h : KeepsForm c₀ c) (kind : Nat) (body : List Byte) : KeepsForm c₀ (Machine.sendResync c kind body) :=
  h.sdlSend _ _ _

theorem KeepsForm.setResync (h : KeepsForm c₀ c) (reason step : Nat) : KeepsForm c₀ (Machine.setResync c reason step) :=
  h.setReg _ _

theorem KeepsForm.beginResync (h : KeepsForm c₀ c) : KeepsForm c₀ (Machine.beginResync c) := by
  unfold Machine.beginResync
  exact (((h.setResync _ _).modSdl _).setSync _).sendResync _ _

theorem KeepsForm.resyncAuto (h : KeepsForm c₀ c) (small : Bool) : KeepsForm c₀ (Machine.resyncAuto c small) := by
  unfold Machine.resyncAuto
  exact h.beginResync.ite (h.setResync _ _)

theorem KeepsForm.sendTable (h : KeepsForm c₀ c) (kind : Nat) (d : TableDesc) : KeepsForm c₀ (Machine.sendTable kind c d) := by
  unfold Machine.sendTable
  exact h.foldl (fun _ h1 _ => (h1.sdlSend _ _ _))

theorem KeepsForm.takeTable (h : KeepsForm c₀ c) (body : List Byte) : KeepsForm c₀ (Machine.takeTable c body) := by
  unfold Machine.takeTable
  dsimp only
  split
  · exact h
  · exact (((h.withTables (smWf_memClear _ _)).ite h).foldl (fun _ h1 _ => ((h1.withTables (smWf_memWrite _ _)).ite h1))).modSdl
        _

theorem KeepsForm.sendHeldSeqs (h : KeepsForm c₀ c) : KeepsForm c₀ (Machine.sendHeldSeqs c) := by
  unfold Machine.sendHeldSeqs
  exact h.foldl (fun _ h1 _ => (h1.sendResync _ _))

theorem KeepsForm.sendLacking (h : KeepsForm c₀ c) (body : List Byte) : KeepsForm c₀ (Machine.sendLacking c body) := by
  unfold Machine.sendLacking
  exact h.foldl (fun _ h1 _ => (h1.sendResync _ _))

theorem KeepsForm.pendTable (h : KeepsForm c₀ c) (code : Nat) : KeepsForm c₀ (Machine.pendTable c code) := by
  unfold Machine.pendTable
  split
  · exact h.setFlag _ _ _
  · exact h

theorem KeepsForm.refuseSync (h : KeepsForm c₀ c) (reason : Nat) : KeepsForm c₀ (Machine.refuseSync c reason) := by
  unfold Machine.refuseSync
  exact (h.setResync _ _).setSync _

theorem KeepsForm.resyncStepEnd (h : KeepsForm c₀ c) : KeepsForm c₀ (Machine.resyncStepEnd c) := by
  unfold Machine.resyncStepEnd
  dsimp only
  refine KeepsForm.ite ?_ h
  split
  · split
    · exact h
    · exact (h.refuseSync _).ite ((h.refuseSync _).ite (((((h.setMixed _).ite h).setResync _ _).sendHeldSeqs).ite ((((h.setMixed
          _).ite h).setResync _ _).sendResync _ _)))
  · exact (((h.foldl (fun _ h1 _ => (h1.pendTable _))).setResync _ _).sendHeldSeqs).ite h
  · exact (h.modSdl _).setResync _ _
  · refine KeepsForm.ite ?_ h
    split
    · exact (((h.modSdl _).setResync _ _).setSync _).ite ((((h.modSdl _).setResync _ _).setSync _).setMixed _)
    · exact ((h.modSdl _).setResync _ _).setSync _
  · exact h

theorem KeepsForm.takeRequest (h : KeepsForm c₀ c) (body : List Byte) : KeepsForm c₀ (Machine.takeRequest c body) := by
  unfold Machine.takeRequest
  exact (((h.modSdl _).setMixed _).ite (h.modSdl _)).sendResync _ _

theorem KeepsForm.takeIdentity (h : KeepsForm c₀ c) (body : List Byte) : KeepsForm c₀ (Machine.takeIdentity c body) := by
  unfold Machine.takeIdentity
  exact ((h.modSdl _).resyncAuto _).ite (h.modSdl _)

theorem KeepsForm.takeResync (h : KeepsForm c₀ c) (data : List Byte) : KeepsForm c₀ (Machine.takeResync c data) := by
  unfold Machine.takeResync
  dsimp only
  split
  · exact (h.takeRequest _).ite h
  · exact (h.takeIdentity _).ite h
  · exact (h.foldl (fun _ h1 _ => (h1.sendTable _ _))).ite h
  · exact (h.takeTable _).ite h
  · exact (h.sendLacking _).ite h
  · exact (h.foldl (fun _ h1 _ => (h1.storeMirrored _))).ite h
  · exact (h.refuseSync _).ite h
  · exact (h.takeTable _).ite h
  · exact h

theorem KeepsForm.shareSwap (h : KeepsForm c₀ c) (code : Nat) : KeepsForm c₀ (Machine.shareSwap c code) := by
  unfold Machine.shareSwap
  split
  · exact (h.foldl (fun _ h1 _ => (h1.sdlSend _ _ _))).ite h
  · exact h

theorem KeepsForm.tellSwap (h : KeepsForm c₀ c) (code : Nat) : KeepsForm c₀ (Machine.tellSwap c code) := by
  unfold Machine.tellSwap
  exact (h.modSdl _).ite h

theorem KeepsForm.swapsDue (h : KeepsForm c₀ c) : KeepsForm c₀ (Machine.swapsDue c) := by
  unfold Machine.swapsDue
  dsimp only
  split
  · exact (h.modSdl _).foldl (fun _ h1 _ => (h1.pendTable _))
  · exact h

theorem KeepsForm.hookSdlUpd (h : KeepsForm c₀ c) (w : WriteCtx) : KeepsForm c₀ (Machine.hookSdlUpd w c) := by
  unfold Machine.hookSdlUpd
  exact ((h.refuseSync _).ite ((h.sendResync _ _).ite h)).ite h

theorem KeepsForm.allowWrite (h : KeepsForm c₀ c) (fn : Fn) (v : Word) (be : BitVec 4) :
    KeepsForm c₀ (Machine.allowWrite c fn v be) := by
  unfold Machine.allowWrite
  exact h.writeWord _ _ _ _ _ (fun _ _ h1 => (h1.hookSdlUpd _))

theorem KeepsForm.contactGain (h : KeepsForm c₀ c) : KeepsForm c₀ (Machine.contactGain c) := by
  unfold Machine.contactGain
  exact ((h.modSdl _).sdlSync).sdlEvent _

theorem KeepsForm.ackIn (h : KeepsForm c₀ c) (ack : Nat) : KeepsForm c₀ (Machine.ackIn c ack) := by
  unfold Machine.ackIn
  exact (((h.modSdl _).sdlPump).ite ((h.modSdl _).contactGain)).ite h

theorem KeepsForm.peerUpdate (h : KeepsForm c₀ c) (flags : Nat) : KeepsForm c₀ (Machine.peerUpdate c flags) := by
  unfold Machine.peerUpdate
  dsimp only
  refine KeepsForm.ite ?_ ((((h.modSdl _).modSdl _).sendResync _ _).ite (h.modSdl _))
  refine KeepsForm.ite ?_ (((h.modSdl _).setSync _).ite (h.modSdl _))
  split
  · exact ((h.modSdl _).setSync _).ite (((h.modSdl _).setSync _).setMixed _)
  · exact (h.modSdl _).setSync _

theorem KeepsForm.receive (hc : KeepsForm c₀ c) (h : SaddleHdr) (data : List Byte) (sync : Bool) (act : Chip → Chip) (hact : ∀
    (x0 : Chip) (_ : KeepsForm c₀ x0), KeepsForm c₀ (act x0)) :
    KeepsForm c₀ (Machine.receive c h data sync act) := by
  unfold Machine.receive
  exact hc.ite ((hact _ (((hc.ackIn _).modSdl _).peerUpdate _)).ite (((hc.ackIn _).countFld _ _ _).ite ((hc.ackIn _).countFld _
      _ _)))

theorem KeepsForm.rxHeartbeat (hc : KeepsForm c₀ c) (h : SaddleHdr) (data : List Byte) :
    KeepsForm c₀ (Machine.rxHeartbeat c h data) := by
  unfold Machine.rxHeartbeat
  exact hc.receive _ _ _ _ (fun _ h1 => (h1.promote _))

theorem KeepsForm.rxSync (hc : KeepsForm c₀ c) (h : SaddleHdr) (data : List Byte) : KeepsForm c₀ (Machine.rxSync c h data) := by
  unfold Machine.rxSync
  exact hc.receive _ _ _ _ (fun _ h1 => (h1.promote _))

theorem KeepsForm.takeMirror (h : KeepsForm c₀ c) (set : Nat) (data : List Byte) : KeepsForm c₀ (Machine.takeMirror c set data)
    := by
  unfold Machine.takeMirror
  exact (h.modSdl _).ite h

theorem KeepsForm.rxMirror (hc : KeepsForm c₀ c) (h : SaddleHdr) (data : List Byte) : KeepsForm c₀ (Machine.rxMirror c h data)
    := by
  unfold Machine.rxMirror
  exact hc.receive _ _ _ _ (fun _ h1 => ((h1.takeMirror _ _).promote _))

theorem KeepsForm.takeCommit (h : KeepsForm c₀ c) (set : Nat) (data : List Byte) : KeepsForm c₀ (Machine.takeCommit c set data)
    := by
  unfold Machine.takeCommit
  exact (((h.modSdl _).modSdl _).ite ((h.modSdl _).countFld _ _ _)).ite h

theorem KeepsForm.rxCommit (hc : KeepsForm c₀ c) (h : SaddleHdr) (data : List Byte) : KeepsForm c₀ (Machine.rxCommit c h data)
    := by
  unfold Machine.rxCommit
  exact hc.receive _ _ _ _ (fun _ h1 => ((h1.takeCommit _ _).promote _))

theorem KeepsForm.takeRecords (h : KeepsForm c₀ c) (data : List Byte) : KeepsForm c₀ (Machine.takeRecords c data) := by
  unfold Machine.takeRecords
  exact (h.foldl (fun _ h1 _ => (h1.storeMirrored _))).ite ((h.foldl (fun _ h1 _ => (h1.formForTwin _))).ite h)

theorem KeepsForm.rxRecord (hc : KeepsForm c₀ c) (h : SaddleHdr) (data : List Byte) : KeepsForm c₀ (Machine.rxRecord c h data)
    := by
  unfold Machine.rxRecord
  exact hc.receive _ _ _ _ (fun _ h1 => ((h1.takeRecords _).promote _))

theorem KeepsForm.rxResync (hc : KeepsForm c₀ c) (h : SaddleHdr) (data : List Byte) : KeepsForm c₀ (Machine.rxResync c h data)
    := by
  unfold Machine.rxResync
  exact hc.receive _ _ _ _ (fun _ h1 => ((h1.takeResync _).promote _))

theorem KeepsForm.rxFailed (hc : KeepsForm c₀ c) (h : SaddleHdr) (data : List Byte) : KeepsForm c₀ (Machine.rxFailed c h data)
    := by
  unfold Machine.rxFailed
  exact hc.receive _ _ _ _ (fun _ h1 => (((h1.modSdl _).sdlEvent _).promote _))

theorem KeepsForm.rxHandover (hc : KeepsForm c₀ c) (h : SaddleHdr) (data : List Byte) : KeepsForm c₀ (Machine.rxHandover c h
    data) := by
  unfold Machine.rxHandover
  exact hc.receive _ _ _ _ (fun _ h1 => ((h1.modSdl _).promote _))

theorem KeepsForm.leaveActive (h : KeepsForm c₀ c) (status : Nat) : KeepsForm c₀ (Machine.leaveActive c status) := by
  unfold Machine.leaveActive
  exact ((h.modSdl _).modeAtOnce _ _).endSwitchback _

theorem KeepsForm.takeTaken (h : KeepsForm c₀ c) : KeepsForm c₀ (Machine.takeTaken c) := by
  unfold Machine.takeTaken
  exact ((h.modMode _).foldl (fun _ h1 _ => (h1.cellToOpen _))).ite ((h.leaveActive _).ite h)

theorem KeepsForm.rxTaken (hc : KeepsForm c₀ c) (h : SaddleHdr) (data : List Byte) : KeepsForm c₀ (Machine.rxTaken c h data) :=
    by
  unfold Machine.rxTaken
  exact hc.receive _ _ _ _ (fun _ h1 => h1.takeTaken)

theorem KeepsForm.contactLoss (h : KeepsForm c₀ c) : KeepsForm c₀ (Machine.contactLoss c) := by
  unfold Machine.contactLoss
  exact ((((((h.modSdl _).sdlEvent _).setSync _).ite ((h.modSdl _).sdlEvent _)).demoteCheck).promote _).ite h

theorem KeepsForm.leaseRequestTimer (h : KeepsForm c₀ c) : KeepsForm c₀ (Machine.leaseRequestTimer c) := by
  unfold Machine.leaseRequestTimer
  exact ((h.modSdl _).sendLease _ _).ite h

theorem KeepsForm.dropAsked (h : KeepsForm c₀ c) (data : List Byte) : KeepsForm c₀ (Machine.dropAsked c data) := h.modSdl _

theorem KeepsForm.leaseGranted (h : KeepsForm c₀ c) (data : List Byte) : KeepsForm c₀ (Machine.leaseGranted c data) := by
  unfold Machine.leaseGranted
  dsimp only
  refine KeepsForm.ite ?_ h
  split
  · exact h
  · exact (h.dropAsked _).ite (((((h.dropAsked _).modSdl _).sdlEvent _).ite ((h.dropAsked _).modSdl _)).promote _)

theorem KeepsForm.leaseDenied (h : KeepsForm c₀ c) (data : List Byte) : KeepsForm c₀ (Machine.leaseDenied c data) := by
  unfold Machine.leaseDenied
  refine KeepsForm.ite ?_ h
  split
  · exact (h.dropAsked _).modSdl _
  · exact h

theorem KeepsForm.leaseExpiry (h : KeepsForm c₀ c) : KeepsForm c₀ (Machine.leaseExpiry c) := by
  unfold Machine.leaseExpiry
  exact (((h.modSdl _).sdlEvent _).demoteCheck).ite (((h.modSdl _).sdlEvent _).ite h)

theorem KeepsForm.arbGrant (h : KeepsForm c₀ c) (port : Nat) (data : List Byte) : KeepsForm c₀ (Machine.arbGrant c port data) :=
    by
  unfold Machine.arbGrant
  exact (h.modSdl _).sendLease _ _

theorem KeepsForm.leaseRequested (h : KeepsForm c₀ c) (port : Nat) (data : List Byte) :
    KeepsForm c₀ (Machine.leaseRequested c port data) := by
  unfold Machine.leaseRequested
  exact ((h.arbGrant _ _).ite ((((h.modSdl _).countFld _ _ _).arbGrant _ _).ite (((h.countFld _ _ _).sendLease _
      _).takeFree))).ite h

theorem KeepsForm.arbEnd (h : KeepsForm c₀ c) : KeepsForm c₀ (Machine.arbEnd c) := h.modSdl _

theorem KeepsForm.leaseRequests (h : KeepsForm c₀ c) (at_ : LeaseAt) (data : List Byte) :
    KeepsForm c₀ (Machine.leaseRequests c at_ data) := by
  unfold Machine.leaseRequests
  split
  · exact h.leaseRequested _ _
  · exact ((h.leaseRequested _ _).leaseRequested _ _).ite ((h.leaseRequested _ _).leaseRequested _ _)

theorem KeepsForm.leaseReleased (h : KeepsForm c₀ c) (_port : Nat) (data : List Byte) :
    KeepsForm c₀ (Machine.leaseReleased c _port data) := by
  unfold Machine.leaseReleased
  exact h.arbEnd.ite h

theorem KeepsForm.arbiterLeaseEnd (h : KeepsForm c₀ c) : KeepsForm c₀ (Machine.arbiterLeaseEnd c) := by
  unfold Machine.arbiterLeaseEnd
  exact h.arbEnd.ite h

theorem KeepsForm.arbiterHoldoffEnd (h : KeepsForm c₀ c) : KeepsForm c₀ (Machine.arbiterHoldoffEnd c) := by
  unfold Machine.arbiterHoldoffEnd
  exact (h.modSdl _).ite h

theorem KeepsForm.sdlResync (h : KeepsForm c₀ c) : KeepsForm c₀ (Machine.sdlResync c).1 := by
  unfold Machine.sdlResync
  exact KeepsForm.iteFst (KeepsForm.iteFst h.fst h.fst) (KeepsForm.iteFst h.fst h.beginResync.fst)

theorem KeepsForm.switchbackBegin (h : KeepsForm c₀ c) : KeepsForm c₀ (Machine.switchbackBegin c) := h.modSdl _

theorem KeepsForm.switchbackFrame (h : KeepsForm c₀ c) : KeepsForm c₀ (Machine.switchbackFrame c) := by
  unfold Machine.switchbackFrame
  exact (((h.sendSet.sdlSend _ _ _).sendRelease).modSdl _).ite h

theorem KeepsForm.switchbackTimeout (h : KeepsForm c₀ c) : KeepsForm c₀ (Machine.switchbackTimeout c) := by
  unfold Machine.switchbackTimeout
  exact (h.leaveActive _).ite h

end Sys2Proof.Machine
end

section
-- One proof at a time: every thread takes a stack of its own from the memory that a compile has.
set_option Elab.async false
/-! SUPPORT. The canonical form (log 3) is kept by the operations of tables, images, microcode, JTAG, the host port and start-up. -/

namespace Sys2Proof.Machine

variable {c₀ c : Chip}

/-! ## Units and exponents that the tables and registers in force give the points -/

theorem KeepsForm.hookPiScale (h : KeepsForm c₀ c) (w : WriteCtx) : KeepsForm c₀ (Machine.hookPiScale w c) := by
  unfold Machine.hookPiScale
  exact (((h.unwrite _).setFlag _ _ _).postError _ _ _).ite h

theorem KeepsForm.endRawSubst (h : KeepsForm c₀ c) : KeepsForm c₀ (Machine.endRawSubst c) := by
  unfold Machine.endRawSubst
  exact h.foldl (fun _ h1 _ => ((h1.setPoint _ _).ite h1))

/-! ## Load checks of every table but the scan table, and the check of a swap against the tables that will be in force at its boundary -/

theorem KeepsForm.withSwaps (h : KeepsForm c₀ c) (codes : List Nat) : KeepsForm c₀ (Machine.withSwaps c codes) := by
  unfold Machine.withSwaps
  exact h.foldl (fun _ h1 _ => ((h1.setFld _ _ _ _).ite h1))

theorem KeepsForm.loadSeqErr (h : KeepsForm c₀ c) (e : LoadErr) : KeepsForm c₀ (Machine.loadSeqErr c e) := by
  unfold Machine.loadSeqErr
  exact h.ite (h.setReg _ _)

/-! ## Diagnostic commands, node-fatal faults and memory errors -/

theorem KeepsForm.modDiag (h : KeepsForm c₀ c) (f : DiagSt → DiagSt) : KeepsForm c₀ (Machine.modDiag c f) := h.withDiag _

theorem KeepsForm.diagPop (h : KeepsForm c₀ c) : KeepsForm c₀ (Machine.diagPop c) := h.modDiag _

theorem KeepsForm.diagPurge (h : KeepsForm c₀ c) : KeepsForm c₀ (Machine.diagPurge c) := by
  unfold Machine.diagPurge
  exact h.modDiag _

theorem KeepsForm.hookDiagCtl (h : KeepsForm c₀ c) (w : WriteCtx) : KeepsForm c₀ (Machine.hookDiagCtl w c) := by
  unfold Machine.hookDiagCtl
  exact ((h.diagPop.ite h).diagPurge).ite (h.diagPop.ite h)

theorem KeepsForm.clearOcc (h : KeepsForm c₀ c) (m : Nat) : KeepsForm c₀ (Machine.clearOcc c m) := by
  unfold Machine.clearOcc
  dsimp only
  split
  · exact h.modDiag _
  · exact (h.modDiag _).ite h

theorem KeepsForm.diagNext (h : KeepsForm c₀ c) : KeepsForm c₀ (Machine.diagNext c) := by
  unfold Machine.diagNext
  exact h.setReg _ _

theorem KeepsForm.hookDiagCnt (h : KeepsForm c₀ c) (w : WriteCtx) : KeepsForm c₀ (Machine.hookDiagCnt w c) := by
  unfold Machine.hookDiagCnt
  exact (((h.setReg _ _).clearOcc _).diagNext).ite ((h.setReg _ _).clearOcc _)

theorem KeepsForm.popWrite (h : KeepsForm c₀ c) (fn : Fn) (v : Word) (be : BitVec 4) : KeepsForm c₀ (Machine.popWrite c fn v be)
    := by
  unfold Machine.popWrite
  exact h.writeWord _ _ _ _ _ (fun _ _ h1 => (h1.hookDiagCtl _))

theorem KeepsForm.purgeWrite (h : KeepsForm c₀ c) (fn : Fn) (v : Word) (be : BitVec 4) :
    KeepsForm c₀ (Machine.purgeWrite c fn v be) := by
  unfold Machine.purgeWrite
  exact h.writeWord _ _ _ _ _ (fun _ _ h1 => (h1.hookDiagCtl _))

theorem KeepsForm.nextWrite (h : KeepsForm c₀ c) (fn : Fn) (v : Word) (be : BitVec 4) : KeepsForm c₀ (Machine.nextWrite c fn v
    be) := by
  unfold Machine.nextWrite
  exact h.writeWord _ _ _ _ _ (fun _ _ h1 => (h1.hookDiagCnt _))

theorem KeepsForm.nodeFatal (h : KeepsForm c₀ c) (cause : Nat) : KeepsForm c₀ (Machine.nodeFatal c cause) := by
  unfold Machine.nodeFatal
  exact (((h.postError _ _ _).enterSafeHold _).ite (h.withMode _)).ite h

theorem KeepsForm.countEcc (h : KeepsForm c₀ c) (uncorr : Bool) : KeepsForm c₀ (Machine.countEcc c uncorr) := h.countFld _ _ _

theorem KeepsForm.frameMemBad (h : KeepsForm c₀ c) (addr : Nat) : KeepsForm c₀ (Machine.frameMemBad c addr) := by
  unfold Machine.frameMemBad
  exact ((h.setPoint _ _).postError _ _ _).ite (h.postError _ _ _)

theorem KeepsForm.tableMemBad (h : KeepsForm c₀ c) (addr : Nat) : KeepsForm c₀ (Machine.tableMemBad c addr) := by
  unfold Machine.tableMemBad
  dsimp only
  split
  · exact (((h.postError _ _ _).faultEvent _ _ _ _).tableFails _ _).ite ((h.postError _ _ _).faultEvent _ _ _ _)
  · exact (h.postError _ _ _).faultEvent _ _ _ _

theorem KeepsForm.sramItemLost (h : KeepsForm c₀ c) (use : Nat) : KeepsForm c₀ (Machine.sramItemLost c use) := by
  unfold Machine.sramItemLost
  dsimp only
  split
  · split
    · exact (h.modFn _ _).gapOne _ _ _
    · exact h
  · exact ((h.modFn _ _).recLoss _ _).ite h
  · exact h

theorem KeepsForm.bufferItemLost (h : KeepsForm c₀ c) (use : Nat) : KeepsForm c₀ (Machine.bufferItemLost c use) := by
  unfold Machine.bufferItemLost
  dsimp only
  split
  · exact h.gapOne _ _ _
  · exact h.recLoss _ _
  · exact ((h.modDiag _).setReg _ _).ite h
  · exact ((h.modCan _ _).countFld _ _ _).ite h

theorem KeepsForm.nvmPageBad (h : KeepsForm c₀ c) (page : Nat) : KeepsForm c₀ (Machine.nvmPageBad c page) := by
  unfold Machine.nvmPageBad
  exact (h.withImg _).ite ((h.withRcd _).ite ((h.withRcd _).ite ((h.withRcd _).ite h)))

theorem KeepsForm.progMemBad (h : KeepsForm c₀ c) (i : Nat) : KeepsForm c₀ (Machine.progMemBad c i) := by
  unfold Machine.progMemBad
  exact h.foldl (fun _ h1 _ => ((h1.haltDp _ _).ite h1))

theorem KeepsForm.scrub (h : KeepsForm c₀ c) (region addr err : Nat) : KeepsForm c₀ (Machine.scrub c region addr err) := by
  unfold Machine.scrub
  dsimp only
  refine h.ite ?_
  refine ((h.countEcc _).postError _ _ _).ite ?_
  split
  · exact ((h.countEcc _).sramItemLost _).postError _ _ _
  · exact (h.countEcc _).frameMemBad _
  · exact (h.countEcc _).tableMemBad _
  · exact ((h.countEcc _).postError _ _ _).nodeFatal _
  · exact ((h.countEcc _).nvmPageBad _).postError _ _ _
  · exact ((h.countEcc _).bufferItemLost _).postError _ _ _
  · exact ((h.countEcc _).progMemBad _).postError _ _ _

/-! ## User images -/

theorem KeepsForm.loadCopy (h : KeepsForm c₀ c) (d : TableDesc) (copy : Nat) (bs : Option (List Byte)) :
    KeepsForm c₀ (Machine.loadCopy c d copy bs) := by
  cases bs with
  | some xs => exact h.withTables (smWf_memLoad _ _ _)
  | none => exact h.withTables (smWf_memClear _ _)

theorem KeepsForm.loadAllTables (h : KeepsForm c₀ c) (b : Nat) (copy : Chip → TableDesc → Nat) :
    KeepsForm c₀ (Machine.loadAllTables c b copy) := by
  unfold Machine.loadAllTables
  exact h.foldl (fun _ h1 _ => (h1.loadCopy _ _ _))

theorem KeepsForm.setDefault (h : KeepsForm c₀ c) (off v : Nat) : KeepsForm c₀ (Machine.setDefault c off v) := by
  unfold Machine.setDefault
  split
  · exact h.foldl (fun _ h1 _ => (h1.setFld _ _ _ _))
  · exact h

theorem KeepsForm.userToDefault (h : KeepsForm c₀ c) (off : Nat) : KeepsForm c₀ (Machine.userToDefault c off) := by
  unfold Machine.userToDefault
  split
  · exact h.foldl (fun _ h1 _ => (h1.setFld _ _ _ _))
  · exact h

theorem KeepsForm.loadDefaults (h : KeepsForm c₀ c) (b : Nat) : KeepsForm c₀ (Machine.loadDefaults c b) := by
  unfold Machine.loadDefaults
  split
  · exact h.foldl (fun _ h1 _ => (h1.setDefault _ _))
  · exact h

theorem KeepsForm.reloadDefaults (h : KeepsForm c₀ c) (lo hi : Nat) : KeepsForm c₀ (Machine.reloadDefaults c lo hi) := by
  unfold Machine.reloadDefaults
  dsimp only
  split
  · exact h.foldl (fun _ h1 _ => (h1.setDefault _ _))
  · exact h

theorem KeepsForm.imageCandidate (h : KeepsForm c₀ c) (b : Nat) : KeepsForm c₀ (Machine.imageCandidate c b) := by
  unfold Machine.imageCandidate
  dsimp only
  refine KeepsForm.loadDefaults ?_ _
  refine KeepsForm.loadAllTables ?_ _ _
  exact ((h.withRegs (fun _ => rfl)).withTables (fun _ => rfl)).keep rfl rfl rfl rfl rfl

theorem KeepsForm.loadImage (h : KeepsForm c₀ c) (s : Selection) : KeepsForm c₀ (Machine.loadImage c s) := by
  unfold Machine.loadImage
  dsimp only
  refine KeepsForm.ite ?_ ?_
  · refine KeepsForm.postErrorSev ?_ _ _ _ _ _
    split
    · exact (((((h.loadAllTables _ _).loadDefaults _).setReg _ _).withImg _).setReg _ _).loadSeqErr _
    · exact ((((h.loadAllTables _ _).loadDefaults _).setReg _ _).withImg _).setReg _ _
  · split
    · exact (((((h.loadAllTables _ _).loadDefaults _).setReg _ _).withImg _).setReg _ _).loadSeqErr _
    · exact ((((h.loadAllTables _ _).loadDefaults _).setReg _ _).withImg _).setReg _ _

theorem KeepsForm.setImgResult (h : KeepsForm c₀ c) (r : Nat) : KeepsForm c₀ (Machine.setImgResult c r) := h.setFld _ _ _ _

theorem KeepsForm.hookImgCmd (h : KeepsForm c₀ c) (w : WriteCtx) : KeepsForm c₀ (Machine.hookImgCmd w c) := by
  unfold Machine.hookImgCmd
  exact (h.setFlag _ _ _).ite ((h.setFlag _ _ _).ite (((h.setFlag _ _ _).setImgResult _).ite (((h.setFlag _ _ _).setImgResult
      _).ite (((h.setFlag _ _ _).setImgResult _).ite ((((h.setFlag _ _ _).withImg _).setFlag _ _ _).setImgResult _)))))

theorem KeepsForm.imgCmdWrite (h : KeepsForm c₀ c) (fn : Fn) (v : Word) (be : BitVec 4) :
    KeepsForm c₀ (Machine.imgCmdWrite c fn v be) := by
  unfold Machine.imgCmdWrite
  exact h.writeWord _ _ _ _ _ (fun _ _ h1 => (h1.hookImgCmd _))

theorem KeepsForm.eraseBank (h : KeepsForm c₀ c) (b : Nat) : KeepsForm c₀ (Machine.eraseBank c b) := by
  unfold Machine.eraseBank
  exact (h.withNvm (smWf_memClear _ _)).keep rfl rfl rfl rfl rfl

theorem KeepsForm.commitBank (h : KeepsForm c₀ c) (b : Nat) : KeepsForm c₀ (Machine.commitBank c b) := by
  unfold Machine.commitBank
  dsimp only
  refine (h.takeFree.setImgResult _).ite ?_
  refine KeepsForm.nodeRec ?_ _ _ _
  exact (h.withNvm (smWf_memWrite _ _)).keep rfl rfl rfl rfl rfl

theorem KeepsForm.imageOpDone (h : KeepsForm c₀ c) : KeepsForm c₀ (Machine.imageOpDone c) := by
  unfold Machine.imageOpDone
  dsimp only
  split
  · exact h
  · exact ((((h.withImg _).setFlag _ _ _).setImgResult _).eraseBank _).ite (((((h.withImg _).setFlag _ _ _).setImgResult
        _).withImg _).commitBank _)

theorem KeepsForm.imageApply (h : KeepsForm c₀ c) : KeepsForm c₀ (Machine.imageApply c) := by
  unfold Machine.imageApply
  dsimp only
  refine (h.setFld _ _ _ _).ite ?_
  split
  · exact (((h.loadAllTables _ _).loadSeqErr _).setFld _ _ _ _).setFld _ _ _ _
  · exact (((h.loadAllTables _ _).withImg _).setFld _ _ _ _).foldl (fun _ h1 _ => ((h1.setFlag _ _ _).shareSwap _))

theorem KeepsForm.hookApply (h : KeepsForm c₀ c) (w : WriteCtx) : KeepsForm c₀ (Machine.hookApply w c) := by
  unfold Machine.hookApply
  exact ((h.setFlag _ _ _).imageApply).ite (h.setFlag _ _ _)

theorem KeepsForm.applyWrite (h : KeepsForm c₀ c) (fn : Fn) (v : Word) (be : BitVec 4) :
    KeepsForm c₀ (Machine.applyWrite c fn v be) := by
  unfold Machine.applyWrite
  exact h.writeWord _ _ _ _ _ (fun _ _ h1 => (h1.hookApply _))

theorem KeepsForm.applyDone (h : KeepsForm c₀ c) : KeepsForm c₀ (Machine.applyDone c) := by
  unfold Machine.applyDone
  dsimp only
  split
  · exact (((h.withImg _).setFld _ _ _ _).setFld _ _ _ _).setFlag _ _ _
  · exact h

/-! ## Engine microcode -/

theorem KeepsForm.modUpd (h : KeepsForm c₀ c) (f : UpdSt → UpdSt) : KeepsForm c₀ (Machine.modUpd c f) := h.withUpd _

theorem KeepsForm.setUcForce (h : KeepsForm c₀ c) (e : Nat) (p : Option (List Byte)) : KeepsForm c₀ (Machine.setUcForce c e p) :=
  h.modUpd _

theorem KeepsForm.setUcResult (h : KeepsForm c₀ c) (r : Nat) : KeepsForm c₀ (Machine.setUcResult c r) := h.setFld _ _ _ _

theorem KeepsForm.setUcSrc (h : KeepsForm c₀ c) (e s : Nat) : KeepsForm c₀ (Machine.setUcSrc c e s) := h.setFld _ _ _ _

theorem KeepsForm.showVersion (h : KeepsForm c₀ c) (e : Nat) : KeepsForm c₀ (Machine.showVersion c e) := h.setFld _ _ _ _

theorem KeepsForm.ucOpen (h : KeepsForm c₀ c) (e : Nat) : KeepsForm c₀ (Machine.ucOpen c e) := by
  unfold Machine.ucOpen
  exact (h.modUpd _).setFld _ _ _ _

theorem KeepsForm.hookUcData (h : KeepsForm c₀ c) (w : WriteCtx) : KeepsForm c₀ (Machine.hookUcData w c) := by
  unfold Machine.hookUcData
  exact h.ite ((((h.setFlag _ _ _).ite h).modUpd _).setFld _ _ _ _)

theorem KeepsForm.ucApply (h : KeepsForm c₀ c) (e : Nat) : KeepsForm c₀ (Machine.ucApply c e) := by
  unfold Machine.ucApply
  exact (h.setUcResult _).ite ((h.setUcResult _).ite (((h.modUpd _).setFlag _ _ _).setUcResult _))

theorem KeepsForm.ucStoreEnd (h : KeepsForm c₀ c) (e : Nat) : KeepsForm c₀ (Machine.ucStoreEnd c e) := by
  unfold Machine.ucStoreEnd
  exact (h.modUpd _).setUcSrc _ _

theorem KeepsForm.ucEraseEnd (h : KeepsForm c₀ c) (e : Nat) : KeepsForm c₀ (Machine.ucEraseEnd c e) := by
  unfold Machine.ucEraseEnd
  exact (h.modUpd _).ite ((h.modUpd _).setUcSrc _ _)

theorem KeepsForm.ucStoreDone (h : KeepsForm c₀ c) : KeepsForm c₀ (Machine.ucStoreDone c) := by
  unfold Machine.ucStoreDone
  dsimp only
  split
  · exact ((((h.modUpd _).setFlag _ _ _).setUcResult _).ucStoreEnd _).ite ((((h.modUpd _).setFlag _ _ _).setUcResult
        _).ucEraseEnd _)
  · exact h

theorem KeepsForm.ucOp (h : KeepsForm c₀ c) (op e : Nat) : KeepsForm c₀ (Machine.ucOp c op e) := by
  unfold Machine.ucOp
  refine (h.setUcResult _).ite ?_
  refine (h.setUcResult _).ite ?_
  split
  · exact (h.ucOpen _).setUcResult _
  · exact h.ucApply _
  · exact ((h.modUpd _).setFlag _ _ _).setUcResult _
  · exact ((h.modUpd _).setFlag _ _ _).setUcResult _
  · exact h.setUcResult _

theorem KeepsForm.hookUcCtl (h : KeepsForm c₀ c) (w : WriteCtx) : KeepsForm c₀ (Machine.hookUcCtl w c) := by
  unfold Machine.hookUcCtl
  exact (h.setFlag _ _ _).ite ((h.setFlag _ _ _).ite (((h.setFlag _ _ _).setUcResult _).ite ((h.setFlag _ _ _).ucOp _ _)))

theorem KeepsForm.ucCtlWrite (h : KeepsForm c₀ c) (fn : Fn) (v : Word) (be : BitVec 4) :
    KeepsForm c₀ (Machine.ucCtlWrite c fn v be) := by
  unfold Machine.ucCtlWrite
  exact h.writeWord _ _ _ _ _ (fun _ _ h1 => (h1.hookUcCtl _))

theorem KeepsForm.ucDataWrite (h : KeepsForm c₀ c) (fn : Fn) (v : Word) (be : BitVec 4) :
    KeepsForm c₀ (Machine.ucDataWrite c fn v be) := by
  unfold Machine.ucDataWrite
  exact h.writeWord _ _ _ _ _ (fun _ _ h1 => (h1.hookUcData _))

theorem KeepsForm.ucSwap (h : KeepsForm c₀ c) : KeepsForm c₀ (Machine.ucSwap c) := by
  unfold Machine.ucSwap
  dsimp only
  refine KeepsForm.setFlag ?_ _ _ _
  split
  · refine KeepsForm.showVersion ?_ _
    refine KeepsForm.setUcSrc ?_ _ _
    refine KeepsForm.modUpd ?_ _
    split
    · exact ((h.modUpd _).setUcSrc _ _).showVersion _
    · exact h
  · split
    · exact ((h.modUpd _).setUcSrc _ _).showVersion _
    · exact h

theorem KeepsForm.ucDomainOn (h : KeepsForm c₀ c) (e : Nat) : KeepsForm c₀ (Machine.ucDomainOn c e) := by
  unfold Machine.ucDomainOn
  dsimp only
  split
  · exact ((h.setUcForce _ _).setUcSrc _ _).showVersion _
  · exact ((h.setUcForce _ _).setUcSrc _ _).showVersion _

theorem KeepsForm.ucDomainOff (h : KeepsForm c₀ c) (e : Nat) : KeepsForm c₀ (Machine.ucDomainOff c e) := by
  unfold Machine.ucDomainOff
  exact (h.modUpd _).setFlag _ _ _

/-! ## The JTAG port -/

theorem KeepsForm.modJtag (h : KeepsForm c₀ c) (f : JtagSt → JtagSt) : KeepsForm c₀ (Machine.modJtag c f) := h.withJtag _

theorem KeepsForm.captureBoundary (h : KeepsForm c₀ c) : KeepsForm c₀ (Machine.captureBoundary c) := by
  unfold Machine.captureBoundary
  exact (h.modJtag _).withFree _

theorem KeepsForm.tapAction (h : KeepsForm c₀ c) (tdi : Bool) : KeepsForm c₀ (Machine.tapAction c tdi) := by
  unfold Machine.tapAction
  split
  · exact h.captureBoundary.ite (h.modJtag _)
  · exact (h.modJtag _).ite (h.modJtag _)
  · exact (h.withFree _).modJtag _
  · exact h.modJtag _
  · exact h

theorem KeepsForm.tapReset (h : KeepsForm c₀ c) : KeepsForm c₀ (Machine.tapReset c) := h.modJtag _

theorem KeepsForm.tckRise (h : KeepsForm c₀ c) (tms tdi : Bool) : KeepsForm c₀ (Machine.tckRise c tms tdi) := by
  unfold Machine.tckRise
  exact ((h.tapAction _).tapReset).ite ((h.tapAction _).modJtag _)

theorem KeepsForm.tckFall (h : KeepsForm c₀ c) : KeepsForm c₀ (Machine.tckFall c) := h.modJtag _

theorem KeepsForm.tckEdge (h : KeepsForm c₀ c) (rising tms tdi : Bool) : KeepsForm c₀ (Machine.tckEdge c rising tms tdi) := by
  unfold Machine.tckEdge
  exact (h.tckRise _ _).ite h.tckFall

theorem KeepsForm.samplePreload (h : KeepsForm c₀ c) : KeepsForm c₀ (Machine.samplePreload c) := by
  unfold Machine.samplePreload
  exact (h.modJtag _).captureBoundary

theorem KeepsForm.bypassSelect (h : KeepsForm c₀ c) : KeepsForm c₀ (Machine.bypassSelect c) := h.modJtag _

/-! ## Host reads of BAR0 -/

theorem KeepsForm.answer (h : KeepsForm c₀ c) (v : Nat) : KeepsForm c₀ (Machine.answer c v) := h.keep rfl rfl rfl rfl rfl

theorem KeepsForm.malformedRead (h : KeepsForm c₀ c) (fn off len : Nat) : KeepsForm c₀ (Machine.malformedRead c fn off len) :=
    by
  unfold Machine.malformedRead
  refine h.ite ?_
  refine KeepsForm.ite ?_ (h.answer _)
  exact h.keep rfl rfl rfl rfl rfl

theorem KeepsForm.upperLatch (h : KeepsForm c₀ c) (fn off : Nat) : KeepsForm c₀ (Machine.upperLatch c fn off) := by
  unfold Machine.upperLatch
  refine h.ite ?_
  refine (h.answer _).ite ?_
  refine (h.calendarLatch _).ite ?_
  refine ((h.modFn _ _).answer _).ite ?_
  split
  · exact (h.modFn _ _).answer _
  · exact h.answer _

/-! ## The host port -/

theorem KeepsForm.msixSend (h : KeepsForm c₀ c) (fn vec : Nat) : KeepsForm c₀ (Machine.msixSend c fn vec) := by
  unfold Machine.msixSend
  exact (h.setFlag _ _ _).ite (h.modFn _ _)

theorem KeepsForm.hookMsix (h : KeepsForm c₀ c) (w : WriteCtx) : KeepsForm c₀ (Machine.hookMsix w c) := by
  unfold Machine.hookMsix
  exact ((h.setFlag _ _ _).msixSend _ _).ite h

theorem KeepsForm.msixMessage (h : KeepsForm c₀ c) (fn vec : Nat) : KeepsForm c₀ (Machine.msixMessage c fn vec) := by
  unfold Machine.msixMessage
  exact ((h.modFn _ _).msixSend _ _).ite h

theorem KeepsForm.drainHold (h : KeepsForm c₀ c) (n fn : Nat) : KeepsForm c₀ (Machine.drainHold n fn c) := by
  induction n generalizing c with
  | zero => exact h
  | succ n ih =>
    unfold Machine.drainHold
    refine h.ite ((ih (h.putGap _)).ite ?_)
    split
    · exact h
    · exact ih ((h.modFn _ _).putEvRaw _ _)

theorem KeepsForm.holdQueueDrain (h : KeepsForm c₀ c) (fn : Nat) : KeepsForm c₀ (Machine.holdQueueDrain c fn) := by
  unfold Machine.holdQueueDrain
  exact h.ite ((h.drainHold _ _).eventRise _ _)

theorem KeepsForm.drainRecs (h : KeepsForm c₀ c) (n fn : Nat) : KeepsForm c₀ (Machine.drainRecs n fn c) := by
  induction n generalizing c with
  | zero => exact h
  | succ n ih =>
    unfold Machine.drainRecs
    refine h.ite ((ih (h.putRecGap _)).ite ?_)
    split
    · exact h
    · exact ih ((h.modFn _ _).putRecRaw _ _)

theorem KeepsForm.recordDelivery (h : KeepsForm c₀ c) (fn : Nat) : KeepsForm c₀ (Machine.recordDelivery c fn) := by
  unfold Machine.recordDelivery
  exact (h.drainRecs _ _).ite h

theorem KeepsForm.discardHeld (h : KeepsForm c₀ c) (fn r : Nat) : KeepsForm c₀ (Machine.discardHeld c fn r) := by
  unfold Machine.discardHeld
  exact (h.modFn _ _).ite (((h.foldl (fun _ h1 _ => (h1.gapOne _ _ _))).modFn _ _).ite (((h.recLoss _ _).modFn _ _).ite h))

theorem KeepsForm.ringBusy (h : KeepsForm c₀ c) (fn r : Nat) : KeepsForm c₀ (Machine.ringBusy c fn r) := h.postError _ _ _

theorem KeepsForm.hookRingBase (h : KeepsForm c₀ c) (w : WriteCtx) : KeepsForm c₀ (Machine.hookRingBase w c) := by
  unfold Machine.hookRingBase
  exact h.guarded _ _ _ _ (fun _ h _ _ => h.ringBusy _ _) (fun _ _ h => h)

theorem KeepsForm.hookRingCfg (h : KeepsForm c₀ c) (w : WriteCtx) : KeepsForm c₀ (Machine.hookRingCfg w c) := by
  unfold Machine.hookRingCfg
  exact ((((((h.setFld _ _ _ _).ringBusy _ _).ite h).setReg _ _).checkFall _ _).ite (((((h.setFld _ _ _ _).ringBusy _ _).ite
      h).setFlag _ _ _).msixSend _ _)).ite (((((h.setFld _ _ _ _).ringBusy _ _).ite h).discardHeld _ _).ite (((h.setFld _ _ _
      _).ringBusy _ _).ite h))

theorem KeepsForm.ringCfgWrite (h : KeepsForm c₀ c) (fn page : Fn) (r : Nat) (v : Word) (be : BitVec 4) :
    KeepsForm c₀ (Machine.ringCfgWrite c fn page r v be) := by
  unfold Machine.ringCfgWrite
  exact h.writeWord _ _ _ _ _ (fun _ _ h1 => (h1.hookRingCfg _))

theorem KeepsForm.countDb (h : KeepsForm c₀ c) (fn r lo : Nat) : KeepsForm c₀ (Machine.countDb c fn r lo) := h.countFld _ _ _

theorem KeepsForm.ringDoorbell (h : KeepsForm c₀ c) (fn r v : Nat) : KeepsForm c₀ (Machine.ringDoorbell c fn r v) := by
  unfold Machine.ringDoorbell
  exact h.ite ((h.countDb _ _ _).ite (((h.countDb _ _ _).postError _ _ _).ite (((h.setHostIdx _ _ _).checkRise _ _ _).ite
      ((h.setHostIdx _ _ _).checkFall _ _))))

theorem smWf_foldl_memWrite (d : Nat → Byte) (xs : List (Nat × Byte)) {m : Mem} (h : smWf d m = true) :
    smWf d (xs.foldl (fun m x => memWrite d m x.1 [x.2]) m) = true := by
  induction xs generalizing m with
  | nil => exact h
  | cons x xs ih => exact ih (smWf_memWrite _ _ h)

theorem KeepsForm.hostStores (h : KeepsForm c₀ c) (mem : List (Nat × Byte)) : KeepsForm c₀ (Machine.hostStores c mem) :=
  h.withHostMem (smWf_foldl_memWrite _ _)

theorem KeepsForm.doorbellWrite (h : KeepsForm c₀ c) (fn r : Nat) (mem : List (Nat × Byte)) (v : Word) (be : BitVec 4) :
    KeepsForm c₀ (Machine.doorbellWrite c fn r mem v be) := by
  unfold Machine.doorbellWrite
  exact ((h.hostStores _).ringDoorbell _ _ _).ite (h.hostStores _)

theorem KeepsForm.resetFn (h : KeepsForm c₀ c) (fn : Nat) : KeepsForm c₀ (Machine.resetFn c fn) := by
  unfold Machine.resetFn
  exact (h.resetRegs _ _).modFn _ _

theorem KeepsForm.functionReset (h : KeepsForm c₀ c) (fn : Nat) : KeepsForm c₀ (Machine.functionReset c fn) := by
  unfold Machine.functionReset
  exact ((h.dlFnReset _).resetFn _).setFlag _ _ _

theorem KeepsForm.linkTrained (h : KeepsForm c₀ c) (speed width : Nat) : KeepsForm c₀ (Machine.linkTrained c speed width) := by
  unfold Machine.linkTrained
  exact (h.setReg _ _).capHbw

theorem KeepsForm.resetHostBlock (h : KeepsForm c₀ c) : KeepsForm c₀ (Machine.resetHostBlock c) := by
  unfold Machine.resetHostBlock
  exact (h.resetRegs _ _).foldl (fun _ h1 _ => (h1.resetFn _))

theorem KeepsForm.hostReset (h : KeepsForm c₀ c) (speed width : Nat) : KeepsForm c₀ (Machine.hostReset c speed width) := by
  unfold Machine.hostReset
  exact (((h.foldl (fun _ h1 _ => (h1.dlFnReset _))).resetHostBlock).setFlag _ _ _).linkTrained _ _

/-! ## The recorder's timed steps, its clear, and the rebuild of its image -/

theorem KeepsForm.modRec (h : KeepsForm c₀ c) (f : RecSt → RecSt) : KeepsForm c₀ (Machine.modRec c f) := h.withRcd _

theorem KeepsForm.recordClose (h : KeepsForm c₀ c) (t : Nat) : KeepsForm c₀ (Machine.recordClose c t) := by
  unfold Machine.recordClose
  split
  · exact (h.closeRec _).ite h
  · exact h

theorem KeepsForm.tailPage (h : KeepsForm c₀ c) (t : Nat) : KeepsForm c₀ (Machine.tailPage c t) := by
  unfold Machine.tailPage
  split
  · exact h.programTail _
  · exact h

theorem KeepsForm.otPage (h : KeepsForm c₀ c) : KeepsForm c₀ (Machine.otPage c) := by
  unfold Machine.otPage
  exact (h.modRec _).ite h

theorem KeepsForm.setArmed (h : KeepsForm c₀ c) (a : Option (Nat × Nat)) : KeepsForm c₀ (Machine.setArmed c a) := by
  unfold Machine.setArmed
  exact (h.modRec _).setFlag _ _ _

theorem KeepsForm.recClearArm (h : KeepsForm c₀ c) (code : Nat) : KeepsForm c₀ (Machine.recClearArm c code).1 := by
  unfold Machine.recClearArm
  exact KeepsForm.iteFst (h.setArmed _).fst (h.setArmed _).fst

theorem KeepsForm.clearArmExpiry (h : KeepsForm c₀ c) : KeepsForm c₀ (Machine.clearArmExpiry c) := by
  unfold Machine.clearArmExpiry
  split
  · exact (h.setArmed _).ite h
  · exact h

theorem KeepsForm.emptyImage (h : KeepsForm c₀ c) : KeepsForm c₀ (Machine.emptyImage c) := by
  unfold Machine.emptyImage
  exact ((h.foldl (fun _ h1 _ => ((h1.recLoss _ _).modFn _ _))).foldl (fun _ h1 _ => (h1.missBasin _))).modRec _

theorem KeepsForm.beginClear (h : KeepsForm c₀ c) : KeepsForm c₀ (Machine.beginClear c) := by
  unfold Machine.beginClear
  exact (((((h.setArmed _).foldl (fun _ h1 _ => (h1.closeRec _))).modRec _).emptyImage).modRec _).setFlag _ _ _

theorem KeepsForm.formCleared (h : KeepsForm c₀ c) : KeepsForm c₀ (Machine.formCleared c) := by
  unfold Machine.formCleared
  split
  · exact (h.enterRec _ _).modRec _
  · exact h

theorem KeepsForm.finishClear (h : KeepsForm c₀ c) : KeepsForm c₀ (Machine.finishClear c) := by
  unfold Machine.finishClear
  exact (h.formCleared.setFlag _ _ _).flushHeld

theorem KeepsForm.clearDone (h : KeepsForm c₀ c) : KeepsForm c₀ (Machine.clearDone c) := by
  unfold Machine.clearDone
  split
  · exact (h.finishClear.completeWhere _ _).ite h
  · exact h

theorem KeepsForm.seqFromNvm (h : KeepsForm c₀ c) : KeepsForm c₀ (Machine.seqFromNvm c) := by
  unfold Machine.seqFromNvm
  split
  · exact h
  · exact h.setReg _ _

theorem KeepsForm.startRecorder (h : KeepsForm c₀ c) : KeepsForm c₀ (Machine.startRecorder c) := by
  unfold Machine.startRecorder
  dsimp only
  split
  · exact (((h.modRec _).setReg _ _).formCleared).modRec _
  · exact h.seqFromNvm

theorem KeepsForm.rebuild (h : KeepsForm c₀ c) : KeepsForm c₀ (Machine.rebuild c) := by
  unfold Machine.rebuild
  exact (((((h.modRec _).seqFromNvm).foldl (fun _ h1 _ => (h1.programPair _))).modRec _).setFlag _ _ _).flushHeld

theorem KeepsForm.recDomainOff (h : KeepsForm c₀ c) : KeepsForm c₀ (Machine.recDomainOff c) := by
  unfold Machine.recDomainOff
  exact (((h.clearDone.modRec _).setArmed _).setFlag _ _ _).bsnRecOff

/-! ## Power commands -/

theorem KeepsForm.setPwr (h : KeepsForm c₀ c) (f : PwrSt → PwrSt) : KeepsForm c₀ (Machine.setPwr c f) := h.withPwr _

theorem KeepsForm.clockFallback (h : KeepsForm c₀ c) (detail : Nat) : KeepsForm c₀ (Machine.clockFallback c detail) := by
  unfold Machine.clockFallback
  exact ((((h.setFlag _ _ _).setFlag _ _ _).setFlag _ _ _).postError _ _ _).enterSafeHold _

theorem KeepsForm.pllStart (h : KeepsForm c₀ c) : KeepsForm c₀ (Machine.pllStart c) := by
  unfold Machine.pllStart
  exact (((h.setFld _ _ _ _).setFld _ _ _ _).setPwr _).ite (h.clockFallback _)

theorem KeepsForm.domainStarts (h : KeepsForm c₀ c) (n : Nat) : KeepsForm c₀ (Machine.domainStarts c n) := by
  unfold Machine.domainStarts
  split
  · exact h.rtcDomainOn
  · exact h.nvDomainOn _
  · exact h.nvDomainOn _
  · exact h.nvDomainOn _
  · exact h.nvDomainOn _
  · exact h.sdlSync
  · exact h.sptDomainOn
  · exact (h.afeDomainOn _).portEnabled _
  · exact (h.afeDomainOn _).portEnabled _
  · exact (h.afeDomainOn _).portEnabled _
  · exact (h.afeDomainOn _).portEnabled _
  · exact (h.afeDomainOn _).portEnabled _
  · exact (h.afeDomainOn _).portEnabled _
  · exact (h.afeDomainOn _).portEnabled _
  · exact (h.afeDomainOn _).portEnabled _
  · exact h.loopDomainOn _
  · exact h.loopDomainOn _
  · exact h.loopDomainOn _
  · exact h.lcdMemLost
  · exact h.canDomainOn.callCanCheck
  · exact (h.ucDomainOn _).ctrlDomainOn
  · exact h.ucDomainOn _
  · exact h.rebuild.ite (h.rebuild.autoAdmit _)
  · exact h.pllStart
  · exact h.dmaReset.reloadDefaults _ _
  · exact h

theorem KeepsForm.sramLost (h : KeepsForm c₀ c) : KeepsForm c₀ (Machine.sramLost c) := by
  unfold Machine.sramLost
  dsimp only
  refine KeepsForm.foldl ?_ (fun _ h1 _ => ?_)
  · exact (h.withTables (smWf_memClear _ _)).keep rfl rfl rfl rfl rfl
  · exact h1.modFn _ _

theorem KeepsForm.domainEnds (h : KeepsForm c₀ c) (n : Nat) : KeepsForm c₀ (Machine.domainEnds c n) := by
  unfold Machine.domainEnds
  dsimp only
  split
  · exact h.nvDomainOff _
  · exact h.nvDomainOff _
  · exact h.nvDomainOff _
  · exact h.nvDomainOff _
  · exact h.modSdl _
  · exact h.withSpt _
  · exact h.afeDomainOff _
  · exact h.afeDomainOff _
  · exact h.afeDomainOff _
  · exact h.afeDomainOff _
  · exact h.afeDomainOff _
  · exact h.afeDomainOff _
  · exact h.afeDomainOff _
  · exact h.afeDomainOff _
  · exact h.loopDomainOff _
  · exact h.loopDomainOff _
  · exact h.loopDomainOff _
  · exact h.lcdMemLost
  · exact h.canDomainOff.callCanCheck
  · exact h.actDomainOff
  · exact h.ctrlDomainOff.ucDomainOff _
  · exact h.almDomainOff.callDomainOff.ucDomainOff _
  · exact h.recDomainOff
  · exact h.pllStop.withPoints (fun _ => rfl)
  · exact h.dmaReset
  · exact h.sramLost
  · exact h

theorem KeepsForm.domainOn (h : KeepsForm c₀ c) (n : Nat) : KeepsForm c₀ (Machine.domainOn c n) := by
  unfold Machine.domainOn
  exact ((((h.setDom _ _).releaseSurge _).domainStarts _).retarget).ite h

theorem KeepsForm.domainOff (h : KeepsForm c₀ c) (n : Nat) : KeepsForm c₀ (Machine.domainOff c n) := by
  unfold Machine.domainOff
  exact ((((h.setDom _ _).releaseSurge _).domainEnds _).retarget).ite h

theorem KeepsForm.leaveGrant (h : KeepsForm c₀ c) : KeepsForm c₀ (Machine.leaveGrant c) := h.grantHead

theorem KeepsForm.leaveTimeout (h : KeepsForm c₀ c) (n : Nat) : KeepsForm c₀ (Machine.leaveTimeout c n) := by
  unfold Machine.leaveTimeout
  dsimp only
  split
  · refine KeepsForm.grantAll ?_ _
    split
    · exact (h.withdrawReq _).bankStepWithdrawn _
    · exact (h.withdrawReq _).reqLeaveLost _
    · exact h.withdrawReq _
  · exact h

theorem KeepsForm.surgeRelease (h : KeepsForm c₀ c) (n : Nat) : KeepsForm c₀ (Machine.surgeRelease c n) := by
  unfold Machine.surgeRelease
  exact ((h.setPwr _).grantAll _).ite h

theorem KeepsForm.hookDomEn (h : KeepsForm c₀ c) (w : WriteCtx) : KeepsForm c₀ (Machine.hookDomEn w c) := by
  unfold Machine.hookDomEn
  exact (h.unrefuse _).retarget

theorem KeepsForm.hookBudget (h : KeepsForm c₀ c) (w : WriteCtx) : KeepsForm c₀ (Machine.hookBudget w c) := h.grantAll _

theorem KeepsForm.domEnWrite (h : KeepsForm c₀ c) (fn : Fn) (v : Word) (be : BitVec 4) :
    KeepsForm c₀ (Machine.domEnWrite c fn v be) := by
  unfold Machine.domEnWrite
  exact h.writeWord _ _ _ _ _ (fun _ _ h1 => (h1.hookDomEn _))

theorem KeepsForm.budgetWrite (h : KeepsForm c₀ c) (fn : Fn) (v : Word) (be : BitVec 4) :
    KeepsForm c₀ (Machine.budgetWrite c fn v be) := by
  unfold Machine.budgetWrite
  exact h.writeWord _ _ _ _ _ (fun _ _ h1 => (h1.hookBudget _))

theorem KeepsForm.xtalLoss (h : KeepsForm c₀ c) : KeepsForm c₀ (Machine.xtalLoss c) := by
  unfold Machine.xtalLoss
  exact ((((((h.setPwr _).setFlag _ _ _).setFlag _ _ _).setFlag _ _ _).rtcSource).postError _ _ _).ite h

theorem KeepsForm.xtalReturn (h : KeepsForm c₀ c) : KeepsForm c₀ (Machine.xtalReturn c) := by
  unfold Machine.xtalReturn
  exact h.ite (((((h.setPwr _).setFlag _ _ _).setFlag _ _ _).rtcSource).postError _ _ _)

theorem KeepsForm.pllmLoss (h : KeepsForm c₀ c) : KeepsForm c₀ (Machine.pllmLoss c) := by
  unfold Machine.pllmLoss
  exact (h.bankWork _ (fun _ h1 => ((h1.modulatorsStop.setFlag _ _ _).setFlag _ _ _))).ite h

theorem KeepsForm.pllmRelock (h : KeepsForm c₀ c) : KeepsForm c₀ (Machine.pllmRelock c) := by
  unfold Machine.pllmRelock
  exact ((((h.setPwr _).setFlag _ _ _).setFlag _ _ _).modulatorsRestart).ite h

theorem KeepsForm.pllcLoss (h : KeepsForm c₀ c) : KeepsForm c₀ (Machine.pllcLoss c) := by
  unfold Machine.pllcLoss
  exact (h.clockFallback _).ite h

theorem KeepsForm.refLoss (h : KeepsForm c₀ c) : KeepsForm c₀ (Machine.refLoss c) := by
  unfold Machine.refLoss
  exact ((((h.setFlag _ _ _).setFlag _ _ _).bankWork _ (fun _ h1 => ((h1.modulatorsStop.setFlag _ _ _).setFlag _ _
      _))).clockFallback _).ite h

/-! ## Rails, resets and start-up -/

theorem KeepsForm.cutProgram (h : KeepsForm c₀ c) (page : Nat) (bs : List Byte) (n : Nat) :
    KeepsForm c₀ (Machine.cutProgram c page bs n) :=
  (h.withNvm fun w => smWf_memWrite _ _ (smWf_memClear _ _ w)).keep rfl rfl rfl rfl rfl

theorem KeepsForm.windowCut (h : KeepsForm c₀ c) (reached : Nat) : KeepsForm c₀ (Machine.windowCut c reached) := by
  unfold Machine.windowCut
  dsimp only
  split
  · exact (h.withImg _).cutProgram _ _ _
  · exact h

theorem KeepsForm.cutErase (h : KeepsForm c₀ c) (bank : Nat) : KeepsForm c₀ (Machine.cutErase c bank) :=
  (h.withNvm fun w => smWf_memWrite _ _ (smWf_memClear _ _ w)).keep rfl rfl rfl rfl rfl

theorem KeepsForm.nvmCut (h : KeepsForm c₀ c) (reached : Nat) : KeepsForm c₀ (Machine.nvmCut c reached) := by
  unfold Machine.nvmCut
  dsimp only
  split
  · refine KeepsForm.modUpd ?_ _
    split
    · exact ((h.trimCut _).cutErase _).ite ((h.trimCut _).ite (((h.trimCut _).withImg _).cutProgram _ _ _))
    · exact h.trimCut _
  · split
    · exact ((h.trimCut _).cutErase _).ite ((h.trimCut _).ite (((h.trimCut _).withImg _).cutProgram _ _ _))
    · exact h.trimCut _

theorem KeepsForm.loadBankStore (h : KeepsForm c₀ c) (b : Nat) : KeepsForm c₀ (Machine.loadBankStore c b) := by
  unfold Machine.loadBankStore
  dsimp only
  split
  · exact (h.setFlag _ _ _).setCover _
  · exact h.setFlag _ _ _

theorem KeepsForm.resetAll (h : KeepsForm c₀ c) (keep : Nat → Bool) : KeepsForm c₀ (Machine.resetAll c keep) :=
  ⟨fun w => smWf_smKeep _ (h.ofRegs w), fun _ => smWf_nil _, h.ofHostMem, fun _ => smWf_nil _, h.ofNvm⟩

theorem KeepsForm.coldReset (h : KeepsForm c₀ c) (reached : Nat) : KeepsForm c₀ (Machine.coldReset c reached) := by
  unfold Machine.coldReset
  exact (((h.nvmCut _).windowCut _).resetAll _).keep rfl rfl rfl rfl rfl

theorem KeepsForm.warmReset (h : KeepsForm c₀ c) (reached : Nat) (cause : List Nat) (pccInc : Bool) :
    KeepsForm c₀ (Machine.warmReset c reached cause pccInc) := by
  unfold Machine.warmReset
  dsimp only
  refine KeepsForm.grantAll ?_ _
  exact (((((h.nvmCut _).windowCut _).resetAll _).setFld _ _ _ _).setFld _ _ _ _).keep rfl rfl rfl rfl rfl

theorem KeepsForm.plainReset (h : KeepsForm c₀ c) (cause : Nat) : KeepsForm c₀ (Machine.plainReset c cause) := by
  unfold Machine.plainReset
  exact ((h.withMode _).ite h).warmReset _ _ _

theorem KeepsForm.pinReset (h : KeepsForm c₀ c) : KeepsForm c₀ (Machine.pinReset c) := h.plainReset _

theorem KeepsForm.hookNodeReset (h : KeepsForm c₀ c) (w : WriteCtx) : KeepsForm c₀ (Machine.hookNodeReset w c) := by
  unfold Machine.hookNodeReset
  exact (h.plainReset _).ite h

theorem KeepsForm.nodeResetWrite (h : KeepsForm c₀ c) (fn : Fn) (v : Word) (be : BitVec 4) :
    KeepsForm c₀ (Machine.nodeResetWrite c fn v be) := by
  unfold Machine.nodeResetWrite
  exact h.writeWord _ _ _ _ _ (fun _ _ h1 => (h1.hookNodeReset _))

theorem KeepsForm.coreLoss (h : KeepsForm c₀ c) (bit reached : Nat) : KeepsForm c₀ (Machine.coreLoss c bit reached) := by
  unfold Machine.coreLoss
  exact (((((h.withMode _).ite h).setFlag _ _ _).setFlag _ _ _).warmReset _ _ _).ite (h.setFlag _ _ _)

theorem KeepsForm.vfieldLoss (h : KeepsForm c₀ c) (n : Nat) (high : Bool) : KeepsForm c₀ (Machine.vfieldLoss c n high) := by
  unfold Machine.vfieldLoss
  exact ((((h.setFlag _ _ _).setFlag _ _ _).vfieldRefreshBank _).postErrorRec _ _ _).faultEvent _ _ _ _

theorem KeepsForm.vdrvLoss (h : KeepsForm c₀ c) : KeepsForm c₀ (Machine.vdrvLoss c) := by
  unfold Machine.vdrvLoss
  exact ((((h.setFlag _ _ _).setFlag _ _ _).legsOff _ _).postErrorRec _ _ _).faultEvent _ _ _ _

theorem KeepsForm.vlcdLoss (h : KeepsForm c₀ c) : KeepsForm c₀ (Machine.vlcdLoss c) := by
  unfold Machine.vlcdLoss
  exact (((h.setFlag _ _ _).setFlag _ _ _).biasFault _).ite (h.setFlag _ _ _)

theorem KeepsForm.railLoss (h : KeepsForm c₀ c) (rail : Rail) (reached : Nat) : KeepsForm c₀ (Machine.railLoss c rail reached)
    := by
  unfold Machine.railLoss
  dsimp only
  split
  · exact ((h.setFlag _ _ _).coldReset _).ite h
  · exact (h.coreLoss _ _).ite h
  · exact (h.coreLoss _ _).ite h
  · exact (h.coreLoss _ _).ite h
  · exact ((h.vfieldLoss _ _).ite (h.setFlag _ _ _)).ite h
  · exact (h.vdrvLoss.ite (h.setFlag _ _ _)).ite h
  · exact h.vlcdLoss.ite h

theorem KeepsForm.railReturn (h : KeepsForm c₀ c) (rail : Rail) : KeepsForm c₀ (Machine.railReturn c rail) := by
  unfold Machine.railReturn
  dsimp only
  split
  · exact h.setFlag _ _ _
  · exact h.setFlag _ _ _
  · exact ((h.withPwr _).setFlag _ _ _).ite (h.withPwr _)
  · exact h.setFlag _ _ _
  · exact (h.setFlag _ _ _).vfieldRefreshBank _
  · exact h.setFlag _ _ _
  · exact h.setFlag _ _ _

theorem KeepsForm.wakeEvent (h : KeepsForm c₀ c) (pin : Bool) : KeepsForm c₀ (Machine.wakeEvent c pin) := by
  unfold Machine.wakeEvent
  exact h.ite ((h.plainReset _).ite h.sentryWake)

theorem KeepsForm.wakeN (h : KeepsForm c₀ c) : KeepsForm c₀ (Machine.wakeN c) := h.wakeEvent _

theorem KeepsForm.clockEdge (h : KeepsForm c₀ c) (step : Chip → Chip) (hstep : ∀ (x0 : Chip) (_ : KeepsForm c₀ x0), KeepsForm c₀
    (step x0)) :
    KeepsForm c₀ (Machine.clockEdge step c) := by
  unfold Machine.clockEdge
  exact ((hstep _ h).wakeEvent _).ite (hstep _ h)

theorem KeepsForm.edgeTick (h : KeepsForm c₀ c) : KeepsForm c₀ (Machine.edgeTick c) := by
  unfold Machine.edgeTick
  exact h.clockEdge _ (fun _ h1 => h1.crystalEdge)

theorem KeepsForm.secondTick (h : KeepsForm c₀ c) : KeepsForm c₀ (Machine.secondTick c) := by
  unfold Machine.secondTick
  exact h.clockEdge _ (fun _ h1 => h1.calendarSecond)

theorem KeepsForm.latchCauses (h : KeepsForm c₀ c) (ioLevel strapTest : Bool) :
    KeepsForm c₀ (Machine.latchCauses c ioLevel strapTest) := by
  unfold Machine.latchCauses
  exact ((h.foldl (fun _ h1 _ => (h1.setFlag _ _ _))).setFlag _ _ _).keep rfl rfl rfl rfl rfl

theorem KeepsForm.startDomain (h : KeepsForm c₀ c) (n : Nat) : KeepsForm c₀ (Machine.startDomain c n) := by
  unfold Machine.startDomain
  exact (h.setDom _ _).ite ((h.setDom _ _).addReq _)

theorem KeepsForm.startClocks (h : KeepsForm c₀ c) (refOk pllOk : Bool) : KeepsForm c₀ (Machine.startClocks c refOk pllOk) := by
  unfold Machine.startClocks
  exact (((((h.foldl (fun _ h1 _ => (h1.loadBankStore _))).foldl (fun _ h1 _ => (h1.startDomain _))).setFld _ _ _ _).setFld _ _
      _ _).setPwr _).ite ((((h.foldl (fun _ h1 _ => (h1.loadBankStore _))).foldl (fun _ h1 _ => (h1.startDomain _))).setFlag _ _
      _).ite ((((h.foldl (fun _ h1 _ => (h1.loadBankStore _))).foldl (fun _ h1 _ => (h1.startDomain _))).setFlag _ _ _).setFld _
      _ _ _))

theorem KeepsForm.startImage (h : KeepsForm c₀ c) : KeepsForm c₀ (Machine.startImage c) := by
  unfold Machine.startImage
  exact (((h.foldl (fun _ h1 _ => ((h1.userToDefault _).ite h1))).loadImage _).callTake).callOutputs

theorem KeepsForm.startPcc (h : KeepsForm c₀ c) : KeepsForm c₀ (Machine.startPcc c) := by
  unfold Machine.startPcc
  exact (((((h.wrapFld _ _ _).ite h).foldl (fun _ h1 _ => (h1.postError _ _ _))).withMode _).startRecorder).nodeRec _ _ _

theorem KeepsForm.startFails (h : KeepsForm c₀ c) (cause fatal : Nat) : KeepsForm c₀ (Machine.startFails c cause fatal) := by
  unfold Machine.startFails
  exact (((h.startPcc.withMode _).setReg _ _).ite (((h.startPcc.withMode _).setReg _ _).postError _ _ _)).enterSafeHold _

theorem KeepsForm.startRuns (h : KeepsForm c₀ c) : KeepsForm c₀ (Machine.startRuns c) := by
  unfold Machine.startRuns
  exact (h.startPcc.loadTrims.tripLoad.withMode _).retarget

theorem KeepsForm.startUp (h : KeepsForm c₀ c) (refOk pllOk sramOk gateOk ioLevel strapTest : Bool) :
    KeepsForm c₀ (Machine.startUp c refOk pllOk sramOk gateOk ioLevel strapTest) := by
  unfold Machine.startUp
  exact h.ite ((h.latchCauses _ _).ite ((((h.latchCauses _ _).startClocks _ _).startFails _ _).ite ((((h.latchCauses _
      _).startClocks _ _).startFails _ _).ite ((((h.latchCauses _ _).startClocks _ _).startFails _ _).ite ((((((((h.latchCauses
      _ _).startClocks _ _).startDomain _).startImage).loadTrims).tripLoad).startFails _ _).ite (((((h.latchCauses _
      _).startClocks _ _).startDomain _).startImage).startRuns))))))

end Sys2Proof.Machine
end

section
-- One proof at a time: every thread takes a stack of its own from the memory that a compile has.
set_option Elab.async false
/-! SUPPORT. The canonical form (log 3) is kept by the operations of ring commands, the sequencer and the register hooks. -/

namespace Sys2Proof.Machine

variable {c₀ c : Chip}

/-! ## The commands of the command rings -/

theorem KeepsForm.begin_ (h : KeepsForm c₀ c) (k : HostCmd) (w : Flight) : KeepsForm c₀ (Machine.begin_ c k w) := h.modFn _ _

theorem KeepsForm.done (h : KeepsForm c₀ c) (k : HostCmd) (status result : Nat) : KeepsForm c₀ (Machine.done c k status result)
    := by
  unfold Machine.done
  exact h.ite (h.complete _ _ _ _ _)

theorem KeepsForm.substitute (h : KeepsForm c₀ c) (p w : Nat) : KeepsForm c₀ (Machine.substitute c p w) := by
  unfold Machine.substitute
  exact (h.setPoint _ _).demandPoint _ _

theorem KeepsForm.unsubstitute (h : KeepsForm c₀ c) (p : Nat) : KeepsForm c₀ (Machine.unsubstitute c p) := by
  unfold Machine.unsubstitute
  exact h.setPoint _ _

theorem KeepsForm.subscribe (h : KeepsForm c₀ c) (k : HostCmd) : KeepsForm c₀ (Machine.subscribe c k).1 := by
  unfold Machine.subscribe
  dsimp only
  refine KeepsForm.iteFst (KeepsForm.iteFst h.fst (h.modFn _ _).fst) ?_
  split
  · exact KeepsForm.iteFst h.fst (h.modFn _ _).fst
  · exact (h.modFn _ _).fst

theorem KeepsForm.readPoints (h : KeepsForm c₀ c) (k : HostCmd) : KeepsForm c₀ (Machine.readPoints c k) := h.modFn _ _

theorem KeepsForm.substCmd (h : KeepsForm c₀ c) (k : HostCmd) : KeepsForm c₀ (Machine.substCmd c k) := by
  unfold Machine.substCmd
  refine (h.done _ _ _).ite ?_
  refine (((h.unsubstitute _).done _ _ _).ite (h.done _ _ _)).ite ?_
  split
  · exact h.done _ _ _
  · exact (h.substitute _ _).done _ _ _

theorem KeepsForm.loopCmd (h : KeepsForm c₀ c) (k : HostCmd) : KeepsForm c₀ (Machine.loopCmd c k) := by
  unfold Machine.loopCmd
  dsimp only
  refine (((h.setLoopMode _ _).done _ _ _).ite (h.done _ _ _)).ite ?_
  refine KeepsForm.ite ?_ ?_
  · refine (h.done _ _ _).ite ?_
    split
    · exact h.done _ _ _
    · exact (h.setSetpoint _ _).done _ _ _
  · refine (h.done _ _ _).ite ?_
    split
    · exact h.done _ _ _
    · exact (h.setManualOutput _ _).done _ _ _

theorem KeepsForm.alarmCmd (h : KeepsForm c₀ c) (k : HostCmd) : KeepsForm c₀ (Machine.alarmCmd c k) := by
  unfold Machine.alarmCmd
  exact (h.done _ _ _).ite ((h.begin_ _ _).almAccept _)

theorem KeepsForm.tableSwap (h : KeepsForm c₀ c) (k : HostCmd) : KeepsForm c₀ (Machine.tableSwap c k) := by
  unfold Machine.tableSwap
  dsimp only
  refine (h.done _ _ _).ite ?_
  split
  · exact (h.loadSeqErr _).done _ _ _
  · exact ((h.begin_ _ _).pendTable _).shareSwap _

theorem KeepsForm.fskCmd (h : KeepsForm c₀ c) (k : HostCmd) : KeepsForm c₀ (Machine.fskCmd c k) := by
  unfold Machine.fskCmd
  exact (h.done _ _ _).ite ((h.begin_ _ _).fskBegin _ _ _)

theorem KeepsForm.canCmd (h : KeepsForm c₀ c) (k : HostCmd) : KeepsForm c₀ (Machine.canCmd c k) := by
  unfold Machine.canCmd
  exact (h.done _ _ _).ite ((h.begin_ _ _).canSendBegin _ _)

theorem KeepsForm.clearCmd (h : KeepsForm c₀ c) (k : HostCmd) : KeepsForm c₀ (Machine.clearCmd c k) := by
  unfold Machine.clearCmd
  exact ((h.recClearArm _).done _ _ _).ite (((h.begin_ _ _).beginClear).ite ((h.setArmed _).done _ _ _))

theorem KeepsForm.tuneCmd (h : KeepsForm c₀ c) (k : HostCmd) : KeepsForm c₀ (Machine.tuneCmd c k) := by
  unfold Machine.tuneCmd
  exact (((h.tuneStart _ _).done _ _ _).ite (h.done _ _ _)).ite ((h.tuneStop _).done _ _ _)

theorem KeepsForm.sdlCmd (h : KeepsForm c₀ c) (k : HostCmd) : KeepsForm c₀ (Machine.sdlCmd c k) := by
  unfold Machine.sdlCmd
  dsimp only
  refine (h.sdlResync.done _ _ _).ite ?_
  split
  · exact h.done _ _ _
  · exact (h.begin_ _ _).switchbackBegin

theorem KeepsForm.perform (h : KeepsForm c₀ c) (k : HostCmd) : KeepsForm c₀ (Machine.perform c k) := by
  unfold Machine.perform
  dsimp only
  refine (h.done _ _ _).ite ?_
  split
  · exact h.done _ _ _
  · exact h.substCmd _
  · exact h.substCmd _
  · exact h.loopCmd _
  · exact h.loopCmd _
  · exact h.loopCmd _
  · exact h.alarmCmd _
  · exact h.alarmCmd _
  · exact h.alarmCmd _
  · exact h.alarmCmd _
  · exact (h.done _ _ _).ite ((h.begin_ _ _).callAckBegin _ _ _ _)
  · exact (h.subscribe _).done _ _ _
  · exact (h.readPoints _).done _ _ _
  · exact h.tableSwap _
  · exact (h.tripClear _).done _ _ _
  · exact h.fskCmd _
  · exact h.canCmd _
  · exact h.clearCmd _
  · exact h.clearCmd _
  · exact h.tuneCmd _
  · exact h.tuneCmd _
  · exact h.sdlCmd _

theorem KeepsForm.runCommand (h : KeepsForm c₀ c) (k : HostCmd) : KeepsForm c₀ (Machine.runCommand c k) := by
  unfold Machine.runCommand
  split
  · exact h.done _ _ _
  · exact h.perform _

theorem KeepsForm.fetchStep (h : KeepsForm c₀ c) (fn n : Nat) : KeepsForm c₀ (Machine.fetchStep c fn n) := by
  unfold Machine.fetchStep
  exact ((((h.setHostIdx _ _ _).ite h).setNodeIdx _ _ _).checkFall _ _).ite h

theorem KeepsForm.beginCommand (h : KeepsForm c₀ c) (k : HostCmd) : KeepsForm c₀ (Machine.beginCommand c k) := by
  unfold Machine.beginCommand
  exact ((h.modFn _ _).runCommand _).ite ((h.modFn _ _).modFn _ _)

theorem KeepsForm.continueCommand (h : KeepsForm c₀ c) (fn n : Nat) : KeepsForm c₀ (Machine.continueCommand fn n c).1 := by
  unfold Machine.continueCommand
  dsimp only
  split
  · exact h.fst
  · exact KeepsForm.iteFst ((h.modFn _ _).runCommand _).fst ((h.modFn _ _).modFn _ _).fst

theorem KeepsForm.runCollected (h : KeepsForm c₀ c) (fn : Nat) (a : Nat × Nat × Nat × List Byte) (bad : Bool) :
    KeepsForm c₀ (Machine.runCollected c fn a bad) := by
  unfold Machine.runCollected
  exact (h.modFn _ _).beginCommand _

theorem KeepsForm.firstEntry (h : KeepsForm c₀ c) (fn sq op : Nat) (e : Entry) : KeepsForm c₀ (Machine.firstEntry c fn sq op e)
    := by
  unfold Machine.firstEntry
  exact (h.modFn _ _).ite (h.beginCommand _)

theorem KeepsForm.takeEntry (h : KeepsForm c₀ c) (fn op : Nat) (e : Entry) : KeepsForm c₀ (Machine.takeEntry c fn op e) := by
  unfold Machine.takeEntry
  dsimp only
  refine h.ite ?_
  split
  · exact (h.fetchStep _ _).firstEntry _ _ _ _
  · exact (((h.fetchStep _ _).modFn _ _).ite ((h.fetchStep _ _).runCollected _ _ _)).ite ((((h.runCollected _ _ _).fetchStep _
        _).firstEntry _ _ _ _).ite (h.runCollected _ _ _))

theorem KeepsForm.dmaBurst (h : KeepsForm c₀ c) (n limit cycles : Nat) : KeepsForm c₀ (Machine.dmaBurst c n limit cycles) := by
  unfold Machine.dmaBurst
  exact h.ite (((h.dmaCycles _).dpServe _).ite ((h.dmaCycles _).dlServe _ _ _))

theorem KeepsForm.runCommands (h : KeepsForm c₀ c) (fn n : Nat) : KeepsForm c₀ (Machine.runCommands fn n c) := by
  induction n generalizing c with
  | zero => exact h
  | succ n ih =>
    unfold Machine.runCommands
    refine h.ite ?_
    split
    · exact ih ((h.fetchStep _ _).beginCommand _)
    · exact h

/-! ## The sequencer -/

theorem KeepsForm.unpend (h : KeepsForm c₀ c) : KeepsForm c₀ (Machine.unpend c) := by
  unfold Machine.unpend
  refine h.foldl fun _ h1 _ => ?_
  refine h1.foldl fun _ h2 _ => ?_
  split
  · refine KeepsForm.ite ?_ h2
    split
    · exact h2.setFlag _ _ _
    · exact h2
  · exact h2

theorem KeepsForm.revokeFlights (h : KeepsForm c₀ c) : KeepsForm c₀ (Machine.revokeFlights c) := by
  unfold Machine.revokeFlights
  exact ((h.unpend.modAlm _).modCall _).completeWhere _ _

theorem KeepsForm.revokeCarried (h : KeepsForm c₀ c) (old : Chip) (fn : Nat) : KeepsForm c₀ (Machine.revokeCarried old c fn) :=
    by
  unfold Machine.revokeCarried
  split
  · exact ((h.modFn _ _).done _ _ _).ite h
  · exact h

theorem KeepsForm.nullItems (h : KeepsForm c₀ c) (old : Chip) (fn : Nat) : KeepsForm c₀ (Machine.nullItems old c fn) := by
  unfold Machine.nullItems
  exact h.modFn _ _

theorem KeepsForm.partitionChange (h : KeepsForm c₀ c) (old : Chip) : KeepsForm c₀ (Machine.partitionChange old c) := by
  unfold Machine.partitionChange
  exact ((((((((h.foldl (fun _ h1 _ => ((h1.tripOwnerChange _).ite h1))).foldl (fun _ h1 _ => (((h1.endFsk _ _).fskRxOwner
      _).ite h1))).foldl (fun _ h1 _ => ((h1.canOwnerChange _).ite h1))).foldl (fun _ h1 _ => ((h1.clearBuffer _).ite
      h1))).revokeFlights).foldl (fun _ h1 _ => ((h1.ite (h1.revokeCarried _ _)).nullItems _
      _))).dlPartition).bsnPartition).grantAll _

theorem KeepsForm.toggleTable (h : KeepsForm c₀ c) (d : TableDesc) : KeepsForm c₀ (Machine.toggleTable c d) := by
  unfold Machine.toggleTable
  exact (h.setFld _ _ _ _).wrapFld _ _ _

theorem KeepsForm.closeChanged (h : KeepsForm c₀ c) (old new : Nat) : KeepsForm c₀ (Machine.closeChanged old new c) := by
  unfold Machine.closeChanged
  exact h.foldl (fun _ h1 _ => (h1.ite (h1.closeSource _)))

theorem KeepsForm.afterSwap (h : KeepsForm c₀ c) (was : Chip) (code : Nat) : KeepsForm c₀ (Machine.afterSwap was c code) := by
  unfold Machine.afterSwap
  split
  · exact h.partitionChange _
  · exact h.setReg _ _
  · exact h.loopSwap _
  · exact h.almSwap _ _
  · exact h.callTake.ite h
  · exact h.closeChanged _ _
  · exact h.tripLoad.legsFollowTrips
  · exact h.sptSwap _ _
  · exact h

theorem KeepsForm.swapTable (h : KeepsForm c₀ c) (code : Nat) : KeepsForm c₀ (Machine.swapTable c code) := by
  unfold Machine.swapTable
  dsimp only
  split
  · exact ((((((h.toggleTable _).afterSwap _ _).nodeRec _ _ _).tellSwap _).tableReloaded _).completeWhere _ _).ite h
  · exact h

theorem KeepsForm.boundarySwaps (h : KeepsForm c₀ c) : KeepsForm c₀ (Machine.boundarySwaps c) := by
  unfold Machine.boundarySwaps
  exact ((((((h.swapsDue.swapTable _).swapTable _).ucSwap).foldl (fun _ h1 _ => (h1.swapTable _))).applyDone).ite
      ((((h.swapsDue.swapTable _).swapTable _).ucSwap).foldl (fun _ h1 _ => (h1.swapTable _)))).endRawSubst

theorem KeepsForm.tripSnapshot (h : KeepsForm c₀ c) (j : Nat) : KeepsForm c₀ (Machine.tripSnapshot c j) := by
  unfold Machine.tripSnapshot
  exact (h.ite (h.withTrips _)).writeLive _ _ _

theorem KeepsForm.copySnapshot (h : KeepsForm c₀ c) : KeepsForm c₀ (Machine.copySnapshot c) := h.withPoints (smWf_smMap _)

theorem KeepsForm.formValues (h : KeepsForm c₀ c) (fn : Nat) : KeepsForm c₀ (Machine.formValues c fn) := by
  unfold Machine.formValues
  exact h.modFn _ _

theorem KeepsForm.boundarySnapshot (h : KeepsForm c₀ c) (len : Nat) : KeepsForm c₀ (Machine.boundarySnapshot c len) := by
  unfold Machine.boundarySnapshot
  dsimp only
  refine KeepsForm.streamsFrame ?_
  refine KeepsForm.switchbackFrame ?_
  refine KeepsForm.takeSet ?_
  refine KeepsForm.foldl ?_ (fun _ h1 _ => ?_)
  · refine KeepsForm.applyReady ?_
    refine KeepsForm.copySnapshot ?_
    exact (h.foldl (fun _ h1 _ => (h1.tripSnapshot _))).keep rfl rfl rfl rfl rfl
  · exact h1.formValues _

theorem KeepsForm.putValueSet (h : KeepsForm c₀ c) (fn : Nat) (s : Nat × List EvEnt) : KeepsForm c₀ (Machine.putValueSet fn c s)
    := by
  unfold Machine.putValueSet
  exact ((h.dropSub _ _).ite h).putEvents _ _

theorem KeepsForm.publishValues (h : KeepsForm c₀ c) (sets : List (Nat × List (Nat × List EvEnt))) :
    KeepsForm c₀ (Machine.publishValues sets c) := by
  unfold Machine.publishValues
  exact h.foldl (fun _ h1 _ => (h1.foldl (fun _ h2 _ => (h2.putValueSet _ _))))

theorem KeepsForm.clearFormed (h : KeepsForm c₀ c) : KeepsForm c₀ (Machine.clearFormed c) := by
  unfold Machine.clearFormed
  exact (h.withTrips _).foldl (fun _ h1 _ => (h1.modFn _ _))

theorem KeepsForm.publishMirror (h : KeepsForm c₀ c) : KeepsForm c₀ (Machine.publishMirror c) := by
  unfold Machine.publishMirror
  exact ((h.publishWords _ _).publishWords _ _).modAlm _

theorem KeepsForm.boundaryPublish (h : KeepsForm c₀ c) (old : Chip) (f : Formed) (frame : Nat) :
    KeepsForm c₀ (Machine.boundaryPublish old c f frame) := by
  unfold Machine.boundaryPublish
  exact (((((((h.almPublish.foldl (fun _ h1 _ => (h1.putEvent _ _))).callPublish).publishMirror).ite ((h.almPublish.foldl (fun _
      h1 _ => (h1.putEvent _ _))).callPublish)).sptPublish _ _).lcdPublish).publishValues _).almComplete

theorem KeepsForm.evaluateFrame (h : KeepsForm c₀ c) : KeepsForm c₀ (Machine.evaluateFrame c) := by
  unfold Machine.evaluateFrame
  exact h.callIdle.ite (h.alarmEvaluation _)

theorem KeepsForm.boundaryBegin (h : KeepsForm c₀ c) (first : Bool) : KeepsForm c₀ (Machine.boundaryBegin c first) := by
  unfold Machine.boundaryBegin
  exact (((((((((((h.sdlSync.ite h.evaluateFrame).takeoverCheck).modeEffect).demoteCheck).modMode _).evaluateFrame).ite
      (((((h.sdlSync.ite h.evaluateFrame).takeoverCheck).modeEffect).demoteCheck).modMode _)).dmaFrame).foldl (fun _ h1 _ =>
      (h1.drainFifo _))).foldl (fun _ h1 _ => (h1.modFn _ _))).autoAdmit _).ite (((((((((((h.sdlSync.ite
      h.evaluateFrame).takeoverCheck).modeEffect).demoteCheck).modMode _).evaluateFrame).ite (((((h.sdlSync.ite
      h.evaluateFrame).takeoverCheck).modeEffect).demoteCheck).modMode _)).dmaFrame).foldl (fun _ h1 _ => (h1.drainFifo
      _))).foldl (fun _ h1 _ => (h1.modFn _ _))).autoFrame)

theorem KeepsForm.shortSlot (h : KeepsForm c₀ c) (k : Nat) : KeepsForm c₀ (Machine.shortSlot c k) := by
  unfold Machine.shortSlot
  exact h.withSeq _

theorem KeepsForm.slotsMissed (h : KeepsForm c₀ c) : KeepsForm c₀ (Machine.slotsMissed c) := by
  unfold Machine.slotsMissed
  exact h.foldl (fun _ h1 _ => ((h1.shortSlot _).ite h1))

theorem KeepsForm.frameBoundary (h : KeepsForm c₀ c) : KeepsForm c₀ (Machine.frameBoundary c) := by
  unfold Machine.frameBoundary
  exact h.ite ((((((((((((h.modMode _).loseHeld).ite (h.modMode _)).withImg _).ite (((((h.modMode _).loseHeld).ite (h.modMode
      _)).withImg _).slotsMissed)).setFrameNum _).boundarySwaps).withSeq _).clearFormed).boundarySnapshot _).ite
      (((((((((((h.modMode _).loseHeld).ite (h.modMode _)).withImg _).ite (((((h.modMode _).loseHeld).ite (h.modMode _)).withImg
      _).slotsMissed)).setFrameNum _).boundarySwaps).withSeq _).clearFormed).boundarySnapshot _).boundaryPublish _ _
      _)).boundaryBegin _)

theorem KeepsForm.entryAction (h : KeepsForm c₀ c) (i : Nat) (tickLane : Bool) : KeepsForm c₀ (Machine.entryAction c i tickLane)
    := by
  unfold Machine.entryAction
  dsimp only
  refine h.ite ?_
  split
  · exact h.contactEntry _
  · exact h.pulseEntry _
  · exact h.positionEntry _
  · exact h.dispatchLoop _ _ _
  · exact h.applyPoint _
  · exact h.setPending _ _
  · exact h

theorem KeepsForm.skipEntry (h : KeepsForm c₀ c) (k i : Nat) : KeepsForm c₀ (Machine.skipEntry c k i) := by
  unfold Machine.skipEntry
  exact ((h.shortSlot _).countFld _ _ _).postError _ _ _

theorem KeepsForm.runSlot {s : Chip × Nat} (h : KeepsForm c₀ s.1) (k : Nat) (i : Nat) :
    KeepsForm c₀ (Machine.runSlot k s i).1 := by
  unfold Machine.runSlot
  exact KeepsForm.iteFst (h.skipEntry _ _).fst (KeepsForm.iteFst (h.shortSlot _).fst (h.entryAction _ _).fst)

theorem KeepsForm.slotBegin (h : KeepsForm c₀ c) (k : Nat) (work : List Nat) : KeepsForm c₀ (Machine.slotBegin c k work) := by
  unfold Machine.slotBegin
  exact h.ite (((KeepsForm.iteFst (((h.modFn _ _).withSeq _).fst.foldlFst (fun _ h1 _ => (h1.runSlot _ _))) ((h.modFn _
      _).withSeq _).fst).continueCommand _ _).runCommands _ _)

theorem KeepsForm.baseTick (h : KeepsForm c₀ c) : KeepsForm c₀ (Machine.baseTick c) := by
  unfold Machine.baseTick
  exact h.ite (((((h.tripInputCopy.ite h).legsTick).resyncTick).foldl (fun _ h1 _ => (h1.entryAction _ _))).withSeq _)

theorem KeepsForm.entryRow {f : Chip} (h : KeepsForm c₀ c) (op i : Nat) (hf : KeepsForm c₀ f) :
    KeepsForm c₀ (Machine.entryRow c op i f) := hf.ite h

theorem KeepsForm.scanRow (h : KeepsForm c₀ c) (op i : Nat) : KeepsForm c₀ (Machine.scanRow c op i) :=
  h.entryRow _ _ (h.entryAction _ _)

theorem KeepsForm.internalEntry (h : KeepsForm c₀ c) (i : Nat) (x : Rat) : KeepsForm c₀ (Machine.internalEntry c i x) :=
  h.entryRow _ _ (h.writeValue _ _ _ _ _ _)

theorem KeepsForm.staleTimeout (h : KeepsForm c₀ c) (p : Nat) : KeepsForm c₀ (Machine.staleTimeout c p) := by
  unfold Machine.staleTimeout
  exact h.ite (h.setPoint _ _)

theorem KeepsForm.modSeq (h : KeepsForm c₀ c) (f : SeqSt → SeqSt) : KeepsForm c₀ (Machine.modSeq c f) := h.withSeq _

theorem KeepsForm.beginBlank (h : KeepsForm c₀ c) (b : Nat) : KeepsForm c₀ (Machine.beginBlank c b) := by
  unfold Machine.beginBlank
  exact h.ite ((h.setFlag _ _ _).countFld _ _ _)

theorem KeepsForm.blankActive (h : KeepsForm c₀ c) (b : Nat) : KeepsForm c₀ (Machine.blankActive c b) := by
  unfold Machine.blankActive
  exact h.ite (((h.modSeq _).beginBlank _).ite (h.modSeq _))

theorem KeepsForm.blankInactive (h : KeepsForm c₀ c) (b : Nat) : KeepsForm c₀ (Machine.blankInactive c b) := by
  unfold Machine.blankInactive
  exact (((h.modSeq _).setFlag _ _ _).ite (((h.modSeq _).modSeq _).ite (h.modSeq _))).ite h

theorem KeepsForm.blankPostEnd (h : KeepsForm c₀ c) (b : Nat) : KeepsForm c₀ (Machine.blankPostEnd c b) := by
  unfold Machine.blankPostEnd
  exact ((h.modSeq _).endBlank _).ite h

theorem KeepsForm.blankStuck (h : KeepsForm c₀ c) (b : Nat) : KeepsForm c₀ (Machine.blankStuck c b) := by
  unfold Machine.blankStuck
  exact ((((h.endBlank _).ite h).setFlag _ _ _).postErrorRec _ _ _).ite h

theorem KeepsForm.hookBlank (h : KeepsForm c₀ c) (w : WriteCtx) : KeepsForm c₀ (Machine.hookBlank w c) := by
  unfold Machine.hookBlank
  exact h.foldl (fun _ h1 _ => (((h1.beginBlank _).ite h1).ite (((h1.modSeq _).endBlank _).ite h1)))

theorem KeepsForm.sentryConfirm (h : KeepsForm c₀ c) (i : Nat) (f : Int) : KeepsForm c₀ (Machine.sentryConfirm c i f) := by
  unfold Machine.sentryConfirm
  exact (((h.modSeq _).setReg _ _).sentryWake).ite ((h.setReg _ _).ite ((h.setFlag _ _ _).ite h))

theorem KeepsForm.sentryFree (h : KeepsForm c₀ c) (e : SentrySt) (seen : SentrySeen) : KeepsForm c₀ (Machine.sentryFree c e
    seen) := by
  unfold Machine.sentryFree
  exact h.takeFree.ite h

theorem KeepsForm.sentryScan (h : KeepsForm c₀ c) (i : Nat) (seen : SentrySeen) : KeepsForm c₀ (Machine.sentryScan c i seen) :=
    by
  unfold Machine.sentryScan
  dsimp only
  split
  · split
    · exact h.ite (((h.sentryFree _ _).modSeq _).ite (((h.sentryFree _ _).modSeq _).sentryConfirm _ _))
    · exact h
  · exact h

theorem KeepsForm.waitedLong (h : KeepsForm c₀ c) (p : Nat) : KeepsForm c₀ (Machine.waitedLong c p) := by
  unfold Machine.waitedLong
  exact h.withPwr _

theorem KeepsForm.breachStart (h : KeepsForm c₀ c) (p code : Nat) : KeepsForm c₀ (Machine.breachStart c p code) := by
  unfold Machine.breachStart
  exact (((h.waitedLong _).ite h).openBreach _ _).ite ((h.waitedLong _).ite h)

theorem KeepsForm.breachEnd (h : KeepsForm c₀ c) (p code us : Nat) : KeepsForm c₀ (Machine.breachEnd c p code us) := by
  unfold Machine.breachEnd
  exact (h.closeBreach _ _ _).ite h

/-! ## Writes of any BAR0 register -/

theorem KeepsForm.hookRotCfg (h : KeepsForm c₀ c) (w : WriteCtx) : KeepsForm c₀ (Machine.hookRotCfg w c) := h.rotationCheck _

theorem nodeHook_cases (p : Hook → Prop) (off : Nat) (hreq : p hookModeReq) (hreset : p hookNodeReset) (himg : p hookImgCmd)
    (happly : p hookApply) (hctl : p hookUcCtl) (hdata : p hookUcData) (hdom : p hookDomEn) (hbudget : p hookBudget) (hnone : p
    hookNone) :
    p (nodeHook off) := by
  unfold nodeHook
  split
  · exact hreq
  · exact hreset
  · exact himg
  · exact happly
  · exact hctl
  · exact hdata
  · exact hdom
  · exact hbudget
  · exact hbudget
  · exact hnone

theorem KeepsForm.nodeHook (h : KeepsForm c₀ c) (off : Nat) (w : WriteCtx) : KeepsForm c₀ (Machine.nodeHook off w c) :=
  nodeHook_cases (fun f => KeepsForm c₀ (f w c)) off (h.hookModeReq _) (h.hookNodeReset _) (h.hookImgCmd _) (h.hookApply _)
      (h.hookUcCtl _) (h.hookUcData _) (h.hookDomEn _) (h.hookBudget _) h

theorem hostHook_cases (p : Hook → Prop) (off : Nat) (hbase : p hookRingBase) (hcfg : p hookRingCfg) (hmsix : p hookMsix) (hnone
    : p hookNone) :
    p (hostHook off) := by
  unfold hostHook
  dsimp only
  split
  · exact hnone
  · split
    · split <;> assumption
    · split <;> assumption

theorem KeepsForm.hostHook (h : KeepsForm c₀ c) (off : Nat) (w : WriteCtx) : KeepsForm c₀ (Machine.hostHook off w c) :=
  hostHook_cases (fun f => KeepsForm c₀ (f w c)) off (h.hookRingBase _) (h.hookRingCfg _) (h.hookMsix _) h

theorem acqHook_cases (p : Hook → Prop) (off : Nat) (hrot : p hookRotCfg) (hsetup : p hookSetup) (hcm : p hookCmwin) (hnone : p
    hookNone) :
    p (acqHook off) := by
  unfold acqHook
  dsimp only
  split
  · exact hrot
  · split
    · split <;> assumption
    · exact hnone

theorem KeepsForm.acqHook (h : KeepsForm c₀ c) (off : Nat) (w : WriteCtx) : KeepsForm c₀ (Machine.acqHook off w c) :=
  acqHook_cases (fun f => KeepsForm c₀ (f w c)) off (h.hookRotCfg _) (h.hookSetup _) (h.hookCmwin _) h

theorem loopHook_cases (p : Hook → Prop) (off : Nat) (hcfg : p hookLoopCfg) (hclamp : p hookClamp) (htrim : p hookTrimCmd)
    (hnone : p hookNone) :
    p (loopHook off) := by
  unfold loopHook
  dsimp only
  split
  · split <;> assumption
  · exact hnone

theorem KeepsForm.loopHook (h : KeepsForm c₀ c) (off : Nat) (w : WriteCtx) : KeepsForm c₀ (Machine.loopHook off w c) :=
  loopHook_cases (fun f => KeepsForm c₀ (f w c)) off (h.hookLoopCfg _) (h.hookClamp _) (h.hookTrimCmd _) h

theorem dioHook_cases (p : Hook → Prop) (off : Nat) (hthr : p hookDiThr) (hcfg : p hookDiCfg) (hpi : p hookPiCfg) (hpithr : p
    hookPiThr) (hscale : p hookPiScale) (hnone : p hookNone) :
    p (dioHook off) := by
  unfold dioHook
  dsimp only
  split
  · exact hthr
  · split
    · exact hcfg
    · split
      · split <;> assumption
      · exact hnone

theorem KeepsForm.dioHook (h : KeepsForm c₀ c) (off : Nat) (w : WriteCtx) : KeepsForm c₀ (Machine.dioHook off w c) :=
  dioHook_cases (fun f => KeepsForm c₀ (f w c)) off (h.hookDiThr _) (h.hookDiCfg _) (h.hookPiCfg _) (h.hookPiThr _)
      (h.hookPiScale _) h

theorem actHook_cases (p : Hook → Prop) (off : Nat) (hleg : p hookLeg) (hctrl : p hookLegCtrl) (hpos : p hookPos) (hnone : p
    hookNone) :
    p (actHook off) := by
  unfold actHook
  dsimp only
  split
  · split <;> assumption
  · split
    · split <;> assumption
    · exact hnone

theorem KeepsForm.actHook (h : KeepsForm c₀ c) (off : Nat) (w : WriteCtx) : KeepsForm c₀ (Machine.actHook off w c) :=
  actHook_cases (fun f => KeepsForm c₀ (f w c)) off (h.hookLeg _) (h.hookLegCtrl _) (h.hookPos _) h

theorem hookFor_cases (p : Hook → Prop) (off : Nat) (h : ∀ f ∈ [nodeHook off, hostHook off, acqHook off, loopHook off, dioHook
    off,
    actHook off, hookTuneCtl, hookNone, hookAlm, hookCall, hookBsn, hookDma, hookCan, hookBlank, hookSdlUpd, hookRtc, hookLcd,
    hookDiagCtl, hookDiagCnt], p f) : p (hookFor off) := by
  have hite {q : Prop} [Decidable q] {x y : Hook} (hx : p x) (hy : p y) : p (if q then x else y) := by
    split
    · exact hx
    · exact hy
  simp only [List.forall_mem_cons, List.not_mem_nil, false_implies, implies_true, and_true] at h
  obtain ⟨hnode, hhost, hacq, hloop, hdio, hact, htune, hnone, halm, hcall, hbsn, hdma, hcan, hblank, hsdl, hrtc, hlcd, hctl,
      hcnt⟩ := h
  unfold hookFor
  exact hite hnode (hite hhost (hite hacq (hite hloop (hite hdio (hite hact (hite (hite htune hnone) (hite halm (hite hcall
    (hite hbsn (hite hdma (hite hcan (hite hblank (hite hsdl (hite (hite hrtc hlcd) (hite hctl (hite hcnt hnone))))))))))))))))

theorem KeepsForm.hookFor (h : KeepsForm c₀ c) (off : Nat) (w : WriteCtx) : KeepsForm c₀ (Machine.hookFor off w c) := by
  refine hookFor_cases (fun f => KeepsForm c₀ (f w c)) off ?_
  simp only [List.forall_mem_cons, List.not_mem_nil, false_implies, implies_true, and_true]
  exact ⟨h.nodeHook _ _, h.hostHook _ _, h.acqHook _ _, h.loopHook _ _, h.dioHook _ _, h.actHook _ _, h.hookTuneCtl _, h,
      h.hookAlm _,
    h.hookCall _, h.hookBsn _, h.hookDma _, h.hookCan _, h.hookBlank _, h.hookSdlUpd _, h.hookRtc _, h.hookLcd _, h.hookDiagCtl
        _,
    h.hookDiagCnt _⟩

theorem KeepsForm.regWrite (h : KeepsForm c₀ c) (fn off : Nat) (bs : WriteBytes) : KeepsForm c₀ (Machine.regWrite c fn off bs)
    := by
  unfold Machine.regWrite
  exact (h.postError _ _ _).ite (h.writePair _ _ _ _ _ _ _ _ (fun _ _ h1 => (h1.hookFor _ _)) (fun _ _ h1 => (h1.hookFor _ _)))

theorem KeepsForm.bsnCtlWrite (h : KeepsForm c₀ c) (fn : Fn) (v : Word) (be : BitVec 4) :
    KeepsForm c₀ (Machine.bsnCtlWrite c fn v be) := by
  unfold Machine.bsnCtlWrite
  exact h.writeWord _ _ _ _ _ (fun _ _ h1 => (h1.hookBsn _))

theorem KeepsForm.dpWrite (h : KeepsForm c₀ c) (fn : Fn) (n : Nat) (v : Word) (be : BitVec 4) :
    KeepsForm c₀ (Machine.dpWrite c fn n v be) := by
  unfold Machine.dpWrite
  exact h.writeWord _ _ _ _ _ (fun _ _ h1 => (h1.hookDma _))

theorem KeepsForm.dlWrite (h : KeepsForm c₀ c) (fn : Fn) (n : Nat) (v : Word) (be : BitVec 4) :
    KeepsForm c₀ (Machine.dlWrite c fn n v be) := by
  unfold Machine.dlWrite
  exact h.writeWord _ _ _ _ _ (fun _ _ h1 => (h1.hookDma _))

theorem KeepsForm.dlOwnWrite (h : KeepsForm c₀ c) (fn : Fn) (n : Nat) (v : Word) (be : BitVec 4) :
    KeepsForm c₀ (Machine.dlOwnWrite c fn n v be) := by
  unfold Machine.dlOwnWrite
  exact h.writeWord _ _ _ _ _ (fun _ _ h1 => (h1.hookDma _))

theorem KeepsForm.canCtlWrite (h : KeepsForm c₀ c) (fn : Fn) (n : Nat) (v : Word) (be : BitVec 4) :
    KeepsForm c₀ (Machine.canCtlWrite c fn n v be) := by
  unfold Machine.canCtlWrite
  exact h.writeWord _ _ _ _ _ (fun _ _ h1 => (h1.hookCan _))

theorem KeepsForm.rtcSetWrite (h : KeepsForm c₀ c) (fn : Fn) (v : Word) (be : BitVec 4) :
    KeepsForm c₀ (Machine.rtcSetWrite c fn v be) := by
  unfold Machine.rtcSetWrite
  exact h.writeWord _ _ _ _ _ (fun _ _ h1 => (h1.hookRtc _))

theorem KeepsForm.rtcShiftWrite (h : KeepsForm c₀ c) (fn : Fn) (v : Word) (be : BitVec 4) :
    KeepsForm c₀ (Machine.rtcShiftWrite c fn v be) := by
  unfold Machine.rtcShiftWrite
  exact h.writeWord _ _ _ _ _ (fun _ _ h1 => (h1.hookRtc _))

end Sys2Proof.Machine
end

section
-- One proof at a time: every thread takes a stack of its own from the memory that a compile has.
set_option Elab.async false
/-! SUPPORT. Every command, and so every step, keeps the canonical form (log 3). -/

namespace Sys2Proof.Machine

/-- Every command keeps the canonical form. -/
theorem KeepsForm.exec (i : Instr) (s : State) : ∃ c, Machine.exec i s = .next { s with chip := c } ∧ KeepsForm s.chip c := by
  have h := KeepsForm.refl s.chip
  cases i with
  | nop _ _ => exact ⟨_, rfl, h.takeEntry _ _ _⟩
  | substitute _ _ => exact ⟨_, rfl, h.takeEntry _ _ _⟩
  | unsubstitute _ _ => exact ⟨_, rfl, h.takeEntry _ _ _⟩
  | setSetpoint _ _ => exact ⟨_, rfl, h.takeEntry _ _ _⟩
  | setLoopMode _ _ => exact ⟨_, rfl, h.takeEntry _ _ _⟩
  | setManualOutput _ _ => exact ⟨_, rfl, h.takeEntry _ _ _⟩
  | alarmAck _ _ => exact ⟨_, rfl, h.takeEntry _ _ _⟩
  | alarmShelve _ _ => exact ⟨_, rfl, h.takeEntry _ _ _⟩
  | alarmUnshelve _ _ => exact ⟨_, rfl, h.takeEntry _ _ _⟩
  | alarmService _ _ => exact ⟨_, rfl, h.takeEntry _ _ _⟩
  | callAck _ _ => exact ⟨_, rfl, h.takeEntry _ _ _⟩
  | subscribe _ _ => exact ⟨_, rfl, h.takeEntry _ _ _⟩
  | readPoints _ _ => exact ⟨_, rfl, h.takeEntry _ _ _⟩
  | tableSwap _ _ => exact ⟨_, rfl, h.takeEntry _ _ _⟩
  | tripClear _ _ => exact ⟨_, rfl, h.takeEntry _ _ _⟩
  | fskSend _ _ => exact ⟨_, rfl, h.takeEntry _ _ _⟩
  | canSend _ _ => exact ⟨_, rfl, h.takeEntry _ _ _⟩
  | dataCont _ _ => exact ⟨_, rfl, h.takeEntry _ _ _⟩
  | recClearArm _ _ => exact ⟨_, rfl, h.takeEntry _ _ _⟩
  | recClearConfirm _ _ => exact ⟨_, rfl, h.takeEntry _ _ _⟩
  | tuneStart _ _ => exact ⟨_, rfl, h.takeEntry _ _ _⟩
  | tuneStop _ _ => exact ⟨_, rfl, h.takeEntry _ _ _⟩
  | sdlResync _ _ => exact ⟨_, rfl, h.takeEntry _ _ _⟩
  | sdlSwitchback _ _ => exact ⟨_, rfl, h.takeEntry _ _ _⟩
  | modeRequest _ _ _ => exact ⟨_, rfl, h.modeRequest _ _ _⟩
  | nodeReset _ _ _ => exact ⟨_, rfl, h.nodeResetWrite _ _ _⟩
  | eraseBank _ _ _ => exact ⟨_, rfl, h.imgCmdWrite _ _ _⟩
  | commitBank _ _ _ => exact ⟨_, rfl, h.imgCmdWrite _ _ _⟩
  | imageApply _ _ _ => exact ⟨_, rfl, h.applyWrite _ _ _⟩
  | ucodeOpen _ _ _ => exact ⟨_, rfl, h.ucCtlWrite _ _ _⟩
  | ucodeData _ _ _ => exact ⟨_, rfl, h.ucDataWrite _ _ _⟩
  | ucodeApply _ _ _ => exact ⟨_, rfl, h.ucCtlWrite _ _ _⟩
  | ucodeStore _ _ _ => exact ⟨_, rfl, h.ucCtlWrite _ _ _⟩
  | ucodeErase _ _ _ => exact ⟨_, rfl, h.ucCtlWrite _ _ _⟩
  | domainEnable _ _ _ => exact ⟨_, rfl, h.domEnWrite _ _ _⟩
  | budgetWrite _ _ _ => exact ⟨_, rfl, h.budgetWrite _ _ _⟩
  | ringEnable _ _ _ _ _ => exact ⟨_, rfl, h.ringCfgWrite _ _ _ _ _⟩
  | ringDisable _ _ _ _ _ => exact ⟨_, rfl, h.ringCfgWrite _ _ _ _ _⟩
  | doorbell _ _ _ _ _ => exact ⟨_, rfl, h.doorbellWrite _ _ _ _ _⟩
  | functionLevelReset _ => exact ⟨_, rfl, h.functionReset _⟩
  | hostReset _ _ => exact ⟨_, rfl, h.hostReset _ _⟩
  | linkRetrain _ _ => exact ⟨_, rfl, h.linkTrained _ _⟩
  | regWrite _ _ _ => exact ⟨_, rfl, h.regWrite _ _ _⟩
  | malformedBar0Read _ _ _ => exact ⟨_, rfl, h.malformedRead _ _ _⟩
  | upperLatch _ _ => exact ⟨_, rfl, h.upperLatch _ _⟩
  | calendarLatch _ => exact ⟨_, rfl, h.calendarLatch _⟩
  | tableMemoryWrite _ _ _ => exact ⟨_, rfl, h.bar1Write _ _ _⟩
  | nvmWindowWrite _ _ _ => exact ⟨_, rfl, h.bar1Write _ _ _⟩
  | frameMemoryWrite _ _ _ => exact ⟨_, rfl, h.bar1Write _ _ _⟩
  | lcdFrameMemoryWrite _ _ _ => exact ⟨_, rfl, h.bar1Write _ _ _⟩
  | statusPortRead _ => exact ⟨_, rfl, h.statusPortRead _⟩
  | railLoss _ _ => exact ⟨_, rfl, h.railLoss _ _⟩
  | railReturn _ => exact ⟨_, rfl, h.railReturn _⟩
  | pinReset => exact ⟨_, rfl, h.pinReset⟩
  | wakeN => exact ⟨_, rfl, h.wakeN⟩
  | startUp _ _ _ _ _ _ => exact ⟨_, rfl, h.startUp _ _ _ _ _ _⟩
  | leaveGrant => exact ⟨_, rfl, h.leaveGrant⟩
  | leaveTimeout _ => exact ⟨_, rfl, h.leaveTimeout _⟩
  | surgeRelease _ => exact ⟨_, rfl, h.surgeRelease _⟩
  | domainOn _ => exact ⟨_, rfl, h.domainOn _⟩
  | domainOff _ => exact ⟨_, rfl, h.domainOff _⟩
  | xtalLoss => exact ⟨_, rfl, h.xtalLoss⟩
  | xtalReturn => exact ⟨_, rfl, h.xtalReturn⟩
  | pllmLoss => exact ⟨_, rfl, h.pllmLoss⟩
  | pllmRelock => exact ⟨_, rfl, h.pllmRelock⟩
  | pllcLoss => exact ⟨_, rfl, h.pllcLoss⟩
  | refLoss => exact ⟨_, rfl, h.refLoss⟩
  | safeHoldOpen => exact ⟨_, rfl, h.safeHoldOpen⟩
  | nodeFatal _ => exact ⟨_, rfl, h.nodeFatal _⟩
  | frameBoundary => exact ⟨_, rfl, h.frameBoundary⟩
  | slotBegin _ => exact ⟨_, rfl, h.slotBegin _ _⟩
  | baseTick => exact ⟨_, rfl, h.baseTick⟩
  | scanNop _ => exact ⟨_, rfl, h.scanRow _ _⟩
  | acq _ _ _ _ => exact ⟨_, rfl, h.bankWork _ fun _ h => h.acqOutput _ _ _ _⟩
  | contact _ => exact ⟨_, rfl, h.scanRow _ _⟩
  | pulse _ => exact ⟨_, rfl, h.scanRow _ _⟩
  | position _ => exact ⟨_, rfl, h.scanRow _ _⟩
  | internal _ _ => exact ⟨_, rfl, h.internalEntry _ _⟩
  | loop _ => exact ⟨_, rfl, h.scanRow _ _⟩
  | out _ => exact ⟨_, rfl, h.scanRow _ _⟩
  | dmaSignal _ => exact ⟨_, rfl, h.scanRow _ _⟩
  | loopEvaluation _ _ => exact ⟨_, rfl, h.loopEvaluation _ _⟩
  | deadlineMiss _ => exact ⟨_, rfl, h.deadlineMiss _⟩
  | captureTimeout _ => exact ⟨_, rfl, h.captureTimeout _⟩
  | release _ _ _ _ => exact ⟨_, rfl, h.releaseWrite _ _ _ _⟩
  | macLaneSelftest _ _ => exact ⟨_, rfl, h.macLaneSelftest _ _⟩
  | blankActive _ => exact ⟨_, rfl, h.blankActive _⟩
  | blankPostEnd _ => exact ⟨_, rfl, h.blankPostEnd _⟩
  | blankStuck _ => exact ⟨_, rfl, h.blankStuck _⟩
  | sentryScan _ _ => exact ⟨_, rfl, h.sentryScan _ _⟩
  | acqSetupWrite _ _ _ _ _ => exact ⟨_, rfl, h.acqSetupWrite _ _ _ _ _⟩
  | rtd3PhaseChange _ _ => exact ⟨_, rfl, h.rtd3PhaseChange _ _⟩
  | protectionOpen _ => exact ⟨_, rfl, h.protectionOpen _⟩
  | protectionEnd _ => exact ⟨_, rfl, h.protectionEnd _⟩
  | shuntOpen _ => exact ⟨_, rfl, h.shuntOpen _⟩
  | shuntReconnectTest _ _ => exact ⟨_, rfl, h.shuntReconnectTest _ _⟩
  | iepeBiasCheck _ _ => exact ⟨_, rfl, h.iepeBiasCheck _ _⟩
  | rotationPhaseEnd _ => exact ⟨_, rfl, h.rotationPhaseEnd _⟩
  | calibrationEnd _ _ _ _ => exact ⟨_, rfl, h.bankWork _ fun _ h => h.calibrationEnd _ _ _ _⟩
  | cellMonitorFail _ _ => exact ⟨_, rfl, h.bankWork _ fun _ h => h.cellMonitorFail _ _⟩
  | calAged _ => exact ⟨_, rfl, h.calAged _⟩
  | cmCheck _ _ => exact ⟨_, rfl, h.cmCheck _ _⟩
  | testToneStart _ => exact ⟨_, rfl, h.testToneStart _⟩
  | testToneEnd _ _ _ => exact ⟨_, rfl, h.testToneEnd _ _ _⟩
  | loopModeWrite _ _ _ _ => exact ⟨_, rfl, h.loopModeWrite _ _ _ _⟩
  | cellModeEnter _ => exact ⟨_, rfl, h.cellModeEnter _⟩
  | readbackUpdate _ _ _ _ _ _ => exact ⟨_, rfl, h.readbackUpdate _ _ _ _ _ _⟩
  | loopFaultSet _ _ => exact ⟨_, rfl, h.loopFaultSet _ _⟩
  | lnSwitchOpen _ => exact ⟨_, rfl, h.lnSwitchOpen _⟩
  | lnReconnectTest _ _ => exact ⟨_, rfl, h.lnReconnectTest _ _⟩
  | overtemp _ _ => exact ⟨_, rfl, h.overtemp _ _⟩
  | wdHold _ => exact ⟨_, rfl, h.wdHold _⟩
  | wdOpen _ => exact ⟨_, rfl, h.wdOpen _⟩
  | force _ _ _ _ => exact ⟨_, rfl, h.writeTrimCmd _ _ _ _⟩
  | store _ _ _ _ => exact ⟨_, rfl, h.writeTrimCmd _ _ _ _⟩
  | storeDone => exact ⟨_, rfl, h.storeDone⟩
  | buttonPress _ => exact ⟨_, rfl, h.buttonPress _⟩
  | buttonRepeat _ _ => exact ⟨_, rfl, h.buttonRepeat _ _⟩
  | buttonStoreHold => exact ⟨_, rfl, h.buttonStoreHold⟩
  | fskTxStart _ => exact ⟨_, rfl, h.fskTxStart _⟩
  | fskCarrierTimeout _ => exact ⟨_, rfl, h.fskCarrierTimeout _⟩
  | fskTxEnd _ => exact ⟨_, rfl, h.fskTxEnd _⟩
  | fskRxEnd _ _ _ => exact ⟨_, rfl, h.fskRxEnd _ _ _⟩
  | contactSample _ _ => exact ⟨_, rfl, h.contactSample _ _⟩
  | pulseEdge _ _ => exact ⟨_, rfl, h.pulseEdge _ _⟩
  | gateEnd _ _ => exact ⟨_, rfl, h.gateEnd _ _⟩
  | pulseTimeout _ => exact ⟨_, rfl, h.pulseTimeout _⟩
  | tripCauseRise _ => exact ⟨_, rfl, h.tripInputs _⟩
  | tripCauseFall _ => exact ⟨_, rfl, h.tripInputs _⟩
  | armRequest _ _ _ _ => exact ⟨_, rfl, h.writeLegCtrl _ _ _ _⟩
  | legDisarm _ _ _ _ => exact ⟨_, rfl, h.writeLegCtrl _ _ _ _⟩
  | prechargeEnd _ => exact ⟨_, rfl, h.prechargeEnd _⟩
  | carrierZero _ _ => exact ⟨_, rfl, h.carrierZero _ _⟩
  | shortDetectorFire _ _ => exact ⟨_, rfl, h.shortDetectorFire _ _ _⟩
  | blankingEnd _ _ => exact ⟨_, rfl, h.blankingEnd _ _⟩
  | legWatchdogExpiry _ => exact ⟨_, rfl, h.legWatchdogExpiry _⟩
  | quadratureEdge _ _ _ => exact ⟨_, rfl, h.quadratureEdge _ _ _⟩
  | indexEdge _ => exact ⟨_, rfl, h.indexEdge _⟩
  | accept _ _ => exact ⟨_, rfl, h.acceptFrom _ _⟩
  | ack _ _ => exact ⟨_, rfl, h.ackFrom _ _⟩
  | callFrameRepeat => exact ⟨_, rfl, h.callFrameRepeat⟩
  | recordClose _ => exact ⟨_, rfl, h.recordClose _⟩
  | tailPage _ => exact ⟨_, rfl, h.tailPage _⟩
  | otPage => exact ⟨_, rfl, h.otPage⟩
  | clearArmExpiry => exact ⟨_, rfl, h.clearArmExpiry⟩
  | clearDone => exact ⟨_, rfl, h.clearDone⟩
  | recordDelivery _ => exact ⟨_, rfl, h.recordDelivery _⟩
  | holdQueueDrain _ => exact ⟨_, rfl, h.holdQueueDrain _⟩
  | msixMessage _ _ => exact ⟨_, rfl, h.msixMessage _ _⟩
  | guaranteeBreachStart _ _ => exact ⟨_, rfl, h.breachStart _ _⟩
  | guaranteeBreachEnd _ _ _ => exact ⟨_, rfl, h.breachEnd _ _ _⟩
  | create _ _ _ => exact ⟨_, rfl, h.bsnCtlWrite _ _ _⟩
  | basinAdmit _ _ _ => exact ⟨_, rfl, h.bsnCtlWrite _ _ _⟩
  | detach _ _ _ => exact ⟨_, rfl, h.bsnCtlWrite _ _ _⟩
  | replace _ _ _ => exact ⟨_, rfl, h.bsnCtlWrite _ _ _⟩
  | retire _ _ _ => exact ⟨_, rfl, h.bsnCtlWrite _ _ _⟩
  | eraseKey _ _ _ => exact ⟨_, rfl, h.bsnCtlWrite _ _ _⟩
  | chunkWrite _ => exact ⟨_, rfl, h.chunkWrite _⟩
  | nvmeCompletion _ _ => exact ⟨_, rfl, h.nvmeCompletion _ _⟩
  | memberLost _ _ => exact ⟨_, rfl, h.memberLost _ _⟩
  | healthLogRead _ _ => exact ⟨_, rfl, h.healthLogRead _ _⟩
  | rebuildStrip => exact ⟨_, rfl, h.rebuildStrip⟩
  | waveformCaptureEnd _ => exact ⟨_, rfl, h.waveformCaptureEnd _⟩
  | dpGo _ _ _ _ => exact ⟨_, rfl, h.dpWrite _ _ _ _⟩
  | dpStop _ _ _ _ => exact ⟨_, rfl, h.dpWrite _ _ _ _⟩
  | move _ => exact ⟨_, rfl, h.dpMove _⟩
  | dmaLoop _ => exact ⟨_, rfl, h.dpLoop _⟩
  | wait _ => exact ⟨_, rfl, h.dpWait _⟩
  | signal _ => exact ⟨_, rfl, h.dpSignal _⟩
  | dmaBurst _ _ => exact ⟨_, rfl, h.dmaBurst _ _ _⟩
  | portRequest _ => exact ⟨_, rfl, h.portRequest _⟩
  | portWithdraw _ _ => exact ⟨_, rfl, h.portWithdraw _ _⟩
  | dlGo _ _ _ _ _ => exact ⟨_, rfl, (h.hostStores _).dlWrite _ _ _ _⟩
  | dlStop _ _ _ _ => exact ⟨_, rfl, h.dlWrite _ _ _ _⟩
  | descriptor _ => exact ⟨_, rfl, h.descriptor _⟩
  | dmaHostError _ _ => exact ⟨_, rfl, h.dmaHostError _ _⟩
  | completionPulse _ _ => exact ⟨_, rfl, h.completionPulse _ _⟩
  | ownerChange _ _ _ _ => exact ⟨_, rfl, h.dlOwnWrite _ _ _ _⟩
  | startOfFrame _ => exact ⟨_, rfl, h.startOfFrame _⟩
  | txOutcome _ _ _ => exact ⟨_, rfl, h.txOutcome _ _ _⟩
  | txTmo _ _ => exact ⟨_, rfl, h.txTmo _ _⟩
  | frameReceived _ _ _ _ _ _ => exact ⟨_, rfl, h.frameReceived _ _⟩
  | protocolException _ => exact ⟨_, rfl, h.protocolException _⟩
  | busOff _ => exact ⟨_, rfl, h.busOff _⟩
  | recover _ _ _ _ => exact ⟨_, rfl, h.canCtlWrite _ _ _ _⟩
  | recoveryEnd _ => exact ⟨_, rfl, h.recoveryEnd _⟩
  | canModeWrite _ _ _ _ => exact ⟨_, rfl, h.canCtlWrite _ _ _ _⟩
  | canModeEffect _ => exact ⟨_, rfl, h.canModeEffect _⟩
  | heartbeatTimer => exact ⟨_, rfl, h.heartbeatTimer⟩
  | heartbeat _ _ => exact ⟨_, rfl, h.rxHeartbeat _ _⟩
  | sync _ _ => exact ⟨_, rfl, h.rxSync _ _⟩
  | mirror _ _ => exact ⟨_, rfl, h.rxMirror _ _⟩
  | commit _ _ => exact ⟨_, rfl, h.rxCommit _ _⟩
  | record _ _ => exact ⟨_, rfl, h.rxRecord _ _⟩
  | resync _ _ => exact ⟨_, rfl, h.rxResync _ _⟩
  | failed _ _ => exact ⟨_, rfl, h.rxFailed _ _⟩
  | handover _ _ => exact ⟨_, rfl, h.rxHandover _ _⟩
  | taken _ _ => exact ⟨_, rfl, h.rxTaken _ _⟩
  | saddleRetransmit => exact ⟨_, rfl, h.saddleRetransmit⟩
  | contactLoss => exact ⟨_, rfl, h.contactLoss⟩
  | leaseRequestTimer => exact ⟨_, rfl, h.leaseRequestTimer⟩
  | leaseRequest _ _ => exact ⟨_, rfl, h.leaseRequests _ _⟩
  | leaseGrant _ => exact ⟨_, rfl, h.leaseGranted _⟩
  | leaseDeny _ => exact ⟨_, rfl, h.leaseDenied _⟩
  | leaseRelease _ _ => exact ⟨_, rfl, h.leaseReleased _ _⟩
  | leaseExpiry => exact ⟨_, rfl, h.leaseExpiry⟩
  | arbiterLeaseEnd => exact ⟨_, rfl, h.arbiterLeaseEnd⟩
  | arbiterHoldoffEnd => exact ⟨_, rfl, h.arbiterHoldoffEnd⟩
  | takeoverLegArm => exact ⟨_, rfl, h.takeoverLegArm⟩
  | switchbackTimeout => exact ⟨_, rfl, h.switchbackTimeout⟩
  | resyncStepEnd => exact ⟨_, rfl, h.resyncStepEnd⟩
  | allow _ _ _ => exact ⟨_, rfl, h.allowWrite _ _ _⟩
  | set _ _ _ => exact ⟨_, rfl, h.rtcSetWrite _ _ _⟩
  | shift _ _ _ => exact ⟨_, rfl, h.rtcShiftWrite _ _ _⟩
  | shiftStep => exact ⟨_, rfl, h.shiftStep⟩
  | calendarSecond => exact ⟨_, rfl, h.secondTick⟩
  | trimWindowEnd _ _ => exact ⟨_, rfl, h.trimWindowEnd _ _⟩
  | panelStart => exact ⟨_, rfl, h.panelStart⟩
  | biasReady => exact ⟨_, rfl, h.biasReady⟩
  | panelStop => exact ⟨_, rfl, h.panelStop⟩
  | biasDischarged => exact ⟨_, rfl, h.biasDischarged⟩
  | refreshFrame => exact ⟨_, rfl, h.refreshFrame⟩
  | pumpFault => exact ⟨_, rfl, h.pumpFault⟩
  | pumpRestart _ => exact ⟨_, rfl, h.pumpRestart _⟩
  | pop _ _ _ => exact ⟨_, rfl, h.popWrite _ _ _⟩
  | purge _ _ _ => exact ⟨_, rfl, h.purgeWrite _ _ _⟩
  | next _ _ _ => exact ⟨_, rfl, h.nextWrite _ _ _⟩
  | scrub _ _ _ => exact ⟨_, rfl, h.scrub _ _ _⟩
  | testLogicReset => exact ⟨_, rfl, h.tapReset⟩
  | samplePreload => exact ⟨_, rfl, h.samplePreload⟩
  | bypass => exact ⟨_, rfl, h.bypassSelect⟩
  | staleTimeout _ => exact ⟨_, rfl, h.staleTimeout _⟩
  | crystalEdge => exact ⟨_, rfl, h.edgeTick⟩
  | blankInactive _ => exact ⟨_, rfl, h.blankInactive _⟩
  | excitationLimit _ _ => exact ⟨_, rfl, h.excitationLimit _ _⟩
  | fskCarrierDetect _ _ => exact ⟨_, rfl, h.fskCarrierDetect _ _⟩
  | canBusError _ _ _ _ _ => exact ⟨_, rfl, h.canBusError _ _ _ _ _⟩
  | nvPortLinkUp _ _ _ _ => exact ⟨_, rfl, h.nvPortLinkUp _ _ _ _⟩
  | tckEdge _ _ _ => exact ⟨_, rfl, h.tckEdge _ _ _⟩
  | imageOpDone => exact ⟨_, rfl, h.imageOpDone⟩
  | ucodeStoreDone => exact ⟨_, rfl, h.ucStoreDone⟩

/-- A step answers the node that its command leaves, and the rest of the queue. -/
theorem KeepsForm.step {s t : State} (h : Machine.step s = .next t) : KeepsForm s.chip t.chip ∧ t.pending ⊆ s.pending := by
  unfold Machine.step at h
  split at h
  · next hnil =>
    cases h
    exact ⟨.refl _, List.Subset.refl _⟩
  · next i rest hcons =>
    obtain ⟨c, hexec, hkeeps⟩ := KeepsForm.exec i { s with pending := rest }
    cases hexec.symm.trans h
    exact ⟨hkeeps, hcons ▸ List.subset_cons_self i rest⟩

/-- Settles O5: each memory that a command writes, it writes by canonical operations. -/
theorem stepKeepsMemories : Obligations.StepKeepsMemories := by
  intro s t hstep hpending hhost htables hnvm
  obtain ⟨hkeeps, hrest⟩ := KeepsForm.step hstep
  exact ⟨hkeeps.ofHostMem hhost, hkeeps.ofTables htables, hkeeps.ofNvm hnvm, fun i hi => hpending i (hrest hi)⟩

/-- Settles O6: registers and points are written by canonical operations alone. -/
theorem stepKeepsRegisterFile : Obligations.StepKeepsRegisterFile := by
  intro s t hstep hregs hpoints
  obtain ⟨hkeeps, -⟩ := KeepsForm.step hstep
  exact ⟨hkeeps.ofRegs hregs, hkeeps.ofPoints hpoints⟩

end Sys2Proof.Machine
end

section
-- One proof at a time: every thread takes a stack of its own from the memory that a compile has.
set_option Elab.async false
/-! SUPPORT. Frames: what an update may change, composed from single updates. `PartStep` says that one part changed,
`Within` is `Changes` for a command that leaves the set-up of the rings, so that it composes with reports. -/

namespace Sys2Proof.Machine

/-! ## One rule per part -/

/-- `c'` differs from `c` in one part that is not the register file. -/
structure PartStep (p : Part) (c c' : Chip) : Prop where
  others : ∀ q, q ≠ p → samePart c c' q
  regs : c'.regs = c.regs

theorem PartStep.hostMem (c : Chip) (x : SMap Byte) : PartStep .hostMem c { c with hostMem := x } :=
  ⟨fun q hq => by
    cases q
    case hostMem => exact absurd rfl hq
    all_goals rfl, rfl⟩

theorem PartStep.tables (c : Chip) (x : SMap Byte) : PartStep .tables c { c with tables := x } :=
  ⟨fun q hq => by
    cases q
    case tables => exact absurd rfl hq
    all_goals rfl, rfl⟩

theorem PartStep.nvm (c : Chip) (x : SMap Byte) : PartStep .nvm c { c with nvm := x } :=
  ⟨fun q hq => by
    cases q
    case nvm => exact absurd rfl hq
    all_goals rfl, rfl⟩

theorem PartStep.points (c : Chip) (x : SMap PtEnt) : PartStep .points c { c with points := x } :=
  ⟨fun q hq => by
    cases q
    case points => exact absurd rfl hq
    all_goals rfl, rfl⟩

theorem PartStep.ot (c : Chip) (x : Nat) : PartStep .ot c { c with ot := x } :=
  ⟨fun q hq => by
    cases q
    case ot => exact absurd rfl hq
    all_goals rfl, rfl⟩

theorem PartStep.pwr (c : Chip) (x : PwrSt) : PartStep .pwr c { c with pwr := x } :=
  ⟨fun q hq => by
    cases q
    case pwr => exact absurd rfl hq
    all_goals rfl, rfl⟩

theorem PartStep.mode (c : Chip) (x : ModeSt) : PartStep .mode c { c with mode := x } :=
  ⟨fun q hq => by
    cases q
    case mode => exact absurd rfl hq
    all_goals rfl, rfl⟩

theorem PartStep.img (c : Chip) (x : ImgSt) : PartStep .img c { c with img := x } :=
  ⟨fun q hq => by
    cases q
    case img => exact absurd rfl hq
    all_goals rfl, rfl⟩

theorem PartStep.fns (c : Chip) (x : SMap FnSt) : PartStep .fns c { c with fns := x } :=
  ⟨fun q hq => by
    cases q
    case fns => exact absurd rfl hq
    all_goals rfl, rfl⟩

theorem PartStep.seq (c : Chip) (x : SeqSt) : PartStep .seq c { c with seq := x } :=
  ⟨fun q hq => by
    cases q
    case seq => exact absurd rfl hq
    all_goals rfl, rfl⟩

theorem PartStep.rcd (c : Chip) (x : RecSt) : PartStep .rcd c { c with rcd := x } :=
  ⟨fun q hq => by
    cases q
    case rcd => exact absurd rfl hq
    all_goals rfl, rfl⟩

theorem PartStep.diag (c : Chip) (x : DiagSt) : PartStep .diag c { c with diag := x } :=
  ⟨fun q hq => by
    cases q
    case diag => exact absurd rfl hq
    all_goals rfl, rfl⟩

theorem PartStep.breach (c : Chip) (x : SMap (Option Nat)) : PartStep .breach c { c with breach := x } :=
  ⟨fun q hq => by
    cases q
    case breach => exact absurd rfl hq
    all_goals rfl, rfl⟩

theorem PartStep.readOut (c : Chip) (x : Option Nat) : PartStep .readOut c { c with readOut := x } :=
  ⟨fun q hq => by
    cases q
    case readOut => exact absurd rfl hq
    all_goals rfl, rfl⟩

theorem PartStep.readAbort (c : Chip) (x : Bool) : PartStep .readAbort c { c with readAbort := x } :=
  ⟨fun q hq => by
    cases q
    case readAbort => exact absurd rfl hq
    all_goals rfl, rfl⟩

theorem PartStep.free (c : Chip) (x : Nat) : PartStep .free c { c with free := x } :=
  ⟨fun q hq => by
    cases q
    case free => exact absurd rfl hq
    all_goals rfl, rfl⟩

theorem PartStep.ana (c : Chip) (x : SMap AnaSt) : PartStep .ana c { c with ana := x } :=
  ⟨fun q hq => by
    cases q
    case ana => exact absurd rfl hq
    all_goals rfl, rfl⟩

theorem PartStep.bank (c : Chip) (x : SMap BankSt) : PartStep .bank c { c with bank := x } :=
  ⟨fun q hq => by
    cases q
    case bank => exact absurd rfl hq
    all_goals rfl, rfl⟩

theorem PartStep.corr (c : Chip) (x : SMap (Option Corr)) : PartStep .corr c { c with corr := x } :=
  ⟨fun q hq => by
    cases q
    case corr => exact absurd rfl hq
    all_goals rfl, rfl⟩

theorem PartStep.cells (c : Chip) (x : SMap LoopCell) : PartStep .cells c { c with cells := x } :=
  ⟨fun q hq => by
    cases q
    case cells => exact absurd rfl hq
    all_goals rfl, rfl⟩

theorem PartStep.trim (c : Chip) (x : TrimSt) : PartStep .trim c { c with trim := x } :=
  ⟨fun q hq => by
    cases q
    case trim => exact absurd rfl hq
    all_goals rfl, rfl⟩

theorem PartStep.gate (c : Chip) (x : Bool) : PartStep .gate c { c with gate := x } :=
  ⟨fun q hq => by
    cases q
    case gate => exact absurd rfl hq
    all_goals rfl, rfl⟩

theorem PartStep.contacts (c : Chip) (x : SMap ContactSt) : PartStep .contacts c { c with contacts := x } :=
  ⟨fun q hq => by
    cases q
    case contacts => exact absurd rfl hq
    all_goals rfl, rfl⟩

theorem PartStep.pulses (c : Chip) (x : SMap PulseSt) : PartStep .pulses c { c with pulses := x } :=
  ⟨fun q hq => by
    cases q
    case pulses => exact absurd rfl hq
    all_goals rfl, rfl⟩

theorem PartStep.trips (c : Chip) (x : TripSt) : PartStep .trips c { c with trips := x } :=
  ⟨fun q hq => by
    cases q
    case trips => exact absurd rfl hq
    all_goals rfl, rfl⟩

theorem PartStep.legs (c : Chip) (x : SMap LegSt) : PartStep .legs c { c with legs := x } :=
  ⟨fun q hq => by
    cases q
    case legs => exact absurd rfl hq
    all_goals rfl, rfl⟩

theorem PartStep.pos (c : Chip) (x : SMap PosSt) : PartStep .pos c { c with pos := x } :=
  ⟨fun q hq => by
    cases q
    case pos => exact absurd rfl hq
    all_goals rfl, rfl⟩

theorem PartStep.loops (c : Chip) (x : SMap LoopSt) : PartStep .loops c { c with loops := x } :=
  ⟨fun q hq => by
    cases q
    case loops => exact absurd rfl hq
    all_goals rfl, rfl⟩

theorem PartStep.evq (c : Chip) (x : List EvalReq) : PartStep .evq c { c with evq := x } :=
  ⟨fun q hq => by
    cases q
    case evq => exact absurd rfl hq
    all_goals rfl, rfl⟩

theorem PartStep.tune (c : Chip) (x : SMap TuneSt) : PartStep .tune c { c with tune := x } :=
  ⟨fun q hq => by
    cases q
    case tune => exact absurd rfl hq
    all_goals rfl, rfl⟩

theorem PartStep.rtc (c : Chip) (x : RtcSt) : PartStep .rtc c { c with rtc := x } :=
  ⟨fun q hq => by
    cases q
    case rtc => exact absurd rfl hq
    all_goals rfl, rfl⟩

theorem PartStep.can (c : Chip) (x : SMap CanSt) : PartStep .can c { c with can := x } :=
  ⟨fun q hq => by
    cases q
    case can => exact absurd rfl hq
    all_goals rfl, rfl⟩

theorem PartStep.alm (c : Chip) (x : AlmSt) : PartStep .alm c { c with alm := x } :=
  ⟨fun q hq => by
    cases q
    case alm => exact absurd rfl hq
    all_goals rfl, rfl⟩

theorem PartStep.call (c : Chip) (x : CallSt) : PartStep .call c { c with call := x } :=
  ⟨fun q hq => by
    cases q
    case call => exact absurd rfl hq
    all_goals rfl, rfl⟩

theorem PartStep.bsn (c : Chip) (x : BsnSt) : PartStep .bsn c { c with bsn := x } :=
  ⟨fun q hq => by
    cases q
    case bsn => exact absurd rfl hq
    all_goals rfl, rfl⟩

theorem PartStep.dma (c : Chip) (x : DmaSt) : PartStep .dma c { c with dma := x } :=
  ⟨fun q hq => by
    cases q
    case dma => exact absurd rfl hq
    all_goals rfl, rfl⟩

theorem PartStep.sdl (c : Chip) (x : SdlSt) : PartStep .sdl c { c with sdl := x } :=
  ⟨fun q hq => by
    cases q
    case sdl => exact absurd rfl hq
    all_goals rfl, rfl⟩

theorem PartStep.lcd (c : Chip) (x : LcdSt) : PartStep .lcd c { c with lcd := x } :=
  ⟨fun q hq => by
    cases q
    case lcd => exact absurd rfl hq
    all_goals rfl, rfl⟩

theorem PartStep.spt (c : Chip) (x : SptSt) : PartStep .spt c { c with spt := x } :=
  ⟨fun q hq => by
    cases q
    case spt => exact absurd rfl hq
    all_goals rfl, rfl⟩

theorem PartStep.upd (c : Chip) (x : UpdSt) : PartStep .upd c { c with upd := x } :=
  ⟨fun q hq => by
    cases q
    case upd => exact absurd rfl hq
    all_goals rfl, rfl⟩

theorem PartStep.jtag (c : Chip) (x : JtagSt) : PartStep .jtag c { c with jtag := x } :=
  ⟨fun q hq => by
    cases q
    case jtag => exact absurd rfl hq
    all_goals rfl, rfl⟩

theorem PartStep.strapTest (c : Chip) (x : Bool) : PartStep .strapTest c { c with strapTest := x } :=
  ⟨fun q hq => by
    cases q
    case strapTest => exact absurd rfl hq
    all_goals rfl, rfl⟩

/-! ## Composition -/

variable {ps qs : List Part} {rs rs' : Nat → Bool} {a b c : Chip} {p : Part}

theorem PartStep.reg (h : PartStep p b c) (off : Nat) : Machine.reg c off = Machine.reg b off := by
  unfold Machine.reg; rw [h.regs]

theorem Touches.part (h : Touches ps rs a b) (k : PartStep p b c) (hp : p ∈ ps) : Touches ps rs a c :=
  h.trans ⟨fun q hq => k.others q fun e => hq (e ▸ List.mem_cons_of_mem _ hp), fun off _ => k.reg off⟩

theorem Touches.countFld (h : Touches ps rs a b) {off : Nat} (lo w : Nat) (ho : rs off = true) :
    Touches ps rs a (Machine.countFld b off lo w) := h.setReg _ ho

theorem Touches.wrapFld (h : Touches ps rs a b) {off : Nat} (lo w : Nat) (ho : rs off = true) :
    Touches ps rs a (Machine.wrapFld b off lo w) := h.setReg _ ho

theorem Touches.ite {x y : Chip} {q : Prop} [Decidable q] (hx : Touches ps rs a x) (hy : Touches ps rs a y) :
    Touches ps rs a (if q then x else y) := by
  split
  · exact hx
  · exact hy

/-- A register outside those touched reads as before. -/
theorem Touches.reg (h : Touches ps rs a b) {off : Nat} (ho : rs off = false) : Machine.reg b off = Machine.reg a off :=
  h.regs off (by simp [ho])

/-- A part outside those touched stands. -/
theorem Touches.same (h : Touches ps rs a b) (p : Part) (hp : p ∉ ps) (hr : p ≠ .regs) : samePart a b p :=
  h.parts p (by simp [hp, hr])

/-! ## Frames that compose with reports -/

/-- Registers that set up a ring: its base and its control register. -/
def ringSetup (off : Nat) : Bool :=
  regIn 0x21000 0x2A000 off && (off % 64 == 0 || off % 64 == 4 || off % 64 == 8)

/-- `Changes` of a command that leaves the set-up of the rings. -/
structure Within (ps : List Part) (rs : Nat → Bool) (a b : Chip) : Prop where
  calm : ∀ off, rs off = true → ringSetup off = false
  parts : onlyParts (reportParts ++ ps) a b
  regs : onlyRegs (fun off => reportReg off = true ∨ rs off = true) a b
  host : ∀ x, ¬ inRing a x → smGet zeroByte b.hostMem x = smGet zeroByte a.hostMem x

theorem Within.changes (h : Within ps rs a b) : Changes ps rs a b := ⟨h.parts, h.regs, h.host⟩

theorem Within.refl (ps : List Part) {rs : Nat → Bool} (hc : ∀ off, rs off = true → ringSetup off = false) (c : Chip) :
    Within ps rs c c := ⟨hc, onlyParts_refl _ c, onlyRegs_refl _ c, fun _ _ => rfl⟩

theorem ringSetup_ring {fn r k : Nat} (hf : fn < 9) (hr : r ≤ 3) (hk : k = 0 ∨ k = 4 ∨ k = 8) :
    ringSetup (ringBase fn r + k) = true := by
  rw [ringBase_eq]
  simp only [ringSetup, regIn, Bool.and_eq_true, Bool.or_eq_true, decide_eq_true_eq, beq_iff_eq]
  omega

/-- The set-up registers of a ring read as before. -/
theorem Within.ringReg (h : Within ps rs a b) {fn r k : Nat} (hf : fn < 9) (hr : r ≤ 3) (hk : k = 0 ∨ k = 4 ∨ k = 8) :
    Machine.reg b (ringBase fn r + k) = Machine.reg a (ringBase fn r + k) := by
  refine h.regs _ fun hor => ?_
  rcases hor with hrep | hrs
  · rw [reportReg_ring hf hr (by omega) (by omega)] at hrep
    exact Bool.noConfusion hrep
  · have hcalm := h.calm _ hrs
    rw [ringSetup_ring hf hr hk] at hcalm
    exact Bool.noConfusion hcalm

theorem Within.inRing (h : Within ps rs a b) (x : Nat) : Machine.inRing b x ↔ Machine.inRing a x := by
  unfold Machine.inRing
  refine exists_congr fun fn => exists_congr fun r => and_congr_right fun hf => and_congr_right fun _ =>
    and_congr_right fun hr => ?_
  have hctl := h.ringReg hf hr (.inr (.inr rfl))
  have hlo := h.ringReg hf hr (.inl rfl)
  have hhi := h.ringReg hf hr (.inr (.inl rfl))
  rw [Nat.add_zero] at hlo
  simp only [ringEn, ringAddr, ringSize, ringLog2, flag, fld, hctl, hlo, hhi]

theorem Within.trans (h : Within ps rs a b) (k : Within ps rs b c) : Within ps rs a c where
  calm := h.calm
  parts := onlyParts_trans h.parts k.parts
  regs := onlyRegs_trans h.regs k.regs
  host := fun x hx => (k.host x (by rwa [h.inRing])).trans (h.host x hx)

theorem Within.mono (h : Within ps rs a b) (hp : ps ⊆ qs) (hr : ∀ off, rs off = true → rs' off = true)
    (hc : ∀ off, rs' off = true → ringSetup off = false) : Within qs rs' a b where
  calm := hc
  parts := onlyParts_mono h.parts fun q hq => by
    rcases List.mem_append.1 hq with hq | hq
    · exact List.mem_append_left _ hq
    · exact List.mem_append_right _ (hp hq)
  regs := onlyRegs_mono h.regs fun off ho => ho.imp_right (hr off)
  host := h.host

theorem Within.report (h : Within ps rs a b) (k : Reports b c) : Within ps rs a c :=
  h.trans ⟨h.calm, onlyParts_mono k.parts fun _ hq => List.mem_append_left _ hq,
    onlyRegs_mono k.regs fun _ ho => .inl ho, k.host⟩

/-- What a command touches outside host memory. -/
theorem Within.touch (h : Within ps rs a b) (k : Touches ps rs b c) (hm : Part.hostMem ∉ ps) : Within ps rs a c :=
  h.trans ⟨h.calm, onlyParts_mono k.parts fun q hq => by
      rcases List.mem_cons.1 hq with rfl | hq
      · exact List.mem_append_left _ (by simp [reportParts])
      · exact List.mem_append_right _ hq,
    onlyRegs_mono k.regs fun _ ho => .inr ho, fun x _ => by
      rw [show c.hostMem = b.hostMem from k.same .hostMem hm (by simp)]⟩

theorem Within.part (h : Within ps rs a b) (k : PartStep p b c) (hp : p ∈ ps) (hm : p ≠ .hostMem) : Within ps rs a c :=
  h.trans ⟨h.calm, fun q hq => k.others q fun e => hq (e ▸ List.mem_append_right _ hp),
    fun off _ => k.reg off, fun x _ => by rw [show c.hostMem = b.hostMem from k.others .hostMem hm.symm]⟩

theorem Within.setReg (h : Within ps rs a b) {off : Nat} (v : Word) (ho : rs off = true) :
    Within ps rs a (Machine.setReg b off v) := by
  refine h.trans ⟨h.calm, fun q hq => ?_, fun o hn => reg_setReg_other b off o v fun e => hn (.inr (e ▸ ho)), fun _ _ => rfl⟩
  cases q
  case regs => exact absurd (List.mem_append_left _ (by simp [reportParts])) hq
  all_goals rfl

theorem Within.setFld (h : Within ps rs a b) {off : Nat} (lo w x : Nat) (ho : rs off = true) :
    Within ps rs a (Machine.setFld b off lo w x) := h.setReg _ ho

theorem Within.setFlag (h : Within ps rs a b) {off : Nat} (i : Nat) (x : Bool) (ho : rs off = true) :
    Within ps rs a (Machine.setFlag b off i x) := h.setReg _ ho

theorem Within.countFld (h : Within ps rs a b) {off : Nat} (lo w : Nat) (ho : rs off = true) :
    Within ps rs a (Machine.countFld b off lo w) := h.setReg _ ho

theorem Within.ite {x y : Chip} {q : Prop} [Decidable q] (hx : Within ps rs a x) (hy : Within ps rs a y) :
    Within ps rs a (if q then x else y) := by
  split
  · exact hx
  · exact hy

theorem Within.foldl {β : Type} (f : Chip → β → Chip) (xs : List β) (hc : ∀ off, rs off = true → ringSetup off = false)
    (hf : ∀ c, ∀ x ∈ xs, Within ps rs c (f c x)) (c : Chip) : Within ps rs c (xs.foldl f c) := by
  induction xs generalizing c with
  | nil => exact Within.refl _ hc c
  | cons x xs ih =>
    exact (hf c x List.mem_cons_self).trans (ih (fun d y hy => hf d y (List.mem_cons_of_mem _ hy)) (f c x))

/-- The registers of a list leave the set-up of the rings when each of them does. -/
theorem regsAt_calm {as : List Nat} (h : as.all (fun off => !ringSetup off) = true) (off : Nat) (ho : regsAt as off = true) :
    ringSetup off = false := by
  simpa using List.all_eq_true.1 h off (List.contains_iff_mem.1 ho)

theorem regAt_calm {x : Nat} (h : ringSetup x = false) (off : Nat) (ho : regAt x off = true) : ringSetup off = false := by
  have hoff : off = x := by simpa [regAt] using ho
  rw [hoff, h]

theorem noReg_calm (off : Nat) (ho : noReg off = true) : ringSetup off = false := absurd ho (by simp [noReg])

/-- Of what reporting leaves alone, a register reads as before. -/
theorem Within.reg (h : Within ps rs a b) {off : Nat} (ho : rs off = false) (hr : reportReg off = false) :
    Machine.reg b off = Machine.reg a off := h.regs off (by simp [ho, hr])

theorem Within.same (h : Within ps rs a b) (p : Part) (hp : p ∉ reportParts ++ ps) : samePart a b p := h.parts p hp

theorem Reports.same (h : Reports a b) (p : Part) (hp : p ∉ reportParts) : samePart a b p := h.parts p hp

end Sys2Proof.Machine
end

section
-- One proof at a time: every thread takes a stack of its own from the memory that a compile has.
set_option Elab.async false
/-! SUPPORT. A write of one register by the keeper (R11, R177, R194, R195): which fields it leaves, and what the register's own
action is told. -/

namespace Sys2Proof.Machine

/-! ## Fields of a register, one after another -/

/-- The fields rise, do not overlap, begin at bit `n` or above and end at bit 32 or below. -/
def fieldsRise (n : Nat) : List Fld → Bool
  | [] => decide (n ≤ 32)
  | f :: fs => decide (n ≤ f.lo) && fieldsRise (f.lo + f.width) fs

/-- The number that holds `val f` in each field. -/
def fieldSum (val : Fld → Nat) (fs : List Fld) : Nat := (fs.map fun f => val f * 2 ^ f.lo).sum

theorem fieldsRise_le {n : Nat} {fs : List Fld} (h : fieldsRise n fs = true) : n ≤ 32 := by
  induction fs generalizing n with
  | nil => simpa [fieldsRise] using h
  | cons f fs ih =>
    simp only [fieldsRise, Bool.and_eq_true, decide_eq_true_eq] at h
    have hrest := ih h.2
    omega

theorem fieldsRise_mem {n : Nat} {fs : List Fld} (h : fieldsRise n fs = true) {f : Fld} (hf : f ∈ fs) :
    n ≤ f.lo ∧ f.lo + f.width ≤ 32 := by
  induction fs generalizing n with
  | nil => simp at hf
  | cons g fs ih =>
    simp only [fieldsRise, Bool.and_eq_true, decide_eq_true_eq] at h
    obtain ⟨hlo, hrest⟩ := h
    rcases List.mem_cons.1 hf with rfl | hf
    · exact ⟨hlo, fieldsRise_le hrest⟩
    · have hih := ih hrest hf
      omega

theorem dvd_fieldSum {n : Nat} {fs : List Fld} (h : fieldsRise n fs = true) (val : Fld → Nat) : 2 ^ n ∣ fieldSum val fs := by
  refine List.dvd_sum fun x hx => ?_
  obtain ⟨f, hf, rfl⟩ := List.mem_map.1 hx
  exact (Nat.pow_dvd_pow 2 (fieldsRise_mem h hf).1).mul_left _

theorem fieldSum_lt {n : Nat} {fs : List Fld} {val : Fld → Nat} (h : fieldsRise n fs = true)
    (hv : ∀ f ∈ fs, val f < 2 ^ f.width) : fieldSum val fs ≤ 2 ^ 32 - 2 ^ n := by
  induction fs generalizing n with
  | nil => simp [fieldSum]
  | cons f fs ih =>
    simp only [fieldsRise, Bool.and_eq_true, decide_eq_true_eq] at h
    obtain ⟨hlo, hrest⟩ := h
    have hih := ih hrest fun g hg => hv g (List.mem_cons_of_mem _ hg)
    have htop : 2 ^ (f.lo + f.width) ≤ 2 ^ 32 := Nat.pow_le_pow_right (by decide) (fieldsRise_le hrest)
    have hbot : 2 ^ n ≤ 2 ^ f.lo := Nat.pow_le_pow_right (by decide) hlo
    have hval : (val f + 1) * 2 ^ f.lo ≤ 2 ^ (f.lo + f.width) := by
      rw [Nat.pow_add, Nat.mul_comm (2 ^ f.lo)]
      exact Nat.mul_le_mul_right _ (hv f List.mem_cons_self)
    rw [Nat.succ_mul] at hval
    have hsum : fieldSum val (f :: fs) = val f * 2 ^ f.lo + fieldSum val fs := by simp [fieldSum]
    omega

/-- Each field of the number reads as its value. -/
theorem natBits_fieldSum {n : Nat} {fs : List Fld} {val : Fld → Nat} (h : fieldsRise n fs = true)
    (hv : ∀ f ∈ fs, val f < 2 ^ f.width) {f : Fld} (hf : f ∈ fs) : natBits (fieldSum val fs) f.lo f.width = val f := by
  induction fs generalizing n with
  | nil => simp at hf
  | cons g fs ih =>
    simp only [fieldsRise, Bool.and_eq_true, decide_eq_true_eq] at h
    obtain ⟨hlo, hrest⟩ := h
    have hsum : fieldSum val (g :: fs) = val g * 2 ^ g.lo + fieldSum val fs := by simp [fieldSum]
    rcases List.mem_cons.1 hf with rfl | hf
    · obtain ⟨k, hk⟩ := dvd_fieldSum hrest val
      rw [hsum, hk, Nat.pow_add, natBits, show val f * 2 ^ f.lo + 2 ^ f.lo * 2 ^ f.width * k
        = 2 ^ f.lo * (val f + 2 ^ f.width * k) by ring, Nat.mul_div_cancel_left _ (Nat.two_pow_pos _), Nat.add_mul_mod_self_left]
      exact Nat.mod_eq_of_lt (hv f List.mem_cons_self)
    · have hflo := (fieldsRise_mem hrest hf).1
      have hval : val g * 2 ^ g.lo < 2 ^ f.lo := by
        calc val g * 2 ^ g.lo < 2 ^ g.width * 2 ^ g.lo :=
              Nat.mul_lt_mul_of_pos_right (hv g List.mem_cons_self) (Nat.two_pow_pos _)
          _ = 2 ^ (g.lo + g.width) := by rw [Nat.pow_add, Nat.mul_comm]
          _ ≤ 2 ^ f.lo := Nat.pow_le_pow_right (by decide) hflo
      have hdvd : 2 ^ g.lo ∣ fieldSum val fs := (Nat.pow_dvd_pow 2 (Nat.le_add_right _ _)).trans (dvd_fieldSum hrest val)
      rw [← ih hrest (fun x hx => hv x (List.mem_cons_of_mem _ hx)) hf, natBits, natBits, hsum]
      congr 1
      obtain ⟨k, hk⟩ := dvd_fieldSum hrest val
      have hpow : 2 ^ f.lo = 2 ^ (g.lo + g.width) * 2 ^ (f.lo - (g.lo + g.width)) := by
        rw [← Nat.pow_add]
        congr 1
        omega
      have hsmall : val g * 2 ^ g.lo < 2 ^ (g.lo + g.width) := by
        rw [Nat.pow_add, Nat.mul_comm (2 ^ g.lo)]
        exact Nat.mul_lt_mul_of_pos_right (hv g List.mem_cons_self) (Nat.two_pow_pos _)
      rw [hk, hpow, ← Nat.div_div_eq_div_mul, ← Nat.div_div_eq_div_mul, Nat.add_mul_div_left _ _ (Nat.two_pow_pos _),
        Nat.div_eq_of_lt hsmall, Nat.zero_add, Nat.mul_div_cancel_left _ (Nat.two_pow_pos _)]

/-! ## What a field is left with -/

/-- The field's rule leaves a value that the field holds. -/
def ruleFits (f : Fld) : Bool :=
  match f.rule with
  | .one => decide (0 < f.width)
  | .clamp lo hi => decide (lo < 2 ^ f.width) && decide (hi < 2 ^ f.width)
  | _ => true

theorem natBits_lt (x lo w : Nat) : natBits x lo w < 2 ^ w := Nat.mod_lt _ (Nat.two_pow_pos w)

/-- Bits in either and bits in both make up the sum. -/
theorem or_add_and (x y : Nat) : (x ||| y) + (x &&& y) = x + y := by
  induction x using Nat.strong_induction_on generalizing y with
  | _ x ih =>
    rcases Nat.eq_zero_or_pos x with rfl | hpos
    · simp
    · have hhalf := ih (x / 2) (by omega) (y / 2)
      rw [← Nat.or_div_two, ← Nat.and_div_two] at hhalf
      have hor := @Nat.or_mod_two_eq_one x y
      have hand := @Nat.and_mod_two_eq_one x y
      omega

theorem mergeField_lt (old data mask : Nat) (f : Fld) : mergeField old data mask f < 2 ^ f.width := by
  have ho := natBits_lt old f.lo f.width
  have hm := natBits_lt mask f.lo f.width
  have hand : natBits data f.lo f.width &&& natBits mask f.lo f.width ≤ natBits mask f.lo f.width := Nat.and_le_right
  have hor := Nat.or_lt_two_pow ho hm
  have hsum := or_add_and (natBits old f.lo f.width) (natBits mask f.lo f.width)
  simp only [mergeField]
  omega

theorem ruleStore_lt {f : Fld} (hr : ruleFits f = true) {o v : Nat} (ho : o < 2 ^ f.width) (hv : v < 2 ^ f.width) :
    ruleStore f.rule o v < 2 ^ f.width := by
  unfold ruleFits at hr
  unfold ruleStore
  split
  · exact hv
  · omega
  · next hrule =>
    simp only [hrule, decide_eq_true_eq] at hr
    split
    · exact Nat.one_lt_two_pow hr.ne'
    · exact hv
  · next lo hi hrule =>
    simp only [hrule, Bool.and_eq_true, decide_eq_true_eq] at hr
    split
    · exact hr.1
    · split
      · exact hr.2
      · exact hv
  · exact (Nat.div_mul_le_self _ _).trans_lt hv
  · split
    · exact ho
    · exact hv

theorem fieldAfter_lt {f : Fld} (hr : ruleFits f = true) (fn old data mask : Nat) :
    fieldAfter fn old data mask f < 2 ^ f.width := by
  have ho := natBits_lt old f.lo f.width
  have hrule := ruleStore_lt hr ho (mergeField_lt old data mask f)
  simp only [fieldAfter]
  split
  · exact ho
  · exact ho
  · exact ho
  · exact hrule
  · split
    · exact hrule
    · exact ho
  · omega
  · exact Nat.or_lt_two_pow ho (Nat.and_lt_two_pow _ (natBits_lt _ _ _))

/-- The fields of a row are laid out so that each reads back. -/
def rowFits (d : RegDesc) : Bool := fieldsRise 0 d.fields && d.fields.all ruleFits

/-- The register that a write of the keeper leaves. -/
def keeperNow (c : Chip) (off : Nat) (d : RegDesc) (data mask : Nat) : Word :=
  BitVec.ofNat 32 (regAfter 0 d.fields (reg c off).toNat data mask)

/-- A field of a written register. -/
theorem bits_keeperNow {d : RegDesc} (hd : rowFits d = true) {f : Fld} (hf : f ∈ d.fields) (c : Chip) (off data mask : Nat) :
    bits (keeperNow c off d data mask) f.lo f.width = fieldAfter 0 (reg c off).toNat data mask f := by
  simp only [rowFits, Bool.and_eq_true, List.all_eq_true] at hd
  obtain ⟨hrise, hfits⟩ := hd
  have hv : ∀ g ∈ d.fields, fieldAfter 0 (reg c off).toNat data mask g < 2 ^ g.width :=
    fun g hg => fieldAfter_lt (hfits g hg) _ _ _ _
  have hsum : regAfter 0 d.fields (reg c off).toNat data mask = fieldSum (fieldAfter 0 (reg c off).toNat data mask) d.fields := rfl
  have hlt := fieldSum_lt hrise hv
  rw [← natBits_fieldSum hrise hv hf, bits, natBits, keeperNow, hsum, BitVec.toNat_ofNat, Nat.mod_eq_of_lt (show _ < 2 ^ 32 by omega)]

/-! ## The write -/

/-- A reserved code is written to a field of the row. -/
def keeperBad (c : Chip) (off : Nat) (d : RegDesc) (data mask : Nat) : Bool :=
  d.fields.any fun f => fieldBad 0 (reg c off).toNat data mask f

/-- What the register's own action is told of a write of the keeper. -/
def keeperCtx (c : Chip) (off : Nat) (d : RegDesc) (data mask : Nat) : WriteCtx :=
  { fn := 0, off := off, old := reg c off, now := keeperNow c off d data mask, data := data, mask := effMask 0 d.fields mask,
    badCode := keeperBad c off d data mask, pair := none }

theorem keeperCtx_hit (c : Chip) (off : Nat) (d : RegDesc) (data mask i : Nat) :
    (keeperCtx c off d data mask).hit i = (natBit (effMask 0 d.fields mask) i && natBit data i) := rfl

/-- A write of the keeper without a reserved code stores the register and lets its action follow. -/
theorem writeReg_keeper {off : Nat} {d : RegDesc} {data mask : Nat} {c : Chip} (hook : Hook) (hrow : findReg off = some d)
    (hmask : mask ≠ 0) (hbad : keeperBad c off d data mask = false) :
    writeReg hook c 0 off data mask
      = hook (keeperCtx c off d data mask) (setReg c off (keeperNow c off d data mask)) := by
  have hstore : storeReg c 0 off data mask
      = ⟨setReg c off (keeperNow c off d data mask), false, some (keeperCtx c off d data mask)⟩ := by
    have hbad' : (d.fields.any fun f => fieldBad 0 (reg c off).toNat data mask f) = false := hbad
    simp only [storeReg, if_neg hmask, reachWrite, hrow, storeDefined, keeperCtx, hbad, hbad', if_true, true_or, Bool.not_true,
      Bool.false_eq_true, if_false, bne_self_eq_false, Bool.false_and]
    rfl
  rw [writeReg, hstore]
  rfl

theorem maskOfBytes_allBytes (v : Word) : maskOfBytes (writeBytes v allBytes) = 2 ^ 32 - 1 := by
  show leNat [255, 255, 255, 255] = _
  decide

theorem dataOf_allBytes (v : Word) : dataOf (writeBytes v allBytes) = v.toNat := by
  have hv := v.isLt
  show leNat [BitVec.ofNat 8 (v.toNat / 256 ^ 0), BitVec.ofNat 8 (v.toNat / 256 ^ 1), BitVec.ofNat 8 (v.toNat / 256 ^ 2),
    BitVec.ofNat 8 (v.toNat / 256 ^ 3)] = v.toNat
  simp only [leNat, BitVec.toNat_ofNat]
  omega

/-- A write of a whole register by the keeper. -/
theorem writeWord_all {off : Nat} {d : RegDesc} {c : Chip} (hook : Hook) (v : Word) (hrow : findReg off = some d)
    (hbad : keeperBad c off d v.toNat (2 ^ 32 - 1) = false) :
    writeWord hook c keeper off v allBytes = hook (keeperCtx c off d v.toNat (2 ^ 32 - 1))
      (setReg c off (keeperNow c off d v.toNat (2 ^ 32 - 1))) := by
  rw [writeWord, dataOf_allBytes, maskOfBytes_allBytes]
  exact writeReg_keeper hook hrow (by decide) hbad

/-- A write of some bytes of a register by the keeper, with the numbers that its bytes spell. -/
theorem writeWord_some {off : Nat} {d : RegDesc} {c : Chip} (hook : Hook) {v : Word} {be : BitVec 4} {data mask : Nat}
    (hrow : findReg off = some d) (hdata : dataOf (writeBytes v be) = data) (hmask : maskOfBytes (writeBytes v be) = mask)
    (hne : mask ≠ 0) (hbad : keeperBad c off d data mask = false) :
    writeWord hook c keeper off v be = hook (keeperCtx c off d data mask) (setReg c off (keeperNow c off d data mask)) := by
  rw [writeWord, hdata, hmask]
  exact writeReg_keeper hook hrow hne hbad

/-- The action of a register whose writes may be discarded, for a write of one register. -/
theorem guarded_single (bad : Chip → WriteCtx → Nat → Bool) (reject : Chip → WriteCtx → Nat → Chip) (act : Hook)
    {w : WriteCtx} (hp : w.pair = none) (c : Chip) : guarded bad reject act w c =
      if bad (setReg c w.off w.now) w w.off then reject (setReg c w.off w.old) w w.off else act w c := by
  have hoffs : w.offs = [w.off] := by simp [WriteCtx.offs, hp]
  have hre : rewritten c w = setReg c w.off w.now := by simp [rewritten, hp]
  have hun : unwrite c w = setReg c w.off w.old := by simp [unwrite, hp]
  simp only [guarded, hoffs, hre, hun, List.find?_cons, List.find?_nil]
  cases bad (setReg c w.off w.now) w w.off <;> simp

end Sys2Proof.Machine
end

section
-- One proof at a time: every thread takes a stack of its own from the memory that a compile has.
set_option Elab.async false
/-! SUPPORT. The fields that a whole write of the keeper leaves. -/

namespace Sys2Proof.Machine

theorem natBits_full {lo w : Nat} (h : lo + w ≤ 32) : natBits (2 ^ 32 - 1) lo w = 2 ^ w - 1 := by
  have hsplit : (2 : Nat) ^ 32 - 1 = 2 ^ lo * (2 ^ (32 - lo) - 1) + (2 ^ lo - 1) := by
    have hpow : (2 : Nat) ^ 32 = 2 ^ lo * 2 ^ (32 - lo) := by rw [← Nat.pow_add]; congr 1; omega
    have hpos := Nat.two_pow_pos lo
    have hpos' := Nat.two_pow_pos (32 - lo)
    rw [Nat.mul_sub, ← hpow]
    have hle : 2 ^ lo ≤ 2 ^ 32 := Nat.pow_le_pow_right (by decide) (by omega)
    omega
  have hdiv : (2 ^ lo * (2 ^ (32 - lo) - 1) + (2 ^ lo - 1)) / 2 ^ lo = 2 ^ (32 - lo) - 1 := by
    rw [Nat.mul_add_div (Nat.two_pow_pos lo), Nat.div_eq_of_lt (Nat.sub_lt (Nat.two_pow_pos lo) (by decide)), Nat.add_zero]
  rw [natBits, hsplit, hdiv]
  have hpow : (2 : Nat) ^ (32 - lo) = 2 ^ w * 2 ^ (32 - lo - w) := by rw [← Nat.pow_add]; congr 1; omega
  have hpos := Nat.two_pow_pos w
  have hpos' := Nat.two_pow_pos (32 - lo - w)
  have hrest : (2 : Nat) ^ (32 - lo) - 1 = 2 ^ w - 1 + 2 ^ w * (2 ^ (32 - lo - w) - 1) := by
    rw [hpow, Nat.mul_sub]
    have hle : 2 ^ w * 1 ≤ 2 ^ w * 2 ^ (32 - lo - w) := Nat.mul_le_mul_left _ hpos'
    omega
  rw [hrest, Nat.add_mul_mod_self_left, Nat.mod_eq_of_lt (by omega)]

/-- An enabled field takes what is written. -/
theorem mergeField_en {f : Fld} {mask : Nat} (h : natBits mask f.lo f.width = 2 ^ f.width - 1) (old data : Nat) :
    mergeField old data mask f = natBits data f.lo f.width := by
  simp only [mergeField, h, Nat.and_two_pow_sub_one_eq_mod, Nat.mod_eq_of_lt (natBits_lt _ _ _), Nat.sub_self, Nat.add_zero]

/-- A field of which no byte is enabled stands. -/
theorem mergeField_dis {f : Fld} {mask : Nat} (h : natBits mask f.lo f.width = 0) (old data : Nat) :
    mergeField old data mask f = natBits old f.lo f.width := by
  simp only [mergeField, h, Nat.and_zero, Nat.sub_zero, Nat.zero_add]

/-- An enabled field after a write of the keeper, by its access code. -/
theorem fieldAfter_en {f : Fld} {mask : Nat} (h : natBits mask f.lo f.width = 2 ^ f.width - 1) (old data : Nat) :
    fieldAfter 0 old data mask f =
      match f.acc with
      | .ro | .rc | .wo => natBits old f.lo f.width
      | .rw | .rwk => ruleStore f.rule (natBits old f.lo f.width) (natBits data f.lo f.width)
      | .w1c => natBits old f.lo f.width - (natBits old f.lo f.width &&& natBits data f.lo f.width)
      | .w1s => natBits old f.lo f.width ||| natBits data f.lo f.width := by
  cases hacc : f.acc <;>
    simp only [fieldAfter, hacc, mergeField_en h, h, Nat.and_two_pow_sub_one_eq_mod, Nat.mod_eq_of_lt (natBits_lt _ _ _), if_true]

/-- A field of the register after a whole write of the keeper. -/
theorem fld_keeperNow {d : RegDesc} (hd : rowFits d = true) {f : Fld} (hf : f ∈ d.fields) (c : Chip) (off data mask : Nat) :
    fld (setReg c off (keeperNow c off d data mask)) off f.lo f.width = fieldAfter 0 (reg c off).toNat data mask f := by
  rw [fld, reg_setReg_self, bits_keeperNow hd hf]

end Sys2Proof.Machine
end

section
-- One proof at a time: every thread takes a stack of its own from the memory that a compile has.
set_option Elab.async false
/-! SUPPORT. Two's complement codes and the fields of a quantity word (R40, R44). -/

namespace Sys2Proof.Machine

theorem unsigned_lt (w : Nat) (x : Int) : unsigned w x < 2 ^ w := by
  have hpos : (0 : Int) < (2 ^ w : Nat) := by exact_mod_cast Nat.two_pow_pos w
  have hlo := Int.emod_nonneg x hpos.ne'
  have hhi := Int.emod_lt_of_pos x hpos
  unfold unsigned
  omega

/-- A two's complement code reads back. -/
theorem signed_unsigned {w : Nat} {x : Int} (hw : 0 < w) (hlo : -(2 ^ (w - 1) : Nat) ≤ x) (hhi : x < (2 ^ (w - 1) : Nat)) :
    signed w (unsigned w x) = x := by
  obtain ⟨k, rfl⟩ : ∃ k, w = k + 1 := ⟨w - 1, by omega⟩
  have hmod : unsigned (k + 1) x % 2 ^ (k + 1) = unsigned (k + 1) x := Nat.mod_eq_of_lt (unsigned_lt _ _)
  have hpow : (2 : Nat) ^ (k + 1) = 2 * 2 ^ k := by rw [pow_succ, Nat.mul_comm]
  unfold signed
  rw [hmod]
  unfold unsigned
  rw [Nat.add_sub_cancel] at *
  rw [hpow]
  generalize 2 ^ k = m at *
  rcases le_or_gt 0 x with hx | hx
  · have hcode : x % ((2 * m : Nat) : Int) = x := Int.emod_eq_of_lt hx (by omega)
    rw [hcode]
    split <;> omega
  · have hcode : x % ((2 * m : Nat) : Int) = x + (2 * m : Nat) := by
      rw [← Int.add_emod_right, Int.emod_eq_of_lt (by omega) (by omega)]
    rw [hcode]
    split <;> omega

/-- Settles O8: each field of the code is read at its own weight, and the signed ones by `signed_unsigned`. -/
theorem quantityWordsRoundTrip : Obligations.QuantityWordsRoundTrip := by
  refine ⟨fun m e u q hm he huq => ?_, fun m e u q hm he huq => ?_⟩
  · have hmant := unsigned_lt 20 m
    have hexp := unsigned_lt 4 e
    have hcode : qw32To ⟨m, e, u, q⟩ = unsigned 20 m * 2 ^ 12 + unsigned 4 e * 2 ^ 8 + u % 64 * 4 + q % 4 := rfl
    simp only [qw32Of, natBits, hcode, Qw.mk.injEq]
    refine ⟨?_, ?_, by omega, by omega⟩
    · rw [show (unsigned 20 m * 2 ^ 12 + unsigned 4 e * 2 ^ 8 + u % 64 * 4 + q % 4) / 2 ^ 12 % 2 ^ 20 = unsigned 20 m by omega]
      exact signed_unsigned (by decide) (by omega) (by omega)
    · rw [show (unsigned 20 m * 2 ^ 12 + unsigned 4 e * 2 ^ 8 + u % 64 * 4 + q % 4) / 2 ^ 8 % 2 ^ 4 = unsigned 4 e by omega]
      exact signed_unsigned (by decide) (by omega) (by omega)
  · have hmant := unsigned_lt 48 m
    have hexp := unsigned_lt 8 e
    have hcode : qw64To ⟨m, e, u, q⟩ = unsigned 48 m * 2 ^ 16 + unsigned 8 e * 2 ^ 8 + u % 64 * 4 + q % 4 := rfl
    simp only [qw64Of, natBits, hcode, Qw.mk.injEq]
    refine ⟨?_, ?_, by omega, by omega⟩
    · rw [show (unsigned 48 m * 2 ^ 16 + unsigned 8 e * 2 ^ 8 + u % 64 * 4 + q % 4) / 2 ^ 16 % 2 ^ 48 = unsigned 48 m by omega]
      exact signed_unsigned (by decide) (by omega) (by omega)
    · rw [show (unsigned 48 m * 2 ^ 16 + unsigned 8 e * 2 ^ 8 + u % 64 * 4 + q % 4) / 2 ^ 8 % 2 ^ 8 = unsigned 8 e by omega]
      exact signed_unsigned (by decide) (by omega) (by omega)

end Sys2Proof.Machine
end

section
-- One proof at a time: every thread takes a stack of its own from the memory that a compile has.
set_option Elab.async false
/-! SUPPORT. The test access port (R1126 to R1129): each step changes its state and the free values. -/

namespace Sys2Proof.Machine

theorem modJtag_touches {ps : List Part} (c : Chip) (f : JtagSt → JtagSt) (hp : Part.jtag ∈ ps) :
    Touches ps noReg c (modJtag c f) := (Touches.refl _ _ c).part (.jtag _ _) hp

theorem tapAction_touches (c : Chip) (tdi : Bool) : Touches [.jtag, .free] noReg c (tapAction c tdi) := by
  have hcapture : Touches [.jtag, .free] noReg c (captureBoundary c) :=
    (modJtag_touches c _ (by simp)).part (.free _ _) (by simp)
  have hshift : Touches [.jtag, .free] noReg c { c with free := c.free + 1 } :=
    (Touches.refl _ _ c).part (.free _ _) (by simp)
  unfold tapAction
  split
  · exact hcapture.ite (modJtag_touches c _ (by simp))
  · exact (modJtag_touches c _ (by simp)).ite (modJtag_touches c _ (by simp))
  · exact hshift.trans (modJtag_touches _ _ (by simp))
  · exact modJtag_touches c _ (by simp)
  · exact Touches.refl _ _ c

theorem tckRise_touches (c : Chip) (tms tdi : Bool) : Touches [.jtag, .free] noReg c (tckRise c tms tdi) :=
  ((tapAction_touches c tdi).trans (modJtag_touches _ _ (by simp))).ite
    ((tapAction_touches c tdi).trans (modJtag_touches _ _ (by simp)))

theorem tckFall_touches (c : Chip) : Touches [.jtag] noReg c (tckFall c) := modJtag_touches c _ (by simp)

/-- TDO is driven in the two shifting states alone. -/
theorem tckFall_tdo (c : Chip) : (tckFall c).jtag.tdo.isSome = true ↔ c.jtag.tap = 4 ∨ c.jtag.tap = 11 := by
  simp only [tckFall, modJtag]
  split
  · next h => simp [h]
  · next h => simp [h]
  · next h4 h11 => simpa using ⟨h4, h11⟩

/-- A rising edge takes the controller to its next state. -/
theorem tckRise_tap (c : Chip) (tms tdi : Bool) : (tckRise c tms tdi).jtag.tap = tapNext c.jtag.tap tms := by
  unfold tckRise
  dsimp only
  split
  · next hzero => exact hzero.symm
  · rfl

theorem tapNext_shiftDr (tms : Bool) : tapNext 4 tms = if tms then 5 else 4 := rfl

theorem tapAction_shiftDr {c : Chip} (htap : c.jtag.tap = 4) (tdi : Bool) : tapAction c tdi =
    if jtagSample c then modJtag c fun j => { j with bnd := shiftIn 169 j.bnd tdi }
    else modJtag c fun j => { j with byp := tdi } := by
  simp only [tapAction, htap]

theorem modJtag_bnd_tap (c : Chip) (f : Nat → Nat) (n : Nat) :
    modJtag (modJtag c fun j => { j with bnd := f j.bnd }) (fun j => { j with tap := n })
      = { c with jtag := { c.jtag with tap := n, bnd := f c.jtag.bnd } } := rfl

/-- A rising edge in Shift-DR shifts the register that the instruction in force selects. -/
theorem tckRise_shiftDr {c : Chip} (htap : c.jtag.tap = 4) (tms tdi : Bool) : tckRise c tms tdi = { c with
    jtag := { c.jtag with
      tap := if tms then 5 else 4
      bnd := if c.jtag.ir = 1 then c.jtag.bnd / 2 + b2n tdi * 2 ^ 168 else c.jtag.bnd
      byp := if c.jtag.ir = 1 then c.jtag.byp else tdi } } := by
  have hnonzero : ¬ (if tms then 5 else 4) = 0 := by cases tms <;> decide
  have hshift : shiftIn 169 c.jtag.bnd tdi = c.jtag.bnd / 2 + b2n tdi * 2 ^ 168 := by
    simp only [shiftIn, Nat.add_one_sub_one]
  rw [tckRise, tapAction_shiftDr htap, htap, tapNext_shiftDr, if_neg hnonzero, ← hshift]
  by_cases hir : c.jtag.ir = 1
  · rw [if_pos (show jtagSample c = true by simp [jtagSample, hir]), if_pos hir, if_pos hir]
    exact modJtag_bnd_tap c (fun v => shiftIn 169 v tdi) _
  · rw [if_neg (show ¬ jtagSample c = true by simp [jtagSample, hir]), if_neg hir, if_neg hir]
    rfl

theorem tripOutput_modJtag (c : Chip) (f : JtagSt → JtagSt) (i : Nat) : tripOutput (modJtag c f) i = tripOutput c i := rfl

theorem callLevel_modJtag (c : Chip) (f : JtagSt → JtagSt) (i : Nat) : callLevel (modJtag c f) i = callLevel c i := rfl

theorem canTxLevel_modJtag (c : Chip) (f : JtagSt → JtagSt) (i : Nat) : canTxLevel (modJtag c f) i = canTxLevel c i := rfl

theorem ballLevel_modJtag (c : Chip) (f : JtagSt → JtagSt) (i : Nat) : ballLevel (modJtag c f) i = ballLevel c i := by
  simp only [ballLevel, tripOutput_modJtag, callLevel_modJtag, canTxLevel_modJtag]
  simp only [modJtag, posSt]

/-- The levels that a capture takes do not depend on the port itself. -/
theorem captureBalls_modJtag (c : Chip) (f : JtagSt → JtagSt) : captureBalls (modJtag c f) = captureBalls c := by
  simp only [captureBalls, ballLevel_modJtag]
  simp only [modJtag]

theorem samplePreload_eq (c : Chip) :
    samplePreload c = { c with free := c.free + 169, jtag := { c.jtag with ir := 1, bnd := captureBalls c } } := by
  simp only [samplePreload, captureBoundary, captureBalls_modJtag]
  simp only [modJtag]

/-- Settles O50: the cases of the controller's state; the captured levels do not depend on the port. -/
theorem jtagCommandsComplete : Obligations.JtagCommandsComplete := by
  refine ⟨fun s => ?_, fun s => ?_, fun s => ?_, fun s tms tdi => ?_, fun s tms tdi htap => ?_, fun s tms tdi => ?_⟩ <;>
    refine ⟨_, rfl, rfl, ?_⟩
  · rfl
  · rfl
  · exact samplePreload_eq s.chip
  · exact ⟨tckRise_tap _ _ _, tckRise_touches _ _ _⟩
  · exact tckRise_shiftDr htap tms tdi
  · exact ⟨rfl, rfl, tckFall_tdo _, tckFall_touches _⟩

end Sys2Proof.Machine
end

section
-- One proof at a time: every thread takes a stack of its own from the memory that a compile has.
set_option Elab.async false
/-! SUPPORT. The real-time clock (R1008 to R1027): a SET and a SHIFT taken, the edges of the source, a trim window. -/

namespace Sys2Proof.Machine

/-! ## Writes of RTC_CTL and RTC_SHIFT -/

def rtcCtlRow : RegDesc := reg1 "RTC_CTL" 0x1D0000 [fd 0 1 .rwk 0, fu 2 2 .rwk 0 (.enum 2), fu 4 1 .rwk 0, fu 5 1 .rwk 0,
  fu 6 1 .rwk 0, fu 16 12 .rwk 64]

theorem findReg_rtcCtl : findReg 0x1D0000 = some rtcCtlRow := by decide +kernel

def rtcShiftRow : RegDesc := reg1 "RTC_SHIFT" 0x1D0038 [fd 0 16 .rwk 0, fd 31 1 .rwk 0]

theorem findReg_rtcShift : findReg 0x1D0038 = some rtcShiftRow := by decide +kernel

/-- SET written in byte 0 of RTC_CTL: with the window in range the write reaches the clock. -/
theorem rtcSetWrite_eq {c : Chip} (hwin : 16 ≤ fld c 0x1D0000 16 12) :
    rtcSetWrite c keeper 1 1 = submitSet (setReg c 0x1D0000 (keeperNow c 0x1D0000 rtcCtlRow 1 255)) := by
  have hbad : keeperBad c 0x1D0000 rtcCtlRow 1 255 = false := by
    have hcode : mergeField (reg c 0x1D0000).toNat 1 255 (fu 2 2 .rwk 0 (.enum 2)) = 0 := mergeField_en rfl _ _
    simp only [keeperBad, rtcCtlRow, reg1, List.any_cons, List.any_nil, fieldBad, hcode]
    rfl
  have hkept : bits (keeperNow c 0x1D0000 rtcCtlRow 1 255) 16 12 = fld c 0x1D0000 16 12 :=
    (bits_keeperNow (f := fu 16 12 .rwk 64) rfl (by simp [rtcCtlRow, reg1]) c _ _ _).trans (mergeField_dis rfl _ _)
  have hrange : rtcRangeOk 0x1D0000 (keeperNow c 0x1D0000 rtcCtlRow 1 255).toNat = true :=
    decide_eq_true (hwin.trans_eq hkept.symm)
  have hhit : (keeperCtx c 0x1D0000 rtcCtlRow 1 255).hit 0 = true := by
    rw [keeperCtx_hit]
    decide
  rw [rtcSetWrite, writeWord_some hookRtc findReg_rtcCtl (data := 1) (mask := 255) rfl rfl (by decide) hbad, hookRtc,
    guarded_single _ _ _ rfl, if_neg (by simp [keeperCtx, hrange]), if_pos ⟨rfl, hhit⟩, if_neg (by simp [keeperCtx, hbad])]

theorem submitSet_eq {c : Chip} (hok : calOk (calOf (reg c 0x1D0024).toNat (reg c 0x1D0028).toNat) = true) :
    submitSet c = setFlag (setFld (modRtc c fun r => { r with
      set := some (fld c 0x1D0020 0 15, calOf (reg c 0x1D0024).toNat (reg c 0x1D0028).toNat), wait := false, edge := 0 })
        0x1D003C 0 16 0) rtcStat 5 false := if_pos hok

/-- A SHIFT within its range, with GO, reaches the clock. -/
theorem rtcShiftWrite_eq (c : Chip) (a : BitVec 16) :
    rtcShiftWrite c keeper (BitVec.ofNat 32 (0x80000000 + a.toNat)) allBytes
      = submitShift (setReg c 0x1D0038 (keeperNow c 0x1D0038 rtcShiftRow (0x80000000 + a.toNat) (2 ^ 32 - 1))) (reg c 0x1D0038) := by
  have ha := a.isLt
  have hdata : (BitVec.ofNat 32 (0x80000000 + a.toNat)).toNat = 0x80000000 + a.toNat := by
    rw [BitVec.toNat_ofNat, Nat.mod_eq_of_lt (by omega)]
  have hgo : natBit (0x80000000 + a.toNat) 31 = true := by
    simp only [natBit, beq_iff_eq]
    omega
  have hhit : (keeperCtx c 0x1D0038 rtcShiftRow (0x80000000 + a.toNat) (2 ^ 32 - 1)).hit 31 = true := by
    rw [keeperCtx_hit, hgo, Bool.and_true]
    decide
  rw [rtcShiftWrite, writeWord_all hookRtc _ findReg_rtcShift rfl, hdata, hookRtc, guarded_single _ _ _ rfl, if_neg (by simp [keeperCtx, rtcRangeOk]),
    if_neg (by simp [keeperCtx]), if_neg (by simp [keeperCtx]), if_pos ⟨rfl, hhit⟩]
  rfl

theorem submitShift_eq {c : Chip} (old : Word) (hidle : flag c rtcStat 5 = false)
    (hlo : -16384 ≤ signed 16 (fld c 0x1D0038 0 16)) (hhi : signed 16 (fld c 0x1D0038 0 16) ≤ 16384) :
    submitShift c old = setFlag (setFlag (setFld (modRtc c fun r => { r with edge := 0, wait := false }) 0x1D003C 0 16
      (unsigned 16 (signed 16 (fld c 0x1D0038 0 16)))) rtcStat 5 (signed 16 (fld c 0x1D0038 0 16) != 0)) 0x1D0038 31 false := by
  rw [submitShift]
  exact if_neg (by simp only [hidle, Bool.false_or, Bool.or_eq_true, decide_eq_true_eq]; omega)

theorem signed_toNat (a : BitVec 16) : signed 16 a.toNat = a.toInt := by
  have ha := a.isLt
  rw [signed, BitVec.toInt_eq_toNat_cond, Nat.mod_eq_of_lt ha]
  split <;> split <;> omega

/-! ## Edges -/

theorem crystalEdge_running {c : Chip} (h : aonRuns c = true) : crystalEdge c = rtcEdge (otEdge c) := if_pos h

theorem reg_otEdge (c : Chip) (off : Nat) : reg (otEdge c) off = reg c off := rfl

theorem otEdge_touches (c : Chip) : Touches [.rtc, .ot] noReg c (otEdge c) :=
  ((Touches.refl _ _ c).part (.rtc _ _) (by simp)).part (.ot _ _) (by simp)

theorem rtcEdge_set {c : Chip} (hon : rtcOn c = true) {ss : Nat} {k : Cal} (hset : c.rtc.set = some (ss, k)) :
    rtcEdge c = loadSet c ss k := by
  simp only [rtcEdge, hon, hset, Bool.not_true, Bool.false_eq_true, if_false]

/-- Without a trim an edge of the crystal has the trim term 0. -/
theorem trimTerm_zero {acc : Int} (h : -10000000 < acc ∧ acc < 10000000) : trimTerm acc 0 = (0, acc) := by
  obtain ⟨hlo, hhi⟩ := h
  simp only [trimTerm, add_zero, if_neg (not_le.2 hhi), if_neg (not_le.2 hlo)]

/-- Without a trim, an edge of the crystal advances SS by one and the shift's step. -/
theorem rtcEdge_untrimmed {c : Chip} (hon : rtcOn c = true) (hset : c.rtc.set = none) (hcry : c.pwr.onCrystal = true)
    (htrim : fld c 0x1D0030 0 12 = 0) (hacc : -10000000 < c.rtc.acc ∧ c.rtc.acc < 10000000) :
    rtcEdge c = advanceSs (shiftTerm c 0).2 (1 + (shiftTerm c 0).1).toNat := by
  have hterm : trimTerm c.rtc.acc (signed 12 (fld c 0x1D0030 0 12)) = (0, c.rtc.acc) := by
    rw [htrim]
    exact trimTerm_zero hacc
  have hsame : (modRtc c fun r => { r with acc := c.rtc.acc }) = c := rfl
  simp only [rtcEdge, hon, hset, hcry, hterm, hsame, Bool.not_true, Bool.false_eq_true, if_false, if_true, add_zero]

theorem shiftTerm_none {c : Chip} (h : shiftLeft c = 0) (t : Int) : shiftTerm c t = (0, c) := by
  simp only [shiftTerm, h, if_true]

theorem advanceSs_within {c : Chip} {n : Nat} (h : c.rtc.ss + n < 32768) :
    advanceSs c n = modRtc c fun r => { r with ss := r.ss + n } := by
  rw [advanceSs]
  simp only [if_neg (not_le.2 h), Nat.mod_eq_of_lt h]
  rfl

/-- One second later the calendar shows another instant. -/
theorem calNext_ne (k : Cal) : (calNext k).1 ≠ k := by
  obtain ⟨sec, min, hour, day, month, year⟩ := k
  simp only [calNext, calZero]
  split_ifs <;> simp only [ne_eq, Cal.mk.injEq] <;> omega

theorem alarmsFiring_none {c : Chip} (h0 : flag c 0x1D0048 8 = false) (h1 : flag c 0x1D0058 8 = false) : alarmsFiring c = [] := by
  simp [alarmsFiring, h0, h1]

/-- The calendar advances by a second, and WRAPPED joins where it wraps. -/
theorem secondPasses_quiet {c : Chip} (h0 : flag c 0x1D0048 8 = false) (h1 : flag c 0x1D0058 8 = false) :
    secondPasses c = if (calNext c.rtc.cal).2 then setFlag (modRtc c fun r => { r with cal := (calNext c.rtc.cal).1 }) rtcStat 3 true
      else modRtc c fun r => { r with cal := (calNext c.rtc.cal).1 } := by
  have hquiet (d : Chip) (hd : ∀ off, off ≠ rtcStat → reg d off = reg c off) : alarmsFiring d = [] := by
    apply alarmsFiring_none
    · rw [flag, fld, hd _ (by decide)]; exact h0
    · rw [flag, fld, hd _ (by decide)]; exact h1
  rw [secondPasses]
  dsimp only
  rw [hquiet, List.foldl_nil]
  intro off hoff
  split
  · exact reg_setFlag_other _ _ _ _ _ hoff
  · rfl

/-- A shift's step of `d` counts is taken off what is left of it. -/
def stepped (c : Chip) (d : Int) : Chip :=
  setFld (modRtc c fun r => { r with edge := (r.edge + 1) % 16, wait := false }) 0x1D003C 0 16 (unsigned 16 (shiftLeft c - d))

/-- A due step of a shift, without a trim term. -/
theorem shiftTerm_due {c : Chip} (hleft : shiftLeft c ≠ 0) (hdue : c.rtc.wait = true ∨ c.rtc.edge = 15) :
    ∃ d : Int, (0 < shiftLeft c → d = 1) ∧ (shiftLeft c < 0 → d = -1) ∧ (shiftTerm c 0).1 = d
      ∧ shiftLeft (shiftTerm c 0).2 = shiftLeft c - d ∧ (shiftTerm c 0).2.rtc.ss = c.rtc.ss
      ∧ (shiftTerm c 0).2.rtc.cal = c.rtc.cal ∧ (shiftTerm c 0).2.rtc.set = c.rtc.set
      ∧ Touches [.rtc, .ot] (regsAt [0x1D003C, rtcStat]) c (shiftTerm c 0).2 := by
  have hbound : -32768 ≤ shiftLeft c ∧ shiftLeft c < 32768 := by
    have hlt := fld_lt c 0x1D003C 0 16
    simp only [shiftLeft, signed]
    split <;> omega
  have hdue' : (c.rtc.wait || c.rtc.edge + 1 == 16) = true := by
    rcases hdue with h | h <;> simp [h]
  let d : Int := if 0 < shiftLeft c then 1 else -1
  have hd : (0 < shiftLeft c ∧ d = 1) ∨ (shiftLeft c < 0 ∧ d = -1) := by
    rcases lt_or_gt_of_ne hleft with h | h
    · exact .inr ⟨h, if_neg (by omega)⟩
    · exact .inl ⟨h, if_pos h⟩
  have hterm : shiftTerm c 0 = (d, if shiftLeft c = d then setFlag (stepped c d) rtcStat 5 false else stepped c d) := by
    simp only [shiftTerm, if_neg hleft, hdue', Bool.not_true, Bool.false_eq_true, if_false, ne_eq, not_true]
    rfl
  have hstepped : shiftLeft (stepped c d) = shiftLeft c - d := by
    rw [shiftLeft, stepped, fld_setFld_self _ _ _ _ _ (by decide), Nat.mod_eq_of_lt (unsigned_lt 16 _)]
    exact signed_unsigned (by decide) (by omega) (by omega)
  have htouch : Touches [.rtc, .ot] (regsAt [0x1D003C, rtcStat]) c (stepped c d) :=
    ((Touches.refl _ _ c).part (.rtc _ _) (by simp)).setFld _ _ _ (by decide)
  rw [hterm]
  refine ⟨d, by omega, by omega, rfl, ?_, ?_, ?_, ?_, ?_⟩ <;> dsimp only <;> split
  · rw [← hstepped, shiftLeft, fld_setFlag_other _ _ _ _ _ _ _ (by decide)]
    rfl
  · exact hstepped
  · rfl
  · rfl
  · rfl
  · rfl
  · rfl
  · rfl
  · exact htouch.setFlag _ _ (by decide)
  · exact htouch

/-! ## The end of a trim window -/

/-- A deviation in range is stored and counted, and TRIM_OK is set. -/
def measured (c : Chip) (m : Int) : Chip :=
  setFlag (countFld (setFld c 0x1D0034 0 12 (unsigned 12 m)) 0x1D0034 16 8) rtcStat 6 true

theorem trimWindowEnd_good {c : Chip} {n : Rat} {m : Int} (hon : rtcOn c = true) (hdom : domOn c 26 = true)
    (hsrc : fld c 0x1D0000 2 2 ≠ 0) (hwin : fld c 0x1D0000 16 12 ≠ 0)
    (hm : m = roundHE ((n / (32768 * (fld c 0x1D0000 16 12 : Nat)) - 1) * 10000000)) (hlo : -2000 ≤ m) (hhi : m ≤ 2000) :
    trimWindowEnd c n true = if flag c 0x1D0000 4 then setFld (measured c m) 0x1D0030 0 12 (unsigned 12 (-m)) else measured c m := by
  have hopen : ¬ (fld c 0x1D0000 2 2 = 0 ∨ domOn c 26 = false ∨ rtcOn c = false) := by simp [hsrc, hdom, hon]
  have hauto : flag (measured c m) 0x1D0000 4 = flag c 0x1D0000 4 := by
    rw [measured, flag_setFlag_other _ _ _ _ _ _ (by decide), flag_countFld_other _ _ _ _ _ _ (by decide),
      flag_setFld_other _ _ _ _ _ _ _ (by decide)]
  rw [trimWindowEnd, if_neg hopen]
  dsimp only
  rw [← hm, if_neg (by simp [hwin]; omega), ← measured, hauto]

theorem measured_meas (c : Chip) (m : Int) : fld (measured c m) 0x1D0034 0 12 = unsigned 12 m := by
  rw [measured, fld_setFlag_other _ _ _ _ _ _ _ (by decide), fld_countFld_field _ _ _ _ _ _ (by decide) (by decide),
    fld_setFld_self _ _ _ _ _ (by decide), Nat.mod_eq_of_lt (unsigned_lt 12 _)]

theorem measured_count (c : Chip) (m : Int) : fld (measured c m) 0x1D0034 16 8 = satInc 8 (fld c 0x1D0034 16 8) := by
  rw [measured, fld_setFlag_other _ _ _ _ _ _ _ (by decide), fld_countFld_self _ _ _ _ (by decide),
    fld_setFld_field _ _ _ _ _ _ _ (by decide) (by decide)]

theorem measured_ok (c : Chip) (m : Int) : flag (measured c m) rtcStat 6 = true := flag_setFlag_self _ _ _ _ (by decide)

theorem measured_touches (c : Chip) (m : Int) : Touches [] (regsAt [0x1D0030, 0x1D0034, rtcStat]) c (measured c m) :=
  (((Touches.refl _ _ c).setFld _ _ _ (by decide)).countFld _ _ (by decide)).setFlag _ _ (by decide)

/-- A trim window in range leaves its deviation, and with AUTO its trim (R1021 to R1024). -/
theorem trimWindowEnd_done {c : Chip} {n : Rat} {m : Int} (hon : rtcOn c = true) (hdom : domOn c 26 = true)
    (hsrc : fld c 0x1D0000 2 2 ≠ 0) (hwin : fld c 0x1D0000 16 12 ≠ 0)
    (hm : m = roundHE ((n / (32768 * (fld c 0x1D0000 16 12 : Nat)) - 1) * 10000000)) (hlo : -2000 ≤ m) (hhi : m ≤ 2000) :
    fld (trimWindowEnd c n true) 0x1D0034 0 12 = unsigned 12 m
      ∧ fld (trimWindowEnd c n true) 0x1D0034 16 8 = satInc 8 (fld c 0x1D0034 16 8) ∧ flag (trimWindowEnd c n true) rtcStat 6 = true
      ∧ fld (trimWindowEnd c n true) 0x1D0030 0 12 = (if flag c 0x1D0000 4 then unsigned 12 (-m) else fld c 0x1D0030 0 12)
      ∧ Touches [] (regsAt [0x1D0030, 0x1D0034, rtcStat]) c (trimWindowEnd c n true) := by
  rw [trimWindowEnd_good hon hdom hsrc hwin hm hlo hhi]
  split
  · refine ⟨(fld_setFld_other _ _ _ _ _ _ _ _ (by decide)).trans (measured_meas c m),
      (fld_setFld_other _ _ _ _ _ _ _ _ (by decide)).trans (measured_count c m),
      (flag_setFld_other _ _ _ _ _ _ _ (by decide)).trans (measured_ok c m), ?_, (measured_touches c m).setFld _ _ _ (by decide)⟩
    rw [fld_setFld_self _ _ _ _ _ (by decide), Nat.mod_eq_of_lt (unsigned_lt 12 _)]
  · refine ⟨measured_meas c m, measured_count c m, measured_ok c m, ?_, measured_touches c m⟩
    rw [measured, fld_setFlag_other _ _ _ _ _ _ _ (by decide)]
    exact (fld_setFld_other _ _ _ _ _ _ _ _ (by decide)).trans (fld_setFld_other _ _ _ _ _ _ _ _ (by decide))

/-- An accepted SET waits for the next edge (R1015, R1017). -/
theorem rtcSetWrite_done {c : Chip} (hcal : calOk (calOf (reg c 0x1D0024).toNat (reg c 0x1D0028).toNat) = true)
    (hwin : 16 ≤ fld c 0x1D0000 16 12) :
    (rtcSetWrite c keeper 1 1).rtc = { c.rtc with
        set := some (fld c 0x1D0020 0 15, calOf (reg c 0x1D0024).toNat (reg c 0x1D0028).toNat), wait := false, edge := 0 }
      ∧ flag (rtcSetWrite c keeper 1 1) 0x1D0000 0 = true ∧ fld (rtcSetWrite c keeper 1 1) 0x1D003C 0 16 = 0
      ∧ flag (rtcSetWrite c keeper 1 1) rtcStat 5 = false
      ∧ Touches [.rtc] (regsAt [0x1D0000, 0x1D003C, rtcStat]) c (rtcSetWrite c keeper 1 1) := by
  have hbit : bits (keeperNow c 0x1D0000 rtcCtlRow 1 255) 0 1 = 1 :=
    (bits_keeperNow (f := fd 0 1 .rwk 0) rfl (by simp [rtcCtlRow, reg1]) c _ _ _).trans ((fieldAfter_en rfl _ _).trans rfl)
  rw [rtcSetWrite_eq hwin]
  generalize keeperNow c 0x1D0000 rtcCtlRow 1 255 = v at hbit
  have htime : reg (setReg c 0x1D0000 v) 0x1D0024 = reg c 0x1D0024 := reg_setReg_other _ _ _ _ (by decide)
  have hdate : reg (setReg c 0x1D0000 v) 0x1D0028 = reg c 0x1D0028 := reg_setReg_other _ _ _ _ (by decide)
  have hss : fld (setReg c 0x1D0000 v) 0x1D0020 0 15 = fld c 0x1D0020 0 15 := fld_setReg_other _ _ _ _ _ _ (by decide)
  rw [submitSet_eq (by rwa [htime, hdate]), htime, hdate, hss]
  refine ⟨rfl, ?_, ?_, flag_setFlag_self _ _ _ _ (by decide), ?_⟩
  · rw [flag_setFlag_other _ _ _ _ _ _ (by decide), flag_setFld_other _ _ _ _ _ _ _ (by decide)]
    show (bits (reg (setReg c 0x1D0000 v) 0x1D0000) 0 1 == 1) = true
    rw [reg_setReg_self, hbit]
    rfl
  · rw [fld_setFlag_other _ _ _ _ _ _ _ (by decide)]
    exact fld_setFld_self _ _ _ _ _ (by decide)
  · exact ((((Touches.refl _ _ c).setReg _ (by decide)).part (.rtc _ _) (by simp)).setFld _ _ _ (by decide)).setFlag _ _ (by decide)

theorem rtcShift_count (c : Chip) (data : Nat) :
    bits (keeperNow c 0x1D0038 rtcShiftRow data (2 ^ 32 - 1)) 0 16 = natBits data 0 16 :=
  (bits_keeperNow (f := fd 0 16 .rwk 0) rfl (by simp [rtcShiftRow, reg1]) c _ _ _).trans
    (fieldAfter_en (natBits_full (by decide)) _ _)

/-- An accepted SHIFT loads its count (R1025, R1026). -/
theorem submitShift_done {c : Chip} (old : Word) {a : BitVec 16} (hidle : flag c rtcStat 5 = false)
    (hcount : fld c 0x1D0038 0 16 = a.toNat) (ha : -16384 ≤ a.toInt ∧ a.toInt ≤ 16384) :
    (submitShift c old).rtc = { c.rtc with edge := 0, wait := false } ∧ shiftLeft (submitShift c old) = a.toInt
      ∧ flag (submitShift c old) rtcStat 5 = (a != 0) ∧ flag (submitShift c old) 0x1D0038 31 = false
      ∧ Touches [.rtc] (regsAt [0x1D0038, 0x1D003C, rtcStat]) c (submitShift c old) := by
  have hzero : (a.toInt != 0) = (a != 0) := by
    rw [Bool.eq_iff_iff, bne_iff_ne, bne_iff_ne, ne_eq, ne_eq, not_iff_not]
    exact ⟨fun h => BitVec.eq_of_toInt_eq (by rw [h]; rfl), fun h => by rw [h]; rfl⟩
  have hsigned : signed 16 (fld c 0x1D0038 0 16) = a.toInt := by rw [hcount, signed_toNat]
  rw [submitShift_eq old hidle (by rw [hsigned]; exact ha.1) (by rw [hsigned]; exact ha.2), hsigned, hzero]
  refine ⟨rfl, ?_, ?_, flag_setFlag_self _ _ _ _ (by decide), ?_⟩
  · rw [shiftLeft, fld_setFlag_other _ _ _ _ _ _ _ (by decide), fld_setFlag_other _ _ _ _ _ _ _ (by decide),
      fld_setFld_self _ _ _ _ _ (by decide), Nat.mod_eq_of_lt (unsigned_lt 16 _)]
    exact signed_unsigned (by decide) (by omega) (by omega)
  · rw [flag_setFlag_other _ _ _ _ _ _ (by decide), flag_setFlag_self _ _ _ _ (by decide)]
  · exact ((((Touches.refl _ _ c).part (.rtc _ _) (by simp)).setFld _ _ _ (by decide)).setFlag _ _
      (by decide)).setFlag _ _ (by decide)

theorem rtcShiftWrite_done {c : Chip} {a : BitVec 16} (hidle : flag c rtcStat 5 = false) (ha : -16384 ≤ a.toInt ∧ a.toInt ≤ 16384) :
    (rtcShiftWrite c keeper (BitVec.ofNat 32 (0x80000000 + a.toNat)) allBytes).rtc = { c.rtc with edge := 0, wait := false }
      ∧ shiftLeft (rtcShiftWrite c keeper (BitVec.ofNat 32 (0x80000000 + a.toNat)) allBytes) = a.toInt
      ∧ flag (rtcShiftWrite c keeper (BitVec.ofNat 32 (0x80000000 + a.toNat)) allBytes) rtcStat 5 = (a != 0)
      ∧ flag (rtcShiftWrite c keeper (BitVec.ofNat 32 (0x80000000 + a.toNat)) allBytes) 0x1D0038 31 = false
      ∧ Touches [.rtc] (regsAt [0x1D0038, 0x1D003C, rtcStat]) c
          (rtcShiftWrite c keeper (BitVec.ofNat 32 (0x80000000 + a.toNat)) allBytes) := by
  have hlt := a.isLt
  have hcount : bits (keeperNow c 0x1D0038 rtcShiftRow (0x80000000 + a.toNat) (2 ^ 32 - 1)) 0 16 = a.toNat := by
    rw [rtcShift_count, natBits]
    omega
  rw [rtcShiftWrite_eq c a]
  obtain ⟨hrtc, hleft, hbusy, hgo, htouch⟩ := submitShift_done (c := setReg c 0x1D0038 (keeperNow c 0x1D0038 rtcShiftRow (0x80000000 + a.toNat) (2 ^ 32 - 1))) (reg c 0x1D0038)
    (by rw [flag, fld_setReg_other _ _ _ _ _ _ (by decide)]; exact hidle) (by rw [fld, reg_setReg_self, hcount]) ha
  rw [setReg_rtc] at hrtc
  exact ⟨hrtc, hleft, hbusy, hgo, ((Touches.refl _ _ c).setReg _ (by decide)).trans htouch⟩

/-- The part of an edge that every edge of a running crystal makes is the count of the operating time. -/
theorem crystalEdge_untrimmed {c : Chip} (hon : rtcOn c = true ∧ aonRuns c = true) (hset : c.rtc.set = none)
    (hcry : c.pwr.onCrystal = true) (htrim : fld c 0x1D0030 0 12 = 0 ∧ -10000000 < c.rtc.acc ∧ c.rtc.acc < 10000000) :
    crystalEdge c = advanceSs (shiftTerm (otEdge c) 0).2 (1 + (shiftTerm (otEdge c) 0).1).toNat := by
  rw [crystalEdge_running hon.2]
  exact rtcEdge_untrimmed (c := otEdge c) hon.1 hset hcry htrim.1 htrim.2

/-- An edge after which the calendar shows what it showed raises no wake event. -/
theorem edgeTick_of_cal {c : Chip} (h : (crystalEdge c).rtc.cal = c.rtc.cal) : edgeTick c = crystalEdge c := by
  rw [edgeTick, clockEdge]
  exact if_neg (by simp [h])

/-- An edge that loads a SET raises no wake event. -/
theorem edgeTick_of_set {c : Chip} (h : c.rtc.set.isSome = true) : edgeTick c = crystalEdge c := by
  have hdue : secondDue c = false := by
    obtain ⟨x, hx⟩ := Option.isSome_iff_exists.1 h
    simp [secondDue, hx]
  rw [edgeTick, clockEdge]
  exact if_neg (by simp [hdue])

/-- The second passes at the edge after 32,767 (R1008). -/
theorem secondTick_done {c : Chip} (hon : rtcOn c = true ∧ aonRuns c = true) (hset : c.rtc.set = none)
    (hcry : c.pwr.onCrystal = true) (htrim : fld c 0x1D0030 0 12 = 0 ∧ -10000000 < c.rtc.acc ∧ c.rtc.acc < 10000000)
    (hleft : shiftLeft c = 0) (hss : c.rtc.ss = 32767) (halm : flag c 0x1D0048 8 = false ∧ flag c 0x1D0058 8 = false) :
    (secondTick c).rtc.ss = 0 ∧ (secondTick c).rtc.cal = (calNext c.rtc.cal).1
      ∧ flag (secondTick c) rtcStat 3 = (flag c rtcStat 3 || (calNext c.rtc.cal).2)
      ∧ Touches [.rtc, .ot] (regAt rtcStat) c (secondTick c) := by
  have hedge : crystalEdge c = secondPasses (modRtc (otEdge c) fun r => { r with ss := 0 }) := by
    have hss' : (otEdge c).rtc.ss = 32767 := hss
    rw [crystalEdge_untrimmed hon hset hcry htrim, shiftTerm_none (c := otEdge c) hleft, advanceSs]
    simp only [hss']
    rfl
  have hquiet := secondPasses_quiet (c := modRtc (otEdge c) fun r => { r with ss := 0 }) halm.1 halm.2
  have hcal : (crystalEdge c).rtc.cal = (calNext c.rtc.cal).1 := by
    rw [hedge, hquiet]
    split <;> rfl
  have hdue : secondDue c = true := by simp [secondDue, hcal, calNext_ne, hset]
  have htick : secondTick c = crystalEdge c := by
    have hstep : calendarSecond c = crystalEdge c := if_pos (by rw [hon.1, hdue]; rfl)
    have hwake : alarmWakes (crystalEdge c) = false := by
      have hnone : alarmsFiring (crystalEdge c) = [] := by
        rw [hedge, hquiet]
        apply alarmsFiring_none
        · split
          · exact (flag_setFlag_other _ _ _ _ _ _ (by decide)).trans halm.1
          · exact halm.1
        · split
          · exact (flag_setFlag_other _ _ _ _ _ _ (by decide)).trans halm.2
          · exact halm.2
      rw [alarmWakes, hnone]
      rfl
    simp only [secondTick, clockEdge, hstep, hwake, Bool.and_false, Bool.false_eq_true, if_false]
  have htouch : Touches [.rtc, .ot] (regAt rtcStat) c (modRtc (otEdge c) fun r => { r with ss := 0, cal := (calNext c.rtc.cal).1 }) :=
    ((otEdge_touches c).mono (List.Subset.refl _) (by simp [noReg])).part (.rtc _ _) (by simp)
  rw [htick]
  refine ⟨?_, hcal, ?_, ?_⟩ <;> rw [hedge, hquiet] <;> split
  · rfl
  · rfl
  · next hwrap =>
    rw [flag_setFlag_self _ _ _ _ (by decide), show (calNext c.rtc.cal).2 = true from hwrap, Bool.or_true]
  · next hwrap =>
    rw [show (calNext c.rtc.cal).2 = false from Bool.not_eq_true _ ▸ hwrap, Bool.or_false]
    rfl
  · exact htouch.setFlag _ _ (by decide)
  · exact htouch

/-- Settles O59: the two writes reach the clock, an untrimmed edge counts one, and a window in range stores its result. -/
theorem clockAndCalendarComplete : Obligations.ClockAndCalendarComplete := by
  refine ⟨fun s hcal hwin => ?_, fun s ss k hon hset => ?_, fun s a hidle ha => ?_, fun s hon hset hcry htrim hleft hss => ?_,
    fun s hon hset hcry htrim hleft hss halm => ?_, fun s hon hset hcry htrim hleft hdue hss => ?_,
    fun s n m hon hdom hsrc hwin hm hrange => ?_⟩ <;> refine ⟨_, rfl, rfl, ?_⟩
  · exact rtcSetWrite_done hcal hwin
  · dsimp only
    rw [edgeTick_of_set (by rw [hset]; rfl), crystalEdge_running hon.2, rtcEdge_set (c := otEdge s.chip) hon.1 hset]
    refine ⟨rfl, rfl, rfl, ?_, flag_setFlag_self _ _ _ _ (by decide), ?_⟩
    · rw [loadSet, flag_setFlag_other _ _ _ _ _ _ (by decide), flag_setFlag_self _ _ _ _ (by decide)]
    · exact ((((otEdge_touches s.chip).mono (List.Subset.refl _) (by simp [noReg])).part (.rtc _ _) (by simp)).setFlag _ _
        (by decide)).setFlag _ _ (by decide)
  · exact rtcShiftWrite_done hidle ha
  · have hedge : crystalEdge s.chip = modRtc (otEdge s.chip) fun r => { r with ss := r.ss + 1 } := by
      rw [crystalEdge_untrimmed hon hset hcry htrim, shiftTerm_none (c := otEdge s.chip) hleft]
      exact advanceSs_within (show s.chip.rtc.ss + 1 < 32768 by omega)
    dsimp only
    rw [edgeTick_of_cal (by rw [hedge]; rfl), hedge]
    refine ⟨rfl, rfl, ?_, (otEdge_touches s.chip).part (.rtc _ _) (by simp)⟩
    simp only [modRtc, otEdge, hcry, if_true]
  · exact secondTick_done hon hset hcry htrim hleft hss halm
  · have hshift : shiftLeft (otEdge s.chip) = shiftLeft s.chip := rfl
    obtain ⟨d, hpos, hneg, hfst, hrest, hkeptSs, hkeptCal, _, htouch⟩ := shiftTerm_due (c := otEdge s.chip) (by rwa [hshift]) hdue
    rw [hshift] at hpos hneg hrest
    have hss' : (otEdge s.chip).rtc.ss = s.chip.rtc.ss := rfl
    have hcal' : (otEdge s.chip).rtc.cal = s.chip.rtc.cal := rfl
    have hone : d = 1 ∨ d = -1 := by omega
    have hedge : crystalEdge s.chip = modRtc (shiftTerm (otEdge s.chip) 0).2 fun r => { r with ss := r.ss + (1 + d).toNat } := by
      rw [crystalEdge_untrimmed hon hset hcry htrim, hfst]
      exact advanceSs_within (by omega)
    have hstep : shiftStep s.chip = crystalEdge s.chip := by
      have hmoved : shiftLeft (crystalEdge s.chip) = shiftLeft s.chip - d := by
        rw [hedge]
        exact hrest
      simp only [shiftStep, hon.1, hmoved, Bool.true_and, bne_iff_ne, ne_eq]
      exact if_pos (by omega)
    dsimp only
    rw [hstep, hedge]
    have hssAfter : (modRtc (shiftTerm (otEdge s.chip) 0).2 fun r => { r with ss := r.ss + (1 + d).toNat }).rtc.ss
        = (shiftTerm (otEdge s.chip) 0).2.rtc.ss + (1 + d).toNat := rfl
    rw [hssAfter, hkeptSs, hss']
    refine ⟨fun h => ⟨?_, by rw [hpos h]; rfl⟩, fun h => ⟨?_, by rw [hneg h]; rfl⟩, hkeptCal.trans hcal', ?_⟩
    · rw [← hpos h]
      exact hrest
    · rw [show shiftLeft s.chip + 1 = shiftLeft s.chip - d by rw [hneg h]; omega]
      exact hrest
    · exact (((otEdge_touches s.chip).mono (List.Subset.refl _) (by simp [noReg])).trans htouch).part (.rtc _ _) (by simp)
  · exact trimWindowEnd_done hon hdom hsrc hwin hm hrange.1 hrange.2

end Sys2Proof.Machine
end

section
-- One proof at a time: every thread takes a stack of its own from the memory that a compile has.
set_option Elab.async false
/-! SUPPORT. The panel is permitted while the node has not reached its first frame, and PANEL_START waits (R149, R1058). -/

namespace Sys2Proof.Machine

/-- A node in its start-up, before the first frame, with the panel enabled and its two domains ON. -/
def startingPanelNode : Chip :=
  modMode (setDom (setDom (setFlag Chip.reset lcdCtl 0 true) 19 .on) 20 .on) fun m => { m with frames := true, firstFrame := true }

theorem panelMay_startingPanelNode : panelMay startingPanelNode = true := by decide +kernel

theorem lcdState_startingPanelNode : lcdState startingPanelNode = 0 := by decide +kernel

theorem panelStart_of_starting {c : Chip} (h : starting c = true) : panelStart c = c := by
  simp [panelStart, h]

/-- Refutes O60: before the first frame PANEL_START leaves a permitted panel in OFF, where the first clause has it STARTING. -/
theorem not_panelCommandsComplete : ¬ Obligations.PanelCommandsComplete := by
  rintro ⟨hstart, -⟩
  obtain ⟨t, hexec, -, hstate, -⟩ :=
    hstart { chip := startingPanelNode, pending := [] } panelMay_startingPanelNode lcdState_startingPanelNode
  obtain rfl : { chip := panelStart startingPanelNode, pending := [] } = t := by injection hexec
  rw [panelStart_of_starting (by decide +kernel), lcdState_startingPanelNode] at hstate
  exact absurd hstate (by decide)

end Sys2Proof.Machine
end

section
-- One proof at a time: every thread takes a stack of its own from the memory that a compile has.
set_option Elab.async false
/-! SUPPORT. A request for a step of a cell that no bank has: its grant writes outside the loop-output banks. The statements
speak of every state, and the queue of leave requests holds operations with any cell number (R495, R529). -/

namespace Sys2Proof.Machine

/-- A register that neither reports nor the command may change reads as before. -/
theorem Changes.reg_same {ps : List Part} {rs : Nat → Bool} {c c' : Chip} (h : Changes ps rs c c') {off : Nat}
    (ho : (reportReg off || rs off) = false) : reg c' off = reg c off := by
  rw [Bool.or_eq_false_iff] at ho
  exact h.regs off (by simp [ho.1, ho.2])

/-- A node in which the step of a cell 48 waits; the offset of its trim register is that of a contact's. -/
def strayStepNode : Chip :=
  addReq (modCell (setReg Chip.reset (cellBase 48 + 0x24) 3) 48 fun x => { x with tgt := some 1 }) (bankStepReq 48)

theorem headReq_strayStepNode : headReq strayStepNode = some (bankStepReq 48) := by decide +kernel

theorem fits_strayStepNode : fits strayStepNode (bankStepReq 48) = true := by decide +kernel

/-- The grant of the step sends the cell to OPEN, which clears bits 1:0 of the register. -/
theorem reg_leaveGrant_strayStepNode :
    reg (leaveGrant strayStepNode) (cellBase 48 + 0x24) ≠ reg strayStepNode (cellBase 48 + 0x24) := by decide +kernel

/-- Refutes O13: the third clause bounds the registers of a grant by the three loop-output banks, for every state. -/
theorem not_powerWritesAndLeaveComplete : ¬ Obligations.PowerWritesAndLeaveComplete := by
  rintro ⟨-, -, hgrant, -⟩
  obtain ⟨t, hexec, -, -, -, -, hchanges, -⟩ :=
    hgrant { chip := strayStepNode, pending := [] } (bankStepReq 48) headReq_strayStepNode fits_strayStepNode
  obtain rfl : { chip := leaveGrant strayStepNode, pending := [] } = t := by injection hexec
  exact reg_leaveGrant_strayStepNode (hchanges.reg_same (by decide))

end Sys2Proof.Machine
end

section
-- One proof at a time: every thread takes a stack of its own from the memory that a compile has.
set_option Elab.async false
/-! SUPPORT. States that the statements of power, clocks and modes speak of too: a waiting step of a cell that no bank has, a
spare whose return ends with PLL-M, a budget of 0. -/

namespace Sys2Proof.Machine

/-- What is said of the node that a command leaves, at the node that `exec` computes. -/
theorem performs_elim {s : State} {i : Instr} {P : Chip → Prop} (h : performs s i P) {c : Chip}
    (hexec : exec i s = .next { s with chip := c }) : P c := by
  obtain ⟨t, ht, -, hP⟩ := h
  rw [hexec] at ht
  injection ht with ht
  rwa [← ht] at hP

/-! ## DOMAIN_ON (R93, R113) -/

/-- The node of `strayStepNode` with the always-needed domain 29 waking. -/
def strayStepWaking : Chip := setDom strayStepNode 29 .waking

theorem reg_domainOn_strayStepWaking :
    reg (domainOn strayStepWaking 29) (cellBase 48 + 0x24) ≠ reg strayStepWaking (cellBase 48 + 0x24) := by decide +kernel

/-- Refutes O14: the first clause bounds the registers that DOMAIN_ON changes by those of the three loop-output banks, and its
grants reach a cell 48. -/
theorem not_domainsAndRailsComplete : ¬ Obligations.DomainsAndRailsComplete := by
  rintro ⟨hon, -⟩
  obtain ⟨-, hret⟩ := performs_elim (c := domainOn strayStepWaking 29)
    (hon ⟨strayStepWaking, []⟩ 29 (by decide +kernel) (by decide +kernel) (by decide +kernel)) rfl
  obtain ⟨hchanges, -⟩ := hret (by decide)
  exact reg_domainOn_strayStepWaking (hchanges.reg_same (by decide +kernel))

/-! ## PLLM_LOSS (R104, R1203) -/

/-- Bank 0 and SEQ are ON, the modulators run, and the spare of bank 0 is in phase 3 of its return; no mode wants bank 0 ON. -/
def spareReturningNode : Chip :=
  let c := setFlag (setFlag (setFld Chip.reset (rotStat 0) 5 3 3) (chConv 0) 9 true) 0x18000 5 true
  let d := setDom (setDom c 8 .on) 26 .on
  modMode { d with pwr := { d.pwr with modulators := true } } fun m => { m with up := true }

theorem dom_pllmLoss_spareReturningNode : dom (pllmLoss spareReturningNode) 8 ≠ dom spareReturningNode 8 := by decide +kernel

/-- Refutes O16: the third clause has PLLM_LOSS change the modulators alone, where the end of the spare's return lets the bank's
domain turn off. -/
theorem not_clockCommandsComplete : ¬ Obligations.ClockCommandsComplete := by
  rintro ⟨-, -, hloss, -⟩
  obtain ⟨hpwr, -⟩ := performs_elim (c := pllmLoss spareReturningNode)
    (hloss ⟨spareReturningNode, []⟩ (by decide +kernel) (by decide +kernel)) rfl
  exact dom_pllmLoss_spareReturningNode (by rw [dom, hpwr, dom])

/-! ## MODE_REQUEST (R140) -/

theorem reqRefusal_strayStepNode : reqRefusal strayStepNode 4 = 0 := by decide +kernel

theorem reg_modeRequest_strayStepNode :
    reg (modeRequest strayStepNode keeper (BitVec.ofNat 32 (0x80000000 + 4)) allBytes) (cellBase 48 + 0x24)
      ≠ reg strayStepNode (cellBase 48 + 0x24) := by decide +kernel

/-- Refutes O17: the first clause bounds the registers of an accepted request by those of the three loop-output banks, and the
grants that follow reach a cell 48. -/
theorem not_modeCommandsComplete : ¬ Obligations.ModeCommandsComplete := by
  rintro ⟨haccept, -⟩
  obtain ⟨-, -, -, hchanges, -⟩ := performs_elim
    (c := modeRequest strayStepNode keeper (BitVec.ofNat 32 (0x80000000 + 4)) allBytes)
    (haccept ⟨strayStepNode, []⟩ 4 reqRefusal_strayStepNode) rfl
  exact reg_modeRequest_strayStepNode (hchanges.reg_same (by decide +kernel))

/-! ## START_UP (R147, R107) -/

/-- The core rails and VAUX stand, and the budget is 0: no domain that asks for leave gets it. -/
def zeroBudgetNode : Chip := setReg (setFld Chip.reset 0x10000 0 4 15) 0x10020 0

theorem mode_startUp_zeroBudgetNode :
    ([3, 4, 5, 7] : List Nat).contains (fld (startUp zeroBudgetNode true true true true true false) 0x108 0 4) = true := by
  decide +kernel

theorem domOn_startUp_zeroBudgetNode : domOn (startUp zeroBudgetNode true true true true true false) 26 = false := by
  decide +kernel

/-- Refutes O19: a start-up under a budget of 0 leaves SEQ waiting for leave, where the first clause has it ON. -/
theorem not_startUpCompletes : ¬ Obligations.StartUpCompletes := by
  rintro ⟨hstart, -⟩
  obtain ⟨-, -, -, -, -, hdoms, -⟩ := performs_elim (c := startUp zeroBudgetNode true true true true true false)
    (hstart ⟨zeroBudgetNode, []⟩ true (by decide +kernel) (by decide +kernel) (by decide +kernel) (by decide +kernel)
      (by decide +kernel)) rfl
  obtain ⟨hseq, -, -⟩ := hdoms mode_startUp_zeroBudgetNode
  rw [domOn_startUp_zeroBudgetNode] at hseq
  exact Bool.noConfusion hseq

/-! ## RECORD_DELIVERY (R149, R276) -/

/-- The physical function's ring of records is enabled, with room, and a record waits, before the node's first frame. -/
def startingRecordNode : Chip :=
  modMode (modFn (setFlag Chip.reset (ringBase 0 3 + 8) 8 true) 0 fun f => { f with recQ := [⟨0, 0, []⟩] })
    fun m => { m with frames := true, firstFrame := true }

theorem recQ_recordDelivery_startingRecordNode :
    (fnSt (recordDelivery startingRecordNode 0) 0).recQ
      ≠ (fnSt startingRecordNode 0).recQ.drop (ringSize startingRecordNode 0 3 - ringOcc startingRecordNode 0 3) := by
  decide +kernel

/-- Refutes O28: before the first frame no record is delivered, where the first clause fills the ring's room. -/
theorem not_queuesAndBreachesComplete : ¬ Obligations.QueuesAndBreachesComplete := by
  rintro ⟨hdeliver, -⟩
  obtain ⟨hq, -⟩ := performs_elim (c := recordDelivery startingRecordNode 0)
    (hdeliver ⟨startingRecordNode, []⟩ 0 _ (by decide +kernel) (by decide +kernel) (by decide +kernel) (by decide +kernel)
      rfl) rfl
  exact recQ_recordDelivery_startingRecordNode hq

end Sys2Proof.Machine
end

section
-- One proof at a time: every thread takes a stack of its own from the memory that a compile has.
set_option Elab.async false
/-! SUPPORT. States that the statements of frames and scan entries speak of too: points that are listed twice, and a step of a
cell that no bank has, which the entry's own step lets go. -/

namespace Sys2Proof.Machine

/-! ## FRAME_BOUNDARY (R28, R62) -/

/-- A node in SCAN whose list of points holds the first analog point twice; a read takes the first of both. -/
def pointTwiceNode : Chip :=
  let c := modMode (setReg Chip.reset 0x100 (BitVec.ofNat 32 mScan)) fun m => { m with up := true, frames := true }
  { c with points := [(anaPt 0, { ptDef (anaPt 0) with snap := 4 }), (anaPt 0, { ptDef (anaPt 0) with live := 8 })] }

/-- The snapshot makes the first of both equal to the default, so that it is listed no more and the second one reads. -/
theorem snap_frameBoundary_pointTwiceNode :
    (point (frameBoundary pointTwiceNode) (anaPt 0)).snap ≠ (point pointTwiceNode (anaPt 0)).live := by decide +kernel

/-- Refutes O29: the second clause speaks of a list of points that is not canonical too. -/
theorem not_boundarySlotAndTickComplete : ¬ Obligations.BoundarySlotAndTickComplete := by
  rintro ⟨-, hsnap, -⟩
  obtain ⟨hlive, -⟩ := performs_elim (c := frameBoundary pointTwiceNode)
    (hsnap ⟨pointTwiceNode, []⟩ 0 (by decide +kernel) (by decide +kernel) (by decide +kernel) (by decide +kernel)
      (by decide +kernel) (by decide +kernel)) rfl
  exact snap_frameBoundary_pointTwiceNode hlive

/-! ## OUT (R503, R524) -/

/-- A node in RUN with the first loop-output bank ON, whose first scan entry is an OUT of its first cell. The watchdog has opened
that cell, and the step of a cell 48 waits. -/
def strayStepOut : Chip :=
  let c := modMode (setDom (setReg strayStepNode 0x100 (BitVec.ofNat 32 mRun)) 16 .on) fun m => { m with up := true, frames := true }
  let entry := memWrite tblDef c.tables (tblBase c 3 + 0x200) [7, 0, 0, 0, 0, 0, 0, 0, 0, 0, 0x50]
  modCell { c with tables := memWrite tblDef entry (tblBase c 3 + 4) [1] } 0 fun x => { x with opened := true, mode := 1, dem := 0 }

theorem reg_scanRow_strayStepOut :
    reg (scanRow strayStepOut 7 0) (cellBase 48 + 0x24) ≠ reg strayStepOut (cellBase 48 + 0x24) := by decide +kernel

/-- Refutes O30: the clause of a cell's OUT bounds the registers by those of the three loop-output banks, and the grants that
its own step brings reach a cell 48. -/
theorem not_scanEntriesComplete : ¬ Obligations.ScanEntriesComplete := by
  rintro ⟨-, -, -, -, -, -, -, -, hout, -⟩
  obtain ⟨-, -, -, -, -, -, -, hchanges⟩ := performs_elim (c := scanRow strayStepOut 7 0)
    (hout ⟨strayStepOut, []⟩ 0 0 _ (by decide +kernel) (by decide +kernel) (by decide +kernel) (by decide +kernel)
      (by decide +kernel) rfl) rfl
  exact reg_scanRow_strayStepOut (hchanges.reg_same (by decide +kernel))

end Sys2Proof.Machine
end

section
-- One proof at a time: every thread takes a stack of its own from the memory that a compile has.
set_option Elab.async false
/-! SUPPORT. States that the statements of the analog banks, of sentry scans and of the loop-output cells speak of too: a test
tone under an opening protection, a channel of another bank that waits for the spare, the waiting step of a cell that no bank has. -/

namespace Sys2Proof.Machine

/-! ## SENTRY_SCAN (R368, R370) -/

/-- A node in SENTRY whose first entry hits at every code of the first contact; the step of a cell 48 waits. -/
def strayStepSentry : Chip :=
  let c := setReg (setReg strayStepNode 0x100 (BitVec.ofNat 32 mSentry)) (diCfg 0) 1
  { c with seq := { c.seq with sentry := [⟨pt 1 0, 1, 1, 15, 0, 0⟩] } }

/-- What the scan sees of the first contact. -/
def openContactSeen : SentrySeen := ⟨⟨⟨0, 1⟩, ⟨0, 1⟩⟩, ⟨⟨0, 1⟩, ⟨0, 1⟩⟩, none⟩

theorem reg_sentryScan_strayStepSentry :
    reg (sentryScan strayStepSentry 0 openContactSeen) (cellBase 48 + 0x24) ≠ reg strayStepSentry (cellBase 48 + 0x24) := by
  decide +kernel

/-- Refutes O32: the clause of the scan that wakes the node bounds the registers by those of the three loop-output banks, and the
grants that the wake brings reach a cell 48. -/
theorem not_blankingSentryAndStaleComplete : ¬ Obligations.BlankingSentryAndStaleComplete := by
  rintro ⟨-, -, -, -, -, -, hwake, -⟩
  obtain ⟨-, -, -, hchanges, -⟩ := performs_elim (c := sentryScan strayStepSentry 0 openContactSeen)
    (hwake ⟨strayStepSentry, []⟩ 0 openContactSeen ⟨pt 1 0, 1, 1, 15, 0, 0⟩ ((sentryCode strayStepSentry ⟨pt 1 0, 1, 1, 15, 0, 0⟩ openContactSeen).getD 0)
      (by decide +kernel) (by decide +kernel) (by decide +kernel) (by decide +kernel) (by decide +kernel) (by decide +kernel)
      (by decide +kernel)) rfl
  exact reg_sentryScan_strayStepSentry (hchanges.reg_same (by decide +kernel))

/-! ## PROTECTION_OPEN (R415, R417) -/

/-- The first channel of a powered bank measures a voltage, with a test tone under way. -/
def toneNode : Chip := modAna (setDom Chip.reset 8 .on) 0 fun a => { a with aMode := 1, tone := true }

theorem tone_protectionOpen_toneNode : (anaSt (protectionOpen toneNode 0) 0).tone ≠ (anaSt toneNode 0).tone := by decide +kernel

/-- Refutes O33: the protection that opens ends a test tone, where the third clause lets no channel's state change. -/
theorem not_setupAndSensorCommandsComplete : ¬ Obligations.SetupAndSensorCommandsComplete := by
  rintro ⟨-, -, hopen, -⟩
  obtain ⟨-, -, hchanges⟩ := performs_elim (c := protectionOpen toneNode 0)
    (hopen ⟨toneNode, []⟩ 0 (by decide +kernel) (by decide +kernel)) rfl
  have hana : (protectionOpen toneNode 0).ana = toneNode.ana := hchanges.parts .ana (by decide)
  exact tone_protectionOpen_toneNode (by rw [anaSt, hana, anaSt])

/-! ## CALIBRATION_END (R449, R457) -/

/-- The repeated calibration of bank 0's spare runs for a channel that waits to be moved to it. That channel is one of bank 1,
whose source is at its limit. -/
def strayWaitingNode : Chip :=
  let c := setFld (setFlag (setDom Chip.reset 8 .on) (chStat 16) 3 true) (rotStat 0) 5 3 1
  modBank { c with pwr := { c.pwr with modulators := true } } 0 fun s => { s with emerg := some 16, retry := true }

theorem reg_calibrationEnd_strayWaitingNode :
    reg (bankWork (fun c => calibrationEnd c 0 1000000 0 0) strayWaitingNode) (chStat 16) ≠ reg strayWaitingNode (chStat 16) := by decide +kernel

/-- Refutes O34: the channel that is lost with the spare is one of another bank, whose registers the third clause leaves alone. -/
theorem not_rotationAndCheckCommandsComplete : ¬ Obligations.RotationAndCheckCommandsComplete := by
  rintro ⟨-, -, hfail, -⟩
  obtain ⟨-, hretired⟩ := performs_elim (c := bankWork (fun c => calibrationEnd c 0 1000000 0 0) strayWaitingNode)
    (hfail ⟨strayWaitingNode, []⟩ 0 1000000 0 0 16 (anaSt strayWaitingNode 16).aMode (anaSt strayWaitingNode 16).aExc
      (by decide +kernel) (by decide +kernel) (by decide +kernel)) rfl
  obtain ⟨-, -, hchanges, -⟩ := hretired (by decide +kernel)
  exact reg_calibrationEnd_strayWaitingNode (hchanges.reg_same (by decide +kernel))

/-! ## OVERTEMP (R517) -/

/-- The first cell waits in OPEN for the end of its over-temperature; the step of a cell 48 waits too. -/
def strayStepOvertemp : Chip :=
  modCell (setFlag (setDom strayStepNode 16 .on) (cellStat 0) lfOvertemp true) 0 fun x => { x with mode := 1, opened := true }

theorem reg_overtemp_strayStepOvertemp :
    reg (overtemp strayStepOvertemp 0 false) (cellBase 48 + 0x24) ≠ reg strayStepOvertemp (cellBase 48 + 0x24) := by decide +kernel

/-- Refutes O36: the clause of the end of an over-temperature bounds the registers by those of the three loop-output banks, and
the grants that the cell's step brings reach a cell 48. -/
theorem not_cellModesAndFaultsComplete : ¬ Obligations.CellModesAndFaultsComplete := by
  rintro ⟨-, -, -, -, -, -, -, hend, -⟩
  obtain ⟨-, -, -, hchanges⟩ := performs_elim (c := overtemp strayStepOvertemp 0 false)
    (hend ⟨strayStepOvertemp, []⟩ 0 (by decide +kernel) (by decide +kernel)) rfl
  exact reg_overtemp_strayStepOvertemp (hchanges.reg_same (by decide +kernel))

end Sys2Proof.Machine
end

section
-- One proof at a time: every thread takes a stack of its own from the memory that a compile has.
set_option Elab.async false
/-! SUPPORT. States that the statements of the FSK modem and of the diagnostics block speak of too: a carrier that returns after a
cut reception, SRAM under retention. -/

namespace Sys2Proof.Machine

/-! ## FSK_CARRIER_DETECT (R544) -/

/-- In RUN, the first cell drives a current with its modem on, and has cut a reception. -/
def cutReceptionNode : Chip :=
  modCell (setFlag (setDom (setReg Chip.reset 0x100 (BitVec.ofNat 32 mRun)) 16 .on) (cellBase 0) 4 true) 0 fun x => { x with mode := 1, rxCut := true }

theorem rxCut_fskCarrierDetect_cutReceptionNode :
    (cell (fskCarrierDetect cutReceptionNode 0 true) 0).rxCut ≠ (cell cutReceptionNode 0).rxCut := by decide +kernel

/-- Refutes O37: a carrier that comes after a cut reception ends the cut, where the last clause lets no cell's state change. -/
theorem not_trimAndModemCommandsComplete : ¬ Obligations.TrimAndModemCommandsComplete := by
  rintro ⟨-, -, -, -, -, -, -, -, -, -, -, -, -, -, hcarrier⟩
  obtain ⟨-, htouches⟩ := performs_elim (c := fskCarrierDetect cutReceptionNode 0 true)
    (hcarrier ⟨cutReceptionNode, []⟩ 0 true fun _ => by decide +kernel) rfl
  have hcells : (fskCarrierDetect cutReceptionNode 0 true).cells = cutReceptionNode.cells := htouches.parts .cells (by decide)
  exact rxCut_fskCarrierDetect_cutReceptionNode (by rw [cell, hcells, cell])

/-! ## SCRUB (R126, R1092) -/

/-- The SRAM is under retention: domain 28 is in SENTRY. -/
def retainedSramNode : Chip := setDom Chip.reset 28 .sentry

theorem count_scrub_retainedSramNode :
    fld (scrub retainedSramNode 0 0 1) 0x1F0050 0 16 ≠ satInc 16 (fld retainedSramNode 0x1F0050 0 16) := by decide +kernel

/-- Refutes O49: the scrubber does not read an SRAM under retention, where the fourth clause counts a correctable error of any
region in any state. -/
theorem not_diagnosticCommandsComplete : ¬ Obligations.DiagnosticCommandsComplete := by
  rintro ⟨-, -, -, hscrub, -⟩
  obtain ⟨hcount, -⟩ := performs_elim (c := scrub retainedSramNode 0 0 1)
    (hscrub ⟨retainedSramNode, []⟩ 0 0).2 rfl
  exact count_scrub_retainedSramNode hcount

end Sys2Proof.Machine
end

section
-- One proof at a time: every thread takes a stack of its own from the memory that a compile has.
set_option Elab.async false
/-! SUPPORT. States that the statements of the Saddle link speak of too: a forced cell in SAFE_HOLD, a DMA domain that MIRROR does
not keep. -/

namespace Sys2Proof.Machine

/-! ## TAKEN (R995) -/

/-- A unit in SAFE_HOLD with contact, whose first cell is forced. -/
def forcedHoldNode : Chip :=
  let c := setReg (setFlag Chip.reset 0x1C0000 0 true) 0x100 (BitVec.ofNat 32 mSafeHold)
  let c := setPoint (setFlag c (cellStat 0) 13 true) (cellPt 0) { point c (cellPt 0) with flags := flSubst }
  setDom (modSdl c fun s => { s with contact := true }) 6 .on

/-- A frame in order. -/
def takenHdr : SaddleHdr := ⟨0, 1, 0, 0, true⟩

theorem flags_rxTaken_forcedHoldNode :
    (point (rxTaken forcedHoldNode takenHdr []) (cellPt 0)).flags ≠ (point forcedHoldNode (cellPt 0)).flags := by decide +kernel

/-- Refutes O56: a cell that TAKEN opens ends its force and with it the substitution of its point, where the last clause lets no
point change. -/
theorem not_saddleFramesComplete : ¬ Obligations.SaddleFramesComplete := by
  rintro ⟨-, -, -, -, -, -, -, -, -, -, -, htaken⟩
  obtain ⟨-, -, -, hchanges⟩ := performs_elim (c := rxTaken forcedHoldNode takenHdr [])
    (htaken ⟨forcedHoldNode, []⟩ takenHdr [] (by decide +kernel) (by decide +kernel) (by decide +kernel)) rfl
  have hpoints : (rxTaken forcedHoldNode takenHdr []).points = forcedHoldNode.points := hchanges.parts .points (by decide)
  exact flags_rxTaken_forcedHoldNode (by rw [point, hpoints, point])

/-! ## SWITCHBACK_TIMEOUT (R1004) -/

/-- An active unit that hands over has the DMA domain ON without its enable, and a waveform port requests. -/
def handingOverNode : Chip :=
  let c := setReg (setFlag (setFlag Chip.reset 0x1C0000 0 true) 0x10010 27 false) 0x100 (BitVec.ofNat 32 mRun)
  let c := setDom (modMode c fun m => { m with up := true, frames := true }) 27 .on
  modSdl (setReq c 0 true) fun s => { s with swb := 2 }

theorem req_switchbackTimeout_handingOverNode :
    (switchbackTimeout handingOverNode).dma.req ≠ handingOverNode.dma.req := by decide +kernel

/-- Refutes O57: the domains that MIRROR does not keep begin to turn off, and the DMA engine's requests end, where the clause of
the switch-back's timeout lets no DMA state change. -/
theorem not_saddleTimersAndStepsComplete : ¬ Obligations.SaddleTimersAndStepsComplete := by
  rintro ⟨-, -, -, -, -, -, htimeout, -⟩
  obtain ⟨-, -, -, -, -, hparts⟩ := performs_elim (c := switchbackTimeout handingOverNode)
    (htimeout ⟨handingOverNode, []⟩ (by decide +kernel) (by decide +kernel)) rfl
  have hdma : (switchbackTimeout handingOverNode).dma = handingOverNode.dma := hparts .dma (by decide)
  exact req_switchbackTimeout_handingOverNode (by rw [hdma])

end Sys2Proof.Machine
end

section
-- One proof at a time: every thread takes a stack of its own from the memory that a compile has.
set_option Elab.async false
/-! SUPPORT. A state that the statement of a filter output speaks of too: the channel's home cell has come back to it. -/

namespace Sys2Proof.Machine

/-! ## ACQ (R1203) -/

/-- The tables of SCAN: an entry for the sixth channel, with a set for a voltage in V. -/
def acqTables : Mem :=
  memWrite tblDef (memWrite tblDef (memWrite tblDef (memWrite tblDef (memWrite tblDef Chip.reset.tables 0x1500004 [1]) 0x1500200 [1])
    0x1500208 [5, 0, 0x20]) 0x1600100 [1, 0, 16, 0xFA, 2]) 0x1600132 [1]

/-- In SCAN the sixth channel measures a voltage with its home cell. The spare of its bank has failed, and is given up at this
channel's next output. -/
def spareGivenUpNode : Chip :=
  let c := setReg (setDom { Chip.reset with tables := acqTables } 8 .on) 0x100 (BitVec.ofNat 32 mScan)
  let c := modMode c fun m => { m with up := true, frames := true }
  let c := modBank (modAna c 5 fun a => { a with aMode := 1 }) 0 fun s => { s with back := some (5, 0) }
  { c with pwr := { c.pwr with modulators := true }, corr := [(corrKey 0 5 (setupKey 1 0), some ⟨0, 0, 0⟩)] }

/-- A signal of 0 V. -/
def zeroWave : Wave := ⟨⟨0, 1⟩, ⟨0, 1⟩⟩

/-- What the output does. -/
def spareGivenUpOutput : Chip := bankWork (fun c => acqOutput c 5 (phasor zeroWave) (phasor zeroWave) (exactVal ⟨0, 1⟩)) spareGivenUpNode

theorem fifo_spareGivenUpOutput : spareGivenUpOutput.diag.fifo.length ≠ spareGivenUpNode.diag.fifo.length := by decide +kernel

/-- Refutes O31: the output at which a failed spare is given up reports it, where the statement lets no report be written. -/
theorem not_filterOutputCompletes : ¬ Obligations.FilterOutputCompletes := by
  intro h
  obtain ⟨-, -, htouches⟩ := performs_elim (c := spareGivenUpOutput)
    (h ⟨spareGivenUpNode, []⟩ 5 zeroWave zeroWave ⟨0, 1⟩ 0 0 (by decide +kernel) (by decide +kernel) (by decide +kernel)
      (by decide +kernel) (by decide +kernel) (by decide +kernel) (by decide +kernel) (by decide +kernel) (by decide +kernel)
      (by decide +kernel)) rfl
  have hdiag : spareGivenUpOutput.diag = spareGivenUpNode.diag := htouches.parts .diag (by decide)
  exact fifo_spareGivenUpOutput (by rw [hdiag])

end Sys2Proof.Machine
end

section
-- One proof at a time: every thread takes a stack of its own from the memory that a compile has.
set_option Elab.async false
/-! SUPPORT. The Saddle lease (R974 to R982): the unit's requests and leases, the arbiter's answers, and what an event of the
Saddle link leaves. -/

namespace Sys2Proof.Machine

/-! ## Updates and events of the Saddle link (R1006) -/

theorem modSdl_touches {ps : List Part} (c : Chip) (f : SdlSt → SdlSt) (hp : Part.sdl ∈ ps) : Touches ps noReg c (modSdl c f) :=
  (Touches.refl ps noReg c).part (.sdl c _) hp

/-- Only the Saddle link's own state changes. -/
theorem onlySdl_of_touches {c t : Chip} (h : Touches [.sdl] noReg c t) (hr : t.regs = c.regs) : onlyParts [.sdl] c t := by
  intro p hp
  by_cases hregs : p = .regs
  · subst hregs
    exact hr
  · exact h.parts p (by simpa [hregs] using hp)

theorem modSdl_onlySdl (c : Chip) (f : SdlSt → SdlSt) : onlyParts [.sdl] c (modSdl c f) :=
  onlySdl_of_touches (modSdl_touches c f (by simp)) rfl

theorem sdlEvent_reports (c : Chip) (bit : Nat) : Reports (setFlag c sdlEvt bit true) (sdlEvent c bit) :=
  (Reports.refl _).postErrorSev _ _ _ _ _

/-- An event leaves the link's state but for the records that wait for the twin. -/
theorem sdlEvent_sdl (c : Chip) (bit : Nat) : (sdlEvent c bit).sdl = { c.sdl with recs := (sdlEvent c bit).sdl.recs } :=
  (sdlEvent_reports c bit).link

theorem sdlEvent_flag (c : Chip) {bit : Nat} (hbit : bit < 32) : flag (sdlEvent c bit) sdlEvt bit = true := by
  have hreg := (sdlEvent_reports c bit).reg (off := sdlEvt) (by decide)
  rw [← flag_setFlag_self c sdlEvt bit true hbit]
  unfold flag fld
  rw [hreg]

theorem sdlEvent_reg (c : Chip) (bit : Nat) {off : Nat} (ho : reportReg off = false) (hne : off ≠ sdlEvt) :
    reg (sdlEvent c bit) off = reg c off :=
  ((sdlEvent_reports c bit).reg ho).trans (reg_setFlag_other c _ _ _ _ hne)

theorem sdlEvt_calm (off : Nat) (ho : regAt sdlEvt off = true) : ringSetup off = false := regAt_calm (by decide) off ho

/-- An event within what a command of the link may change. -/
theorem Within.sdlEvent {ps : List Part} {rs : Nat → Bool} {a b : Chip} (h : Within ps rs a b) (bit : Nat) (ho : rs sdlEvt = true) :
    Within ps rs a (Machine.sdlEvent b bit) :=
  (h.setFlag bit true ho).report (sdlEvent_reports b bit)

/-- The link's own state within what reports may change. -/
theorem Within.modSdl {ps : List Part} {rs : Nat → Bool} {a b : Chip} (h : Within ps rs a b) (f : SdlSt → SdlSt) :
    Within ps rs a (Machine.modSdl b f) :=
  h.trans ⟨h.calm, fun q hq => (PartStep.sdl b _).others q fun e => hq (e ▸ List.mem_append_left _ (by simp [reportParts])),
    fun _ _ => rfl, fun _ _ => rfl⟩

/-! ## Promotion and demotion that do not come (R984 to R986) -/

theorem promote_unready {c : Chip} (h : promoteReady c = false) (same : Bool) : promote c same = c := by
  simp [promote, h]

theorem promote_without_lease {c : Chip} (h : leaseHeld c = false) (same : Bool) : promote c same = c := by
  simp [promote, h]

/-- What a lease changes has no part in the conditions of promotion. -/
theorem promoteReady_congr {c t : Chip} (hmode : reg t 0x100 = reg c 0x100) (hcfg : reg t 0x1C0000 = reg c 0x1C0000)
    (hsdl : t.sdl = { c.sdl with asked := t.sdl.asked, lease := t.sdl.lease, leaseNum := t.sdl.leaseNum, recs := t.sdl.recs }) :
    promoteReady t = promoteReady c := by
  have hrole : t.sdl.role = c.sdl.role := by rw [hsdl]
  have hhot : t.sdl.everHot = c.sdl.everHot := by rw [hsdl]
  have hmet : t.sdl.metActive = c.sdl.metActive := by rw [hsdl]
  have hcontact : t.sdl.contact = c.sdl.contact := by rw [hsdl]
  have hgone : t.sdl.gone = c.sdl.gone := by rw [hsdl]
  have hheard : t.sdl.heard = c.sdl.heard := by rw [hsdl]
  have hpeer : t.sdl.peer = c.sdl.peer := by rw [hsdl]
  unfold promoteReady sdlEligible sdlRole sdlEn peerRole peerEligible sdlUnit nodeMode flag fld
  rw [hmode, hcfg, hrole, hhot, hmet, hcontact, hgone, hheard, hpeer]

theorem sdlRole_congr {c t : Chip} (hmode : reg t 0x100 = reg c 0x100) (hcfg : reg t 0x1C0000 = reg c 0x1C0000)
    (hrole : t.sdl.role = c.sdl.role) : sdlRole t = sdlRole c := by
  unfold sdlRole sdlEn nodeMode flag fld
  rw [hmode, hcfg, hrole]

theorem sdlRole_sdlEvent (c : Chip) (bit : Nat) : sdlRole (sdlEvent c bit) = sdlRole c :=
  sdlRole_congr (sdlEvent_reg _ _ (by decide) (by decide)) (sdlEvent_reg _ _ (by decide) (by decide)) (by rw [sdlEvent_sdl])

theorem demoteCheck_of_kept {c : Chip} (h : sdlRole c ≠ 1 ∨ c.sdl.contact = true) : demoteCheck c = c := by
  refine if_neg fun ⟨hrole, _, hcontact⟩ => ?_
  rcases h with h | h
  · exact h hrole
  · rw [hcontact] at h
    exact Bool.noConfusion h

/-! ## Requests of a unit (R975) -/

/-- A lease frame goes out on a link in use. -/
theorem sendLease_up {c : Chip} (h : sdlUp c = true) (port : Nat) (data : List Byte) :
    sendLease c port data = modSdl c fun s => { s with leaseTx := smPut (fun _ => []) s.leaseTx port data } := if_pos h

/-- The frame that a port sends. -/
theorem leaseTx_self (m : SMap (List Byte)) (port : Nat) (data : List Byte) :
    smGet (fun _ => []) (smPut (fun _ => []) m port data) port = data := smGet_smPut_self _ _ _ _

theorem leaseTx_other (m : SMap (List Byte)) {p q : Nat} (data : List Byte) (h : q ≠ p) :
    smGet (fun _ => []) (smPut (fun _ => []) m p data) q = smGet (fun _ => []) m q := smGet_smPut_other _ _ _ _ _ h

/-- What the request of an active unit leaves. -/
def requestedSdl (c : Chip) : SdlSt :=
  { c.sdl with
    rseq := (c.sdl.rseq + 1) % 2 ^ 32, waitUs := 250
    asked := (c.sdl.asked.filter fun a => decide (c.seq.g < a.2.2 + 40)) ++ [((c.sdl.rseq + 1) % 2 ^ 32, true, c.seq.g)]
    leaseTx := smPut (fun _ => []) c.sdl.leaseTx 0 (leaseFrame 1 (sdlUnit c) 1 ((c.sdl.rseq + 1) % 2 ^ 32) 0 0) }

theorem leaseRequestTimer_active {c : Chip} (hup : sdlUp c = true) (hrole : sdlRole c = 1) :
    leaseRequestTimer c = { c with sdl := requestedSdl c } := by
  have helig : sdlEligible c = false := by simp [sdlEligible, hrole]
  have hup' : ∀ f, sdlUp (modSdl c f) = true := fun _ => hup
  simp only [leaseRequestTimer, hup, hrole, helig, sendLease_up (hup' _)]
  rfl

/-! ## Answers of the arbiter (R978 to R982) -/

/-- The arbiter judges a request. -/
theorem leaseRequested_judged {c : Chip} {port : Nat} {data : List Byte} (hmode : nodeMode c = mArbiter) (hup : sdlUp c = true)
    (hok : leaseOk data 1 = true) (hunit : lfUnit data < 2) : leaseRequested c port data =
      (if !c.sdl.holdoff && c.sdl.holder == some (lfUnit data) then arbGrant c port data
       else if !c.sdl.holdoff && (c.sdl.holder.isNone && !arbGuard c) && natBit (lfFlags data) 0 && natBit (lfFlags data) 1 then
        arbGrant (countFld (modSdl c fun s => { s with leaseNum := (s.leaseNum + 1) % 2 ^ 32 }) 0x1C0024 0 16) port data
       else takeFree (sendLease (countFld c 0x1C0024 16 16) port (leaseFrame 3 (lfUnit data) 0 (lfRseq data) c.sdl.leaseNum
        (if c.sdl.holder.isNone && !arbGuard c && !c.sdl.holdoff then 0 else Config.freeValue c.free % 65536)))) :=
  if_pos ⟨hmode, hup, hok, hunit⟩

theorem countFld_up {c : Chip} (h : sdlUp c = true) (lo : Nat) : sdlUp (countFld c 0x1C0024 lo 16) = true := by
  simp only [sdlUp, sdlEn, flag_countFld_other c _ _ _ _ _ (show 0x1C0000 ≠ 0x1C0024 by decide)]
  exact h

/-- The arbiter after a grant of a lease anew. -/
def granted (c : Chip) (port : Nat) (data : List Byte) : Chip :=
  modSdl (countFld c 0x1C0024 0 16) fun s => { s with
    leaseNum := (s.leaseNum + 1) % 2 ^ 32, holder := some (lfUnit data)
    leaseTx := smPut (fun _ => []) s.leaseTx port (leaseFrame 2 (lfUnit data) 0 (lfRseq data) ((s.leaseNum + 1) % 2 ^ 32) 0) }

/-- The arbiter after a denial. -/
def denied (c : Chip) (port : Nat) (data : List Byte) (wait : Nat) : Chip :=
  takeFree (modSdl (countFld c 0x1C0024 16 16) fun s => { s with
    leaseTx := smPut (fun _ => []) s.leaseTx port (leaseFrame 3 (lfUnit data) 0 (lfRseq data) s.leaseNum wait) })

/-- An eligible request is granted once no lease and no guard stands. -/
theorem leaseRequested_grants {c : Chip} {port : Nat} {data : List Byte} (hmode : nodeMode c = mArbiter) (hup : sdlUp c = true)
    (hok : leaseOk data 1 = true) (hunit : lfUnit data < 2) (helig : natBit (lfFlags data) 0 = true ∧ natBit (lfFlags data) 1 = true)
    (hoff : c.sdl.holdoff = false) (hfree : c.sdl.holder = none) (hguard : arbGuard c = false) :
    leaseRequested c port data = granted c port data := by
  have hup' : ∀ f g, sdlUp (modSdl (countFld (modSdl c f) 0x1C0024 0 16) g) = true := fun f _ => countFld_up (c := modSdl c f) hup 0
  rw [leaseRequested_judged hmode hup hok hunit]
  simp only [hoff, hfree, hguard, helig.1, helig.2, Bool.not_false, Bool.true_and, Option.none_beq_some, Option.isNone_none,
    Bool.and_self, Bool.false_eq_true, if_false, if_true]
  rw [arbGrant, sendLease_up (hup' _ _)]
  rfl

/-- A request of a unit other than the lease's holder is denied. -/
theorem leaseRequested_denies {c : Chip} {port u : Nat} {data : List Byte} (hmode : nodeMode c = mArbiter) (hup : sdlUp c = true)
    (hok : leaseOk data 1 = true) (hunit : lfUnit data < 2) (hheld : c.sdl.holder = some u) (hother : u ≠ lfUnit data) :
    leaseRequested c port data = denied c port data (Config.freeValue c.free % 65536) := by
  have hup' : sdlUp (countFld c 0x1C0024 16 16) = true := countFld_up hup 16
  rw [leaseRequested_judged hmode hup hok hunit]
  simp only [hheld, beq_eq_false_iff_ne.2 (show some u ≠ some (lfUnit data) from fun h => hother (Option.some.inj h)), Bool.and_false,
    Bool.false_eq_true, if_false, Option.isNone_some, Bool.false_and, sendLease_up hup']
  rfl

theorem granted_touches {ps : List Part} (c : Chip) (port : Nat) (data : List Byte) (hp : Part.sdl ∈ ps) :
    Touches ps (regAt 0x1C0024) c (granted c port data) :=
  ((Touches.refl ps _ c).countFld 0 16 rfl).part (.sdl _ _) hp

theorem denied_touches (c : Chip) (port : Nat) (data : List Byte) (wait : Nat) :
    Touches [.sdl, .free] (regAt 0x1C0024) c (denied c port data wait) :=
  (((Touches.refl _ _ c).countFld 16 16 rfl).part (.sdl _ _) (by simp)).part (.free _ _) (by simp)

theorem granted_leaseTx (c : Chip) (port : Nat) (data : List Byte) : (granted c port data).sdl.leaseTx
    = smPut (fun _ => []) c.sdl.leaseTx port (leaseFrame 2 (lfUnit data) 0 (lfRseq data) (granted c port data).sdl.leaseNum 0) := rfl

theorem denied_leaseTx (c : Chip) (port : Nat) (data : List Byte) (wait : Nat) : (denied c port data wait).sdl.leaseTx
    = smPut (fun _ => []) c.sdl.leaseTx port (leaseFrame 3 (lfUnit data) 0 (lfRseq data) (denied c port data wait).sdl.leaseNum wait) := rfl

theorem requestedSdl_leaseTx (c : Chip) : (requestedSdl c).leaseTx
    = smPut (fun _ => []) c.sdl.leaseTx 0 (leaseFrame 1 (sdlUnit c) 1 (requestedSdl c).rseq 0 0) := rfl

theorem leaseRequests_port (c : Chip) (p : Fin 2) (data : List Byte) : leaseRequests c (.port p) data = leaseRequested c p.val data := rfl

/-- The unit's own fields of the arbiter's counters. -/
theorem granted_count (c : Chip) (port : Nat) (data : List Byte) :
    fld (granted c port data) 0x1C0024 0 16 = satInc 16 (fld c 0x1C0024 0 16) := fld_countFld_self c _ _ _ (by decide)

theorem granted_denials (c : Chip) (port : Nat) (data : List Byte) :
    fld (granted c port data) 0x1C0024 16 16 = fld c 0x1C0024 16 16 := fld_countFld_field c _ _ _ _ _ (by decide) (by decide)

theorem denied_count (c : Chip) (port : Nat) (data : List Byte) (wait : Nat) :
    fld (denied c port data wait) 0x1C0024 16 16 = satInc 16 (fld c 0x1C0024 16 16) := fld_countFld_self c _ _ _ (by decide)

theorem denied_grants (c : Chip) (port : Nat) (data : List Byte) (wait : Nat) :
    fld (denied c port data wait) 0x1C0024 0 16 = fld c 0x1C0024 0 16 := fld_countFld_field c _ _ _ _ _ (by decide) (by decide)

/-- Of two requests the first is granted, and the other, of the other unit, is denied. -/
theorem leaseRequested_both {c : Chip} {p q : Nat} {a b : List Byte} (hmode : nodeMode c = mArbiter) (hup : sdlUp c = true)
    (hok : leaseOk a 1 = true ∧ leaseOk b 1 = true) (hunit : lfUnit a = 0 ∧ lfUnit b = 1)
    (helig : natBit (lfFlags a) 0 = true ∧ natBit (lfFlags a) 1 = true) (hoff : c.sdl.holdoff = false) (hfree : c.sdl.holder = none)
    (hguard : arbGuard c = false) :
    leaseRequested (leaseRequested c p a) q b = denied (granted c p a) q b (Config.freeValue c.free % 65536) := by
  rw [leaseRequested_grants hmode hup hok.1 (by omega) helig hoff hfree hguard]
  have hmode' : nodeMode (granted c p a) = mArbiter := by
    rw [← hmode]
    exact fld_setReg_other c _ _ _ _ _ (by decide)
  exact leaseRequested_denies (u := lfUnit a) hmode' (countFld_up hup 0) hok.2 (by omega) rfl (by omega)

/-- What the answers to two requests of one cycle leave. -/
theorem bothAnswered {c : Chip} {p q : Nat} {a b : List Byte} (hmode : nodeMode c = mArbiter) (hup : sdlUp c = true)
    (hok : leaseOk a 1 = true ∧ leaseOk b 1 = true) (hunit : lfUnit a = 0 ∧ lfUnit b = 1)
    (helig : natBit (lfFlags a) 0 = true ∧ natBit (lfFlags a) 1 = true) (hoff : c.sdl.holdoff = false) (hfree : c.sdl.holder = none)
    (hguard : arbGuard c = false) (hports : p ≠ q) {t : Chip} (ht : t = leaseRequested (leaseRequested c p a) q b) :
    t.sdl.holder = some 0 ∧ t.sdl.leaseNum = (c.sdl.leaseNum + 1) % 2 ^ 32
      ∧ smGet (fun _ => []) t.sdl.leaseTx p = leaseFrame 2 0 0 (lfRseq a) t.sdl.leaseNum 0
      ∧ (∃ wait, smGet (fun _ => []) t.sdl.leaseTx q = leaseFrame 3 1 0 (lfRseq b) t.sdl.leaseNum wait)
      ∧ fld t 0x1C0024 0 16 = satInc 16 (fld c 0x1C0024 0 16) ∧ fld t 0x1C0024 16 16 = satInc 16 (fld c 0x1C0024 16 16)
      ∧ Touches [.sdl, .free] (regAt 0x1C0024) c t := by
  rw [leaseRequested_both hmode hup hok hunit helig hoff hfree hguard] at ht
  subst ht
  refine ⟨by rw [← hunit.1]; rfl, rfl, ?_, ⟨Config.freeValue c.free % 65536, ?_⟩, ?_, ?_, ?_⟩
  · rw [denied_leaseTx, leaseTx_other _ _ hports, granted_leaseTx, leaseTx_self, hunit.1]
    rfl
  · rw [denied_leaseTx, leaseTx_self, hunit.2]
  · rw [denied_grants, granted_count]
  · rw [denied_count, granted_denials]
  · exact (granted_touches c p a (by simp)).trans (denied_touches _ _ _ _)

/-! ## Answers at the unit (R976, R977) -/

theorem askedOf_dropAsked (c : Chip) (data : List Byte) : askedOf (dropAsked c data) data = none := by
  simp [askedOf, dropAsked, modSdl, List.find?_eq_none]

/-- The unit with the lease of an answer. -/
def leased (c : Chip) (data : List Byte) (g : Nat) : Chip :=
  modSdl (dropAsked c data) fun s => { s with lease := some (lfLease data, g), leaseNum := lfLease data }

/-- The event of a new lease (R1006). -/
def leaseNoted (c : Chip) (data : List Byte) (g : Nat) : Chip :=
  if lfLease data ≠ c.sdl.leaseNum then sdlEvent (leased c data g) 3 else leased c data g

theorem leaseNoted_sdl (c : Chip) (data : List Byte) (g : Nat) :
    (leaseNoted c data g).sdl = { (leased c data g).sdl with recs := (leaseNoted c data g).sdl.recs } := by
  unfold leaseNoted
  split
  · exact sdlEvent_sdl _ _
  · rfl

theorem leaseNoted_reg (c : Chip) (data : List Byte) (g : Nat) {off : Nat} (ho : reportReg off = false) (hne : off ≠ sdlEvt) :
    reg (leaseNoted c data g) off = reg c off := by
  unfold leaseNoted
  split
  · exact sdlEvent_reg _ _ ho hne
  · rfl

theorem leaseNoted_changes (c : Chip) (data : List Byte) (g : Nat) : Changes [] (regAt sdlEvt) c (leaseNoted c data g) := by
  have hleased : Within [] (regAt sdlEvt) c (leased c data g) := ((Within.refl [] sdlEvt_calm c).modSdl _).modSdl _
  exact (hleased.sdlEvent 3 rfl |>.ite hleased).changes

/-- A GRANT that answers a request in time, at a unit that it does not promote. -/
theorem leaseGranted_eq {c : Chip} {data : List Byte} {a : Nat × Bool × Nat} (hup : sdlUp c = true) (hok : leaseOk data 2 = true)
    (hasked : askedOf c data = some a) (htime : c.seq.g < a.2.2 + 40) (hnot : promoteReady c = false) :
    leaseGranted c data = leaseNoted c data a.2.2 := by
  have hready : promoteReady (leaseNoted c data a.2.2) = false := by
    rw [promoteReady_congr (c := c) (leaseNoted_reg c _ _ (by decide) (by decide)) (leaseNoted_reg c _ _ (by decide) (by decide)), hnot]
    rw [leaseNoted_sdl]
    rfl
  rw [← promote_unready hready false]
  simp only [leaseGranted, hup, hok, Bool.and_self, if_true, hasked, if_neg (show ¬ a.2.2 + 40 ≤ c.seq.g by omega)]
  rfl

/-- Settles O58: the request of an active unit, the arbiter's answers, and the answers and the end of a lease at the unit. -/
theorem leaseCommandsComplete : Obligations.LeaseCommandsComplete := by
  refine ⟨fun s hup hrole => ?_, fun s port data hmode hup hok hunit helig hoff hfree hguard => ?_,
    fun s port data u hmode hup hok hunit hheld hother => ?_,
    fun s data other a b hmode hup hok hunits helig hoff hfree hguard hab => ?_,
    fun s data a hup hok hasked htime hnot => ?_, fun s data a hup hok hasked => ?_,
    fun s port data hmode hup hok hheld => ?_, fun s l hlease hkept => ?_, fun s u hmode hheld => ?_, fun s hmode => ?_⟩ <;>
    refine ⟨_, rfl, rfl, ?_⟩ <;> dsimp only
  · rw [leaseRequestTimer_active hup hrole]
    exact ⟨rfl, by simp [requestedSdl], by rw [requestedSdl_leaseTx, leaseTx_self], onlySdl_of_touches (modSdl_touches s.chip (fun _ => _) (by simp)) rfl⟩
  · rw [leaseRequests_port, leaseRequested_grants hmode hup hok hunit helig hoff hfree hguard]
    exact ⟨rfl, rfl, by rw [granted_leaseTx, leaseTx_self], granted_count _ _ _, granted_touches _ _ _ (by simp)⟩
  · rw [leaseRequests_port, leaseRequested_denies hmode hup hok hunit hheld hother]
    exact ⟨hheld, rfl, ⟨_, by rw [denied_leaseTx, leaseTx_self]⟩, denied_count _ _ _ _, denied_touches _ _ _ _⟩
  · rcases hunits with ⟨hdata, hother⟩ | ⟨hdata, hother⟩
    · obtain ⟨rfl, rfl⟩ : a = data ∧ b = other := by simpa [hdata] using hab
      refine bothAnswered hmode hup hok ⟨hdata, hother⟩ (helig a (by simp)) hoff hfree hguard ?_ ?_
      · simp [hdata]
      · simp [leaseRequests, hdata]
    · obtain ⟨rfl, rfl⟩ : a = other ∧ b = data := by simpa [hdata] using hab
      refine bothAnswered hmode hup hok.symm ⟨hother, hdata⟩ (helig a (by simp)) hoff hfree hguard ?_ ?_
      · simp [hdata]
      · simp [leaseRequests, hdata]
  · rw [leaseGranted_eq hup hok hasked htime hnot]
    refine ⟨by rw [leaseNoted_sdl]; rfl, by rw [leaseNoted_sdl]; rfl, ?_, fun hnew => ?_, leaseNoted_changes _ _ _⟩
    · rw [askedOf, leaseNoted_sdl]
      exact askedOf_dropAsked s.chip data
    · rw [leaseNoted, if_pos hnew]
      exact sdlEvent_flag _ (by decide)
  · obtain ⟨x, take, g⟩ := a
    simp only [leaseDenied, hup, hok, Bool.and_self, if_true, hasked]
    exact ⟨rfl, askedOf_dropAsked s.chip data, rfl, onlySdl_of_touches (((Touches.refl _ _ s.chip).part (.sdl _ _) (by simp)).part
      (.sdl _ _) (by simp)) rfl⟩
  · rw [leaseReleased, if_pos ⟨hmode, hup, hok, hheld⟩]
    exact ⟨rfl, modSdl_onlySdl _ _⟩
  · have hlost : leaseExpiry s.chip = sdlEvent (modSdl s.chip fun x => { x with lease := none }) 2 := by
      rw [leaseExpiry, hlease]
      refine demoteCheck_of_kept (hkept.imp (fun h => ?_) fun h => ?_)
      · rw [sdlRole_sdlEvent]
        exact h
      · rw [sdlEvent_sdl]
        exact h
    rw [hlost]
    exact ⟨by rw [sdlEvent_sdl]; rfl, sdlEvent_flag _ (by decide),
      (((Within.refl [] sdlEvt_calm s.chip).modSdl _).sdlEvent 2 rfl).changes⟩
  · rw [arbiterLeaseEnd, if_pos ⟨hmode, by rw [hheld]; rfl⟩]
    exact ⟨rfl, modSdl_onlySdl _ _⟩
  · rw [arbiterHoldoffEnd, if_pos hmode]
    exact ⟨rfl, modSdl_onlySdl _ _⟩

end Sys2Proof.Machine
end

section
-- One proof at a time: every thread takes a stack of its own from the memory that a compile has.
set_option Elab.async false
/-! SUPPORT. The DMA engine's own state, and the waveform ports (R883, R889, R913 to R915). -/

namespace Sys2Proof.Machine

/-! ## Updates of the DMA engine -/

theorem dmaSt_touches {ps : List Part} {rs : Nat → Bool} {a b : Chip} (h : Touches ps rs a b) (x : DmaSt) (hp : Part.dma ∈ ps) :
    Touches ps rs a { b with dma := x } := h.part (.dma b x) hp

theorem Touches.modDp {ps : List Part} {rs : Nat → Bool} {a b : Chip} (h : Touches ps rs a b) (n : Nat) (f : DpSt → DpSt)
    (hp : Part.dma ∈ ps) : Touches ps rs a (Machine.modDp b n f) := dmaSt_touches h _ hp

theorem Touches.haltDp {ps : List Part} {rs : Nat → Bool} {a b : Chip} (h : Touches ps rs a b) {n : Nat} (reason : Nat)
    (hp : Part.dma ∈ ps) (hr : rs (dpStat n) = true) : Touches ps rs a (Machine.haltDp b n reason) :=
  ((h.setFld 0 2 3 hr).setFld 4 4 reason hr).modDp n _ hp

theorem chargeBurst_touches {ps : List Part} (c : Chip) (n k : Nat) (hp : Part.dma ∈ ps) :
    Touches ps noReg c (chargeBurst c n k) := by
  unfold chargeBurst
  split
  · exact (Touches.refl ps noReg c).modDp _ _ hp
  · exact (Touches.refl ps noReg c).modDl _ _ hp

@[simp] theorem dpSt_modDp_self (c : Chip) (n : Nat) (f : DpSt → DpSt) : dpSt (modDp c n f) n = f (dpSt c n) := smGet_smMod_self _ _ _ _

@[simp] theorem dlSt_modDl_self (c : Chip) (n : Nat) (f : DlSt → DlSt) : dlSt (modDl c n f) n = f (dlSt c n) := smGet_smMod_self _ _ _ _

/-- STATE and CODE of a channel that halts. -/
theorem haltDp_state (c : Chip) (n reason : Nat) : fld (haltDp c n reason) (dpStat n) 0 2 = 3 :=
  (fld_setFld_field (setFld c (dpStat n) 0 2 3) _ _ _ _ _ _ (by decide) (by decide)).trans (fld_setFld_self c _ _ _ _ (by decide))

theorem haltDp_code (c : Chip) {n reason : Nat} (h : reason < 16) : fld (haltDp c n reason) (dpStat n) 4 4 = reason :=
  (fld_setFld_self (setFld c (dpStat n) 0 2 3) _ _ _ _ (by decide)).trans (Nat.mod_eq_of_lt h)

/-! ## Request bits -/

theorem natBit_setNatBits (v b x : Nat) : natBit (setNatBits v b 1 x) b = (x % 2 == 1) := by
  have hpos : 0 < 2 ^ b := Nat.two_pow_pos b
  have hsplit := Nat.div_add_mod v (2 ^ b)
  have hrest := Nat.mod_lt v hpos
  rw [natBit, setNatBits, natBits, Nat.pow_one]
  generalize v / 2 ^ b = q at *
  generalize v % 2 ^ b = r at *
  have hv : v - q % 2 * 2 ^ b + x % 2 * 2 ^ b = r + (q - q % 2 + x % 2) * 2 ^ b := by
    have hq : q % 2 ≤ q := Nat.mod_le q 2
    have hmul : (q - q % 2) * 2 ^ b + q % 2 * 2 ^ b = q * 2 ^ b := by rw [← Nat.add_mul, Nat.sub_add_cancel hq]
    rw [Nat.add_mul, ← hsplit, Nat.mul_comm (2 ^ b) q]
    omega
  rw [hv, Nat.add_mul_div_right _ _ hpos, Nat.div_eq_of_lt hrest]
  congr 1
  omega

theorem natBit_setReq (c : Chip) (b : Nat) (on : Bool) : natBit (setReq c b on).dma.req b = on := by
  refine (natBit_setNatBits _ _ _).trans ?_
  cases on <;> rfl

/-! ## Sets of a port (R835, R861, R913) -/

/-- The registers of Basin's owner pages. -/
def ownerPages : Nat → Bool := regIn 0x190200 0x190400

theorem ownerPages_lost (o : Nat) : ownerPages (ownerPage (pageOf o) + 4) = true := by
  have hpage : pageOf o ≤ 8 := by
    unfold pageOf
    split <;> omega
  rw [ownerPages, regIn_iff, ownerPage]
  omega

theorem ownerPages_calm (off : Nat) (ho : ownerPages off = true) : ringSetup off = false := by
  rw [ownerPages, regIn_iff] at ho
  simp only [ringSetup, regIn, Bool.and_eq_false_iff, decide_eq_false_iff_not]
  exact .inl (.inr (by omega))

theorem loseSet_touches (c : Chip) (s : Nat) (w : WSet) : Touches [.bsn] ownerPages c (loseSet c s w) :=
  ((Touches.refl _ _ c).setReg _ (ownerPages_lost w.owner)).part (.bsn _ _) (by simp)

theorem modLog_touches (c : Chip) (l : Nat) (f : BLog → BLog) : Touches [.bsn] ownerPages c (modLog c l f) :=
  (Touches.refl _ _ c).part (.bsn _ _) (by simp)

theorem portSet_touches (c : Chip) (s : Nat) (w : WSet) : Touches [.bsn] ownerPages c (portSet c s w) := by
  rw [portSet, stageSet]
  exact .ite (.ite (modLog_touches _ _ _) (loseSet_touches _ _ _)) (modLog_touches _ _ _)

theorem portFifo_congr {c t : Chip} (h : t.dma = c.dma) (b : Nat) : portFifo t b = portFifo c b := by rw [portFifo, h, portFifo]

/-- How many sets a burst of a port takes. -/
def burstTakes (c : Chip) (b : Nat) : Nat := max 1 (burstSets 512 (portFifo c b))

theorem takeBurst_fifo (c : Chip) (b : Nat) : portFifo (takeBurst c b).1 b = (portFifo c b).drop (burstTakes c b) := by
  rw [takeBurst, portFifo, setPort, smGet_smPut_self, burstTakes]

theorem takeBurst_touches (c : Chip) (b : Nat) : Touches [.dma] noReg c (takeBurst c b).1 :=
  dmaSt_touches (chargeBurst_touches c _ _ (by simp)) _ (by simp)

theorem takeBurst_req (c : Chip) (b : Nat) : (takeBurst c b).1.dma.req = c.dma.req := rfl

theorem setReq_touches (c : Chip) (b : Nat) (on : Bool) : Touches [.dma] noReg c (setReq c b on) :=
  dmaSt_touches (Touches.refl _ _ c) _ (by simp)

/-- Of what a port's burst may touch. -/
theorem Touches.port {a b : Chip} {ps : List Part} {rs : Nat → Bool} (h : Touches ps rs a b)
    (hp : ps ⊆ [.dma, .bsn]) (hr : ∀ off, rs off = true → ownerPages off = true) : Touches [.dma, .bsn] ownerPages a b := h.mono hp hr

/-! ## Bursts of DP0 (R883, R889) -/

theorem dmaCycles_touches {ps : List Part} {rs : Nat → Bool} (c : Chip) (n : Nat) : Touches (.dma :: ps) rs c (dmaCycles c n) :=
  dmaSt_touches (Touches.refl _ _ c) _ (by simp)

/-- A burst of the lowest requesting port: its sets leave the FIFO, and nothing but the engine and Basin's logs changes. -/
theorem dp0Burst_takes {c : Chip} {b : Nat} (hstate : dpState c 0 = 1)
    (hport : ((List.range 8).find? fun k => natBit c.dma.req k) = some b) :
    portFifo (dp0Burst c) b = (portFifo c b).drop (burstTakes c b) ∧ Touches [.dma, .bsn] ownerPages c (dp0Burst c) := by
  rw [dp0Burst, if_neg (by simp [hstate]), hport]
  dsimp only
  generalize hmid : (if (portFifo (takeBurst c b).1 b).isEmpty = true then setReq (takeBurst c b).1 b false else (takeBurst c b).1) = mid
  have htake := takeBurst_touches c b
  have hmidTouch : Touches [.dma, .bsn] ownerPages c mid := by
    rw [← hmid]
    exact (htake.port (by simp) (by simp [noReg])).trans
      (.ite ((setReq_touches _ _ _).port (by simp) (by simp [noReg])) (.refl _ _ _))
  have hmidFifo : portFifo mid b = portFifo (takeBurst c b).1 b := by
    rw [← hmid]
    split <;> rfl
  have hsets := Touches.foldl (ps := [.bsn]) (rs := ownerPages) (fun c (e : Nat × WSet) => portSet c e.1 e.2) (takeBurst c b).2
    (fun c e _ => portSet_touches c e.1 e.2) mid
  refine ⟨?_, hmidTouch.trans (hsets.port (by simp) fun _ h => h)⟩
  rw [portFifo_congr (hsets.same .dma (by simp) (by simp)), hmidFifo, takeBurst_fifo]

/-! ## Requests and withdrawals (R889, R913 to R915) -/

theorem dpStat_startDp0 (c : Chip) : fld (startDp0 c) (dpStat 0) 0 2 = 0 := fld_setFld_self c _ _ _ _ (by decide)

theorem bsnState_startDp0 (c : Chip) : bsnState (startDp0 c) = bsnState c := fld_setFld_other c _ _ _ _ _ _ _ (by decide)

/-- A started DP0 runs while Basin serves. -/
theorem dpRuns_startDp0 {c : Chip} (hserves : bsnServes c = true) (hon : dmaOn c = true) : dpRuns (startDp0 c) 0 = true := by
  have hserves' : bsnServes (startDp0 c) = true := by rwa [bsnServes, bsnState_startDp0]
  have hon' : dmaOn (startDp0 c) = true := hon
  rw [dpRuns, dpState, if_pos ⟨rfl, by simp [dpStat_startDp0]⟩, hserves', hon', if_pos (show (true && true) = true from rfl)]
  split <;> rfl

/-- DP0 runs only while Basin serves. -/
theorem bsnServes_of_dpRuns {c : Chip} (h : dpRuns c 0 = true) : bsnServes c = true := by
  by_contra hnot
  have hnot' : bsnServes c = false := by simpa using hnot
  rw [dpRuns, dpState] at h
  by_cases hhalted : fld c (dpStat 0) 0 2 = 3
  · simp [hhalted] at h
  · simp [hhalted, hnot'] at h

theorem portEnabled_touches (c : Chip) (b : Nat) : Touches [.dma] (regAt (dpStat 0)) c (portEnabled c b) :=
  .ite (dmaSt_touches ((Touches.refl _ _ c).setFld 0 2 0 rfl) _ (by simp)) (.refl _ _ c)

/-- The port that asks finds DP0 running. -/
theorem dpRuns_portEnabled {c : Chip} {b : Nat} (hon : dmaOn c = true)
    (h : dpRuns c 0 = true ∨ (c.dma.drained = some b ∧ bsnServes c = true)) : dpRuns (portEnabled c b) 0 = true := by
  have hserves : bsnServes c = true := h.elim bsnServes_of_dpRuns And.right
  unfold portEnabled
  split
  · exact dpRuns_startDp0 hserves hon
  · rename_i hdrained
    exact h.resolve_right fun hd => hdrained hd.1

/-- A withdrawal during a burst: the sets of the burst leave the FIFO and are lost. -/
theorem portWithdraw_lost (c : Chip) (b : Nat) {c3 : Chip}
    (h3 : c3 = (takeBurst (setReq c b false) b).2.foldl (fun c e => loseSet c e.1 e.2) (takeBurst (setReq c b false) b).1) :
    portFifo c3 b = (portFifo c b).drop (burstTakes c b) ∧ natBit c3.dma.req b = false ∧ Touches [.dma, .bsn] ownerPages c c3 := by
  have hlost := Touches.foldl (ps := [.bsn]) (rs := ownerPages) (fun c (e : Nat × WSet) => loseSet c e.1 e.2)
    (takeBurst (setReq c b false) b).2 (fun c e _ => loseSet_touches c e.1 e.2) (takeBurst (setReq c b false) b).1
  rw [← h3] at hlost
  have hdma : c3.dma = (takeBurst (setReq c b false) b).1.dma := hlost.same .dma (by simp) (by simp)
  refine ⟨?_, ?_, ?_⟩
  · rw [portFifo_congr hdma, takeBurst_fifo]
    rfl
  · rw [hdma, takeBurst_req, natBit_setReq]
  · exact (((setReq_touches c b false).trans (takeBurst_touches _ _)).port (by simp) (by simp [noReg])).trans
      (hlost.port (by simp) fun _ h => h)

/-- Of the registers that a withdrawal may write. -/
def withdrawReg (off : Nat) : Bool := off == dpStat 0 || regIn 0x190200 0x190400 off

theorem withdrawReg_calm (off : Nat) (ho : withdrawReg off = true) : ringSetup off = false := by
  rcases Bool.or_eq_true _ _ ▸ ho with h | h
  · exact regAt_calm (x := dpStat 0) (by decide) off h
  · exact ownerPages_calm off h

/-- DP0 halts with reason 9 as the burst is lost. -/
theorem portWithdraw_halts {c : Chip} {b : Nat} (hreq : natBit c.dma.req b = true) (hstate : dpState c 0 = 1) {t : Chip}
    (ht : t = portWithdraw c b true) :
    natBit t.dma.req b = false ∧ portFifo t b = (portFifo c b).drop (burstTakes c b) ∧ t.dma.drained = some b
      ∧ fld t (dpStat 0) 0 2 = 3 ∧ fld t (dpStat 0) 4 4 = 9 ∧ Changes [.dma, .bsn] withdrawReg c t := by
  rw [portWithdraw, if_neg (by simp [hreq]), if_neg (by simp [hstate])] at ht
  dsimp only at ht
  generalize h3 : (takeBurst (setReq c b false) b).2.foldl (fun c e => loseSet c e.1 e.2) (takeBurst (setReq c b false) b).1 = c3 at ht
  obtain ⟨hfifo, hbit, htouch⟩ := portWithdraw_lost c b h3.symm
  generalize hposted : postError (setFlag c3 (dpStat 0) 19 true) 0x6C (srcDma 0) 0 = c4 at ht
  have hrep : Reports (setFlag c3 (dpStat 0) 19 true) c4 := hposted ▸ (Reports.refl _).postError _ _ _
  have hkept : samePart (setFlag c3 (dpStat 0) 19 true) c4 .dma := hrep.same .dma (by decide)
  have hdma : c4.dma = c3.dma := Eq.trans hkept (setFlag_dma _ _ _ _)
  have hwithin : Within [.dma, .bsn] withdrawReg c c4 := by
    have hbase := (Within.refl [.dma, .bsn] withdrawReg_calm c).touch
      (htouch.mono (List.Subset.refl _) fun off (ho : regIn 0x190200 0x190400 off = true) => by simp [withdrawReg, ho]) (by simp)
    exact (hbase.setFlag 19 true (by simp [withdrawReg])).report hrep
  subst ht
  refine ⟨?_, ?_, rfl, haltDp_state c4 0 9, haltDp_code (n := 0) (reason := 9) c4 (by decide), ?_⟩
  · exact (congrArg (fun d => natBit d.req b) hdma).trans hbit
  · exact (portFifo_congr (c := c4) rfl b).trans ((portFifo_congr hdma b).trans hfifo)
  · exact ((((hwithin.setFld 0 2 3 (by simp [withdrawReg])).setFld 4 4 9 (by simp [withdrawReg])).part (.dma _ _) (by simp) (by decide)).part
      (.dma _ _) (by simp) (by decide)).changes

/-- Settles O53: what a request finds, what a burst takes, and what a withdrawal loses. -/
theorem waveformPortsComplete : Obligations.WaveformPortsComplete := by
  refine ⟨fun s b hbank hon hruns => ?_, fun s b hidle hdrained => ?_, fun s b limit cycles hon hcredit hstate hport => ?_,
    fun s b hreq => ?_, fun s b hreq hstate => ?_⟩ <;> refine ⟨_, rfl, rfl, ?_⟩ <;> dsimp only
  · rw [portRequest, if_neg (by simp [hbank, hon]), if_pos (dpRuns_portEnabled hon hruns)]
    exact ⟨natBit_setReq _ _ _, dmaSt_touches (portEnabled_touches _ _) _ (by simp)⟩
  · have hnot : portEnabled s.chip b.val = s.chip := if_neg hdrained
    rw [portRequest, hnot]
    simp [hidle]
  · have hburst := dp0Burst_takes (c := dmaCycles s.chip cycles) hstate hport
    have hserve : dmaBurst s.chip (0 : Fin 16).val limit.val cycles = dp0Burst (dmaCycles s.chip cycles) := by
      rw [dmaBurst, if_neg (by simp [hon]), if_pos (by decide), dpServe, if_neg (by simpa using hcredit), if_pos (show (0 : Fin 16).val = 0 from rfl)]
    rw [hserve]
    exact ⟨hburst.1, (dmaCycles_touches s.chip cycles).trans hburst.2⟩
  · rw [portWithdraw, if_neg (by simp [hreq]), if_pos (by simp)]
    exact ⟨natBit_setReq _ _ _, setReq_touches _ _ _⟩
  · exact portWithdraw_halts hreq hstate rfl

end Sys2Proof.Machine
end

section
-- One proof at a time: every thread takes a stack of its own from the memory that a compile has.
set_option Elab.async false
/-! SUPPORT. The program channels of the DMA engine (R869 to R895): instructions, bursts, the writes of GO and STOP. -/

namespace Sys2Proof.Machine

/-! ## Instructions and the program counter (R885 to R887) -/

/-- The instruction at an index depends on the window, the program memory and the channel's continued addresses. -/
theorem instrAt_congr {c t : Chip} {n : Nat} (hreg : ∀ off, off = dpBase n + 4 ∨ 0x1A8000 ≤ off → reg t off = reg c off)
    (hsrc : (dpSt t n).rsrc = (dpSt c n).rsrc) (hdst : (dpSt t n).rdst = (dpSt c n).rdst) (i : Nat) : instrAt t n i = instrAt c n i := by
  have hprog : reg t (dpBase n + 4) = reg c (dpBase n + 4) := hreg _ (.inl rfl)
  have hbytes : instrBytes t i = instrBytes c i := by
    refine List.map_congr_left fun k _ => ?_
    rw [hreg _ (.inr (by omega))]
  have hends : ∀ a b x y, moveEnds t n a b x y = moveEnds c n a b x y := fun a b x y => by
    rw [moveEnds, moveEnds, hsrc, hdst]
  unfold instrAt fld
  simp only [hprog, hbytes, hends]

/-- The status registers of the program channels. -/
def dpStats (off : Nat) : Bool := regIn 0x1A0100 0x1A0200 off && off % 0x20 == 0xC

theorem dpStats_iff (off : Nat) : dpStats off = true ↔ (0x1A0100 ≤ off ∧ off < 0x1A0200) ∧ off % 0x20 = 0xC := by
  rw [dpStats, Bool.and_eq_true_iff, regIn_iff, beq_iff_eq]

theorem dpStats_dpStat {k : Nat} (h : k < 8) : dpStats (dpStat k) = true := by
  rw [dpStats_iff, dpStat, dpBase]
  omega

theorem dpStats_pages (off : Nat) (h : dpStats off = true) : regIn 0x1A0100 0x1A0200 off = true := (Bool.and_eq_true_iff.1 h).1

/-- The registers of a channel's page but its status are none of those. -/
theorem dpStats_page {n k : Nat} (hk : k < 0x20) (hne : k ≠ 0xC) : dpStats (dpBase n + k) = false := by
  rw [← Bool.not_eq_true, dpStats_iff, dpBase]
  omega

theorem instr_ne_dpStat {n off : Nat} (hn : n < 8) (h : off = dpBase n + 4 ∨ 0x1A8000 ≤ off) : off ≠ dpStat n := by
  rw [dpStat]
  rcases h with h | h <;> rw [dpBase] at * <;> omega

/-- The instruction that a status register says nothing of. -/
theorem instrAt_setFld {c : Chip} {n : Nat} (hn : n < 8) (lo w x i : Nat) : instrAt (setFld c (dpStat n) lo w x) n i = instrAt c n i :=
  instrAt_congr (fun _ h => reg_setFld_other c _ _ _ _ _ (instr_ne_dpStat hn h)) rfl rfl i

theorem dpReach_touches {ps : List Part} {rs : Nat → Bool} (c : Chip) (n i : Nat) (hp : Part.dma ∈ ps) (hr : rs (dpStat n) = true) :
    Touches ps rs c (dpReach c n i) := by
  unfold dpReach
  dsimp only
  split
  · exact ((Touches.refl ps rs c).setFld _ _ _ hr).setFld _ _ _ hr
  · exact ((Touches.refl ps rs c).setFld _ _ _ hr).haltDp _ hp hr

/-- A channel that reaches an instruction stands at it, running or halted. -/
theorem dpReach_pc {c : Chip} {n i : Nat} (hi : i < 2048) : dpPc (dpReach c n i) n = i := by
  have hpc : fld (setFld c (dpStat n) 8 11 i) (dpStat n) 8 11 = i :=
    (fld_setFld_self c _ _ _ _ (by decide)).trans (Nat.mod_eq_of_lt hi)
  unfold dpPc dpReach
  dsimp only
  split
  · rw [fld_setFld_field _ _ _ _ _ _ _ (by decide) (by decide), hpc]
  · refine Eq.trans (b := fld (setFld (setFld (setFld c (dpStat n) 8 11 i) (dpStat n) 0 2 3) (dpStat n) 4 4 5) (dpStat n) 8 11) rfl ?_
    rw [fld_setFld_field _ _ _ _ _ _ _ (by decide) (by decide), fld_setFld_field _ _ _ _ _ _ _ (by decide) (by decide), hpc]

/-- With an instruction there the channel runs. -/
theorem dpReach_running {c : Chip} {n i : Nat} (hn : n < 8) (h : (instrAt c n i).isSome = true) :
    dpReach c n i = setFld (setFld c (dpStat n) 8 11 i) (dpStat n) 0 2 1 := by
  obtain ⟨ins, hins⟩ := Option.isSome_iff_exists.1 h
  unfold dpReach
  simp only [instrAt_setFld hn, hins]

/-- What a channel holds besides its transfer and its pulse stands. -/
theorem dpReach_dpSt (c : Chip) (n i : Nat) : ∃ x p, dpSt (dpReach c n i) n = { dpSt c n with xfer := x, pulse := p } := by
  unfold dpReach
  dsimp only
  split
  · exact ⟨_, _, rfl⟩
  · exact ⟨none, false, dpSt_modDp_self _ _ _⟩

/-! ## GO and STOP (R886, R912) -/

def dpCtlRow : RegDesc := regN "DMA_DPn_CTL" 0x1A0108 8 0x20 [fd 0 1 .rwk 0, fd 1 1 .rwk 0]

theorem findReg_dpCtl (n : Fin 8) : findReg (dpBase n.val + 8) = some dpCtlRow := by
  revert n
  decide +kernel

theorem dpBad_ctl (c : Chip) (w : WriteCtx) (n : Fin 8) : dpBad c w (dpBase n.val + 8) = (n.val == 0) := by
  have hn := n.isLt
  have hoff : dpOf (dpBase n.val + 8) = n.val ∧ (dpBase n.val + 8) % 0x20 = 8 := by
    simp only [dpOf, dpBase]
    omega
  rw [dpBad, if_neg (by simp only [dpBase]; omega), if_pos (by simp only [dpBase]; omega), hoff.1, hoff.2]
  rfl

/-- A write of DMA_DPn_CTL by the keeper reaches the channel. -/
theorem dpWrite_eq {c : Chip} {n : Fin 8} (hn : n ≠ 0) {v : Word} :
    dpWrite c keeper n.val v allBytes = dpCommand (setReg c (dpBase n.val + 8) (keeperNow c (dpBase n.val + 8) dpCtlRow v.toNat (2 ^ 32 - 1)))
      n.val (natBit v.toNat 0) (natBit v.toNat 1) := by
  have hlt := n.isLt
  have hne : n.val ≠ 0 := fun h => hn (Fin.ext h)
  have hhit : ∀ i, i < 2 → (keeperCtx c (dpBase n.val + 8) dpCtlRow v.toNat (2 ^ 32 - 1)).hit i = natBit v.toNat i := fun i hi => by
    rw [keeperCtx_hit]
    have heff : natBit (effMask 0 dpCtlRow.fields (2 ^ 32 - 1)) i = true := by
      interval_cases i <;> decide
    rw [heff, Bool.true_and]
  have hoff : (dpBase n.val + 8) % 0x20 = 8 ∧ dpOf (dpBase n.val + 8) = n.val := by
    simp only [dpOf, dpBase]
    omega
  have hctx : (keeperCtx c (dpBase n.val + 8) dpCtlRow v.toNat (2 ^ 32 - 1)).off = dpBase n.val + 8 := rfl
  rw [dpWrite, writeWord_all hookDma v (findReg_dpCtl n) rfl, hookDma, guarded_single _ _ _ rfl, hctx, dpBad_ctl,
    if_neg (by simpa using hne), if_neg (by simp only [dpBase]; omega), if_pos (by simp only [dpBase]; omega), if_pos hoff.1, hoff.2,
    hhit 0 (by decide), hhit 1 (by decide)]

/-- What GO reads of the channel, where CTL may have been written. -/
theorem dpRuns_ctl {c c1 : Chip} {n : Nat} (h : Touches [] (regAt (dpBase n + 8)) c c1) (hn : n ≠ 0) : dpRuns c1 n = dpRuns c n := by
  have hstat : reg c1 (dpStat n) = reg c (dpStat n) := h.reg (by simp [regAt, dpStat])
  rw [dpRuns, dpRuns, dpState, dpState, if_neg fun e => hn e.1, if_neg fun e => hn e.1, fld, fld, hstat]

theorem dmaOn_ctl {c c1 : Chip} {n : Nat} (h : Touches [] (regAt (dpBase n + 8)) c c1) : dmaOn c1 = dmaOn c := by
  have hpwr : c1.pwr = c.pwr := h.same .pwr (by simp) (by simp)
  rw [dmaOn, domOn, dom, hpwr, dmaOn, domOn, dom]

theorem instrAt_ctl {c c1 : Chip} {n : Nat} (h : Touches [] (regAt (dpBase n + 8)) c c1) (f : DpSt) (hn : n < 8) (i : Nat) :
    instrAt (modDp c1 n fun _ => f) n i = instrAt (modDp c n fun _ => f) n i := by
  have hst : dpSt (modDp c1 n fun _ => f) n = dpSt (modDp c n fun _ => f) n := by rw [dpSt_modDp_self, dpSt_modDp_self]
  refine instrAt_congr (c := modDp c n fun _ => f) (t := modDp c1 n fun _ => f) (fun off hoff => h.reg ?_) (by rw [hst]) (by rw [hst]) i
  simp only [regAt, beq_eq_false_iff_ne, dpBase] at hoff ⊢
  omega

/-- GO of a channel that may start: it begins at BASE. -/
theorem dpCommand_go {c : Chip} {n : Nat} (hn : n ≠ 0) (hlt : n < 8) (hidle : dpRuns c n = false) (hon : dmaOn c = true)
    (hrate : dmaRate c n ≠ 0) :
    dpCommand c n true false = dpReach (modDp (setFld c (dpBase n + 8) 0 2 0) n fun _ => { dpDef n with since := c.dma.now }) n
      (fld c (dpBase n + 4) 0 11) := by
  have htouch : Touches [] (regAt (dpBase n + 8)) c (setFld c (dpBase n + 8) 0 2 0) := (Touches.refl _ _ c).setFld _ _ _ (by simp [regAt])
  have hrate' : dmaRate (modDp (setFld c (dpBase n + 8) 0 2 0) n fun _ => { dpDef n with since := c.dma.now }) n ≠ 0 := by
    refine fun h => hrate (Eq.trans ?_ h)
    rw [dmaRate, dmaRate, if_pos hlt, if_pos hlt]
    exact (fld_setFld_other c _ _ _ _ _ _ _ (by omega)).symm
  have hbase : fld (setFld c (dpBase n + 8) 0 2 0) (dpBase n + 4) 0 11 = fld c (dpBase n + 4) 0 11 :=
    fld_setFld_other c _ _ _ _ _ _ _ (by omega)
  simp only [dpCommand, Bool.false_eq_true, if_false, dpRuns_ctl htouch hn, hidle, Bool.not_false, Bool.and_self, dmaOn_ctl htouch, hon, if_true]
  exact (if_neg hrate').trans (by rw [← hbase]; rfl)

/-- STOP of a channel that runs. -/
theorem dpCommand_stop {c : Chip} {n : Nat} (go : Bool) (hn : n ≠ 0) (hruns : dpRuns c n = true) :
    dpCommand c n go true = haltDp (setFld c (dpBase n + 8) 0 2 0) n 2 := by
  have htouch : Touches [] (regAt (dpBase n + 8)) c (setFld c (dpBase n + 8) 0 2 0) := (Touches.refl _ _ c).setFld _ _ _ (by simp [regAt])
  simp only [dpCommand, dpRuns_ctl htouch hn, hruns, if_true]

/-- The registers of GO and STOP. -/
abbrev goRegs (n : Nat) : Nat → Bool := regsAt [dpBase n + 8, dpStat n]

/-- A write of GO starts the channel. -/
theorem dpWrite_go {c : Chip} {n : Fin 8} (hn : n ≠ 0) (hidle : dpRuns c n.val = false) (hon : dmaOn c = true)
    (hrate : dmaRate c n.val ≠ 0)
    (hins : (instrAt (modDp c n.val fun _ => dpDef n.val) n.val (fld c (dpBase n.val + 4) 0 11)).isSome = true) {t : Chip}
    (ht : t = dpWrite c keeper n.val 1 allBytes) :
    fld t (dpStat n.val) 0 2 = 1 ∧ dpPc t n.val = fld c (dpBase n.val + 4) 0 11 ∧ dpSt t n.val = { dpDef n.val with since := c.dma.now }
      ∧ Touches [.dma] (goRegs n.val) c t := by
  have hlt := n.isLt
  have hne : n.val ≠ 0 := fun h => hn (Fin.ext h)
  rw [dpWrite_eq hn] at ht
  generalize keeperNow c (dpBase n.val + 8) dpCtlRow (1 : Word).toNat (2 ^ 32 - 1) = w at ht
  have hset : Touches [] (regAt (dpBase n.val + 8)) c (setReg c (dpBase n.val + 8) w) := (Touches.refl _ _ c).setReg w (by simp [regAt])
  have hctl : Touches [] (regAt (dpBase n.val + 8)) c (setFld (setReg c (dpBase n.val + 8) w) (dpBase n.val + 8) 0 2 0) :=
    hset.setFld _ _ _ (by simp [regAt])
  have hrate' : dmaRate (setReg c (dpBase n.val + 8) w) n.val ≠ 0 := by
    rw [dmaRate, if_pos hlt] at hrate ⊢
    rwa [fld, hset.reg (by simp [regAt])]
  have hbase : fld (setReg c (dpBase n.val + 8) w) (dpBase n.val + 4) 0 11 = fld c (dpBase n.val + 4) 0 11 := by
    rw [fld, hset.reg (by simp [regAt]), fld]
  rw [show natBit (1 : Word).toNat 0 = true by decide, show natBit (1 : Word).toNat 1 = false by decide,
    dpCommand_go hne hlt (by rwa [dpRuns_ctl hset hne]) (by rwa [dmaOn_ctl hset]) hrate', hbase] at ht
  generalize hstart : (modDp (setFld (setReg c (dpBase n.val + 8) w) (dpBase n.val + 8) 0 2 0) n.val
    fun _ => { dpDef n.val with since := (setReg c (dpBase n.val + 8) w).dma.now }) = c2 at ht
  have hst : dpSt c2 n.val = { dpDef n.val with since := c.dma.now } := by
    rw [← hstart]
    simp
  have hins2 : (instrAt c2 n.val (fld c (dpBase n.val + 4) 0 11)).isSome = true := by
    refine Eq.trans (congrArg Option.isSome ?_) hins
    rw [← instrAt_ctl hctl (dpDef n.val) hlt]
    have hbefore : dpSt (modDp (setFld (setReg c (dpBase n.val + 8) w) (dpBase n.val + 8) 0 2 0) n.val fun _ => dpDef n.val) n.val
        = dpDef n.val := dpSt_modDp_self _ _ _
    exact instrAt_congr (fun _ _ => by rw [← hstart]; rfl) (by rw [hst, hbefore]) (by rw [hst, hbefore]) _
  have htouch : Touches [.dma] (goRegs n.val) c c2 := by
    rw [← hstart]
    exact (hctl.mono (by simp) (by simp +contextual [regAt, goRegs, regsAt])).modDp _ _ (by simp)
  have hlen : fld c (dpBase n.val + 4) 0 11 < 2048 := natBits_lt _ _ 11
  refine ⟨?_, ?_, ?_, ?_⟩
  · rw [ht, dpReach_running hlt hins2]
    exact fld_setFld_self _ _ _ _ _ (by decide)
  · rw [ht, dpReach_pc hlen]
  · rw [ht, dpReach_running hlt hins2]
    exact hst
  · rw [ht]
    exact htouch.trans (dpReach_touches c2 _ _ (by simp) (by simp [goRegs, regsAt]))

/-- A write of STOP halts the channel with reason 2. -/
theorem dpWrite_stop {c : Chip} {n : Fin 8} (hn : n ≠ 0) (hruns : dpRuns c n.val = true) {t : Chip}
    (ht : t = dpWrite c keeper n.val 2 allBytes) :
    fld t (dpStat n.val) 0 2 = 3 ∧ fld t (dpStat n.val) 4 4 = 2 ∧ (dpSt t n.val).xfer = none ∧ Touches [.dma] (goRegs n.val) c t := by
  have hne : n.val ≠ 0 := fun h => hn (Fin.ext h)
  rw [dpWrite_eq hn] at ht
  generalize keeperNow c (dpBase n.val + 8) dpCtlRow (2 : Word).toNat (2 ^ 32 - 1) = w at ht
  have hset : Touches [] (regAt (dpBase n.val + 8)) c (setReg c (dpBase n.val + 8) w) := (Touches.refl _ _ c).setReg w (by simp [regAt])
  rw [show natBit (2 : Word).toNat 1 = true by decide, dpCommand_stop _ hne (by rwa [dpRuns_ctl hset hne])] at ht
  have htouch : Touches [.dma] (goRegs n.val) c (setFld (setReg c (dpBase n.val + 8) w) (dpBase n.val + 8) 0 2 0) :=
    (hset.setFld _ _ _ (by simp [regAt])).mono (by simp) (by simp +contextual [regAt, goRegs, regsAt])
  rw [ht]
  exact ⟨haltDp_state _ _ _, haltDp_code _ (by decide), by simp [haltDp], htouch.haltDp _ (by simp) (by simp [goRegs, regsAt])⟩

/-! ## Instructions (R887 to R895) -/

/-- The instruction that a channel carries out stands at its program counter. -/
theorem dpHere_some {c : Chip} {n : Nat} {i : DpInstr} (h : dpHere c n = some i) : n ≤ 7 ∧ instrAt c n (dpPc c n) = some i := by
  rw [dpHere] at h
  split at h
  · exact absurd h (by simp)
  · exact ⟨by omega, h⟩

theorem dpMove_xfer {c : Chip} {n sw dw swrap dwrap burst src dst len : Nat} {sc dc : Bool}
    (h : dpHere c n = some (.move sw dw swrap dwrap burst sc dc src dst len)) : dpMove c n = modDp c n fun d =>
      { d with xfer := some { src := src, dst := dst, left := len, swrap := swrap, dwrap := dwrap, sspace := 0, dspace := 0,
                              burst := burst, dw := dw } } := by
  rw [dpMove, h]

/-- What a channel holds, and where it stands, after an update of its state and the step to an instruction. -/
theorem dpReach_modDp {c : Chip} {n : Nat} (f : DpSt → DpSt) {i : Nat} (hi : i < 2048) {t : Chip} (ht : t = dpReach (modDp c n f) n i) :
    (∃ x p, dpSt t n = { f (dpSt c n) with xfer := x, pulse := p }) ∧ dpPc t n = i ∧ Touches [.dma] (regAt (dpStat n)) c t := by
  obtain ⟨x, p, hst⟩ := dpReach_dpSt (modDp c n f) n i
  rw [dpSt_modDp_self] at hst
  rw [ht]
  exact ⟨⟨x, p, hst⟩, dpReach_pc hi, ((Touches.refl _ _ c).modDp n f (by simp)).trans (dpReach_touches _ _ _ (by simp) (by simp [regAt]))⟩

/-- Where LOOP goes. -/
theorem ite_lt {q : Prop} [Decidable q] {x y : Nat} (h : y < 2048 ∧ x < 2048) : (if q then x else y) < 2048 := by
  split
  · exact h.2
  · exact h.1

/-- LOOP with the counter 0. -/
theorem dpLoop_zero {c : Chip} {n count target : Nat} (h : dpHere c n = some (.loop 0 count target)) (hcount : count ≠ 0)
    (ht : target < 2048 ∧ dpPc c n + 1 < 2048) {t : Chip} (hr : t = dpLoop c n) :
    (dpSt t n).ctr0 = (if (dpSt c n).ctr0 = 0 then count else (dpSt c n).ctr0) - 1
      ∧ dpPc t n = (if (dpSt t n).ctr0 = 0 then dpPc c n + 1 else target)
      ∧ (dpSt t n).ctr1 = (dpSt c n).ctr1 ∧ Touches [.dma] (regAt (dpStat n)) c t := by
  rw [dpLoop, h] at hr
  simp only [if_neg hcount, if_true] at hr
  obtain ⟨⟨x, p, hst⟩, hpc, htouch⟩ := dpReach_modDp _ (ite_lt ht) hr
  rw [hst]
  exact ⟨rfl, hpc, rfl, htouch⟩

/-- LOOP with the counter 1. -/
theorem dpLoop_one {c : Chip} {n k count target : Nat} (h : dpHere c n = some (.loop k count target)) (hcount : count ≠ 0) (hk : k ≠ 0)
    (ht : target < 2048 ∧ dpPc c n + 1 < 2048) {t : Chip} (hr : t = dpLoop c n) :
    (dpSt t n).ctr1 = (if (dpSt c n).ctr1 = 0 then count else (dpSt c n).ctr1) - 1
      ∧ dpPc t n = (if (dpSt t n).ctr1 = 0 then dpPc c n + 1 else target)
      ∧ (dpSt t n).ctr0 = (dpSt c n).ctr0 ∧ Touches [.dma] (regAt (dpStat n)) c t := by
  rw [dpLoop, h] at hr
  simp only [if_neg hcount, if_neg hk] at hr
  obtain ⟨⟨x, p, hst⟩, hpc, htouch⟩ := dpReach_modDp _ (ite_lt ht) hr
  rw [hst]
  exact ⟨rfl, hpc, rfl, htouch⟩

/-- A channel that waits. -/
theorem wait_waits (c : Chip) (n : Nat) : fld (setFld c (dpStat n) 0 2 2) (dpStat n) 0 2 = 2
    ∧ Touches [.dma] (regAt (dpStat n)) c (setFld c (dpStat n) 0 2 2) :=
  ⟨fld_setFld_self c _ _ _ _ (by decide), (Touches.refl _ _ c).setFld _ _ _ (by simp [regAt])⟩

/-- WAIT for a SCAN event. -/
theorem dpWait_scan {c : Chip} {n : Nat} (h : dpHere c n = some (.wait 0)) : dpWait c n =
    if (dpSt c n).scan then dpReach (modDp c n fun d => { d with scan := false }) n (dpPc c n + 1) else setFld c (dpStat n) 0 2 2 := by
  rw [dpWait, h]
  rfl

/-- WAIT for a channel's event. -/
theorem dpWait_chan {c : Chip} {n : Nat} (h : dpHere c n = some (.wait 1)) : dpWait c n =
    if (dpSt c n).chan then dpReach (modDp c n fun d => { d with chan := false }) n (dpPc c n + 1) else setFld c (dpStat n) 0 2 2 := by
  rw [dpWait, h]
  rfl

/-- WAIT consumes a pending event or waits. -/
theorem dpWait_waits {c : Chip} {n e : Nat} (h : dpHere c n = some (.wait e)) (hpc : dpPc c n + 1 < 2048) {t : Chip} (ht : t = dpWait c n) :
    (e = 0 → (dpSt c n).scan = true → dpPc t n = dpPc c n + 1 ∧ (dpSt t n).scan = false)
      ∧ (e = 1 → (dpSt c n).chan = true → dpPc t n = dpPc c n + 1 ∧ (dpSt t n).chan = false)
      ∧ ((e = 0 → (dpSt c n).scan = false) → (e = 1 → (dpSt c n).chan = false) → fld t (dpStat n) 0 2 = 2)
      ∧ Touches [.dma] (regAt (dpStat n)) c t := by
  match e, h with
  | 0, h =>
    rw [dpWait_scan h] at ht
    cases hscan : (dpSt c n).scan
    · rw [hscan, if_neg (by simp)] at ht
      rw [ht]
      exact ⟨by simp, by simp, fun _ _ => (wait_waits c n).1, (wait_waits c n).2⟩
    · rw [hscan, if_pos rfl] at ht
      obtain ⟨⟨x, p, hst⟩, hto, htouch⟩ := dpReach_modDp _ hpc ht
      exact ⟨fun _ _ => ⟨hto, by rw [hst]⟩, by simp, by simp, htouch⟩
  | 1, h =>
    rw [dpWait_chan h] at ht
    cases hchan : (dpSt c n).chan
    · rw [hchan, if_neg (by simp)] at ht
      rw [ht]
      exact ⟨by simp, by simp, fun _ _ => (wait_waits c n).1, (wait_waits c n).2⟩
    · rw [hchan, if_pos rfl] at ht
      obtain ⟨⟨x, p, hst⟩, hto, htouch⟩ := dpReach_modDp _ hpc ht
      exact ⟨by simp, fun _ _ => ⟨hto, by rw [hst]⟩, by simp, htouch⟩
  | e + 2, h =>
    have hwait : t = setFld c (dpStat n) 0 2 2 := by
      rw [ht, dpWait, h]
      rfl
    rw [hwait]
    exact ⟨by simp, by simp, fun _ _ => (wait_waits c n).1, (wait_waits c n).2⟩

/-- A pending event of a channel stays in the engine and the status registers. -/
theorem setPending_touches (c : Chip) (n e : Nat) : Touches [.dma] dpStats c (setPending c n e) := by
  unfold setPending
  split
  · exact .refl _ _ c
  · next hn =>
    have hstat : dpStats (dpStat n) = true := dpStats_dpStat (by omega)
    exact .ite (dpReach_touches _ _ _ (by simp) hstat)
      (.ite ((Touches.refl _ _ c).countFld _ _ hstat) ((Touches.refl _ _ c).modDp _ _ (by simp)))

/-- SIGNAL: the frame number stands in the page, and the channel halts or goes on. -/
theorem dpPulse_signals {c : Chip} {n : Nat} (hn : n < 8) (halt : Bool) (mask : Nat) {t : Chip} (ht : t = dpPulse c n halt mask) :
    reg t (dpBase n + 0x10) = BitVec.ofNat 32 (frameNum c)
      ∧ (halt = true → fld t (dpStat n) 0 2 = 3 ∧ fld t (dpStat n) 4 4 = 1) ∧ Touches [.dma] (regIn 0x1A0100 0x1A0200) c t := by
  rw [dpPulse] at ht
  generalize hmid : (List.range 8).foldl (fun c k => if natBit mask k then setPending c k 1 else c)
    (setReg (modDp c n fun d => { d with pulse := false }) (dpBase n + 0x10) (BitVec.ofNat 32 (frameNum c))) = mid at ht
  have hfold : Touches [.dma] dpStats _ mid := hmid ▸ Touches.foldl _ _ (fun c k _ => .ite (setPending_touches c k 1) (.refl _ _ c)) _
  have hend : Touches [.dma] dpStats mid t := by
    rw [ht]
    exact .ite ((Touches.refl _ _ mid).haltDp 1 (by simp) (dpStats_dpStat hn)) (dpReach_touches _ _ _ (by simp) (dpStats_dpStat hn))
  have hpage : regIn 0x1A0100 0x1A0200 (dpBase n + 0x10) = true := by
    rw [regIn_iff, dpBase]
    omega
  refine ⟨?_, fun hhalt => ?_, ?_⟩
  · rw [(hfold.trans hend).reg (dpStats_page (by decide) (by decide)), reg_setReg_self]
  · rw [hhalt, if_pos rfl] at ht
    rw [ht]
    exact ⟨haltDp_state _ _ _, haltDp_code _ (by decide)⟩
  · exact (((Touches.refl _ _ c).modDp n _ (by simp)).setReg _ hpage).trans ((hfold.trans hend).mono (by simp) dpStats_pages)

/-! ## Bursts (R869 to R873) -/

/-- The node with another state of the DMA engine, and its own handoff memory. -/
def withEngine (c : Chip) (d : DmaSt) : Chip := { c with dma := { d with handoff := c.dma.handoff } }

theorem fabricByte_withEngine (c : Chip) (d : DmaSt) (a : Nat) : fabricByte (withEngine c d) a = fabricByte c a := by
  have hbar : ∀ k, bar1Byte { c with dma := { d with handoff := c.dma.handoff } } k = bar1Byte c k := fun k => by
    unfold bar1Byte
    rfl
  rw [fabricByte, fabricByte, withEngine, hbar]
  rfl

theorem handoffWrite_withEngine (c : Chip) (d : DmaSt) (a : Nat) (v : Byte) :
    handoffWrite (withEngine c d) a v = withEngine (handoffWrite c a v) d := rfl

theorem dpBeat_withEngine (c : Chip) (d : DmaSt) (x : Xfer) (done k : Nat) :
    dpBeat (withEngine c d) x done k = withEngine (dpBeat c x done k) d := by
  simp only [dpBeat, fabricByte_withEngine]
  generalize ((List.range k).map fun i => fabricByte c (wrapAdd x.swrap x.src (done + i))).zipIdx = bs
  induction bs generalizing c with
  | nil => rfl
  | cons b bs ih => exact ih (handoffWrite c _ _)

/-- Beats read and write nothing that the channels hold. -/
theorem dpBeats_withEngine (c : Chip) (d : DmaSt) (x : Xfer) (n fuel done : Nat) :
    dpBeats x n fuel done (withEngine c d) = withEngine (dpBeats x n fuel done c) d := by
  induction fuel generalizing c done with
  | zero => rfl
  | succ fuel ih =>
    rw [dpBeats, dpBeats]
    split
    · rfl
    · rw [dpBeat_withEngine, ih]

theorem dpBeats_touches (c : Chip) (x : Xfer) (n fuel done : Nat) : Touches [.dma] noReg c (dpBeats x n fuel done c) := by
  induction fuel generalizing c done with
  | zero => exact .refl _ _ c
  | succ fuel ih =>
    rw [dpBeats]
    split
    · exact .refl _ _ c
    · exact (Touches.foldl (fun c (e : Byte × Nat) => handoffWrite c (wrapAdd x.dwrap x.dst (done + e.2)) e.1) _
        (fun c _ _ => dmaSt_touches (.refl _ _ c) _ (by simp)) c).trans (ih _ _)

/-- A burst that stays inside the fabric and does not end its transfer. -/
theorem dpBurst_moves {c : Chip} {n : Nat} {x : Xfer} (hmore : x.burst * 32 < x.left)
    (hin : ((List.range (x.burst * 32)).all fun i => fabricReads (wrapAdd x.swrap x.src i) && fabricWrites (wrapAdd x.dwrap x.dst i)) = true) :
    dpBurst c n x = modDp (modDp (dpBeats x (x.burst * 32) 16 0 (chargeBurst c n (x.burst * 32))) n fun d => { d with verify := readsBack c }) n
      fun d => { d with xfer := some (xferNext x (x.burst * 32)) } := by
  have hnobad : ((List.range (x.burst * 32)).find? fun i =>
      !fabricReads (wrapAdd x.swrap x.src i) || !fabricWrites (wrapAdd x.dwrap x.dst i)) = none := by
    simp only [List.find?_eq_none]
    simp only [List.all_eq_true, Bool.and_eq_true] at hin
    intro i hi
    simp [hin i hi]
  rw [dpBurst]
  simp only [Nat.min_eq_right (Nat.le_of_lt hmore), hnobad]
  exact if_neg (by simp only [xferNext]; omega)

theorem chargeBurst_engine (c : Chip) (n k : Nat) : chargeBurst c n k = withEngine c (chargeBurst c n k).dma := by
  unfold chargeBurst
  dsimp only
  split <;> rfl

/-- The credit of a program channel after a burst. -/
theorem dpSt_chargeBurst {c : Chip} {n : Nat} (hn : n < 8) (k : Nat) :
    dpSt (chargeBurst c n k) n = { dpSt c n with credit := creditNow c n - 8 * (k : Int), since := c.dma.now } := by
  rw [chargeBurst, if_pos hn, dpSt_modDp_self]

/-- A burst of a program channel. -/
theorem dmaBurst_moves {c : Chip} {n limit cycles : Nat} {x : Xfer} (hon : dmaOn c = true) (hn : n ≠ 0 ∧ n < 8)
    (hcredit : 0 ≤ creditNow (dmaCycles c cycles) n) (hruns : fld c (dpStat n) 0 2 = 1) (hx : (dpSt c n).xfer = some x)
    (hmore : x.burst * 32 < x.left)
    (hin : ((List.range (x.burst * 32)).all fun i => fabricReads (wrapAdd x.swrap x.src i) && fabricWrites (wrapAdd x.dwrap x.dst i)) = true)
    {t : Chip} (ht : t = dmaBurst c n limit cycles) :
    (dpSt t n).xfer = some { x with src := wrapAdd x.swrap x.src (x.burst * 32), dst := wrapAdd x.dwrap x.dst (x.burst * 32), left := x.left - x.burst * 32 }
      ∧ t.dma.handoff = (dpBeats x (x.burst * 32) 16 0 c).dma.handoff
      ∧ (dpSt t n).credit = creditNow (dmaCycles c cycles) n - 8 * (x.burst * 32 : Nat)
      ∧ (dpSt t n).since = c.dma.now + cycles ∧ Touches [.dma] noReg c t := by
  have hx' : (dpSt (dmaCycles c cycles) n).xfer = some x := hx
  have hruns' : fld (dmaCycles c cycles) (dpStat n) 0 2 = 1 := hruns
  have hserve : t = dpBurst (dmaCycles c cycles) n x := by
    rw [ht, dmaBurst]
    simp only [hon, Bool.not_true, Bool.false_eq_true, if_false, if_pos hn.2, dpServe, if_neg (not_lt.2 hcredit), if_neg hn.1, hx', if_pos hruns']
  rw [dpBurst_moves hmore hin] at hserve
  have hbeats : dpBeats x (x.burst * 32) 16 0 (chargeBurst (dmaCycles c cycles) n (x.burst * 32))
      = withEngine (dpBeats x (x.burst * 32) 16 0 c) (chargeBurst (dmaCycles c cycles) n (x.burst * 32)).dma := by
    rw [chargeBurst_engine, ← dpBeats_withEngine]
    rfl
  have hst : dpSt t n = { dpSt (chargeBurst (dmaCycles c cycles) n (x.burst * 32)) n with
      verify := readsBack (dmaCycles c cycles), xfer := some (xferNext x (x.burst * 32)) } := by
    rw [hserve, dpSt_modDp_self, dpSt_modDp_self, hbeats]
    rfl
  rw [dpSt_chargeBurst hn.2] at hst
  refine ⟨by rw [hst]; rfl, ?_, by rw [hst], by rw [hst]; rfl, ?_⟩
  · rw [hserve, hbeats]
    rfl
  · rw [hserve]
    exact ((((dmaCycles_touches c cycles).trans (chargeBurst_touches _ n _ (by simp))).trans (dpBeats_touches _ x _ _ _)).modDp n _
      (by simp)).modDp n _ (by simp)

/-- A channel without credit moves nothing. -/
theorem dmaBurst_stands {c : Chip} {n limit cycles : Nat} (hon : dmaOn c = true) (hcredit : creditNow (dmaCycles c cycles) n < 0) :
    dmaBurst c n limit cycles = dmaCycles c cycles := by
  simp only [dmaBurst, hon, Bool.not_true, Bool.false_eq_true, if_false]
  split
  · rw [dpServe, if_pos hcredit]
  · next hn =>
    have hturn : ∀ fn, dlTurn (dmaCycles c cycles) fn ≠ some (n - 8) := fun fn h => by
      have hready := List.find?_some h
      simp only [dlReady, Bool.and_eq_true, decide_eq_true_eq] at hready
      rw [show 8 + (n - 8) = n by omega] at hready
      omega
    rw [dlServe]
    split
    · rw [if_neg (by simp [hturn])]
    · rfl

/-- Settles O51: GO and STOP reach the channel through its register; each instruction is a step of the channel's own state, and a burst
reads and writes the handoff memory beside the channels. -/
theorem programChannelsComplete : Obligations.ProgramChannelsComplete := by
  unfold Obligations.ProgramChannelsComplete
  refine ⟨fun s n hn hidle hon hrate hins => ?_, fun s n hn hruns => ?_, fun s n sw dw swrap dwrap burst src dst len sc dc h => ?_,
    fun s n k count target h hcount hk ht => ?_, fun s n k count target h hcount hk ht => ?_, fun s n e h hpc => ?_,
    fun s n halt mask h hverify => ?_, fun s n limit cycles x hon hn hcredit hruns hx hmore hin => ?_,
    fun s n limit cycles hon hcredit => ?_, fun s n halt mask hn hpulse hins => ?_⟩ <;> refine ⟨_, rfl, rfl, ?_⟩ <;> dsimp only
  · exact dpWrite_go hn hidle hon hrate hins rfl
  · exact dpWrite_stop hn hruns rfl
  · rw [dpMove_xfer h, dpSt_modDp_self]
    exact ⟨rfl, (Touches.refl _ _ _).modDp _ _ (by simp)⟩
  · exact dpLoop_zero (hk ▸ h) hcount ht rfl
  · exact dpLoop_one h hcount hk ht rfl
  · exact dpWait_waits h hpc rfl
  · refine dpPulse_signals n.isLt halt mask ?_
    simp only [dpSignal, h, hverify]
    rfl
  · exact dmaBurst_moves hon hn hcredit hruns hx hmore hin rfl
  · exact dmaBurst_stands hon hcredit
  · refine dpPulse_signals hn halt mask ?_
    simp only [completionPulse, if_pos hn, dpReadBack, hpulse, hins]
    rfl

end Sys2Proof.Machine
end

section
-- One proof at a time: every thread takes a stack of its own from the memory that a compile has.
set_option Elab.async false
/-! SUPPORT. The descriptor channels of the DMA engine (R896 to R912). -/

namespace Sys2Proof.Machine

/-! ## Registers of 64 bits -/

theorem reg64_congr {c t : Chip} {off : Nat} (h : ∀ o, o = off ∨ o = off + 4 → reg t o = reg c o) : reg64 t off = reg64 c off := by
  rw [reg64, h _ (.inl rfl), h _ (.inr rfl), reg64]

theorem reg64_lt (c : Chip) (off : Nat) : reg64 c off < 2 ^ 64 := by
  have hlo := (reg c off).isLt
  have hhi := (reg c (off + 4)).isLt
  rw [reg64]
  omega

theorem reg64_setReg64 (c : Chip) (off v : Nat) : reg64 (setReg64 c off v) off = v % 2 ^ 64 := by
  rw [reg64, setReg64, reg_setReg_self, reg_setReg_other _ _ _ _ (by omega), reg_setReg_self]
  simp only [BitVec.toNat_ofNat]
  omega

theorem dlSt_setReg64 (c : Chip) (off v n : Nat) : dlSt (setReg64 c off v) n = dlSt c n := rfl

theorem dlSt_setFld (c : Chip) (off lo w x n : Nat) : dlSt (setFld c off lo w x) n = dlSt c n := rfl

theorem Touches.setReg64 {ps : List Part} {rs : Nat → Bool} {a b : Chip} (h : Touches ps rs a b) {off : Nat} (v : Nat)
    (hlo : rs off = true) (hhi : rs (off + 4) = true) : Touches ps rs a (Machine.setReg64 b off v) := (h.setReg _ hlo).setReg _ hhi

/-! ## GO and STOP (R898, R900, R912) -/

def dlCtlRow : RegDesc := regN "DMA_DLn_CTL" 0x1A0404 8 0x40 [fd 0 1 .rw 0, fd 1 1 .rw 0]

theorem findReg_dlCtl (n : Fin 8) : findReg (dlBase n.val + 4) = some dlCtlRow := by
  revert n
  decide +kernel

/-- No register of a descriptor channel is one whose write the program channels refuse. -/
theorem dpBad_dl (c : Chip) (w : WriteCtx) {n k : Nat} (hn : n < 8) (hk : k < 0x40) : dpBad c w (dlBase n + k) = false := by
  rw [dpBad, if_neg (by rw [dlBase]; omega), if_neg (by rw [dlBase]; omega)]

/-- The action of a register of a descriptor channel. -/
theorem hookDma_dl {w : WriteCtx} {n k : Nat} (hn : n < 8) (hk : k < 0x40) (hoff : w.off = dlBase n + k) (hpair : w.pair = none) (c : Chip) :
    hookDma w c = if k = 0 then hookDl (ownerCode w c).2 (ownerCode w c).1 n 0 else hookDl w c n k := by
  have hplace : (dlBase n + k) % 0x40 = k ∧ (dlBase n + k - 0x1A0400) / 0x40 = n := by
    rw [dlBase]
    omega
  rw [hookDma, guarded_single _ _ _ hpair, hoff, dpBad_dl _ _ hn hk, if_neg (by simp), if_neg (by rw [dlBase]; omega),
    if_neg (by rw [dlBase]; omega), if_pos (by rw [dlBase]; omega), hplace.1, hplace.2]
  by_cases hk0 : k = 0
  · simp only [hk0, if_true]
  · simp only [if_neg hk0]

/-- A write of DMA_DLn_CTL by the keeper reaches the channel. -/
theorem dlWrite_eq (c : Chip) (n : Fin 8) (v : Word) :
    dlWrite c keeper n.val v allBytes = dlCommand (setReg c (dlBase n.val + 4) (keeperNow c (dlBase n.val + 4) dlCtlRow v.toNat (2 ^ 32 - 1)))
      n.val (natBit v.toNat 0) (natBit v.toNat 1) := by
  have hhit : ∀ i, i < 2 → (keeperCtx c (dlBase n.val + 4) dlCtlRow v.toNat (2 ^ 32 - 1)).hit i = natBit v.toNat i := fun i hi => by
    rw [keeperCtx_hit]
    have heff : natBit (effMask 0 dlCtlRow.fields (2 ^ 32 - 1)) i = true := by
      interval_cases i <;> decide
    rw [heff, Bool.true_and]
  rw [dlWrite, writeWord_all hookDma v (findReg_dlCtl n) rfl, hookDma_dl n.isLt (by decide) rfl rfl, if_neg (by decide), hookDl,
    hhit 0 (by decide), hhit 1 (by decide)]

/-- The registers that GO of a descriptor channel writes. -/
def goPage (n : Nat) : Nat → Bool := regIn (dlBase n + 4) (dlBase n + 0x28)

theorem goPage_mem {n k : Nat} (h : 4 ≤ k ∧ k < 0x28) : goPage n (dlBase n + k) = true := by
  rw [goPage, regIn_iff]
  omega

theorem dlRuns_ctl {c c1 : Chip} {ps : List Part} {n : Nat} (h : Touches ps (regAt (dlBase n + 4)) c c1) : dlRuns c1 n = dlRuns c n := by
  have hstat : reg c1 (dlStat n) = reg c (dlStat n) := h.reg (by simp [regAt, dlStat])
  rw [dlRuns, dlRuns, fld, fld, hstat]

/-- GO of a channel that may start. -/
theorem dlCommand_go {c : Chip} {n : Nat} (hidle : dlRuns c n = false) (hon : dmaOn c = true) (hrate : dmaRate c (8 + n) ≠ 0) :
    ∃ c2, dlCommand c n true false = setReg64 (setFld c2 (dlStat n) 0 2 1) (dlBase n + 0x20) (reg64 c (dlBase n + 8))
      ∧ dlSt c2 n = { dlDef n with since := c.dma.now } ∧ reg c2 (dlBase n + 0x1C) = 0 ∧ Touches [.dma] (goPage n) c c2 := by
  have htouch : Touches [] (regAt (dlBase n + 4)) c (setFld c (dlBase n + 4) 0 2 0) := (Touches.refl _ _ c).setFld _ _ _ (by simp [regAt])
  have hon' : dmaOn (setFld c (dlBase n + 4) 0 2 0) = true := hon
  generalize hc1 : setFld c (dlBase n + 4) 0 2 0 = c1 at *
  generalize hc2 : setReg (modDl c1 n fun _ => { dlDef n with since := c1.dma.now }) (dlBase n + 0x1C) 0 = c2
  have htouch2 : Touches [.dma] (regsAt [dlBase n + 4, dlBase n + 0x1C]) c c2 := by
    rw [← hc2]
    exact ((htouch.mono (by simp) (by simp +contextual [regAt, regsAt])).modDl n _ (by simp)).setReg _ (by simp [regsAt])
  have hrate2 : dmaRate c2 (8 + n) ≠ 0 := by
    rw [dmaRate, if_neg (by omega), Nat.add_sub_cancel_left] at hrate ⊢
    rwa [fld, htouch2.reg (by simp [regsAt])]
  have hhead : reg64 c2 (dlBase n + 8) = reg64 c (dlBase n + 8) := reg64_congr fun o ho => htouch2.reg (by
    simp only [regsAt, List.contains_cons, List.contains_nil, Bool.or_false, Bool.or_eq_false_iff, beq_eq_false_iff_ne]
    omega)
  refine ⟨c2, ?_, ?_, ?_, htouch2.mono (by simp) fun off hoff => ?_⟩
  · simp only [dlCommand, hc1, Bool.false_eq_true, if_false, dlRuns_ctl htouch, hidle, Bool.not_false, Bool.and_self, hon', if_true]
    rw [hc2, if_neg hrate2, hhead]
  · rw [← hc2, ← hc1]
    exact dlSt_modDl_self _ _ _
  · rw [← hc2, reg_setReg_self]
  · simp only [regsAt, List.contains_cons, List.contains_nil, Bool.or_false, Bool.or_eq_true, beq_iff_eq] at hoff
    rw [goPage, regIn_iff]
    omega

theorem dlWrite_go {c : Chip} {n : Fin 8} (hidle : dlRuns c n.val = false) (hon : dmaOn c = true) (hrate : dmaRate c (8 + n.val) ≠ 0)
    {t : Chip} (ht : t = dlWrite c keeper n.val 1 allBytes) :
    fld t (dlStat n.val) 0 2 = 1 ∧ reg64 t (dlBase n.val + 0x20) = reg64 c (dlBase n.val + 8) ∧ reg t (dlBase n.val + 0x1C) = 0
      ∧ dlSt t n.val = { dlDef n.val with since := c.dma.now } ∧ Touches [.dma] (goPage n.val) c t := by
  rw [dlWrite_eq, show natBit (1 : Word).toNat 0 = true by decide, show natBit (1 : Word).toNat 1 = false by decide] at ht
  generalize keeperNow c (dlBase n.val + 4) dlCtlRow (1 : Word).toNat (2 ^ 32 - 1) = w at ht
  have hset : Touches [] (regAt (dlBase n.val + 4)) c (setReg c (dlBase n.val + 4) w) := (Touches.refl _ _ c).setReg w (by simp [regAt])
  have hrate' : dmaRate (setReg c (dlBase n.val + 4) w) (8 + n.val) ≠ 0 := by
    rw [dmaRate, if_neg (by omega), Nat.add_sub_cancel_left] at hrate ⊢
    rwa [fld, hset.reg (by simp [regAt])]
  obtain ⟨c2, hgo, hst, hdone, htouch⟩ := dlCommand_go (by rwa [dlRuns_ctl hset]) (show dmaOn (setReg c (dlBase n.val + 4) w) = true from hon) hrate'
  have hhead : reg64 (setReg c (dlBase n.val + 4) w) (dlBase n.val + 8) = reg64 c (dlBase n.val + 8) :=
    reg64_congr fun o ho => hset.reg (by simp only [regAt, beq_eq_false_iff_ne]; omega)
  rw [hgo, hhead] at ht
  refine ⟨?_, ?_, ?_, ?_, ?_⟩
  · rw [ht, setReg64, fld, reg_setReg_other _ _ _ _ (by rw [dlStat]; omega), reg_setReg_other _ _ _ _ (by rw [dlStat]; omega)]
    exact fld_setFld_self _ _ _ _ _ (by decide)
  · rw [ht, reg64_setReg64, Nat.mod_eq_of_lt (reg64_lt _ _)]
  · rw [ht, setReg64, reg_setReg_other _ _ _ _ (by omega), reg_setReg_other _ _ _ _ (by omega), reg_setFld_other _ _ _ _ _ _ (by rw [dlStat]; omega), hdone]
  · rw [ht, dlSt_setReg64, dlSt_setFld, hst, setReg_dma]
  · rw [ht]
    have hpage : Touches [.dma] (goPage n.val) c (setReg c (dlBase n.val + 4) w) := (Touches.refl _ _ c).setReg w (goPage_mem (by decide))
    exact ((hpage.trans htouch).setFld _ _ _ (goPage_mem (by decide))).setReg64 _ (goPage_mem (by decide)) (by rw [Nat.add_assoc]; exact goPage_mem (by decide))

/-- What a halt of a descriptor channel writes: the channel, STAT and, with a completion word, the host's memory. -/
theorem haltDl_touches_stat (c : Chip) (n reason : Nat) : Touches [.dma, .hostMem] (regAt (dlStat n)) c (haltDl c n reason) := by
  have hstat : regAt (dlStat n) (dlStat n) = true := by simp [regAt]
  have hhalt := (((Touches.refl [.dma, .hostMem] (regAt (dlStat n)) c).setFld 0 2 3 hstat).setFld 4 4 reason hstat).modDl n
    (fun d => { d with xfer := none, pulse := false }) (by simp)
  simp only [haltDl]
  exact .ite hhalt (hhalt.trans ((writeCw_touches _ n reason).mono (by simp) (by simp [noReg])))

/-- A completion word: STATUS stands at its bytes 4 and 5. -/
theorem writeCw_status {c : Chip} {n reason : Nat} (h : reg64 c (dlBase n + 0x10) ≠ 0) :
    memNat zeroByte (writeCw c n reason).hostMem (reg64 c (dlBase n + 0x10) + 4) 2 = reason % 65536 := by
  simp only [writeCw, if_neg h, hostWrite]
  generalize reg64 c (dlBase n + 0x10) = a
  generalize hbs : natLe 4 (reg c (dlBase n + 0x1C)).toNat ++ natLe 2 reason ++ natLe 2 0 = bs
  have hlen : bs.length = 8 := by rw [← hbs]; rfl
  have h4 : smGet zeroByte (memWrite zeroByte c.hostMem a bs) (a + 4) = BitVec.ofNat 8 reason := by
    rw [smGet_memWrite _ _ _ _ _ (by omega)]
    simp only [← hbs]
    rfl
  have h5 : smGet zeroByte (memWrite zeroByte c.hostMem a bs) (a + 4 + 1) = BitVec.ofNat 8 (reason / 256) := by
    rw [Nat.add_assoc, smGet_memWrite _ _ _ _ _ (by omega)]
    simp only [← hbs]
    rfl
  rw [memNat, memRead]
  simp only [List.range_succ, List.range_zero, List.nil_append, List.map_cons, List.map_nil, List.cons_append, Nat.add_zero,
    h4, h5, leNat, BitVec.toNat_ofNat]
  omega

/-- The registers that a halt leaves. -/
theorem haltDl_fields (c : Chip) {n reason : Nat} (hr : reason < 16) :
    fld (haltDl c n reason) (dlStat n) 0 2 = 3 ∧ fld (haltDl c n reason) (dlStat n) 4 4 = reason := by
  have hkeep : ∀ x : Chip, reg (if reason = 10 then x else writeCw x n reason) (dlStat n) = reg x (dlStat n) := fun x => by
    split
    · rfl
    · exact (writeCw_touches x n reason).reg rfl
  simp only [fld, haltDl, hkeep]
  exact ⟨(fld_setFld_field (setFld c (dlStat n) 0 2 3) _ _ _ _ _ _ (by decide) (by decide)).trans (fld_setFld_self c _ _ _ _ (by decide)),
    (fld_setFld_self (setFld c (dlStat n) 0 2 3) _ _ _ _ (by decide)).trans (Nat.mod_eq_of_lt hr)⟩

/-- With a completion word a halt writes its reason. -/
theorem haltDl_cw {c : Chip} {n reason : Nat} (hr : reason < 16) (hne : reason ≠ 10) (h : reg64 c (dlBase n + 0x10) ≠ 0) :
    memNat zeroByte (haltDl c n reason).hostMem (reg64 c (dlBase n + 0x10) + 4) 2 = reason := by
  simp only [haltDl, if_neg hne]
  generalize hmid : modDl (setFld (setFld c (dlStat n) 0 2 3) (dlStat n) 4 4 reason) n _ = mid
  have hcw : reg64 mid (dlBase n + 0x10) = reg64 c (dlBase n + 0x10) := reg64_congr fun o ho => by
    rw [← hmid]
    exact (reg_setFld_other _ _ _ _ _ _ (by rw [dlStat]; omega)).trans (reg_setFld_other _ _ _ _ _ _ (by rw [dlStat]; omega))
  rw [← hcw, writeCw_status (hcw ▸ h), Nat.mod_eq_of_lt (by omega)]

theorem dlWrite_stop {c : Chip} {n : Fin 8} (hruns : dlRuns c n.val = true) {t : Chip} (ht : t = dlWrite c keeper n.val 2 allBytes) :
    fld t (dlStat n.val) 0 2 = 3 ∧ fld t (dlStat n.val) 4 4 = 2
      ∧ (reg64 c (dlBase n.val + 0x10) ≠ 0 → memNat zeroByte t.hostMem (reg64 c (dlBase n.val + 0x10) + 4) 2 = 2)
      ∧ Touches [.dma, .hostMem] (regsAt [dlBase n.val + 4, dlStat n.val]) c t := by
  rw [dlWrite_eq, show natBit (2 : Word).toNat 1 = true by decide] at ht
  generalize keeperNow c (dlBase n.val + 4) dlCtlRow (2 : Word).toNat (2 ^ 32 - 1) = w at ht
  generalize natBit (2 : Word).toNat 0 = go at ht
  have hset : Touches [] (regAt (dlBase n.val + 4)) c (setFld (setReg c (dlBase n.val + 4) w) (dlBase n.val + 4) 0 2 0) :=
    ((Touches.refl _ _ c).setReg w (by simp [regAt])).setFld _ _ _ (by simp [regAt])
  simp only [dlCommand, dlRuns_ctl hset, hruns, if_true] at ht
  generalize setFld (setReg c (dlBase n.val + 4) w) (dlBase n.val + 4) 0 2 0 = mid at ht hset
  have hcw : reg64 mid (dlBase n.val + 0x10) = reg64 c (dlBase n.val + 0x10) :=
    reg64_congr fun o ho => hset.reg (by simp only [regAt, beq_eq_false_iff_ne]; omega)
  obtain ⟨hstate, hcode⟩ := haltDl_fields mid (n := n.val) (reason := 2) (by decide)
  rw [ht]
  refine ⟨hstate, hcode, fun h => ?_, ?_⟩
  · rw [← hcw] at h ⊢
    exact haltDl_cw (by decide) (by decide) h
  · exact (hset.mono (by simp) (by simp +contextual [regAt, regsAt])).trans ((haltDl_touches_stat mid n.val 2).mono (by simp) (by simp +contextual [regAt, regsAt]))

/-! ## A descriptor (R902 to R904) -/

/-- A valid descriptor is fetched. -/
theorem descriptor_fetched {c : Chip} {n a src dst len ctl next : Nat} (hn : n < 8) (hruns : dlRuns c n = true) (hx : (dlSt c n).xfer = none)
    (hp : (dlSt c n).pulse = false) (hon : dmaOn c = true) (ha : a = reg64 c (dlBase n + 0x20) ∧ a % 32 = 0)
    (hends : src = memNat zeroByte c.hostMem a 8 ∧ dst = memNat zeroByte c.hostMem (a + 8) 8)
    (hrest : len = memNat zeroByte c.hostMem (a + 0x10) 4 ∧ ctl = memNat zeroByte c.hostMem (a + 0x14) 4 ∧ next = memNat zeroByte c.hostMem (a + 0x18) 8)
    (hctl : natBits ctl 0 3 ≤ 4 ∧ natBits ctl 3 3 ≤ 4 ∧ natBits ctl 20 12 = 0 ∧ 1 ≤ len ∧ len ≤ 2 ^ 24)
    (hside : (natBits ctl 6 2 == 0) ≠ (natBits ctl 8 2 == 0) ∧ natBits ctl 8 2 < 2)
    (halign : xferAligned (natBits ctl 0 3) (natBits ctl 3 3) src dst len = true)
    (hspace : spaceOk (natBits ctl 6 2) src len (natBits ctl 12 4) = true ∧ spaceOk (natBits ctl 8 2) dst len (natBits ctl 16 4) = true) :
    descriptor c n = modDl c n fun d => { d with
      xfer := some { src := src, dst := dst, left := len, swrap := natBits ctl 12 4, dwrap := natBits ctl 16 4, sspace := natBits ctl 6 2,
                     dspace := natBits ctl 8 2, burst := 0, dw := natBits ctl 3 3 }
      notify := natBit ctl 10, last := natBit ctl 11, next := next } := by
  obtain ⟨hsw, hdw, hzero, hlo, hhi⟩ := hctl
  obtain ⟨hlen, hctl, hnext⟩ := hrest
  have hgo : ¬ (7 < n ∨ dlRuns c n = false ∨ (dlSt c n).xfer.isSome = true ∨ (dlSt c n).pulse = true ∨ dmaOn c = false) := by
    simp only [hruns, hx, hp, hon]
    simp
    omega
  simp only [descriptor, if_neg hgo, ← ha.1, Nat.add_zero, ← hends.1, ← hends.2, ← hlen, ← hctl, ← hnext]
  rw [if_neg]
  simp only [hsw, hdw, hzero, hlo, hhi, ha.2, halign, hspace.1, hspace.2, hside.2, bne_iff_ne.2 hside.1]
  simp

/-! ## Bursts of a descriptor channel (R905, R909) -/

/-- Chunks written one after another: the bytes that were written, and nothing below. -/
theorem chunks_written {e : Nat} (he : 0 < e) (a k : Nat) (bs : List Byte) (j : Nat) (c : Chip) {t : Chip}
    (ht : t = ((chop e k bs).zipIdx j).foldl (fun c (x : List Byte × Nat) => hostWrite c (a + x.2 * e) x.1) c) :
    (∀ i (h : i < bs.length), i < k * e → smGet zeroByte t.hostMem (a + j * e + i) = bs[i])
      ∧ ∀ p < a + j * e, smGet zeroByte t.hostMem p = smGet zeroByte c.hostMem p := by
  induction k generalizing bs j c with
  | zero =>
    rw [ht]
    exact ⟨fun i _ h => absurd h (by omega), fun _ _ => rfl⟩
  | succ k ih =>
    rw [chop, List.zipIdx_cons, List.foldl_cons] at ht
    obtain ⟨hin, hbelow⟩ := ih (bs.drop e) (j + 1) _ ht
    have hnext : a + (j + 1) * e = a + j * e + e := by rw [Nat.succ_mul, Nat.add_assoc]
    rw [hnext] at hin hbelow
    refine ⟨fun i hi hk => ?_, fun p hp => ?_⟩
    · by_cases hfirst : i < e
      · rw [hbelow _ (by omega)]
        have htake : i < (bs.take e).length := by rw [List.length_take]; omega
        exact (smGet_memWrite _ _ _ _ _ htake).trans List.getElem_take
      · have hlate := hin (i - e) (by rw [List.length_drop]; omega) (by rw [Nat.succ_mul] at hk; omega)
        rw [show a + j * e + e + (i - e) = a + j * e + i by omega, List.getElem_drop] at hlate
        rw [hlate]
        congr 1
        omega
    · rw [hbelow _ (by omega)]
      exact smGet_memWrite_other _ _ _ _ _ (.inl hp)

/-- A write to the host: its bytes, and nothing but the host's memory. -/
theorem spaceWrite_host {e : Nat} (he : 0 < e) (c : Chip) (fn a : Nat) (bs : List Byte) :
    (∀ i (h : i < bs.length), smGet zeroByte (spaceWrite c fn 0 0 e a bs).hostMem (a + i) = bs[i])
      ∧ Touches [.hostMem] noReg c (spaceWrite c fn 0 0 e a bs) := by
  have hfold : spaceWrite c fn 0 0 e a bs
      = ((chop e (ceilDiv bs.length e) bs).zipIdx 0).foldl (fun c (x : List Byte × Nat) => hostWrite c (a + x.2 * e) x.1) c := rfl
  refine ⟨fun i hi => ?_, ?_⟩
  · have hcover : i < ceilDiv bs.length e * e := by
      have hmod := Nat.div_add_mod (bs.length + e - 1) e
      have hlt := Nat.mod_lt (bs.length + e - 1) he
      rw [ceilDiv, Nat.mul_comm]
      omega
    have hin := (chunks_written he a (ceilDiv bs.length e) bs 0 c hfold).1 i hi hcover
    rwa [Nat.zero_mul, Nat.add_zero] at hin
  · rw [hfold]
    exact Touches.foldl _ _ (fun c x _ => (Touches.refl _ _ c).hostWrite _ _ (by simp)) c

theorem spaceByte_withEngine (c : Chip) (d : DmaSt) (fn space a : Nat) : spaceByte (withEngine c d) fn space a = spaceByte c fn space a := by
  have hreach : bar1Reach (withEngine c d) fn a = bar1Reach c fn a := by
    unfold bar1Reach
    rfl
  have hbar : bar1Byte (withEngine c d) a = bar1Byte c a := by
    unfold bar1Byte
    rfl
  have hbasin : basinByte (withEngine c d) fn a = basinByte c fn a := by
    unfold basinByte
    rfl
  unfold spaceByte
  rw [hreach, hbar, hbasin]
  rfl

theorem dlSt_chargeBurst (c : Chip) (n k : Nat) :
    dlSt (chargeBurst c (8 + n) k) n = { dlSt c n with credit := creditNow c (8 + n) - 8 * (k : Int), since := c.dma.now } := by
  rw [chargeBurst, if_neg (by omega), Nat.add_sub_cancel_left, dlSt_modDl_self]

/-- The node in which a descriptor channel of the turn is served. -/
def dlServed (c : Chip) (n cycles : Nat) : Chip :=
  { dmaCycles c cycles with dma := { (dmaCycles c cycles).dma with served := smPut (fun _ => 7) c.dma.served (dlFn c n) n } }

theorem ringEntry_dmaCycles (c : Chip) (k fn i : Nat) : ringEntry (dmaCycles c k) fn i = ringEntry c fn i := rfl

theorem contRun_dmaCycles (c : Chip) (k fn fuel i left : Nat) : contRun (dmaCycles c k) fn fuel i left = contRun c fn fuel i left := by
  induction fuel generalizing i left with
  | zero => rfl
  | succ fuel ih =>
    rw [contRun, contRun, ringEntry_dmaCycles]
    simp only [ih]

/-- Whether ring traffic waits does not depend on the engine's clock. -/
theorem ringWaits_dmaCycles (c : Chip) (k fn : Nat) : ringWaits (dmaCycles c k) fn = ringWaits c fn := by
  have hhead : headCommand (dmaCycles c k) fn = headCommand c fn := by
    unfold headCommand
    simp only [contRun_dmaCycles]
    rfl
  unfold ringWaits
  rw [hhead]
  rfl

/-- A burst of the channel whose turn it is. -/
theorem dmaBurst_served {c : Chip} {n limit cycles : Nat} {x : Xfer} (hon : dmaOn c = true)
    (hturn : dlTurn (dmaCycles c cycles) (dlFn c n) = some n) (hring : ringWaits c (dlFn c n) = false)
    (hx : (dlSt c n).xfer = some x) : dmaBurst c (8 + n) limit cycles = dlBurst (dlServed c n cycles) n limit x := by
  have hring' : ringWaits (dmaCycles c cycles) (dlFn (dmaCycles c cycles) n) = false := by
    rw [ringWaits_dmaCycles]
    exact hring
  have hx' : (dlSt (dmaCycles c cycles) n).xfer = some x := hx
  have hturn' : dlTurn (dmaCycles c cycles) (dlFn (dmaCycles c cycles) n) = some n := hturn
  simp only [dmaBurst, hon, Bool.not_true, Bool.false_eq_true, if_false, if_neg (show ¬ 8 + n < 8 by omega), Nat.add_sub_cancel_left, hring', dlServe,
    hx', hturn', Bool.not_false, Bool.true_and, beq_self_eq_true, if_true]
  rfl

/-- A burst that writes the host's memory and does not end its transfer. -/
theorem dlBurst_host {c : Chip} {n limit k : Nat} {x : Xfer} (hk : k = min 512 (if limit = 0 then 128 else limit)) (hmore : k < x.left)
    (hdst : x.dspace = 0 ∧ x.dwrap = 0) {t : Chip} (ht : t = dlBurst c n limit x) :
    dlSt t n = { dlSt c n with xfer := some (xferNext x k), credit := creditNow c (8 + n) - 8 * (k : Int), since := c.dma.now }
      ∧ t.dma.served = c.dma.served
      ∧ (∀ i < k, smGet zeroByte t.hostMem (x.dst + i) = spaceByte c (dlFn c n) x.sspace (wrapAdd x.swrap x.src i))
      ∧ Touches [.dma, .hostMem] noReg c t := by
  have hleft : (xferNext x k).left ≠ 0 := by simp only [xferNext]; omega
  rw [dlBurst] at ht
  simp only [← hk, Nat.min_eq_right (Nat.le_of_lt hmore), hdst.1, hdst.2, if_pos hleft] at ht
  generalize hbs : ((List.range k).map fun i => spaceByte c (dlFn c n) x.sspace (wrapAdd x.swrap x.src i)) = bs at ht
  obtain ⟨hbytes, hhost⟩ := spaceWrite_host (Nat.two_pow_pos x.dw) (chargeBurst c (8 + n) k) (dlFn c n) x.dst bs
  rw [show (2 : Nat) ^ x.dw = elemBytes x.dw from rfl] at hbytes hhost
  generalize spaceWrite (chargeBurst c (8 + n) k) (dlFn c n) 0 0 (elemBytes x.dw) x.dst bs = mid at ht hbytes hhost
  have hdma : mid.dma = (chargeBurst c (8 + n) k).dma := hhost.same .dma (by simp) (by simp)
  have hst : dlSt mid n = { dlSt c n with credit := creditNow c (8 + n) - 8 * (k : Int), since := c.dma.now } := by
    rw [← dlSt_chargeBurst, dlSt, hdma, dlSt]
  refine ⟨?_, ?_, fun i hi => ?_, ?_⟩
  · rw [ht, dlSt_modDl_self, hst]
  · have hserved : mid.dma.served = c.dma.served := by
      rw [hdma, chargeBurst, if_neg (by omega)]
      rfl
    rw [ht, ← hserved]
    rfl
  · have hlen : i < bs.length := by rw [← hbs, List.length_map, List.length_range]; exact hi
    rw [ht]
    refine (hbytes i hlen).trans ?_
    simp only [← hbs, List.getElem_map, List.getElem_range]
  · rw [ht]
    exact ((chargeBurst_touches c _ _ (by simp)).trans (hhost.mono (by simp) (by simp [noReg]))).modDl _ _ (by simp)

/-- A burst of a descriptor channel into the host's memory. -/
theorem dmaBurst_host {c : Chip} {n limit cycles k : Nat} {x : Xfer} (hon : dmaOn c = true) (hn : 8 ≤ n)
    (hturn : dlTurn (dmaCycles c cycles) (dlFn c (n - 8)) = some (n - 8)) (hring : ringWaits c (dlFn c (n - 8)) = false)
    (hx : (dlSt c (n - 8)).xfer = some x) (hk : k = min 512 (if limit = 0 then 128 else limit)) (hmore : k < x.left)
    (hdst : x.dspace = 0 ∧ x.dwrap = 0) {t : Chip} (ht : t = dmaBurst c n limit cycles) :
    (dlSt t (n - 8)).xfer = some { x with src := wrapAdd x.swrap x.src k, dst := x.dst + k, left := x.left - k }
      ∧ smGet (fun _ => 7) t.dma.served (dlFn c (n - 8)) = n - 8
      ∧ (dlSt t (n - 8)).credit = creditNow (dmaCycles c cycles) n - 8 * (k : Nat)
      ∧ (∀ i < k, smGet zeroByte t.hostMem (x.dst + i) = spaceByte c (dlFn c (n - 8)) x.sspace (wrapAdd x.swrap x.src i))
      ∧ Touches [.dma, .hostMem] noReg c t := by
  obtain ⟨m, rfl⟩ : ∃ m, n = 8 + m := ⟨n - 8, by omega⟩
  rw [Nat.add_sub_cancel_left] at *
  rw [dmaBurst_served hon hturn hring hx] at ht
  have hengine : dlServed c m cycles = withEngine c (dlServed c m cycles).dma := rfl
  obtain ⟨hst, hserved, hbytes, htouch⟩ := dlBurst_host hk hmore hdst ht
  refine ⟨?_, ?_, ?_, fun i hi => ?_, ?_⟩
  · rw [hst]
    simp only [xferNext, hdst.2, wrapAdd, if_true]
  · rw [hserved]
    exact smGet_smPut_self _ _ _ _
  · rw [hst]
    rfl
  · rw [hbytes i hi, hengine, spaceByte_withEngine]
    rfl
  · exact (dmaSt_touches (.refl _ _ c) _ (by simp)).trans htouch

/-- Out of its turn, or behind ring traffic, a descriptor channel moves nothing. -/
theorem dmaBurst_waits {c : Chip} {n limit cycles : Nat} (hon : dmaOn c = true) (hn : 8 ≤ n)
    (h : dlTurn (dmaCycles c cycles) (dlFn c (n - 8)) ≠ some (n - 8) ∨ ringWaits c (dlFn c (n - 8)) = true) :
    dmaBurst c n limit cycles = dmaCycles c cycles := by
  have hfn : dlFn (dmaCycles c cycles) (n - 8) = dlFn c (n - 8) := rfl
  have hno : ¬ (!ringWaits c (dlFn c (n - 8)) && dlTurn (dmaCycles c cycles) (dlFn c (n - 8)) == some (n - 8)) = true := by
    rw [Bool.and_eq_true, beq_iff_eq, Bool.not_eq_true']
    rintro ⟨hfree, hturn⟩
    exact h.elim (fun hne => hne hturn) fun hwaits => by simp [hwaits] at hfree
  simp only [dmaBurst, hon, Bool.not_true, Bool.false_eq_true, if_false, if_neg (show ¬ n < 8 by omega), ringWaits_dmaCycles, hfn, dlServe]
  split
  · exact if_neg hno
  · rfl

/-! ## The end of a descriptor, host errors, owners (R903, R907, R909, R910) -/

/-- A descriptor's completion pulse: NOTIFY counts and the next descriptor is current. -/
theorem endDesc_next {c : Chip} {n : Nat} (hlast : (dlSt c n).last = false) {t : Chip} (ht : t = endDesc c n true) :
    reg t (dlBase n + 0x1C) = reg c (dlBase n + 0x1C) + 1 ∧ reg64 t (dlBase n + 0x20) = (dlSt c n).next % 2 ^ 64 ∧ (dlSt t n).pulse = false
      ∧ Touches [.dma, .hostMem] (regIn (dlBase n + 0x1C) (dlBase n + 0x28)) c t := by
  have hin : ∀ k, 0x1C ≤ k → k < 0x28 → regIn (dlBase n + 0x1C) (dlBase n + 0x28) (dlBase n + k) = true := fun k hlo hhi => by
    rw [regIn_iff]
    omega
  simp only [endDesc, hlast, Bool.false_eq_true, if_true, if_false] at ht
  generalize hmid : setReg (modDl c n fun d => { d with pulse := false }) (dlBase n + 0x1C)
    (reg (modDl c n fun d => { d with pulse := false }) (dlBase n + 0x1C) + 1) = mid at ht
  have hcw := writeCw_touches mid n 0
  have hst : (dlSt mid n).pulse = false := by
    rw [← hmid]
    exact (congrArg DlSt.pulse (dlSt_modDl_self c n fun d => { d with pulse := false }) :)
  have hdma : (writeCw mid n 0).dma = mid.dma := hcw.same .dma (by simp) (by simp)
  refine ⟨?_, by rw [ht, reg64_setReg64], ?_, ?_⟩
  · rw [ht, setReg64, reg_setReg_other _ _ _ _ (by omega), reg_setReg_other _ _ _ _ (by omega), hcw.reg rfl, ← hmid, reg_setReg_self]
    rfl
  · rw [ht, dlSt_setReg64, dlSt, hdma]
    exact hst
  · rw [ht]
    have hset : Touches [.dma, .hostMem] (regIn (dlBase n + 0x1C) (dlBase n + 0x28)) c mid := by
      rw [← hmid]
      exact ((Touches.refl _ _ c).modDl n _ (by simp)).setReg _ (hin _ (by decide) (by decide))
    exact (hset.trans (hcw.mono (by simp) (by simp [noReg]))).setReg64 _ (hin _ (by decide) (by decide))
      (by rw [Nat.add_assoc]; exact hin _ (by decide) (by decide))

/-- The DMA block's registers are none of those that reporting writes, and set up no ring. -/
theorem dma_quiet {off : Nat} (h : 0x1A0000 ≤ off ∧ off < 0x1B0000) : reportReg off = false ∧ ringSetup off = false := by
  constructor
  · rw [← Bool.not_eq_true]
    simp only [reportReg, Bool.or_eq_true, Bool.and_eq_true, decide_eq_true_eq, beq_iff_eq]
    omega
  · rw [← Bool.not_eq_true]
    simp only [ringSetup, Bool.and_eq_true, regIn_iff]
    omega

/-- Without a completion word a halt writes the channel and STAT. -/
theorem haltDl_silent {c : Chip} {n : Nat} (reason : Nat) (h : reg64 c (dlBase n + 0x10) = 0) :
    Touches [.dma] (regAt (dlStat n)) c (haltDl c n reason) := by
  have hstat : regAt (dlStat n) (dlStat n) = true := by simp [regAt]
  have hhalt := (((Touches.refl [.dma] (regAt (dlStat n)) c).setFld 0 2 3 hstat).setFld 4 4 reason hstat).modDl n
    (fun d => { d with xfer := none, pulse := false }) (by simp)
  simp only [haltDl]
  generalize modDl (setFld (setFld c (dlStat n) 0 2 3) (dlStat n) 4 4 reason) n _ = mid at hhalt
  have hcw : reg64 mid (dlBase n + 0x10) = 0 :=
    (reg64_congr fun o ho => hhalt.reg (by simp only [regAt, beq_eq_false_iff_ne, dlStat]; omega)).trans h
  rw [writeCw]
  simp only [hcw, if_true]
  exact .ite hhalt hhalt

/-- A host error halts the channel with reason 7. -/
theorem dmaHostError_halts {c : Chip} {n kind : Nat} (hn : 8 ≤ n ∧ n < 16) (hruns : dlRuns c (n - 8) = true)
    (hcw : reg64 c (dlBase (n - 8) + 0x10) = 0) {t : Chip} (ht : t = dmaHostError c n kind) :
    fld t (dlStat (n - 8)) 0 2 = 3 ∧ fld t (dlStat (n - 8)) 4 4 = 7 ∧ Changes [.dma] (regAt (dlStat (n - 8))) c t := by
  obtain ⟨hquiet, hcalm⟩ := dma_quiet (off := dlStat (n - 8)) (by rw [dlStat, dlBase]; omega)
  have hpost : t = postError (haltDl c (n - 8) 7) 0x6B (srcDma n) kind := by
    rw [ht, dmaHostError, if_neg]
    rintro (hlow | hidle)
    · omega
    · simp [hruns] at hidle
  have hrep : Reports (haltDl c (n - 8) 7) t := hpost ▸ (Reports.refl _).postError _ _ _
  obtain ⟨hstate, hcode⟩ := haltDl_fields c (n := n - 8) (reason := 7) (by decide)
  have hstat := hrep.reg hquiet
  rw [fld, ← hstat] at hstate hcode
  exact ⟨hstate, hcode, (((Within.refl [.dma] (regAt_calm hcalm) c).touch (haltDl_silent 7 hcw) (by simp)).report hrep).changes⟩

def dlOwnRow : RegDesc := regN "DMA_DLn_OWN" 0x1A0400 8 0x40 [fu 0 4 .rwk 0xF, fu 8 9 .rwk 16]

theorem findReg_dlOwn (n : Fin 8) : findReg (dlBase n.val) = some dlOwnRow := by
  revert n
  decide +kernel

/-- OWN and its byte 1 after a write of byte 0 by the keeper. -/
theorem own_written (c : Chip) (n : Fin 8) {o : Nat} (ho : o < 16) :
    fld (setReg c (dlBase n.val) (keeperNow c (dlBase n.val) dlOwnRow o 255)) (dlBase n.val) 0 4 = o
      ∧ fld (setReg c (dlBase n.val) (keeperNow c (dlBase n.val) dlOwnRow o 255)) (dlBase n.val) 8 9 = fld c (dlBase n.val) 8 9 := by
  have hown := fld_keeperNow (d := dlOwnRow) rfl (f := fu 0 4 .rwk 0xF) (by simp [dlOwnRow, regN]) c (dlBase n.val) o 255
  have hrate := fld_keeperNow (d := dlOwnRow) rfl (f := fu 8 9 .rwk 16) (by simp [dlOwnRow, regN]) c (dlBase n.val) o 255
  refine ⟨hown.trans ((mergeField_en rfl _ _).trans ?_), hrate.trans (mergeField_dis rfl _ _)⟩
  show o / 1 % 16 = o
  rw [Nat.div_one, Nat.mod_eq_of_lt ho]

/-- The rates add up as before where one page keeps its rate. -/
theorem rateSum_congr {c t : Chip} {n : Nat} (h : ∀ off, off ≠ dlBase n → reg t off = reg c off) (hrate : fld t (dlBase n) 8 9 = fld c (dlBase n) 8 9) :
    rateSum t = rateSum c := by
  refine congrArg List.sum (List.map_congr_left fun i _ => ?_)
  rw [dmaRate, dmaRate]
  split
  · rw [fld, h _ (by rw [dpBase, dlBase]; omega), fld]
  · by_cases hi : i - 8 = n
    · rw [hi, hrate]
    · rw [fld, h _ (by rw [dlBase, dlBase]; omega), fld]

/-- The page of a channel that changes its owner: all but OWN at their defaults. -/
theorem dlClear_page (c : Chip) (n : Nat) {t : Chip} (ht : t = dlClear c n 10) :
    dlSt t n = dlDef n ∧ (∀ off, dlBase n + 4 ≤ off → off < dlBase n + 0x40 → reg t off = regDefault off)
      ∧ reg t (dlBase n) = reg c (dlBase n) ∧ Touches [.dma] (regIn (dlBase n) (dlBase n + 0x40)) c t := by
  have hstat : regIn (dlBase n) (dlBase n + 0x40) (dlStat n) = true := by
    rw [regIn_iff, dlStat]
    omega
  have hhalt : Touches [.dma] (regIn (dlBase n) (dlBase n + 0x40)) c (haltDl c n 10) :=
    (((Touches.refl _ _ c).setFld 0 2 3 hstat).setFld 4 4 10 hstat).modDl n _ (by simp)
  have hmid : Touches [.dma] (regIn (dlBase n) (dlBase n + 0x40)) c (if dlRuns c n then haltDl c n 10 else c) := .ite hhalt (.refl _ _ c)
  have hown : reg (if dlRuns c n then haltDl c n 10 else c) (dlBase n) = reg c (dlBase n) := by
    split
    · exact (reg_setFld_other _ _ _ _ _ _ (by rw [dlStat]; omega)).trans (reg_setFld_other _ _ _ _ _ _ (by rw [dlStat]; omega))
    · rfl
  rw [dlClear] at ht
  generalize (if dlRuns c n then haltDl c n 10 else c) = mid at ht hmid hown
  refine ⟨?_, fun off hlo hhi => ?_, ?_, ?_⟩
  · rw [ht]
    exact dlSt_modDl_self mid n _
  · rw [ht, reg, resetRegs, smGet_smKeep, if_neg (by simp; omega)]
  · rw [ht, reg_resetRegs_other _ (by omega)]
    exact hown
  · rw [ht]
    exact (hmid.modDl n _ (by simp)).resetRegs fun off hoff => by
      rw [regIn_iff] at hoff ⊢
      omega

/-- A write of OWN with an owner's code clears the page. -/
theorem dlOwnWrite_clears {c : Chip} (n : Fin 8) (o : Fin 16) (ho : o.val < 8 ∨ o.val = 15) (hrate : rateSum c ≤ 256) :
    dlOwnWrite c keeper n.val (BitVec.ofNat 32 o.val) 1
      = dlClear (setReg c (dlBase n.val) (keeperNow c (dlBase n.val) dlOwnRow o.val 255)) n.val 10 := by
  have hdata : ∀ o : Fin 16, dataOf (writeBytes (BitVec.ofNat 32 o.val) 1) = o.val ∧ maskOfBytes (writeBytes (BitVec.ofNat 32 o.val) 1) = 255 := by
    decide
  obtain ⟨hown, hkept⟩ := own_written c n o.isLt
  have hsum := rateSum_congr (c := c) (t := setReg c (dlBase n.val) (keeperNow c (dlBase n.val) dlOwnRow o.val 255))
    (fun off hoff => reg_setReg_other _ _ _ _ hoff) hkept
  rw [dlOwnWrite, writeWord_some hookDma (findReg_dlOwn n) (hdata o).1 (hdata o).2 (by decide) rfl,
    hookDma_dl (k := 0) n.isLt (by decide) rfl rfl, if_pos rfl]
  generalize hctx : keeperCtx c (dlBase n.val) dlOwnRow o.val 255 = x
  generalize keeperNow c (dlBase n.val) dlOwnRow o.val 255 = w at hown hsum ⊢
  have hoff : x.off = dlBase n.val := by rw [← hctx]; rfl
  have hmask : natBits x.mask 8 9 = 0 ∧ natBits x.mask 0 4 = 15 := by
    have heff : natBits (effMask 0 dlOwnRow.fields 255) 8 9 = 0 ∧ natBits (effMask 0 dlOwnRow.fields 255) 0 4 = 15 := by decide
    rw [← hctx]
    exact heff
  have hgood : x.badCode = false := by rw [← hctx]; rfl
  have hcode : ownerCode x (setReg c (dlBase n.val) w) = (setReg c (dlBase n.val) w, x) := by
    rw [ownerCode, hoff, hown, if_neg (by omega)]
  have hlist : (x.badCode || (decide (8 ≤ o.val) && o.val != 15)) = false := by
    rw [hgood, Bool.false_or, ← Bool.not_eq_true, Bool.and_eq_true, decide_eq_true_eq, bne_iff_ne]
    omega
  simp only [hcode, hookDl, hmask.1, hmask.2, hoff, bne_self_eq_false, Bool.and_false, Bool.false_eq_true, if_false, hsum,
    if_neg (not_lt.2 hrate), hown, hlist]
  rfl

/-- Settles O52: a descriptor channel's commands reach it through CTL and OWN; a burst writes chunk after chunk into the host's memory. -/
theorem descriptorChannelsComplete : Obligations.DescriptorChannelsComplete := by
  unfold Obligations.DescriptorChannelsComplete
  refine ⟨fun s n mem hidle hon hrate => ?_, fun s n hruns => ?_,
    fun s n a src dst len ctl next hruns hx hp hon ha hends hrest hctl hside halign hspace => ?_,
    fun s n limit cycles x k hon hn hturn hring hruns hx hk hmore hdst => ?_, fun s n limit cycles hon hn h => ?_,
    fun s n hn hpulse hlast => ?_, fun s n kind hn hruns hcw => ?_, fun s n o ho hrate => ?_⟩ <;> refine ⟨_, rfl, rfl, ?_⟩ <;> dsimp only
  · obtain ⟨hstate, hcur, hdone, hst, htouch⟩ := dlWrite_go (c := hostStores s.chip mem) hidle hon hrate rfl
    have hstores : Touches [.dma, .hostMem] (goPage n.val) s.chip (hostStores s.chip mem) :=
      (Touches.refl _ _ _).part (.hostMem _ _) (by simp)
    exact ⟨hstate, hcur, hdone, hst, htouch.same .hostMem (by simp) (by simp), hstores.trans (htouch.mono (by simp) fun _ h => h)⟩
  · exact dlWrite_stop hruns rfl
  · rw [descriptor_fetched n.isLt hruns hx hp hon ha hends hrest hctl hside halign hspace, dlSt_modDl_self]
    exact ⟨rfl, rfl, rfl, rfl, (Touches.refl _ _ _).modDl _ _ (by simp)⟩
  · obtain ⟨hxfer, hserved, hcredit, hbytes, htouch⟩ := dmaBurst_host hon hn hturn hring hx hk hmore hdst rfl
    exact ⟨hxfer, hserved, hcredit, fun i hi => hbytes i.val hi, htouch⟩
  · exact dmaBurst_waits hon hn h
  · refine endDesc_next hlast ?_
    simp only [completionPulse, if_neg (not_lt.2 hn), hpulse]
    rfl
  · exact dmaHostError_halts ⟨hn, n.isLt⟩ hruns hcw rfl
  · rw [dlOwnWrite_clears n o ho hrate]
    obtain ⟨hown, hkept⟩ := own_written s.chip n o.isLt
    obtain ⟨hst, hpage, hreg, htouch⟩ := dlClear_page (setReg s.chip (dlBase n.val) (keeperNow s.chip (dlBase n.val) dlOwnRow o.val 255)) n.val rfl
    refine ⟨?_, hst, hpage, ?_, ?_⟩
    · rw [dlOwner, fld, hreg]
      exact hown
    · rw [fld, hreg]
      exact hkept
    · exact ((Touches.refl _ _ _).setReg _ (by rw [regIn_iff]; omega)).trans htouch

end Sys2Proof.Machine
end

section
-- One proof at a time: every thread takes a stack of its own from the memory that a compile has.
set_option Elab.async false
/-! SUPPORT. Engine microcode (R1103 to R1111): the writes of NODE_UC_CTL and NODE_UC_DATA, and the end of STORE and ERASE. -/

namespace Sys2Proof.Machine

/-! ## NODE_UC_CTL -/

def ucCtlRow : RegDesc := reg1 "NODE_UC_CTL" 0x140 [fd 0 3 .rwk 0 (.enum 4), fd 4 2 .rwk 0 (.enum 2), fd 8 4 .ro 0, fd 31 1 .rwk 0]

theorem findReg_ucCtl : findReg 0x140 = some ucCtlRow := by decide +kernel

/-- A value of NODE_UC_CTL that starts an operation on an engine. -/
structure UcStarts (v : Word) (op e : Nat) : Prop where
  op : natBits v.toNat 0 3 = op ∧ op ≤ 4
  eng : natBits v.toNat 4 2 = e ∧ e ≤ 2
  go : natBit v.toNat 31 = true

/-- The node in which an operation starts: GO is read and cleared. -/
def ucGone (c : Chip) (v : Word) : Chip := setFlag (setReg c 0x140 (keeperNow c 0x140 ucCtlRow v.toNat (2 ^ 32 - 1))) 0x140 31 false

/-- A listed code is not reserved. -/
theorem fieldBad_enum {f : Fld} {last fn old data mask : Nat} (hrule : f.rule = .enum last) (h : mergeField old data mask f ≤ last) :
    fieldBad fn old data mask f = false := by
  simp only [fieldBad, hrule, decide_eq_false (not_lt.2 h), Bool.and_false]

/-- A whole write of NODE_UC_CTL with GO starts its operation, with none in progress. -/
theorem ucCtlWrite_eq {c : Chip} {v : Word} {op e : Nat} (hidle : c.upd.op = none) (h : UcStarts v op e) :
    ucCtlWrite c keeper v allBytes = ucOp (ucGone c v) op e := by
  have hbad : keeperBad c 0x140 ucCtlRow v.toNat (2 ^ 32 - 1) = false := by
    have hop : mergeField (reg c 0x140).toNat v.toNat (2 ^ 32 - 1) (fd 0 3 .rwk 0 (.enum 4)) = op := (mergeField_en rfl _ _).trans h.op.1
    have heng : mergeField (reg c 0x140).toNat v.toNat (2 ^ 32 - 1) (fd 4 2 .rwk 0 (.enum 2)) = e := (mergeField_en rfl _ _).trans h.eng.1
    have hop' := fieldBad_enum (fn := 0) rfl (hop.trans_le h.op.2)
    have heng' := fieldBad_enum (fn := 0) rfl (heng.trans_le h.eng.2)
    simp only [keeperBad, ucCtlRow, reg1, List.any_cons, List.any_nil, hop', heng']
    rfl
  have hhit : (keeperCtx c 0x140 ucCtlRow v.toNat (2 ^ 32 - 1)).hit 31 = true := by
    rw [keeperCtx_hit, h.go, Bool.and_true]
    decide
  have hfields : fld (ucGone c v) 0x140 0 3 = op ∧ fld (ucGone c v) 0x140 4 2 = e := by
    have hop := (fld_keeperNow (d := ucCtlRow) rfl (f := fd 0 3 .rwk 0 (.enum 4)) (by simp [ucCtlRow, reg1]) c 0x140 v.toNat (2 ^ 32 - 1)).trans
      (fieldAfter_en (by decide) _ _)
    have heng := (fld_keeperNow (d := ucCtlRow) rfl (f := fd 4 2 .rwk 0 (.enum 2)) (by simp [ucCtlRow, reg1]) c 0x140 v.toNat (2 ^ 32 - 1)).trans
      (fieldAfter_en (by decide) _ _)
    simp only [fd, ruleStore, h.op.1, h.eng.1, if_neg (not_lt.2 h.op.2), if_neg (not_lt.2 h.eng.2)] at hop heng
    exact ⟨(fld_setFld_field _ _ _ _ _ _ _ (by decide) (by decide)).trans hop, (fld_setFld_field _ _ _ _ _ _ _ (by decide) (by decide)).trans heng⟩
  rw [ucCtlWrite, writeWord_all hookUcCtl v findReg_ucCtl hbad, hookUcCtl, setReg_upd, hidle, if_neg (by simp)]
  dsimp only
  rw [hhit, if_neg (by simp), if_neg (show ¬ (keeperCtx c 0x140 ucCtlRow v.toNat (2 ^ 32 - 1)).badCode = true from Bool.eq_false_iff.1 hbad)]
  exact congrArg₂ (ucOp (ucGone c v)) hfields.1 hfields.2

theorem ucGone_touches (c : Chip) (v : Word) {rs : Nat → Bool} (hr : rs 0x140 = true) : Touches [.upd] rs c (ucGone c v) :=
  ((Touches.refl _ _ c).setReg _ hr).setFlag _ _ hr

theorem ucGone_upd (c : Chip) (v : Word) : (ucGone c v).upd = c.upd := by rw [ucGone, setFlag_upd, setReg_upd]

theorem domOn_ucGone (c : Chip) (v : Word) (n : Nat) : domOn (ucGone c v) n = domOn c n := by
  have hpwr : (ucGone c v).pwr = c.pwr := by rw [ucGone, setFlag_pwr, setReg_pwr]
  rw [domOn, dom, hpwr, domOn, dom]

theorem ucWait_ucGone (c : Chip) (v : Word) (e : Nat) : ucWait (ucGone c v) e = ucWait c e := by rw [ucWait, ucGone_upd, ucWait]

theorem ucStage_ucGone (c : Chip) (v : Word) (e : Nat) : ucStage (ucGone c v) e = ucStage c e := by rw [ucStage, ucGone_upd, ucStage]

/-- The checks of a package read the step code and nothing else of the node. -/
theorem pkgCheck_ucGone (c : Chip) (v : Word) (e : Nat) (p : List Byte) : pkgCheck (ucGone c v) e p = pkgCheck c e p := by
  have hstep : stepCode (ucGone c v) = stepCode c := by
    rw [stepCode, fld, (ucGone_touches c v (rs := regAt 0x140) rfl).reg (by decide), stepCode, fld]
  unfold pkgCheck
  rw [hstep]

/-- The registers of an operation that shows its store. -/
abbrev ucRegs : Nat → Bool := regsAt [0x140, 0x148]

theorem Touches.modUpd {ps : List Part} {rs : Nat → Bool} {a b : Chip} (h : Touches ps rs a b) (f : UpdSt → UpdSt) (hp : Part.upd ∈ ps) :
    Touches ps rs a (Machine.modUpd b f) := h.part (.upd b _) hp

theorem Touches.setUcResult {ps : List Part} {rs : Nat → Bool} {a b : Chip} (h : Touches ps rs a b) (r : Nat) (hr : rs 0x140 = true) :
    Touches ps rs a (Machine.setUcResult b r) := h.setFld _ _ _ hr

theorem setUcResult_upd (c : Chip) (r : Nat) : (setUcResult c r).upd = c.upd := setFld_upd _ _ _ _ _

theorem modUpd_upd (c : Chip) (f : UpdSt → UpdSt) : (modUpd c f).upd = f c.upd := rfl

theorem reg_modUpd (c : Chip) (f : UpdSt → UpdSt) (off : Nat) : reg (modUpd c f) off = reg c off := rfl

theorem fld_modUpd (c : Chip) (f : UpdSt → UpdSt) (off lo w : Nat) : fld (modUpd c f) off lo w = fld c off lo w := rfl

theorem flag_modUpd (c : Chip) (f : UpdSt → UpdSt) (off i : Nat) : flag (modUpd c f) off i = flag c off i := rfl

theorem setUcResult_result (c : Chip) {r : Nat} (h : r < 16) : fld (setUcResult c r) 0x140 8 4 = r :=
  (fld_setFld_self c _ _ _ _ (by decide)).trans (Nat.mod_eq_of_lt h)

/-! ## OPEN, APPLY, STORE and ERASE -/

theorem ucOp_open {c : Chip} {e : Nat} (he : e = 1 ∨ e = 2) (hwait : ucWait c e = none) {t : Chip} (ht : t = ucOp c 1 e) :
    ucStage t e = [] ∧ t.upd.openEng = e ∧ fld t 0x148 0 19 = 0 ∧ fld t 0x140 8 4 = 0 ∧ Touches [.upd] ucRegs c t := by
  have hopen : t = setUcResult (ucOpen c e) 0 := by
    rw [ht, ucOp, if_neg (by omega), hwait, if_neg (by simp)]
  have hupd : t.upd = { c.upd with stage := smPut bytesDef c.upd.stage e [], openEng := e } := by
    rw [hopen, setUcResult_upd, ucOpen, setFld_upd, modUpd_upd]
  refine ⟨by rw [ucStage, hupd, smGet_smPut_self], by rw [hupd], ?_⟩
  rw [hopen]
  refine ⟨?_, setUcResult_result _ (by decide), ?_⟩
  · exact (fld_setFld_other _ _ _ _ _ _ _ _ (by decide)).trans (fld_setFld_self _ _ _ _ _ (by decide))
  · exact (((Touches.refl _ _ c).modUpd _ (by simp)).setFld _ _ _ (by decide)).setUcResult _ (by decide)

/-- The check of a package answers a code of RESULT. -/
theorem pkgCheck_lt (c : Chip) (e : Nat) (p : List Byte) : pkgCheck c e p < 16 := by
  unfold pkgCheck
  dsimp only
  split_ifs <;> decide

theorem ucOp_apply {c : Chip} {e : Nat} (he : e = 1 ∨ e = 2) (hwait : ucWait c e = none) (hon : domOn c (ucDomain e) = true) {t : Chip}
    (ht : t = ucOp c 2 e) :
    fld t 0x140 8 4 = pkgCheck c e (ucStage c e) ∧ ucWait t e = (if pkgCheck c e (ucStage c e) = 0 then some (ucStage c e) else none)
      ∧ Touches [.upd] ucRegs c t := by
  have happly : ucOp c 2 e = ucApply c e := by
    rw [ucOp, if_neg (by omega), hwait, if_neg (by simp)]
  rw [happly] at ht
  simp only [ucApply, hon, Bool.not_true, Bool.false_eq_true, if_false] at ht
  by_cases hok : pkgCheck c e (ucStage c e) = 0
  · simp only [hok, ne_eq, not_true_eq_false, if_false] at ht
    rw [ht, hok, if_pos rfl]
    refine ⟨setUcResult_result _ (by decide), ?_, ?_⟩
    · rw [ucWait, setUcResult_upd, setFlag_upd, modUpd_upd, smGet_smPut_self]
    · exact (((Touches.refl _ _ c).modUpd _ (by simp)).setFlag _ _ (by decide)).setUcResult _ (by decide)
  · rw [if_pos hok] at ht
    rw [ht, if_neg hok]
    exact ⟨setUcResult_result _ (pkgCheck_lt _ _ _), by rw [ucWait, setUcResult_upd]; exact hwait, (Touches.refl _ _ c).setUcResult _ (by decide)⟩

/-- STORE and ERASE begin. -/
theorem ucOp_begins {c : Chip} {op e : Nat} (he : e = 1 ∨ e = 2) (hop : op = 3 ∨ op = 4) (hwait : ucWait c e = none) {t : Chip}
    (ht : t = ucOp c op e) :
    t.upd = { c.upd with op := some (e, op) } ∧ flag t 0x140 31 = true ∧ fld t 0x140 8 4 = 1 ∧ Touches [.upd] (regAt 0x140) c t := by
  have hbegin : t = setUcResult (setFlag (modUpd c fun u => { u with op := some (e, op) }) 0x140 31 true) 1 := by
    rcases hop with rfl | rfl <;> rw [ht, ucOp, if_neg (by omega), hwait, if_neg (by simp)]
  rw [hbegin]
  refine ⟨by rw [setUcResult_upd, setFlag_upd, modUpd_upd], ?_, setUcResult_result _ (by decide), (((Touches.refl _ _ c).modUpd _ (by simp)).setFlag _ _ rfl).setUcResult _ rfl⟩
  rw [setUcResult, flag_setFld_bit _ _ _ _ _ _ (by decide) (by decide), flag_setFlag_self _ _ _ _ (by decide)]

/-! ## NODE_UC_DATA -/

def ucDataRow : RegDesc := reg1 "NODE_UC_DATA" 0x144 [fd 0 32 .wo 0]

theorem findReg_ucData : findReg 0x144 = some ucDataRow := by decide +kernel

theorem ucDataWrite_appends {c : Chip} {v : Word} (hopen : c.upd.openEng ≠ 0) (hroom : (ucStage c c.upd.openEng).length + 4 ≤ ucMax)
    {t : Chip} (ht : t = ucDataWrite c keeper v allBytes) :
    ucStage t c.upd.openEng = ucStage c c.upd.openEng ++ natLe 4 v.toNat ∧ fld t 0x148 0 19 = (ucStage c c.upd.openEng).length + 4
      ∧ Touches [.upd] (regsAt [0x144, 0x148]) c t := by
  have hmask : (keeperCtx c 0x144 ucDataRow v.toNat (2 ^ 32 - 1)).mask = 0xFFFFFFFF := by
    have heff : effMask 0 ucDataRow.fields (2 ^ 32 - 1) = 0xFFFFFFFF := by decide
    exact heff
  have hlen : (ucStage c c.upd.openEng ++ natLe 4 v.toNat).length = (ucStage c c.upd.openEng).length + 4 := by
    rw [List.length_append]
    rfl
  rw [ucDataWrite, writeWord_all hookUcData v findReg_ucData rfl] at ht
  generalize keeperNow c 0x144 ucDataRow v.toNat (2 ^ 32 - 1) = w at ht
  have hstage : ucStage (setReg c 0x144 w) c.upd.openEng = ucStage c c.upd.openEng := rfl
  simp only [hookUcData, setReg_upd, hopen, hmask, ne_eq, not_true_eq_false, or_self, if_false, hstage] at ht
  have hdata : (keeperCtx c 0x144 ucDataRow v.toNat (2 ^ 32 - 1)).data = v.toNat := rfl
  rw [hdata, List.take_of_length_le (hlen.trans_le hroom), if_neg (by omega)] at ht
  rw [ht]
  refine ⟨smGet_smPut_self _ _ _ _, ?_, ?_⟩
  · rw [fld_setFld_self _ _ _ _ _ (by decide), hlen, Nat.mod_eq_of_lt]
    rw [ucMax] at hroom
    omega
  · exact (((Touches.refl _ _ c).setReg _ (by decide)).modUpd _ (by simp)).setFld _ _ _ (by decide)

/-! ## The end of STORE and ERASE -/

/-- The node in which an operation has ended. -/
def ucEnded (c : Chip) : Chip := setUcResult (setFlag (modUpd c fun u => { u with op := none }) 0x140 31 false) 0

theorem ucEnded_touches (c : Chip) : Touches [.upd] ucRegs c (ucEnded c) :=
  (((Touches.refl _ _ c).modUpd _ (by simp)).setFlag _ _ (by decide)).setUcResult _ (by decide)

theorem ucEnded_upd (c : Chip) : (ucEnded c).upd = { c.upd with op := none } := by
  rw [ucEnded, setUcResult_upd, setFlag_upd, modUpd_upd]

theorem ucEnded_shows (c : Chip) : flag (ucEnded c) 0x140 31 = false ∧ fld (ucEnded c) 0x140 8 4 = 0 := by
  refine ⟨?_, setUcResult_result _ (by decide)⟩
  rw [ucEnded, setUcResult, flag_setFld_bit _ _ _ _ _ _ (by decide) (by decide), flag_setFlag_self _ _ _ _ (by decide)]

/-- What the slots hold does not depend on the operation in progress. -/
theorem ucSlots_ended (c : Chip) (e : Nat) : olderSlot (ucEnded c) e = olderSlot c e ∧ (∀ k, slotGen (ucEnded c) e k = slotGen c e k)
    ∧ ucForce (ucEnded c) e = ucForce c e := by
  have hslot : ∀ k, ucSlot (ucEnded c) e k = ucSlot c e k := fun k => by rw [ucSlot, ucEnded_upd, ucSlot]
  have hgen : ∀ k, slotGen (ucEnded c) e k = slotGen c e k := fun k => by rw [slotGen, hslot, slotGen]
  exact ⟨by rw [olderSlot, hslot, hslot, hgen, hgen, olderSlot], hgen, by rw [ucForce, ucEnded_upd, ucForce]⟩

theorem ucStoreEnd_upd (c : Chip) (e : Nat) : (ucStoreEnd (ucEnded c) e).upd = { c.upd with
    slots := smPut slotDef c.upd.slots (e * 2 + olderSlot c e) (some (max (slotGen c e 0) (slotGen c e 1) + 1, (ucForce c e).getD [])), op := none } := by
  obtain ⟨holder, hgen, hforce⟩ := ucSlots_ended c e
  rw [ucStoreEnd, setUcSrc, setFld_upd, modUpd_upd, holder, hgen, hgen, hforce, ucEnded_upd]

/-- A STORE ends with the microcode in force in the older slot. -/
theorem ucStoreDone_store {c : Chip} {e : Nat} (he : e = 1 ∨ e = 2) (hop : c.upd.op = some (e, 3)) {t : Chip} (ht : t = ucStoreDone c) :
    ucSlot t e (olderSlot c e) = some (max (slotGen c e 0) (slotGen c e 1) + 1, (ucForce c e).getD [])
      ∧ ucSrc t e = olderSlot c e + 1 ∧ t.upd.op = none ∧ flag t 0x140 31 = false ∧ fld t 0x140 8 4 = 0 ∧ Touches [.upd] ucRegs c t := by
  have hend : t = ucStoreEnd (ucEnded c) e := by
    rw [ht, ucStoreDone, hop]
    exact if_pos rfl
  have hslot : olderSlot c e < 2 := by
    unfold olderSlot
    split_ifs <;> decide
  obtain ⟨hidle, hresult⟩ := ucEnded_shows c
  rw [hend]
  have hupd := ucStoreEnd_upd c e
  refine ⟨by rw [ucSlot, hupd, smGet_smPut_self], ?_, by rw [hupd], ?_, ?_, ?_⟩
  · rw [ucSrc, ucStoreEnd, setUcSrc, fld_setFld_self _ _ _ _ _ (by omega), (ucSlots_ended c e).1, Nat.mod_eq_of_lt (by omega)]
  · rw [ucStoreEnd, setUcSrc, flag_setFld_other _ _ _ _ _ _ _ (by decide), flag_modUpd, hidle]
  · rw [ucStoreEnd, setUcSrc, fld_setFld_other _ _ _ _ _ _ _ _ (by decide), fld_modUpd, hresult]
  · rw [ucStoreEnd, setUcSrc]
    exact (((ucEnded_touches c).modUpd _ (by simp)).setFld _ _ _ (by decide))

/-- An ERASE ends with both slots erased. -/
theorem ucStoreDone_erase {c : Chip} {e : Nat} (hop : c.upd.op = some (e, 4)) {t : Chip} (ht : t = ucStoreDone c) :
    ucSlot t e 0 = none ∧ ucSlot t e 1 = none ∧ t.upd.op = none ∧ flag t 0x140 31 = false ∧ fld t 0x140 8 4 = 0 ∧ Touches [.upd] ucRegs c t := by
  have hend : t = ucEraseEnd (ucEnded c) e := by
    rw [ht, ucStoreDone, hop]
    exact if_neg (by decide)
  obtain ⟨hidle, hresult⟩ := ucEnded_shows c
  rw [ucEraseEnd] at hend
  generalize hmid : (modUpd (ucEnded c) fun u => { u with slots := smDel (smDel u.slots (e * 2)) (e * 2 + 1) }) = mid at hend
  have htouch : Touches [.upd] ucRegs c mid := hmid ▸ (ucEnded_touches c).modUpd _ (by simp)
  have hupd : t.upd = mid.upd := by
    rw [hend]
    split
    · rfl
    · exact setFld_upd _ _ _ _ _
  have hslots : t.upd.slots = smDel (smDel c.upd.slots (e * 2)) (e * 2 + 1) ∧ t.upd.op = none := by
    rw [hupd, ← hmid, modUpd_upd, ucEnded_upd]
    exact ⟨rfl, rfl⟩
  have hsrc : Touches [.upd] (regAt 0x148) mid t := by
    rw [hend]
    exact .ite (.refl _ _ _) ((Touches.refl _ _ mid).setFld _ _ _ rfl)
  have hctl : reg t 0x140 = reg (ucEnded c) 0x140 := (hsrc.reg (by decide)).trans (by rw [← hmid, reg_modUpd])
  refine ⟨?_, ?_, hslots.2, ?_, ?_, htouch.trans (hsrc.mono (by simp) (by simp +contextual [regAt, regsAt]))⟩
  · rw [ucSlot, hslots.1, smGet_smDel, smGet_smDel]
    simp [slotDef]
  · rw [ucSlot, hslots.1, smGet_smDel]
    simp [slotDef]
  · rw [← hidle, flag, flag, fld, hctl, fld]
  · rw [← hresult, fld, hctl, fld]

theorem ucStarts_open (e : Fin 3) : UcStarts (BitVec.ofNat 32 (0x80000001 + e.val * 16)) 1 e.val where
  op := by revert e; decide
  eng := by revert e; decide
  go := by revert e; decide

theorem ucStarts_apply (e : Fin 3) : UcStarts (BitVec.ofNat 32 (0x80000002 + e.val * 16)) 2 e.val where
  op := by revert e; decide
  eng := by revert e; decide
  go := by revert e; decide

theorem ucStarts_store (e : Fin 3) : UcStarts (BitVec.ofNat 32 (0x80000003 + e.val * 16)) 3 e.val where
  op := by revert e; decide
  eng := by revert e; decide
  go := by revert e; decide

theorem ucStarts_erase (e : Fin 3) : UcStarts (BitVec.ofNat 32 (0x80000004 + e.val * 16)) 4 e.val where
  op := by revert e; decide
  eng := by revert e; decide
  go := by revert e; decide

/-- Settles O55: OPEN, APPLY, STORE and ERASE start through NODE_UC_CTL, the data register appends, and an operation that ends clears GO. -/
theorem microcodeCommandsComplete : Obligations.MicrocodeCommandsComplete := by
  have heng : ∀ e : Fin 3, e ≠ 0 → (e.val = 1 ∨ e.val = 2) := by decide
  unfold Obligations.MicrocodeCommandsComplete
  refine ⟨fun s e he hidle hwait => ?_, fun s v hopen hroom => ?_, fun s e he hidle hwait hon => ?_, fun s e he hidle hwait => ⟨?_, ?_⟩,
    fun s e he hop => ?_, fun s e he hop => ?_⟩ <;> refine ⟨_, rfl, rfl, ?_⟩ <;> dsimp only
  · rw [ucCtlWrite_eq hidle (ucStarts_open e)]
    obtain ⟨hstage, heng', hcount, hresult, htouch⟩ := ucOp_open (c := ucGone s.chip (BitVec.ofNat 32 (0x80000001 + e.val * 16))) (heng e he) ((ucWait_ucGone _ _ _).trans hwait) rfl
    exact ⟨hstage, heng', hcount, hresult, (ucGone_touches _ _ (by decide)).trans htouch⟩
  · exact ucDataWrite_appends hopen hroom rfl
  · rw [ucCtlWrite_eq hidle (ucStarts_apply e)]
    have hon' : domOn (ucGone s.chip (BitVec.ofNat 32 (0x80000002 + e.val * 16))) (ucDomain e.val) = true :=
      (domOn_ucGone _ _ _).trans hon
    obtain ⟨hresult, hnow, htouch⟩ := ucOp_apply (c := ucGone s.chip (BitVec.ofNat 32 (0x80000002 + e.val * 16))) (heng e he) ((ucWait_ucGone _ _ _).trans hwait) hon' rfl
    rw [ucStage_ucGone, pkgCheck_ucGone] at hresult hnow
    exact ⟨hresult, hnow, (ucGone_touches _ _ (by decide)).trans htouch⟩
  · rw [ucCtlWrite_eq hidle (ucStarts_store e)]
    obtain ⟨hupd, hbusy, hresult, htouch⟩ := ucOp_begins (c := ucGone s.chip (BitVec.ofNat 32 (0x80000003 + e.val * 16))) (heng e he) (.inl rfl) ((ucWait_ucGone _ _ _).trans hwait) rfl
    exact ⟨by rw [hupd, ucGone_upd], hbusy, hresult, (ucGone_touches _ _ rfl).trans htouch⟩
  · rw [ucCtlWrite_eq hidle (ucStarts_erase e)]
    obtain ⟨hupd, hbusy, hresult, htouch⟩ := ucOp_begins (c := ucGone s.chip (BitVec.ofNat 32 (0x80000004 + e.val * 16))) (heng e he) (.inr rfl) ((ucWait_ucGone _ _ _).trans hwait) rfl
    exact ⟨by rw [hupd, ucGone_upd], hbusy, hresult, (ucGone_touches _ _ rfl).trans htouch⟩
  · exact ucStoreDone_store (heng e he) hop rfl
  · exact ucStoreDone_erase hop rfl

end Sys2Proof.Machine
end

section
-- One proof at a time: every thread takes a stack of its own from the memory that a compile has.
set_option Elab.async false
/-! SUPPORT. The frames of the call panels (R759 to R766). -/

namespace Sys2Proof.Machine

theorem Touches.modCall {ps : List Part} {rs : Nat → Bool} {a b : Chip} (h : Touches ps rs a b) (f : CallSt → CallSt) (hp : Part.call ∈ ps) :
    Touches ps rs a (Machine.modCall b f) := h.part (.call b _) hp

theorem Touches.modCan {ps : List Part} {rs : Nat → Bool} {a b : Chip} (h : Touches ps rs a b) (n : Nat) (f : CanSt → CanSt) (hp : Part.can ∈ ps) :
    Touches ps rs a (Machine.modCan b n f) := h.part (.can b _) hp

theorem Touches.setBuf {ps : List Part} {rs : Nat → Bool} {a b : Chip} (h : Touches ps rs a b) (n i : Nat) (x : Option CanTx) (hp : Part.can ∈ ps) :
    Touches ps rs a (Machine.setBuf b n i x) := h.modCan n _ hp

/-- A frame of the call goes into a transmit buffer and nowhere else. -/
theorem callSend_touches (c : Chip) (data : List Byte) : Touches [.can] noReg c (callSend c data) := by
  unfold callSend
  dsimp only
  split
  · exact .refl _ _ c
  · split
    · exact .refl _ _ c
    · split
      · exact .ite ((Touches.refl _ _ c).setBuf _ _ _ (by simp)) ((Touches.refl _ _ c).setBuf _ _ _ (by simp))
      · exact (Touches.refl _ _ c).setBuf _ _ _ (by simp)

theorem callSend_call (c : Chip) (data : List Byte) : (callSend c data).call = c.call :=
  (callSend_touches c data).same .call (by simp) (by simp)

/-- An ACCEPT frame that restarts its panel's numbers is new: it joins the acceptances and is acknowledged. -/
theorem callAcceptFrame_restart {c : Chip} {n : Nat} {data : List Byte} (hrestart : natBit (byteAt data 1) 0 = true) {t : Chip}
    (ht : t = callAcceptFrame c n data) :
    t.call.accs = c.call.accs ++ [{ entry := byteAt data 4, cmd := none }]
      ∧ smGet (fun _ => none) t.call.last n = some (leNat ((padTo 8 data).drop 2 |>.take 2))
      ∧ t.call.ackSent = some (n, leNat ((padTo 8 data).drop 2 |>.take 2)) ∧ Touches [.call, .can] noReg c t := by
  simp only [callAcceptFrame, hrestart, Bool.not_true, Bool.false_and, Bool.false_eq_true, if_false] at ht
  rw [ht]
  refine ⟨?_, ?_, ?_, ?_⟩
  · rw [callSend_call]
    rfl
  · rw [callSend_call]
    simp only [modCall, smGet_smPut_self]
  · rw [callSend_call]
    rfl
  · exact (((Touches.refl [.call, .can] noReg c).modCall _ (by simp)).modCall _ (by simp)).trans
      ((callSend_touches _ _).mono (by simp) fun _ h => h)

/-- A frame in repetition goes out once more. -/
theorem callTransmit_sent (c : Chip) (f : CallFrame) {t : Chip} (ht : t = callTransmit c f) :
    t.call.frame = (if frameAcked f then none else some { f with sent := f.sent + 1 }) ∧ Touches [.call, .can] noReg c t := by
  rw [callTransmit] at ht
  refine ⟨?_, ?_⟩
  · rw [ht, callSend_call]
    rfl
  · rw [ht]
    exact ((Touches.refl [.call, .can] noReg c).modCall _ (by simp)).trans ((callSend_touches _ _).mono (by simp) fun _ h => h)

/-- Settles O45: what the call unit takes of a panel's frame, and what the repetition of its own frame does. -/
theorem callCommandsComplete : Obligations.CallCommandsComplete := by
  unfold Obligations.CallCommandsComplete
  refine ⟨fun s p data hhears hkind hrestart => ?_, fun s p data f hhears hkind hframe hdue hseq => ?_,
    fun s f hframe hdue hmore => ?_, fun s f hframe hdue hlast => ?_⟩ <;> refine ⟨_, rfl, rfl, ?_⟩ <;> dsimp only
  · refine callAcceptFrame_restart hrestart ?_
    rw [acceptFrom, hhears, hkind]
    rfl
  · have hack : ackFrom s.chip p.val data = callAckFrame s.chip p.val data := by
      rw [ackFrom, hhears, hkind]
      rfl
    rw [hack, callAckFrame, hframe]
    dsimp only
    rw [if_pos ⟨hseq, hdue⟩]
    exact ⟨rfl, (Touches.refl _ _ _).modCall _ (by simp)⟩
  · refine callTransmit_sent s.chip f ?_
    have hgo : (f.clear && decide (40 ≤ f.sent)) = false := by
      rcases hmore with h | h
      · rw [h, Bool.false_and]
      · rw [decide_eq_false (by omega), Bool.and_false]
    simp only [callFrameRepeat, hframe, hdue, hgo]
    rfl
  · have hend : callFrameRepeat s.chip = modCall (setFld s.chip 0x170018 0 16
        (fld s.chip 0x170018 0 16 ||| (f.targets - (f.targets &&& f.acked)))) fun k => { k with frame := none } := by
      simp only [callFrameRepeat, hframe, hdue, hlast.1, decide_eq_true hlast.2]
      rfl
    rw [hend]
    exact ⟨rfl, fld_setFld_self _ _ _ _ _ (by decide), ((Touches.refl _ _ _).setFld _ _ _ rfl).modCall _ (by simp)⟩

end Sys2Proof.Machine
end

section
-- One proof at a time: every thread takes a stack of its own from the memory that a compile has.
set_option Elab.async false
/-! SUPPORT. The transmit buffers of a CAN controller (R925 to R931). -/

namespace Sys2Proof.Machine

/-! ## Buffers -/

theorem canSt_congr {c t : Chip} (h : t.can = c.can) (n : Nat) : canSt t n = canSt c n := by rw [canSt, h, canSt]

theorem canBuf_congr {c t : Chip} (h : t.can = c.can) (n b : Nat) : canBuf t n b = canBuf c n b := by rw [canBuf, canSt_congr h, canBuf]

theorem canSt_modCan (c : Chip) (n : Nat) (f : CanSt → CanSt) : canSt (modCan c n f) n = f (canSt c n) := smGet_smMod_self _ _ _ _

theorem canBuf_setBuf (c : Chip) (n b k : Nat) (x : Option CanTx) : canBuf (setBuf c n b x) n k = if k = b then x else canBuf c n k := by
  rw [canBuf, setBuf, canSt_modCan]
  exact smGet_smPut _ _ _ _ _

theorem canBuf_setBuf_self (c : Chip) (n b : Nat) (x : Option CanTx) : canBuf (setBuf c n b x) n b = x := by
  rw [canBuf_setBuf, if_pos rfl]

/-- The buffer on the bus is one of the three. -/
theorem onBusBuf_le {c : Chip} {n b : Nat} (h : onBusBuf c n = some b) : b ≤ 2 := by
  have hmem := List.mem_of_find?_eq_some h
  simp only [List.mem_cons, List.not_mem_nil, or_false] at hmem
  omega

/-- No frame of the call waits for the buffer. -/
def NoCallWaits (c : Chip) (n b : Nat) : Prop := b ≠ 2 ∨ canBuf c n 3 = none

/-- A buffer's frame leaves it, and its command completes. -/
theorem endBuf_ends {c : Chip} {n b : Nat} {x : CanTx} (hbuf : canBuf c n b = some x) (hwait : NoCallWaits c n b) (status result : Nat) {t : Chip}
    (ht : t = endBuf c n b status result) : canBuf t n b = none ∧ Reports (setBuf c n b none) t := by
  have hreport : Reports (setBuf c n b none) (canComplete (setBuf c n b none) n b x status result) := (Reports.refl _).completeWhere _ _
  have hcan : (canComplete (setBuf c n b none) n b x status result).can = (setBuf c n b none).can := hreport.same .can (by decide)
  have hend : t = canComplete (setBuf c n b none) n b x status result := by
    rw [ht, endBuf, hbuf]
    dsimp only
    split
    · next h2 =>
      have hnone : canBuf (canComplete (setBuf c n b none) n b x status result) n 3 = none := by
        rw [canBuf_congr hcan, canBuf_setBuf, if_neg (by omega)]
        exact hwait.resolve_left (by simpa using h2)
      rw [hnone]
    · rfl
  rw [hend]
  exact ⟨by rw [canBuf_congr hcan, canBuf_setBuf_self], hreport⟩

/-! ## Outcomes -/

/-- The registers of a controller below its filters. -/
def canPage (n : Nat) : Nat → Bool := regIn (canBase n) (canBase n + 0x100)

theorem canPage_mem {n k : Nat} (h : k < 0x100) : canPage n (canBase n + k) = true := by
  rw [canPage, regIn_iff]
  omega

/-- The registers of the CAN controllers are none of those that reporting writes, and set up no ring. -/
theorem can_quiet {off : Nat} (h : 0x1B0000 ≤ off ∧ off < 0x1C0000) : reportReg off = false ∧ ringSetup off = false := by
  constructor
  · rw [← Bool.not_eq_true]
    simp only [reportReg, Bool.or_eq_true, Bool.and_eq_true, decide_eq_true_eq, beq_iff_eq]
    omega
  · rw [← Bool.not_eq_true]
    simp only [ringSetup, Bool.and_eq_true, regIn_iff]
    omega

theorem canPage_calm {n : Nat} (hn : n < 8) (off : Nat) (h : canPage n off = true) : ringSetup off = false := by
  rw [canPage, regIn_iff, canBase] at h
  exact (can_quiet (by omega)).2

theorem setErrState_touches {ps : List Part} {rs : Nat → Bool} {a b : Chip} (h : Touches ps rs a b) (n : Nat) (hr : rs (canStatReg n) = true) :
    Touches ps rs a (setErrState b n) := .ite h (h.setFld _ _ _ hr)

/-- What a frame that was sent leaves in the registers before it leaves its buffer. -/
def frameStamped (c : Chip) (n b ts : Nat) (x : CanTx) : Chip :=
  let c2 := setReg (setReg c (canBase n + 0x20 + b * 8) (BitVec.ofNat 32 ts)) (canBase n + 0x24 + b * 8) (BitVec.ofNat 32 (ts / 2 ^ 32))
  let c3 := setErrState (setFld c2 (canErr n) 0 8 (fld c2 (canErr n) 0 8 - 1)) n
  if natBit x.fmt 2 && flag c3 (canBase n + 0xC) 0 then setFld (takeFree c3) (canBase n + 0xC) 16 8 (Config.freeValue c3.free) else c3

theorem frameSent_eq (c : Chip) (n b ts : Nat) (x : CanTx) : frameSent c n b ts x = endBuf (frameStamped c n b ts x) n b stSuccess 0 := rfl

/-- The registers that follow a stamp: the error counter, the error state and the measured delay. -/
def afterStamp (n : Nat) : Nat → Bool := regsAt [canErr n, canStatReg n, canBase n + 0xC]

theorem frameStamped_stamps (c : Chip) {n b : Nat} (hb : b ≤ 2) (ts : Nat) (x : CanTx) {t : Chip} (ht : t = frameStamped c n b ts x) :
    reg t (canBase n + 0x20 + b * 8) = BitVec.ofNat 32 ts ∧ reg t (canBase n + 0x24 + b * 8) = BitVec.ofNat 32 (ts / 2 ^ 32)
      ∧ Touches [.free] (canPage n) c t := by
  generalize hset : setReg (setReg c (canBase n + 0x20 + b * 8) (BitVec.ofNat 32 ts)) (canBase n + 0x24 + b * 8) (BitVec.ofNat 32 (ts / 2 ^ 32)) = c2
  have hstamp : reg c2 (canBase n + 0x20 + b * 8) = BitVec.ofNat 32 ts ∧ reg c2 (canBase n + 0x24 + b * 8) = BitVec.ofNat 32 (ts / 2 ^ 32) := by
    rw [← hset, reg_setReg_other _ _ _ _ (by omega), reg_setReg_self, reg_setReg_self]
    exact ⟨rfl, rfl⟩
  have hrest : Touches [.free] (afterStamp n) c2 t := by
    rw [ht, frameStamped, hset]
    have herr : Touches [.free] (afterStamp n) c2 (setErrState (setFld c2 (canErr n) 0 8 (fld c2 (canErr n) 0 8 - 1)) n) :=
      setErrState_touches ((Touches.refl _ _ c2).setFld _ _ _ (by simp [afterStamp, regsAt])) n (by simp [afterStamp, regsAt])
    exact .ite ((herr.part (.free _ _) (by simp)).setFld _ _ _ (by simp [afterStamp, regsAt])) herr
  have hkeep : ∀ k, 0x20 ≤ k → reg t (canBase n + k) = reg c2 (canBase n + k) := fun k hk => hrest.reg (by
    simp only [afterStamp, regsAt, canErr, canStatReg, List.contains_cons, List.contains_nil, Bool.or_false, Bool.or_eq_false_iff, beq_eq_false_iff_ne]
    omega)
  refine ⟨?_, ?_, ?_⟩
  · rw [Nat.add_assoc, hkeep _ (by omega), ← Nat.add_assoc]
    exact hstamp.1
  · rw [Nat.add_assoc, hkeep _ (by omega), ← Nat.add_assoc]
    exact hstamp.2
  · have hpage : Touches [.free] (canPage n) c c2 := by
      rw [← hset]
      exact ((Touches.refl _ _ c).setReg _ (by rw [Nat.add_assoc]; exact canPage_mem (by omega))).setReg _
        (by rw [Nat.add_assoc]; exact canPage_mem (by omega))
    refine hpage.trans (hrest.mono (by simp) fun off hoff => ?_)
    simp only [afterStamp, regsAt, canErr, canStatReg, List.contains_cons, List.contains_nil, Bool.or_false, Bool.or_eq_true, beq_iff_eq] at hoff
    rcases hoff with rfl | rfl | rfl <;> exact canPage_mem (by decide)

/-- An acknowledged frame leaves its buffer with its time stamp. -/
theorem txOutcome_sent {c : Chip} {n b : Nat} {x : CanTx} (hn : n < 8) (hbus : onBusBuf c n = some b) (hbuf : canBuf c n b = some x)
    (hmode : (canSt c n).mode ≠ 3) (hwait : NoCallWaits c n b) (ts : Nat) {t : Chip} (ht : t = txOutcome c n 0 ts) :
    canBuf t n b = none ∧ reg t (canBase n + 0x20 + b * 8) = BitVec.ofNat 32 ts
      ∧ reg t (canBase n + 0x24 + b * 8) = BitVec.ofNat 32 (ts / 2 ^ 32) ∧ Changes [.can, .free] (canPage n) c t := by
  have hsent : t = endBuf (frameStamped c n b ts x) n b stSuccess 0 := by
    rw [ht, txOutcome, hbus, Option.bind_some, hbuf]
    dsimp only
    rw [if_neg fun h => hmode h.2, canOutcome, hbus]
    dsimp only
    rw [hbuf]
    dsimp only
    rw [if_pos rfl, frameSent_eq]
  obtain ⟨hlo, hhi, htouch⟩ := frameStamped_stamps c (onBusBuf_le hbus) ts x rfl
  generalize frameStamped c n b ts x = c4 at hsent hlo hhi htouch
  have hcan : c4.can = c.can := htouch.same .can (by simp) (by simp)
  have hwait' : NoCallWaits c4 n b := by rwa [NoCallWaits, canBuf_congr hcan]
  obtain ⟨hnone, hreport⟩ := endBuf_ends ((canBuf_congr hcan n b).trans hbuf) hwait' stSuccess 0 hsent
  have hb := onBusBuf_le hbus
  refine ⟨hnone, ?_, ?_, ?_⟩
  · rw [hreport.reg (can_quiet (by rw [canBase]; omega)).1]
    exact hlo
  · rw [hreport.reg (can_quiet (by rw [canBase]; omega)).1]
    exact hhi
  · have hset : Touches [.can, .free] (canPage n) c (setBuf c4 n b none) := (htouch.mono (by simp) fun _ h => h).setBuf n b none (by simp)
    exact (((Within.refl [.can, .free] (canPage_calm hn) c).touch hset (by simp)).report hreport).changes

/-- A frame whose attempt fails waits again. -/
theorem txOutcome_failed {c : Chip} {n b o : Nat} {x : CanTx} (ho : o ≠ 0) (hbus : onBusBuf c n = some b) (hbuf : canBuf c n b = some x)
    (hshot : oneShot c n b = false) (hkept : x.drop = false ∧ x.tmo = false) (hwait : NoCallWaits c n b) (ts : Nat) :
    txOutcome c n o ts = setBuf c n b (some { x with onBus := false }) := by
  have hcall : (decide (b = 2) && x.fn == 9 && (canBuf c n 3).isSome) = false := by
    rcases hwait with h | h
    · rw [decide_eq_false h, Bool.false_and, Bool.false_and]
    · rw [h, Option.isSome_none, Bool.and_false]
  rw [txOutcome, hbus, Option.bind_some, hbuf]
  dsimp only
  rw [if_neg fun h => ho h.1, canOutcome, hbus]
  dsimp only
  rw [hbuf]
  dsimp only
  rw [if_neg ho, attemptFails, hshot, hkept.1, hkept.2, hcall]
  rfl

/-- Settles O41: each buffer's frame by its outcome; only what reports write goes beyond the controller. -/
theorem canTransmissionCompletes : Obligations.CanTransmissionCompletes := by
  unfold Obligations.CanTransmissionCompletes
  refine ⟨fun s n b x hmay hchoose => ?_, fun s n b x ts hbus hbuf hmode hwait => ?_,
    fun s n b x ts o ho hbus hbuf hshot hkept hwait => ?_, fun s n b x hbuf hoff hwait => ?_⟩ <;> refine ⟨_, rfl, rfl, ?_⟩ <;> dsimp only
  · rw [startOfFrame, if_pos hmay, hchoose]
    exact ⟨canBuf_setBuf_self _ _ _ _, fun k hk => by rw [canBuf_setBuf, if_neg hk], (Touches.refl _ _ _).setBuf _ _ _ (by simp)⟩
  · exact txOutcome_sent n.isLt hbus hbuf hmode hwait _ rfl
  · rw [txOutcome_failed (fun h => ho (Fin.ext h)) hbus hbuf hshot hkept hwait]
    exact ⟨canBuf_setBuf_self _ _ _ _, (Touches.refl _ _ _).setBuf _ _ _ (by simp)⟩
  · have hwait' : NoCallWaits s.chip n.val b.val := hwait.imp_left fun h e => h (Fin.ext e)
    have hend : txTmo s.chip n.val b.val = endBuf s.chip n.val b.val stSuccess 3 := by
      rw [txTmo, hbuf]
      dsimp only
      rw [if_neg (by omega), hoff]
      rfl
    obtain ⟨hnone, hreport⟩ := endBuf_ends hbuf hwait' stSuccess 3 hend
    exact ⟨hnone, (((Within.refl [.can] noReg_calm _).touch ((Touches.refl _ _ _).setBuf _ _ _ (by simp)) (by simp)).report hreport).changes⟩

end Sys2Proof.Machine
end

section
-- One proof at a time: every thread takes a stack of its own from the memory that a compile has.
set_option Elab.async false
/-! SUPPORT. Reception, errors, bus-off and control of a CAN controller (R932 to R945), and what the engineer call sees of it (R768). -/

namespace Sys2Proof.Machine

/-! ## Withdrawn frames -/

/-- A step of the buffers of controller n: MODE in effect stands. -/
structure BufStep (n : Nat) (c t : Chip) : Prop where
  within : Within [.can] noReg c t
  mode : (canSt t n).mode = (canSt c n).mode

theorem BufStep.refl (n : Nat) (c : Chip) : BufStep n c c := ⟨.refl _ noReg_calm c, rfl⟩

theorem BufStep.trans {n : Nat} {a b c : Chip} (h : BufStep n a b) (k : BufStep n b c) : BufStep n a c :=
  ⟨h.within.trans k.within, k.mode.trans h.mode⟩

theorem BufStep.setBuf {n : Nat} {a b : Chip} (h : BufStep n a b) (i : Nat) (x : Option CanTx) : BufStep n a (Machine.setBuf b n i x) :=
  h.trans ⟨(Within.refl _ noReg_calm b).part (.can b _) (by simp) (by decide), by rw [Machine.setBuf, canSt_modCan]⟩

theorem BufStep.report {n : Nat} {a b t : Chip} (h : BufStep n a b) (k : Reports b t) : BufStep n a t :=
  h.trans ⟨(Within.refl _ noReg_calm b).report k, by rw [canSt_congr (k.same .can (by decide))]⟩

theorem endBuf_step (c : Chip) (n b status result : Nat) : BufStep n c (endBuf c n b status result) := by
  unfold endBuf
  split
  · exact .refl n c
  · next x _ =>
    have hdone : BufStep n c (canComplete (setBuf c n b none) n b x status result) :=
      ((BufStep.refl n c).setBuf b none).report ((Reports.refl _).completeWhere _ _)
    dsimp only
    split
    · split
      · exact (hdone.setBuf 3 none).setBuf 2 _
      · exact hdone
    · exact hdone

/-- A buffer without a frame of the call behind it is empty after its frame has left, and the others stand. -/
theorem endBuf_bufs {c : Chip} {n b : Nat} (h : NoCallWaits c n b) (status result k : Nat) :
    canBuf (endBuf c n b status result) n k = if k = b then none else canBuf c n k := by
  cases hbuf : canBuf c n b with
  | none =>
    rw [endBuf, hbuf]
    dsimp only
    split
    · next hk => rw [hk, hbuf]
    · rfl
  | some x =>
    obtain ⟨-, hreport⟩ := endBuf_ends hbuf h status result rfl
    rw [canBuf_congr (hreport.same .can (by decide)), canBuf_setBuf]

theorem withdrawPending_step (c : Chip) (n status result : Nat) : BufStep n c (withdrawPending c n status result) := by
  have hone : ∀ (c : Chip) (b : Nat), BufStep n c (match canBuf c n b with
      | some x => if x.onBus then c else endBuf c n b status result
      | none => c) := fun c b => by
    split
    · split
      · exact .refl n c
      · exact endBuf_step c n b status result
    · exact .refl n c
  exact (((hone _ 0).trans (hone _ 1)).trans (hone _ 3)).trans (hone _ 2)

theorem dropOnBus_step (c : Chip) (n : Nat) : BufStep n c (dropOnBus c n) := by
  have hone : ∀ (c : Chip) (b : Nat), BufStep n c (match canBuf c n b with
      | some x => if x.onBus then setBuf c n b (some { x with drop := true }) else c
      | none => c) := fun c b => by
    split
    · split
      · exact (BufStep.refl n c).setBuf b _
      · exact .refl n c
    · exact .refl n c
  exact ((hone _ 0).trans (hone _ 1)).trans (hone _ 2)

theorem canWithdraw_step (c : Chip) (n : Nat) : BufStep n c (canWithdraw c n) :=
  (withdrawPending_step c n stSuccess 5).trans (dropOnBus_step _ n)

/-- All four buffers left, the call's waiting frame before buffer 2. -/
theorem allBufs_end (c : Chip) (n status result : Nat) {t : Chip}
    (ht : t = ([0, 1, 3, 2] : List Nat).foldl (fun c b => endBuf c n b status result) c) :
    (∀ b : Fin 4, canBuf t n b.val = none) ∧ BufStep n c t := by
  simp only [List.foldl_cons, List.foldl_nil] at ht
  have h0 := endBuf_bufs (c := c) (n := n) (b := 0) (.inl (by decide)) status result
  have s0 := endBuf_step c n 0 status result
  generalize endBuf c n 0 status result = c0 at ht h0 s0
  have h1 := endBuf_bufs (c := c0) (n := n) (b := 1) (.inl (by decide)) status result
  have s1 := endBuf_step c0 n 1 status result
  generalize endBuf c0 n 1 status result = c1 at ht h1 s1
  have h3 := endBuf_bufs (c := c1) (n := n) (b := 3) (.inl (by decide)) status result
  have s3 := endBuf_step c1 n 3 status result
  generalize endBuf c1 n 3 status result = c3 at ht h3 s3
  have h2 := endBuf_bufs (c := c3) (n := n) (b := 2) (.inr (by rw [h3, if_pos rfl])) status result
  have s2 := endBuf_step c3 n 2 status result
  rw [← ht] at h2 s2
  refine ⟨fun b => ?_, ((s0.trans s1).trans s3).trans s2⟩
  rw [h2, h3, h1, h0]
  fin_cases b <;> rfl

/-! ## What the engineer call sees (R768) -/

/-- CAN_DOWN depends on the call's settings, the CAN domain and the controllers' registers. -/
theorem callCanDown_congr {c t : Chip} (hcall : t.call = c.call) (hpwr : t.pwr = c.pwr)
    (hregs : ∀ n < 8, fld t (canCtl n) 0 2 = fld c (canCtl n) 0 2 ∧ (2 ≤ canState t n ↔ 2 ≤ canState c n)) : callCanDown t = callCanDown c := by
  unfold callCanDown callCtrl
  rw [hcall]
  split
  · next n hn =>
    have hlt : n < 8 := by
      split at hn
      · injection hn with hn
        omega
      · exact absurd hn (by simp)
    rw [(hregs n hlt).1, decide_eq_decide.2 (hregs n hlt).2, canDomOn, domOn, dom, hpwr, canDomOn, domOn, dom]
  · rfl

theorem callStat_can (n : Nat) : canCtl n ≠ callStat ∧ canStatReg n ≠ callStat := by
  simp only [canCtl, canStatReg, canBase, callStat]
  omega

theorem callCanDown_setFlag (c : Chip) (x : Bool) : callCanDown (setFlag c callStat 3 x) = callCanDown c :=
  callCanDown_congr rfl rfl fun n _ => ⟨fld_setFlag_other _ _ _ _ _ _ _ (callStat_can n).1, by
    rw [canState, fld_setFlag_other _ _ _ _ _ _ _ (callStat_can n).2, canState]⟩

theorem callCanDown_report {c t : Chip} (h : Reports c t) : callCanDown t = callCanDown c :=
  callCanDown_congr (h.same .call (by decide)) (h.same .pwr (by decide)) fun n hn => by
    have hctl : reg t (canCtl n) = reg c (canCtl n) := h.reg (can_quiet (by rw [canCtl, canBase]; omega)).1
    have hstat : reg t (canStatReg n) = reg c (canStatReg n) := h.reg (can_quiet (by rw [canStatReg, canBase]; omega)).1
    exact ⟨by rw [fld, hctl, fld], by rw [canState, canState, fld, hstat, fld]⟩

theorem callStat_calm (off : Nat) (h : regAt callStat off = true) : ringSetup off = false := regAt_calm (by decide) off h

/-- After the check CAN_DOWN shows the controller. -/
theorem callCanCheck_shows (c : Chip) {t : Chip} (ht : t = callCanCheck c) :
    flag t callStat 3 = callCanDown t ∧ Within [] (regAt callStat) c t := by
  rw [callCanCheck] at ht
  by_cases hsame : (callCanDown c == flag c callStat 3) = true
  · rw [if_pos hsame] at ht
    rw [ht]
    exact ⟨(beq_iff_eq.1 hsame).symm, .refl _ callStat_calm c⟩
  · rw [if_neg hsame] at ht
    by_cases hdown : callCanDown c = true
    · rw [if_pos hdown] at ht
      have hrep : Reports (setFlag c callStat 3 true) t := ht ▸ (Reports.refl _).postError _ _ _
      refine ⟨?_, ((Within.refl _ callStat_calm c).setFlag 3 true rfl).report hrep⟩
      rw [callCanDown_report hrep, callCanDown_setFlag, hdown, flag, fld, hrep.reg (by decide)]
      exact flag_setFlag_self c callStat 3 true (by decide)
    · rw [if_neg hdown] at ht
      rw [ht, callCanDown_setFlag, Bool.eq_false_iff.2 hdown]
      exact ⟨flag_setFlag_self c callStat 3 false (by decide), (Within.refl _ callStat_calm c).setFlag 3 false rfl⟩

/-- Where CAN_DOWN does not rise, the check reports nothing. -/
theorem callCanCheck_quiet {c : Chip} (h : callCanDown c = true → flag c callStat 3 = true) :
    Touches [] (regAt callStat) c (callCanCheck c) := by
  rw [callCanCheck]
  split
  · exact .refl _ _ c
  · next hne =>
    split
    · next hdown => exact absurd (beq_iff_eq.2 (hdown.trans (h hdown).symm)) hne
    · exact (Touches.refl _ _ c).setFlag 3 false rfl

/-- Where CAN_DOWN shows the controller, the check changes nothing. -/
theorem callCanCheck_same {c : Chip} (h : flag c callStat 3 = callCanDown c) : callCanCheck c = c := by
  rw [callCanCheck, if_pos (beq_iff_eq.2 h.symm)]

/-! ## Reception (R932 to R935) -/

/-- A controller's registers. -/
def canBlock (n : Nat) : Nat → Bool := regIn (canBase n) (canBase n + 0x2000)

theorem canBlock_mem {n k : Nat} (h : k < 0x2000) : canBlock n (canBase n + k) = true := by
  rw [canBlock, regIn_iff]
  omega

theorem canBlock_calm {n : Nat} (hn : n < 8) (off : Nat) (h : canBlock n off = true) : ringSetup off = false := by
  rw [canBlock, regIn_iff, canBase] at h
  exact (can_quiet (by omega)).2

/-- The counters that a reception moves. -/
theorem rxCounted_touches (c : Chip) (n : Nat) : Touches [.free] (regsAt [canErr n, canStatReg n]) c (rxCounted c n) := by
  unfold rxCounted
  dsimp only
  split
  · exact setErrState_touches ((Touches.refl _ _ c).setFld _ _ _ (by simp [regsAt])) n (by simp [regsAt])
  · exact setErrState_touches (((Touches.refl _ _ c).part (.free _ _) (by simp)).setFld _ _ _ (by simp [regsAt])) n (by simp [regsAt])

theorem fltFor_congr {c t : Chip} {n : Nat} (h : ∀ off, fltBase n 0 ≤ off → reg t off = reg c off) (fmt ident : Nat) :
    fltFor t n fmt ident = fltFor c n fmt ident := by
  have hreg : ∀ f k, reg t (fltBase n f + k) = reg c (fltBase n f + k) := fun f k => h _ (by simp only [fltBase]; omega)
  have hcfg : ∀ f, reg t (fltBase n f) = reg c (fltBase n f) := fun f => hreg f 0
  refine congrArg (List.find? · _) (funext fun f => ?_)
  simp only [fltMatches, flag, fld, hreg, hcfg]

/-- The data words of a high-priority buffer lie behind its first registers. -/
theorem hpbData_touches (c : Chip) (n h : Nat) (data : List Byte) :
    Touches [] (regIn (hpbBase n h + 0x10) (hpbBase n h + 0x50)) c (hpbData c n h data) :=
  Touches.foldl _ _ (fun c w hw => (Touches.refl _ _ c).setReg _ (by
    have hlt := List.mem_range.1 hw
    rw [regIn_iff]
    omega)) c

/-- The first register of a high-priority buffer that takes a frame. -/
def hpbHead (c : Chip) (b f : Nat) (r : CanRx) : Chip :=
  wrapFld (setFlag (setFld (setFld (setFld (if flag c b 0 then countFld c b 24 8 else c) b 1 5 r.fmt) b 6 4 r.dlc) b 10 5 f) b 0 true) b 16 8

theorem hpbHead_fields (c : Chip) (b f : Nat) (r : CanRx) (hf : f < 32) (hfmt : r.fmt < 32) (hdlc : r.dlc < 16) {t : Chip} (ht : t = hpbHead c b f r) :
    flag t b 0 = true ∧ fld t b 1 5 = r.fmt ∧ fld t b 6 4 = r.dlc ∧ fld t b 10 5 = f ∧ Touches [] (regAt b) c t := by
  have hb : regAt b b = true := by simp [regAt]
  generalize hfull : (if flag c b 0 then countFld c b 24 8 else c) = c1
  have h1 : Touches [] (regAt b) c c1 := hfull ▸ Touches.ite ((Touches.refl _ _ c).countFld _ _ hb) (Touches.refl _ _ c)
  rw [hpbHead, hfull, wrapFld] at ht
  have hpast : ∀ lo w, lo + w ≤ 16 → fld t b lo w = fld (setFlag (setFld (setFld (setFld c1 b 1 5 r.fmt) b 6 4 r.dlc) b 10 5 f) b 0 true) b lo w :=
    fun lo w h => ht ▸ fld_setFld_field _ _ _ _ _ _ _ (by decide) (.inl h)
  refine ⟨?_, ?_, ?_, ?_, ?_⟩
  · rw [flag, hpast 0 1 (by decide)]
    exact flag_setFlag_self _ b 0 true (by decide)
  · rw [hpast 1 5 (by decide), fld_setFlag_field _ _ _ _ _ _ (by decide) (.inl (by decide)), fld_setFld_field _ _ _ _ _ _ _ (by decide) (.inl (by decide)),
      fld_setFld_field _ _ _ _ _ _ _ (by decide) (.inl (by decide)), fld_setFld_self _ _ _ _ _ (by decide)]
    exact Nat.mod_eq_of_lt hfmt
  · rw [hpast 6 4 (by decide), fld_setFlag_field _ _ _ _ _ _ (by decide) (.inl (by decide)), fld_setFld_field _ _ _ _ _ _ _ (by decide) (.inl (by decide)),
      fld_setFld_self _ _ _ _ _ (by decide)]
    exact Nat.mod_eq_of_lt hdlc
  · rw [hpast 10 5 (by decide), fld_setFlag_field _ _ _ _ _ _ (by decide) (.inl (by decide)), fld_setFld_self _ _ _ _ _ (by decide)]
    exact Nat.mod_eq_of_lt hf
  · rw [ht]
    exact ((((h1.setFld _ _ _ hb).setFld _ _ _ hb).setFld _ _ _ hb).setFlag _ _ hb).setFld _ _ _ hb

/-- A frame replaces the content of its high-priority buffer. -/
theorem hpbTake_takes (c : Chip) (n : Nat) {f h : Nat} (r : CanRx) (hf : f < 32) (hfmt : r.fmt < 32) (hdlc : r.dlc < 16) {t : Chip}
    (ht : t = hpbTake c n f h r) :
    flag t (hpbBase n h) 0 = true ∧ fld t (hpbBase n h) 1 5 = r.fmt ∧ fld t (hpbBase n h) 6 4 = r.dlc ∧ fld t (hpbBase n h) 10 5 = f
      ∧ reg t (hpbBase n h + 4) = BitVec.ofNat 32 r.ident ∧ reg t (hpbBase n h + 8) = BitVec.ofNat 32 r.ts
      ∧ Touches [] (regIn (hpbBase n h) (hpbBase n h + 0x60)) c t := by
  obtain ⟨hfull, hfmt', hdlc', hflt, htouch⟩ := hpbHead_fields c (hpbBase n h) f r hf hfmt hdlc rfl
  have hform : t = hpbData (setReg (setReg (setReg (hpbHead c (hpbBase n h) f r) (hpbBase n h + 4) (BitVec.ofNat 32 r.ident))
    (hpbBase n h + 8) (BitVec.ofNat 32 r.ts)) (hpbBase n h + 12) (BitVec.ofNat 32 (r.ts / 2 ^ 32))) n h r.data := ht
  generalize hpbHead c (hpbBase n h) f r = c3 at hform hfull hfmt' hdlc' hflt htouch
  generalize hregs : setReg (setReg (setReg c3 (hpbBase n h + 4) (BitVec.ofNat 32 r.ident)) (hpbBase n h + 8) (BitVec.ofNat 32 r.ts))
    (hpbBase n h + 12) (BitVec.ofNat 32 (r.ts / 2 ^ 32)) = c4 at hform
  have hdata := hpbData_touches c4 n h r.data
  rw [← hform] at hdata
  have hkeep : ∀ k < 0x10, reg t (hpbBase n h + k) = reg c4 (hpbBase n h + k) := fun k hk => hdata.reg (by
    rw [← Bool.not_eq_true, regIn_iff]
    omega)
  have hhead : reg t (hpbBase n h) = reg c3 (hpbBase n h) := by
    rw [show reg t (hpbBase n h) = reg c4 (hpbBase n h) from hkeep 0 (by decide), ← hregs, reg_setReg_other _ _ _ _ (by omega),
      reg_setReg_other _ _ _ _ (by omega), reg_setReg_other _ _ _ _ (by omega)]
  refine ⟨?_, ?_, ?_, ?_, ?_, ?_, ?_⟩
  · rw [flag, fld, hhead]
    exact hfull
  · rw [fld, hhead]
    exact hfmt'
  · rw [fld, hhead]
    exact hdlc'
  · rw [fld, hhead]
    exact hflt
  · rw [hkeep 4 (by decide), ← hregs, reg_setReg_other _ _ _ _ (by omega), reg_setReg_other _ _ _ _ (by omega), reg_setReg_self]
  · rw [hkeep 8 (by decide), ← hregs, reg_setReg_other _ _ _ _ (by omega), reg_setReg_self]
  · have hin : ∀ k, k < 0x60 → regIn (hpbBase n h) (hpbBase n h + 0x60) (hpbBase n h + k) = true := fun k hk => by
      rw [regIn_iff]
      omega
    have h3 : Touches [] (regIn (hpbBase n h) (hpbBase n h + 0x60)) c c3 := htouch.mono (by simp) fun off hoff => by
      rw [beq_iff_eq.1 hoff]
      exact hin 0 (by decide)
    have h4 : Touches [] (regIn (hpbBase n h) (hpbBase n h + 0x60)) c c4 := by
      rw [← hregs]
      exact ((h3.setReg _ (hin 4 (by decide))).setReg _ (hin 8 (by decide))).setReg _ (hin 12 (by decide))
    refine h4.trans (hdata.mono (by simp) fun off hoff => ?_)
    rw [regIn_iff] at hoff ⊢
    omega

/-- A frame that a filter accepts and the engineer call does not take. -/
theorem frameReceived_accepted {c : Chip} {n f : Nat} {r : CanRx} (hn : n < 8) (hhears : canHears c n = true)
    (hfd : natBit r.fmt 1 = false ∨ flag c (canCtl n) 2 = true) (hcall : callCtrl c ≠ some n) (hflt : fltFor c n r.fmt r.ident = some f)
    (hfmt : r.fmt < 32) (hdlc : r.dlc < 16) {h : Nat} (hh : h = fld c (fltBase n f) 2 2) {t : Chip} (ht : t = frameReceived c n r) :
    flag t (hpbBase n h) 0 = true ∧ fld t (hpbBase n h) 1 5 = r.fmt ∧ fld t (hpbBase n h) 6 4 = r.dlc ∧ fld t (hpbBase n h) 10 5 = f
      ∧ reg t (hpbBase n h + 4) = BitVec.ofNat 32 r.ident ∧ reg t (hpbBase n h + 8) = BitVec.ofNat 32 r.ts
      ∧ Changes [.free] (canBlock n) c t := by
  have hf : f < 32 := List.mem_range.1 (List.mem_of_find?_eq_some hflt)
  have hh4 : h < 4 := hh ▸ natBits_lt _ 2 2
  have hcount := rxCounted_touches c n
  have hcall' : (rxCounted c n).call = c.call := hcount.same .call (by simp) (by simp)
  have hfltreg : ∀ off, fltBase n 0 ≤ off → reg (rxCounted c n) off = reg c off := fun off hoff => hcount.reg (by
    simp only [regsAt, canErr, canStatReg, List.contains_cons, List.contains_nil, Bool.or_false, Bool.or_eq_false_iff, beq_eq_false_iff_ne]
    rw [fltBase] at hoff
    omega)
  have hroute : t = canRxEvent (hpbTake (rxCounted c n) n f h r) n (h + 1) f r := by
    have hfd' : (!canHears c n || (natBit r.fmt 1 && !flag c (canCtl n) 2)) = false := by
      rcases hfd with hfd | hfd <;> simp [hhears, hfd]
    have hrange : callRange (rxCounted c n) n r = none := by
      rw [callRange]
      have hsame : callCtrl (rxCounted c n) = callCtrl c := by rw [callCtrl, hcall', callCtrl]
      exact if_neg fun hin => hcall (hsame.symm.trans hin.1)
    have hhp : fld (rxCounted c n) (fltBase n f) 2 2 = h := by
      rw [hh, fld, hfltreg _ (by simp only [fltBase]; omega), fld]
    rw [ht, frameReceived, hfd', if_neg (by simp), takeFrame, hrange]
    dsimp only
    rw [routeFrame, fltFor_congr hfltreg, hflt]
    dsimp only
    rw [hhp]
  obtain ⟨hfull, hfmt', hdlc', hflt', hid, hts, htouch⟩ := hpbTake_takes (rxCounted c n) n (h := h) r hf hfmt hdlc rfl
  have hrep : Reports (hpbTake (rxCounted c n) n f h r) t := hroute ▸ (Reports.refl _).putEvents _ (ownerFn_lt _)
  have hkeep : ∀ k < 0x60, reg t (hpbBase n h + k) = reg (hpbTake (rxCounted c n) n f h r) (hpbBase n h + k) :=
    fun k hk => hrep.reg (can_quiet (by rw [hpbBase, canBase]; omega)).1
  have hkeep0 : reg t (hpbBase n h) = reg (hpbTake (rxCounted c n) n f h r) (hpbBase n h) := hkeep 0 (by decide)
  refine ⟨?_, ?_, ?_, ?_, (hkeep 4 (by decide)).trans hid, (hkeep 8 (by decide)).trans hts, ?_⟩
  · rw [flag, fld, hkeep0]
    exact hfull
  · rw [fld, hkeep0]
    exact hfmt'
  · rw [fld, hkeep0]
    exact hdlc'
  · rw [fld, hkeep0]
    exact hflt'
  · have hblock : Touches [.free] (canBlock n) c (hpbTake (rxCounted c n) n f h r) := by
      refine (hcount.mono (by simp) fun off hoff => ?_).trans (htouch.mono (by simp) fun off hoff => ?_)
      · simp only [regsAt, canErr, canStatReg, List.contains_cons, List.contains_nil, Bool.or_false, Bool.or_eq_true, beq_iff_eq] at hoff
        rcases hoff with rfl | rfl <;> exact canBlock_mem (by decide)
      · rw [regIn_iff, hpbBase] at hoff
        rw [canBlock, regIn_iff]
        omega
    exact (((Within.refl [.free] (canBlock_calm hn) c).touch hblock (by simp)).report hrep).changes

/-! ## Errors, bus-off and recovery (R939 to R942) -/

theorem canState_setErrState {c : Chip} {n : Nat} (h : canState c n < 2) :
    canState (setErrState c n) n = b2n (decide (127 < fld c (canErr n) 0 8) || decide (127 < fld c (canErr n) 8 8)) := by
  rw [setErrState, if_neg (not_le.2 h), canState, fld_setFld_self _ _ _ _ _ (by decide)]
  cases decide (127 < fld c (canErr n) 0 8) || decide (127 < fld c (canErr n) 8 8) <;> rfl

/-- A bus error leaves its code and the counters. -/
theorem canBusError_counts {c : Chip} {n lec tec rec' : Nat} {dataPhase : Bool} (hhears : canHears c n = true) (hlec : lec < 8) (hrec : rec' < 256)
    {t : Chip} (ht : t = canBusError c n lec tec rec' dataPhase) :
    fld t (canErr n) 0 8 = min tec 255 ∧ fld t (canErr n) 8 8 = rec' ∧ fld t (canErr n) (if dataPhase then 19 else 16) 3 = lec
      ∧ canState t n = b2n (decide (127 < tec) || decide (127 < rec')) ∧ Touches [] (regsAt [canErr n, canStatReg n]) c t := by
  have herr : regsAt [canErr n, canStatReg n] (canErr n) = true := by simp [regsAt]
  have hplace : (if dataPhase then setFld c (canErr n) 19 3 lec else setFld c (canErr n) 16 3 lec)
      = setFld c (canErr n) (if dataPhase then 19 else 16) 3 lec := by cases dataPhase <;> rfl
  have hlo : 16 ≤ (if dataPhase then 19 else 16) ∧ (if dataPhase then 19 else 16) + 3 ≤ 32 := by cases dataPhase <;> decide
  rw [canBusError, if_neg (by simp [hhears])] at ht
  dsimp only at ht
  rw [hplace, Nat.min_eq_left (show rec' ≤ 255 by omega)] at ht
  generalize (if dataPhase then 19 else 16 : Nat) = lo at ht hlo ⊢
  generalize hcnt : setFld (setFld (setFld c (canErr n) lo 3 lec) (canErr n) 0 8 (min tec 255)) (canErr n) 8 8 rec' = c2 at ht
  have htec : fld c2 (canErr n) 0 8 = min tec 255 := by
    rw [← hcnt, fld_setFld_field _ _ _ _ _ _ _ (by decide) (by decide), fld_setFld_self _ _ _ _ _ (by decide)]
    exact Nat.mod_eq_of_lt (by omega)
  have hrec2 : fld c2 (canErr n) 8 8 = rec' := by
    rw [← hcnt, fld_setFld_self _ _ _ _ _ (by decide)]
    exact Nat.mod_eq_of_lt hrec
  have hcode : fld c2 (canErr n) lo 3 = lec := by
    rw [← hcnt, fld_setFld_field _ _ _ _ _ _ _ (by decide) (.inr (by omega)), fld_setFld_field _ _ _ _ _ _ _ (by decide) (.inr (by omega)),
      fld_setFld_self _ _ _ _ _ (by omega)]
    exact Nat.mod_eq_of_lt hlec
  have hstate2 : canState c2 n < 2 := by
    have hbefore : canState c n < 2 := of_decide_eq_true (Bool.and_eq_true _ _ ▸ hhears).2
    have hne : canStatReg n ≠ canErr n := by simp only [canStatReg, canErr]; omega
    rw [canState, ← hcnt, fld_setFld_other _ _ _ _ _ _ _ _ hne, fld_setFld_other _ _ _ _ _ _ _ _ hne, fld_setFld_other _ _ _ _ _ _ _ _ hne]
    exact hbefore
  have hkeep : reg t (canErr n) = reg c2 (canErr n) := by
    rw [ht]
    exact (setErrState_touches (rs := regAt (canStatReg n)) (ps := []) (.refl _ _ c2) n (by simp [regAt])).reg (by simp [regAt, canErr, canStatReg])
  refine ⟨?_, ?_, ?_, ?_, ?_⟩
  · rw [fld, hkeep]
    exact htec
  · rw [fld, hkeep]
    exact hrec2
  · rw [fld, hkeep]
    exact hcode
  · rw [ht, canState_setErrState hstate2, htec, hrec2]
    congr 2
    exact decide_eq_decide.2 (by omega)
  · rw [ht, ← hcnt]
    exact setErrState_touches ((((Touches.refl _ _ c).setFld _ _ _ herr).setFld _ _ _ herr).setFld _ _ _ herr) n (by simp [regsAt])

/-- The registers of a controller that bus-off and recovery write. -/
theorem canCheck_calm {as : List Nat} {n : Nat} (hn : n < 8) (h : ∀ a ∈ as, a = callStat ∨ canBase n ≤ a ∧ a < canBase n + 0x2000) (off : Nat)
    (hoff : regsAt as off = true) : ringSetup off = false := by
  rcases h off (List.contains_iff_mem.1 hoff) with rfl | hin
  · decide
  · exact (can_quiet (by rw [canBase] at hin; omega)).2

theorem recoveryBegin_off {c : Chip} {n : Nat} (h : canState c n = 2) :
    recoveryBegin c n = setFlag (setFld c (canStatReg n) 0 2 3) (canCtl n) 8 false := if_pos h

theorem canState_recoveryBegin {c : Chip} {n : Nat} (h : canState c n = 2) : canState (recoveryBegin c n) n = 3 := by
  rw [recoveryBegin_off h, canState, fld_setFlag_other _ _ _ _ _ _ _ (by simp only [canStatReg, canCtl]; omega)]
  exact fld_setFld_self _ _ _ _ _ (by decide)

/-- What the check leaves of a controller. -/
theorem canState_callCanCheck (c : Chip) {n : Nat} (hn : n < 8) : ∀ k < 0x2000, reg (callCanCheck c) (canBase n + k) = reg c (canBase n + k) := fun k hk =>
  (callCanCheck_shows c rfl).2.reg (by simp only [regAt, callStat, canBase, beq_eq_false_iff_ne]; omega) (can_quiet (by rw [canBase]; omega)).1

/-- Bus-off. -/
theorem busOff_off {c : Chip} {n : Nat} (hn : n < 8) (hhears : canHears c n = true) {t : Chip} (ht : t = busOff c n) :
    canState t n = (if flag c (canCtl n) 3 then 3 else 2) ∧ (∀ b : Fin 4, canBuf t n b.val = none)
      ∧ fld t (canCnt n) 0 8 = satInc 8 (fld c (canCnt n) 0 8) ∧ flag t callStat 3 = callCanDown t
      ∧ Changes [.can] (regsAt [canCtl n, canStatReg n, canCnt n, callStat]) c t := by
  generalize hrs : regsAt [canCtl n, canStatReg n, canCnt n, callStat] = rs
  have hcalm : ∀ off, rs off = true → ringSetup off = false := hrs ▸ canCheck_calm hn (by
    simp only [List.mem_cons, List.not_mem_nil, or_false, canCtl, canStatReg, canCnt]
    omega)
  have hmem : rs (canCtl n) = true ∧ rs (canStatReg n) = true ∧ rs (canCnt n) = true ∧ rs callStat = true := by
    rw [← hrs]
    simp [regsAt]
  obtain ⟨hctl, hstat, hcnt, hcall⟩ := hmem
  rw [busOff, if_neg (by simp [hhears])] at ht
  dsimp only at ht
  generalize h1 : setFld c (canStatReg n) 0 2 2 = c1 at ht
  generalize h2 : ([0, 1, 3, 2] : List Nat).foldl (fun c b => endBuf c n b stSuccess 4) c1 = c2 at ht
  generalize h3 : countFld c2 (canCnt n) 0 8 = c3 at ht
  generalize h4 : faultEvent (postError c3 0x72 (srcCan n) (fld c2 (canErr n) 0 8)) 0x72 (srcCan n) 0 _ = c4 at ht
  obtain ⟨hnone, hbufs⟩ := allBufs_end c1 n stSuccess 4 h2.symm
  have hrep : Reports c3 c4 := h4 ▸ ((Reports.refl _).postError _ _ _).faultEvent _ _ _ (by
    intro f hf
    simp only [List.mem_cons, List.not_mem_nil, or_false] at hf
    rcases hf with rfl | rfl
    · exact ownerFn_lt _
    · decide)
  have hwithin1 : Within [.can] rs c c1 := h1 ▸ (Within.refl _ hcalm c).setFld _ _ _ hstat
  have hwithin4 : Within [.can] rs c c4 :=
    ((hwithin1.trans (hbufs.within.mono (by simp) (by simp [noReg]) hcalm)).trans
      (h3 ▸ (Within.refl _ hcalm c2).countFld 0 8 hcnt)).report hrep
  have hquiet : ∀ k, k < 0x2000 → reg c2 (canBase n + k) = reg c1 (canBase n + k) := fun k hk =>
    hbufs.within.reg rfl (can_quiet (by rw [canBase]; omega)).1
  have hquiet4 : ∀ k, k < 0x2000 → reg c4 (canBase n + k) = reg c3 (canBase n + k) := fun k hk =>
    hrep.reg (can_quiet (by rw [canBase]; omega)).1
  have hstate4 : canState c4 n = 2 := by
    rw [canState, fld, canStatReg, hquiet4 _ (by decide), ← h3, reg_countFld_other _ _ _ _ _ (by rw [canCnt]; omega), hquiet _ (by decide), ← h1]
    exact fld_setFld_self c (canStatReg n) 0 2 2 (by decide)
  have hctl4 : reg c4 (canCtl n) = reg c (canCtl n) := by
    rw [show reg c4 (canCtl n) = reg c3 (canCtl n) from hquiet4 0 (by decide), ← h3, reg_countFld_other _ _ _ _ _ (by rw [canCnt, canCtl]; omega),
      show reg c2 (canCtl n) = reg c1 (canCtl n) from hquiet 0 (by decide), ← h1, reg_setFld_other _ _ _ _ _ _ (by rw [canStatReg, canCtl]; omega)]
  have hcnt4 : fld c4 (canCnt n) 0 8 = satInc 8 (fld c (canCnt n) 0 8) := by
    have hbefore : fld c2 (canCnt n) 0 8 = fld c (canCnt n) 0 8 := by
      rw [fld, canCnt, hquiet _ (by decide), ← h1, reg_setFld_other _ _ _ _ _ _ (by rw [canStatReg]; omega), fld]
    rw [← hbefore, fld, show reg c4 (canCnt n) = reg c3 (canCnt n) from hquiet4 _ (by decide), ← h3]
    exact fld_countFld_self c2 (canCnt n) 0 8 (by decide)
  generalize h5 : (if flag c4 (canCtl n) 3 then recoveryBegin c4 n else c4) = c5 at ht
  have hwithin5 : Within [.can] rs c4 c5 := by
    rw [← h5, recoveryBegin_off hstate4]
    exact .ite (((Within.refl _ hcalm c4).setFld _ _ _ hstat).setFlag _ _ hctl) (.refl _ hcalm c4)
  have hstate5 : canState c5 n = if flag c (canCtl n) 3 then 3 else 2 := by
    rw [← h5, flag, fld, hctl4, flag, fld]
    split
    · exact canState_recoveryBegin hstate4
    · exact hstate4
  have hcnt5 : fld c5 (canCnt n) 0 8 = fld c4 (canCnt n) 0 8 := by
    rw [← h5, recoveryBegin_off hstate4]
    split
    · rw [fld_setFlag_other _ _ _ _ _ _ _ (by simp only [canCnt, canCtl]; omega), fld_setFld_other _ _ _ _ _ _ _ _ (by simp only [canCnt, canStatReg]; omega)]
    · rfl
  have hcan5 : c5.can = c2.can := by
    have hc4 : c4.can = c2.can := (hrep.same .can (by decide)).trans (h3 ▸ rfl)
    rw [← h5, recoveryBegin_off hstate4, ← hc4]
    split <;> rfl
  obtain ⟨hshow, hcheck⟩ := callCanCheck_shows c5 ht
  have hkeep := canState_callCanCheck c5 hn
  rw [← ht] at hkeep
  refine ⟨?_, fun b => ?_, ?_, hshow, (((hwithin4.trans hwithin5).trans (hcheck.mono (by simp) (fun off hoff => ?_) hcalm))).changes⟩
  · rw [← hstate5, canState, canState, fld, canStatReg, hkeep _ (by decide), fld]
  · rw [canBuf_congr ((hcheck.same .can (by decide)).trans hcan5), hnone]
  · rw [← hcnt4, ← hcnt5, fld, canCnt, hkeep _ (by decide), fld]
  · rw [beq_iff_eq.1 hoff]
    exact hcall

/-- The end of a recovery: error-active with both counters 0. -/
theorem recoveryEnd_active {c : Chip} {n : Nat} (hn : n < 8) (hstate : canState c n = 3) (hruns : canRuns c n = true) {t : Chip}
    (ht : t = recoveryEnd c n) :
    canState t n = 0 ∧ fld t (canErr n) 0 16 = 0 ∧ flag t callStat 3 = callCanDown t
      ∧ Changes [] (regsAt [canErr n, canStatReg n, callStat]) c t
      ∧ (flag c callStat 3 = callCanDown c → Touches [] (regsAt [canErr n, canStatReg n, callStat]) c t) := by
  generalize hrs : regsAt [canErr n, canStatReg n, callStat] = rs
  have hcalm : ∀ off, rs off = true → ringSetup off = false := hrs ▸ canCheck_calm hn (by
    simp only [List.mem_cons, List.not_mem_nil, or_false, canErr, canStatReg]
    omega)
  have hmem : rs (canErr n) = true ∧ rs (canStatReg n) = true ∧ rs callStat = true := by
    rw [← hrs]
    simp [regsAt]
  obtain ⟨herr, hstat, hcall⟩ := hmem
  rw [recoveryEnd, if_pos ⟨hstate, hruns⟩] at ht
  generalize h1 : setFld (setFld (setFld c (canStatReg n) 0 2 0) (canErr n) 0 8 0) (canErr n) 8 8 0 = c1 at ht
  have htouch : Touches [] rs c c1 := h1 ▸ (((Touches.refl _ _ c).setFld _ _ _ hstat).setFld _ _ _ herr).setFld _ _ _ herr
  have hstate1 : ∀ m, canState c1 m = if m = n then 0 else canState c m := fun m => by
    have hne : canStatReg m ≠ canErr n := by simp only [canStatReg, canErr, canBase]; omega
    rw [canState, ← h1, fld_setFld_other _ _ _ _ _ _ _ _ hne, fld_setFld_other _ _ _ _ _ _ _ _ hne]
    split
    · next hm =>
      rw [hm]
      exact fld_setFld_self _ _ _ _ _ (by decide)
    · next hm => rw [fld_setFld_other _ _ _ _ _ _ _ _ (by simp only [canStatReg, canBase]; omega), canState]
  have hzero : fld c1 (canErr n) 0 16 = 0 := by
    have hlo : fld c1 (canErr n) 0 8 = 0 := by
      rw [← h1, fld_setFld_field _ _ _ _ _ _ _ (by decide) (by decide)]
      exact fld_setFld_self _ _ _ _ _ (by decide)
    have hhi : fld c1 (canErr n) 8 8 = 0 := by
      rw [← h1]
      exact fld_setFld_self _ _ _ _ _ (by decide)
    simp only [fld, bits] at hlo hhi ⊢
    omega
  have hdown : callCanDown c1 = true → callCanDown c = true := fun h => by
    have hctrl : callCtrl c1 = callCtrl c := by rw [callCtrl, htouch.same .call (by simp) (by simp), callCtrl]
    have hdom : canDomOn c1 = canDomOn c := by
      rw [canDomOn, domOn, dom, htouch.same .pwr (by simp) (by simp), canDomOn, domOn, dom]
    rw [callCanDown, hctrl] at h
    rw [callCanDown]
    revert h
    cases callCtrl c with
    | none => exact id
    | some m =>
      have hmode : fld c1 (canCtl m) 0 2 = fld c (canCtl m) 0 2 := by
        rw [fld, htouch.reg, fld]
        rw [← hrs]
        simp only [regsAt, canCtl, canErr, canStatReg, canBase, callStat, List.contains_cons, List.contains_nil, Bool.or_false,
          Bool.or_eq_false_iff, beq_eq_false_iff_ne]
        omega
      dsimp only
      rw [hdom, hmode, hstate1]
      simp only [Bool.or_eq_true, decide_eq_true_eq]
      split
      · rintro (h | h)
        · exact .inl h
        · omega
      · exact id
  obtain ⟨hshow, hcheck⟩ := callCanCheck_shows c1 ht
  have hkeep := canState_callCanCheck c1 hn
  rw [← ht] at hkeep
  have hstatcall : ∀ off, regAt callStat off = true → rs off = true := fun off hoff => by
    rw [beq_iff_eq.1 hoff]
    exact hcall
  refine ⟨?_, ?_, hshow, ?_, fun hagree => ?_⟩
  · rw [canState, fld, canStatReg, hkeep _ (by decide)]
    exact (hstate1 n).trans (if_pos rfl)
  · rw [fld, canErr, hkeep _ (by decide)]
    exact hzero
  · exact (((Within.refl _ hcalm c).touch htouch (by simp)).trans (hcheck.mono (by simp) hstatcall hcalm)).changes
  · rw [ht]
    refine htouch.trans ((callCanCheck_quiet fun h => ?_).mono (by simp) hstatcall)
    have hflag : flag c1 callStat 3 = flag c callStat 3 := by
      rw [flag, flag, fld, fld, ← h1, reg_setFld_other _ _ _ _ _ _ (by simp only [canErr, canBase, callStat]; omega),
        reg_setFld_other _ _ _ _ _ _ (by simp only [canErr, canBase, callStat]; omega),
        reg_setFld_other _ _ _ _ _ _ (by simp only [canStatReg, canBase, callStat]; omega)]
    rw [hflag, hagree]
    exact hdown h

/-- Settles O42: a frame that a filter accepts, an error's counters, and bus-off with its recovery, after which CAN_DOWN follows. -/
theorem canReceptionAndErrorsComplete : Obligations.CanReceptionAndErrorsComplete := by
  unfold Obligations.CanReceptionAndErrorsComplete
  refine ⟨fun s n format ident dlc data ts f hhears hfd hcall hflt => ?_, fun s n hhears hfd => ?_,
    fun s n lec dataPhase tec rec' hhears => ?_, fun s n hhears => ?_, fun s n hstate hruns => ?_⟩ <;> refine ⟨_, rfl, rfl, ?_⟩ <;> dsimp only
  · have hformat : format.toNat % 32 = format.toNat := Nat.mod_eq_of_lt format.isLt
    have htake := frameReceived_accepted (r := rxOf format.toNat ident.toNat dlc.toNat ts.toNat data) n.isLt hhears (by rwa [rxOf, hformat]) hcall
      (by rwa [rxOf, hformat]) (Nat.mod_lt _ (by decide)) dlc.isLt rfl rfl
    obtain ⟨hfull, hfmt, hdlc, hf, hid, hts, hchanges⟩ := htake
    exact ⟨hfull, hfmt.trans hformat, hdlc, hf, hid, hts, hchanges⟩
  · have hcount : protocolException s.chip n.val = countFld s.chip (canCnt n.val) 8 8 := by
      rw [protocolException, hhears, hfd]
      rfl
    rw [hcount]
    exact ⟨fld_countFld_self _ _ _ _ (by decide), (Touches.refl _ _ _).countFld _ _ (by simp [regAt])⟩
  · exact canBusError_counts hhears lec.isLt rec'.isLt rfl
  · exact busOff_off n.isLt hhears rfl
  · exact recoveryEnd_active n.isLt hstate hruns rfl

end Sys2Proof.Machine
end

section
-- One proof at a time: every thread takes a stack of its own from the memory that a compile has.
set_option Elab.async false
/-! SUPPORT. Writes of CAN_CTL (R941, R943, R945). -/

namespace Sys2Proof.Machine

def canCtlRow : RegDesc :=
  regN "CAN_CTL" 0x1B0000 8 0x2000 [fu 0 2 .rw 0, fu 2 1 .rw 0, fu 3 1 .rw 1, fu 4 1 .rw 0, fd 8 1 .w1s 0, fd 9 1 .w1c 0]

theorem findReg_canCtl (n : Fin 8) : findReg (canCtl n.val) = some canCtlRow := by
  revert n
  decide +kernel

/-- The node with CAN_CTL as a write of the keeper leaves it. -/
def canCtlSet (c : Chip) (n data mask : Nat) : Chip := setReg c (canCtl n) (keeperNow c (canCtl n) canCtlRow data mask)

/-- A write of bytes of CAN_CTL by the keeper. -/
theorem canCtlWrite_eq (c : Chip) (n : Fin 8) {v : Word} {be : BitVec 4} {data mask : Nat} (hdata : dataOf (writeBytes v be) = data)
    (hmask : maskOfBytes (writeBytes v be) = mask) (hne : mask ≠ 0) :
    canCtlWrite c keeper n.val v be = callCanCheck (if natBit (effMask 0 canCtlRow.fields mask) 8 && natBit data 8 then
      recoveryBegin (if fld c (canCtl n.val) 0 2 = fld (canCtlSet c n.val data mask) (canCtl n.val) 0 2 then canCtlSet c n.val data mask
        else canWithdraw (canCtlSet c n.val data mask) n.val) n.val
      else if fld c (canCtl n.val) 0 2 = fld (canCtlSet c n.val data mask) (canCtl n.val) 0 2 then canCtlSet c n.val data mask
        else canWithdraw (canCtlSet c n.val data mask) n.val) := by
  have hn := n.isLt
  have hoff : (keeperCtx c (canCtl n.val) canCtlRow data mask).off = canCtl n.val := rfl
  have hold : natBits (keeperCtx c (canCtl n.val) canCtlRow data mask).old.toNat 0 2 = fld c (canCtl n.val) 0 2 := rfl
  have hplace : (canCtl n.val - 0x1B0000) / 0x2000 = n.val ∧ canCtl n.val % 0x2000 = 0 := by
    rw [canCtl, canBase]
    omega
  have hgood : ∀ (d : Chip) w, canBad d w (canCtl n.val) = false := fun d w => by
    rw [canBad, hplace.2]
    rfl
  rw [canCtlWrite, writeWord_some hookCan (findReg_canCtl n) hdata hmask hne rfl, hookCan, guarded_single _ _ _ rfl, hoff, hgood, if_neg (by simp)]
  simp only [hplace.1, hplace.2, if_true, hold, keeperCtx_hit]
  rfl

/-- RECOVER written in byte 1, in bus-off. -/
theorem recover_begins {c : Chip} (n : Fin 8) (hoff : canState c n.val = 2) {t : Chip} (ht : t = canCtlWrite c keeper n.val 0x100 2) :
    canState t n.val = 3 ∧ flag t (canCtl n.val) 8 = false ∧ flag t callStat 3 = callCanDown t
      ∧ Changes [] (regsAt [canCtl n.val, canStatReg n.val, callStat]) c t
      ∧ (flag c callStat 3 = callCanDown c → Touches [] (regsAt [canCtl n.val, canStatReg n.val]) c t) := by
  have hn := n.isLt
  generalize hrs : regsAt [canCtl n.val, canStatReg n.val, callStat] = rs
  have hcalm : ∀ off, rs off = true → ringSetup off = false := hrs ▸ canCheck_calm hn (by
    simp only [List.mem_cons, List.not_mem_nil, or_false, canCtl, canStatReg]
    omega)
  have hmem : rs (canCtl n.val) = true ∧ rs (canStatReg n.val) = true ∧ rs callStat = true := by
    rw [← hrs]
    simp [regsAt]
  obtain ⟨hctl, hstat, hcall⟩ := hmem
  have hmode : fld (canCtlSet c n.val 0x100 0xFF00) (canCtl n.val) 0 2 = fld c (canCtl n.val) 0 2 :=
    (fld_keeperNow (d := canCtlRow) rfl (f := fu 0 2 .rw 0) (by simp [canCtlRow, regN]) c (canCtl n.val) 0x100 0xFF00).trans (mergeField_dis rfl _ _)
  have hset : Touches [] (regAt (canCtl n.val)) c (canCtlSet c n.val 0x100 0xFF00) := (Touches.refl _ _ c).setReg _ (by simp [regAt])
  have hhit : (natBit (effMask 0 canCtlRow.fields 0xFF00) 8 && natBit 0x100 8) = true := by decide
  rw [canCtlWrite_eq c n (data := 0x100) (mask := 0xFF00) rfl rfl (by decide), hmode, if_pos rfl, hhit, if_pos rfl] at ht
  generalize canCtlSet c n.val 0x100 0xFF00 = c1 at ht hmode hset
  have hoff1 : canState c1 n.val = 2 := by
    rw [canState, fld, hset.reg (by simp only [regAt, canStatReg, canCtl, beq_eq_false_iff_ne]; omega)]
    exact hoff
  have h3 := canState_recoveryBegin hoff1
  rw [recoveryBegin_off hoff1] at ht h3
  have hpair : Touches [] (regsAt [canCtl n.val, canStatReg n.val]) c (setFlag (setFld c1 (canStatReg n.val) 0 2 3) (canCtl n.val) 8 false) :=
    ((hset.mono (by simp) (by simp +contextual [regAt, regsAt])).setFld _ _ _ (by simp [regsAt])).setFlag _ _ (by simp [regsAt])
  have hflag2 : flag (setFlag (setFld c1 (canStatReg n.val) 0 2 3) (canCtl n.val) 8 false) (canCtl n.val) 8 = false :=
    flag_setFlag_self _ _ _ _ (by decide)
  have hmode2 : fld (setFlag (setFld c1 (canStatReg n.val) 0 2 3) (canCtl n.val) 8 false) (canCtl n.val) 0 2 = fld c (canCtl n.val) 0 2 := by
    rw [fld_setFlag_field _ _ _ _ _ _ (by decide) (.inr (by decide)), fld_setFld_other _ _ _ _ _ _ _ _ (by simp only [canCtl, canStatReg]; omega), hmode]
  generalize setFlag (setFld c1 (canStatReg n.val) 0 2 3) (canCtl n.val) 8 false = c2 at ht h3 hpair hflag2 hmode2
  obtain ⟨hshow, hcheck⟩ := callCanCheck_shows c2 ht
  have hkeep := canState_callCanCheck c2 hn
  rw [← ht] at hkeep
  refine ⟨?_, ?_, hshow, ?_, fun hagree => ?_⟩
  · rw [canState, fld, canStatReg, hkeep _ (by decide)]
    exact h3
  · rw [flag, fld, show reg t (canCtl n.val) = reg c2 (canCtl n.val) from hkeep 0 (by decide)]
    exact hflag2
  · refine ((((Within.refl _ hcalm c).touch (hpair.mono (by simp) fun off hoff => ?_) (by simp)).trans
      (hcheck.mono (by simp) (fun off hoff => ?_) hcalm))).changes
    · rw [← hrs]
      simp only [regsAt, List.contains_cons, List.contains_nil, Bool.or_false, Bool.or_eq_true] at hoff ⊢
      tauto
    · rw [beq_iff_eq.1 hoff]
      exact hcall
  · have hother : ∀ off, regsAt [canCtl n.val, canStatReg n.val] off = false → reg c2 off = reg c off := fun off h => hpair.reg h
    have hdown : callCanDown c2 = callCanDown c := by
      refine callCanDown_congr (hpair.same .call (by simp) (by simp)) (hpair.same .pwr (by simp) (by simp)) fun m _ => ?_
      by_cases hm : m = n.val
      · rw [hm, hmode2, h3, hoff]
        exact ⟨rfl, by decide⟩
      · have hne : ∀ k ≤ 0x14, reg c2 (canBase m + k) = reg c (canBase m + k) := fun k hk => hother _ (by
          simp only [regsAt, canCtl, canStatReg, canBase, List.contains_cons, List.contains_nil, Bool.or_false, Bool.or_eq_false_iff,
            beq_eq_false_iff_ne]
          omega)
        rw [canState, canState, fld, fld, fld, fld, show reg c2 (canCtl m) = reg c (canCtl m) from hne 0 (by decide),
          show reg c2 (canStatReg m) = reg c (canStatReg m) from hne 0x14 (by decide)]
        exact ⟨rfl, Iff.rfl⟩
    have hflag : flag c2 callStat 3 = flag c callStat 3 := by
      rw [flag, fld, hother, flag, fld]
      simp only [regsAt, canCtl, canStatReg, canBase, callStat, List.contains_cons, List.contains_nil, Bool.or_false, Bool.or_eq_false_iff,
        beq_eq_false_iff_ne]
      omega
    rw [ht, callCanCheck_same (by rw [hflag, hagree, hdown])]
    exact hpair

/-- MODE written in byte 0: it stands in CAN_CTL, and the frames of another mode are withdrawn. -/
theorem canModeWrite_stands (c : Chip) (n : Fin 8) (m : Fin 4) {t : Chip} (ht : t = canCtlWrite c keeper n.val (BitVec.ofNat 32 m.val) 1) :
    fld t (canCtl n.val) 0 2 = m.val ∧ (canSt t n.val).mode = (canSt c n.val).mode
      ∧ flag t callStat 3 = callCanDown t ∧ Changes [.can] (regsAt [canCtl n.val, callStat]) c t := by
  have hn := n.isLt
  have hdata : ∀ m : Fin 4, dataOf (writeBytes (BitVec.ofNat 32 m.val) 1) = m.val ∧ maskOfBytes (writeBytes (BitVec.ofNat 32 m.val) 1) = 255
      ∧ natBits m.val 0 2 = m.val := by decide
  obtain ⟨hd, hmask, hbits⟩ := hdata m
  generalize hrs : regsAt [canCtl n.val, callStat] = rs
  have hcalm : ∀ off, rs off = true → ringSetup off = false := hrs ▸ canCheck_calm hn (by
    simp only [List.mem_cons, List.not_mem_nil, or_false, canCtl]
    omega)
  have hmem : rs (canCtl n.val) = true ∧ rs callStat = true := by
    rw [← hrs]
    simp [regsAt]
  obtain ⟨hctl, hcall⟩ := hmem
  have hmode : fld (canCtlSet c n.val m.val 255) (canCtl n.val) 0 2 = m.val :=
    (fld_keeperNow (d := canCtlRow) rfl (f := fu 0 2 .rw 0) (by simp [canCtlRow, regN]) c (canCtl n.val) m.val 255).trans
      ((mergeField_en rfl _ _).trans hbits)
  have hset : Within [.can] rs c (canCtlSet c n.val m.val 255) := (Within.refl _ hcalm c).setReg _ hctl
  have hcan : (canCtlSet c n.val m.val 255).can = c.can := setReg_can _ _ _
  have hhit : natBit (effMask 0 canCtlRow.fields 255) 8 = false := by decide
  rw [canCtlWrite_eq c n hd hmask (by decide), hhit, Bool.false_and, if_neg (by simp)] at ht
  generalize canCtlSet c n.val m.val 255 = c1 at ht hmode hset hcan
  generalize h2 : (if fld c (canCtl n.val) 0 2 = fld c1 (canCtl n.val) 0 2 then c1 else canWithdraw c1 n.val) = c2 at ht
  have hstep : BufStep n.val c1 c2 := by
    rw [← h2]
    split
    · exact .refl _ _
    · exact canWithdraw_step _ _
  obtain ⟨hshow, hcheck⟩ := callCanCheck_shows c2 ht
  have hkeep := canState_callCanCheck c2 hn
  rw [← ht] at hkeep
  refine ⟨?_, ?_, hshow, ?_⟩
  · rw [fld, show reg t (canCtl n.val) = reg c2 (canCtl n.val) from hkeep 0 (by decide),
      hstep.within.reg rfl (can_quiet (by rw [canCtl, canBase]; omega)).1]
    exact hmode
  · rw [canSt_congr (hcheck.same .can (by decide)), hstep.mode, canSt_congr hcan]
  · refine ((hset.trans (hstep.within.mono (by simp) (by simp [noReg]) hcalm)).trans (hcheck.mono (by simp) (fun off hoff => ?_) hcalm)).changes
    rw [beq_iff_eq.1 hoff]
    exact hcall

/-- Settles O43: RECOVER and MODE reach the controller through CAN_CTL, and MODE takes effect between frames. -/
theorem canControlCompletes : Obligations.CanControlCompletes := by
  unfold Obligations.CanControlCompletes
  refine ⟨fun s n hoff => ?_, fun s n m => ?_, fun s n hbus hon => ?_⟩ <;> refine ⟨_, rfl, rfl, ?_⟩ <;> dsimp only
  · exact recover_begins n hoff rfl
  · exact canModeWrite_stands s.chip n m rfl
  · rw [canModeEffect, hbus, hon, if_pos (by rfl), canSt_modCan]
    exact ⟨rfl, rfl, rfl, (Touches.refl _ _ _).modCan _ _ (by simp)⟩

end Sys2Proof.Machine
end

section
-- One proof at a time: every thread takes a stack of its own from the memory that a compile has.
set_option Elab.async false
/-! SUPPORT. What the recorder keeps while records are formed, delivered and completed: the clear's intent, the records held, and
REC_STAT (R802, R811). -/

namespace Sys2Proof.Machine

/-- The clear's intent, the records held and REC_STAT stand. -/
structure RecStep (a b : Chip) : Prop where
  intent : b.rcd.intent = a.rcd.intent
  held : b.rcd.held = a.rcd.held
  stat : reg b recStat = reg a recStat

namespace RecStep

variable {a b c : Chip}

theorem refl (c : Chip) : RecStep c c := ⟨rfl, rfl, rfl⟩

theorem trans (h : RecStep a b) (k : RecStep b c) : RecStep a c :=
  ⟨k.intent.trans h.intent, k.held.trans h.held, k.stat.trans h.stat⟩

theorem ite {x y : Chip} {p : Prop} [Decidable p] (hx : RecStep a x) (hy : RecStep a y) : RecStep a (if p then x else y) := by
  split
  · exact hx
  · exact hy

theorem foldl {β : Type} (f : Chip → β → Chip) (xs : List β) (hf : ∀ c x, RecStep c (f c x)) (h : RecStep a b) : RecStep a (xs.foldl f b) := by
  induction xs generalizing b with
  | nil => exact h
  | cons x xs ih => exact ih (h.trans (hf b x))

theorem modFn (h : RecStep a b) (fn : Nat) (f : FnSt → FnSt) : RecStep a (Machine.modFn b fn f) := ⟨h.intent, h.held, h.stat⟩

theorem hostWrite (h : RecStep a b) (x : Nat) (bs : List Byte) : RecStep a (Machine.hostWrite b x bs) := ⟨h.intent, h.held, h.stat⟩

theorem rcd (h : RecStep a b) (r : RecSt) (hi : r.intent = b.rcd.intent) (hh : r.held = b.rcd.held) : RecStep a { b with rcd := r } :=
  ⟨hi.trans h.intent, hh.trans h.held, h.stat⟩

theorem setReg (h : RecStep a b) {off : Nat} (v : Word) (ho : off ≠ recStat) : RecStep a (Machine.setReg b off v) :=
  ⟨h.intent, h.held, (reg_setReg_other _ _ _ _ ho.symm).trans h.stat⟩

/-- A ring's registers are not REC_STAT. -/
theorem ring_ne_idx (fn r : Nat) : ringBase fn r + 0xC ≠ recStat := by
  rw [ringBase_eq, recStat]
  omega

theorem ring_ne_mark (fn r : Nat) : ringBase fn r + 0x14 ≠ recStat := by
  rw [ringBase_eq, recStat]
  omega

theorem ring_ne_lost (fn r : Nat) : ringBase fn r + 0x1C ≠ recStat := by
  rw [ringBase_eq, recStat]
  omega

theorem setImage (h : RecStep a b) (slot : Nat) (r : Option Rec) : RecStep a (Machine.setImage b slot r) := h.rcd _ rfl rfl

/-! ## Rings -/

theorem putRaw (h : RecStep a b) (fn r : Nat) (bs : List Byte) : RecStep a (Machine.putRaw b fn r bs) := by
  unfold Machine.putRaw setNodeIdx setFld
  exact (((h.hostWrite _ _).hostWrite _ _).setReg _ (ring_ne_idx fn r)).modFn _ _

theorem markRise (h : RecStep a b) (fn r : Nat) : RecStep a (Machine.markRise b fn r) :=
  ((h.setReg _ (ring_ne_mark fn r)).setReg _ (ring_ne_mark fn r)).setReg _ (ring_ne_mark fn r)

theorem putEvRaw (h : RecStep a b) (fn : Nat) (bs : List Byte) : RecStep a (Machine.putEvRaw b fn bs) := (h.modFn _ _).putRaw _ _ _

theorem gapOne (h : RecStep a b) (fn kind frame : Nat) : RecStep a (Machine.gapOne b fn kind frame) := by
  unfold Machine.gapOne
  exact (h.setReg _ (ring_ne_lost fn 2)).modFn _ _

theorem gapOver (h : RecStep a b) (fn kind frame : Nat) : RecStep a (Machine.gapOver b fn kind frame) := (h.gapOne _ _ _).modFn _ _

theorem putGap (h : RecStep a b) (fn : Nat) : RecStep a (Machine.putGap b fn) := .ite h (.ite ((h.putEvRaw _ _).modFn _ _) h)

theorem holdEntry (h : RecStep a b) (fn : Nat) (e : EvEnt) : RecStep a (Machine.holdEntry b fn e) := by
  refine .ite (h.gapOne _ _ _) (.ite (h.modFn _ _) ?_)
  dsimp only
  split
  · exact (h.gapOver _ _ _).modFn _ _
  · exact h.gapOver _ _ _

theorem putEvEntry (h : RecStep a b) (fn : Nat) (e : EvEnt) : RecStep a (Machine.putEvEntry b fn e) := by
  refine .ite h (.ite (h.gapOne _ _ _) ?_)
  have hgap : RecStep a (if (fnSt b fn).hold.isEmpty then Machine.putGap b fn else b) := .ite (h.putGap _) h
  exact .ite (hgap.putEvRaw _ _) (hgap.holdEntry _ _)

theorem putEvent (h : RecStep a b) (fn : Nat) (e : EvEnt) : RecStep a (Machine.putEvent b fn e) := by
  have hput : RecStep a (([e] : List EvEnt).foldl (fun c e => Machine.putEvEntry c fn e) b) :=
    foldl _ _ (fun c e => (refl c).putEvEntry fn e) h
  exact .ite (.ite ((hput.markRise _ _).putEvEntry _ _) (hput.markRise _ _)) hput

theorem checkRise (h : RecStep a b) (fn r before : Nat) : RecStep a (Machine.checkRise b fn r before) :=
  .ite (.ite ((h.markRise _ _).putEvent _ _) (h.markRise _ _)) h

theorem complete (h : RecStep a b) (fn sq tag status result : Nat) : RecStep a (Machine.complete b fn sq tag status result) :=
  .ite ((h.putRaw _ _ _).checkRise _ _ _) (h.setReg _ (ring_ne_lost fn 1))

/-- Completions leave the recorder as it is. -/
theorem completeWhere (h : RecStep a b) (p : Nat → InFlight → Bool) (st : Nat → InFlight → Nat × Nat) : RecStep a (Machine.completeWhere b p st) :=
  foldl _ _ (fun c _ => foldl _ _ (fun c _ => .ite ((refl c).modFn _ _) (((refl c).modFn _ _).complete _ _ _ _ _)) (refl c)) h

/-! ## Records -/

theorem recLoss (h : RecStep a b) (fn n : Nat) : RecStep a (Machine.recLoss b fn n) := by
  unfold Machine.recLoss
  exact (h.setReg _ (ring_ne_lost fn 3)).modFn _ _

theorem putRecRaw (h : RecStep a b) (fn : Nat) (bs : List Byte) : RecStep a (Machine.putRecRaw b fn bs) :=
  ((h.modFn _ _).putRaw _ _ _).checkRise _ _ _

theorem putRecGap (h : RecStep a b) (fn : Nat) : RecStep a (Machine.putRecGap b fn) := .ite h (.ite ((h.putRecRaw _ _).modFn _ _) h)

theorem deliver (h : RecStep a b) (fn rkind : Nat) (r : Rec) : RecStep a (Machine.deliver b fn rkind r) := by
  refine .ite h (.ite (h.recLoss _ _) ?_)
  have hgap : RecStep a (if (fnSt b fn).recQ.isEmpty then Machine.putRecGap b fn else b) := .ite (h.putRecGap _) h
  exact .ite (hgap.putRecRaw _ _) (hgap.modFn _ _)

theorem deliverAll (h : RecStep a b) (fns : List Nat) (rkind : Nat) (r : Rec) : RecStep a (Machine.deliverAll b fns rkind r) :=
  foldl _ _ (fun c fn => (refl c).deliver fn rkind r) h

theorem programPair (h : RecStep a b) (seq : Nat) : RecStep a (Machine.programPair b seq) := .ite (h.rcd _ rfl rfl) h

theorem tailRoom_keeps (fuel : Nat) (r : RecSt) :
    (tailRoom fuel r).intent = r.intent ∧ (tailRoom fuel r).held = r.held ∧ (tailRoom fuel r).image = r.image := by
  induction fuel generalizing r with
  | zero => exact ⟨rfl, rfl, rfl⟩
  | succ fuel ih =>
    rw [tailRoom]
    dsimp only
    split
    · split
      · exact ih _
      · exact ⟨rfl, rfl, rfl⟩
    · exact ⟨rfl, rfl, rfl⟩

theorem programTail (h : RecStep a b) (seq : Nat) : RecStep a (Machine.programTail b seq) := by
  unfold Machine.programTail
  split
  · exact h.rcd _ (tailRoom_keeps _ _).1 (tailRoom_keeps _ _).2.1
  · exact h

theorem toBasinAdd (h : RecStep a b) (r : Rec) : RecStep a (Machine.toBasinAdd b r) := h.rcd _ rfl rfl

theorem closeRec (h : RecStep a b) (seq : Nat) : RecStep a (Machine.closeRec b seq) := by
  have hpair := RecStep.programPair (h.rcd { b.rcd with opens := b.rcd.opens.filter fun o => o.seq != seq } rfl rfl) seq
  unfold Machine.closeRec
  dsimp only
  split
  · refine RecStep.toBasinAdd ?_ _
    exact .ite hpair (hpair.rcd _ rfl rfl)
  · exact hpair

theorem missBasin (h : RecStep a b) (r : Rec) : RecStep a (Machine.missBasin b r) := by
  have hlog := recLog_le b r
  unfold Machine.missBasin
  exact .ite ((h.setReg _ (by rw [recStat]; omega)).rcd _ rfl rfl) h

theorem loseSlot (h : RecStep a b) (slot : Nat) : RecStep a (Machine.loseSlot b slot) := by
  unfold Machine.loseSlot
  split
  · exact foldl _ _ (fun c fn => .ite (((refl c).modFn _ _).recLoss _ _) (refl c)) (h.missBasin _)
  · exact h

theorem overwrite (h : RecStep a b) (r : Rec) : RecStep a (Machine.overwrite b r) := by
  unfold Machine.overwrite
  dsimp only
  split
  · exact .ite h ((RecStep.loseSlot (.ite (h.closeRec _) h) _).rcd _ rfl rfl)
  · exact h

theorem freshPage (h : RecStep a b) (seq : Nat) : RecStep a (Machine.freshPage b seq) := .ite (h.rcd _ rfl rfl) h

theorem toTwin (h : RecStep a b) (r : Rec) : RecStep a (Machine.toTwin b r) := .ite ⟨h.intent, h.held, h.stat⟩ h

theorem enterRecTo (h : RecStep a b) (fns : List Nat) (r : Rec) (window : Nat) : RecStep a (Machine.enterRecTo b fns r window) := by
  unfold Machine.enterRecTo
  generalize (Machine.reg b 0x18000C).toNat = seq
  have h3 : RecStep a (Machine.freshPage (Machine.setReg (Machine.setImage (Machine.overwrite b { r with seq := seq }) (seq % 32768) (some { r with seq := seq }))
      0x18000C (BitVec.ofNat 32 (seq + 1))) seq) :=
    (((h.overwrite _).setImage _ _).setReg _ (by decide)).freshPage _
  dsimp only
  generalize Machine.freshPage _ seq = c3 at h3 ⊢
  have h4 : RecStep a (if window = 0 then c3 else { c3 with rcd := { c3.rcd with
      opens := c3.rcd.opens ++ [{ source := r.source, seq := seq, ends := r.ot + window, journal := b.ot }] } }) :=
    .ite h3 (h3.rcd _ rfl rfl)
  generalize (if window = 0 then c3 else _) = c4 at h4 ⊢
  have h6 : RecStep a (Machine.toTwin (Machine.deliverAll (if pairClosed c4 seq then Machine.programPair c4 seq else Machine.programTail c4 seq) fns 1
      { r with seq := seq }) { r with seq := seq }) :=
    (RecStep.deliverAll (.ite (h4.programPair _) (h4.programTail _)) _ _ _).toTwin _
  exact .ite (h6.toBasinAdd _) h6

theorem enterRec (h : RecStep a b) (r : Rec) (window : Nat) : RecStep a (Machine.enterRec b r window) := h.enterRecTo _ _ _

theorem coalesce (h : RecStep a b) (fns : List Nat) (seq ot : Nat) : RecStep a (Machine.coalesce b fns seq ot) := by
  unfold Machine.coalesce
  split
  · exact ((h.setImage _ _).deliverAll _ _ _).toTwin _
  · exact h

theorem coalesceOrTo (h : RecStep a b) (fns : List Nat) (r : Rec) (window key : Nat) : RecStep a (Machine.coalesceOrTo b fns r window key) := by
  unfold Machine.coalesceOrTo
  dsimp only
  split
  · split
    · exact .ite (h.coalesce _ _ _) ((h.closeRec _).enterRecTo _ _ _)
    · exact (h.closeRec _).enterRecTo _ _ _
  · exact h.enterRecTo _ _ _

theorem enterTrigger (h : RecStep a b) (fns : List Nat) (r : Rec) : RecStep a (Machine.enterTrigger b fns r) := by
  have hco : RecStep a (Machine.coalesceOrTo b fns r (trigWindow b r.source) (trigKey b r.source)) := h.coalesceOrTo _ _ _ _
  exact .ite hco (hco.setReg _ (by rw [recStat]; omega))

end RecStep

/-! ## Timed steps (R797, R798, R811) -/

/-- Closing leaves no open record with its number. -/
theorem closeRec_opens (c : Chip) (seq : Nat) : (closeRec c seq).rcd.opens = c.rcd.opens.filter fun o => o.seq != seq := by
  have hpair : ∀ d : Chip, (programPair d seq).rcd.opens = d.rcd.opens := fun d => by
    rw [programPair]
    split <;> rfl
  unfold closeRec
  dsimp only
  split
  · rw [toBasinAdd]
    dsimp only
    split
    · exact hpair _
    · exact hpair _
  · exact hpair _

/-- A tail page with a record's present state. -/
theorem programTail_page {c : Chip} {seq : Nat} {r : Rec} (h : recImage c (seq % 32768) = some r) {t : Chip} (ht : t = programTail c seq) :
    (∃ p ∈ t.rcd.tail, p.state = r ∧ p.used = true ∧ p.n + 1 = t.rcd.tailN) ∧ t.rcd.image = c.rcd.image ∧ onlyParts [.rcd] c t := by
  rw [programTail, h] at ht
  dsimp only at ht
  rw [ht]
  exact ⟨⟨{ n := (tailRoom 2048 c.rcd).tailN, state := r, used := true }, List.mem_append_right _ (List.mem_singleton.2 rfl), rfl, rfl, rfl⟩,
    (RecStep.tailRoom_keeps 2048 c.rcd).2.2, fun p hp => (PartStep.rcd c _).others p (by simpa using hp)⟩

/-- The records held follow the end of a clear, where none is held longer. -/
theorem flushHeld_step {c : Chip} (h : recHolds c = false) : RecStep { c with rcd := { c.rcd with held := [] } } (flushHeld c) := by
  rw [flushHeld, h, if_neg (by simp)]
  exact RecStep.foldl _ _ (fun c x => .ite ((RecStep.refl c).coalesceOrTo _ _ _ _) (.ite ((RecStep.refl c).enterTrigger _ _)
    ((RecStep.refl c).enterRecTo _ _ _))) (RecStep.refl _)

/-- After a flush the intent and REC_STAT are as before, and nothing is held where the recorder holds nothing. -/
theorem flushHeld_keeps (c : Chip) : (flushHeld c).rcd.intent = c.rcd.intent ∧ reg (flushHeld c) recStat = reg c recStat
    ∧ (recHolds c = false → (flushHeld c).rcd.held = []) := by
  cases h : recHolds c with
  | true =>
    rw [flushHeld, h, if_pos rfl]
    exact ⟨rfl, rfl, by simp⟩
  | false =>
    obtain ⟨hintent, hheld, hstat⟩ := flushHeld_step h
    exact ⟨hintent, hstat, fun _ => hheld⟩

/-- The end of a clear. -/
theorem clearDone_ends {c : Chip} {n : Nat × Nat × Nat × Nat} (hintent : c.rcd.intent = some n) (hclear : flag c recStat 2 = true) {t : Chip}
    (ht : t = clearDone c) :
    t.rcd.intent = none ∧ flag t recStat 2 = false ∧ (flag c recStat 0 = true → t.rcd.held = []) ∧ Changes [] (regAt 0x18000C) c t := by
  obtain ⟨seq, count, lo, hi⟩ := n
  have hdone : t = completeWhere (finishClear c) (fun _ i => i.what == .recClear) fun _ _ => (stSuccess, count) := by
    rw [ht, clearDone, hintent]
    dsimp only
    rw [if_pos hclear]
  have hform : formCleared c = modRec (enterRec c (mkRec c 0x108 8 c.ot 0 [countWord count, lo, hi]) 0) fun x => { x with intent := none } := by
    rw [formCleared, hintent]
  have hent : RecStep c (enterRec c (mkRec c 0x108 8 c.ot 0 [countWord count, lo, hi]) 0) := (RecStep.refl c).enterRec _ _
  have hrep : Reports c (formCleared c) := by
    rw [hform]
    exact ((Reports.refl c).enterRec _ _).rcd _
  generalize hmid : setFlag (formCleared c) recStat 2 false = mid at *
  have hmidIntent : mid.rcd.intent = none := by
    rw [← hmid, hform]
    rfl
  have hstat : reg (formCleared c) recStat = reg c recStat := by
    rw [hform]
    exact hent.stat
  have hflag2 : flag mid recStat 2 = false := hmid ▸ flag_setFlag_self _ _ _ _ (by decide)
  have hflag0 : flag mid recStat 0 = flag c recStat 0 := by
    rw [← hmid, flag_setFlag_bit _ _ _ _ _ (by decide) (by decide), flag, fld, hstat, flag, fld]
  have hfinish : finishClear c = flushHeld mid := by rw [finishClear, hmid]
  obtain ⟨hfi, hfs, hfh⟩ := flushHeld_keeps mid
  obtain ⟨hci, hch, hcs⟩ := (RecStep.refl (finishClear c)).completeWhere (fun _ i => i.what == .recClear) fun _ _ => (stSuccess, count)
  rw [← hdone] at hci hch hcs
  rw [hfinish] at hci hch hcs
  refine ⟨hci.trans (hfi.trans hmidIntent), ?_, fun h0 => ?_, ?_⟩
  · rw [flag, fld, hcs, hfs]
    exact hflag2
  · have hfree : recHolds mid = false := by
      rw [recHolds]
      exact (congrArg₂ (fun x y => !x || y) (hflag0.trans h0) hflag2)
    rw [hch, hfh hfree]
  · have hall : Reports c t := by
      rw [hdone, hfinish]
      exact ((hmid ▸ hrep.setFlag 2 false rfl : Reports c mid).flushHeld).completeWhere _ _
    exact ((Within.refl [] (regAt_calm (by decide)) c).report hall).changes

/-- Settles O44: the recorder's timed steps; the end of a clear lets go what was held. -/
theorem recorderTimedStepsComplete : Obligations.RecorderTimedStepsComplete := by
  unfold Obligations.RecorderTimedStepsComplete
  refine ⟨fun s k o hopen hends => ?_, fun s k o r hdue himage => ?_, fun s hwrap hne => ?_, fun s a harmed hdue => ?_,
    fun s n hintent hclear => ?_⟩ <;> refine ⟨_, rfl, rfl, ?_⟩ <;> dsimp only
  · have hclose : recordClose s.chip k.val = closeRec s.chip o.seq := by
      rw [recordClose, hopen]
      exact if_pos hends
    rw [hclose, closeRec_opens]
    exact ⟨rfl, fun q hq => by simpa using (List.mem_filter.1 hq).2,
      ((Within.refl [] noReg_calm _).report ((Reports.refl _).closeRec _)).changes⟩
  · have htail : tailPage s.chip k.val = programTail s.chip o.seq := by rw [tailPage, hdue]
    exact programTail_page himage htail
  · exact if_pos ⟨hwrap, hne⟩
  · have hexpire : clearArmExpiry s.chip = setArmed s.chip none := by
      rw [clearArmExpiry, harmed]
      exact if_pos hdue
    rw [hexpire]
    exact ⟨rfl, flag_setFlag_self _ _ _ _ (by decide), ((Touches.refl _ _ _).part (.rcd _ _) (by simp)).setFlag _ _ rfl⟩
  · exact clearDone_ends hintent hclear rfl

end Sys2Proof.Machine
end

section
-- One proof at a time: every thread takes a stack of its own from the memory that a compile has.
set_option Elab.async false
/-! SUPPORT. Basin: what a write to the drives keeps, and which members a chunk's phase awaits (R822, R826, R827). -/

namespace Sys2Proof.Machine

theorem Touches.modBsn {ps : List Part} {rs : Nat → Bool} {a b : Chip} (h : Touches ps rs a b) (f : BsnSt → BsnSt) (hp : Part.bsn ∈ ps) :
    Touches ps rs a (Machine.modBsn b f) := h.part (.bsn b _) hp

/-! Bit numbers as member sets. -/

theorem natBit_eq_testBit (v i : Nat) : natBit v i = v.testBit i := by
  rw [natBit, Nat.testBit_eq_decide_div_mod_eq]
  rfl

theorem natBit_or (v w i : Nat) : natBit (v ||| w) i = (natBit v i || natBit w i) := by
  simp only [natBit_eq_testBit, Nat.testBit_or]

theorem natBit_pow (n m : Nat) : natBit (2 ^ n) m = (n == m) := by
  rw [natBit_eq_testBit, Nat.testBit_two_pow]
  rfl

/-- A bit that is taken away is gone. -/
theorem natBit_sub_self {w m : Nat} (h : natBit w m = true) : natBit (w - 2 ^ m) m = false := by
  have hpos : 0 < 2 ^ m := Nat.two_pow_pos m
  have hdiv : (w - 2 ^ m) / 2 ^ m = w / 2 ^ m - 1 := by
    simpa using Nat.sub_mul_div w (2 ^ m) 1
  simp only [natBit, beq_iff_eq] at h
  simp only [natBit, hdiv, beq_eq_false_iff_ne]
  omega

theorem pow_add_pow_or {a b : Nat} (h : b < a) : 2 ^ a + 2 ^ b = 2 ^ a ||| 2 ^ b := by
  simpa using Nat.two_pow_add_eq_or_of_lt (Nat.pow_lt_pow_right (by decide) h) 1

/-- A list of one port or of two different ones. -/
def PortList (ps : List Nat) : Prop := (∃ a, a < 4 ∧ ps = [a]) ∨ ∃ a b, a < 4 ∧ b < 4 ∧ a ≠ b ∧ ps = [a, b]

theorem maskOf_pair (a b : Nat) : maskOf [a, b] = 2 ^ a + 2 ^ b := rfl

theorem maskOf_one (a : Nat) : maskOf [a] = 2 ^ a := rfl

theorem natBit_maskOf_pair {a b : Nat} (h : a ≠ b) (m : Nat) : natBit (maskOf [a, b]) m = (a == m || b == m) := by
  rw [maskOf_pair]
  rcases Nat.lt_or_gt_of_ne h with h | h
  · rw [Nat.add_comm, pow_add_pow_or h, natBit_or, natBit_pow, natBit_pow, Bool.or_comm]
  · rw [pow_add_pow_or h, natBit_or, natBit_pow, natBit_pow]

theorem maskOf_pair_lt {a b : Nat} (ha : a < 4) (hb : b < 4) (h : a ≠ b) : maskOf [a, b] < 16 := by
  have key : ∀ x y : Fin 4, x ≠ y → maskOf [x.val, y.val] < 16 := by decide
  exact key ⟨a, ha⟩ ⟨b, hb⟩ fun e => h (congrArg Fin.val e)

theorem maskOf_one_lt {a : Nat} (ha : a < 4) : maskOf [a] < 16 := by
  have key : ∀ x : Fin 4, maskOf [x.val] < 16 := by decide
  exact key ⟨a, ha⟩

/-- The ports that a list keeps make a mask of four bits, without the bit of a port that it leaves out. -/
theorem PortList.mask {ps : List Nat} (h : PortList ps) (p : Nat → Bool) :
    maskOf (ps.filter p) < 16 ∧ ∀ m, p m = false → natBit (maskOf (ps.filter p)) m = false := by
  have hnone : maskOf [] < 16 ∧ ∀ m, p m = false → natBit (maskOf []) m = false :=
    ⟨by decide, fun m _ => by simp [maskOf, natBit]⟩
  have hne {n m : Nat} (hn : p n = true) (hm : p m = false) : (n == m) = false :=
    beq_eq_false_iff_ne.mpr fun e => Bool.noConfusion ((hn.symm.trans (congrArg p e)).trans hm)
  have hone {a : Nat} (ha : a < 4) (hp : p a = true) : maskOf [a] < 16 ∧ ∀ m, p m = false → natBit (maskOf [a]) m = false :=
    ⟨maskOf_one_lt ha, fun m hm => by rw [maskOf_one, natBit_pow, hne hp hm]⟩
  rcases h with ⟨a, ha, rfl⟩ | ⟨a, b, ha, hb, hab, rfl⟩
  · cases hpa : p a with
    | false => simpa only [List.filter, hpa] using hnone
    | true => simpa only [List.filter, hpa] using hone ha hpa
  · cases hpa : p a with
    | false =>
      cases hpb : p b with
      | false => simpa only [List.filter, hpa, hpb] using hnone
      | true => simpa only [List.filter, hpa, hpb] using hone hb hpb
    | true =>
      cases hpb : p b with
      | false => simpa only [List.filter, hpa, hpb] using hone ha hpa
      | true =>
        simp only [List.filter, hpa, hpb]
        exact ⟨maskOf_pair_lt ha hb hab, fun m hm => by rw [natBit_maskOf_pair hab, hne hpa hm, hne hpb hm]; rfl⟩

theorem getD_lt {ps : List Nat} {k : Nat} (h : ∀ p ∈ ps, p < k) (hk : 0 < k) (i : Nat) : ps.getD i 0 < k := by
  rw [List.getD_eq_getElem?_getD]
  cases hi : ps[i]? with
  | none => exact hk
  | some a => exact h a (List.mem_of_getElem? hi)

/-- The ports that a block of the Basin goes to. -/
theorem blockPorts_list (layout ports l : Nat) : PortList (blockPorts layout ports l).1 := by
  unfold blockPorts
  dsimp only
  split
  · refine .inl ⟨_, getD_lt (fun p hp => ?_) (by decide) _, rfl⟩
    have : ∀ p ∈ ([0, 1, 2, 3] : List Nat), p < 4 := by decide
    exact this p (List.mem_of_mem_filter hp)
  · have key : ∀ r : Fin 4, ∀ s : Fin 3, let d := (([0, 1, 2, 3] : List Nat).filter fun n => n != 3 - r.val).getD s.val 0
        d < 4 ∧ d ≠ 3 - r.val := by decide
    have hk := key ⟨l / 64 / 3 % 4, Nat.mod_lt _ (by decide)⟩ ⟨l / 64 % 3, Nat.mod_lt _ (by decide)⟩
    exact .inr ⟨_, _, hk.1, by omega, hk.2, rfl⟩
  · have hlt : ∀ p ∈ (([0, 1] : List Nat).filter fun k => natBit ports (2 * k)), p < 2 := fun p hp => by
      have : ∀ p ∈ ([0, 1] : List Nat), p < 2 := by decide
      exact this p (List.mem_of_mem_filter hp)
    have := getD_lt hlt (by decide) (l / 64 % (([0, 1] : List Nat).filter fun k => natBit ports (2 * k)).length)
    exact .inr ⟨_, _, by omega, by omega, by omega, rfl⟩

theorem writePorts_lt (c : Chip) (l : Nat) : writePorts c l < 16 := ((blockPorts_list _ _ l).mask _).1

/-- A port without a member gets no write. -/
theorem writePorts_out {c : Chip} {m : Nat} (h : natBit (bsnMembers c) m = false) (l : Nat) : natBit (writePorts c l) m = false :=
  ((blockPorts_list _ _ l).mask _).2 m (by rw [h, Bool.false_and])

theorem foldl_or {P : Nat → Prop} {g : Nat → Nat} (hor : ∀ a i, P a → P (a ||| g i)) {a : Nat} (ha : P a) (xs : List Nat) :
    P (xs.foldl (fun a i => a ||| g i) a) := by
  induction xs generalizing a with
  | nil => exact ha
  | cons i xs ih => exact ih (hor a i ha)

theorem blocksPorts_lt (c : Chip) (l n : Nat) : blocksPorts c l n < 16 :=
  foldl_or (P := fun a => a < 16) (fun _ i h => Nat.or_lt_two_pow (n := 4) h (writePorts_lt c (l + i))) (by decide) _

theorem blocksPorts_out {c : Chip} {m : Nat} (h : natBit (bsnMembers c) m = false) (l n : Nat) :
    natBit (blocksPorts c l n) m = false :=
  foldl_or (P := fun a => natBit a m = false) (fun a i ha => by rw [natBit_or, ha, writePorts_out h]; rfl)
    (by simp [natBit]) _

/-! What a write to the drives keeps. -/

/-- Of the node only blocks of drives changed, and no drive came. -/
structure DriveStep (a b : Chip) : Prop where
  touches : Touches [.bsn] noReg a b
  rest : b.bsn = { a.bsn with drives := b.bsn.drives }
  gone : ∀ m, bDrive a m = none → bDrive b m = none

theorem DriveStep.refl (c : Chip) : DriveStep c c := ⟨.refl _ _ c, rfl, fun _ h => h⟩

theorem DriveStep.trans {a b c : Chip} (h : DriveStep a b) (k : DriveStep b c) : DriveStep a c :=
  ⟨h.touches.trans k.touches, by rw [k.rest, h.rest], fun m hm => k.gone m (h.gone m hm)⟩

theorem bDrive_setBDrive_self (c : Chip) (m : Nat) (d : Option Drive) : bDrive (setBDrive c m d) m = d := by
  simp [bDrive, setBDrive, modBsn]

theorem bDrive_setBDrive_other (c : Chip) {m n : Nat} (h : n ≠ m) (d : Option Drive) : bDrive (setBDrive c m d) n = bDrive c n := by
  simp [bDrive, setBDrive, modBsn, smGet_smPut_other, h]

theorem putBlock_step (c : Chip) (m b : Nat) (bs : List Byte) : DriveStep c (putBlock c m b bs) := by
  unfold putBlock
  split
  · refine ⟨(Touches.refl _ _ c).modBsn _ (by simp), rfl, fun n hn => ?_⟩
    have hnm : n ≠ m := fun e => by rw [e] at hn; simp [hn] at *
    rw [bDrive_setBDrive_other _ hnm, hn]
  · exact .refl c

theorem DriveStep.foldl {β : Type} (f : Chip → β → Chip) (xs : List β) (hf : ∀ (c : Chip) (x : β), DriveStep c (f c x)) (c : Chip) :
    DriveStep c (xs.foldl f c) := by
  induction xs generalizing c with
  | nil => exact .refl c
  | cons x xs ih => exact (hf c x).trans (ih _)

theorem writeLogical_step (c : Chip) (l : Nat) (bs : List Byte) : DriveStep c (writeLogical c l bs) := by
  unfold writeLogical
  refine .foldl _ _ (fun c x => ?_) c
  obtain ⟨m, i⟩ := x
  refine iteInduction (motive := DriveStep c) (fun _ => putBlock_step _ _ _ _) fun _ => .refl _

theorem writeBlocks_step (c : Chip) (l : Nat) (bs : List (List Byte)) : DriveStep c (writeBlocks c l bs) :=
  .foldl _ _ (fun c _ => writeLogical_step c _ _) c

theorem writeStrip_step (c : Chip) (n : Nat) : DriveStep c (writeStrip c n) :=
  .foldl _ _ (fun c _ => putBlock_step c _ _ _) c

/-! The phases of a chunk. -/

theorem regs_noReg {ps : List Part} {a b : Chip} (h : Touches ps noReg a b) (off : Nat) : reg b off = reg a off := h.reg rfl

theorem bsnMembers_noReg {ps : List Part} {a b : Chip} (h : Touches ps noReg a b) : bsnMembers b = bsnMembers a :=
  congrArg (fun v => natBits (BitVec.toNat v) 4 4) (regs_noReg h bsnStat)

/-- A phase of a chunk of a unit in use writes its blocks and awaits the members that take them. -/
theorem chunkStep_unit {c : Chip} {f : BFlight} {x : BUnit} (hu : bUnit c f.unit = some x) :
    (chunkStep c f).bsn.flight = c.bsn.flight ++ [{ f with waits := blocksPorts c (stepBlocks c f x).1 (stepBlocks c f x).2.length }] := by
  simp only [chunkStep, hu, modBsn]
  rw [(writeBlocks_step c _ _).rest]

theorem chunkStep_touches (c : Chip) (f : BFlight) : Touches [.bsn] noReg c (chunkStep c f) := by
  unfold chunkStep
  split
  · exact (writeBlocks_step c _ _).touches.modBsn _ (by simp)
  · exact .refl _ _ c

theorem endChunk_touches (c : Chip) (f : BFlight) : Touches [.bsn] noReg c (endChunk c f) := by
  unfold endChunk
  split
  · exact (Touches.refl _ _ c).modBsn _ (by simp)
  · exact .refl _ _ c

/-- A step of the chunks that awaits no member `m`, and brings no drive. -/
structure ReapStep (m : Nat) (a b : Chip) : Prop where
  touches : Touches [.bsn] noReg a b
  gone : ∀ n, bDrive a n = none → bDrive b n = none
  waits : natBit (bsnMembers a) m = false → (∀ f ∈ a.bsn.flight, natBit f.waits m = false) → ∀ f ∈ b.bsn.flight, natBit f.waits m = false

theorem ReapStep.refl (m : Nat) (c : Chip) : ReapStep m c c := ⟨.refl _ _ c, fun _ h => h, fun _ h => h⟩

theorem ReapStep.trans {m : Nat} {a b c : Chip} (h : ReapStep m a b) (k : ReapStep m b c) : ReapStep m a c :=
  ⟨h.touches.trans k.touches, fun n hn => k.gone n (h.gone n hn), fun hm hf =>
    k.waits (by rw [bsnMembers_noReg h.touches, hm]) (h.waits hm hf)⟩

theorem chunkStep_reap (m : Nat) (c : Chip) (f : BFlight) : ReapStep m c (chunkStep c f) := by
  refine ⟨chunkStep_touches c f, fun n hn => ?_, fun hm hf g hg => ?_⟩
  · unfold chunkStep
    split
    · exact (writeBlocks_step c _ _).gone n hn
    · exact hn
  · cases hu : bUnit c f.unit with
    | none =>
      rw [chunkStep, hu] at hg
      exact hf g hg
    | some x =>
      rw [chunkStep_unit hu, List.mem_append, List.mem_singleton] at hg
      rcases hg with hg | rfl
      · exact hf g hg
      · exact blocksPorts_out hm _ _

theorem endChunk_bsn (c : Chip) (f : BFlight) : ∃ us, (endChunk c f).bsn = { c.bsn with units := us } := by
  unfold endChunk
  split
  · exact ⟨_, rfl⟩
  · exact ⟨c.bsn.units, rfl⟩

theorem endChunk_reap (m : Nat) (c : Chip) (f : BFlight) : ReapStep m c (endChunk c f) := by
  obtain ⟨us, hus⟩ := endChunk_bsn c f
  refine ⟨endChunk_touches c f, fun n hn => ?_, fun _ hf => ?_⟩
  · rw [bDrive, hus]
    exact hn
  · rw [hus]
    exact hf

theorem reapChunk_reap (m : Nat) (c : Chip) (f : BFlight) : ReapStep m c (reapChunk c f) := by
  unfold reapChunk
  split
  · exact chunkStep_reap m c _
  · exact endChunk_reap m c f

theorem ReapStep.foldl {m : Nat} (xs : List BFlight) (c : Chip) : ReapStep m c (xs.foldl reapChunk c) := by
  induction xs generalizing c with
  | nil => exact .refl m c
  | cons f xs ih => exact (reapChunk_reap m c f).trans (ih _)

theorem reapChunks_reap (m : Nat) (c : Chip) : ReapStep m c (reapChunks c) := by
  unfold reapChunks
  have hkeep : ReapStep m c (modBsn c fun b => { b with flight := b.flight.filter fun f => f.waits != 0 }) :=
    ⟨(Touches.refl _ _ c).modBsn _ (by simp), fun _ h => h, fun _ hf f hmem => hf f (List.mem_of_mem_filter hmem)⟩
  exact hkeep.trans (ReapStep.foldl _ _)

/-! The members of the Basin. -/

/-- The registers of the Basin and of its drives. -/
theorem bsnBlock_calm (off : Nat) (h : regIn 0x190000 0x190200 off = true) : ringSetup off = false := by
  rw [regIn_iff] at h
  have hring : regIn 0x21000 0x2A000 off = false := Bool.eq_false_iff.mpr fun hin => by
    rw [regIn_iff] at hin
    omega
  rw [ringSetup, hring, Bool.false_and]

theorem bsnBlock_quiet {off : Nat} (h : regIn 0x190000 0x190200 off = true) : reportReg off = false := by
  rw [regIn_iff] at h
  have key : ∀ k, k < 0x200 → reportReg (0x190000 + k) = false := by decide +kernel
  rw [show off = 0x190000 + (off - 0x190000) by omega]
  exact key _ (by omega)

theorem drvStat_block {m : Nat} (h : m < 4) {k : Nat} (hk : k < 0x20) : regIn 0x190000 0x190200 (drvStat m + k) = true := by
  rw [regIn_iff, drvStat]
  omega

theorem drvStat_ne {m k off : Nat} (h : off < 0x190100) : off ≠ drvStat m + k := by
  rw [drvStat]
  omega

theorem bsnMembers_lt (c : Chip) : bsnMembers c < 16 := Nat.mod_lt _ (by decide)

/-- A member taken away is none, and no other bit of the members' field overflows. -/
theorem bsnMembers_drop (c : Chip) (m : Nat) : bsnMembers (setBsnMembers c (bsnMembers c - 2 ^ m)) = bsnMembers c - 2 ^ m := by
  refine (fld_setFld_self c _ _ _ _ (by decide)).trans (Nat.mod_eq_of_lt ?_)
  exact Nat.lt_of_le_of_lt (Nat.sub_le _ _) (bsnMembers_lt c)

theorem drvState_bsnField (c : Chip) (m lo w x : Nat) : drvState (setFld c bsnStat lo w x) m = drvState c m :=
  fld_setFld_other c _ _ _ _ _ _ _ (Ne.symm (drvStat_ne (k := 0) (by decide)))

/-- A chip with the chunks' waits for one member ended. -/
def awaitNone (c : Chip) (m : Nat) : Chip :=
  modBsn c fun b => { b with
    rebuild := if b.rebuild = some m then none else b.rebuild
    flight := b.flight.map fun f => { f with waits := f.waits - (if natBit f.waits m then 2 ^ m else 0) }
    rewrites := b.rewrites.filter fun x => x.1 != m }

theorem awaitNone_flight (c : Chip) (m : Nat) : ∀ f ∈ (awaitNone c m).bsn.flight, natBit f.waits m = false := by
  intro f hf
  obtain ⟨g, -, rfl⟩ := List.mem_map.mp hf
  dsimp only
  split
  · exact natBit_sub_self ‹_›
  · exact Bool.eq_false_iff.mpr ‹_›

/-- The loss of a member that the layout masks, with no rebuild going on. -/
theorem dropMember_masked {c : Chip} {m : Nat} (hmem : natBit (bsnMembers c) m = true) (hidle : c.bsn.rebuild = none)
    (hmask : lossMasked c.bsn.layout (c.bsn.ports - (bsnMembers c - 2 ^ m)) = true) {t : Chip} (ht : t = dropMember c m) :
    drvState t m = drvState c m ∧ natBit (bsnMembers t) m = false ∧ bsnState t = 3 ∧ (bDrive c m = none → bDrive t m = none)
      ∧ (∀ f ∈ t.bsn.flight, natBit f.waits m = false) ∧ Touches [.bsn] (regAt bsnStat) c t := by
  have hform : t = reapChunks (setBsnState (awaitNone (setBsnMembers c (bsnMembers c - 2 ^ m)) m) 3) := by
    have hnone : (awaitNone (setBsnMembers c (bsnMembers c - 2 ^ m)) m).bsn.rebuild = none := by
      simp [awaitNone, modBsn, setBsnMembers, hidle]
    have hlay : (awaitNone (setBsnMembers c (bsnMembers c - 2 ^ m)) m).bsn.layout = c.bsn.layout := by
      simp [awaitNone, modBsn, setBsnMembers]
    have hports : (awaitNone (setBsnMembers c (bsnMembers c - 2 ^ m)) m).bsn.ports = c.bsn.ports := by
      simp [awaitNone, modBsn, setBsnMembers]
    have hleft : bsnMembers (awaitNone (setBsnMembers c (bsnMembers c - 2 ^ m)) m) = bsnMembers c - 2 ^ m := bsnMembers_drop c m
    have hdrop : dropMember c m =
        let c2 := awaitNone (setBsnMembers c (bsnMembers c - 2 ^ m)) m
        if lossMasked c2.bsn.layout (c2.bsn.ports - (bsnMembers c2 - (match c2.bsn.rebuild with | some r => 2 ^ r | none => 0))) then
          reapChunks (setBsnState c2 (if c2.bsn.rebuild.isSome then 4 else 3))
        else goOffline c2 := rfl
    rw [ht, hdrop]
    dsimp only
    rw [hnone, hlay, hports, hleft]
    exact if_pos hmask
  have hgone : natBit (bsnMembers (setBsnMembers c (bsnMembers c - 2 ^ m))) m = false := by
    rw [bsnMembers_drop]
    exact natBit_sub_self hmem
  obtain ⟨c2, hc2⟩ : ∃ c2, c2 = awaitNone (setBsnMembers c (bsnMembers c - 2 ^ m)) m := ⟨_, rfl⟩
  have hmem2 : bsnMembers c2 = bsnMembers (setBsnMembers c (bsnMembers c - 2 ^ m)) := by rw [hc2]; rfl
  have hdrv2 : drvState c2 m = drvState c m := by rw [hc2]; exact drvState_bsnField c m 4 4 _
  have hflight2 : ∀ f ∈ c2.bsn.flight, natBit f.waits m = false := by rw [hc2]; exact awaitNone_flight _ m
  have hnone2 : bDrive c m = none → bDrive c2 m = none := by
    rw [hc2, bDrive, bDrive, awaitNone, modBsn, setBsnMembers]
    dsimp only
    rw [setFld_bsn]
    exact id
  have htouch2 : Touches [.bsn] (regAt bsnStat) c c2 := by
    rw [hc2]
    exact ((Touches.refl _ _ c).setFld _ _ _ (by simp [regAt])).modBsn _ (by simp)
  rw [← hc2] at hform
  have hstate : bsnMembers (setBsnState c2 3) = bsnMembers c2 := fld_setFld_field c2 _ _ _ _ _ _ (by decide) (by decide)
  have hreap := reapChunks_reap m (setBsnState c2 3)
  rw [← hform] at hreap
  have hregs := regs_noReg hreap.touches
  refine ⟨?_, ?_, ?_, fun h => hreap.gone m ?_, hreap.waits ?_ ?_, ?_⟩
  · rw [← hdrv2, ← drvState_bsnField c2 m 0 3 3]
    exact congrArg (fun v => natBits (BitVec.toNat v) 0 3) (hregs _)
  · rw [bsnMembers_noReg hreap.touches, hstate, hmem2, hgone]
  · exact (congrArg (fun v => natBits (BitVec.toNat v) 0 3) (hregs bsnStat)).trans (fld_setFld_self c2 _ _ _ _ (by decide))
  · rw [bDrive, setBsnState, setFld_bsn]
    exact hnone2 h
  · rw [hstate, hmem2, hgone]
  · rw [setBsnState, setFld_bsn]
    exact hflight2
  · exact (htouch2.setFld _ _ _ (by simp [regAt])).trans (hreap.touches.mono (by simp) (by simp [noReg]))


/-! The commands about the members (R813, R822, R847, R866). -/

theorem autoAdmit_off {c : Chip} (h : flag c 0x190004 4 = false) (late : Bool) : autoAdmit c late = c := by
  simp only [autoAdmit, h, Bool.false_and, Bool.false_eq_true, if_false]

theorem nvPortLinkUp_new {c : Chip} {m speed width : Nat} {d : Drive} (hm : m < 4) (hup : starting c = false)
    (hon : domOn c (2 + m) = true) (hspeed : speed ≠ 0 ∧ speed < 8) (hwidth : linkWidth width = true ∧ width < 8)
    (hauto : flag c 0x190004 4 = false) (hnew : ([2, 3, 4, 5] : List Nat).contains (drvState c m) = false) {t : Chip}
    (ht : t = nvPortLinkUp c m speed width d) :
    bDrive t m = some { d with data := d.data.foldl (fun b e => smPut zeroBlock b e.1 e.2) [] } ∧ natBit t.bsn.perst m = true
      ∧ drvState t m = 1 ∧ fld t (drvStat m) 4 3 = speed ∧ fld t (drvStat m) 7 3 = width
      ∧ reg t (drvStat m + 4) = BitVec.ofNat 32 (min d.blocks (2 ^ 34))
      ∧ Touches [.bsn] (regIn (drvStat m) (drvStat m + 12)) c t := by
  obtain ⟨p, hp⟩ : ∃ p, p = modBsn c fun b => { b with perst := b.perst ||| 2 ^ m } := ⟨_, rfl⟩
  obtain ⟨r, hr⟩ : ∃ r, r = setBDrive (setFld (setFld p (drvStat m) 4 3 speed) (drvStat m) 7 3 width) m
      (some { d with data := d.data.foldl (fun s e => smPut zeroBlock s e.1 e.2) [] }) := ⟨_, rfl⟩
  obtain ⟨q, hq⟩ : ∃ q, q = setReg (setReg r (drvStat m + 4) (BitVec.ofNat 32 (driveBlocks d))) (drvStat m + 8)
      (BitVec.ofNat 32 (driveBlocks d / 2 ^ 32 % 16)) := ⟨_, rfl⟩
  have hin {k : Nat} (hk : k < 12) : regIn (drvStat m) (drvStat m + 12) (drvStat m + k) = true := by
    rw [regIn_iff]
    omega
  have hin0 := hin (k := 0) (by decide)
  rw [Nat.add_zero] at hin0
  have hpbsn : p.bsn.perst = c.bsn.perst ||| 2 ^ m := by rw [hp]; rfl
  have hrfld (lo w : Nat) : fld r (drvStat m) lo w = fld (setFld (setFld p (drvStat m) 4 3 speed) (drvStat m) 7 3 width) (drvStat m) lo w := by
    rw [hr]
    rfl
  have hqfld (lo w : Nat) : fld q (drvStat m) lo w = fld r (drvStat m) lo w := by
    rw [hq, fld_setReg_other _ _ _ _ _ _ (by omega), fld_setReg_other _ _ _ _ _ _ (by omega)]
  have hstate : drvState q m = drvState c m := by
    rw [drvState, hqfld, hrfld, fld_setFld_field _ _ _ _ _ _ _ (by decide) (by decide),
      fld_setFld_field _ _ _ _ _ _ _ (by decide) (by decide), hp]
    rfl
  have htouch : Touches [.bsn] (regIn (drvStat m) (drvStat m + 12)) c q := by
    rw [hq, hr, hp]
    exact ((((((Touches.refl _ _ c).modBsn _ (by simp)).setFld _ _ _ hin0).setFld _ _ _ hin0).modBsn _ (by simp)).setReg _
      (hin (by decide))).setReg _ (hin (by decide))
  have hform : t = modBsn (setDrvState q m 1) fun b => { b with auto := b.auto.map fun _ => 2 } := by
    have hlink : nvPortLinkUp c m speed width d =
        autoLinkUp (if ([2, 3, 4, 5] : List Nat).contains (drvState q m) then q else setDrvState q m 1) := by
      have hgo : (domOn p (2 + m) && speed != 0 && linkWidth width) = true := by
        rw [hp, hwidth.1, bne_iff_ne.mpr hspeed.1]
        exact congrArg (fun b => (b && true) && true) hon
      have hrel : releasePerst c m = p := by
        rw [hp, releasePerst, if_pos hon]
      rw [nvPortLinkUp, hrel, hup, if_neg Bool.false_ne_true, if_pos hgo, hq, hr]
    rw [ht, hlink, hstate, hnew, if_neg Bool.false_ne_true, autoLinkUp, autoAdmit_off]
    have hflag : flag q 0x190004 4 = false := by
      have hreg : reg q 0x190004 = reg c 0x190004 := htouch.reg (Bool.eq_false_iff.mpr fun h => by
        rw [regIn_iff, drvStat] at h
        omega)
      rw [flag, fld, hreg]
      exact hauto
    exact (flag_setFld_other q _ _ _ _ _ _ (drvStat_ne (k := 0) (by decide))).trans hflag
  rw [hform]
  refine ⟨?_, ?_, ?_, ?_, ?_, ?_, ?_⟩
  · have hdrive : bDrive (modBsn (setDrvState q m 1) fun b => { b with auto := b.auto.map fun _ => 2 }) m = bDrive r m := by
      rw [bDrive, modBsn, setDrvState]
      dsimp only
      rw [setFld_bsn, hq, setReg_bsn, setReg_bsn, bDrive]
    rw [hdrive, hr, bDrive_setBDrive_self]
  · rw [modBsn, setDrvState]
    dsimp only
    rw [setFld_bsn, hq, setReg_bsn, setReg_bsn, hr, setBDrive, modBsn]
    dsimp only
    rw [setFld_bsn, setFld_bsn, hpbsn, natBit_or, natBit_pow, beq_self_eq_true, Bool.or_true]
  · exact fld_setFld_self q _ _ _ _ (by decide)
  · refine (fld_setFld_field q _ _ _ _ _ _ (by decide) (by decide)).trans ?_
    rw [hqfld, hrfld, fld_setFld_field _ _ _ _ _ _ _ (by decide) (by decide), fld_setFld_self _ _ _ _ _ (by decide)]
    exact Nat.mod_eq_of_lt hspeed.2
  · refine (fld_setFld_field q _ _ _ _ _ _ (by decide) (by decide)).trans ?_
    rw [hqfld, hrfld, fld_setFld_self _ _ _ _ _ (by decide)]
    exact Nat.mod_eq_of_lt hwidth.2
  · refine (reg_setFld_other q _ _ _ _ _ (by omega)).trans ?_
    rw [hq, reg_setReg_other _ _ _ _ (by omega), reg_setReg_self]
    rfl
  · exact (htouch.setFld _ _ _ hin0).modBsn _ (by simp)

/-- The chip in which a lost member's drive and its counters are already noted. -/
theorem memberLost_masked {c : Chip} {m cause : Nat} (hm : m < 4) (hserves : bsnServes c = true)
    (hmem : natBit (bsnMembers c) m = true) (hidle : c.bsn.rebuild = none)
    (hmask : lossMasked c.bsn.layout (c.bsn.ports - (bsnMembers c - 2 ^ m)) = true) {t : Chip} (ht : t = memberLost c m cause) :
    drvState t m = 3 ∧ natBit (bsnMembers t) m = false ∧ bsnState t = 3 ∧ (cause = 0 → bDrive t m = none)
      ∧ (∀ f ∈ t.bsn.flight, natBit f.waits m = false) ∧ Changes [.bsn] (regIn 0x190000 0x190200) c t := by
  obtain ⟨c1, hc1⟩ : ∃ c1, c1 = if cause = 0 then setFld (setFld c (drvStat m) 4 3 0) (drvStat m) 7 3 0 else c := ⟨_, rfl⟩
  obtain ⟨c2, hc2⟩ : ∃ c2, c2 = if cause = 0 then setBDrive c1 m none else c1 := ⟨_, rfl⟩
  obtain ⟨c3, hc3⟩ : ∃ c3, c3 = if cause = 1 then countFld c2 (drvStat m + 0xC) 16 16
      else if cause = 3 then countFld c2 (drvStat m + 0xC) 0 16 else c2 := ⟨_, rfl⟩
  obtain ⟨e, he⟩ : ∃ e, e = postErrorRec (setDrvState c3 m 3) 0x62 (srcRes 5 m) cause := ⟨_, rfl⟩
  have hin {k : Nat} (hk : k < 0x20) : regIn (drvStat m) (drvStat m + 0x20) (drvStat m + k) = true := by
    rw [regIn_iff]
    omega
  have hin0 := hin (k := 0) (by decide)
  rw [Nat.add_zero] at hin0
  have htouch1 : Touches [] (regIn (drvStat m) (drvStat m + 0x20)) c c1 := by
    rw [hc1]
    exact .ite (((Touches.refl _ _ c).setFld _ _ _ hin0).setFld _ _ _ hin0) (.refl _ _ c)
  have htouch2 : Touches [.bsn] (regIn (drvStat m) (drvStat m + 0x20)) c c2 := by
    have h1 := htouch1.mono (List.nil_subset [.bsn]) fun _ h => h
    rw [hc2]
    exact .ite (h1.modBsn _ (by simp)) h1
  have htouch3 : Touches [.bsn] (regIn (drvStat m) (drvStat m + 0x20)) c (setDrvState c3 m 3) := by
    refine .setFld ?_ _ _ _ hin0
    rw [hc3]
    exact .ite (htouch2.countFld _ _ (hin (by decide))) (.ite (htouch2.countFld _ _ (hin (by decide))) htouch2)
  have hbsn2 : c2.bsn = { c.bsn with drives := c2.bsn.drives } := by
    have hbsn1 : c1.bsn = c.bsn := htouch1.same .bsn (by simp) (by simp)
    rw [hc2]
    split
    · rw [setBDrive, modBsn, hbsn1]
    · rw [hbsn1]
  have hbsn3 : (setDrvState c3 m 3).bsn = c2.bsn := by
    rw [setDrvState, setFld_bsn, hc3]
    split
    · rw [countFld_bsn]
    · split
      · rw [countFld_bsn]
      · rfl
  have hrep : Reports (setDrvState c3 m 3) e := by
    rw [he]
    exact (Reports.refl _).postErrorRec _ _ _
  have hbsn : e.bsn = { c.bsn with drives := c2.bsn.drives } := by
    rw [show e.bsn = (setDrvState c3 m 3).bsn from hrep.same .bsn (by simp [reportParts]), hbsn3, hbsn2]
  have hstat {a b : Chip} (h : reg b bsnStat = reg a bsnStat) (lo w : Nat) : fld b bsnStat lo w = fld a bsnStat lo w := by
    rw [fld, h, fld]
  have hout : regIn (drvStat m) (drvStat m + 0x20) bsnStat = false := Bool.eq_false_iff.mpr fun h => by
    rw [regIn_iff, drvStat, bsnStat] at h
    omega
  have hreg3 : reg e bsnStat = reg (setDrvState c3 m 3) bsnStat := hrep.reg (by decide)
  have hmembers : bsnMembers e = bsnMembers c := hstat (hreg3.trans (htouch3.reg hout)) 4 4
  have huse : (natBit (bsnMembers c1) m && bsnServes c1) = true := by
    have hreg1 := htouch1.reg hout
    rw [show bsnMembers c1 = bsnMembers c from hstat hreg1 4 4, hmem, bsnServes, show bsnState c1 = bsnState c from hstat hreg1 0 3]
    exact hserves
  have hform : t = dropMember e m := by
    have hlost : memberLost c m cause =
        if !(natBit (bsnMembers c1) m && bsnServes c1) then
          (if cause = 0 && !(([3, 5] : List Nat).contains (drvState c2 m)) then setDrvState c2 m 0 else c2)
        else dropMember e m := by
      rw [he, hc3, hc2, hc1]
      rfl
    rw [ht, hlost, huse]
    exact if_neg Bool.false_ne_true
  obtain ⟨hst, hmt, hstate, hgone, hflight, htouch⟩ := dropMember_masked (c := e) (m := m) (by rw [hmembers, hmem]) (by rw [hbsn, hidle])
    (by rw [hbsn, hmembers]; exact hmask) hform
  refine ⟨?_, hmt, hstate, fun hc => hgone ?_, hflight, ?_⟩
  · have hregd : reg e (drvStat m) = reg (setDrvState c3 m 3) (drvStat m) := hrep.reg (bsnBlock_quiet (drvStat_block (k := 0) hm (by decide)))
    rw [hst, drvState, fld, hregd]
    exact fld_setFld_self c3 _ _ _ _ (by decide)
  · rw [bDrive, hbsn]
    dsimp only
    rw [hc2, if_pos hc]
    exact bDrive_setBDrive_self c1 m none
  · have hwide : Within [.bsn] (regIn 0x190000 0x190200) c e :=
      ((Within.refl [.bsn] bsnBlock_calm c).touch (htouch3.mono (fun _ h => h) fun off h => by
        rw [regIn_iff, drvStat] at h
        rw [regIn_iff]
        omega) (by simp)).report hrep
    exact (hwide.touch (htouch.mono (fun _ h => h) fun off h => by
      rw [regAt, beq_iff_eq] at h
      rw [h]
      decide) (by simp)).changes

theorem healthLogRead_member {c : Chip} {m : Nat} {w : Byte} (hm : m < 4) (hmem : natBit (bsnMembers c) m = true) {t : Chip}
    (ht : t = healthLogRead c m w.toNat) :
    flag t (drvStat m) 3 = (w != 0) ∧ Changes [] (regAt (drvStat m)) c t := by
  have hbit : (w.toNat != 0) = (w != 0) := by
    rw [Bool.eq_iff_iff, bne_iff_ne, bne_iff_ne, ne_eq, ne_eq, BitVec.toNat_eq]
    rfl
  have hform : t = if w.toNat = 0 then setFlag c (drvStat m) 3 (w.toNat != 0)
      else postError (setFlag c (drvStat m) 3 (w.toNat != 0)) 0x61 (srcRes 5 m) w.toNat := by
    rw [ht, healthLogRead, hmem]
    rfl
  have hself : flag (setFlag c (drvStat m) 3 (w.toNat != 0)) (drvStat m) 3 = (w != 0) := by
    rw [flag_setFlag_self _ _ _ _ (by decide), hbit]
  have hset : Within [] (regAt (drvStat m)) c (setFlag c (drvStat m) 3 (w.toNat != 0)) :=
    (Within.refl [] (regAt_calm (bsnBlock_calm _ (drvStat_block (k := 0) hm (by decide)))) c).setFlag _ _ (by simp [regAt])
  have hrep := (Reports.refl (setFlag c (drvStat m) 3 (w.toNat != 0))).postError 0x61 (srcRes 5 m) w.toNat
  rw [hform]
  split
  · exact ⟨hself, hset.changes⟩
  · refine ⟨?_, (hset.report hrep).changes⟩
    rw [flag, fld, hrep.reg (off := drvStat m) (bsnBlock_quiet (drvStat_block (k := 0) hm (by decide)))]
    exact hself

theorem rebuildStrip_strip {c : Chip} {n : Nat} (hstate : bsnState c = 4) (hrebuild : c.bsn.rebuild = some n)
    (hmore : c.bsn.cursor + 1 < memberStrips c.bsn.cap) (hpage : (c.bsn.cursor + 1) % 262144 ≠ 0) {t : Chip} (ht : t = rebuildStrip c) :
    t.bsn = { c.bsn with drives := (writeStrip c n).bsn.drives, cursor := c.bsn.cursor + 1 }
      ∧ fld t 0x190014 0 17 = (c.bsn.cursor + 1) / 4096 % 2 ^ 17 ∧ Touches [.bsn] (regAt 0x190014) c t := by
  have hstrip := writeStrip_step c n
  obtain ⟨k, hk⟩ : ∃ k, k = modBsn (writeStrip c n) fun b => { b with cursor := b.cursor + 1 } := ⟨_, rfl⟩
  have hbsn : k.bsn = { c.bsn with drives := (writeStrip c n).bsn.drives, cursor := c.bsn.cursor + 1 } := by
    rw [hk, modBsn]
    dsimp only
    rw [hstrip.rest]
  have hform : t = setFld k 0x190014 0 17 ((c.bsn.cursor + 1) / 4096) := by
    have hcur : k.bsn.cursor = c.bsn.cursor + 1 := by rw [hbsn]
    have hcap : (setFld k 0x190014 0 17 ((c.bsn.cursor + 1) / 4096)).bsn.cap = c.bsn.cap := by rw [setFld_bsn, hbsn]
    rw [ht, rebuildStrip, hrebuild]
    dsimp only
    rw [if_neg (by rw [hstate]; decide), ← hk, hcur, hcap, if_neg (by omega), if_neg hpage]
  rw [hform]
  refine ⟨?_, fld_setFld_self k _ _ _ _ (by decide), ?_⟩
  · rw [setFld_bsn, hbsn]
  · rw [hk]
    exact ((hstrip.touches.mono (fun _ h => h) (by simp [noReg])).modBsn _ (by simp)).setFld _ _ _ rfl

/-- Settles O47: what a link that comes up, a lost member, a health log and a rebuilt strip leave. -/
theorem basinMembersComplete : Obligations.BasinMembersComplete := by
  unfold Obligations.BasinMembersComplete
  refine ⟨fun s m speed width d hup hon hspeed hwidth hauto hnew => ?_, fun s m cause hserves hmem hidle hmask => ?_,
    fun s m w hmem => ?_, fun s n hstate hrebuild hmore hpage => ?_⟩ <;> refine ⟨_, rfl, rfl, ?_⟩ <;> dsimp only
  · refine nvPortLinkUp_new m.isLt hup hon ?_ ?_ hauto hnew rfl
    · have := speed.isLt
      exact ⟨fun h => hspeed (Fin.ext h), by omega⟩
    · rcases hwidth with rfl | rfl | rfl <;> decide
  · obtain ⟨hst, hmt, hstate, hgone, hrest⟩ := memberLost_masked (cause := cause.val) m.isLt hserves hmem hidle hmask rfl
    exact ⟨hst, hmt, hstate, fun h => hgone (congrArg Fin.val h), hrest⟩
  · exact healthLogRead_member m.isLt hmem rfl
  · exact rebuildStrip_strip hstate hrebuild hmore hpage rfl

end Sys2Proof.Machine
end

section
-- One proof at a time: every thread takes a stack of its own from the memory that a compile has.
set_option Elab.async false
/-! SUPPORT. Basin: the chunks of the record logs and the answers of the drives (R826, R827, R832, R835). -/

namespace Sys2Proof.Machine

/-! A record chunk that fits its unit. -/

theorem length_padTo (n : Nat) (bs : List Byte) : (padTo n bs).length = n := by
  simp [padTo]

theorem length_flatMap_const {α β : Type} {f : α → List β} {k : Nat} {xs : List α} (h : ∀ x ∈ xs, (f x).length = k) :
    (xs.flatMap f).length = k * xs.length := by
  induction xs with
  | nil => simp
  | cons x xs ih =>
    rw [List.flatMap_cons, List.length_append, h x List.mem_cons_self, ih fun y hy => h y (List.mem_cons_of_mem _ hy),
      List.length_cons, Nat.mul_succ, Nat.add_comm]

/-- At most 992 records of 128 bytes make at most 31 blocks. -/
theorem padBlocks_records {rs : List Rec} (hlen : rs.length ≤ 992) (hrec : ∀ r ∈ rs, (recBytes r).length = 128) :
    (padBlocks (rs.flatMap recBytes)).length / 4096 ≤ 31 := by
  rw [padBlocks, length_padTo, length_flatMap_const hrec]
  omega

theorem unitFor_tail {c : Chip} {kind owner stream n u : Nat} {x : BUnit} (htail : tailUnit c kind owner stream = some (u, x))
    (hroom : usedBlocks x + n ≤ unitBlocks) : unitFor c kind owner stream n = (c, some u, false) := by
  simp only [unitFor, htail, if_pos hroom]

/-- The owner of a record is read from the partition table in force. -/
theorem recLog_congr {a b : Chip} (h : ∀ off, reg b off = reg a off) (ht : b.tables = a.tables) (r : Rec) : recLog b r = recLog a r := by
  simp only [recLog, ownerAt, partByte, tbl, tmem, ht, tblBase, activeCopy, fld, h]

theorem recordChunk_fits {c : Chip} {o u : Nat} {x : BUnit} (ho : o < 9) (hne : recsOf c o ≠ [])
    (hrec : ∀ r ∈ c.rcd.toBasin, (recBytes r).length = 128) (htail : tailUnit c 1 (codeOfPage o) 0 = some (u, x))
    (hunit : bUnit c u = some x) (hroom : usedBlocks x + 32 ≤ unitBlocks) {t : Chip} (ht : t = recordChunk c o) :
    (∃ f ∈ t.bsn.flight, f.log = o ∧ f.unit = u ∧ f.kind = 1 ∧ f.phase = 1
        ∧ f.chunk.body = padBlocks (((recsOf c o).take 992).flatMap recBytes))
      ∧ recsOf t o = (recsOf c o).filter (fun r => !((recsOf c o).take 992).contains r)
      ∧ Touches [.bsn, .rcd] noReg c t := by
  obtain ⟨rs, hrs⟩ : ∃ rs, rs = (recsOf c o).take 992 := ⟨_, rfl⟩
  have hrsne : rs ≠ [] := by
    rw [hrs]
    exact fun h => hne (by simpa using h)
  obtain ⟨a, ha⟩ := Option.ne_none_iff_exists'.mp fun h => hrsne (List.head?_eq_none_iff.mp h)
  obtain ⟨z, hz⟩ := Option.ne_none_iff_exists'.mp fun h => hrsne (List.getLast?_eq_none_iff.mp h)
  obtain ⟨k, hk⟩ : ∃ k : BChunk, k = { body := padBlocks (rs.flatMap recBytes), first := a.ot, last := z.ot } := ⟨_, rfl⟩
  obtain ⟨f, hf⟩ : ∃ f : BFlight, f = { log := o, unit := u, owner := codeOfPage o, kind := 1, chunk := k, phase := 1, waits := 0, items := 0, recs := rs } :=
    ⟨_, rfl⟩
  have hblocks : k.body.length / 4096 ≤ 31 := by
    rw [hk]
    refine padBlocks_records (by rw [hrs, List.length_take]; omega) fun r hr => hrec r ?_
    rw [hrs] at hr
    exact List.mem_of_mem_filter (List.mem_of_mem_take hr)
  have hstart : startChunk c o 1 (codeOfPage o) k 0 rs = (chunkStep c f, true) := by
    rw [startChunk, if_pos ho, unitFor_tail htail (by omega), hf]
    rfl
  have hform : t = recordsFrom { chunkStep c f with
      rcd := { (chunkStep c f).rcd with toBasin := (chunkStep c f).rcd.toBasin.filter fun q => !rs.contains q } } o := by
    rw [ht, recordChunk]
    dsimp only
    rw [← hrs, ha, hz]
    dsimp only
    rw [← hk, hstart]
    exact if_pos rfl
  have hstep := chunkStep_touches c f
  have hrcd : (chunkStep c f).rcd = c.rcd := hstep.same .rcd (by simp) (by simp)
  have hregs : ∀ off, reg t off = reg c off := fun off => by
    rw [hform]
    exact regs_noReg hstep off
  have htables : t.tables = c.tables := by
    rw [hform]
    exact hstep.same .tables (by simp) (by simp)
  refine ⟨?_, ?_, ?_⟩
  · have hflight : t.bsn.flight = c.bsn.flight ++ [{ f with waits := blocksPorts c (stepBlocks c f x).1 (stepBlocks c f x).2.length }] := by
      rw [hform]
      exact chunkStep_unit (by rw [hf]; exact hunit)
    refine ⟨_, by rw [hflight]; exact List.mem_append_right _ (List.mem_singleton.mpr rfl), ?_⟩
    dsimp only
    rw [hf, hk, ← hrs]
    exact ⟨rfl, rfl, rfl, rfl, rfl⟩
  · have hbasin : t.rcd.toBasin = c.rcd.toBasin.filter fun q => !rs.contains q := by
      rw [hform, recordsFrom]
      dsimp only
      rw [hrcd]
    simp only [recsOf, hbasin, recLog_congr hregs htables] at hrs ⊢
    rw [List.filter_filter, List.filter_filter, hrs]
    exact List.filter_congr fun q _ => Bool.and_comm _ _
  · rw [hform]
    exact ((hstep.mono (by simp) fun _ h => h).part (.rcd _ _) (by simp)).part (.rcd _ _) (by simp)

/-- A log whose records wait has its chunk written. -/
theorem chunkWrite_records {c : Chip} {o : Nat} (ho : o < 9) (hserves : bsnServes c = true) (hdue : recordsDue c o = true) :
    chunkWrite c o = recordChunk c o := by
  rw [chunkWrite, hserves, if_neg (by decide), if_pos ho, if_pos hdue]

theorem recsOf_ne_of_due {c : Chip} {o : Nat} (hdue : recordsDue c o = true) : recsOf c o ≠ [] := fun h => by
  simp [recordsDue, h] at hdue

/-! The answers of a drive. -/

/-- The answer of a member while the Basin serves. -/
theorem nvmeCompletion_member {c : Chip} {m : Nat} (hserves : bsnServes c = true) (hmem : natBit (bsnMembers c) m = true) (what : NvmeEnd) :
    nvmeCompletion c m what = match what with
      | .done => writesDone c m
      | .failed => memberLost c m 3
      | .unread b => readFails c m b
      | .rewritten b => rewriteEnds c m b := by
  unfold nvmeCompletion
  rw [hserves, hmem]
  exact if_neg (by decide)

/-- The one chunk in flight, whose last awaited member answers, goes on or ends. -/
theorem writesDone_last {c : Chip} {m : Nat} {f : BFlight} {x : BUnit} (hflight : c.bsn.flight = [f]) (hwaits : f.waits = 2 ^ m)
    (hunit : bUnit c f.unit = some x) {t : Chip} (ht : t = writesDone c m) :
    (f.phase < 2 → ∃ w ∈ List.range 16, t.bsn.flight = [{ f with phase := f.phase + 1, waits := w }])
      ∧ (2 ≤ f.phase → t.bsn.flight = [] ∧ bUnit t f.unit = some { x with chunks := x.chunks ++ [f.chunk.body.length / 4096] })
      ∧ Touches [.bsn] noReg c t := by
  obtain ⟨e, he⟩ : ∃ e, e = modBsn c fun b => { b with flight := [] } := ⟨_, rfl⟩
  have hform : t = reapChunk e { f with waits := 0 } := by
    have hidx : ([f].findIdx fun f => natBit f.waits m) = 0 := by
      rw [List.findIdx_cons, hwaits, natBit_pow, beq_self_eq_true]
      rfl
    have hzip : ([f].zipIdx.map fun (f, j) => if j = 0 then { f with waits := f.waits - 2 ^ m } else f) = [{ f with waits := 0 }] := by
      simp [hwaits]
    rw [ht, writesDone, hflight]
    dsimp only
    rw [hidx, hzip, he]
    rfl
  have htouch : Touches [.bsn] noReg c e := by
    rw [he]
    exact (Touches.refl _ _ c).modBsn _ (by simp)
  have hue : bUnit e f.unit = some x := by
    rw [he]
    exact hunit
  have hnone : e.bsn.flight = [] := by rw [he]; rfl
  refine ⟨fun hp => ?_, fun hp => ?_, htouch.trans ?_⟩
  · have hnext : t = chunkStep e { f with phase := f.phase + 1, waits := 0 } := hform.trans (if_pos hp)
    have hflight' := chunkStep_unit (f := { f with phase := f.phase + 1, waits := 0 }) hue
    rw [← hnext, hnone] at hflight'
    exact ⟨_, List.mem_range.mpr (blocksPorts_lt e _ _), hflight'⟩
  · rw [reapChunk, if_neg (by dsimp only; omega), endChunk] at hform
    dsimp only at hform
    rw [hue] at hform
    rw [hform]
    refine ⟨hnone, ?_⟩
    simp [bUnit, setBUnit, modBsn]
  · rw [hform]
    exact (reapChunk_reap m e _).touches

/-- A block that a member cannot read is counted, and its rebuilding noted. -/
theorem readFails_counts {c : Chip} {m b : Nat} {t : Chip} (ht : t = readFails c m b) :
    fld t (drvStat m + 0xC) 0 16 = satInc 16 (fld c (drvStat m + 0xC) 0 16) ∧ bsnMembers t = bsnMembers c
      ∧ (redundant c m b = true → (m, b) ∈ t.bsn.rewrites) ∧ Touches [.bsn] (regAt (drvStat m + 0xC)) c t := by
  have hself : fld (countFld c (drvStat m + 0xC) 0 16) (drvStat m + 0xC) 0 16 = satInc 16 (fld c (drvStat m + 0xC) 0 16) := by
    refine (fld_setFld_self c _ _ _ _ (by decide)).trans (Nat.mod_eq_of_lt ?_)
    unfold satInc
    split <;> omega
  have hmem : bsnMembers (countFld c (drvStat m + 0xC) 0 16) = bsnMembers c :=
    fld_setFld_other c _ _ _ _ _ _ _ (drvStat_ne (by decide))
  have htouch : Touches [.bsn] (regAt (drvStat m + 0xC)) c (countFld c (drvStat m + 0xC) 0 16) :=
    (Touches.refl _ _ c).countFld _ _ (by simp [regAt])
  rw [readFails] at ht
  split at ht
  · rw [ht]
    refine ⟨hself, hmem, fun _ => ?_, htouch.modBsn _ (by simp)⟩
    exact List.mem_append_right _ (List.mem_singleton.mpr rfl)
  · rename_i hnot
    rw [ht]
    refine ⟨hself, hmem, fun hred => ?_, htouch⟩
    rw [hred, Bool.true_and, Bool.not_eq_true', Bool.not_eq_false, List.contains_iff_mem] at hnot
    rw [countFld_bsn]
    exact hnot

theorem rewriteEnds_writes {c : Chip} {m b : Nat} (hwant : (m, b) ∈ c.bsn.rewrites) (hdrive : (bDrive c m).isSome = true) {t : Chip}
    (ht : t = rewriteEnds c m b) :
    t.bsn.rewrites = c.bsn.rewrites.erase (m, b) ∧ driveBlock t m b = rebuiltBlock c m b ∧ Touches [.bsn] noReg c t := by
  obtain ⟨d, hd⟩ := Option.isSome_iff_exists.mp hdrive
  obtain ⟨e, he⟩ : ∃ e, e = modBsn c fun x => { x with rewrites := x.rewrites.erase (m, b) } := ⟨_, rfl⟩
  have hde : bDrive e m = some d := by
    rw [he]
    exact hd
  have hform : t = setBDrive e m (some { d with data := smPut zeroBlock d.data b (rebuiltBlock c m b) }) := by
    rw [ht, rewriteEnds, if_pos (List.contains_iff_mem.mpr hwant), ← he, putBlock, hde]
  rw [hform]
  refine ⟨?_, ?_, ?_⟩
  · rw [he]
    rfl
  · rw [driveBlock, bDrive_setBDrive_self]
    exact smGet_smPut_self _ _ _ _
  · rw [he]
    exact ((Touches.refl _ _ c).modBsn _ (by simp)).modBsn _ (by simp)

/-- Settles O48: the chunk that a record log writes, what the members answer, and the end of a waveform capture. -/
theorem basinChunksComplete : Obligations.BasinChunksComplete := by
  unfold Obligations.BasinChunksComplete
  refine ⟨fun s o u x hserves hdue hrec htail hunit hroom => ?_, fun s m f x hserves hmem hone hunit => ?_, fun s m hserves hmem => ?_,
    fun s m b hserves hmem => ?_, fun s m b hserves hmem hwant hdrive => ?_, fun s k e hends hpast => ?_⟩
    <;> refine ⟨_, rfl, rfl, ?_⟩ <;> dsimp only
  · rw [chunkWrite_records o.isLt hserves hdue]
    exact recordChunk_fits o.isLt (recsOf_ne_of_due hdue) hrec htail hunit hroom rfl
  · rw [nvmeCompletion_member hserves hmem]
    exact writesDone_last hone.1 hone.2 hunit rfl
  · rw [nvmeCompletion_member hserves hmem]
  · rw [nvmeCompletion_member hserves hmem]
    exact readFails_counts rfl
  · rw [nvmeCompletion_member hserves hmem]
    exact rewriteEnds_writes hwant hdrive rfl
  · have hform : waveformCaptureEnd s.chip k.val = modLog s.chip (16 + k.val) fun g => { g with ends := none } := by
      rw [waveformCaptureEnd, hends]
      exact if_pos hpast
    rw [hform]
    refine ⟨?_, (Touches.refl _ _ _).modBsn _ (by simp)⟩
    rw [bLog, modLog, modBsn, smGet_smMod_self, bLog]

end Sys2Proof.Machine
end

section
-- One proof at a time: every thread takes a stack of its own from the memory that a compile has.
set_option Elab.async false
/-! SUPPORT. Contacts, pulses and trips, and what the legs do that leave service (R549 to R582). -/

namespace Sys2Proof.Machine

/-! The legs of a group. -/

theorem groupOf_lt {c : Chip} {n : Nat} (hn : n < 12) {k : Nat} (hk : k ∈ groupOf c n) : k < 12 := by
  unfold groupOf at hk
  split at hk
  · rw [List.mem_singleton.mp hk]
    exact hn
  · exact List.mem_range.mp (List.mem_of_mem_filter hk)

theorem lowestOf_lt {c : Chip} {n : Nat} (hn : n < 12) : lowestOf c n < 12 := by
  rw [lowestOf, List.headD_eq_head?_getD]
  cases h : (groupOf c n).head? with
  | none => exact hn
  | some k => exact groupOf_lt hn (List.mem_of_head? h)

theorem partner_lt {c : Chip} {n k : Nat} (hn : n < 12) (h : partner c n = some k) : k < 12 := by
  have hsecond (hlen : ((groupOf c n).length == 2) = true) : (groupOf c n).getD 1 0 < 12 :=
    getD_lt (fun _ hp => groupOf_lt hn hp) (by decide) 1
  unfold partner at h
  cases hp : pairOf c n with
  | none =>
    rw [hp] at h
    exact absurd h (by simp)
  | some ab =>
    rw [hp] at h
    unfold pairOf at hp
    dsimp only at hp
    split at hp
    · rename_i hcond
      simp only [Bool.and_eq_true] at hcond
      obtain ⟨⟨-, hlen⟩, -⟩ := hcond
      obtain rfl := Option.some.inj hp
      dsimp only at h
      obtain rfl := Option.some.inj h
      split
      · exact hsecond hlen
      · exact lowestOf_lt hn
    · exact absurd hp (by simp)

/-! Legs that leave PRECHARGE or ARMED. -/

/-- The registers of the legs. -/
def legRegs : Nat → Bool := regIn 0x140100 0x140400

theorem legRegs_at {n k : Nat} (hn : n < 12) (hk : k < 0x40) : legRegs (legBase n + k) = true := by
  rw [legRegs, regIn_iff, legBase]
  omega

theorem legStat_ne {n k : Nat} (h : n ≠ k) : legStat n ≠ legStat k := by
  simp only [legStat, legBase]
  omega

/-- Legs changed, and none came up. -/
structure LegsDown (a b : Chip) : Prop where
  touches : Touches [.legs] legRegs a b
  down : ∀ n, legUp a n = false → legUp b n = false

theorem LegsDown.refl (c : Chip) : LegsDown c c := ⟨.refl _ _ c, fun _ h => h⟩

theorem LegsDown.trans {a b c : Chip} (h : LegsDown a b) (k : LegsDown b c) : LegsDown a c :=
  ⟨h.touches.trans k.touches, fun n hn => k.down n (h.down n hn)⟩

theorem LegsDown.foldl {β : Type} (f : Chip → β → Chip) (xs : List β) (hf : ∀ (c : Chip), ∀ x ∈ xs, LegsDown c (f c x)) (c : Chip) :
    LegsDown c (xs.foldl f c) := by
  induction xs generalizing c with
  | nil => exact .refl c
  | cons x xs ih => exact (hf c x List.mem_cons_self).trans (ih (fun c y hy => hf c y (List.mem_cons_of_mem _ hy)) _)

/-- One of the folded steps takes leg `n` down: it is down at the end. -/
theorem LegsDown.foldl_mem {β : Type} (f : Chip → β → Chip) {xs : List β} (hf : ∀ (c : Chip), ∀ x ∈ xs, LegsDown c (f c x))
    {y : β} (hy : y ∈ xs) {n : Nat} (hdown : ∀ c, legUp (f c y) n = false) (c : Chip) : legUp (xs.foldl f c) n = false := by
  induction xs generalizing c with
  | nil => exact absurd hy (by simp)
  | cons x xs ih =>
    have hrest : ∀ (c : Chip), ∀ x ∈ xs, LegsDown c (f c x) := fun c z hz => hf c z (List.mem_cons_of_mem _ hz)
    rcases List.mem_cons.mp hy with rfl | hy
    · exact (LegsDown.foldl f xs hrest _).down n (hdown c)
    · exact ih hrest hy _

theorem Touches.modLeg {ps : List Part} {rs : Nat → Bool} {a b : Chip} (h : Touches ps rs a b) (n : Nat) (f : LegSt → LegSt) (hp : Part.legs ∈ ps) :
    Touches ps rs a (Machine.modLeg b n f) := h.part (.legs b _) hp

theorem modLeg_down (c : Chip) (n : Nat) (f : LegSt → LegSt) : LegsDown c (modLeg c n f) :=
  ⟨(Touches.refl _ _ c).modLeg _ _ (by simp), fun _ h => h⟩

theorem legState_lt (c : Chip) (n : Nat) : legState c n < 4 := Nat.mod_lt _ (by decide)

theorem legUp_eq_false {c : Chip} {n : Nat} (h : legState c n = 0 ∨ legState c n = 3) : legUp c n = false := by
  rcases h with h | h <;> rw [legUp, h] <;> rfl

/-- The state of a leg that leaves: of the leg itself, and of another one. -/
theorem legState_leave1 {c : Chip} {n st cause : Nat} (hst : st < 4) (hup : legUp c n = true) : legState (legLeave1 c n st cause) n = st := by
  rw [legLeave1, if_pos hup]
  refine (fld_setFld_field _ _ _ _ _ _ _ (by decide) (by decide)).trans ?_
  exact (fld_setFld_self c _ _ _ _ (by decide)).trans (Nat.mod_eq_of_lt hst)

theorem legState_leave1_other (c : Chip) {n k : Nat} (h : k ≠ n) (st cause : Nat) : legState (legLeave1 c n st cause) k = legState c k := by
  unfold legLeave1
  split
  · refine (fld_setFld_other _ _ _ _ _ _ _ _ (legStat_ne h)).trans ?_
    exact fld_setFld_other c _ _ _ _ _ _ _ (legStat_ne h)
  · rfl

theorem legLeave1_touches {c : Chip} {n : Nat} (hn : n < 12) (st cause : Nat) : Touches [.legs] legRegs c (legLeave1 c n st cause) := by
  have hat := legRegs_at (k := 0x14) hn (by decide)
  unfold legLeave1
  split
  · exact (((Touches.refl _ _ c).setFld _ _ _ hat).setFld _ _ _ hat).modLeg _ _ (by simp)
  · exact .refl _ _ c

/-- A leg that leaves to OFF or FAULT is down. -/
theorem legUp_leave1 (c : Chip) (n : Nat) {st : Nat} (cause : Nat) (hst : st = 0 ∨ st = 3) : legUp (legLeave1 c n st cause) n = false := by
  cases hup : legUp c n with
  | false => rw [legLeave1, hup, if_neg Bool.false_ne_true, hup]
  | true => exact legUp_eq_false (by rw [legState_leave1 (by omega) hup]; exact hst)

theorem legLeave1_down (c : Chip) {n st : Nat} (hn : n < 12) (cause : Nat) (hst : st = 0 ∨ st = 3) : LegsDown c (legLeave1 c n st cause) := by
  refine ⟨legLeave1_touches hn st cause, fun k hk => ?_⟩
  rcases eq_or_ne k n with rfl | hkn
  · exact legUp_leave1 c k cause hst
  · rw [legUp, legState_leave1_other c hkn]
    exact hk

theorem partnerFollows_down (c : Chip) {n : Nat} (hn : n < 12) : LegsDown c (partnerFollows c n) := by
  unfold partnerFollows
  split
  · exact legLeave1_down c (partner_lt hn ‹_›) 10 (.inl rfl)
  · exact .refl c

theorem legsOff_mem {c : Chip} {mask k : Nat} (hk : k ∈ (List.range 12).filter fun n => natBit mask n && legUp c n) : k < 12 :=
  List.mem_range.mp (List.mem_of_mem_filter hk)

theorem legsOff_step (c : Chip) (mask cause : Nat) : LegsDown c (legsOff c mask cause) :=
  (LegsDown.foldl _ _ (fun c _ hk => legLeave1_down c (legsOff_mem hk) cause (.inl rfl)) c).trans
    (LegsDown.foldl _ _ (fun c _ hk => partnerFollows_down c (legsOff_mem hk)) _)

/-- The legs of the mask are down. -/
theorem legUp_legsOff {c : Chip} {mask n : Nat} (hn : n < 12) (hmask : natBit mask n = true) (cause : Nat) :
    legUp (legsOff c mask cause) n = false := by
  cases hup : legUp c n with
  | false => exact (legsOff_step c mask cause).down n hup
  | true =>
    have hmem : n ∈ (List.range 12).filter fun n => natBit mask n && legUp c n :=
      List.mem_filter.mpr ⟨List.mem_range.mpr hn, by rw [hmask, hup]; rfl⟩
    exact (LegsDown.foldl _ _ (fun c _ hk => partnerFollows_down c (legsOff_mem hk)) _).down n
      (LegsDown.foldl_mem _ (fun c _ hk => legLeave1_down c (legsOff_mem hk) cause (.inl rfl)) hmem
        (fun c => legUp_leave1 c n cause (.inl rfl)) c)

theorem legsFollowTrips_step (c : Chip) : LegsDown c (legsFollowTrips c) :=
  (legsOff_step c _ 4).trans (LegsDown.foldl _ _ (fun c _ _ => by
    split
    · exact modLeg_down c _ _
    · exact .refl c) _)

theorem legUp_legsFollowTrips {c : Chip} {n : Nat} (hn : n < 12) (hmask : natBit (tripLegs c) n = true) :
    legUp (legsFollowTrips c) n = false :=
  (LegsDown.foldl _ _ (fun c _ _ => by
    split
    · exact modLeg_down c _ _
    · exact .refl c) _).down n (legUp_legsOff hn hmask 4)

/-! The trips. -/

/-- The mask of the numbers below `n` that `p` holds of. -/
theorem natBit_maskUpTo (p : Nat → Bool) (n : Nat) :
    ((List.range n).map fun j => if p j then 2 ^ j else 0).sum < 2 ^ n
      ∧ ∀ j, natBit ((List.range n).map fun j => if p j then 2 ^ j else 0).sum j = (decide (j < n) && p j) := by
  induction n with
  | zero => exact ⟨Nat.one_pos, fun j => by simp [natBit]⟩
  | succ n ih =>
    obtain ⟨hlt, hbit⟩ := ih
    rw [List.range_succ, List.map_append, List.sum_append, List.map_singleton, List.sum_singleton]
    obtain ⟨v, hv⟩ : ∃ v, v = ((List.range n).map fun j => if p j then 2 ^ j else 0).sum := ⟨_, rfl⟩
    rw [← hv] at hlt hbit ⊢
    have hsucc (j : Nat) : decide (j < n + 1) = (n == j || decide (j < n)) := by
      rw [Bool.eq_iff_iff, Bool.or_eq_true, decide_eq_true_eq, decide_eq_true_eq, beq_iff_eq]
      omega
    cases hp : p n with
    | false =>
      rw [if_neg Bool.false_ne_true, Nat.add_zero]
      refine ⟨Nat.lt_trans hlt (Nat.pow_lt_pow_right (by decide) (Nat.lt_succ_self n)), fun j => ?_⟩
      rw [hbit, hsucc]
      rcases eq_or_ne n j with rfl | hj
      · rw [hp, Bool.and_false, Bool.and_false]
      · rw [beq_eq_false_iff_ne.mpr hj, Bool.false_or]
    | true =>
      have hor : v + 2 ^ n = 2 ^ n ||| v := by
        have h := Nat.two_pow_add_eq_or_of_lt hlt 1
        rw [Nat.mul_one] at h
        rw [Nat.add_comm, h]
      rw [if_pos rfl, hor]
      refine ⟨?_, fun j => ?_⟩
      · rw [← hor, Nat.pow_succ]
        omega
      · rw [natBit_or, natBit_pow, hbit, hsucc]
        rcases eq_or_ne n j with rfl | hj
        · rw [hp, beq_self_eq_true]
          rfl
        · rw [beq_eq_false_iff_ne.mpr hj, Bool.false_or, Bool.false_or]

theorem natBit_tripMask (p : Nat → Bool) {j : Nat} (hj : j < 32) : natBit (tripMask p) j = p j := by
  rw [tripMask, (natBit_maskUpTo p 32).2, decide_eq_true hj, Bool.true_and]

theorem tripCode_setTripCode_self (c : Chip) (j s : Nat) : tripCode (setTripCode c j s) j = s := by
  unfold setTripCode
  split
  · assumption
  · exact smGet_smPut_self _ _ _ _

theorem tripCode_setTripCode_other (c : Chip) {i j : Nat} (h : i ≠ j) (s : Nat) : tripCode (setTripCode c j s) i = tripCode c i := by
  unfold setTripCode
  split
  · rfl
  · exact smGet_smPut_other _ _ _ _ _ h

/-- What the states of the trips leave: the terms, the levels and the causes. -/
structure CodeStep (a b : Chip) : Prop where
  touches : Touches [.trips] noReg a b
  ents : b.trips.ents = a.trips.ents
  inputs : b.trips.inputs = a.trips.inputs

theorem CodeStep.refl (c : Chip) : CodeStep c c := ⟨.refl _ _ c, rfl, rfl⟩

theorem CodeStep.trans {a b c : Chip} (h : CodeStep a b) (k : CodeStep b c) : CodeStep a c :=
  ⟨h.touches.trans k.touches, k.ents.trans h.ents, k.inputs.trans h.inputs⟩

theorem setTripCode_step (c : Chip) (j s : Nat) : CodeStep c (setTripCode c j s) := by
  unfold setTripCode
  split
  · exact .refl c
  · exact ⟨(Touches.refl _ _ c).part (.trips c _) (by simp), rfl, rfl⟩

/-- The trips below `n` take the states `v`. -/
theorem setTripCodes (v : Nat → Nat) (n : Nat) (c : Chip) :
    CodeStep c ((List.range n).foldl (fun k j => setTripCode k j (v j)) c)
      ∧ ∀ j, tripCode ((List.range n).foldl (fun k j => setTripCode k j (v j)) c) j = if j < n then v j else tripCode c j := by
  induction n with
  | zero => exact ⟨.refl c, fun j => rfl⟩
  | succ n ih =>
    rw [List.range_succ, List.foldl_append, List.foldl_cons, List.foldl_nil]
    refine ⟨ih.1.trans (setTripCode_step _ _ _), fun j => ?_⟩
    rcases eq_or_ne j n with rfl | hj
    · rw [tripCode_setTripCode_self, if_pos (Nat.lt_succ_self j)]
    · rw [tripCode_setTripCode_other _ hj, ih.2]
      by_cases hlt : j < n
      · rw [if_pos hlt, if_pos (Nat.lt_succ_of_lt hlt)]
      · rw [if_neg hlt, if_neg (by omega)]

/-- The registers of the trips that a cycle of the matrix moves. -/
def tripRegs : Nat → Bool := fun off => regIn 0x130900 0x130980 off || regsAt [0x130818, 0x13081C] off

theorem tripCapture_touches (c : Chip) (entered before : Nat) : Touches [] tripRegs c (tripCapture c entered before) := by
  have hcount : Touches [] tripRegs c
      ((List.range 32).foldl (fun c j => if natBit entered j then Machine.countFld c (0x130900 + j * 4) 0 16 else c) c) := by
    refine .foldl _ _ (fun c j hj => ?_) c
    have hj := List.mem_range.mp hj
    refine .ite ((Touches.refl _ _ c).countFld _ _ ?_) (.refl _ _ c)
    rw [tripRegs, Bool.or_eq_true, regIn_iff]
    exact .inl (by omega)
  unfold tripCapture
  exact .ite hcount ((hcount.setReg _ (by decide)).setReg _ (by decide))

/-- One cycle of the matrix: every trip by its cause. -/
theorem tripFollow_cycle {c t : Chip} (ht : t = tripFollow c) :
    t.trips.inputs = c.trips.inputs ∧ t.trips.causes = causesOf c c.trips.inputs
      ∧ (∀ j : Fin 32, tripCode t j.val = tripNext (tripEnt c j.val) (tripCode c j.val) (natBit c.trips.causes j.val)
          (causeOf (tripEnt c j.val) c.trips.inputs))
      ∧ Touches [.trips] tripRegs c t := by
  obtain ⟨v, hv⟩ : ∃ v : Nat → Nat, v = fun j => tripNext (tripEnt c j) (tripCode c j) (natBit c.trips.causes j)
      (natBit (causesOf c c.trips.inputs) j) := ⟨_, rfl⟩
  obtain ⟨hstep, hcodes⟩ := setTripCodes v 32 c
  obtain ⟨d, hd⟩ : ∃ d, d = (List.range 32).foldl (fun k j => setTripCode k j (v j)) c := ⟨_, rfl⟩
  rw [← hd] at hstep hcodes
  obtain ⟨e, he⟩ : ∃ e, e = { d with trips := { d.trips with causes := causesOf c c.trips.inputs } } := ⟨_, rfl⟩
  have hform : t = tripCapture e (tripMask fun j => tripCode c j == 0 && tripCode d j == 1) (assertedMask c) := by
    rw [he, hd, hv, ht, tripFollow]
  have hcap := tripCapture_touches e (tripMask fun j => tripCode c j == 0 && tripCode d j == 1) (assertedMask c)
  rw [← hform] at hcap
  have htrips : t.trips = e.trips := hcap.same .trips (by simp) (by simp)
  refine ⟨?_, ?_, fun j => ?_, ?_⟩
  · rw [htrips, he]
    exact hstep.inputs
  · rw [htrips, he]
  · have hcode : tripCode t j.val = tripCode d j.val := by
      rw [tripCode, htrips, he, tripCode]
    rw [hcode, hcodes, if_pos j.isLt, hv]
    dsimp only
    rw [causesOf, natBit_tripMask _ j.isLt]
  · have hde : Touches [.trips] noReg d e := by
      rw [he]
      exact (Touches.refl _ _ d).part (.trips d _) (by simp)
    exact ((hstep.touches.trans hde).mono (fun _ h => h) (by simp [noReg])).trans (hcap.mono (by simp) fun _ h => h)

theorem tripInputs_cycle {c : Chip} {x : Word} {t : Chip} (ht : t = tripInputs c x.toNat) :
    t.trips.inputs = x.toNat ∧ t.trips.causes = causesOf c x.toNat
      ∧ (∀ j : Fin 32, tripCode t j.val = tripNext (tripEnt c j.val) (tripCode c j.val) (natBit c.trips.causes j.val)
          (causeOf (tripEnt c j.val) x.toNat))
      ∧ (∀ n : Fin 12, natBit (tripLegs t) n.val = true → legUp t n.val = false)
      ∧ Touches [.trips, .legs] (fun off => regIn 0x130900 0x130980 off || regsAt [0x130818, 0x13081C] off || regIn 0x140100 0x140400 off) c t := by
  obtain ⟨d, hd⟩ : ∃ d, d = { c with trips := { c.trips with inputs := x.toNat } } := ⟨_, rfl⟩
  obtain ⟨e, he⟩ : ∃ e, e = tripFollow d := ⟨_, rfl⟩
  obtain ⟨hin, hcauses, hcodes, htouch⟩ := tripFollow_cycle he
  have hform : t = legsFollowTrips e := by
    rw [ht, tripInputs, Nat.mod_eq_of_lt x.isLt, he, hd]
  have hlegs := legsFollowTrips_step e
  rw [← hform] at hlegs
  have htrips : t.trips = e.trips := hlegs.touches.same .trips (by simp) (by simp)
  have hmask : tripLegs t = tripLegs e := by
    unfold tripLegs tripCode tripEnt
    rw [htrips]
  refine ⟨?_, ?_, fun j => ?_, fun n hn => ?_, ?_⟩
  · rw [htrips, hin, hd]
  · rw [htrips, hcauses, hd]
    rfl
  · rw [tripCode, htrips]
    refine (hcodes j).trans ?_
    rw [hd]
    rfl
  · rw [hform]
    exact legUp_legsFollowTrips n.isLt (by rw [← hmask]; exact hn)
  · have hcd : Touches [.trips, .legs] tripRegs c d := by
      rw [hd]
      exact (Touches.refl _ _ c).part (.trips c _) (by simp)
    refine ((hcd.trans (htouch.mono (by simp) fun _ h => h)).mono (fun _ h => h) fun off h => ?_).trans
      (hlegs.touches.mono (by simp) fun off h => ?_)
    · rw [tripRegs] at h
      rw [h, Bool.true_or]
    · rw [legRegs] at h
      rw [h, Bool.or_true]

/-! The contacts. -/

section
variable (c : Chip) {n : Nat} (hn : n < 64) (lo w x : Nat)
include hn

omit hn in
theorem diMode_setStat : diMode (setFld c (diStat n) lo w x) n = diMode c n :=
  fld_setFld_other c _ _ _ _ _ _ _ (by rw [diCfg, diStat]; omega)

theorem diThr_setStat (i : Nat) : diThr (setFld c (diStat n) lo w x) n i = diThr c n i :=
  congrArg (· * 10) (fld_setFld_other c _ _ _ _ _ _ _ (by rw [diStat]; omega))

theorem diClass_setStat (ohm : Option Nat) : diClass (setFld c (diStat n) lo w x) n ohm = diClass c n ohm := by
  unfold diClass
  rw [diMode_setStat c lo w x]
  simp only [diThr_setStat c hn lo w x]

theorem diBeyond_setStat (old new : Nat) (ohm : Option Nat) :
    diBeyond (setFld c (diStat n) lo w x) n old new ohm = diBeyond c n old new ohm := by
  unfold diBeyond
  rw [diMode_setStat c lo w x]
  simp only [diThr_setStat c hn lo w x]

end

/-- The resistance of a sample, as its register holds it. -/
def sampleOhm (ohm : Option Nat) : Nat := match ohm with | some r => min 4095 (r / 10) | none => 4095

theorem sampleOhm_lt (ohm : Option Nat) : sampleOhm ohm < 2 ^ 12 := by
  cases ohm with
  | none => decide
  | some r =>
    rw [sampleOhm]
    omega

/-- A sample of an enabled contact: its resistance, then the state that it shows. -/
theorem contactSample_enabled {c : Chip} {n : Nat} (hn : n < 64) (hon : domOn c 26 = true) (hmode : diMode c n ≠ 0) (ohm : Option Nat) :
    contactSample c n ohm =
      let c1 := setFld c (diStat n) 16 12 (sampleOhm ohm)
      if diClass c n ohm ≠ fld c (diStat n) 0 2 ∧ diBeyond c n (fld c (diStat n) 0 2) (diClass c n ohm) ohm = true then
        let k := if (contactSt c n).cand = diClass c n ohm then (contactSt c n).count + 1 else 1
        if fld c (diCfg n) 8 8 ≤ k then diChange c1 n (diClass c n ohm)
        else setContact c1 n { contactSt c n with cand := diClass c n ohm, count := k }
      else setContact c1 n { contactSt c n with count := 0 } := by
  obtain ⟨c1, hc1⟩ : ∃ c1, c1 = setFld c (diStat n) 16 12 (sampleOhm ohm) := ⟨_, rfl⟩
  have hold : fld c1 (diStat n) 0 2 = fld c (diStat n) 0 2 := by
    rw [hc1, fld_setFld_field _ _ _ _ _ _ _ (by decide) (by decide)]
  have hclass : diClass c1 n ohm = diClass c n ohm := by
    rw [hc1, diClass_setStat c hn]
  have hbeyond (a b : Nat) : diBeyond c1 n a b ohm = diBeyond c n a b ohm := by
    rw [hc1, diBeyond_setStat c hn]
  have hcfg : fld c1 (diCfg n) 8 8 = fld c (diCfg n) 8 8 := by
    rw [hc1, fld_setFld_other _ _ _ _ _ _ _ _ (by rw [diCfg, diStat]; omega)]
  have hst : contactSt c1 n = contactSt c n := by
    rw [contactSt, hc1, setFld_contacts, contactSt]
  have hgo : (!domOn c 26 || diMode c n == 0) = false := by
    rw [hon, beq_eq_false_iff_ne.mpr hmode]
    rfl
  have hdef : contactSample c n ohm =
      if !domOn c 26 || diMode c n == 0 then c
      else
        if diClass c1 n ohm ≠ fld c1 (diStat n) 0 2 ∧ diBeyond c1 n (fld c1 (diStat n) 0 2) (diClass c1 n ohm) ohm = true then
          if fld c1 (diCfg n) 8 8 ≤ (if (contactSt c1 n).cand = diClass c1 n ohm then (contactSt c1 n).count + 1 else 1) then
            diChange c1 n (diClass c1 n ohm)
          else setContact c1 n { contactSt c1 n with
            cand := diClass c1 n ohm, count := if (contactSt c1 n).cand = diClass c1 n ohm then (contactSt c1 n).count + 1 else 1 }
        else setContact c1 n { contactSt c1 n with count := 0 } := by
    rw [hc1]
    rfl
  rw [hdef, hgo, if_neg Bool.false_ne_true, hold, hclass, hbeyond, hcfg, hst, hc1]

theorem contactSt_setContact (c : Chip) (n : Nat) (x : ContactSt) : contactSt (setContact c n x) n = x := smGet_smPut_self _ _ _ _

theorem contactSample_holds {c : Chip} {n : Nat} (hn : n < 64) {ohm : Option Nat} (hon : domOn c 26 = true) (hmode : diMode c n ≠ 0)
    (hstay : diClass c n ohm = fld c (diStat n) 0 2 ∨ diBeyond c n (fld c (diStat n) 0 2) (diClass c n ohm) ohm = false) {t : Chip}
    (ht : t = contactSample c n ohm) :
    fld t (diStat n) 16 12 = sampleOhm ohm ∧ fld t (diStat n) 0 2 = fld c (diStat n) 0 2 ∧ (contactSt t n).count = 0
      ∧ Touches [.contacts] (regAt (diStat n)) c t := by
  have hform : t = setContact (setFld c (diStat n) 16 12 (sampleOhm ohm)) n { contactSt c n with count := 0 } := by
    rw [ht, contactSample_enabled hn hon hmode]
    refine if_neg fun h => ?_
    rcases hstay with hs | hs
    · exact h.1 hs
    · rw [hs] at h
      exact absurd h.2 Bool.false_ne_true
  rw [hform]
  refine ⟨?_, ?_, ?_, ?_⟩
  · exact (fld_setFld_self c _ _ _ _ (by decide)).trans (Nat.mod_eq_of_lt (sampleOhm_lt ohm))
  · exact fld_setFld_field c _ _ _ _ _ _ (by decide) (by decide)
  · rw [contactSt_setContact]
  · exact ((Touches.refl _ _ c).setFld _ _ _ (by simp [regAt])).part (.contacts _ _) (by simp)

/-- Registers that no report writes and that set up no ring: those from the scan table to the recorder. -/
theorem quiet_of_range {off : Nat} (h : 0x100000 ≤ off ∧ off < 0x180000) : reportReg off = false ∧ ringSetup off = false := by
  constructor
  · rw [← Bool.not_eq_true]
    simp only [reportReg, Bool.or_eq_true, Bool.and_eq_true, decide_eq_true_eq, beq_iff_eq]
    omega
  · rw [← Bool.not_eq_true]
    simp only [ringSetup, Bool.and_eq_true, regIn_iff]
    omega

/-- Registers of a contact that no report writes, and that set up no ring. -/
theorem diRegs_quiet {n : Nat} (hn : n < 64) {off : Nat} (h : off = diStat n ∨ off = diCnt n) : reportReg off = false ∧ ringSetup off = false :=
  quiet_of_range (by rcases h with rfl | rfl <;> simp only [diStat, diCnt] <;> omega)

/-- A state found as often as the debounce count asks becomes the contact's state. -/
theorem diChange_state {c : Chip} {n v : Nat} (hn : n < 64) (hv : v < 4) {t : Chip} (ht : t = diChange c n v) :
    fld t (diStat n) 0 2 = v ∧ fld t (diCnt n) 0 16 = satInc 16 (fld c (diCnt n) 0 16)
      ∧ Within [.contacts] (regsAt [diStat n, diCnt n]) c t := by
  have hne : diCnt n ≠ diStat n := by
    rw [diCnt, diStat]
    omega
  have hstat : regsAt [diStat n, diCnt n] (diStat n) = true := by simp [regsAt]
  have hcnt : regsAt [diStat n, diCnt n] (diCnt n) = true := by simp [regsAt]
  obtain ⟨q, hq⟩ : ∃ q : Bool, q = (!flag c (diCfg n) 2 && !(contactSt c n).later.isEmpty) := ⟨_, rfl⟩
  obtain ⟨b, hb⟩ : ∃ b, b = setContact c n { contactSt c n with
      cand := v, count := 0, later := if flag c (diCfg n) 2 then (contactSt c n).later ++ [v] else [v] } := ⟨_, rfl⟩
  obtain ⟨d, hd⟩ : ∃ d, d = countFld (setFld b (diStat n) 0 2 v) (diCnt n) 0 16 := ⟨_, rfl⟩
  obtain ⟨e, he⟩ : ∃ e, e = if q then countFld d (diStat n) 8 8 else d := ⟨_, rfl⟩
  have hform : t = if 2 ≤ v then postPointFault (countFld e (diCnt n) 16 16) 0x39 (pt 1 n) v false else e := by
    rw [ht, he, hd, hb, hq]
    rfl
  have hbt : Within [.contacts] (regsAt [diStat n, diCnt n]) c b := by
    rw [hb]
    refine (Within.refl _ (fun off ho => ?_) c).part (.contacts c _) (by simp) (by simp)
    rw [regsAt, List.contains_iff_mem, List.mem_cons, List.mem_singleton] at ho
    exact (diRegs_quiet hn ho).2
  have hdt : Within [.contacts] (regsAt [diStat n, diCnt n]) c d := by
    rw [hd]
    exact (hbt.setFld _ _ _ hstat).countFld _ _ hcnt
  have het : Within [.contacts] (regsAt [diStat n, diCnt n]) c e := by
    rw [he]
    exact .ite (hdt.countFld _ _ hstat) hdt
  have hestat : fld e (diStat n) 0 2 = v := by
    have hdstat : fld d (diStat n) 0 2 = v := by
      rw [hd, countFld, fld_setFld_other _ _ _ _ _ _ _ _ (Ne.symm hne), fld_setFld_self _ _ _ _ _ (by decide)]
      exact Nat.mod_eq_of_lt hv
    rw [he]
    split
    · rw [countFld, fld_setFld_field _ _ _ _ _ _ _ (by decide) (by decide), hdstat]
    · exact hdstat
  have hecnt : fld e (diCnt n) 0 16 = satInc 16 (fld c (diCnt n) 0 16) := by
    have hdcnt : fld d (diCnt n) 0 16 = satInc 16 (fld c (diCnt n) 0 16) := by
      have hbcnt : fld (setFld b (diStat n) 0 2 v) (diCnt n) 0 16 = fld c (diCnt n) 0 16 := by
        rw [fld_setFld_other _ _ _ _ _ _ _ _ hne, hb]
        rfl
      rw [hd, fld_countFld_self _ _ _ _ (by decide), hbcnt]
    rw [he]
    split
    · rw [countFld, fld_setFld_other _ _ _ _ _ _ _ _ hne, hdcnt]
    · exact hdcnt
  rw [hform]
  split
  · have hrep := (Reports.refl (countFld e (diCnt n) 16 16)).postPointFault 0x39 (pt 1 n) v false
    refine ⟨?_, ?_, (het.countFld _ _ hcnt).report hrep⟩
    · rw [fld, hrep.reg (diRegs_quiet hn (.inl rfl)).1, countFld]
      exact (fld_setFld_other _ _ _ _ _ _ _ _ (Ne.symm hne)).trans hestat
    · rw [fld, hrep.reg (diRegs_quiet hn (.inr rfl)).1, countFld]
      exact (fld_setFld_field _ _ _ _ _ _ _ (by decide) (by decide)).trans hecnt
  · exact ⟨hestat, hecnt, het⟩

theorem diClass_lt (c : Chip) (n : Nat) (ohm : Option Nat) : diClass c n ohm < 4 := by
  unfold diClass
  repeat' split
  all_goals decide

theorem contactSample_changes {c : Chip} {n : Nat} (hn : n < 64) {ohm : Option Nat} (hon : domOn c 26 = true) (hmode : diMode c n ≠ 0)
    (hmove : diClass c n ohm ≠ fld c (diStat n) 0 2 ∧ diBeyond c n (fld c (diStat n) 0 2) (diClass c n ohm) ohm = true)
    (hcount : fld c (diCfg n) 8 8 ≤ (if (contactSt c n).cand = diClass c n ohm then (contactSt c n).count + 1 else 1)) {t : Chip}
    (ht : t = contactSample c n ohm) :
    fld t (diStat n) 0 2 = diClass c n ohm ∧ fld t (diCnt n) 0 16 = satInc 16 (fld c (diCnt n) 0 16)
      ∧ Changes [.contacts] (regsAt [diStat n, diCnt n]) c t := by
  rw [contactSample_enabled hn hon hmode] at ht
  dsimp only at ht
  rw [if_pos hmove, if_pos hcount] at ht
  obtain ⟨hstate, hcnt, hwithin⟩ := diChange_state hn (diClass_lt c n ohm) ht
  refine ⟨hstate, ?_, ?_⟩
  · rw [hcnt, fld_setFld_other _ _ _ _ _ _ _ _ (by rw [diCnt, diStat]; omega)]
  · have hset : Within [.contacts] (regsAt [diStat n, diCnt n]) c (setFld c (diStat n) 16 12 (sampleOhm ohm)) :=
      (Within.refl _ hwithin.calm c).setFld _ _ _ (by simp [regsAt])
    exact (hset.trans hwithin).changes

/-! The pulse inputs. -/

theorem pulseSt_setPulse (c : Chip) (m : Nat) (x : PulseSt) : pulseSt (setPulse c m x) m = x := smGet_smPut_self _ _ _ _

/-- COUNT wraps at 48 bits. -/
theorem pulseCount_setPulseCount (c : Chip) (m k : Nat) : pulseCount (setPulseCount c m k) m = k % 2 ^ 48 := by
  have hlow : reg (setPulseCount c m k) (piBase m + 0x14) = BitVec.ofNat 32 k := by
    rw [setPulseCount, reg_setReg_other _ _ _ _ (by omega), reg_setReg_self]
  have hhigh : reg (setPulseCount c m k) (piBase m + 0x18) = BitVec.ofNat 32 (k / 2 ^ 32 % 65536) := by
    rw [setPulseCount, reg_setReg_self]
  rw [pulseCount, hlow, hhigh, BitVec.toNat_ofNat, BitVec.toNat_ofNat]
  omega

/-- The measurement after an edge that counts. -/
def edgeCounted (x : PulseSt) (time : Nat) : PulseSt := match x.ref with
  | none => { x with ref := some time, last := time, edges := 0 }
  | some _ => { x with last := time, edges := x.edges + 1 }

theorem countEdge_counts {c : Chip} {m time : Nat} {t : Chip} (ht : t = countEdge c m time) :
    pulseCount t m = (pulseCount c m + 1) % 2 ^ 48 ∧ flag t (piBase m + 0x10) 1 = false ∧ pulseSt t m = edgeCounted (pulseSt c m) time
      ∧ Touches [.pulses] (regsAt [piBase m + 0x10, piBase m + 0x14, piBase m + 0x18]) c t := by
  have hform : t = setFlag (setPulseCount (setPulse c m (edgeCounted (pulseSt c m) time)) m (pulseCount c m + 1)) (piBase m + 0x10) 1 false := ht
  rw [hform]
  refine ⟨?_, flag_setFlag_self _ _ _ _ (by decide), ?_, ?_⟩
  · rw [pulseCount, reg_setFlag_other _ _ _ _ _ (by omega), reg_setFlag_other _ _ _ _ _ (by omega)]
    exact pulseCount_setPulseCount _ m _
  · rw [pulseSt, setFlag_pulses, setPulseCount, setReg_pulses, setReg_pulses]
    exact pulseSt_setPulse c m _
  · exact ((((Touches.refl _ _ c).part (.pulses c _) (by simp)).setReg _ (by simp [regsAt])).setReg _ (by simp [regsAt])).setFlag _ _
      (by simp [regsAt])

/-- The comparator's output moved and stayed as long as MINW asks. -/
theorem pulseEdge_moved {c : Chip} {m : Nat} {e : PulseStep} (hon : domOn c 26 = true) (hmoved : piLevel c m e.mv ≠ (pulseSt c m).level)
    (hwidth : fld c (piBase m) 8 8 * 40 ≤ e.width) :
    pulseEdge c m e =
      let c1 := setPulse c m { pulseSt c m with level := piLevel c m e.mv }
      if piCounts c m (piLevel c m e.mv) then countEdge c1 m e.time else c1 := by
  have hgo : (!domOn c 26 || piLevel c m e.mv == (pulseSt c m).level || decide (e.width < piMinw c m)) = false := by
    rw [hon, beq_eq_false_iff_ne.mpr hmoved, piMinw, decide_eq_false (Nat.not_lt.mpr hwidth)]
    rfl
  rw [pulseEdge]
  dsimp only
  rw [hgo]
  rfl

theorem pulseEdge_counts {c : Chip} {m : Nat} {e : PulseStep} (hon : domOn c 26 = true ∧ piEn c m = true)
    (hmoved : piLevel c m e.mv ≠ (pulseSt c m).level) (hwidth : fld c (piBase m) 8 8 * 40 ≤ e.width)
    (hedge : piLevel c m e.mv ≠ flag c (piBase m) 1) {t : Chip} (ht : t = pulseEdge c m e) :
    pulseCount t m = (pulseCount c m + 1) % 2 ^ 48 ∧ flag t (piBase m + 0x10) 1 = false
      ∧ pulseSt t m = edgeCounted { pulseSt c m with level := piLevel c m e.mv } e.time
      ∧ Touches [.pulses] (regsAt [piBase m + 0x10, piBase m + 0x14, piBase m + 0x18]) c t := by
  obtain ⟨d, hd⟩ : ∃ d, d = setPulse c m { pulseSt c m with level := piLevel c m e.mv } := ⟨_, rfl⟩
  have hcounts : piCounts c m (piLevel c m e.mv) = true := by
    rw [piCounts, hon.2, bne_iff_ne.mpr hedge]
    rfl
  rw [pulseEdge_moved hon.1 hmoved hwidth] at ht
  dsimp only at ht
  rw [if_pos hcounts, ← hd] at ht
  obtain ⟨hcount, hflag, hst, htouch⟩ := countEdge_counts ht
  have hdt : Touches [.pulses] (regsAt [piBase m + 0x10, piBase m + 0x14, piBase m + 0x18]) c d := by
    rw [hd]
    exact (Touches.refl _ _ c).part (.pulses c _) (by simp)
  refine ⟨?_, hflag, ?_, hdt.trans htouch⟩
  · rw [hcount, hd]
    rfl
  · rw [hst, hd, pulseSt_setPulse]

/-- An edge that does not count changes the comparator's output at most. -/
theorem pulseEdge_uncounted {c : Chip} {m : Nat} {e : PulseStep}
    (hstay : piLevel c m e.mv = (pulseSt c m).level ∨ e.width < fld c (piBase m) 8 8 * 40 ∨ piLevel c m e.mv = flag c (piBase m) 1) :
    pulseEdge c m e = c ∨ pulseEdge c m e = setPulse c m { pulseSt c m with level := piLevel c m e.mv } := by
  rw [pulseEdge]
  dsimp only
  split
  · exact .inl rfl
  · rename_i hgo
    simp only [Bool.or_eq_true, beq_iff_eq, decide_eq_true_eq, not_or] at hgo
    obtain ⟨⟨-, hmoved⟩, hwidth⟩ := hgo
    have hnot : ¬ piCounts c m (piLevel c m e.mv) = true := fun h => by
      simp only [piCounts, Bool.and_eq_true, bne_iff_ne] at h
      rcases hstay with hs | hs | hs
      · exact hmoved hs
      · exact hwidth hs
      · exact h.2 hs
    exact .inr (if_neg hnot)

/-- The end of a gate with edges takes the frequency of their whole periods. -/
theorem gateEnd_edges {c : Chip} {m time r : Nat} (hon : domOn c 26 = true ∧ piEn c m = true) (href : (pulseSt c m).ref = some r)
    (hedges : 1 ≤ (pulseSt c m).edges ∧ r < (pulseSt c m).last) (hgoes : pulseStopped c m time = false) {t : Chip} (ht : t = gateEnd c m time) :
    pulseFreq (pulseSt t m) = ((pulseSt c m).edges * 400000000 : Nat) / (((pulseSt c m).last - r : Nat) : Rat)
      ∧ (pulseSt t m).ref = some (pulseSt c m).last ∧ (pulseSt t m).edges = 0 ∧ Touches [.pulses] (regAt (piBase m + 0x10)) c t := by
  have hform : t = pulseOver (setPulse c m { pulseSt c m with
      ref := some (pulseSt c m).last, edges := 0, fNum := (pulseSt c m).edges * pulseTicks, fDen := (pulseSt c m).last - r }) m := by
    rw [ht, gateEnd, hon.1, hon.2, if_neg (by decide)]
    dsimp only
    rw [href]
    dsimp only
    rw [hgoes, if_pos hedges, if_neg Bool.false_ne_true]
  have hst : pulseSt t m = { pulseSt c m with
      ref := some (pulseSt c m).last, edges := 0, fNum := (pulseSt c m).edges * pulseTicks, fDen := (pulseSt c m).last - r } := by
    rw [hform, pulseSt, pulseOver, setFlag_pulses]
    exact pulseSt_setPulse c m _
  refine ⟨?_, by rw [hst], by rw [hst], ?_⟩
  · rw [hst, pulseFreq, if_neg (by dsimp only; omega)]
    rfl
  · rw [hform]
    exact ((Touches.refl _ _ c).part (.pulses c _) (by simp)).setFlag _ _ (by simp [regAt])

theorem pulseTimeout_stops {c : Chip} {m : Nat} (hon : domOn c 26 = true ∧ piEn c m = true) {t : Chip} (ht : t = pulseTimeout c m) :
    pulseFreq (pulseSt t m) = 0 ∧ flag t (piBase m + 0x10) 0 = false ∧ flag t (piBase m + 0x10) 1 = true
      ∧ Touches [.pulses] (regAt (piBase m + 0x10)) c t := by
  obtain ⟨d, hd⟩ : ∃ d, d = setPulse c m { pulseSt c m with fNum := 0, fDen := 1 } := ⟨_, rfl⟩
  have hform : t = setFlag (pulseOver d m) (piBase m + 0x10) 1 true := by
    rw [ht, pulseTimeout, hon.1, hon.2, if_neg (by decide), hd]
  have hzero : pulseFreq (pulseSt d m) = 0 := by
    rw [hd, pulseSt_setPulse, pulseFreq]
    simp
  refine ⟨?_, ?_, ?_, ?_⟩
  · have hst : pulseSt t m = pulseSt d m := by
      rw [hform, pulseSt, setFlag_pulses, pulseOver, setFlag_pulses, pulseSt]
    rw [hst, hzero]
  · rw [hform, flag_setFlag_bit _ _ _ _ _ (by decide) (by decide), pulseOver, flag_setFlag_self _ _ _ _ (by decide), hzero]
    decide +kernel
  · rw [hform, flag_setFlag_self _ _ _ _ (by decide)]
  · rw [hform, hd]
    exact (((Touches.refl _ _ c).part (.pulses c _) (by simp)).setFlag _ _ (by simp [regAt])).setFlag _ _ (by simp [regAt])

/-- Settles O38: the contact samples, the pulse measurement, and the cycle of the trip matrix. -/
theorem contactPulseAndTripCommandsComplete : Obligations.ContactPulseAndTripCommandsComplete := by
  unfold Obligations.ContactPulseAndTripCommandsComplete
  refine ⟨fun s n ohm v hon hv hstay => ?_, fun s n ohm v hon hv hmove hcount => ?_, fun s m e l hon hl hwidth hedge => ?_,
    fun s m e l hl hstay => ?_, fun s m time r hon href hedges hgoes => ?_, fun s m hon => ?_, fun s x => ?_, fun s x => ?_⟩
    <;> refine ⟨_, rfl, rfl, ?_⟩ <;> dsimp only
  · subst hv
    exact contactSample_holds n.isLt hon.1 hon.2 hstay rfl
  · subst hv
    exact contactSample_changes n.isLt hon.1 hon.2 hmove hcount rfl
  · obtain ⟨rfl, hmoved⟩ := hl
    obtain ⟨hcount, hflag, hst, htouch⟩ := pulseEdge_counts hon hmoved hwidth hedge rfl
    refine ⟨hcount, hflag, hst.trans ?_, htouch⟩
    cases href : (pulseSt s.chip m.val).ref <;> simp only [edgeCounted, href]
  · subst hl
    rcases pulseEdge_uncounted hstay with h | h <;> rw [h]
    · exact ⟨rfl, onlyParts_refl _ _, .inl rfl⟩
    · exact ⟨rfl, fun q hq => (PartStep.pulses s.chip _).others q fun h => hq (h ▸ List.mem_singleton_self _), .inr (pulseSt_setPulse _ _ _)⟩
  · exact gateEnd_edges hon href hedges hgoes rfl
  · exact pulseTimeout_stops hon rfl
  · exact tripInputs_cycle rfl
  · exact tripInputs_cycle rfl

end Sys2Proof.Machine
end

section
-- One proof at a time: every thread takes a stack of its own from the memory that a compile has.
set_option Elab.async false
/-! SUPPORT. The arming, the shorts and the carrier of the legs, and the position interfaces (R588 to R612). -/

namespace Sys2Proof.Machine

/-! What judges an arm request does not read the legs' CTRL registers. -/

/-- Between `a` and `b` only the CTRL register of a leg differs. -/
structure CtrlOnly (n : Nat) (a b : Chip) : Prop where
  small : n < 12
  touches : Touches [] (regAt (legBase n + 0x10)) a b

theorem CtrlOnly.reg {n : Nat} {a b : Chip} (h : CtrlOnly n a b) {off : Nat} (ho : ∀ k : Fin 12, off ≠ legBase k.val + 0x10) :
    reg b off = reg a off :=
  h.touches.reg (beq_eq_false_iff_ne.mpr (ho ⟨n, h.small⟩))

theorem CtrlOnly.fld {n : Nat} {a b : Chip} (h : CtrlOnly n a b) {off : Nat} (ho : ∀ k : Fin 12, off ≠ legBase k.val + 0x10) (lo w : Nat) :
    Machine.fld b off lo w = Machine.fld a off lo w := by
  rw [Machine.fld, h.reg ho, Machine.fld]

theorem CtrlOnly.tblBase {n : Nat} {a b : Chip} (h : CtrlOnly n a b) (code : Nat) : Machine.tblBase b code = Machine.tblBase a code := by
  unfold Machine.tblBase
  cases hd : tableDesc code with
  | none => rfl
  | some d =>
    have hfree : ∀ d ∈ tableDescs, ∀ k : Fin 12, d.stat ≠ legBase k.val + 0x10 := by decide +kernel
    have hact : activeCopy b d = activeCopy a d := h.fld (hfree d (List.mem_of_find?_eq_some hd)) 0 1
    simp only [hact]

theorem CtrlOnly.tbl {n : Nat} {a b : Chip} (h : CtrlOnly n a b) (code off m : Nat) : Machine.tbl b code off m = Machine.tbl a code off m := by
  rw [Machine.tbl, tmem, h.tblBase, show b.tables = a.tables from h.touches.same .tables (by simp) (by simp), Machine.tbl, tmem]

theorem CtrlOnly.outBad {n : Nat} {a b : Chip} (h : CtrlOnly n a b) (p : Nat) : Machine.outBad b p = Machine.outBad a p := by
  have hmode : b.mode = a.mode := h.touches.same .mode (by simp) (by simp)
  simp only [Machine.outBad, loopOfOut, loopBad, entryOf, scanBad, entryBad, wordBad, scanEntries, entOp, entPoint, h.tbl, h.tblBase, hmode]

theorem legBase_mod {off : Nat} (ho : off % 0x40 ≠ 0x10) (k : Fin 12) : off ≠ legBase k.val + 0x10 := by
  rw [legBase]
  omega

theorem CtrlOnly.groupOf {n : Nat} {a b : Chip} (h : CtrlOnly n a b) (k : Nat) : Machine.groupOf b k = Machine.groupOf a k := by
  have hgrp (j : Nat) : legGrp b j = legGrp a j := h.fld (fun i => by simp only [legBase]; omega) 16 3
  simp only [Machine.groupOf, hgrp]

theorem CtrlOnly.pairOf {n : Nat} {a b : Chip} (h : CtrlOnly n a b) (k : Nat) : Machine.pairOf b k = Machine.pairOf a k := by
  have hbip (j : Nat) : legBipolar b j = legBipolar a j := by
    rw [legBipolar, flag, h.fld (fun i => by simp only [legBase]; omega), legBipolar, flag]
  simp only [Machine.pairOf, lowestOf, h.groupOf, hbip] <;> rfl

theorem CtrlOnly.armRej {n : Nat} {a b : Chip} (h : CtrlOnly n a b) (k : Nat) : Machine.armRej b k = Machine.armRej a k := by
  have hmode : nodeMode b = nodeMode a := h.fld (fun i => by simp only [legBase]; omega) 0 4
  have hvdrv : vdrvOk b = vdrvOk a := by
    rw [vdrvOk, flag, h.fld (fun i => by simp only [legBase]; omega), vdrvOk, flag]
  have hdom : domOn b 22 = domOn a 22 := by
    rw [domOn, dom, show b.pwr = a.pwr from h.touches.same .pwr (by simp) (by simp), domOn, dom]
  have htrips : b.trips = a.trips := h.touches.same .trips (by simp) (by simp)
  have hpoints : b.points = a.points := h.touches.same .points (by simp) (by simp)
  have hlegs : b.legs = a.legs := h.touches.same .legs (by simp) (by simp)
  have hbip (j : Nat) : legBipolar b j = legBipolar a j := by
    rw [legBipolar, flag, h.fld (fun i => by simp only [legBase]; omega), legBipolar, flag]
  simp only [Machine.armRej, h.pairOf, outputsLive, hmode, h.outBad, hvdrv, hdom, tripLegs, tripCode, tripEnt, htrips, liveQw, pointWide,
    point, hpoints, leg, hlegs, wellFormedGroup, lowestOf, h.groupOf, hbip] <;> rfl

/-! Arming and disarming (R588 to R590). -/

def legCtrlRow : RegDesc := regN "ACT_LEGn_CTRL" 0x140110 12 0x40 [fd 0 1 .rw 0]

theorem findReg_legCtrl (n : Fin 12) : findReg (legBase n.val + 0x10) = some legCtrlRow := by
  revert n
  decide +kernel

/-- A write of CTRL by the keeper: EN follows it, and its action comes after. -/
theorem writeLegCtrl_eq (c : Chip) (n : Fin 12) (v : Bool) : ∃ d, CtrlOnly n.val c d
    ∧ writeLegCtrl c keeper n.val (if v then 1 else 0) allBytes =
        if isFollower d n.val then d else if v then armLeg d n.val else legLeave d n.val 0 6 := by
  obtain ⟨x, hx⟩ : ∃ x : Word, x = if v then 1 else 0 := ⟨_, rfl⟩
  obtain ⟨d, hd⟩ : ∃ d, d = setReg c (legBase n.val + 0x10) (keeperNow c (legBase n.val + 0x10) legCtrlRow x.toNat (2 ^ 32 - 1)) := ⟨_, rfl⟩
  have hflag : flag d (legBase n.val + 0x10) 0 = v := by
    have hfld : fld d (legBase n.val + 0x10) 0 1 = natBits x.toNat 0 1 := by
      rw [hd]
      exact (fld_keeperNow (d := legCtrlRow) (f := fd 0 1 .rw 0) (by decide +kernel) (by decide +kernel) c _ _ _).trans
        (fieldAfter_en (by decide) _ _)
    rw [flag, hfld, hx]
    cases v <;> decide
  have hleg : legOfOff (legBase n.val + 0x10) = n.val := by
    rw [legOfOff, legBase]
    omega
  have hmask (w : WriteCtx) (hw : w = keeperCtx c (legBase n.val + 0x10) legCtrlRow x.toNat (2 ^ 32 - 1)) : natBit w.mask 0 = true := by
    rw [hw]
    show natBit (effMask 0 legCtrlRow.fields (2 ^ 32 - 1)) 0 = true
    decide +kernel
  refine ⟨d, ⟨n.isLt, ?_⟩, ?_⟩
  · rw [hd]
    exact (Touches.refl _ _ c).setReg _ (by simp [regAt])
  · have hoff : (keeperCtx c (legBase n.val + 0x10) legCtrlRow x.toNat (2 ^ 32 - 1)).off = legBase n.val + 0x10 := rfl
    rw [writeLegCtrl, ← hx, writeWord_all hookLegCtrl x (findReg_legCtrl n) rfl, ← hd, hookLegCtrl, hoff, hleg, hflag, hmask _ rfl]
    rfl

theorem isFollower_of_alone {c : Chip} {n : Nat} (h : pairOf c n = none) : isFollower c n = false := by
  rw [isFollower, h]

theorem partner_of_alone {c : Chip} {n : Nat} (h : pairOf c n = none) : partner c n = none := by
  rw [partner, h]

/-- The group of a leg and its partner are read from the legs' CFG registers alone. -/
theorem groupOf_congr {a b : Chip} (h : ∀ k < 12, reg b (legBase k) = reg a (legBase k)) {n : Nat} (hn : n < 12) : groupOf b n = groupOf a n := by
  have hgrp {j : Nat} (hj : j < 12) : legGrp b j = legGrp a j := by
    rw [legGrp, fld, h j hj, legGrp, fld]
  rw [groupOf, hgrp hn, groupOf]
  refine ite_congr rfl (fun _ => rfl) fun _ => List.filter_congr fun k hk => ?_
  rw [hgrp (List.mem_range.mp hk)]

theorem groupOf_getD_lt {c : Chip} {n : Nat} (hn : n < 12) (i : Nat) : (groupOf c n).getD i 0 < 12 :=
  getD_lt (fun _ hp => groupOf_lt hn hp) (by decide) i

theorem pairOf_congr {a b : Chip} (h : ∀ k < 12, reg b (legBase k) = reg a (legBase k)) {n : Nat} (hn : n < 12) : pairOf b n = pairOf a n := by
  have hbip {j : Nat} (hj : j < 12) : legBipolar b j = legBipolar a j := by
    rw [legBipolar, flag, fld, h j hj, legBipolar, flag, fld]
  have hlow : lowestOf b n = lowestOf a n := by
    rw [lowestOf, groupOf_congr h hn, lowestOf]
  unfold pairOf
  dsimp only
  rw [hlow, groupOf_congr h hn, hbip (lowestOf_lt hn), hbip (groupOf_getD_lt hn 1)]

theorem partner_congr {a b : Chip} (h : ∀ k < 12, reg b (legBase k) = reg a (legBase k)) {n : Nat} (hn : n < 12) : partner b n = partner a n := by
  rw [partner, pairOf_congr h hn, partner]

theorem pairOf_alone {c : Chip} {n : Nat} (h : groupOf c n = [n]) : pairOf c n = none := by
  simp [pairOf, h]

/-- The status registers of the legs. -/
def legStats : Nat → Bool := regsAt ((List.range 12).map legStat)

theorem legStats_iff {off : Nat} : legStats off = true ↔ ∃ k, k < 12 ∧ off = legStat k := by
  rw [legStats, regsAt, List.contains_iff_mem, List.mem_map]
  exact ⟨fun ⟨k, hk, he⟩ => ⟨k, List.mem_range.mp hk, he.symm⟩, fun ⟨k, hk, he⟩ => ⟨k, List.mem_range.mpr hk, he.symm⟩⟩

theorem legStats_stat {n : Nat} (hn : n < 12) : legStats (legStat n) = true := legStats_iff.mpr ⟨n, hn, rfl⟩

theorem legStats_not {off : Nat} (h : off % 0x40 ≠ 0x14) : legStats off = false := Bool.eq_false_iff.mpr fun hs => by
  obtain ⟨k, -, hk⟩ := legStats_iff.mp hs
  rw [hk, legStat, legBase] at h
  omega

theorem legStats_legs {off : Nat} (h : legStats off = true) : legRegs off = true := by
  obtain ⟨k, hk, rfl⟩ := legStats_iff.mp h
  exact legRegs_at (k := 0x14) hk (by decide)

theorem legRegs_quiet {off : Nat} (h : legRegs off = true) : reportReg off = false ∧ ringSetup off = false := by
  rw [legRegs, regIn_iff] at h
  exact quiet_of_range (by omega)

theorem legStats_calm (off : Nat) (h : legStats off = true) : ringSetup off = false := (legRegs_quiet (legStats_legs h)).2

theorem legStat_calm {n : Nat} (hn : n < 12) (off : Nat) (h : regAt (legStat n) off = true) : ringSetup off = false :=
  regAt_calm (legStats_calm _ (legStats_stat hn)) off h

/-- Of the registers of the legs only their status changes: the others are read as before. -/
theorem Within.legReg {ps : List Part} {a b : Chip} (h : Within ps legStats a b) {k j : Nat} (hk : k < 12) (hj : j < 0x40) (hne : j ≠ 0x14) :
    Machine.reg b (legBase k + j) = Machine.reg a (legBase k + j) :=
  h.reg (legStats_not (by rw [legBase]; omega)) (legRegs_quiet (legRegs_at hk hj)).1

theorem Touches.legReg {ps : List Part} {a b : Chip} (h : Touches ps legStats a b) {k j : Nat} (hj : j < 0x40) (hne : j ≠ 0x14) :
    Machine.reg b (legBase k + j) = Machine.reg a (legBase k + j) :=
  h.reg (legStats_not (by rw [legBase]; omega))

/-! A leg that leaves service or faults (R590, R591, R598). -/

theorem legLeave1_stat (c : Chip) (n st cause : Nat) : Touches [.legs] (regAt (legStat n)) c (legLeave1 c n st cause) := by
  have hat : regAt (legStat n) (legStat n) = true := by simp [regAt]
  unfold legLeave1
  split
  · exact (((Touches.refl _ _ c).setFld _ _ _ hat).setFld _ _ _ hat).modLeg _ _ (by simp)
  · exact .refl _ _ c

theorem regAt_stats {n : Nat} (hn : n < 12) (off : Nat) (h : regAt (legStat n) off = true) : legStats off = true := by
  rw [beq_iff_eq.mp h]
  exact legStats_stat hn

/-- A leg without a partner leaves alone. -/
theorem legLeave_alone {c : Chip} {n : Nat} (hn : n < 12) (st cause : Nat) (hup : legUp c n = true) (h : pairOf c n = none) :
    legLeave c n st cause = legLeave1 c n st cause := by
  have hpair : pairOf (legLeave1 c n st cause) n = none := by
    have htouch := (legLeave1_stat c n st cause).mono (fun _ h => h) (regAt_stats hn)
    rw [pairOf_congr (fun k _ => htouch.legReg (k := k) (j := 0) (by decide) (by decide)) hn, h]
  rw [legLeave, if_pos hup, partnerFollows, partner_of_alone hpair]

theorem leg_modLeg (c : Chip) (n : Nat) (f : LegSt → LegSt) : leg (modLeg c n f) n = f (leg c n) := smGet_smPut_self _ _ _ _

theorem leg_modLeg_other (c : Chip) {n k : Nat} (h : k ≠ n) (f : LegSt → LegSt) : leg (modLeg c n f) k = leg c k :=
  smGet_smPut_other _ _ _ _ _ h

/-- What leaving leaves: the state, the cause and the gates of the leg. -/
theorem legLeave1_up {c : Chip} {n st cause : Nat} (hst : st < 4) (hcause : cause < 16) (hup : legUp c n = true) :
    legState (legLeave1 c n st cause) n = st ∧ fld (legLeave1 c n st cause) (legStat n) 8 4 = cause
      ∧ (∀ lo w, 2 ≤ lo ∧ lo + w ≤ 8 ∨ 12 ≤ lo → fld (legLeave1 c n st cause) (legStat n) lo w = fld c (legStat n) lo w)
      ∧ leg (legLeave1 c n st cause) n
        = { leg c n with next := none, clamped := false, vds := false, runs := false, left := true, soft := false } := by
  rw [legLeave1, if_pos hup]
  refine ⟨?_, ?_, fun lo w h => ?_, ?_⟩
  · refine (fld_setFld_field _ _ _ _ _ _ _ (by decide) (by decide)).trans ?_
    exact (fld_setFld_self c _ _ _ _ (by decide)).trans (Nat.mod_eq_of_lt hst)
  · exact (fld_setFld_self _ _ _ _ _ (by decide)).trans (Nat.mod_eq_of_lt hcause)
  · refine (fld_setFld_field _ _ _ _ _ _ _ (by decide) (by omega)).trans ?_
    exact fld_setFld_field c _ _ _ _ _ _ (by decide) (by omega)
  · rw [leg_modLeg, leg, setFld_legs, setFld_legs, leg]

/-- A short is counted and reported. -/
theorem shortReport_counts {c : Chip} {n : Nat} (hn : n < 12) (extra : Nat) {t : Chip} (ht : t = shortReport c n extra) :
    fld t (legStat n) 24 8 = satInc 8 (fld c (legStat n) 24 8) ∧ (∀ lo w, lo + w ≤ 24 → fld t (legStat n) lo w = fld c (legStat n) lo w)
      ∧ t.legs = c.legs ∧ Within [] (regAt (legStat n)) c t := by
  have hrep := (Reports.refl (countFld c (legStat n) 24 8)).postPointFault 0x41 (legPt n) (fld (countFld c (legStat n) 24 8) (legStat n) 3 2 + extra) false
  have hform : Reports (countFld c (legStat n) 24 8) t := by
    rw [ht]
    exact (Reports.refl _).postPointFault _ _ _ _
  have hreg : reg t (legStat n) = reg (countFld c (legStat n) 24 8) (legStat n) := hform.reg (legRegs_quiet (legStats_legs (legStats_stat hn))).1
  refine ⟨?_, fun lo w h => ?_, ?_, ?_⟩
  · rw [fld, hreg]
    exact fld_countFld_self c _ _ _ (by decide)
  · rw [fld, hreg]
    exact fld_setFld_field c _ _ _ _ _ _ (by decide) (.inl h)
  · rw [show t.legs = (countFld c (legStat n) 24 8).legs from hform.same .legs (by simp [reportParts]), countFld_legs]
  · exact ((Within.refl _ (legStat_calm hn) c).countFld _ _ (by simp [regAt])).report hform

/-- A leg without a partner that is in service, or has left it in this carrier period, faults. -/
theorem legFault_alone {c : Chip} {n : Nat} (hn : n < 12) (soft : Bool) (halone : pairOf c n = none) (hst : legState c n ≠ 3)
    (hlive : shortLive c n = true) {t : Chip} (ht : t = legFault soft c n) :
    legState t n = 3 ∧ fld t (legStat n) 8 4 = 8 ∧ flag t (legStat n) 3 = flag c (legStat n) 3
      ∧ fld t (legStat n) 24 8 = satInc 8 (fld c (legStat n) 24 8) ∧ (leg t n).fired = (leg c n).fired
      ∧ Within [.legs] (regAt (legStat n)) c t := by
  have hat : regAt (legStat n) (legStat n) = true := by simp [regAt]
  obtain ⟨d, hd⟩ : ∃ d, d = if legUp c n then legLeave c n 3 8
      else if (leg c n).left then setFld (setFld c (legStat n) 0 2 3) (legStat n) 8 4 8 else setFld c (legStat n) 0 2 3 := ⟨_, rfl⟩
  have hfields : legState d n = 3 ∧ fld d (legStat n) 8 4 = 8
      ∧ (∀ lo w, 2 ≤ lo ∧ lo + w ≤ 8 ∨ 12 ≤ lo → fld d (legStat n) lo w = fld c (legStat n) lo w) ∧ (leg d n).fired = (leg c n).fired
      ∧ Touches [.legs] (regAt (legStat n)) c d := by
    cases hup : legUp c n with
    | true =>
      rw [hup, if_pos rfl, legLeave_alone hn 3 8 hup halone] at hd
      obtain ⟨hs, hcause, hrest, hleg⟩ := legLeave1_up (st := 3) (cause := 8) (by decide) (by decide) hup
      rw [hd]
      exact ⟨hs, hcause, hrest, by rw [hleg], legLeave1_stat c n 3 8⟩
    | false =>
      have hleft : (leg c n).left = true := by
        rw [shortLive, hup] at hlive
        exact hlive
      rw [hup, if_neg Bool.false_ne_true, hleft, if_pos rfl] at hd
      rw [hd]
      refine ⟨?_, ?_, fun lo w h => ?_, ?_, ((Touches.refl _ _ c).setFld _ _ _ hat).setFld _ _ _ hat⟩
      · refine (fld_setFld_field _ _ _ _ _ _ _ (by decide) (by decide)).trans ?_
        exact fld_setFld_self c _ _ _ _ (by decide)
      · exact fld_setFld_self _ _ _ _ _ (by decide)
      · refine (fld_setFld_field _ _ _ _ _ _ _ (by decide) (by omega)).trans ?_
        exact fld_setFld_field c _ _ _ _ _ _ (by decide) (by omega)
      · rw [leg, setFld_legs, setFld_legs, leg]
  obtain ⟨hs, hcause, hrest, hfired, htouch⟩ := hfields
  obtain ⟨e, he⟩ : ∃ e, e = modLeg d n fun x => { x with soft := soft && !natBit (tripLegs c) n, vds := false } := ⟨_, rfl⟩
  have hform : t = shortReport e n 0 := by
    rw [ht, legFault, if_neg hst, he, hd]
  have hefld (lo w : Nat) : fld e (legStat n) lo w = fld d (legStat n) lo w := by
    rw [he]
    rfl
  have het : Within [.legs] (regAt (legStat n)) c e := by
    refine (Within.refl _ (legStat_calm hn) c).touch ?_ (by simp)
    rw [he]
    exact htouch.modLeg _ _ (by simp)
  obtain ⟨hcount, hkeep, hlegs, hrep⟩ := shortReport_counts hn 0 hform
  refine ⟨?_, ?_, ?_, ?_, ?_, het.trans (hrep.mono (by simp) (fun _ h => h) (legStat_calm hn))⟩
  · exact (hkeep 0 2 (by decide)).trans ((hefld 0 2).trans hs)
  · rw [hkeep 8 4 (by decide), hefld, hcause]
  · rw [flag, hkeep 3 1 (by decide), hefld, hrest 3 1 (by decide), flag]
  · rw [hcount, hefld, hrest 24 8 (by decide)]
  · rw [leg, hlegs, he]
    exact (congrArg LegSt.fired (leg_modLeg d n _)).trans hfired

/-! Shorts (R598 to R603). -/

/-- Legs that fault: their status changes, and none that is FAULTED or marked by a cross short stops being so. -/
structure ShortStep (a b : Chip) : Prop where
  within : Within [.legs] legStats a b
  faulted : ∀ k, k < 12 → legState a k = 3 → legState b k = 3
  mark : ∀ k, k < 12 → flag a (legStat k) 4 = true → flag b (legStat k) 4 = true

theorem ShortStep.refl (c : Chip) : ShortStep c c := ⟨.refl _ legStats_calm c, fun _ _ h => h, fun _ _ h => h⟩

theorem ShortStep.trans {a b c : Chip} (h : ShortStep a b) (k : ShortStep b c) : ShortStep a c :=
  ⟨h.within.trans k.within, fun n hn hs => k.faulted n hn (h.faulted n hn hs), fun n hn hs => k.mark n hn (h.mark n hn hs)⟩

theorem ShortStep.foldl {β : Type} (f : Chip → β → Chip) (xs : List β) (hf : ∀ (c : Chip), ∀ x ∈ xs, ShortStep c (f c x)) (c : Chip) :
    ShortStep c (xs.foldl f c) := by
  induction xs generalizing c with
  | nil => exact .refl c
  | cons x xs ih => exact (hf c x List.mem_cons_self).trans (ih (fun c y hy => hf c y (List.mem_cons_of_mem _ hy)) _)

theorem ShortStep.groupOf {a b : Chip} (h : ShortStep a b) {n : Nat} (hn : n < 12) : Machine.groupOf b n = Machine.groupOf a n :=
  groupOf_congr (fun _ hk => h.within.legReg (j := 0) hk (by decide) (by decide)) hn

/-- A step of the status of one leg, with what it does there. -/
theorem ShortStep.of_leg {a b : Chip} {n : Nat} (hn : n < 12) (h : Within [.legs] (regAt (legStat n)) a b)
    (hs : legState a n = 3 → legState b n = 3) (hm : flag a (legStat n) 4 = true → flag b (legStat n) 4 = true) : ShortStep a b := by
  have hother {k : Nat} (hk : k < 12) (hne : k ≠ n) : reg b (legStat k) = reg a (legStat k) :=
    h.reg (beq_eq_false_iff_ne.mpr (legStat_ne hne)) (legRegs_quiet (legStats_legs (legStats_stat hk))).1
  refine ⟨h.mono (fun _ h => h) (regAt_stats hn) legStats_calm, fun k hk hs' => ?_, fun k hk hm' => ?_⟩
  · rcases eq_or_ne k n with rfl | hne
    · exact hs hs'
    · rw [legState, fld, hother hk hne]
      exact hs'
  · rcases eq_or_ne k n with rfl | hne
    · exact hm hm'
    · rw [flag, fld, hother hk hne]
      exact hm'

theorem legUp_faulted {c : Chip} {n : Nat} (h : legState c n = 3) : legUp c n = false := legUp_eq_false (.inr h)

theorem legLeave1_short (c : Chip) {n : Nat} (hn : n < 12) {st cause : Nat} (hst : st < 4) (hcause : cause < 16) : ShortStep c (legLeave1 c n st cause) := by
  refine .of_leg hn ((Within.refl _ (legStat_calm hn) c).touch (legLeave1_stat c n st cause) (by simp)) (fun hs => ?_) fun hm => ?_
  · rw [legLeave1, if_neg (by simp [legUp_faulted hs])]
    exact hs
  · cases hup : legUp c n with
    | false => rwa [legLeave1, hup, if_neg Bool.false_ne_true]
    | true =>
      obtain ⟨-, -, hrest, -⟩ := legLeave1_up hst hcause hup
      rw [flag, hrest 4 1 (by decide)]
      exact hm

theorem partnerFollows_short (c : Chip) {n : Nat} (hn : n < 12) : ShortStep c (partnerFollows c n) := by
  unfold partnerFollows
  split
  · exact legLeave1_short c (partner_lt hn ‹_›) (by decide) (by decide)
  · exact .refl c

theorem legLeave_short (c : Chip) {n : Nat} (hn : n < 12) {st cause : Nat} (hst : st < 4) (hcause : cause < 16) : ShortStep c (legLeave c n st cause) := by
  unfold legLeave
  split
  · exact (legLeave1_short c hn hst hcause).trans (partnerFollows_short _ hn)
  · exact .refl c

theorem modLeg_short (c : Chip) (n : Nat) (f : LegSt → LegSt) : ShortStep c (modLeg c n f) :=
  ⟨(Within.refl _ legStats_calm c).part (.legs c _) (by simp) (by simp), fun _ _ h => h, fun _ _ h => h⟩

theorem shortReport_short (c : Chip) {n : Nat} (hn : n < 12) (extra : Nat) : ShortStep c (shortReport c n extra) := by
  obtain ⟨-, hkeep, -, hwithin⟩ := shortReport_counts (c := c) hn extra rfl
  refine .of_leg hn (hwithin.mono (by simp) (fun _ h => h) (legStat_calm hn)) (fun hs => ?_) fun hm => ?_
  · exact (hkeep 0 2 (by decide)).trans hs
  · rw [flag, hkeep 4 1 (by decide)]
    exact hm

theorem setFault_short (c : Chip) {n : Nat} (hn : n < 12) : ShortStep c (setFld c (legStat n) 0 2 3) := by
  refine .of_leg hn ((Within.refl _ (legStat_calm hn) c).setFld _ _ _ (by simp [regAt])) (fun _ => ?_) fun hm => ?_
  · exact fld_setFld_self c _ _ _ _ (by decide)
  · rw [flag, fld_setFld_field _ _ _ _ _ _ _ (by decide) (by decide)]
    exact hm

theorem setCause_short (c : Chip) {n : Nat} (hn : n < 12) (x : Nat) : ShortStep c (setFld c (legStat n) 8 4 x) := by
  refine .of_leg hn ((Within.refl _ (legStat_calm hn) c).setFld _ _ _ (by simp [regAt])) (fun hs => ?_) fun hm => ?_
  · exact (fld_setFld_field _ _ _ _ _ _ _ (by decide) (by decide)).trans hs
  · rw [flag, fld_setFld_field _ _ _ _ _ _ _ (by decide) (by decide)]
    exact hm

/-- The leg before its fault is reported: in FAULTED, or as it was where it was there. -/
def legFaulting (c : Chip) (n : Nat) : Chip :=
  if legUp c n then legLeave c n 3 8
  else if (leg c n).left then setFld (setFld c (legStat n) 0 2 3) (legStat n) 8 4 8
  else setFld c (legStat n) 0 2 3

theorem legFaulting_short (c : Chip) {n : Nat} (hn : n < 12) : ShortStep c (legFaulting c n) ∧ legState (legFaulting c n) n = 3 := by
  unfold legFaulting
  split
  · rename_i hup
    refine ⟨legLeave_short c hn (by decide) (by decide), ?_⟩
    rw [legLeave, if_pos hup]
    exact (partnerFollows_short _ hn).faulted n hn (legState_leave1 (by decide) hup)
  · split
    · refine ⟨(setFault_short c hn).trans (setCause_short _ hn 8), (setCause_short _ hn 8).faulted n hn ?_⟩
      exact fld_setFld_self c _ _ _ _ (by decide)
    · exact ⟨setFault_short c hn, fld_setFld_self c _ _ _ _ (by decide)⟩

/-- A fault of a leg, whatever its group. -/
theorem legFault_short (soft : Bool) (c : Chip) {n : Nat} (hn : n < 12) : ShortStep c (legFault soft c n) ∧ legState (legFault soft c n) n = 3 := by
  by_cases hs : legState c n = 3
  · rw [legFault, if_pos hs]
    exact ⟨.refl c, hs⟩
  · have hform : legFault soft c n
        = shortReport (modLeg (legFaulting c n) n fun x => { x with soft := soft && !natBit (tripLegs c) n, vds := false }) n 0 := by
      rw [legFault, if_neg hs, legFaulting]
    obtain ⟨hstep, hstate⟩ := legFaulting_short c hn
    have hrest := (modLeg_short (legFaulting c n) n fun x => { x with soft := soft && !natBit (tripLegs c) n, vds := false }).trans
      (shortReport_short _ hn 0)
    rw [hform]
    exact ⟨hstep.trans hrest, hrest.faulted n hn hstate⟩

theorem setMark_short (c : Chip) {n : Nat} (hn : n < 12) {i : Nat} (hi : i = 3 ∨ i = 4) : ShortStep c (setFlag c (legStat n) i true) := by
  refine .of_leg hn ((Within.refl _ (legStat_calm hn) c).setFlag _ _ (by simp [regAt])) (fun hs => ?_) fun hm => ?_
  · exact (fld_setFld_field c _ _ _ _ _ _ (by omega) (by omega)).trans hs
  · rcases hi with rfl | rfl
    · rw [flag_setFlag_bit _ _ _ _ _ (by decide) (by decide)]
      exact hm
    · exact flag_setFlag_self _ _ _ _ (by decide)

/-- A member of a folded group is in FAULTED at the end, when its own step leaves it there. -/
theorem ShortStep.foldl_faulted (f : Chip → Nat → Chip) {xs : List Nat} (hf : ∀ (c : Chip), ∀ x ∈ xs, ShortStep c (f c x)) {k : Nat}
    (hk : k ∈ xs) (hlt : k < 12) (hself : ∀ c, legState (f c k) k = 3) (c : Chip) : legState (xs.foldl f c) k = 3 := by
  induction xs generalizing c with
  | nil => exact absurd hk (by simp)
  | cons x xs ih =>
    have hrest : ∀ (c : Chip), ∀ x ∈ xs, ShortStep c (f c x) := fun c z hz => hf c z (List.mem_cons_of_mem _ hz)
    rcases List.mem_cons.mp hk with rfl | hk
    · exact (ShortStep.foldl f xs hrest _).faulted k hlt (hself c)
    · exact ih hrest hk _

theorem ShortStep.foldl_mark (f : Chip → Nat → Chip) {xs : List Nat} (hf : ∀ (c : Chip), ∀ x ∈ xs, ShortStep c (f c x)) {k : Nat}
    (hk : k ∈ xs) (hlt : k < 12) (hself : ∀ c, flag (f c k) (legStat k) 4 = true) (c : Chip) : flag (xs.foldl f c) (legStat k) 4 = true := by
  induction xs generalizing c with
  | nil => exact absurd hk (by simp)
  | cons x xs ih =>
    have hrest : ∀ (c : Chip), ∀ x ∈ xs, ShortStep c (f c x) := fun c z hz => hf c z (List.mem_cons_of_mem _ hz)
    rcases List.mem_cons.mp hk with rfl | hk
    · exact (ShortStep.foldl f xs hrest _).mark k hlt (hself c)
    · exact ih hrest hk _

theorem crossShort_marks (c : Chip) {n : Nat} (hn : n < 12) : ShortStep c
    (((groupOf c n).filter fun k => (leg c k).fired).foldl (fun c k => setFlag c (legStat k) 4 true) c) :=
  .foldl _ _ (fun c _ hj => setMark_short c (groupOf_lt hn (List.mem_of_mem_filter hj)) (.inr rfl)) c

theorem crossShort_faults (g : Chip) {n : Nat} (hn : n < 12) (d : Chip) : ShortStep d
    ((groupOf g n).foldl (fun c k => modLeg (legFault false c k) k fun x => { x with soft := false }) d) :=
  .foldl _ _ (fun c _ hj => (legFault_short false c (groupOf_lt hn hj)).1.trans (modLeg_short _ _ _)) d

/-- A cross short puts every leg of the group in FAULTED, and marks those that fired. -/
theorem crossShort_group (c : Chip) {n : Nat} (hn : n < 12) : ShortStep c (crossShort c n)
    ∧ (∀ k ∈ groupOf c n, legState (crossShort c n) k = 3)
    ∧ ∀ k ∈ groupOf c n, (leg c k).fired = true → flag (crossShort c n) (legStat k) 4 = true := by
  have hfaults (d : Chip) := crossShort_faults c hn d
  refine ⟨(crossShort_marks c hn).trans (hfaults _), fun k hk => ?_, fun k hk hfired => ?_⟩
  · exact ShortStep.foldl_faulted _ (fun c _ hj => (legFault_short false c (groupOf_lt hn hj)).1.trans (modLeg_short _ _ _)) hk
      (groupOf_lt hn hk) (fun c => (legFault_short false c (groupOf_lt hn hk)).2) _
  · refine (hfaults _).mark k (groupOf_lt hn hk) ?_
    exact ShortStep.foldl_mark _ (fun c _ hj => setMark_short c (groupOf_lt hn (List.mem_of_mem_filter hj)) (.inr rfl))
      (List.mem_filter.mpr ⟨hk, hfired⟩) (groupOf_lt hn hk) (fun c => flag_setFlag_self _ _ _ _ (by decide)) _

/-! What the detectors see. -/

/-- The leg with what its detectors saw. -/
def shortSeen (c : Chip) (n : Nat) (phase gate blanking : Bool) : Chip :=
  modLeg c n fun x => { x with firing := phase, vds := gate && legUp c n, fired := true, clamped := blanking && legUp c n }

/-- The same, with its SHORT flag where the leg faults. -/
def shortMarked (c : Chip) (n : Nat) (phase gate blanking : Bool) : Chip :=
  if blanking || !shortLive c n then shortSeen c n phase gate blanking
  else setFlag (shortSeen c n phase gate blanking) (legStat n) 3 true

theorem shortFires_eq {c : Chip} {n : Nat} {phase gate blanking : Bool} (hpow : legsPowered c = true) (hlive : (phase || shortLive c n) = true) :
    shortFires c n phase gate blanking =
      let d := shortMarked c n phase gate blanking
      if 2 ≤ ((groupOf d n).filter fun k => (leg d k).fired).length then crossShort d n
      else if blanking || !shortLive c n then d else legFault true d n := by
  have hgo : (!legsPowered c || !(phase || shortLive c n)) = false := by
    rw [hpow, hlive]
    rfl
  unfold shortFires
  dsimp only
  rw [hgo, if_neg Bool.false_ne_true]
  rfl

theorem shortMarked_short (c : Chip) {n : Nat} (hn : n < 12) (phase gate blanking : Bool) : ShortStep c (shortMarked c n phase gate blanking) := by
  unfold shortMarked
  split
  · exact modLeg_short c n _
  · exact (modLeg_short c n _).trans (setMark_short _ hn (.inl rfl))

theorem shortFires_short (c : Chip) {n : Nat} (hn : n < 12) (phase gate blanking : Bool) : ShortStep c (shortFires c n phase gate blanking) := by
  by_cases hgo : (!legsPowered c || !(phase || shortLive c n)) = true
  · have hstay : shortFires c n phase gate blanking = c := by
      unfold shortFires
      exact if_pos hgo
    rw [hstay]
    exact .refl c
  · simp only [Bool.or_eq_true, Bool.not_eq_true', not_or, Bool.not_eq_false] at hgo
    rw [shortFires_eq hgo.1 (by rw [Bool.or_eq_true]; exact hgo.2)]
    refine (shortMarked_short c hn phase gate blanking).trans ?_
    dsimp only
    split
    · exact (crossShort_group _ hn).1
    · split
      · exact .refl _
      · exact (legFault_short true _ hn).1

theorem leg_shortMarked (c : Chip) (n : Nat) (phase gate blanking : Bool) : leg (shortMarked c n phase gate blanking) n
    = { leg c n with firing := phase, vds := gate && legUp c n, fired := true, clamped := blanking && legUp c n } := by
  unfold shortMarked
  split
  · exact leg_modLeg c n _
  · rw [leg, setFlag_legs]
    exact leg_modLeg c n _

theorem leg_shortMarked_other (c : Chip) {n k : Nat} (h : k ≠ n) (phase gate blanking : Bool) :
    leg (shortMarked c n phase gate blanking) k = leg c k := by
  unfold shortMarked
  split
  · exact leg_modLeg_other c h _
  · rw [leg, setFlag_legs]
    exact leg_modLeg_other c h _

theorem legsPowered_of_on {c : Chip} (h : domOn c 22 = true) : legsPowered c = true := by
  rw [legsPowered, h, Bool.true_or]

theorem groupOf_alone {c : Chip} {n : Nat} (h : legGrp c n = 7) : groupOf c n = [n] := if_pos h

/-- Without another leg of its group that fires, the leg alone clamps or faults. -/
theorem shortFires_alone {c : Chip} {n : Nat} (hn : n < 12) {phase gate blanking : Bool} (hpow : legsPowered c = true)
    (hlive : shortLive c n = true) (hgrp : groupOf c n = [n]) :
    shortFires c n phase gate blanking =
      if blanking then shortSeen c n phase gate blanking
      else legFault true (setFlag (shortSeen c n phase gate blanking) (legStat n) 3 true) n := by
  have hg : groupOf (shortMarked c n phase gate blanking) n = [n] := by
    rw [(shortMarked_short c hn phase gate blanking).groupOf hn, hgrp]
  have hlen : ¬ 2 ≤ (([n] : List Nat).filter fun k => (leg (shortMarked c n phase gate blanking) k).fired).length := fun h =>
    absurd (Nat.le_trans h (List.length_filter_le _ _)) (by simp)
  rw [shortFires_eq hpow (by rw [hlive, Bool.or_true])]
  dsimp only
  rw [hg, if_neg hlen, shortMarked, hlive]
  cases blanking with
  | false => simp only [Bool.false_or, Bool.not_true, Bool.false_eq_true, if_false]
  | true => simp only [Bool.true_or, if_true]

/-- A leg that faults alone, by what its detectors saw. -/
theorem shortFires_faults {c : Chip} {n : Nat} (hn : n < 12) {phase gate : Bool} (hpow : legsPowered c = true)
    (hlive : shortLive c n = true) (hgrp : groupOf c n = [n]) (hst : legState c n ≠ 3) {t : Chip} (ht : t = shortFires c n phase gate false) :
    (leg t n).fired = true ∧ legState t n = 3 ∧ flag t (legStat n) 3 = true ∧ fld t (legStat n) 8 4 = 8
      ∧ fld t (legStat n) 24 8 = satInc 8 (fld c (legStat n) 24 8) ∧ Within [.legs] (regAt (legStat n)) c t := by
  obtain ⟨d, hd⟩ : ∃ d, d = setFlag (shortSeen c n phase gate false) (legStat n) 3 true := ⟨_, rfl⟩
  rw [shortFires_alone hn hpow hlive hgrp, if_neg Bool.false_ne_true, ← hd] at ht
  have hdt : Within [.legs] (regAt (legStat n)) c d := by
    rw [hd]
    exact ((Within.refl _ (legStat_calm hn) c).part (.legs c _) (by simp) (by simp)).setFlag _ _ (by simp [regAt])
  have hdleg : leg d n = { leg c n with firing := phase, vds := gate && legUp c n, fired := true, clamped := false && legUp c n } := by
    rw [hd, leg, setFlag_legs]
    exact leg_modLeg c n _
  have hdfld (lo w : Nat) (h : lo + w ≤ 3 ∨ 4 ≤ lo) : fld d (legStat n) lo w = fld c (legStat n) lo w := by
    rw [hd]
    exact fld_setFld_field _ _ _ _ _ _ _ (by decide) (by omega)
  have hdstate : legState d n = legState c n := hdfld 0 2 (by decide)
  have hdpair : pairOf d n = none := by
    rw [pairOf_congr (fun k hk => (hdt.mono (fun _ h => h) (regAt_stats hn) legStats_calm).legReg (j := 0) hk (by decide) (by decide)) hn]
    exact pairOf_alone hgrp
  have hdlive : shortLive d n = true := by
    rw [shortLive, legUp, hdstate, hdleg]
    exact hlive
  obtain ⟨hs, hcause, hmark, hcount, hfired, hwithin⟩ := legFault_alone hn true hdpair (by rw [hdstate]; exact hst) hdlive ht
  refine ⟨by rw [hfired, hdleg], hs, ?_, hcause, ?_, hdt.trans hwithin⟩
  · rw [hmark, hd, flag_setFlag_self _ _ _ _ (by decide)]
  · rw [hcount, hdfld 24 8 (by decide)]

theorem legState_of_up {c : Chip} {n : Nat} (h : legUp c n = true) : legState c n ≠ 3 := fun hs => by
  rw [legUp_faulted hs] at h
  exact Bool.false_ne_true h

theorem shortLive_of_up {c : Chip} {n : Nat} (h : legUp c n = true) : shortLive c n = true := by
  rw [shortLive, h, Bool.true_or]

/-- Two different legs of one group have fired: the whole group faults. -/
theorem shortFires_cross {c : Chip} {n k : Nat} (hn : n < 12) (hkn : k ≠ n) (hk : k ∈ groupOf c n) (hfired : (leg c k).fired = true)
    {phase gate blanking : Bool} (hpow : legsPowered c = true) (hup : legUp c n = true) {t : Chip} (ht : t = shortFires c n phase gate blanking) :
    legState t n = 3 ∧ legState t k = 3 ∧ flag t (legStat n) 4 = true ∧ flag t (legStat k) 4 = true ∧ Within [.legs] legStats c t := by
  obtain ⟨d, hd⟩ : ∃ d, d = shortMarked c n phase gate blanking := ⟨_, rfl⟩
  have hstep := shortMarked_short c hn phase gate blanking
  rw [← hd] at hstep
  have hg := hstep.groupOf hn
  have hnfired : (leg d n).fired = true := by rw [hd, leg_shortMarked]
  have hkfired : (leg d k).fired = true := by
    rw [hd, leg_shortMarked_other _ hkn]
    exact hfired
  have hgrp : groupOf c n = (List.range 12).filter fun j => legGrp c j == legGrp c n := by
    unfold groupOf at hk ⊢
    split at hk
    · exact absurd (List.mem_singleton.mp hk) hkn
    · rename_i hne
      exact if_neg hne
  have hself : n ∈ groupOf c n := by
    rw [hgrp]
    exact List.mem_filter.mpr ⟨List.mem_range.mpr hn, beq_self_eq_true _⟩
  have hnodup : ((groupOf d n).filter fun j => (leg d j).fired).Nodup := by
    rw [hg, hgrp]
    exact (List.nodup_range.filter _).filter _
  have htwo : 2 ≤ ((groupOf d n).filter fun j => (leg d j).fired).length := by
    have hsub : ([n, k] : List Nat) ⊆ (groupOf d n).filter fun j => (leg d j).fired := by
      intro j hj
      rw [hg]
      rcases List.mem_cons.mp hj with rfl | hj
      · exact List.mem_filter.mpr ⟨hself, hnfired⟩
      · rw [List.mem_singleton.mp hj]
        exact List.mem_filter.mpr ⟨hk, hkfired⟩
    exact (List.subperm_of_subset (by simp [hkn.symm]) hsub).length_le
  have hform : t = crossShort d n := by
    rw [ht, shortFires_eq hpow (by rw [shortLive_of_up hup, Bool.or_true]), ← hd]
    exact if_pos htwo
  obtain ⟨hcross, hstate, hmark⟩ := crossShort_group d hn
  rw [← hform] at hcross hstate hmark
  rw [hg] at hstate hmark
  exact ⟨hstate n hself, hstate k hk, hmark n hself hnfired, hmark k hk hkfired, (hstep.trans hcross).within⟩

/-- Blanking that ends without a detector that fires releases the clamp. -/
theorem blankingEnd_releases {c : Chip} {n : Nat} (hn : n < 12) {seen : LegSense} (hquiet : detectorFires c n seen = false)
    (hpow : legsPowered c = true) (hup : legUp c n = true) (hclamp : (leg c n).clamped = true) {t : Chip} (ht : t = blankingEnd c n seen) :
    (leg t n).clamped = false ∧ (leg t n).firing = false ∧ legState t n = legState c n
      ∧ fld t (legStat n) 16 8 = satInc 8 (fld c (legStat n) 16 8) ∧ Changes [.legs] (regAt (legStat n)) c t := by
  obtain ⟨d, hd⟩ : ∃ d, d = modLeg c n fun x => { x with clamped := false, firing := false, vds := false } := ⟨_, rfl⟩
  have hform : t = shortReport (countFld d (legStat n) 16 8) n 256 := by
    have hgo : (!legsPowered c || !shortLive c n) = false := by
      rw [hpow, shortLive_of_up hup]
      rfl
    rw [ht, blankingEnd, hgo, if_neg Bool.false_ne_true, hquiet, if_neg Bool.false_ne_true, hclamp, if_pos rfl, hd]
  obtain ⟨-, hkeep, hlegs, hwithin⟩ := shortReport_counts hn 256 hform
  have hleg : leg t n = { leg c n with clamped := false, firing := false, vds := false } := by
    rw [leg, hlegs, countFld_legs, hd]
    exact leg_modLeg c n _
  have hdt : Within [.legs] (regAt (legStat n)) c (countFld d (legStat n) 16 8) := by
    rw [hd]
    exact ((Within.refl _ (legStat_calm hn) c).part (.legs c _) (by simp) (by simp)).countFld _ _ (by simp [regAt])
  refine ⟨by rw [hleg], by rw [hleg], ?_, ?_, (hdt.trans (hwithin.mono (by simp) (fun _ h => h) (legStat_calm hn))).changes⟩
  · refine (hkeep 0 2 (by decide)).trans ((fld_setFld_field d _ _ _ _ _ _ (by decide) (by decide)).trans ?_)
    rw [hd]
    rfl
  · rw [hkeep 16 8 (by decide), fld_countFld_self _ _ _ _ (by decide), hd]
    rfl

theorem blankingEnd_fires {c : Chip} {n : Nat} {seen : LegSense} (hfires : detectorFires c n seen = true) (hpow : legsPowered c = true)
    (hup : legUp c n = true) : blankingEnd c n seen = shortFires c n (phaseFires c n seen) (gateFires c n seen) false := by
  have hgo : (!legsPowered c || !shortLive c n) = false := by
    rw [hpow, shortLive_of_up hup]
    rfl
  rw [blankingEnd, hgo, if_neg Bool.false_ne_true, hfires, if_pos rfl]

theorem shortDetectorFire_fires {c : Chip} {n : Nat} {seen : LegSense} (h : detectorFires c n seen = true) (blanking : Bool) :
    shortDetectorFire c n seen blanking = shortFires c n (phaseFires c n seen) (gateFires c n seen) blanking := if_pos h

/-- What does not fire any more. -/
theorem shortDetectorFire_quiet {c : Chip} {n : Nat} {seen : LegSense} (h : detectorFires c n seen = false) (blanking : Bool) {t : Chip}
    (ht : t = shortDetectorFire c n seen blanking) :
    leg t n = { leg c n with firing := false, vds := false } ∧ (∀ k : Fin 12, k.val ≠ n → leg t k.val = leg c k.val) ∧ onlyParts [.legs] c t := by
  rw [shortDetectorFire, h, if_neg Bool.false_ne_true] at ht
  split at ht
  · rw [ht]
    exact ⟨leg_modLeg c n _, fun k hk => leg_modLeg_other c hk _,
      fun q hq => (PartStep.legs c _).others q fun e => hq (e ▸ List.mem_singleton_self _)⟩
  · rename_i hnot
    simp only [Bool.or_eq_true, not_or, Bool.not_eq_true] at hnot
    rw [ht]
    refine ⟨?_, fun _ _ => rfl, onlyParts_refl _ _⟩
    have heta : leg c n = { leg c n with firing := (leg c n).firing, vds := (leg c n).vds } := rfl
    rw [hnot.1, hnot.2] at heta
    exact heta

/-! The carrier zero (R593). -/

theorem legBase_ne {n k i j : Nat} (hi : i < 0x40) (hj : j < 0x40) (h : n ≠ k ∨ i ≠ j) : legBase n + i ≠ legBase k + j := by
  simp only [legBase]
  omega

theorem zeroLeg_touches (c : Chip) (k : Nat) : Touches [.legs] (regAt (legBase k + 0x18)) c (zeroLeg c k) := by
  unfold zeroLeg
  exact (Touches.ite ((Touches.refl _ _ c).setFld _ _ _ (by simp [regAt])) (.refl _ _ c)).part (.legs _ _) (by simp)

theorem sampleLeg_touches (c : Chip) (e : Nat × Nat) : Touches [.legs] (regAt (legBase e.1 + 0x18)) c (sampleLeg c e) :=
  ((Touches.refl _ _ c).modLeg _ _ (by simp)).setFld _ _ _ (by simp [regAt])

/-- What a leg latches at the carrier zero. -/
theorem zeroLeg_latches (c : Chip) (n : Nat) :
    leg (zeroLeg c n) n = { leg c n with
      next := if legState c n == 2 then none else (leg c n).next
      clamp := (reg c (legBase n + 0xC)).toNat, sc := (reg c (legBase n + 8)).toNat, runs := legState c n == 2, left := false, fired := false }
    ∧ (legState c n = 2 → fld (zeroLeg c n) (legBase n + 0x18) 0 15
        = limitTon c n ((leg c n).next.getD (fld c (legBase n + 0x18) 0 15) : Nat) % 2 ^ 15) := by
  refine ⟨smGet_smPut_self _ _ _ _, fun h => ?_⟩
  have harmed : (legState c n == 2) = true := beq_iff_eq.mpr h
  unfold zeroLeg
  dsimp only
  rw [harmed, if_pos rfl]
  exact fld_setFld_self c _ _ _ _ (by decide)

/-- What a leg's current sample leaves. -/
theorem sampleLeg_samples (c : Chip) (n : Nat) {x : Nat} (hx : x < 2 ^ 16) :
    leg (sampleLeg c (n, x)) n = { leg c n with firing := decide (fld c (legBase n + 8) 0 9 * 50 < (signed 16 x).natAbs) }
      ∧ fld (sampleLeg c (n, x)) (legBase n + 0x18) 16 16 = x
      ∧ fld (sampleLeg c (n, x)) (legBase n + 0x18) 0 15 = fld c (legBase n + 0x18) 0 15 := by
  refine ⟨?_, ?_, ?_⟩
  · rw [sampleLeg, leg, setFld_legs]
    exact leg_modLeg c n _
  · exact (fld_setFld_self _ _ _ _ _ (by decide)).trans (Nat.mod_eq_of_lt hx)
  · exact fld_setFld_field _ _ _ _ _ _ _ (by decide) (by decide)

/-- The carrier zero of a leg without a group, before its detector. -/
def zeroAlone (c : Chip) (n x : Nat) : Chip := sampleLeg (zeroLeg c n) (n, x)

theorem carrierZero_alone {c : Chip} {n x : Nat} {xs : List Nat} (hon : domOn c 22 = true) (hgrp : groupOf c n = [n]) :
    carrierZero c n (x :: xs) = if (leg (zeroAlone c n x) n).firing then
      shortFires (zeroAlone c n x) n true (leg (zeroAlone c n x) n).vds (([n].filter (zeroBlanked c)).contains n) else zeroAlone c n x := by
  rw [carrierZero, hon, if_neg (by decide), hgrp]
  dsimp only [List.cons_append, List.zip_cons_cons, List.zip_nil_left, List.foldl_cons, List.foldl_nil]
  rw [← zeroAlone]
  cases hf : (leg (zeroAlone c n x) n).firing with
  | false =>
    have hnone : ([n].filter fun k => (leg (zeroAlone c n x) k).firing) = [] := by simp [hf]
    rw [if_neg Bool.false_ne_true, hnone, List.foldl_nil]
  | true =>
    have hself : ([n].filter fun k => (leg (zeroAlone c n x) k).firing) = [n] := by simp [hf]
    rw [if_pos rfl, hself, List.foldl_cons, List.foldl_nil]

/-- The leg's own state after its carrier zero, before its detector. -/
theorem zeroAlone_latches {c : Chip} {n : Nat} (x : BitVec 16) {t : Chip} (ht : t = zeroAlone c n x.toNat) :
    fld t (legBase n + 0x18) 16 16 = x.toNat
      ∧ leg t n = { leg c n with
          next := if legState c n == 2 then none else (leg c n).next
          clamp := (reg c (legBase n + 0xC)).toNat, sc := (reg c (legBase n + 8)).toNat, runs := legState c n == 2, left := false, fired := false
          firing := decide (fld c (legBase n + 8) 0 9 * 50 < (signed 16 x.toNat).natAbs) }
      ∧ (legState c n = 2 → fld t (legBase n + 0x18) 0 15
          = limitTon c n ((leg c n).next.getD (fld c (legBase n + 0x18) 0 15) : Nat) % 2 ^ 15)
      ∧ Touches [.legs] (regAt (legBase n + 0x18)) c t := by
  obtain ⟨hleg, hton⟩ := zeroLeg_latches c n
  obtain ⟨hsleg, hsample, hkeep⟩ := sampleLeg_samples (zeroLeg c n) n x.isLt
  have hthr : fld (zeroLeg c n) (legBase n + 8) 0 9 = fld c (legBase n + 8) 0 9 := by
    rw [fld, (zeroLeg_touches c n).reg (by simp [regAt]), fld]
  have htouch : Touches [.legs] (regAt (legBase n + 0x18)) c (sampleLeg (zeroLeg c n) (n, x.toNat)) :=
    (zeroLeg_touches c n).trans (sampleLeg_touches (zeroLeg c n) (n, x.toNat))
  rw [zeroAlone] at ht
  rw [ht]
  refine ⟨hsample, ?_, fun h => hkeep.trans (hton h), htouch⟩
  rw [hsleg, hleg, hthr]

theorem reg_stat_duty {c t : Chip} {n : Nat} (h : Touches [.legs] (regAt (legBase n + 0x18)) c t) (k : Nat) : reg t (legStat k) = reg c (legStat k) :=
  h.reg (beq_eq_false_iff_ne.mpr (legBase_ne (by decide) (by decide) (.inr (by decide))))

theorem legState_duty {c t : Chip} {n : Nat} (h : Touches [.legs] (regAt (legBase n + 0x18)) c t) (k : Nat) : legState t k = legState c k := by
  rw [legState, fld, reg_stat_duty h, legState, fld]

theorem groupOf_duty {c t : Chip} {n : Nat} (hn : n < 12) (h : Touches [.legs] (regAt (legBase n + 0x18)) c t) : groupOf t n = groupOf c n :=
  groupOf_congr (fun k _ => h.reg (beq_eq_false_iff_ne.mpr (by simp only [legBase]; omega))) hn

theorem carrierZero_quiet {c : Chip} {n : Nat} {x : BitVec 16} {xs : List Nat} (hon : domOn c 22 = true) (hgrp : legGrp c n = 7)
    (hlow : (signed 16 x.toNat).natAbs ≤ fld c (legBase n + 8) 0 9 * 50) {t : Chip} (ht : t = carrierZero c n (x.toNat :: xs)) :
    fld t (legBase n + 0x18) 16 16 = x.toNat ∧ (leg t n).firing = false
      ∧ (leg t n).fired = false ∧ (leg t n).left = false ∧ (leg t n).clamp = (reg c (legBase n + 0xC)).toNat
      ∧ (leg t n).sc = (reg c (legBase n + 8)).toNat
      ∧ (legState c n = 2 → (leg t n).next = none ∧ (leg t n).runs = true
          ∧ fld t (legBase n + 0x18) 0 15 = limitTon c n ((leg c n).next.getD (fld c (legBase n + 0x18) 0 15) : Nat) % 2 ^ 15)
      ∧ legState t n = legState c n ∧ Touches [.legs] (regAt (legBase n + 0x18)) c t := by
  have hform : t = zeroAlone c n x.toNat := by
    have hfiring : (leg (zeroAlone c n x.toNat) n).firing = false := by
      rw [(zeroAlone_latches x rfl).2.1]
      exact decide_eq_false (Nat.not_lt.mpr hlow)
    rw [ht, carrierZero_alone hon (groupOf_alone hgrp), hfiring, if_neg Bool.false_ne_true]
  obtain ⟨hsample, hleg, hton, htouch⟩ := zeroAlone_latches x hform
  rw [hleg]
  refine ⟨hsample, decide_eq_false (Nat.not_lt.mpr hlow), rfl, rfl, rfl, rfl, fun h => ⟨?_, beq_iff_eq.mpr h, hton h⟩, legState_duty htouch n, htouch⟩
  exact if_pos (beq_iff_eq.mpr h)

theorem zeroBlanked_idle {c : Chip} {n : Nat} (h : (leg c n).runs = false) : zeroBlanked c n = false := by
  rw [zeroBlanked, h]
  rfl

theorem carrierZero_beyond {c : Chip} {n : Nat} (hn : n < 12) {x : BitVec 16} {xs : List Nat} (hon : domOn c 22 = true) (hgrp : legGrp c n = 7)
    (harmed : legState c n = 2) (hidle : (leg c n).runs = false) (hhigh : fld c (legBase n + 8) 0 9 * 50 < (signed 16 x.toNat).natAbs) {t : Chip}
    (ht : t = carrierZero c n (x.toNat :: xs)) :
    fld t (legBase n + 0x18) 16 16 = x.toNat ∧ legState t n = 3 ∧ flag t (legStat n) 3 = true ∧ fld t (legStat n) 8 4 = 8
      ∧ Changes [.legs] (regsAt [legStat n, legBase n + 0x18]) c t := by
  obtain ⟨z, hz⟩ : ∃ z, z = zeroAlone c n x.toNat := ⟨_, rfl⟩
  obtain ⟨hsample, hleg, -, htouch⟩ := zeroAlone_latches x hz
  have hform : t = shortFires z n true (leg z n).vds false := by
    have hfiring : (leg z n).firing = true := by
      rw [hleg]
      exact decide_eq_true hhigh
    have hblank : (([n].filter (zeroBlanked c)).contains n) = false := by
      rw [List.filter_cons, zeroBlanked_idle hidle, if_neg Bool.false_ne_true]
      rfl
    rw [ht, carrierZero_alone hon (groupOf_alone hgrp), ← hz, hfiring, if_pos rfl, hblank]
  have hstate : legState z n = 2 := (legState_duty htouch n).trans harmed
  have hup : legUp z n = true := by
    rw [legUp, hstate]
    rfl
  have hdom : domOn z 22 = true := by
    rw [domOn, dom, show z.pwr = c.pwr from htouch.same .pwr (by simp) (by simp)]
    exact hon
  obtain ⟨-, hs, hmark, hcause, -, hwithin⟩ := shortFires_faults hn (legsPowered_of_on hdom) (shortLive_of_up hup)
    (by rw [groupOf_duty hn htouch, groupOf_alone hgrp]) (by rw [hstate]; decide) hform
  have hduty : reg t (legBase n + 0x18) = reg z (legBase n + 0x18) :=
    (hwithin.mono (fun _ h => h) (regAt_stats hn) legStats_calm).legReg hn (by decide) (by decide)
  have hcalm : ∀ off, regsAt [legStat n, legBase n + 0x18] off = true → ringSetup off = false := fun off ho => by
    rw [regsAt, List.contains_iff_mem, List.mem_cons, List.mem_singleton] at ho
    rcases ho with rfl | rfl
    · exact (legRegs_quiet (legRegs_at (k := 0x14) hn (by decide))).2
    · exact (legRegs_quiet (legRegs_at hn (by decide))).2
  refine ⟨by rw [fld, hduty]; exact hsample, hs, hmark, hcause, ?_⟩
  have hat (a : Nat) (ha : a = legStat n ∨ a = legBase n + 0x18) (off : Nat) (ho : regAt a off = true) :
      regsAt [legStat n, legBase n + 0x18] off = true := by
    rw [beq_iff_eq.mp ho, regsAt, List.contains_iff_mem, List.mem_cons, List.mem_singleton]
    exact ha
  exact (((Within.refl _ hcalm c).touch (htouch.mono (fun _ h => h) (hat _ (.inr rfl))) (by simp)).trans
    (hwithin.mono (fun _ h => h) (hat _ (.inl rfl)) hcalm)).changes

/-- Each leg of a group has its own sample. -/
theorem sampleLegs_other (g ys : List Nat) {k : Nat} (hk : k ∉ g) (c : Chip) :
    reg ((g.zip ys).foldl sampleLeg c) (legBase k + 0x18) = reg c (legBase k + 0x18) := by
  induction g generalizing ys c with
  | nil => rfl
  | cons j g ih =>
    rw [List.mem_cons, not_or] at hk
    cases ys with
    | nil => rfl
    | cons y ys =>
      rw [List.zip_cons_cons, List.foldl_cons, ih ys hk.2]
      exact (sampleLeg_touches c (j, y)).reg (beq_eq_false_iff_ne.mpr (legBase_ne (by decide) (by decide) (.inl hk.1)))

theorem sampleLegs {g : List Nat} (hg : g.Nodup) {ys : List Nat} (hys : ∀ y ∈ ys, y < 2 ^ 16) (hlen : g.length ≤ ys.length) (c : Chip) :
    g.map (fun k => fld ((g.zip ys).foldl sampleLeg c) (legBase k + 0x18) 16 16) = ys.take g.length := by
  induction g generalizing ys c with
  | nil => rfl
  | cons j g ih =>
    cases ys with
    | nil => exact absurd hlen (by simp)
    | cons y ys =>
      rw [List.nodup_cons] at hg
      rw [List.map_cons, List.zip_cons_cons, List.foldl_cons, List.length_cons, List.take_succ_cons,
        ih hg.2 (fun z hz => hys z (List.mem_cons_of_mem _ hz)) (Nat.le_of_succ_le_succ hlen), fld, sampleLegs_other g ys hg.1]
      exact congrArg (· :: ys.take g.length) (sampleLeg_samples c j (hys y List.mem_cons_self)).2.1

theorem groupOf_nodup (c : Chip) (n : Nat) : (groupOf c n).Nodup := by
  unfold groupOf
  split
  · exact List.nodup_singleton n
  · exact List.nodup_range.filter _

theorem legRegs_calm (off : Nat) (h : legRegs off = true) : ringSetup off = false := (legRegs_quiet h).2

/-- The group's currents, as the carrier zero samples them. -/
theorem carrierZero_samples {c : Chip} {n : Nat} (hn : n < 12) {xs : List (BitVec 16)} (hon : domOn c 22 = true)
    (hlen : xs.length = (groupOf c n).length) {t : Chip} (ht : t = carrierZero c n (xs.map BitVec.toNat)) :
    (groupOf c n).map (fun k => fld t (legBase k + 0x18) 16 16) = xs.map BitVec.toNat ∧ Changes [.legs] (regIn 0x140100 0x140400) c t := by
  obtain ⟨z, hz⟩ : ∃ z, z = (groupOf c n).foldl zeroLeg c := ⟨_, rfl⟩
  obtain ⟨d, hd⟩ : ∃ d, d = ((groupOf c n).zip (xs.map BitVec.toNat ++ List.replicate 12 0)).foldl sampleLeg z := ⟨_, rfl⟩
  have hat {k : Nat} (hk : k ∈ groupOf c n) (off : Nat) (ho : regAt (legBase k + 0x18) off = true) : legRegs off = true := by
    rw [beq_iff_eq.mp ho]
    exact legRegs_at (groupOf_lt hn hk) (by decide)
  have hzt : Touches [.legs] legRegs c z := by
    rw [hz]
    exact .foldl _ _ (fun c k hk => (zeroLeg_touches c k).mono (fun _ h => h) (hat hk)) c
  have hdt : Touches [.legs] legRegs z d := by
    rw [hd]
    exact .foldl _ _ (fun c e he => (sampleLeg_touches c e).mono (fun _ h => h) (hat (List.of_mem_zip he).1)) z
  have hform : t = ((groupOf c n).filter fun k => (leg d k).firing).foldl
      (fun e k => shortFires e k true (leg e k).vds (((groupOf c n).filter (zeroBlanked c)).contains k)) d := by
    rw [ht, carrierZero, hon, if_neg (by decide)]
    dsimp only
    rw [← hz, ← hd]
  have hstep : ShortStep d t := by
    rw [hform]
    exact .foldl _ _ (fun e k hk => shortFires_short e (groupOf_lt hn (List.mem_of_mem_filter hk)) _ _ _) d
  refine ⟨?_, ?_⟩
  · have hys : ∀ y ∈ xs.map BitVec.toNat ++ List.replicate 12 0, y < 2 ^ 16 := fun y hy => by
      rcases List.mem_append.mp hy with hy | hy
      · obtain ⟨x, -, rfl⟩ := List.mem_map.mp hy
        exact x.isLt
      · rw [(List.mem_replicate.mp hy).2]
        decide
    have hsamples := sampleLegs (groupOf_nodup c n) hys (by rw [List.length_append, List.length_map]; omega) z
    rw [← hd, ← hlen, List.take_left' (by rw [List.length_map])] at hsamples
    rw [← hsamples]
    refine List.map_congr_left fun k hk => ?_
    rw [fld, hstep.within.legReg (groupOf_lt hn hk) (by decide) (by decide), fld]
  · exact (((Within.refl _ legRegs_calm c).touch (hzt.trans hdt) (by simp)).trans
      (hstep.within.mono (fun _ h => h) (fun _ h => legStats_legs h) legRegs_calm)).changes

/-! Arm requests, disarming and the watchdog (R588 to R590, R605). -/

theorem regsAt_pair_left (x y : Nat) (off : Nat) (h : regAt x off = true) : regsAt [x, y] off = true := by
  rw [beq_iff_eq.mp h]
  simp [regsAt]

theorem regsAt_pair_right (x y : Nat) (off : Nat) (h : regAt y off = true) : regsAt [x, y] off = true := by
  rw [beq_iff_eq.mp h]
  simp [regsAt]

theorem CtrlOnly.stat {n : Nat} {a b : Chip} (h : CtrlOnly n a b) (k lo w : Nat) : Machine.fld b (legStat k) lo w = Machine.fld a (legStat k) lo w :=
  h.fld (fun i => by simp only [legStat, legBase]; omega) lo w

theorem CtrlOnly.legUp {n : Nat} {a b : Chip} (h : CtrlOnly n a b) (k : Nat) : Machine.legUp b k = Machine.legUp a k := by
  rw [Machine.legUp, legState, h.stat, Machine.legUp, legState]

theorem CtrlOnly.isFollower {n : Nat} {a b : Chip} (h : CtrlOnly n a b) (k : Nat) : Machine.isFollower b k = Machine.isFollower a k := by
  rw [Machine.isFollower, h.pairOf, Machine.isFollower]

theorem writeLegCtrl_arms {c : Chip} {n : Fin 12} (hrej : armRej c n.val = 0) (halone : pairOf c n.val = none)
    (hst : legState c n.val = 0 ∨ legState c n.val = 3) {t : Chip} (ht : t = writeLegCtrl c keeper n.val 1 allBytes) :
    legState t n.val = 1 ∧ fld t (legStat n.val) 3 3 = 0 ∧ Touches [] (regsAt [legStat n.val, legBase n.val + 0x10]) c t := by
  obtain ⟨d, hd, hwrite⟩ := writeLegCtrl_eq c n true
  have hdown : legUp d n.val = false := by rw [hd.legUp, legUp_eq_false hst]
  have hform : t = setFld (setFld d (legStat n.val) 0 2 1) (legStat n.val) 3 3 0 := by
    rw [ht, show (1 : Word) = if true then 1 else 0 from rfl, hwrite, hd.isFollower, isFollower_of_alone halone, if_neg Bool.false_ne_true,
      if_pos rfl, armLeg, hd.armRej, hrej, hd.pairOf, halone, if_neg (by decide)]
    dsimp only
    rw [precharge, hdown, if_neg Bool.false_ne_true]
  rw [hform]
  refine ⟨?_, fld_setFld_self _ _ _ _ _ (by decide), ?_⟩
  · refine (fld_setFld_field _ _ _ _ _ _ _ (by decide) (by decide)).trans ?_
    exact fld_setFld_self d _ _ _ _ (by decide)
  · exact ((hd.touches.mono (fun _ h => h) (regsAt_pair_right _ _)).setFld _ _ _ (by simp [regsAt])).setFld _ _ _ (by simp [regsAt])

theorem armRej_lt (c : Chip) (n : Nat) : armRej c n < 2 ^ 4 := by
  unfold armRej
  dsimp only
  repeat' split
  all_goals decide

theorem writeLegCtrl_rejected {c : Chip} {n : Fin 12} (hrej : armRej c n.val ≠ 0) (hlead : isFollower c n.val = false) {t : Chip}
    (ht : t = writeLegCtrl c keeper n.val 1 allBytes) :
    legState t n.val = legState c n.val ∧ fld t (legStat n.val) 12 4 = armRej c n.val
      ∧ Touches [] (regsAt [legStat n.val, legBase n.val + 0x10]) c t := by
  obtain ⟨d, hd, hwrite⟩ := writeLegCtrl_eq c n true
  have hform : t = setFld d (legStat n.val) 12 4 (armRej c n.val) := by
    rw [ht, show (1 : Word) = if true then 1 else 0 from rfl, hwrite, hd.isFollower, hlead, if_neg Bool.false_ne_true,
      if_pos rfl, armLeg, hd.armRej, if_pos hrej]
  rw [hform]
  refine ⟨?_, ?_, (hd.touches.mono (fun _ h => h) (regsAt_pair_right _ _)).setFld _ _ _ (by simp [regsAt])⟩
  · exact (fld_setFld_field d _ _ _ _ _ _ (by decide) (by decide)).trans (hd.stat _ 0 2)
  · exact (fld_setFld_self d _ _ _ _ (by decide)).trans (Nat.mod_eq_of_lt (armRej_lt c n.val))

theorem writeLegCtrl_disarms {c : Chip} {n : Fin 12} (hup : legUp c n.val = true) (halone : pairOf c n.val = none) {t : Chip}
    (ht : t = writeLegCtrl c keeper n.val 0 allBytes) :
    legState t n.val = 0 ∧ fld t (legStat n.val) 8 4 = 6 ∧ (leg t n.val).next = none
      ∧ Touches [.legs] (regsAt [legStat n.val, legBase n.val + 0x10]) c t := by
  obtain ⟨d, hd, hwrite⟩ := writeLegCtrl_eq c n false
  have hdup : legUp d n.val = true := by rw [hd.legUp, hup]
  have hform : t = legLeave1 d n.val 0 6 := by
    rw [ht, show (0 : Word) = if false then 1 else 0 from rfl, hwrite, hd.isFollower, isFollower_of_alone halone, if_neg Bool.false_ne_true,
      if_neg Bool.false_ne_true]
    exact legLeave_alone n.isLt 0 6 hdup ((hd.pairOf _).trans halone)
  obtain ⟨hs, hcause, -, hleg⟩ := legLeave1_up (st := 0) (cause := 6) (by decide) (by decide) hdup
  rw [hform]
  refine ⟨hs, hcause, by rw [hleg], ?_⟩
  exact (hd.touches.mono (by simp) (regsAt_pair_right _ _)).trans ((legLeave1_stat d n.val 0 6).mono (fun _ h => h) (regsAt_pair_left _ _))

theorem prechargeEnd_arms {c : Chip} {n : Nat} (h : legState c n = 1 ∧ domOn c 22 = true) {t : Chip} (ht : t = prechargeEnd c n) :
    legState t n = 2 ∧ Touches [] (regAt (legStat n)) c t := by
  rw [prechargeEnd, if_pos h] at ht
  rw [ht]
  exact ⟨fld_setFld_self c _ _ _ _ (by decide), (Touches.refl _ _ c).setFld _ _ _ (by simp [regAt])⟩

theorem legWatchdogExpiry_disarms {c : Chip} {n : Nat} (hn : n < 12) (hup : legUp c n = true) (halone : pairOf c n = none)
    (hold : (leg c n).fresh ≠ some c.ot) {t : Chip} (ht : t = legWatchdogExpiry c n) :
    legState t n = 0 ∧ flag t (legStat n) 5 = true ∧ fld t (legStat n) 8 4 = 5 ∧ Touches [.legs] (regAt (legStat n)) c t := by
  obtain ⟨d, hd⟩ : ∃ d, d = setFlag c (legStat n) 5 true := ⟨_, rfl⟩
  have hdt : Touches [.legs] (regAt (legStat n)) c d := by
    rw [hd]
    exact (Touches.refl _ _ c).setFlag _ _ (by simp [regAt])
  have hdstate : legState d n = legState c n := by
    rw [hd]
    exact fld_setFld_field c _ _ _ _ _ _ (by decide) (by decide)
  have hdup : legUp d n = true := by
    rw [legUp, hdstate]
    exact hup
  have hdpair : pairOf d n = none := by
    rw [pairOf_congr (fun k _ => (hdt.mono (fun _ h => h) (regAt_stats hn)).legReg (k := k) (j := 0) (by decide) (by decide)) hn, halone]
  have hform : t = legLeave1 d n 0 5 := by
    rw [ht, legWatchdogExpiry, hup, bne_iff_ne.mpr hold, Bool.true_and, if_pos rfl, ← hd, legLeave_alone hn 0 5 hdup hdpair]
  obtain ⟨hs, hcause, hrest, -⟩ := legLeave1_up (st := 0) (cause := 5) (by decide) (by decide) hdup
  rw [hform]
  refine ⟨hs, ?_, hcause, hdt.trans (legLeave1_stat d n 0 5)⟩
  rw [flag, hrest 5 1 (by decide), hd]
  exact flag_setFlag_self c _ _ _ (by decide)

/-! The gates and the position interfaces (R587, R607 to R609). -/

/-- The two gates of a leg are never on within twice DT of each other. -/
theorem carrierGates_apart {per ton dt h k : Nat} (hton : ton = 0 ∨ (2 * dt ≤ ton ∧ ton + 2 * dt + 400 ≤ per))
    (hon : (carrierGates per ton dt h).gh = .high ∧ (carrierGates per ton dt k).gl = .high) : 2 * dt ≤ (h - k) + (k - h) := by
  obtain ⟨hgh, hgl⟩ := hon
  unfold carrierGates at hgh hgl
  split at hgh
  · exact absurd hgh (by simp)
  · rename_i hne
    rw [if_neg hne] at hgl
    dsimp only at hgh hgl
    split at hgh
    · split at hgl
      · omega
      · exact absurd hgl (by simp)
    · exact absurd hgh (by simp)

theorem posSt_setPos (c : Chip) (n : Nat) (x : PosSt) : posSt (setPos c n x) n = x := smGet_smPut_self _ _ _ _

theorem quadratureEdge_counts {c : Chip} {n : Nat} {a b up : Bool} (hon : domOn c 22 = true ∧ flag c (posBase n) 0 = true)
    (hone : (a ≠ (posSt c n).qa ∧ b = (posSt c n).qb) ∨ (a = (posSt c n).qa ∧ b ≠ (posSt c n).qb))
    (hup : up = ((a != (posSt c n).qb) != flag c (posBase n) 1)) {t : Chip} (ht : t = quadratureEdge c n a b) :
    reg t (posBase n + 8) = (if up then reg c (posBase n + 8) + 1 else reg c (posBase n + 8) - 1)
      ∧ posSt t n = { posSt c n with qa := a, qb := b } ∧ Touches [.pos] (regAt (posBase n + 8)) c t := by
  have hform : t = setReg (setPos c n { posSt c n with qa := a, qb := b }) (posBase n + 8)
      (BitVec.ofNat 32 (if up then (reg c (posBase n + 8)).toNat + 1 else (reg c (posBase n + 8)).toNat + 2 ^ 32 - 1)) := by
    have hboth : ((a != (posSt c n).qa) && (b != (posSt c n).qb)) = false := by
      rcases hone with ⟨-, hb⟩ | ⟨ha, -⟩
      · rw [bne_eq_false_iff_eq.mpr hb, Bool.and_false]
      · rw [bne_eq_false_iff_eq.mpr ha, Bool.false_and]
    have hnone : ((a == (posSt c n).qa) && (b == (posSt c n).qb)) = false := by
      rcases hone with ⟨ha, -⟩ | ⟨-, hb⟩
      · rw [beq_eq_false_iff_ne.mpr ha, Bool.false_and]
      · rw [beq_eq_false_iff_ne.mpr hb, Bool.and_false]
    rw [ht, quadratureEdge, hon.1, hon.2, if_neg (by decide)]
    dsimp only
    rw [hboth, hnone, if_neg Bool.false_ne_true, if_neg Bool.false_ne_true, ← hup]
  rw [hform]
  refine ⟨?_, ?_, ?_⟩
  · rw [reg_setReg_self]
    cases up with
    | true =>
      rw [if_pos rfl, if_pos rfl]
      bv_omega
    | false =>
      rw [if_neg Bool.false_ne_true, if_neg Bool.false_ne_true]
      bv_omega
  · rw [posSt, setReg_pos]
    exact posSt_setPos c n _
  · exact ((Touches.refl _ _ c).part (.pos c _) (by simp)).setReg _ (by simp [regAt])

theorem quadratureEdge_double {c : Chip} {n : Nat} {a b : Bool} (hon : domOn c 22 = true ∧ flag c (posBase n) 0 = true)
    (hboth : a ≠ (posSt c n).qa ∧ b ≠ (posSt c n).qb) {t : Chip} (ht : t = quadratureEdge c n a b) :
    reg t (posBase n + 8) = reg c (posBase n + 8) ∧ (posSt t n).warn = true
      ∧ fld t (posBase n + 0x10) 16 16 = satInc 16 (fld c (posBase n + 0x10) 16 16) ∧ Touches [.pos] (regAt (posBase n + 0x10)) c t := by
  have hform : t = countFld (setPos c n { posSt c n with qa := a, qb := b, warn := true }) (posBase n + 0x10) 16 16 := by
    rw [ht, quadratureEdge, hon.1, hon.2, if_neg (by decide)]
    dsimp only
    rw [bne_iff_ne.mpr hboth.1, bne_iff_ne.mpr hboth.2]
    exact if_pos rfl
  rw [hform]
  refine ⟨?_, ?_, ?_, ?_⟩
  · exact reg_setFld_other _ _ _ _ _ _ (by omega)
  · rw [posSt, countFld_pos]
    exact congrArg PosSt.warn (posSt_setPos c n _)
  · exact fld_countFld_self _ _ _ _ (by decide)
  · exact ((Touches.refl _ _ c).part (.pos c _) (by simp)).countFld _ _ (by simp [regAt])

theorem indexEdge_aligns {c : Chip} {n : Nat} (hon : domOn c 22 = true ∧ flag c (posBase n) 0 = true) (hmode : fld c (posBase n) 2 2 ≠ 0)
    (honce : fld c (posBase n) 2 2 = 2 → flag c (posBase n + 0x10) 0 = false) {t : Chip} (ht : t = indexEdge c n) :
    reg t (posBase n + 8) = 0 ∧ flag t (posBase n + 0x10) 0 = true ∧ Touches [] (regsAt [posBase n + 8, posBase n + 0x10]) c t := by
  have hform : t = setFlag (setReg c (posBase n + 8) 0) (posBase n + 0x10) 0 true := by
    have hgo : (!domOn c 22 || !flag c (posBase n) 0 || fld c (posBase n) 2 2 == 0) = false := by
      rw [hon.1, hon.2, beq_eq_false_iff_ne.mpr hmode]
      rfl
    rw [ht, indexEdge, hgo, if_neg Bool.false_ne_true, if_neg]
    rintro ⟨h2, hset⟩
    rw [honce h2] at hset
    exact Bool.false_ne_true hset
  rw [hform]
  refine ⟨?_, flag_setFlag_self _ _ _ _ (by decide), ?_⟩
  · rw [reg_setFlag_other _ _ _ _ _ (by omega), reg_setReg_self]
  · exact ((Touches.refl _ _ c).setReg _ (by simp [regsAt])).setFlag _ _ (by simp [regsAt])

/-- Settles O39: the arming and disarming of a leg, its carrier zero and its shorts, and the position interfaces. -/
theorem legAndPositionCommandsComplete : Obligations.LegAndPositionCommandsComplete := by
  unfold Obligations.LegAndPositionCommandsComplete
  refine ⟨fun s n hrej halone hst => ⟨_, rfl, rfl, ?_⟩, fun s n hrej hlead => ⟨_, rfl, rfl, ?_⟩, fun s n hup halone => ⟨_, rfl, rfl, ?_⟩,
    fun s n h => ⟨_, rfl, rfl, ?_⟩, fun s n x xs hon hgrp hlow => ⟨_, rfl, rfl, ?_⟩,
    fun s n x xs hon hgrp hidle hton hhigh => ⟨_, rfl, rfl, ?_⟩, fun s n xs hon hlen => ⟨_, rfl, rfl, ?_⟩,
    fun s n seen blanking hfires hon hgrp => ⟨_, rfl, rfl, ?_⟩, fun s n seen hfires hon hleft hgrp => ⟨_, rfl, rfl, ?_⟩,
    fun s n k seen blanking hfires hon hk => ⟨_, rfl, rfl, ?_⟩, fun s n seen blanking hquiet => ⟨_, rfl, rfl, ?_⟩,
    fun s n seen hquiet hon hclamp => ⟨_, rfl, rfl, ?_⟩, fun s n seen hfires hon hgrp => ⟨_, rfl, rfl, ?_⟩,
    fun per ton dt h k hton hgates => carrierGates_apart hton hgates, fun s n hup halone hold => ⟨_, rfl, rfl, ?_⟩,
    fun s n a b up hon hone hup => ⟨_, rfl, rfl, ?_⟩, fun s n a b hon hboth => ⟨_, rfl, rfl, ?_⟩, fun s n hon hmode honce => ⟨_, rfl, rfl, ?_⟩⟩
  · exact writeLegCtrl_arms hrej halone hst rfl
  · exact writeLegCtrl_rejected hrej hlead rfl
  · exact writeLegCtrl_disarms hup halone rfl
  · exact prechargeEnd_arms h rfl
  · exact carrierZero_quiet hon hgrp hlow rfl
  · exact carrierZero_beyond n.isLt hon hgrp.1 hgrp.2 hidle.1 hhigh rfl
  · exact carrierZero_samples n.isLt hon hlen rfl
  · dsimp only
    rw [shortDetectorFire_fires hfires]
    have hg := groupOf_alone hgrp
    have hlive := shortLive_of_up hon.2
    have hpow := legsPowered_of_on hon.1
    cases blanking with
    | true =>
      rw [shortFires_alone n.isLt hpow hlive hg, if_pos rfl, shortSeen]
      refine ⟨by rw [leg_modLeg], fun _ => ⟨by rw [leg_modLeg]; exact hon.2, ?_⟩, fun h => absurd h.symm Bool.false_ne_true⟩
      exact fun q hq => (PartStep.legs s.chip _).others q fun e => hq (e ▸ List.mem_singleton_self _)
    | false =>
      obtain ⟨hfired, hs, hmark, hcause, hcount, hwithin⟩ := shortFires_faults n.isLt hpow hlive hg (legState_of_up hon.2) rfl
      exact ⟨hfired, fun h => absurd h Bool.false_ne_true, fun _ => ⟨hs, hmark, hcause, hcount, hwithin.changes⟩⟩
  · dsimp only
    rw [shortDetectorFire_fires hfires]
    obtain ⟨-, hs, hmark, hcause, -, hwithin⟩ := shortFires_faults n.isLt (legsPowered_of_on hon) (by rw [shortLive, hleft.2, Bool.or_true])
      (groupOf_alone hgrp) (by rw [hleft.1]; decide) rfl
    exact ⟨hs, hmark, hcause, hwithin.changes⟩
  · dsimp only
    rw [shortDetectorFire_fires hfires]
    obtain ⟨hs, hsk, hmark, hmarkk, hwithin⟩ := shortFires_cross n.isLt (fun h => hk.1 (Fin.ext h)) hk.2.1 hk.2.2 (legsPowered_of_on hon.1) hon.2 rfl
    exact ⟨hs, hsk, hmark, hmarkk, (hwithin.mono (fun _ h => h) (fun _ h => legStats_legs h) legRegs_calm).changes⟩
  · obtain ⟨hself, hothers, hparts⟩ := shortDetectorFire_quiet hquiet blanking rfl
    exact ⟨hself, fun k hk => hothers k fun h => hk (Fin.ext h), hparts⟩
  · exact blankingEnd_releases n.isLt hquiet (legsPowered_of_on hon.1) hon.2 hclamp rfl
  · dsimp only
    rw [blankingEnd_fires hfires (legsPowered_of_on hon.1) hon.2]
    obtain ⟨-, hs, hmark, -, -, hwithin⟩ := shortFires_faults n.isLt (legsPowered_of_on hon.1) (shortLive_of_up hon.2) (groupOf_alone hgrp)
      (legState_of_up hon.2) rfl
    exact ⟨hs, hmark, hwithin.changes⟩
  · exact legWatchdogExpiry_disarms n.isLt hup halone hold rfl
  · exact quadratureEdge_counts hon hone hup rfl
  · exact quadratureEdge_double hon hboth rfl
  · exact indexEdge_aligns hon hmode honce rfl

end Sys2Proof.Machine
end

section
-- One proof at a time: every thread takes a stack of its own from the memory that a compile has.
set_option Elab.async false
/-! SUPPORT. A bank that turns off while its spare's return is due for a channel of another bank (R1203, R376). -/

namespace Sys2Proof.Machine

/-- Bank 0 turns off with a spare that still has channel 16, of bank 1, to give back; the retired cell of that channel is covered
by the spare of bank 1, which is ON. -/
def strayBackNode : Chip :=
  let c := setFlag (setFlag (setFld Chip.reset (rotStat 1) 8 4 0) (rotStat 1) 12 true) (chConv 16) 9 true
  let d := modBank (modBank c 0 fun s => { s with back := some (16, 0) }) 1 fun s => { s with retired := 1 }
  setAna (setDom (setDom d 8 .turningOff) 9 .on) 16 { anaDef 16 with aMode := 3 }

theorem dom_domainOff_strayBackNode : dom (domainOff strayBackNode 8) 9 = dom strayBackNode 9 := by decide +kernel

theorem chExcitation_domainOff_strayBackNode : chExcitation (domainOff strayBackNode 8) 16 ≠ chExcitation strayBackNode 16 := by decide +kernel

/-- Refutes O35: the first clause has the channels of other banks keep their excitation where their domain's state stands, and the
spare that bank 0 loses takes that of a channel of bank 1 along. -/
theorem not_unpoweredAndProtectedChannelsDriveNothing : ¬ Obligations.UnpoweredAndProtectedChannelsDriveNothing := by
  rintro ⟨hoff, -⟩
  obtain ⟨-, -, hothers⟩ := performs_elim (c := domainOff strayBackNode 8)
    (hoff ⟨strayBackNode, []⟩ 0 (by decide +kernel) (by decide +kernel) (by decide +kernel)) rfl
  exact chExcitation_domainOff_strayBackNode (hothers 16 (by decide) dom_domainOff_strayBackNode)

end Sys2Proof.Machine
end

section
-- One proof at a time: every thread takes a stack of its own from the memory that a compile has.
set_option Elab.async false
/-! SUPPORT. The resets of the host interface and the training of the link (R142, R278, R906). -/

namespace Sys2Proof.Machine

/-- A register that a reset takes reads its default. -/
theorem reg_resetRegs_in (c : Chip) {lo hi off : Nat} (h : lo ≤ off ∧ off < hi) : reg (resetRegs c lo hi) off = regDefault off := by
  rw [reg, resetRegs, smGet_smKeep, if_neg]
  rw [decide_eq_true h.1, decide_eq_true h.2]
  decide

/-! A function's reset. -/

/-- The host side of a function is as after reset, and its begun commands go on in silence. -/
structure FnIsReset (c : Chip) (fn : Nat) : Prop where
  rings : ∀ r : Fin 4, ringEn c fn r.val = false
  hold : (fnSt c fn).hold = []
  recQ : (fnSt c fn).recQ = []
  subs : (fnSt c fn).subs = []
  asm : (fnSt c fn).asm = none
  silent : ((fnSt c fn).inflight.all fun i => i.silent) = true

theorem ringCfg_page {fn r : Nat} (hr : r < 4) : hostPage fn ≤ ringBase fn r + 8 ∧ ringBase fn r + 8 < hostPage fn + 0x1000 := by
  rw [ringBase]
  omega

theorem regDefault_ringCfg : ∀ fn : Fin 9, ∀ r : Fin 4, bits (regDefault (ringBase fn.val r.val + 8)) 8 1 = 0 := by decide +kernel

theorem resetFn_resets (c : Chip) {fn : Nat} (hfn : fn < 9) : FnIsReset (resetFn c fn) fn := by
  obtain ⟨d, hd⟩ : ∃ d, d = resetRegs c (hostPage fn) (hostPage fn + 0x1000) := ⟨_, rfl⟩
  have hfnSt : fnSt (resetFn c fn) fn = { fnDef fn with
      inflight := (fnSt d fn).inflight.map fun i => { i with silent := true }
      carry := (fnSt d fn).carry.map fun (x : Carried) => { x with cmd := { x.cmd with silent := true } }
      used := (fnSt d fn).used
      work := (fnSt d fn).work } := by
    rw [resetFn, ← hd, fnSt_modFn_self]
  refine ⟨fun r => ?_, by rw [hfnSt, fnDef], by rw [hfnSt, fnDef], by rw [hfnSt, fnDef], by rw [hfnSt, fnDef], ?_⟩
  · have hreg : reg (resetFn c fn) (ringBase fn r.val + 8) = regDefault (ringBase fn r.val + 8) := reg_resetRegs_in c (ringCfg_page r.isLt)
    rw [ringEn, flag, fld, hreg]
    exact beq_eq_false_iff_ne.mpr (by rw [regDefault_ringCfg ⟨fn, hfn⟩ r]; decide)
  · rw [hfnSt]
    simp

theorem resetFn_other (c : Chip) {fn g : Nat} (h : g ≠ fn) :
    fnSt (resetFn c fn) g = fnSt c g ∧ ∀ r : Fin 4, ringEn (resetFn c fn) g r.val = ringEn c g r.val := by
  refine ⟨fnSt_modFn_other _ _ _ _ h, fun r => ?_⟩
  rw [ringEn, flag, fld, (resetFn_touches c fn).reg (Bool.eq_false_iff.mpr fun hin => ?_), ringEn, flag, fld]
  rw [regIn_iff, ringBase, hostPage, hostPage] at hin
  omega

theorem FnIsReset.congr {a b : Chip} {fn : Nat} (h : FnIsReset a fn) (hst : fnSt b fn = fnSt a fn)
    (hen : ∀ r : Fin 4, ringEn b fn r.val = ringEn a fn r.val) : FnIsReset b fn :=
  ⟨fun r => (hen r).trans (h.rings r), hst ▸ h.hold, hst ▸ h.recQ, hst ▸ h.subs, hst ▸ h.asm, hst ▸ h.silent⟩

theorem resetFns (n : Nat) (hn : n ≤ 9) (c : Chip) : ∀ fn, fn < n → FnIsReset ((List.range n).foldl resetFn c) fn := by
  induction n with
  | zero => exact fun _ h => absurd h (Nat.not_lt_zero _)
  | succ n ih =>
    intro fn hfn
    rw [List.range_succ, List.foldl_append, List.foldl_cons, List.foldl_nil]
    rcases eq_or_ne fn n with rfl | hne
    · exact resetFn_resets _ (by omega)
    · obtain ⟨hst, hen⟩ := resetFn_other ((List.range n).foldl resetFn c) hne
      exact (ih (by omega) fn (by omega)).congr hst hen

theorem resetHostBlock_resets (c : Chip) {fn : Nat} (hfn : fn < 9) : FnIsReset (resetHostBlock c) fn :=
  resetFns 9 (Nat.le_refl 9) _ fn hfn

/-! The training of the link. -/

/-- The bandwidth of a speed on one lane. -/
def laneRate (speed : Nat) : Nat := match speed with | 1 => 200 | 2 => 400 | 3 => 875 | 4 => 1750 | _ => 0

theorem linkTrained_up {c : Chip} {speed width : Nat} (hs : 1 ≤ speed ∧ speed ≤ 4) (hw : width = 1 ∨ width = 2 ∨ width = 4) {t : Chip}
    (ht : t = linkTrained c speed width) :
    fld t 0x20000 0 3 = speed ∧ fld t 0x20000 3 3 = width ∧ fld t 0x1A0004 0 13 = min (fld c 0x1A0004 0 13) (laneRate speed * width) := by
  obtain ⟨d, hd⟩ : ∃ d, d = setReg c 0x20000 (BitVec.ofNat 32 (speed + width * 8)) := ⟨_, rfl⟩
  have hspeed : fld d 0x20000 0 3 = speed := by
    rw [hd, fld, reg_setReg_self, bits, BitVec.toNat_ofNat]
    omega
  have hwidth : fld d 0x20000 3 3 = width := by
    rw [hd, fld, reg_setReg_self, bits, BitVec.toNat_ofNat]
    omega
  have hceil : hbwCeiling d = laneRate speed * width := by
    rw [hbwCeiling, hspeed, hwidth]
    rfl
  have hne : laneRate speed * width ≠ 0 := by
    have hrate : ∀ x : Fin 5, 1 ≤ x.val → laneRate x.val ≠ 0 := by decide
    exact Nat.mul_ne_zero (hrate ⟨speed, by omega⟩ hs.1) (by omega)
  have hband : fld d 0x1A0004 0 13 = fld c 0x1A0004 0 13 := by
    rw [hd, fld_setReg_other _ _ _ _ _ _ (by decide)]
  have hform : t = setFld d 0x1A0004 0 13 (min (fld c 0x1A0004 0 13) (laneRate speed * width)) := by
    have hup : (decide (1 ≤ speed) && decide (speed ≤ 4) && ([1, 2, 4] : List Nat).contains width) = true := by
      rw [decide_eq_true hs.1, decide_eq_true hs.2]
      rcases hw with rfl | rfl | rfl <;> decide
    rw [ht, linkTrained, hup, if_pos rfl, ← hd, capHbw, hceil, if_neg hne, hband]
  rw [hform]
  refine ⟨?_, ?_, ?_⟩
  · rw [fld_setFld_other _ _ _ _ _ _ _ _ (by decide), hspeed]
  · rw [fld_setFld_other _ _ _ _ _ _ _ _ (by decide), hwidth]
  · refine (fld_setFld_self d _ _ _ _ (by decide)).trans (Nat.mod_eq_of_lt ?_)
    exact Nat.lt_of_le_of_lt (Nat.min_le_left _ _) (Nat.mod_lt _ (by decide))

theorem linkTrained_down {c : Chip} {speed width : Nat} (h : speed = 0 ∨ width = 0 ∨ width = 3) {t : Chip} (ht : t = linkTrained c speed width) :
    reg t 0x20000 = 0 ∧ Touches [] (regAt 0x20000) c t := by
  have hform : t = setReg c 0x20000 0 := by
    have hdown : (decide (1 ≤ speed) && decide (speed ≤ 4) && ([1, 2, 4] : List Nat).contains width) = false := by
      rcases h with rfl | rfl | rfl
      · rfl
      · rw [Bool.and_comm]
        rfl
      · rw [Bool.and_comm]
        rfl
    have hceil : hbwCeiling (setReg c 0x20000 0) = 0 := by
      rw [hbwCeiling, fld, reg_setReg_self]
      exact Nat.zero_mul _
    rw [ht, linkTrained, hdown, if_neg Bool.false_ne_true]
    exact (congrArg capHbw rfl).trans (if_pos hceil)
  rw [hform]
  exact ⟨reg_setReg_self _ _ _, (Touches.refl _ _ c).setReg _ rfl⟩

/-! The two resets. -/

theorem functionReset_resets {c : Chip} {fn : Nat} (hfn : fn < 9) {t : Chip} (ht : t = functionReset c fn) :
    flag t 0x20004 fn = true ∧ (∀ r : Fin 4, ringEn t fn r.val = false) ∧ (fnSt t fn).hold = [] ∧ (fnSt t fn).recQ = []
      ∧ (fnSt t fn).subs = [] ∧ (fnSt t fn).asm = none ∧ ((fnSt t fn).inflight.all fun i => i.silent) = true
      ∧ (∀ g : Nat, g < 9 → g ≠ fn → fnSt t g = fnSt c g ∧ ∀ r : Fin 4, ringEn t g r.val = ringEn c g r.val)
      ∧ Touches [.fns, .hostMem, .dma] (fun off => regIn (hostPage fn) (hostPage fn + 0x1000) off || regIn 0x1A0400 0x1A0600 off
          || off == 0x20004 || reportReg off) c t := by
  obtain ⟨d, hd⟩ : ∃ d, d = dlFnReset c fn := ⟨_, rfl⟩
  have hdt : Touches [.hostMem, .dma] (regIn 0x1A0400 0x1A0600) c d := hd ▸ dlFnReset_touches c fn
  have hform : t = setFlag (resetFn d fn) 0x20004 fn true := by
    rw [ht, functionReset, hd]
  have hst (g : Nat) : fnSt t g = fnSt (resetFn d fn) g := by
    rw [hform, fnSt, setFlag_fns, fnSt]
  have hen (g r : Nat) : ringEn t g r = ringEn (resetFn d fn) g r := by
    rw [hform]
    exact flag_setFlag_other _ _ _ _ _ _ (by rw [ringBase, hostPage]; omega)
  have hreset := (resetFn_resets d hfn).congr (hst fn) fun r => hen fn r.val
  refine ⟨by rw [hform]; exact flag_setFlag_self _ _ _ _ (by omega), hreset.rings, hreset.hold, hreset.recQ, hreset.subs, hreset.asm,
    hreset.silent, fun g hlt hg => ⟨?_, fun r => ?_⟩, ?_⟩
  · rw [hst, (resetFn_other d hg).1, fnSt, show d.fns = c.fns from hdt.same .fns (by simp) (by simp), fnSt]
  · have hreg : reg d (ringBase g r.val + 8) = reg c (ringBase g r.val + 8) := hdt.reg (Bool.eq_false_iff.mpr fun hin => by
      rw [regIn_iff, ringBase, hostPage] at hin
      omega)
    rw [hen, (resetFn_other d hg).2 r, ringEn, flag, fld, hreg, ringEn, flag, fld]
  · rw [hform]
    refine ((hdt.mono (by simp) fun off h => ?_).trans ((resetFn_touches d fn).mono (by simp) fun off h => ?_)).setFlag _ _ ?_
    · rw [h]
      simp
    · rw [h]
      rfl
    · simp

theorem hostReset_resets {c : Chip} {speed width : Nat} {t : Chip} (ht : t = hostReset c speed width) :
    flag t 0x110 5 = true ∧ (∀ (fn : Fn) (r : Fin 4), ringEn t fn.val r.val = false ∧ (fnSt t fn.val).hold = [] ∧ (fnSt t fn.val).subs = []
        ∧ ((fnSt t fn.val).inflight.all fun i => i.silent) = true)
      ∧ Touches [.fns, .hostMem, .dma] (fun off => regIn 0x20000 0x30000 off || regIn 0x1A0400 0x1A0600 off || off == 0x110 || off == 0x1A0004
          || reportReg off) c t := by
  obtain ⟨d, hd⟩ : ∃ d, d = (List.range 9).foldl dlFnReset c := ⟨_, rfl⟩
  obtain ⟨e, he⟩ : ∃ e, e = setFlag (resetHostBlock d) 0x110 5 true := ⟨_, rfl⟩
  have hform : t = linkTrained e speed width := by rw [ht, he, hd, hostReset]
  have hlink := linkTrained_touches e speed width
  rw [← hform] at hlink
  have hdt : Touches [.hostMem, .dma] (regIn 0x1A0400 0x1A0600) c d := by
    rw [hd]
    exact .foldl _ _ (fun c fn _ => dlFnReset_touches c fn) c
  refine ⟨?_, fun fn r => ?_, ?_⟩
  · rw [flag, fld, hlink.reg (by decide), he]
    exact flag_setFlag_self (resetHostBlock d) _ _ _ (by decide)
  · have hfns : t.fns = (resetHostBlock d).fns := by
      rw [show t.fns = e.fns from hlink.same .fns (by simp) (by simp), he, setFlag_fns]
    have hreg : reg t (ringBase fn.val r.val + 8) = reg (resetHostBlock d) (ringBase fn.val r.val + 8) := by
      rw [hlink.reg (Bool.eq_false_iff.mpr fun hin => ?_), he, reg_setFlag_other _ _ _ _ _ (by rw [ringBase, hostPage]; omega)]
      rw [regsAt, List.contains_iff_mem, List.mem_cons, List.mem_singleton, ringBase, hostPage] at hin
      have := fn.isLt
      omega
    have hreset := resetHostBlock_resets d fn.isLt
    have hst : fnSt t fn.val = fnSt (resetHostBlock d) fn.val := by rw [fnSt, hfns, fnSt]
    rw [hst]
    refine ⟨?_, hreset.hold, hreset.subs, hreset.silent⟩
    rw [ringEn, flag, fld, hreg]
    exact hreset.rings r
  · rw [ht]
    refine (hostReset_touches c speed width).mono (fun _ h => h) fun off h => ?_
    rcases hostResetReg_iff.mp h with h | h | rfl | rfl
    · rw [regIn_iff.mpr h]
      rfl
    · rw [regIn_iff.mpr h, Bool.or_true]
      rfl
    · decide
    · decide

/-- Settles O25: what a function-level reset, a host reset and a training of the link leave. -/
theorem hostResetsComplete : Obligations.HostResetsComplete := by
  unfold Obligations.HostResetsComplete
  refine ⟨fun s fn => ⟨_, rfl, rfl, ?_⟩, fun s speed width => ⟨_, rfl, rfl, ?_⟩, fun s speed width hs hw => ⟨_, rfl, rfl, ?_⟩,
    fun s speed width h => ⟨_, rfl, rfl, ?_⟩⟩ <;> dsimp only
  · obtain ⟨hflag, hrings, hhold, hrecQ, hsubs, hasm, hsilent, hothers, htouch⟩ := functionReset_resets (c := s.chip) fn.isLt rfl
    exact ⟨hflag, hrings, hhold, hrecQ, hsubs, hasm, hsilent, fun g hg => hothers g.val g.isLt fun h => hg (Fin.ext h), htouch⟩
  · exact hostReset_resets rfl
  · have hs0 : speed.val ≠ 0 := fun h => hs (Fin.ext h)
    have := speed.isLt
    obtain ⟨hspeed, hwidth, hband⟩ := linkTrained_up (c := s.chip) (speed := speed.val) (width := width.val) (by omega)
      (by rcases hw with rfl | rfl | rfl <;> decide) rfl
    refine ⟨hspeed, hwidth, hband.trans ?_, linkTrained_touches _ _ _⟩
    have hrate : ∀ x : Fin 5, laneRate x.val = ([0, 200, 400, 875, 1750] : List Nat).getD x.val 0 := by decide
    rw [hrate speed]
  · refine linkTrained_down ?_ rfl
    rcases h with rfl | rfl | rfl
    · exact .inl rfl
    · exact .inr (.inl rfl)
    · exact .inr (.inr rfl)

end Sys2Proof.Machine
end

section
-- One proof at a time: every thread takes a stack of its own from the memory that a compile has.
set_option Elab.async false
/-! SUPPORT. A function's writes in its own page, and the index that the host owns of a ring (R177, R229 to R240). -/

namespace Sys2Proof.Machine

/-! A write of plain fields by the keeper, or by the function whose page holds the register. -/

/-- A field that either may write, with any value. -/
def plainField (f : Fld) : Bool := f.acc == .rw && f.rule == .any

theorem plainField_iff {f : Fld} : plainField f = true ↔ f.acc = .rw ∧ f.rule = .any := by
  rw [plainField, Bool.and_eq_true, beq_iff_eq, beq_iff_eq]

theorem regAfter_plain {fs : List Fld} (h : fs.all plainField = true) (fn old data mask : Nat) :
    regAfter fn fs old data mask = regAfter 0 fs old data mask := by
  unfold regAfter
  refine congrArg List.sum (List.map_congr_left fun f hf => ?_)
  have hacc := (plainField_iff.mp (List.all_eq_true.mp h f hf)).1
  rw [fieldAfter, fieldAfter, hacc]

theorem effMask_plain {fs : List Fld} (h : fs.all plainField = true) (fn mask : Nat) : effMask fn fs mask = effMask 0 fs mask := by
  unfold effMask
  refine congrArg List.sum (List.map_congr_left fun f hf => ?_)
  have hacc := (plainField_iff.mp (List.all_eq_true.mp h f hf)).1
  rw [hacc]
  rfl

theorem any_plain {fs : List Fld} (h : fs.all plainField = true) {p : Fld → Bool} (hp : ∀ f, f.acc = .rw → f.rule = .any → p f = false) :
    fs.any p = false := by
  rw [List.any_eq_false]
  intro f hf
  obtain ⟨hacc, hrule⟩ := plainField_iff.mp (List.all_eq_true.mp h f hf)
  rw [hp f hacc hrule]
  exact Bool.false_ne_true

/-- The context of a write of plain fields. -/
def plainCtx (c : Chip) (fn off : Nat) (d : RegDesc) (data mask : Nat) : WriteCtx :=
  { fn := fn, off := off, old := reg c off, now := keeperNow c off d data mask, data := data, mask := effMask 0 d.fields mask,
    badCode := false, pair := none }

theorem writeReg_own {fn off : Nat} {d : RegDesc} {data mask : Nat} {c : Chip} (hook : Hook) (hrow : findReg off = some d)
    (hplain : d.fields.all plainField = true) (hpage : fn = 0 ∨ (serves off = .page fn ∧ off / 0x10000 = 2)) (hmask : mask ≠ 0) :
    writeReg hook c fn off data mask = hook (plainCtx c fn off d data mask) (setReg c off (keeperNow c off d data mask)) := by
  have hreach : reachWrite c fn off = true := by
    unfold reachWrite
    rcases hpage with rfl | ⟨hserves, -⟩
    · rfl
    · rw [hserves]
      split
      · rfl
      · exact beq_self_eq_true fn
  have hown : fn = 0 ∨ ownPage fn off = true := hpage.imp id fun ⟨hserves, hblk⟩ => by
    rw [ownPage, hserves, hblk]
    exact (Bool.and_true _).trans (beq_self_eq_true fn)
  have hbad : (d.fields.any fun f => fieldBad fn (reg c off).toNat data mask f) = false :=
    any_plain hplain fun f _ hrule => by rw [fieldBad, hrule]
  have hdenied : (fn != 0 && d.fields.any fun f => if ownPage fn off then f.acc == .rwk && touches mask f else deniedField data mask f) = false := by
    rw [any_plain hplain fun f hacc _ => ?_, Bool.and_false]
    rw [hacc, deniedField, hacc]
    split <;> rfl
  have hstore : storeReg c fn off data mask
      = ⟨setReg c off (keeperNow c off d data mask), false, some (plainCtx c fn off d data mask)⟩ := by
    simp only [storeReg, if_neg hmask, hreach, hrow, storeDefined, hdenied, if_pos hown, hbad, regAfter_plain hplain, effMask_plain hplain,
      Bool.not_true, Bool.false_eq_true, if_false]
    rfl
  rw [writeReg, hstore]
  rfl

/-! HOST_RING_CFG (R234, R235, R281, R282). -/

def ringCfgRow : RegDesc := regNN "HOST_RING_CFG" 0x21108 9 0x1000 4 0x40 [fd 0 4 .rw 4, fd 8 1 .rw 0, fd 9 1 .rw 0, fd 16 16 .rw 0]

theorem findReg_ringCfg (page : Fn) (r : Fin 4) : findReg (ringBase page.val r.val + 8) = some ringCfgRow := by
  revert page r
  decide +kernel

theorem serves_ringPage (page : Fn) (r : Fin 4) (k : Fin 0x40) :
    serves (ringBase page.val r.val + k.val) = .page page.val ∧ (ringBase page.val r.val + k.val) / 0x10000 = 2 := by
  have hpage := page.isLt
  have hr := r.isLt
  have hk := k.isLt
  have hoff : ringBase page.val r.val + k.val = 0x21100 + page.val * 0x1000 + r.val * 64 + k.val := by rw [ringBase_eq]
  have hblk : (ringBase page.val r.val + k.val) / 0x10000 = 2 := by omega
  refine ⟨?_, hblk⟩
  have hnum : (ringBase page.val r.val + k.val - 0x21000) / 0x1000 = page.val := by omega
  unfold serves
  dsimp only
  rw [hblk, if_neg (by omega), if_neg (by omega), if_pos rfl, if_neg (by omega), if_pos (by omega), hnum]

theorem page_of {fn page : Fn} (h : fn = 0 ∨ fn = page) (r : Fin 4) (k : Fin 0x40) : fn.val = 0 ∨
    (serves (ringBase page.val r.val + k.val) = .page fn.val ∧ (ringBase page.val r.val + k.val) / 0x10000 = 2) := by
  rcases h with rfl | rfl
  · exact .inl rfl
  · exact .inr (serves_ringPage fn r k)

/-- The registers of a ring lie at their places in the page of its function. -/
theorem ringPlace (page r : Nat) (hr : r < 4) {k : Nat} (hk : k < 0x40) :
    (ringBase page r + k - 0x21000) / 0x1000 = page ∧ ((ringBase page r + k) % 0x1000 - 0x100) / 0x40 = r := by
  rw [ringBase_eq]
  omega

/-- What the action of HOST_RING_CFG does with the ring that it names. -/
def ringCfgAct (fn r : Nat) (was touched : Bool) (log2 : Nat) (c : Chip) : Chip :=
  let c1 := if was && touched then ringBusy (setFld c (ringBase fn r + 8) 0 4 log2) fn r else c
  if !was && flag c1 (ringBase fn r + 8) 8 then
    if log2Ok r (fld c1 (ringBase fn r + 8) 0 4) then checkFall (setReg c1 (ringBase fn r + 0xC) 0) fn r
    else msixSend (setFlag c1 (ringBase fn r + 8) 8 false) fn 3
  else if was && !flag c1 (ringBase fn r + 8) 8 then discardHeld c1 fn r
  else c1

theorem ringCfgWrite_eq {c : Chip} {fn page : Fn} (h : fn = 0 ∨ fn = page) (r : Fin 4) (v : Word) (be : BitVec 4)
    (hmask : maskOfBytes (writeBytes v be) ≠ 0) :
    ringCfgWrite c fn page r.val v be = ringCfgAct page.val r.val (ringEn c page.val r.val)
      (natBits (effMask 0 ringCfgRow.fields (maskOfBytes (writeBytes v be))) 0 4 != 0) (ringLog2 c page.val r.val)
      (setReg c (ringBase page.val r.val + 8) (keeperNow c (ringBase page.val r.val + 8) ringCfgRow (dataOf (writeBytes v be))
        (maskOfBytes (writeBytes v be)))) := by
  obtain ⟨hfn, hr⟩ := ringPlace page.val r.val r.isLt (k := 8) (by decide)
  rw [ringCfgWrite, writeWord, writeReg_own hookRingCfg (findReg_ringCfg page r) (by decide +kernel) (page_of h r 8) hmask]
  unfold hookRingCfg
  dsimp only [plainCtx]
  rw [hfn, hr]
  rfl

/-- What a write of HOST_RING_CFG stores in a field whose bits it enables, and in one whose bits it does not. -/
theorem ringCfg_field {c : Chip} {page : Nat} {r : Nat} {f : Fld} (hf : f ∈ ringCfgRow.fields) {data mask : Nat} :
    (natBits mask f.lo f.width = 2 ^ f.width - 1 → fld (setReg c (ringBase page r + 8) (keeperNow c (ringBase page r + 8) ringCfgRow data mask))
        (ringBase page r + 8) f.lo f.width = natBits data f.lo f.width)
      ∧ (natBits mask f.lo f.width = 0 → fld (setReg c (ringBase page r + 8) (keeperNow c (ringBase page r + 8) ringCfgRow data mask))
        (ringBase page r + 8) f.lo f.width = natBits (reg c (ringBase page r + 8)).toNat f.lo f.width) := by
  have hplain : ringCfgRow.fields.all plainField = true := by decide +kernel
  obtain ⟨hacc, hrule⟩ := plainField_iff.mp (List.all_eq_true.mp hplain f hf)
  rw [fld_keeperNow (by decide +kernel) hf]
  refine ⟨fun h => ?_, fun h => ?_⟩
  · rw [fieldAfter, hacc, hrule]
    exact mergeField_en h _ _
  · rw [fieldAfter, hacc, hrule]
    exact mergeField_dis h _ _

theorem discardHeld_reports {c : Chip} {fn r : Nat} (hfn : fn < 9) : Reports c (discardHeld c fn r) := by
  unfold discardHeld
  split
  · exact (Reports.refl c).modFn _ _
  · split
    · exact Reports.modFn (.foldl _ _ (fun c _ _ => (Reports.refl c).gapOne _ _ hfn) (Reports.refl c)) _ _
    · split
      · exact ((Reports.refl c).recLoss _ hfn).modFn _ _
      · exact .refl c

theorem discardHeld_empties (c : Chip) (fn : Nat) : (fnSt (discardHeld c fn 2) fn).hold = [] ∧ (fnSt (discardHeld c fn 3) fn).recQ = [] := by
  refine ⟨?_, ?_⟩
  · rw [discardHeld, if_neg (by decide), if_pos rfl, fnSt_modFn_self]
  · rw [discardHeld, if_neg (by decide), if_neg (by decide), if_pos rfl, fnSt_modFn_self]

/-- The vector of a message, sent or left pending. -/
theorem msixSend_vector {c : Chip} {fn vec : Nat} (hvec : vec < 32) {t : Chip} (ht : t = msixSend c fn vec) :
    (natBit (fnSt t fn).msg vec = true ∨ flag t (msixPba fn) vec = true) ∧ Touches [.fns] (regAt (msixPba fn)) c t := by
  rw [msixSend] at ht
  split at ht
  · rw [ht]
    exact ⟨.inr (flag_setFlag_self _ _ _ _ hvec), (Touches.refl _ _ c).setFlag _ _ (by simp [regAt])⟩
  · rw [ht]
    refine ⟨.inl ?_, (Touches.refl _ _ c).modFn _ _ (by simp)⟩
    rw [fnSt_modFn_self, natBit_or, natBit_pow, beq_self_eq_true, Bool.or_true]

/-- An enabling with an allowed size. -/
theorem ringCfgAct_enables {c d : Chip} {fn r log2 : Nat} (hfn : fn < 9) (hr : r < 4) (htouch : Touches [] (regAt (ringBase fn r + 8)) c d)
    (hen : flag d (ringBase fn r + 8) 8 = true) (hsize : log2Ok r (fld d (ringBase fn r + 8) 0 4) = true) (touched : Bool) {t : Chip}
    (ht : t = ringCfgAct fn r false touched log2 d) :
    reg t (ringBase fn r + 8) = reg d (ringBase fn r + 8)
      ∧ (flag c (ringBase fn r + 0x14) 0 = false →
          nodeIdx t fn r = 0 ∧ hostIdx t fn r = 0 ∧ Touches [] (regsAt [ringBase fn r + 8, ringBase fn r + 0xC]) c t) := by
  obtain ⟨e, he⟩ : ∃ e, e = setReg d (ringBase fn r + 0xC) 0 := ⟨_, rfl⟩
  have hform : t = checkFall e fn r := by
    rw [ht, ringCfgAct, Bool.false_and, if_neg Bool.false_ne_true, hen, hsize, he]
    rfl
  have hecfg : reg e (ringBase fn r + 8) = reg d (ringBase fn r + 8) := by
    rw [he, reg_setReg_other _ _ _ _ (by omega)]
  refine ⟨?_, fun hlow => ?_⟩
  · have hrep := (Reports.refl e).checkFall hfn (Nat.le_of_lt_succ hr)
    rw [← hform] at hrep
    rw [hrep.reg (reportReg_ring hfn (Nat.le_of_lt_succ hr) (by decide) (by decide)), hecfg]
  · have hstay : t = e := by
      have hwm : flag e (ringBase fn r + 0x14) 0 = false := by
        rw [he, flag, fld, reg_setReg_other _ _ _ _ (by omega), htouch.reg (by simp [regAt])]
        exact hlow
      rw [hform, checkFall, hwm, Bool.false_and, if_neg Bool.false_ne_true]
    have hidx : reg t (ringBase fn r + 0xC) = 0 := by rw [hstay, he, reg_setReg_self]
    refine ⟨?_, ?_, ?_⟩
    · rw [nodeIdx, fld, hidx]
      rfl
    · rw [hostIdx, fld, hidx]
      rfl
    · rw [hstay, he]
      exact (htouch.mono (fun _ h => h) (regsAt_pair_left _ _)).setReg _ (by simp [regsAt])

theorem ringCfgAct_refused {c d : Chip} {fn r log2 : Nat} (htouch : Touches [] (regAt (ringBase fn r + 8)) c d)
    (hen : flag d (ringBase fn r + 8) 8 = true) (hsize : log2Ok r (fld d (ringBase fn r + 8) 0 4) = false) (touched : Bool) {t : Chip}
    (ht : t = ringCfgAct fn r false touched log2 d) :
    ringEn t fn r = false ∧ (natBit (fnSt t fn).msg 3 = true ∨ flag t (msixPba fn) 3 = true)
      ∧ Touches [.fns] (regsAt [ringBase fn r + 8, msixPba fn]) c t := by
  obtain ⟨e, he⟩ : ∃ e, e = setFlag d (ringBase fn r + 8) 8 false := ⟨_, rfl⟩
  have hform : t = msixSend e fn 3 := by
    rw [ht, ringCfgAct, Bool.false_and, if_neg Bool.false_ne_true, hen, hsize, he]
    rfl
  obtain ⟨hvec, hsend⟩ := msixSend_vector (by decide) hform
  have hne : ringBase fn r + 8 ≠ msixPba fn := by
    rw [ringBase, msixPba]
    omega
  refine ⟨?_, hvec, ?_⟩
  · rw [ringEn, flag, fld, hsend.reg (beq_eq_false_iff_ne.mpr hne), he]
    exact flag_setFlag_self d _ _ _ (by decide)
  · have het : Touches [] (regAt (ringBase fn r + 8)) c e := by
      rw [he]
      exact htouch.setFlag _ _ (by simp [regAt])
    exact (het.mono (by simp) (regsAt_pair_left _ _)).trans (hsend.mono (fun _ h => h) (regsAt_pair_right _ _))

/-- A ring that is disabled: no ring is enabled that was not, so that reports write where they did. -/
theorem inRing_disabled {c e : Chip} {fn r : Nat} (htouch : Touches [] (regAt (ringBase fn r + 8)) c e) (hen : ringEn e fn r = false) {a : Nat}
    (h : inRing e a) : inRing c a := by
  obtain ⟨g, q, hg, h1, h3, hgen, hlo, hhi⟩ := h
  by_cases hsame : ringBase g q = ringBase fn r
  · rw [ringEn, hsame] at hgen
    exact absurd (hgen.symm.trans hen) (by decide)
  · have hreg {k : Nat} (hk : k = 0 ∨ k = 4 ∨ k = 8) : reg e (ringBase g q + k) = reg c (ringBase g q + k) := by
      refine htouch.reg (beq_eq_false_iff_ne.mpr ?_)
      rw [ringBase_eq, ringBase_eq] at hsame ⊢
      omega
    have hsize : ringSize e g q = ringSize c g q := by rw [ringSize, ringLog2, fld, hreg (.inr (.inr rfl)), ringSize, ringLog2, fld]
    have haddr : ringAddr e g q (entryBytes q) 0 = ringAddr c g q (entryBytes q) 0 := by
      rw [ringAddr, hsize, ← Nat.add_zero (ringBase g q), hreg (.inl rfl), Nat.add_zero, hreg (.inr (.inl rfl)), ringAddr]
    have hcen : ringEn c g q = true := by
      rw [← hgen, ringEn, flag, fld, ringEn, flag, fld, hreg (.inr (.inr rfl))]
    exact ⟨g, q, hg, h1, h3, hcen, by rw [← haddr]; exact hlo, by rw [← haddr, ← hsize]; exact hhi⟩

theorem ringCfgAct_disables {c d : Chip} {fn r : Nat} {touched : Bool} (hfn : fn < 9) (hr : r < 4)
    (htouch : Touches [] (regAt (ringBase fn r + 8)) c d) (hen : flag d (ringBase fn r + 8) 8 = false)
    (hlog : touched = false → ringLog2 d fn r = ringLog2 c fn r) {t : Chip} (ht : t = ringCfgAct fn r true touched (ringLog2 c fn r) d) :
    ringEn t fn r = false ∧ ringLog2 t fn r = ringLog2 c fn r ∧ (r = 2 → (fnSt t fn).hold = []) ∧ (r = 3 → (fnSt t fn).recQ = [])
      ∧ Changes [] (regAt (ringBase fn r + 8)) c t := by
  obtain ⟨e, he⟩ : ∃ e, e = if touched then setFld d (ringBase fn r + 8) 0 4 (ringLog2 c fn r) else d := ⟨_, rfl⟩
  obtain ⟨b, hb⟩ : ∃ b, b = if touched then ringBusy e fn r else e := ⟨_, rfl⟩
  have het : Touches [] (regAt (ringBase fn r + 8)) c e := by
    rw [he]
    exact .ite (htouch.setFld _ _ _ (by simp [regAt])) htouch
  have heen : ringEn e fn r = false := by
    rw [he]
    split
    · exact (flag_setFld_bit d _ _ _ _ _ (by decide) (by decide)).trans hen
    · exact hen
  have helog : ringLog2 e fn r = ringLog2 c fn r := by
    rw [he]
    split
    · exact (fld_setFld_self d _ _ _ _ (by decide)).trans (Nat.mod_eq_of_lt (Nat.mod_lt _ (by decide)))
    · exact hlog (Bool.eq_false_iff.mpr ‹_›)
  have hbrep : Reports e b := by
    rw [hb]
    exact .ite ((Reports.refl e).postError _ _ _) (.refl e)
  have hcfg {x : Chip} (hx : Reports e x) : reg x (ringBase fn r + 8) = reg e (ringBase fn r + 8) :=
    hx.reg (reportReg_ring hfn (Nat.le_of_lt_succ hr) (by decide) (by decide))
  have hben : flag b (ringBase fn r + 8) 8 = false := by
    rw [flag, fld, hcfg hbrep]
    exact heen
  have hform : t = discardHeld b fn r := by
    have hbusy : (if (true && touched) = true then ringBusy (setFld d (ringBase fn r + 8) 0 4 (ringLog2 c fn r)) fn r else d) = b := by
      rw [hb, he, Bool.true_and]
      cases touched <;> rfl
    rw [ht, ringCfgAct, hbusy, hben]
    rfl
  have hrep : Reports e t := by
    rw [hform]
    exact hbrep.trans (discardHeld_reports hfn)
  refine ⟨?_, ?_, fun h => ?_, fun h => ?_, ?_⟩
  · rw [ringEn, flag, fld, hcfg hrep]
    exact heen
  · rw [ringLog2, fld, hcfg hrep]
    exact helog
  · rw [hform, h]
    exact (discardHeld_empties b fn).1
  · rw [hform, h]
    exact (discardHeld_empties b fn).2
  · have hmem : e.hostMem = c.hostMem := het.same .hostMem (by simp) (by simp)
    refine ⟨?_, ?_, fun a ha => ?_⟩
    · exact onlyParts_trans (onlyParts_mono het.parts (by simp [reportParts])) (onlyParts_mono hrep.parts (by simp))
    · exact onlyRegs_trans (onlyRegs_mono het.regs fun _ h => .inr h) (onlyRegs_mono hrep.regs fun _ h => .inl h)
    · rw [hrep.host a fun h => ha (inRing_disabled het heen h), hmem]

/-! The bytes of a write. -/

theorem maskOfBytes_writeBytes (v : Word) (be : BitVec 4) : maskOfBytes (writeBytes v be) = maskOfBytes (writeBytes 0 be) := by
  unfold maskOfBytes writeBytes
  simp only [List.map_map]
  refine congrArg leNat (List.map_congr_left fun i _ => ?_)
  simp only [Function.comp]
  split <;> rfl

theorem mask_second_byte : ∀ be : BitVec 4, be.getLsbD 1 = true → natBits (maskOfBytes (writeBytes 0 be)) 8 1 = 1 ∧ maskOfBytes (writeBytes 0 be) ≠ 0
    ∧ ((natBits (effMask 0 ringCfgRow.fields (maskOfBytes (writeBytes 0 be))) 0 4 != 0) = false → natBits (maskOfBytes (writeBytes 0 be)) 0 4 = 0) := by
  decide +kernel

theorem data_second_byte {v : Word} {be : BitVec 4} (h : be.getLsbD 1 = true) : natBits (dataOf (writeBytes v be)) 8 1 = natBits v.toNat 8 1 := by
  have hbytes : dataOf (writeBytes v be) = leNat [(if be.getLsbD 0 then some (BitVec.ofNat 8 (v.toNat / 256 ^ 0)) else none).getD 0,
      (if be.getLsbD 1 then some (BitVec.ofNat 8 (v.toNat / 256 ^ 1)) else none).getD 0,
      (if be.getLsbD 2 then some (BitVec.ofNat 8 (v.toNat / 256 ^ 2)) else none).getD 0,
      (if be.getLsbD 3 then some (BitVec.ofNat 8 (v.toNat / 256 ^ 3)) else none).getD 0] := rfl
  rw [hbytes, h, if_pos rfl, Option.getD_some]
  generalize (if be.getLsbD 0 then some (BitVec.ofNat 8 (v.toNat / 256 ^ 0)) else none).getD 0 = x0
  generalize (if be.getLsbD 2 then some (BitVec.ofNat 8 (v.toNat / 256 ^ 2)) else none).getD 0 = x2
  generalize (if be.getLsbD 3 then some (BitVec.ofNat 8 (v.toNat / 256 ^ 3)) else none).getD 0 = x3
  have h0 := x0.isLt
  simp only [leNat, BitVec.toNat_ofNat, natBits]
  omega

/-! What events leave of the rings: the index that the host owns. -/

/-- The host's index of every ring stands. -/
structure HostKeeps (a b : Chip) : Prop where
  idx : ∀ g q, hostIdx b g q = hostIdx a g q

theorem HostKeeps.refl (c : Chip) : HostKeeps c c := ⟨fun _ _ => rfl⟩

theorem HostKeeps.trans {a b c : Chip} (h : HostKeeps a b) (k : HostKeeps b c) : HostKeeps a c := ⟨fun g q => (k.idx g q).trans (h.idx g q)⟩

theorem HostKeeps.modFn {a b : Chip} (h : HostKeeps a b) (fn : Nat) (f : FnSt → FnSt) : HostKeeps a (Machine.modFn b fn f) := ⟨h.idx⟩

/-- A register that is no ring's index. -/
theorem HostKeeps.setReg {a b : Chip} (h : HostKeeps a b) {off : Nat} (v : Word) (ho : off % 64 ≠ 12) : HostKeeps a (Machine.setReg b off v) :=
  ⟨fun g q => (fld_setReg_other b _ _ _ _ _ (by rw [ringBase_eq]; omega)).trans (h.idx g q)⟩

theorem HostKeeps.foldl {β : Type} (f : Chip → β → Chip) (xs : List β) (hf : ∀ c x, HostKeeps c (f c x)) (c : Chip) : HostKeeps c (xs.foldl f c) := by
  induction xs generalizing c with
  | nil => exact .refl c
  | cons x xs ih => exact (hf c x).trans (ih _)

/-- The node's own index shares its register with the host's. -/
theorem setNodeIdx_keeps (c : Chip) (fn r x : Nat) : HostKeeps c (setNodeIdx c fn r x) := ⟨fun g q => by
  by_cases h : ringBase g q = ringBase fn r
  · rw [hostIdx, hostIdx, setNodeIdx, h]
    exact fld_setFld_field c _ _ _ _ _ _ (by decide) (by decide)
  · exact fld_setFld_other c _ _ _ _ _ _ _ (by omega)⟩

theorem putRaw_keeps (c : Chip) (fn r : Nat) (bs : List Byte) : HostKeeps c (putRaw c fn r bs) := by
  unfold putRaw
  dsimp only
  exact (show HostKeeps c (hostWrite (hostWrite c _ _) _ _) from ⟨fun _ _ => rfl⟩).trans (setNodeIdx_keeps _ _ _ _) |>.modFn _ _

theorem putEvRaw_keeps (c : Chip) (fn : Nat) (bs : List Byte) : HostKeeps c (putEvRaw c fn bs) := by
  rw [putEvRaw]
  exact ((HostKeeps.refl c).modFn _ _).trans (putRaw_keeps _ _ _ _)

theorem ringReg_mod (fn r k : Nat) : (ringBase fn r + k) % 64 = k % 64 := by
  rw [ringBase_eq]
  omega

theorem gapOne_keeps (c : Chip) (fn kind frame : Nat) : HostKeeps c (gapOne c fn kind frame) := by
  unfold gapOne
  exact ((HostKeeps.refl c).setReg _ (by rw [ringReg_mod]; decide)).modFn _ _

theorem putGap_keeps (c : Chip) (fn : Nat) : HostKeeps c (putGap c fn) := by
  unfold putGap
  dsimp only
  split
  · exact .refl c
  · split
    · exact (putEvRaw_keeps c fn _).modFn _ _
    · exact .refl c

theorem gapOver_keeps (c : Chip) (fn kind frame : Nat) : HostKeeps c (gapOver c fn kind frame) := by
  unfold gapOver
  exact (gapOne_keeps c _ _ _).modFn _ _

theorem holdEntry_keeps (c : Chip) (fn : Nat) (e : EvEnt) : HostKeeps c (holdEntry c fn e) := by
  unfold holdEntry
  dsimp only
  split
  · exact gapOne_keeps c _ _ _
  · split
    · exact (HostKeeps.refl c).modFn _ _
    · split
      · exact (gapOver_keeps c _ _ _).modFn _ _
      · exact gapOver_keeps c _ _ _

theorem putEvEntry_keeps (c : Chip) (fn : Nat) (e : EvEnt) : HostKeeps c (putEvEntry c fn e) := by
  unfold putEvEntry
  dsimp only
  split
  · exact .refl c
  · split
    · exact gapOne_keeps c _ _ _
    · obtain ⟨d, hd⟩ : ∃ d, d = if (fnSt c fn).hold.isEmpty then putGap c fn else c := ⟨_, rfl⟩
      have hgap : HostKeeps c d := by
        rw [hd]
        split
        · exact putGap_keeps c fn
        · exact .refl c
      rw [← hd]
      split
      · exact hgap.trans (putEvRaw_keeps _ fn _)
      · exact hgap.trans (holdEntry_keeps _ fn e)

theorem markRise_keeps (c : Chip) (fn r : Nat) : HostKeeps c (markRise c fn r) :=
  (((HostKeeps.refl c).setReg _ (by rw [ringReg_mod]; decide)).setReg _ (by rw [ringReg_mod]; decide)).setReg _ (by rw [ringReg_mod]; decide)

theorem putEvents_keeps (c : Chip) (fn : Nat) (es : List EvEnt) : HostKeeps c (putEvents c fn es) := by
  unfold putEvents eventRise
  refine (HostKeeps.foldl _ es (fun c e => putEvEntry_keeps c fn e) c).trans ?_
  split
  · split
    · exact (markRise_keeps _ fn 2).trans (putEvEntry_keeps _ fn _)
    · exact markRise_keeps _ fn 2
  · exact .refl _

theorem checkRise_keeps (c : Chip) (fn r before : Nat) : HostKeeps c (checkRise c fn r before) := by
  unfold checkRise
  dsimp only
  split
  · split
    · exact (markRise_keeps c fn r).trans (putEvents_keeps _ fn _)
    · exact markRise_keeps c fn r
  · exact .refl c

theorem checkFall_keeps (c : Chip) (fn r : Nat) : HostKeeps c (checkFall c fn r) := by
  have hflag : HostKeeps c (setFlag c (ringBase fn r + 0x14) 0 false) := (HostKeeps.refl c).setReg _ (by rw [ringReg_mod]; decide)
  unfold checkFall
  dsimp only
  split
  · split
    · exact hflag.trans (putEvents_keeps _ fn _)
    · exact hflag
  · exact .refl c

/-! Doorbells and messages (R237, R245). -/

/-- An accepted doorbell value becomes the host's index. -/
theorem ringDoorbell_accepts {c : Chip} {fn r v : Nat} (hfn : fn < 9) (hr : r < 4) (hv : v < 65536) (hen : ringEn c fn r = true)
    (hnew : 0 < (v + 65536 - hostIdx c fn r) % 65536 ∧ (v + 65536 - hostIdx c fn r) % 65536 < 32768)
    (hroom : (v + 65536 - (if r = 0 then nodeIdx c fn r else hostIdx c fn r)) % 65536 ≤ (if r = 0 then ringSize c fn r else ringOcc c fn r)) {t : Chip}
    (ht : t = ringDoorbell c fn r v) : hostIdx t fn r = v ∧ Reports c t := by
  obtain ⟨e, he⟩ : ∃ e, e = setHostIdx c fn r v := ⟨_, rfl⟩
  have hform : t = if r = 0 then checkRise e fn r (ringOcc c fn r) else checkFall e fn r := by
    have hgo : ¬ ((!ringEn c fn r) = true ∨ (v + 65536 - hostIdx c fn r) % 65536 = 0) := by
      rw [hen]
      rintro (h | h)
      · exact Bool.false_ne_true h
      · omega
    rw [ht, ringDoorbell, he]
    dsimp only
    rw [if_neg hgo, if_neg (by omega), if_neg (by omega)]
  have hself : hostIdx e fn r = v := by
    rw [he]
    exact (fld_setFld_self c _ _ _ _ (by decide)).trans (Nat.mod_eq_of_lt hv)
  have hset : Reports c e := by
    rw [he]
    exact (Reports.refl c).setFld _ _ _ (reportReg_idx hfn (Nat.le_of_lt_succ hr) (.inl rfl))
  rw [hform]
  split
  · exact ⟨((checkRise_keeps e fn r _).idx fn r).trans hself, hset.checkRise _ hfn (Nat.le_of_lt_succ hr)⟩
  · exact ⟨((checkFall_keeps e fn r).idx fn r).trans hself, hset.checkFall hfn (Nat.le_of_lt_succ hr)⟩

/-- A report is a change of no further part and no further register. -/
theorem Reports.changes {a b : Chip} (h : Reports a b) : Changes [] noReg a b :=
  ⟨onlyParts_mono h.parts (by simp), onlyRegs_mono h.regs fun _ ho => .inl ho, h.host⟩

theorem msixMessage_sends {c : Chip} {fn vec : Nat} (hvec : vec < 3) (htold : flag c (ringBase fn (vec + 1) + 8) 9 = true)
    (hunsig : natBit (fnSt c fn).unsig vec = true) {t : Chip} (ht : t = msixMessage c fn vec) :
    natBit (fnSt t fn).unsig vec = false
      ∧ (flag c (msixCtl fn vec) 0 = false → natBit (fnSt t fn).msg vec = true ∧ t.regs = c.regs)
      ∧ (flag c (msixCtl fn vec) 0 = true → flag t (msixPba fn) vec = true ∧ (fnSt t fn).msg = (fnSt c fn).msg)
      ∧ Touches [.fns] (regAt (msixPba fn)) c t := by
  obtain ⟨e, he⟩ : ∃ e, e = modFn c fn fun f => { f with unsig := f.unsig - 2 ^ vec } := ⟨_, rfl⟩
  have hest : fnSt e fn = { fnSt c fn with unsig := (fnSt c fn).unsig - 2 ^ vec } := by rw [he, fnSt_modFn_self]
  have hgone : natBit (fnSt e fn).unsig vec = false := by
    rw [hest]
    exact natBit_sub_self hunsig
  have hform : t = if flag c (msixCtl fn vec) 0 then setFlag e (msixPba fn) vec true else modFn e fn fun f => { f with msg := f.msg ||| 2 ^ vec } := by
    rw [ht, msixMessage, if_pos ⟨hvec, htold, hunsig⟩, he]
    rfl
  have het : Touches [.fns] (regAt (msixPba fn)) c e := by
    rw [he]
    exact (Touches.refl _ _ c).modFn _ _ (by simp)
  cases hmask : flag c (msixCtl fn vec) 0 with
  | true =>
    rw [hmask, if_pos rfl] at hform
    have hst : fnSt t fn = fnSt e fn := by rw [hform, fnSt, setFlag_fns, fnSt]
    refine ⟨by rw [hst, hgone], fun h => absurd h (by decide), fun _ => ⟨?_, by rw [hst, hest]⟩, ?_⟩
    · rw [hform]
      exact flag_setFlag_self _ _ _ _ (by omega)
    · rw [hform]
      exact het.setFlag _ _ (by simp [regAt])
  | false =>
    rw [hmask, if_neg Bool.false_ne_true] at hform
    have hst : fnSt t fn = { fnSt e fn with msg := (fnSt e fn).msg ||| 2 ^ vec } := by rw [hform, fnSt_modFn_self]
    refine ⟨by rw [hst]; exact hgone, fun _ => ⟨?_, ?_⟩, fun h => absurd h (by decide), ?_⟩
    · rw [hst, natBit_or, natBit_pow, beq_self_eq_true, Bool.or_true]
    · rw [hform, he]
      rfl
    · rw [hform]
      exact het.modFn _ _ (by simp)

/-- What a write of all four bytes stores in HOST_RING_CFG. -/
theorem ringCfg_all {c d : Chip} {page r : Nat} {v : Word}
    (hd : d = setReg c (ringBase page r + 8) (keeperNow c (ringBase page r + 8) ringCfgRow v.toNat (2 ^ 32 - 1))) :
    fld d (ringBase page r + 8) 0 4 = v.toNat % 16 ∧ flag d (ringBase page r + 8) 8 = natBit v.toNat 8
      ∧ fld d (ringBase page r + 8) 16 16 = v.toNat / 65536 := by
  have hfield {f : Fld} (hf : f ∈ ringCfgRow.fields) (hle : f.lo + f.width ≤ 32) : fld d (ringBase page r + 8) f.lo f.width = natBits v.toNat f.lo f.width := by
    rw [hd]
    exact (ringCfg_field hf).1 (natBits_full hle)
  have hv := v.isLt
  refine ⟨(hfield (f := fd 0 4 .rw 4) (by decide +kernel) (by decide)).trans ?_, ?_,
    (hfield (f := fd 16 16 .rw 0) (by decide +kernel) (by decide)).trans (Nat.mod_eq_of_lt (by simp only [fd]; omega))⟩
  · simp only [natBits, fd, Nat.pow_zero, Nat.div_one]
    rfl
  · exact congrArg (· == 1) (hfield (f := fd 8 1 .rw 0) (by decide +kernel) (by decide))

theorem ringCfg_touches {c d : Chip} {page r : Nat} {v : Word} (hd : d = setReg c (ringBase page r + 8) v) : Touches [] (regAt (ringBase page r + 8)) c d := by
  rw [hd]
  exact (Touches.refl _ _ _).setReg _ (by simp [regAt])

/-- A ring that is enabled by a whole word (R240). -/
theorem ringCfgWrite_enables {c : Chip} {fn page : Fn} {r : Fin 4} {v : Word} (hfn : fn = 0 ∨ fn = page) (hoff : ringEn c page.val r.val = false)
    (hen : natBit v.toNat 8 = true) (hsize : log2Ok r.val (v.toNat % 16) = true) {t : Chip} (ht : t = ringCfgWrite c fn page r.val v allBytes) :
    ringEn t page.val r.val = true ∧ ringLog2 t page.val r.val = v.toNat % 16 ∧ fld t (ringBase page.val r.val + 8) 16 16 = v.toNat / 65536
      ∧ (flag c (ringBase page.val r.val + 0x14) 0 = false →
          nodeIdx t page.val r.val = 0 ∧ hostIdx t page.val r.val = 0
            ∧ Touches [] (regsAt [ringBase page.val r.val + 8, ringBase page.val r.val + 0xC]) c t) := by
  obtain ⟨d, hd⟩ : ∃ d, d = setReg c (ringBase page.val r.val + 8) (keeperNow c (ringBase page.val r.val + 8) ringCfgRow v.toNat (2 ^ 32 - 1)) :=
    ⟨_, rfl⟩
  obtain ⟨hlog, hbit, hhigh⟩ := ringCfg_all hd
  rw [hen] at hbit
  rw [ringCfgWrite_eq hfn r v allBytes (by rw [maskOfBytes_allBytes]; decide), maskOfBytes_allBytes, dataOf_allBytes, ← hd, hoff] at ht
  obtain ⟨hreg, hidx⟩ := ringCfgAct_enables page.isLt r.isLt (ringCfg_touches hd) hbit (by rw [hlog]; exact hsize) _ ht
  refine ⟨?_, ?_, ?_, hidx⟩
  · rw [ringEn, flag, fld, hreg]
    exact hbit
  · rw [ringLog2, fld, hreg]
    exact hlog
  · rw [fld, hreg]
    exact hhigh

/-- A ring whose size is out of range (R240). -/
theorem ringCfgWrite_refused {c : Chip} {fn page : Fn} {r : Fin 4} {v : Word} (hfn : fn = 0 ∨ fn = page) (hoff : ringEn c page.val r.val = false)
    (hen : natBit v.toNat 8 = true) (hsize : log2Ok r.val (v.toNat % 16) = false) {t : Chip} (ht : t = ringCfgWrite c fn page r.val v allBytes) :
    ringEn t page.val r.val = false ∧ (natBit (fnSt t page.val).msg 3 = true ∨ flag t (msixPba page.val) 3 = true)
      ∧ Touches [.fns] (regsAt [ringBase page.val r.val + 8, msixPba page.val]) c t := by
  obtain ⟨d, hd⟩ : ∃ d, d = setReg c (ringBase page.val r.val + 8) (keeperNow c (ringBase page.val r.val + 8) ringCfgRow v.toNat (2 ^ 32 - 1)) :=
    ⟨_, rfl⟩
  obtain ⟨hlog, hbit, -⟩ := ringCfg_all hd
  rw [hen] at hbit
  rw [ringCfgWrite_eq hfn r v allBytes (by rw [maskOfBytes_allBytes]; decide), maskOfBytes_allBytes, dataOf_allBytes, ← hd, hoff] at ht
  exact ringCfgAct_refused (ringCfg_touches hd) hbit (by rw [hlog]; exact hsize) _ ht

/-- A ring that is disabled by its bit (R240). -/
theorem ringCfgWrite_disables {c : Chip} {fn page : Fn} {r : Fin 4} {v : Word} {be : BitVec 4} (hfn : fn = 0 ∨ fn = page)
    (hon : ringEn c page.val r.val = true) (hbe : be.getLsbD 1 = true) (hen : natBit v.toNat 8 = false) {t : Chip}
    (ht : t = ringCfgWrite c fn page r.val v be) :
    ringEn t page.val r.val = false ∧ ringLog2 t page.val r.val = ringLog2 c page.val r.val ∧ (r.val = 2 → (fnSt t page.val).hold = [])
      ∧ (r.val = 3 → (fnSt t page.val).recQ = []) ∧ Changes [] (regAt (ringBase page.val r.val + 8)) c t := by
  obtain ⟨hfull, hmask, huntouched⟩ := mask_second_byte be hbe
  rw [← maskOfBytes_writeBytes v be] at hfull hmask huntouched
  obtain ⟨d, hd⟩ : ∃ d, d = setReg c (ringBase page.val r.val + 8)
    (keeperNow c (ringBase page.val r.val + 8) ringCfgRow (dataOf (writeBytes v be)) (maskOfBytes (writeBytes v be))) := ⟨_, rfl⟩
  have hbit : flag d (ringBase page.val r.val + 8) 8 = false := by
    have hfield : fld d (ringBase page.val r.val + 8) 8 1 = natBits v.toNat 8 1 := by
      rw [hd, ← data_second_byte hbe]
      exact (ringCfg_field (f := fd 8 1 .rw 0) (by decide +kernel)).1 hfull
    exact (congrArg (· == 1) hfield).trans hen
  rw [ringCfgWrite_eq hfn r v be hmask, ← hd, hon] at ht
  refine ringCfgAct_disables page.isLt r.isLt (ringCfg_touches hd) hbit (fun h => ?_) ht
  rw [hd]
  exact (ringCfg_field (f := fd 0 4 .rw 4) (by decide +kernel)).2 (huntouched h)

/-- A doorbell whose value lies within the limit of its ring (R237). -/
theorem doorbellWrite_accepts {c : Chip} {fn : Fn} {r : Fin 4} {mem : List (Nat × Byte)} {v : Word} {be : BitVec 4}
    (hbe : be.getLsbD 0 = true ∧ be.getLsbD 1 = true) (hen : ringEn c fn.val r.val = true)
    (hnew : 0 < (v.toNat % 65536 + 65536 - hostIdx c fn.val r.val) % 65536 ∧ (v.toNat % 65536 + 65536 - hostIdx c fn.val r.val) % 65536 < 32768)
    (hroom : (v.toNat % 65536 + 65536 - (if r = 0 then nodeIdx c fn.val 0 else hostIdx c fn.val r.val)) % 65536
      ≤ (if r = 0 then ringSize c fn.val 0 else ringOcc c fn.val r.val)) {t : Chip} (ht : t = doorbellWrite c fn.val r.val mem v be) :
    hostIdx t fn.val r.val = v.toNat % 65536 ∧ Changes [] noReg (hostStores c mem) t := by
  have hform : t = ringDoorbell (hostStores c mem) fn.val r.val (v.toNat % 65536) := by
    rw [ht, doorbellWrite, hbe.1, hbe.2]
    rfl
  obtain ⟨hidx, hrep⟩ := ringDoorbell_accepts fn.isLt r.isLt (Nat.mod_lt _ (by decide)) (c := hostStores c mem) hen hnew (by
    by_cases h : r = 0
    · rw [if_pos h, if_pos h] at hroom
      rw [h]
      exact hroom
    · have hval : r.val ≠ 0 := fun hz => h (Fin.ext hz)
      rw [if_neg h, if_neg h] at hroom
      rw [if_neg hval, if_neg hval]
      exact hroom) hform
  exact ⟨hidx, hrep.changes⟩

/-- Settles O24: the set-up of a ring, an accepted doorbell and a message. -/
theorem ringCommandsComplete : Obligations.RingCommandsComplete := by
  unfold Obligations.RingCommandsComplete
  refine ⟨fun s fn page r v hfn hoff hv hsize => ⟨_, rfl, rfl, ?_⟩, fun s fn page r v hfn hoff hv hsize => ⟨_, rfl, rfl, ?_⟩,
    fun s fn page r v be hfn hon hbe hv => ⟨_, rfl, rfl, ?_⟩, fun s fn mem r v be d a hbe hon hd hnew ha hroom => ⟨_, rfl, rfl, ?_⟩,
    fun s fn vec hvec htold hunsig => ⟨_, rfl, rfl, msixMessage_sends hvec htold hunsig rfl⟩⟩ <;> dsimp only
  · exact ringCfgWrite_enables hfn hoff hv hsize rfl
  · exact ringCfgWrite_refused hfn hoff hv hsize rfl
  · obtain ⟨hdis, hlog, hhold, hrec, hchg⟩ := ringCfgWrite_disables hfn hon hbe hv (t := ringCfgWrite s.chip fn page r.val v be) rfl
    exact ⟨hdis, hlog, fun h => hhold (congrArg Fin.val h), fun h => hrec (congrArg Fin.val h), hchg⟩
  · rw [hd] at hnew
    rw [ha] at hroom
    exact doorbellWrite_accepts hbe hon hnew hroom rfl

end Sys2Proof.Machine
end

section
-- One proof at a time: every thread takes a stack of its own from the memory that a compile has.
set_option Elab.async false
/-! SUPPORT. REG_WRITE of one register, what an error of low severity leaves, and what reads latch (R174 to R181, R297 to R299, R1014). -/

namespace Sys2Proof.Machine

/-! A write of one register by its bytes. -/

theorem storeReg_disabled (c : Chip) (fn off data : Nat) : storeReg c fn off data 0 = ⟨c, false, none⟩ := by
  rw [storeReg, if_pos rfl]

/-- One register is stored without a partner. -/
theorem storeReg_single (c : Chip) (fn off data mask : Nat) :
    (storeReg c fn off data mask).ctx.map (fun w => { w with pair := none }) = (storeReg c fn off data mask).ctx := by
  unfold storeReg
  split
  · rfl
  · split
    · rfl
    · split <;> rfl

theorem writePair_low (lo hi : Hook) (c : Chip) (fn off data mask : Nat) : writePair lo hi c fn off data mask 0 0 = writeReg lo c fn off data mask := by
  unfold writePair writeReg
  simp only [storeReg_disabled, Option.map_none, storeReg_single]
  rfl

theorem writePair_high (lo hi : Hook) (c : Chip) (fn off data mask : Nat) :
    writePair lo hi c fn off 0 0 data mask = writeReg hi c fn (off + 4) data mask := by
  unfold writePair writeReg
  simp only [storeReg_disabled, Option.map_none, storeReg_single]
  rfl

theorem leNat_four (x0 x1 x2 x3 : Byte) : leNat [x0, x1, x2, x3] = x0.toNat + 256 * (x1.toNat + 256 * (x2.toNat + 256 * x3.toNat)) := by
  simp only [leNat, Nat.mul_zero, Nat.add_zero]

theorem leNat_four_lt (x0 x1 x2 x3 : Byte) : leNat [x0, x1, x2, x3] < 2 ^ 32 := by
  have h0 := x0.isLt
  have h1 := x1.isLt
  have h2 := x2.isLt
  have h3 := x3.isLt
  rw [leNat_four]
  omega

theorem regWrite_word (c : Chip) (fn : Nat) {off : Nat} (hoff : off % 4 = 0) (b0 b1 b2 b3 : Option Byte) :
    regWrite c fn off [b0, b1, b2, b3] = writeReg (hookFor off) c fn off (dataOf [b0, b1, b2, b3]) (maskOfBytes [b0, b1, b2, b3]) := by
  have hdata : dataOf [b0, b1, b2, b3] < 2 ^ 32 := leNat_four_lt _ _ _ _
  have hmask : maskOfBytes [b0, b1, b2, b3] < 2 ^ 32 := leNat_four_lt _ _ _ _
  have hsize : sizeOk off [b0, b1, b2, b3].length = true := by
    simp only [sizeOk, List.length_cons, List.length_nil, Bool.and_eq_true, decide_eq_true_eq]
    omega
  rw [regWrite, hsize]
  by_cases hlow : off % 8 = 0
  · have hbase : off / 8 * 8 = off := by omega
    simp only [Bool.not_true, Bool.false_eq_true, if_false, hlow, List.replicate_zero, List.nil_append, hbase, Nat.mod_eq_of_lt hdata,
      Nat.mod_eq_of_lt hmask, Nat.div_eq_of_lt hdata, Nat.div_eq_of_lt hmask, writePair_low]
  · have hhigh : off % 8 = 4 := by omega
    have hbase : off / 8 * 8 + 4 = off := by omega
    have hpad (f : Option Byte → Byte) (hf : f none = 0) : leNat ((List.replicate 4 none ++ [b0, b1, b2, b3]).map f) = 2 ^ 32 * leNat ([b0, b1, b2, b3].map f) := by
      simp only [List.replicate, List.cons_append, List.nil_append, List.map_cons, List.map_nil, hf, leNat]
      have hzero : (0 : Byte).toNat = 0 := rfl
      omega
    have hd : dataOf (List.replicate 4 none ++ [b0, b1, b2, b3]) = 2 ^ 32 * dataOf [b0, b1, b2, b3] := hpad _ rfl
    have hm : maskOfBytes (List.replicate 4 none ++ [b0, b1, b2, b3]) = 2 ^ 32 * maskOfBytes [b0, b1, b2, b3] := hpad _ rfl
    simp only [Bool.not_true, Bool.false_eq_true, if_false, hhigh, hd, hm, Nat.mul_mod_right, Nat.mul_div_cancel_left _ (Nat.two_pow_pos 32),
      writePair_high, hbase]

theorem mask_enabled {b0 b1 b2 b3 : Option Byte} (h : ∃ b ∈ [b0, b1, b2, b3], b.isSome = true) : maskOfBytes [b0, b1, b2, b3] ≠ 0 := by
  obtain ⟨b, hb, hsome⟩ := h
  simp only [List.mem_cons, List.not_mem_nil, or_false] at hb
  simp only [maskOfBytes, List.map_cons, List.map_nil, leNat_four]
  rcases hb with rfl | rfl | rfl | rfl <;>
  · rw [if_pos hsome, show (255 : Byte).toNat = 255 from rfl]
    omega

/-! An error of low severity goes to the FIFO alone (R1087 to R1090). -/

theorem countOcc_touches (c : Chip) (code src : Nat) : Touches [.diag] (regsAt [0x1F0048]) c (countOcc c code src).1 := by
  unfold countOcc
  dsimp only
  split
  · exact (Touches.refl _ _ c).part (.diag _ _) (by simp)
  · split
    · exact (Touches.refl _ _ c).part (.diag _ _) (by simp)
    · exact ((Touches.refl _ _ c).part (.diag _ _) (by simp)).countFld _ _ (by decide)

theorem pushEntry_touches (c : Chip) (e : DiagEnt) : Touches [.diag] (regsAt [0x1F0020]) c (pushEntry c e) := by
  unfold pushEntry
  exact .ite (.refl _ _ c) (.ite ((Touches.refl _ _ c).part (.diag _ _) (by simp)) ((Touches.refl _ _ c).setReg _ (by decide)))

/-- Whatever becomes of an entry, the FIFO is not empty afterwards. -/
theorem pushEntry_fifo (c : Chip) (e : DiagEnt) : (pushEntry c e).diag.fifo ≠ [] := by
  unfold pushEntry
  split
  · next h =>
    intro hnil
    rw [hnil] at h
    exact Bool.false_ne_true h
  · split
    · exact fun h => by simp at h
    · next h =>
      rw [setReg_diag]
      intro hnil
      rw [hnil] at h
      exact h (by decide)

theorem postError_low {c : Chip} {code src detail : Nat} (hsev : codeSev code < 2) :
    Touches [.diag] (regsAt [0x1F0020, 0x1F0048]) c (postError c code src detail) ∧ (postError c code src detail).diag.fifo ≠ [] := by
  rw [postError, postErrorSev]
  dsimp only
  rw [if_neg (by rw [Bool.false_or, decide_eq_true_eq]; omega)]
  refine ⟨?_, pushEntry_fifo _ _⟩
  refine ((countOcc_touches c code src).mono (fun _ h => h) fun off h => ?_).trans ((pushEntry_touches _ _).mono (fun _ h => h) fun off h => ?_) <;>
  · simp only [regsAt, List.contains_cons, List.contains_nil, Bool.or_false, Bool.or_eq_true] at h ⊢
    simp [h]

/-- A change of parts and registers that reports write, and of registers named. -/
theorem Touches.changes {ps : List Part} {rs rs' : Nat → Bool} {a b : Chip} (h : Touches ps rs a b) (hp : ∀ p ∈ ps, p ∈ reportParts)
    (hm : Part.hostMem ∉ ps) (hr : ∀ off, rs off = true → reportReg off = true ∨ rs' off = true) : Changes [] rs' a b := by
  have hmem : b.hostMem = a.hostMem := h.same .hostMem hm (by simp)
  refine ⟨onlyParts_mono h.parts fun p hps => ?_, onlyRegs_mono h.regs hr, fun _ _ => by rw [hmem]⟩
  rcases List.mem_cons.mp hps with rfl | hps
  · exact List.mem_append_left _ (by simp [reportParts])
  · exact List.mem_append_left _ (hp p hps)

theorem errorRegs_report {off : Nat} (h : regsAt [0x1F0020, 0x1F0048] off = true) : reportReg off = true := by
  simp only [regsAt, List.contains_cons, List.contains_nil, Bool.or_false, Bool.or_eq_true, beq_iff_eq] at h
  rcases h with rfl | rfl <;> rfl

/-! Denials (R297 to R299). -/

/-- The registers that a denial of a partition writes: its counter and those of the FIFO. -/
def denyRegs (fn off : Nat) : Bool := regsAt [0x1F0020, 0x1F0048] off || regAt (0x30100 + (fn - 1) * 0x20) off

theorem deny_touches {c : Chip} {fn : Nat} (h0 : fn ≠ 0) (off : Nat) : Touches [.diag] (denyRegs fn) c (deny c fn off) := by
  rw [deny, if_neg h0]
  refine ((Touches.refl _ _ c).countFld _ _ (by simp [denyRegs, regAt])).trans ((postError_low (by decide)).1.mono (fun _ h => h) fun _ h => ?_)
  rw [denyRegs, h, Bool.true_or]

theorem deny_leaves {c : Chip} {fn : Nat} (h0 : fn ≠ 0) (hfn : fn < 9) (off : Nat) {t : Chip} (ht : t = deny c fn off) :
    fld t (0x30100 + (fn - 1) * 0x20) 0 16 = satInc 16 (fld c (0x30100 + (fn - 1) * 0x20) 0 16) ∧ t.diag.fifo ≠ []
      ∧ Changes [] (regAt (0x30100 + (fn - 1) * 0x20)) c t := by
  have hchange := deny_touches (c := c) h0 off
  rw [← ht] at hchange
  rw [deny, if_neg h0] at ht
  obtain ⟨htouch, hfifo⟩ := postError_low (c := countFld c (0x30100 + (fn - 1) * 0x20) 0 16) (src := srcRes 3 (fn - 1)) (detail := off) (code := 0x09)
    (by decide)
  rw [← ht] at htouch hfifo
  refine ⟨?_, hfifo, hchange.changes (by simp [reportParts]) (by simp) fun o h => ?_⟩
  · rw [fld, htouch.reg (by simp [regsAt]; omega), ← fld]
    exact fld_countFld_self c _ _ _ (by decide)
  · exact (Bool.or_eq_true_iff.mp h).imp errorRegs_report id

/-- A register that the function does not reach. -/
theorem regWrite_denied {c : Chip} {fn : Fn} {off : Nat} {b0 b1 b2 b3 : Option Byte} (hoff : off % 4 = 0) (hreach : reachWrite c fn.val off = false)
    (hsome : ∃ b ∈ [b0, b1, b2, b3], b.isSome = true) : regWrite c fn.val off [b0, b1, b2, b3] = deny c fn.val off := by
  rw [regWrite_word c fn.val hoff, writeReg, storeReg, if_neg (mask_enabled hsome), hreach]
  rfl

/-- A place without a register. -/
theorem regWrite_hole {c : Chip} {off : Nat} {b0 b1 b2 b3 : Option Byte} (hoff : off % 4 = 0) (hrow : findReg off = none)
    (hsome : ∃ b ∈ [b0, b1, b2, b3], b.isSome = true) : regWrite c 0 off [b0, b1, b2, b3] = postError c 0x03 (srcFn 0) off := by
  have hreach : reachWrite c 0 off = true := rfl
  rw [regWrite_word c 0 hoff, writeReg, storeReg, if_neg (mask_enabled hsome), hreach]
  simp only [hrow]
  rfl

/-- Settles O11: a denied write is counted and reported, a denied read answers 0. -/
theorem virtualFunctionIsDenied : Obligations.VirtualFunctionIsDenied := by
  unfold Obligations.VirtualFunctionIsDenied
  refine ⟨fun s fn off b0 b1 b2 b3 hne hoff hreach hsome => ⟨_, rfl, rfl, ?_⟩, fun s fn off hoff hreach => ⟨_, rfl, rfl, ?_⟩,
    fun s off b0 b1 b2 b3 hoff hrow hsome => ⟨_, rfl, rfl, ?_⟩⟩ <;> dsimp only
  · exact deny_leaves (fun h => hne (Fin.ext h)) fn.isLt _ (regWrite_denied hoff hreach hsome)
  · rw [upperLatch, if_neg (not_not.mpr hoff), hreach]
    rfl
  · have hform := regWrite_hole (c := s.chip) hoff hrow hsome
    obtain ⟨htouch, -⟩ := postError_low (c := s.chip) (src := srcFn 0) (detail := off.toNat) (code := 0x03) (by decide)
    rw [← hform] at htouch
    refine ⟨htouch.reg ?_, htouch.changes (by simp [reportParts]) (by simp) fun _ h => .inl (errorRegs_report h)⟩
    simp only [regsAt, List.contains_cons, List.contains_nil, Bool.or_false, Bool.or_eq_false_iff, beq_eq_false_iff_ne]
    refine ⟨fun h => ?_, fun h => ?_⟩ <;>
    · rw [h] at hrow
      exact absurd hrow (by decide +kernel)

end Sys2Proof.Machine
end

section
-- One proof at a time: every thread takes a stack of its own from the memory that a compile has.
set_option Elab.async false
/-! SUPPORT. The bytes of a write in a field of two bytes, and what reads latch (R174 to R181, R1014). -/

namespace Sys2Proof.Machine

/-! A field of two bytes of which a write enables some. -/

theorem land_high_byte (x : Nat) : x &&& 65280 = x / 256 % 256 * 256 := by
  have hshift : x / 256 % 256 * 256 = ((x >>> 8) &&& 255) <<< 8 := by
    rw [Nat.shiftLeft_eq, Nat.shiftRight_eq_div_pow, show (255 : Nat) = 2 ^ 8 - 1 from rfl, Nat.and_two_pow_sub_one_eq_mod]
  rw [hshift]
  refine Nat.eq_of_testBit_eq fun i => ?_
  rw [show (65280 : Nat) = 255 <<< 8 from rfl]
  simp only [Nat.testBit_and, Nat.testBit_shiftLeft, Nat.testBit_shiftRight]
  by_cases h : 8 ≤ i
  · have hi : 8 + (i - 8) = i := by omega
    simp [h, hi]
  · simp [h]

/-- The mask of a byte: all its bits where the write enables it. -/
def byteMask (b : Option Byte) : Nat := if b.isSome then 255 else 0

/-- A byte after a write that may enable it. -/
def byteAfter (old : Nat) (b : Option Byte) : Nat := (b.map BitVec.toNat).getD old

/-- The bits that a mask of two bytes lets through. -/
theorem land_byteMasks {x : Nat} (hx : x < 65536) (b0 b1 : Option Byte) :
    x &&& (byteMask b0 + 256 * byteMask b1) = (if b0.isSome then x % 256 else 0) + (if b1.isSome then x / 256 * 256 else 0) := by
  have hlow : x &&& 255 = x % 256 := Nat.and_two_pow_sub_one_eq_mod x 8
  have hall : x &&& 65535 = x := (Nat.and_two_pow_sub_one_eq_mod x 16).trans (Nat.mod_eq_of_lt hx)
  have hhigh := land_high_byte x
  rw [Nat.mod_eq_of_lt (by omega : x / 256 < 256)] at hhigh
  cases b0 <;> cases b1 <;> simp only [byteMask, Option.isSome_none, Option.isSome_some, Bool.false_eq_true, if_true, if_false]
  · exact Nat.and_zero x
  · rw [Nat.zero_add]
    exact hhigh.trans (Nat.zero_add _).symm
  · rw [Nat.mul_zero, Nat.add_zero, Nat.add_zero]
    exact hlow
  · exact hall.trans (by omega)

theorem merge_bytes {o : Nat} (ho : o < 65536) (b0 b1 : Option Byte) {d : Nat} (hd : d = (b0.getD 0).toNat + 256 * (b1.getD 0).toNat) :
    (d &&& (byteMask b0 + 256 * byteMask b1)) + (o - (o &&& (byteMask b0 + 256 * byteMask b1)))
      = byteAfter (o % 256) b0 + 256 * byteAfter (o / 256) b1 := by
  have h0 := (b0.getD 0).isLt
  have h1 := (b1.getD 0).isLt
  rw [land_byteMasks (by omega : d < 65536), land_byteMasks ho, hd]
  cases b0 <;> cases b1 <;>
    simp only [byteAfter, Option.isSome_none, Option.isSome_some, Bool.false_eq_true, if_true, if_false, Option.map_none, Option.map_some,
      Option.getD_none, Option.getD_some] at h0 h1 ⊢ <;>
    omega

/-! HOST_RING_WM (R240). -/

def ringWmRow : RegDesc := regNN "HOST_RING_WM" 0x21110 9 0x1000 4 0x40 [fd 0 16 .rw 0xFFFF, fd 16 16 .rw 0]

theorem findReg_ringWm (page : Fn) (r : Fin 4) : findReg (ringBase page.val r.val + 0x10) = some ringWmRow := by
  revert page r
  decide +kernel

theorem hookFor_ringWm (page : Fn) (r : Fin 4) : hookFor (ringBase page.val r.val + 0x10) = hookNone := by
  have hpage := page.isLt
  have hr := r.isLt
  rw [ringBase_eq]
  have hblk : (0x21100 + page.val * 0x1000 + r.val * 64 + 0x10) / 0x10000 = 2 := by omega
  have hmod : (0x21100 + page.val * 0x1000 + r.val * 64 + 0x10) % 0x1000 = 0x110 + r.val * 64 := by omega
  have hplace : (0x110 + r.val * 64) % 0x40 = 0x10 := by omega
  unfold hookFor hostHook
  dsimp only
  rw [hblk, hmod, hplace, if_neg (by decide), if_pos rfl, if_neg (by omega), if_pos (by omega)]
  rfl

/-- The low or the high half of a number whose four bytes are listed. -/
theorem natBits_halves (x0 x1 x2 x3 : Byte) : natBits (leNat [x0, x1, x2, x3]) 0 16 = x0.toNat + 256 * x1.toNat
    ∧ natBits (leNat [x0, x1, x2, x3]) 16 16 = x2.toNat + 256 * x3.toNat := by
  have h0 := x0.isLt
  have h1 := x1.isLt
  have h2 := x2.isLt
  have h3 := x3.isLt
  rw [leNat_four, natBits, natBits]
  omega

theorem mask_byte (b : Option Byte) : BitVec.toNat (if b.isSome then (255 : Byte) else 0) = byteMask b := by
  rw [byteMask]
  split <;> rfl

theorem natBits_high_byte (x lo : Nat) : natBits x lo 16 / 256 = natBits x (lo + 8) 8 := by
  unfold natBits
  rw [Nat.pow_add, ← Nat.div_div_eq_div_mul]
  omega

theorem mergeField_bytes {lo : Nat} {f : Fld} (hlo : f.lo = lo) (hw : f.width = 16) {data mask : Nat} {b0 b1 : Option Byte}
    (hdata : natBits data lo 16 = (b0.getD 0).toNat + 256 * (b1.getD 0).toNat) (hmask : natBits mask lo 16 = byteMask b0 + 256 * byteMask b1) (old : Nat) :
    mergeField old data mask f = byteAfter (natBits old lo 8) b0 + 256 * byteAfter (natBits old (lo + 8) 8) b1 := by
  have hlow : natBits old lo 16 % 256 = natBits old lo 8 := Nat.mod_mod_of_dvd _ (by decide)
  have hhigh := natBits_high_byte old lo
  rw [mergeField, hlo, hw, hmask]
  rw [merge_bytes (natBits_lt old lo 16) b0 b1 hdata, hlow, hhigh]

/-- What a write of some bytes of HOST_RING_WM stores in it. -/
theorem ringWm_bytes (c : Chip) (b0 b1 b2 b3 : Option Byte) {t : Chip} {off : Nat}
    (ht : t = setReg c off (keeperNow c off ringWmRow (dataOf [b0, b1, b2, b3]) (maskOfBytes [b0, b1, b2, b3]))) :
    fld t off 0 16 = byteAfter (fld c off 0 8) b0 + 256 * byteAfter (fld c off 8 8) b1
      ∧ fld t off 16 16 = byteAfter (fld c off 16 8) b2 + 256 * byteAfter (fld c off 24 8) b3 := by
  obtain ⟨hdlo, hdhi⟩ := natBits_halves (b0.getD 0) (b1.getD 0) (b2.getD 0) (b3.getD 0)
  obtain ⟨hmlo, hmhi⟩ := natBits_halves (if b0.isSome then 255 else 0) (if b1.isSome then 255 else 0) (if b2.isSome then 255 else 0)
    (if b3.isSome then 255 else 0)
  rw [mask_byte, mask_byte] at hmlo hmhi
  have hstored {f : Fld} (hf : f ∈ ringWmRow.fields) (hacc : f.acc = .rw) (hrule : f.rule = .any) :
      fld t off f.lo f.width = mergeField (reg c off).toNat (dataOf [b0, b1, b2, b3]) (maskOfBytes [b0, b1, b2, b3]) f := by
    rw [ht, fld_keeperNow (by decide +kernel) hf, fieldAfter, hacc, hrule]
    rfl
  exact ⟨(hstored (f := fd 0 16 .rw 0xFFFF) (by decide +kernel) rfl rfl).trans (mergeField_bytes rfl rfl hdlo hmlo _),
    (hstored (f := fd 16 16 .rw 0) (by decide +kernel) rfl rfl).trans (mergeField_bytes rfl rfl hdhi hmhi _)⟩

theorem byteAfter_lt {old : Nat} (h : old < 256) (b : Option Byte) : byteAfter old b < 256 := by
  cases b with
  | none => exact h
  | some b => exact b.isLt

/-- The bytes of a field of two bytes. -/
theorem fld_bytes {t : Chip} {off lo x y : Nat} (hx : x < 256) (h : fld t off lo 16 = x + 256 * y) :
    fld t off lo 8 = x ∧ fld t off (lo + 8) 8 = y := by
  have hlow : fld t off lo 16 % 256 = fld t off lo 8 := Nat.mod_mod_of_dvd _ (by decide)
  have hhigh : fld t off lo 16 / 256 = fld t off (lo + 8) 8 := natBits_high_byte _ _
  omega

/-- A byte of HOST_RING_WM after a write. -/
theorem ringWm_byte {c t : Chip} {off : Nat} {b0 b1 b2 b3 : Option Byte}
    (hlo : fld t off 0 16 = byteAfter (fld c off 0 8) b0 + 256 * byteAfter (fld c off 8 8) b1)
    (hhi : fld t off 16 16 = byteAfter (fld c off 16 8) b2 + 256 * byteAfter (fld c off 24 8) b3) :
    ∀ i : Fin 4, fld t off (8 * i.val) 8 = byteAfter (fld c off (8 * i.val) 8) ([b0, b1, b2, b3].getD i.val none) := by
  have hbyte (lo : Nat) (b : Option Byte) : byteAfter (fld c off lo 8) b < 256 := byteAfter_lt (natBits_lt (reg c off).toNat lo 8) b
  obtain ⟨h0, h1⟩ := fld_bytes (hbyte 0 b0) hlo
  obtain ⟨h2, h3⟩ := fld_bytes (hbyte 16 b2) hhi
  intro i
  match i with
  | 0 => exact h0
  | 1 => exact h1
  | 2 => exact h2
  | 3 => exact h3

/-- A function's write of some bytes of a watermark register in its page. -/
theorem regWrite_ringWm {c : Chip} {fn page : Fn} {r : Fin 4} {b0 b1 b2 b3 : Option Byte} (hfn : fn = 0 ∨ fn = page) {t : Chip}
    (ht : t = regWrite c fn.val (ringBase page.val r.val + 0x10) [b0, b1, b2, b3]) :
    (∀ i : Fin 4, fld t (ringBase page.val r.val + 0x10) (8 * i.val) 8
        = byteAfter (fld c (ringBase page.val r.val + 0x10) (8 * i.val) 8) ([b0, b1, b2, b3].getD i.val none))
      ∧ Touches [] (regAt (ringBase page.val r.val + 0x10)) c t := by
  rw [regWrite_word c fn.val (by rw [ringBase_eq]; omega), hookFor_ringWm] at ht
  by_cases hmask : maskOfBytes [b0, b1, b2, b3] = 0
  · have hnone (b : Option Byte) (hb : b ∈ [b0, b1, b2, b3]) : b = none :=
      Option.not_isSome_iff_eq_none.mp fun hsome => mask_enabled ⟨b, hb, hsome⟩ hmask
    have hstay : t = c := by
      rw [ht, hmask, writeReg, storeReg_disabled]
      rfl
    rw [hstay]
    refine ⟨fun i => ?_, .refl _ _ c⟩
    rw [List.getD_eq_getElem _ _ (show i.val < [b0, b1, b2, b3].length from i.isLt), hnone _ (List.getElem_mem _)]
    rfl
  · rw [writeReg_own hookNone (findReg_ringWm page r) (by decide +kernel) (page_of hfn r 0x10) hmask] at ht
    obtain ⟨hlo, hhi⟩ := ringWm_bytes c b0 b1 b2 b3 ht
    refine ⟨ringWm_byte hlo hhi, ?_⟩
    rw [ht]
    exact (Touches.refl _ _ c).setReg _ (beq_self_eq_true _)

/-! Reads that latch (R181, R1014). -/

theorem readReg_lt (c : Chip) (fn off : Nat) : readReg c fn off < 2 ^ 64 := (Nat.mod_lt _ (Nat.two_pow_pos 32)).trans (by decide)

theorem answer_parts {c d : Chip} (h : onlyParts [.fns, .readOut, .readAbort] c d) (v : Nat) : onlyParts [.fns, .readOut, .readAbort] c (answer d v) := by
  refine onlyParts_trans h fun p hp => ?_
  cases p
  case readOut => exact absurd (by simp) hp
  case readAbort => exact absurd (by simp) hp
  all_goals rfl

theorem modFn_parts (c : Chip) (fn : Nat) (f : FnSt → FnSt) : onlyParts [.fns, .readOut, .readAbort] c (modFn c fn f) := by
  intro p hp
  cases p
  case fns => exact absurd (by simp) hp
  all_goals rfl

/-- A read of a lower half latches the upper. -/
theorem upperLatch_lower {c : Chip} {fn off : Nat} (hoff : off % 4 = 0) (hreach : reachRead c fn off = true) (hlow : isLower off = true) {t : Chip}
    (ht : t = upperLatch c fn off) :
    t.readOut = some (readReg c fn off) ∧ t.readAbort = false
      ∧ smGet latchDef (fnSt t fn).latch (off + 4) = some (BitVec.ofNat 32 (readReg c fn (off + 4)))
      ∧ onlyParts [.fns, .readOut, .readAbort] c t := by
  have hss : off ≠ 0x1D0008 := fun h => by
    rw [h] at hlow
    exact absurd hlow (by decide)
  obtain ⟨d, hd⟩ : ∃ d, d = modFn c fn fun f => { f with latch := smPut latchDef f.latch (off + 4) (some (BitVec.ofNat 32 (readReg c fn (off + 4)))) } :=
    ⟨_, rfl⟩
  have hform : t = answer d (readReg c fn off) := by
    rw [ht, hd, upperLatch, if_neg (not_not.mpr hoff), hreach, hlow]
    exact (if_neg Bool.false_ne_true).trans ((if_neg hss).trans (if_pos rfl))
  have hst : (fnSt d fn).latch = smPut latchDef (fnSt c fn).latch (off + 4) (some (BitVec.ofNat 32 (readReg c fn (off + 4)))) := by
    rw [hd, fnSt_modFn_self]
  have hparts : onlyParts [.fns, .readOut, .readAbort] c d := by
    rw [hd]
    exact modFn_parts _ _ _
  rw [hform]
  refine ⟨congrArg some (Nat.mod_eq_of_lt (readReg_lt _ _ _)), rfl, ?_, answer_parts hparts _⟩
  show smGet latchDef (fnSt d fn).latch (off + 4) = _
  rw [hst, smGet_smPut_self]

/-- A read of an upper half answers what was latched, once. -/
theorem upperLatch_upper {c : Chip} {fn off : Nat} {w : Word} (hoff : off % 4 = 0) (hss : off ≠ 0x1D0008) (hreach : reachRead c fn off = true)
    (hlow : isLower off = false) (hlatch : smGet latchDef (fnSt c fn).latch off = some w) {t : Chip} (ht : t = upperLatch c fn off) :
    t.readOut = some w.toNat ∧ smGet latchDef (fnSt t fn).latch off = none ∧ onlyParts [.fns, .readOut, .readAbort] c t := by
  obtain ⟨d, hd⟩ : ∃ d, d = modFn c fn fun f => { f with latch := smPut latchDef f.latch off none } := ⟨_, rfl⟩
  have hform : t = answer d w.toNat := by
    rw [ht, hd, upperLatch, if_neg (not_not.mpr hoff), hreach, hlow, hlatch]
    exact (if_neg Bool.false_ne_true).trans ((if_neg hss).trans (if_neg Bool.false_ne_true))
  have hst : (fnSt d fn).latch = smPut latchDef (fnSt c fn).latch off none := by rw [hd, fnSt_modFn_self]
  have hparts : onlyParts [.fns, .readOut, .readAbort] c d := by
    rw [hd]
    exact modFn_parts _ _ _
  rw [hform]
  refine ⟨congrArg some (Nat.mod_eq_of_lt (w.isLt.trans (by decide))), ?_, answer_parts hparts _⟩
  show smGet latchDef (fnSt d fn).latch off = _
  rw [hst, smGet_smPut_self]

theorem calendarLatch_on {c : Chip} (hon : rtcOn c = true) {t : Chip} (ht : t = calendarLatch c 0) :
    t.readOut = some c.rtc.ss ∧ (fnSt t 0).cal = some (timeWord c.rtc.cal, dateWord c.rtc.cal, c.ot)
      ∧ onlyParts [.fns, .readOut, .readAbort] c t := by
  obtain ⟨d, hd⟩ : ∃ d, d = modFn c 0 fun f => { f with cal := some (timeWord c.rtc.cal, dateWord c.rtc.cal, c.ot) } := ⟨_, rfl⟩
  have hform : t = { d with readOut := some c.rtc.ss, readAbort := false } := by
    rw [ht, hd, calendarLatch, if_neg (by rw [hon]; simp)]
  have hst : (fnSt d 0).cal = some (timeWord c.rtc.cal, dateWord c.rtc.cal, c.ot) := by rw [hd, fnSt_modFn_self]
  rw [hform]
  refine ⟨rfl, hst, ?_⟩
  rw [hd]
  intro p hp
  cases p
  case fns => exact absurd (by simp) hp
  case readOut => exact absurd (by simp) hp
  case readAbort => exact absurd (by simp) hp
  all_goals rfl

/-- A read that breaks the size rule (R175). -/
theorem malformedRead_answers {c : Chip} {fn : Fn} {off len : Nat} (h : len = 0 ∨ 8 < off % 8 + len) :
    malformedRead c fn.val off len
      = if fn = 0 then { c with readOut := none, readAbort := true } else { c with readOut := some 0, readAbort := false } := by
  have hsize : ¬ sizeOk off len = true := by
    simp only [sizeOk, Bool.and_eq_true, decide_eq_true_eq]
    omega
  rw [malformedRead, if_neg hsize]
  by_cases h0 : fn = 0
  · exact (if_pos (congrArg Fin.val h0)).trans (if_pos h0).symm
  · exact (if_neg fun h => h0 (Fin.ext h)).trans (if_neg h0).symm

/-- Settles O26: a register write, a malformed read and the latching reads. -/
theorem registerAccessesComplete : Obligations.RegisterAccessesComplete := by
  unfold Obligations.RegisterAccessesComplete
  refine ⟨fun s fn page r b0 b1 b2 b3 hfn => ⟨_, rfl, rfl, ?_⟩, fun s fn off len hlen => ⟨_, rfl, rfl, malformedRead_answers hlen⟩,
    fun s fn off hoff hreach hlow => ⟨_, rfl, rfl, upperLatch_lower hoff hreach hlow rfl⟩,
    fun s fn off w hoff hss hreach hlow hlatch => ⟨_, rfl, rfl, upperLatch_upper hoff hss hreach hlow hlatch rfl⟩,
    fun s hon => ⟨_, rfl, rfl, calendarLatch_on hon rfl⟩⟩
  dsimp only
  have hoff : (BitVec.ofNat 21 (ringBase page.val r.val + 0x10)).toNat = ringBase page.val r.val + 0x10 := by
    rw [BitVec.toNat_ofNat, ringBase_eq]
    omega
  obtain ⟨hbytes, htouch⟩ := regWrite_ringWm (c := s.chip) (b0 := b0) (b1 := b1) (b2 := b2) (b3 := b3) (r := r) hfn rfl
  rw [hoff]
  refine ⟨fun i => (hbytes i).trans ?_, htouch⟩
  rw [byteAfter]
  cases [b0, b1, b2, b3].getD i.val none <;> rfl

end Sys2Proof.Machine
end

section
-- One proof at a time: every thread takes a stack of its own from the memory that a compile has.
set_option Elab.async false
/-! SUPPORT. A host write to BAR1 whose bytes share one fate (R209 to R223, R1054, R1064). -/

namespace Sys2Proof.Machine

/-! The fate of a byte depends on registers, on the image banks and on the partition table's header. -/

/-- The two states agree on what judges a byte: registers, programmed pages and the owner codes of the tables. -/
structure SameFates (a b : Chip) : Prop where
  regs : b.regs = a.regs
  prog : b.img.prog = a.img.prog
  flagged : b.img.flagged = a.img.flagged
  owners : ∀ k, 8 ≤ k → k < 13 → smGet tblDef b.tables (tblBase a 2 + k) = smGet tblDef a.tables (tblBase a 2 + k)

theorem SameFates.refl (c : Chip) : SameFates c c := ⟨rfl, rfl, rfl, fun _ _ _ => rfl⟩

theorem SameFates.activeCopy {a b : Chip} (h : SameFates a b) (d : TableDesc) : Machine.activeCopy b d = Machine.activeCopy a d := by
  rw [Machine.activeCopy, Machine.activeCopy, fld, fld, Machine.reg, Machine.reg, h.regs]

theorem SameFates.byteFate {a b : Chip} (h : SameFates a b) (x : Nat) : Machine.byteFate b x = Machine.byteFate a x := by
  simp only [Machine.byteFate, h.activeCopy, flag, fld, Machine.reg, h.regs, h.prog, h.flagged]
  rfl

theorem SameFates.tblBase {a b : Chip} (h : SameFates a b) (code : Nat) : Machine.tblBase b code = Machine.tblBase a code := by
  simp only [Machine.tblBase, h.activeCopy]

theorem SameFates.ownerAt {a b : Chip} (h : SameFates a b) {k : Nat} (h8 : 8 ≤ k) (h13 : k < 13) : Machine.ownerAt b k = Machine.ownerAt a k := by
  have hread : tmem b (Machine.tblBase a 2 + k) 1 = tmem a (Machine.tblBase a 2 + k) 1 := by
    simp only [tmem, memNat, memRead, List.range_one, List.map_cons, List.map_nil, Nat.add_zero, h.owners k h8 h13]
  rw [Machine.ownerAt, partByte, tbl, h.tblBase, hread, Machine.ownerAt, partByte, tbl]

theorem SameFates.tableOwner {a b : Chip} (h : SameFates a b) (code : Nat) : Machine.tableOwner b code = Machine.tableOwner a code := by
  unfold Machine.tableOwner
  split
  · exact h.ownerAt (by decide) (by decide)
  · exact h.ownerAt (by decide) (by decide)
  · exact h.ownerAt (by decide) (by decide)
  · exact h.ownerAt (by decide) (by decide)
  · exact h.ownerAt (by decide) (by decide)
  · rfl

theorem SameFates.byteFateFn {a b : Chip} (h : SameFates a b) (fn x : Nat) : Machine.byteFateFn b fn x = Machine.byteFateFn a fn x := by
  simp only [Machine.byteFateFn, h.tableOwner, h.byteFate]

/-- The partition table's copy in force is no place that a write stores to. -/
theorem byteFate_owner (c : Chip) {k : Nat} (hk : k < 13) : byteFate c (tblBase c 2 + k) = .active 2 := by
  have hat : ∀ (copy : Fin 2) (k : Fin 13), tableAt (0x1C20000 + copy.val * 0x8000 + k.val) = some ⟨2, 0x1C20000, 0x8000, 0x5000, 0x30000⟩
      ∧ (0x1C20000 + copy.val * 0x8000 + k.val - 0x1C20000) / 0x8000 = copy.val := by decide +kernel
  have hcopy : activeCopy c ⟨2, 0x1C20000, 0x8000, 0x5000, 0x30000⟩ < 2 := natBits_lt _ 0 1
  obtain ⟨hrow, hpart⟩ := hat ⟨_, hcopy⟩ ⟨k, hk⟩
  have hbase : tblBase c 2 = 0x1C20000 + activeCopy c ⟨2, 0x1C20000, 0x8000, 0x5000, 0x30000⟩ * 0x8000 := rfl
  rw [hbase, byteFate, if_neg (by omega), if_neg (by omega), if_neg (by omega), hrow]
  dsimp only
  rw [hpart, if_pos rfl]

/-- The fate of a byte that a function's write stores. -/
theorem byteFate_of_store {c : Chip} {fn x : Nat} (h : byteFateFn c fn x = .store) : byteFate c x = .store := by
  unfold byteFateFn at h
  split at h
  · exact h
  · split at h
    · split at h
      · split at h
        · exact absurd h (by simp)
        · exact h
      · exact absurd h (by simp)
    · exact absurd h (by simp)

/-! What the bytes of a write leave, byte after byte. -/

/-- A store beside the owner codes. -/
theorem SameFates.store {a b : Chip} (h : SameFates a b) {fn x : Nat} (hx : Machine.byteFateFn a fn x = .store) (v : Byte) :
    SameFates a { b with tables := memWrite tblDef b.tables x [v] } := by
  refine ⟨h.regs, h.prog, h.flagged, fun k h8 h13 => ?_⟩
  have hne : Machine.tblBase a 2 + k ≠ x := fun heq => by
    have hfate := byteFate_of_store hx
    rw [← heq, byteFate_owner a h13] at hfate
    exact absurd hfate (by simp)
  rw [← h.owners k h8 h13]
  exact smGet_memWrite_other _ _ _ _ _ (by simp only [List.length_singleton]; omega)

theorem byteFate_frame {x : Nat} (h : x < 0x800000) (c : Chip) : byteFate c x = .frame := by rw [byteFate, if_pos h]

theorem byteFateFn_frame {x : Nat} (h : x < 0x800000) (c : Chip) (fn : Nat) : byteFateFn c fn x = if fn = 0 then .frame else .denied := by
  have hat : tableAt x = none := by
    rw [tableAt, List.find?_eq_none]
    intro d hd
    have hlow : ∀ d ∈ tableDescs, 0x800000 ≤ d.base := by decide
    have := hlow d hd
    simp only [Bool.and_eq_true, decide_eq_true_eq]
    omega
  rw [byteFateFn, hat, byteFate_frame h]

theorem bar1Store_frame {a : Nat} (h : a < 0x800000) {c : Chip} {fn : Nat} {v : Byte} : bar1Store fn (c, none) a v = (c, none) := by
  rw [bar1Store, byteFateFn_frame h]
  by_cases h0 : fn = 0
  · rw [if_pos h0]
  · rw [if_neg h0]
    dsimp only
    rw [byteFate_frame h, if_neg (by simp)]
    rfl

theorem byteFate_lcd {x : Nat} (hlo : lcdMem ≤ x) (hhi : x < lcdMem + 0x2000) (c : Chip) : byteFate c x = .lcd := by
  rw [lcdMem] at hlo hhi
  rw [byteFate, if_neg (by omega), if_neg (by omega), if_pos (by omega)]

theorem bar1Store_lcd {a : Nat} (hlo : lcdMem ≤ a) (hhi : a < lcdMem + 0x2000) (s : Chip × Option Nat) (v : Byte) :
    bar1Store 0 s a v = lcdWriteByte s (a - lcdMem) v := by
  have hfate : byteFateFn s.1 0 a = .lcd := byteFate_lcd hlo hhi s.1
  rw [bar1Store, hfate]
  rfl

/-- The bytes of a write, each stored where it belongs. -/
def storeBytes (fn a : Nat) (data : List Byte) (s : Chip × Option Nat) : Chip × Option Nat :=
  (data.zipIdx).foldl (fun s (v, i) => bar1Store fn s (a + i) v) s

theorem foldl_zipIdx_shift {α β : Type} (f : β → Nat → α → β) (xs : List α) (k : Nat) (b : β) :
    (xs.zipIdx (k + 1)).foldl (fun s (p : α × Nat) => f s p.2 p.1) b = (xs.zipIdx k).foldl (fun s (p : α × Nat) => f s (p.2 + 1) p.1) b := by
  induction xs generalizing k b with
  | nil => rfl
  | cons x xs ih => exact ih (k + 1) _

theorem storeBytes_cons (fn a : Nat) (v : Byte) (data : List Byte) (s : Chip × Option Nat) :
    storeBytes fn a (v :: data) s = storeBytes fn (a + 1) data (bar1Store fn s a v) := by
  unfold storeBytes
  rw [List.zipIdx_cons, List.foldl_cons]
  refine (foldl_zipIdx_shift (fun s i v => bar1Store fn s (a + i) v) data 0 _).trans ?_
  simp only [Nat.add_zero, Nat.add_assoc, Nat.add_comm 1]

/-- Bytes that are all stored in table copies. -/
theorem storeBytes_tables {c : Chip} {fn : Nat} {data : List Byte} {a : Nat} {d : Chip} (h : SameFates c d)
    (hfate : ∀ i, i < data.length → byteFateFn c fn (a + i) = .store) :
    storeBytes fn a data (d, none) = ({ d with tables := memWrite tblDef d.tables a data }, none) := by
  induction data generalizing a d with
  | nil => rfl
  | cons v data ih =>
    have hfirst : byteFateFn c fn a = .store := hfate 0 (Nat.succ_pos _)
    have hstep : bar1Store fn (d, none) a v = ({ d with tables := memWrite tblDef d.tables a [v] }, none) := by
      rw [bar1Store, h.byteFateFn, hfirst]
    rw [storeBytes_cons, hstep, ih (h.store hfirst v) fun i hi => by rw [Nat.add_right_comm]; exact hfate (i + 1) (Nat.succ_lt_succ hi)]
    rfl

/-- Bytes staged for an image bank. -/
def stageBytes (c : Chip) (x : Nat) (bs : List Byte) : Chip := { c with img := { c.img with stage := memWrite erasedByte c.img.stage x bs } }

theorem SameFates.stage {a b : Chip} (h : SameFates a b) (x : Nat) (bs : List Byte) : SameFates a (stageBytes b x bs) :=
  ⟨h.regs, h.prog, h.flagged, h.owners⟩

/-- Bytes that are all staged for an image bank. -/
theorem storeBytes_stage {c : Chip} {fn : Nat} {data : List Byte} {a : Nat} {d : Chip} (h : SameFates c d) (hlo : data ≠ [] → 0x800000 ≤ a)
    (hfate : ∀ i, i < data.length → byteFateFn c fn (a + i) = .nvm) :
    storeBytes fn a data (d, none) = (stageBytes d (a - 0x800000) data, none) := by
  induction data generalizing a d with
  | nil => rfl
  | cons v data ih =>
    have hfirst : byteFateFn c fn a = .nvm := hfate 0 (Nat.succ_pos _)
    have hle := hlo (List.cons_ne_nil _ _)
    have hstep : bar1Store fn (d, none) a v = (stageBytes d (a - 0x800000) [v], none) := by
      rw [bar1Store, h.byteFateFn, hfirst]
      rfl
    have hnext : a + 1 - 0x800000 = a - 0x800000 + 1 := by omega
    rw [storeBytes_cons, hstep, ih (h.stage _ _) (fun _ => by omega)
      fun i hi => by rw [Nat.add_right_comm]; exact hfate (i + 1) (Nat.succ_lt_succ hi), hnext]
    rfl

/-- Bytes of the frame memory, of which none is stored. -/
theorem storeBytes_frame {c : Chip} {fn : Nat} {data : List Byte} {a : Nat} (hhi : a + data.length ≤ 0x800000) :
    storeBytes fn a data (c, none) = (c, none) := by
  induction data generalizing a with
  | nil => rfl
  | cons v data ih =>
    rw [List.length_cons] at hhi
    rw [storeBytes_cons, bar1Store_frame (by omega)]
    exact ih (by omega)

/-- Bytes of the LCD frame memory that lie in no enabled tile. -/
theorem storeBytes_lcd {data : List Byte} {a : Nat} {d : Chip} (hon : domOn d 19 = true) (hlo : lcdMem ≤ a) (hhi : a + data.length ≤ lcdMem + 0x2000)
    (htile : ∀ i, i < data.length → tileAtByte d (a - lcdMem + i) = none) :
    storeBytes 0 a data (d, none) = ({ d with tables := memWrite tblDef d.tables a data }, none) := by
  induction data generalizing a d with
  | nil => rfl
  | cons v data ih =>
    rw [List.length_cons] at hhi
    have hstep : bar1Store 0 (d, none) a v = ({ d with tables := memWrite tblDef d.tables a [v] }, none) := by
      have hplace : lcdMem + (a - lcdMem) = a := by omega
      rw [bar1Store_lcd hlo (by omega), lcdWriteByte, if_neg (by rw [hon]; simp; omega)]
      dsimp only
      have hfirst := htile 0 (Nat.succ_pos _)
      rw [Nat.add_zero] at hfirst
      rw [hfirst]
      dsimp only
      rw [hplace]
    rw [storeBytes_cons, hstep, ih (d := { d with tables := memWrite tblDef d.tables a [v] }) hon (by omega) (by omega) fun i hi => by
      have hnext : a + 1 - lcdMem + i = a - lcdMem + (i + 1) := by omega
      rw [hnext]
      exact htile (i + 1) (Nat.succ_lt_succ hi)]
    rfl

/-! The reports and the pages of a write. -/

theorem fateReports_none {c : Chip} {fn a n : Nat} (hquiet : ∀ i, i < n → fateError (byteFate c (a + i)) = none)
    (hreach : ∀ i, i < n → byteFateFn c fn (a + i) ≠ .denied) : fateReports c fn a n = [] := by
  have hfates : (List.range n).filterMap (fun i => fateError (byteFate c (a + i))) = [] :=
    List.filterMap_eq_nil_iff.mpr fun i hi => hquiet i (List.mem_range.mp hi)
  have hdenied : ((List.range n).any fun i => byteFateFn c fn (a + i) == .denied) = false :=
    List.any_eq_false.mpr fun i hi => by
      rw [beq_iff_eq]
      exact hreach i (List.mem_range.mp hi)
  rw [fateReports, hfates, hdenied]
  rfl

/-- The pages that a write completes. -/
def pagesOf (c : Chip) (fn a n : Nat) : List Nat :=
  ((List.range n).filterMap fun i =>
    if byteFateFn c fn (a + i) == .nvm && (a + i) % 256 == 255 then some ((a + i - 0x800000) / 256) else none).dedup

theorem pagesOf_none {c : Chip} {fn a n : Nat} (h : ∀ i, i < n → (byteFateFn c fn (a + i) == .nvm && (a + i) % 256 == 255) = false) :
    pagesOf c fn a n = [] := by
  rw [pagesOf, List.filterMap_eq_nil_iff.mpr fun i hi => by rw [h i (List.mem_range.mp hi)]; rfl]
  rfl

/-- A write that ends with byte 255 of its page. -/
theorem pagesOf_last {c : Chip} {fn a n : Nat} (hnvm : ∀ i, i < n → byteFateFn c fn (a + i) = .nvm) (hlast : a % 256 + n = 256) (hlo : 0x800000 ≤ a) :
    pagesOf c fn a n = [(a - 0x800000) / 256] := by
  obtain ⟨m, rfl⟩ : ∃ m, n = m + 1 := ⟨n - 1, by omega⟩
  have hbefore : (List.range m).filterMap (fun i =>
      if byteFateFn c fn (a + i) == .nvm && (a + i) % 256 == 255 then some ((a + i - 0x800000) / 256) else none) = [] :=
    List.filterMap_eq_nil_iff.mpr fun i hi => by
      have hi := List.mem_range.mp hi
      rw [if_neg]
      rw [Bool.and_eq_true, beq_iff_eq, beq_iff_eq]
      omega
  have hfinal : (byteFateFn c fn (a + m) == .nvm && (a + m) % 256 == 255) = true := by
    rw [hnvm m (Nat.lt_succ_self m), Bool.and_eq_true, beq_iff_eq, beq_iff_eq]
    exact ⟨rfl, by omega⟩
  have hpage : (a + m - 0x800000) / 256 = (a - 0x800000) / 256 := by omega
  rw [pagesOf, List.range_succ, List.filterMap_append, hbefore, List.nil_append, List.filterMap_cons, hfinal, if_pos rfl, hpage]
  rfl

/-- A host write to BAR1: its bytes, its pages, its reports. -/
theorem bar1Write_eq (c : Chip) (fn a : Nat) (data : List Byte) :
    bar1Write c fn a data = (fateReports c fn a data.length).foldl (fun c (code, detail) =>
        if code = 0x09 then deny c fn detail else postError c code (srcFn fn) detail)
      ((pagesOf c fn a data.length).foldl programPage (lcdTileWrite (storeBytes fn a data (c, none)))) := rfl

theorem bar1Write_tables {c : Chip} {fn a : Nat} {data : List Byte} (hfate : ∀ i, i < data.length → byteFateFn c fn (a + i) = .store) :
    bar1Write c fn a data = { c with tables := memWrite tblDef c.tables a data } := by
  have hreports : fateReports c fn a data.length = [] :=
    fateReports_none (fun i hi => by rw [byteFate_of_store (hfate i hi)]; rfl) fun i hi => by rw [hfate i hi]; simp
  have hpages : pagesOf c fn a data.length = [] := pagesOf_none fun i hi => by rw [hfate i hi]; rfl
  rw [bar1Write_eq, hreports, hpages, storeBytes_tables (.refl c) hfate]
  rfl

theorem byteFate_nvm_ge {c : Chip} {x : Nat} (h : byteFate c x = .nvm) : 0x800000 ≤ x := by
  by_contra hlt
  rw [byteFate_frame (by omega)] at h
  exact absurd h (by simp)

/-- A keeper's write wholly in pages that take it. -/
theorem bar1Write_stage {c : Chip} {a : Nat} {data : List Byte} (hfate : ∀ i, i < data.length → byteFateFn c 0 (a + i) = .nvm) :
    bar1Write c 0 a data = (pagesOf c 0 a data.length).foldl programPage (stageBytes c (a - 0x800000) data) := by
  have hreports : fateReports c 0 a data.length = [] :=
    fateReports_none (fun i hi => by rw [show byteFate c (a + i) = .nvm from hfate i hi]; rfl) fun i hi => by rw [hfate i hi]; simp
  have hlo : data ≠ [] → 0x800000 ≤ a := fun hne => byteFate_nvm_ge (hfate 0 (List.length_pos_iff.mpr hne))
  rw [bar1Write_eq, hreports, storeBytes_stage (.refl c) hlo hfate]
  rfl

theorem memRead_page (d : Nat → Byte) (m : Mem) (a : Nat) {bs : List Byte} (h : bs.length = 256) : memRead d (memWrite d m a bs) a 256 = bs := by
  rw [← h]
  exact memRead_memWrite d m a bs

/-- A page that a write completes. -/
theorem programPage_leaves (c : Chip) (page : Nat) {t : Chip} (ht : t = programPage c page) :
    memRead erasedByte t.nvm (page * 256) 256 = memRead erasedByte c.img.stage (page * 256) 256
      ∧ (∀ x, x / 256 ≠ page → smGet erasedByte t.nvm x = smGet erasedByte c.nvm x) ∧ smGet (fun _ => false) t.img.prog page = true
      ∧ onlyParts [.nvm, .img] c t := by
  obtain ⟨bs, hbs⟩ : ∃ bs, bs = memRead erasedByte c.img.stage (page * 256) 256 := ⟨_, rfl⟩
  have hlen : bs.length = 256 := by rw [hbs, memRead_length]
  have hnvm : t.nvm = memWrite erasedByte c.nvm (page * 256) bs := by
    rw [ht, hbs, programPage]
  rw [hnvm, ← hbs]
  refine ⟨memRead_page _ _ _ hlen, fun x hx => smGet_memWrite_other _ _ _ _ _ (by omega), ?_, fun p hp => ?_⟩
  · have hprog : t.img.prog = smPut (fun _ => false) c.img.prog page true := by rw [ht, programPage]
    rw [hprog, smGet_smPut_self]
  · rw [ht]
    cases p
    case nvm => exact absurd (by simp) hp
    case img => exact absurd (by simp) hp
    all_goals rfl

theorem stageBytes_parts (c : Chip) (x : Nat) (bs : List Byte) : onlyParts [.nvm, .img] c (stageBytes c x bs) := by
  intro p hp
  cases p
  case img => exact absurd (by simp) hp
  all_goals rfl

/-- A keeper's write that completes a page (R215, R216). -/
theorem bar1Write_page {c : Chip} {a x : Nat} {data : List Byte} (hfate : ∀ i, i < data.length → byteFateFn c 0 (a + i) = .nvm)
    (hlast : a % 256 + data.length = 256) (hx : x = a - 0x800000) {t : Chip} (ht : t = bar1Write c 0 a data) :
    memRead erasedByte t.nvm (x / 256 * 256) 256 = memRead erasedByte (memWrite erasedByte c.img.stage x data) (x / 256 * 256) 256
      ∧ (∀ y : Nat, y / 256 ≠ x / 256 → smGet erasedByte t.nvm y = smGet erasedByte c.nvm y)
      ∧ smGet (fun _ => false) t.img.prog (x / 256) = true ∧ onlyParts [.nvm, .img] c t := by
  have hlo : 0x800000 ≤ a := byteFate_nvm_ge (hfate 0 (by omega))
  rw [bar1Write_stage hfate, pagesOf_last hfate hlast hlo, ← hx] at ht
  obtain ⟨hpage, hrest, hprog, hparts⟩ := programPage_leaves (stageBytes c x data) (x / 256) ht
  exact ⟨hpage, hrest, hprog, onlyParts_trans (stageBytes_parts c x data) hparts⟩

/-! The frame memory, the LCD frame memory and the status port. -/

theorem fateReports_frame {c : Chip} {fn a n : Nat} (hn : n ≠ 0) (hhi : a + n ≤ 0x800000) :
    fateReports c fn a n = (0x06, 0) :: if fn = 0 then [] else [(0x09, a)] := by
  have hfates : (List.range n).filterMap (fun i => fateError (byteFate c (a + i))) = List.replicate n (0x06, 0) := by
    rw [List.filterMap_congr (g := fun _ => some (0x06, 0)) fun i hi => by
      have hi := List.mem_range.mp hi
      rw [byteFate_frame (by omega)]
      rfl]
    exact (congrFun List.filterMap_eq_map _).trans ((List.map_const' ..).trans (by rw [List.length_range]))
  have hdenied : ((List.range n).any fun i => byteFateFn c fn (a + i) == .denied) = (fn != 0) := by
    have hbyte (i : Nat) (hi : i < n) : (byteFateFn c fn (a + i) == .denied) = (fn != 0) := by
      rw [byteFateFn_frame (by omega)]
      by_cases h0 : fn = 0
      · rw [if_pos h0, h0]
        rfl
      · rw [if_neg h0, bne_iff_ne.mpr h0]
        rfl
    rw [Bool.eq_iff_iff, List.any_eq_true]
    refine ⟨fun ⟨i, hi, h⟩ => (hbyte i (List.mem_range.mp hi)).symm.trans h, fun h => ⟨0, List.mem_range.mpr (Nat.pos_of_ne_zero hn), ?_⟩⟩
    exact (hbyte 0 (Nat.pos_of_ne_zero hn)).trans h
  have hmod : a % 2 ^ 24 = a := Nat.mod_eq_of_lt (by omega)
  rw [fateReports, hfates, hdenied, List.replicate_dedup hn, hmod]
  by_cases h0 : fn = 0
  · rw [h0]
    rfl
  · rw [if_neg h0, bne_iff_ne.mpr h0]
    rfl

theorem bar1Write_frame {c : Chip} {fn : Fn} {a : Nat} {data : List Byte} (hne : data ≠ []) (hhi : a + data.length ≤ 0x800000) {t : Chip}
    (ht : t = bar1Write c fn.val a data) :
    t = (if fn = 0 then postError c 0x06 (srcFn 0) 0 else deny (postError c 0x06 (srcFn fn.val) 0) fn.val a) ∧ t.points = c.points
      ∧ Changes [] (regIn 0x30100 0x30200) c t := by
  have hpages : pagesOf c fn.val a data.length = [] := pagesOf_none fun i hi => by
    rw [byteFateFn_frame (by omega)]
    split <;> rfl
  rw [bar1Write_eq, fateReports_frame (List.length_pos_iff.mpr hne).ne' hhi, hpages, storeBytes_frame hhi] at ht
  obtain ⟨hlow, -⟩ := postError_low (c := c) (src := srcFn fn.val) (detail := 0) (code := 0x06) (by decide)
  by_cases h0 : fn = 0
  · have hform : t = postError c 0x06 (srcFn 0) 0 := by
      rw [ht, h0]
      rfl
    rw [h0] at hlow
    rw [if_pos h0]
    refine ⟨hform, ?_, ?_⟩
    · rw [hform]
      exact hlow.same .points (by simp) (by simp)
    · rw [hform]
      exact hlow.changes (by simp [reportParts]) (by simp) fun _ h => .inl (errorRegs_report h)
  · have hval : fn.val ≠ 0 := fun h => h0 (Fin.ext h)
    have hform : t = deny (postError c 0x06 (srcFn fn.val) 0) fn.val a := by
      rw [ht, if_neg hval]
      rfl
    have htouch : Touches [.diag] (denyRegs fn.val) c t := by
      rw [hform]
      exact (hlow.mono (fun _ h => h) fun _ h => by rw [denyRegs, h, Bool.true_or]).trans (deny_touches hval a)
    rw [if_neg h0]
    refine ⟨hform, htouch.same .points (by simp) (by simp), htouch.changes (by simp [reportParts]) (by simp) fun off h => ?_⟩
    refine (Bool.or_eq_true_iff.mp h).imp errorRegs_report fun hcount => ?_
    have hfn := fn.isLt
    rw [beq_iff_eq.mp hcount, regIn, Bool.and_eq_true, decide_eq_true_eq, decide_eq_true_eq]
    omega

/-- A byte of the LCD frame memory inside an enabled tile (R1054). -/
theorem bar1Write_tile {c : Chip} {a k : Nat} {b : Byte} (hon : domOn c 19 = true) (hlo : lcdMem ≤ a) (hhi : a < lcdMem + 0x2000)
    (htile : tileAtByte c (a - lcdMem) = some k) {t : Chip} (ht : t = bar1Write c 0 a [b]) :
    t = postError (countFld c lcdEvt 16 16) 0x89 srcNode k ∧ t.tables = c.tables ∧ Changes [] (regAt lcdEvt) c t := by
  have hfate (i : Nat) (hi : i < 1) : byteFateFn c 0 (a + i) = .lcd := byteFate_lcd (by omega) (by omega) c
  have hstore : storeBytes 0 a [b] (c, none) = (c, some k) := by
    rw [storeBytes_cons, bar1Store_lcd hlo hhi, lcdWriteByte, if_neg (by rw [hon]; simp; omega)]
    dsimp only
    rw [htile]
    rfl
  have hreports : fateReports c 0 a [b].length = [] :=
    fateReports_none (fun i hi => by rw [show byteFate c (a + i) = .lcd from hfate i hi]; rfl) fun i hi => by rw [hfate i hi]; simp
  have hpages : pagesOf c 0 a [b].length = [] := pagesOf_none fun i hi => by rw [hfate i hi]; rfl
  have hform : t = postError (countFld c lcdEvt 16 16) 0x89 srcNode k := by
    rw [ht, bar1Write_eq, hreports, hpages, hstore]
    rfl
  have htouch : Touches [.diag] (fun o => regsAt [0x1F0020, 0x1F0048] o || regAt lcdEvt o) c t := by
    rw [hform]
    refine ((Touches.refl _ _ c).countFld _ _ (by simp [regAt])).trans ((postError_low (by decide)).1.mono (fun _ h => h) fun _ h => ?_)
    rw [h, Bool.true_or]
  exact ⟨hform, htouch.same .tables (by simp) (by simp),
    htouch.changes (by simp [reportParts]) (by simp) fun _ h => (Bool.or_eq_true_iff.mp h).imp errorRegs_report id⟩

/-- A write of the LCD frame memory outside the enabled tiles (R1054). -/
theorem bar1Write_lcd {c : Chip} {a : Nat} {data : List Byte} (hon : domOn c 19 = true) (hlo : lcdMem ≤ a) (hhi : a + data.length ≤ lcdMem + 0x2000)
    (htile : ∀ i, i < data.length → tileAtByte c (a - lcdMem + i) = none) :
    bar1Write c 0 a data = { c with tables := memWrite tblDef c.tables a data } := by
  have hfate (i : Nat) (hi : i < data.length) : byteFateFn c 0 (a + i) = .lcd := byteFate_lcd (by omega) (by omega) c
  have hreports : fateReports c 0 a data.length = [] :=
    fateReports_none (fun i hi => by rw [show byteFate c (a + i) = .lcd from hfate i hi]; rfl) fun i hi => by rw [hfate i hi]; simp
  have hpages : pagesOf c 0 a data.length = [] := pagesOf_none fun i hi => by rw [hfate i hi]; rfl
  rw [bar1Write_eq, hreports, hpages, storeBytes_lcd hon hlo hhi htile]
  rfl

/-- Settles O27: writes of the BAR1 memories and a read of the status port. -/
theorem memoryWritesComplete : Obligations.MemoryWritesComplete := by
  unfold Obligations.MemoryWritesComplete
  refine ⟨fun s fn off data hfate => ⟨_, rfl, rfl, ?_⟩, fun s off data hfate => ⟨_, rfl, rfl, ?_⟩, fun s off data x hfate hlast hx => ⟨_, rfl, rfl, ?_⟩,
    fun s fn off data hne hhi => ⟨_, rfl, rfl, ?_⟩, fun s off data hon hin htile => ⟨_, rfl, rfl, ?_⟩, fun s off b k hon hin htile => ⟨_, rfl, rfl, ?_⟩,
    fun s addr hen hon hup => ⟨_, rfl, rfl, ?_⟩, fun s addr hdown => ⟨_, rfl, rfl, ?_⟩⟩ <;> dsimp only
  · exact bar1Write_tables fun i hi => beq_iff_eq.mp (List.all_eq_true.mp hfate i (List.mem_range.mpr hi))
  · have hbyte (i : Nat) (hi : i < data.length) : byteFateFn s.chip 0 (off.toNat + i) = .nvm ∧ (off.toNat + i) % 256 ≠ 255 := by
      have h := List.all_eq_true.mp hfate i (List.mem_range.mpr hi)
      rw [Bool.and_eq_true, beq_iff_eq, bne_iff_ne] at h
      exact h
    have hpages : pagesOf s.chip 0 off.toNat data.length = [] := pagesOf_none fun i hi => by
      rw [beq_eq_false_iff_ne.mpr (hbyte i hi).2, Bool.and_false]
    refine (bar1Write_stage fun i hi => (hbyte i hi).1).trans ?_
    rw [hpages]
    rfl
  · exact bar1Write_page (fun i hi => beq_iff_eq.mp (List.all_eq_true.mp hfate i (List.mem_range.mpr hi))) hlast hx rfl
  · exact bar1Write_frame hne hhi rfl
  · exact bar1Write_lcd hon hin.1 hin.2 fun i hi => Option.isNone_iff_eq_none.mp (List.all_eq_true.mp htile i (List.mem_range.mpr hi))
  · exact bar1Write_tile hon hin.1 hin.2 htile rfl
  · rw [statusPortRead, hen, hon, hup]
    rfl
  · have hno : (flag s.chip 0x1E0004 0 && domOn s.chip 7 && !starting s.chip) = false := by
      rcases hdown with h | h | h <;> rw [h] <;> simp
    rw [statusPortRead, hno]
    rfl

end Sys2Proof.Machine
end

section
-- One proof at a time: every thread takes a stack of its own from the memory that a compile has.
set_option Elab.async false
/-! SUPPORT. An entry that is a whole command and is accepted: its fetch, its performance, its completion (R253 to R265, R1186). -/

namespace Sys2Proof.Machine

/-! What the ring traffic of a command leaves: the recorder, the errors, the twin, and what a function has in progress. -/

/-- Of a function, the subscriptions, the reads and the work of its next commands stand. -/
structure FnStands (x y : FnSt) : Prop where
  subs : y.subs = x.subs
  reads : y.reads = x.reads
  work : y.work = x.work

/-- The recorder, the errors, the twin's link and what the functions have in progress stand. -/
structure RingQuiet (a b : Chip) : Prop where
  rcd : b.rcd = a.rcd
  diag : b.diag = a.diag
  sdl : b.sdl = a.sdl
  fns : ∀ g, FnStands (fnSt a g) (fnSt b g)

namespace RingQuiet

theorem refl (c : Chip) : RingQuiet c c := ⟨rfl, rfl, rfl, fun _ => ⟨rfl, rfl, rfl⟩⟩

theorem trans {a b c : Chip} (h : RingQuiet a b) (k : RingQuiet b c) : RingQuiet a c :=
  ⟨k.rcd.trans h.rcd, k.diag.trans h.diag, k.sdl.trans h.sdl,
    fun g => ⟨(k.fns g).subs.trans (h.fns g).subs, (k.fns g).reads.trans (h.fns g).reads, (k.fns g).work.trans (h.fns g).work⟩⟩

variable {a b : Chip} (h : RingQuiet a b)
include h

theorem modFn (fn : Nat) {f : FnSt → FnSt} (hf : ∀ x, FnStands x (f x) := by exact fun _ => ⟨rfl, rfl, rfl⟩) :
    RingQuiet a (Machine.modFn b fn f) := by
  refine h.trans ⟨rfl, rfl, rfl, fun g => ?_⟩
  by_cases hg : g = fn
  · rw [hg, fnSt_modFn_self]
    exact hf _
  · rw [fnSt_modFn_other _ _ _ _ hg]
    exact ⟨rfl, rfl, rfl⟩

theorem setReg (off : Nat) (v : Word) : RingQuiet a (Machine.setReg b off v) := ⟨h.rcd, h.diag, h.sdl, h.fns⟩

theorem foldl {β : Type} (f : Chip → β → Chip) (xs : List β) (hf : ∀ c x, RingQuiet c (f c x)) : RingQuiet a (xs.foldl f b) := by
  induction xs generalizing b with
  | nil => exact h
  | cons x xs ih => exact ih (h.trans (hf b x))

theorem putRaw (fn r : Nat) (bs : List Byte) : RingQuiet a (Machine.putRaw b fn r bs) := by
  unfold Machine.putRaw
  dsimp only
  refine RingQuiet.modFn ?_ fn
  exact (h.trans ⟨rfl, rfl, rfl, fun _ => ⟨rfl, rfl, rfl⟩⟩)

theorem putEvRaw (fn : Nat) (bs : List Byte) : RingQuiet a (Machine.putEvRaw b fn bs) := by
  rw [Machine.putEvRaw]
  exact (h.modFn fn).putRaw _ _ _

theorem gapOne (fn kind frame : Nat) : RingQuiet a (Machine.gapOne b fn kind frame) := by
  unfold Machine.gapOne
  exact (h.setReg _ _).modFn fn

theorem gapOver (fn kind frame : Nat) : RingQuiet a (Machine.gapOver b fn kind frame) := by
  unfold Machine.gapOver
  exact (h.gapOne _ _ _).modFn fn

theorem putGap (fn : Nat) : RingQuiet a (Machine.putGap b fn) := by
  unfold Machine.putGap
  dsimp only
  split
  · exact h
  · split
    · exact (h.putEvRaw fn _).modFn fn
    · exact h

theorem holdEntry (fn : Nat) (e : EvEnt) : RingQuiet a (Machine.holdEntry b fn e) := by
  unfold Machine.holdEntry
  dsimp only
  split
  · exact h.gapOne _ _ _
  · split
    · exact h.modFn fn
    · split
      · exact (h.gapOver _ _ _).modFn fn
      · exact h.gapOver _ _ _

theorem putEvEntry (fn : Nat) (e : EvEnt) : RingQuiet a (Machine.putEvEntry b fn e) := by
  unfold Machine.putEvEntry
  dsimp only
  split
  · exact h
  · split
    · exact h.gapOne _ _ _
    · obtain ⟨d, hd⟩ : ∃ d, d = if (fnSt b fn).hold.isEmpty then Machine.putGap b fn else b := ⟨_, rfl⟩
      have hgap : RingQuiet a d := by
        rw [hd]
        split
        · exact h.putGap fn
        · exact h
      rw [← hd]
      split
      · exact hgap.putEvRaw fn _
      · exact hgap.holdEntry fn e

theorem markRise (fn r : Nat) : RingQuiet a (Machine.markRise b fn r) := ((h.setReg _ _).setReg _ _).setReg _ _

theorem putEvents (fn : Nat) (es : List EvEnt) : RingQuiet a (Machine.putEvents b fn es) := by
  unfold Machine.putEvents eventRise
  have hall := h.foldl (fun c e => Machine.putEvEntry c fn e) es fun c e => (refl c).putEvEntry fn e
  split
  · split
    · exact (hall.markRise fn 2).putEvEntry fn _
    · exact hall.markRise fn 2
  · exact hall

theorem checkRise (fn r before : Nat) : RingQuiet a (Machine.checkRise b fn r before) := by
  unfold Machine.checkRise
  dsimp only
  split
  · split
    · exact (h.markRise fn r).putEvents fn _
    · exact h.markRise fn r
  · exact h

theorem checkFall (fn r : Nat) : RingQuiet a (Machine.checkFall b fn r) := by
  unfold Machine.checkFall
  dsimp only
  split
  · split
    · exact RingQuiet.putEvents (h.setReg _ _) fn _
    · exact h.setReg _ _
  · exact h

theorem complete (fn sq tag status result : Nat) : RingQuiet a (Machine.complete b fn sq tag status result) := by
  unfold Machine.complete
  dsimp only
  split
  · exact (h.putRaw fn 1 _).checkRise fn 1 _
  · exact h.setReg _ _

theorem done (k : HostCmd) (status result : Nat) : RingQuiet a (Machine.done b k status result) := by
  unfold Machine.done
  split
  · exact h
  · exact h.complete _ _ _ _ _

theorem fetchStep (fn n : Nat) : RingQuiet a (Machine.fetchStep b fn n) := by
  unfold Machine.fetchStep
  dsimp only
  split
  · refine RingQuiet.checkFall (RingQuiet.setReg ?_ _ _) fn 0
    split
    · exact h.setReg _ _
    · exact h
  · exact h

end RingQuiet

/-! A report leaves what the set-up and the tables say. -/

theorem Reports.fld {a b : Chip} (h : Reports a b) {off : Nat} (ho : reportReg off = false) (lo w : Nat) : Machine.fld b off lo w = Machine.fld a off lo w := by
  rw [Machine.fld, h.reg ho, Machine.fld]

theorem Reports.flag {a b : Chip} (h : Reports a b) {off : Nat} (ho : reportReg off = false) (i : Nat) : Machine.flag b off i = Machine.flag a off i := by
  rw [Machine.flag, h.fld ho, Machine.flag]

theorem Reports.tblBase {a b : Chip} (h : Reports a b) (code : Nat) : Machine.tblBase b code = Machine.tblBase a code := by
  unfold Machine.tblBase
  cases hd : tableDesc code with
  | none => rfl
  | some d =>
    have hfree : ∀ d ∈ tableDescs, reportReg d.stat = false := by decide +kernel
    have hact : activeCopy b d = activeCopy a d := h.fld (hfree d (List.mem_of_find?_eq_some hd)) 0 1
    simp only [hact]

theorem Reports.tbl {a b : Chip} (h : Reports a b) (code off m : Nat) : Machine.tbl b code off m = Machine.tbl a code off m := by
  rw [Machine.tbl, tmem, h.tblBase, show b.tables = a.tables from h.same .tables (by simp [reportParts]), Machine.tbl, tmem]

theorem Reports.point {a b : Chip} (h : Reports a b) (p : Nat) : Machine.point b p = Machine.point a p := by
  rw [Machine.point, show b.points = a.points from h.same .points (by simp [reportParts]), Machine.point]

/-! The fetch and the beginning of an accepted command. -/

theorem fetchStep_reports {c : Chip} {fn : Nat} (hfn : fn < 9) (n : Nat) : Reports c (fetchStep c fn n) := by
  unfold fetchStep
  dsimp only
  split
  · refine Reports.checkFall (Reports.setFld ?_ _ _ _ (reportReg_idx hfn (Nat.zero_le 3) (.inl rfl))) hfn (Nat.zero_le 3)
    split
    · exact (Reports.refl c).setFld _ _ _ (reportReg_idx hfn (Nat.zero_le 3) (.inl rfl))
    · exact .refl c
  · exact .refl c

theorem fetched_reports (c : Chip) {fn : Nat} (hfn : fn < 9) : Reports c (fetched c fn) := (fetchStep_reports hfn 1).modFn _ _

theorem done_reports (c : Chip) {k : HostCmd} (hfn : k.fn < 9) (status result : Nat) : Reports c (done c k status result) := by
  unfold done
  split
  · exact .refl c
  · exact (Reports.refl c).complete _ _ _ _ hfn

/-- A command runs between its fetch and its completion. -/
theorem Changes.between {ps : List Part} {rs : Nat → Bool} (hcalm : ∀ off, rs off = true → ringSetup off = false) (hmem : Part.hostMem ∉ ps) {a b c d : Chip}
    (h1 : Reports a b) (h2 : Touches ps rs b c) (h3 : Reports c d) : Changes ps rs a d :=
  ((((Within.refl ps hcalm a).report h1).touch h2 hmem).report h3).changes

/-- What `accepts` says of an entry (R1186). -/
structure Accepted (c : Chip) (fn op : Nat) (e : Entry) : Prop where
  begins : mayBegin c fn = true
  quick : (fnSt c fn).work.headD 0 = 0
  alone : (fnSt c fn).asm = none
  whole : cmdEntryMore e = false
  early : earlyStatus (fetched c fn) (entryCmd c fn op e) = none
  mode : ¬ (nodeMode (fetched c fn) = mMirror ∧ mirrorForbids op = true)

theorem accepted_of {c : Chip} {fn op : Nat} {e : Entry} (h : accepts c fn op e = true) : Accepted c fn op e := by
  simp only [accepts, Bool.and_eq_true, beq_iff_eq, Option.isNone_iff_eq_none, Bool.not_eq_true'] at h
  obtain ⟨⟨⟨⟨⟨h1, h2⟩, h3⟩, h4⟩, h5⟩, h6⟩ := h
  refine ⟨h1, h2, h3, h4, h5, fun ⟨hm, hf⟩ => ?_⟩
  rw [hm, hf] at h6
  exact absurd h6 (by decide)

theorem takeEntry_accepted {c : Chip} {fn op : Nat} {e : Entry} (h : Accepted c fn op e) :
    takeEntry c fn op e = perform (fetched c fn) (entryCmd c fn op e) := by
  have hwork : (fnSt (fetchStep c fn 1) fn).work.headD 0 = 0 := by
    rw [((RingQuiet.refl c).fetchStep fn 1 |>.fns fn).work]
    exact h.quick
  rw [takeEntry, h.begins, if_neg (by decide), h.alone]
  dsimp only
  rw [firstEntry, h.whole, if_neg (by decide), beginCommand]
  dsimp only
  rw [hwork, if_pos rfl, runCommand]
  have hearly := h.early
  rw [fetched, entryCmd] at hearly
  rw [hearly]
  rfl

/-- The conditions of R1186 that a command meets which passes the first seven. -/
theorem earlyStatus_none {c : Chip} {k : HostCmd} (hearly : earlyStatus c k = none) :
    fieldsOk c k = true ∧ (keeperOp k.op = true → k.fn = 0) ∧ (pointOp k.op = true → pointValid k.point = true ∧ classOk k.op (pClass k.point) = true) := by
  rw [earlyStatus] at hearly
  split at hearly
  · exact absurd hearly (by simp)
  split at hearly
  · exact absurd hearly (by simp)
  split at hearly
  · exact absurd hearly (by simp)
  next hfields =>
  split at hearly
  · exact absurd hearly (by simp)
  next hkeeper =>
  split at hearly
  · exact absurd hearly (by simp)
  next hpts =>
  split at hearly
  · exact absurd hearly (by simp)
  next hcls =>
  rw [Bool.not_eq_true, Bool.not_eq_false'] at hfields hpts
  refine ⟨hfields, fun hop => ?_, fun hop => ?_⟩
  · by_contra hne
    exact hkeeper (Bool.and_eq_true_iff.mpr ⟨hop, bne_iff_ne.mpr hne⟩)
  · rw [pointsOk, if_pos hop, Bool.and_eq_true] at hpts
    rw [hop, Bool.true_and, Bool.not_eq_true, Bool.not_eq_false'] at hcls
    exact ⟨hpts.1, hcls⟩

/-- The place of the point that such a command names. -/
theorem earlyStatus_index {c : Chip} {k : HostCmd} (hearly : earlyStatus c k = none) {cls : Nat} (hop : pointOp k.op = true)
    (hcls : ∀ x, classOk k.op x = true → x = cls) : pIndex k.point < classSize cls := by
  obtain ⟨hvalid, hclass⟩ := (earlyStatus_none hearly).2.2 hop
  rw [pointValid, decide_eq_true_eq, hcls _ hclass] at hvalid
  exact hvalid

/-- The operands of an accepted command lie in their ranges. -/
theorem accepted_range {c : Chip} {fn op : Nat} {e : Entry} (h : Accepted c fn op e) : rangeOk (fetched c fn) (entryCmd c fn op e) = true := by
  have hfields := (earlyStatus_none h.early).1
  rw [fieldsOk, Bool.and_eq_true] at hfields
  exact hfields.2

theorem accepted_index {c : Chip} {fn op cls : Nat} {e : Entry} (h : Accepted c fn op e) (hop : pointOp op = true)
    (hcls : ∀ x, classOk op x = true → x = cls) : pIndex (entryCmd c fn op e).point < classSize cls :=
  earlyStatus_index h.early hop hcls

/-- A command of one opcode, taken as its entry. -/
theorem takeEntry_perform {c : Chip} {fn op : Nat} {e : Entry} (h : Accepted c fn op e) {t : Chip}
    (ht : ¬ (nodeMode (fetched c fn) = mMirror ∧ mirrorForbids op = true) → perform (fetched c fn) (entryCmd c fn op e) = t) : takeEntry c fn op e = t :=
  (takeEntry_accepted h).trans (ht h.mode)

/-- An accepted command that is done at once. -/
theorem done_between {ps : List Part} {rs : Nat → Bool} (hcalm : ∀ off, rs off = true → ringSetup off = false) (hmem : Part.hostMem ∉ ps) {c : Chip} {fn : Fn}
    {k : HostCmd} (hk : k.fn = fn.val) {d : Chip} (h : Touches ps rs (fetched c fn.val) d) (status result : Nat) : Changes ps rs c (done d k status result) :=
  .between hcalm hmem (fetched_reports c fn.isLt) h (done_reports d (by rw [hk]; exact fn.isLt) status result)

/-- A register that reports do not write, after a command that is done. -/
theorem reg_done (c : Chip) {k : HostCmd} (hfn : k.fn < 9) (status result : Nat) {off : Nat} (ho : reportReg off = false) :
    reg (done c k status result) off = reg c off := (done_reports c hfn status result).reg ho

theorem leNat_lt (bs : List Byte) : leNat bs < 2 ^ (8 * bs.length) := by
  induction bs with
  | nil => decide
  | cons b bs ih =>
    have hb := b.isLt
    rw [leNat, List.length_cons, Nat.mul_succ, Nat.pow_add]
    omega

/-! The point and loop commands (R1187 to R1190). -/

theorem loopReg_quiet {l k : Nat} (hl : l < 128) (hk : k < 0x40) : reportReg (loopBase l + k) = false := by
  rw [loopBase]
  exact (quiet_of_range (by omega)).1

/-- The demand of an output point follows a word that stands substituted. -/
theorem demandPoint_substituted {c : Chip} {p : Nat} (hp : p < 2 ^ 24) (hsub : (point c p).subst = true) (w : Nat) {t : Chip} (ht : t = demandPoint c p w) :
    t.points = c.points ∧ Touches [.points, .cells, .legs] noReg c t := by
  rw [demandPoint] at ht
  by_cases h5 : pClass p = 5
  · rw [if_pos h5, setDemand] at ht
    have hcell : cellPt (pIndex p) = p := by
      rw [pClass] at h5
      rw [cellPt, pt, pIndex]
      omega
    have hstands : substStands (modCell c (pIndex p) fun x => { x with dem := w, wordQual := w % 4 }) (pIndex p) = true := by
      rw [substStands, hcell]
      exact Bool.or_eq_true_iff.mpr (.inl hsub)
    rw [refreshWord, if_pos hstands] at ht
    rw [ht]
    exact ⟨rfl, (Touches.refl _ _ c).part (.cells _ _) (by simp)⟩
  · rw [if_neg h5] at ht
    split at ht
    · rw [ht]
      exact ⟨rfl, (Touches.refl _ _ c).part (.legs _ _) (by simp)⟩
    · rw [ht]
      exact ⟨rfl, .refl _ _ c⟩

theorem substWord_flag (c : Chip) (p w : Nat) : natBit (substWord c p w).2.1 2 = true := by
  rw [substWord]
  cases pointUnit c p with
  | none =>
    dsimp only
    decide
  | some ue =>
    dsimp only
    rw [encodeWord]
    dsimp only
    split <;> rfl

/-- What SUBSTITUTE stores of its point. -/
def substituted (c : Chip) (p w : Nat) : PtEnt :=
  { point c p with live := (substWord c p w).1, flags := (substWord c p w).2.1, subst := true, raw := (substWord c p w).2.2 }

/-- SUBSTITUTE leaves its point substituted and changes no other (R1189). -/
theorem substitute_leaves (c : Chip) {p : Nat} (hp : p < 2 ^ 24) (w : Nat) {t : Chip} (ht : t = substitute c p w) :
    (point t p).subst = true ∧ natBit (point t p).flags 2 = true ∧ (point t p).lastCalc = (point c p).lastCalc ∧ onlyPoints (· = p) c t
      ∧ Touches [.points, .cells, .legs] noReg c t := by
  obtain ⟨d, hd⟩ : ∃ d, d = setPoint c p (substituted c p w) := ⟨_, rfl⟩
  have hpt : point d p = substituted c p w := by rw [hd, point_setPoint_self]
  obtain ⟨hpoints, htouch⟩ := demandPoint_substituted hp (c := d) (by rw [hpt]; rfl) _ (ht.trans (by rw [hd]; rfl))
  have hstay (q : Nat) : point t q = point d q := by rw [point, hpoints, point]
  rw [hstay, hpt]
  refine ⟨rfl, substWord_flag c p w, rfl, fun q hq => ?_, ?_⟩
  · rw [hstay, hd]
    exact point_setPoint_other _ _ _ _ hq
  · refine Touches.trans ?_ htouch
    rw [hd]
    exact (Touches.refl _ _ c).part (.points _ _) (by simp)

theorem entryPoint_lt (c : Chip) (fn op : Nat) (e : Entry) : (entryCmd c fn op e).point < 2 ^ 24 := by
  rw [HostCmd.point, HostCmd.at_]
  exact (leNat_lt _).trans_le (Nat.pow_le_pow_right (by decide) (Nat.mul_le_mul_left 8 (List.length_take_le _ _)))

theorem dueCut_keeps (c : Chip) (l : Nat) : Touches [.loops, .tune] noReg c (dueCut c l) ∧ (dueCut c l).loops = c.loops := by
  unfold dueCut
  generalize injecting c l = bs
  induction bs generalizing c with
  | nil => exact ⟨.refl _ _ c, rfl⟩
  | cons b bs ih =>
    obtain ⟨htouch, hloops⟩ := ih (setTune c b { tuneSt c b with cut := true })
    exact ⟨((Touches.refl _ _ c).part (.tune _ _) (by simp)).trans htouch, hloops⟩

/-- SET_LOOP_MODE of a loop that is not in the mode (R1187). -/
theorem setLoopMode_leaves {c : Chip} {l m : Nat} (hm : m ≤ 1) (hnew : b2n (loopAuto c l) ≠ m) {t : Chip} (ht : t = setLoopMode c l m) :
    b2n (loopAuto t l) = m ∧ (m = 0 → reg t (loopBase l + 0x1C) = BitVec.ofNat 32 (loopSt c l).word) ∧ (m = 1 → (loopSt t l).xfer = true)
      ∧ Touches [.loops, .tune] (regsAt [loopBase l, loopBase l + 0x1C]) c t := by
  rw [setLoopMode] at ht
  rcases Nat.le_one_iff_eq_zero_or_eq_one.mp hm with rfl | rfl
  · have hauto : loopAuto c l = true := by
      cases h : loopAuto c l with
      | true => rfl
      | false => exact absurd (by rw [h]; rfl) hnew
    obtain ⟨d, hd⟩ : ∃ d, d = setReg (setFlag c (loopStat l) 0 false) (loopBase l + 0x1C) (BitVec.ofNat 32 (loopSt c l).word) := ⟨_, rfl⟩
    rw [if_neg (by decide), toManual, if_pos hauto, ← hd] at ht
    obtain ⟨htouch, -⟩ := dueCut_keeps d l
    rw [← ht] at htouch
    refine ⟨?_, fun _ => ?_, fun h => absurd h (by decide), ?_⟩
    · have hoff : flag d (loopStat l) 0 = false := by
        rw [hd, flag, fld_setReg_other _ _ _ _ _ _ (by rw [loopStat]; omega)]
        exact flag_setFlag_self _ _ _ _ (by decide)
      rw [loopAuto, flag, fld, htouch.reg rfl]
      exact congrArg b2n hoff
    · rw [htouch.reg rfl, hd, reg_setReg_self]
    · refine Touches.trans ?_ (htouch.mono (fun _ h => h) fun _ h => absurd h (by simp [noReg]))
      rw [hd]
      exact ((Touches.refl _ _ c).setFlag _ _ (by simp [regsAt, loopStat])).setReg _ (by simp [regsAt])
  · have hauto : loopAuto c l = false := by
      cases h : loopAuto c l with
      | false => rfl
      | true => exact absurd (by rw [h]; rfl) hnew
    obtain ⟨d, hd⟩ : ∃ d, d = modLoop (setFlag c (loopStat l) 0 true) l fun x => { x with xfer := true } := ⟨_, rfl⟩
    rw [if_pos rfl, toAuto, hauto, if_neg (by decide), ← hd] at ht
    obtain ⟨htouch, hloops⟩ := dueCut_keeps d l
    rw [← ht] at htouch hloops
    refine ⟨?_, fun h => absurd h (by decide), fun _ => ?_, ?_⟩
    · have hon : flag d (loopStat l) 0 = true := by
        rw [hd]
        exact flag_setFlag_self c _ _ _ (by decide)
      rw [loopAuto, flag, fld, htouch.reg rfl]
      exact congrArg b2n hon
    · have hst : (loopSt d l).xfer = true := by
        rw [hd, loopSt, modLoop, setLoop, smGet_smPut_self]
      rw [loopSt, hloops]
      exact hst
    · refine Touches.trans ?_ (htouch.mono (fun _ h => h) fun _ h => absurd h (by simp [noReg]))
      rw [hd]
      exact ((Touches.refl _ _ c).setFlag _ _ (by simp [regsAt, loopStat])).part (.loops _ _) (by simp)

/-- TRIP_CLEAR of a latched trip without a cause (R572). -/
theorem tripClear_latched {c : Chip} {j : Nat} (h : tripCode c j = 2) : tripClear c j = (setTripCode c j 0, stSuccess, 0) := by
  rw [tripClear, h]
  rfl

/-! The effects by opcode, for a command whose conditions hold. -/

theorem substCmd_substitutes {c : Chip} {k : HostCmd} (hop : k.op = 0x01) (hcls : pClass k.point ≠ 8)
    (hword : wordStatus k ((pointUnit c k.point).map Prod.fst) = none) : substCmd c k = done (substitute c k.point (k.at_ 0x0C 4)) k stSuccess 0 := by
  rw [substCmd, if_neg hcls, if_neg (by rw [hop]; decide), hword]

theorem substCmd_ends {c : Chip} {k : HostCmd} (hop : k.op = 0x02) (hcls : pClass k.point ≠ 8) (hsub : (point c k.point).subst = true) :
    substCmd c k = done (unsubstitute c k.point) k stSuccess 0 := by
  rw [substCmd, if_neg hcls, if_pos hop, if_pos hsub]

theorem loopCmd_setpoint {c : Chip} {k : HostCmd} (hop : k.op = 0x03) (hsrc : spSrc c (pIndex k.point) = 1)
    (hword : wordStatus k (some (qw32Of (spConst c (pIndex k.point))).unit) = none) :
    loopCmd c k = done (setSetpoint c (pIndex k.point) (k.at_ 0x0C 4)) k stSuccess 0 := by
  rw [loopCmd]
  dsimp only
  rw [if_neg (by rw [hop]; decide), if_pos hop, if_neg (not_not.mpr hsrc), hword]

theorem loopCmd_mode {c : Chip} {k : HostCmd} (hop : k.op = 0x04) (hstat : setLoopModeStatus c (pIndex k.point) (k.at_ 0x0B 1) = (stSuccess, 0)) :
    loopCmd c k = done (setLoopMode c (pIndex k.point) (k.at_ 0x0B 1)) k stSuccess 0 := by
  rw [loopCmd]
  dsimp only
  rw [if_pos hop, if_pos hstat]

theorem loopCmd_manual {c : Chip} {k : HostCmd} (hop : k.op = 0x05) (hauto : loopAuto c (pIndex k.point) = false)
    (hword : wordStatus k (some (outUnit c (pIndex k.point))) = none) :
    loopCmd c k = done (setManualOutput c (pIndex k.point) (k.at_ 0x0C 4)) k stSuccess 0 := by
  rw [loopCmd]
  dsimp only
  rw [if_neg (by rw [hop]; decide), if_neg (by rw [hop]; decide), hauto, if_neg Bool.false_ne_true, hword]

/-! The clauses. -/

theorem takeEntry_nop {c : Chip} {fn : Fn} {e : Entry} (hacc : accepts c fn.val 0x00 e = true) {t : Chip} (ht : t = takeEntry c fn.val 0x00 e) :
    t = done (fetched c fn.val) (entryCmd c fn.val 0x00 e) stSuccess 0 ∧ Changes [] noReg c t := by
  have hform : t = done (fetched c fn.val) (entryCmd c fn.val 0x00 e) stSuccess 0 :=
    ht.trans (takeEntry_perform (accepted_of hacc) fun hmode => if_neg hmode)
  rw [hform]
  exact ⟨rfl, done_between noReg_calm (by simp) rfl (.refl _ _ _) _ _⟩

theorem takeEntry_substitute {c : Chip} {fn : Fn} {e : Entry} {p : Nat} (hacc : accepts c fn.val 0x01 e = true) (hp : p = (entryCmd c fn.val 0x01 e).point)
    (hcls : pClass p ≠ 8) (hword : wordStatus (entryCmd c fn.val 0x01 e) ((pointUnit (fetched c fn.val) p).map Prod.fst) = none) {t : Chip}
    (ht : t = takeEntry c fn.val 0x01 e) :
    t = done (substitute (fetched c fn.val) p ((entryCmd c fn.val 0x01 e).at_ 0x0C 4)) (entryCmd c fn.val 0x01 e) stSuccess 0
      ∧ (point t p).subst = true ∧ natBit (point t p).flags 2 = true ∧ (point t p).lastCalc = (point c p).lastCalc
      ∧ onlyPoints (· = p) c t ∧ Changes [.points, .cells, .legs] noReg c t := by
  obtain ⟨d, hd⟩ : ∃ d, d = substitute (fetched c fn.val) p ((entryCmd c fn.val 0x01 e).at_ 0x0C 4) := ⟨_, rfl⟩
  have hform : t = done d (entryCmd c fn.val 0x01 e) stSuccess 0 := by
    rw [ht, hd, hp]
    rw [hp] at hcls hword
    exact takeEntry_perform (accepted_of hacc) fun hmode => (if_neg hmode).trans (substCmd_substitutes rfl hcls hword)
  obtain ⟨hsub, hflag, hcalc, honly, htouch⟩ := substitute_leaves (fetched c fn.val) (p := p) (by rw [hp]; exact entryPoint_lt _ _ _ _) _ hd
  have hpoint (q : Nat) : point t q = point d q := by
    rw [hform]
    exact (done_reports d (k := entryCmd c fn.val 0x01 e) fn.isLt stSuccess 0).point q
  have hfetch := (fetched_reports c fn.isLt).point
  refine ⟨by rw [← hd]; exact hform, by rw [hpoint, hsub], by rw [hpoint, hflag], by rw [hpoint, hcalc, hfetch], fun q hq => ?_, ?_⟩
  · rw [hpoint, honly q hq, hfetch]
  · rw [hform]
    exact done_between noReg_calm (by simp) rfl htouch _ _

theorem takeEntry_unsubstitute {c : Chip} {fn : Fn} {e : Entry} {p : Nat} (hacc : accepts c fn.val 0x02 e = true)
    (hp : p = (entryCmd c fn.val 0x02 e).point) (hcls : pClass p ≠ 8) (hsub : (point c p).subst = true) {t : Chip} (ht : t = takeEntry c fn.val 0x02 e) :
    t = done (setPoint (fetched c fn.val) p { point c p with subst := false, raw := false }) (entryCmd c fn.val 0x02 e) stSuccess 0
      ∧ (point t p).subst = false ∧ (point t p).live = (point c p).live ∧ (point t p).flags = (point c p).flags
      ∧ onlyPoints (· = p) c t ∧ Changes [.points] noReg c t := by
  have hfetch := (fetched_reports c fn.isLt).point
  obtain ⟨d, hd⟩ : ∃ d, d = setPoint (fetched c fn.val) p { point c p with subst := false, raw := false } := ⟨_, rfl⟩
  have hform : t = done d (entryCmd c fn.val 0x02 e) stSuccess 0 := by
    rw [ht, hd, ← hfetch]
    rw [← hfetch] at hsub
    rw [hp] at hcls hsub ⊢
    exact takeEntry_perform (accepted_of hacc) fun hmode => (if_neg hmode).trans (substCmd_ends rfl hcls hsub)
  have hpt : point d p = { point c p with subst := false, raw := false } := by rw [hd, point_setPoint_self]
  have hpoint (q : Nat) : point t q = point d q := by
    rw [hform]
    exact (done_reports d (k := entryCmd c fn.val 0x02 e) fn.isLt stSuccess 0).point q
  rw [hpoint, hpt]
  refine ⟨by rw [← hd]; exact hform, rfl, rfl, rfl, fun q hq => ?_, ?_⟩
  · rw [hpoint, hd, point_setPoint_other _ _ _ _ hq, hfetch]
  · rw [hform, hd]
    exact done_between noReg_calm (by simp) rfl ((Touches.refl _ _ _).part (.points _ _) (by simp)) _ _

/-- The loop that an accepted command names. -/
theorem accepted_loop {c : Chip} {fn op l : Nat} {e : Entry} (h : accepts c fn op e = true) (hop : pointOp op = true)
    (hcls : ∀ x, classOk op x = true → x = 8) (hl : l = pIndex (entryCmd c fn op e).point) : l < 128 := by
  rw [hl]
  exact accepted_index (accepted_of h) hop hcls

theorem takeEntry_setpoint {c : Chip} {fn : Fn} {e : Entry} {l w : Nat} (hacc : accepts c fn.val 0x03 e = true)
    (hl : l = pIndex (entryCmd c fn.val 0x03 e).point) (hw : w = (entryCmd c fn.val 0x03 e).at_ 0x0C 4) (hsrc : spSrc c l = 1)
    (hword : wordStatus (entryCmd c fn.val 0x03 e) (some (qw32Of (spConst c l)).unit) = none) {t : Chip} (ht : t = takeEntry c fn.val 0x03 e) :
    t = done (setSetpoint (fetched c fn.val) l w) (entryCmd c fn.val 0x03 e) stSuccess 0
      ∧ reg t (loopBase l + 0x18) = BitVec.ofNat 32 (reencode w (qw32Of (spConst c l)).exp) ∧ Changes [] (regAt (loopBase l + 0x18)) c t := by
  have hlt := accepted_loop hacc rfl (fun x h => beq_iff_eq.mp h) hl
  have hrep := fetched_reports c fn.isLt
  have hconst : spConst (fetched c fn.val) l = spConst c l := hrep.tbl 5 _ _
  have hsrc' : spSrc (fetched c fn.val) l = 1 := (hrep.tbl 5 _ _).trans hsrc
  obtain ⟨d, hd⟩ : ∃ d, d = setSetpoint (fetched c fn.val) l w := ⟨_, rfl⟩
  have hform : t = done d (entryCmd c fn.val 0x03 e) stSuccess 0 := by
    rw [← hconst] at hword
    rw [ht, hd, hw]
    rw [hl] at hsrc' hword ⊢
    exact takeEntry_perform (accepted_of hacc) fun hmode => (if_neg hmode).trans (loopCmd_setpoint rfl hsrc' hword)
  refine ⟨by rw [← hd]; exact hform, ?_, ?_⟩
  · rw [hform, reg_done d fn.isLt _ _ (loopReg_quiet hlt (by decide)), hd, setSetpoint, reg_setReg_self, hconst]
  · rw [hform, hd]
    exact done_between (regAt_calm (quiet_of_range (by rw [loopBase]; omega)).2) (by simp) rfl ((Touches.refl _ _ _).setReg _ (by simp [regAt])) _ _

theorem takeEntry_manual {c : Chip} {fn : Fn} {e : Entry} {l w : Nat} (hacc : accepts c fn.val 0x05 e = true)
    (hl : l = pIndex (entryCmd c fn.val 0x05 e).point) (hw : w = (entryCmd c fn.val 0x05 e).at_ 0x0C 4) (hauto : loopAuto c l = false)
    (hword : wordStatus (entryCmd c fn.val 0x05 e) (some (outUnit c l)) = none) {t : Chip} (ht : t = takeEntry c fn.val 0x05 e) :
    t = done (setManualOutput (fetched c fn.val) l w) (entryCmd c fn.val 0x05 e) stSuccess 0
      ∧ reg t (loopBase l + 0x1C) = BitVec.ofNat 32 (reencode w (outExp c l)) ∧ Changes [] (regAt (loopBase l + 0x1C)) c t := by
  have hlt := accepted_loop hacc rfl (fun x h => beq_iff_eq.mp h) hl
  have hrep := fetched_reports c fn.isLt
  have hexp : outExp (fetched c fn.val) l = outExp c l := congrArg (signed 8) (hrep.tbl 5 _ _)
  have hunit : outUnit (fetched c fn.val) l = outUnit c l := congrArg (fun x => (qw32Of x).unit) (hrep.tbl 5 _ _)
  have hauto' : loopAuto (fetched c fn.val) l = false := (hrep.flag (loopReg_quiet (k := 0) hlt (by decide)) 0).trans hauto
  obtain ⟨d, hd⟩ : ∃ d, d = setManualOutput (fetched c fn.val) l w := ⟨_, rfl⟩
  have hform : t = done d (entryCmd c fn.val 0x05 e) stSuccess 0 := by
    rw [← hunit] at hword
    rw [ht, hd, hw]
    rw [hl] at hauto' hword ⊢
    exact takeEntry_perform (accepted_of hacc) fun hmode => (if_neg hmode).trans (loopCmd_manual rfl hauto' hword)
  refine ⟨by rw [← hd]; exact hform, ?_, ?_⟩
  · rw [hform, reg_done d fn.isLt _ _ (loopReg_quiet hlt (by decide)), hd, setManualOutput, reg_setReg_self, hexp]
  · rw [hform, hd]
    exact done_between (regAt_calm (quiet_of_range (by rw [loopBase]; omega)).2) (by simp) rfl ((Touches.refl _ _ _).setReg _ (by simp [regAt])) _ _

theorem takeEntry_loopMode {c : Chip} {fn : Fn} {e : Entry} {l m : Nat} (hacc : accepts c fn.val 0x04 e = true)
    (hl : l = pIndex (entryCmd c fn.val 0x04 e).point) (hm : m = (entryCmd c fn.val 0x04 e).at_ 0x0B 1) (hstat : setLoopModeStatus c l m = (stSuccess, 0))
    {t : Chip} (ht : t = takeEntry c fn.val 0x04 e) :
    t = done (setLoopMode (fetched c fn.val) l m) (entryCmd c fn.val 0x04 e) stSuccess 0 ∧ b2n (loopAuto t l) = m
      ∧ (m = 0 → reg t (loopBase l + 0x1C) = BitVec.ofNat 32 (loopSt c l).word) ∧ (m = 1 → (loopSt t l).xfer = true)
      ∧ Changes [.loops, .tune] (regsAt [loopBase l, loopBase l + 0x1C]) c t := by
  have hlt := accepted_loop hacc rfl (fun x h => beq_iff_eq.mp h) hl
  have hle : m ≤ 1 := by
    rw [hm]
    exact of_decide_eq_true (accepted_range (accepted_of hacc))
  have hrep := fetched_reports c fn.isLt
  have hflag (i : Nat) : flag (fetched c fn.val) (loopStat l) i = flag c (loopStat l) i := hrep.flag (loopReg_quiet (k := 0) hlt (by decide)) i
  have hauto : loopAuto (fetched c fn.val) l = loopAuto c l := hflag 0
  have hmode : nodeMode (fetched c fn.val) = nodeMode c := hrep.fld (by decide) 0 4
  have hstat' : setLoopModeStatus (fetched c fn.val) l m = (stSuccess, 0) := by
    rw [← hstat]
    simp only [setLoopModeStatus, hauto, hmode, hflag]
  have hnew : b2n (loopAuto (fetched c fn.val) l) ≠ m := fun h => by
    rw [setLoopModeStatus, if_pos h] at hstat'
    exact absurd hstat' (by decide)
  have hst : loopSt (fetched c fn.val) l = loopSt c l := by
    rw [loopSt, show (fetched c fn.val).loops = c.loops from hrep.same .loops (by simp [reportParts]), loopSt]
  obtain ⟨d, hd⟩ : ∃ d, d = setLoopMode (fetched c fn.val) l m := ⟨_, rfl⟩
  have hform : t = done d (entryCmd c fn.val 0x04 e) stSuccess 0 := by
    rw [ht, hd]
    rw [hl, hm] at hstat' ⊢
    exact takeEntry_perform (accepted_of hacc) fun hmode => (if_neg hmode).trans (loopCmd_mode rfl hstat')
  obtain ⟨hb, h0, h1, htouch⟩ := setLoopMode_leaves hle hnew hd
  have hdone := done_reports d (k := entryCmd c fn.val 0x04 e) fn.isLt stSuccess 0
  rw [← hform] at hdone
  refine ⟨by rw [← hd]; exact hform, ?_, fun hz => ?_, fun ho => ?_, ?_⟩
  · have hkeep : loopAuto t l = loopAuto d l := hdone.flag (loopReg_quiet (k := 0) hlt (by decide)) 0
    rw [hkeep, hb]
  · rw [hdone.reg (loopReg_quiet hlt (by decide)), h0 hz, hst]
  · rw [loopSt, show t.loops = d.loops from hdone.same .loops (by simp [reportParts]), ← loopSt]
    exact h1 ho
  · rw [hform]
    refine done_between (regsAt_calm ?_) (by simp) rfl htouch _ _
    simp only [List.all_cons, List.all_nil, Bool.and_true, Bool.and_eq_true, Bool.not_eq_true', (quiet_of_range (off := loopBase l) (by rw [loopBase]; omega)).2,
      (quiet_of_range (off := loopBase l + 0x1C) (by rw [loopBase]; omega)).2, and_self]

theorem takeEntry_tripClear {c : Chip} {fn : Fn} {e : Entry} {j : Nat} (hacc : accepts c fn.val 0x1A e = true)
    (hj : j = pIndex (entryCmd c fn.val 0x1A e).point) (hcode : tripCode c j = 2) {t : Chip} (ht : t = takeEntry c fn.val 0x1A e) :
    tripCode t j = 0 ∧ (∀ k : Fin 32, k.val ≠ j → tripCode t k.val = tripCode c k.val)
      ∧ t = done (setTripCode (fetched c fn.val) j 0) (entryCmd c fn.val 0x1A e) stSuccess 0 ∧ Changes [.trips] noReg c t := by
  have hrep := fetched_reports c fn.isLt
  have hfetch (k : Nat) : tripCode (fetched c fn.val) k = tripCode c k := by
    rw [tripCode, show (fetched c fn.val).trips = c.trips from hrep.same .trips (by simp [reportParts]), tripCode]
  obtain ⟨d, hd⟩ : ∃ d, d = setTripCode (fetched c fn.val) j 0 := ⟨_, rfl⟩
  have hclear : tripClear (fetched c fn.val) j = (d, stSuccess, 0) := by
    rw [hd]
    exact tripClear_latched ((hfetch j).trans hcode)
  have hform : t = done d (entryCmd c fn.val 0x1A e) stSuccess 0 := by
    rw [ht]
    refine takeEntry_perform (accepted_of hacc) fun hmode => (if_neg hmode).trans ?_
    rw [hj] at hclear
    exact congrArg (fun r : Chip × Nat × Nat => done r.1 (entryCmd c fn.val 0x1A e) r.2.1 r.2.2) hclear
  have hdone := done_reports d (k := entryCmd c fn.val 0x1A e) fn.isLt stSuccess 0
  rw [← hform] at hdone
  have hcodes (k : Nat) : tripCode t k = tripCode d k := by
    rw [tripCode, show t.trips = d.trips from hdone.same .trips (by simp [reportParts]), tripCode]
  refine ⟨?_, fun k hk => ?_, by rw [← hd]; exact hform, ?_⟩
  · rw [hcodes, hd, tripCode_setTripCode_self]
  · rw [hcodes, hd, tripCode_setTripCode_other _ hk, hfetch]
  · rw [hform, hd]
    exact done_between noReg_calm (by simp) rfl (setTripCode_step _ _ _).touches _ _

/-- Settles O20: NOP, the substitutions, the loop commands and TRIP_CLEAR. -/
theorem pointAndLoopCommandsComplete : Obligations.PointAndLoopCommandsComplete := by
  unfold Obligations.PointAndLoopCommandsComplete
  exact ⟨fun s fn e hacc => ⟨_, rfl, rfl, takeEntry_nop hacc rfl⟩,
    fun s fn e p hacc hp hcls hword => ⟨_, rfl, rfl, takeEntry_substitute hacc hp hcls hword rfl⟩,
    fun s fn e p hacc hp hcls hsub => ⟨_, rfl, rfl, takeEntry_unsubstitute hacc hp hcls hsub rfl⟩,
    fun s fn e l w hacc hl hw hsrc hword => ⟨_, rfl, rfl, takeEntry_setpoint hacc hl hw hsrc hword rfl⟩,
    fun s fn e l m hacc hl hm hstat => ⟨_, rfl, rfl, takeEntry_loopMode hacc hl hm hstat rfl⟩,
    fun s fn e l w hacc hl hw hauto hword => ⟨_, rfl, rfl, takeEntry_manual hacc hl hw hauto hword rfl⟩,
    fun s fn e j hacc hj hcode => ⟨_, rfl, rfl, takeEntry_tripClear hacc hj hcode rfl⟩⟩

end Sys2Proof.Machine
end

section
-- One proof at a time: every thread takes a stack of its own from the memory that a compile has.
set_option Elab.async false
/-! SUPPORT. An acceptance of the engineer call for the second entry of the rota (R742). -/

namespace Sys2Proof.Machine

/-- The node in SCAN with a second entry in the rota of the call. -/
def secondRotaNode : Chip :=
  let c := setReg (setReg (setFld Chip.reset 0x100 0 4 3) 0x21108 0x104) 0x21148 0x104
  { modMode c (fun m => { m with up := true, frames := true }) with
    seq := { c.seq with slot := some 0 }, tables := memWrite tblDef c.tables 0x1C40050 [1] }

/-- CALL_ACK of function 0 for entry 1. -/
def ackSecond : Entry := ⟨0, 0, 7, padTo 56 [0, 0, 0xB0, 1]⟩

theorem ackSecond_inflight : (fnSt (takeEntry secondRotaNode 0 0x0C ackSecond) 0).inflight = [⟨0, 7, .callAck 0xB00000, false⟩] := by decide +kernel

/-- Refutes O21: the clause of CALL_ACK names the command in flight by four operand bytes, the point and the rota entry, and the
node by the three of the point alone, so that they differ for every entry but 0. -/
theorem not_alarmCallAndValueCommandsComplete : ¬ Obligations.AlarmCallAndValueCommandsComplete := by
  rintro ⟨-, -, -, -, hack, -⟩
  obtain ⟨-, hflight, -⟩ := performs_elim (c := takeEntry secondRotaNode 0 0x0C ackSecond)
    (hack ⟨secondRotaNode, []⟩ 0 ackSecond _ (by decide +kernel) rfl (by decide +kernel)) rfl
  have hin : (⟨0, 7, .callAck 0x1B00000, false⟩ : InFlight) ∈ (fnSt (takeEntry secondRotaNode 0 0x0C ackSecond) 0).inflight := hflight
  rw [ackSecond_inflight] at hin
  exact absurd hin (by decide)

end Sys2Proof.Machine
end

section
-- One proof at a time: every thread takes a stack of its own from the memory that a compile has.
set_option Elab.async false
/-! SUPPORT. TABLE_SWAP, FSK_SEND, CAN_SEND and the DATA_CONT entries of a command (R213, R541, R924, R1192). -/

namespace Sys2Proof.Machine

theorem Reports.dom {a b : Chip} (h : Reports a b) (n : Nat) : Machine.dom b n = Machine.dom a n := by
  rw [Machine.dom, show b.pwr = a.pwr from h.same .pwr (by simp [reportParts]), Machine.dom]

theorem Reports.nodeMode {a b : Chip} (h : Reports a b) : Machine.nodeMode b = Machine.nodeMode a := h.fld (by decide) 0 4

/-! A command that goes on after its slot. -/

/-- The command stands among those in flight of its function. -/
theorem begin_inflight (c : Chip) (k : HostCmd) (w : Flight) : (⟨k.sq, k.tag, w, k.silent⟩ : InFlight) ∈ (fnSt (begin_ c k w) k.fn).inflight := by
  rw [begin_, fnSt_modFn_self]
  exact List.mem_append_right _ (List.mem_singleton.mpr rfl)

/-- A command runs after its fetch and completes later. -/
theorem begin_between {ps : List Part} {rs : Nat → Bool} (hcalm : ∀ off, rs off = true → ringSetup off = false) (hmem : Part.hostMem ∉ ps) {c d : Chip} {fn : Fn}
    (k : HostCmd) (w : Flight) (h : Touches ps rs (begin_ (fetched c fn.val) k w) d) : Changes ps rs c d :=
  .between hcalm hmem ((fetched_reports c fn.isLt).modFn _ _) h (.refl d)

theorem Reports.transmitLive {a b : Chip} (h : Reports a b) : Machine.transmitLive b = Machine.transmitLive a := by
  have hmode : b.mode = a.mode := h.same .mode (by simp [reportParts])
  simp only [Machine.transmitLive, starting, hmode, h.nodeMode]

theorem cellReg_quiet {ch k : Nat} (hch : ch < 48) (hk : k < 0x40) : reportReg (cellBase ch + k) = false := by
  rw [cellBase]
  exact (quiet_of_range (by omega)).1

theorem Reports.cell {a b : Chip} (h : Reports a b) (ch : Nat) : Machine.cell b ch = Machine.cell a ch := by
  rw [Machine.cell, show b.cells = a.cells from h.same .cells (by simp [reportParts]), Machine.cell]

theorem Reports.fskStatus {a b : Chip} (h : Reports a b) {ch : Nat} (hch : ch < 48) : Machine.fskStatus b ch = Machine.fskStatus a ch := by
  have hmode : b.mode = a.mode := h.same .mode (by simp [reportParts])
  have hgate : b.gate = a.gate := h.same .gate (by simp [reportParts])
  have hpwr : b.pwr = a.pwr := h.same .pwr (by simp [reportParts])
  have hen : fskEn b ch = fskEn a ch := h.flag (cellReg_quiet (k := 0) hch (by decide)) 4
  have hflag (i : Nat) : cellFlag b ch i = cellFlag a ch i := h.flag (cellReg_quiet (k := 0x14) hch (by decide)) i
  have hlive : cellLive b ch = cellLive a ch := by
    simp only [cellLive, cellAllowed, passesOpen, outputsLive, opWaits, domOn, h.dom, h.nodeMode, h.cell, hflag, hmode, hgate, hpwr]
  simp only [Machine.fskStatus, h.transmitLive, h.cell, hen, hlive]

/-! ## The Saddle link's queue -/

/-- Nothing but the Saddle link's own state differs. -/
def SdlOnly (a b : Chip) : Prop := ∃ x, b = { a with sdl := x }

theorem SdlOnly.refl (c : Chip) : SdlOnly c c := ⟨c.sdl, rfl⟩

theorem SdlOnly.trans {a b c : Chip} (h : SdlOnly a b) (k : SdlOnly b c) : SdlOnly a c := by
  obtain ⟨x, rfl⟩ := h
  obtain ⟨y, rfl⟩ := k
  exact ⟨y, rfl⟩

theorem SdlOnly.foldl {β : Type} (f : Chip → β → Chip) (xs : List β) (hf : ∀ c x, SdlOnly c (f c x)) (c : Chip) : SdlOnly c (xs.foldl f c) := by
  induction xs generalizing c with
  | nil => exact .refl c
  | cons x xs ih => exact (hf c x).trans (ih _)

theorem sdlEmit_sdlOnly (c : Chip) (f : SdlFrame) : SdlOnly c (sdlEmit c f) := ⟨_, rfl⟩

theorem modSdl_sdlOnly (c : Chip) (f : SdlSt → SdlSt) : SdlOnly c (modSdl c f) := ⟨_, rfl⟩

theorem resyncPump_sdlOnly (c : Chip) : SdlOnly c (resyncPump c) := by
  unfold resyncPump
  split
  · split
    · exact (modSdl_sdlOnly _ _).trans (sdlEmit_sdlOnly _ _)
    · exact .refl c
  · exact .refl c

theorem sdlPump_sdlOnly (c : Chip) : SdlOnly c (sdlPump c) := by
  unfold sdlPump
  exact (SdlOnly.trans (modSdl_sdlOnly c _) (.foldl _ _ sdlEmit_sdlOnly _)).trans (resyncPump_sdlOnly _)

theorem sdlSend_sdlOnly (c : Chip) (type set : Nat) (data : List Byte) : SdlOnly c (sdlSend c type set data) := by
  unfold sdlSend
  split
  · exact (modSdl_sdlOnly c _).trans (sdlPump_sdlOnly _)
  · exact .refl c

theorem shareSwap_sdlOnly (c : Chip) (code : Nat) : SdlOnly c (shareSwap c code) := by
  unfold shareSwap
  split
  · split
    · exact .foldl _ _ (fun c bs => sdlSend_sdlOnly c _ _ bs) c
    · exact .refl c
  · exact .refl c

/-! ## The commands -/

theorem tableSwap_begins {c : Chip} {k : HostCmd} {d : TableDesc} (hd : tableDesc (k.at_ 8 1) = some d) (hfree : flag c d.stat 1 = false)
    (hok : swapError c (k.at_ 8 1) = none) :
    tableSwap c k = shareSwap (setFlag (begin_ c k (.tableSwap (k.at_ 8 1))) d.stat 1 true) (k.at_ 8 1) := by
  have hidle : swapPending c (k.at_ 8 1) = false := by
    rw [swapPending, hd]
    exact hfree
  rw [tableSwap, hidle, if_neg Bool.false_ne_true, hok]
  dsimp only
  rw [pendTable, hd]

theorem tableDesc_code {n : Nat} {d : TableDesc} (h : tableDesc n = some d) : n = d.code := by
  rw [tableDesc] at h
  have hfound := List.find?_some h
  exact (of_decide_eq_true hfound).symm

theorem tableStat_free {n : Nat} {d : TableDesc} (h : tableDesc n = some d) : reportReg d.stat = false ∧ ringSetup d.stat = false := by
  have hall : ∀ d ∈ tableDescs, reportReg d.stat = false ∧ ringSetup d.stat = false := by decide +kernel
  exact hall d (List.mem_of_find?_eq_some h)

theorem takeEntry_tableSwap {c : Chip} {fn : Fn} {e : Entry} (hacc : accepts c fn.val 0x18 e = true) {k : HostCmd} (hk : k = entryCmd c fn.val 0x18 e)
    {d : TableDesc} (hd : tableDesc (k.at_ 8 1) = some d) (hfree : flag c d.stat 1 = false) (hok : swapError (fetched c fn.val) d.code = none) {t : Chip}
    (ht : t = takeEntry c fn.val 0x18 e) :
    flag t d.stat 1 = true ∧ fld t d.stat 0 1 = fld c d.stat 0 1 ∧ t.tables = c.tables
      ∧ (⟨k.sq, k.tag, .tableSwap d.code, false⟩ : InFlight) ∈ (fnSt t fn.val).inflight ∧ Changes [] (regAt d.stat) c t := by
  have hrep := fetched_reports c fn.isLt
  obtain ⟨hquiet, hcalm⟩ := tableStat_free hd
  have hcode := tableDesc_code hd
  obtain ⟨b, hb⟩ : ∃ b, b = begin_ (fetched c fn.val) k (.tableSwap d.code) := ⟨_, rfl⟩
  have hform : t = shareSwap (setFlag b d.stat 1 true) d.code := by
    rw [ht, hb, ← hcode]
    rw [← hcode] at hok
    rw [hk] at hd hok ⊢
    exact takeEntry_perform (accepted_of hacc) fun hmode => (if_neg hmode).trans (tableSwap_begins hd ((hrep.flag hquiet 1).trans hfree) hok)
  have hbrep : Reports c b := by
    rw [hb]
    exact hrep.modFn _ _
  obtain ⟨x, hx⟩ := shareSwap_sdlOnly (setFlag b d.stat 1 true) d.code
  rw [← hform] at hx
  have hregs (off : Nat) : reg t off = reg (setFlag b d.stat 1 true) off := by
    rw [hx]
    rfl
  refine ⟨?_, ?_, ?_, ?_, ?_⟩
  · rw [flag, fld, hregs]
    exact flag_setFlag_self b _ _ _ (by decide)
  · rw [fld, hregs, ← fld, ← hrep.fld hquiet]
    refine (fld_setFlag_field b _ _ _ _ _ (by decide) (by decide)).trans ?_
    rw [hbrep.fld hquiet, hrep.fld hquiet]
  · rw [hx]
    exact hbrep.same .tables (by simp [reportParts])
  · have hfns : fnSt t fn.val = fnSt b fn.val := by
      rw [hx]
      rfl
    have hin := begin_inflight (fetched c fn.val) k (.tableSwap d.code)
    rw [← hb, hk] at hin
    rw [hfns, hk]
    exact hin
  · rw [hx]
    exact ((((Within.refl _ (regAt_calm hcalm) c).report hbrep).setFlag 1 true (by simp [regAt])).modSdl fun _ => x).changes

/-! FSK_SEND (R541). -/

theorem fskCmd_begins {c : Chip} {k : HostCmd} (hstat : fskStatus c (pIndex k.point) = stSuccess) :
    fskCmd c k = fskBegin (begin_ c k (.fsk (pIndex k.point))) k.fn (pIndex k.point) ((k.ops.drop 4).take (k.at_ 0x0B 1)) := by
  rw [fskCmd, hstat, if_neg (by decide)]

/-- The modem of a cell, and what else stands. -/
theorem fskBegin_sends {c : Chip} {k : HostCmd} {ch : Nat} {data : List Byte} {t : Chip} (ht : t = fskBegin (begin_ c k (.fsk ch)) k.fn ch data) :
    (cell t ch).tx = some { fn := k.fn, data := data, sending := false, line := [] } ∧ (∀ j, j ≠ ch → cell t j = cell c j)
      ∧ (⟨k.sq, k.tag, .fsk ch, k.silent⟩ : InFlight) ∈ (fnSt t k.fn).inflight ∧ Touches [.cells] noReg (begin_ c k (.fsk ch)) t := by
  have hself : cell t ch = { cell (begin_ c k (.fsk ch)) ch with tx := some { fn := k.fn, data := data, sending := false, line := [] } } := by
    rw [ht, fskBegin, cell, modCell, setCell, smGet_smPut_self]
  refine ⟨by rw [hself], fun j hj => ?_, ?_, ?_⟩
  · rw [ht, fskBegin, cell, modCell, setCell, smGet_smPut_other _ _ _ _ _ hj]
    rfl
  · have hfns : fnSt t k.fn = fnSt (begin_ c k (.fsk ch)) k.fn := by
      rw [ht]
      rfl
    rw [hfns]
    exact begin_inflight c k _
  · rw [ht]
    exact (Touches.refl _ _ _).part (.cells _ _) (by simp)

theorem takeEntry_fskSend {c : Chip} {fn : Fn} {e : Entry} (hacc : accepts c fn.val 0x1C e = true) {k : HostCmd} (hk : k = entryCmd c fn.val 0x1C e) {ch : Nat}
    (hch : ch = pIndex k.point) (hstat : fskStatus c ch = stSuccess) {t : Chip} (ht : t = takeEntry c fn.val 0x1C e) :
    (cell t ch).tx = some { fn := fn.val, data := (k.ops.drop 4).take (k.at_ 0x0B 1), sending := false, line := [] }
      ∧ (∀ j : Fin 48, j.val ≠ ch → cell t j.val = cell c j.val)
      ∧ (⟨k.sq, k.tag, .fsk ch, false⟩ : InFlight) ∈ (fnSt t fn.val).inflight ∧ Changes [.cells] noReg c t := by
  have hrep := fetched_reports c fn.isLt
  have hlt : ch < 48 := by
    rw [hch, hk]
    exact accepted_index (accepted_of hacc) rfl (cls := 5) fun x h => beq_iff_eq.mp h
  rw [← hrep.fskStatus hlt] at hstat
  have hform : t = fskBegin (begin_ (fetched c fn.val) k (.fsk ch)) k.fn ch ((k.ops.drop 4).take (k.at_ 0x0B 1)) := by
    rw [hch] at hstat ⊢
    rw [ht]
    rw [hk] at hstat ⊢
    exact takeEntry_perform (accepted_of hacc) fun hmode => (if_neg hmode).trans (fskCmd_begins hstat)
  obtain ⟨htx, hrest, hin, htouch⟩ := fskBegin_sends hform
  have hfn : k.fn = fn.val := by rw [hk]; rfl
  have hloud : k.silent = false := by rw [hk]; rfl
  rw [hfn] at htx hin
  rw [hloud] at hin
  exact ⟨htx, fun j hj => (hrest j.val hj).trans (hrep.cell _), hin, begin_between noReg_calm (by simp) (fn := fn) k _ htouch⟩

/-! CAN_SEND (R924). -/

theorem canReg_quiet {n k : Nat} (hk : k = 0 ∨ k = 0x14) : reportReg (canBase n + k) = false := by
  rw [← Bool.not_eq_true, canBase]
  simp only [reportReg, Bool.or_eq_true, Bool.and_eq_true, decide_eq_true_eq, beq_iff_eq]
  omega

theorem Reports.canSendStatus {a b : Chip} (h : Reports a b) (fn : Nat) (ops : List Byte) (more : Bool) :
    Machine.canSendStatus b fn ops more = Machine.canSendStatus a fn ops more := by
  have hcan : b.can = a.can := h.same .can (by simp [reportParts])
  have hcall : b.call = a.call := h.same .call (by simp [reportParts])
  have howner (n : Nat) : canOwner b n = canOwner a n := by
    rw [canOwner, ownerAt, partByte, h.tbl, canOwner, ownerAt, partByte]
  have hctl (n lo w : Nat) : Machine.fld b (canCtl n) lo w = Machine.fld a (canCtl n) lo w := h.fld (canReg_quiet (k := 0) (.inl rfl)) lo w
  have hflag (n i : Nat) : Machine.flag b (canCtl n) i = Machine.flag a (canCtl n) i := h.flag (canReg_quiet (k := 0) (.inl rfl)) i
  have hstate (n : Nat) : canState b n = canState a n := h.fld (canReg_quiet (k := 0x14) (.inr rfl)) 0 2
  have hbuf (n q : Nat) : canBuf b n q = canBuf a n q := by rw [canBuf, canSt, hcan, canBuf, canSt]
  have hholds (n : Nat) : callHoldsB2 b n = callHoldsB2 a n := by rw [callHoldsB2, callCtrl, hcall, callHoldsB2, callCtrl]
  simp only [Machine.canSendStatus, h.transmitLive, h.nodeMode, howner, hctl, hflag, hstate, hbuf, hholds]

/-- The frame that a CAN_SEND puts into its buffer. -/
def canFrame (fn : Nat) (f : CanCmd) : CanTx :=
  { onBus := false, fmt := f.fmt, ident := f.ident, dlc := f.dlc, data := f.data.take (canLen f.fmt f.dlc), fn := fn, tmo := false, drop := false }

theorem canCmd_begins {c : Chip} {k : HostCmd} (hone : k.entries = 1) (hstat : canSendStatus c k.fn k.ops false = stSuccess) :
    canCmd c k = canSendBegin (begin_ c k (.can (k.at_ 8 1) (k.at_ 9 1))) k.fn k.ops := by
  rw [canCmd, hone, show ((1 : Nat) == 2) = false from rfl, hstat, if_neg (by decide)]

theorem at_byte (k : HostCmd) (i : Nat) : k.at_ (8 + i) 1 = byteAt k.ops i := by
  rw [HostCmd.at_, byteAt, Nat.add_sub_cancel_left, List.getD_eq_getElem?_getD]
  rcases lt_or_ge i k.ops.length with h | h
  · rw [List.drop_eq_getElem_cons h, List.getElem?_eq_getElem h]
    exact Nat.add_zero _
  · rw [List.drop_eq_nil_of_le h, List.getElem?_eq_none h]
    rfl

/-- The buffers after a frame was put into one. -/
theorem canBuf_setBuf_at (c : Chip) (n b m q : Nat) (x : Option CanTx) : canBuf (setBuf c n b x) m q = if (m, q) = (n, b) then x else canBuf c m q := by
  rw [canBuf, setBuf, modCan, canSt]
  dsimp only
  rw [smMod]
  by_cases hm : m = n
  · rw [hm, smGet_smPut_self]
    by_cases hq : q = b
    · rw [hq, if_pos rfl, smGet_smPut_self]
    · rw [if_neg fun h => hq (Prod.mk.inj h).2, smGet_smPut_other _ _ _ _ _ hq]
      rfl
  · rw [if_neg fun h => hm (Prod.mk.inj h).1, smGet_smPut_other _ _ _ _ _ hm]
    rfl

theorem takeEntry_canSend {c : Chip} {fn : Fn} {e : Entry} (hacc : accepts c fn.val 0x1D e = true) {k : HostCmd} (hk : k = entryCmd c fn.val 0x1D e)
    {f : CanCmd} (hf : f = canCmdOf k.ops) (hstat : canSendStatus c fn.val k.ops false = stSuccess) {t : Chip} (ht : t = takeEntry c fn.val 0x1D e) :
    canBuf t f.ctrl f.buf = some (canFrame fn.val f)
      ∧ (∀ (n : Fin 8) (b : Fin 3), (n.val, b.val) ≠ (f.ctrl, f.buf) → canBuf t n.val b.val = canBuf c n.val b.val)
      ∧ (⟨k.sq, k.tag, .can f.ctrl f.buf, false⟩ : InFlight) ∈ (fnSt t fn.val).inflight ∧ Changes [.can] noReg c t := by
  have hrep := fetched_reports c fn.isLt
  have hfn : k.fn = fn.val := by rw [hk]; rfl
  have hloud : k.silent = false := by rw [hk]; rfl
  have hone : k.entries = 1 := by
    rw [HostCmd.entries, hk]
    show (padTo 56 e.operands).length / 56 = 1
    rw [length_padTo]
  obtain ⟨b, hb⟩ : ∃ b, b = begin_ (fetched c fn.val) k (.can f.ctrl f.buf) := ⟨_, rfl⟩
  have hform : t = setBuf b f.ctrl f.buf (some (canFrame fn.val f)) := by
    have hbegins : canCmd (fetched c fn.val) k = canSendBegin (begin_ (fetched c fn.val) k (.can (k.at_ 8 1) (k.at_ 9 1))) k.fn k.ops :=
      canCmd_begins hone (by rw [hfn, hrep.canSendStatus]; exact hstat)
    have hctrl : k.at_ 8 1 = f.ctrl := (at_byte k 0).trans (by rw [hf]; rfl)
    have hbuf : k.at_ 9 1 = f.buf := (at_byte k 1).trans (by rw [hf]; rfl)
    rw [hctrl, hbuf, ← hb, canSendBegin, ← hf, hfn] at hbegins
    rw [ht, takeEntry_accepted (accepted_of hacc), ← hk]
    refine Eq.trans ?_ hbegins
    rw [hk]
    exact if_neg (accepted_of hacc).mode
  refine ⟨?_, fun n q hne => ?_, ?_, ?_⟩
  · rw [hform, canBuf_setBuf_at, if_pos rfl]
  · rw [hform, canBuf_setBuf_at, if_neg hne, hb]
    show canBuf (fetched c fn.val) n.val q.val = _
    rw [canBuf, canSt, show (fetched c fn.val).can = c.can from hrep.same .can (by simp [reportParts]), canBuf, canSt]
  · have hin := begin_inflight (fetched c fn.val) k (.can f.ctrl f.buf)
    rw [← hb, hfn, hloud] at hin
    rw [hform]
    exact hin
  · refine begin_between noReg_calm (by simp) (fn := fn) k (.can f.ctrl f.buf) ?_
    rw [hform, hb]
    exact (Touches.refl _ _ _).part (.can _ _) (by simp)

/-! DATA_CONT (R1192). -/

theorem takeEntry_more {c : Chip} {fn : Fn} {e : Entry} {a : Nat × Nat × Nat × List Byte} (hbegin : mayBegin c fn.val = true)
    (hasm : (fnSt c fn.val).asm = some a) (hmore : cmdEntryMore e = true) (hgood : cmdEntryBad e = false) {t : Chip} (ht : t = takeEntry c fn.val 0x1F e) :
    (fnSt t fn.val).asm = some (a.1, a.2.1, a.2.2.1 % 256 + 256 * b2n (decide (256 ≤ a.2.2.1)), a.2.2.2 ++ cmdEntryOps e) ∧ Changes [] noReg c t := by
  have hform : t = modFn (fetchStep c fn.val 1) fn.val fun f =>
      { f with asm := some (a.1, a.2.1, a.2.2.1 % 256 + 256 * b2n (decide (256 ≤ a.2.2.1)), a.2.2.2 ++ cmdEntryOps e) } := by
    rw [ht, takeEntry, hbegin, if_neg (by decide), hasm]
    dsimp only
    rw [if_pos rfl, hmore, if_pos rfl, hgood, Bool.or_false]
  rw [hform]
  refine ⟨by rw [fnSt_modFn_self], ((fetchStep_reports fn.isLt 1).modFn _ _).changes⟩

theorem takeEntry_last {c : Chip} {fn : Fn} {e : Entry} {a : Nat × Nat × Nat × List Byte} {k : HostCmd} (hbegin : mayBegin c fn.val = true)
    (hasm : (fnSt c fn.val).asm = some a) (hmore : cmdEntryMore e = false) (hgood : cmdEntryBad e = false) (hop : a.2.2.1 = 0x1C)
    (hk : k = ⟨fn.val, a.1, a.2.1, 0x1C, false, a.2.2.2 ++ cmdEntryOps e, false⟩) (hquick : (fnSt c fn.val).work.headD 0 = 0)
    (hearly : earlyStatus (fetched c fn.val) k = none) (hstat : fskStatus c (pIndex k.point) = stSuccess) {t : Chip} (ht : t = takeEntry c fn.val 0x1F e) :
    (fnSt t fn.val).asm = none
      ∧ (cell t (pIndex k.point)).tx = some { fn := fn.val, data := (k.ops.drop 4).take (k.at_ 0x0B 1), sending := false, line := [] }
      ∧ (⟨k.sq, k.tag, .fsk (pIndex k.point), false⟩ : InFlight) ∈ (fnSt t fn.val).inflight ∧ Changes [.cells] noReg c t := by
  obtain ⟨g, hg⟩ : ∃ g, g = modFn (modFn (fetchStep c fn.val 1) fn.val fun f => { f with asm := none }) fn.val
    fun f => { f with used := f.used + 1, work := f.work.drop 1 } := ⟨_, rfl⟩
  have hgrep : Reports c g := by
    rw [hg]
    exact ((fetchStep_reports fn.isLt 1).modFn _ _).modFn _ _
  have hgearly : earlyStatus g k = none := by
    rw [hg]
    exact hearly
  have hrun : t = runCommand g k := by
    have hwork : (fnSt (modFn (fetchStep c fn.val 1) fn.val fun f => { f with asm := none }) fn.val).work.headD 0 = 0 := by
      rw [fnSt_modFn_self, ((RingQuiet.refl c).fetchStep fn.val 1 |>.fns fn.val).work]
      exact hquick
    rw [ht, takeEntry, hbegin, if_neg (by decide), hasm]
    dsimp only
    rw [if_pos rfl, hmore, if_neg (by decide), hgood, hop, runCollected, beginCommand]
    dsimp only
    rw [hwork, if_pos rfl, hg, hk]
    rfl
  have hch : pIndex k.point < 48 := by
    have hkop : k.op = 0x1C := by rw [hk]
    exact earlyStatus_index hearly (cls := 5) (by rw [hkop]; rfl) fun x h => by
      rw [hkop] at h
      exact beq_iff_eq.mp h
  have hform : t = fskBegin (begin_ g k (.fsk (pIndex k.point))) k.fn (pIndex k.point) ((k.ops.drop 4).take (k.at_ 0x0B 1)) := by
    rw [hrun, runCommand, hgearly]
    dsimp only
    refine Eq.trans ?_ (fskCmd_begins ((hgrep.fskStatus hch).trans hstat))
    rw [perform, hk]
    exact if_neg fun h => absurd (show mirrorForbids 0x1C = true from h.2) (by decide)
  obtain ⟨htx, hrest, hin, htouch⟩ := fskBegin_sends hform
  have hfn : k.fn = fn.val := by rw [hk]
  have hloud : k.silent = false := by rw [hk]
  rw [hfn] at htx hin
  rw [hloud] at hin
  refine ⟨?_, htx, hin, .between noReg_calm (by simp) (hgrep.modFn _ _) htouch (.refl t)⟩
  have hfns : fnSt t fn.val = fnSt (begin_ g k (.fsk (pIndex k.point))) fn.val := by
    rw [hform]
    rfl
  rw [hfns, begin_, hfn, fnSt_modFn_self, hg, fnSt_modFn_self, fnSt_modFn_self]

/-- Settles O22: TABLE_SWAP, FSK_SEND, CAN_SEND and DATA_CONT. -/
theorem swapAndSendingCommandsComplete : Obligations.SwapAndSendingCommandsComplete := by
  unfold Obligations.SwapAndSendingCommandsComplete
  exact ⟨fun s fn e k d hacc hk hd hfree hok => ⟨_, rfl, rfl, takeEntry_tableSwap hacc hk hd hfree hok rfl⟩,
    fun s fn e k ch hacc hk hch hstat => ⟨_, rfl, rfl, takeEntry_fskSend hacc hk hch hstat rfl⟩,
    fun s fn e k f hacc hk hf hstat => ⟨_, rfl, rfl, takeEntry_canSend hacc hk hf hstat rfl⟩,
    fun s fn e a hbegin hasm hmore hgood => ⟨_, rfl, rfl, takeEntry_more hbegin hasm hmore hgood rfl⟩,
    fun s fn e a k hbegin hasm hmore hgood hop hk hquick hearly hstat =>
      ⟨_, rfl, rfl, takeEntry_last hbegin hasm hmore hgood hop hk hquick hearly hstat rfl⟩⟩

end Sys2Proof.Machine
end

section
-- One proof at a time: every thread takes a stack of its own from the memory that a compile has.
set_option Elab.async false
/-! SUPPORT. The clear of the recorder, the tuning captures and the twin's commands (R662, R674, R809, R811, R1001, R1003). -/

namespace Sys2Proof.Machine

/-! ## The recorder's clear (R809, R811) -/

theorem Reports.clearCodeBad {a b : Chip} (h : Reports a b) (code : Nat) : Machine.clearCodeBad b code = Machine.clearCodeBad a code := by
  rw [Machine.clearCodeBad, h.fld (by decide), show b.img = a.img from h.same .img (by simp [reportParts]), Machine.clearCodeBad]

theorem Reports.frameNum {a b : Chip} (h : Reports a b) : Machine.frameNum b = Machine.frameNum a := by
  rw [Machine.frameNum, h.reg (by decide), h.reg (by decide), Machine.frameNum]

theorem Reports.ot {a b : Chip} (h : Reports a b) : b.ot = a.ot := h.same .ot (by simp [reportParts])

/-- The recorder and the twin's link after a fetch. -/
theorem fetched_keeps (c : Chip) (fn : Nat) : (fetched c fn).rcd = c.rcd ∧ (fetched c fn).sdl = c.sdl :=
  ⟨((RingQuiet.refl c).fetchStep fn 1).rcd, ((RingQuiet.refl c).fetchStep fn 1).sdl⟩

/-- A completion leaves REC_STAT. -/
theorem recStat_done (c : Chip) (k : HostCmd) (status result : Nat) : reg (done c k status result) recStat = reg c recStat := by
  unfold done
  split
  · rfl
  · exact ((RecStep.refl c).complete _ _ _ _ _).stat

theorem recClearArm_arms (c : Chip) (code : Nat) :
    (recClearArm c code).1 = setArmed c (if clearCodeBad c code then none else some (c.ot + 10240, frameNum c)) := by
  rw [recClearArm]
  split <;> rfl

theorem takeEntry_clearArm {c : Chip} {fn : Fn} {e : Entry} (hacc : accepts c fn.val 0x20 e = true) {code : Nat}
    (hcode : code = (entryCmd c fn.val 0x20 e).at_ 8 4) {t : Chip} (ht : t = takeEntry c fn.val 0x20 e) :
    t.rcd = { c.rcd with armed := (if clearCodeBad c code then none else some (c.ot + 10240, frameNum c)) }
      ∧ flag t recStat 1 = !clearCodeBad c code ∧ Changes [] (regAt recStat) c t := by
  have hrep := fetched_reports c fn.isLt
  obtain ⟨a, ha⟩ : ∃ a, a = (if clearCodeBad c code then none else some (c.ot + 10240, frameNum c)) := ⟨_, rfl⟩
  have hform : t = done (setArmed (fetched c fn.val) a) (entryCmd c fn.val 0x20 e) (recClearArm (fetched c fn.val) code).2 0 := by
    have harm := recClearArm_arms (fetched c fn.val) code
    rw [hrep.clearCodeBad, hrep.ot, hrep.frameNum, ← ha] at harm
    rw [ht, ← harm, hcode]
    exact takeEntry_perform (accepted_of hacc) fun hmode => if_neg hmode
  have hquiet := (RingQuiet.refl (setArmed (fetched c fn.val) a)).done (entryCmd c fn.val 0x20 e) (recClearArm (fetched c fn.val) code).2 0
  have hstat := recStat_done (setArmed (fetched c fn.val) a) (entryCmd c fn.val 0x20 e) (recClearArm (fetched c fn.val) code).2 0
  rw [← hform] at hquiet hstat
  rw [← ha]
  refine ⟨?_, ?_, ?_⟩
  · have hrcd : (setArmed (fetched c fn.val) a).rcd = { (fetched c fn.val).rcd with armed := a } := rfl
    rw [hquiet.rcd, hrcd, (fetched_keeps c fn.val).1]
  · have hsome : a.isSome = !clearCodeBad c code := by
      rw [ha]
      split
      · next h => rw [h]; rfl
      · next h => rw [Bool.not_eq_true] at h; rw [h]; rfl
    rw [flag, fld, hstat, ← hsome]
    exact flag_setFlag_self _ _ _ _ (by decide)
  · have hmid : Within [] (regAt recStat) c (setArmed (fetched c fn.val) a) :=
      (((Within.refl _ (regAt_calm (by decide)) c).report hrep).report ((Reports.refl _).rcd _)).setFlag 1 _ (by simp [regAt])
    rw [hform]
    exact (hmid.report (done_reports _ fn.isLt _ _)).changes

/-- What a clear takes from a function's queue of records. -/
def loseQueue (c : Chip) (fn : Nat) : Chip := modFn (recLoss c fn (fnSt c fn).recQ.length) fn fun f => { f with recQ := [] }

theorem emptyImage_eq (c : Chip) : emptyImage c =
    modRec (((List.range 9).foldl loseQueue c).rcd.toBasin.foldl missBasin ((List.range 9).foldl loseQueue c)) fun r => { r with image := [] } := by
  rw [emptyImage]
  rfl

/-- The arm and what is in flight stand. -/
structure ClearQuiet (a b : Chip) : Prop where
  armed : b.rcd.armed = a.rcd.armed
  inflight : ∀ g, (fnSt b g).inflight = (fnSt a g).inflight

namespace ClearQuiet

theorem refl (c : Chip) : ClearQuiet c c := ⟨rfl, fun _ => rfl⟩

theorem trans {a b c : Chip} (h : ClearQuiet a b) (k : ClearQuiet b c) : ClearQuiet a c :=
  ⟨k.armed.trans h.armed, fun g => (k.inflight g).trans (h.inflight g)⟩

theorem foldl {β : Type} (f : Chip → β → Chip) (xs : List β) (hf : ∀ c x, ClearQuiet c (f c x)) (c : Chip) : ClearQuiet c (xs.foldl f c) := by
  induction xs generalizing c with
  | nil => exact refl c
  | cons x xs ih => exact (hf c x).trans (ih _)

theorem modFn (c : Chip) (fn : Nat) {f : FnSt → FnSt} (hf : ∀ x, (f x).inflight = x.inflight) : ClearQuiet c (Machine.modFn c fn f) := by
  refine ⟨rfl, fun g => ?_⟩
  by_cases hg : g = fn
  · rw [hg, fnSt_modFn_self]
    exact hf _
  · rw [fnSt_modFn_other _ _ _ _ hg]

theorem setReg (c : Chip) (off : Nat) (v : Word) : ClearQuiet c (Machine.setReg c off v) := ⟨rfl, fun _ => rfl⟩

theorem programPair (c : Chip) (seq : Nat) : ClearQuiet c (Machine.programPair c seq) := by
  unfold Machine.programPair
  split
  · exact ⟨rfl, fun _ => rfl⟩
  · exact refl c

theorem closeRec (c : Chip) (seq : Nat) : ClearQuiet c (Machine.closeRec c seq) := by
  obtain ⟨d, hd⟩ : ∃ d, d = { c with rcd := { c.rcd with opens := c.rcd.opens.filter fun o => o.seq != seq } } := ⟨_, rfl⟩
  have hstart : ClearQuiet c d := by
    rw [hd]
    exact ⟨rfl, fun _ => rfl⟩
  have hpair := hstart.trans (programPair d seq)
  unfold Machine.closeRec
  dsimp only
  rw [← hd]
  split
  · refine hpair.trans ?_
    split
    · exact ⟨rfl, fun _ => rfl⟩
    · exact ⟨rfl, fun _ => rfl⟩
  · exact hpair

theorem missBasin (c : Chip) (r : Rec) : ClearQuiet c (Machine.missBasin c r) := by
  unfold Machine.missBasin
  split
  · exact ⟨rfl, fun _ => rfl⟩
  · exact refl c

theorem recLoss (c : Chip) (fn n : Nat) : ClearQuiet c (Machine.recLoss c fn n) := by
  obtain ⟨v, hv⟩ : ∃ v, v = BitVec.ofNat 32 (satAdd 32 (reg c (ringBase fn 3 + 0x1C)).toNat n) := ⟨_, rfl⟩
  rw [Machine.recLoss]
  rw [← hv]
  exact (setReg c _ v).trans (modFn _ fn fun _ => rfl)

theorem loseQueue (c : Chip) (fn : Nat) : ClearQuiet c (Machine.loseQueue c fn) := (recLoss c fn _).trans (modFn _ fn fun _ => rfl)

theorem emptyImage (c : Chip) : ClearQuiet c (Machine.emptyImage c) := by
  obtain ⟨d, hd⟩ : ∃ d, d = (List.range 9).foldl Machine.loseQueue c := ⟨_, rfl⟩
  rw [emptyImage_eq, ← hd]
  have hfns : ClearQuiet c d := hd ▸ foldl _ _ loseQueue c
  exact hfns.trans ((foldl Machine.missBasin _ missBasin d).trans ⟨rfl, fun _ => rfl⟩)

end ClearQuiet

/-- Closing every open record leaves none open. -/
theorem closeAll_opens (seqs : List Nat) (c : Chip) :
    (seqs.foldl closeRec c).rcd.opens = c.rcd.opens.filter fun o => !seqs.contains o.seq := by
  induction seqs generalizing c with
  | nil => simp
  | cons q seqs ih =>
    rw [List.foldl_cons, ih, closeRec_opens, List.filter_filter]
    refine List.filter_congr fun o _ => ?_
    rw [List.contains_cons, Bool.not_or, Bool.and_comm]
    rfl

theorem missBasin_opens (c : Chip) (r : Rec) : (missBasin c r).rcd.opens = c.rcd.opens := by
  unfold missBasin
  split <;> rfl

theorem recLoss_rcd (c : Chip) (fn n : Nat) : (recLoss c fn n).rcd = c.rcd := by
  rw [recLoss, modFn_rcd, setReg_rcd]

theorem loseQueue_rcd (c : Chip) (fn : Nat) : (loseQueue c fn).rcd = c.rcd := by
  rw [loseQueue, modFn_rcd, recLoss_rcd]

theorem emptyImage_opens (c : Chip) : (emptyImage c).rcd.opens = c.rcd.opens := by
  have hfns (xs : List Nat) (d : Chip) : (xs.foldl loseQueue d).rcd.opens = d.rcd.opens := by
    induction xs generalizing d with
    | nil => rfl
    | cons x xs ih => rw [List.foldl_cons, ih, loseQueue_rcd]
  have hmiss (xs : List Rec) (d : Chip) : (xs.foldl missBasin d).rcd.opens = d.rcd.opens := by
    induction xs generalizing d with
    | nil => rfl
    | cons x xs ih => rw [List.foldl_cons, ih, missBasin_opens]
  rw [emptyImage_eq]
  exact (hmiss _ _).trans (hfns _ _)

theorem emptyImage_rec (c : Chip) : RecStep c (emptyImage c) := by
  rw [emptyImage_eq]
  have hfns := RecStep.foldl loseQueue (List.range 9) (fun c fn => ((RecStep.refl c).recLoss fn _).modFn fn _) (RecStep.refl c)
  exact (RecStep.foldl missBasin _ (fun c r => (RecStep.refl c).missBasin r) hfns).rcd _ rfl rfl

theorem emptyImage_reports {a b : Chip} (h : Reports a b) : Reports a (emptyImage b) := by
  rw [emptyImage_eq]
  have hfns := Reports.foldl loseQueue (List.range 9) (fun c fn hfn => ((Reports.refl c).recLoss _ (List.mem_range.mp hfn)).modFn fn _) h
  exact (Reports.foldl missBasin _ (fun c r _ => (Reports.refl c).missBasin r) hfns).rcd _

/-- The begin of a clear: the image, its pages and the open records are gone, and the clear is on its way. -/
theorem beginClear_clears {c t : Chip} (ht : t = beginClear c) :
    t.rcd.image = [] ∧ t.rcd.ring = [] ∧ t.rcd.tail = [] ∧ t.rcd.opens = [] ∧ t.rcd.armed = none ∧ t.rcd.intent.isSome = true
      ∧ flag t recStat 1 = false ∧ flag t recStat 2 = true ∧ (∀ g, (fnSt t g).inflight = (fnSt c g).inflight)
      ∧ ∀ b, Reports b c → Changes [] (regAt recStat) b t := by
  obtain ⟨a, ha⟩ : ∃ a, a = setArmed c none := ⟨_, rfl⟩
  obtain ⟨c1, h1⟩ : ∃ c1, c1 = (c.rcd.opens.map fun o => o.seq).foldl closeRec a := ⟨_, rfl⟩
  obtain ⟨v, hv⟩ : ∃ v : Nat × Nat × Nat × Nat, v = ((reg c1 0x18000C).toNat, ((imageRecs c1).map fun r => r.seq).length,
    ((imageRecs c1).map fun r => r.seq).foldl min (((imageRecs c1).map fun r => r.seq).headD 0), ((imageRecs c1).map fun r => r.seq).foldl max 0) := ⟨_, rfl⟩
  obtain ⟨m, hm⟩ : ∃ m, m = modRec c1 fun r => { otAreaPage r none with intent := some v, intentPage := r.otNext } := ⟨_, rfl⟩
  have hform : t = setFlag (modRec (emptyImage m) fun r => { r with ring := [], tail := [], closing := [] }) recStat 2 true := by
    rw [ht, beginClear, hm, hv, h1, ha]
  have hclose : ClearQuiet a c1 := by
    rw [h1]
    exact .foldl _ _ .closeRec a
  have hcloseRec : RecStep a c1 := by
    rw [h1]
    exact RecStep.foldl _ _ (fun c q => (RecStep.refl c).closeRec q) (.refl a)
  have hopens : c1.rcd.opens = [] := by
    rw [h1, closeAll_opens, ha]
    refine List.filter_eq_nil_iff.mpr fun o ho => ?_
    rw [Bool.not_eq_true, Bool.not_eq_false', List.contains_iff_mem]
    exact List.mem_map_of_mem (f := fun o : OpenRec => o.seq) ho
  have hempty := ClearQuiet.emptyImage m
  have hemptyRec := emptyImage_rec m
  have hstat : reg (emptyImage m) recStat = reg a recStat := by
    rw [hemptyRec.stat, hm]
    exact hcloseRec.stat
  rw [hform]
  refine ⟨rfl, rfl, rfl, ?_, ?_, ?_, ?_, flag_setFlag_self _ _ _ _ (by decide), fun g => ?_, ?_⟩
  · refine (emptyImage_opens m).trans ?_
    rw [hm]
    exact hopens
  · refine hempty.armed.trans ?_
    rw [hm]
    refine hclose.armed.trans ?_
    rw [ha]
    rfl
  · refine (congrArg Option.isSome hemptyRec.intent).trans ?_
    rw [hm]
    rfl
  · have harmed : flag (emptyImage m) recStat 1 = false := by
      rw [flag, fld, hstat, ha]
      exact flag_setFlag_self _ _ _ _ (by decide)
    rw [flag_setFlag_bit _ _ _ _ _ (by decide) (by decide)]
    exact harmed
  · refine (hempty.inflight g).trans ?_
    rw [hm]
    refine (hclose.inflight g).trans ?_
    rw [ha]
    rfl
  · intro b hb
    have harm : Within [] (regAt recStat) b a := by
      rw [ha]
      exact (((Within.refl _ (regAt_calm (by decide)) b).report hb).report ((Reports.refl c).rcd _)).setFlag 1 _ (by simp [regAt])
    have hmid : Reports a m := by
      rw [hm, h1]
      exact (Reports.foldl closeRec _ (fun c q _ => (Reports.refl c).closeRec q) (.refl a)).rcd _
    exact (((harm.report (emptyImage_reports hmid)).report ((Reports.refl _).rcd _)).setFlag 2 true (by simp [regAt])).changes

theorem Reports.clearConfirmed {a b : Chip} (h : Reports a b) (hrcd : b.rcd = a.rcd) (code : Nat) :
    Machine.clearConfirmed b code = Machine.clearConfirmed a code := by
  rw [Machine.clearConfirmed, h.clearCodeBad, hrcd, h.ot, h.frameNum, Machine.clearConfirmed]

theorem takeEntry_clearConfirm {c : Chip} {fn : Fn} {e : Entry} (hacc : accepts c fn.val 0x21 e = true)
    (hconf : clearConfirmed c ((entryCmd c fn.val 0x21 e).at_ 8 4) = true) {t : Chip} (ht : t = takeEntry c fn.val 0x21 e) :
    t.rcd.image = [] ∧ t.rcd.ring = [] ∧ t.rcd.tail = [] ∧ t.rcd.opens = [] ∧ t.rcd.armed = none ∧ t.rcd.intent.isSome = true
      ∧ flag t recStat 1 = false ∧ flag t recStat 2 = true
      ∧ (⟨nodeIdx c fn.val 0, e.tag.toNat, .recClear, false⟩ : InFlight) ∈ (fnSt t fn.val).inflight ∧ Changes [] (regAt recStat) c t := by
  have hrep := fetched_reports c fn.isLt
  obtain ⟨b, hb⟩ : ∃ b, b = begin_ (fetched c fn.val) (entryCmd c fn.val 0x21 e) .recClear := ⟨_, rfl⟩
  rw [← hrep.clearConfirmed (fetched_keeps c fn.val).1] at hconf
  have hcmd : clearCmd (fetched c fn.val) (entryCmd c fn.val 0x21 e) = beginClear b := by
    have hop : ¬ (entryCmd c fn.val 0x21 e).op = 0x20 := fun h => absurd (show (0x21 : Nat) = 0x20 from h) (by decide)
    rw [clearCmd, if_neg hop, hconf, if_pos rfl, hb]
  have hform : t = beginClear b := by
    rw [ht, ← hcmd]
    exact takeEntry_perform (accepted_of hacc) fun hmode => if_neg hmode
  obtain ⟨himage, hring, htail, hopens, harmed, hintent, hoff, hon, hin, hchanges⟩ := beginClear_clears hform
  refine ⟨himage, hring, htail, hopens, harmed, hintent, hoff, hon, ?_, ?_⟩
  · rw [hin, hb]
    exact begin_inflight (fetched c fn.val) (entryCmd c fn.val 0x21 e) .recClear
  · refine hchanges c ?_
    rw [hb]
    exact hrep.modFn _ _

/-! ## The tuning captures (R662, R674) -/

theorem tuneReg_quiet {b : Nat} (hb : b < 4) : reportReg (tuneBase b) = false := by
  rw [tuneBase]
  exact (quiet_of_range (by omega)).1

theorem Reports.tuneStatus {a b : Chip} (h : Reports a b) (l : Nat) {x : List Byte} (hx : cfgField x 0 1 < 4) (hl : l < 128) :
    Machine.tuneStatus b l x = Machine.tuneStatus a l x := by
  have htune : b.tune = a.tune := h.same .tune (by simp [reportParts])
  have hstate {n : Nat} (hn : n < 4) : tuneState b n = tuneState a n := h.fld (tuneReg_quiet hn) 0 2
  have hloop {n : Nat} (hn : n < 4) : tuneLoop b n = tuneLoop a n := h.fld (tuneReg_quiet hn) 8 7
  have hinj : injecting b l = injecting a l := by
    unfold injecting
    refine List.filter_congr fun n hn => ?_
    rw [h.flag (tuneReg_quiet (List.mem_range.mp hn)), hloop (List.mem_range.mp hn)]
  have hen : loopEn b l = loopEn a l := by
    rw [loopEn, loopFlag, lp, h.tbl, loopEn, loopFlag, lp]
  have hauto : loopAuto b l = loopAuto a l := h.flag (loopReg_quiet (k := 0) hl (by decide)) 0
  have hdom : domOn b 23 = domOn a 23 := by rw [domOn, h.dom, domOn]
  simp only [Machine.tuneStatus, h.nodeMode, hdom, hen, hauto, hinj, hstate hx, hloop hx, tuneSt, htune]
  rfl

theorem tuneStart_arms {c : Chip} {l b : Nat} {x : List Byte} (hl : l < 128) (hb : b = cfgField x 0 1) {t : Chip} (ht : t = tuneStart c l x) :
    tuneState t b = 1 ∧ (tuneSt t b).cfg = x ∧ fld t (tuneBase b) 8 7 = l ∧ Touches [.tune, .tables] (regIn (tuneBase b) (tuneBase b + 0x20)) c t := by
  obtain ⟨d, hd⟩ : ∃ d, d = setTune (clearBuffer c b) b { tuneDef b with cfg := x } := ⟨_, rfl⟩
  have hform : t = setFld (setFld d (tuneBase b) 0 2 1) (tuneBase b) 8 7 l := by
    rw [ht, tuneStart, ← hb, ← hd]
  have hin : regIn (tuneBase b) (tuneBase b + 0x20) (tuneBase b) = true := regIn_iff.mpr (by omega)
  refine ⟨?_, ?_, ?_, ?_⟩
  · rw [hform, tuneState, fld_setFld_field _ _ _ _ _ _ _ (by decide) (by decide), fld_setFld_self _ _ _ _ _ (by decide)]
    rfl
  · rw [hform]
    show (tuneSt d b).cfg = x
    rw [hd, tuneSt, setTune, smGet_smPut_self]
  · rw [hform, fld_setFld_self _ _ _ _ _ (by decide)]
    exact Nat.mod_eq_of_lt hl
  · have hclear : Touches [.tune, .tables] (regIn (tuneBase b) (tuneBase b + 0x20)) c (clearBuffer c b) := by
      rw [clearBuffer]
      exact (((Touches.refl _ _ c).part (.tune _ _) (by simp)).part (.tables _ _) (by simp)).resetRegs fun _ h => h
    rw [hform, hd]
    exact ((hclear.part (.tune _ _) (by simp)).setFld _ _ _ hin).setFld _ _ _ hin

theorem tuneBlock_calm {b : Nat} (hb : b < 4) (off : Nat) (h : regIn (tuneBase b) (tuneBase b + 0x20) off = true) : ringSetup off = false := by
  rw [regIn_iff, tuneBase] at h
  exact (quiet_of_range (by omega)).2

theorem takeEntry_tuneStart {c : Chip} {fn : Fn} {e : Entry} (hacc : accepts c fn.val 0x24 e = true) {k : HostCmd} (hk : k = entryCmd c fn.val 0x24 e)
    (hstat : tuneStatus c (pIndex k.point) (tuneCfg k) = (stSuccess, 0)) {b : Nat} (hb : b = cfgField (tuneCfg k) 0 1) {t : Chip}
    (ht : t = takeEntry c fn.val 0x24 e) :
    tuneState t b = 1 ∧ (tuneSt t b).cfg = tuneCfg k ∧ fld t (tuneBase b) 8 7 = pIndex k.point
      ∧ Changes [.tune, .tables] (regIn (tuneBase b) (tuneBase b + 0x20)) c t := by
  have hrep := fetched_reports c fn.isLt
  have hlt : b < 4 := by
    have hok : cfgOk (tuneCfg k) = true := by
      rw [hk]
      exact accepted_range (accepted_of hacc)
    have hfield : cfgField (tuneCfg k) 0 1 ≤ 3 := by
      rw [cfgOk] at hok
      simp only [Bool.and_eq_true, decide_eq_true_eq] at hok
      omega
    omega
  have hl : pIndex k.point < 128 := by
    rw [hk]
    exact accepted_loop hacc rfl (fun x h => beq_iff_eq.mp h) rfl
  obtain ⟨d, hd⟩ : ∃ d, d = tuneStart (fetched c fn.val) (pIndex k.point) (tuneCfg k) := ⟨_, rfl⟩
  rw [← hrep.tuneStatus _ (hb ▸ hlt) hl] at hstat
  have hcmd : tuneCmd (fetched c fn.val) k = done d k stSuccess 0 := by
    rw [tuneCmd, if_pos (by rw [hk]; rfl), hstat]
    dsimp only
    rw [if_pos rfl, hd]
  have hform : t = done d k stSuccess 0 := by
    rw [ht, ← hcmd, hk]
    exact takeEntry_perform (accepted_of hacc) fun hmode => if_neg hmode
  obtain ⟨hstate, hcfg, hloop, htouch⟩ := tuneStart_arms hl hb hd
  have hfn : k.fn = fn.val := by rw [hk]; rfl
  have hdone := done_reports d (k := k) (by rw [hfn]; exact fn.isLt) stSuccess 0
  rw [← hform] at hdone
  have hquiet := tuneReg_quiet hlt
  refine ⟨(hdone.fld hquiet 0 2).trans hstate, ?_, (hdone.fld hquiet 8 7).trans hloop, ?_⟩
  · rw [tuneSt, show t.tune = d.tune from hdone.same .tune (by simp [reportParts])]
    exact hcfg
  · rw [hform]
    exact done_between (tuneBlock_calm hlt) (by simp) hfn htouch _ _

theorem tuneBase_inj {b j : Nat} (h : b ≠ j) : tuneBase b ≠ tuneBase j := by
  rw [tuneBase, tuneBase]
  omega

/-- Ended captures: their buffers hold 3 with the code 2, and the others' registers stand. -/
theorem endCaptures_at (xs : List Nat) (c : Chip) (b : Nat) {t : Chip} (ht : t = xs.foldl (fun c b => endCapture c b 2) c) :
    (b ∉ xs → reg t (tuneBase b) = reg c (tuneBase b)) ∧ (b ∈ xs → tuneState t b = 3 ∧ fld t (tuneBase b) 2 3 = 2) ∧ tuneLoop t b = tuneLoop c b := by
  induction xs generalizing c with
  | nil => exact ⟨fun _ => by rw [ht]; rfl, fun h => absurd h List.not_mem_nil, by rw [ht]; rfl⟩
  | cons x xs ih =>
    obtain ⟨hout, hin, hloop⟩ := ih (endCapture c x 2) ht
    by_cases hx : b = x
    · rw [hx] at hout hin hloop ⊢
      have hfields : tuneState (endCapture c x 2) x = 3 ∧ fld (endCapture c x 2) (tuneBase x) 2 3 = 2 ∧ tuneLoop (endCapture c x 2) x = tuneLoop c x := by
        refine ⟨?_, ?_, ?_⟩
        · rw [endCapture, tuneState, fld_setFld_field _ _ _ _ _ _ _ (by decide) (by decide), fld_setFld_self _ _ _ _ _ (by decide)]
          rfl
        · rw [endCapture, fld_setFld_self _ _ _ _ _ (by decide)]
          rfl
        · rw [endCapture, tuneLoop, fld_setFld_field _ _ _ _ _ _ _ (by decide) (by decide), fld_setFld_field _ _ _ _ _ _ _ (by decide) (by decide), tuneLoop]
      refine ⟨fun h => absurd List.mem_cons_self h, fun _ => ?_, hloop.trans hfields.2.2⟩
      by_cases hmem : x ∈ xs
      · exact hin hmem
      · rw [tuneState, fld, fld, hout hmem]
        exact ⟨hfields.1, hfields.2.1⟩
    · have hreg : reg (endCapture c x 2) (tuneBase b) = reg c (tuneBase b) := by
        rw [endCapture, reg_setFld_other _ _ _ _ _ _ (tuneBase_inj hx), reg_setFld_other _ _ _ _ _ _ (tuneBase_inj hx)]
      refine ⟨fun h => (hout fun hm => h (List.mem_cons_of_mem _ hm)).trans hreg, fun h => hin ((List.mem_cons.mp h).resolve_left hx), ?_⟩
      rw [hloop, tuneLoop, fld, hreg, tuneLoop, fld]

/-- Stopped injections: bit 5 alone is cleared, and the others' registers stand. -/
theorem stopInjections_at (xs : List Nat) (c : Chip) (b : Nat) {t : Chip} (ht : t = xs.foldl (fun c b => setFlag c (tuneBase b) 5 false) c) :
    (b ∉ xs → reg t (tuneBase b) = reg c (tuneBase b)) ∧ tuneState t b = tuneState c b ∧ fld t (tuneBase b) 2 3 = fld c (tuneBase b) 2 3 := by
  induction xs generalizing c with
  | nil => rw [ht]; exact ⟨fun _ => rfl, rfl, rfl⟩
  | cons x xs ih =>
    obtain ⟨hout, hstate, hcode⟩ := ih (setFlag c (tuneBase x) 5 false) ht
    by_cases hx : b = x
    · rw [hx] at hstate hcode ⊢
      exact ⟨fun h => absurd List.mem_cons_self h, hstate.trans (fld_setFlag_field _ _ _ _ _ _ (by decide) (by decide)),
        hcode.trans (fld_setFlag_field _ _ _ _ _ _ (by decide) (by decide))⟩
    · exact ⟨fun h => (hout fun hm => h (List.mem_cons_of_mem _ hm)).trans (reg_setFlag_other _ _ _ _ _ (tuneBase_inj hx)),
        hstate.trans (fld_setFlag_other _ _ _ _ _ _ _ (tuneBase_inj hx)), hcode.trans (fld_setFlag_other _ _ _ _ _ _ _ (tuneBase_inj hx))⟩

theorem tuneBases_mem {b : Nat} (hb : b < 4) : regsAt [tuneBase 0, tuneBase 1, tuneBase 2, tuneBase 3] (tuneBase b) = true := by
  have hall : ∀ b : Fin 4, regsAt [tuneBase 0, tuneBase 1, tuneBase 2, tuneBase 3] (tuneBase b.val) = true := by decide +kernel
  exact hall ⟨b, hb⟩

/-- TUNE_STOP's captures end and its injections stop, and no other buffer's register changes. -/
theorem tuneStop_stops {c : Chip} {l : Nat} {t : Chip} (ht : t = (tuneStop c l).1) :
    (∀ b : Fin 4, (tuneState c b.val = 1 ∨ tuneState c b.val = 2) → tuneLoop c b.val = l → tuneState t b.val = 3 ∧ fld t (tuneBase b.val) 2 3 = 2)
      ∧ (∀ b : Fin 4, tuneLoop c b.val ≠ l → reg t (tuneBase b.val) = reg c (tuneBase b.val))
      ∧ Touches [] (regsAt [tuneBase 0, tuneBase 1, tuneBase 2, tuneBase 3]) c t := by
  obtain ⟨d, hd⟩ : ∃ d, d = (capturing c l).foldl (fun c b => endCapture c b 2) c := ⟨_, rfl⟩
  have hform : t = (injecting d l).foldl (fun c b => setFlag c (tuneBase b) 5 false) d := by
    rw [ht, tuneStop, ← hd]
  refine ⟨fun b hstate hloop => ?_, fun b hloop => ?_, ?_⟩
  · obtain ⟨-, hin, -⟩ := endCaptures_at _ c b.val hd
    obtain ⟨-, hst, hcode⟩ := stopInjections_at _ d b.val hform
    rw [hst, hcode]
    refine hin (List.mem_filter.mpr ⟨List.mem_range.mpr b.isLt, ?_⟩)
    simpa [hloop] using hstate
  · obtain ⟨hcap, -, hkeep⟩ := endCaptures_at _ c b.val hd
    obtain ⟨hinj, -, -⟩ := stopInjections_at _ d b.val hform
    have hnocap : b.val ∉ capturing c l := by
      intro h
      have h2 := (List.mem_filter.mp h).2
      rw [Bool.and_eq_true, beq_iff_eq] at h2
      exact hloop h2.2
    have hnoinj : b.val ∉ injecting d l := by
      intro h
      have h2 := (List.mem_filter.mp h).2
      rw [Bool.and_eq_true, beq_iff_eq, hkeep] at h2
      exact hloop h2.2
    exact (hinj hnoinj).trans (hcap hnocap)
  · have hcaps : Touches [] (regsAt [tuneBase 0, tuneBase 1, tuneBase 2, tuneBase 3]) c d := by
      rw [hd]
      refine Touches.foldl _ _ (fun c b hb => ?_) c
      have hlt := tuneBases_mem (List.mem_range.mp (List.mem_filter.mp hb).1)
      exact ((Touches.refl _ _ c).setFld _ _ _ hlt).setFld _ _ _ hlt
    refine hcaps.trans ?_
    rw [hform]
    refine Touches.foldl _ _ (fun c b hb => ?_) d
    exact (Touches.refl _ _ c).setFlag _ _ (tuneBases_mem (List.mem_range.mp (List.mem_filter.mp hb).1))

theorem takeEntry_tuneStop {c : Chip} {fn : Fn} {e : Entry} {l : Nat} (hacc : accepts c fn.val 0x25 e = true)
    (hl : l = pIndex (entryCmd c fn.val 0x25 e).point) {t : Chip} (ht : t = takeEntry c fn.val 0x25 e) :
    (∀ b : Fin 4, (tuneState c b.val = 1 ∨ tuneState c b.val = 2) → tuneLoop c b.val = l → tuneState t b.val = 3 ∧ fld t (tuneBase b.val) 2 3 = 2)
      ∧ (∀ b : Fin 4, tuneLoop c b.val ≠ l → reg t (tuneBase b.val) = reg c (tuneBase b.val))
      ∧ Changes [] (regsAt [tuneBase 0, tuneBase 1, tuneBase 2, tuneBase 3]) c t := by
  have hrep := fetched_reports c fn.isLt
  obtain ⟨d, hd⟩ : ∃ d, d = (tuneStop (fetched c fn.val) l).1 := ⟨_, rfl⟩
  obtain ⟨r, hr⟩ : ∃ r, r = b2n (!(tuneStop (fetched c fn.val) l).2) := ⟨_, rfl⟩
  have hform : t = done d (entryCmd c fn.val 0x25 e) stSuccess r := by
    rw [ht, hd, hr, hl]
    exact takeEntry_perform (accepted_of hacc) fun hmode => if_neg hmode
  obtain ⟨hends, hstand, htouch⟩ := tuneStop_stops hd
  have hdone := done_reports d (k := entryCmd c fn.val 0x25 e) fn.isLt stSuccess r
  rw [← hform] at hdone
  refine ⟨fun b hstate hloop => ?_, fun b hloop => ?_, ?_⟩
  · have hquiet := tuneReg_quiet b.isLt
    obtain ⟨h1, h2⟩ := hends b (by simpa only [tuneState, hrep.fld hquiet] using hstate) (by simpa only [tuneLoop, hrep.fld hquiet] using hloop)
    exact ⟨(hdone.fld hquiet 0 2).trans h1, (hdone.fld hquiet 2 3).trans h2⟩
  · have hquiet := tuneReg_quiet b.isLt
    refine (hdone.reg hquiet).trans ((hstand b ?_).trans (hrep.reg hquiet))
    simpa only [tuneLoop, hrep.fld hquiet] using hloop
  · rw [hform]
    exact done_between (regsAt_calm (by decide)) (by simp) rfl htouch _ _

/-! ## The twin's commands (R1001, R1003) -/

/-- What a frame that is sent leaves of the link: the state and the tables of the set. -/
structure SdlSends (a b : Chip) : Prop where
  sync : b.sdl.sync = a.sdl.sync
  tables : b.sdl.tables = a.sdl.tables

namespace SdlSends

theorem refl (c : Chip) : SdlSends c c := ⟨rfl, rfl⟩

theorem trans {a b c : Chip} (h : SdlSends a b) (k : SdlSends b c) : SdlSends a c := ⟨k.sync.trans h.sync, k.tables.trans h.tables⟩

theorem emits (xs : List SdlFrame) (c : Chip) : SdlSends c (xs.foldl sdlEmit c) := by
  induction xs generalizing c with
  | nil => exact refl c
  | cons x xs ih => exact (show SdlSends c (sdlEmit c x) from ⟨rfl, rfl⟩).trans (ih (sdlEmit c x))

theorem resyncPump (c : Chip) : SdlSends c (Machine.resyncPump c) := by
  unfold Machine.resyncPump
  split
  · split
    · exact ⟨rfl, rfl⟩
    · exact refl c
  · exact refl c

theorem sdlPump (c : Chip) : SdlSends c (Machine.sdlPump c) := by
  obtain ⟨d, hd⟩ : ∃ d, d = modSdl c fun s => { s with queue := s.queue.drop (64 - c.sdl.out.length) } := ⟨_, rfl⟩
  have hdrop : SdlSends c d := by
    rw [hd]
    exact ⟨rfl, rfl⟩
  rw [Machine.sdlPump, ← hd]
  exact hdrop.trans ((emits _ d).trans (resyncPump _))

/-- A frame of a resynchronisation is queued and sent. -/
theorem sdlSend_resync (c : Chip) (set : Nat) (data : List Byte) : SdlSends c (sdlSend c 0x30 set data) := by
  rw [sdlSend]
  split
  · simp only [if_true]
    exact SdlSends.trans (b := modSdl c fun s => { s with resync := s.resync ++ [⟨0x30, 0, 0, set, data⟩] }) ⟨rfl, rfl⟩ (sdlPump _)
  · exact refl c

end SdlSends

/-- The begin of a resynchronisation. -/
theorem beginResync_begins {c : Chip} (hsync : c.sdl.sync ≠ 1) {t : Chip} (ht : t = beginResync c) :
    t.sdl.sync = 1 ∧ t.sdl.tables = [] ∧ fld t 0x1C001C 4 4 = 1 ∧ ∃ x, t = modSdl (setResync c 0 1) fun _ => x := by
  obtain ⟨d, hd⟩ : ∃ d, d = modSdl (setResync c 0 1) fun s => { s with tables := [], sync := 1 } := ⟨_, rfl⟩
  have hset (e : Chip) (he : e.sdl.sync ≠ 1) : setSync e 1 = modSdl e fun x => { x with sync := 1 } := by
    rw [setSync, if_neg he]
    exact (if_neg (by decide)).trans (if_neg (by decide))
  have hform : t = sdlSend d 0x30 0 (natLe 4 1 ++ identity c) := by
    have hnext := hset (modSdl (setResync c 0 1) fun s => { s with tables := [] }) hsync
    rw [ht, beginResync, hnext, sendResync, hd]
    rfl
  have hsends : SdlSends d t := hform ▸ .sdlSend_resync d _ _
  obtain ⟨x, hx⟩ := sdlSend_sdlOnly d 0x30 0 (natLe 4 1 ++ identity c)
  rw [← hform] at hx
  refine ⟨hsends.sync.trans (by rw [hd]; rfl), hsends.tables.trans (by rw [hd]; rfl), ?_, ?_⟩
  · have hreg : reg t 0x1C001C = reg (setResync c 0 1) 0x1C001C := by
      rw [hx, hd]
      rfl
    rw [fld, hreg, setResync, reg_setReg_self]
    rfl
  · rw [hx, hd]
    exact ⟨x, rfl⟩

theorem Reports.sdlRole {a b : Chip} (h : Reports a b) (hsdl : b.sdl = a.sdl) : Machine.sdlRole b = Machine.sdlRole a := by
  have hen : sdlEn b = sdlEn a := h.flag (by decide) 0
  simp only [Machine.sdlRole, hen, h.nodeMode, hsdl]

theorem takeEntry_sdlResync {c : Chip} {fn : Fn} {e : Entry} (hacc : accepts c fn.val 0x30 e = true)
    (hrole : sdlRole c = 2 ∧ c.sdl.contact = true ∧ peerRole c = 1) (hidle : c.sdl.sync ≠ 1 ∧ c.sdl.sync ≠ 2) {t : Chip}
    (ht : t = takeEntry c fn.val 0x30 e) :
    t.sdl.sync = 1 ∧ fld t 0x1C001C 4 4 = 1 ∧ t.sdl.tables = []
      ∧ t = done (beginResync (fetched c fn.val)) (entryCmd c fn.val 0x30 e) stSuccess 0 ∧ Changes [] (regsAt [0x1C001C, sdlEvt]) c t := by
  have hrep := fetched_reports c fn.isLt
  have hsdl := (fetched_keeps c fn.val).2
  obtain ⟨hr, hcontact, hpeer⟩ := hrole
  have hready : sdlResync (fetched c fn.val) = (beginResync (fetched c fn.val), stSuccess, 0) := by
    have hpeer' : peerRole (fetched c fn.val) = 1 := by
      rw [peerRole, hsdl]
      exact hpeer
    rw [sdlResync, hrep.sdlRole hsdl, hr, hsdl, hcontact, hpeer', if_neg (by decide), if_neg fun h => h.elim hidle.1 hidle.2]
  obtain ⟨d, hd⟩ : ∃ d, d = beginResync (fetched c fn.val) := ⟨_, rfl⟩
  have hcmd : sdlCmd (fetched c fn.val) (entryCmd c fn.val 0x30 e) = done d (entryCmd c fn.val 0x30 e) stSuccess 0 := by
    have hop : (entryCmd c fn.val 0x30 e).op = 0x30 := rfl
    rw [sdlCmd, if_pos hop, hready, hd]
  have hform : t = done d (entryCmd c fn.val 0x30 e) stSuccess 0 := by
    rw [ht, ← hcmd]
    exact takeEntry_perform (accepted_of hacc) fun hmode => if_neg hmode
  obtain ⟨hsync, htables, hstep, x, hx⟩ := beginResync_begins (by rw [hsdl]; exact hidle.1) hd
  have hdone := done_reports d (k := entryCmd c fn.val 0x30 e) fn.isLt stSuccess 0
  have hquiet := (RingQuiet.refl d).done (entryCmd c fn.val 0x30 e) stSuccess 0
  rw [← hform] at hdone hquiet
  refine ⟨by rw [hquiet.sdl, hsync], (hdone.fld (by decide) 4 4).trans hstep, by rw [hquiet.sdl, htables], by rw [hform, hd], ?_⟩
  have hmid : Within [] (regsAt [0x1C001C, sdlEvt]) c d := by
    rw [hx]
    exact (((Within.refl _ (regsAt_calm (by decide)) c).report hrep).setReg _ (by decide)).modSdl fun _ => x
  rw [hform]
  exact (hmid.report (done_reports d fn.isLt _ _)).changes

theorem takeEntry_sdlSwitchback {c : Chip} {fn : Fn} {e : Entry} (hacc : accepts c fn.val 0x31 e = true) (hstat : switchbackStatus c = none) {t : Chip}
    (ht : t = takeEntry c fn.val 0x31 e) :
    t.sdl = { c.sdl with swb := 1 } ∧ (⟨nodeIdx c fn.val 0, e.tag.toNat, .switchback, false⟩ : InFlight) ∈ (fnSt t fn.val).inflight ∧ Changes [] noReg c t := by
  have hrep := fetched_reports c fn.isLt
  have hsdl := (fetched_keeps c fn.val).2
  obtain ⟨b, hb⟩ : ∃ b, b = begin_ (fetched c fn.val) (entryCmd c fn.val 0x31 e) .switchback := ⟨_, rfl⟩
  have hstat' : switchbackStatus (fetched c fn.val) = none := by
    have hpeer : peerRole (fetched c fn.val) = peerRole c := by rw [peerRole, hsdl, peerRole]
    have hhot : peerHot (fetched c fn.val) = peerHot c := by rw [peerHot, hsdl, peerHot]
    rw [switchbackStatus, hrep.nodeMode, hsdl, hpeer, hrep.sdlRole hsdl, hhot]
    exact hstat
  have hcmd : sdlCmd (fetched c fn.val) (entryCmd c fn.val 0x31 e) = switchbackBegin b := by
    have hop : ¬ (entryCmd c fn.val 0x31 e).op = 0x30 := fun h => absurd (show (0x31 : Nat) = 0x30 from h) (by decide)
    rw [sdlCmd, if_neg hop, hstat', hb]
  have hform : t = switchbackBegin b := by
    rw [ht, ← hcmd]
    exact takeEntry_perform (accepted_of hacc) fun hmode => if_neg hmode
  have hbsdl : b.sdl = c.sdl := by
    rw [hb]
    exact hsdl
  rw [hform, switchbackBegin]
  refine ⟨?_, ?_, ?_⟩
  · rw [← hbsdl]
    rfl
  · rw [hb]
    exact begin_inflight (fetched c fn.val) (entryCmd c fn.val 0x31 e) .switchback
  · have hbrep : Reports c b := by
      rw [hb]
      exact hrep.modFn _ _
    exact (((Within.refl _ noReg_calm c).report hbrep).modSdl _).changes

/-- Settles O23: each command's own effect on the recorder, the capture buffers and the twin's link. -/
theorem keeperAndTuningCommandsComplete : Obligations.KeeperAndTuningCommandsComplete := by
  unfold Obligations.KeeperAndTuningCommandsComplete
  exact ⟨fun s fn e hacc => ⟨_, rfl, rfl, takeEntry_clearArm hacc rfl rfl⟩,
    fun s fn e hacc hconf => ⟨_, rfl, rfl, takeEntry_clearConfirm hacc hconf rfl⟩,
    fun s fn e k hacc hk hstat => ⟨_, rfl, rfl, takeEntry_tuneStart hacc hk hstat rfl rfl⟩,
    fun s fn e l hacc hl => ⟨_, rfl, rfl, takeEntry_tuneStop hacc hl rfl⟩,
    fun s fn e hacc hrole hidle => ⟨_, rfl, rfl, takeEntry_sdlResync hacc hrole hidle rfl⟩,
    fun s fn e hacc hstat => ⟨_, rfl, rfl, takeEntry_sdlSwitchback hacc hstat rfl⟩⟩

end Sys2Proof.Machine
end

section
-- One proof at a time: every thread takes a stack of its own from the memory that a compile has.
set_option Elab.async false
/-! SUPPORT. A reset of every block but AON and RTC: what it cuts off in NVM, what it keeps, and the leave that it grants (R142, R168 to R172). -/

namespace Sys2Proof.Machine

/-! ## What a reset cuts off -/

/-- Only NVM, its images, trims and microcode slots, and the free values differ. -/
structure CutOnly (a b : Chip) : Prop where
  same : b = { a with nvm := b.nvm, free := b.free, img := b.img, trim := b.trim, upd := b.upd }

namespace CutOnly

theorem refl (c : Chip) : CutOnly c c := ⟨rfl⟩

theorem trans {a b c : Chip} (h : CutOnly a b) (k : CutOnly b c) : CutOnly a c := by
  obtain ⟨h⟩ := h
  obtain ⟨k⟩ := k
  refine ⟨?_⟩
  rw [k, h]

theorem of (c : Chip) (n : SMap Byte) (f : Nat) (i : ImgSt) (t : TrimSt) (u : UpdSt) : CutOnly c { c with nvm := n, free := f, img := i, trim := t, upd := u } := ⟨rfl⟩

theorem cutErase (c : Chip) (b : Nat) : CutOnly c (Machine.cutErase c b) := by
  unfold Machine.cutErase
  exact of c _ _ _ c.trim c.upd

theorem cutProgram (c : Chip) (page : Nat) (bs : List Byte) (n : Nat) : CutOnly c (Machine.cutProgram c page bs n) := ⟨rfl⟩

theorem windowCut (c : Chip) (reached : Nat) : CutOnly c (Machine.windowCut c reached) := by
  unfold Machine.windowCut
  split
  · exact ⟨rfl⟩
  · exact refl c

theorem trimCut (c : Chip) (reached : Nat) : CutOnly c (Machine.trimCut c reached) := by
  unfold Machine.trimCut
  split
  · exact ⟨rfl⟩
  · exact refl c

/-- An erase or a commit that is cut off. -/
theorem imgCut (c : Chip) (reached : Nat) : CutOnly c (match c.img.op with
    | some op =>
      let b := opBank op
      if op ≤ 2 then Machine.cutErase c b
      else if pageProg c (commitPage b) || pageFlagged c (commitPage b) then c
      else Machine.cutProgram { c with img := { c.img with writing := none } } (commitPage b) (commitBytes c b) reached
    | none => c) := by
  split
  · dsimp only
    split
    · exact cutErase c _
    · split
      · exact refl c
      · exact ⟨rfl⟩
  · exact refl c

theorem nvmCut (c : Chip) (reached : Nat) : CutOnly c (Machine.nvmCut c reached) := by
  have himg := (trimCut c reached).trans (imgCut (Machine.trimCut c reached) reached)
  unfold Machine.nvmCut
  dsimp only at himg ⊢
  split
  · exact himg.trans ⟨rfl⟩
  · exact himg

end CutOnly

/-- What a reset finds of NVM, once the operations in progress are cut off. -/
def cutOff (c : Chip) (reached : Nat) : Chip := windowCut (nvmCut c reached) reached

theorem cutOff_only (c : Chip) (reached : Nat) : CutOnly c (cutOff c reached) := (CutOnly.nvmCut c reached).trans (.windowCut _ reached)

/-- Where no operation is in progress nothing is cut off. -/
theorem cutOff_quiet {c : Chip} (h : nvmQuiet c = true) (reached : Nat) : cutOff c reached = c := by
  simp only [nvmQuiet, Bool.and_eq_true, Option.isNone_iff_eq_none] at h
  obtain ⟨⟨⟨himg, hupd⟩, hwriting⟩, hstoring⟩ := h
  have htrim : trimCut c reached = c := by rw [trimCut, hstoring]
  have hnvm : nvmCut c reached = c := by
    rw [nvmCut, htrim]
    dsimp only
    rw [himg]
    dsimp only
    rw [hupd]
  rw [cutOff, hnvm, windowCut, hwriting]

/-! ## Grants while every cell stands -/

/-- No cell has a mode that it waits to enter. -/
def noTargets (c : Chip) : Prop := ∀ ch, (cell c ch).tgt = none

theorem stepBegins_quiet {c : Chip} (h : noTargets c) (ch : Nat) : stepBegins c ch = c := by
  rw [stepBegins, h ch]

/-- Such a grant changes the power block alone. -/
theorem grant_pwr {c : Chip} (h : noTargets c) (r : LeaveReq) : ∃ x, grant c r = { c with pwr := x } := by
  obtain ⟨d, hd⟩ : ∃ d, d = (if r.surge = 0 then dropReq c r.op
    else { (dropReq c r.op) with pwr := { (dropReq c r.op).pwr with surges := (dropReq c r.op).pwr.surges ++ [⟨r.op, r.dom, r.surge⟩] } }) := ⟨_, rfl⟩
  have hpwr : ∃ x, d = { c with pwr := x } := by
    rw [hd]
    split
    · exact ⟨_, rfl⟩
    · exact ⟨_, rfl⟩
  obtain ⟨x, hx⟩ := hpwr
  have hquiet : noTargets d := by
    rw [hx]
    exact h
  rw [grant]
  dsimp only
  rw [← hd]
  split
  · rw [hx]
    exact ⟨_, rfl⟩
  · rw [stepBegins_quiet hquiet]
    exact ⟨x, hx⟩
  · exact ⟨x, hx⟩

theorem grantAll_pwr (n : Nat) {c : Chip} (h : noTargets c) : ∃ x, grantAll n c = { c with pwr := x } := by
  induction n generalizing c with
  | zero => exact ⟨c.pwr, rfl⟩
  | succ n ih =>
    rw [grantAll]
    split
    · next r _ =>
      split
      · obtain ⟨x, hx⟩ := grant_pwr h r
        have hquiet : noTargets (grant c r) := by
          rw [hx]
          exact h
        obtain ⟨y, hy⟩ := ih hquiet
        exact ⟨y, by rw [hy, hx]⟩
      · exact ⟨c.pwr, rfl⟩
    · exact ⟨c.pwr, rfl⟩

/-- Without a request nothing is granted. -/
theorem grantAll_none (n : Nat) {c : Chip} (h : c.pwr.reqs = []) : grantAll n c = c := by
  cases n with
  | zero => rfl
  | succ n =>
    rw [grantAll, headReq, h]
    rfl

/-! ## The reset itself -/

/-- The node in reset before leave is granted. -/
def asReset (c : Chip) (reached : Nat) (cause : List Nat) (pccInc : Bool) : Chip :=
  let k := resetAll (cutOff c reached) aonReg
  let k1 := setFld (setFld k 0x10004 1 3 (fld c 0x10004 1 3)) clkStat 0 2 (fld c clkStat 0 2)
  { k1 with
    ot := c.ot, rtc := c.rtc, trips := { c.trips with events := [] }, corr := c.corr, jtag := c.jtag
    pwr := { k1.pwr with dom := smKeep (fun n => n == 0) c.pwr.dom, reqs := c.pwr.reqs.filter fun r => r.dom == 0, refused := c.pwr.refused % 2, onCrystal := c.pwr.onCrystal, ioHigh := c.pwr.ioHigh, aon := aonRuns c }
    mode := { k1.mode with cause := (c.mode.cause ++ cause).dedup, pccInc := c.mode.pccInc || pccInc } }

theorem warmReset_eq (c : Chip) (reached : Nat) (cause : List Nat) (pccInc : Bool) :
    warmReset c reached cause pccInc = grantAll 40 (asReset c reached cause pccInc) := by
  rw [warmReset, asReset, cutOff]

theorem asReset_cells (c : Chip) (reached : Nat) (cause : List Nat) (pccInc : Bool) : noTargets (asReset c reached cause pccInc) := fun _ => rfl

theorem warmReset_pwr (c : Chip) (reached : Nat) (cause : List Nat) (pccInc : Bool) :
    ∃ x, warmReset c reached cause pccInc = { asReset c reached cause pccInc with pwr := x } := by
  rw [warmReset_eq]
  exact grantAll_pwr 40 (asReset_cells c reached cause pccInc)

/-- The registers of a node in reset: those that it keeps, and two fields that it sets. -/
theorem asReset_regs (c : Chip) (reached : Nat) (cause : List Nat) (pccInc : Bool) : ∃ k : Chip,
    (∀ off, reg k off = if aonReg off then reg c off else regDefault off)
      ∧ ∀ off, reg (asReset c reached cause pccInc) off
        = reg (setFld (setFld k 0x10004 1 3 (fld c 0x10004 1 3)) 0x18000 0 2 (fld c 0x18000 0 2)) off := by
  have hregs : (cutOff c reached).regs = c.regs := by rw [(cutOff_only c reached).same]
  refine ⟨resetAll (cutOff c reached) aonReg, fun off => ?_, fun off => rfl⟩
  have hkregs : (resetAll (cutOff c reached) aonReg).regs = smKeep aonReg c.regs := by
    rw [← hregs]
    rfl
  rw [reg, hkregs, smGet_smKeep, reg]

theorem asReset_reg (c : Chip) (reached : Nat) (cause : List Nat) (pccInc : Bool) {off : Nat} (h1 : off ≠ 0x10004) (h2 : off ≠ 0x18000) :
    reg (asReset c reached cause pccInc) off = if aonReg off then reg c off else regDefault off := by
  obtain ⟨k, hk, hreg⟩ := asReset_regs c reached cause pccInc
  rw [hreg, reg_setFld_other _ _ _ _ _ _ h2, reg_setFld_other _ _ _ _ _ _ h1, hk]

/-- The spares of R1204 after a reset. -/
theorem keptSpares (f : Nat → BankSt) (xs : List Nat) (m : SMap BankSt) (b : Nat) :
    smGet bankDef (xs.foldl (fun m b => smPut bankDef m b (bankNvm (f b))) m) b = if b ∈ xs then bankNvm (f b) else smGet bankDef m b := by
  induction xs generalizing m with
  | nil => rfl
  | cons x xs ih =>
    rw [List.foldl_cons, ih]
    by_cases hmem : b ∈ xs
    · rw [if_pos hmem, if_pos (List.mem_cons_of_mem _ hmem)]
    · rw [if_neg hmem]
      by_cases hx : b = x
      · rw [hx, smGet_smPut_self, if_pos List.mem_cons_self]
      · rw [smGet_smPut_other _ _ _ _ _ hx, if_neg fun h => (List.mem_cons.mp h).elim hx hmem]

theorem asReset_spares (c : Chip) (reached : Nat) (cause : List Nat) (pccInc : Bool) {b : Nat} (hb : b < 8) :
    bankSt (asReset c reached cause pccInc) b = { bankDef b with retired := (bankSt c b).retired, cover := (bankSt c b).cover } := by
  have hbank : (cutOff c reached).bank = c.bank := by rw [(cutOff_only c reached).same]
  have hform : (asReset c reached cause pccInc).bank = (List.range 8).foldl (fun m b => smPut bankDef m b (bankNvm (bankSt (cutOff c reached) b))) [] := rfl
  rw [bankSt, hform, keptSpares, if_pos (List.mem_range.mpr hb), bankSt, hbank, ← bankSt]
  rfl

/-- The trims that a reset finds are stored or not, and none is being stored afterwards. -/
theorem asReset_nvm (c : Chip) (reached : Nat) (cause : List Nat) (pccInc : Bool) : nvmStands c (asReset c reached cause pccInc) := by
  have honly := (cutOff_only c reached).same
  refine ⟨fun hquiet => ?_, ?_, rfl, ?_, fun b => asReset_spares c reached cause pccInc b.isLt⟩
  · have hnone : c.trim.storing = none := by
      simp only [nvmQuiet, Bool.and_eq_true, Option.isNone_iff_eq_none] at hquiet
      exact hquiet.2
    have htrim : (asReset c reached cause pccInc).trim = { (cutOff c reached).trim with storing := none } := rfl
    have hnvm : (asReset c reached cause pccInc).nvm = (cutOff c reached).nvm := rfl
    have himg : (asReset c reached cause pccInc).img
        = { State.reset.chip.img with prog := (cutOff c reached).img.prog, flagged := (cutOff c reached).img.flagged } := rfl
    have hupd : (asReset c reached cause pccInc).upd = { State.reset.chip.upd with slots := (cutOff c reached).upd.slots } := rfl
    have hfree : (asReset c reached cause pccInc).free = (cutOff c reached).free := rfl
    rw [htrim, hnvm, himg, hupd, hfree, cutOff_quiet hquiet, ← hnone]
    exact ⟨rfl, rfl, rfl, rfl, rfl⟩
  · have hrcd : (asReset c reached cause pccInc).rcd = recNvm (cutOff c reached).rcd := rfl
    rw [hrcd, honly]
  · have hbsn : (asReset c reached cause pccInc).bsn
        = { State.reset.chip.bsn with keys := (cutOff c reached).bsn.keys, epochs := (cutOff c reached).bsn.epochs } := rfl
    rw [hbsn, honly]

/-- Everything that a reset has reset. -/
theorem asReset_parts (c : Chip) (reached : Nat) (cause : List Nat) (pccInc : Bool) :
    onlyParts resetParts State.reset.chip (asReset c reached cause pccInc) := by
  intro p hp
  cases p <;> first | rfl | exact absurd hp (by decide)

theorem reg_reset (off : Nat) : reg State.reset.chip off = regDefault off := rfl

theorem asReset_hostMem (c : Chip) (reached : Nat) (cause : List Nat) (pccInc : Bool) : (asReset c reached cause pccInc).hostMem = c.hostMem := by
  have hform : (asReset c reached cause pccInc).hostMem = (cutOff c reached).hostMem := rfl
  rw [hform, (cutOff_only c reached).same]

/-- Of the power block domain 0, the refusal of its leave and the levels stand. -/
theorem asReset_dom (c : Chip) (reached : Nat) (cause : List Nat) (pccInc : Bool) (n : Nat) :
    dom (asReset c reached cause pccInc) n = if n = 0 then dom c 0 else .off := by
  have hform : (asReset c reached cause pccInc).pwr.dom = smKeep (fun n => n == 0) c.pwr.dom := rfl
  rw [dom, hform, smGet_smKeep]
  by_cases hn : n = 0
  · rw [hn, if_pos rfl]
    rfl
  · rw [if_neg hn, if_neg (by simpa using hn)]
    rfl

/-- The two fields that a reset sets by itself. -/
theorem asReset_fields (c : Chip) (reached : Nat) (cause : List Nat) (pccInc : Bool) :
    fld (asReset c reached cause pccInc) 0x18000 0 2 = fld c 0x18000 0 2
      ∧ fld (asReset c reached cause pccInc) 0x18000 2 30 = fld State.reset.chip 0x18000 2 30
      ∧ fld (asReset c reached cause pccInc) 0x10004 1 3 = fld c 0x10004 1 3
      ∧ fld (asReset c reached cause pccInc) 0x10004 0 1 = 0 ∧ fld (asReset c reached cause pccInc) 0x10004 4 28 = 0 := by
  obtain ⟨k, hk, hreg⟩ := asReset_regs c reached cause pccInc
  have hevt : reg k 0x10004 = 0 := (hk 0x10004).trans ((if_neg (by decide)).trans (by decide +kernel))
  have hclk : reg k 0x18000 = regDefault 0x18000 := (hk 0x18000).trans (if_neg (by decide))
  have hfld (off lo w : Nat) : fld (asReset c reached cause pccInc) off lo w
      = fld (setFld (setFld k 0x10004 1 3 (fld c 0x10004 1 3)) 0x18000 0 2 (fld c 0x18000 0 2)) off lo w := by
    rw [fld, hreg, ← fld]
  rw [hfld, hfld, hfld, hfld, hfld]
  refine ⟨?_, ?_, ?_, ?_, ?_⟩
  · rw [fld_setFld_self _ _ _ _ _ (by decide)]
    exact Nat.mod_eq_of_lt (fld_lt _ _ _ _)
  · rw [fld_setFld_field _ _ _ _ _ _ _ (by decide) (by decide), fld_setFld_other _ _ _ _ _ _ _ _ (by decide), fld, hclk, fld, reg_reset]
  · rw [fld_setFld_other _ _ _ _ _ _ _ _ (by decide), fld_setFld_self _ _ _ _ _ (by decide)]
    exact Nat.mod_eq_of_lt (fld_lt _ _ _ _)
  · rw [fld_setFld_other _ _ _ _ _ _ _ _ (by decide), fld_setFld_field _ _ _ _ _ _ _ (by decide) (by decide), fld, hevt]
    decide
  · rw [fld_setFld_other _ _ _ _ _ _ _ _ (by decide), fld_setFld_field _ _ _ _ _ _ _ (by decide) (by decide), fld, hevt]
    decide

theorem warmReset_inReset (c : Chip) (reached : Nat) (cause : List Nat) (pccInc : Bool) {t : Chip} (ht : t = warmReset c reached cause pccInc) :
    inReset c (c.mode.cause ++ cause).dedup (c.mode.pccInc || pccInc) t := by
  obtain ⟨a, ha⟩ : ∃ a, a = asReset c reached cause pccInc := ⟨_, rfl⟩
  obtain ⟨x, hx⟩ := warmReset_pwr c reached cause pccInc
  rw [← ha, ← ht] at hx
  have hregs (off : Nat) : reg t off = reg a off := by rw [hx]; rfl
  have hfld (off lo w : Nat) : fld t off lo w = fld a off lo w := by rw [fld, hregs, fld]
  obtain ⟨hsrc, hrest, -⟩ := asReset_fields c reached cause pccInc
  rw [← ha] at hsrc hrest
  have hnvm := asReset_nvm c reached cause pccInc
  have hparts := asReset_parts c reached cause pccInc
  have hhost := asReset_hostMem c reached cause pccInc
  rw [← ha] at hnvm hparts hhost
  refine ⟨fun p hp => ?_, ?_, ?_, ?_, ?_, ?_, ?_, ?_, ?_, fun hquiet => ?_, (hfld _ _ _).trans hsrc, (hfld _ _ _).trans hrest, fun off hoff => ?_,
    fun off hoff => ?_⟩
  · have hstay := hparts p hp
    rw [hx]
    cases p
    case pwr => exact absurd hp (by decide)
    all_goals exact hstay
  · rw [hx, ha]
    rfl
  · rw [hx, ha]
    rfl
  · rw [hx, ha]
    rfl
  · rw [hx, ha]
    rfl
  · rw [hx, ha]
    rfl
  · rw [hx]
    exact hhost
  · rw [hx, ha]
    rfl
  · rw [hx]
    exact hnvm
  · have hnone : a.pwr.reqs = [] := by
      have hform : a.pwr.reqs = c.pwr.reqs.filter fun r => r.dom == 0 := by rw [ha]; rfl
      rw [hform, List.filter_eq_nil_iff]
      intro r hr
      simpa using List.all_eq_true.mp hquiet r hr
    have hstay : t = a := by
      rw [ht, warmReset_eq, ← ha, grantAll_none 40 hnone]
    rw [hstay]
    refine ⟨fun n => ?_, ?_⟩
    · rw [ha, asReset_dom]
      exact if_congr (by rw [Fin.ext_iff]; rfl) rfl rfl
    · have hpwr : a.pwr = { State.reset.chip.pwr with
          dom := a.pwr.dom, reqs := a.pwr.reqs, refused := c.pwr.refused % 2, onCrystal := c.pwr.onCrystal, ioHigh := c.pwr.ioHigh, aon := aonRuns c } := by
        rw [ha]
        rfl
      rw [hnone] at hpwr
      exact hpwr
  · rw [not_or, not_or] at hoff
    obtain ⟨haon, h1, h2⟩ := hoff
    rw [sameReg, hregs, ha, asReset_reg c reached cause pccInc h1 h2, if_neg haon, reg_reset]
  · rw [not_or, Bool.not_eq_false] at hoff
    have h1 : off ≠ 0x10004 := fun h => absurd (h ▸ hoff.1) (by decide)
    have h2 : off ≠ 0x18000 := fun h => absurd (h ▸ hoff.1) (by decide)
    rw [sameReg, hregs, ha, asReset_reg c reached cause pccInc h1 h2, if_pos hoff.1]

/-- PWR_RAIL_STAT and the events of the core rails after a reset. -/
theorem warmReset_rails (c : Chip) (reached : Nat) (cause : List Nat) (pccInc : Bool) {t : Chip} (ht : t = warmReset c reached cause pccInc) :
    reg t 0x10000 = reg c 0x10000 ∧ fld t 0x10004 1 3 = fld c 0x10004 1 3 ∧ fld t 0x10004 0 1 = 0 ∧ fld t 0x10004 4 28 = 0 := by
  obtain ⟨x, hx⟩ := warmReset_pwr c reached cause pccInc
  obtain ⟨-, -, hkept, hlow, hhigh⟩ := asReset_fields c reached cause pccInc
  have hregs (off : Nat) : reg t off = reg (asReset c reached cause pccInc) off := by rw [ht, hx]; rfl
  refine ⟨?_, ?_, ?_, ?_⟩
  · rw [hregs, asReset_reg c reached cause pccInc (by decide) (by decide)]
    exact if_pos rfl
  · rw [fld, hregs, ← fld, hkept]
  · rw [fld, hregs, ← fld, hlow]
  · rw [fld, hregs, ← fld, hhigh]

/-! ## The two resets (R142) -/

/-- The node as a plain reset finds it: a node that is up has no cause of an earlier reset. -/
def fresh (c : Chip) : Chip := if c.mode.up then { c with mode := { c.mode with cause := [], pccInc := false } } else c

theorem plainReset_inReset (c : Chip) (k : Nat) {t : Chip} (ht : t = plainReset c k) :
    inReset c (causesWith c [k]) (!c.mode.up && c.mode.pccInc) t
      ∧ reg t 0x10000 = reg c 0x10000 ∧ fld t 0x10004 1 3 = fld c 0x10004 1 3 ∧ fld t 0x10004 0 1 = 0 ∧ fld t 0x10004 4 28 = 0 := by
  have hform : t = warmReset (fresh c) (freeReached c) [k] false := ht
  have hreset := warmReset_inReset _ _ _ _ hform
  have hrails := warmReset_rails _ _ _ _ hform
  rw [causesWith]
  cases hup : c.mode.up with
  | true =>
    have hfresh : fresh c = { c with mode := { c.mode with cause := [], pccInc := false } } := if_pos hup
    rw [hfresh] at hreset hrails
    exact ⟨hreset, hrails⟩
  | false =>
    have hfresh : fresh c = c := if_neg (by rw [hup]; decide)
    rw [hfresh, Bool.or_false] at hreset
    rw [hfresh] at hrails
    exact ⟨hreset, hrails⟩

/-- The request of domain 0 is first, and it fits. -/
theorem headReq_rtc {c : Chip} (hreqs : c.pwr.reqs = [domReq 0]) : headReq c = some (domReq 0) := by
  rw [headReq, headClass, hreqs]
  rfl

/-- A request of domain 0 is granted in the reset. -/
theorem pinReset_grants {c : Chip} (hwaits : dom c 0 = .waiting) (hreqs : c.pwr.reqs = [domReq 0]) {t : Chip} (ht : t = pinReset c) :
    dom t 0 = .waking ∧ t.pwr.reqs = [] := by
  obtain ⟨f, hf⟩ : ∃ f, f = fresh c := ⟨_, rfl⟩
  have hpwr : f.pwr = c.pwr := by
    rw [hf, fresh]
    split <;> rfl
  obtain ⟨a, ha⟩ : ∃ a, a = asReset f (freeReached c) [2] false := ⟨_, rfl⟩
  have hform : t = grantAll 40 a := by
    rw [ht, ha, ← warmReset_eq, hf]
    rfl
  have hareqs : a.pwr.reqs = [domReq 0] := by
    have hfilter : a.pwr.reqs = f.pwr.reqs.filter fun r => r.dom == 0 := by rw [ha]; rfl
    rw [hfilter, hpwr, hreqs]
    rfl
  have hdom (n : Nat) : dom a n = if n = 0 then .waiting else .off := by
    rw [ha, asReset_dom, dom, hpwr, ← dom, hwaits]
  have hcommitted : committed a = 2 := by
    have hsurges : a.pwr.surges = [] := by rw [ha]; rfl
    have hnone : ∀ n ∈ List.range 30, domCharge n (dom a n) = 0 := by
      intro n _
      rw [hdom]
      split <;> rfl
    rw [committed, hsurges, List.map_congr_left hnone]
    rfl
  have hbudget : budget a = 1600 := by
    rw [budget, fld, ha, asReset_reg f _ _ _ (by decide) (by decide), if_neg (by decide)]
    decide +kernel
  have hfits : fits a (domReq 0) = true := by
    have hcls : (domReq 0).cls = 1 := rfl
    rw [fits, hcommitted, hbudget]
    exact (if_pos hcls).trans (by decide)
  obtain ⟨g, hg⟩ : ∃ g, g = grant a (domReq 0) := ⟨_, rfl⟩
  have hgrant : g = setDom (dropReq a (.domain 0)) 0 .waking := by
    rw [hg]
    rfl
  have hgreqs : g.pwr.reqs = [] := by
    have hdrop : g.pwr.reqs = a.pwr.reqs.filter fun r => r.op != .domain 0 := by rw [hgrant]; rfl
    rw [hdrop, hareqs]
    rfl
  have hstep : t = g := by
    rw [hform, grantAll, headReq_rtc hareqs]
    dsimp only
    rw [if_pos hfits, ← hg, grantAll_none _ hgreqs]
  rw [hstep]
  refine ⟨?_, hgreqs⟩
  rw [hgrant]
  exact smGet_smPut_self domDef (dropReq a (.domain 0)).pwr.dom 0 .waking

/-! NODE_RESET. -/

def nodeResetRow : RegDesc := reg1 "NODE_RESET" 0x10C [fd 0 16 .wo 0]

theorem findReg_nodeReset : findReg 0x10C = some nodeResetRow := by decide +kernel

/-- A keeper's write of NODE_RESET of some byte does what its action does. -/
theorem nodeResetWrite_keeper {c : Chip} {v : Word} {be : BitVec 4} (hmask : maskOfBytes (writeBytes v be) ≠ 0) : ∃ x,
    nodeResetWrite c keeper v be = hookNodeReset
        { fn := 0, off := 0x10C, old := reg c 0x10C, now := x, data := dataOf (writeBytes v be),
          mask := effMask 0 nodeResetRow.fields (maskOfBytes (writeBytes v be)), badCode := false, pair := none } (setReg c 0x10C x) := by
  refine ⟨BitVec.ofNat 32 (regAfter 0 nodeResetRow.fields (reg c 0x10C).toNat (dataOf (writeBytes v be)) (maskOfBytes (writeBytes v be))), ?_⟩
  obtain ⟨data, hdata⟩ : ∃ data, data = dataOf (writeBytes v be) := ⟨_, rfl⟩
  obtain ⟨mask, hm⟩ : ∃ mask, mask = maskOfBytes (writeBytes v be) := ⟨_, rfl⟩
  rw [nodeResetWrite, writeWord, ← hdata, ← hm, writeReg, storeReg, if_neg (hm ▸ hmask)]
  simp only [reachWrite, findReg_nodeReset, storeDefined]
  rfl

/-- The bytes enabled of KEY. -/
theorem keyMask : ∀ be : BitVec 4, (be.getLsbD 0 = true ∧ be.getLsbD 1 = true ↔ effMask 0 nodeResetRow.fields (maskOfBytes (writeBytes 0 be)) % 65536 = 65535) := by
  decide +kernel

/-- KEY of a write with both its bytes enabled. -/
theorem keyData {v : Word} {be : BitVec 4} (h : be.getLsbD 0 = true ∧ be.getLsbD 1 = true) : natBits (dataOf (writeBytes v be)) 0 16 = v.toNat % 65536 := by
  have hbytes : dataOf (writeBytes v be) = leNat [(if be.getLsbD 0 then some (BitVec.ofNat 8 (v.toNat / 256 ^ 0)) else none).getD 0,
      (if be.getLsbD 1 then some (BitVec.ofNat 8 (v.toNat / 256 ^ 1)) else none).getD 0,
      (if be.getLsbD 2 then some (BitVec.ofNat 8 (v.toNat / 256 ^ 2)) else none).getD 0,
      (if be.getLsbD 3 then some (BitVec.ofNat 8 (v.toNat / 256 ^ 3)) else none).getD 0] := rfl
  rw [hbytes, (natBits_halves _ _ _ _).1, h.1, h.2, if_pos rfl, if_pos rfl, Option.getD_some, Option.getD_some, BitVec.toNat_ofNat, BitVec.toNat_ofNat]
  omega

theorem nodeResetWrite_resets {c : Chip} {v : Word} {be : BitVec 4} (hkey : v.toNat % 65536 = 0x4E52) (hbe : be.getLsbD 0 = true ∧ be.getLsbD 1 = true) :
    ∃ x, nodeResetWrite c keeper v be = plainReset (setReg c 0x10C x) 3 := by
  have hmask : effMask 0 nodeResetRow.fields (maskOfBytes (writeBytes v be)) % 65536 = 65535 := by
    rw [maskOfBytes_writeBytes]
    exact (keyMask be).mp hbe
  have hne : maskOfBytes (writeBytes v be) ≠ 0 := by
    intro h
    rw [h] at hmask
    exact absurd hmask (by decide)
  obtain ⟨x, hx⟩ := nodeResetWrite_keeper hne (c := c) (v := v)
  exact ⟨x, hx.trans (if_pos ⟨rfl, hmask, (keyData hbe).trans hkey⟩)⟩

theorem nodeResetWrite_ignored {c : Chip} {v : Word} {be : BitVec 4} (hkey : v.toNat % 65536 ≠ 0x4E52 ∨ be.getLsbD 0 = false ∨ be.getLsbD 1 = false) :
    Touches [] (regAt 0x10C) c (nodeResetWrite c keeper v be) := by
  by_cases hne : maskOfBytes (writeBytes v be) = 0
  · have hform : nodeResetWrite c keeper v be = c := by
      rw [nodeResetWrite, writeWord, hne, writeReg, storeReg, if_pos rfl]
      rfl
    rw [hform]
    exact .refl _ _ c
  · obtain ⟨x, hx⟩ := nodeResetWrite_keeper hne (c := c)
    rw [hx, hookNodeReset, if_neg ?_]
    · exact (Touches.refl _ _ c).setReg _ (by simp [regAt])
    · rintro ⟨-, hmask, hval⟩
      dsimp only at hmask
      rw [maskOfBytes_writeBytes, ← keyMask] at hmask
      have hdata : v.toNat % 65536 = 0x4E52 := (keyData hmask).symm.trans hval
      rcases hkey with hkey | hkey | hkey
      · exact hkey hdata
      · rw [hmask.1] at hkey
        exact absurd hkey (by decide)
      · rw [hmask.2] at hkey
        exact absurd hkey (by decide)

theorem nodeResetWrite_denied {c : Chip} {fn : Fn} {v : Word} {be : BitVec 4} (hfn : fn ≠ 0) {t : Chip} (ht : t = nodeResetWrite c fn v be) :
    t.mode = c.mode ∧ Changes [] (regAt (0x30100 + (fn.val - 1) * 0x20)) c t := by
  have hne : fn.val ≠ 0 := fun h => hfn (Fin.ext h)
  by_cases hmask : maskOfBytes (writeBytes v be) = 0
  · have hform : t = c := by
      rw [ht, nodeResetWrite, writeWord, hmask, writeReg, storeReg, if_pos rfl]
      rfl
    rw [hform]
    exact ⟨rfl, (Touches.refl [] noReg c).changes (by simp) (by simp) fun _ h => absurd h Bool.false_ne_true⟩
  · have hreach : reachWrite c fn.val 0x10C = false := by
      rw [reachWrite, if_neg hne]
      rfl
    have hform : t = deny c fn.val 0x10C := by
      rw [ht, nodeResetWrite, writeWord, writeReg, storeReg, if_neg hmask, hreach]
      rfl
    obtain ⟨-, -, hchanges⟩ := deny_leaves hne fn.isLt _ hform
    exact ⟨hchanges.parts .mode (by decide), hchanges⟩

/-- A register of no account before a reset. -/
theorem inReset_of_setReg {c t : Chip} {x : Word} {cause : List Nat} {pccInc : Bool} (h : inReset (setReg c 0x10C x) cause pccInc t) :
    inReset c cause pccInc t := by
  obtain ⟨hparts, hmode, hot, hrtc, hcorr, hjtag, hhost, htrips, hnvm, hpwr, hsrc, hrest, hdef, haon⟩ := h
  refine ⟨hparts, hmode, hot, hrtc, hcorr, hjtag, hhost, htrips, hnvm, hpwr, ?_, hrest, hdef, fun off hoff => ?_⟩
  · rw [hsrc, fld_setReg_other _ _ _ _ _ _ (by decide)]
  · refine (haon off hoff).trans (reg_setReg_other _ _ _ _ fun he => hoff (.inl ?_))
    rw [he]
    decide

/-- Settles O18: what the two resets keep and what they reset, and the writes that start none. -/
theorem resetsComplete : Obligations.ResetsComplete := by
  unfold Obligations.ResetsComplete
  refine ⟨fun s => ⟨_, rfl, rfl, plainReset_inReset s.chip 2 rfl⟩, fun s v be hkey hbe => ⟨_, rfl, rfl, ?_⟩,
    fun s v be hkey => ⟨_, rfl, rfl, nodeResetWrite_ignored hkey⟩, fun s fn v be hfn => ⟨_, rfl, rfl, nodeResetWrite_denied hfn rfl⟩,
    fun s hwaits hreqs => ⟨_, rfl, rfl, pinReset_grants hwaits hreqs rfl⟩⟩
  obtain ⟨x, hx⟩ := nodeResetWrite_resets (c := s.chip) hkey hbe
  have hreset := plainReset_inReset (setReg s.chip 0x10C x) 3 hx
  obtain ⟨hin, hstat, hcore, hlow, hhigh⟩ := hreset
  rw [reg_setReg_other _ _ _ _ (by decide)] at hstat
  rw [fld_setReg_other _ _ _ _ _ _ (by decide)] at hcore
  exact ⟨inReset_of_setReg hin, hstat, hcore, hlow, hhigh⟩

end Sys2Proof.Machine
end

section
-- One proof at a time: every thread takes a stack of its own from the memory that a compile has.
set_option Elab.async false
/-! SUPPORT. What an output applied to its cell or leg changes, the step of a cell that waits for leave included (R495, R503 to R508, R529). -/

namespace Sys2Proof.Machine

/-- The parts that the application of an output may change. -/
def outParts : List Part := [.hostMem, .fns, .rcd, .diag, .sdl, .points, .cells, .legs, .pwr]

/-- The registers that it may change: those of reports, of the cells, whatever their number, and the states of the legs. -/
def outReg (off : Nat) : Bool :=
  reportReg off || (decide (0x100100 ≤ off) && (decide (off % 0x10000 < 0x500) || off % 0x40 == 0x14))

/-- Only what the application of an output may change differs. -/
abbrev OutStep (a b : Chip) : Prop := Touches outParts outReg a b

theorem Reports.outStep {a b : Chip} (h : Reports a b) : OutStep a b := by
  refine ⟨onlyParts_mono h.parts fun p hp => ?_, onlyRegs_mono h.regs fun off ho => ?_⟩
  · revert p
    decide
  · rw [outReg, ho, Bool.true_or]

theorem outReg_cell (ch : Nat) {k : Nat} (hk : k < 0x40) : outReg (cellBase ch + k) = true := by
  rw [outReg, cellBase, Bool.or_eq_true, Bool.and_eq_true, Bool.or_eq_true, decide_eq_true_eq, decide_eq_true_eq]
  refine .inr ⟨by omega, .inl ?_⟩
  omega

theorem outReg_leg (n : Nat) : outReg (legStat n) = true := by
  rw [outReg, legStat, legBase, Bool.or_eq_true, Bool.and_eq_true, Bool.or_eq_true, decide_eq_true_eq, beq_iff_eq]
  refine .inr ⟨by omega, .inr ?_⟩
  omega

namespace OutStep

theorem refl (c : Chip) : OutStep c c := Touches.refl _ _ c

theorem setPoint (c : Chip) (p : Nat) (e : PtEnt) : OutStep c (Machine.setPoint c p e) := (refl c).part (.points _ _) (by decide)

theorem modCell (c : Chip) (ch : Nat) (f : LoopCell → LoopCell) : OutStep c (Machine.modCell c ch f) := (refl c).part (.cells _ _) (by decide)

theorem setCell (c : Chip) (ch : Nat) (x : LoopCell) : OutStep c (Machine.setCell c ch x) := (refl c).part (.cells _ _) (by decide)

theorem modLeg (c : Chip) (n : Nat) (f : LegSt → LegSt) : OutStep c (Machine.modLeg c n f) := (refl c).part (.legs _ _) (by decide)

theorem withPwr (c : Chip) (x : PwrSt) : OutStep c { c with pwr := x } := (refl c).part (.pwr _ _) (by decide)

theorem cellFld (c : Chip) (ch : Nat) {k : Nat} (hk : k < 0x40) (lo w x : Nat) : OutStep c (setFld c (cellBase ch + k) lo w x) :=
  (refl c).setFld _ _ _ (outReg_cell ch hk)

theorem cellFlag (c : Chip) (ch : Nat) {k : Nat} (hk : k < 0x40) (i : Nat) (b : Bool) : OutStep c (setFlag c (cellBase ch + k) i b) :=
  (refl c).setFlag _ _ (outReg_cell ch hk)

theorem statFlag (c : Chip) (ch i : Nat) (b : Bool) : OutStep c (setFlag c (cellStat ch) i b) := cellFlag c ch (by decide) i b

theorem refreshWord (c : Chip) (ch : Nat) : OutStep c (Machine.refreshWord c ch) := by
  unfold Machine.refreshWord
  split
  · exact refl c
  · exact setPoint c _ _

/-! A cell that goes to OPEN, and leave for the step of a cell. -/

theorem endFsk (c : Chip) (ch status : Nat) : OutStep c (Machine.endFsk c ch status) := by
  unfold Machine.endFsk
  split
  · refine Touches.trans ?_ (Reports.outStep ((Reports.refl _).completeWhere _ _))
    exact (modCell c ch _).trans (cellFlag _ ch (by decide) 1 false)
  · exact refl c

theorem endForced (c : Chip) (ch : Nat) : OutStep c (Machine.endForced c ch) := by
  unfold Machine.endForced
  dsimp only
  split
  · exact (statFlag c ch 13 false).trans (setPoint _ _ _)
  · exact statFlag c ch 13 false

theorem cellToOpen (c : Chip) (ch : Nat) : OutStep c (Machine.cellToOpen c ch) :=
  (((cellFld c ch (by decide) 0 2 0).trans (endForced _ ch)).trans (endFsk _ ch _)).trans (cellFlag _ ch (by decide) 0 false)

theorem stepBegins (c : Chip) (ch : Nat) : OutStep c (Machine.stepBegins c ch) := by
  unfold Machine.stepBegins
  split
  · exact .ite (refl c) (cellToOpen c ch)
  · exact refl c

theorem grant (c : Chip) (r : LeaveReq) : OutStep c (Machine.grant c r) := by
  obtain ⟨d, hd⟩ : ∃ d, d = (if r.surge = 0 then dropReq c r.op
    else { (dropReq c r.op) with pwr := { (dropReq c r.op).pwr with surges := (dropReq c r.op).pwr.surges ++ [⟨r.op, r.dom, r.surge⟩] } }) := ⟨_, rfl⟩
  have hpwr : OutStep c d := by
    rw [hd]
    exact .ite (withPwr c _) ((withPwr c _).trans (withPwr _ _))
  rw [Machine.grant]
  dsimp only
  rw [← hd]
  split
  · exact hpwr.trans (withPwr d _)
  · exact hpwr.trans (stepBegins d _)
  · exact hpwr

theorem grantAll (n : Nat) (c : Chip) : OutStep c (Machine.grantAll n c) := by
  induction n generalizing c with
  | zero => exact refl c
  | succ n ih =>
    rw [Machine.grantAll]
    split
    · split
      · exact (grant c _).trans (ih _)
      · exact refl c
    · exact refl c

theorem requestOp (c : Chip) (r : LeaveReq) : OutStep c (Machine.requestOp c r) :=
  ((withPwr c _).trans (withPwr (dropReq c r.op) _)).trans (grantAll 40 _)

/-! The application to a cell. -/

theorem reenter (c : Chip) (ch : Nat) : OutStep c (Machine.reenter c ch) := by
  unfold Machine.reenter
  dsimp only
  split
  · exact refl c
  · exact (setCell c ch _).trans (requestOp _ _)

theorem restartWatchdog (c : Chip) (ch : Nat) : OutStep c (Machine.restartWatchdog c ch) := by
  unfold Machine.restartWatchdog
  dsimp only
  split
  · exact (statFlag c ch 1 false).trans (reenter _ ch)
  · exact statFlag c ch 1 false

theorem drive (c : Chip) (ch d : Nat) : OutStep c (Machine.drive c ch d) := by
  unfold Machine.drive
  exact modCell c ch _

theorem writeBack (c : Chip) (ch d qual fl : Nat) : OutStep c (Machine.writeBack c ch d qual fl) := by
  unfold Machine.writeBack
  dsimp only
  split
  · exact refl c
  · exact ((modCell c ch _).trans (setPoint _ _ _)).trans (refreshWord _ ch)

theorem applyCell (c : Chip) (ch : Nat) : OutStep c (Machine.applyCell c ch) := by
  unfold Machine.applyCell
  dsimp only
  split
  · exact refl c
  · have hstart := restartWatchdog c ch
    split
    · refine Touches.trans ?_ (writeBack _ ch _ _ _)
      refine Touches.trans ?_ (drive _ ch _)
      exact ((hstart.trans (statFlag _ ch 13 true)).trans (statFlag _ ch 0 false)).trans (modCell _ ch _)
    · split
      · exact (hstart.trans (statFlag _ ch 0 true)).trans (writeBack _ ch _ _ _)
      · refine Touches.trans ?_ (writeBack _ ch _ _ _)
        refine Touches.trans ?_ (drive _ ch _)
        exact (hstart.trans (modCell _ ch _)).trans (statFlag _ ch 0 false)

/-! The application to a leg. -/

theorem legWrite (c : Chip) (n : Nat) (d : Int) (qual fl : Nat) : OutStep c (Machine.legWrite c n d qual fl) := by
  unfold Machine.legWrite
  dsimp only
  split
  · exact refl c
  · exact setPoint c _ _

theorem setDuty (c : Chip) (n : Nat) (d : Int) : OutStep c (Machine.setDuty c n d) := by
  unfold Machine.setDuty
  exact Touches.foldl _ _ (fun c k _ => modLeg c k _) c

theorem applyDuty (c : Chip) (n : Nat) (d : Int) (qual : Nat) (clamped : Bool) : OutStep c (Machine.applyDuty c n d qual clamped) := by
  unfold Machine.applyDuty
  dsimp only
  split
  · exact ((setDuty c n d).trans (legWrite _ _ _ _ _)).trans (legWrite _ _ _ _ _)
  · exact (setDuty c n d).trans (legWrite _ _ _ _ _)

theorem legFlag (c : Chip) (n i : Nat) (b : Bool) : OutStep c (setFlag c (legStat n) i b) := (refl c).setFlag _ _ (outReg_leg n)

theorem applyLeg (c : Chip) (n : Nat) : OutStep c (Machine.applyLeg c n) := by
  unfold Machine.applyLeg
  split
  · exact refl c
  · obtain ⟨d, hd⟩ : ∃ d, d = (legsApplied c n).foldl (fun c k => Machine.modLeg c k fun x => { x with fresh := some c.ot }) c := ⟨_, rfl⟩
    have hfresh : OutStep c d := by
      rw [hd]
      exact Touches.foldl _ _ (fun c k _ => modLeg c k _) c
    dsimp only
    rw [← hd]
    split
    · exact (hfresh.trans (legFlag d n 2 true)).trans (applyDuty _ n _ _ _)
    · exact (hfresh.trans (legFlag d n 2 false)).trans (applyDuty _ n _ _ _)

theorem applyPoint (c : Chip) (p : Nat) : OutStep c (Machine.applyPoint c p) := by
  unfold Machine.applyPoint
  exact .ite (applyCell c _) (.ite (applyLeg c _) (refl c))

theorem demandPoint (c : Chip) (p w : Nat) : OutStep c (Machine.demandPoint c p w) := by
  unfold Machine.demandPoint setDemand setLegDemand
  exact .ite ((modCell c _ _).trans (refreshWord _ _)) (.ite (modLeg c _ _) (refl c))

theorem writeLive (c : Chip) (p word flags : Nat) : OutStep c (Machine.writeLive c p word flags) := by
  unfold Machine.writeLive
  dsimp only
  exact .ite (refl c) (.ite (setPoint c _ _) (setPoint c _ _))

end OutStep

/-! ## Injections and captures (R663 to R673) -/

/-- Only what the capture buffers and their injections change differs. -/
abbrev TuneStep (a b : Chip) : Prop := Touches [.tune, .tables, .free] (regIn 0x154000 0x154080) a b

theorem injecting_lt {c : Chip} {l n : Nat} (h : n ∈ injecting c l) : n < 4 := List.mem_range.mp (List.mem_filter.mp h).1

theorem capturing_lt {c : Chip} {l n : Nat} (h : n ∈ capturing c l) : n < 4 := List.mem_range.mp (List.mem_filter.mp h).1

theorem tuneReg_in {n k : Nat} (hn : n < 4) (hk : k < 0x20) : regIn 0x154000 0x154080 (tuneBase n + k) = true := by
  rw [regIn_iff, tuneBase]
  omega

namespace TuneStep

theorem refl (c : Chip) : TuneStep c c := Touches.refl _ _ c

theorem tune (c : Chip) (n : Nat) (x : TuneSt) : TuneStep c (Machine.setTune c n x) := (refl c).part (.tune _ _) (by decide)

theorem tables (c : Chip) (x : SMap Byte) : TuneStep c { c with tables := x } := (refl c).part (.tables _ _) (by decide)

theorem takeFree (c : Chip) : TuneStep c (Machine.takeFree c) := (refl c).part (.free _ _) (by decide)

theorem statFld (c : Chip) {n : Nat} (hn : n < 4) (lo w x : Nat) : TuneStep c (setFld c (tuneBase n) lo w x) :=
  (refl c).setFld _ _ _ (tuneReg_in (k := 0) hn (by decide))

theorem statFlag (c : Chip) {n : Nat} (hn : n < 4) (i : Nat) (x : Bool) : TuneStep c (setFlag c (tuneBase n) i x) := statFld c hn i 1 _

theorem cutInj (c : Chip) {n : Nat} (hn : n < 4) : TuneStep c (Machine.cutInj c n) := ((statFlag c hn 5 false).trans (statFlag _ hn 6 true)).trans (tune _ n _)

theorem cutDue (c : Chip) (k : Nat) (all : Bool) : TuneStep c (Machine.cutDue c k all) :=
  Touches.foldl _ _ (fun d _ hn => cutInj d (injecting_lt (List.mem_filter.mp hn).1)) c

theorem injValue (c : Chip) (n : Nat) : TuneStep c (Machine.injValue c n).2 := by
  unfold Machine.injValue
  dsimp only
  split
  · exact tune c n _
  · exact tune c n _
  · exact (tune c n _).trans (takeFree _)
  · exact (tune c n _).trans (takeFree _)

theorem injDone (c : Chip) {n : Nat} (hn : n < 4) : TuneStep c (Machine.injDone c n) := by
  unfold Machine.injDone
  exact .ite (statFlag c hn 5 false) (refl c)

theorem injValues (c : Chip) {bs : List Nat} (hbs : ∀ n ∈ bs, n < 4) : TuneStep c (Machine.injValues c bs).2 := by
  have hall (vs : List (Nat × Nat × Int)) : TuneStep c (bs.foldl (fun r b => ((r.1 ++ [(b, cfgIpoint (tuneSt (Machine.injValue r.2 b).2 b).cfg,
      (Machine.injValue r.2 b).1)], Machine.injDone (Machine.injValue r.2 b).2 b) : List (Nat × Nat × Int) × Chip)) (vs, c)).2 := by
    induction bs generalizing c vs with
    | nil => exact refl c
    | cons x xs ih =>
      exact ((injValue c x).trans (injDone _ (hbs x List.mem_cons_self))).trans (ih _ (fun n hn => hbs n (List.mem_cons_of_mem _ hn)) _)
  exact hall []

theorem beginInj (c : Chip) {n : Nat} (hn : n < 4) : TuneStep c (Machine.beginInj c n) := by
  unfold Machine.beginInj
  exact .ite (refl c) ((tune c n _).trans (statFlag _ hn 5 true))

theorem captureTrigger (c : Chip) {n : Nat} (hn : n < 4) (xv xPrev e : Int) : TuneStep c (Machine.captureTrigger c n xv xPrev e) := by
  unfold Machine.captureTrigger
  exact .ite (((statFld c hn 0 2 2).setReg _ (tuneReg_in (k := 4) hn (by decide))).trans (beginInj _ hn)) (refl c)

theorem endCapture (c : Chip) {n : Nat} (hn : n < 4) (code : Nat) : TuneStep c (Machine.endCapture c n code) :=
  (statFld c hn 0 2 3).trans (statFld _ hn 2 3 code)

theorem tuneEval (c : Chip) {n : Nat} (hn : n < 4) (sample : Option Nat) : TuneStep c (Machine.tuneEval c n sample) := by
  unfold Machine.tuneEval
  dsimp only
  split
  · exact tune c n _
  · obtain ⟨m, hm⟩ : ∃ m, m = memWrite tblDef c.tables (tuneMem n + (tuneSt c n).taken % cfgSamples (tuneSt c n).cfg * 4)
      (natLe 4 (sample.getD (tuneSt c n).lastSample)) := ⟨_, rfl⟩
    rw [← hm]
    obtain ⟨d, hd⟩ : ∃ d, d = (if sample.isNone then countFld { c with tables := m } (tuneBase n) 16 16 else { c with tables := m }) := ⟨_, rfl⟩
    have hstore : TuneStep c d := by
      rw [hd]
      exact .ite ((tables c m).trans (statFld _ hn 16 16 _)) (tables c m)
    rw [← hd]
    obtain ⟨post, hpost⟩ : ∃ post, post = (if tuneState c n = 2 then (tuneSt c n).post + 1 else 0) := ⟨_, rfl⟩
    rw [← hpost]
    have hcount (v : Nat) (x : TuneSt) : TuneStep c (setFld (Machine.setTune d n x) (tuneBase n + 8) 0 17 v) :=
      (hstore.trans (tune d n x)).setFld 0 17 _ (tuneReg_in hn (by decide))
    exact .ite ((hcount _ _).trans (endCapture _ hn 1)) (hcount _ _)

end TuneStep

/-! ## An evaluation (R626, R657) -/

/-- The parts that an evaluation may change. -/
def evalParts : List Part := outParts ++ [.loops, .tune, .tables, .free]

/-- Only what an evaluation may change differs, and of loop `l` the manual output, the mode and that it is to start stand. -/
structure EvalStep (l : Nat) (a b : Chip) : Prop where
  parts : Touches evalParts (fun _ => true) a b
  manual : reg b (loopBase l + 0x1C) = reg a (loopBase l + 0x1C)
  auto : loopAuto b l = loopAuto a l
  fresh : (loopSt b l).fresh = (loopSt a l).fresh

namespace EvalStep

variable {l : Nat} {a b c : Chip}

theorem refl (l : Nat) (c : Chip) : EvalStep l c c := ⟨.refl _ _ c, rfl, rfl, rfl⟩

theorem trans (h : EvalStep l a b) (k : EvalStep l b c) : EvalStep l a c :=
  ⟨h.parts.trans k.parts, k.manual.trans h.manual, k.auto.trans h.auto, k.fresh.trans h.fresh⟩

/-- A register other than those of the loop's mode and manual output. -/
theorem setReg (h : EvalStep l a b) {off : Nat} (v : Word) (h1 : loopBase l + 0x1C ≠ off) (h2 : loopStat l ≠ off) : EvalStep l a (Machine.setReg b off v) := by
  refine h.trans ⟨(Touches.refl _ _ b).setReg v rfl, reg_setReg_other _ _ _ _ h1, ?_, rfl⟩
  rw [loopAuto, flag, fld_setReg_other _ _ _ _ _ _ h2, loopAuto, flag]

theorem setFld (h : EvalStep l a b) {off : Nat} (lo w x : Nat) (h1 : loopBase l + 0x1C ≠ off) (h2 : loopStat l ≠ off) :
    EvalStep l a (Machine.setFld b off lo w x) := h.setReg _ h1 h2

/-- The state of the loop but for its mode. -/
theorem statFld (h : EvalStep l a b) {lo w : Nat} (x : Nat) (hw : lo + w ≤ 32) (hlo : 1 ≤ lo) : EvalStep l a (Machine.setFld b (loopStat l) lo w x) := by
  refine h.trans ⟨(Touches.refl _ _ b).setFld _ _ _ rfl, reg_setFld_other _ _ _ _ _ _ (by rw [loopStat]; omega), ?_, rfl⟩
  exact flag_setFld_bit _ _ _ _ _ _ hw (.inl hlo)

theorem out (hl : l < 128) (h : OutStep a b) : EvalStep l a b := by
  have hquiet {k : Nat} (hk : k = 0 ∨ k = 0x1C) : outReg (loopBase l + k) = false := by
    have hrep := loopReg_quiet (k := k) hl (by omega)
    rw [outReg, hrep, Bool.false_or, Bool.and_eq_false_iff, decide_eq_false_iff_not, Bool.or_eq_false_iff, decide_eq_false_iff_not, beq_eq_false_iff_ne, loopBase]
    omega
  refine ⟨h.mono (fun p hp => List.mem_append_left _ hp) fun _ _ => rfl, h.reg (hquiet (.inr rfl)), ?_, ?_⟩
  · have hstat : reg b (loopStat l) = reg a (loopStat l) := h.reg (hquiet (k := 0) (.inl rfl))
    rw [loopAuto, flag, fld, hstat, loopAuto, flag, fld]
  · rw [loopSt, show b.loops = a.loops from h.same .loops (by decide) (by decide), loopSt]

theorem setLoop (h : EvalStep l a b) {x : LoopSt} (hx : x.fresh = (loopSt b l).fresh) : EvalStep l a (Machine.setLoop b l x) := by
  refine h.trans ⟨(Touches.refl _ _ b).part (.loops _ _) (by decide), rfl, rfl, ?_⟩
  rw [loopSt, Machine.setLoop, smGet_smPut_self, hx]

/-- What the capture buffers change concerns no loop's registers. -/
theorem tune (hl : l < 128) (h : TuneStep a b) : EvalStep l a b := by
  have hfree {k : Nat} (hk : k < 0x40) : regIn 0x154000 0x154080 (loopBase l + k) = false := by
    rw [← Bool.not_eq_true, regIn_iff, loopBase]
    omega
  have hstat : reg b (loopStat l) = reg a (loopStat l) := h.reg (hfree (k := 0) (by decide))
  refine ⟨h.mono (by decide) fun _ _ => rfl, h.reg (hfree (by decide)), ?_, ?_⟩
  · rw [loopAuto, flag, fld, hstat, loopAuto, flag, fld]
  · rw [loopSt, show b.loops = a.loops from h.same .loops (by decide) (by decide), loopSt]

/-! The output. -/

theorem word (h : EvalStep l a b) (w : Nat) : EvalStep l a (modLoop b l fun x => { x with word := w }) := h.setLoop rfl

theorem loopWrite (hl : l < 128) (c : Chip) (w fl : Nat) (chain : Bool) : EvalStep l c (Machine.loopWrite c l w fl chain) := by
  have hstart : EvalStep l c (modLoop (writeLive c (loopPt l) w fl) l fun x => { x with word := w }) := (out hl (.writeLive c _ _ _)).word w
  unfold Machine.loopWrite
  dsimp only
  split
  · refine hstart.setReg _ ?_ ?_
    · rw [loopBase, loopBase]
      omega
    · rw [loopStat, loopBase, loopBase]
      omega
  · split
    · obtain ⟨d, hd⟩ : ∃ d, d = (if (point (modLoop (writeLive c (loopPt l) w fl) l fun x => { x with word := w }) (outPoint c l)).subst = true
          then modLoop (writeLive c (loopPt l) w fl) l fun x => { x with word := w }
          else demandPoint (writeLive (modLoop (writeLive c (loopPt l) w fl) l fun x => { x with word := w }) (outPoint c l) w fl) (outPoint c l) w) := ⟨_, rfl⟩
      have hdemand : EvalStep l c d := by
        rw [hd]
        split
        · exact hstart
        · exact hstart.trans (out hl ((OutStep.writeLive _ _ _ _).trans (OutStep.demandPoint _ _ _)))
      rw [← hd]
      split
      · exact hdemand.trans (out hl (.applyPoint d _))
      · exact hdemand
    · exact hstart

theorem holdEval (hl : l < 128) (c : Chip) (chain : Bool) : EvalStep l c (Machine.holdEval c l chain) := by
  unfold Machine.holdEval
  dsimp only
  refine EvalStep.trans ?_ (loopWrite hl _ _ _ chain)
  exact ((tune hl (.cutDue c l false)).statFld (lo := 1) 2 (by decide) (by decide)).setLoop rfl

/-- The evaluation proper: what it writes of the loop lies outside its mode and its manual output. -/
theorem evalFrom (hl : l < 128) (c : Chip) (pvw : Nat) (bad shedNow chain : Bool) : EvalStep l c (Machine.evalFrom c l pvw bad shedNow chain) := by
  unfold Machine.evalFrom
  extract_lets pv st kind spw spBad rate sptrk direct cut c1 on caps uMin uMax held um
  have h1 : EvalStep l c c1 := tune hl (.cutDue c l cut)
  split
  next xq xsat _ =>
  extract_lets x err xPrev
  split
  next tq tsat _ =>
  extract_lets tsp sp formE inclamp
  split
  next v0 c2 hv0 =>
  have h2 : EvalStep l c c2 := h1.trans (tune hl (by simpa only [hv0] using TuneStep.injValues c1 (bs := on) fun _ => injecting_lt))
  extract_lets c3
  have h3 : EvalStep l c c3 := h2.trans (tune hl ((Touches.foldl _ caps (fun d _ hb => TuneStep.captureTrigger d (capturing_lt hb) _ _ _) c2).trans (TuneStep.cutDue _ l cut)))
  split
  next v1 c4 hv1 =>
  have h4 : EvalStep l c c4 := h3.trans (tune hl (by simpa only [hv1] using TuneStep.injValues c3 (bs := List.filter (fun b => !on.contains b) (injecting c3 l)) fun _ hb => injecting_lt (List.mem_filter.mp hb).1))
  extract_lets inj spUsed e ePrev p de dRaw dAcc outInj di0
  split
  next frcg ffOff _ =>
  extract_lets ff acc0 vOld frz di iAuto u iAcc c5 c5b c6 c7 ifrz bitsOf c8 c9 q sig
  have h5 : EvalStep l c c5 := h4.setLoop h4.fresh.symm
  have h5b : EvalStep l c c5b := h5.setReg _ (by omega) (by rw [loopStat]; omega)
  have h6 : EvalStep l c c6 := h5b.setReg _ (by omega) (by rw [loopStat]; omega)
  have h7 : EvalStep l c c7 := (h6.setReg _ (by omega) (by rw [loopStat]; omega)).setReg _ (by omega) (by rw [loopStat]; omega)
  have h8 : EvalStep l c c8 := h7.statFld _ (by decide) (by decide)
  have h9 : EvalStep l c c9 := by
    unfold c9
    split
    · exact h8.setReg _ (by omega) (by rw [loopStat]; omega)
    · exact h8
  split
  next w fl _ =>
  exact (h9.trans (loopWrite hl c9 w fl chain)).trans (tune hl (Touches.foldl _ caps (fun d _ hb => TuneStep.tuneEval d (capturing_lt hb) _) _))

end EvalStep

/-! ## What becomes of a waiting evaluation -/

theorem beginLoop_touches (c : Chip) (l : Nat) : Touches evalParts (fun _ => true) c (beginLoop c l) := by
  unfold beginLoop
  dsimp only
  split
  · exact .refl _ _ c
  · exact ((((Touches.refl _ _ c).setFlag _ _ rfl).setReg _ rfl).setReg _ rfl).part (.loops _ _) (by decide)

theorem shed_touches (c : Chip) (l : Nat) : Touches evalParts (fun _ => true) c (shed c l) := by
  have hmanual : Touches evalParts (fun _ => true) c (toManual c l) := by
    unfold toManual
    refine .ite ?_ (.refl _ _ c)
    refine Touches.trans ?_ ((dueCut_keeps _ l).1.mono (by decide) fun _ _ => rfl)
    exact ((Touches.refl _ _ c).setFlag _ _ rfl).setReg _ rfl
  unfold shed
  exact .ite (.refl _ _ c) (.ite (hmanual.setReg _ rfl) hmanual)

/-- What an evaluation changes, and what it leaves of its cycles and of the run of misses. -/
theorem evaluate_leaves {c : Chip} {l : Nat} (hl : l < 128) (chain : Bool) (cycles : Nat) {t : Chip} (ht : t = evaluate c l chain cycles) :
    fld t (loopBase l + 4) 16 8 = 0 ∧ fld t (loopBase l + 0x20) 16 16 = min 65535 cycles ∧ Touches evalParts (fun _ => true) c t := by
  obtain ⟨d, hd⟩ : ∃ d, d = (if ((qw32Of (point (beginLoop c l) (pvPoint (beginLoop c l) l)).live).qual == 3 && badAct (beginLoop c l) l == 0) = true
      then holdEval (beginLoop c l) l chain
      else evalFrom (if ((qw32Of (point (beginLoop c l) (pvPoint (beginLoop c l) l)).live).qual == 3) = true then shed (beginLoop c l) l else beginLoop c l) l
        (point (beginLoop c l) (pvPoint (beginLoop c l) l)).live ((qw32Of (point (beginLoop c l) (pvPoint (beginLoop c l) l)).live).qual == 3)
        ((qw32Of (point (beginLoop c l) (pvPoint (beginLoop c l) l)).live).qual == 3 && loopAuto (beginLoop c l) l) chain) := ⟨_, rfl⟩
  have hform : t = setFld (setFld d (loopBase l + 4) 16 8 0) (loopBase l + 0x20) 16 16 (min 65535 cycles) := by
    rw [ht, evaluate, hd]
  have hcomp : Touches evalParts (fun _ => true) c d := by
    rw [hd]
    split
    · exact (beginLoop_touches c l).trans (EvalStep.holdEval hl _ chain).parts
    · refine Touches.trans ?_ (EvalStep.evalFrom hl _ _ _ _ chain).parts
      exact .ite ((beginLoop_touches c l).trans (shed_touches _ l)) (beginLoop_touches c l)
  rw [hform]
  refine ⟨?_, ?_, (hcomp.setFld _ _ _ rfl).setFld _ _ _ rfl⟩
  · rw [fld_setFld_other _ _ _ _ _ _ _ _ (by omega), fld_setFld_self _ _ _ _ _ (by decide)]
    rfl
  · rw [fld_setFld_self _ _ _ _ _ (by decide)]
    exact Nat.mod_eq_of_lt (by omega)

/-- The table memory in force is the same where the state of no table and no table memory differ. -/
theorem tbl_of_stats {a b : Chip} (htables : b.tables = a.tables) (hstat : ∀ d ∈ tableDescs, reg b d.stat = reg a d.stat) (code off n : Nat) :
    tbl b code off n = tbl a code off n := by
  have hbase : tblBase b code = tblBase a code := by
    unfold tblBase
    cases hd : tableDesc code with
    | none => rfl
    | some d =>
      have hact : activeCopy b d = activeCopy a d := by
        rw [activeCopy, fld, hstat d (List.mem_of_find?_eq_some hd), activeCopy, fld]
      simp only [hact]
  rw [tbl, tmem, hbase, htables, tbl, tmem]

theorem tableStat_noLoop : ∀ d ∈ tableDescs, ¬ (0x151000 ≤ d.stat ∧ d.stat < 0x153000) := by decide +kernel

/-- A loop that is to start: its first evaluation begins with INIT_OUT and INIT_AUTO. -/
theorem beginLoop_fresh {c : Chip} {l : Nat} (hl : l < 128) (hfresh : (loopSt c l).fresh = true) {t : Chip} (ht : t = beginLoop c l) :
    (loopSt t l).fresh = false ∧ reg t (loopBase l + 0x1C) = BitVec.ofNat 32 (lp c l 0x24 4)
      ∧ loopAuto t l = (loopFlag c l 3 && nodeMode c != mService) ∧ t.points = c.points ∧ pvPoint t l = pvPoint c l := by
  obtain ⟨auto, hauto⟩ : ∃ auto, auto = (loopFlag c l 3 && nodeMode c != mService) := ⟨_, rfl⟩
  obtain ⟨io, hio⟩ : ∃ io, io = lp c l 0x24 4 := ⟨_, rfl⟩
  obtain ⟨d, hd⟩ : ∃ d, d = setReg (setReg (setFlag c (loopStat l) 0 auto) (loopBase l + 0x1C) (BitVec.ofNat 32 io)) (loopBase l + 0x18)
    (BitVec.ofNat 32 (spConst c l)) := ⟨_, rfl⟩
  have hform : t = setLoop d l { loopDef l with uLast := outQ15 c l (qw32Of io), word := io, xfer := auto } := by
    rw [ht, beginLoop, hfresh, hd, hauto, hio]
    rfl
  rw [hform, ← hauto, ← hio]
  refine ⟨?_, ?_, ?_, ?_, ?_⟩
  · rw [loopSt, setLoop, smGet_smPut_self]
    rfl
  · show reg d (loopBase l + 0x1C) = _
    rw [hd, reg_setReg_other _ _ _ _ (by omega), reg_setReg_self]
  · show flag d (loopStat l) 0 = _
    rw [hd, flag, fld_setReg_other _ _ _ _ _ _ (by rw [loopStat]; omega), fld_setReg_other _ _ _ _ _ _ (by rw [loopStat]; omega)]
    exact flag_setFlag_self _ _ _ _ (by decide)
  · rw [hd]
    rfl
  · refine tbl_of_stats (by rw [hd]; rfl) (fun e he => ?_) _ _ _
    have hno := tableStat_noLoop e he
    show reg d e.stat = _
    rw [loopBase] at hd
    rw [hd, reg_setReg_other _ _ _ _ (by omega), reg_setReg_other _ _ _ _ (by omega), reg_setFlag_other _ _ _ _ _ (by rw [loopStat, loopBase]; omega)]

theorem qual_qw32Of (w : Nat) : (qw32Of w).qual = w % 4 := by
  rw [qw32Of]
  show natBits w 0 2 = w % 4
  rw [natBits, Nat.pow_zero, Nat.div_one, show 2 ^ 2 = 4 from by decide]

/-- The first evaluation of a loop whose PV is not bad. -/
theorem evaluate_fresh {c : Chip} {l : Nat} (hl : l < 128) (hfresh : (loopSt c l).fresh = true) (hgood : (point c (pvPoint c l)).live % 4 ≠ 3)
    (chain : Bool) (cycles : Nat) {t : Chip} (ht : t = evaluate c l chain cycles) :
    (loopSt t l).fresh = false ∧ reg t (loopBase l + 0x1C) = BitVec.ofNat 32 (lp c l 0x24 4)
      ∧ loopAuto t l = (loopFlag c l 3 && nodeMode c != mService) := by
  obtain ⟨c0, h0⟩ : ∃ c0, c0 = beginLoop c l := ⟨_, rfl⟩
  obtain ⟨hdone, hmanual, hauto, hpoints, hpv⟩ := beginLoop_fresh hl hfresh h0
  have hqual : ((qw32Of (point c0 (pvPoint c0 l)).live).qual == 3) = false := by
    rw [point, hpv, hpoints, ← point]
    exact beq_eq_false_iff_ne.mpr (by rwa [qual_qw32Of])
  obtain ⟨d, hd⟩ : ∃ d, d = evalFrom c0 l (point c0 (pvPoint c0 l)).live false false chain := ⟨_, rfl⟩
  have hform : t = setFld (setFld d (loopBase l + 4) 16 8 0) (loopBase l + 0x20) 16 16 (min 65535 cycles) := by
    rw [ht, evaluate, ← h0, hqual, hd]
    rfl
  have hstep : EvalStep l c0 d := hd ▸ .evalFrom hl c0 _ false false chain
  have hlast : EvalStep l c0 t := by
    rw [hform]
    exact (hstep.setFld _ _ _ (by omega) (by rw [loopStat]; omega)).setFld _ _ _ (by omega) (by rw [loopStat]; omega)
  exact ⟨hlast.fresh.trans hdone, hlast.manual.trans hmanual, hlast.auto.trans hauto⟩

/-- A missed evaluation (R656, R673). -/
theorem missEval_leaves {c : Chip} {l : Nat} (hl : l < 128) (r : EvalReq) {t : Chip} (ht : t = missEval c l r) :
    t.evq = c.evq.erase r ∧ flag t (loopStat l) 10 = true ∧ t.points = c.points ∧ t.loops = c.loops
      ∧ fld t (loopBase l + 4) 0 16 = satInc 16 (fld c (loopBase l + 4) 0 16) ∧ fld t (loopBase l + 4) 16 8 = satInc 8 (fld c (loopBase l + 4) 16 8)
      ∧ Changes [.evq, .tune, .tables, .free] (fun off => regsAt [loopStat l, loopBase l + 4] off || regIn 0x154000 0x154080 off) c t := by
  obtain ⟨a, ha⟩ : ∃ a : Chip, a = { c with evq := c.evq.erase r } := ⟨_, rfl⟩
  obtain ⟨b, hb⟩ : ∃ b, b = countFld (countFld (setFlag a (loopStat l) 10 true) (loopBase l + 4) 0 16) (loopBase l + 4) 16 8 := ⟨_, rfl⟩
  obtain ⟨d, hd⟩ : ∃ d, d = (capturing b l).foldl (fun c b => tuneEval c b none) (injValues (cutDue b l false) (injecting (cutDue b l false) l)).2 := ⟨_, rfl⟩
  have hrep : Reports d t := by
    have hform : t = if fld c (loopBase l + 4) 16 8 = 0 then postPointFault d 0x48 (loopPt l) (fld c (loopBase l + 0x20) 16 16) true else d := by
      rw [ht, missEval, hd, hb, ha]
    rw [hform]
    split
    · exact (Reports.refl d).postPointFault _ _ _ _
    · exact .refl d
  have htune : TuneStep b d := by
    rw [hd]
    refine Touches.trans ((TuneStep.cutDue b l false).trans (TuneStep.injValues _ (bs := injecting (cutDue b l false) l) fun _ => injecting_lt)) ?_
    exact Touches.foldl _ _ (fun e _ hn => TuneStep.tuneEval e (capturing_lt hn) none) _
  have hfree {k : Nat} (hk : k < 0x40) : reg t (loopBase l + k) = reg b (loopBase l + k) := by
    refine (hrep.reg (loopReg_quiet hl hk)).trans (htune.reg ?_)
    rw [← Bool.not_eq_true, regIn_iff, loopBase]
    omega
  have hown (off : Nat) : reg a off = reg c off := by
    rw [ha]
    rfl
  have hstat : reg t (loopStat l) = reg b (loopStat l) := hfree (k := 0) (by decide)
  have hkept : Touches [.evq] (fun _ => true) c b := by
    rw [hb, ha]
    exact ((((Touches.refl _ _ c).part (.evq c _) (by simp)).setFlag _ _ rfl).setFld _ _ _ rfl).setFld _ _ _ rfl
  refine ⟨?_, ?_, ?_, ?_, ?_, ?_, ?_⟩
  · rw [show t.evq = d.evq from hrep.same .evq (by simp [reportParts]), show d.evq = b.evq from htune.same .evq (by simp) (by simp), hb, ha]
    rfl
  · rw [flag, fld, hstat, ← fld, ← flag, hb, flag, countFld, fld_setFld_other _ _ _ _ _ _ _ _ (by rw [loopStat]; omega), countFld,
      fld_setFld_other _ _ _ _ _ _ _ _ (by rw [loopStat]; omega)]
    exact flag_setFlag_self _ _ _ _ (by decide)
  · exact (hrep.same .points (by simp [reportParts])).trans ((htune.same .points (by simp) (by simp)).trans (hkept.same .points (by simp) (by simp)))
  · exact (hrep.same .loops (by simp [reportParts])).trans ((htune.same .loops (by simp) (by simp)).trans (hkept.same .loops (by simp) (by simp)))
  · rw [fld, hfree (k := 4) (by decide), ← fld, hb, fld_countFld_field _ _ _ _ _ _ (by decide) (by decide), fld_countFld_self _ _ _ _ (by decide),
      fld_setFlag_other _ _ _ _ _ _ _ (by rw [loopStat]; omega), fld, hown, ← fld]
  · rw [fld, hfree (k := 4) (by decide), ← fld, hb, fld_countFld_self _ _ _ _ (by decide), fld_countFld_field _ _ _ _ _ _ (by decide) (by decide),
      fld_setFlag_other _ _ _ _ _ _ _ (by rw [loopStat]; omega), fld, hown, ← fld]
  · have hcalm : ∀ off, (regsAt [loopStat l, loopBase l + 4] off || regIn 0x154000 0x154080 off) = true → ringSetup off = false := by
      intro off hoff
      simp only [regsAt, List.contains_cons, List.contains_nil, Bool.or_false, Bool.or_eq_true, beq_iff_eq, regIn_iff, loopStat, loopBase] at hoff
      exact (quiet_of_range (by omega)).2
    have hstart : Within [.evq, .tune, .tables, .free] (fun off => regsAt [loopStat l, loopBase l + 4] off || regIn 0x154000 0x154080 off) c b := by
      rw [hb, ha]
      refine (((((Within.refl _ hcalm c).part (.evq c _) (by simp) (by simp)).setFlag 10 true ?_).countFld 0 16 ?_).countFld 16 8 ?_) <;>
        simp [regsAt]
    exact ((hstart.touch (htune.mono (by decide) fun off h => by rw [h, Bool.or_true]) (by simp)).report hrep).changes

theorem loopEvaluation_runs {c : Chip} {l cycles : Nat} {r : EvalReq} (hnext : nextEval c = some r) (hloop : r.loop = l) (hlane : laneIn c = true)
    (hruns : loopRuns c l = true) (hlate : evalLate c l cycles = false) :
    loopEvaluation c l cycles = evaluate { c with evq := c.evq.erase r } l r.chain cycles := by
  rw [loopEvaluation, hnext]
  simp only [hloop, hlane, hruns, hlate, ne_eq, not_true, decide_false, Bool.not_true, Bool.or_self, Bool.false_eq_true, if_false]

theorem loopEvaluation_late {c : Chip} {l cycles : Nat} {r : EvalReq} (hnext : nextEval c = some r) (hloop : r.loop = l) (hlane : laneIn c = true)
    (hruns : loopRuns c l = true) (hlate : evalLate c l cycles = true) : loopEvaluation c l cycles = missEval c l r := by
  rw [loopEvaluation, hnext]
  simp only [hloop, hlane, hruns, hlate, ne_eq, not_true, decide_false, Bool.not_true, Bool.or_self, Bool.false_eq_true, if_false, if_true]

theorem loopEvaluation_leaves {c : Chip} {l cycles : Nat} {r : EvalReq} (hl : l < 128) (hnext : nextEval c = some r) (hloop : r.loop = l)
    (hlane : laneIn c = true) (hruns : loopRuns c l = true) (hlate : evalLate c l cycles = false) {t : Chip} (ht : t = loopEvaluation c l cycles) :
    t.evq = c.evq.erase r ∧ fld t (loopBase l + 4) 16 8 = 0 ∧ fld t (loopBase l + 0x20) 16 16 = min 65535 cycles
      ∧ onlyParts [.regs, .hostMem, .fns, .rcd, .diag, .sdl, .evq, .loops, .points, .cells, .legs, .tune, .tables, .free, .pwr] c t := by
  obtain ⟨d, hd⟩ : ∃ d : Chip, d = { c with evq := c.evq.erase r } := ⟨_, rfl⟩
  rw [loopEvaluation_runs hnext hloop hlane hruns hlate, ← hd] at ht
  obtain ⟨hrun, hcycles, hparts⟩ := evaluate_leaves hl r.chain cycles ht
  refine ⟨?_, hrun, hcycles, onlyParts_trans (b := d) ?_ (onlyParts_mono hparts.parts (by decide))⟩
  · rw [show t.evq = d.evq from hparts.same .evq (by decide) (by simp), hd]
  · rw [hd]
    exact fun q hq => (PartStep.evq c _).others q fun e => hq (by rw [e]; decide)

theorem loopEvaluation_fresh {c : Chip} {l cycles : Nat} {r : EvalReq} (hl : l < 128) (hnext : nextEval c = some r) (hloop : r.loop = l)
    (hlane : laneIn c = true) (hruns : loopRuns c l = true) (hlate : evalLate c l cycles = false) (hfresh : (loopSt c l).fresh = true)
    (hgood : (point c (pvPoint c l)).live % 4 ≠ 3) {t : Chip} (ht : t = loopEvaluation c l cycles) :
    (loopSt t l).fresh = false ∧ reg t (loopBase l + 0x1C) = BitVec.ofNat 32 (lp c l 0x24 4)
      ∧ loopAuto t l = (loopFlag c l 3 && nodeMode c != mService) :=
  evaluate_fresh (c := { c with evq := c.evq.erase r }) hl hfresh hgood r.chain cycles
    (ht.trans (loopEvaluation_runs hnext hloop hlane hruns hlate))

/-! ## A capture's timeout and release -/

theorem captureTimeout_ends {c : Chip} {b : Nat} (harmed : tuneState c b = 1) (hlimit : cfgTimeout (tuneSt c b).cfg ≠ 0) {t : Chip}
    (ht : t = captureTimeout c b) : tuneState t b = 3 ∧ fld t (tuneBase b) 2 3 = 3 ∧ Touches [] (regAt (tuneBase b)) c t := by
  rw [captureTimeout, if_pos ⟨harmed, hlimit⟩, endCapture] at ht
  rw [ht]
  refine ⟨?_, fld_setFld_self _ _ _ _ _ (by decide), ((Touches.refl _ _ c).setFld _ _ _ ?_).setFld _ _ _ ?_⟩
  · rw [tuneState, fld_setFld_field _ _ _ _ _ _ _ (by decide) (by decide), fld_setFld_self _ _ _ _ _ (by decide)]
    rfl
  all_goals exact beq_self_eq_true _

/-- The row of the field tables of a tuning buffer's control register. -/
def tuneCtlRow : RegDesc := regN "CTRL_TUNEb_CTL" 0x15400C 4 0x20 [fd 0 1 .w1s 0]

theorem findReg_tuneCtl (b : Fin 4) : findReg (tuneBase b.val + 0xC) = some tuneCtlRow := by
  revert b
  decide +kernel

/-- Where the state and the code of a capture are 0 as one field, each of them is. -/
theorem tuneStatus_zero {c : Chip} {off : Nat} (h : fld c off 0 5 = 0) : fld c off 0 2 = 0 ∧ fld c off 2 3 = 0 := by
  obtain ⟨v, hv⟩ : ∃ v, v = (reg c off).toNat := ⟨_, rfl⟩
  simp only [fld, bits, ← hv] at h ⊢
  omega

theorem releaseWrite_idles {c : Chip} {b : Fin 4} (hdone : tuneState c b.val = 3) {t : Chip} (ht : t = releaseWrite c keeper b.val 1 allBytes) :
    tuneState t b.val = 0 ∧ fld t (tuneBase b.val) 2 3 = 0 ∧ flag t (tuneBase b.val) 5 = flag c (tuneBase b.val) 5 ∧ t.tables = c.tables
      ∧ Touches [] (regsAt [tuneBase b.val, tuneBase b.val + 0xC]) c t := by
  obtain ⟨w, hw⟩ : ∃ w, w = keeperCtx c (tuneBase b.val + 0xC) tuneCtlRow (1 : Word).toNat (2 ^ 32 - 1) := ⟨_, rfl⟩
  obtain ⟨x, hx⟩ : ∃ x, x = keeperNow c (tuneBase b.val + 0xC) tuneCtlRow (1 : Word).toNat (2 ^ 32 - 1) := ⟨_, rfl⟩
  have hwrite : releaseWrite c keeper b.val 1 allBytes = hookTuneCtl w (setReg c (tuneBase b.val + 0xC) x) := by
    rw [releaseWrite, writeWord_all hookTuneCtl 1 (findReg_tuneCtl b) rfl, hw, hx]
  have hoff : w.off = tuneBase b.val + 0xC := by rw [hw, keeperCtx]
  have hhit : w.hit 0 = true := by
    rw [hw, keeperCtx_hit]
    decide +kernel
  obtain ⟨d, hd⟩ : ∃ d, d = setFlag (setReg c (tuneBase b.val + 0xC) x) (tuneBase b.val + 0xC) 0 false := ⟨_, rfl⟩
  have hlane : (tuneBase b.val + 0xC - 0x154000) / 0x20 = b.val := by
    rw [tuneBase]
    omega
  have hown : reg d (tuneBase b.val) = reg c (tuneBase b.val) := by
    rw [hd, reg_setFlag_other _ _ _ _ _ (by omega), reg_setReg_other _ _ _ _ (by omega)]
  have hstate : tuneState d b.val = 3 := by
    rw [tuneState, fld, hown]
    exact hdone
  have hform : t = setFld d (tuneBase b.val) 0 5 0 := by
    rw [ht, hwrite, hookTuneCtl]
    simp only [hoff, hlane, ← hd, hhit, hstate, beq_self_eq_true, Bool.and_self, if_true]
  have htouch : Touches [] (regsAt [tuneBase b.val, tuneBase b.val + 0xC]) c d := by
    rw [hd]
    exact ((Touches.refl _ _ c).setReg _ (by simp [regsAt])).setFlag _ _ (by simp [regsAt])
  obtain ⟨hidle, hcode⟩ := tuneStatus_zero (c := t) (off := tuneBase b.val) (by
    rw [hform, fld_setFld_self _ _ _ _ _ (by decide), Nat.zero_mod])
  refine ⟨hidle, hcode, ?_, ?_, ?_⟩
  · rw [hform, flag, flag, fld_setFld_field _ _ _ _ _ _ _ (by decide) (by decide), fld, hown, ← fld]
  · rw [hform, hd]
    rfl
  · rw [hform]
    exact htouch.setFld _ _ _ (by simp [regsAt])

/-! ## A lane that fails its test -/

theorem macLaneSelftest_fails {c : Chip} {lane : Fin 4} (hon : domOn c 23 = true) (hin : flag c 0x150004 lane.val = true) {t : Chip}
    (ht : t = macLaneSelftest c lane.val false) : flag t 0x150004 lane.val = false ∧ Changes [] (regAt 0x150004) c t := by
  obtain ⟨d, hd⟩ : ∃ d, d = setFlag c 0x150004 lane.val false := ⟨_, rfl⟩
  have hrep : Reports d t := by
    have hform : t = postErrorRec (postErrorRec d 0x1A srcNode 1) 0x49 srcNode lane.val := by
      rw [ht, macLaneSelftest, hon, hin, hd]
      rfl
    rw [hform]
    exact ((Reports.refl d).postErrorRec _ _ _).postErrorRec _ _ _
  refine ⟨?_, ?_⟩
  · rw [hrep.flag (by decide), hd]
    exact flag_setFlag_self _ _ _ _ (by omega)
  · refine Within.changes (Within.report ?_ hrep)
    rw [hd]
    exact (Within.refl _ (regAt_calm (by decide)) c).setFlag _ _ (beq_self_eq_true _)

/-- Settles O40: an evaluation is followed by a relation that holds over each of its parts, with what the loop's own
registers keep through it; a miss, a capture's end and a lane's failure write what they name and report. -/
theorem controlCommandsComplete : Obligations.ControlCommandsComplete := by
  refine ⟨fun s l cycles r hnext hloop hruns hlane hlate => ⟨_, rfl, rfl, loopEvaluation_leaves l.isLt hnext hloop hlane hruns hlate rfl⟩,
    fun s l cycles r hnext hloop hruns hlane hlate hfresh hgood =>
      ⟨_, rfl, rfl, loopEvaluation_fresh l.isLt hnext hloop hlane hruns hlate hfresh hgood rfl⟩,
    fun s l cycles r hnext hloop hruns hlane hlate => ⟨_, rfl, rfl, ?_⟩, fun s l r hwait => ⟨_, rfl, rfl, ?_⟩,
    fun s b harmed hlimit => ⟨_, rfl, rfl, captureTimeout_ends harmed hlimit rfl⟩, fun s b hdone => ⟨_, rfl, rfl, releaseWrite_idles hdone rfl⟩,
    fun s lane hon hin => ⟨⟨_, rfl, rfl, rfl⟩, _, rfl, rfl, macLaneSelftest_fails hon hin rfl⟩⟩
  · obtain ⟨hevq, hflag, hpoints, hloops, hcount, -, hchanges⟩ := missEval_leaves l.isLt r (loopEvaluation_late hnext hloop hlane hruns hlate)
    exact ⟨hevq, hflag, hpoints, hloops, hcount, hchanges⟩
  · have hmiss : deadlineMiss s.chip l.val = missEval s.chip l.val r := by rw [deadlineMiss, hwait]
    obtain ⟨hevq, hflag, -, -, hcount, hmore, hchanges⟩ := missEval_leaves l.isLt r hmiss
    exact ⟨hevq, hflag, hcount, hmore, hchanges⟩

end Sys2Proof.Machine
end

section
-- One proof at a time: every thread takes a stack of its own from the memory that a compile has.
set_option Elab.async false
/-! SUPPORT. Basin: a write of BSN_CTL, and what the members' superblocks, the units given back and the chunks written at a
detach keep (R819, R822, R828 to R830, R847, R856, R864, R866). -/

namespace Sys2Proof.Machine

/-! ## A write of BSN_CTL -/

def bsnCtlRow : RegDesc := reg1 "BSN_CTL" 0x190000 [fd 0 4 .rwk 0 (.enum 6), fd 4 4 .rwk 0, fd 8 1 .rwk 0, fd 12 4 .ro 0]

theorem findReg_bsnCtl : findReg bsnCtl = some bsnCtlRow := by decide +kernel

/-- A code that the field has is not reserved. -/
theorem fieldBad_en {f : Fld} {last data mask : Nat} (hrule : f.rule = .enum last) (hmask : natBits mask f.lo f.width = 2 ^ f.width - 1)
    (hle : natBits data f.lo f.width ≤ last) (fn old : Nat) : fieldBad fn old data mask f = false := by
  rw [fieldBad, hrule]
  simp only [mergeField_en hmask, decide_eq_false (show ¬ last < natBits data f.lo f.width by omega), Bool.and_false]

/-- The command of BSN_CTL that an OP names. -/
def bsnPerform (c : Chip) (op arg : Nat) : Chip :=
  match op with
  | 1 => bsnCreate c
  | 2 => bsnAdmit c
  | 3 => bsnDetach c
  | 4 => bsnReplace c arg
  | 5 => bsnRetire c arg
  | 6 => bsnEraseKey c arg
  | _ => bsnRefuse c 2

/-- A keeper's write of GO with an OP and an ARG that name a command performs it on a node of which BSN_CTL changed. -/
theorem bsnCtlWrite_performs (c : Chip) {v : Word} {op arg : Nat} (hop : natBits v.toNat 0 4 = op) (hle : op ≤ 6)
    (harg : natBits v.toNat 4 4 = arg) (hgo : natBit v.toNat 8 = true) (hport : op = 4 ∨ op = 5 → arg < 4) (hpart : op = 6 → arg < 8) :
    ∃ d, (∃ rs, d = { c with regs := rs }) ∧ Touches [] (regAt bsnCtl) c d ∧ bsnCtlWrite c keeper v allBytes = bsnPerform d op arg := by
  obtain ⟨w, hw⟩ : ∃ w, w = keeperCtx c bsnCtl bsnCtlRow v.toNat (2 ^ 32 - 1) := ⟨_, rfl⟩
  have hfits : rowFits bsnCtlRow = true := by decide +kernel
  have hbad : keeperBad c bsnCtl bsnCtlRow v.toNat (2 ^ 32 - 1) = false := by
    have henum : fieldBad 0 (reg c bsnCtl).toNat v.toNat (2 ^ 32 - 1) (fd 0 4 .rwk 0 (.enum 6)) = false :=
      fieldBad_en (last := 6) rfl (by decide +kernel) (by rw [show natBits v.toNat (fd 0 4 .rwk 0 (.enum 6)).lo (fd 0 4 .rwk 0 (.enum 6)).width = op from hop]; exact hle) _ _
    rw [keeperBad, bsnCtlRow]
    dsimp only [reg1]
    rw [List.any_cons, henum]
    rfl
  have hnowOp : bits w.now 0 4 = op := by
    have hstore := bits_keeperNow hfits (f := fd 0 4 .rwk 0 (.enum 6)) (by decide +kernel) c bsnCtl v.toNat (2 ^ 32 - 1)
    rw [fieldAfter_en (by decide +kernel)] at hstore
    rw [hw]
    refine hstore.trans ?_
    show ruleStore (.enum 6) _ (natBits v.toNat 0 4) = op
    rw [hop, ruleStore, if_neg (by omega)]
  have hnowArg : bits w.now 4 4 = arg := by
    have hstore := bits_keeperNow hfits (f := fd 4 4 .rwk 0) (by decide +kernel) c bsnCtl v.toNat (2 ^ 32 - 1)
    rw [fieldAfter_en (by decide +kernel)] at hstore
    rw [hw]
    exact hstore.trans harg
  obtain ⟨e, he⟩ : ∃ e, e = setReg c bsnCtl w.now := ⟨_, rfl⟩
  have hfldOp : fld e bsnCtl 0 4 = op := by rw [he, fld, reg_setReg_self, hnowOp]
  have hfldArg : fld e bsnCtl 4 4 = arg := by rw [he, fld, reg_setReg_self, hnowArg]
  have hgood : bsnCtlBad (setReg e bsnCtl w.now) = false := by
    have hop' : fld (setReg e bsnCtl w.now) bsnCtl 0 4 = op := by rw [fld, reg_setReg_self, hnowOp]
    have harg' : fld (setReg e bsnCtl w.now) bsnCtl 4 4 = arg := by rw [fld, reg_setReg_self, hnowArg]
    rw [bsnCtlBad, hop', harg']
    split
    · exact decide_eq_false (by have := hport (.inl rfl); omega)
    · exact decide_eq_false (by have := hport (.inr rfl); omega)
    · rw [decide_eq_false (by have := hpart rfl; omega)]
      rfl
    · rfl
  have hpair : w.pair = none := by rw [hw, keeperCtx]
  have hoff : w.off = bsnCtl := by rw [hw, keeperCtx]
  have hhit : w.hit 8 = true := by
    rw [hw, keeperCtx_hit, hgo]
    decide +kernel
  have hcode : w.badCode = false := by rw [hw, keeperCtx, hbad]
  have hwrite : bsnCtlWrite c keeper v allBytes = bsnGo e w := by
    have hstored : bsnCtlWrite c keeper v allBytes = hookBsn w e := by
      rw [bsnCtlWrite, writeWord_all hookBsn v findReg_bsnCtl hbad, he, hw]
      rfl
    have hnot : bsnBad (setReg e bsnCtl w.now) w bsnCtl = false := (if_pos rfl).trans hgood
    rw [hstored, hookBsn, guarded_single _ _ _ hpair, hoff, hnot, if_neg Bool.false_ne_true, bsnAct, if_pos hoff, hhit, if_pos rfl]
  refine ⟨setFlag e bsnCtl 8 false, ⟨_, by rw [he]; rfl⟩, ?_, ?_⟩
  · rw [he]
    exact ((Touches.refl _ _ c).setReg _ (by simp [regAt])).setFlag _ _ (by simp [regAt])
  · rw [hwrite, bsnGo, hcode, hfldOp, hfldArg]
    rfl

/-! ## Superblocks -/

theorem writeCopy_step (clean : Bool) (c : Chip) (b : Nat) : DriveStep c (writeCopy clean c b) :=
  .foldl _ _ (fun c m => putBlock_step c m b _) c

/-- New superblocks change the drives and SGEN. -/
theorem writeSupers_bsn (c : Chip) (clean : Bool) : ∃ ds, (writeSupers c clean).bsn = { c.bsn with sgen := c.bsn.sgen + 1, drives := ds } :=
  ⟨_, (DriveStep.foldl (writeCopy clean) [0, 8] (writeCopy_step clean) (modBsn c fun b => { b with sgen := b.sgen + 1 })).rest⟩

theorem writeSupers_touches (c : Chip) (clean : Bool) : Touches [.bsn] noReg c (writeSupers c clean) :=
  ((Touches.refl _ _ c).modBsn _ (by simp)).trans (DriveStep.foldl (writeCopy clean) [0, 8] (writeCopy_step clean) _).touches

theorem writeSupers_reg (c : Chip) (clean : Bool) (off : Nat) : reg (writeSupers c clean) off = reg c off := regs_noReg (writeSupers_touches c clean) off

/-! ## REPLACE and RETIRE -/

theorem members_add {c : Chip} {n : Nat} (hn : n < 4) (hout : natBit (bsnMembers c) n = false) :
    bsnMembers c + 2 ^ n < 16 ∧ natBit (bsnMembers c + 2 ^ n) n = true := by
  have key : ∀ (m : Fin 16) (n : Fin 4), natBit m.val n.val = false → m.val + 2 ^ n.val < 16 ∧ natBit (m.val + 2 ^ n.val) n.val = true := by decide +kernel
  exact key ⟨bsnMembers c, bsnMembers_lt c⟩ ⟨n, hn⟩ hout

theorem bsnReplace_rebuilds {c : Chip} {n : Nat} (hn : n < 4) (hstate : bsnState c = 3) (hport : natBit c.bsn.ports n = true)
    (hout : natBit (bsnMembers c) n = false) (hpresent : (presentPorts c).contains n = true) (hsuit : portSuitable c n = true)
    (hcap : c.bsn.cap ≤ portBlocks c n) {t : Chip} (ht : t = bsnReplace c n) :
    bsnState t = 4 ∧ natBit (bsnMembers t) n = true ∧ drvState t n = 4 ∧ t.bsn.rebuild = some n ∧ t.bsn.cursor = 0
      ∧ fld t 0x190014 0 17 = 0 ∧ fld t bsnCtl 12 4 = 0 ∧ Touches [.bsn] (regsAt [bsnCtl, bsnStat, drvStat n, 0x190014]) c t := by
  obtain ⟨m, hm⟩ : ∃ m, m = bsnMembers c + 2 ^ n := ⟨_, rfl⟩
  obtain ⟨hlt, hin⟩ := members_add hn hout
  rw [← hm] at hlt hin
  obtain ⟨d, hd⟩ : ∃ d, d = modBsn (setDrvState (setBsnMembers c m) n 4) fun b => { b with rebuild := some n, cursor := 0 } := ⟨_, rfl⟩
  obtain ⟨e, he⟩ : ∃ e, e = setFld (setBsnState d 4) 0x190014 0 17 0 := ⟨_, rfl⟩
  have hform : t = setFld (writeSupers e false) bsnCtl 12 4 0 := by
    have hbad : ¬ (bsnState c ≠ 3 ∨ natBit c.bsn.ports n = false ∨ natBit (bsnMembers c) n = true) := by
      rw [hstate, hport, hout]
      decide
    have hfit : (!(presentPorts c).contains n || !portSuitable c n) = false := by
      rw [hpresent, hsuit]
      rfl
    rw [ht, bsnReplace, if_neg (by rw [hstate]; decide), if_neg hbad, hfit, if_neg Bool.false_ne_true, if_neg (by omega), he, hd, hm]
    rfl
  obtain ⟨ds, hbsn⟩ := writeSupers_bsn e false
  have hreg {off : Nat} (h : off ≠ bsnCtl) : reg t off = reg e off := by
    rw [hform, reg_setFld_other _ _ _ _ _ _ h, writeSupers_reg]
  refine ⟨?_, ?_, ?_, ?_, ?_, ?_, ?_, ?_⟩
  · rw [bsnState, fld, hreg (by decide), ← fld, he, fld_setFld_other _ _ _ _ _ _ _ _ (by decide)]
    exact fld_setFld_self _ _ _ _ _ (by decide)
  · have hkept : bsnMembers t = m := by
      rw [bsnMembers, fld, hreg (by decide), ← fld, he, fld_setFld_other _ _ _ _ _ _ _ _ (by decide), setBsnState,
        fld_setFld_field _ _ _ _ _ _ _ (by decide) (by decide), hd]
      refine (fld_setFld_other (setBsnMembers c m) _ _ _ _ _ _ _ ?_).trans ((fld_setFld_self c _ _ _ _ (by decide)).trans (Nat.mod_eq_of_lt hlt))
      rw [drvStat, bsnStat]
      omega
    rw [hkept, hin]
  · rw [drvState, fld, hreg (by rw [drvStat, bsnCtl]; omega), ← fld, he, fld_setFld_other _ _ _ _ _ _ _ _ (by rw [drvStat]; omega), setBsnState,
      fld_setFld_other _ _ _ _ _ _ _ _ (by rw [drvStat, bsnStat]; omega), hd]
    exact fld_setFld_self _ _ _ _ _ (by decide)
  · rw [hform, setFld_bsn, hbsn, he, hd]
    rfl
  · rw [hform, setFld_bsn, hbsn, he, hd]
    rfl
  · rw [fld, hreg (by decide), ← fld, he]
    exact fld_setFld_self _ _ _ _ _ (by decide)
  · rw [hform]
    exact fld_setFld_self _ _ _ _ _ (by decide)
  · have hto : Touches [.bsn] (regsAt [bsnCtl, bsnStat, drvStat n, 0x190014]) c d := by
      rw [hd]
      exact (((Touches.refl _ _ c).setFld _ _ _ (by simp [regsAt])).setFld _ _ _ (by simp [regsAt])).modBsn _ (by simp)
    rw [hform]
    refine Touches.setFld (Touches.trans ?_ ((writeSupers_touches e false).mono (by simp) (by simp [noReg]))) _ _ _ (by simp [regsAt])
    rw [he]
    exact (hto.setFld _ _ _ (by simp [regsAt])).setFld _ _ _ (by simp [regsAt])

theorem bsnRetire_takesOut {c : Chip} {n : Nat} (hn : n < 4) (hserves : bsnServes c = true) (hmem : natBit (bsnMembers c) n = true)
    (hidle : c.bsn.rebuild = none) (hmask : lossMasked c.bsn.layout (c.bsn.ports - (bsnMembers c - 2 ^ n)) = true) {t : Chip} (ht : t = bsnRetire c n) :
    bsnState t = 3 ∧ natBit (bsnMembers t) n = false ∧ drvState t n = 1 ∧ fld t bsnCtl 12 4 = 0
      ∧ Touches [.bsn] (regsAt [bsnCtl, bsnStat, drvStat n]) c t := by
  obtain ⟨d, hd⟩ : ∃ d, d = dropMember c n := ⟨_, rfl⟩
  obtain ⟨-, hgone, hstate, -, -, htouch⟩ := dropMember_masked hmem hidle hmask hd
  have hform : t = setFld (writeSupers (setDrvState d n 1) false) bsnCtl 12 4 0 := by
    have hnot : ¬ (bsnServes c = false ∨ natBit (bsnMembers c) n = false) := by
      rw [hserves, hmem]
      decide
    rw [ht, bsnRetire, if_neg hnot, hidle]
    dsimp only
    rw [Nat.sub_zero, hmem, if_pos rfl, hmask, if_neg (by decide), hd]
    rfl
  have hreg {off : Nat} (h : off ≠ bsnCtl) : reg t off = reg (setDrvState d n 1) off := by
    rw [hform, reg_setFld_other _ _ _ _ _ _ h, writeSupers_reg]
  have hstat : reg t bsnStat = reg d bsnStat := by
    rw [hreg (by decide)]
    exact reg_setFld_other _ _ _ _ _ _ (by rw [drvStat, bsnStat]; omega)
  refine ⟨?_, ?_, ?_, ?_, ?_⟩
  · rw [bsnState, fld, hstat]
    exact hstate
  · rw [bsnMembers, fld, hstat]
    exact hgone
  · rw [drvState, fld, hreg (by rw [drvStat, bsnCtl]; omega), ← fld]
    exact fld_setFld_self _ _ _ _ _ (by decide)
  · rw [hform]
    exact fld_setFld_self _ _ _ _ _ (by decide)
  · rw [hform]
    refine Touches.setFld (Touches.trans ?_ ((writeSupers_touches _ false).mono (by simp) (by simp [noReg]))) _ _ _ (by simp [regsAt])
    exact (htouch.mono (by simp) fun off h => by simp only [regAt, beq_iff_eq] at h; simp [regsAt, h]).setFld _ _ _ (by simp [regsAt])

end Sys2Proof.Machine
end

section
-- One proof at a time: every thread takes a stack of its own from the memory that a compile has.
set_option Elab.async false
/-! SUPPORT. Basin: what giving units back and writing chunks keep (R823 to R830, R839, R844, R864). -/

namespace Sys2Proof.Machine

/-! ## Units given back -/

/-- Of the registers of Basin only the counts of the owner pages and FOREIGN differ, and of the node only the parts named. -/
structure UnitStep (ps : List Part) (a b : Chip) : Prop where
  touches : Touches ps (regIn 0x190000 0x190400) a b
  own : ∀ off, off < 0x190200 → off ≠ bsnStat → reg b off = reg a off
  stat : ∀ lo w, lo + w ≤ 16 → fld b bsnStat lo w = fld a bsnStat lo w

theorem ownerPage_place {o : Nat} (h : o ≤ 8) {k : Nat} (hk : k < 0x20) :
    regIn 0x190000 0x190400 (ownerPage o + k) = true ∧ 0x190200 ≤ ownerPage o + k := by
  rw [regIn_iff, ownerPage]
  omega

theorem pageOf_le (o : Nat) : pageOf o ≤ 8 := by
  unfold pageOf
  split <;> omega

namespace UnitStep

variable {ps : List Part} {a b c : Chip}

theorem refl (ps : List Part) (c : Chip) : UnitStep ps c c := ⟨.refl _ _ c, fun _ _ _ => rfl, fun _ _ _ => rfl⟩

theorem trans (h : UnitStep ps a b) (k : UnitStep ps b c) : UnitStep ps a c :=
  ⟨h.touches.trans k.touches, fun off hlt hne => (k.own off hlt hne).trans (h.own off hlt hne), fun lo w hw => (k.stat lo w hw).trans (h.stat lo w hw)⟩

theorem mono {qs : List Part} (h : UnitStep ps a b) (hp : ps ⊆ qs) : UnitStep qs a b := ⟨h.touches.mono hp fun _ ho => ho, h.own, h.stat⟩

theorem foldl {β : Type} (f : Chip → β → Chip) (xs : List β) (hf : ∀ (c : Chip) (x : β), UnitStep ps c (f c x)) (c : Chip) :
    UnitStep ps c (xs.foldl f c) := by
  induction xs generalizing c with
  | nil => exact .refl ps c
  | cons x xs ih => exact (hf c x).trans (ih _)

theorem part {p : Part} (h : UnitStep ps a b) (k : PartStep p b c) (hp : p ∈ ps) : UnitStep ps a c :=
  ⟨h.touches.part k hp, fun off hlt hne => (k.reg off).trans (h.own off hlt hne), fun lo w hw => by rw [fld, k.reg, ← fld, h.stat lo w hw]⟩

theorem modBsn (h : UnitStep ps a b) (f : BsnSt → BsnSt) (hp : Part.bsn ∈ ps) : UnitStep ps a (Machine.modBsn b f) := h.part (.bsn b _) hp

theorem drive (h : UnitStep ps a b) (k : DriveStep b c) (hp : Part.bsn ∈ ps) : UnitStep ps a c :=
  h.trans ⟨k.touches.mono (by simpa using hp) (by simp [noReg]), fun off _ _ => regs_noReg k.touches off, fun lo w _ => by
    rw [fld, regs_noReg k.touches, ← fld]⟩

theorem setReg (h : UnitStep ps a b) {off : Nat} (v : Word) (hin : regIn 0x190000 0x190400 off = true) (hout : 0x190200 ≤ off) :
    UnitStep ps a (Machine.setReg b off v) :=
  h.trans ⟨(Touches.refl _ _ b).setReg _ hin, fun o hlt _ => reg_setReg_other _ _ _ _ (by omega), fun lo w _ =>
    fld_setReg_other _ _ _ _ _ _ (by rw [bsnStat]; omega)⟩

/-- A count of an owner page. -/
theorem count (h : UnitStep ps a b) {o k : Nat} (ho : o ≤ 8) (hk : k < 0x20) (n : Nat) :
    UnitStep ps a (bsnCount b (ownerPage o + k) n) := h.setReg _ (ownerPage_place ho hk).1 (ownerPage_place ho hk).2

theorem countUnits (h : UnitStep ps a b) : UnitStep ps a (Machine.countUnits b) := by
  unfold Machine.countUnits
  dsimp only
  have hpages : ∀ (xs : List Nat) (c : Chip), (∀ p ∈ xs, p ≤ 8) →
      UnitStep ps c (xs.foldl (fun c p => Machine.setReg c (ownerPage p) (BitVec.ofNat 32 (heldUnits c (codeOfPage p)).length)) c) := by
    intro xs
    induction xs with
    | nil => exact fun c _ => .refl ps c
    | cons p xs ih =>
      intro c hle
      have hp := ownerPage_place (hle p List.mem_cons_self) (k := 0) (by decide)
      exact ((UnitStep.refl ps c).setReg _ hp.1 hp.2).trans (ih _ fun q hq => hle q (List.mem_cons_of_mem _ hq))
  refine h.trans ((hpages _ b fun p hp => Nat.le_of_lt_succ (List.mem_range.mp hp)).trans ?_)
  exact ⟨(Touches.refl _ _ _).setFld _ _ _ (by decide), fun off _ hne => reg_setFld_other _ _ _ _ _ _ hne,
    fun lo w hw => fld_setFld_field _ _ _ _ _ _ _ (by decide) (.inl hw)⟩

end UnitStep

/-- A step of giving units back also keeps what Basin is, its keys, and that no chunk is in flight. -/
structure GiveStep (a b : Chip) : Prop where
  unit : UnitStep [.bsn, .rcd] a b
  id : b.bsn.id = a.bsn.id
  sgen : b.bsn.sgen = a.bsn.sgen
  cap : b.bsn.cap = a.bsn.cap
  keys : b.bsn.keys = a.bsn.keys

namespace GiveStep

variable {a b c : Chip}

theorem refl (c : Chip) : GiveStep c c := ⟨.refl _ c, rfl, rfl, rfl, rfl⟩

theorem trans (h : GiveStep a b) (k : GiveStep b c) : GiveStep a c :=
  ⟨h.unit.trans k.unit, k.id.trans h.id, k.sgen.trans h.sgen, k.cap.trans h.cap, k.keys.trans h.keys⟩

theorem foldl {β : Type} (f : Chip → β → Chip) (xs : List β) (hf : ∀ (c : Chip) (x : β), GiveStep c (f c x)) (c : Chip) :
    GiveStep c (xs.foldl f c) := by
  induction xs generalizing c with
  | nil => exact .refl c
  | cons x xs ih => exact (hf c x).trans (ih _)

/-- A step that leaves Basin's own part is one. -/
theorem ofSame (h : UnitStep [.bsn, .rcd] a b) (hb : b.bsn = a.bsn) : GiveStep a b := ⟨h, by rw [hb], by rw [hb], by rw [hb], by rw [hb]⟩

theorem modBsn (h : GiveStep a b) {f : BsnSt → BsnSt} (hid : (f b.bsn).id = b.bsn.id) (hsgen : (f b.bsn).sgen = b.bsn.sgen)
    (hcap : (f b.bsn).cap = b.bsn.cap) (hkeys : (f b.bsn).keys = b.bsn.keys) : GiveStep a (Machine.modBsn b f) :=
  h.trans ⟨(UnitStep.refl _ b).modBsn f (by simp), hid, hsgen, hcap, hkeys⟩

theorem drive (h : GiveStep a b) (k : DriveStep b c) : GiveStep a c :=
  h.trans ⟨(UnitStep.refl _ b).drive k (by simp), by rw [k.rest], by rw [k.rest], by rw [k.rest], by rw [k.rest]⟩

theorem count (h : GiveStep a b) {o k : Nat} (ho : o ≤ 8) (hk : k < 0x20) (n : Nat) : GiveStep a (bsnCount b (ownerPage o + k) n) :=
  h.trans (.ofSame ((UnitStep.refl _ b).count ho hk n) rfl)

theorem countUnits_bsn (c : Chip) : (Machine.countUnits c).bsn = c.bsn := by
  have hpages : ∀ (xs : List Nat) (c : Chip),
      (xs.foldl (fun c p => Machine.setReg c (ownerPage p) (BitVec.ofNat 32 (heldUnits c (codeOfPage p)).length)) c).bsn = c.bsn := by
    intro xs
    induction xs with
    | nil => exact fun _ => rfl
    | cons p xs ih => exact fun c => ih _
  rw [Machine.countUnits]
  exact hpages _ c

theorem countUnits (h : GiveStep a b) : GiveStep a (Machine.countUnits b) := h.trans (.ofSame (UnitStep.refl _ b).countUnits (countUnits_bsn b))

theorem dropFlight (c : Chip) (f : BFlight) : GiveStep c (Machine.dropFlight c f) := by
  unfold Machine.dropFlight
  dsimp only
  split
  · exact (GiveStep.foldl _ _ (fun c r => (GiveStep.refl c).count (recLog_le c r) (by decide) 1) c).trans
      (.ofSame ((UnitStep.refl _ _).part (.rcd _ _) (by simp)) rfl)
  · exact ((GiveStep.refl c).count (pageOf_le _) (by decide) _).modBsn rfl rfl rfl rfl
  · exact (GiveStep.refl c).count (pageOf_le _) (by decide) _

theorem dropFlights (c : Chip) (gone : BFlight → Bool) : GiveStep c (Machine.dropFlights c gone) :=
  ((GiveStep.refl c).modBsn rfl rfl rfl rfl).trans (foldl _ _ dropFlight _)

theorem reclaimUnit (c : Chip) (u : Nat) : GiveStep c (Machine.reclaimUnit c u) := by
  unfold Machine.reclaimUnit
  split
  · refine GiveStep.modBsn (GiveStep.drive (GiveStep.modBsn (GiveStep.trans ?_ (dropFlights _ _)) rfl rfl rfl rfl) (writeLogical_step _ _ _)) rfl rfl rfl rfl
    exact (GiveStep.refl c).count (pageOf_le _) (by decide) 1
  · exact .refl c

theorem trimUnits (c : Chip) : GiveStep c (Machine.trimUnits c) := by
  unfold Machine.trimUnits
  refine GiveStep.countUnits (foldl _ _ (fun c p => foldl _ _ (fun c _ => ?_) c) c)
  split
  · exact reclaimUnit c _
  · exact .refl c

end GiveStep

/-! ## ERASE_KEY -/

theorem bsnEraseKey_erases {c : Chip} (p : Nat) {t : Chip} (ht : t = bsnEraseKey c p) :
    t.bsn.keys = (c.bsn.keys.filter fun k => k.owner != p) ∧ fld t bsnCtl 12 4 = 0 ∧ Touches [.bsn, .rcd] (regIn 0x190000 0x190400) c t := by
  obtain ⟨us, hus⟩ : ∃ us, us = ((heldUnits c p).filter fun e => e.2.epoch != 0).map fun e => e.1 := ⟨_, rfl⟩
  obtain ⟨d, hd⟩ : ∃ d, d = modBsn c fun b => { b with keys := b.keys.filter fun k => k.owner != p } := ⟨_, rfl⟩
  obtain ⟨e, he⟩ : ∃ e, e = if bsnServes c = true then countUnits (us.foldl reclaimUnit d) else d := ⟨_, rfl⟩
  have hgive : GiveStep d e := by
    rw [he]
    split
    · exact (GiveStep.foldl _ _ GiveStep.reclaimUnit d).countUnits
    · exact .refl d
  have hform : t = setFld e bsnCtl 12 4 0 := by
    rw [ht, bsnEraseKey, he, hd, hus]
    split <;> rfl
  refine ⟨?_, ?_, ?_⟩
  · rw [hform, setFld_bsn, hgive.keys, hd]
    rfl
  · rw [hform]
    exact fld_setFld_self _ _ _ _ _ (by decide)
  · rw [hform]
    refine Touches.setFld (Touches.trans ?_ hgive.unit.touches) _ _ _ (by decide)
    rw [hd]
    exact (Touches.refl _ _ c).modBsn _ (by simp)

end Sys2Proof.Machine
end

section
-- One proof at a time: every thread takes a stack of its own from the memory that a compile has.
set_option Elab.async false
/-! SUPPORT. Basin: the chunks that a detach writes, and what they keep (R823 to R827, R832, R838, R844, R864). -/

namespace Sys2Proof.Machine

/-! ## What writing a chunk keeps -/

def chunkParts : List Part := [.bsn, .rcd, .free]

namespace UnitStep

theorem give {a b : Chip} (h : GiveStep a b) : UnitStep chunkParts a b := h.unit.mono (by decide)

theorem takeUnit (c : Chip) (o : Nat) : UnitStep chunkParts c (Machine.takeUnit c o).1 := by
  unfold Machine.takeUnit
  split
  · split
    · exact give (.reclaimUnit c _)
    · exact .refl _ c
  · split
    · exact .refl _ c
    · dsimp only
      split
      · exact give (.reclaimUnit c _)
      · exact .refl _ c

theorem epochFor (c : Chip) (o : Nat) : UnitStep chunkParts c (Machine.epochFor c o).1 := by
  unfold Machine.epochFor
  split
  · split
    · exact .refl _ c
    · have hfree : UnitStep chunkParts c (Machine.takeFree c) := (UnitStep.refl _ c).part (.free c _) (by decide)
      dsimp only
      exact hfree.modBsn _ (by decide)
  · exact .refl _ c

theorem openUnit (c : Chip) (kind owner stream : Nat) : UnitStep chunkParts c (Machine.openUnit c kind owner stream).1 := by
  have htake := takeUnit c owner
  unfold Machine.openUnit
  split
  next c1 h => rwa [h] at htake
  next c1 u h =>
  rw [h] at htake
  have hepoch := epochFor c1 owner
  dsimp only
  exact (((htake.trans hepoch).modBsn _ (by decide)).modBsn _ (by decide)).countUnits

theorem unitFor (c : Chip) (kind owner stream n : Nat) : UnitStep chunkParts c (Machine.unitFor c kind owner stream n).1 := by
  unfold Machine.unitFor
  split
  · split
    · exact .refl _ c
    · exact openUnit c kind owner stream
  · exact openUnit c kind owner stream

theorem ofBsn {a b : Chip} (h : Touches [.bsn] noReg a b) : UnitStep chunkParts a b :=
  ⟨h.mono (by decide) (by simp [noReg]), fun off _ _ => regs_noReg h off, fun lo w _ => by rw [fld, regs_noReg h, ← fld]⟩

theorem startChunk (c : Chip) (l kind owner : Nat) (k : BChunk) (items : Nat) (recs : List Rec) :
    UnitStep chunkParts c (Machine.startChunk c l kind owner k items recs).1 := by
  have hunit := unitFor c kind owner (if l < 9 then 0 else l - 16) (k.body.length / 4096 + 1)
  unfold Machine.startChunk
  split
  next c1 _ h => rwa [h] at hunit
  next c1 u new h =>
  rw [h] at hunit
  exact hunit.trans (ofBsn (chunkStep_touches c1 _))

theorem rcd {a b : Chip} (h : UnitStep chunkParts a b) (r : RecSt) : UnitStep chunkParts a { b with rcd := r } := h.part (.rcd b r) (by decide)

theorem recordChunk (c : Chip) (o : Nat) : UnitStep chunkParts c (Machine.recordChunk c o) := by
  unfold Machine.recordChunk
  dsimp only
  split
  · split
    · exact ((startChunk c _ _ _ _ _ _).rcd _).rcd _
    · exact startChunk c _ _ _ _ _ _
  · exact .refl _ c

theorem waveChunk (c : Chip) (l : Nat) : UnitStep chunkParts c (Machine.waveChunk c l) := by
  unfold Machine.waveChunk
  dsimp only
  split
  · split
    · exact (startChunk c _ _ _ _ _ _).modBsn _ (by decide)
    · exact startChunk c _ _ _ _ _ _
  · exact .refl _ c

theorem trendChunk (c : Chip) (l : Nat) : UnitStep chunkParts c (Machine.trendChunk c l) := by
  unfold Machine.trendChunk
  extract_lets run
  split
  dsimp only
  split
  · split
    · exact (startChunk c _ _ _ _ _ _).modBsn _ (by decide)
    · exact startChunk c _ _ _ _ _ _
  · exact .refl _ c

theorem flushFlight (c : Chip) : UnitStep chunkParts c (Machine.flushFlight c) :=
  .foldl _ _ (fun c _ => ((UnitStep.refl _ c).modBsn _ (by decide)).trans (ofBsn (reapChunks_reap 0 _).touches)) c

theorem drainLog {chunk : Chip → Nat → Chip} (hchunk : ∀ c l, UnitStep chunkParts c (chunk c l)) (left : Chip → Nat) (l n : Nat) (c : Chip) :
    UnitStep chunkParts c (Machine.drainLog chunk left l n c) := by
  induction n generalizing c with
  | zero => exact .refl _ c
  | succ n ih =>
    unfold Machine.drainLog
    split
    · exact .refl _ c
    · exact ((hchunk c l).trans (flushFlight _)).trans (ih _)

end UnitStep

/-! ## Once every step of a chunk has completed, none is in flight -/

/-- The members' completions of every chunk in flight come, and each goes on to its next phase or ends. -/
def reapAll (c : Chip) : Chip := reapChunks (modBsn c fun b => { b with flight := b.flight.map fun f => { f with waits := 0 } })

theorem flushFlight_reaps (c : Chip) : flushFlight c = reapAll (reapAll (reapAll c)) := rfl

/-- Every chunk in flight is in phase `k` or a later one, of the phases 0 to 2. -/
def FlightFrom (k : Nat) (c : Chip) : Prop := ∀ f ∈ c.bsn.flight, k ≤ f.phase ∧ f.phase ≤ 2

theorem chunkStep_noUnit {c : Chip} {f : BFlight} (h : bUnit c f.unit = none) : chunkStep c f = c := by rw [chunkStep, h]

theorem reapChunk_from {k : Nat} {c : Chip} {f : BFlight} (hf : k ≤ f.phase) (h : FlightFrom (k + 1) c) : FlightFrom (k + 1) (reapChunk c f) := by
  unfold reapChunk
  split
  next hphase =>
    cases hu : bUnit c f.unit with
    | none =>
      rw [chunkStep_noUnit (f := { f with phase := f.phase + 1 }) hu]
      exact h
    | some x =>
      intro g hg
      rw [chunkStep_unit (f := { f with phase := f.phase + 1 }) hu, List.mem_append, List.mem_singleton] at hg
      rcases hg with hg | rfl
      · exact h g hg
      · dsimp only
        omega
  next =>
    obtain ⟨us, hus⟩ := endChunk_bsn c f
    intro g hg
    rw [hus] at hg
    exact h g hg

theorem reapChunk_foldl {k : Nat} (xs : List BFlight) (hxs : ∀ f ∈ xs, k ≤ f.phase) (c : Chip) (h : FlightFrom (k + 1) c) :
    FlightFrom (k + 1) (xs.foldl reapChunk c) := by
  induction xs generalizing c with
  | nil => exact h
  | cons f xs ih => exact ih (fun g hg => hxs g (List.mem_cons_of_mem _ hg)) _ (reapChunk_from (hxs f List.mem_cons_self) h)

theorem reapAll_from {k : Nat} {c : Chip} (h : ∀ f ∈ c.bsn.flight, k ≤ f.phase) : FlightFrom (k + 1) (reapAll c) := by
  unfold reapAll reapChunks
  refine reapChunk_foldl _ (fun f hf => ?_) _ fun f hf => ?_
  · obtain ⟨g, hg, rfl⟩ := List.mem_map.mp (List.mem_of_mem_filter hf)
    exact h g hg
  · obtain ⟨hmem, hwaits⟩ := List.mem_filter.mp hf
    obtain ⟨g, -, rfl⟩ := List.mem_map.mp hmem
    simp at hwaits

theorem flushFlight_empty (c : Chip) : (flushFlight c).bsn.flight = [] := by
  rw [flushFlight_reaps]
  have h1 : FlightFrom 1 (reapAll c) := reapAll_from fun _ _ => Nat.zero_le _
  have h2 : FlightFrom 2 (reapAll (reapAll c)) := reapAll_from fun f hf => (h1 f hf).1
  have h3 : FlightFrom 3 (reapAll (reapAll (reapAll c))) := reapAll_from fun f hf => (h2 f hf).1
  refine List.eq_nil_iff_forall_not_mem.mpr fun f hf => ?_
  have := h3 f hf
  omega

theorem drainLog_empty (chunk : Chip → Nat → Chip) (left : Chip → Nat) (l n : Nat) (c : Chip) (h : c.bsn.flight = []) :
    (drainLog chunk left l n c).bsn.flight = [] := by
  induction n generalizing c with
  | zero => exact h
  | succ n ih =>
    unfold drainLog
    split
    · exact h
    · exact ih _ (flushFlight_empty _)

/-- The logs of a list are drained, one after another. -/
def drainLogs (ls : List Nat) (chunk : Chip → Nat → Chip) (left : Nat → Chip → Nat) (c : Chip) : Chip :=
  ls.foldl (fun c l => drainLog chunk (left l) l (left l c) c) c

theorem drainLogs_empty (ls : List Nat) (chunk : Chip → Nat → Chip) (left : Nat → Chip → Nat) (c : Chip) (h : c.bsn.flight = []) :
    (drainLogs ls chunk left c).bsn.flight = [] := by
  induction ls generalizing c with
  | nil => exact h
  | cons l ls ih => exact ih _ (drainLog_empty _ _ _ _ _ h)

theorem drainLogs_step (ls : List Nat) {chunk : Chip → Nat → Chip} (hchunk : ∀ c l, UnitStep chunkParts c (chunk c l)) (left : Nat → Chip → Nat)
    (c : Chip) : UnitStep chunkParts c (drainLogs ls chunk left c) := .foldl _ _ (fun c l => .drainLog hchunk (left l) l (left l c) c) c

theorem writeOpen_drains (c : Chip) : writeOpen c =
    drainLogs ((List.range 16).map fun s => 16 + s) waveChunk (fun l c => (bLog c l).sets.length)
      (drainLogs ((List.range 16).map fun s => 16 + s) trendChunk (fun l c => (bLog c l).trend.length)
        (drainLogs (List.range 9) recordChunk (fun l c => (recsOf c l).length) (flushFlight c))) := rfl

theorem writeOpen_empty (c : Chip) : (writeOpen c).bsn.flight = [] := by
  rw [writeOpen_drains]
  exact drainLogs_empty _ _ _ _ (drainLogs_empty _ _ _ _ (drainLogs_empty _ _ _ _ (flushFlight_empty c)))

theorem writeOpen_step (c : Chip) : UnitStep chunkParts c (writeOpen c) := by
  rw [writeOpen_drains]
  exact (((UnitStep.flushFlight c).trans (drainLogs_step _ UnitStep.recordChunk _ _)).trans (drainLogs_step _ UnitStep.trendChunk _ _)).trans
    (drainLogs_step _ UnitStep.waveChunk _ _)

/-! ## DETACH -/

/-- The drives of a list of ports take a state. -/
theorem setDrvStates (ms : List Nat) (st : Nat → Nat) (c : Chip) (hms : ∀ m ∈ ms, m < 4) (hst : ∀ m, st m < 8) {t : Chip}
    (ht : t = ms.foldl (fun c m => setDrvState c m (st m)) c) :
    (∀ m ∈ ms, drvState t m = st m) ∧ (∀ off, regIn 0x190100 0x190180 off = false → reg t off = reg c off)
      ∧ (∀ m ∉ ms, reg t (drvStat m) = reg c (drvStat m)) ∧ t.bsn = c.bsn ∧ Touches [] (regIn 0x190100 0x190180) c t := by
  induction ms generalizing c with
  | nil =>
    rw [ht]
    exact ⟨fun _ h => absurd h List.not_mem_nil, fun _ _ => rfl, fun _ _ => rfl, rfl, .refl _ _ c⟩
  | cons n ms ih =>
    have hn := hms n List.mem_cons_self
    have hin : regIn 0x190100 0x190180 (drvStat n) = true := by
      rw [regIn_iff, drvStat]
      omega
    obtain ⟨hset, hout, hkeep, hbsn, htouch⟩ := ih (setDrvState c n (st n)) (fun m hm => hms m (List.mem_cons_of_mem _ hm)) ht
    have hother {off : Nat} (h : off ≠ drvStat n) : reg (setDrvState c n (st n)) off = reg c off := reg_setFld_other _ _ _ _ _ _ h
    refine ⟨fun m hm => ?_, fun off hoff => (hout off hoff).trans (hother fun e => ?_), fun m hm => ?_, hbsn, ?_⟩
    · by_cases hmem : m ∈ ms
      · exact hset m hmem
      · obtain rfl : m = n := (List.mem_cons.mp hm).resolve_right hmem
        rw [drvState, fld, hkeep m hmem, ← fld]
        exact (fld_setFld_self _ _ _ _ _ (by decide)).trans (Nat.mod_eq_of_lt (hst m))
    · rw [e, hin] at hoff
      exact absurd hoff (by decide)
    · refine (hkeep m fun h => hm (List.mem_cons_of_mem _ h)).trans (hother fun e => hm ?_)
      rw [drvStat, drvStat] at e
      rw [show m = n by omega]
      exact List.mem_cons_self
    · exact Touches.trans ((Touches.refl _ _ c).setFld _ _ _ hin) htouch

theorem mem_portsOf {mask m : Nat} : m ∈ portsOf mask ↔ m < 4 ∧ natBit mask m = true := by
  rw [portsOf, List.mem_filter, show ([0, 1, 2, 3] : List Nat) = List.range 4 from rfl, List.mem_range]

theorem bsnDetach_detaches {c : Chip} (hserves : bsnServes c = true) {t : Chip} (ht : t = bsnDetach c) :
    bsnState t = 0 ∧ bsnMembers t = 0 ∧ fld t bsnCtl 12 4 = 0 ∧ t.bsn.flight = [] ∧ t.bsn.rewrites = []
      ∧ (∀ m : Fin 4, natBit (bsnMembers c) m.val = true → drvState t m.val = 1) ∧ Touches [.bsn, .rcd, .free] (regIn 0x190000 0x190400) c t := by
  obtain ⟨w, hw⟩ : ∃ w, w = writeOpen c := ⟨_, rfl⟩
  obtain ⟨d, hd⟩ : ∃ d, d = writeSupers w true := ⟨_, rfl⟩
  obtain ⟨e, he⟩ : ∃ e, e = (portsOf (bsnMembers d)).foldl (fun c m => setDrvState c m 1) d := ⟨_, rfl⟩
  have hform : t = setFld (setBsnMembers (setBsnState (modBsn e fun b => { b with rewrites := [] }) 0) 0) bsnCtl 12 4 0 := by
    rw [ht, bsnDetach, hserves, if_pos rfl, detachNow, he, hd, hw]
    rfl
  have hopen := writeOpen_step c
  rw [← hw] at hopen
  have hmembers : bsnMembers d = bsnMembers c := by
    rw [hd, bsnMembers, fld, writeSupers_reg, ← fld, hopen.stat _ _ (by decide)]
    rfl
  obtain ⟨hset, -, -, hbsn, htouch⟩ := setDrvStates (portsOf (bsnMembers d)) (fun _ => 1) d (fun m hm => (mem_portsOf.mp hm).1) (fun _ => by decide) he
  obtain ⟨ds, hsupers⟩ := writeSupers_bsn w true
  rw [← hd] at hsupers
  have hbsnT : t.bsn = { e.bsn with rewrites := [] } := by rw [hform]; rfl
  refine ⟨?_, ?_, ?_, ?_, ?_, fun m hm => ?_, ?_⟩
  · rw [hform, bsnState, fld_setFld_other _ _ _ _ _ _ _ _ (by decide), setBsnMembers, fld_setFld_field _ _ _ _ _ _ _ (by decide) (by decide)]
    exact fld_setFld_self _ _ _ _ _ (by decide)
  · rw [hform, bsnMembers, fld_setFld_other _ _ _ _ _ _ _ _ (by decide)]
    exact fld_setFld_self _ _ _ _ _ (by decide)
  · rw [hform]
    exact fld_setFld_self _ _ _ _ _ (by decide)
  · have hkept : t.bsn.flight = w.bsn.flight := by rw [hbsnT, hbsn, hsupers]
    rw [hkept, hw, writeOpen_empty]
  · rw [hbsnT]
  · have hone : drvState e m.val = 1 := hset m.val (mem_portsOf.mpr ⟨m.isLt, by rw [hmembers, hm]⟩)
    have hplace : drvStat m.val ≠ bsnCtl ∧ drvStat m.val ≠ bsnStat := by
      rw [drvStat, bsnCtl, bsnStat]
      omega
    rw [hform, drvState, fld_setFld_other _ _ _ _ _ _ _ _ hplace.1, setBsnMembers, fld_setFld_other _ _ _ _ _ _ _ _ hplace.2, setBsnState,
      fld_setFld_other _ _ _ _ _ _ _ _ hplace.2]
    exact hone
  · rw [hform]
    refine (((Touches.modBsn (Touches.trans (b := d) ?_ (htouch.mono (by simp) fun off h => ?_)) _ (by simp)).setFld _ _ _ (by decide)).setFld _ _ _
      (by decide)).setFld _ _ _ (by decide)
    · rw [hd]
      exact hopen.touches.trans ((writeSupers_touches w true).mono (by decide) (by simp [noReg]))
    · rw [regIn_iff] at h ⊢
      omega

end Sys2Proof.Machine
end

section
-- One proof at a time: every thread takes a stack of its own from the memory that a compile has.
set_option Elab.async false
/-! SUPPORT. Basin: an admission, CREATE and ADMIT (R819, R822, R828, R829, R833). -/

namespace Sys2Proof.Machine

/-! ## Ports as a mask -/

theorem portsOf_maskOf (q : Nat → Bool) : portsOf (maskOf (([0, 1, 2, 3] : List Nat).filter q)) = ([0, 1, 2, 3] : List Nat).filter q
    ∧ maskOf (([0, 1, 2, 3] : List Nat).filter q) < 16 := by
  have key : ∀ q0 q1 q2 q3 : Bool, portsOf (maskOf (([0, 1, 2, 3] : List Nat).filter fun n => [q0, q1, q2, q3].getD n false))
      = (([0, 1, 2, 3] : List Nat).filter fun n => [q0, q1, q2, q3].getD n false)
      ∧ maskOf (([0, 1, 2, 3] : List Nat).filter fun n => [q0, q1, q2, q3].getD n false) < 16 := by decide +kernel
  exact key (q 0) (q 1) (q 2) (q 3)

theorem portsOf_present (c : Chip) : portsOf (maskOf (presentPorts c)) = presentPorts c := (portsOf_maskOf _).1

theorem present_lt (c : Chip) : maskOf (presentPorts c) < 16 := (portsOf_maskOf _).2

theorem mem_present {c : Chip} {m : Nat} : m ∈ presentPorts c ↔ m < 4 ∧ natBit (maskOf (presentPorts c)) m = true := by
  rw [← mem_portsOf, portsOf_present]

/-! ## The admission -/

theorem mendStrip_step (c : Chip) (x : List Nat × Nat) : DriveStep c (mendStrip c x) := by
  unfold mendStrip
  extract_lets row dst
  split
  · exact .foldl _ _ (fun c i => putBlock_step c _ _ _) c
  · exact .refl c

theorem makeConsistent_step (c : Chip) (clean : Bool) : DriveStep c (makeConsistent c clean) := by
  unfold makeConsistent
  split
  · exact .refl c
  · exact .foldl _ _ mendStrip_step c

theorem requeueRecs_touches (c : Chip) : Touches [.rcd] noReg c (requeueRecs c) := by
  have hmark : ∀ (d : Chip) (o : Nat), Touches [.rcd] noReg d (recordsFrom d o) := fun d o => (Touches.refl _ _ d).part (.rcd d _) (by decide)
  unfold requeueRecs
  extract_lets
  exact ((Touches.refl _ _ c).part (.rcd c _) (by decide)).trans (Touches.foldl _ _ (fun d o _ => hmark d o) _)

theorem requeueRecs_bsn (c : Chip) : (requeueRecs c).bsn = c.bsn := (requeueRecs_touches c).same .bsn (by decide) (by decide)

theorem requeueRecs_give (c : Chip) : GiveStep c (requeueRecs c) :=
  .ofSame ⟨(requeueRecs_touches c).mono (by decide) (by simp [noReg]), fun off _ _ => regs_noReg (requeueRecs_touches c) off, fun lo w _ => by
    rw [fld, regs_noReg (requeueRecs_touches c), ← fld]⟩ (requeueRecs_bsn c)

theorem startDp0_touches (c : Chip) : Touches [.dma] (regAt (dpStat 0)) c (startDp0 c) :=
  ((Touches.refl _ _ c).setFld _ _ _ (by decide)).part (.dma _ _) (by decide)

/-- The drives of a Basin with no rebuild become active. -/
theorem activeDrives (ms : List Nat) (c : Chip) (h : c.bsn.rebuild = none) :
    ms.foldl (fun c m => setDrvState c m (if c.bsn.rebuild = some m then 4 else 2)) c = ms.foldl (fun c m => setDrvState c m 2) c := by
  induction ms generalizing c with
  | nil => rfl
  | cons m ms ih =>
    rw [List.foldl_cons, List.foldl_cons, h, if_neg (by simp)]
    exact ih _ h

/-- The registers that an admission with the members `use` sets first. -/
def entryStart (c : Chip) (use : Nat) : Chip :=
  setBsnMembers (setFld (setFld c 0x190010 0 20 (logicalBlocks c.bsn.layout c.bsn.ports c.bsn.cap / unitBlocks)) 0x190014 0 17 (c.bsn.cursor / 4096)) use

/-- Those registers and the states of the drives that an admission with the members `use` sets first. -/
def entryRegs (c : Chip) (use : Nat) : Chip := (portsOf use).foldl (fun c m => setDrvState c m 2) (entryStart c use)

theorem entryStart_bsn (c : Chip) (use : Nat) : (entryStart c use).bsn = c.bsn := rfl

/-- The units that an admission finds. -/
def entryFound (c : Chip) (use : Nat) : List (Nat × BUnit) :=
  (List.range (logicalBlocks c.bsn.layout c.bsn.ports c.bsn.cap / unitBlocks)).filterMap fun u => (findUnit (entryRegs c use) u).map fun x => (u, x)

/-- The node with the units that an admission finds. -/
def entryUnits (c : Chip) (use : Nat) : Chip :=
  modBsn (entryRegs c use) fun b => { b with
    units := (entryFound c use).foldl (fun m e => smPut unitDef m e.1 (some e.2)) []
    ugen := (entryFound c use).foldl (fun a e => max a e.2.ugen) 0
    auto := none }

theorem enterAdmitted_whole {c : Chip} {use : Nat} (hrebuild : c.bsn.rebuild = none) (hports : c.bsn.ports = use) (clean : Bool) :
    enterAdmitted c use clean
      = startDp0 (requeueRecs (trimUnits (writeSupers (setBsnState (makeConsistent (entryUnits c use) clean) 2) false))) := by
  have hactive := activeDrives (portsOf use) (entryStart c use) ((congrArg BsnSt.rebuild (entryStart_bsn c use)).trans hrebuild)
  rw [entryStart] at hactive
  rw [enterAdmitted, hactive, hrebuild]
  dsimp only [Option.isSome]
  rw [if_neg Bool.false_ne_true, if_pos hports.symm]
  rfl

theorem entryRegs_sets {c : Chip} {use : Nat} (hlt : use < 16) : bsnMembers (entryRegs c use) = use ∧ (∀ m ∈ portsOf use, drvState (entryRegs c use) m = 2)
    ∧ (entryRegs c use).bsn = c.bsn ∧ Touches [.bsn, .rcd, .dma] (fun off => regIn 0x190000 0x190400 off || off == dpStat 0) c (entryRegs c use) := by
  obtain ⟨d, hd⟩ : ∃ d, d = entryStart c use := ⟨_, rfl⟩
  obtain ⟨hset, hout, -, hbsn, htouch⟩ := setDrvStates (portsOf use) (fun _ => 2) d (fun m hm => (mem_portsOf.mp hm).1) (fun _ => by decide) rfl
  have hform : entryRegs c use = (portsOf use).foldl (fun c m => setDrvState c m 2) d := by rw [entryRegs, hd]
  rw [hform]
  refine ⟨?_, hset, ?_, Touches.trans (b := d) ?_ (htouch.mono (by simp) fun off h => ?_)⟩
  · rw [bsnMembers, fld, hout _ (by decide), ← fld, hd]
    exact (fld_setFld_self _ _ _ _ _ (by decide)).trans (Nat.mod_eq_of_lt hlt)
  · rw [hbsn, hd]
    rfl
  · rw [hd]
    exact (((Touches.refl _ _ c).setFld _ _ _ (by decide)).setFld _ _ _ (by decide)).setFld _ _ _ (by decide)
  · rw [Bool.or_eq_true, regIn_iff]
    rw [regIn_iff] at h
    omega

theorem enterAdmitted_enters {c : Chip} {use : Nat} (hlt : use < 16) (hrebuild : c.bsn.rebuild = none) (hports : c.bsn.ports = use) (clean : Bool)
    {t : Chip} (ht : t = enterAdmitted c use clean) :
    bsnState t = 2 ∧ bsnMembers t = use ∧ (∀ m ∈ portsOf use, drvState t m = 2) ∧ t.bsn.id = c.bsn.id ∧ t.bsn.sgen = c.bsn.sgen + 1
      ∧ t.bsn.cap = c.bsn.cap ∧ Touches [.bsn, .rcd, .dma] (fun off => regIn 0x190000 0x190400 off || off == dpStat 0) c t := by
  obtain ⟨hmembers, hdrives, hbsn, htouch⟩ := entryRegs_sets (c := c) hlt
  obtain ⟨d, hd⟩ : ∃ d, d = makeConsistent (entryUnits c use) clean := ⟨_, rfl⟩
  obtain ⟨e, he⟩ : ∃ e, e = writeSupers (setBsnState d 2) false := ⟨_, rfl⟩
  have hmend := makeConsistent_step (entryUnits c use) clean
  rw [← hd] at hmend
  have hgive : GiveStep e (requeueRecs (trimUnits e)) := (GiveStep.trimUnits e).trans (requeueRecs_give _)
  have hform : t = startDp0 (requeueRecs (trimUnits e)) := by rw [ht, enterAdmitted_whole hrebuild hports, he, hd]
  have hdp := startDp0_touches (requeueRecs (trimUnits e))
  rw [← hform] at hdp
  obtain ⟨ds, hsupers⟩ := writeSupers_bsn (setBsnState d 2) false
  rw [← he] at hsupers
  have hbsnT : t.bsn = (requeueRecs (trimUnits e)).bsn := hdp.same .bsn (by decide) (by decide)
  have hstat {lo w : Nat} (h : lo + w ≤ 16) : fld t bsnStat lo w = fld (setBsnState d 2) bsnStat lo w := by
    rw [fld, hdp.reg (by decide), ← fld, hgive.unit.stat _ _ h, fld, he, writeSupers_reg, ← fld]
  have hreg (off : Nat) : reg d off = reg (entryRegs c use) off := regs_noReg hmend.touches off
  refine ⟨?_, ?_, fun m hm => ?_, ?_, ?_, ?_, ?_⟩
  · rw [bsnState, hstat (by decide)]
    exact fld_setFld_self _ _ _ _ _ (by decide)
  · rw [bsnMembers, hstat (by decide), setBsnState, fld_setFld_field _ _ _ _ _ _ _ (by decide) (by decide), fld, hreg, ← fld]
    exact hmembers
  · have hlow : drvStat m < 0x190200 ∧ drvStat m ≠ bsnStat := by
      have := (mem_portsOf.mp hm).1
      rw [drvStat, bsnStat]
      omega
    have hout : regAt (dpStat 0) (drvStat m) = false := by
      have hdps : dpStat 0 = 0x1A010C := rfl
      simp only [regAt, beq_eq_false_iff_ne]
      omega
    rw [drvState, fld, hdp.reg hout, hgive.unit.own _ hlow.1 hlow.2, he, writeSupers_reg, setBsnState, reg_setFld_other _ _ _ _ _ _ hlow.2, hreg, ← fld]
    exact hdrives m hm
  · rw [hbsnT, hgive.id, hsupers]
    show d.bsn.id = _
    rw [hmend.rest]
    show (entryRegs c use).bsn.id = _
    rw [hbsn]
  · rw [hbsnT, hgive.sgen, hsupers]
    show d.bsn.sgen + 1 = _
    rw [hmend.rest]
    show (entryRegs c use).bsn.sgen + 1 = _
    rw [hbsn]
  · rw [hbsnT, hgive.cap, hsupers]
    show d.bsn.cap = _
    rw [hmend.rest]
    show (entryRegs c use).bsn.cap = _
    rw [hbsn]
  · have hsub : ∀ off, regIn 0x190000 0x190400 off = true → (regIn 0x190000 0x190400 off || off == dpStat 0) = true := fun off h => by rw [h]; rfl
    refine Touches.trans (b := requeueRecs (trimUnits e)) ?_ (hdp.mono (by decide) fun off h => ?_)
    · refine Touches.trans (b := e) ?_ (hgive.unit.touches.mono (by decide) hsub)
      rw [he]
      refine Touches.trans (b := setBsnState d 2) ?_ ((writeSupers_touches _ false).mono (by decide) (by simp [noReg]))
      exact Touches.setFld (((htouch.modBsn _ (by decide)).trans (hmend.touches.mono (by decide) (by simp [noReg])))) _ _ _ (by decide)
    · rw [show (off == dpStat 0) = true from h, Bool.or_true]

end Sys2Proof.Machine
end

section
-- One proof at a time: every thread takes a stack of its own from the memory that a compile has.
set_option Elab.async false
/-! SUPPORT. Basin: CREATE on blank drives, and ADMIT of a whole Basin (R819, R822, R828). -/

namespace Sys2Proof.Machine

/-! ## Nothing is found on blank members -/

/-- Every member's drive is there, serves as it is read and holds no block. -/
structure Blank (c : Chip) : Prop where
  inUse : ∀ m, natBit c.bsn.ports m = true → m < 4 → natBit (bsnMembers c) m = true
  there : ∀ m, natBit c.bsn.ports m = true → m < 4 → (bDrive c m).isSome = true
  empty : ∀ m b, natBit c.bsn.ports m = true → m < 4 → driveBlock c m b = zeroBlock 0
  whole : c.bsn.rebuild = none

/-- The first port that a block is read from is one of the layout's. -/
theorem blockPorts_head {layout ports : Nat} (hlt : ports < 16) (hfits : layoutFits layout ports = true) (l : Nat) :
    natBit ports ((blockPorts layout ports l).1.headD 0) = true ∧ (blockPorts layout ports l).1.headD 0 < 4 := by
  have hmem : ∀ {ps : List Nat} {i : Nat}, i < ps.length → ps.getD i 0 ∈ ps := fun {ps i} h => by
    rw [List.getD_eq_getElem _ _ h]
    exact List.getElem_mem h
  unfold layoutFits at hfits
  unfold blockPorts
  split at hfits
  · have hne : 0 < (portsOf ports).length := by
      have key : ∀ p : Fin 16, (p.val != 0) = true → 0 < (portsOf p.val).length := by decide +kernel
      exact key ⟨ports, hlt⟩ hfits
    have hport := mem_portsOf.mp (hmem (Nat.mod_lt (l / 64) hne))
    exact ⟨hport.2, hport.1⟩
  · rw [beq_iff_eq.mp hfits]
    have key : ∀ (pd : Fin 4) (k : Fin 3), natBit 15 ((([0, 1, 2, 3] : List Nat).filter fun n => n != 3 - pd.val).getD k.val 0) = true
        ∧ ((([0, 1, 2, 3] : List Nat).filter fun n => n != 3 - pd.val).getD k.val 0) < 4 := by decide +kernel
    exact key ⟨l / 64 / 3 % 4, by omega⟩ ⟨l / 64 % 3, by omega⟩
  · have hpair : ∀ p : Fin 16, (p.val == 3 || p.val == 12 || p.val == 15) = true → 0 < (([0, 1] : List Nat).filter fun k => natBit p.val (2 * k)).length := by
      decide +kernel
    have hin := List.mem_filter.mp (hmem (Nat.mod_lt (l / 64) (hpair ⟨ports, hlt⟩ hfits)))
    refine ⟨hin.2, ?_⟩
    have hle : ∀ k ∈ ([0, 1] : List Nat), 2 * k < 4 := by decide
    exact hle _ hin.1
  · exact absurd hfits (by decide)

theorem readLogical_blank {c : Chip} (hlt : c.bsn.ports < 16) (hfits : layoutFits c.bsn.layout c.bsn.ports = true) (h : Blank c) (l : Nat) :
    readLogical c l = zeroBlock 0 := by
  obtain ⟨hport, hm⟩ := blockPorts_head hlt hfits l
  unfold readLogical
  split
  next ps strip hplace =>
  rw [hplace] at hport hm
  have hread : readable c strip (ps.headD 0) = true := by
    rw [readable, h.inUse _ hport hm, h.there _ hport hm, h.whole]
    rfl
  dsimp only
  rw [if_pos (.inr hread)]
  exact h.empty _ _ hport hm

theorem headIn_zero : headIn (zeroBlock 0) = none := by decide +kernel

theorem findUnit_blank {c : Chip} (hlt : c.bsn.ports < 16) (hfits : layoutFits c.bsn.layout c.bsn.ports = true) (h : Blank c) (u : Nat) :
    findUnit c u = none := by
  rw [findUnit, readLogical_blank hlt hfits h, headIn_zero]
  rfl

theorem entryFound_blank {c : Chip} {use : Nat} (hlt : c.bsn.ports < 16) (hfits : layoutFits c.bsn.layout c.bsn.ports = true)
    (h : Blank (entryRegs c use)) (hbsn : (entryRegs c use).bsn = c.bsn) : entryFound c use = [] := by
  rw [entryFound, List.filterMap_eq_nil_iff]
  intro u _
  rw [findUnit_blank (by rwa [hbsn]) (by rwa [hbsn]) h]
  rfl

/-- With no unit held there is none to give back. -/
theorem trimUnits_none {c : Chip} (h : c.bsn.units = []) : (trimUnits c).bsn = c.bsn := by
  have hheld (p : Nat) : heldUnits c p = [] := by rw [heldUnits, h]; rfl
  have hfold : ∀ ps : List Nat, ps.foldl (fun c p => (List.range ((heldUnits c p).length - basinSpace c p)).foldl (fun c _ =>
      match reclaimChoice c p with
      | some u => reclaimUnit c u
      | none => c) c) c = c := by
    intro ps
    induction ps with
    | nil => rfl
    | cons p ps ih =>
      rw [List.foldl_cons, hheld, List.length_nil, Nat.zero_sub, List.range_zero, List.foldl_nil]
      exact ih
  rw [trimUnits, GiveStep.countUnits_bsn]
  exact congrArg Chip.bsn (hfold _)

/-- An admission of blank members, whose superblocks are not looked at. -/
theorem enterAdmitted_blank {c : Chip} {use : Nat} (hlt : use < 16) (hports : c.bsn.ports = use) (hfits : layoutFits c.bsn.layout c.bsn.ports = true)
    (h : Blank (entryRegs c use)) (hbsn : (entryRegs c use).bsn = c.bsn) {t : Chip} (ht : t = enterAdmitted c use true) :
    t.bsn.ports = c.bsn.ports ∧ t.bsn.layout = c.bsn.layout ∧ t.bsn.units = [] ∧ t.bsn.rebuild = none := by
  obtain ⟨d, hd⟩ : ∃ d, d = entryUnits c use := ⟨_, rfl⟩
  obtain ⟨e, he⟩ : ∃ e, e = writeSupers (setBsnState d 2) false := ⟨_, rfl⟩
  have hrebuild : c.bsn.rebuild = none := by rw [← hbsn, h.whole]
  have hform : t = startDp0 (requeueRecs (trimUnits e)) := by
    rw [ht, enterAdmitted_whole hrebuild hports, he, hd]
    rfl
  obtain ⟨ds, hsupers⟩ := writeSupers_bsn (setBsnState d 2) false
  rw [← he] at hsupers
  have hunits : d.bsn = { c.bsn with units := [], ugen := 0, auto := none } := by
    rw [hd, entryUnits, entryFound_blank (by omega) hfits h hbsn, modBsn]
    dsimp only
    rw [hbsn]
    rfl
  have hempty : e.bsn.units = [] := by
    rw [hsupers]
    show d.bsn.units = []
    rw [hunits]
  have hbsnT : t.bsn = e.bsn := by
    rw [hform, (startDp0_touches _).same .bsn (by decide) (by decide), requeueRecs_bsn, trimUnits_none hempty]
  refine ⟨?_, ?_, ?_, ?_⟩
  · rw [hbsnT, hsupers]
    show d.bsn.ports = _
    rw [hunits]
  · rw [hbsnT, hsupers]
    show d.bsn.layout = _
    rw [hunits]
  · rw [hbsnT, hempty]
  · rw [hbsnT, hsupers]
    show d.bsn.rebuild = _
    rw [hunits]
    exact hrebuild

/-! ## CREATE -/

/-- The drives of a list of ports hold no block any more. -/
def blankDrives (ms : List Nat) (c : Chip) : Chip := ms.foldl (fun c m => setBDrive c m ((bDrive c m).map fun d => { d with data := [] })) c

theorem blankDrives_drive (ms : List Nat) (c : Chip) (m : Nat) :
    bDrive (blankDrives ms c) m = if m ∈ ms then (bDrive c m).map fun d => { d with data := [] } else bDrive c m := by
  induction ms generalizing c with
  | nil => rfl
  | cons n ms ih =>
    refine (ih _).trans ?_
    by_cases hmn : m = n
    · subst hmn
      rw [bDrive_setBDrive_self, if_pos List.mem_cons_self, Option.map_map]
      exact ite_self _
    · simp only [bDrive_setBDrive_other _ hmn, List.mem_cons, hmn, false_or]

theorem blankDrives_step (ms : List Nat) (c : Chip) : Touches [.bsn] noReg c (blankDrives ms c) :=
  Touches.foldl _ _ (fun _ _ _ => (Touches.refl _ _ _).modBsn _ (by decide)) c

/-- A Basin of the present drives, blank, as CREATE begins it. -/
def createBase (c : Chip) (layout cap : Nat) : Chip :=
  modBsn (takeFree (blankDrives (presentPorts c) c)) fun b => { b with
    id := Config.freeValue c.free % 2 ^ 64, sgen := 0, cap := cap, layout := layout, ports := maskOf (presentPorts c), cursor := 0,
    rebuild := none, flight := [], rewrites := [] }

theorem bsnCreate_enters {c : Chip} (hstate : bsnState c = 0) (hmode : bsnModeOk c = true)
    (hfits : layoutFits (fld c 0x190004 0 2) (maskOf (presentPorts c)) = true) (hsuit : (presentPorts c).all (portSuitable c) = true)
    (hphy : createPhyOff c (fld c 0x190004 0 2) = false) : ∃ cap,
    bsnCreate c = bsnRefuse (enterAdmitted (createBase c (fld c 0x190004 0 2) cap) (maskOf (presentPorts c)) true) 0 := by
  have hnot : ¬ (bsnState c ≠ 0 ∨ bsnModeOk c = false ∨ createPhyOff c (fld c 0x190004 0 2) = true) := by
    rw [hstate, hmode, hphy]
    decide
  rw [bsnCreate]
  extract_lets cap c1 c2
  refine ⟨cap, ?_⟩
  have hgood : (!layoutFits (fld c 0x190004 0 2) (maskOf (presentPorts c)) || !(presentPorts c).all (portSuitable c)) = false := by
    rw [hfits, hsuit]
    rfl
  rw [if_neg hnot, hgood, if_neg Bool.false_ne_true]
  rfl

theorem entryRegs_drive (c : Chip) {use : Nat} (hlt : use < 16) (m : Nat) : bDrive (entryRegs c use) m = bDrive c m := by
  rw [bDrive, (entryRegs_sets hlt).2.2.1]
  rfl

theorem present_drive {c : Chip} {m : Nat} (h : m ∈ presentPorts c) : (bDrive c m).isSome = true :=
  (Bool.and_eq_true _ _ ▸ (List.mem_filter.mp h).2).2

theorem createBase_blank (c : Chip) (layout cap : Nat) : Blank (entryRegs (createBase c layout cap) (maskOf (presentPorts c))) := by
  have hlt := present_lt c
  obtain ⟨hmembers, -, hbsn, -⟩ := entryRegs_sets (c := createBase c layout cap) hlt
  have hports : (entryRegs (createBase c layout cap) (maskOf (presentPorts c))).bsn.ports = maskOf (presentPorts c) := by
    rw [hbsn]
    rfl
  have hdrive {m : Nat} (h : m ∈ presentPorts c) :
      bDrive (entryRegs (createBase c layout cap) (maskOf (presentPorts c))) m = (bDrive c m).map fun d => { d with data := [] } := by
    rw [entryRegs_drive _ hlt]
    exact (blankDrives_drive (presentPorts c) c m).trans (if_pos h)
  refine ⟨fun m hport _ => ?_, fun m hport hm => ?_, fun m b hport hm => ?_, ?_⟩
  · rw [hmembers, ← hports]
    exact hport
  · rw [hports] at hport
    rw [hdrive (mem_present.mpr ⟨hm, hport⟩), Option.isSome_map]
    exact present_drive (mem_present.mpr ⟨hm, hport⟩)
  · rw [hports] at hport
    rw [driveBlock, hdrive (mem_present.mpr ⟨hm, hport⟩)]
    cases bDrive c m <;> rfl
  · rw [hbsn]
    rfl

theorem bsnCreate_creates {c : Chip} (hstate : bsnState c = 0) (hmode : bsnModeOk c = true)
    (hfits : layoutFits (fld c 0x190004 0 2) (maskOf (presentPorts c)) = true) (hsuit : (presentPorts c).all (portSuitable c) = true)
    (hphy : createPhyOff c (fld c 0x190004 0 2) = false) {t : Chip} (ht : t = bsnCreate c) :
    bsnState t = 2 ∧ bsnMembers t = maskOf (presentPorts c) ∧ fld t bsnCtl 12 4 = 0 ∧ t.bsn.ports = maskOf (presentPorts c)
      ∧ t.bsn.layout = fld c 0x190004 0 2 ∧ t.bsn.units = [] ∧ t.bsn.rebuild = none ∧ (∀ m ∈ presentPorts c, drvState t m = 2)
      ∧ Touches [.bsn, .rcd, .dma, .free] (fun off => regIn 0x190000 0x190400 off || off == dpStat 0) c t := by
  obtain ⟨cap, hcap⟩ := bsnCreate_enters hstate hmode hfits hsuit hphy
  obtain ⟨use, huse⟩ : ∃ use, use = maskOf (presentPorts c) := ⟨_, rfl⟩
  obtain ⟨b, hb⟩ : ∃ b, b = createBase c (fld c 0x190004 0 2) cap := ⟨_, rfl⟩
  obtain ⟨e, he⟩ : ∃ e, e = enterAdmitted b use true := ⟨_, rfl⟩
  have hform : t = setFld e bsnCtl 12 4 0 := by
    rw [ht, hcap, he, hb, huse]
    rfl
  have hlt : use < 16 := huse ▸ present_lt c
  have hbports : b.bsn.ports = use := by
    rw [hb, huse]
    rfl
  have hblayout : b.bsn.layout = fld c 0x190004 0 2 := by
    rw [hb]
    rfl
  have hbrebuild : b.bsn.rebuild = none := by
    rw [hb]
    rfl
  have hbfits : layoutFits b.bsn.layout b.bsn.ports = true := by
    rw [hblayout, hbports, huse]
    exact hfits
  have hblank : Blank (entryRegs b use) := by
    rw [hb, huse]
    exact createBase_blank c _ cap
  obtain ⟨hst, hmembers, hdrives, -, -, -, htouch⟩ := enterAdmitted_enters hlt hbrebuild hbports true he
  obtain ⟨hports, hlayout, hunits, hrebuild⟩ := enterAdmitted_blank hlt hbports hbfits hblank (entryRegs_sets hlt).2.2.1 he
  have hbsn : t.bsn = e.bsn := by
    rw [hform]
    rfl
  have hreg {off : Nat} (h : off ≠ bsnCtl) : reg t off = reg e off := by
    rw [hform, reg_setFld_other _ _ _ _ _ _ h]
  refine ⟨?_, ?_, ?_, ?_, ?_, ?_, ?_, fun m hm => ?_, ?_⟩
  · rw [bsnState, fld, hreg (by decide)]
    exact hst
  · rw [bsnMembers, fld, hreg (by decide), ← huse]
    exact hmembers
  · rw [hform]
    exact fld_setFld_self _ _ _ _ _ (by decide)
  · rw [hbsn, hports, hbports, huse]
  · rw [hbsn, hlayout, hblayout]
  · rw [hbsn, hunits]
  · rw [hbsn, hrebuild]
  · rw [drvState, fld, hreg (by rw [drvStat, bsnCtl]; omega)]
    refine hdrives m ?_
    rw [huse, portsOf_present]
    exact hm
  · rw [hform]
    refine Touches.setFld (Touches.trans (b := b) ?_ (htouch.mono (by decide) fun _ h => h)) _ _ _ (by decide)
    rw [hb]
    have hfree : Touches [.bsn, .rcd, .dma, .free] (fun off => regIn 0x190000 0x190400 off || off == dpStat 0) c (takeFree (blankDrives (presentPorts c) c)) :=
      ((blankDrives_step (presentPorts c) c).mono (by decide) (by simp [noReg])).part (.free _ _) (by decide)
    exact hfree.modBsn _ (by decide)

end Sys2Proof.Machine
end

section
-- One proof at a time: every thread takes a stack of its own from the memory that a compile has.
set_option Elab.async false
/-! SUPPORT. Basin: ADMIT of a whole Basin, and the commands as they are written to BSN_CTL (R828, R866). -/

namespace Sys2Proof.Machine

/-- The superblock is one of a Basin with no rebuild, of that number, generation and capacity, and with these members. -/
structure SuperOf (id g cap members : Nat) (s : SuperBlk) : Prop where
  id : s.basinId = id
  sgen : s.sgen = g
  cap : s.cap = cap
  members : s.members = members
  rebuild : s.rebuild = none

/-- The ports with a superblock, with what it says. -/
def supersOf (c : Chip) : List (Nat × SuperBlk) := (presentPorts c).filterMap fun m => (portSuper c m).map fun s => (m, s)

theorem supersOf_mem {c : Chip} {id g cap : Nat}
    (h : ∀ m ∈ presentPorts c, ∃ s, portSuper c m = some s ∧ SuperOf id g cap (maskOf (presentPorts c)) s) {e : Nat × SuperBlk}
    (he : e ∈ supersOf c) : e.1 ∈ presentPorts c ∧ SuperOf id g cap (maskOf (presentPorts c)) e.2 := by
  obtain ⟨m, hm, hpair⟩ := List.mem_filterMap.mp he
  obtain ⟨s, hs, hof⟩ := h m hm
  rw [hs, Option.map_some, Option.some.injEq] at hpair
  rw [← hpair]
  exact ⟨hm, hof⟩

theorem supersOf_ports {c : Chip} {id g cap : Nat}
    (h : ∀ m ∈ presentPorts c, ∃ s, portSuper c m = some s ∧ SuperOf id g cap (maskOf (presentPorts c)) s) :
    (supersOf c).map (fun e => e.1) = presentPorts c := by
  have hall : ∀ ms : List Nat, (∀ m ∈ ms, ∃ s, portSuper c m = some s) →
      (ms.filterMap fun m => (portSuper c m).map fun s => (m, s)).map (fun e => e.1) = ms := by
    intro ms
    induction ms with
    | nil => exact fun _ => rfl
    | cons m ms ih =>
      intro hms
      obtain ⟨s, hs⟩ := hms m List.mem_cons_self
      simp only [List.filterMap_cons, hs, Option.map_some, List.map_cons, ih fun k hk => hms k (List.mem_cons_of_mem _ hk)]
  exact hall _ fun m hm => (h m hm).imp fun _ hs => hs.1

/-- The first of superblocks of one generation is the latest. -/
theorem latest_same {g : Nat} (xs : List (Nat × SuperBlk)) (a : SuperBlk) (ha : a.sgen = g) (hxs : ∀ e ∈ xs, e.2.sgen = g) :
    xs.foldl (fun a e => if a.sgen < e.2.sgen then e.2 else a) a = a := by
  induction xs with
  | nil => rfl
  | cons e xs ih =>
    rw [List.foldl_cons, if_neg (by rw [ha, hxs e List.mem_cons_self]; omega)]
    exact ih fun x hx => hxs x (List.mem_cons_of_mem _ hx)

theorem lossMasked_none (layout : Nat) : lossMasked layout 0 = true := by
  unfold lossMasked
  split <;> rfl

/-- A whole Basin as ADMIT takes it from a superblock. -/
def wholeBase (c : Chip) (s : SuperBlk) (use : Nat) : Chip :=
  modBsn c fun b => { b with
    id := s.basinId, sgen := s.sgen, cap := s.cap, layout := s.layout, ports := s.members, cursor := s.cursor,
    rebuild := s.rebuild.filter fun r => natBit use r, flight := [], rewrites := [] }

theorem bsnAdmit_whole {c : Chip} {id g cap : Nat} (hstate : bsnState c = 0 ∨ bsnState c = 5) (hmode : bsnModeOk c = true)
    (hne : presentPorts c ≠ []) (hsuit : ∀ m ∈ presentPorts c, portSuitable c m = true ∧ cap ≤ portBlocks c m)
    (h : ∀ m ∈ presentPorts c, ∃ s, portSuper c m = some s ∧ SuperOf id g cap (maskOf (presentPorts c)) s) :
    ∃ s, SuperOf id g cap (maskOf (presentPorts c)) s
      ∧ bsnAdmit c = bsnRefuse (enterAdmitted (wholeBase c s (maskOf (presentPorts c))) (maskOf (presentPorts c)) s.clean) 0 := by
  have hmem := fun {e} => supersOf_mem h (e := e)
  have hports := supersOf_ports h
  have hon : ∀ m ∈ presentPorts c, domOn c (2 + m) = true := fun m hm => (Bool.and_eq_true _ _ ▸ (List.mem_filter.mp hm).2).1
  have hnot : ¬ ((bsnState c ≠ 0 ∧ bsnState c ≠ 5) ∨ bsnModeOk c = false ∨ (portsOff c).length = 4) := by
    rintro (⟨h0, h5⟩ | hoff | hoff)
    · exact hstate.elim h0 h5
    · exact absurd hmode (by rw [hoff]; decide)
    · obtain ⟨m, hm⟩ := List.exists_mem_of_ne_nil _ hne
      have hall : portsOff c = [0, 1, 2, 3] := List.filter_eq_self.mpr fun n hn => by
        have hlen := (List.filter_sublist (l := ([0, 1, 2, 3] : List Nat)) (p := fun m => !domOn c (2 + m))).eq_of_length hoff
        exact (List.filter_eq_self.mp hlen) n hn
      have hm4 := (mem_present.mp hm).1
      have hin : m ∈ portsOff c := by
        rw [hall]
        show m ∈ List.range 4
        exact List.mem_range.mpr hm4
      have hclear := (List.mem_filter.mp hin).2
      rw [hon m hm] at hclear
      exact absurd hclear (by decide)
  obtain ⟨e0, rest, hlist⟩ : ∃ e0 rest, supersOf c = e0 :: rest := by
    cases hs : supersOf c with
    | nil => rw [hs] at hports; exact absurd hports.symm hne
    | cons e0 rest => exact ⟨e0, rest, rfl⟩
  have hfirst : e0 ∈ supersOf c := hlist ▸ List.mem_cons_self
  have hof : SuperOf id g cap (maskOf (presentPorts c)) e0.2 := (hmem hfirst).2
  have htop : (supersOf c).foldl (fun a e => if a.sgen < e.2.sgen then e.2 else a) e0.2 = e0.2 :=
    latest_same _ _ hof.sgen fun e he => (hmem he).2.sgen
  have hids : ((supersOf c).any fun e => e.2.basinId != e0.2.basinId) = false :=
    List.any_eq_false.mpr fun e he => by rw [(hmem he).2.id, hof.id]; simp
  have hphys : ((portsOff c).any fun m => natBit e0.2.members m) = false := List.any_eq_false.mpr fun m hm => by
    obtain ⟨hlow, hoff⟩ := List.mem_filter.mp hm
    rw [hof.members]
    intro hbit
    have hlow4 : m < 4 := List.mem_range.mp (show m ∈ List.range 4 from hlow)
    rw [hon m (mem_present.mpr ⟨hlow4, hbit⟩)] at hoff
    exact absurd hoff (by decide)
  have hbasin : ((supersOf c).filter fun e => natBit e0.2.members e.1) = supersOf c :=
    List.filter_eq_self.mpr fun e he => by rw [hof.members]; exact (mem_present.mp (hmem he).1).2
  have hfresh : ((supersOf c).filter fun e => e.2.sgen == e0.2.sgen) = supersOf c :=
    List.filter_eq_self.mpr fun e he => by rw [(hmem he).2.sgen, hof.sgen]; exact beq_self_eq_true g
  have hstale : ((supersOf c).filter fun e => e.2.sgen != e0.2.sgen) = [] :=
    List.filter_eq_nil_iff.mpr fun e he => by rw [(hmem he).2.sgen, hof.sgen]; simp
  have hgood : ((supersOf c).any fun e => !portSuitable c e.1) = false :=
    List.any_eq_false.mpr fun e he => by rw [(hsuit _ (hmem he).1).1]; decide
  have hfits : ((supersOf c).any fun e => decide (portBlocks c e.1 < e0.2.cap)) = false :=
    List.any_eq_false.mpr fun e he => by
      have := (hsuit _ (hmem he).1).2
      rw [hof.cap, decide_eq_true_eq]
      omega
  have hhead : (supersOf c).head? = some (e0.1, e0.2) := by rw [hlist]; rfl
  refine ⟨e0.2, hof, ?_⟩
  rw [bsnAdmit, if_neg hnot]
  dsimp only
  rw [show ((presentPorts c).filterMap fun m => (portSuper c m).map fun s => (m, s)) = supersOf c from rfl, hhead]
  dsimp only
  rw [htop, hids, if_neg Bool.false_ne_true, hphys, if_neg Bool.false_ne_true, hbasin, hgood, if_neg Bool.false_ne_true, hfresh, hfits,
    if_neg Bool.false_ne_true, hports, hstale, hof.rebuild, hof.members]
  dsimp only
  rw [Nat.sub_zero, Nat.sub_self, lossMasked_none, if_neg (by decide), wholeBase, hof.rebuild, hof.members]
  rfl

theorem bsnAdmit_enters {c : Chip} {id g cap : Nat} (hstate : bsnState c = 0 ∨ bsnState c = 5) (hmode : bsnModeOk c = true)
    (hne : presentPorts c ≠ []) (hsuit : ∀ m ∈ presentPorts c, portSuitable c m = true ∧ cap ≤ portBlocks c m)
    (h : ∀ m ∈ presentPorts c, ∃ s, portSuper c m = some s ∧ SuperOf id g cap (maskOf (presentPorts c)) s) {t : Chip} (ht : t = bsnAdmit c) :
    bsnState t = 2 ∧ bsnMembers t = maskOf (presentPorts c) ∧ fld t bsnCtl 12 4 = 0 ∧ t.bsn.id = id ∧ t.bsn.sgen = g + 1 ∧ t.bsn.cap = cap
      ∧ (∀ m ∈ presentPorts c, drvState t m = 2)
      ∧ Touches [.bsn, .rcd, .dma, .free] (fun off => regIn 0x190000 0x190400 off || off == dpStat 0) c t := by
  obtain ⟨s, hof, hwhole⟩ := bsnAdmit_whole hstate hmode hne hsuit h
  obtain ⟨use, huse⟩ : ∃ use, use = maskOf (presentPorts c) := ⟨_, rfl⟩
  obtain ⟨b, hb⟩ : ∃ b, b = wholeBase c s use := ⟨_, rfl⟩
  obtain ⟨e, he⟩ : ∃ e, e = enterAdmitted b use s.clean := ⟨_, rfl⟩
  have hform : t = setFld e bsnCtl 12 4 0 := by
    rw [ht, hwhole, he, hb, huse]
    rfl
  have hrebuild : b.bsn.rebuild = none := by
    rw [hb, wholeBase, hof.rebuild]
    rfl
  have hports : b.bsn.ports = use := by
    rw [hb, wholeBase, hof.members, huse]
    rfl
  obtain ⟨hst, hmembers, hdrives, hid, hsgen, hcap, htouch⟩ := enterAdmitted_enters (huse ▸ present_lt c) hrebuild hports s.clean he
  have hbsn : t.bsn = e.bsn := by
    rw [hform]
    rfl
  have hreg {off : Nat} (h : off ≠ bsnCtl) : reg t off = reg e off := by
    rw [hform, reg_setFld_other _ _ _ _ _ _ h]
  refine ⟨?_, ?_, ?_, ?_, ?_, ?_, fun m hm => ?_, ?_⟩
  · rw [bsnState, fld, hreg (by decide)]
    exact hst
  · rw [bsnMembers, fld, hreg (by decide), ← huse]
    exact hmembers
  · rw [hform]
    exact fld_setFld_self _ _ _ _ _ (by decide)
  · rw [hbsn, hid, hb]
    exact hof.id
  · rw [hbsn, hsgen, hb]
    exact congrArg (· + 1) hof.sgen
  · rw [hbsn, hcap, hb]
    exact hof.cap
  · rw [drvState, fld, hreg (by rw [drvStat, bsnCtl]; omega)]
    refine hdrives m ?_
    rw [huse, portsOf_present]
    exact hm
  · rw [hform]
    refine Touches.setFld (Touches.trans (b := b) ?_ (htouch.mono (by decide) fun _ h => h)) _ _ _ (by decide)
    rw [hb]
    exact (Touches.refl _ _ c).modBsn _ (by decide)

/-! ## What the write of BSN_CTL leaves for the command -/

theorem written_fld {c d : Chip} (htouch : Touches [] (regAt bsnCtl) c d) {off : Nat} (h : off ≠ bsnCtl) (lo w : Nat) : fld d off lo w = fld c off lo w := by
  rw [fld, htouch.reg (by simpa [regAt] using h), ← fld]

theorem written_modeOk {c d : Chip} (hparts : ∃ rs, d = { c with regs := rs }) (htouch : Touches [] (regAt bsnCtl) c d) : bsnModeOk d = bsnModeOk c := by
  have hmode : nodeMode d = nodeMode c := written_fld htouch (by decide) 0 4
  obtain ⟨rs, rfl⟩ := hparts
  rw [bsnModeOk, hmode]
  rfl

theorem written_serves {c d : Chip} (htouch : Touches [] (regAt bsnCtl) c d) : bsnServes d = bsnServes c := by
  rw [bsnServes, bsnState, written_fld htouch (by decide)]
  rfl

theorem written_touches {c d : Chip} (htouch : Touches [] (regAt bsnCtl) c d) {ps : List Part} {rs : Nat → Bool} {t : Chip} (hctl : rs bsnCtl = true)
    (h : Touches ps rs d t) : Touches ps rs c t :=
  (htouch.mono (by simp) fun off ho => by rw [show off = bsnCtl by simpa [regAt] using ho, hctl]).trans h

theorem portWord_fields (op : Fin 8) (n : Fin 8) : natBits (BitVec.ofNat 32 (0x100 + op.val + n.val * 16)).toNat 0 4 = op.val
    ∧ natBits (BitVec.ofNat 32 (0x100 + op.val + n.val * 16)).toNat 4 4 = n.val
    ∧ natBit (BitVec.ofNat 32 (0x100 + op.val + n.val * 16)).toNat 8 = true := by
  revert op n
  decide +kernel

/-- Settles O46: the write of BSN_CTL leaves the node to the command that OP names; an admission, a detach and an erased key
go through a relation that says what giving units back and writing chunks leave of Basin. -/
theorem basinCommandsComplete : Obligations.BasinCommandsComplete := by
  refine ⟨fun s hstate hmode hfits hsuit hphy => ⟨_, rfl, rfl, ?_⟩, fun s id g cap hstate hmode hne hmembers => ⟨_, rfl, rfl, ?_⟩,
    fun s hserves => ⟨_, rfl, rfl, ?_⟩, fun s n hstate hport hout hpresent hsuit hcap => ⟨_, rfl, rfl, ?_⟩,
    fun s n hserves hmem hidle hmask => ⟨_, rfl, rfl, ?_⟩, fun s p => ⟨_, rfl, rfl, ?_⟩⟩
  · obtain ⟨d, hparts, htouch, hform⟩ := bsnCtlWrite_performs s.chip (v := 0x101) (op := 1) (arg := 0) rfl (by decide) rfl rfl (by decide) (by decide)
    have hlayout := written_fld htouch (off := 0x190004) (by decide) 0 2
    have hst := written_fld htouch (off := bsnStat) (by decide) 0 3
    have hok := written_modeOk hparts htouch
    have hsub := fun {ps rs t} => written_touches htouch (ps := ps) (rs := rs) (t := t)
    obtain ⟨rs, rfl⟩ := hparts
    obtain ⟨h2, hmembers, hres, hports, hlay, hunits, hrebuild, hdrives, hall⟩ := bsnCreate_creates (hst.trans hstate) (hok.trans hmode)
      (by rw [hlayout]; exact hfits) hsuit (by rw [hlayout]; exact hphy) hform
    exact ⟨h2, hmembers, hres, hports, hlay.trans hlayout, hunits, hrebuild, hdrives, hsub (by decide) hall⟩
  · obtain ⟨d, hparts, htouch, hform⟩ := bsnCtlWrite_performs s.chip (v := 0x102) (op := 2) (arg := 0) rfl (by decide) rfl rfl (by decide) (by decide)
    have hst : bsnState d = bsnState s.chip := written_fld htouch (by decide) 0 3
    have hok := written_modeOk hparts htouch
    have hsub := fun {ps rs t} => written_touches htouch (ps := ps) (rs := rs) (t := t)
    obtain ⟨rs, rfl⟩ := hparts
    obtain ⟨h2, hmem, hres, hid, hsgen, hcap, hdrives, hall⟩ := bsnAdmit_enters (id := id) (g := g) (cap := cap) (by rw [hst]; exact hstate)
      (hok.trans hmode) hne (fun m hm => ⟨(hmembers m hm).1, (hmembers m hm).2.1⟩) (fun m hm => by
        obtain ⟨-, -, sb, hsb, hsid, hssgen, hscap, hsmembers, hsrebuild⟩ := hmembers m hm
        exact ⟨sb, Option.mem_toList.mp hsb, hsid, hssgen, hscap, hsmembers, hsrebuild⟩) hform
    exact ⟨h2, hmem, hres, hid, hsgen, hcap, hdrives, hsub (by decide) hall⟩
  · obtain ⟨d, hparts, htouch, hform⟩ := bsnCtlWrite_performs s.chip (v := 0x103) (op := 3) (arg := 0) rfl (by decide) rfl rfl (by decide) (by decide)
    have hmembers : bsnMembers d = bsnMembers s.chip := written_fld htouch (by decide) 4 4
    obtain ⟨h0, hm0, hres, hflight, hrewrites, hdrives, hall⟩ := bsnDetach_detaches ((written_serves htouch).trans hserves) hform
    exact ⟨h0, hm0, hres, hflight, hrewrites, fun m hm => hdrives m (by rw [hmembers]; exact hm), written_touches htouch (by decide) hall⟩
  · obtain ⟨hop, harg, hgo⟩ := portWord_fields 4 ⟨n.val, by omega⟩
    obtain ⟨d, hparts, htouch, hform⟩ := bsnCtlWrite_performs s.chip hop (by decide) harg hgo (fun _ => n.isLt) fun h => absurd h (by decide)
    have hst : bsnState d = bsnState s.chip := written_fld htouch (by decide) 0 3
    have hmembers : bsnMembers d = bsnMembers s.chip := written_fld htouch (by decide) 4 4
    have hsub := fun {ps rs t} => written_touches htouch (ps := ps) (rs := rs) (t := t)
    obtain ⟨rs, rfl⟩ := hparts
    obtain ⟨h4, hin, hdrive, hrebuild, hcursor, hdone, hres, hall⟩ := bsnReplace_rebuilds n.isLt (hst.trans hstate) hport (by rw [hmembers]; exact hout)
      hpresent hsuit hcap hform
    exact ⟨h4, hin, hdrive, hrebuild, hcursor, hdone, hres, hsub (by simp [regsAt]) hall⟩
  · obtain ⟨hop, harg, hgo⟩ := portWord_fields 5 ⟨n.val, by omega⟩
    obtain ⟨d, hparts, htouch, hform⟩ := bsnCtlWrite_performs s.chip hop (by decide) harg hgo (fun _ => n.isLt) fun h => absurd h (by decide)
    have hmembers : bsnMembers d = bsnMembers s.chip := written_fld htouch (by decide) 4 4
    have hserve := written_serves htouch
    have hsub := fun {ps rs t} => written_touches htouch (ps := ps) (rs := rs) (t := t)
    obtain ⟨rs, rfl⟩ := hparts
    obtain ⟨h3, hgone, hdrive, hres, hall⟩ := bsnRetire_takesOut n.isLt (hserve.trans hserves) (by rw [hmembers]; exact hmem) hidle
      (by rw [hmembers]; exact hmask) hform
    exact ⟨h3, hgone, hdrive, hres, hsub (by simp [regsAt]) hall⟩
  · obtain ⟨hop, harg, hgo⟩ := portWord_fields 6 p
    obtain ⟨d, hparts, htouch, hform⟩ := bsnCtlWrite_performs s.chip hop (by decide) harg hgo (fun h => absurd h (by decide)) fun _ => p.isLt
    have hsub := fun {ps rs t} => written_touches htouch (ps := ps) (rs := rs) (t := t)
    obtain ⟨rs, rfl⟩ := hparts
    obtain ⟨hkeys, hres, hall⟩ := bsnEraseKey_erases p.val hform
    exact ⟨hkeys, hres, hsub (by decide) hall⟩

end Sys2Proof.Machine
end

section
-- One proof at a time: every thread takes a stack of its own from the memory that a compile has.
set_option Elab.async false
/-! SUPPORT. What a step leaves of power and modes: the parts PWR and mode, SEQ and the tables, and the registers that the targets of
the domains and the rails' flags rest on (R87, R88, R93). -/

namespace Sys2Proof.Machine

/-! ## Steps that leave power and modes alone -/

/-- Every part but those of power and modes, SEQ and the tables. -/
def calmParts : List Part :=
  [.hostMem, .nvm, .points, .ot, .img, .fns, .rcd, .diag, .breach, .readOut, .readAbort, .free, .ana, .bank, .corr, .cells, .trim, .gate,
    .contacts, .pulses, .trips, .legs, .pos, .loops, .evq, .tune, .rtc, .can, .alm, .call, .bsn, .dma, .sdl, .lcd, .spt, .upd, .jtag, .strapTest]

/-- Every register but the mode, the rails, the enables of the domains and the state of the sentry table. -/
def calmReg (off : Nat) : Bool := !([0x100, 0x10000, 0x10004, 0x10010, 0x40000] : List Nat).contains off

/-- Power and modes stand. -/
abbrev Calm (a b : Chip) : Prop := Touches calmParts calmReg a b

theorem calmReg_high {off : Nat} (h : 0x40000 < off) : calmReg off = true := by
  rw [calmReg, Bool.not_eq_true', ← Bool.not_eq_true, List.contains_iff_mem]
  intro hmem
  have hall : ∀ x ∈ ([0x100, 0x10000, 0x10004, 0x10010, 0x40000] : List Nat), x ≤ 0x40000 := by decide
  have := hall off hmem
  omega

theorem reportReg_calm {off : Nat} (h : reportReg off = true) : calmReg off = true := by
  rw [calmReg, Bool.not_eq_true', ← Bool.not_eq_true, List.contains_iff_mem]
  intro hmem
  have hall : ∀ x ∈ ([0x100, 0x10000, 0x10004, 0x10010, 0x40000] : List Nat), reportReg x = false := by decide +kernel
  rw [hall off hmem] at h
  exact absurd h (by decide)

theorem Reports.calm {a b : Chip} (h : Reports a b) : Calm a b := by
  refine ⟨onlyParts_mono h.parts fun p hp => ?_, onlyRegs_mono h.regs fun off ho => reportReg_calm ho⟩
  revert p
  decide

namespace Calm

variable {a b c : Chip}

theorem refl (c : Chip) : Calm c c := Touches.refl _ _ c

theorem report (h : Calm a b) (k : Reports b c) : Calm a c := h.trans k.calm

theorem setFldHigh (h : Calm a b) {off : Nat} (hoff : 0x40000 < off) (lo w x : Nat) : Calm a (setFld b off lo w x) := h.setFld _ _ _ (calmReg_high hoff)

theorem setFlagHigh (h : Calm a b) {off : Nat} (hoff : 0x40000 < off) (i : Nat) (x : Bool) : Calm a (setFlag b off i x) := h.setFlag _ _ (calmReg_high hoff)

/-- A step whose registers lie above those of power, modes and the sentry table. -/
theorem ofHigh {ps : List Part} {rs : Nat → Bool} (h : Touches ps rs a b) (hp : ps ⊆ calmParts) (hr : ∀ off, rs off = true → 0x40000 < off) : Calm a b :=
  h.mono hp fun off ho => calmReg_high (hr off ho)

theorem rail (h : Calm a b) : reg b 0x10000 = reg a 0x10000 ∧ reg b 0x10004 = reg a 0x10004 := ⟨h.reg (by decide), h.reg (by decide)⟩

/-! Faults of the cells, the legs and the panel. -/

theorem cellHigh (ch k : Nat) : 0x40000 < cellBase ch + k := by
  rw [cellBase]
  omega

theorem statHigh (ch : Nat) : 0x40000 < cellStat ch := cellHigh ch _

theorem refreshWord (c : Chip) (ch : Nat) : Calm c (Machine.refreshWord c ch) := by
  unfold Machine.refreshWord
  split
  · exact refl c
  · exact (refl c).part (.points _ _) (by decide)

theorem loadCellFault (c : Chip) (ch i : Nat) (b : Bool) : Calm c (Machine.loadCellFault c ch i b) := by
  have hset : Calm c (Machine.setCellFault c ch i) := by
    unfold Machine.setCellFault
    refine .ite (refl c) (report ?_ ((Reports.refl _).postPointFault _ _ _ _))
    exact (((refl c).setFlagHigh (statHigh ch) i true).setFldHigh (statHigh ch) 16 16 _).trans (refreshWord _ ch)
  have hclear : Calm c (Machine.clearCellFault c ch i) := by
    unfold Machine.clearCellFault
    exact .ite (((refl c).setFlagHigh (statHigh ch) i false).trans (refreshWord _ ch)) (refl c)
  unfold Machine.loadCellFault
  exact .ite hset hclear

theorem vfieldRefresh (c : Chip) (ch : Nat) : Calm c (Machine.vfieldRefresh c ch) := Calm.loadCellFault c ch _ _

theorem vfieldRefreshBank (c : Chip) (n : Nat) : Calm c (Machine.vfieldRefreshBank c n) := Touches.foldl _ _ (fun d _ _ => vfieldRefresh d _) c

theorem legsOff (c : Chip) (mask cause : Nat) : Calm c (Machine.legsOff c mask cause) :=
  ofHigh (legsOff_step c mask cause).touches (by decide) fun off ho => by
    rw [legRegs, regIn_iff] at ho
    omega

theorem biasFault (c : Chip) (detail : Nat) : Calm c (Machine.biasFault c detail) := by
  have hheld : Calm c (if lcdState c = 1 ∨ lcdState c = 2 then modLcd (setLcdState c 4) fun l => { l with firstOff := false } else c) :=
    .ite (((refl c).setFldHigh (by decide) _ _ _).part (.lcd _ _) (by decide)) (refl c)
  unfold Machine.biasFault
  exact (hheld.setFlagHigh (by decide) 0 true).report ((Reports.refl _).postErrorRec _ _ _)

end Calm

/-! ## The rails -/

theorem rail_of_reg {a b : Chip} {off i : Nat} (h : reg b off = reg a off) : flag b off i = flag a off i := by rw [flag, fld, h, ← fld, ← flag]

theorem coldReset_rail (c : Chip) (reached : Nat) : reg (coldReset c reached) 0x10000 = reg c 0x10000 := by
  have hregs : (cutOff c reached).regs = c.regs := by rw [(cutOff_only c reached).same]
  have hkept : (coldReset c reached).regs = smKeep nvmReg c.regs := by
    rw [← hregs]
    rfl
  rw [reg, hkept, smGet_smKeep, if_pos (by decide), reg]

theorem coreLoss_rail {c : Chip} {bit : Nat} (hbit : bit = 1 ∨ bit = 2 ∨ bit = 3) (reached : Nat) {t : Chip} (ht : t = coreLoss c bit reached) :
    flag t 0x10000 bit = false ∧ (flag c 0x10000 0 = true → c.mode.up = true → flag t 0x10004 bit = true) := by
  obtain ⟨c1, hc1⟩ : ∃ c1, c1 = if c.mode.up then { c with mode := { c.mode with cause := [], pccInc := false } } else c := ⟨_, rfl⟩
  obtain ⟨d, hd⟩ : ∃ d, d = setFlag (setFlag c1 0x10000 bit false) 0x10004 bit true := ⟨_, rfl⟩
  have hform : t = if flag c 0x10000 0 && aonRuns c then warmReset d reached [1, 8 + bit] true else setFlag c 0x10000 bit false := by
    rw [ht, coreLoss, hd, hc1]
    rfl
  by_cases hstands : (flag c 0x10000 0 && aonRuns c) = true
  · rw [if_pos hstands] at hform
    obtain ⟨hrail, hevt, -, -⟩ := warmReset_rails d reached _ _ hform
    refine ⟨?_, fun _ _ => ?_⟩
    · rw [rail_of_reg hrail, hd, flag, fld_setFlag_other _ _ _ _ _ _ _ (by decide), ← flag]
      exact flag_setFlag_self _ _ _ _ (by omega)
    · have hset : flag d 0x10004 bit = true := by
        rw [hd]
        exact flag_setFlag_self _ _ _ _ (by omega)
      rw [← hset]
      simp only [flag, fld, bits] at hevt ⊢
      congr 1
      rcases hbit with rfl | rfl | rfl <;> omega
  · rw [if_neg hstands] at hform
    refine ⟨?_, fun h0 hup => absurd (by rw [h0, aonRuns, hup]; rfl) hstands⟩
    rw [hform]
    exact flag_setFlag_self _ _ _ _ (by omega)

theorem vfieldLoss_rail (c : Chip) (n : Fin 3) (high : Bool) {t : Chip} (ht : t = vfieldLoss c n.val high) :
    flag t 0x10000 (4 + n.val) = false ∧ flag t 0x10004 (4 + n.val) = true := by
  obtain ⟨d, hd⟩ : ∃ d, d = setFlag (setFlag c 0x10000 (4 + n.val) false) 0x10004 (4 + n.val) true := ⟨_, rfl⟩
  have hcalm : Calm d t := by
    have hform : t = faultEvent (postErrorRec (vfieldRefreshBank d n.val) 0x32 (srcRes 2 n.val) (b2n high)) 0x32 (srcRes 2 n.val) 0
        (bankFns (postErrorRec (vfieldRefreshBank d n.val) 0x32 (srcRes 2 n.val) (b2n high)) n.val) := by
      rw [ht, vfieldLoss, hd]
      rfl
    rw [hform]
    refine (Calm.vfieldRefreshBank d n.val).report (((Reports.refl _).postErrorRec _ _ _).faultEvent _ _ _ fun f hf => ?_)
    rcases List.mem_append.mp hf with hf | hf
    · obtain ⟨k, -, rfl⟩ := List.mem_map.mp hf
      exact ownerFn_lt _
    · rw [List.mem_singleton.mp hf]
      decide
  obtain ⟨hrail, hevt⟩ := hcalm.rail
  rw [rail_of_reg hrail, rail_of_reg hevt, hd]
  exact ⟨(rail_of_reg (reg_setFlag_other _ _ _ _ _ (by decide))).trans (flag_setFlag_self _ _ _ _ (by omega)), flag_setFlag_self _ _ _ _ (by omega)⟩

theorem vdrvLoss_rail (c : Chip) {t : Chip} (ht : t = vdrvLoss c) : flag t 0x10000 7 = false ∧ flag t 0x10004 7 = true := by
  obtain ⟨d, hd⟩ : ∃ d, d = setFlag (setFlag c 0x10000 7 false) 0x10004 7 true := ⟨_, rfl⟩
  have hcalm : Calm d t := by
    have hform : t = faultEvent (postErrorRec (legsOff d allLegs 2) 0x42 srcNode 0) 0x42 srcNode 0
        (((List.range 12).map fun n => ownerFn (ownerOf (postErrorRec (legsOff d allLegs 2) 0x42 srcNode 0) (legPt n))) ++ [0]) := by
      rw [ht, vdrvLoss, hd]
      rfl
    rw [hform]
    refine (Calm.legsOff d allLegs 2).report (((Reports.refl _).postErrorRec _ _ _).faultEvent _ _ _ fun f hf => ?_)
    rcases List.mem_append.mp hf with hf | hf
    · obtain ⟨k, -, rfl⟩ := List.mem_map.mp hf
      exact ownerFn_lt _
    · rw [List.mem_singleton.mp hf]
      decide
  obtain ⟨hrail, hevt⟩ := hcalm.rail
  rw [rail_of_reg hrail, rail_of_reg hevt, hd]
  exact ⟨(rail_of_reg (reg_setFlag_other _ _ _ _ _ (by decide))).trans (flag_setFlag_self _ _ _ _ (by decide)), flag_setFlag_self _ _ _ _ (by decide)⟩

theorem vlcdLoss_rail (c : Chip) {t : Chip} (ht : t = vlcdLoss c) :
    flag t 0x10000 8 = false ∧ (vlcdJudged c = true → flag t 0x10004 8 = true) := by
  obtain ⟨d, hd⟩ : ∃ d, d = setFlag c 0x10000 8 false := ⟨_, rfl⟩
  have hform : t = if vlcdJudged c then biasFault (setFlag d 0x10004 8 true) 0 else d := by
    rw [ht, vlcdLoss, hd]
    rfl
  have hd8 : flag d 0x10000 8 = false := by
    rw [hd]
    exact flag_setFlag_self _ _ _ _ (by decide)
  cases hj : vlcdJudged c with
  | false =>
    rw [hj, if_neg Bool.false_ne_true] at hform
    exact ⟨by rw [hform, hd8], fun h => absurd h (by decide)⟩
  | true =>
    rw [hj, if_pos rfl] at hform
    obtain ⟨hrail, hevt⟩ := (Calm.biasFault (setFlag d 0x10004 8 true) 0).rail
    rw [← hform] at hrail hevt
    refine ⟨?_, fun _ => (rail_of_reg hevt).trans (flag_setFlag_self _ _ _ _ (by decide))⟩
    rw [rail_of_reg hrail, rail_of_reg (reg_setFlag_other _ _ _ _ _ (by decide)), hd8]

/-- A rail that is lost reads 0, and its event bit is set where the node judged it. -/
theorem railLoss_flag {c : Chip} (rail : Rail) (reached : Nat) {t : Chip} (ht : t = railLoss c rail reached) : flag t 0x10000 (railBit rail) = false := by
  have hgone {b : Bool} {i : Nat} {x : Chip} (hx : t = if b then x else c) (hb : b = flag c 0x10000 i) (h : b = true → flag x 0x10000 i = false) :
      flag t 0x10000 i = false := by
    cases hflag : b with
    | false => rw [hx, hflag, if_neg Bool.false_ne_true, ← hb, hflag]
    | true => rw [hx, hflag, if_pos rfl, h hflag]
  cases rail with
  | vaux =>
    refine hgone (ht.trans rfl) rfl fun _ => ?_
    rw [rail_of_reg (coldReset_rail _ _)]
    exact flag_setFlag_self _ _ _ _ (by decide)
  | vddCore => exact hgone (ht.trans rfl) rfl fun _ => (coreLoss_rail (.inl rfl) reached rfl).1
  | vddIo high strap => exact hgone (ht.trans rfl) rfl fun _ => (coreLoss_rail (.inr (.inl rfl)) reached rfl).1
  | vdda => exact hgone (ht.trans rfl) rfl fun _ => (coreLoss_rail (.inr (.inr rfl)) reached rfl).1
  | vfield n high =>
    refine hgone (ht.trans rfl) rfl fun _ => ?_
    split
    · exact (vfieldLoss_rail c n high rfl).1
    · exact flag_setFlag_self _ _ _ _ (by omega)
  | vdrv =>
    refine hgone (ht.trans rfl) rfl fun _ => ?_
    split
    · exact (vdrvLoss_rail c rfl).1
    · exact flag_setFlag_self _ _ _ _ (by decide)
  | vlcd => exact hgone (ht.trans rfl) rfl fun _ => (vlcdLoss_rail c rfl).1

theorem railLoss_event {c : Chip} (rail : Rail) (reached : Nat) (haux : flag c 0x10000 0 = true) (hstood : flag c 0x10000 (railBit rail) = true)
    (hup : c.mode.up = true) (hne : railBit rail ≠ 0) (hlcd : railBit rail = 8 → vlcdJudged c = true) {t : Chip} (ht : t = railLoss c rail reached) :
    flag t 0x10004 (railBit rail) = true := by
  cases rail with
  | vaux => exact absurd rfl hne
  | vddCore => exact (coreLoss_rail (.inl rfl) reached (ht.trans (if_pos hstood))).2 haux hup
  | vddIo high strap => exact (coreLoss_rail (.inr (.inl rfl)) reached (ht.trans (if_pos hstood))).2 haux hup
  | vdda => exact (coreLoss_rail (.inr (.inr rfl)) reached (ht.trans (if_pos hstood))).2 haux hup
  | vfield n high => exact (vfieldLoss_rail c n high (ht.trans ((if_pos hstood).trans (if_pos hup)))).2
  | vdrv => exact (vdrvLoss_rail c (ht.trans ((if_pos hstood).trans (if_pos hup)))).2
  | vlcd => exact (vlcdLoss_rail c (ht.trans (if_pos hstood))).2 (hlcd rfl)

theorem railReturn_flag {c : Chip} (rail : Rail) (hne : railBit rail ≠ 2) {t : Chip} (ht : t = railReturn c rail) : flag t 0x10000 (railBit rail) = true := by
  cases rail with
  | vddIo high strap => exact absurd rfl hne
  | vfield n high =>
    rw [ht, railReturn]
    exact (rail_of_reg (Calm.vfieldRefreshBank _ n.val).rail.1).trans (flag_setFlag_self _ _ _ _ (by have := n.isLt; omega))
  | vaux | vddCore | vdda | vdrv | vlcd =>
    rw [ht]
    exact flag_setFlag_self _ _ _ _ (by decide)

theorem railReturn_vddIo {c : Chip} (high strap : Bool) (h : high = true ∨ ioStrap c strap = false) {t : Chip} (ht : t = railReturn c (.vddIo high strap)) :
    flag t 0x10000 2 = true := by
  have hpasses : ioPasses high (ioStrap c strap) = true := by
    rw [ioPasses]
    rcases h with h | h
    · rw [h, Bool.true_or]
    · rw [h, Bool.not_false, Bool.or_true]
  rw [ht, railReturn]
  dsimp only
  rw [hpasses, if_pos rfl]
  exact flag_setFlag_self _ _ _ _ (by decide)

end Sys2Proof.Machine
end

section
-- One proof at a time: every thread takes a stack of its own from the memory that a compile has.
set_option Elab.async false
/-! SUPPORT. The targets of the domains, and that a domain which is ON and whose target, with that of every domain it needs, is ON stays so
through the governor's round (R107, R110 to R115). -/

namespace Sys2Proof.Machine

/-! ## What the targets rest on -/

/-- The memory of the two copies of the sentry table. -/
def sentryMem (x : Nat) : Bool := regIn 0x1500000 0x1600000 x

/-- What the targets of the domains rest on stands: the modes, SEQ, the registers named and the sentry table. -/
structure View (a b : Chip) : Prop where
  mode : b.mode = a.mode
  seq : b.seq = a.seq
  regs : ∀ off, calmReg off = false → reg b off = reg a off
  mem : ∀ x, sentryMem x = true → smGet tblDef b.tables x = smGet tblDef a.tables x

theorem View.refl (c : Chip) : View c c := ⟨rfl, rfl, fun _ _ => rfl, fun _ _ => rfl⟩

theorem View.trans {a b c : Chip} (h : View a b) (k : View b c) : View a c :=
  ⟨k.mode.trans h.mode, k.seq.trans h.seq, fun off ho => (k.regs off ho).trans (h.regs off ho), fun x hx => (k.mem x hx).trans (h.mem x hx)⟩

theorem View.ofTouches {ps : List Part} {rs : Nat → Bool} {a b : Chip} (h : Touches ps rs a b) (hp : ps ⊆ .pwr :: calmParts)
    (hr : ∀ off, rs off = true → calmReg off = true) : View a b := by
  have hout : Part.mode ∉ ps ∧ Part.seq ∉ ps ∧ Part.tables ∉ ps :=
    ⟨fun hin => absurd (hp hin) (by decide), fun hin => absurd (hp hin) (by decide), fun hin => absurd (hp hin) (by decide)⟩
  refine ⟨h.same .mode hout.1 (by decide), h.same .seq hout.2.1 (by decide), fun off ho => h.reg (Bool.eq_false_iff.mpr fun hrs => ?_), fun x _ => ?_⟩
  · rw [hr off hrs] at ho
    exact absurd ho (by decide)
  · rw [show b.tables = a.tables from h.same .tables hout.2.2 (by decide)]

theorem View.ofCalm {a b : Chip} (h : Calm a b) : View a b := View.ofTouches h (by decide) fun _ ho => ho

theorem View.ofPwr (c : Chip) (x : PwrSt) : View c { c with pwr := x } := ⟨rfl, rfl, fun _ _ => rfl, fun _ _ => rfl⟩

/-- The sentry table reads the same. -/
theorem View.tbl {a b : Chip} (h : View a b) {off n : Nat} (hn : off + n ≤ 0x80000) : Machine.tbl b 3 off n = Machine.tbl a 3 off n := by
  have hdesc : tableDesc 3 = some ⟨3, 0x1500000, 0x80000, 0x80000, 0x40000⟩ := by decide
  have hact : activeCopy b ⟨3, 0x1500000, 0x80000, 0x80000, 0x40000⟩ = activeCopy a ⟨3, 0x1500000, 0x80000, 0x80000, 0x40000⟩ := by
    rw [activeCopy, fld, h.regs _ (by decide), ← fld, activeCopy]
  have hbase : tblBase b 3 = tblBase a 3 := by simp only [tblBase, hdesc, hact]
  have hle : activeCopy a ⟨3, 0x1500000, 0x80000, 0x80000, 0x40000⟩ < 2 := fld_lt _ _ _ _
  have hplace : 0x1500000 ≤ tblBase a 3 ∧ tblBase a 3 ≤ 0x1580000 := by
    simp only [tblBase, hdesc, copyBase]
    omega
  rw [Machine.tbl, tmem, memNat, Machine.tbl, tmem, memNat, hbase, memRead, memRead]
  congr 1
  refine List.map_congr_left fun i hi => h.mem _ ?_
  have := List.mem_range.mp hi
  rw [sentryMem, regIn_iff]
  omega

theorem View.sentryEntries {a b : Chip} (h : View a b) : Machine.sentryEntries b = Machine.sentryEntries a := by
  rw [Machine.sentryEntries, Machine.sentryEntries, h.tbl (by decide)]
  refine List.map_congr_left fun i hi => ?_
  have hi16 : i < 16 := by
    have := List.mem_range.mp hi
    omega
  dsimp only
  rw [h.tbl (by omega), h.tbl (by omega), h.tbl (by omega), h.tbl (by omega), h.tbl (by omega)]

theorem View.nodeMode {a b : Chip} (h : View a b) : Machine.nodeMode b = Machine.nodeMode a := by
  rw [Machine.nodeMode, fld, h.regs _ (by decide), ← fld, Machine.nodeMode]

theorem View.forcedOn {a b : Chip} (h : View a b) (m : Nat) : Machine.forcedOn b m = Machine.forcedOn a m := by
  have hbanks : sentryBanks b = sentryBanks a := by
    rw [sentryBanks, sentryBanks, h.nodeMode, h.seq, h.sentryEntries]
  unfold Machine.forcedOn
  rw [hbanks, h.mode]

theorem View.targetOn {a b : Chip} (h : View a b) (k : Nat) : Machine.targetOn b k = Machine.targetOn a k := by
  have hshown : shownMode b = shownMode a := by
    unfold shownMode
    rw [h.nodeMode, h.mode]
  have hen : flag b 0x10010 k = flag a 0x10010 k := by rw [flag, fld, h.regs _ (by decide), ← fld, ← flag]
  have hforced := fun m => h.forcedOn m
  unfold Machine.targetOn
  rw [h.nodeMode, hshown, hen, h.mode, hforced]
  simp only [hforced]

/-! ## A domain that is ON and that waits for no leave -/

/-- The domain is ON and no request of it waits. -/
def Lit (n : Nat) (c : Chip) : Prop := dom c n = .on ∧ opWaits c (.domain n) = false

theorem Lit.ofPwr {n : Nat} {a b : Chip} (h : Lit n a) (hp : b.pwr = a.pwr) : Lit n b := by
  rw [Lit, dom, opWaits, hp]
  exact h

theorem Lit.ofCalm {n : Nat} {a b : Chip} (h : Lit n a) (hc : Calm a b) : Lit n b := h.ofPwr (hc.same .pwr (by decide) (by decide))

theorem Lit.setDom {n k : Nat} {c : Chip} (h : Lit n c) (hk : k ≠ n) (s : DomSt) : Lit n (Machine.setDom c k s) :=
  ⟨(smGet_smPut_other _ _ _ _ _ hk.symm).trans h.1, h.2⟩

theorem Lit.dropReq {n : Nat} {c : Chip} (h : Lit n c) (op : LeaveOp) : Lit n (Machine.dropReq c op) := by
  refine ⟨h.1, List.any_eq_false.mpr fun r hr => ?_⟩
  exact (List.any_eq_false.mp h.2) r (List.mem_of_mem_filter hr)

theorem Lit.addReq {n : Nat} {c : Chip} (h : Lit n c) {r : LeaveReq} (hr : r.op ≠ .domain n) : Lit n (Machine.addReq c r) := by
  refine ⟨h.1, List.any_eq_false.mpr fun q hq => ?_⟩
  rcases List.mem_append.mp hq with hq | hq
  · exact (List.any_eq_false.mp h.2) q hq
  · rw [List.mem_singleton.mp hq, beq_iff_eq]
    exact hr

theorem Lit.surges {n : Nat} {c : Chip} (h : Lit n c) (x : List Surge) : Lit n { c with pwr := { c.pwr with surges := x } } := h

end Sys2Proof.Machine
end

section
-- One proof at a time: every thread takes a stack of its own from the memory that a compile has.
set_option Elab.async false
/-! SUPPORT. The governor's round: what it leaves of the targets, and that it turns no domain off whose target and needs are ON (R110 to R115). -/

namespace Sys2Proof.Machine

/-- The targets and the governor's state stand. -/
structure Still (a b : Chip) : Prop where
  view : View a b
  pwr : b.pwr = a.pwr

namespace Still

variable {a b c : Chip}

theorem refl (c : Chip) : Still c c := ⟨.refl c, rfl⟩

theorem trans (h : Still a b) (k : Still b c) : Still a c := ⟨h.view.trans k.view, k.pwr.trans h.pwr⟩

theorem ofCalm (h : Calm a b) : Still a b := ⟨.ofCalm h, h.same .pwr (by decide) (by decide)⟩

theorem foldl {β : Type} (f : Chip → β → Chip) (xs : List β) (hf : ∀ (c : Chip) (x : β), x ∈ xs → Still c (f c x)) (c : Chip) : Still c (xs.foldl f c) := by
  induction xs generalizing c with
  | nil => exact refl c
  | cons x xs ih => exact (hf c x List.mem_cons_self).trans (ih (fun d y hy => hf d y (List.mem_cons_of_mem _ hy)) _)

theorem lit {n : Nat} (h : Still a b) (hl : Lit n a) : Lit n b := hl.ofPwr h.pwr

/-- Table memory that is cleared outside the sentry table. -/
theorem memClear (c : Chip) {lo len : Nat} (h : lo + len ≤ 0x1500000 ∨ 0x1600000 ≤ lo) : Still c { c with tables := Machine.memClear c.tables lo len } := by
  refine ⟨⟨rfl, rfl, fun _ _ => rfl, fun x hx => ?_⟩, rfl⟩
  rw [sentryMem, regIn_iff] at hx
  refine (smGet_smKeep tblDef (fun k => !(decide (lo ≤ k) && decide (k < lo + len))) c.tables x).trans (if_pos ?_)
  rw [Bool.not_eq_true', ← Bool.not_eq_true, Bool.and_eq_true, decide_eq_true_eq, decide_eq_true_eq]
  omega

theorem clearBuffer (c : Chip) {b : Nat} (hb : b < 4) : Still c (Machine.clearBuffer c b) := by
  have htune : Calm c (setTune c b (tuneDef 0)) := (Calm.refl c).part (.tune _ _) (by decide)
  unfold Machine.clearBuffer
  refine ((ofCalm htune).trans (memClear _ (lo := tuneMem b) (len := 0x40000) (.inl ?_))).trans
    (ofCalm ((Calm.refl _).resetRegs fun off ho => calmReg_high ?_))
  · rw [tuneMem]
    omega
  · rw [regIn_iff, tuneBase] at ho
    omega

theorem clearLoopRegs (c : Chip) (l : Nat) : Still c (Machine.clearLoopRegs c l) := by
  have hplace (k : Nat) : 0x40000 < loopBase l + k := by
    rw [loopBase]
    omega
  refine ofCalm (((Calm.refl c).setReg _ (calmReg_high (hplace 0))).resetRegs fun off ho => calmReg_high ?_)
  rw [regIn_iff] at ho
  have := hplace 8
  omega

theorem ctrlDomainOff (c : Chip) : Still c (Machine.ctrlDomainOff c) := by
  have hqueue : Calm c { c with loops := [], evq := [] } := ((Calm.refl c).part (.loops c []) (by decide)).part (.evq { c with loops := [] } []) (by decide)
  unfold Machine.ctrlDomainOff
  exact ((ofCalm hqueue).trans (foldl _ _ (fun d b hb => clearBuffer d (List.mem_range.mp hb)) _)).trans (foldl _ _ (fun d l _ => clearLoopRegs d l) _)

end Still

/-! ## Leave -/

namespace Calm

theorem endForced (c : Chip) (ch : Nat) : Calm c (Machine.endForced c ch) := by
  have hflag : Calm c (setFlag c (cellStat ch) 13 false) := (refl c).setFlagHigh (statHigh ch) 13 false
  unfold Machine.endForced
  dsimp only
  exact .ite (hflag.part (.points _ _) (by decide)) hflag

theorem endFsk (c : Chip) (ch status : Nat) : Calm c (Machine.endFsk c ch status) := by
  have hplace : 0x40000 < fskReg ch := cellHigh ch _
  unfold Machine.endFsk
  split
  · refine report ?_ ((Reports.refl _).completeWhere _ _)
    exact ((refl c).part (.cells _ _) (by decide)).setFlag 1 false (calmReg_high hplace)
  · exact refl c

theorem cellToOpen (c : Chip) (ch : Nat) : Calm c (Machine.cellToOpen c ch) := by
  have hplace (k : Nat) : 0x40000 < cellBase ch + k := cellHigh ch k
  unfold Machine.cellToOpen
  exact ((((refl c).setFldHigh (hplace _) 0 2 0).trans (endForced _ ch)).trans (endFsk _ ch _)).setFlag 0 false (calmReg_high (hplace _))

theorem stepBegins (c : Chip) (ch : Nat) : Calm c (Machine.stepBegins c ch) := by
  unfold Machine.stepBegins
  split
  · exact .ite (refl c) (cellToOpen c ch)
  · exact refl c

end Calm

theorem grant_view (c : Chip) (r : LeaveReq) : View c (grant c r) := View.ofTouches (OutStep.grant c r) (by decide) fun off ho => by
  rw [outReg, Bool.or_eq_true, Bool.and_eq_true, decide_eq_true_eq] at ho
  rcases ho with ho | ⟨ho, -⟩
  · exact reportReg_calm ho
  · exact calmReg_high (by omega)

theorem Lit.grant {n : Nat} {c : Chip} (h : Lit n c) {r : LeaveReq} (hr : r.op ≠ .domain n) : Lit n (Machine.grant c r) := by
  obtain ⟨d, hd⟩ : ∃ d, d = (if r.surge = 0 then Machine.dropReq c r.op
    else { (Machine.dropReq c r.op) with pwr := { (Machine.dropReq c r.op).pwr with surges := (Machine.dropReq c r.op).pwr.surges ++ [⟨r.op, r.dom, r.surge⟩] } }) := ⟨_, rfl⟩
  have hlit : Lit n d := by
    rw [hd]
    split
    · exact h.dropReq _
    · exact (h.dropReq r.op).surges _
  rw [Machine.grant]
  dsimp only
  rw [← hd]
  split
  next k hk => exact hlit.setDom (fun e => hr (by rw [hk, e])) _
  next ch _ => exact hlit.ofCalm (.stepBegins d ch)
  next => exact hlit

theorem grantAll_view (k : Nat) (c : Chip) : View c (grantAll k c) := by
  induction k generalizing c with
  | zero => exact .refl c
  | succ k ih =>
    rw [grantAll]
    split
    · split
      · exact (grant_view c _).trans (ih _)
      · exact .refl c
    · exact .refl c

/-- The request that is granted first is one that waits. -/
theorem Lit.headReq {n : Nat} {c : Chip} (h : Lit n c) {r : LeaveReq} (hr : Machine.headReq c = some r) : r.op ≠ .domain n := fun e => by
  refine (List.any_eq_false.mp h.2) r (List.mem_of_find?_eq_some hr) ?_
  rw [e]
  exact beq_self_eq_true _

theorem Lit.grantAll {n : Nat} (k : Nat) {c : Chip} (h : Lit n c) : Lit n (Machine.grantAll k c) := by
  induction k generalizing c with
  | zero => exact h
  | succ k ih =>
    rw [Machine.grantAll]
    split
    next r hr =>
      split
      · exact ih (h.grant (h.headReq hr))
      · exact h
    · exact h

/-! ## A domain that turns off -/

theorem dmaStop_calm (c : Chip) : Calm c (dmaStop c) := by
  have hstop : Calm c ((List.range 8).foldl (fun c n => setFld (setFld c (0x1A010C + n * 0x20) 0 2 0) (0x1A0418 + n * 0x40) 0 2 0) c) :=
    Touches.foldl _ _ (fun d n _ => ((Calm.refl d).setFldHigh (by omega) _ _ _).setFldHigh (by omega) _ _ _) c
  exact hstop.part (.dma _ _) (by decide)

/-- What the start of turning off brings for the blocks of a domain. -/
theorem beginOff_blocks (c : Chip) (k : Nat) : ∃ s, Still (setDom c k s) (beginOff c k) ∨ beginOff c k = c
    ∨ ∃ op, beginOff c k = setDom (dropReq c op) k s := by
  unfold beginOff
  split
  case h_1 | h_2 =>
    refine ⟨.turningOff, ?_⟩
    split
    · exact .inl (.ofCalm (.legsOff _ _ _))
    split
    · exact .inl (.ctrlDomainOff _)
    split
    · exact .inl (.ofCalm (dmaStop_calm _))
    split
    · exact .inl (.ofCalm (Touches.foldl _ _ (fun d j _ => Calm.cellToOpen d _) _))
    split
    · exact .inr (.inl rfl)
    · exact .inl (.refl _)
  · exact ⟨.sentryOff, .inl (.refl _)⟩
  · exact ⟨.sentryOff, .inr (.inr ⟨_, rfl⟩)⟩
  · exact ⟨.off, .inr (.inr ⟨_, rfl⟩)⟩
  · exact ⟨.off, .inr (.inl rfl)⟩

theorem beginOff_view (c : Chip) (k : Nat) : View c (beginOff c k) := by
  obtain ⟨s, h | h | ⟨op, h⟩⟩ := beginOff_blocks c k
  · exact (View.ofPwr c _).trans h.view
  · rw [h]
    exact .refl c
  · rw [h]
    exact (View.ofPwr c _).trans (View.ofPwr (dropReq c op) _)

theorem Lit.beginOff {n k : Nat} {c : Chip} (h : Lit n c) (hk : k ≠ n) : Lit n (Machine.beginOff c k) := by
  obtain ⟨s, hs | hs | ⟨op, hs⟩⟩ := beginOff_blocks c k
  · exact hs.lit (h.setDom hk s)
  · rwa [hs]
  · rw [hs]
    exact (h.dropReq op).setDom hk s

theorem Lit.beginOffs {n : Nat} {ks : List Nat} (hks : n ∉ ks) {c : Chip} (h : Lit n c) : Lit n (ks.foldl Machine.beginOff c) := by
  induction ks generalizing c with
  | nil => exact h
  | cons k ks ih => exact ih (fun hm => hks (List.mem_cons_of_mem _ hm)) (h.beginOff fun e => hks (e ▸ List.mem_cons_self))

theorem beginOffs_view (ks : List Nat) (c : Chip) : View c (ks.foldl beginOff c) := by
  induction ks generalizing c with
  | nil => exact .refl c
  | cons k ks ih => exact (beginOff_view c k).trans (ih _)

/-! ## The round -/

theorem retargetOne_view (c : Chip) (k : Nat) : View c (retargetOne c k) := by
  unfold retargetOne
  generalize (if k = 0 then aonRuns c else c.mode.up) = runs
  split
  · exact .refl c
  split
  · split
    · split
      · exact (View.ofPwr c _).trans (View.ofPwr (setDom c k _) _)
      · exact .refl c
    · split
      · exact (View.ofPwr c _).trans (View.ofPwr (setDom c k _) _)
      · exact .refl c
    · exact .refl c
  · split
    · exact .refl c
    · exact .refl c
    · exact .refl c
    · exact beginOffs_view _ c

/-- A domain whose needs' targets are ON is not turned off, and no leave is asked for it once more. -/
theorem Lit.retargetOne {n k : Nat} {c : Chip} (h : Lit n c) (htarget : n ∈ withDependants k → targetOn c k = true) : Lit n (Machine.retargetOne c k) := by
  have hself (s : DomSt) (hs : dom c k = s) (hne : s ≠ .on) : k ≠ n := fun e => hne (by rw [← hs, e]; exact h.1)
  have hask (s : DomSt) (hk : k ≠ n) : Lit n (Machine.addReq (Machine.setDom c k s) (domReq k)) :=
    (h.setDom hk s).addReq fun e => hk (LeaveOp.domain.inj e)
  unfold Machine.retargetOne
  generalize (if k = 0 then aonRuns c else c.mode.up) = runs
  split
  · exact h
  split
  next =>
    split
    next hoff =>
      split
      · exact hask _ (hself _ hoff (by decide))
      · exact h
    next hsentry =>
      split
      · exact hask _ (hself _ hsentry (by decide))
      · exact h
    next => exact h
  next hnot =>
    have hout : n ∉ withDependants k := fun hin => hnot (htarget hin)
    split
    · exact h
    · exact h
    · exact h
    · exact h.beginOffs hout

theorem Lit.retargetAll {n : Nat} (ks : List Nat) {c : Chip} (h : Lit n c) (htarget : ∀ k ∈ ks, n ∈ withDependants k → targetOn c k = true) :
    Lit n (ks.foldl Machine.retargetOne c) := by
  induction ks generalizing c with
  | nil => exact h
  | cons k ks ih =>
    refine ih (h.retargetOne (htarget k List.mem_cons_self)) fun j hj hin => ?_
    rw [(retargetOne_view c k).targetOn]
    exact htarget j (List.mem_cons_of_mem _ hj) hin

theorem retargetAll_view (ks : List Nat) (c : Chip) : View c (ks.foldl retargetOne c) := by
  induction ks generalizing c with
  | nil => exact .refl c
  | cons k ks ih => exact (retargetOne_view c k).trans (ih _)

theorem retarget_view (c : Chip) : View c (retarget c) := (retargetAll_view _ c).trans (grantAll_view 40 _)

/-- The targets of a domain and of every domain it needs are ON. -/
def Wanted (n : Nat) (c : Chip) : Prop := ∀ k < 30, n ∈ withDependants k → targetOn c k = true

theorem Wanted.ofView {n : Nat} {a b : Chip} (h : Wanted n a) (hv : View a b) : Wanted n b := fun k hk hin => by
  rw [hv.targetOn]
  exact h k hk hin

theorem Lit.retarget {n : Nat} {c : Chip} (h : Lit n c) (hw : Wanted n c) : Lit n (Machine.retarget c) :=
  (h.retargetAll (List.range 30) fun k hk => hw k (List.mem_range.mp hk)).grantAll 40

end Sys2Proof.Machine
end

section
-- One proof at a time: every thread takes a stack of its own from the memory that a compile has.
set_option Elab.async false
/-! SUPPORT. What the start of a domain that reaches ON leaves of power and modes (R93, R113). -/

namespace Sys2Proof.Machine

namespace Calm

/-! ## The banks of the analog front end -/

theorem rotHigh (b : Nat) : 0x40000 < rotStat b := by
  rw [rotStat, bankBase]
  omega

theorem chHigh (ch k : Nat) : 0x40000 < chBase ch + k := by
  rw [chBase, bankBase]
  omega

theorem convHigh (ch : Nat) : 0x40000 < chConv ch := chHigh ch _

theorem statHigh' (ch : Nat) : 0x40000 < chStat ch := chHigh ch _

theorem modBank (c : Chip) (b : Nat) (f : BankSt → BankSt) : Calm c (Machine.modBank c b f) := (refl c).part (.bank _ _) (by decide)

theorem setAna (c : Chip) (ch : Nat) (a : AnaSt) : Calm c (Machine.setAna c ch a) := (refl c).part (.ana _ _) (by decide)

theorem setPhase (c : Chip) (b p : Nat) : Calm c (Machine.setPhase c b p) := (refl c).setFldHigh (rotHigh b) 5 3 p

theorem startSettle (c : Chip) (ch : Nat) : Calm c (Machine.startSettle c ch) := (refl c).setFldHigh (convHigh ch) 0 9 _

theorem startIepe (c : Chip) (ch : Nat) : Calm c (Machine.startIepe c ch) := by
  unfold Machine.startIepe
  exact .ite (setAna c ch _) (refl c)

theorem beginEmergency (c : Chip) (b ch : Nat) : Calm c (Machine.beginEmergency c b ch) := (setPhase c b 1).trans (modBank _ b _)

theorem beginStep (c : Chip) (b k : Nat) : Calm c (Machine.beginStep c b k) := by
  have hstart := ((refl c).setFldHigh (rotHigh b) 0 5 k).trans (modBank (setFld c (rotStat b) 0 5 k) b fun s => { s with
    stepOt := c.ot, retry := false, left := 0, base := 0, wait := false, calDone := false, toneWait := false, stepDue := none })
  unfold Machine.beginStep
  exact .ite (hstart.trans (setPhase _ b 5)) (.ite (hstart.trans (setPhase _ b 3)) (hstart.trans (setPhase _ b 1)))

theorem stepFallsDue (c : Chip) (b k : Nat) : Calm c (Machine.stepFallsDue c b k) := by
  unfold Machine.stepFallsDue
  exact .ite ((setPhase c b 0).trans (modBank _ b _)) (beginStep c b k)

theorem stopRotation (c : Chip) (b : Nat) : Calm c (Machine.stopRotation c b) := (modBank c b _).trans (setPhase _ b 6)

theorem freshCal (c : Chip) (ch : Nat) : Calm c (Machine.freshCal c ch) := by
  unfold Machine.freshCal
  exact .ite (refl c) ((refl c).setFlagHigh (convHigh ch) 15 false)

theorem toHome (c : Chip) (ch : Nat) : Calm c (Machine.toHome c ch) := ((refl c).setFlagHigh (convHigh ch) 9 false).trans (freshCal _ ch)

theorem dropSpareFlag (c : Chip) (ch : Nat) : Calm c (Machine.dropSpareFlag c ch) := by
  unfold Machine.dropSpareFlag
  exact .ite (refl c) ((refl c).part (.points _ _) (by decide))

theorem spareGone (c : Chip) (b : Nat) : Calm c (Machine.spareGone c b) := by
  unfold Machine.spareGone
  split
  · exact refl c
  next ch detail _ =>
    have hhome : Calm c (Machine.startSettle (Machine.toHome (Machine.modBank c b fun s => { s with back := none, emerg := none }) ch) ch) :=
      ((modBank c b _).trans (toHome _ ch)).trans (startSettle _ ch)
    have hstop := ((hhome.setFlag 13 true (calmReg_high (rotHigh b))).trans (stopRotation _ b)).trans
      ((Reports.refl _).postErrorRec 0x22 (anaPt ch) detail).calm
    dsimp only
    split
    · exact hstop.trans ((Reports.refl _).postPointFault _ _ _ _).calm
    · exact hstop

theorem rotationMeetsChange (c0 : Chip) (ch : Nat) (toOff : Bool) : Calm c0 (Machine.rotationMeetsChange c0 ch toOff) := by
  unfold Machine.rotationMeetsChange
  extract_lets b c ph later again
  have hc : Calm c0 c := .ite (spareGone c0 b) (refl c0)
  have hagain : Calm c0 (Machine.modBank c b again) := hc.trans (modBank c b again)
  have hnext : Calm c0 (Machine.modBank (Machine.setPhase c b 3) b again) := (hc.trans (setPhase c b 3)).trans (modBank _ b again)
  split
  · exact hc
  split
  · exact .ite (hc.trans (beginEmergency c b ch)) hc
  split
  · refine .ite (hc.trans (stopRotation c b)) (.ite ((hc.trans (setPhase c b 0)).trans (modBank _ b again)) (hagain.trans (stepFallsDue _ b _)))
  split
  · refine .ite ?_ hnext
    have hback : Calm c0 (Machine.dropSpareFlag (Machine.toHome c ch) ch) := (hc.trans (toHome c ch)).trans (dropSpareFlag _ ch)
    split
    · exact hback.trans (beginEmergency _ b _)
    · exact (hback.trans (setPhase _ b 3)).trans (modBank _ b again)
  · exact hc

theorem endTone (c : Chip) (ch : Nat) : Calm c (Machine.endTone c ch) := by
  unfold Machine.endTone
  exact .ite (((setAna c ch _).trans (setPhase _ _ 2)).trans (modBank _ _ _)) (setAna c ch _)

theorem clearUnused (c : Chip) (ch m : Nat) : Calm c (Machine.clearUnused c ch m) := by
  have hstat := statHigh' ch
  have h1 : Calm c (if m = 9 then c else setFlag (setFlag c (chStat ch) 5 false) (chStat ch) 6 false) :=
    .ite (refl c) (((refl c).setFlagHigh hstat 5 false).setFlagHigh hstat 6 false)
  obtain ⟨d, hd⟩ : ∃ d, d = (if m = 9 then c else setFlag (setFlag c (chStat ch) 5 false) (chStat ch) 6 false) := ⟨_, rfl⟩
  rw [← hd] at h1
  unfold Machine.clearUnused
  dsimp only
  rw [← hd]
  have h2 : Calm c (if m = 3 ∨ m = 4 ∨ m = 5 ∨ 7 ≤ m then d else setFlag d (chStat ch) 3 false) := .ite h1 (h1.setFlagHigh hstat 3 false)
  exact .ite h2 (h2.setFldHigh (chHigh ch _) 0 24 0)

theorem applySetup (c0 : Chip) (ch : Nat) : Calm c0 (Machine.applySetup c0 ch) := by
  unfold Machine.applySetup
  extract_lets a s c off a1 c1 c2
  have hc : Calm c0 c := clearUnused c0 ch _
  have h1 : Calm c0 c1 := .ite (((hc.trans (setAna c ch _)).trans (startSettle _ ch)).trans (startIepe _ ch)) (hc.trans (setAna c ch a1))
  have h2 : Calm c0 c2 := .ite h1 ((h1.trans (freshCal c1 ch)).trans (rotationMeetsChange _ ch off))
  exact .ite h2 (h2.trans (endTone c2 ch))

theorem afeDomainOn (c : Chip) (b : Nat) : Calm c (Machine.afeDomainOn c b) := by
  obtain ⟨d, hd⟩ : ∃ d, d = (List.range 16).foldl (fun c k => Machine.startSettle (Machine.startIepe (Machine.applySetup c (b * 16 + k)) (b * 16 + k)) (b * 16 + k)) c := ⟨_, rfl⟩
  have hsettle : Calm c d := by
    rw [hd]
    exact Touches.foldl _ _ (fun e k _ => ((applySetup e _).trans (startIepe _ _)).trans (startSettle _ _)) c
  rw [Machine.afeDomainOn, ← hd]
  split
  · exact hsettle.trans (beginEmergency d b _)
  · exact .ite (hsettle.trans (stepFallsDue d b 0)) (hsettle.trans (stopRotation d b))

theorem startDp0 (c : Chip) : Calm c (Machine.startDp0 c) := (startDp0_touches c).mono (by decide) fun off ho => by
  rw [show off = dpStat 0 by simpa [regAt] using ho]
  decide

theorem portEnabled (c : Chip) (b : Nat) : Calm c (Machine.portEnabled c b) := by
  unfold Machine.portEnabled
  exact .ite (startDp0 c) (refl c)

/-! ## The banks of the loop cells -/

theorem enterDrive (c : Chip) (ch : Nat) : Calm c (Machine.enterDrive c ch) := by
  unfold Machine.enterDrive Machine.drive
  exact .ite (refl c) (((refl c).part (.cells c _) (by decide)).part (.cells (modCell c ch _) _) (by decide))

theorem loopDomainOn (c : Chip) (n : Nat) : Calm c (Machine.loopDomainOn c n) := by
  unfold Machine.loopDomainOn
  refine Touches.foldl _ _ (fun d k _ => ?_) c
  dsimp only
  exact (((refl d).part (.cells d _) (by decide)).trans (enterDrive (modCell d (n * 16 + k) _) _)).trans (vfieldRefresh _ _)

/-! ## The other domains -/

theorem rtcDomainOn (c : Chip) : Calm c (Machine.rtcDomainOn c) := by
  unfold Machine.rtcDomainOn
  exact ((refl c).part (.rtc c _) (by decide)).setFlag 0 false (by decide)

theorem sdlSend (c : Chip) (type set : Nat) (data : List Byte) : Calm c (Machine.sdlSend c type set data) := by
  obtain ⟨x, hx⟩ := sdlSend_sdlOnly c type set data
  rw [hx]
  exact (refl c).part (.sdl c x) (by decide)

theorem modSdl (c : Chip) (f : SdlSt → SdlSt) : Calm c (Machine.modSdl c f) := (refl c).part (.sdl c _) (by decide)

theorem sdlSync (c : Chip) : Calm c (Machine.sdlSync c) := (modSdl c _).trans (sdlSend _ 2 0 [])

theorem spt (c : Chip) (x : SptSt) : Calm c { c with spt := x } := (refl c).part (.spt c x) (by decide)

theorem sptDomainOn (c : Chip) : Calm c (Machine.sptDomainOn c) := by
  unfold Machine.sptDomainOn
  exact ((spt c _).trans (spt _ _)).trans (Touches.foldl _ _ (fun d w _ => .ite (spt d _) (refl d)) _)

theorem callCanCheck (c : Chip) : Calm c (Machine.callCanCheck c) := by
  have hplace : 0x40000 < callStat := by decide
  unfold Machine.callCanCheck
  exact .ite (refl c) (.ite (((refl c).setFlagHigh hplace 3 true).report ((Reports.refl _).postError _ _ _)) ((refl c).setFlagHigh hplace 3 false))

theorem canDomainOn (c : Chip) : Calm c (Machine.canDomainOn c) := Touches.foldl _ _ (fun d n _ => (refl d).part (.can d _) (by decide)) c

theorem startLoops (c : Chip) : Calm c (Machine.startLoops c) := by
  unfold Machine.startLoops
  exact .ite (refl c) (Touches.foldl _ _ (fun d l _ => (refl d).part (.loops d _) (by decide)) c)

theorem upd (c : Chip) (f : UpdSt → UpdSt) : Calm c (modUpd c f) := (refl c).part (.upd c _) (by decide)

theorem setUcSrc (c : Chip) (e s : Nat) : Calm c (Machine.setUcSrc c e s) := (refl c).setFld _ _ _ (by decide)

theorem showVersion (c : Chip) (e : Nat) : Calm c (Machine.showVersion c e) := (refl c).setFld _ _ _ (by decide)

theorem ucDomainOn (c : Chip) (e : Nat) : Calm c (Machine.ucDomainOn c e) := by
  unfold Machine.ucDomainOn
  extract_lets ks best
  cases best
  case none => exact ((upd c _).trans (setUcSrc _ e 0)).trans (showVersion _ e)
  case some k => exact ((upd c _).trans (setUcSrc _ e _)).trans (showVersion _ e)

theorem ctrlDomainOn (c : Chip) : Calm c (Machine.ctrlDomainOn c) := ((refl c).setFld _ _ _ (by decide)).trans (startLoops _)

/-! ## Basin and the recorder -/

theorem modBsn (c : Chip) (f : BsnSt → BsnSt) : Calm c (Machine.modBsn c f) := (refl c).part (.bsn c _) (by decide)

theorem driveStep {a b : Chip} (h : DriveStep a b) : Calm a b := h.touches.mono (by decide) (by simp [noReg])

theorem enterAdmitted (c : Chip) (use : Nat) (clean : Bool) : Calm c (Machine.enterAdmitted c use clean) := by
  unfold Machine.enterAdmitted
  extract_lets units c1 c2 found c3 st
  have hstat {d : Chip} (lo w x : Nat) : Calm d (setFld d bsnStat lo w x) := (refl d).setFld _ _ _ (by decide)
  have h1 : Calm c c1 := (((refl c).setFld 0 20 units (by decide)).setFld 0 17 _ (by decide)).trans (hstat 4 4 use)
  have h2 : Calm c c2 := h1.trans (Touches.foldl _ _ (fun d m _ => (refl d).setFldHigh (by rw [drvStat]; omega) _ _ _) c1)
  have h3 : Calm c c3 := h2.trans (modBsn c2 _)
  have hsupers : Calm c (Machine.writeSupers (setBsnState (Machine.makeConsistent c3 clean) st) false) :=
    ((h3.trans (driveStep (makeConsistent_step c3 clean))).trans (hstat 0 3 st)).trans ((writeSupers_touches _ false).mono (by decide) (by simp [noReg]))
  have htrim := hsupers.trans (ofHigh (GiveStep.trimUnits _).unit.touches (by decide) fun off ho => by rw [regIn_iff] at ho; omega)
  exact (htrim.trans ((requeueRecs_touches _).mono (by decide) (by simp [noReg]))).trans (startDp0 _)

theorem bsnRefuse (c : Chip) (r : Nat) : Calm c (Machine.bsnRefuse c r) := (refl c).setFld _ _ _ (by decide)

theorem bsnAdmit (c : Chip) : Calm c (Machine.bsnAdmit c) := by
  unfold Machine.bsnAdmit
  extract_lets have_
  split
  · exact bsnRefuse c 2
  split
  · exact bsnRefuse c 3
  next s0 _ =>
    extract_lets top inBasin fresh use good c1 c2
    split
    · exact bsnRefuse c 5
    split
    · exact bsnRefuse c 2
    split
    · exact bsnRefuse c 3
    split
    · exact bsnRefuse c 4
    split
    · exact bsnRefuse c 6
    · have h1 : Calm c c1 := Touches.foldl _ _ (fun d e _ => (refl d).setFldHigh (by rw [drvStat]; omega) _ _ _) c
      exact ((h1.trans (modBsn c1 _)).trans (enterAdmitted c2 use _)).trans (bsnRefuse _ 0)

theorem autoAdmit (c : Chip) (late : Bool) : Calm c (Machine.autoAdmit c late) := by
  unfold Machine.autoAdmit
  exact .ite ((modBsn c _).trans (bsnAdmit _)) (refl c)

theorem rcd (c : Chip) (r : RecSt) : Calm c { c with rcd := r } := (refl c).part (.rcd c r) (by decide)

theorem seqFromNvm (c : Chip) : Calm c (Machine.seqFromNvm c) := by
  unfold Machine.seqFromNvm
  split
  · exact refl c
  · exact (refl c).setReg _ (by decide)

theorem rebuild (c : Chip) : Calm c (Machine.rebuild c) := by
  unfold Machine.rebuild
  extract_lets c1 c2 c3
  have h1 : Calm c c1 := (rcd c _).trans (seqFromNvm _)
  have h2 : Calm c c2 := h1.trans (Touches.foldl _ _ (fun d q _ => ((Reports.refl d).programPair q).calm) c1)
  have h3 : Calm c c3 := h2.trans (rcd c2 _)
  exact (h3.setFlag 0 true (by decide)).trans ((Reports.refl _).flushHeld).calm

/-! ## DMA -/

theorem setDefault (c : Chip) {off : Nat} (h : 0x40000 < off) (v : Nat) : Calm c (Machine.setDefault c off v) := by
  unfold Machine.setDefault
  split
  · exact Touches.foldl _ _ (fun d f _ => (refl d).setFldHigh h _ _ _) c
  · exact refl c

theorem reloadDefaults (c : Chip) {lo : Nat} (h : 0x40000 < lo) (hi : Nat) : Calm c (Machine.reloadDefaults c lo hi) := by
  unfold Machine.reloadDefaults
  dsimp only
  split
  · refine Touches.foldl _ _ (fun d e he => setDefault d ?_ _) c
    have hin := (List.mem_filter.mp he).2
    rw [Bool.and_eq_true, decide_eq_true_eq] at hin
    omega
  · exact refl c

theorem dmaReset (c : Chip) : Calm c (Machine.dmaReset c) := by
  have hdma : Calm c { c with dma := { c.dma with dp := [], dl := [], port := [], req := 0, now := 0, served := [], drained := none } } :=
    (refl c).part (.dma c _) (by decide)
  exact hdma.resetRegs fun off ho => calmReg_high (by rw [regIn_iff] at ho; omega)

end Calm

/-- The start of a domain but that of the PLLs leaves the targets and the governor alone. -/
theorem domainStarts_still (c : Chip) {n : Nat} (hn : n ≠ 26) : Still c (domainStarts c n) := by
  unfold domainStarts
  split
  case h_1 => exact .ofCalm (.rtcDomainOn c)
  case h_2 | h_3 | h_4 | h_5 => exact .ofCalm (.modBsn c _)
  case h_6 => exact .ofCalm (.sdlSync c)
  case h_7 => exact .ofCalm (.sptDomainOn c)
  case h_8 | h_9 | h_10 | h_11 | h_12 | h_13 | h_14 | h_15 => exact .ofCalm ((Calm.afeDomainOn c _).trans (Calm.portEnabled _ _))
  case h_16 | h_17 | h_18 => exact .ofCalm (.loopDomainOn c _)
  case h_19 => exact .memClear c (.inr (by decide))
  case h_20 => exact .ofCalm ((Calm.canDomainOn c).trans (Calm.callCanCheck _))
  case h_21 => exact .ofCalm ((Calm.ucDomainOn c 1).trans (Calm.ctrlDomainOn _))
  case h_22 => exact .ofCalm (.ucDomainOn c 2)
  case h_23 =>
    split
    · exact .ofCalm (.rebuild c)
    · exact .ofCalm ((Calm.rebuild c).trans (Calm.autoAdmit _ false))
  case h_24 => exact absurd rfl hn
  case h_25 => exact .ofCalm ((Calm.dmaReset c).trans (Calm.reloadDefaults _ (by decide) _))
  case h_26 => exact .refl c

end Sys2Proof.Machine
end

section
-- One proof at a time: every thread takes a stack of its own from the memory that a compile has.
set_option Elab.async false
/-! SUPPORT. The PLLs' domain reaches ON: without a reference the node enters SAFE_HOLD, whose domains are those that were ON (R105,
R128, R1178). -/

namespace Sys2Proof.Machine

/-! ## The domains that are ON as a mask -/

/-- A sum of powers of two holds the bits it is made of. -/
theorem natBit_sum (p : Nat → Bool) (n : Nat) : ((List.range n).map fun k => if p k then 2 ^ k else 0).sum < 2 ^ n
    ∧ ∀ i < n, natBit ((List.range n).map fun k => if p k then 2 ^ k else 0).sum i = p i := by
  induction n with
  | zero => exact ⟨Nat.zero_lt_one, fun i hi => absurd hi (Nat.not_lt_zero i)⟩
  | succ n ih =>
    obtain ⟨hlt, hbits⟩ := ih
    rw [List.range_succ, List.map_append, List.sum_append, List.map_singleton, List.sum_singleton]
    obtain ⟨s, hs⟩ : ∃ s, s = ((List.range n).map fun k => if p k then 2 ^ k else 0).sum := ⟨_, rfl⟩
    rw [← hs] at hlt hbits ⊢
    have hpow : 2 ^ (n + 1) = 2 ^ n + 2 ^ n := by rw [Nat.pow_succ]; omega
    cases hp : p n with
    | false =>
      rw [if_neg Bool.false_ne_true, Nat.add_zero]
      refine ⟨by omega, fun i hi => ?_⟩
      rcases Nat.lt_succ_iff_lt_or_eq.mp hi with hi | rfl
      · exact hbits i hi
      · rw [natBit, Nat.div_eq_of_lt hlt, hp]
        rfl
    | true =>
      rw [if_pos rfl]
      refine ⟨by omega, fun i hi => ?_⟩
      rw [natBit_eq_testBit, Nat.add_comm]
      rcases Nat.lt_succ_iff_lt_or_eq.mp hi with hi | rfl
      · rw [Nat.testBit_two_pow_add_gt hi, ← natBit_eq_testBit, hbits i hi]
      · rw [Nat.testBit_two_pow_add_eq, ← natBit_eq_testBit, natBit, Nat.div_eq_of_lt hlt, hp]
        rfl

/-- A domain that is ON is one of those that an entry finds. -/
theorem onAtEntry_on {c : Chip} {n : Nat} (hn : n < 30) (h : dom c n = .on) : natBit (onAtEntry c) n = true := by
  obtain ⟨p, hp⟩ : ∃ p : Nat → Bool, p = fun k => decide (dom c k = .on ∨ dom c k = .sentry ∨ dom c k = .sentryWaiting) := ⟨_, rfl⟩
  have hsum : onAtEntry c = ((List.range 30).map fun k => if p k then 2 ^ k else 0).sum := by
    rw [onAtEntry, domMask, domMask, domMask, ← List.sum_map_add, ← List.sum_map_add, hp]
    congr 1
    refine List.map_congr_left fun k _ => ?_
    show (if dom c k = .on then 2 ^ k else 0) + (if dom c k = .sentry then 2 ^ k else 0) + (if dom c k = .sentryWaiting then 2 ^ k else 0)
      = if decide (dom c k = .on ∨ dom c k = .sentry ∨ dom c k = .sentryWaiting) = true then 2 ^ k else 0
    generalize dom c k = s
    cases s <;> simp
  rw [hsum, (natBit_sum p 30).2 n hn, hp]
  exact decide_eq_true (.inl h)

/-- Bits taken away below bit 26 leave it. -/
theorem natBit_cleared {e k : Nat} (hk : k < 2 ^ 26) (h : natBit e 26 = true) : natBit (e - (e &&& k)) 26 = true := by
  obtain ⟨m, hm⟩ : ∃ m, m = e &&& k := ⟨_, rfl⟩
  have hle : m ≤ e % 2 ^ 26 := by
    have hlow : m < 2 ^ 26 := hm ▸ Nat.lt_of_le_of_lt Nat.and_le_right hk
    rw [← Nat.mod_eq_of_lt hlow, hm, Nat.and_mod_two_pow]
    exact Nat.and_le_left
  have hdiv : (e - m) / 2 ^ 26 = e / 2 ^ 26 := by omega
  rw [← hm, natBit, hdiv]
  exact h

/-! ## What the entry of a mode leaves -/

namespace Calm

theorem withdraw (c : Chip) (n : Nat) : Calm c (canWithdraw c n) := by
  have hend (d : Chip) (b : Nat) : Calm d (endBuf d n b stSuccess 5) := by
    obtain ⟨-, hparts, hregs, -⟩ := (endBuf_step d n b stSuccess 5).within
    refine ⟨onlyParts_mono hparts fun p hp => ?_, onlyRegs_mono hregs fun off ho => ?_⟩
    · revert p
      decide
    · exact ho.elim reportReg_calm fun h => absurd h (by simp [noReg])
  have hpending : Calm c (withdrawPending c n stSuccess 5) := by
    unfold withdrawPending
    refine Touches.foldl _ _ (fun d b _ => ?_) c
    split
    · exact .ite (refl d) (hend d b)
    · exact refl d
  unfold canWithdraw dropOnBus
  refine hpending.trans (Touches.foldl _ _ (fun d b _ => ?_) _)
  split
  · exact .ite ((refl d).part (.can d _) (by decide)) (refl d)
  · exact refl d

theorem canNodeMode (c : Chip) : Calm c (Machine.canNodeMode c) := by
  unfold Machine.canNodeMode
  exact .ite (refl c) (Touches.foldl _ _ (fun d n _ => .ite (withdraw d n) (refl d)) c)

theorem clearForces (c : Chip) : Calm c (Machine.clearForces c) := by
  unfold Machine.clearForces
  refine Touches.foldl _ _ (fun d ch _ => .ite (refl d) ?_) c
  exact ((refl d).setFldHigh (cellHigh ch _) 0 2 0).trans (endForced _ ch)

theorem capturesLeave (c : Chip) : Calm c (Machine.capturesLeave c) := by
  have hplace (b : Nat) : 0x40000 < tuneBase b := by
    rw [tuneBase]
    omega
  unfold Machine.capturesLeave
  exact Touches.foldl _ _ (fun d b _ => .ite (((refl d).setFldHigh (hplace b) _ _ _).setFld _ _ _ (calmReg_high (hplace b))) (refl d)) c

theorem modeLeave (old m : Nat) (c : Chip) : Calm c (Machine.modeLeave old m c) := by
  unfold Machine.modeLeave
  extract_lets c1 c2 c3 c4 c5 c6
  have h1 : Calm c c1 := .ite (refl c) (legsOff c allLegs 1)
  have h2 : Calm c c2 := .ite h1 (h1.trans (Touches.foldl _ _ (fun d ch _ => cellToOpen d ch) c1))
  have h3 : Calm c c3 := .ite (h2.trans (clearForces c2)) h2
  have h4 : Calm c c4 := .ite (h3.trans (capturesLeave c3)) h3
  have h5 : Calm c c5 := .ite h4 (h4.trans (Touches.foldl _ _ (fun d ch _ => endFsk d ch _) c4))
  have h6 : Calm c c6 := (h5.trans (canNodeMode c5)).trans (callCanCheck _)
  exact .ite h6 (h6.part (.evq c6 _) (by decide))

theorem sentryLeft (c : Chip) : Calm c (Machine.sentryLeft c) := by
  unfold Machine.sentryLeft
  exact Touches.foldl _ _ (fun d ch _ => .ite (startSettle d ch) (refl d)) c

theorem modeStart_safeHold (old : Nat) (c : Chip) : Calm c (Machine.modeStart old mSafeHold c) := by
  have hform : Machine.modeStart old mSafeHold c = if old = mSentry then Machine.sentryLeft c else c := rfl
  rw [hform]
  exact .ite (sentryLeft c) (refl c)

theorem rotationChecks (c : Chip) : Calm c (Machine.rotationChecks c) := by
  have hone (d : Chip) (b : Nat) : Calm d (rotationCheck d b) := by
    unfold rotationCheck
    exact .ite (refl d) (.ite (.ite (stepFallsDue d b 0) (refl d)) (.ite (refl d) (.ite (.ite (refl d) (stopRotation d b)) (stopRotation d b))))
  unfold Machine.rotationChecks
  exact Touches.foldl _ _ (fun d b _ => .ite (hone d b) (refl d)) c

theorem sptModeChange (c : Chip) : Calm c (Machine.sptModeChange c) := by
  unfold Machine.sptModeChange
  exact .ite (spt c _) (refl c)

theorem sendRelease (c : Chip) : Calm c (Machine.sendRelease c) := by
  unfold Machine.sendRelease Machine.sendLease
  exact Touches.trans (.ite (modSdl c _) (refl c)) (modSdl _ _)

end Calm

/-! ## SAFE_HOLD -/

/-- The domain is ON, waits for no leave, and is wanted with its needs. -/
def Kept (n : Nat) (c : Chip) : Prop := Lit n c ∧ Wanted n c

theorem Kept.calm {n : Nat} {a b : Chip} (h : Kept n a) (k : Calm a b) : Kept n b := ⟨h.1.ofCalm k, h.2.ofView (.ofCalm k)⟩

theorem Kept.still {n : Nat} {a b : Chip} (h : Kept n a) (k : Still a b) : Kept n b := ⟨k.lit h.1, h.2.ofView k.view⟩

theorem Kept.retarget {n : Nat} {c : Chip} (h : Kept n c) : Kept n (Machine.retarget c) := ⟨h.1.retarget h.2, h.2.ofView (retarget_view c)⟩

theorem Kept.unrefuse {n : Nat} {c : Chip} (h : Kept n c) (mask : Nat) : Kept n (Machine.unrefuse c mask) := ⟨h.1, h.2.ofView (.ofPwr c _)⟩

/-- The PLLs' domain needs no other. -/
theorem needs_pll : ∀ k < 30, 26 ∈ withDependants k → k = 26 := by decide +kernel

/-- In SAFE_HOLD the PLLs' domain is wanted where it was ON at the entry. -/
theorem wanted_safeHold {c : Chip} (hmode : nodeMode c = mSafeHold) (hon : natBit c.mode.entryOn 26 = true) : Wanted 26 c := by
  intro k hk hin
  have hforced : natBit (forcedOn c mSafeHold) 26 = true := natBit_cleared (k := maskOf [21, 22, 23]) (by decide) hon
  rw [needs_pll k hk hin, targetOn, hmode, hforced]
  rfl

theorem enterMode_safeHold {c : Chip} (hlit : Lit 26 c) : Kept 26 (enterMode c mSafeHold 6) := by
  obtain ⟨old, hold⟩ : ∃ old, old = nodeMode c := ⟨_, rfl⟩
  obtain ⟨r, hr⟩ : ∃ r, r = setReg c 0x100 (BitVec.ofNat 32 (mSafeHold + old * 16 + 6 * 256)) := ⟨_, rfl⟩
  obtain ⟨d, hd⟩ : ∃ d, d = modSdl (modMode r fun x => { x with
      frames := framesMode mSafeHold
      resumed := x.resumed || (framesMode mSafeHold && !framesMode old)
      entryOn := if mSafeHold = mTakeover ∨ mSafeHold = mSafeHold then onAtEntry c else x.entryOn
      heldOpen := mSafeHold == mSafeHold && !liveMode old })
    fun s => { s with role := if mSafeHold = mDegraded then sdlRole c else s.role, swb := if mSafeHold = mMirror then s.swb else 0 } := ⟨_, rfl⟩
  obtain ⟨e, he⟩ : ∃ e, e = rotationChecks (callModeChange old mSafeHold (modeStart old mSafeHold (modeLeave old mSafeHold d))) := ⟨_, rfl⟩
  have hform : enterMode c mSafeHold 6 = sptModeChange (retarget (unrefuse e (2 ^ 30 - 1))) := by
    rw [enterMode, he, hd, hr, hold]
  have hcalm : Calm d e := by
    have hcall : ∀ x, callModeChange old mSafeHold x = x := fun x => if_neg fun h => h.1 rfl
    rw [he, hcall]
    exact ((Calm.modeLeave old mSafeHold d).trans (Calm.modeStart_safeHold old _)).trans (Calm.rotationChecks _)
  have hlitD : Lit 26 d := hlit.ofPwr (by rw [hd, ← setReg_pwr c 0x100 (BitVec.ofNat 32 (mSafeHold + old * 16 + 6 * 256)), ← hr]; rfl)
  have hmodeD : nodeMode d = mSafeHold := by
    have hreg : reg d 0x100 = BitVec.ofNat 32 (mSafeHold + old * 16 + 6 * 256) := by
      have hself : reg r 0x100 = BitVec.ofNat 32 (mSafeHold + old * 16 + 6 * 256) := by rw [hr, reg_setReg_self]
      rw [hd, ← hself]
      rfl
    have hlow : nodeMode c < 16 := fld_lt _ _ _ _
    rw [nodeMode, fld, hreg, bits, BitVec.toNat_ofNat, mSafeHold]
    omega
  have honD : natBit d.mode.entryOn 26 = true := by
    have hentry : d.mode.entryOn = onAtEntry c := by
      rw [hd]
      show (if mSafeHold = mTakeover ∨ mSafeHold = mSafeHold then onAtEntry c else r.mode.entryOn) = onAtEntry c
      rw [if_pos (Or.inr rfl)]
    rw [hentry, onAtEntry_on (by decide) hlit.1]
  have hkept : Kept 26 e := Kept.calm ⟨hlitD, wanted_safeHold hmodeD honD⟩ hcalm
  rw [hform]
  exact (hkept.unrefuse _).retarget.calm (.sptModeChange _)

theorem preempt_lit {c : Chip} (h : Lit 26 c) : Lit 26 (preempt c) := by
  have hreq : (if c.mode.req.isSome then setReqStatus c 4 else c).pwr = c.pwr := by
    split
    · exact setFld_pwr c _ _ _ _
    · rfl
  exact h.ofPwr hreq

theorem enterSafeHold_keeps {c : Chip} (h : Kept 26 c) : Kept 26 (enterSafeHold c 6) := by
  obtain ⟨d, hd⟩ : ∃ d, d = modeRecord (postError (modeAtOnce c mSafeHold 6) 0x1C srcNode 6) := ⟨_, rfl⟩
  have hkept : Kept 26 d := by
    rw [hd]
    exact (enterMode_safeHold (preempt_lit h.1)).calm (((Reports.refl _).postError _ _ _).nodeRec _ _ _).calm
  rw [enterSafeHold]
  dsimp only
  rw [← hd]
  split
  · exact h
  split
  · exact hkept.calm (((Calm.sdlSend d 0x40 0 []).trans (Calm.sendRelease _)).trans (Calm.modSdl _ _))
  · exact hkept

theorem pllStart_keeps {c : Chip} (h : Kept 26 c) : Kept 26 (pllStart c) := by
  unfold pllStart
  split
  · have hstat : Kept 26 (setFld (setFld c clkStat 4 2 3) clkStat 6 1 0) :=
      h.calm (((Calm.refl c).setFld _ _ _ (by decide)).setFld _ _ _ (by decide))
    exact ⟨hstat.1, hstat.2.ofView (.ofPwr _ _)⟩
  · have hlost : Kept 26 (postError (setFlag (setFlag (setFlag c clkStat 4 false) clkStat 6 true) clkEvt 4 true) 0x13 srcNode 1) := by
      refine h.calm (Calm.report ?_ ((Reports.refl _).postError _ _ _))
      exact (((Calm.refl c).setFlag _ _ (by decide)).setFlag _ _ (by decide)).setFlag _ _ (by decide)
    exact enterSafeHold_keeps hlost

/-! ## DOMAIN_ON -/

theorem domainOn_reaches {c : Chip} {n : Nat} (hn : n < 30) (hwaking : dom c n = .waking)
    (hwanted : ((List.range 30).all fun m => !(withDependants m).contains n || targetOn c m) = true) (hwaits : opWaits c (.domain n) = false) {t : Chip}
    (ht : t = domainOn c n) : domOn t n = true := by
  obtain ⟨d, hd⟩ : ∃ d, d = releaseSurge (setDom c n .on) (.domain n) := ⟨_, rfl⟩
  have hkept : Kept n d := by
    rw [hd]
    have hon : dom (setDom c n .on) n = .on := smGet_smPut_self domDef c.pwr.dom n .on
    refine ⟨⟨hon, hwaits⟩, Wanted.ofView (a := c) (fun k hk hin => ?_) ((View.ofPwr c _).trans (View.ofPwr (setDom c n .on) _))⟩
    have hone := List.all_eq_true.mp hwanted k (List.mem_range.mpr hk)
    rwa [List.contains_iff_mem.mpr hin, Bool.not_true, Bool.false_or] at hone
  have hstarts : Kept n (domainStarts d n) := by
    by_cases h26 : n = 26
    · subst h26
      exact pllStart_keeps hkept
    · exact hkept.still (domainStarts_still d h26)
  rw [ht, domainOn, if_pos hwaking, ← hd, domOn, hstarts.retarget.1.1]
  rfl

/-- Settles O15: of DOMAIN_ON what the targets rest on is followed through the start of each domain and the governor's round; the rails'
flags through what a rail's loss and return change. -/
theorem railAndDomainEventsComplete : Obligations.RailAndDomainEventsComplete :=
  ⟨fun _ n hwaking hwanted hwaits => ⟨_, rfl, rfl, domainOn_reaches n.isLt hwaking hwanted hwaits rfl⟩,
    fun _ _ hne => ⟨_, rfl, rfl, if_neg hne⟩,
    fun _ rail reached => ⟨_, rfl, rfl, railLoss_flag rail reached.val rfl⟩,
    fun _ rail reached hstood hup hne hlcd =>
      ⟨_, rfl, rfl, railLoss_flag rail reached.val rfl, railLoss_event rail reached.val hstood.1 hstood.2 hup hne hlcd rfl⟩,
    fun _ rail hne => ⟨_, rfl, rfl, railReturn_flag rail hne rfl⟩,
    fun _ high strap h => ⟨_, rfl, rfl, railReturn_vddIo high strap h rfl⟩⟩

end Sys2Proof.Machine
end

section
-- One proof at a time: every thread takes a stack of its own from the memory that a compile has.
set_option Elab.async false
/-! SUPPORT. A user image whose loops fit the four lanes where the grid count of the frames is 0, as the check of the image takes
it, and do not fit them where the frames of the running node stand on the grid (R341, R653, R1099). -/

namespace Sys2Proof.Machine

/-! ## The image -/

/-- A LOOP entry: at tick 0 of every frame, or one tick after each 32nd of the grid. -/
def gridEntry (i : Nat) : List Byte :=
  (if i < 33 then [6, 2, 1, 0, 0] else [6, 0x15, 0, 0, 1]) ++ [0, 0, 0] ++ natLe 3 (pt 8 i) ++ [0, 0, 0, 0, 0]

/-- A scan table of frames of 32 ticks with 65 loops, of which 33 and 32 are due together where a frame starts one tick after a 32nd
of the grid. -/
def gridScan : List Byte :=
  natLe 2 1 ++ natLe 2 32 ++ natLe 2 65 ++ List.replicate 0x1FA 0 ++ (List.range 65).flatMap gridEntry

def gridScanCrc : Nat := 1151506413

def gridHeader : List Byte := natLe 4 0x495A4C43 ++ natLe 2 1 ++ natLe 2 0 ++ natLe 4 1792 ++ natLe 2 1 ++ List.replicate 46 0

def gridHeaderCrc : Nat := 1109767821

/-- The row of the scan table, the image's only section. -/
def gridRow : List Byte := natLe 2 3 ++ natLe 2 0 ++ natLe 4 0x50 ++ natLe 4 1552 ++ natLe 4 gridScanCrc

def gridImage : List Byte := gridHeader ++ natLe 4 gridHeaderCrc ++ gridRow ++ gridScan ++ List.replicate 160 0xFF

def gridImageCrc : Nat := 402783981

def gridCommit : List Byte :=
  natLe 4 0x54494D43 ++ natLe 4 1 ++ natLe 4 1792 ++ natLe 4 gridImageCrc ++ List.replicate 236 0xFF ++ natLe 4 0xA5A55A5A

/-- NVM with the image in bank A and its commit page. -/
def gridNvm : Mem := memWrite erasedByte (memWrite erasedByte [] 0 gridImage) 0x3FFF00 gridCommit

/-- A node in SCAN from the image of bank B, with the image above committed in bank A; its next frame starts at G 1. -/
def gridNode : Chip := { Chip.reset with
  regs := [(0x100, BitVec.ofNat 32 mScan), (0x120, 2)]
  nvm := gridNvm
  mode := { Chip.reset.mode with up := true, frames := true }
  seq := { Chip.reset.seq with g := 1, tick := 40 }
  img := { Chip.reset.img with prog := [(0x3FFF, true)] } }

theorem gridImage_length : gridImage.length = 1792 := by decide +kernel

theorem gridCommit_length : gridCommit.length = 256 := by decide +kernel

/-- A part of a written range reads back. -/
theorem memRead_within (d : Nat → Byte) (m : Mem) (a : Nat) (bs : List Byte) {o n : Nat} (h : o + n ≤ bs.length) :
    memRead d (memWrite d m a bs) (a + o) n = (bs.drop o).take n := by
  apply List.ext_getElem
  · simp only [memRead_length, List.length_take, List.length_drop]
    omega
  · intro i h1 h2
    simp only [memRead_length] at h1
    simp only [memRead, List.getElem_map, List.getElem_range, List.getElem_take, List.getElem_drop, Nat.add_assoc]
    exact smGet_memWrite d m a bs (o + i) (by omega)

/-- A range below a written one reads as before. -/
theorem memRead_below (d : Nat → Byte) (m : Mem) (bs : List Byte) {a b n : Nat} (h : b + n ≤ a) :
    memRead d (memWrite d m a bs) b n = memRead d m b n :=
  List.map_congr_left fun i hi => smGet_memWrite_other _ _ _ _ _ (.inl (by have := List.mem_range.1 hi; omega))

theorem imgBytes_gridNode {o n : Nat} (h : o + n ≤ 1792) : imgBytes gridNode 1 o n = (gridImage.drop o).take n := by
  have hnvm : gridNode.nvm = gridNvm := by rw [gridNode]
  have hbase : imgBase 1 + o = 0 + o := rfl
  rw [imgBytes, hnvm, hbase, gridNvm, memRead_below _ _ _ (by omega), memRead_within _ _ _ _ (by rwa [gridImage_length])]

theorem imgNat_gridNode {o n : Nat} (h : o + n ≤ 1792) : imgNat gridNode 1 o n = leNat ((gridImage.drop o).take n) :=
  congrArg leNat (imgBytes_gridNode h)

theorem commitNat_gridNode {o : Nat} (h : o + 4 ≤ 256) : commitNat gridNode 1 o = leNat ((gridCommit.drop o).take 4) := by
  have hnvm : gridNode.nvm = gridNvm := by rw [gridNode]
  have hbase : imgBase 1 + (0x3FFF00 + o) = 0x3FFF00 + o := Nat.zero_add _
  rw [commitNat, imgNat, memNat, hnvm, hbase, gridNvm, memRead_within _ _ _ _ (by rwa [gridCommit_length])]

theorem sectCount_gridNode : sectCount gridNode 1 = 1 := (imgNat_gridNode (by decide)).trans (by decide +kernel)

theorem imgLength_gridNode : imgLength gridNode 1 = 1792 := (imgNat_gridNode (by decide)).trans (by decide +kernel)

/-- The image's only section. -/
def gridSect : Sect := { type := 3, flags := 0, off := 0x50, len := 1552, crc := gridScanCrc }

theorem sects_gridNode : sects gridNode 1 = [gridSect] := by
  have hrow : sectAt gridNode 1 0 = gridSect := by
    simp only [sectAt, Nat.mul_zero, Nat.add_zero, Nat.reduceAdd]
    rw [imgNat_gridNode (by decide), imgNat_gridNode (by decide), imgNat_gridNode (by decide), imgNat_gridNode (by decide),
      imgNat_gridNode (by decide)]
    decide +kernel
  rw [sects, sectCount_gridNode, List.range_one, List.map_singleton, hrow]

/-- What stands before the scan table: the header and the section row. -/
def gridFront : List Byte := gridHeader ++ natLe 4 gridHeaderCrc ++ gridRow

theorem gridImage_eq : gridImage = gridFront ++ (gridScan ++ List.replicate 160 0xFF) := by
  rw [gridImage, gridFront, List.append_assoc _ gridScan]

theorem imgBytes_gridSect : imgBytes gridNode 1 0x50 1552 = gridScan := by
  rw [imgBytes_gridNode (by decide), gridImage_eq, List.drop_left' (by decide +kernel), List.take_left' (by decide +kernel)]

theorem imgBytes_gridImage : imgBytes gridNode 1 0 1792 = gridImage := by
  rw [imgBytes_gridNode (by decide), List.drop_zero, List.take_of_length_le gridImage_length.le]

/-- A function that a kernel enters with its argument evaluated. -/
def strictly (f : Nat → Nat) : Nat → Nat
  | 0 => f 0
  | n + 1 => f (n + 1)

theorem strictly_eq (f : Nat → Nat) (n : Nat) : strictly f n = f n := by cases n <;> rfl

/-- The steps of a checksum, each one evaluated before the next one begins. -/
def crcSteps : List Byte → Nat → Nat
  | [], c => c
  | b :: bs, c => strictly (crcSteps bs) (crc32Step c b)

theorem crcSteps_eq (bs : List Byte) (c : Nat) : crcSteps bs c = bs.foldl crc32Step c := by
  induction bs generalizing c with
  | nil => rfl
  | cons b bs ih => rw [List.foldl_cons, ← ih, crcSteps, strictly_eq]

theorem crc32_gridScan : crc32 gridScan = gridScanCrc := by
  rw [crc32, ← crcSteps_eq]
  decide +kernel

theorem crc32_gridHeader : crc32 (imgBytes gridNode 1 0 0x3C) = gridHeaderCrc := by
  rw [imgBytes_gridNode (by decide)]
  decide +kernel

/-- The checksum of the image, taken up to the scan table, over it and over the rest of the last page. -/
theorem crc32_gridImage : crc32 gridImage = gridImageCrc := by
  have hfront : gridFront.foldl crc32Step 0xFFFFFFFF = 3409699567 := by decide +kernel
  have hscan : gridScan.foldl crc32Step 3409699567 = 1497000672 := by
    rw [← crcSteps_eq]
    decide +kernel
  have hrest : (List.replicate 160 (0xFF : Byte)).foldl crc32Step 1497000672 = 3892183314 := by decide +kernel
  rw [crc32, gridImage_eq, List.foldl_append, List.foldl_append, hfront, hscan, hrest]
  decide

end Sys2Proof.Machine
end

section
-- One proof at a time: every thread takes a stack of its own from the memory that a compile has.
set_option Elab.async false
/-! SUPPORT. The checks of the image before its sections, and the tables as it loads them. -/

namespace Sys2Proof.Machine

theorem commitRecord_gridNode : commitRecord gridNode 1 = 0 := by
  have hprog : pageProg gridNode (commitPage 1) = true := by decide +kernel
  have hflag : pageFlagged gridNode (commitPage 1) = false := by decide +kernel
  have hmagic : commitNat gridNode 1 0 = 0x54494D43 := (commitNat_gridNode (by decide)).trans (by decide +kernel)
  have hend : commitNat gridNode 1 0xFC = 0xA5A55A5A := (commitNat_gridNode (by decide)).trans (by decide +kernel)
  simp [commitRecord, hprog, hflag, hmagic, hend]

theorem lengthOk_gridNode : lengthOk gridNode 1 (some (commitNat gridNode 1 8)) = true := by
  have hcommit : commitNat gridNode 1 8 = 1792 := (commitNat_gridNode (by decide)).trans (by decide +kernel)
  rw [lengthOk, imgLength_gridNode, sects_gridNode, sectCount_gridNode, hcommit]
  decide

theorem headerOk_gridNode : headerOk gridNode 1 (some (commitNat gridNode 1 8)) = true := by
  have hmagic : imgNat gridNode 1 0 4 = 0x495A4C43 := (imgNat_gridNode (by decide)).trans (by decide +kernel)
  have hcrc : imgNat gridNode 1 0x3C 4 = gridHeaderCrc := (imgNat_gridNode (by decide)).trans (by decide +kernel)
  have hzero : imgNat gridNode 1 0x0E 2 = 0 := (imgNat_gridNode (by decide)).trans (by decide +kernel)
  have hrest : imgNat gridNode 1 0x18 36 = 0 := (imgNat_gridNode (by decide)).trans (by decide +kernel)
  rw [headerOk, hmagic, hcrc, hzero, hrest, crc32_gridHeader, sectCount_gridNode, sects_gridNode, lengthOk_gridNode]
  decide

theorem formatOk_gridNode : formatOk gridNode 1 = true := by
  have hformat : imgNat gridNode 1 4 2 = 1 := (imgNat_gridNode (by decide)).trans (by decide +kernel)
  have hstep : imgNat gridNode 1 6 2 = 0 := (imgNat_gridNode (by decide)).trans (by decide +kernel)
  rw [formatOk, hformat, hstep]
  simp

theorem firstChecks_gridNode : firstChecks gridNode 1 = 0 := by
  simp [firstChecks, commitRecord_gridNode, headerOk_gridNode, formatOk_gridNode]

/-- The image passes its checks where its section does. -/
theorem bankReason_gridNode (h : sectRefused gridNode 1 = none) : (bankReason gridNode 1).1 = 0 := by
  have hpages : ((List.range (1792 / 256)).any fun i => pageFlagged gridNode ((1 - 1) * 0x4000 + i)) = false := by decide +kernel
  have hcommit : commitNat gridNode 1 12 = gridImageCrc := (commitNat_gridNode (by decide)).trans (by decide +kernel)
  have hsect : ((sects gridNode 1).findIdx? fun s => crc32 (imgBytes gridNode 1 s.off s.len) != s.crc) = none := by
    rw [sects_gridNode, List.findIdx?_singleton, gridSect, imgBytes_gridSect, crc32_gridScan]
    simp
  rw [bankReason, firstChecks_gridNode, restChecks, imgLength_gridNode, hpages, hcommit, hsect, h]
  simp [imgBytes_gridImage, crc32_gridImage]

/-! ## The tables that the image loads -/

/-- The listed bytes of a range of the table memories. -/
def listed (base : Nat) (bs : List Byte) : Mem := bs.zipIdx.filterMap fun (b, i) => if b = tblDef (base + i) then none else some (base + i, b)

/-- A range whose other bytes read 0 by themselves lists those that it loads. -/
theorem memLoad_nil {base size : Nat} {bs : List Byte} (hlen : bs.length ≤ size) (hrest : ∀ i, i < size - bs.length → tblDef (base + bs.length + i) = 0) :
    memLoad tblDef [] base size bs = listed base bs := by
  have hnone : ((List.range (size - bs.length)).filterMap fun i =>
      if (0 : Byte) = tblDef (base + bs.length + i) then none else some (base + bs.length + i, (0 : Byte))) = [] :=
    List.filterMap_eq_nil_iff.2 fun i hi => if_pos (hrest i (List.mem_range.1 hi)).symm
  rw [memLoad, hnone, List.take_of_length_le hlen]
  simp only [List.filter_nil, List.nil_append, List.append_nil]
  rfl

/-- The listed bytes of a copy that holds the scan table. -/
def gridCells (base : Nat) : Mem := listed base gridScan

/-- Past its first bytes the factory scan table is 0. -/
theorem tblDef_scan {a : Nat} (hle : 0x1500000 ≤ a) (hlt : a < 0x1600000) (h : 3 ≤ (a - 0x1500000) % 0x80000) : tblDef a = 0 := by
  have htable : tableAt a = some ⟨3, 0x1500000, 0x80000, 0x80000, 0x40000⟩ := by
    have h2 : ¬ 0x1C20000 ≤ a := by omega
    have h3 : a < 0x1500000 + 2 * 0x80000 := by omega
    simp [tableAt, tableDescs, h2, hle, h3]
  have h0 : (a - 0x1500000) % 0x80000 ≠ 0 := by omega
  have h2 : (a - 0x1500000) % 0x80000 ≠ 2 := by omega
  rw [tblDef, htable]
  simp only [factoryByte, if_neg h0, if_neg h2]
  rfl

/-- The start of a copy of the scan table. -/
def scanCopy (k : Nat) : Nat := 0x1500000 + k * 0x80000

theorem gridScan_length : gridScan.length = 1552 := by decide +kernel

theorem memLoad_gridScan {k : Nat} (hk : k < 2) : memLoad tblDef [] (scanCopy k) 0x80000 (gridScan.take 0x80000) = gridCells (scanCopy k) := by
  have hlen : gridScan.length ≤ 0x80000 := gridScan_length.trans_le (by decide)
  rw [List.take_of_length_le hlen]
  refine memLoad_nil hlen fun i hi => ?_
  rw [gridScan_length] at hi ⊢
  exact tblDef_scan (by rw [scanCopy]; omega) (by rw [scanCopy]; omega) (by rw [scanCopy]; omega)

/-- Every listed byte of the copy stands in its first 1,552 bytes. -/
theorem mem_gridCells {base : Nat} {e : Nat × Byte} (h : e ∈ gridCells base) : base ≤ e.1 ∧ e.1 < base + 1552 := by
  obtain ⟨⟨b, i⟩, hmem, heq⟩ := List.mem_filterMap.1 h
  have hi : i < gridScan.length + 0 := List.snd_lt_of_mem_zipIdx hmem
  rw [gridScan_length] at hi
  obtain ⟨-, he⟩ := Option.ite_none_left_eq_some.1 heq
  rw [← Option.some.inj he]
  exact ⟨Nat.le_add_right _ _, Nat.add_lt_add_left hi _⟩

theorem memClear_gridCells {base a n : Nat} (h : base + 1552 ≤ a) : memClear (gridCells base) a n = gridCells base := by
  refine List.filter_eq_self.2 fun e he => ?_
  have hlt := (mem_gridCells he).2
  simp only [decide_eq_false (by omega : ¬ a ≤ e.1), Bool.false_and, Bool.not_false]

/-- A copy that has no section is cleared. -/
theorem loadCopy_none {x : Chip} {d : TableDesc} {n : Nat} (h : memClear x.tables (copyBase d n) d.half = x.tables) :
    loadCopy x d n none = x := by
  rw [loadCopy]
  simp only [h]

theorem sectBytes_gridNode {x : Chip} (h : sects x 1 = [gridSect]) (hb : imgBytes x 1 0x50 1552 = gridScan) (code : Nat) :
    sectBytes x 1 code = if code = 3 then some gridScan else none := by
  rw [sectBytes, h]
  by_cases hc : code = 3
  · rw [if_pos hc, hc]
    simp [gridSect, hb]
  · have hc' : ¬ 3 = code := fun h => hc h.symm
    rw [if_neg hc]
    simp [gridSect, hc']

/-- The tables of the image load into one copy each; none but the scan table lists a byte. -/
theorem loadAllTables_grid {x : Chip} (htab : x.tables = []) (hsects : sects x 1 = [gridSect]) (hbytes : imgBytes x 1 0x50 1552 = gridScan)
    {copy : Chip → TableDesc → Nat} {k : Nat} (hk : k < 2) (hcopy : copy x ⟨3, 0x1500000, 0x80000, 0x80000, 0x40000⟩ = k) :
    loadAllTables x 1 copy = { x with tables := gridCells (scanCopy k) } := by
  have hrest : ∀ (ds : List TableDesc) (y : Chip), (∀ d ∈ ds, d.code ≠ 3 ∧ 0x1600000 ≤ d.base) → y.tables = gridCells (scanCopy k) →
      ds.foldl (fun y d => loadCopy y d (copy y d) (if (1 : Nat) = 0 then none else sectBytes x 1 d.code)) y = y := by
    intro ds
    induction ds with
    | nil => exact fun _ _ _ => rfl
    | cons d ds ih =>
      intro y hds hy
      obtain ⟨hcode, hbase⟩ := hds d (by simp)
      rw [List.foldl_cons, if_neg (by decide), sectBytes_gridNode hsects hbytes, if_neg hcode, loadCopy_none]
      · exact ih y (fun d hd => hds d (by simp [hd])) hy
      · rw [hy, memClear_gridCells]
        rw [scanCopy, copyBase]
        omega
  have hfirst : loadCopy x ⟨2, 0x1C20000, 0x8000, 0x5000, 0x30000⟩ (copy x ⟨2, 0x1C20000, 0x8000, 0x5000, 0x30000⟩) none = x :=
    loadCopy_none (by rw [htab]; rfl)
  have hscan : loadCopy x ⟨3, 0x1500000, 0x80000, 0x80000, 0x40000⟩ k (some gridScan) = { x with tables := gridCells (scanCopy k) } := by
    rw [loadCopy, htab]
    exact congrArg (fun m => { x with tables := m }) (memLoad_gridScan hk)
  rw [loadAllTables, tableDescs, List.foldl_cons, List.foldl_cons, if_neg (by decide), sectBytes_gridNode hsects hbytes,
    if_neg (by decide), hfirst, if_neg (by decide), sectBytes_gridNode hsects hbytes, if_pos rfl, hcopy, hscan]
  exact hrest _ _ (by decide) rfl

end Sys2Proof.Machine
end

section
-- One proof at a time: every thread takes a stack of its own from the memory that a compile has.
set_option Elab.async false
/-! SUPPORT. The checks of the loaded tables, from a boundary at G 0 and from one at G 1. -/

namespace Sys2Proof.Machine

/-! ## Loops that fall due together (R653) -/

/-- The LOOP entries of the tick lane and the slots that a base tick dispatches. -/
def dueLoops (c : Chip) (x : Nat × Nat) : List Nat :=
  (((tickEntries c).filter fun i => entOp c i == 6).filter fun i => dueAt c i x.1 x.2)
    ++ ((List.range 9).flatMap fun k => slotLoops c k).filterMap fun (i, s) => if s = x.2 then some i else none

/-- Where no tick dispatches more than 64 loops the lanes hold them. -/
theorem loopLanes_none {c : Chip} (h : ((allTicks c).all fun x => decide ((dueLoops c x).length ≤ 64)) = true) : loopLanes c = none := by
  unfold loopLanes
  dsimp only
  split_ifs
  · rfl
  · rw [List.findSome?_eq_none_iff]
    intro x hx
    have hlen := of_decide_eq_true (List.all_eq_true.1 h x hx)
    rw [Option.map_eq_none_iff, List.getElem?_eq_none_iff, List.length_mergeSort]
    exact hlen

/-- A tick that dispatches more is named, with reason 10. -/
theorem loopLanes_some {c : Chip} (hall : 64 < ((tickEntries c).filter fun i => entOp c i == 6).length)
    (h : ((allTicks c).any fun x => decide (64 < (dueLoops c x).length)) = true) : ∃ e, loopLanes c = some e ∧ e.reason = 10 := by
  obtain ⟨x, hx, hlong⟩ := List.any_eq_true.1 h
  have hlong := of_decide_eq_true hlong
  unfold loopLanes
  dsimp only
  rw [if_neg (by omega)]
  generalize hfind : (allTicks c).findSome? _ = found
  match found with
  | some e =>
    obtain ⟨y, -, hy⟩ := List.exists_of_findSome?_eq_some hfind
    obtain ⟨i, -, rfl⟩ := Option.map_eq_some_iff.1 hy
    exact ⟨_, rfl, rfl⟩
  | none =>
    have hnone := List.findSome?_eq_none_iff.1 hfind x hx
    rw [Option.map_eq_none_iff, List.getElem?_eq_none_iff, List.length_mergeSort] at hnone
    exact absurd hlong (not_lt.2 hnone)

/-! ## The check of the image -/

/-- The node without registers and tables, its frames standing still, as the check of an image begins. -/
def gridBlank : Chip := { gridNode with regs := [], tables := [], mode := { gridNode.mode with frames := false } }

/-- The node as it would stand with the image loaded. -/
def gridCand : Chip := { gridBlank with tables := gridCells (scanCopy 0) }

theorem loopLanes_gridCand : loopLanes gridCand = none := loopLanes_none (by decide +kernel)

theorem scanFormat_gridCand : scanFormat gridCand = none := by decide +kernel

/-- The entries are permitted, of valid points, each point once, at valid rates; none measures a channel. -/
theorem entries_gridCand :
    (scanIdx gridCand fun i => !entryPermitted gridCand i) = [] ∧ (scanIdx gridCand fun i => !pointValid (entPoint gridCand i)) = []
      ∧ servedTwice gridCand = [] ∧ (scanIdx gridCand fun i => !rateOk gridCand i) = [] ∧ acqEntries gridCand = [] :=
  ⟨by decide +kernel, by decide +kernel, by decide +kernel, by decide +kernel, by decide +kernel⟩

theorem sentries_gridCand : tbl gridCand 3 6 1 = 0 := by decide +kernel

/-- Slots, ticks and the alarms' share of a frame suffice. -/
theorem times_gridCand : slotTimes gridCand = none ∧ tickInstants gridCand = none ∧ alarmTime gridCand = none :=
  ⟨by decide +kernel, by decide +kernel, by decide +kernel⟩

theorem enabledLoops_gridCand : enabledLoops gridCand = [] := by decide +kernel

theorem checkScan_gridCand : checkScan gridCand = none := by
  obtain ⟨hperm, hvalid, htwice, hrate, hacq⟩ := entries_gridCand
  obtain ⟨hslots, hticks, halarms⟩ := times_gridCand
  simp only [checkScan, scanFormat_gridCand, hperm, hvalid, htwice, hrate, acqOwnBad, hacq, sentries_gridCand, hslots, hticks, halarms,
    loopLanes_gridCand, scanSets, lateLoops, enabledLoops_gridCand]
  rfl

/-- What a bank holds is what NVM holds. -/
theorem sects_congr {x y : Chip} (h : x.nvm = y.nvm) (b : Nat) : sects x b = sects y b := by
  simp only [sects, sectCount, sectAt, imgNat, h]

theorem imgBytes_congr {x y : Chip} (h : x.nvm = y.nvm) (b o n : Nat) : imgBytes x b o n = imgBytes y b o n := by rw [imgBytes, imgBytes, h]

theorem imageCandidate_gridNode : imageCandidate gridNode 1 = gridCand := by
  have hblank : gridBlank.nvm = gridNode.nvm := by rw [gridBlank]
  have hcand : gridCand.nvm = gridNode.nvm := by rw [gridCand, hblank]
  have hload : loadAllTables gridBlank 1 (fun _ _ => 0) = gridCand :=
    loadAllTables_grid (x := gridBlank) (by rw [gridBlank]) ((sects_congr hblank 1).trans sects_gridNode)
      ((imgBytes_congr hblank _ _ _).trans imgBytes_gridSect) (by decide) rfl
  have hdefaults : sectBytes gridCand 1 1 = none :=
    sectBytes_gridNode ((sects_congr hcand 1).trans sects_gridNode) ((imgBytes_congr hcand _ _ _).trans imgBytes_gridSect) 1
  change loadDefaults (loadAllTables gridBlank 1 (fun _ _ => 0)) 1 = gridCand
  rw [hload, loadDefaults, if_neg (by decide), hdefaults]

theorem sectRefused_gridNode : sectRefused gridNode 1 = none := by
  have htypes : badTypes [] [gridSect] 0 = none := by decide
  have hok : sectOk gridNode gridCand 1 gridSect = true := by
    have htable : checkTable gridCand gridSect.type = none := checkScan_gridCand
    rw [sectOk, htable]
    decide
  rw [sectRefused, sects_gridNode, htypes, imageCandidate_gridNode]
  simp [List.findIdx?_singleton, hok]

/-! ## The apply -/

theorem applyRefusal_gridNode : applyRefusal gridNode = 0 := by
  have hbank : applyBank gridNode = 1 := by decide +kernel
  have hloaded : fld gridNode 0x120 0 2 = 2 := by decide +kernel
  have hgen : imgGen gridNode 1 = 1 := by
    rw [imgGen, if_pos commitRecord_gridNode, commitNat_gridNode (by decide)]
    decide +kernel
  have hother : imgGen gridNode 2 = 0 := by
    have hprog : pageProg gridNode (commitPage 2) = false := by decide +kernel
    have hflag : pageFlagged gridNode (commitPage 2) = false := by decide +kernel
    simp [imgGen, commitRecord, hprog, hflag]
  have hswaps : (tableDescs.any fun d => flag gridNode d.stat 1) = false := by decide +kernel
  have hmode : nodeMode gridNode = mScan := by decide +kernel
  rw [applyRefusal, hbank, hloaded, bankReason_gridNode sectRefused_gridNode, hgen, hother, hswaps, hmode]
  decide

/-- The node with every table's swap in effect. -/
def gridLive : Chip := withSwaps { gridNode with tables := gridCells (scanCopy 1) } (tableDescs.map fun d => d.code)

theorem loopLanes_gridLive : ∃ e, loopLanes gridLive = some e ∧ e.reason = 10 := loopLanes_some (by decide +kernel) (by decide +kernel)

theorem partCells_gridLive : copyCells gridLive (tblBase gridLive 2) 0x8000 = [] ∧ tbl gridLive 2 0 2 = 1 :=
  ⟨by decide +kernel, by decide +kernel⟩

/-- The factory partitions share slots, rings and budget within their bounds. -/
theorem shares_gridLive : sumParts gridLive 1 1 ≤ 224 ∧ partByte gridLive 5 + sumParts gridLive 3 1 ≤ 256
    ∧ partByte gridLive 6 + sumParts gridLive 4 1 ≤ 256 ∧ sumParts gridLive 6 2 + safetyRsv gridLive + 2 ≤ budget gridLive :=
  ⟨by decide +kernel, by decide +kernel, by decide +kernel, by decide +kernel⟩

theorem quotas_gridLive : ((if 1 ≤ partByte gridLive 4 ∧ partByte gridLive 4 ≤ 64 then [] else [4])
    ++ ((List.range 8).filter fun p => decide (64 < partEntry gridLive p 2 1)).map fun p => 0x42 + p * 0x40) = [] := by decide +kernel

theorem owners_gridLive : (((List.range 5).filter fun i =>
    let o := ownerAt gridLive (8 + i)
    decide (o < 8) && !natBit (partEntry gridLive o 0 1) 0).map fun i => 8 + i) = [] := by decide +kernel

theorem ownershipOk_gridLive : ownershipOk gridLive = true := by decide +kernel

theorem slotTimes_gridLive : slotTimes gridLive = none := by decide +kernel

/-- The partition table's check finds the tick at which 65 loops are due. -/
theorem checkPart_gridLive : ∃ e, checkPart gridLive = some e ∧ e.reason = 10 := by
  obtain ⟨e, hlanes, hreason⟩ := loopLanes_gridLive
  obtain ⟨hcells, hformat⟩ := partCells_gridLive
  obtain ⟨hslots, hrings, hsubs, hbudget⟩ := shares_gridLive
  refine ⟨{ e with result := noEntry }, ?_, hreason⟩
  simp only [checkPart, strayCells, hcells, hformat, hslots, hrings, hsubs, hbudget, quotas_gridLive, owners_gridLive, ownershipOk_gridLive,
    slotTimes_gridLive, hlanes]
  rfl

theorem loadAllTables_gridNode :
    loadAllTables gridNode 1 (fun x d => 1 - activeCopy x d) = { gridNode with tables := gridCells (scanCopy 1) } :=
  loadAllTables_grid rfl sects_gridNode imgBytes_gridSect (by decide) (by decide +kernel)

theorem applyFails_gridNode :
    ∃ e, applyFails { gridNode with tables := gridCells (scanCopy 1) } = some (2, e) ∧ e.reason = 10 := by
  obtain ⟨e, hpart, hreason⟩ := checkPart_gridLive
  have htable : checkTable gridLive 2 = some e := hpart
  refine ⟨e, ?_, hreason⟩
  change (tableDescs.map fun d => d.code).findSome? (fun k => (checkTable gridLive k).map fun e => (k, e)) = _
  rw [tableDescs, List.map_cons, List.findSome?_cons, htable]
  rfl

/-- An apply that finds a table refused shows the table and its reason. -/
theorem imageApply_fails {c c1 : Chip} {k : Nat} {e : LoadErr} (hnone : applyRefusal c = 0)
    (hload : loadAllTables c (applyBank c) (fun x d => 1 - activeCopy x d) = c1) (hfails : applyFails c1 = some (k, e)) :
    imageApply c = setFld (setFld (loadSeqErr c1 e) 0x130 0 4 5) 0x130 8 8 k := by
  simp only [imageApply, hnone, hload, hfails, ne_eq, not_true_eq_false, if_false]

/-- The apply leaves the reason of the scan table in SEQ_LOAD_ERR. -/
theorem seqLoadErr_gridNode : reg (imageApply gridNode) 0x40010 ≠ reg gridNode 0x40010 := by
  obtain ⟨e, hfails, hreason⟩ := applyFails_gridNode
  have hbank : applyBank gridNode = 1 := by decide +kernel
  have hbefore : (reg gridNode 0x40010).toNat % 16 = 0 := by decide +kernel
  rw [imageApply_fails applyRefusal_gridNode (hbank ▸ loadAllTables_gridNode) hfails, reg_setFld_other _ _ _ _ _ _ (by decide),
    reg_setFld_other _ _ _ _ _ _ (by decide), loadSeqErr, if_neg (by omega), hreason, reg_setReg_self]
  intro h
  rw [← h, BitVec.toNat_ofNat] at hbefore
  omega

def applyRow : RegDesc := reg1 "NODE_IMG_APPLY" 0x130 [fd 0 4 .ro 0, fd 8 8 .ro 0, fd 16 2 .ro 0, fd 18 1 .ro 0, fd 31 1 .rwk 0]

theorem findReg_apply : findReg 0x130 = some applyRow := by decide +kernel

/-- A write that leaves the register file as it was changes nothing. -/
theorem setFlag_setReg_same {c : Chip} {off i : Nat} {v : Word} {b : Bool} (h : (setFlag (setReg c off v) off i b).regs = c.regs) :
    setFlag (setReg c off v) off i b = c := congrArg (fun r => { c with regs := r }) h

theorem applyWrite_gridNode : applyWrite gridNode keeper 0x80000000 allBytes = imageApply gridNode := by
  have hgo : (keeperCtx gridNode 0x130 applyRow (0x80000000 : Word).toNat (2 ^ 32 - 1)).hit 31 = true := by decide +kernel
  have hsame : setFlag (setReg gridNode 0x130 (keeperNow gridNode 0x130 applyRow (0x80000000 : Word).toNat (2 ^ 32 - 1))) 0x130 31 false
      = gridNode := setFlag_setReg_same (by decide +kernel)
  rw [applyWrite, writeWord_all hookApply _ findReg_apply (by decide +kernel), hookApply, hsame]
  exact if_pos hgo

/-- Refutes O54: the check of an image counts base ticks from G 0 (R341), the check at its apply from the next boundary too; where only
the second finds a tick with 65 loops, the apply writes the reason into SEQ_LOAD_ERR, which the third clause does not name. -/
theorem not_imageCommandsComplete : ¬ Obligations.ImageCommandsComplete := by
  rintro ⟨-, -, happly, -⟩
  obtain ⟨-, -, -, htouches⟩ := performs_elim (c := applyWrite gridNode keeper 0x80000000 allBytes)
    (happly ⟨gridNode, []⟩ applyRefusal_gridNode) rfl
  exact seqLoadErr_gridNode (applyWrite_gridNode ▸ htouches.reg (by decide +kernel))

end Sys2Proof.Machine
end
